-- ==== Sys2Proof/Word.lean ====
section
/-! DEFINITION. Word types of the part: bytes, 32-bit register words, 64-bit register values, physical addresses (R8 to R11),
bus masters, and the structured operands of the commands. -/
namespace Sys2Proof

/-- A byte of memory. -/
abbrev Byte := BitVec 8
/-- A 32-bit register word. -/
abbrev Word := BitVec 32
/-- A register value: 64 bits, of which a 32-bit register uses the low half. -/
abbrev DWord := BitVec 64
/-- A 40-bit physical address (Table 1.7). -/
abbrev PAddr := BitVec 40
/-- A bus master (Table 1.10): the masters that may send transactions; a reserved ID carries none (R38). -/
inductive Master where
  | keeper
  | app (core : Fin 4)
  | cqe | hif | bmu | mpc | rdc | wrc | sve | svc | alm | debug
  | dma (ch : Fin 64)
  deriving DecidableEq, Repr, Inhabited

/-- The master ID (Table 1.10). -/
def Master.id : Master → Nat
  | .keeper => 0x01
  | .app c => 0x02 + c
  | .cqe => 0x10
  | .hif => 0x11
  | .bmu => 0x12
  | .mpc => 0x18
  | .rdc => 0x20
  | .wrc => 0x21
  | .sve => 0x22
  | .svc => 0x30
  | .alm => 0x31
  | .debug => 0x3F
  | .dma n => 0x40 + n

/-- An application core. -/
def Master.isApp : Master → Bool
  | .app _ => true
  | _ => false

/-- The requester class (Table 1.11). -/
def Master.cls : Master → Nat
  | .hif => 0
  | .cqe => 1
  | .keeper => 2
  | .app c => 3 + c / 2
  | .mpc => 5
  | .rdc => 6
  | .wrc => 7
  | .sve => 8
  | .svc => 9
  | .bmu | .alm | .debug => 10
  | .dma n => 11 + n / 16

/-- The Keeper or an application core. -/
def Master.isCore (m : Master) : Bool := m == .keeper || m.isApp

/-- The header of a Strait frame as received (Table 9.2): the side it arrived on (0 P, on SL0; 1 N, on SL2), ORIGIN, HOPS, SEQ and
S2V. -/
structure StraitHdr where
  side : Fin 2
  origin : Fin 512
  hops : Fin 1024
  seq : Fin 256
  s2v : Bool
  deriving DecidableEq, Repr, Inhabited

/-- A Strait time stamp: Meridian time in ticks and the fine part in 1/16 ns, 0 to 1,999 (R247). -/
structure Stamp where
  ticks : BitVec 64
  fine : Fin 2000
  deriving DecidableEq, Repr, Inhabited

/-- A stamp in 1/16 ns. -/
def Stamp.units (t : Stamp) : Int := ((t.ticks.toNat * 2000 + t.fine.val : Nat) : Int)

/-- One channel bit of a sector as a head path takes it (R80, R87): the ADC samples of its two lanes, 8-bit two's complement, and the tentative
decision of the equaliser's short-delay detector, whose algorithm the spec does not give. -/
structure BitObs where
  x0 : BitVec 8
  x1 : BitVec 8
  d : Bool
  deriving DecidableEq, Repr, Inhabited

/-- How a decode ended (R129, R131): iterations used, unsatisfied checks, the 4,112 decoded (or hard-decision) bytes, bits that differ
between detector and codeword, reliabilities of a SOFT member, and the LLRs as bytes. -/
structure Decode where
  iter : Fin 256
  unsat : Fin 4097
  bytes : List Byte
  flips : Nat
  rel : List (Fin 16)
  llrs : List Byte
  deriving DecidableEq, Repr, Inhabited

/-- What the read of a sector left (R119, R129): the codeword's start relative to its nominal position and whether it was set from SM1, none after a sync
failure; whether timing recovery lost lock; how its decode ended. -/
structure ReadOut where
  sync : Option (Int × Bool)
  timing : Bool
  d : Option Decode
  deriving DecidableEq, Repr, Inhabited

/-- The read of a sector: its channel bits from the preamble, or from the last servo gate, to its end; or what it left, as the sender has it. -/
inductive SectorObs where
  | samples (bits : List BitObs)
  | result (r : ReadOut)
  deriving DecidableEq, Repr

/-- A sync mark of a sector (R119): where it ended, 16 being its nominal place, and how many of its 40 bits differ. -/
structure MarkObs where
  pos : Fin 33
  diff : Fin 41
  deriving DecidableEq, Repr, Inhabited

/-- A read given by its channel bits where it was sampled, else by what it left. -/
def readSeen (sampled : Bool) (r : ReadOut) (bits : List BitObs) : SectorObs := if sampled then .samples bits else .result r

/-- What a sector is read for: the media tag that its issuer wants, and whether it is a verify read (R139, R172). -/
structure MediaRead where
  tag : BitVec 32
  verify : Bool
  deriving DecidableEq, Repr, Inhabited

/-- A decode cut off: the iterations it had done, and the read (R131). -/
structure Cutoff where
  iter : Fin 21
  o : SectorObs
  deriving DecidableEq, Repr

/-- The start of a sector read: the head path, and the capture slot of the ladder whose re-read it is (R98, R132). -/
structure ReadStart where
  p : Fin 16
  reread : Option (Fin 4)
  deriving DecidableEq, Repr, Inhabited

/-- One servo wedge as a head path demodulates it (R190): the SAM's offset from its predicted position in servo bits, the wedge number, the
Gray-decoded track number, the burst amplitudes in ADC LSB and the RRO field. -/
structure WedgeObs where
  sam : Int
  wedge : Fin 1024
  gray : Fin 16777216
  a : Int
  b : Int
  rro : BitVec 16
  deriving DecidableEq, Repr, Inhabited

/-- A servo wedge of a head path: as lane 2p and as lane 2p + 1 sample it, none where no mark was found, and the channel bits, since the sector's
preamble or the last gate, of a sector that the gate splits (R120, R189). -/
structure WedgeIn where
  even : Option WedgeObs
  odd : Option WedgeObs
  bits : List BitObs
  deriving DecidableEq, Repr, Inhabited

/-- A member an issuer wants in a pass (R70, R150): slot, logical track, whether it is written and by which of the two writers; its place in the order of
R70, rule 4 (`cls` 0 needed to reconstruct, 1 of the command that opened the pass, 2 queued in the same bands, 3 rebuild, relocation, patrol); for work of
firmware, `reg` 1 registers the track's rows as an internal operation, 2 ends that with the pass (R63, R75, R278). -/
structure Want where
  slot : Fin 4
  track : Fin 16777216
  writer : Option (Fin 2)
  cls : Fin 4 := 0
  reg : Fin 3 := 0
  deriving DecidableEq, Repr, Inhabited

/-- How a half of a DRAM line reads (R361): clean, corrected, uncorrectable. -/
inductive Half where
  | clean | corrected | uncorrectable
  deriving DecidableEq, Repr, Inhabited

/-- What a march found in a row (Table 19.5): the first failing byte of the row, KIND, codeword bit, march element; in a row of L1 or L2, whose placement the
spec does not give, the lines (address bits [39:6]) that the row holds (R527). -/
structure RowFail where
  off : Fin 256
  kind : Fin 3
  bit : Fin 13
  step : Fin 256
  lines : List (BitVec 34) := []
  deriving DecidableEq, Repr, Inhabited

/-- Where an uncorrectable SRAM byte lies (R515). -/
inductive SramUe where
  | cleanLine | dirtyCacheLine (half : Nat) | elsewhere
  deriving DecidableEq, Repr, Inhabited

/-- What a handshake that its watchdog abandons was for (R482): a fabric transaction of a master, a sector's samples on a head path
(row and member), a sector's stream to a writer, or anything else. -/
inductive Handshake where
  | fabric (m : Master)
  | read (p : Fin 16)
  | write (w : Fin 8)
  | other
  deriving DecidableEq, Repr, Inhabited

/-- An NVMe submission entry as the host wrote it, but for its opcode, which the command names: byte 1 of Dword 0, command identifier,
namespace, pointers and command Dwords 10 to 15 (NVMe Base 2.0; assumption log 30). -/
structure Sqe where
  flags : BitVec 8
  cid : BitVec 16
  nsid : BitVec 32
  mptr : BitVec 64
  dptr : BitVec 128
  d10 : BitVec 32
  d11 : BitVec 32
  d12 : BitVec 32
  d13 : BitVec 32
  d14 : BitVec 32
  d15 : BitVec 32
  deriving DecidableEq, Repr, Inhabited

/-- The sixteen words of an entry. -/
def Sqe.words (x : Sqe) (opcode : Nat) : List Nat :=
  [opcode % 256 + x.flags.toNat * 256 + x.cid.toNat * 65536, x.nsid.toNat, 0, 0, x.mptr.toNat % 2 ^ 32, x.mptr.toNat / 2 ^ 32] ++
    ((List.range 4).map fun k => x.dptr.toNat / 2 ^ (32 * k) % 2 ^ 32) ++
    [x.d10.toNat, x.d11.toNat, x.d12.toNat, x.d13.toNat, x.d14.toNat, x.d15.toNat]

/-- Bytes 32 to 63 of a translated SAS command: its CDB, shorter ones filled with zeros (Table 12.11). -/
abbrev Cdb := BitVec 128

/-- A SAS command's origin: port, I_T nexus, task tag, logical unit, task attribute ORDERED. -/
structure SasFrom where
  q : Fin 2
  nexus : BitVec 16
  tag : BitVec 16
  lun : Fin 128
  ordered : Bool
  deriving DecidableEq, Repr, Inhabited

/-- What a payload of the TCG service asks of a namespace's key slot (R295 to R297): to lock it against the host, to unlock it, to erase it
(GenKey). The payload's own format is TCG Opal 2.0's and Ruby's. -/
inductive TcgAct where
  | lock (n : Fin 128) | unlock (n : Fin 128) | genKey (n : Fin 128)
  deriving DecidableEq, Repr, Inhabited

/-- The size that a host gives a controller's admin queues, in entries less one (AQA). -/
structure AdminQueues where
  asqs : Fin 256
  acqs : Fin 256
  deriving DecidableEq, Repr, Inhabited

/-- A BAND request of a Ferry channel: the channel, and the size that the map's copy then needs (R58). -/
structure BandReq where
  n : Fin 8
  size : BitVec 32
  deriving DecidableEq, Repr, Inhabited

/-- A write of PCX_PROT_COMMIT: its master and the regions that it commits (R433). -/
structure ProtCommit where
  m : Master
  mask : BitVec 64
  deriving DecidableEq, Repr, Inhabited

/-- What a BOOT meets: the power die's Causeway version (R477); whether the Keeper and application parts of slots A and B and the image in BOOT_SPI
pass their verification (R467, R575); whether device configuration passes its check (R499); the DRAM channels that fail training (R359); whether the
newer and the older copy of the concurrency map are valid (R58); whether VAON was lost (R545); the namespaces locked against host access after a power
cycle (R297); SVC_BOOT and FACTORY of device configuration (Table 18.3); the register words the Keeper writes from device configuration beside those the model records, by offset (Table 18.5). -/
structure BootIn where
  major : Fin 16
  minor : Fin 16
  keeperA : Bool
  keeperB : Bool
  spi : Bool
  config : Bool
  chFail : BitVec 4
  mapNew : Bool
  mapOld : Bool
  appA : Bool
  appB : Bool
  vaonLost : Bool
  locked : List (Fin 128)
  svcBoot : Bool
  factory : Bool
  device : List (BitVec 24 × Word)
  deriving DecidableEq, Repr, Inhabited

end Sys2Proof
end

