-- ==== Sys2Proof/Syntax.lean ====
section
/-! DEFINITION. The commands the part takes: one constructor for each row of the spec's table, with the row's operands. -/
namespace Sys2Proof

/-- A command (the rows of spec/opcode_table.json, in its order; each docstring gives the row's mnemonic, rule and summary). -/
inductive Instr where
  /-- REGISTER_WRITE (R14): A write to a register that has no row of its own takes effect field by field under its access codes. -/
  | registerWrite (m : Master) (offset : BitVec 24) (size : Fin 4) (v : BitVec 64)
  /-- READ_CLEAR (R598): A read of a word holding RC fields returns the value, clears those fields and, for a 64-bit low word, latches the high word
  per master. -/
  | readClear (m : Master) (offset : BitVec 24) (size : Fin 4)
  /-- LOW_WORD_WRITE (R599): A write to the low word of a 64-bit register is held per master until the high-word write applies both words together. -/
  | lowWordWrite (m : Master) (offset : BitVec 24) (v : Word)
  /-- FABRIC_TRANSACTION_TIMEOUT (R535): A fabric transaction not completed within BUS_TMO completes with a bus error and raises source 20. -/
  | fabricTransactionTimeout (m : Master) (typ size : Fin 16) (addr : PAddr)
  /-- CAUSEWAY_REGISTER_ACCESS (R476): An access to block 0xE is sent over the Causeway as REG_RD or REG_WR with a TAG and answered by REG_RSP. -/
  | causewayRegisterAccess (m : Master) (write : Bool) (offset : BitVec 20) (value : Word) (reqLost rspLost : Bool)
  /-- CAUSEWAY_REGISTER_RESEND (R476): A register frame unanswered after 1 µs is resent once with the same TAG. -/
  | causewayRegisterResend (tag : BitVec 8) (reqLost rspLost : Bool)
  /-- CAUSEWAY_REGISTER_TIMEOUT (R25): A block 0xE access unanswered 2 µs after its first frame completes with a bus error. -/
  | causewayRegisterTimeout (tag : BitVec 8)
  /-- POWER_ON (R587): Inputs meeting the start condition start the rail sequence, release of the logic die and a cold BOOT. -/
  | powerOn (b : BootIn)
  /-- NRESET (R571): An accepted low on nRESET starts a chip reset and a cold BOOT. -/
  | nreset (b : BootIn)
  /-- KEEPER_CHIP_RESET (R498): A chip reset requested by the Keeper starts a warm BOOT, with an orderly leave of the Archipelago. -/
  | keeperChipReset (keepDram : Bool) (b : BootIn)
  /-- JOURNAL_REPLAY_DONE (R511): Replay of the sealed journal completes, FETCH_EN sets and the journal engine arms. -/
  | journalReplayDone (b : BootIn)
  /-- BOOT_COMPLETE (R498): BOOT ends when the spindle is at speed and every actuator with a usable slot is loaded. -/
  | bootComplete
  /-- CAUSEWAY_HELLO (R477): A HELLO from the power die completes link-up or sets VER_ERR on a wrong major. -/
  | causewayHello (major minor : Fin 16)
  /-- HEARTBEAT_SEND (R478): PTM hardware sends HB over the Causeway every 2 µs while the link is up. -/
  | heartbeatSend
  /-- HEARTBEAT_TIMEOUT (R22): After 50 µs without a heartbeat the power die retracts every actuator and brakes the spindle. -/
  | heartbeatTimeout
  /-- CAUSEWAY_DOWN (R479): 20 µs without a valid upstream frame, or 8 CRC errors in 2 µs, takes the Causeway down and enters the safe state. -/
  | causewayDown
  /-- RESUME (R479): A Keeper write of RESUME sends RESUME and lets the power die accept motor commands. -/
  | resume (m : Master)
  /-- RELEASE (R501): RELEASE sent to the power die turns its stages off and enters HOLD if every arm is latched and the spindle is stopped. -/
  | release
  /-- STATUS (R474): A STATUS frame from the power die updates the reported PWR_STAT and power-die state. -/
  | status
  /-- EVT (R473): An EVT frame reports a change of PWR_STAT, such as a supply event, to PTM. -/
  | evt (loss warn : Bool) (railOk : Fin 64) (latched : Fin 16)
  /-- VCM_TICK (R475): The power die samples the named VCM currents and returns VCM_SAMP. -/
  | vcmTick (mask : Fin 16)
  /-- VCM_CMD (R475): The power die applies a bridge voltage command to a VCM within 160 ns. -/
  | vcmCmd (a : Fin 4) (v : BitVec 16)
  /-- VCM_SAMP (R186): A returned VCM current sample feeds the actuator's current context. -/
  | vcmSamp (a : Fin 4) (i bemf : BitVec 16)
  /-- SPN_DUTY (R475): The power die applies spindle phase duties at the next PWM period. -/
  | spnDuty (u v w : BitVec 16)
  /-- SPN_SAMP (R223): Returned phase currents feed the spindle field-oriented control period. -/
  | spnSamp (iu iv iw bemf : BitVec 16)
  /-- RETRACT (R480): The power die retracts the named actuators toward their ramps. -/
  | retract (mask : Fin 16)
  /-- RAIL_FAULT (R470): A rail out of regulation or at its limit clears RAIL_OK and raises the supply warning and its FCU source. -/
  | railFault (k : Fin 6)
  /-- SUPPLY_WARNING (R473): A supply warning sampled by PTM asserts the SUPPLY write-unsafe source. -/
  | supplyWarning
  /-- SUPPLY_WARNING_CLEAR (R473): The supply-warning source deasserts 1 ms after all its causes have cleared. -/
  | supplyWarningClear
  /-- SUPPLY_LOSS (R508): A supply loss starts the power-loss sequence: isolation, retract, closed budget, gates closed and journal mode. -/
  | supplyLoss
  /-- POWERLOSS_WRITER_ASSERT (R165): POWERLOSS asserts for a writer at its postamble end or 20 µs after detection, whichever comes first. -/
  | powerlossWriterAssert (w : Fin 8)
  /-- JOURNAL_COPY_DONE (R509): The journal engine has written every budget version and descriptor; the commit record is written and islands go down.
  -/
  | journalCopyDone
  /-- LOSS_RECOVERY (R508): Inputs above their warning thresholds for 100 ms take the power die from LOSS to HOLD and allow a cold BOOT. -/
  | lossRecovery
  /-- ARM_LATCH (R480): Back-EMF below 5 mV for 2 ms at full RET_V latches the arm, sets LATCHED and turns the bridge off. -/
  | armLatch (a : Fin 4)
  /-- RETRACT_TIMEOUT (R480): An arm not latched within RET_TMO has its bridge turned off with LATCHED left 0. -/
  | retractTimeout (a : Fin 4)
  /-- SPINDLE_BRAKE_END (R481): Braking ends after 1 s without a back-EMF zero crossing. -/
  | spindleBrakeEnd
  /-- HANDSHAKE_TIMEOUT (R482): A cross-domain handshake not answered within TIMEOUT is abandoned with an error response and logged. -/
  | handshakeTimeout (a b : Fin 60) (k : Handshake)
  /-- AVS_PERIOD (R484): Every 10 µs the adaptive-voltage loop raises or lowers VSET by the smallest island margin. -/
  | avsPeriod (margin : Int) (isl : Fin 32)
  /-- AVS_EMERGENCY_STEP (R484): A margin below EMER raises VSET by 5 codes and counts EMER_CNT. -/
  | avsEmergencyStep (margin : Int) (isl : Fin 32)
  /-- AVS_UNDERRUN (R486): A margin below 0 for 1 ms at VMAX raises the underrun FCU source. -/
  | avsUnderrun (margin : Int) (isl : Fin 32)
  /-- DEMAND_RISE_GRANT (R485): A rise in demand is granted once VSET has raised margins to MARGIN, or refused at VMAX with AVS_LIM. -/
  | demandRiseGrant (granted : Bool)
  /-- THERMAL_WARNING (R489): A junction at or above TWARN halves u and sets THROTTLE. -/
  | thermalWarning (tl tp : BitVec 8)
  /-- THROTTLE_CLEAR (R489): Junctions 5 °C below TWARN for 1 s clear THROTTLE. -/
  | throttleClear (tl tp : BitVec 8)
  /-- THERMAL_SHUTDOWN (R489): A junction at or above TSHUT enters the safe state. -/
  | thermalShutdown (tl tp : BitVec 8)
  /-- REQUEST_ACTIVE (R496): A mode request to ACTIVE restores speed, powers VPRE and loads the actuators. -/
  | requestActive (m : Master)
  /-- REQUEST_IDLE_I1 (R496): A mode request to IDLE I1 ends passes and keeps one servo head path per actuator. -/
  | requestIdleI1 (m : Master)
  /-- REQUEST_IDLE_I2 (R496): A mode request to IDLE I2 unloads every actuator and switches VPRE off. -/
  | requestIdleI2 (m : Master)
  /-- REQUEST_IDLE_I3 (R496): A mode request to IDLE I3 unloads and sets the spindle to 5,400 rpm. -/
  | requestIdleI3 (m : Master)
  /-- REQUEST_STANDBY (R496): A mode request to STANDBY destages, unloads, stops the spindle and lets DRAM self-refresh. -/
  | requestStandby (m : Master)
  /-- REQUEST_RETENTION (R501): A request to RETENTION leaves the Archipelago, disables the cache, self-refreshes DRAM and releases the power die. -/
  | requestRetention (m : Master)
  /-- REQUEST_SERVICE (R496): A mode request to SERVICE stops fetch of I/O queues and completes held I/O commands. -/
  | requestService (m : Master)
  /-- MODE_TRANSITION_DONE (R496): A mode transition reaches its target mode and TRANS clears. -/
  | modeTransitionDone
  /-- RETENTION_RELEASE_TIMEOUT (R501): STATUS still COMMANDED 10 µs after RELEASE ends the RETENTION transition with ERR in STANDBY. -/
  | retentionReleaseTimeout
  /-- RETENTION_WAKE (R502): An enabled wake source in RETENTION starts a warm BOOT with DRAM kept. -/
  | retentionWake (src : Fin 4) (rising : Bool) (b : BootIn)
  /-- SELF_REFRESH_ENTRY (R360): On PTM's request BMU puts DRAM in self-refresh. -/
  | selfRefreshEntry
  /-- SAFE_ENTER (R503): A Keeper write of ENTER enters the safe state with cause 0x7. -/
  | safeEnter (m : Master)
  /-- SAFE_EXIT (R506): A Keeper write of EXIT leaves the safe state into RECOVERY if the cause no longer persists. -/
  | safeExit (m : Master)
  /-- FAULT_EVENT (R532): A source's change to asserted is counted, captured, judged for severity and reacted to. -/
  | faultEvent (src : Fin 384) (t c : Bool) (m : Option Master) (typ size : Fin 16) (addr : PAddr)
  /-- ESCALATION_STEP (R536): Expiry of the escalation timer moves the source to NMI, block reset or safe state. -/
  | escalationStep (src : Fin 384)
  /-- FCU_WINDOW_END (R535): The end of a source's counting window returns WCNT to 0 and clears SEVERE. -/
  | fcuWindowEnd (src : Fin 384)
  /-- FCU_ACK (R537): A write to FCU_ACK acknowledges a source, stopping its ladder and restarting it if AGAIN was set. -/
  | fcuAck (m : Master) (src : Fin 512)
  /-- FCU_RAISE (R540): A write to FCU_RAISE raises one event of a software source. -/
  | fcuRaise (m : Master) (src : Fin 512)
  /-- CLR_CNT (R535): A Keeper write of CLR_CNT returns a source's WCNT to 0 and clears SEVERE. -/
  | clrCnt (m : Master) (src : Fin 384)
  /-- CAPTURE_CLEAR (R534): Clearing VALID re-arms first-error capture, if the writer may clear it. -/
  | captureClear (m : Master) (valid multi : Bool)
  /-- FCU_SELF_FAULT (R541): A mismatch of FCU's duplicate copies enters the safe state, sets SELF_FLT and delivers an NMI. -/
  | fcuSelfFault (regs : List (Fin 385)) (persistent : Bool)
  /-- FCU_RELOAD (R541): A Keeper write of DONE compares FCU's copies again and clears SELF_FLT if they agree. -/
  | fcuReload (m : Master)
  /-- CMO_CLEAN (R423): A maintenance GO with OP CLEAN writes dirty application-core cache lines of a range to DRAM. -/
  | cmoClean (m : Master) (lines : BitVec 16)
  /-- CMO_INVALIDATE (R423): A maintenance GO with OP INVALIDATE removes a range from L2 and every L1. -/
  | cmoInvalidate (m : Master) (lines : BitVec 16)
  /-- CMO_CLEAN_INVALIDATE (R423): A maintenance GO with OP CLEAN_INVALIDATE writes back then removes a range. -/
  | cmoCleanInvalidate (m : Master) (lines : BitVec 16)
  /-- CMO_DONE (R423): The last line of a core cache maintenance operation is handled and BUSY clears. -/
  | cmoDone (m : Master)
  /-- IRQ_CLAIM (R425): A read of PCX_IRQ_CLAIM returns and claims the highest-priority pending source of the target. -/
  | irqClaim (m : Master) (t : Fin 9)
  /-- IRQ_COMPLETE (R425): A write of a source number to PCX_IRQ_CLAIM completes that source. -/
  | irqComplete (m : Master) (t : Fin 9) (src : Fin 128)
  /-- MACHINE_TIMER (R426): Meridian time reaching PCX_MTIMECMP makes the hart's machine timer interrupt pending. -/
  | machineTimer (h : Fin 5)
  /-- MSIP_WRITE (R426): A write of PCX_MSIP sets or clears a hart's machine software interrupt. -/
  | msipWrite (m : Master) (h : Fin 5) (v : Bool)
  /-- PROT_COMMIT (R432): A write of PCX_PROT_COMMIT copies the named region shadows into use in one checker step. -/
  | protCommit (c : ProtCommit)
  /-- WATCHDOG_KICK (R434): A valid kick sets a hart watchdog's SINCE and STAGE to 0; other writes count in BADKICK. -/
  | watchdogKick (m : Master) (h : Fin 5) (v : Word)
  /-- WATCHDOG_STAGE_1 (R434): SINCE reaching TIMEOUT asserts the hart's stage-1 interrupt. -/
  | watchdogStage1 (h : Fin 5)
  /-- WATCHDOG_STAGE_2 (R434): SINCE reaching twice TIMEOUT raises the FCU source and restarts the Keeper or halts the core. -/
  | watchdogStage2 (h : Fin 5)
  /-- PAIR_MISCOMPARE (R435): A split-lock pair miscompare halts the application pair and discards its store buffer. -/
  | pairMiscompare (pair : Fin 2)
  /-- CORE_RUN (R436): A Keeper write of RUN starts or halts an application core and ends or begins inheritance. -/
  | coreRun (m : Master) (c : Fin 4) (run : Bool) (heir : Fin 4)
  /-- KEEPER_MISCOMPARE (R438): A Keeper lockstep miscompare stops both cores and starts a restart. -/
  | keeperMiscompare
  /-- KEEPER_RESTART_ENTRY (R438): The Keeper cores leave reset at the restart entry and resume from the newer valid checkpoint. -/
  | keeperRestartEntry
  /-- RESUMED (R438): A Keeper write of RESUMED ends the restart and releases held interrupts. -/
  | resumed (m : Master)
  /-- KEEPER_RESTART_TIMEOUT (R438): RESUMED not written within 100 ms of a restart enters the safe state. -/
  | keeperRestartTimeout
  /-- CORE_ACCESS_FAULT (R421): A bus error, denial or poison on a core access raises a precise trap. -/
  | coreAccessFault (h : Fin 5) (typ : Fin 4) (size : Fin 7) (a : PAddr)
  /-- ATOMIC_REGISTER_FAULT (R422): An atomic or fetch to register space is refused in the core with a precise fault. -/
  | atomicRegisterFault (h : Fin 5) (fetch : Bool) (a : PAddr)
  /-- TIME_CSR_READ (R428): Reading the time CSR returns 64-bit Meridian time. -/
  | timeCsrRead (h : Fin 5) (priv : Fin 4) (mTM sTM write : Bool)
  /-- MERFRAME_READ (R428): Reading MERFRAME returns the frame number and tick in the frame. -/
  | merframeRead (h : Fin 5) (priv : Fin 4) (mTM sTM write : Bool)
  /-- MERMODE_READ (R428): Reading MERMODE returns cap, allowances, safe state and mode. -/
  | mermodeRead (h : Fin 5) (priv : Fin 4) (mTM sTM write : Bool)
  /-- FERRY_POST (R447): A doorbell POST with the next SEQ locks the request slot and makes the channel POSTED. -/
  | ferryPost (m : Master) (n : Fin 8) (seq : BitVec 8)
  /-- FERRY_CANCEL (R447): A CANCEL of a POSTED request completes it with CANCELLED. -/
  | ferryCancel (m : Master) (n : Fin 8)
  /-- FERRY_TAKE (R447): The Keeper takes a POSTED request, making the channel TAKEN. -/
  | ferryTake (m : Master) (n : Fin 8)
  /-- FERRY_DONE (R447): The Keeper completes a TAKEN request with ERR and the completion is signalled. -/
  | ferryDone (m : Master) (n : Fin 8) (err : BitVec 8)
  /-- FERRY_TAKE_TIMEOUT (R454): A request POSTED for TAKE_TMO sets TMO and raises the channel's timeout source. -/
  | ferryTakeTimeout (n : Fin 7)
  /-- FERRY_DONE_TIMEOUT (R454): A request not done DONE_TMO after its post sets TMO and raises the timeout source. -/
  | ferryDoneTimeout (n : Fin 7)
  /-- FERRY_HELLO (R456): Negotiates the Ferry protocol version of the channel. -/
  | ferryHello (n : Fin 8)
  /-- MODE_SET (R496): Requests a mode transition and returns MERMODE after entry. -/
  | modeSet (n : Fin 8)
  /-- CAP_SET (R487): Sets the power cap and returns MERMODE. -/
  | capSet (n : Fin 8)
  /-- MODE_GET (R459): Returns MERMODE and the low word of Meridian time. -/
  | modeGet (n : Fin 8)
  /-- HP_PWR_SET (R113): Sets a head path's power state in SERVICE. -/
  | hpPwrSet (n : Fin 8)
  /-- MAP_COMMIT (R58): Commits a staged concurrency map in SERVICE and writes its Ephemeris copy. -/
  | mapCommit (n : Fin 8) (size : Word)
  /-- BAND_UPDATE (R54): Updates a band record's head bias and DRIFT flag. -/
  | bandUpdate (r : BandReq)
  /-- BAND_UNREACH (R62): Sets or clears UNREACH in a band record header. -/
  | bandUnreach (r : BandReq)
  /-- BAND_RELOCATE (R63): Links a band to a spare band by REMAPPED, IN_USE and LINK_BAND. -/
  | bandRelocate (r : BandReq)
  /-- HEAD_RETIRE (R73): Retires a head's slot to the actuator's spare and starts its rebuild. -/
  | headRetire (n : Fin 8)
  /-- KEEPER_AUTO_RETIRE (R73): A head FAILED for 10 s without a retire request is retired by the Keeper. -/
  | keeperAutoRetire (h : Fin 24)
  /-- REBUILD_ADVANCE (R73): Advances a rebuild watermark and ends the rebuild past the last data band. -/
  | rebuildAdvance (n : Fin 8)
  /-- HEAD_GET (R459): Returns a head's state, its slot map and its rebuild register. -/
  | headGet (n : Fin 8)
  /-- BANK_WRITE (R181): Writes words of a Transit coefficient shadow bank. -/
  | bankWrite (n : Fin 8)
  /-- BANK_COMMIT (R181): Commits Transit shadow banks of a unit and returns SVE_CLU_CTL. -/
  | bankCommit (n : Fin 8)
  /-- SVE_WRITE (R459): Writes an RWK register of block 0xC under a mask. -/
  | sveWrite (n : Fin 8)
  /-- SPIN (R227): Issues START or STOP to the spindle and returns SPN_STAT. -/
  | spin (n : Fin 8)
  /-- SPN_WRITE (R459): Writes a register of block 0xD under a mask. -/
  | spnWrite (n : Fin 8)
  /-- ORR_SET (R240): Writes SPN_ORR_CFG. -/
  | orrSet (n : Fin 8)
  /-- PLAN_STAGE (R266): Stages phase-plan entries in SPL_PLAN_TX. -/
  | planStage (n : Fin 8)
  /-- PLAN_SUBMIT (R266): Submits the staged phase plan and returns the version adopted. -/
  | planSubmit (n : Fin 8)
  /-- PLAN_GET (R459): Returns the adopted plan's version, origin and entries. -/
  | planGet (n : Fin 8)
  /-- SPL_WRITE (R459): Writes a register of block 0xF under a mask. -/
  | splWrite (n : Fin 8)
  /-- ARCH_STATUS (R459): Returns SPL status, sides, Meridian, forewarning and member bitmaps. -/
  | archStatus (n : Fin 8)
  /-- RELAY_REQ (R461): Sends a request to another member over the relay and returns its remote result. -/
  | relayReq (n : Fin 8)
  /-- RELAY_CFG (R461): Configures Almanac pushes to a collector member. -/
  | relayCfg (n : Fin 8)
  /-- RELAY_REASSEMBLY_TIMEOUT (R461): A relay request not reassembled within 100 ms is discarded. -/
  | relayReassemblyTimeout (origin : Fin 512) (x : BitVec 8)
  /-- CAL_RUN (R557): Starts a calibration item run, refused on condition, head or busy checks. -/
  | calRun (n : Fin 8)
  /-- CAL_STATUS (R560): Returns an item's calibration status, with counts and times for class S. -/
  | calStatus (n : Fin 8)
  /-- SVC_WRITE (R459): Writes a register of block 0x3 under a mask. -/
  | svcWrite (n : Fin 8)
  /-- SVY_RESULT (R526): Returns a Survey result record. -/
  | svyResult (n : Fin 8)
  /-- SVY_FULL (R529): Runs a full Survey test in SERVICE or arms the shutdown test. -/
  | svyFull (n : Fin 8)
  /-- ALM_GRANT (R553): Sets or clears the application reader's Almanac grant. -/
  | almGrant (n : Fin 8)
  /-- ALM_CLEAR (R556): A signed request that clears the Almanac. -/
  | almClear (n : Fin 8) (sigOk : Bool)
  /-- ALM_SUMMARY (R459): Returns Almanac counts per subsystem and the newest sequence. -/
  | almSummary (n : Fin 8)
  /-- FW_LOAD (R464): Writes and verifies a firmware image into the inactive slot part. -/
  | fwLoad (n : Fin 8) (verified : Bool)
  /-- FW_COMMIT (R466): Makes a valid firmware part active, at once with activation for NOW. -/
  | fwCommit (n : Fin 8)
  /-- FW_INFO (R459): Returns validity, activity, SVN and version of each slot part. -/
  | fwInfo (n : Fin 8)
  /-- NS_CREATE (R350): Creates a namespace with its rows, entry, group and key slot. -/
  | nsCreate (n : Fin 8)
  /-- NS_DELETE (R352): Deletes a namespace after its held commands end. -/
  | nsDelete (n : Fin 8)
  /-- NAMESPACE_DELETE_FINISH (R352): Once a deleted namespace holds no command, its data is discarded, key zeroised and rows freed. -/
  | namespaceDeleteFinish (k : Fin 128)
  /-- NS_ATTACH (R352): Applies a namespace's controller attachment. -/
  | nsAttach (n : Fin 8)
  /-- NS_FORMAT (R297): Formats a namespace, with cryptographic erase when asked. -/
  | nsFormat (n : Fin 8)
  /-- TCG_SEND (R459): Passes a Security Send payload to the Keeper's TCG Opal and Ruby service. -/
  | tcgSend (n : Fin 8) (acts : List TcgAct)
  /-- TCG_RECV (R459): Returns a Security Receive payload from the TCG service. -/
  | tcgRecv (n : Fin 8) (data : List Byte)
  /-- CHALLENGE (R460): Returns a nonce and INSTANCE for a later signed command. -/
  | challenge (n : Fin 8)
  /-- DEBUG_UNLOCK (R468): A signed request that unlocks debug. -/
  | debugUnlock (n : Fin 8) (sigOk : Bool)
  /-- DEBUG_LOCK (R468): Locks debug. -/
  | debugLock (n : Fin 8)
  /-- REG_READ (R459): Returns the values of consecutive registers. -/
  | regRead (n : Fin 8)
  /-- VLOG_GET (R462): Writes a vendor log page into a buffer. -/
  | vlogGet (n : Fin 8) (other : List Byte)
  /-- VLOG_PUT (R462): Takes a written phase-plan page 0xC3 and stages and submits it. -/
  | vlogPut (n : Fin 8)
  /-- ALM_RECORD_COMMIT (R550): ALM moves a staged record to its ring slot. -/
  | almRecordCommit
  /-- ALM_POST (R555): A Keeper write of POST enters a Keeper record into staging. -/
  | almPost (m : Master)
  /-- ALM_CTL_CLEAR (R556): A Keeper write of CLEAR starts zeroing the Almanac ring. -/
  | almCtlClear (m : Master)
  /-- ALM_CLEAR_DONE (R556): The ring is zeroed, a clear record is appended and cursors move to it. -/
  | almClearDone
  /-- ALM_CURSOR_WRITE (R554): A write of a reader's cursor is clamped to OLDEST and NEWEST + 1. -/
  | almCursorWrite (m : Master) (v : Word)
  /-- ALM_WINDOW_LATCH (R554): A read of ALM_WIN[0] latches the record under the cursor, moving a stale cursor to OLDEST. -/
  | almWindowLatch (m : Master)
  /-- ALM_WINDOW_ADVANCE (R554): A read of ALM_WIN[7] advances the reader's cursor. -/
  | almWindowAdvance (m : Master)
  /-- CAL_GO (R557): A write of SVC_CAL_CTL.GO starts the named calibration run. -/
  | calGo (m : Master) (cls : Fin 2) (item : BitVec 8) (head : Fin 32)
  /-- CAL_ITERATION_END (R558): A calibration iteration ends; convergence ends the run and writes its result and record. -/
  | calIterationEnd (vals : List Word) (q : Word) (inTol : Bool)
  /-- CAL_LIMIT_EXPIRY (R558): A run not converged within LIMIT ends with cause TIMEOUT and restored targets. -/
  | calLimitExpiry
  /-- BUCKET_LEAK (R517): Every LEAK ms a bucket count above 0 falls by 1. -/
  | bucketLeak (inst : Fin 256)
  /-- PATROL_DRAM_READ (R519): The DRAM sweep reads a line, corrects and writes back, or reports an uncorrectable half. -/
  | patrolDramRead (o0 o1 : Half)
  /-- PATROL_SRAM_READ (R520): The SRAM sweep reads 64 bytes every SR_INT µs. -/
  | patrolSramRead (corrected : Fin 65) (ue : Option (Fin 64 × SramUe))
  /-- PATROL_EMRAM_READ (R521): The eMRAM sweep reads words and rewrites corrected ones. -/
  | patrolEmramRead (o : Half)
  /-- SURVEY_SLICE_START (R522): SLICE_INT after the last slice, Survey locks, saves and marches the next row. -/
  | surveySliceStart (bad : Option (Fin 256))
  /-- SURVEY_SLICE_END (R522): A slice restores its window and unlocks it. -/
  | surveySliceEnd (f : Option RowFail)
  /-- SURVEY_SLICE_ABANDON (R523): A request inside a locked window makes the slice restore, unlock and let it through. -/
  | surveySliceAbandon
  /-- SURVEY_BUDGET_EXPIRY (R523): A slice that runs BUDGET without finishing abandons itself. -/
  | surveyBudgetExpiry
  /-- REPAIR_GO (R528): SVC_REPAIR GO maps a row onto a free spare row or sets ERR. -/
  | repairGo (m : Master) (inst : Fin 256) (row : BitVec 16)
  /-- MISS_FILL_DONE (R368): A buffer-cache miss delivers the critical half then the rest of the line, corrected or poisoned. -/
  | missFillDone (m : Master) (a : PAddr) (o0 o1 pre : Half) (lecc : Fin 256)
  /-- EVICTION_WRITE_DONE (R372): An eviction-buffer entry has been written to DRAM and is freed. -/
  | evictionWriteDone (line : BitVec 34)
  /-- PARTIAL_STORE_MERGE (R378): With the cache disabled a partial-line store is read, merged and written whole by the DRAM controller. -/
  | partialStoreMerge (m : Master) (a : PAddr) (bs : List Byte)
  /-- MNT_CLEAN (R374): BMU maintenance OP CLEAN writes dirty buffer-cache lines of a range to DRAM. -/
  | mntClean (m : Master) (lines : BitVec 20)
  /-- MNT_INVALIDATE (R374): BMU maintenance OP INVALIDATE removes a range, discarding dirty data. -/
  | mntInvalidate (m : Master) (lines : BitVec 20)
  /-- MNT_CLEAN_INVALIDATE (R374): BMU maintenance OP CLEAN_INVALIDATE writes back and removes a range. -/
  | mntCleanInvalidate (m : Master) (lines : BitVec 20)
  /-- MNT_DONE (R374): The last line of a BMU maintenance operation is handled and BUSY clears. -/
  | mntDone
  /-- WAY_OFF_REQUEST (R376): Setting OFF_REQ stops allocation into a way and starts its clean; clearing it powers an off way up. -/
  | wayOffRequest (m : Master) (mask : BitVec 16)
  /-- WAY_CLEAN_DONE (R376): A cleaned way is invalidated, powered down and its ON bit clears. -/
  | wayCleanDone (w : Fin 16)
  /-- WAY_POWER_UP_DONE (R376): A way powered up empty sets its ON bit. -/
  | wayPowerUpDone (w : Fin 16)
  /-- CACHE_DISABLE (R377): A write of ENABLE = 0 starts CLEANING with no further allocation. -/
  | cacheDisable (m : Master)
  /-- CACHE_DISABLE_DONE (R377): The last dirty line reaches DRAM, ways power down and STATE becomes DISABLED. -/
  | cacheDisableDone
  /-- CACHE_ENABLE (R377): A write of ENABLE = 1 in DISABLED powers up the ways and enters ENABLING. -/
  | cacheEnable (m : Master)
  /-- CACHE_ENABLE_DONE (R377): The cache reaches ENABLED. -/
  | cacheEnableDone
  /-- SLOT_ASSIGN (R380): A waiting write or media read is given buffer slots once free slots allow. -/
  | slotAssign (t : BitVec 12) (slots : List (Fin 1048576))
  /-- BUDGET_ENTRY (R382): A write whose data has arrived enters the power-safe dirty budget when enough units are free, and may complete. -/
  | budgetEntry (blocks : List (Fin 3040))
  /-- DISCARD_GO (R386): A Keeper GO of BMU_DISCARD sets BUSY for a namespace discard. -/
  | discardGo (m : Master) (n : Fin 128)
  /-- DISCARD_EXECUTE (R386): Once CQE holds no command of the namespace its versions, destage and frames are removed in one tick. -/
  | discardExecute
  /-- CCC_AGE (R388): Every 2^AGE s all popularity counters are halved. -/
  | cccAge
  /-- CCC_FRAME_FILL (R390): The journal and clean engine copies a checked LBA into its frame and sets its valid bit. -/
  | cccFrameFill (f : Fin 8192) (k : Fin 256)
  /-- DMA_COMMIT (R404): COMMIT makes a channel's shadow set pending for hand-over at the next descriptor boundary. -/
  | dmaCommit (m : Master) (n : Fin 64)
  /-- DMA_RESUME (R410): RESUME makes a SUSPENDED channel READY to retranslate its faulted access. -/
  | dmaResume (m : Master) (n : Fin 64)
  /-- DMA_ABORT (R414): ABORT halts a channel with cause ABORTED and discards its pending set. -/
  | dmaAbort (m : Master) (n : Fin 64)
  /-- DMA_CLEAR (R415): CLEAR makes a HALTED channel IDLE with counts and holding register emptied. -/
  | dmaClear (m : Master) (n : Fin 64)
  /-- DMA_BURST_DONE (R402): A source or destination burst completes, updating counts, and the domain arbitrates. -/
  | dmaBurstDone (n : Fin 64) (fail commit : Bool)
  /-- DMA_DESCRIPTOR_FETCH_DONE (R398): A fetched descriptor becomes active and is checked, halting with CONFIG if invalid. -/
  | dmaDescriptorFetchDone (n : Fin 64) (fail : Bool)
  /-- DMA_PROGRESS_TIMEOUT (R413): A channel holding an engine without a burst for 2^NOPROG µs halts with TIMEOUT. -/
  | dmaProgressTimeout (n : Fin 64)
  /-- DMA_PAGE_REQUEST_TIMEOUT (R410): A channel SUSPENDED for 2^PRQ µs raises its FCU source once. -/
  | dmaPageRequestTimeout (n : Fin 64)
  /-- IOTLB_INVALIDATE (R408): A write of DMF_INV.GO starts removal of IOTLB entries in scope. -/
  | iotlbInvalidate (m : Master) (scope : Fin 4) (asid : BitVec 16)
  /-- IOTLB_INVALIDATE_DONE (R408): All entries in scope are removed and their bursts completed, and BUSY clears. -/
  | iotlbInvalidateDone
  /-- SQ_TAIL_DOORBELL (R322): A host submission-queue doorbell makes entries available for fetch. -/
  | sqTailDoorbell (q : Fin 2) (i : Fin 65) (tail : Fin 4096)
  /-- CQ_HEAD_DOORBELL (R313): A host completion-queue doorbell frees entries and resumes held completions and fetch. -/
  | cqHeadDoorbell (q : Fin 2) (i : Fin 65) (head : Fin 4096)
  /-- CONTROLLER_ENABLE (R341): CC.EN set to 1 readies the controller and resumes fetch. -/
  | controllerEnable (q : Fin 2) (aq : AdminQueues) (wrr : Bool)
  /-- CONTROLLER_RESET (R341): A controller reset stops fetch, aborts reads, keeps arrived writes and discards incomplete ones. -/
  | controllerReset (q : Fin 2)
  /-- SHUTDOWN_NORMAL (R342): A normal shutdown notification stops fetch. -/
  | shutdownNormal (q : Fin 2)
  /-- SHUTDOWN_COMPLETE (R342): CSTS.SHST becomes 10b once every held command has completed and earlier writes are power-safe. -/
  | shutdownComplete (q : Fin 2)
  /-- SHUTDOWN_ABRUPT (R342): An abrupt shutdown notification acts as a controller reset. -/
  | shutdownAbrupt (q : Fin 2)
  /-- WRITE_DATA_COMPLETE (R328): All of a write's data has arrived and its versions enter the overlay index in one tick. -/
  | writeDataComplete (t : BitVec 12) (bytes : List Byte)
  /-- WRITE_ADMISSION (R345): A throttled write data transfer starts in a frame when R_adm allows. -/
  | writeAdmission (t : BitVec 12) (slots : List (Fin 1048576))
  /-- COMMAND_AGE_LIMIT (R347): A held command reaching AGE_LIM sets AGE_EVT and raises the command-age source. -/
  | commandAgeLimit (t : BitVec 12)
  /-- HANDOFF_ENTRY_WRITE (R353): A command for firmware is written to the hand-off ring when space frees. -/
  | handoffEntryWrite (row : Option (BitVec 40))
  /-- CQE_DONE_DW0 (R354): A write of CQE_DONE_DW0 latches completion Dword 0 per master. -/
  | cqeDoneDw0 (m : Master) (v : BitVec 32)
  /-- CQE_DONE (R354): A write of CQE_DONE posts the completion of a handed-off command or sets DONE_ERR. -/
  | cqeDone (m : Master) (t : BitVec 12) (sct : Fin 8) (sc : BitVec 8) (dnr : Bool)
  /-- ACTUATOR_CLAIM (R355): Firmware sets or clears CLAIM for an actuator. -/
  | actuatorClaim (a : Fin 4) (on : Bool)
  /-- CLAIM_LEASE_EXPIRY (R355): A grant held longer than LEASE sets LEASE_EVT and raises the claim source. -/
  | claimLeaseExpiry (a : Fin 4)
  /-- ACTIVATION_TIMEOUT (R344): 2 s after an activation commit the Keeper swaps the image even with commands held. -/
  | activationTimeout
  /-- ACTIVATION_RESUME (R343): After the image swap and core restart fetch resumes and CSTS.PP returns to 0. -/
  | activationResume
  /-- NVME_READ (R327): An NVMe Read is fetched, its overlaps resolved and its data served from buffer, cache or medium. -/
  | nvmeRead (q : Fin 2) (i : Fin 65) (x : Sqe)
  /-- NVME_WRITE (R332): An NVMe Write is fetched and its data moves into fresh slots. -/
  | nvmeWrite (q : Fin 2) (i : Fin 65) (x : Sqe)
  /-- NVME_FLUSH (R333): An NVMe Flush completes when earlier writes of its namespaces are power-safe. -/
  | nvmeFlush (q : Fin 2) (i : Fin 65) (x : Sqe)
  /-- WRITE_ZEROES (R335): Write Zeroes is handled as a write of zero data. -/
  | writeZeroes (q : Fin 2) (i : Fin 65) (x : Sqe)
  /-- ZONE_OPEN (R311): Zone Management Send action Open opens a zone. -/
  | zoneOpen (q : Fin 2) (i : Fin 65) (x : Sqe)
  /-- ZONE_CLOSE (R311): Zone Management Send action Close closes a zone. -/
  | zoneClose (q : Fin 2) (i : Fin 65) (x : Sqe)
  /-- ZONE_FINISH (R311): Zone Management Send action Finish finishes a zone. -/
  | zoneFinish (q : Fin 2) (i : Fin 65) (x : Sqe)
  /-- ZONE_RESET (R311): Zone Management Send action Reset resets a zone's write pointer. -/
  | zoneReset (q : Fin 2) (i : Fin 65) (x : Sqe)
  /-- ZONE_OFFLINE (R311): Zone Management Send action Offline takes a zone offline. -/
  | zoneOffline (q : Fin 2) (i : Fin 65) (x : Sqe)
  /-- ZONE_MANAGEMENT_RECEIVE (R311): Returns zone descriptors. -/
  | zoneManagementReceive (q : Fin 2) (i : Fin 65) (x : Sqe)
  /-- ZONE_APPEND (R311): Writes at the zone's write pointer, fixing its LBA at fetch, and returns the LBA written. -/
  | zoneAppend (q : Fin 2) (i : Fin 65) (x : Sqe)
  /-- IDENTIFY (R309): Returns Identify data structures. -/
  | identify (q : Fin 2) (x : Sqe)
  /-- GET_LOG_PAGE (R309): Returns a log page, vendor pages through firmware. -/
  | getLogPage (q : Fin 2) (x : Sqe)
  /-- SET_FEATURES (R309): Sets a supported feature, refusing disable of the write cache. -/
  | setFeatures (q : Fin 2) (x : Sqe)
  /-- GET_FEATURES (R309): Returns a supported feature's value. -/
  | getFeatures (q : Fin 2) (x : Sqe)
  /-- CREATE_IO_SUBMISSION_QUEUE (R309): Creates an I/O submission queue. -/
  | createIoSubmissionQueue (q : Fin 2) (x : Sqe)
  /-- CREATE_IO_COMPLETION_QUEUE (R312): Creates an I/O completion queue bound to an interrupt vector. -/
  | createIoCompletionQueue (q : Fin 2) (x : Sqe)
  /-- DELETE_IO_SUBMISSION_QUEUE (R340): Deletes a submission queue, aborting its held commands in one tick. -/
  | deleteIoSubmissionQueue (q : Fin 2) (x : Sqe)
  /-- DELETE_IO_COMPLETION_QUEUE (R309): Deletes an I/O completion queue. -/
  | deleteIoCompletionQueue (q : Fin 2) (x : Sqe)
  /-- ABORT (R338): An Abort catches a command before its catch point or reports it not caught. -/
  | abort (q : Fin 2) (x : Sqe)
  /-- ASYNCHRONOUS_EVENT_REQUEST (R309): Holds a request for a later asynchronous event. -/
  | asynchronousEventRequest (q : Fin 2) (x : Sqe)
  /-- NAMESPACE_MANAGEMENT (R350): Creates or deletes a namespace through the Keeper. -/
  | namespaceManagement (q : Fin 2) (x : Sqe)
  /-- NAMESPACE_ATTACHMENT (R352): Attaches or detaches a namespace to controllers. -/
  | namespaceAttachment (q : Fin 2) (x : Sqe)
  /-- FORMAT_NVM (R297): Formats a namespace, with cryptographic erase for Secure Erase Settings 2. -/
  | formatNvm (q : Fin 2) (x : Sqe)
  /-- FIRMWARE_IMAGE_DOWNLOAD (R466): Accepts a firmware image for a later commit. -/
  | firmwareImageDownload (q : Fin 2) (x : Sqe)
  /-- FIRMWARE_COMMIT (R343): Commits a firmware image; action 3 activates the application image without reset. -/
  | firmwareCommit (q : Fin 2) (x : Sqe)
  /-- SECURITY_SEND (R309): Passes a TCG Opal and Ruby payload to the Keeper. -/
  | securitySend (q : Fin 2) (x : Sqe)
  /-- SECURITY_RECEIVE (R309): Returns a TCG payload from the Keeper. -/
  | securityReceive (q : Fin 2) (x : Sqe)
  /-- VENDOR_ADMIN_COMMAND (R309): A vendor admin opcode reaches application firmware. -/
  | vendorAdminCommand (q : Fin 2) (op : Fin 64) (x : Sqe)
  /-- SAS_READ_16 (R314): A SAS READ (16) reads LBAs of a logical unit. -/
  | sasRead16 (f : SasFrom) (lba : BitVec 64) (n : BitVec 32)
  /-- SAS_WRITE_16 (R314): A SAS WRITE (16) writes LBAs, with FUA when set. -/
  | sasWrite16 (f : SasFrom) (lba : BitVec 64) (n : BitVec 32) (fua : Bool)
  /-- SYNCHRONIZE_CACHE_16 (R333): SYNCHRONIZE CACHE (16) behaves as a flush. -/
  | synchronizeCache16 (f : SasFrom)
  /-- REPORT_ZONES (R314): Returns zone descriptors of a zoned logical unit. -/
  | reportZones (f : SasFrom) (lba : BitVec 64) (cdb : Cdb)
  /-- OPEN_ZONE (R314): Opens a zone on SAS. -/
  | openZone (f : SasFrom) (lba : BitVec 64) (every : Bool) (cdb : Cdb)
  /-- CLOSE_ZONE (R314): Closes a zone on SAS. -/
  | closeZone (f : SasFrom) (lba : BitVec 64) (every : Bool) (cdb : Cdb)
  /-- FINISH_ZONE (R314): Finishes a zone on SAS. -/
  | finishZone (f : SasFrom) (lba : BitVec 64) (every : Bool) (cdb : Cdb)
  /-- RESET_WRITE_POINTER (R314): Resets a zone's write pointer on SAS. -/
  | resetWritePointer (f : SasFrom) (lba : BitVec 64) (every : Bool) (cdb : Cdb)
  /-- INQUIRY (R314): Returns standard or vital product data. -/
  | inquiry (f : SasFrom) (cdb : Cdb)
  /-- READ_CAPACITY_16 (R314): Returns a logical unit's capacity. -/
  | readCapacity16 (f : SasFrom) (cdb : Cdb)
  /-- REPORT_LUNS (R314): Returns the logical units. -/
  | reportLuns (f : SasFrom) (cdb : Cdb)
  /-- TEST_UNIT_READY (R314): Reports whether the logical unit is ready. -/
  | testUnitReady (f : SasFrom) (cdb : Cdb)
  /-- REQUEST_SENSE (R314): Returns sense data. -/
  | requestSense (f : SasFrom) (cdb : Cdb)
  /-- START_STOP_UNIT (R497): Selects power state PS0 or PS4 on SAS. -/
  | startStopUnit (f : SasFrom) (start : Bool) (cdb : Cdb)
  /-- MODE_SENSE_10 (R314): Returns the Caching or Control mode page. -/
  | modeSense10 (f : SasFrom) (cdb : Cdb)
  /-- MODE_SELECT_10 (R314): Sets the Caching or Control mode page. -/
  | modeSelect10 (f : SasFrom) (page : Fin 64) (bytes : List Byte) (cdb : Cdb)
  /-- WRITE_BUFFER (R314): Downloads firmware on SAS. -/
  | writeBuffer (f : SasFrom) (cdb : Cdb)
  /-- READ_BUFFER (R314): Reads a buffer on SAS. -/
  | readBuffer (f : SasFrom) (cdb : Cdb)
  /-- ABORT_TASK (R315): Aborts a task by tag and I_T nexus. -/
  | abortTask (q : Fin 2) (nexus tag : BitVec 16)
  /-- LOGICAL_UNIT_RESET (R315): Aborts every command of a logical unit as a controller reset limited to it. -/
  | logicalUnitReset (q : Fin 2) (nexus tag : BitVec 16) (lun : Fin 128)
  /-- I_T_NEXUS_RESET (R315): Aborts every command of one nexus across logical units. -/
  | iTNexusReset (q : Fin 2) (nexus tag : BitVec 16)
  /-- QUERY_TASK (R315): Reports whether a task is held. -/
  | queryTask (q : Fin 2) (nexus tag : BitVec 16)
  /-- MCTP_PACKET (R316): An MCTP packet on MGMT is answered, or wakes the device in RETENTION. -/
  | mctpPacket (payload : BitVec 64)
  /-- NVME_MI_BASIC_MANAGEMENT (R316): Answers the SMBus basic management block read. -/
  | nvmeMiBasicManagement
  /-- READ_NVME_MI_DATA_STRUCTURE (R316): Returns an NVMe-MI data structure. -/
  | readNvmeMiDataStructure (kind port : BitVec 8)
  /-- SUBSYSTEM_HEALTH_STATUS_POLL (R316): Returns subsystem health. -/
  | subsystemHealthStatusPoll
  /-- CONTROLLER_HEALTH_STATUS_POLL (R316): Returns controller health. -/
  | controllerHealthStatusPoll (q : Fin 2)
  /-- CONFIGURATION_SET (R316): Sets an NVMe-MI configuration item. -/
  | configurationSet (item : BitVec 8) (value : BitVec 32)
  /-- CONFIGURATION_GET (R316): Returns an NVMe-MI configuration item. -/
  | configurationGet (item : BitVec 8)
  /-- VPD_READ (R316): Returns VPD from device configuration. -/
  | vpdRead (off len : BitVec 16)
  /-- VPD_WRITE (R316): Writes VPD. -/
  | vpdWrite (off : BitVec 16) (bytes : List Byte)
  /-- MI_TUNNELLED_ADMIN (R316): Runs Identify, Get Log Page or Get Features tunnelled to controller 0. -/
  | miTunnelledAdmin (op : BitVec 8) (x : Sqe)
  /-- MI_VENDOR_COMMAND (R316): Passes a vendor NVMe-MI command to Ferry channel 4. -/
  | miVendorCommand (words : List Word)
  /-- HOST_LINK_UP (R303): A host port completes training at the highest common width and rate. -/
  | hostLinkUp (q : Fin 2) (rate : Fin 8) (width : Fin 5)
  /-- DL_DOWN (R317): DL_Down loses the port: LOST, FCU source, Almanac record and controller reset. -/
  | dlDown (q : Fin 2)
  /-- HOST_RECOVERY_TIMEOUT (R317): A stay in Recovery or loss of dword sync longer than REC_TMO loses the port. -/
  | hostRecoveryTimeout (q : Fin 2)
  /-- PERST_ASSERT (R308): An asserted PERST# resets that port's PCIe logic and controller. -/
  | perstAssert (q : Fin 2)
  /-- HOT_RESET (R308): A hot reset resets its port's PCIe logic and controller. -/
  | hotReset (q : Fin 2)
  /-- FUNCTION_LEVEL_RESET (R308): A Function Level Reset resets its port's controller. -/
  | functionLevelReset (q : Fin 2)
  /-- LINK_DISABLE (R308): A host link disable resets its port's PCIe logic and controller. -/
  | linkDisable (q : Fin 2)
  /-- SAS_HARD_RESET (R315): A SAS hard reset acts as a controller reset of that port. -/
  | sasHardReset (q : Fin 2)
  /-- PORT_DISABLE (R317): A write of DISABLE holds the port DOWN, counting as a loss if it was UP. -/
  | portDisable (q : Fin 2)
  /-- RETRAIN (R303): A write of RETRAIN retrains the PCIe link or resets the SAS link. -/
  | retrain (q : Fin 2)
  /-- PASS_START (R72): An issuer starts a pass, latching slot maps, head states and band records and selecting active head paths. -/
  | passStart (a : Fin 4) (firmware : Bool) (wants : List Want) (waiting : Option Nat)
  /-- PASS_END (R72): A pass ends; head paths leave the active set and live sets are written back. -/
  | passEnd (a : Fin 4) (waiting : Option Nat)
  /-- ZTAB_LOAD_DONE (R95): A coefficient-table load completes, or fails and sets ZT_ERR. -/
  | ztabLoadDone (p : Fin 16) (bad : Bool)
  /-- WTAB_LOAD_DONE (R157): A write-parameter load completes, or fails and sets WT_ERR. -/
  | wtabLoadDone (w : Fin 8) (bad : Bool)
  /-- RRO_LOAD_DONE (R213): A runout-table load completes, or fails and sets ERR. -/
  | rroLoadDone (set : Fin 20) (bad : Bool)
  /-- HP_POWER_UP_DONE (R112): A head path reaches SERVO or READY after its power-up time. -/
  | hpPowerUpDone (p : Fin 16) (ready : Bool)
  /-- HP_IDLE_OFF (R113): A head path unused for 10 ms beyond the allowed number goes OFF. -/
  | hpIdleOff (p : Fin 16)
  /-- SECTOR_PREAMBLE_START (R98): A sector preamble begins; pending register writes apply and single-reader mode may start. -/
  | sectorPreambleStart (x : ReadStart)
  /-- PREAMBLE_END (R92): At a preamble's end clearance is computed and weak preambles are counted. -/
  | preambleEnd (p : Fin 16) (track : Fin 16777216) (amps0 amps1 : List (BitVec 8)) (a1 a3 : BitVec 16)
  /-- CLEARANCE_DELIVERY (R93): RDC delivers a clearance estimate to WRC for the head. -/
  | clearanceDelivery (p : Fin 16)
  /-- SECTOR_READ_END (R129): A sector's decode ends with success or failure by DECODE, SYNC, TIMING or CRC. -/
  | sectorReadEnd (p : Fin 16) (row : Fin (2 ^ 40)) (j : Fin 16) (tag : Word) (verify sampled timing : Bool) (sm1 sm2 : Option MarkObs) (d : Option Decode)
    (bits : List BitObs)
  /-- DECODE_CUTOFF (R131): A decode still running when the next codeword's last LLR arrives ends as a failure. -/
  | decodeCutoff (p : Fin 16) (row : Fin (2 ^ 40)) (j : Fin 16) (x : MediaRead) (c : Cutoff)
  /-- LADDER_LEVEL_BOUNDARY (R132): A recovery level's re-read ends and the ladder succeeds, moves on or ends unrecovered. -/
  | ladderLevelBoundary (p : Fin 16) (slot : Fin 4) (needed sampled : Bool) (r : ReadOut) (bits : List BitObs)
  /-- L1_JOB_DONE (R135): An extended-decode job ends; success ends the ladder and may resend the member RECOVERED. -/
  | l1JobDone (p : Fin 16) (slot : Fin 4) (d : Option Decode)
  /-- READER_LOSS (R101): RDC reports reader loss for a lane and SVE moves the head to DEGRADED or FAILED. -/
  | readerLoss (n : Fin 32)
  /-- BOTH_READERS_LOSS (R102): Weak preambles on both lanes on a different track report loss of both readers. -/
  | bothReadersLoss (p : Fin 16)
  /-- SR_FORCE (R104): Setting or clearing SR_FORCE switches forced single-reader mode at the next boundary. -/
  | srForce (p : Fin 16) (on sel : Bool)
  /-- RETRY_ORDER_WRITE (R136): A write of RDC_RETRY_ORDER applies if valid, or is discarded with ORD_ERR. -/
  | retryOrderWrite (q : Fin 2) (v : Word)
  /-- HST_SNAP (R148): SNAP copies every head's live counters into the RDC_HST registers. -/
  | hstSnap
  /-- HST_CLR (R148): CLR clears the live counters and the registers. -/
  | hstClr
  /-- NP_DATA_ACCESS (R127): An access to RDC_NP_DATA reads or writes a noise-predictor word and may advance WORD. -/
  | npDataAccess (m : Master) (w : Option (BitVec 16))
  /-- DRIFT_LOG_READ (R61): A read of the drift log low word removes the oldest entry and latches its high word. -/
  | driftLogRead (m : Master)
  /-- PAL_HELLO (R106): A preamp HELLO answer fixes the link version and brings the link up. -/
  | palHello (a : Fin 4) (ver : Fin 256)
  /-- PREAMP_LINK_UP_START (R106): VPRE switched on or a link loss starts HELLO frames on a preamp link. -/
  | preampLinkUpStart (a : Fin 4)
  /-- PAL_STATUS (R105): A preamp STATUS frame reports bias, writer and assist faults. -/
  | palStatus (a : Fin 4) (payload : BitVec 24)
  /-- PAL_ACK (R108): A preamp ACK acknowledges a command frame. -/
  | palAck (a : Fin 4) (typ crc : BitVec 8)
  /-- PAL_RESEND (R108): A command unacknowledged for 2 µs is resent, up to three times. -/
  | palResend (a : Fin 4) (typ crc : BitVec 8)
  /-- PAL_ERROR_BURST (R109): A preamp link error burst erases the wedge interval's sectors, sets PAL_ERR and closes gates. -/
  | palErrorBurst (a : Fin 4) (crcErrors : Fin 256)
  /-- PAL_LINK_LOSS (R110): 20 µs without upstream frames takes the preamp link down and relinks. -/
  | palLinkLoss (a : Fin 4)
  /-- AST_ID (R159): The preamp's AST_ID frame sets each arm's assist type. -/
  | astId (a : Fin 4) (payload : BitVec 12)
  /-- AST_MON (R162): An assist monitor sample updates the assist drive code. -/
  | astMon (a : Fin 4) (arm : Fin 6) (m : BitVec 10) (gate : Bool)
  /-- WRITE_SECTOR_START (R164): At a write sector's preamble the gate opens if no source is live and data and ring room allow. -/
  | writeSectorStart (a : Fin 4) (i : Fin 2) (row : Fin (2 ^ 40)) (j : Fin 16) (tag : Word)
  /-- WRITE_SECTOR_END (R167): A written sector's postamble ends. -/
  | writeSectorEnd (w : Fin 8)
  /-- INHIBIT_SET (R155): Setting INHIBIT closes an open gate at once with cause INHIBIT. -/
  | inhibitSet (w : Fin 8)
  /-- INHIBIT_CLEAR (R155): Clearing INHIBIT lets the gate reopen at the next preamble. -/
  | inhibitClear (w : Fin 8)
  /-- ROW_WRITTEN (R171): One wedge interval after a row's last postamble without off-track or shock, WRC reports the row written. -/
  | rowWritten (row : Fin (2 ^ 40))
  /-- WEDGE_ARRIVAL (R193): A servo address mark is found and the wedge is demodulated into a PES or a miss. -/
  | wedgeArrival (p : Fin 16) (x : WedgeIn)
  /-- MISSING_WEDGE_REMOVAL (R192): MISS_CNT reaching MISS_N removes the head path from the active set. -/
  | missingWedgeRemoval (p : Fin 16)
  /-- SERVO_LOSS (R192): ACT_MISS wedges without a PES lose servo and request the actuator's retract. -/
  | servoLoss (a : Fin 4)
  /-- MICROACTUATOR_CLAMP_REMOVAL (R49): A microactuator at its clamp for 8 wedges removes its head path from the active set. -/
  | microactuatorClampRemoval (p : Fin 16)
  /-- EV_FORMATION (R184): SKEW_MAX after the first mark e_V is formed, pending head paths counting as missing. -/
  | evFormation (a : Fin 4)
  /-- CURRENT_TICK (R185): A current tick triggers the VCM current context of the actuator. -/
  | currentTick (a : Fin 4) (tick : Fin 8)
  /-- CONTEXT_TRIGGER (R178): A context trigger arriving while an earlier one waits replaces it and sets OVR. -/
  | contextTrigger (k : Fin 24) (e : BitVec 32)
  /-- CONTEXT_EXECUTION_END (R176): A control-law execution completes and its output takes effect. -/
  | contextExecutionEnd (k : Fin 24) (elapsed busy : BitVec 8)
  /-- CLU_COMMIT (R181): A write of SVE_CLU_CTL.COMMIT requests a shadow bank commit. -/
  | cluCommit (m : Master) (u : Fin 12) (mask : BitVec 4)
  /-- CLU_COMMIT_APPLY (R181): Between executions the shadow bank is copied into use, or refused with BANK_ERR. -/
  | cluCommitApply (u : Fin 12)
  /-- SERVICE_WRITE (R197): A write of SVE_SERVICE resets the tracking watchdog's SINCE. -/
  | serviceWrite (m : Master)
  /-- TRACKING_GRACE_EXPIRY (R197): SINCE reaching GRACE enters AUTONOMOUS and stops new seeks. -/
  | trackingGraceExpiry
  /-- TRACKING_LIMIT_EXPIRY (R197): SINCE reaching LIMIT sets EXPIRED and unloads every loaded actuator. -/
  | trackingLimitExpiry
  /-- PARK_TIMEOUT (R197): An actuator not parked 300 ms after its unload began is retracted by the power die. -/
  | parkTimeout (a : Fin 4)
  /-- SEEK_GO (R201): A GO submits a seek, checked and refused or started in MOVE, TRACK_IN or SETTLE. -/
  | seekGo (a : Fin 4) (slots : BitVec 4) (wr : Bool)
  /-- LOAD (R209): LOAD drives the arm off the ramp in LOADING. -/
  | load (a : Fin 4)
  /-- LOAD_TIMEOUT (R209): A load not detecting servo within LD_TMO unloads and retries or fails with ERR LOAD. -/
  | loadTimeout (a : Fin 4)
  /-- UNLOAD (R210): UNLOAD seeks to track 0 and drives the arm to the ramp. -/
  | unload (a : Fin 4)
  /-- SETTLE_TIMEOUT (R208): A slot not settled SET_TMO wedges after settle began is dropped. -/
  | settleTimeout (a : Fin 4)
  /-- VIB_CONVERSION (R216): Every 10 ticks vibration inputs are converted and the feedforward updated. -/
  | vibConversion (v0 v1 v2 v3 v4 v5 : BitVec 16)
  /-- SHOCK_EVENT_START (R218): An enabled shock comparator asserts SHOCK for all writers and stops learning. -/
  | shockEventStart (src : Fin 4) (peak : BitVec 8)
  /-- SHOCK_EVENT_END (R218): SHOCK deasserts SHK_HOLD after the last comparator assertion and the event is recorded. -/
  | shockEventEnd
  /-- FRAME_PULSE (R233): A Meridian frame pulse runs the speed context, Orrery update, guard, election and per-frame duties. -/
  | framePulse (turned : BitVec 34) (len : BitVec 16) (thetaM : BitVec 32)
  /-- FOC_PERIOD (R223): Each 1/48 kHz period the spindle current contexts execute and duties are sent. -/
  | focPeriod (theta : BitVec 16) (n : BitVec 22) (eu ev ew err : BitVec 16) (locked : Bool)
  /-- SPN_START (R227): START begins spindle start-up from the state given by back-EMF. -/
  | spnStart (m : Master)
  /-- SPN_STOP (R227): STOP brakes or shorts the spindle. -/
  | spnStop (m : Master)
  /-- SENSE_PULSE_DONE (R228): An inductive-sensing pulse's current has decayed and the next pulse or the angle follows. -/
  | sensePulseDone (peak : BitVec 16)
  /-- ALIGN_END (R228): After 200 ms of alignment drive the rotor angle is taken as 0. -/
  | alignEnd
  /-- OBSERVER_LOSS (R226): A loss of observer lock stops driving and enters CATCH. -/
  | observerLoss
  /-- RAMP_TIMEOUT (R227): No hand-over 100 electrical periods after HO_RPM fails the attempt. -/
  | rampTimeout
  /-- SHORT_END (R227): 1 s without a zero crossing in SHORT starts the next attempt, fails start-up or ends in OFF. -/
  | shortEnd
  /-- CATCH_TIMEOUT (R227): No observer lock within 200 ms in CATCH short-brakes the spindle. -/
  | catchTimeout
  /-- SPD_SET_WRITE (R241): A write of SPD_SET starts CHANGE or is held pending until unloaded. -/
  | spdSetWrite (m : Master) (v : BitVec 14)
  /-- SPN_COMMIT (R224): SPN_COMMIT copies a context's shadow bank into use. -/
  | spnCommit (m : Master) (mask : BitVec 3)
  /-- SPL_ENABLE (R257): Setting SPL_CFG.EN starts lane training and LINKING. -/
  | splEnable (m : Master)
  /-- SPL_DISABLE (R259): Clearing EN performs an orderly leave. -/
  | splDisable (m : Master)
  /-- HOP_SIGNAL_DETECT (R249): Signal on a side's receive lane after 1 ms idle starts training. -/
  | hopSignalDetect (d : Fin 2)
  /-- HOP_TRAIN_DONE (R249): Block lock and equalisation complete and HELLO frames begin. -/
  | hopTrainDone (d : Fin 2)
  /-- HOP_TRAIN_TIMEOUT (R249): Training not complete within 20 ms returns the side to DOWN. -/
  | hopTrainTimeout (d : Fin 2)
  /-- HELLO (R249): A Strait HELLO fixes the hop version, sends DLY_REQ and unwraps the side. -/
  | hello (d : Fin 2) (ver : BitVec 8) (peer : Fin 512)
  /-- HELLO_TIMEOUT (R249): No HELLO within 100 µs returns the side to DOWN. -/
  | helloTimeout (d : Fin 2)
  /-- STRAIT_SIDE_LOSS (R250): A lost side goes DOWN, idles its transmit lane and wraps. -/
  | straitSideLoss (d : Fin 2)
  /-- HOP_MARKER (R247): A hop marker block is received from the neighbour. -/
  | hopMarker (d : Fin 2) (peer : Fin 512) (link : Fin 4)
  /-- STRAIT_UNKNOWN_FRAME (R248): A frame of unknown or invalid TYPE, or with a CRC error, is forwarded or discarded. -/
  | straitUnknownFrame (h : StraitHdr) (typ : BitVec 8) (crcBad : Bool) (payload : List (BitVec 8))
  /-- BEACON (R258): A BEACON marks its member present and carries health and vibration level. -/
  | beacon (h : StraitHdr) (inst : BitVec 32) (healthy elig refLock : Bool) (master : Fin 512) (level : BitVec 8) (ver : BitVec 16)
  /-- BEACON_SEND (R258): MEMBER_ID × 15 ticks after frame start the member floods its BEACON. -/
  | beaconSend
  /-- JOIN (R253): A JOIN resets its origin's sequence state and adds the member. -/
  | join (h : StraitHdr) (inst : BitVec 32)
  /-- LEAVE (R259): A LEAVE removes the member and a neighbour wraps toward it. -/
  | leave (h : StraitHdr)
  /-- DLY_REQ (R261): A DLY_REQ is answered with DLY_RSP carrying time stamps. -/
  | dlyReq (d : Fin 2) (t1 t2 t3 : Stamp)
  /-- DLY_RSP (R261): A DLY_RSP gives the link delay of the side. -/
  | dlyRsp (d : Fin 2) (t1 t2 t3 t4 : Stamp)
  /-- TIME (R261): A TIME frame from the master disciplines Meridian time by trim or step. -/
  | time (h : StraitHdr) (tf : BitVec 64) (corr : BitVec 32) (rx : Stamp)
  /-- PLAN (R266): A PLAN part is collected and a complete newer plan adopted. -/
  | plan (h : StraitHdr) (ver : BitVec 16) (part : Fin 11) (entries : List (BitVec 8))
  /-- PLAN_TIMEOUT (R266): Plan parts incomplete after 10 ms are discarded with PLAN_ERR. -/
  | planTimeout (origin : Fin 512) (ver : BitVec 16)
  /-- SPL_PLAN_SUBMIT (R266): A Keeper SUBMIT floods SPL_PLAN_TX as a new plan version and adopts it. -/
  | splPlanSubmit (m : Master)
  /-- FWARN (R268): An FWARN frame within radius asserts FOREWARN and restarts its window. -/
  | fwarn (h : StraitHdr) (peak : BitVec 8) (src : Fin 8) (tm : BitVec 64)
  /-- FOREWARN_WINDOW_END (R268): FOREWARN deasserts FW_WIN after the last forewarning acted on. -/
  | forewarnWindowEnd
  /-- RELAY (R271): A RELAY frame for this member enters the receive queue or is lost to overflow. -/
  | relay (h : StraitHdr) (bcast : Bool) (dest : Fin 512) (data : List (BitVec 8))
  /-- RELAY_SEND (R271): A Keeper SEND originates a RELAY frame from SPL_RLY_TX. -/
  | relaySend (m : Master)
  /-- RELAY_POP (R271): POP removes the head of the relay receive queue. -/
  | relayPop (m : Master)
  /-- MER_IN_PULSE (R262): A MER_IN frame pulse disciplines Meridian time in PULSE mode. -/
  | merInPulse (tp : Stamp)
  /-- MEMBER_ARRIVAL (R284): A member reaches MPC, opening or joining a reconstruction context. -/
  | memberArrival (row : Fin (2 ^ 40)) (j : Fin 16) (status kind : Fin 4) (bytes : List Byte) (rel : List (Fin 16)) (crcs : List (Fin 16 × Word))
  /-- ENCODE_MEMBER (R280): MPC accepts a data member for encoding, assigning a VSN to a new row. -/
  | encodeMember (row : Fin (2 ^ 40)) (j : Fin 16) (recorded : Option (List Byte)) (lost : Bool)
  /-- PARITY_READY (R280): A row's parity members are ready in its encode slot. -/
  | parityReady (row : Fin (2 ^ 40))
  /-- KEY_LOAD (R295): Key-slot LOAD loads K1, K2 and KGEN into READY or LOCKED. -/
  | keyLoad (m : Master) (slot : Fin 128) (kgen : Fin 64) (hostEn : Bool)
  /-- KEY_LOCK (R295): Key-slot LOCK makes the slot LOCKED. -/
  | keyLock (m : Master) (slot : Fin 128)
  /-- KEY_UNLOCK (R295): Key-slot UNLOCK makes the slot READY. -/
  | keyUnlock (m : Master) (slot : Fin 128)
  /-- KEY_ZEROISE (R295): Key-slot ZEROISE zeroises the key and makes the slot EMPTY. -/
  | keyZeroise (m : Master) (slot : Fin 128)
  /-- SLOT_MAP_WRITE (R43): A Keeper write of SVE_SLOT_MAP applies or is discarded for invalid or duplicate arms. -/
  | slotMapWrite (m : Master) (a : Fin 4) (v : Word)
  /-- HEAD_STATE_WRITE (R605): A Keeper write of SVE_HEAD_STATE applies a valid transition or is discarded. -/
  | headStateWrite (m : Master) (h : Fin 24) (v : Word)
  /-- LED_STRETCH_END (R572): LED0 is released STRETCH ms after its last assertion when idle. -/
  | ledStretchEnd
  /-- PERST_DEASSERT (R308): Deassertion of PERST# on GPIO00 or GPIO01 releases that port's PCIe logic and controller from reset so the port can
  train. -/
  | perstDeassert (q : Fin 2)
  /-- CONTROLLER_RESET_COMPLETE (R341): A controller reset finishes and CSTS.RDY reads 0, and for an abrupt shutdown CSTS.SHST becomes 10b. -/
  | controllerResetComplete (q : Fin 2)
  /-- INTERRUPT_COALESCING_TIMEOUT (R312): The Interrupt Coalescing aggregation time of an I/O completion queue expires and the held interrupt message
  is sent. -/
  | interruptCoalescingTimeout (q : Fin 2) (i : Fin 65)
  /-- OPERATING_HOUR_ELAPSED (R545): The always-on operating-time counter completes an hour, and the Keeper copies the counters and writes the hourly
  Almanac records of R64 and R76. -/
  | operatingHourElapsed
  /-- REFCLK_H_LOSS (R306): REFCLK_H becomes absent or goes out of its limits on a port with CLK_SRC 0, which sets REFCLK_BAD and holds the port in
  Detect. -/
  | refclkHLoss
  /-- REFCLK_H_RETURN (R306): REFCLK_H returns within its limits, clearing REFCLK_BAD and letting the port leave Detect. -/
  | refclkHReturn
  /-- LINK_L1_ENTRY (R307): A PCIe port enters ASPM L1, so that HIF_PORT_STAT.LINK reads UP in L1. -/
  | linkL1Entry (q : Fin 2)
  /-- LINK_L1_EXIT (R307): A PCIe port leaves L1 and returns to UP. -/
  | linkL1Exit (q : Fin 2)
  /-- PME_TURN_OFF (R307): A PME_Turn_Off message from the host takes a PCIe port into L2, as R501 requires before RETENTION. -/
  | pmeTurnOff (q : Fin 2)
  deriving DecidableEq, Repr

end Sys2Proof
end

