-- ==== Sys2Proof/Decode.lean ====
section
/-! DEFINITION. The command that a word spells by the table's bits. The spec's table gives no row any bits: a command is an event at the part's
registers, links and pins, and no word of bits stands for one. -/
namespace Sys2Proof

/-- The rows that give bits: none. So no word spells a command. -/
def decodeTableWord (_nbits _w : Nat) : Option Instr := none

end Sys2Proof
end

