-- ==== Sys2Proof/Machine/RegNames.lean ====
section
/-! DEFINITION. The register names of the part: one constructor per register array of the chapters (R589, Tables 3.1 to 22.7 and 23.2),
and the four common registers of Table 23.3, whose element is the block number. -/
namespace Sys2Proof.Machine

/-- A register array of the register map (R9, R589). -/
inductive RegName where
  -- block 0x0, PTM
  | PTM_MODE_STAT | PTM_MODE_CTL | PTM_SAFE_CTL | PTM_BOOT_STAT | PTM_WAKE_CFG | PTM_JNL_STAT | PTM_CAP_CFG | PTM_CAP_STAT
  | PTM_AVS_CFG | PTM_AVS_STAT | PTM_HSW_CFG | PTM_HSW_LOG | PTM_ISL_PWR | PTM_DOM_PWR | PTM_THERM | PTM_MER_TIME | PTM_CW_CTL
  | PTM_CW_STAT | PTM_GPIO_DIR | PTM_GPIO_OUT | PTM_GPIO_IN | PTM_GPIO_PULL | PTM_LED_CFG
  -- block 0x1, FCU
  | FCU_SRC_CFG | FCU_SRC_STAT | FCU_CFG | FCU_ACK | FCU_RAISE | FCU_SELF | FCU_RELOAD | FCU_FEC_INFO | FCU_FEC_ADDR
  | FCU_FEC_TIME | FCU_PEND
  -- block 0x2, ALM
  | ALM_CFG | ALM_STAT | ALM_OLDEST | ALM_NEWEST | ALM_CURSOR | ALM_WIN | ALM_POST | ALM_CTL
  -- block 0x3, SVC
  | SVC_PTL_CFG | SVC_PTL_STAT | SVC_PTL_BASE | SVC_PTL_LIMIT | SVC_SVY_CFG | SVC_SVY_STAT | SVC_REPAIR | SVC_SVY_EN
  | SVC_LB_PEND | SVC_SVY_RES | SVC_LB_CFG | SVC_LB_STAT | SVC_INST_STAT | SVC_CAL_CTL | SVC_CAL_STAT | SVC_CAL_REF
  -- block 0x4, PCX
  | PCX_CFG | PCX_CORE_CTL | PCX_CORE_STAT | PCX_RST_VEC | PCX_KPR_STAT | PCX_KPR_CTL | PCX_CKPT | PCX_NMI_VEC | PCX_WDT_CTL
  | PCX_WDT_KICK | PCX_WDT_STAT | PCX_MTIMECMP | PCX_MSIP | PCX_CMO_ADDR | PCX_CMO_CTL | PCX_IRQ_SRC | PCX_IRQ_THR
  | PCX_IRQ_CLAIM | PCX_PROT_BASE | PCX_PROT_LIMIT | PCX_PROT_ATTR | PCX_PROT_COMMIT | PCX_PROT_STAT | PCX_FRY_REQ | PCX_FRY_RES
  | PCX_FRY_DB | PCX_FRY_STAT | PCX_FRY_KCTL | PCX_FRY_CFG | PCX_DBG_STAT
  -- block 0x5, HIF
  | HIF_CFG | HIF_PORT_CTL | HIF_PORT_STAT | HIF_ERR_CNT
  -- block 0x6, CQE
  | CQE_CFG | CQE_STAT | CQE_OVL_CFG | CQE_SCHED | CQE_THROT | CQE_AGE | CQE_CLAIM | CQE_HQ_BASE | CQE_HQ_CTL | CQE_HQ_PTR
  | CQE_DONE_DW0 | CQE_DONE | CQE_OVL_STAT | CQE_NS_CFG | CQE_NS_BASE | CQE_NS_ROWS
  -- block 0x7, BMU
  | BMU_CFG | BMU_STAT | BMU_CC_CTL | BMU_WAY_PWR | BMU_STREAM_CFG | BMU_EVB_STAT | BMU_CLASS_CFG | BMU_MNT_ADDR | BMU_MNT_CTL
  | BMU_SLOT_BASE | BMU_SLOT_CFG | BMU_SLOT_STAT | BMU_BUDGET | BMU_DISCARD | BMU_CCC_BASE | BMU_CCC_CFG | BMU_CCC_STAT
  | BMU_CCC_NS
  -- block 0x8, DMF
  | DMF_CH_CTL | DMF_CH_STAT | DMF_CH_CFG | DMF_CH_ATP | DMF_CH_FAULT_VA | DMF_CH_PROG | DMF_CH_SHD | DMF_CH_ACT | DMF_CFG
  | DMF_FP_MASK | DMF_INV | DMF_INV_VA | DMF_IRQ_PEND
  -- block 0x9, MPC
  | MPC_CFG | MPC_STAT | MPC_VSN | MPC_WORK_BASE | MPC_CNT_REC | MPC_CNT_FAIL | MPC_CNT_MIS | MPC_EVT_LOG | MPC_KEY_CTL
  | MPC_KEY_DATA | MPC_KEY_STAT
  -- block 0xA, RDC
  | RDC_LANE_AFE | RDC_LANE_SKEW | RDC_LANE_STAT | RDC_HP_CTL | RDC_HP_RATE | RDC_HP_TR | RDC_HP_ADAPT | RDC_HP_TARGET
  | RDC_HP_LOOP | RDC_HP_CLR | RDC_HP_STAT | RDC_HP_TAP | RDC_ZTAB_BASE | RDC_PAL_STAT | RDC_HEAD_CFG | RDC_HP_DET | RDC_HP_DEC
  | RDC_HP_SYNC | RDC_RETRY_STAT | RDC_NP_ADDR | RDC_NP_DATA | RDC_RETRY_CFG | RDC_RETRY_ORDER | RDC_CAP_BASE | RDC_HST_CTL
  | RDC_LDPC_H | RDC_HST_SECT | RDC_HST_FAIL | RDC_HST_SYNC | RDC_HST_FLIP | RDC_HST_HOFF | RDC_HST_UNREC | RDC_HST_REC
  -- block 0xB, WRC
  | WRC_WR_CTL | WRC_WR_STAT | WRC_HEAD_CFG | WRC_WTAB_BASE | WRC_CFG | WRC_WUS_STAT | WRC_VFY_CFG | WRC_TRIM_CFG | WRC_RWL_BASE
  | WRC_RWL_CTL | WRC_RWL_PTR
  -- block 0xC, SVE
  | SVE_COEF | SVE_CLU_CTL | SVE_CLU_STAT | SVE_CTX_CFG | SVE_CTX_MAN | SVE_CTX_OUT | SVE_CTX_INTEG | SVE_CTX_STAT | SVE_SV_CFG
  | SVE_ACT_CFG | SVE_ACT_STAT | SVE_PES | SVE_WEDGE_STAT | SVE_TRK_CTL | SVE_SERVICE | SVE_TRK_STAT | SVE_SEEK_TGT
  | SVE_SEEK_DLT | SVE_SEEK_CMD | SVE_SEEK_STAT | SVE_TRAJ_LIM | SVE_TRAJ_GAIN | SVE_SETTLE_CFG | SVE_RAMP_CFG | SVE_RRO_BASE
  | SVE_RRO_CTL | SVE_RRO_HARM | SVE_NOTCH_CTL | SVE_NOTCH_LIM | SVE_NOTCH_STAT | SVE_VFF_CTL | SVE_SHK_CFG | SVE_SHK_STAT
  | SVE_VG_CFG | SVE_VFF_COEF | SVE_CMAP_BASE | SVE_CMAP_CFG | SVE_DRIFT_CFG | SVE_DRIFT_STAT | SVE_DRIFT_LOG | SVE_SLOT_MAP
  | SVE_REBUILD | SVE_HEAD_STATE
  -- block 0xD, SPN
  | SPN_CTL | SPN_STAT | SPN_LIM | SPN_SU_CFG | SPN_HO_CFG | SPN_MOTOR | SPN_ORR_CFG | SPN_ORR_STAT | SPN_COMMIT | SPN_CTX_CFG
  | SPN_CTX_MAN | SPN_CTX_OUT | SPN_CTX_INTEG | SPN_CTX_STAT | SPN_COEF
  -- block 0xE, PWR
  | PWR_STAT | PWR_SNS_CFG | PWR_VCM_CFG | PWR_RET_CFG | PWR_HU_CFG
  -- block 0xF, SPL
  | SPL_CFG | SPL_STAT | SPL_SIDE_STAT | SPL_MER_CFG | SPL_MER_STAT | SPL_FW_CFG | SPL_FW_STAT | SPL_VIB | SPL_PLAN_CTL
  | SPL_RLY_CTL | SPL_MEMBERS | SPL_PLAN | SPL_PLAN_TX | SPL_RLY_TX | SPL_RLY_RX
  -- common registers (Table 23.3)
  | BLK_ID | BLK_VER | BLK_IRQ | BLK_LOCK
  deriving DecidableEq, Repr

end Sys2Proof.Machine
end

