-- ==== Sys2Proof/Machine/RegTable.lean ====
section
/-! DEFINITION. The register map: address, element counts, width, fields, access codes and reset values of every register
array (R9 to R14, R589 to R594 and the field tables of the chapters). -/
namespace Sys2Proof.Machine

/-- Access codes (Table 0.3). `wok` is a WO field reserved to the Keeper (R596). -/
inductive Acc where
  | ro | rw | rwk | rwl | w1c | w1s | wo | wok | rc
  deriving DecidableEq, Repr

/-- A register field: bits `hi` down to `lo` of register `reg`, with its access code. -/
structure Fld where
  reg : RegName
  hi : Nat
  lo : Nat
  acc : Acc
  deriving DecidableEq, Repr

/-- Width of a field in bits. -/
def Fld.width (f : Fld) : Nat := f.hi + 1 - f.lo

-- PTM_MODE_STAT (Table 18.12)
def PTM_MODE_STAT.MODE : Fld := ⟨.PTM_MODE_STAT, 31, 29, .ro⟩
def PTM_MODE_STAT.ILVL : Fld := ⟨.PTM_MODE_STAT, 28, 27, .ro⟩
def PTM_MODE_STAT.SAFE : Fld := ⟨.PTM_MODE_STAT, 26, 26, .ro⟩
def PTM_MODE_STAT.TRANS : Fld := ⟨.PTM_MODE_STAT, 25, 25, .ro⟩
def PTM_MODE_STAT.WAKE : Fld := ⟨.PTM_MODE_STAT, 24, 24, .w1c⟩
def PTM_MODE_STAT.SAFE_CAUSE : Fld := ⟨.PTM_MODE_STAT, 23, 20, .ro⟩
def PTM_MODE_STAT.MEDIA_EN : Fld := ⟨.PTM_MODE_STAT, 19, 19, .rwk⟩
def PTM_MODE_STAT.LAST_WAKE : Fld := ⟨.PTM_MODE_STAT, 18, 16, .ro⟩
def PTM_MODE_STAT.PS : Fld := ⟨.PTM_MODE_STAT, 10, 8, .ro⟩
-- PTM_MODE_CTL (Table 18.13)
def PTM_MODE_CTL.GO : Fld := ⟨.PTM_MODE_CTL, 31, 31, .wok⟩
def PTM_MODE_CTL.REQ_MODE : Fld := ⟨.PTM_MODE_CTL, 30, 28, .rwk⟩
def PTM_MODE_CTL.REQ_ILVL : Fld := ⟨.PTM_MODE_CTL, 27, 26, .rwk⟩
def PTM_MODE_CTL.RET : Fld := ⟨.PTM_MODE_CTL, 25, 25, .rwk⟩
def PTM_MODE_CTL.ERR : Fld := ⟨.PTM_MODE_CTL, 24, 24, .w1c⟩
-- PTM_SAFE_CTL (Table 18.13)
def PTM_SAFE_CTL.ENTER : Fld := ⟨.PTM_SAFE_CTL, 31, 31, .wok⟩
def PTM_SAFE_CTL.EXIT : Fld := ⟨.PTM_SAFE_CTL, 30, 30, .wok⟩
def PTM_SAFE_CTL.NFAULT_EN : Fld := ⟨.PTM_SAFE_CTL, 29, 29, .rwk⟩
def PTM_SAFE_CTL.PARK : Fld := ⟨.PTM_SAFE_CTL, 28, 28, .rwk⟩
-- PTM_BOOT_STAT (Table 18.14)
def PTM_BOOT_STAT.STEP : Fld := ⟨.PTM_BOOT_STAT, 31, 28, .ro⟩
def PTM_BOOT_STAT.WARM : Fld := ⟨.PTM_BOOT_STAT, 27, 27, .ro⟩
def PTM_BOOT_STAT.DRAM_KEPT : Fld := ⟨.PTM_BOOT_STAT, 26, 26, .ro⟩
def PTM_BOOT_STAT.FETCH_EN : Fld := ⟨.PTM_BOOT_STAT, 25, 25, .ro⟩
def PTM_BOOT_STAT.BOOT_ERR : Fld := ⟨.PTM_BOOT_STAT, 23, 16, .ro⟩
def PTM_BOOT_STAT.BOOT_MS : Fld := ⟨.PTM_BOOT_STAT, 15, 0, .ro⟩
-- PTM_WAKE_CFG (Table 18.14)
def PTM_WAKE_CFG.WAKE_POL : Fld := ⟨.PTM_WAKE_CFG, 8, 8, .rwk⟩
def PTM_WAKE_CFG.GPIO_EN : Fld := ⟨.PTM_WAKE_CFG, 3, 3, .rwk⟩
def PTM_WAKE_CFG.MGMT_EN : Fld := ⟨.PTM_WAKE_CFG, 2, 2, .rwk⟩
def PTM_WAKE_CFG.PERST_EN : Fld := ⟨.PTM_WAKE_CFG, 1, 0, .rwk⟩
-- PTM_JNL_STAT (Table 18.14)
def PTM_JNL_STAT.ARMED : Fld := ⟨.PTM_JNL_STAT, 31, 31, .ro⟩
def PTM_JNL_STAT.SEALED : Fld := ⟨.PTM_JNL_STAT, 30, 30, .ro⟩
def PTM_JNL_STAT.REPLAYED : Fld := ⟨.PTM_JNL_STAT, 29, 29, .ro⟩
def PTM_JNL_STAT.UNITS : Fld := ⟨.PTM_JNL_STAT, 27, 16, .ro⟩
def PTM_JNL_STAT.EPOCH : Fld := ⟨.PTM_JNL_STAT, 15, 0, .ro⟩
-- PTM_CAP_CFG (Table 17.15)
def PTM_CAP_CFG.CAP : Fld := ⟨.PTM_CAP_CFG, 31, 24, .rwk⟩
def PTM_CAP_CFG.P_FIXED : Fld := ⟨.PTM_CAP_CFG, 23, 16, .rwk⟩
def PTM_CAP_CFG.P_UNIT : Fld := ⟨.PTM_CAP_CFG, 15, 8, .rwk⟩
-- PTM_CAP_STAT (Table 17.15)
def PTM_CAP_STAT.THROTTLE : Fld := ⟨.PTM_CAP_STAT, 31, 31, .ro⟩
def PTM_CAP_STAT.CAP_EVT : Fld := ⟨.PTM_CAP_STAT, 30, 30, .w1c⟩
def PTM_CAP_STAT.U : Fld := ⟨.PTM_CAP_STAT, 23, 20, .ro⟩
def PTM_CAP_STAT.HP_ALLOW : Fld := ⟨.PTM_CAP_STAT, 12, 8, .ro⟩
def PTM_CAP_STAT.WR_ALLOW : Fld := ⟨.PTM_CAP_STAT, 3, 0, .ro⟩
-- PTM_AVS_CFG (Table 17.12)
def PTM_AVS_CFG.FIXED : Fld := ⟨.PTM_AVS_CFG, 31, 31, .rwk⟩
def PTM_AVS_CFG.VMAX : Fld := ⟨.PTM_AVS_CFG, 30, 24, .rwk⟩
def PTM_AVS_CFG.VMIN : Fld := ⟨.PTM_AVS_CFG, 22, 16, .rwk⟩
def PTM_AVS_CFG.MARGIN : Fld := ⟨.PTM_AVS_CFG, 15, 8, .rwk⟩
def PTM_AVS_CFG.EMER : Fld := ⟨.PTM_AVS_CFG, 7, 4, .rwk⟩
-- PTM_AVS_STAT (Table 17.12)
def PTM_AVS_STAT.AVS_LIM : Fld := ⟨.PTM_AVS_STAT, 31, 31, .ro⟩
def PTM_AVS_STAT.VSET : Fld := ⟨.PTM_AVS_STAT, 30, 24, .ro⟩
def PTM_AVS_STAT.MIN_ISL : Fld := ⟨.PTM_AVS_STAT, 20, 16, .ro⟩
def PTM_AVS_STAT.MARGIN_MIN : Fld := ⟨.PTM_AVS_STAT, 15, 8, .ro⟩
def PTM_AVS_STAT.EMER_CNT : Fld := ⟨.PTM_AVS_STAT, 7, 0, .rc⟩
-- PTM_HSW_CFG (Table 17.11)
def PTM_HSW_CFG.TIMEOUT : Fld := ⟨.PTM_HSW_CFG, 9, 0, .rwk⟩
-- PTM_HSW_LOG (Table 17.11)
def PTM_HSW_LOG.TIME : Fld := ⟨.PTM_HSW_LOG, 63, 32, .rc⟩
def PTM_HSW_LOG.VALID : Fld := ⟨.PTM_HSW_LOG, 31, 31, .rc⟩
def PTM_HSW_LOG.DOM_B : Fld := ⟨.PTM_HSW_LOG, 13, 8, .rc⟩
def PTM_HSW_LOG.DOM_A : Fld := ⟨.PTM_HSW_LOG, 5, 0, .rc⟩
-- PTM_ISL_PWR
def PTM_ISL_PWR.ON : Fld := ⟨.PTM_ISL_PWR, 31, 0, .ro⟩
-- PTM_DOM_PWR
def PTM_DOM_PWR.ON : Fld := ⟨.PTM_DOM_PWR, 31, 0, .ro⟩
-- PTM_THERM (Table 17.15)
def PTM_THERM.TJ_LOGIC : Fld := ⟨.PTM_THERM, 31, 24, .ro⟩
def PTM_THERM.TJ_POWER : Fld := ⟨.PTM_THERM, 23, 16, .ro⟩
def PTM_THERM.TWARN : Fld := ⟨.PTM_THERM, 15, 8, .rwk⟩
def PTM_THERM.TSHUT : Fld := ⟨.PTM_THERM, 7, 0, .rwk⟩
-- PTM_MER_TIME
def PTM_MER_TIME.TIME : Fld := ⟨.PTM_MER_TIME, 63, 0, .ro⟩
-- PTM_CW_CTL (Table 17.10)
def PTM_CW_CTL.RESUME : Fld := ⟨.PTM_CW_CTL, 31, 31, .wok⟩
def PTM_CW_CTL.HB_STOP : Fld := ⟨.PTM_CW_CTL, 30, 30, .rwk⟩
-- PTM_CW_STAT (Table 17.10)
def PTM_CW_STAT.LINK : Fld := ⟨.PTM_CW_STAT, 31, 30, .ro⟩
def PTM_CW_STAT.PD_STATE : Fld := ⟨.PTM_CW_STAT, 29, 28, .ro⟩
def PTM_CW_STAT.VER_ERR : Fld := ⟨.PTM_CW_STAT, 27, 27, .ro⟩
def PTM_CW_STAT.DOWN_EVT : Fld := ⟨.PTM_CW_STAT, 26, 26, .w1c⟩
def PTM_CW_STAT.PD_VER : Fld := ⟨.PTM_CW_STAT, 23, 16, .ro⟩
def PTM_CW_STAT.CRC_CNT : Fld := ⟨.PTM_CW_STAT, 15, 8, .rc⟩
def PTM_CW_STAT.RESEND : Fld := ⟨.PTM_CW_STAT, 7, 0, .rc⟩
-- PTM_GPIO_DIR
def PTM_GPIO_DIR.DIR : Fld := ⟨.PTM_GPIO_DIR, 35, 0, .rw⟩
-- PTM_GPIO_OUT
def PTM_GPIO_OUT.OUT : Fld := ⟨.PTM_GPIO_OUT, 35, 0, .rw⟩
-- PTM_GPIO_IN
def PTM_GPIO_IN.IN : Fld := ⟨.PTM_GPIO_IN, 35, 0, .ro⟩
-- PTM_GPIO_PULL
def PTM_GPIO_PULL.PULL : Fld := ⟨.PTM_GPIO_PULL, 35, 0, .rw⟩
-- PTM_LED_CFG
def PTM_LED_CFG.LED0_SW : Fld := ⟨.PTM_LED_CFG, 31, 31, .rw⟩
def PTM_LED_CFG.LED0_VAL : Fld := ⟨.PTM_LED_CFG, 30, 30, .rw⟩
def PTM_LED_CFG.LED1_SW : Fld := ⟨.PTM_LED_CFG, 29, 29, .rw⟩
def PTM_LED_CFG.LED1_VAL : Fld := ⟨.PTM_LED_CFG, 28, 28, .rw⟩
def PTM_LED_CFG.STRETCH : Fld := ⟨.PTM_LED_CFG, 15, 0, .rw⟩
-- FCU_SRC_CFG (Table 20.7)
def FCU_SRC_CFG.EN : Fld := ⟨.FCU_SRC_CFG, 31, 31, .rwk⟩
def FCU_SRC_CFG.OWNER : Fld := ⟨.FCU_SRC_CFG, 30, 30, .rwk⟩
def FCU_SRC_CFG.DIRECT : Fld := ⟨.FCU_SRC_CFG, 29, 27, .rwk⟩
def FCU_SRC_CFG.LAST : Fld := ⟨.FCU_SRC_CFG, 26, 25, .rwk⟩
def FCU_SRC_CFG.ESC_EXP : Fld := ⟨.FCU_SRC_CFG, 24, 22, .rwk⟩
def FCU_SRC_CFG.ESC_MUL : Fld := ⟨.FCU_SRC_CFG, 21, 18, .rwk⟩
def FCU_SRC_CFG.N : Fld := ⟨.FCU_SRC_CFG, 17, 10, .rwk⟩
def FCU_SRC_CFG.WIN : Fld := ⟨.FCU_SRC_CFG, 9, 5, .rwk⟩
-- FCU_SRC_STAT (Table 20.8)
def FCU_SRC_STAT.PEND : Fld := ⟨.FCU_SRC_STAT, 31, 31, .ro⟩
def FCU_SRC_STAT.SEVERE : Fld := ⟨.FCU_SRC_STAT, 30, 30, .ro⟩
def FCU_SRC_STAT.WIRE : Fld := ⟨.FCU_SRC_STAT, 29, 29, .w1c⟩
def FCU_SRC_STAT.STEP : Fld := ⟨.FCU_SRC_STAT, 28, 26, .ro⟩
def FCU_SRC_STAT.AGAIN : Fld := ⟨.FCU_SRC_STAT, 25, 25, .ro⟩
def FCU_SRC_STAT.CLR_CNT : Fld := ⟨.FCU_SRC_STAT, 24, 24, .wok⟩
def FCU_SRC_STAT.WCNT : Fld := ⟨.FCU_SRC_STAT, 15, 8, .ro⟩
def FCU_SRC_STAT.TOTAL : Fld := ⟨.FCU_SRC_STAT, 7, 0, .rc⟩
-- FCU_CFG (Table 20.9)
def FCU_CFG.NFAULT : Fld := ⟨.FCU_CFG, 31, 31, .ro⟩
def FCU_CFG.BUS_TMO : Fld := ⟨.FCU_CFG, 23, 16, .rwk⟩
-- FCU_ACK (Table 20.9)
def FCU_ACK.SRC : Fld := ⟨.FCU_ACK, 8, 0, .wo⟩
-- FCU_RAISE (Table 20.9)
def FCU_RAISE.SRC : Fld := ⟨.FCU_RAISE, 8, 0, .wo⟩
-- FCU_SELF (Table 20.9)
def FCU_SELF.SELF_FLT : Fld := ⟨.FCU_SELF, 31, 31, .ro⟩
def FCU_SELF.RELOADED : Fld := ⟨.FCU_SELF, 30, 30, .ro⟩
def FCU_SELF.SELF_CNT : Fld := ⟨.FCU_SELF, 15, 8, .rc⟩
-- FCU_RELOAD (Table 20.9)
def FCU_RELOAD.DONE : Fld := ⟨.FCU_RELOAD, 31, 31, .wok⟩
-- FCU_FEC_INFO (Table 20.2)
def FCU_FEC_INFO.VALID : Fld := ⟨.FCU_FEC_INFO, 31, 31, .w1c⟩
def FCU_FEC_INFO.MULTI : Fld := ⟨.FCU_FEC_INFO, 30, 30, .w1c⟩
def FCU_FEC_INFO.SRC : Fld := ⟨.FCU_FEC_INFO, 24, 16, .ro⟩
def FCU_FEC_INFO.MID : Fld := ⟨.FCU_FEC_INFO, 15, 8, .ro⟩
def FCU_FEC_INFO.TYPE : Fld := ⟨.FCU_FEC_INFO, 7, 4, .ro⟩
def FCU_FEC_INFO.SIZE : Fld := ⟨.FCU_FEC_INFO, 3, 0, .ro⟩
-- FCU_FEC_ADDR (Table 20.2)
def FCU_FEC_ADDR.ADDR : Fld := ⟨.FCU_FEC_ADDR, 39, 0, .ro⟩
-- FCU_FEC_TIME (Table 20.2)
def FCU_FEC_TIME.TIME : Fld := ⟨.FCU_FEC_TIME, 63, 0, .ro⟩
-- FCU_PEND
def FCU_PEND.PEND : Fld := ⟨.FCU_PEND, 31, 0, .ro⟩
-- ALM_CFG (Table 21.7)
def ALM_CFG.APP_GRANT : Fld := ⟨.ALM_CFG, 31, 31, .rwk⟩
def ALM_CFG.IRQ_EN : Fld := ⟨.ALM_CFG, 30, 30, .rwk⟩
-- ALM_STAT (Table 21.7)
def ALM_STAT.CLEARING : Fld := ⟨.ALM_STAT, 31, 31, .ro⟩
def ALM_STAT.STAGE_OVF : Fld := ⟨.ALM_STAT, 30, 30, .w1c⟩
def ALM_STAT.SKIP : Fld := ⟨.ALM_STAT, 29, 29, .w1c⟩
def ALM_STAT.WRAP : Fld := ⟨.ALM_STAT, 28, 28, .w1c⟩
def ALM_STAT.STAGED : Fld := ⟨.ALM_STAT, 24, 16, .ro⟩
def ALM_STAT.LOST_CNT : Fld := ⟨.ALM_STAT, 15, 0, .rc⟩
-- ALM_OLDEST
def ALM_OLDEST.N : Fld := ⟨.ALM_OLDEST, 31, 0, .ro⟩
-- ALM_NEWEST
def ALM_NEWEST.N : Fld := ⟨.ALM_NEWEST, 31, 0, .ro⟩
-- ALM_CURSOR
def ALM_CURSOR.N : Fld := ⟨.ALM_CURSOR, 31, 0, .rw⟩
-- ALM_WIN
def ALM_WIN.W : Fld := ⟨.ALM_WIN, 31, 0, .ro⟩
-- ALM_POST
def ALM_POST.W : Fld := ⟨.ALM_POST, 31, 0, .rwk⟩
-- ALM_CTL (Table 21.7)
def ALM_CTL.POST : Fld := ⟨.ALM_CTL, 31, 31, .wok⟩
def ALM_CTL.CLEAR : Fld := ⟨.ALM_CTL, 30, 30, .wok⟩
-- SVC_PTL_CFG (Table 19.3)
def SVC_PTL_CFG.DR_EN : Fld := ⟨.SVC_PTL_CFG, 31, 31, .rwk⟩
def SVC_PTL_CFG.SR_EN : Fld := ⟨.SVC_PTL_CFG, 30, 30, .rwk⟩
def SVC_PTL_CFG.MR_EN : Fld := ⟨.SVC_PTL_CFG, 29, 29, .rwk⟩
def SVC_PTL_CFG.DR_RATE : Fld := ⟨.SVC_PTL_CFG, 25, 16, .rwk⟩
def SVC_PTL_CFG.SR_INT : Fld := ⟨.SVC_PTL_CFG, 15, 8, .rwk⟩
def SVC_PTL_CFG.MR_RATE : Fld := ⟨.SVC_PTL_CFG, 7, 0, .rwk⟩
-- SVC_PTL_STAT (Table 19.3)
def SVC_PTL_STAT.DR_PASS : Fld := ⟨.SVC_PTL_STAT, 31, 24, .rc⟩
def SVC_PTL_STAT.SR_PASS : Fld := ⟨.SVC_PTL_STAT, 23, 16, .rc⟩
def SVC_PTL_STAT.MR_PASS : Fld := ⟨.SVC_PTL_STAT, 15, 8, .rc⟩
def SVC_PTL_STAT.UE_CNT : Fld := ⟨.SVC_PTL_STAT, 7, 0, .rc⟩
-- SVC_PTL_BASE (Table 19.3)
def SVC_PTL_BASE.LINE : Fld := ⟨.SVC_PTL_BASE, 39, 6, .rwk⟩
-- SVC_PTL_LIMIT (Table 19.3)
def SVC_PTL_LIMIT.LINE : Fld := ⟨.SVC_PTL_LIMIT, 39, 6, .rwk⟩
-- SVC_SVY_CFG (Table 19.4)
def SVC_SVY_CFG.EN : Fld := ⟨.SVC_SVY_CFG, 31, 31, .rwk⟩
def SVC_SVY_CFG.BUDGET : Fld := ⟨.SVC_SVY_CFG, 23, 16, .rwk⟩
def SVC_SVY_CFG.ABANDON_MAX : Fld := ⟨.SVC_SVY_CFG, 15, 12, .rwk⟩
def SVC_SVY_CFG.SLICE_INT : Fld := ⟨.SVC_SVY_CFG, 7, 0, .rwk⟩
-- SVC_SVY_STAT (Table 19.4)
def SVC_SVY_STAT.STATE : Fld := ⟨.SVC_SVY_STAT, 31, 30, .ro⟩
def SVC_SVY_STAT.SHUT_ARM : Fld := ⟨.SVC_SVY_STAT, 29, 29, .ro⟩
def SVC_SVY_STAT.FULL_DONE : Fld := ⟨.SVC_SVY_STAT, 28, 28, .w1c⟩
def SVC_SVY_STAT.RES_OVF : Fld := ⟨.SVC_SVY_STAT, 27, 27, .w1c⟩
def SVC_SVY_STAT.INST : Fld := ⟨.SVC_SVY_STAT, 23, 16, .ro⟩
def SVC_SVY_STAT.SKIP_CNT : Fld := ⟨.SVC_SVY_STAT, 15, 8, .rc⟩
def SVC_SVY_STAT.RES_WR : Fld := ⟨.SVC_SVY_STAT, 5, 0, .ro⟩
-- SVC_REPAIR (Table 19.6)
def SVC_REPAIR.GO : Fld := ⟨.SVC_REPAIR, 31, 31, .wok⟩
def SVC_REPAIR.ERR : Fld := ⟨.SVC_REPAIR, 30, 30, .w1c⟩
def SVC_REPAIR.INST : Fld := ⟨.SVC_REPAIR, 23, 16, .rwk⟩
def SVC_REPAIR.ROW : Fld := ⟨.SVC_REPAIR, 15, 0, .rwk⟩
-- SVC_SVY_EN
def SVC_SVY_EN.EN : Fld := ⟨.SVC_SVY_EN, 31, 0, .rwk⟩
-- SVC_LB_PEND
def SVC_LB_PEND.PEND : Fld := ⟨.SVC_LB_PEND, 31, 0, .ro⟩
-- SVC_SVY_RES
def SVC_SVY_RES.W : Fld := ⟨.SVC_SVY_RES, 31, 0, .ro⟩
-- SVC_LB_CFG (Table 19.2)
def SVC_LB_CFG.THR : Fld := ⟨.SVC_LB_CFG, 31, 24, .rwk⟩
def SVC_LB_CFG.EN : Fld := ⟨.SVC_LB_CFG, 23, 23, .rwk⟩
def SVC_LB_CFG.LEAK : Fld := ⟨.SVC_LB_CFG, 21, 0, .rwk⟩
-- SVC_LB_STAT (Table 19.2)
def SVC_LB_STAT.OVF : Fld := ⟨.SVC_LB_STAT, 31, 31, .w1c⟩
def SVC_LB_STAT.PEAK : Fld := ⟨.SVC_LB_STAT, 15, 8, .rc⟩
def SVC_LB_STAT.COUNT : Fld := ⟨.SVC_LB_STAT, 7, 0, .ro⟩
-- SVC_INST_STAT (Table 19.6)
def SVC_INST_STAT.HEALTH : Fld := ⟨.SVC_INST_STAT, 31, 30, .ro⟩
def SVC_INST_STAT.SPARE_FREE : Fld := ⟨.SVC_INST_STAT, 23, 20, .ro⟩
def SVC_INST_STAT.FAILED_ROWS : Fld := ⟨.SVC_INST_STAT, 15, 8, .ro⟩
def SVC_INST_STAT.REPAIRED : Fld := ⟨.SVC_INST_STAT, 7, 0, .ro⟩
-- SVC_CAL_CTL (Table 21.8)
def SVC_CAL_CTL.GO : Fld := ⟨.SVC_CAL_CTL, 31, 31, .wok⟩
def SVC_CAL_CTL.BUSY : Fld := ⟨.SVC_CAL_CTL, 30, 30, .ro⟩
def SVC_CAL_CTL.CLASS : Fld := ⟨.SVC_CAL_CTL, 16, 16, .rwk⟩
def SVC_CAL_CTL.ITEM : Fld := ⟨.SVC_CAL_CTL, 15, 8, .rwk⟩
def SVC_CAL_CTL.HEAD : Fld := ⟨.SVC_CAL_CTL, 4, 0, .rwk⟩
-- SVC_CAL_STAT (Table 21.8)
def SVC_CAL_STAT.RESULT : Fld := ⟨.SVC_CAL_STAT, 31, 30, .ro⟩
def SVC_CAL_STAT.CAUSE : Fld := ⟨.SVC_CAL_STAT, 29, 28, .ro⟩
def SVC_CAL_STAT.ITER : Fld := ⟨.SVC_CAL_STAT, 15, 0, .ro⟩
-- SVC_CAL_REF (Table 21.8)
def SVC_CAL_REF.XTAL_ERR : Fld := ⟨.SVC_CAL_REF, 31, 0, .rwk⟩
-- PCX_CFG (Table 15.3)
def PCX_CFG.SPLIT : Fld := ⟨.PCX_CFG, 31, 31, .rwl⟩
def PCX_CFG.LOCK : Fld := ⟨.PCX_CFG, 0, 0, .w1s⟩
-- PCX_CORE_CTL (Table 15.3)
def PCX_CORE_CTL.RUN : Fld := ⟨.PCX_CORE_CTL, 31, 31, .rwk⟩
def PCX_CORE_CTL.HEIR : Fld := ⟨.PCX_CORE_CTL, 29, 28, .rwk⟩
-- PCX_CORE_STAT (Table 15.3)
def PCX_CORE_STAT.STATE : Fld := ⟨.PCX_CORE_STAT, 31, 30, .ro⟩
def PCX_CORE_STAT.UE_TRAP : Fld := ⟨.PCX_CORE_STAT, 29, 29, .w1c⟩
def PCX_CORE_STAT.CAUSE : Fld := ⟨.PCX_CORE_STAT, 28, 26, .ro⟩
-- PCX_RST_VEC (Table 15.3)
def PCX_RST_VEC.VEC : Fld := ⟨.PCX_RST_VEC, 39, 0, .rwk⟩
-- PCX_KPR_STAT (Table 15.12)
def PCX_KPR_STAT.RESTART : Fld := ⟨.PCX_KPR_STAT, 31, 31, .ro⟩
def PCX_KPR_STAT.RESTARTS : Fld := ⟨.PCX_KPR_STAT, 23, 16, .rc⟩
def PCX_KPR_STAT.LAST_MS : Fld := ⟨.PCX_KPR_STAT, 15, 0, .ro⟩
-- PCX_KPR_CTL (Table 15.12)
def PCX_KPR_CTL.RESUMED : Fld := ⟨.PCX_KPR_CTL, 0, 0, .wok⟩
-- PCX_CKPT
def PCX_CKPT.OFFSET : Fld := ⟨.PCX_CKPT, 20, 12, .rwk⟩
-- PCX_NMI_VEC
def PCX_NMI_VEC.VEC : Fld := ⟨.PCX_NMI_VEC, 39, 0, .rwk⟩
-- PCX_WDT_CTL (Table 15.11)
def PCX_WDT_CTL.EN : Fld := ⟨.PCX_WDT_CTL, 31, 31, .rwk⟩
def PCX_WDT_CTL.TIMEOUT : Fld := ⟨.PCX_WDT_CTL, 15, 0, .rwk⟩
-- PCX_WDT_KICK (Table 15.11)
def PCX_WDT_KICK.KEY : Fld := ⟨.PCX_WDT_KICK, 31, 0, .wo⟩
-- PCX_WDT_STAT (Table 15.11)
def PCX_WDT_STAT.STAGE : Fld := ⟨.PCX_WDT_STAT, 31, 30, .ro⟩
def PCX_WDT_STAT.BADKICK : Fld := ⟨.PCX_WDT_STAT, 23, 16, .rc⟩
def PCX_WDT_STAT.SINCE : Fld := ⟨.PCX_WDT_STAT, 15, 0, .ro⟩
-- PCX_MTIMECMP
def PCX_MTIMECMP.CMP : Fld := ⟨.PCX_MTIMECMP, 63, 0, .rw⟩
-- PCX_MSIP
def PCX_MSIP.MSIP : Fld := ⟨.PCX_MSIP, 0, 0, .rw⟩
-- PCX_CMO_ADDR (Table 15.5)
def PCX_CMO_ADDR.ADDR : Fld := ⟨.PCX_CMO_ADDR, 39, 6, .rw⟩
-- PCX_CMO_CTL (Table 15.5)
def PCX_CMO_CTL.GO : Fld := ⟨.PCX_CMO_CTL, 31, 31, .wo⟩
def PCX_CMO_CTL.BUSY : Fld := ⟨.PCX_CMO_CTL, 30, 30, .ro⟩
def PCX_CMO_CTL.OP : Fld := ⟨.PCX_CMO_CTL, 29, 28, .rw⟩
def PCX_CMO_CTL.ERR : Fld := ⟨.PCX_CMO_CTL, 27, 27, .w1c⟩
def PCX_CMO_CTL.LINES : Fld := ⟨.PCX_CMO_CTL, 15, 0, .rw⟩
-- PCX_IRQ_SRC (Table 15.7)
def PCX_IRQ_SRC.EN : Fld := ⟨.PCX_IRQ_SRC, 31, 31, .rwk⟩
def PCX_IRQ_SRC.PEND : Fld := ⟨.PCX_IRQ_SRC, 30, 30, .ro⟩
def PCX_IRQ_SRC.CLAIMED : Fld := ⟨.PCX_IRQ_SRC, 29, 29, .ro⟩
def PCX_IRQ_SRC.PRIO : Fld := ⟨.PCX_IRQ_SRC, 26, 24, .rwk⟩
def PCX_IRQ_SRC.TARGET : Fld := ⟨.PCX_IRQ_SRC, 3, 0, .rwk⟩
-- PCX_IRQ_THR (Table 15.7)
def PCX_IRQ_THR.THR : Fld := ⟨.PCX_IRQ_THR, 2, 0, .rw⟩
-- PCX_IRQ_CLAIM (Table 15.7)
def PCX_IRQ_CLAIM.ID : Fld := ⟨.PCX_IRQ_CLAIM, 6, 0, .rw⟩
-- PCX_PROT_BASE (Table 15.9)
def PCX_PROT_BASE.PAGE : Fld := ⟨.PCX_PROT_BASE, 27, 0, .rwk⟩
-- PCX_PROT_LIMIT (Table 15.9)
def PCX_PROT_LIMIT.PAGE : Fld := ⟨.PCX_PROT_LIMIT, 27, 0, .rwk⟩
-- PCX_PROT_ATTR (Table 15.9)
def PCX_PROT_ATTR.EN : Fld := ⟨.PCX_PROT_ATTR, 31, 31, .rwk⟩
def PCX_PROT_ATTR.DBGG : Fld := ⟨.PCX_PROT_ATTR, 30, 30, .rwk⟩
def PCX_PROT_ATTR.X : Fld := ⟨.PCX_PROT_ATTR, 26, 26, .rwk⟩
def PCX_PROT_ATTR.W : Fld := ⟨.PCX_PROT_ATTR, 25, 25, .rwk⟩
def PCX_PROT_ATTR.R : Fld := ⟨.PCX_PROT_ATTR, 24, 24, .rwk⟩
def PCX_PROT_ATTR.MID_HI : Fld := ⟨.PCX_PROT_ATTR, 23, 16, .rwk⟩
def PCX_PROT_ATTR.MID_LO : Fld := ⟨.PCX_PROT_ATTR, 15, 8, .rwk⟩
-- PCX_PROT_COMMIT (Table 15.9)
def PCX_PROT_COMMIT.COMMIT : Fld := ⟨.PCX_PROT_COMMIT, 63, 0, .wok⟩
-- PCX_PROT_STAT (Table 15.9)
def PCX_PROT_STAT.PEND : Fld := ⟨.PCX_PROT_STAT, 31, 31, .ro⟩
def PCX_PROT_STAT.DENY_CNT : Fld := ⟨.PCX_PROT_STAT, 15, 0, .rc⟩
-- PCX_FRY_REQ
def PCX_FRY_REQ.W : Fld := ⟨.PCX_FRY_REQ, 31, 0, .rw⟩
-- PCX_FRY_RES
def PCX_FRY_RES.W : Fld := ⟨.PCX_FRY_RES, 31, 0, .rwk⟩
-- PCX_FRY_DB (Table 16.7)
def PCX_FRY_DB.POST : Fld := ⟨.PCX_FRY_DB, 31, 31, .wo⟩
def PCX_FRY_DB.CANCEL : Fld := ⟨.PCX_FRY_DB, 30, 30, .wo⟩
def PCX_FRY_DB.SEQ : Fld := ⟨.PCX_FRY_DB, 7, 0, .wo⟩
-- PCX_FRY_STAT (Table 16.7)
def PCX_FRY_STAT.STATE : Fld := ⟨.PCX_FRY_STAT, 31, 30, .ro⟩
def PCX_FRY_STAT.DB_ERR : Fld := ⟨.PCX_FRY_STAT, 29, 29, .w1c⟩
def PCX_FRY_STAT.SLOT_REJ : Fld := ⟨.PCX_FRY_STAT, 28, 28, .w1c⟩
def PCX_FRY_STAT.TMO : Fld := ⟨.PCX_FRY_STAT, 27, 27, .w1c⟩
def PCX_FRY_STAT.VER : Fld := ⟨.PCX_FRY_STAT, 23, 16, .ro⟩
def PCX_FRY_STAT.LAST_SEQ : Fld := ⟨.PCX_FRY_STAT, 15, 8, .ro⟩
def PCX_FRY_STAT.ERR : Fld := ⟨.PCX_FRY_STAT, 7, 0, .ro⟩
-- PCX_FRY_KCTL (Table 16.7)
def PCX_FRY_KCTL.TAKE : Fld := ⟨.PCX_FRY_KCTL, 31, 31, .wok⟩
def PCX_FRY_KCTL.DONE : Fld := ⟨.PCX_FRY_KCTL, 30, 30, .wok⟩
def PCX_FRY_KCTL.ERR : Fld := ⟨.PCX_FRY_KCTL, 7, 0, .rwk⟩
-- PCX_FRY_CFG (Table 16.7)
def PCX_FRY_CFG.NOTIFY : Fld := ⟨.PCX_FRY_CFG, 31, 31, .rwk⟩
def PCX_FRY_CFG.TAKE_TMO : Fld := ⟨.PCX_FRY_CFG, 23, 16, .rwk⟩
def PCX_FRY_CFG.DONE_TMO : Fld := ⟨.PCX_FRY_CFG, 15, 0, .rwk⟩
-- PCX_DBG_STAT
def PCX_DBG_STAT.UNLOCKED : Fld := ⟨.PCX_DBG_STAT, 31, 31, .ro⟩
-- HIF_CFG (Table 11.7)
def HIF_CFG.PROTO : Fld := ⟨.HIF_CFG, 31, 30, .rwl⟩
def HIF_CFG.CLK_SRC0 : Fld := ⟨.HIF_CFG, 29, 29, .rwl⟩
def HIF_CFG.CLK_SRC1 : Fld := ⟨.HIF_CFG, 28, 28, .rwl⟩
def HIF_CFG.PERST_EN : Fld := ⟨.HIF_CFG, 27, 27, .rwl⟩
def HIF_CFG.LOCK : Fld := ⟨.HIF_CFG, 0, 0, .w1s⟩
-- HIF_PORT_CTL (Table 11.8)
def HIF_PORT_CTL.DISABLE : Fld := ⟨.HIF_PORT_CTL, 31, 31, .rw⟩
def HIF_PORT_CTL.RETRAIN : Fld := ⟨.HIF_PORT_CTL, 30, 30, .wo⟩
def HIF_PORT_CTL.MAX_RATE : Fld := ⟨.HIF_PORT_CTL, 29, 27, .rw⟩
def HIF_PORT_CTL.MAX_WIDTH : Fld := ⟨.HIF_PORT_CTL, 26, 24, .rw⟩
def HIF_PORT_CTL.REC_TMO : Fld := ⟨.HIF_PORT_CTL, 23, 16, .rw⟩
-- HIF_PORT_STAT (Table 11.9)
def HIF_PORT_STAT.LINK : Fld := ⟨.HIF_PORT_STAT, 31, 29, .ro⟩
def HIF_PORT_STAT.RATE : Fld := ⟨.HIF_PORT_STAT, 28, 26, .ro⟩
def HIF_PORT_STAT.WIDTH : Fld := ⟨.HIF_PORT_STAT, 25, 23, .ro⟩
def HIF_PORT_STAT.CTRL_RDY : Fld := ⟨.HIF_PORT_STAT, 22, 22, .ro⟩
def HIF_PORT_STAT.LOST : Fld := ⟨.HIF_PORT_STAT, 21, 21, .w1c⟩
def HIF_PORT_STAT.REFCLK_BAD : Fld := ⟨.HIF_PORT_STAT, 20, 20, .ro⟩
def HIF_PORT_STAT.DOWN_CNT : Fld := ⟨.HIF_PORT_STAT, 15, 8, .rc⟩
-- HIF_ERR_CNT (Table 11.10)
def HIF_ERR_CNT.REPLAY : Fld := ⟨.HIF_ERR_CNT, 31, 16, .rc⟩
def HIF_ERR_CNT.RX_ERR : Fld := ⟨.HIF_ERR_CNT, 15, 0, .rc⟩
-- CQE_CFG (Table 12.12)
def CQE_CFG.FP_EN : Fld := ⟨.CQE_CFG, 31, 31, .rw⟩
def CQE_CFG.FETCH_HOLD : Fld := ⟨.CQE_CFG, 30, 30, .rwk⟩
-- CQE_STAT (Table 12.13)
def CQE_STAT.STATE : Fld := ⟨.CQE_STAT, 31, 30, .ro⟩
def CQE_STAT.DONE_ERR : Fld := ⟨.CQE_STAT, 29, 29, .w1c⟩
def CQE_STAT.IO_OUT : Fld := ⟨.CQE_STAT, 28, 16, .ro⟩
def CQE_STAT.ADM_OUT : Fld := ⟨.CQE_STAT, 5, 0, .ro⟩
-- CQE_OVL_CFG (Table 12.2)
def CQE_OVL_CFG.ENABLE : Fld := ⟨.CQE_OVL_CFG, 31, 31, .rwk⟩
-- CQE_SCHED (Table 12.5)
def CQE_SCHED.READ_FLOOR : Fld := ⟨.CQE_SCHED, 31, 24, .rw⟩
def CQE_SCHED.FLOOR_WIN : Fld := ⟨.CQE_SCHED, 23, 16, .rw⟩
-- CQE_THROT (Table 12.6)
def CQE_THROT.THROT_LO : Fld := ⟨.CQE_THROT, 31, 24, .rw⟩
def CQE_THROT.DIRTY : Fld := ⟨.CQE_THROT, 15, 0, .ro⟩
-- CQE_AGE (Table 12.7)
def CQE_AGE.AGE_EVT : Fld := ⟨.CQE_AGE, 31, 31, .w1c⟩
def CQE_AGE.AGE_TAG : Fld := ⟨.CQE_AGE, 27, 16, .ro⟩
def CQE_AGE.AGE_LIM : Fld := ⟨.CQE_AGE, 15, 0, .rw⟩
-- CQE_CLAIM (Table 12.14)
def CQE_CLAIM.LEASE_EVT : Fld := ⟨.CQE_CLAIM, 31, 31, .w1c⟩
def CQE_CLAIM.LEASE : Fld := ⟨.CQE_CLAIM, 23, 16, .rw⟩
def CQE_CLAIM.GRANT : Fld := ⟨.CQE_CLAIM, 7, 4, .ro⟩
def CQE_CLAIM.CLAIM : Fld := ⟨.CQE_CLAIM, 3, 0, .rw⟩
-- CQE_HQ_BASE (Table 12.15)
def CQE_HQ_BASE.ADDR : Fld := ⟨.CQE_HQ_BASE, 39, 12, .rw⟩
-- CQE_HQ_CTL (Table 12.16)
def CQE_HQ_CTL.ENABLE : Fld := ⟨.CQE_HQ_CTL, 31, 31, .rw⟩
def CQE_HQ_CTL.IRQ_EN : Fld := ⟨.CQE_HQ_CTL, 30, 30, .rw⟩
def CQE_HQ_CTL.FULL : Fld := ⟨.CQE_HQ_CTL, 29, 29, .ro⟩
def CQE_HQ_CTL.SIZE_LOG2 : Fld := ⟨.CQE_HQ_CTL, 27, 24, .rw⟩
-- CQE_HQ_PTR (Table 12.16)
def CQE_HQ_PTR.WR : Fld := ⟨.CQE_HQ_PTR, 31, 16, .ro⟩
def CQE_HQ_PTR.RD : Fld := ⟨.CQE_HQ_PTR, 15, 0, .rw⟩
-- CQE_DONE_DW0 (Table 12.17)
def CQE_DONE_DW0.DW0 : Fld := ⟨.CQE_DONE_DW0, 31, 0, .wo⟩
-- CQE_DONE (Table 12.17)
def CQE_DONE.DNR : Fld := ⟨.CQE_DONE, 31, 31, .wo⟩
def CQE_DONE.SCT : Fld := ⟨.CQE_DONE, 30, 28, .wo⟩
def CQE_DONE.SC : Fld := ⟨.CQE_DONE, 27, 20, .wo⟩
def CQE_DONE.CTAG : Fld := ⟨.CQE_DONE, 11, 0, .wo⟩
-- CQE_OVL_STAT (Table 12.3)
def CQE_OVL_STAT.HOST : Fld := ⟨.CQE_OVL_STAT, 28, 16, .ro⟩
def CQE_OVL_STAT.INT : Fld := ⟨.CQE_OVL_STAT, 8, 0, .ro⟩
-- CQE_NS_CFG (Table 12.8)
def CQE_NS_CFG.STATE : Fld := ⟨.CQE_NS_CFG, 31, 30, .rwk⟩
def CQE_NS_CFG.ATT : Fld := ⟨.CQE_NS_CFG, 29, 28, .rwk⟩
def CQE_NS_CFG.PLVL : Fld := ⟨.CQE_NS_CFG, 27, 26, .rwk⟩
def CQE_NS_CFG.ZONED : Fld := ⟨.CQE_NS_CFG, 25, 25, .rwk⟩
def CQE_NS_CFG.LBAF : Fld := ⟨.CQE_NS_CFG, 24, 24, .rwk⟩
def CQE_NS_CFG.PIT : Fld := ⟨.CQE_NS_CFG, 23, 22, .rwk⟩
def CQE_NS_CFG.PIL : Fld := ⟨.CQE_NS_CFG, 21, 21, .rwk⟩
def CQE_NS_CFG.EXT : Fld := ⟨.CQE_NS_CFG, 20, 20, .rwk⟩
def CQE_NS_CFG.GROUP : Fld := ⟨.CQE_NS_CFG, 19, 18, .rwk⟩
def CQE_NS_CFG.FP : Fld := ⟨.CQE_NS_CFG, 17, 17, .rwk⟩
def CQE_NS_CFG.KSLOT : Fld := ⟨.CQE_NS_CFG, 6, 0, .rwk⟩
-- CQE_NS_BASE (Table 12.9)
def CQE_NS_BASE.UNIT : Fld := ⟨.CQE_NS_BASE, 31, 0, .rwk⟩
-- CQE_NS_ROWS (Table 12.9)
def CQE_NS_ROWS.UNITS : Fld := ⟨.CQE_NS_ROWS, 31, 0, .rwk⟩
-- BMU_CFG (Table 13.2)
def BMU_CFG.CHANNELS : Fld := ⟨.BMU_CFG, 31, 30, .rwk⟩
def BMU_CFG.RATE : Fld := ⟨.BMU_CFG, 29, 27, .rwk⟩
def BMU_CFG.LECC_EN : Fld := ⟨.BMU_CFG, 26, 26, .rwk⟩
def BMU_CFG.SIZE : Fld := ⟨.BMU_CFG, 6, 0, .rwk⟩
-- BMU_STAT (Table 13.3)
def BMU_STAT.TRAINED : Fld := ⟨.BMU_STAT, 31, 28, .ro⟩
def BMU_STAT.CH_FAIL : Fld := ⟨.BMU_STAT, 27, 24, .ro⟩
def BMU_STAT.SR : Fld := ⟨.BMU_STAT, 23, 23, .ro⟩
def BMU_STAT.UE : Fld := ⟨.BMU_STAT, 22, 22, .w1c⟩
def BMU_STAT.CE_CNT : Fld := ⟨.BMU_STAT, 15, 8, .rc⟩
def BMU_STAT.LECC_CNT : Fld := ⟨.BMU_STAT, 7, 0, .rc⟩
-- BMU_CC_CTL (Table 13.7)
def BMU_CC_CTL.ENABLE : Fld := ⟨.BMU_CC_CTL, 31, 31, .rwk⟩
def BMU_CC_CTL.STATE : Fld := ⟨.BMU_CC_CTL, 30, 28, .ro⟩
-- BMU_WAY_PWR (Table 13.7)
def BMU_WAY_PWR.OFF_REQ : Fld := ⟨.BMU_WAY_PWR, 31, 16, .rwk⟩
def BMU_WAY_PWR.ON : Fld := ⟨.BMU_WAY_PWR, 15, 0, .ro⟩
-- BMU_STREAM_CFG (Table 13.5)
def BMU_STREAM_CFG.STREAM_N : Fld := ⟨.BMU_STREAM_CFG, 10, 0, .rw⟩
-- BMU_EVB_STAT (Table 13.5)
def BMU_EVB_STAT.PEAK : Fld := ⟨.BMU_EVB_STAT, 13, 8, .rc⟩
def BMU_EVB_STAT.USED : Fld := ⟨.BMU_EVB_STAT, 5, 0, .ro⟩
-- BMU_CLASS_CFG (Table 13.4)
def BMU_CLASS_CFG.PF_EN : Fld := ⟨.BMU_CLASS_CFG, 31, 31, .rwk⟩
def BMU_CLASS_CFG.NOALLOC : Fld := ⟨.BMU_CLASS_CFG, 30, 30, .rwk⟩
def BMU_CLASS_CFG.STREAM_EN : Fld := ⟨.BMU_CLASS_CFG, 29, 29, .rwk⟩
def BMU_CLASS_CFG.WAY_MASK : Fld := ⟨.BMU_CLASS_CFG, 15, 0, .rwk⟩
-- BMU_MNT_ADDR (Table 13.6)
def BMU_MNT_ADDR.ADDR : Fld := ⟨.BMU_MNT_ADDR, 39, 6, .rwk⟩
-- BMU_MNT_CTL (Table 13.6)
def BMU_MNT_CTL.GO : Fld := ⟨.BMU_MNT_CTL, 31, 31, .wo⟩
def BMU_MNT_CTL.BUSY : Fld := ⟨.BMU_MNT_CTL, 30, 30, .ro⟩
def BMU_MNT_CTL.OP : Fld := ⟨.BMU_MNT_CTL, 29, 28, .rwk⟩
def BMU_MNT_CTL.ERR : Fld := ⟨.BMU_MNT_CTL, 27, 27, .w1c⟩
def BMU_MNT_CTL.LINES : Fld := ⟨.BMU_MNT_CTL, 19, 0, .rwk⟩
-- BMU_SLOT_BASE (Table 13.8)
def BMU_SLOT_BASE.ADDR : Fld := ⟨.BMU_SLOT_BASE, 39, 12, .rwk⟩
-- BMU_SLOT_CFG (Table 13.8)
def BMU_SLOT_CFG.ENABLE : Fld := ⟨.BMU_SLOT_CFG, 31, 31, .rwk⟩
def BMU_SLOT_CFG.COUNT : Fld := ⟨.BMU_SLOT_CFG, 20, 0, .rwk⟩
-- BMU_SLOT_STAT (Table 13.8)
def BMU_SLOT_STAT.RD_RSV : Fld := ⟨.BMU_SLOT_STAT, 31, 24, .rwk⟩
def BMU_SLOT_STAT.FREE : Fld := ⟨.BMU_SLOT_STAT, 20, 0, .ro⟩
-- BMU_BUDGET (Table 13.9)
def BMU_BUDGET.MAX : Fld := ⟨.BMU_BUDGET, 27, 16, .ro⟩
def BMU_BUDGET.USED : Fld := ⟨.BMU_BUDGET, 11, 0, .ro⟩
-- BMU_DISCARD (Table 13.9)
def BMU_DISCARD.GO : Fld := ⟨.BMU_DISCARD, 31, 31, .wok⟩
def BMU_DISCARD.BUSY : Fld := ⟨.BMU_DISCARD, 30, 30, .ro⟩
def BMU_DISCARD.NS : Fld := ⟨.BMU_DISCARD, 6, 0, .rwk⟩
-- BMU_CCC_BASE (Table 13.10)
def BMU_CCC_BASE.ADDR : Fld := ⟨.BMU_CCC_BASE, 39, 20, .rwk⟩
-- BMU_CCC_CFG (Table 13.10)
def BMU_CCC_CFG.EN : Fld := ⟨.BMU_CCC_CFG, 31, 31, .rwk⟩
def BMU_CCC_CFG.AGE : Fld := ⟨.BMU_CCC_CFG, 27, 24, .rw⟩
def BMU_CCC_CFG.ADMIT_THR : Fld := ⟨.BMU_CCC_CFG, 23, 16, .rw⟩
def BMU_CCC_CFG.FRAMES : Fld := ⟨.BMU_CCC_CFG, 13, 0, .rwk⟩
-- BMU_CCC_STAT (Table 13.10)
def BMU_CCC_STAT.HIT : Fld := ⟨.BMU_CCC_STAT, 31, 16, .rc⟩
def BMU_CCC_STAT.ADMIT : Fld := ⟨.BMU_CCC_STAT, 15, 0, .rc⟩
-- BMU_CCC_NS
def BMU_CCC_NS.NS_EN : Fld := ⟨.BMU_CCC_NS, 31, 0, .rwk⟩
-- DMF_CH_CTL (Table 14.6)
def DMF_CH_CTL.COMMIT : Fld := ⟨.DMF_CH_CTL, 31, 31, .wo⟩
def DMF_CH_CTL.RESUME : Fld := ⟨.DMF_CH_CTL, 30, 30, .wo⟩
def DMF_CH_CTL.ABORT : Fld := ⟨.DMF_CH_CTL, 29, 29, .wo⟩
def DMF_CH_CTL.CLEAR : Fld := ⟨.DMF_CH_CTL, 28, 28, .wo⟩
-- DMF_CH_STAT (Table 14.7)
def DMF_CH_STAT.STATE : Fld := ⟨.DMF_CH_STAT, 31, 29, .ro⟩
def DMF_CH_STAT.PEND : Fld := ⟨.DMF_CH_STAT, 28, 28, .ro⟩
def DMF_CH_STAT.SHADOW_LATE : Fld := ⟨.DMF_CH_STAT, 27, 27, .w1c⟩
def DMF_CH_STAT.SHADOW_REJ : Fld := ⟨.DMF_CH_STAT, 26, 26, .w1c⟩
def DMF_CH_STAT.DONE_EVT : Fld := ⟨.DMF_CH_STAT, 25, 25, .w1c⟩
def DMF_CH_STAT.PRQ : Fld := ⟨.DMF_CH_STAT, 24, 24, .ro⟩
def DMF_CH_STAT.CAUSE : Fld := ⟨.DMF_CH_STAT, 23, 20, .ro⟩
def DMF_CH_STAT.FCAUSE : Fld := ⟨.DMF_CH_STAT, 19, 17, .ro⟩
def DMF_CH_STAT.RETRIES : Fld := ⟨.DMF_CH_STAT, 15, 12, .ro⟩
def DMF_CH_STAT.TAG : Fld := ⟨.DMF_CH_STAT, 11, 0, .ro⟩
-- DMF_CH_CFG (Table 14.2)
def DMF_CH_CFG.OWNER : Fld := ⟨.DMF_CH_CFG, 31, 29, .rwk⟩
def DMF_CH_CFG.PRIV : Fld := ⟨.DMF_CH_CFG, 28, 28, .rw⟩
def DMF_CH_CFG.RETRY : Fld := ⟨.DMF_CH_CFG, 27, 24, .rw⟩
def DMF_CH_CFG.PRIO : Fld := ⟨.DMF_CH_CFG, 18, 16, .rw⟩
-- DMF_CH_ATP (Table 14.9)
def DMF_CH_ATP.MODE : Fld := ⟨.DMF_CH_ATP, 63, 60, .rw⟩
def DMF_CH_ATP.ASID : Fld := ⟨.DMF_CH_ATP, 59, 44, .rw⟩
def DMF_CH_ATP.PPN : Fld := ⟨.DMF_CH_ATP, 43, 0, .rw⟩
-- DMF_CH_FAULT_VA (Table 14.9)
def DMF_CH_FAULT_VA.VA : Fld := ⟨.DMF_CH_FAULT_VA, 63, 0, .ro⟩
-- DMF_CH_PROG (Table 14.8)
def DMF_CH_PROG.HOLD : Fld := ⟨.DMF_CH_PROG, 63, 56, .ro⟩
def DMF_CH_PROG.SRC_DONE : Fld := ⟨.DMF_CH_PROG, 55, 32, .ro⟩
def DMF_CH_PROG.DST_DONE : Fld := ⟨.DMF_CH_PROG, 23, 0, .ro⟩
-- DMF_CH_SHD
def DMF_CH_SHD.W : Fld := ⟨.DMF_CH_SHD, 31, 0, .rw⟩
-- DMF_CH_ACT
def DMF_CH_ACT.W : Fld := ⟨.DMF_CH_ACT, 31, 0, .ro⟩
-- DMF_CFG (Table 14.10)
def DMF_CFG.NOPROG : Fld := ⟨.DMF_CFG, 28, 24, .rwk⟩
def DMF_CFG.PRQ : Fld := ⟨.DMF_CFG, 20, 16, .rwk⟩
-- DMF_FP_MASK
def DMF_FP_MASK.MASK : Fld := ⟨.DMF_FP_MASK, 63, 0, .rwk⟩
-- DMF_INV (Table 14.4)
def DMF_INV.GO : Fld := ⟨.DMF_INV, 31, 31, .wo⟩
def DMF_INV.BUSY : Fld := ⟨.DMF_INV, 30, 30, .ro⟩
def DMF_INV.SCOPE : Fld := ⟨.DMF_INV, 29, 28, .rw⟩
def DMF_INV.ASID : Fld := ⟨.DMF_INV, 15, 0, .rw⟩
-- DMF_INV_VA (Table 14.4)
def DMF_INV_VA.VA : Fld := ⟨.DMF_INV_VA, 63, 0, .rw⟩
-- DMF_IRQ_PEND
def DMF_IRQ_PEND.PEND : Fld := ⟨.DMF_IRQ_PEND, 63, 0, .ro⟩
-- MPC_CFG (Table 10.4)
def MPC_CFG.CHK_EN : Fld := ⟨.MPC_CFG, 31, 31, .rw⟩
def MPC_CFG.SOFT_EN : Fld := ⟨.MPC_CFG, 30, 30, .rw⟩
def MPC_CFG.IRQ_EN : Fld := ⟨.MPC_CFG, 29, 29, .rw⟩
-- MPC_STAT (Table 10.5)
def MPC_STAT.WORK_ERR : Fld := ⟨.MPC_STAT, 31, 31, .w1c⟩
def MPC_STAT.LOG_OVF : Fld := ⟨.MPC_STAT, 30, 30, .w1c⟩
def MPC_STAT.CTX : Fld := ⟨.MPC_STAT, 22, 16, .ro⟩
def MPC_STAT.ENC : Fld := ⟨.MPC_STAT, 6, 0, .ro⟩
-- MPC_VSN (Table 10.6)
def MPC_VSN.NEXT : Fld := ⟨.MPC_VSN, 23, 0, .rwk⟩
-- MPC_WORK_BASE (Table 10.7)
def MPC_WORK_BASE.ADDR : Fld := ⟨.MPC_WORK_BASE, 39, 16, .rw⟩
-- MPC_CNT_REC (Table 10.8)
def MPC_CNT_REC.COUNT : Fld := ⟨.MPC_CNT_REC, 31, 0, .rc⟩
-- MPC_CNT_FAIL (Table 10.8)
def MPC_CNT_FAIL.COUNT : Fld := ⟨.MPC_CNT_FAIL, 31, 0, .rc⟩
-- MPC_CNT_MIS (Table 10.8)
def MPC_CNT_MIS.COUNT : Fld := ⟨.MPC_CNT_MIS, 31, 0, .rc⟩
-- MPC_EVT_LOG (Table 10.9)
def MPC_EVT_LOG.VALID : Fld := ⟨.MPC_EVT_LOG, 63, 63, .rc⟩
def MPC_EVT_LOG.KIND : Fld := ⟨.MPC_EVT_LOG, 62, 60, .rc⟩
def MPC_EVT_LOG.MASK : Fld := ⟨.MPC_EVT_LOG, 55, 40, .rc⟩
def MPC_EVT_LOG.ROW_HI : Fld := ⟨.MPC_EVT_LOG, 39, 32, .rc⟩
def MPC_EVT_LOG.ROW_LO : Fld := ⟨.MPC_EVT_LOG, 31, 0, .rc⟩
-- MPC_KEY_CTL (Table 10.10)
def MPC_KEY_CTL.GO : Fld := ⟨.MPC_KEY_CTL, 31, 31, .wok⟩
def MPC_KEY_CTL.OP : Fld := ⟨.MPC_KEY_CTL, 30, 28, .rwk⟩
def MPC_KEY_CTL.ERR : Fld := ⟨.MPC_KEY_CTL, 27, 24, .ro⟩
def MPC_KEY_CTL.BUSY : Fld := ⟨.MPC_KEY_CTL, 23, 23, .ro⟩
def MPC_KEY_CTL.KGEN : Fld := ⟨.MPC_KEY_CTL, 13, 8, .rwk⟩
def MPC_KEY_CTL.HOST_EN : Fld := ⟨.MPC_KEY_CTL, 7, 7, .rwk⟩
def MPC_KEY_CTL.SLOT : Fld := ⟨.MPC_KEY_CTL, 6, 0, .rwk⟩
-- MPC_KEY_DATA
def MPC_KEY_DATA.KEY : Fld := ⟨.MPC_KEY_DATA, 31, 0, .wok⟩
-- MPC_KEY_STAT (Table 10.11)
def MPC_KEY_STAT.STATE : Fld := ⟨.MPC_KEY_STAT, 31, 30, .ro⟩
def MPC_KEY_STAT.KGEN : Fld := ⟨.MPC_KEY_STAT, 29, 24, .ro⟩
def MPC_KEY_STAT.DIRTY : Fld := ⟨.MPC_KEY_STAT, 15, 0, .ro⟩
-- RDC_LANE_AFE (Table 3.2)
def RDC_LANE_AFE.GAIN : Fld := ⟨.RDC_LANE_AFE, 30, 24, .rw⟩
def RDC_LANE_AFE.BOOST : Fld := ⟨.RDC_LANE_AFE, 20, 16, .rw⟩
def RDC_LANE_AFE.HPF : Fld := ⟨.RDC_LANE_AFE, 12, 8, .rw⟩
def RDC_LANE_AFE.OFS_TRIM : Fld := ⟨.RDC_LANE_AFE, 7, 0, .rwk⟩
-- RDC_LANE_SKEW (Table 3.3)
def RDC_LANE_SKEW.DELAY : Fld := ⟨.RDC_LANE_SKEW, 13, 8, .rw⟩
def RDC_LANE_SKEW.PHASE : Fld := ⟨.RDC_LANE_SKEW, 5, 0, .rw⟩
-- RDC_LANE_STAT (Table 3.13)
def RDC_LANE_STAT.LOST : Fld := ⟨.RDC_LANE_STAT, 31, 31, .ro⟩
def RDC_LANE_STAT.BIAS_FLT : Fld := ⟨.RDC_LANE_STAT, 30, 30, .ro⟩
def RDC_LANE_STAT.AMP : Fld := ⟨.RDC_LANE_STAT, 23, 16, .ro⟩
def RDC_LANE_STAT.WEAK_CNT : Fld := ⟨.RDC_LANE_STAT, 15, 8, .ro⟩
def RDC_LANE_STAT.CLIP_CNT : Fld := ⟨.RDC_LANE_STAT, 7, 0, .rc⟩
-- RDC_HP_CTL (Table 3.14)
def RDC_HP_CTL.ZT_LOAD_EN : Fld := ⟨.RDC_HP_CTL, 31, 31, .rw⟩
def RDC_HP_CTL.ZT_WB_EN : Fld := ⟨.RDC_HP_CTL, 30, 30, .rw⟩
def RDC_HP_CTL.SR_FORCE : Fld := ⟨.RDC_HP_CTL, 29, 29, .rw⟩
def RDC_HP_CTL.SR_SEL : Fld := ⟨.RDC_HP_CTL, 28, 28, .rw⟩
def RDC_HP_CTL.LOSS_THR : Fld := ⟨.RDC_HP_CTL, 23, 16, .rw⟩
def RDC_HP_CTL.LOSS_N : Fld := ⟨.RDC_HP_CTL, 15, 8, .rw⟩
-- RDC_HP_RATE (Table 3.5)
def RDC_HP_RATE.RATE : Fld := ⟨.RDC_HP_RATE, 18, 0, .rw⟩
-- RDC_HP_TR (Table 3.4)
def RDC_HP_TR.KP_ACQ : Fld := ⟨.RDC_HP_TR, 31, 28, .rw⟩
def RDC_HP_TR.KI_ACQ : Fld := ⟨.RDC_HP_TR, 27, 24, .rw⟩
def RDC_HP_TR.KP_TRK : Fld := ⟨.RDC_HP_TR, 23, 20, .rw⟩
def RDC_HP_TR.KI_TRK : Fld := ⟨.RDC_HP_TR, 19, 16, .rw⟩
def RDC_HP_TR.FOFS : Fld := ⟨.RDC_HP_TR, 15, 0, .ro⟩
-- RDC_HP_ADAPT (Table 3.8)
def RDC_HP_ADAPT.GRP_FRZ : Fld := ⟨.RDC_HP_ADAPT, 31, 20, .rw⟩
def RDC_HP_ADAPT.MU_EQ : Fld := ⟨.RDC_HP_ADAPT, 19, 16, .rw⟩
def RDC_HP_ADAPT.MU_AGC : Fld := ⟨.RDC_HP_ADAPT, 15, 12, .rw⟩
def RDC_HP_ADAPT.MU_BLR : Fld := ⟨.RDC_HP_ADAPT, 11, 8, .rw⟩
def RDC_HP_ADAPT.NP_FRZ : Fld := ⟨.RDC_HP_ADAPT, 4, 4, .rw⟩
def RDC_HP_ADAPT.CLR_FRZ : Fld := ⟨.RDC_HP_ADAPT, 3, 3, .rw⟩
def RDC_HP_ADAPT.TR_FRZ : Fld := ⟨.RDC_HP_ADAPT, 2, 2, .rw⟩
def RDC_HP_ADAPT.BLR_FRZ : Fld := ⟨.RDC_HP_ADAPT, 1, 1, .rw⟩
def RDC_HP_ADAPT.AGC_FRZ : Fld := ⟨.RDC_HP_ADAPT, 0, 0, .rw⟩
-- RDC_HP_TARGET (Table 3.6)
def RDC_HP_TARGET.G2 : Fld := ⟨.RDC_HP_TARGET, 23, 16, .rw⟩
def RDC_HP_TARGET.G1 : Fld := ⟨.RDC_HP_TARGET, 15, 8, .rw⟩
def RDC_HP_TARGET.G0 : Fld := ⟨.RDC_HP_TARGET, 7, 0, .rw⟩
-- RDC_HP_LOOP (Table 3.9)
def RDC_HP_LOOP.LAMBDA : Fld := ⟨.RDC_HP_LOOP, 23, 16, .rw⟩
def RDC_HP_LOOP.CLR_K : Fld := ⟨.RDC_HP_LOOP, 11, 8, .rw⟩
def RDC_HP_LOOP.AMP_TGT : Fld := ⟨.RDC_HP_LOOP, 7, 0, .rw⟩
-- RDC_HP_CLR (Table 3.10)
def RDC_HP_CLR.VALID : Fld := ⟨.RDC_HP_CLR, 31, 31, .ro⟩
def RDC_HP_CLR.CLR : Fld := ⟨.RDC_HP_CLR, 15, 0, .ro⟩
-- RDC_HP_STAT (Table 3.15)
def RDC_HP_STAT.PWR : Fld := ⟨.RDC_HP_STAT, 31, 30, .ro⟩
def RDC_HP_STAT.LOCKED : Fld := ⟨.RDC_HP_STAT, 29, 29, .ro⟩
def RDC_HP_STAT.SR_ACT : Fld := ⟨.RDC_HP_STAT, 28, 28, .ro⟩
def RDC_HP_STAT.ZT_ERR : Fld := ⟨.RDC_HP_STAT, 27, 27, .w1c⟩
def RDC_HP_STAT.PAL_ERR : Fld := ⟨.RDC_HP_STAT, 26, 26, .w1c⟩
def RDC_HP_STAT.BLR1 : Fld := ⟨.RDC_HP_STAT, 23, 16, .ro⟩
def RDC_HP_STAT.BLR0 : Fld := ⟨.RDC_HP_STAT, 15, 8, .ro⟩
-- RDC_HP_TAP (Table 3.7)
def RDC_HP_TAP.COEF : Fld := ⟨.RDC_HP_TAP, 11, 0, .rw⟩
-- RDC_ZTAB_BASE
def RDC_ZTAB_BASE.ADDR : Fld := ⟨.RDC_ZTAB_BASE, 39, 12, .rw⟩
-- RDC_PAL_STAT (Table 3.17)
def RDC_PAL_STAT.VER : Fld := ⟨.RDC_PAL_STAT, 31, 30, .ro⟩
def RDC_PAL_STAT.UP : Fld := ⟨.RDC_PAL_STAT, 29, 29, .ro⟩
def RDC_PAL_STAT.CRC_ERR : Fld := ⟨.RDC_PAL_STAT, 15, 8, .rc⟩
def RDC_PAL_STAT.RESEND : Fld := ⟨.RDC_PAL_STAT, 7, 0, .rc⟩
-- RDC_HEAD_CFG (Table 3.11)
def RDC_HEAD_CFG.CREF : Fld := ⟨.RDC_HEAD_CFG, 31, 16, .rwk⟩
def RDC_HEAD_CFG.PGAIN : Fld := ⟨.RDC_HEAD_CFG, 15, 14, .rwk⟩
def RDC_HEAD_CFG.RBIAS1 : Fld := ⟨.RDC_HEAD_CFG, 13, 8, .rwk⟩
def RDC_HEAD_CFG.RBIAS0 : Fld := ⟨.RDC_HEAD_CFG, 5, 0, .rwk⟩
-- RDC_HP_DET (Table 4.6)
def RDC_HP_DET.NP_EN : Fld := ⟨.RDC_HP_DET, 31, 31, .rw⟩
def RDC_HP_DET.NP_ZSH : Fld := ⟨.RDC_HP_DET, 30, 28, .rw⟩
def RDC_HP_DET.MU_NP : Fld := ⟨.RDC_HP_DET, 27, 24, .rw⟩
def RDC_HP_DET.MU_NV : Fld := ⟨.RDC_HP_DET, 23, 20, .rw⟩
def RDC_HP_DET.LLR_SCALE : Fld := ⟨.RDC_HP_DET, 15, 12, .rw⟩
def RDC_HP_DET.NP_SET : Fld := ⟨.RDC_HP_DET, 10, 8, .ro⟩
-- RDC_HP_DEC (Table 4.10)
def RDC_HP_DEC.ITER_MAX : Fld := ⟨.RDC_HP_DEC, 23, 16, .rw⟩
def RDC_HP_DEC.LAST_ITER : Fld := ⟨.RDC_HP_DEC, 15, 8, .ro⟩
def RDC_HP_DEC.NORM : Fld := ⟨.RDC_HP_DEC, 7, 0, .rw⟩
-- RDC_HP_SYNC (Table 4.5)
def RDC_HP_SYNC.TOL : Fld := ⟨.RDC_HP_SYNC, 27, 24, .rw⟩
def RDC_HP_SYNC.SM1_MISS : Fld := ⟨.RDC_HP_SYNC, 15, 8, .rc⟩
def RDC_HP_SYNC.BOTH_MISS : Fld := ⟨.RDC_HP_SYNC, 7, 0, .rc⟩
-- RDC_RETRY_STAT (Table 4.15)
def RDC_RETRY_STAT.UNREC : Fld := ⟨.RDC_RETRY_STAT, 31, 31, .w1c⟩
def RDC_RETRY_STAT.HELD : Fld := ⟨.RDC_RETRY_STAT, 27, 24, .ro⟩
def RDC_RETRY_STAT.CAP_MISS : Fld := ⟨.RDC_RETRY_STAT, 15, 8, .rc⟩
-- RDC_NP_ADDR (Table 4.7)
def RDC_NP_ADDR.AUTOINC : Fld := ⟨.RDC_NP_ADDR, 31, 31, .rw⟩
def RDC_NP_ADDR.PATH : Fld := ⟨.RDC_NP_ADDR, 19, 16, .rw⟩
def RDC_NP_ADDR.SET : Fld := ⟨.RDC_NP_ADDR, 14, 12, .rw⟩
def RDC_NP_ADDR.WORD : Fld := ⟨.RDC_NP_ADDR, 7, 0, .rw⟩
-- RDC_NP_DATA
def RDC_NP_DATA.WORD : Fld := ⟨.RDC_NP_DATA, 15, 0, .rw⟩
-- RDC_RETRY_CFG (Table 4.13)
def RDC_RETRY_CFG.HW_EN : Fld := ⟨.RDC_RETRY_CFG, 31, 31, .rw⟩
def RDC_RETRY_CFG.ORD_ERR : Fld := ⟨.RDC_RETRY_CFG, 30, 30, .w1c⟩
def RDC_RETRY_CFG.L1_ITER : Fld := ⟨.RDC_RETRY_CFG, 29, 24, .rw⟩
def RDC_RETRY_CFG.OFS_STEP : Fld := ⟨.RDC_RETRY_CFG, 15, 8, .rw⟩
def RDC_RETRY_CFG.L6_N : Fld := ⟨.RDC_RETRY_CFG, 7, 4, .rw⟩
-- RDC_RETRY_ORDER (Table 4.12)
def RDC_RETRY_ORDER.ORDER : Fld := ⟨.RDC_RETRY_ORDER, 31, 0, .rw⟩
-- RDC_CAP_BASE (Table 4.14)
def RDC_CAP_BASE.ADDR : Fld := ⟨.RDC_CAP_BASE, 39, 16, .rw⟩
def RDC_CAP_BASE.EN : Fld := ⟨.RDC_CAP_BASE, 0, 0, .rw⟩
-- RDC_HST_CTL (Table 4.18)
def RDC_HST_CTL.CLR : Fld := ⟨.RDC_HST_CTL, 1, 1, .wo⟩
def RDC_HST_CTL.SNAP : Fld := ⟨.RDC_HST_CTL, 0, 0, .wo⟩
-- RDC_LDPC_H (Table 4.9)
def RDC_LDPC_H.ROW : Fld := ⟨.RDC_LDPC_H, 11, 8, .ro⟩
def RDC_LDPC_H.SHIFT : Fld := ⟨.RDC_LDPC_H, 7, 0, .ro⟩
-- RDC_HST_SECT (Table 4.20)
def RDC_HST_SECT.COUNT : Fld := ⟨.RDC_HST_SECT, 63, 0, .ro⟩
-- RDC_HST_FAIL (Table 4.19)
def RDC_HST_FAIL.COUNT : Fld := ⟨.RDC_HST_FAIL, 31, 0, .ro⟩
-- RDC_HST_SYNC (Table 4.19)
def RDC_HST_SYNC.COUNT : Fld := ⟨.RDC_HST_SYNC, 31, 0, .ro⟩
-- RDC_HST_FLIP (Table 4.20)
def RDC_HST_FLIP.COUNT : Fld := ⟨.RDC_HST_FLIP, 63, 0, .ro⟩
-- RDC_HST_HOFF (Table 4.19)
def RDC_HST_HOFF.COUNT : Fld := ⟨.RDC_HST_HOFF, 31, 0, .ro⟩
-- RDC_HST_UNREC (Table 4.19)
def RDC_HST_UNREC.COUNT : Fld := ⟨.RDC_HST_UNREC, 31, 0, .ro⟩
-- RDC_HST_REC (Table 4.19)
def RDC_HST_REC.COUNT : Fld := ⟨.RDC_HST_REC, 31, 0, .ro⟩
-- WRC_WR_CTL (Table 5.3)
def WRC_WR_CTL.WT_LOAD_EN : Fld := ⟨.WRC_WR_CTL, 31, 31, .rw⟩
def WRC_WR_CTL.WT_WB_EN : Fld := ⟨.WRC_WR_CTL, 30, 30, .rw⟩
def WRC_WR_CTL.INHIBIT : Fld := ⟨.WRC_WR_CTL, 29, 29, .rw⟩
def WRC_WR_CTL.ASSIGNED : Fld := ⟨.WRC_WR_CTL, 18, 18, .ro⟩
def WRC_WR_CTL.SLOT : Fld := ⟨.WRC_WR_CTL, 17, 16, .ro⟩
-- WRC_WR_STAT (Table 5.4)
def WRC_WR_STAT.PWR : Fld := ⟨.WRC_WR_STAT, 31, 30, .ro⟩
def WRC_WR_STAT.GATE : Fld := ⟨.WRC_WR_STAT, 29, 29, .ro⟩
def WRC_WR_STAT.AST_ON : Fld := ⟨.WRC_WR_STAT, 28, 28, .ro⟩
def WRC_WR_STAT.WT_ERR : Fld := ⟨.WRC_WR_STAT, 27, 27, .w1c⟩
def WRC_WR_STAT.AST_FLT : Fld := ⟨.WRC_WR_STAT, 26, 26, .w1c⟩
def WRC_WR_STAT.CAUSE : Fld := ⟨.WRC_WR_STAT, 25, 22, .ro⟩
def WRC_WR_STAT.DRV : Fld := ⟨.WRC_WR_STAT, 19, 10, .ro⟩
def WRC_WR_STAT.MON : Fld := ⟨.WRC_WR_STAT, 9, 0, .ro⟩
-- WRC_HEAD_CFG (Table 5.8)
def WRC_HEAD_CFG.ATYPE : Fld := ⟨.WRC_HEAD_CFG, 31, 30, .ro⟩
def WRC_HEAD_CFG.HBO : Fld := ⟨.WRC_HEAD_CFG, 29, 24, .rwk⟩
def WRC_HEAD_CFG.CTGT : Fld := ⟨.WRC_HEAD_CFG, 23, 16, .rwk⟩
def WRC_HEAD_CFG.HTR_MAX : Fld := ⟨.WRC_HEAD_CFG, 15, 8, .rwk⟩
def WRC_HEAD_CFG.KC : Fld := ⟨.WRC_HEAD_CFG, 7, 0, .rwk⟩
-- WRC_WTAB_BASE (Table 5.6)
def WRC_WTAB_BASE.ADDR : Fld := ⟨.WRC_WTAB_BASE, 39, 12, .rw⟩
-- WRC_CFG (Table 5.9)
def WRC_CFG.OT_PCT : Fld := ⟨.WRC_CFG, 31, 24, .rw⟩
def WRC_CFG.KA : Fld := ⟨.WRC_CFG, 23, 20, .rw⟩
def WRC_CFG.AST_LEAD : Fld := ⟨.WRC_CFG, 19, 16, .rw⟩
def WRC_CFG.MON_TOL : Fld := ⟨.WRC_CFG, 15, 8, .rw⟩
def WRC_CFG.KH : Fld := ⟨.WRC_CFG, 7, 0, .rw⟩
-- WRC_WUS_STAT (Table 5.12)
def WRC_WUS_STAT.LIVE : Fld := ⟨.WRC_WUS_STAT, 23, 16, .ro⟩
def WRC_WUS_STAT.SEEN : Fld := ⟨.WRC_WUS_STAT, 7, 0, .w1c⟩
-- WRC_VFY_CFG (Table 5.16)
def WRC_VFY_CFG.MODE : Fld := ⟨.WRC_VFY_CFG, 31, 30, .rw⟩
def WRC_VFY_CFG.SAMPLE_N : Fld := ⟨.WRC_VFY_CFG, 29, 26, .rw⟩
def WRC_VFY_CFG.VFY_ITER : Fld := ⟨.WRC_VFY_CFG, 25, 21, .rw⟩
def WRC_VFY_CFG.TRIM_MAX : Fld := ⟨.WRC_VFY_CFG, 7, 0, .rw⟩
-- WRC_TRIM_CFG (Table 5.17)
def WRC_TRIM_CFG.VWIN : Fld := ⟨.WRC_TRIM_CFG, 23, 16, .rw⟩
def WRC_TRIM_CFG.E_HI : Fld := ⟨.WRC_TRIM_CFG, 15, 12, .rw⟩
def WRC_TRIM_CFG.E_LO : Fld := ⟨.WRC_TRIM_CFG, 11, 8, .rw⟩
def WRC_TRIM_CFG.TSTEP : Fld := ⟨.WRC_TRIM_CFG, 7, 4, .rw⟩
-- WRC_RWL_BASE (Table 5.6)
def WRC_RWL_BASE.ADDR : Fld := ⟨.WRC_RWL_BASE, 39, 12, .rw⟩
-- WRC_RWL_CTL (Table 5.14)
def WRC_RWL_CTL.ENABLE : Fld := ⟨.WRC_RWL_CTL, 31, 31, .rw⟩
def WRC_RWL_CTL.IRQ_EN : Fld := ⟨.WRC_RWL_CTL, 30, 30, .rw⟩
def WRC_RWL_CTL.FULL : Fld := ⟨.WRC_RWL_CTL, 29, 29, .ro⟩
def WRC_RWL_CTL.SIZE_LOG2 : Fld := ⟨.WRC_RWL_CTL, 27, 24, .rw⟩
-- WRC_RWL_PTR (Table 5.15)
def WRC_RWL_PTR.WR : Fld := ⟨.WRC_RWL_PTR, 31, 16, .ro⟩
def WRC_RWL_PTR.RD : Fld := ⟨.WRC_RWL_PTR, 15, 0, .rw⟩
-- SVE_COEF
def SVE_COEF.W : Fld := ⟨.SVE_COEF, 31, 0, .rwk⟩
-- SVE_CLU_CTL (Table 6.4)
def SVE_CLU_CTL.BANK_ERR : Fld := ⟨.SVE_CLU_CTL, 4, 4, .w1c⟩
def SVE_CLU_CTL.COMMIT : Fld := ⟨.SVE_CLU_CTL, 3, 0, .rwk⟩
-- SVE_CLU_STAT (Table 6.5)
def SVE_CLU_STAT.OVR : Fld := ⟨.SVE_CLU_STAT, 23, 16, .rc⟩
def SVE_CLU_STAT.EXEC_MAX : Fld := ⟨.SVE_CLU_STAT, 15, 8, .rc⟩
def SVE_CLU_STAT.BUSY : Fld := ⟨.SVE_CLU_STAT, 7, 0, .ro⟩
-- SVE_CTX_CFG (Table 6.6)
def SVE_CTX_CFG.ENABLE : Fld := ⟨.SVE_CTX_CFG, 31, 31, .rwk⟩
def SVE_CTX_CFG.MODE : Fld := ⟨.SVE_CTX_CFG, 30, 30, .rwk⟩
def SVE_CTX_CFG.CLU : Fld := ⟨.SVE_CTX_CFG, 27, 24, .rwk⟩
def SVE_CTX_CFG.BANK : Fld := ⟨.SVE_CTX_CFG, 21, 20, .rwk⟩
-- SVE_CTX_MAN (Table 6.7)
def SVE_CTX_MAN.MAN : Fld := ⟨.SVE_CTX_MAN, 15, 0, .rw⟩
-- SVE_CTX_OUT (Table 6.7)
def SVE_CTX_OUT.OUT : Fld := ⟨.SVE_CTX_OUT, 15, 0, .ro⟩
-- SVE_CTX_INTEG
def SVE_CTX_INTEG.I : Fld := ⟨.SVE_CTX_INTEG, 31, 0, .ro⟩
-- SVE_CTX_STAT (Table 6.8)
def SVE_CTX_STAT.CLAMP_I : Fld := ⟨.SVE_CTX_STAT, 31, 31, .ro⟩
def SVE_CTX_STAT.CLAMP_O : Fld := ⟨.SVE_CTX_STAT, 30, 30, .ro⟩
def SVE_CTX_STAT.MODE_ACT : Fld := ⟨.SVE_CTX_STAT, 29, 29, .ro⟩
def SVE_CTX_STAT.OVR : Fld := ⟨.SVE_CTX_STAT, 28, 28, .w1c⟩
def SVE_CTX_STAT.LATE : Fld := ⟨.SVE_CTX_STAT, 27, 27, .w1c⟩
def SVE_CTX_STAT.SEC_SAT : Fld := ⟨.SVE_CTX_STAT, 26, 26, .w1c⟩
def SVE_CTX_STAT.CLAMP_CNT : Fld := ⟨.SVE_CTX_STAT, 7, 0, .ro⟩
-- SVE_SV_CFG (Table 6.11)
def SVE_SV_CFG.RRO_EN : Fld := ⟨.SVE_SV_CFG, 31, 31, .rwk⟩
def SVE_SV_CFG.MISS_N : Fld := ⟨.SVE_SV_CFG, 27, 24, .rwk⟩
def SVE_SV_CFG.TRK_WIN : Fld := ⟨.SVE_SV_CFG, 23, 20, .rwk⟩
def SVE_SV_CFG.SAM_WIN : Fld := ⟨.SVE_SV_CFG, 19, 16, .rwk⟩
def SVE_SV_CFG.AMP_MIN : Fld := ⟨.SVE_SV_CFG, 15, 10, .rwk⟩
def SVE_SV_CFG.SV_MBPS : Fld := ⟨.SVE_SV_CFG, 9, 0, .rwk⟩
-- SVE_ACT_CFG (Table 6.12)
def SVE_ACT_CFG.SP_RAMP : Fld := ⟨.SVE_ACT_CFG, 31, 31, .rwk⟩
def SVE_ACT_CFG.ACT_MISS : Fld := ⟨.SVE_ACT_CFG, 27, 24, .rwk⟩
def SVE_ACT_CFG.SKEW_MAX : Fld := ⟨.SVE_ACT_CFG, 23, 16, .rwk⟩
def SVE_ACT_CFG.CUR_PHASE : Fld := ⟨.SVE_ACT_CFG, 7, 0, .rwk⟩
-- SVE_ACT_STAT (Table 6.14)
def SVE_ACT_STAT.SV_LOSS : Fld := ⟨.SVE_ACT_STAT, 31, 31, .w1c⟩
def SVE_ACT_STAT.N_PES : Fld := ⟨.SVE_ACT_STAT, 26, 24, .ro⟩
-- SVE_PES (Table 6.13)
def SVE_PES.PES : Fld := ⟨.SVE_PES, 31, 0, .ro⟩
-- SVE_WEDGE_STAT (Table 6.13)
def SVE_WEDGE_STAT.VALID : Fld := ⟨.SVE_WEDGE_STAT, 31, 31, .ro⟩
def SVE_WEDGE_STAT.SERVO : Fld := ⟨.SVE_WEDGE_STAT, 30, 30, .ro⟩
def SVE_WEDGE_STAT.MISS_CNT : Fld := ⟨.SVE_WEDGE_STAT, 27, 24, .ro⟩
def SVE_WEDGE_STAT.MISS_TOT : Fld := ⟨.SVE_WEDGE_STAT, 23, 16, .rc⟩
def SVE_WEDGE_STAT.WEDGE : Fld := ⟨.SVE_WEDGE_STAT, 9, 0, .ro⟩
-- SVE_TRK_CTL (Table 6.19)
def SVE_TRK_CTL.GRACE : Fld := ⟨.SVE_TRK_CTL, 23, 16, .rwk⟩
def SVE_TRK_CTL.LIMIT : Fld := ⟨.SVE_TRK_CTL, 8, 0, .rwk⟩
-- SVE_SERVICE
def SVE_SERVICE.SERVICE : Fld := ⟨.SVE_SERVICE, 31, 0, .wo⟩
-- SVE_TRK_STAT (Table 6.20)
def SVE_TRK_STAT.STATE : Fld := ⟨.SVE_TRK_STAT, 31, 30, .ro⟩
def SVE_TRK_STAT.EXPIRED : Fld := ⟨.SVE_TRK_STAT, 29, 29, .w1c⟩
def SVE_TRK_STAT.RETRACT : Fld := ⟨.SVE_TRK_STAT, 23, 20, .ro⟩
def SVE_TRK_STAT.LOADED : Fld := ⟨.SVE_TRK_STAT, 19, 16, .ro⟩
def SVE_TRK_STAT.SINCE : Fld := ⟨.SVE_TRK_STAT, 15, 0, .ro⟩
-- SVE_SEEK_TGT
def SVE_SEEK_TGT.TRACK : Fld := ⟨.SVE_SEEK_TGT, 23, 0, .rw⟩
-- SVE_SEEK_DLT
def SVE_SEEK_DLT.DLT_0 : Fld := ⟨.SVE_SEEK_DLT, 7, 0, .rw⟩
def SVE_SEEK_DLT.DLT_1 : Fld := ⟨.SVE_SEEK_DLT, 15, 8, .rw⟩
def SVE_SEEK_DLT.DLT_2 : Fld := ⟨.SVE_SEEK_DLT, 23, 16, .rw⟩
def SVE_SEEK_DLT.DLT_3 : Fld := ⟨.SVE_SEEK_DLT, 31, 24, .rw⟩
-- SVE_SEEK_CMD (Table 7.3)
def SVE_SEEK_CMD.SLOTS : Fld := ⟨.SVE_SEEK_CMD, 19, 16, .rw⟩
def SVE_SEEK_CMD.WR : Fld := ⟨.SVE_SEEK_CMD, 8, 8, .rw⟩
def SVE_SEEK_CMD.UNLOAD : Fld := ⟨.SVE_SEEK_CMD, 2, 2, .wo⟩
def SVE_SEEK_CMD.LOAD : Fld := ⟨.SVE_SEEK_CMD, 1, 1, .wo⟩
def SVE_SEEK_CMD.GO : Fld := ⟨.SVE_SEEK_CMD, 0, 0, .wo⟩
-- SVE_SEEK_STAT (Table 7.4)
def SVE_SEEK_STAT.STATE : Fld := ⟨.SVE_SEEK_STAT, 31, 29, .ro⟩
def SVE_SEEK_STAT.ERR : Fld := ⟨.SVE_SEEK_STAT, 28, 25, .ro⟩
def SVE_SEEK_STAT.DONE : Fld := ⟨.SVE_SEEK_STAT, 24, 24, .w1c⟩
def SVE_SEEK_STAT.SETTLED : Fld := ⟨.SVE_SEEK_STAT, 23, 20, .ro⟩
def SVE_SEEK_STAT.DROP : Fld := ⟨.SVE_SEEK_STAT, 19, 16, .ro⟩
def SVE_SEEK_STAT.WEDGES : Fld := ⟨.SVE_SEEK_STAT, 15, 0, .ro⟩
-- SVE_TRAJ_LIM (Table 7.5)
def SVE_TRAJ_LIM.J_MAX : Fld := ⟨.SVE_TRAJ_LIM, 31, 24, .rwk⟩
def SVE_TRAJ_LIM.A_MAX : Fld := ⟨.SVE_TRAJ_LIM, 23, 16, .rwk⟩
def SVE_TRAJ_LIM.V_MAX : Fld := ⟨.SVE_TRAJ_LIM, 15, 8, .rwk⟩
def SVE_TRAJ_LIM.HO_TRK : Fld := ⟨.SVE_TRAJ_LIM, 7, 0, .rwk⟩
-- SVE_TRAJ_GAIN (Table 7.6)
def SVE_TRAJ_GAIN.ACC_GAIN : Fld := ⟨.SVE_TRAJ_GAIN, 31, 20, .rwk⟩
def SVE_TRAJ_GAIN.KV : Fld := ⟨.SVE_TRAJ_GAIN, 19, 12, .rwk⟩
def SVE_TRAJ_GAIN.SEEK_WIN : Fld := ⟨.SVE_TRAJ_GAIN, 11, 8, .rwk⟩
def SVE_TRAJ_GAIN.KX : Fld := ⟨.SVE_TRAJ_GAIN, 7, 0, .rwk⟩
-- SVE_SETTLE_CFG (Table 7.7)
def SVE_SETTLE_CFG.SET_TMO : Fld := ⟨.SVE_SETTLE_CFG, 31, 24, .rwk⟩
def SVE_SETTLE_CFG.RD_N : Fld := ⟨.SVE_SETTLE_CFG, 23, 20, .rwk⟩
def SVE_SETTLE_CFG.WR_N : Fld := ⟨.SVE_SETTLE_CFG, 19, 16, .rwk⟩
def SVE_SETTLE_CFG.RD_WIN : Fld := ⟨.SVE_SETTLE_CFG, 15, 8, .rwk⟩
def SVE_SETTLE_CFG.WR_WIN : Fld := ⟨.SVE_SETTLE_CFG, 7, 0, .rwk⟩
-- SVE_RAMP_CFG (Table 7.8)
def SVE_RAMP_CFG.LD_V : Fld := ⟨.SVE_RAMP_CFG, 31, 24, .rwk⟩
def SVE_RAMP_CFG.LD_TMO : Fld := ⟨.SVE_RAMP_CFG, 23, 16, .rwk⟩
def SVE_RAMP_CFG.LD_N : Fld := ⟨.SVE_RAMP_CFG, 15, 12, .rwk⟩
def SVE_RAMP_CFG.LD_RETRY : Fld := ⟨.SVE_RAMP_CFG, 11, 10, .rwk⟩
def SVE_RAMP_CFG.UL_VEL : Fld := ⟨.SVE_RAMP_CFG, 9, 0, .rwk⟩
-- SVE_RRO_BASE (Table 7.9)
def SVE_RRO_BASE.ADDR : Fld := ⟨.SVE_RRO_BASE, 39, 12, .rwk⟩
-- SVE_RRO_CTL (Table 7.10)
def SVE_RRO_CTL.LRN_EN : Fld := ⟨.SVE_RRO_CTL, 31, 31, .rw⟩
def SVE_RRO_CTL.LD_EN : Fld := ⟨.SVE_RRO_CTL, 30, 30, .rw⟩
def SVE_RRO_CTL.WB_EN : Fld := ⟨.SVE_RRO_CTL, 29, 29, .rw⟩
def SVE_RRO_CTL.ERR : Fld := ⟨.SVE_RRO_CTL, 28, 28, .w1c⟩
def SVE_RRO_CTL.NH : Fld := ⟨.SVE_RRO_CTL, 27, 24, .rwk⟩
def SVE_RRO_CTL.MAX_0 : Fld := ⟨.SVE_RRO_CTL, 15, 8, .rwk⟩
def SVE_RRO_CTL.MAX_1 : Fld := ⟨.SVE_RRO_CTL, 7, 0, .rwk⟩
-- SVE_RRO_HARM (Table 7.11)
def SVE_RRO_HARM.HARM : Fld := ⟨.SVE_RRO_HARM, 31, 26, .rwk⟩
def SVE_RRO_HARM.PHASE : Fld := ⟨.SVE_RRO_HARM, 25, 16, .rwk⟩
def SVE_RRO_HARM.MU : Fld := ⟨.SVE_RRO_HARM, 15, 12, .rwk⟩
-- SVE_NOTCH_CTL (Table 7.12)
def SVE_NOTCH_CTL.EN : Fld := ⟨.SVE_NOTCH_CTL, 31, 31, .rwk⟩
def SVE_NOTCH_CTL.SEC : Fld := ⟨.SVE_NOTCH_CTL, 27, 24, .rwk⟩
def SVE_NOTCH_CTL.RHO : Fld := ⟨.SVE_NOTCH_CTL, 23, 16, .rwk⟩
def SVE_NOTCH_CTL.MU_N : Fld := ⟨.SVE_NOTCH_CTL, 15, 12, .rwk⟩
def SVE_NOTCH_CTL.F_STEP : Fld := ⟨.SVE_NOTCH_CTL, 11, 0, .rwk⟩
-- SVE_NOTCH_LIM (Table 7.13)
def SVE_NOTCH_LIM.F_HI : Fld := ⟨.SVE_NOTCH_LIM, 30, 16, .rwk⟩
def SVE_NOTCH_LIM.F_LO : Fld := ⟨.SVE_NOTCH_LIM, 14, 0, .rwk⟩
-- SVE_NOTCH_STAT (Table 7.13)
def SVE_NOTCH_STAT.BOUND : Fld := ⟨.SVE_NOTCH_STAT, 31, 31, .w1c⟩
def SVE_NOTCH_STAT.F_APP : Fld := ⟨.SVE_NOTCH_STAT, 30, 16, .ro⟩
def SVE_NOTCH_STAT.ERR : Fld := ⟨.SVE_NOTCH_STAT, 15, 15, .w1c⟩
def SVE_NOTCH_STAT.F_EST : Fld := ⟨.SVE_NOTCH_STAT, 14, 0, .ro⟩
-- SVE_VFF_CTL (Table 7.15)
def SVE_VFF_CTL.EN : Fld := ⟨.SVE_VFF_CTL, 31, 31, .rwk⟩
def SVE_VFF_CTL.VFF_MAX : Fld := ⟨.SVE_VFF_CTL, 15, 0, .rwk⟩
-- SVE_SHK_CFG (Table 7.17)
def SVE_SHK_CFG.SHK_THR : Fld := ⟨.SVE_SHK_CFG, 31, 24, .rwk⟩
def SVE_SHK_CFG.FW_THR : Fld := ⟨.SVE_SHK_CFG, 23, 16, .rwk⟩
def SVE_SHK_CFG.SHK_HOLD : Fld := ⟨.SVE_SHK_CFG, 15, 8, .rwk⟩
def SVE_SHK_CFG.FWB_EN : Fld := ⟨.SVE_SHK_CFG, 7, 7, .rwk⟩
def SVE_SHK_CFG.FW_BANK : Fld := ⟨.SVE_SHK_CFG, 5, 4, .rwk⟩
def SVE_SHK_CFG.SHK_EN : Fld := ⟨.SVE_SHK_CFG, 3, 0, .rwk⟩
-- SVE_SHK_STAT (Table 7.18)
def SVE_SHK_STAT.SHOCK : Fld := ⟨.SVE_SHK_STAT, 31, 31, .ro⟩
def SVE_SHK_STAT.GUARD : Fld := ⟨.SVE_SHK_STAT, 30, 30, .ro⟩
def SVE_SHK_STAT.SHK_CNT : Fld := ⟨.SVE_SHK_STAT, 23, 16, .rc⟩
def SVE_SHK_STAT.LAST_SRC : Fld := ⟨.SVE_SHK_STAT, 10, 8, .ro⟩
def SVE_SHK_STAT.PEAK : Fld := ⟨.SVE_SHK_STAT, 7, 0, .ro⟩
-- SVE_VG_CFG (Table 7.16)
def SVE_VG_CFG.EN : Fld := ⟨.SVE_VG_CFG, 31, 31, .rwk⟩
def SVE_VG_CFG.VG_THR : Fld := ⟨.SVE_VG_CFG, 23, 16, .rwk⟩
def SVE_VG_CFG.VG_N : Fld := ⟨.SVE_VG_CFG, 15, 8, .rwk⟩
def SVE_VG_CFG.VG_ADD : Fld := ⟨.SVE_VG_CFG, 7, 4, .rwk⟩
-- SVE_VFF_COEF
def SVE_VFF_COEF.W : Fld := ⟨.SVE_VFF_COEF, 31, 0, .rwk⟩
-- SVE_CMAP_BASE (Table 2.4)
def SVE_CMAP_BASE.ADDR : Fld := ⟨.SVE_CMAP_BASE, 39, 12, .rwk⟩
-- SVE_CMAP_CFG (Table 2.5)
def SVE_CMAP_CFG.ENABLE : Fld := ⟨.SVE_CMAP_CFG, 31, 31, .rwk⟩
def SVE_CMAP_CFG.ZONES_M1 : Fld := ⟨.SVE_CMAP_CFG, 30, 24, .rwk⟩
def SVE_CMAP_CFG.LAST_BAND : Fld := ⟨.SVE_CMAP_CFG, 15, 0, .rwk⟩
-- SVE_DRIFT_CFG (Table 2.9)
def SVE_DRIFT_CFG.IRQ_EN : Fld := ⟨.SVE_DRIFT_CFG, 31, 31, .rw⟩
def SVE_DRIFT_CFG.K : Fld := ⟨.SVE_DRIFT_CFG, 19, 16, .rw⟩
def SVE_DRIFT_CFG.WARN_PCT : Fld := ⟨.SVE_DRIFT_CFG, 15, 8, .rw⟩
def SVE_DRIFT_CFG.CHG_PCT : Fld := ⟨.SVE_DRIFT_CFG, 7, 0, .rw⟩
-- SVE_DRIFT_STAT (Table 2.10)
def SVE_DRIFT_STAT.OVF : Fld := ⟨.SVE_DRIFT_STAT, 8, 8, .w1c⟩
def SVE_DRIFT_STAT.COUNT : Fld := ⟨.SVE_DRIFT_STAT, 6, 0, .ro⟩
-- SVE_DRIFT_LOG (Table 2.11)
def SVE_DRIFT_LOG.MAP_BIAS : Fld := ⟨.SVE_DRIFT_LOG, 55, 44, .rc⟩
def SVE_DRIFT_LOG.OBS_BIAS : Fld := ⟨.SVE_DRIFT_LOG, 43, 32, .rc⟩
def SVE_DRIFT_LOG.VALID : Fld := ⟨.SVE_DRIFT_LOG, 31, 31, .rc⟩
def SVE_DRIFT_LOG.KIND : Fld := ⟨.SVE_DRIFT_LOG, 30, 29, .rc⟩
def SVE_DRIFT_LOG.HEAD : Fld := ⟨.SVE_DRIFT_LOG, 28, 24, .rc⟩
def SVE_DRIFT_LOG.BAND : Fld := ⟨.SVE_DRIFT_LOG, 15, 0, .rc⟩
-- SVE_SLOT_MAP (Table 2.2)
def SVE_SLOT_MAP.SPARE_EN : Fld := ⟨.SVE_SLOT_MAP, 19, 19, .rwk⟩
def SVE_SLOT_MAP.SPARE_ARM : Fld := ⟨.SVE_SLOT_MAP, 18, 16, .rwk⟩
def SVE_SLOT_MAP.EN_3 : Fld := ⟨.SVE_SLOT_MAP, 15, 15, .rwk⟩
def SVE_SLOT_MAP.ARM_3 : Fld := ⟨.SVE_SLOT_MAP, 14, 12, .rwk⟩
def SVE_SLOT_MAP.EN_2 : Fld := ⟨.SVE_SLOT_MAP, 11, 11, .rwk⟩
def SVE_SLOT_MAP.ARM_2 : Fld := ⟨.SVE_SLOT_MAP, 10, 8, .rwk⟩
def SVE_SLOT_MAP.EN_1 : Fld := ⟨.SVE_SLOT_MAP, 7, 7, .rwk⟩
def SVE_SLOT_MAP.ARM_1 : Fld := ⟨.SVE_SLOT_MAP, 6, 4, .rwk⟩
def SVE_SLOT_MAP.EN_0 : Fld := ⟨.SVE_SLOT_MAP, 3, 3, .rwk⟩
def SVE_SLOT_MAP.ARM_0 : Fld := ⟨.SVE_SLOT_MAP, 2, 0, .rwk⟩
-- SVE_REBUILD (Table 2.17)
def SVE_REBUILD.ACTIVE : Fld := ⟨.SVE_REBUILD, 31, 31, .rwk⟩
def SVE_REBUILD.SLOT : Fld := ⟨.SVE_REBUILD, 29, 28, .rwk⟩
def SVE_REBUILD.OLD_ARM : Fld := ⟨.SVE_REBUILD, 26, 24, .rwk⟩
def SVE_REBUILD.WMARK : Fld := ⟨.SVE_REBUILD, 15, 0, .rwk⟩
-- SVE_HEAD_STATE (Table 2.3)
def SVE_HEAD_STATE.WRT_BAD : Fld := ⟨.SVE_HEAD_STATE, 6, 6, .rwk⟩
def SVE_HEAD_STATE.RDR1_BAD : Fld := ⟨.SVE_HEAD_STATE, 5, 5, .rwk⟩
def SVE_HEAD_STATE.RDR0_BAD : Fld := ⟨.SVE_HEAD_STATE, 4, 4, .rwk⟩
def SVE_HEAD_STATE.STATE : Fld := ⟨.SVE_HEAD_STATE, 2, 0, .rwk⟩
-- SPN_CTL (Table 8.8)
def SPN_CTL.SPD_SET : Fld := ⟨.SPN_CTL, 13, 0, .rwk⟩
-- SPN_STAT (Table 8.10)
def SPN_STAT.STATE : Fld := ⟨.SPN_STAT, 31, 28, .ro⟩
def SPN_STAT.AT_SPEED : Fld := ⟨.SPN_STAT, 27, 27, .ro⟩
def SPN_STAT.INDEX_VALID : Fld := ⟨.SPN_STAT, 26, 26, .ro⟩
def SPN_STAT.SU_FAIL : Fld := ⟨.SPN_STAT, 25, 25, .w1c⟩
def SPN_STAT.OBS_LOSS : Fld := ⟨.SPN_STAT, 24, 24, .w1c⟩
def SPN_STAT.STOP : Fld := ⟨.SPN_STAT, 23, 23, .rwk⟩
def SPN_STAT.START : Fld := ⟨.SPN_STAT, 22, 22, .rwk⟩
def SPN_STAT.SPEED : Fld := ⟨.SPN_STAT, 21, 0, .ro⟩
-- SPN_LIM (Table 8.11)
def SPN_LIM.SU_RES : Fld := ⟨.SPN_LIM, 31, 24, .rwk⟩
def SPN_LIM.ACC_MIN : Fld := ⟨.SPN_LIM, 23, 16, .rwk⟩
def SPN_LIM.SPD_TOL : Fld := ⟨.SPN_LIM, 15, 8, .rwk⟩
def SPN_LIM.SC_RATE : Fld := ⟨.SPN_LIM, 7, 0, .rwk⟩
-- SPN_SU_CFG (Table 8.6)
def SPN_SU_CFG.VPULSE : Fld := ⟨.SPN_SU_CFG, 31, 24, .rwk⟩
def SPN_SU_CFG.TPULSE : Fld := ⟨.SPN_SU_CFG, 23, 16, .rwk⟩
def SPN_SU_CFG.SU_TRY : Fld := ⟨.SPN_SU_CFG, 15, 12, .rwk⟩
def SPN_SU_CFG.I_OL : Fld := ⟨.SPN_SU_CFG, 7, 0, .rwk⟩
-- SPN_HO_CFG (Table 8.7)
def SPN_HO_CFG.OL_ACC : Fld := ⟨.SPN_HO_CFG, 31, 24, .rwk⟩
def SPN_HO_CFG.HO_RPM : Fld := ⟨.SPN_HO_CFG, 23, 16, .rwk⟩
def SPN_HO_CFG.HO_ANG : Fld := ⟨.SPN_HO_CFG, 15, 8, .rwk⟩
def SPN_HO_CFG.HO_N : Fld := ⟨.SPN_HO_CFG, 7, 0, .rwk⟩
-- SPN_MOTOR (Table 8.2)
def SPN_MOTOR.POLES : Fld := ⟨.SPN_MOTOR, 31, 28, .rwk⟩
def SPN_MOTOR.RPH : Fld := ⟨.SPN_MOTOR, 27, 16, .rwk⟩
def SPN_MOTOR.LPH : Fld := ⟨.SPN_MOTOR, 15, 8, .rwk⟩
def SPN_MOTOR.KE : Fld := ⟨.SPN_MOTOR, 7, 0, .rwk⟩
-- SPN_ORR_CFG (Table 8.13)
def SPN_ORR_CFG.EN : Fld := ⟨.SPN_ORR_CFG, 31, 31, .rwk⟩
def SPN_ORR_CFG.SLOT_SRC : Fld := ⟨.SPN_ORR_CFG, 30, 30, .rwk⟩
def SPN_ORR_CFG.SLOT : Fld := ⟨.SPN_ORR_CFG, 27, 24, .rwk⟩
def SPN_ORR_CFG.DW_MAX : Fld := ⟨.SPN_ORR_CFG, 23, 16, .rwk⟩
def SPN_ORR_CFG.LOCK_WIN : Fld := ⟨.SPN_ORR_CFG, 15, 8, .rwk⟩
def SPN_ORR_CFG.SLEW : Fld := ⟨.SPN_ORR_CFG, 4, 0, .rwk⟩
-- SPN_ORR_STAT (Table 8.14)
def SPN_ORR_STAT.OSTATE : Fld := ⟨.SPN_ORR_STAT, 31, 29, .ro⟩
def SPN_ORR_STAT.FREE_EVT : Fld := ⟨.SPN_ORR_STAT, 28, 28, .w1c⟩
def SPN_ORR_STAT.UNLOCK_EVT : Fld := ⟨.SPN_ORR_STAT, 27, 27, .w1c⟩
def SPN_ORR_STAT.SLOT_USED : Fld := ⟨.SPN_ORR_STAT, 23, 20, .ro⟩
def SPN_ORR_STAT.PH_ERR : Fld := ⟨.SPN_ORR_STAT, 15, 0, .ro⟩
-- SPN_COMMIT (Table 8.4)
def SPN_COMMIT.BANK_ERR : Fld := ⟨.SPN_COMMIT, 4, 4, .w1c⟩
def SPN_COMMIT.COMMIT : Fld := ⟨.SPN_COMMIT, 2, 0, .rwk⟩
-- SPN_CTX_CFG (Table 6.6)
def SPN_CTX_CFG.ENABLE : Fld := ⟨.SPN_CTX_CFG, 31, 31, .rwk⟩
def SPN_CTX_CFG.MODE : Fld := ⟨.SPN_CTX_CFG, 30, 30, .rwk⟩
-- SPN_CTX_MAN (Table 6.7)
def SPN_CTX_MAN.MAN : Fld := ⟨.SPN_CTX_MAN, 15, 0, .rw⟩
-- SPN_CTX_OUT (Table 6.7)
def SPN_CTX_OUT.OUT : Fld := ⟨.SPN_CTX_OUT, 15, 0, .ro⟩
-- SPN_CTX_INTEG
def SPN_CTX_INTEG.I : Fld := ⟨.SPN_CTX_INTEG, 31, 0, .ro⟩
-- SPN_CTX_STAT (Table 6.8)
def SPN_CTX_STAT.CLAMP_I : Fld := ⟨.SPN_CTX_STAT, 31, 31, .ro⟩
def SPN_CTX_STAT.CLAMP_O : Fld := ⟨.SPN_CTX_STAT, 30, 30, .ro⟩
def SPN_CTX_STAT.MODE_ACT : Fld := ⟨.SPN_CTX_STAT, 29, 29, .ro⟩
def SPN_CTX_STAT.OVR : Fld := ⟨.SPN_CTX_STAT, 28, 28, .w1c⟩
def SPN_CTX_STAT.SEC_SAT : Fld := ⟨.SPN_CTX_STAT, 26, 26, .w1c⟩
def SPN_CTX_STAT.CLAMP_CNT : Fld := ⟨.SPN_CTX_STAT, 7, 0, .ro⟩
-- SPN_COEF
def SPN_COEF.W : Fld := ⟨.SPN_COEF, 31, 0, .rwk⟩
-- PWR_STAT (Table 17.9)
def PWR_STAT.LOSS : Fld := ⟨.PWR_STAT, 31, 31, .ro⟩
def PWR_STAT.WARN : Fld := ⟨.PWR_STAT, 30, 30, .ro⟩
def PWR_STAT.RAIL_OK : Fld := ⟨.PWR_STAT, 21, 16, .ro⟩
def PWR_STAT.LATCHED : Fld := ⟨.PWR_STAT, 15, 12, .ro⟩
def PWR_STAT.RETRACTED : Fld := ⟨.PWR_STAT, 11, 8, .w1c⟩
-- PWR_SNS_CFG (Table 17.5)
def PWR_SNS_CFG.WARN12 : Fld := ⟨.PWR_SNS_CFG, 31, 24, .rwk⟩
def PWR_SNS_CFG.LOSS12 : Fld := ⟨.PWR_SNS_CFG, 23, 16, .rwk⟩
def PWR_SNS_CFG.WARN5 : Fld := ⟨.PWR_SNS_CFG, 15, 8, .rwk⟩
def PWR_SNS_CFG.LOSS5 : Fld := ⟨.PWR_SNS_CFG, 7, 0, .rwk⟩
-- PWR_VCM_CFG (Table 17.4)
def PWR_VCM_CFG.RET_DIR : Fld := ⟨.PWR_VCM_CFG, 31, 31, .rwk⟩
def PWR_VCM_CFG.ILIM_ACT : Fld := ⟨.PWR_VCM_CFG, 30, 30, .ro⟩
def PWR_VCM_CFG.ILIM : Fld := ⟨.PWR_VCM_CFG, 23, 16, .rwk⟩
def PWR_VCM_CFG.ICONT : Fld := ⟨.PWR_VCM_CFG, 15, 8, .rwk⟩
-- PWR_RET_CFG (Table 17.8)
def PWR_RET_CFG.RET_V : Fld := ⟨.PWR_RET_CFG, 31, 24, .rwk⟩
def PWR_RET_CFG.RET_BEMF : Fld := ⟨.PWR_RET_CFG, 23, 16, .rwk⟩
def PWR_RET_CFG.RET_TMO : Fld := ⟨.PWR_RET_CFG, 15, 8, .rwk⟩
def PWR_RET_CFG.BRK_ILIM : Fld := ⟨.PWR_RET_CFG, 7, 0, .rwk⟩
-- PWR_HU_CFG (Table 17.8)
def PWR_HU_CFG.HU_CLAMP : Fld := ⟨.PWR_HU_CFG, 15, 8, .rwk⟩
def PWR_HU_CFG.HU_MIN : Fld := ⟨.PWR_HU_CFG, 7, 0, .rwk⟩
-- SPL_CFG (Table 9.9)
def SPL_CFG.EN : Fld := ⟨.SPL_CFG, 31, 31, .rwk⟩
def SPL_CFG.ELIG : Fld := ⟨.SPL_CFG, 30, 30, .rwk⟩
def SPL_CFG.SRC : Fld := ⟨.SPL_CFG, 29, 28, .rwk⟩
def SPL_CFG.VER_CAP : Fld := ⟨.SPL_CFG, 27, 27, .rwk⟩
def SPL_CFG.MEMBER_ID : Fld := ⟨.SPL_CFG, 8, 0, .rwk⟩
-- SPL_STAT (Table 9.10)
def SPL_STAT.STATE : Fld := ⟨.SPL_STAT, 31, 29, .ro⟩
def SPL_STAT.IS_MASTER : Fld := ⟨.SPL_STAT, 28, 28, .ro⟩
def SPL_STAT.REF_LOCK : Fld := ⟨.SPL_STAT, 27, 27, .ro⟩
def SPL_STAT.WRAP_P : Fld := ⟨.SPL_STAT, 26, 26, .ro⟩
def SPL_STAT.WRAP_N : Fld := ⟨.SPL_STAT, 25, 25, .ro⟩
def SPL_STAT.MASTER_CHG : Fld := ⟨.SPL_STAT, 24, 24, .w1c⟩
def SPL_STAT.MEMB_EVT : Fld := ⟨.SPL_STAT, 23, 23, .w1c⟩
def SPL_STAT.MEMBERS : Fld := ⟨.SPL_STAT, 19, 10, .ro⟩
def SPL_STAT.MASTER_ID : Fld := ⟨.SPL_STAT, 8, 0, .ro⟩
-- SPL_SIDE_STAT (Table 9.11)
def SPL_SIDE_STAT.LINK : Fld := ⟨.SPL_SIDE_STAT, 31, 30, .ro⟩
def SPL_SIDE_STAT.VER : Fld := ⟨.SPL_SIDE_STAT, 29, 28, .ro⟩
def SPL_SIDE_STAT.PEER_ID : Fld := ⟨.SPL_SIDE_STAT, 24, 16, .ro⟩
def SPL_SIDE_STAT.DOWN_CNT : Fld := ⟨.SPL_SIDE_STAT, 15, 8, .rc⟩
def SPL_SIDE_STAT.CRC_ERR : Fld := ⟨.SPL_SIDE_STAT, 7, 0, .rc⟩
-- SPL_MER_CFG (Table 9.12)
def SPL_MER_CFG.STEP_THR : Fld := ⟨.SPL_MER_CFG, 31, 24, .rwk⟩
def SPL_MER_CFG.PULSE_WIN : Fld := ⟨.SPL_MER_CFG, 23, 16, .rwk⟩
def SPL_MER_CFG.OUT_EN : Fld := ⟨.SPL_MER_CFG, 15, 15, .rwk⟩
def SPL_MER_CFG.MER_DLY : Fld := ⟨.SPL_MER_CFG, 7, 0, .rwk⟩
-- SPL_MER_STAT (Table 9.13)
def SPL_MER_STAT.OFS : Fld := ⟨.SPL_MER_STAT, 31, 16, .ro⟩
def SPL_MER_STAT.STEP_EVT : Fld := ⟨.SPL_MER_STAT, 15, 15, .w1c⟩
def SPL_MER_STAT.PULSE_LOSS : Fld := ⟨.SPL_MER_STAT, 14, 14, .w1c⟩
def SPL_MER_STAT.HOPS : Fld := ⟨.SPL_MER_STAT, 9, 0, .ro⟩
-- SPL_FW_CFG (Table 9.14)
def SPL_FW_CFG.TX_EN : Fld := ⟨.SPL_FW_CFG, 31, 31, .rwk⟩
def SPL_FW_CFG.RX_EN : Fld := ⟨.SPL_FW_CFG, 30, 30, .rwk⟩
def SPL_FW_CFG.FW_RADIUS : Fld := ⟨.SPL_FW_CFG, 18, 10, .rwk⟩
def SPL_FW_CFG.FW_WIN : Fld := ⟨.SPL_FW_CFG, 8, 0, .rwk⟩
-- SPL_FW_STAT (Table 9.15)
def SPL_FW_STAT.ACTIVE : Fld := ⟨.SPL_FW_STAT, 31, 31, .ro⟩
def SPL_FW_STAT.LAST_HOPS : Fld := ⟨.SPL_FW_STAT, 27, 18, .ro⟩
def SPL_FW_STAT.LAST_ORIGIN : Fld := ⟨.SPL_FW_STAT, 16, 8, .ro⟩
def SPL_FW_STAT.RX_CNT : Fld := ⟨.SPL_FW_STAT, 7, 0, .rc⟩
-- SPL_VIB (Table 9.16)
def SPL_VIB.VIB_HOPS : Fld := ⟨.SPL_VIB, 31, 28, .rwk⟩
def SPL_VIB.NBR : Fld := ⟨.SPL_VIB, 15, 8, .ro⟩
def SPL_VIB.OWN : Fld := ⟨.SPL_VIB, 7, 0, .ro⟩
-- SPL_PLAN_CTL (Table 9.17)
def SPL_PLAN_CTL.SUBMIT : Fld := ⟨.SPL_PLAN_CTL, 31, 31, .wok⟩
def SPL_PLAN_CTL.PLAN_ERR : Fld := ⟨.SPL_PLAN_CTL, 30, 30, .w1c⟩
def SPL_PLAN_CTL.PLAN_ORIGIN : Fld := ⟨.SPL_PLAN_CTL, 24, 16, .ro⟩
def SPL_PLAN_CTL.VER : Fld := ⟨.SPL_PLAN_CTL, 15, 0, .ro⟩
-- SPL_RLY_CTL (Table 9.18)
def SPL_RLY_CTL.SEND : Fld := ⟨.SPL_RLY_CTL, 31, 31, .wok⟩
def SPL_RLY_CTL.POP : Fld := ⟨.SPL_RLY_CTL, 30, 30, .wok⟩
def SPL_RLY_CTL.TX_BUSY : Fld := ⟨.SPL_RLY_CTL, 29, 29, .ro⟩
def SPL_RLY_CTL.RX_OVF : Fld := ⟨.SPL_RLY_CTL, 28, 28, .w1c⟩
def SPL_RLY_CTL.BCAST : Fld := ⟨.SPL_RLY_CTL, 25, 25, .rwk⟩
def SPL_RLY_CTL.DEST : Fld := ⟨.SPL_RLY_CTL, 24, 16, .rwk⟩
def SPL_RLY_CTL.RX_COUNT : Fld := ⟨.SPL_RLY_CTL, 5, 0, .ro⟩
-- SPL_MEMBERS
def SPL_MEMBERS.W : Fld := ⟨.SPL_MEMBERS, 31, 0, .ro⟩
-- SPL_PLAN
def SPL_PLAN.W : Fld := ⟨.SPL_PLAN, 31, 0, .ro⟩
-- SPL_PLAN_TX
def SPL_PLAN_TX.W : Fld := ⟨.SPL_PLAN_TX, 31, 0, .rwk⟩
-- SPL_RLY_TX
def SPL_RLY_TX.W : Fld := ⟨.SPL_RLY_TX, 31, 0, .rwk⟩
-- SPL_RLY_RX
def SPL_RLY_RX.W : Fld := ⟨.SPL_RLY_RX, 31, 0, .ro⟩
-- BLK_ID (Table 23.4)
def BLK_ID.PREFIX : Fld := ⟨.BLK_ID, 31, 8, .ro⟩
def BLK_ID.BLOCK : Fld := ⟨.BLK_ID, 7, 0, .ro⟩
-- BLK_VER (Table 23.4)
def BLK_VER.PART : Fld := ⟨.BLK_VER, 31, 16, .ro⟩
def BLK_VER.MAJOR : Fld := ⟨.BLK_VER, 15, 8, .ro⟩
def BLK_VER.MINOR : Fld := ⟨.BLK_VER, 7, 0, .ro⟩
-- BLK_IRQ (Table 23.4)
def BLK_IRQ.ANY : Fld := ⟨.BLK_IRQ, 31, 31, .ro⟩
def BLK_IRQ.LINES : Fld := ⟨.BLK_IRQ, 15, 0, .ro⟩
-- BLK_LOCK (Table 23.4)
def BLK_LOCK.RWK_DENY : Fld := ⟨.BLK_LOCK, 15, 8, .rc⟩
def BLK_LOCK.LOCK : Fld := ⟨.BLK_LOCK, 0, 0, .w1s⟩

/-- The fields of a register; bits in no field are reserved and read 0 (R13). -/
def regFields : RegName → List Fld
  | .PTM_MODE_STAT => [PTM_MODE_STAT.MODE, PTM_MODE_STAT.ILVL, PTM_MODE_STAT.SAFE, PTM_MODE_STAT.TRANS, PTM_MODE_STAT.WAKE, PTM_MODE_STAT.SAFE_CAUSE, PTM_MODE_STAT.MEDIA_EN, PTM_MODE_STAT.LAST_WAKE, PTM_MODE_STAT.PS]
  | .PTM_MODE_CTL => [PTM_MODE_CTL.GO, PTM_MODE_CTL.REQ_MODE, PTM_MODE_CTL.REQ_ILVL, PTM_MODE_CTL.RET, PTM_MODE_CTL.ERR]
  | .PTM_SAFE_CTL => [PTM_SAFE_CTL.ENTER, PTM_SAFE_CTL.EXIT, PTM_SAFE_CTL.NFAULT_EN, PTM_SAFE_CTL.PARK]
  | .PTM_BOOT_STAT => [PTM_BOOT_STAT.STEP, PTM_BOOT_STAT.WARM, PTM_BOOT_STAT.DRAM_KEPT, PTM_BOOT_STAT.FETCH_EN, PTM_BOOT_STAT.BOOT_ERR, PTM_BOOT_STAT.BOOT_MS]
  | .PTM_WAKE_CFG => [PTM_WAKE_CFG.WAKE_POL, PTM_WAKE_CFG.GPIO_EN, PTM_WAKE_CFG.MGMT_EN, PTM_WAKE_CFG.PERST_EN]
  | .PTM_JNL_STAT => [PTM_JNL_STAT.ARMED, PTM_JNL_STAT.SEALED, PTM_JNL_STAT.REPLAYED, PTM_JNL_STAT.UNITS, PTM_JNL_STAT.EPOCH]
  | .PTM_CAP_CFG => [PTM_CAP_CFG.CAP, PTM_CAP_CFG.P_FIXED, PTM_CAP_CFG.P_UNIT]
  | .PTM_CAP_STAT => [PTM_CAP_STAT.THROTTLE, PTM_CAP_STAT.CAP_EVT, PTM_CAP_STAT.U, PTM_CAP_STAT.HP_ALLOW, PTM_CAP_STAT.WR_ALLOW]
  | .PTM_AVS_CFG => [PTM_AVS_CFG.FIXED, PTM_AVS_CFG.VMAX, PTM_AVS_CFG.VMIN, PTM_AVS_CFG.MARGIN, PTM_AVS_CFG.EMER]
  | .PTM_AVS_STAT => [PTM_AVS_STAT.AVS_LIM, PTM_AVS_STAT.VSET, PTM_AVS_STAT.MIN_ISL, PTM_AVS_STAT.MARGIN_MIN, PTM_AVS_STAT.EMER_CNT]
  | .PTM_HSW_CFG => [PTM_HSW_CFG.TIMEOUT]
  | .PTM_HSW_LOG => [PTM_HSW_LOG.TIME, PTM_HSW_LOG.VALID, PTM_HSW_LOG.DOM_B, PTM_HSW_LOG.DOM_A]
  | .PTM_ISL_PWR => [PTM_ISL_PWR.ON]
  | .PTM_DOM_PWR => [PTM_DOM_PWR.ON]
  | .PTM_THERM => [PTM_THERM.TJ_LOGIC, PTM_THERM.TJ_POWER, PTM_THERM.TWARN, PTM_THERM.TSHUT]
  | .PTM_MER_TIME => [PTM_MER_TIME.TIME]
  | .PTM_CW_CTL => [PTM_CW_CTL.RESUME, PTM_CW_CTL.HB_STOP]
  | .PTM_CW_STAT => [PTM_CW_STAT.LINK, PTM_CW_STAT.PD_STATE, PTM_CW_STAT.VER_ERR, PTM_CW_STAT.DOWN_EVT, PTM_CW_STAT.PD_VER, PTM_CW_STAT.CRC_CNT, PTM_CW_STAT.RESEND]
  | .PTM_GPIO_DIR => [PTM_GPIO_DIR.DIR]
  | .PTM_GPIO_OUT => [PTM_GPIO_OUT.OUT]
  | .PTM_GPIO_IN => [PTM_GPIO_IN.IN]
  | .PTM_GPIO_PULL => [PTM_GPIO_PULL.PULL]
  | .PTM_LED_CFG => [PTM_LED_CFG.LED0_SW, PTM_LED_CFG.LED0_VAL, PTM_LED_CFG.LED1_SW, PTM_LED_CFG.LED1_VAL, PTM_LED_CFG.STRETCH]
  | .FCU_SRC_CFG => [FCU_SRC_CFG.EN, FCU_SRC_CFG.OWNER, FCU_SRC_CFG.DIRECT, FCU_SRC_CFG.LAST, FCU_SRC_CFG.ESC_EXP, FCU_SRC_CFG.ESC_MUL, FCU_SRC_CFG.N, FCU_SRC_CFG.WIN]
  | .FCU_SRC_STAT => [FCU_SRC_STAT.PEND, FCU_SRC_STAT.SEVERE, FCU_SRC_STAT.WIRE, FCU_SRC_STAT.STEP, FCU_SRC_STAT.AGAIN, FCU_SRC_STAT.CLR_CNT, FCU_SRC_STAT.WCNT, FCU_SRC_STAT.TOTAL]
  | .FCU_CFG => [FCU_CFG.NFAULT, FCU_CFG.BUS_TMO]
  | .FCU_ACK => [FCU_ACK.SRC]
  | .FCU_RAISE => [FCU_RAISE.SRC]
  | .FCU_SELF => [FCU_SELF.SELF_FLT, FCU_SELF.RELOADED, FCU_SELF.SELF_CNT]
  | .FCU_RELOAD => [FCU_RELOAD.DONE]
  | .FCU_FEC_INFO => [FCU_FEC_INFO.VALID, FCU_FEC_INFO.MULTI, FCU_FEC_INFO.SRC, FCU_FEC_INFO.MID, FCU_FEC_INFO.TYPE, FCU_FEC_INFO.SIZE]
  | .FCU_FEC_ADDR => [FCU_FEC_ADDR.ADDR]
  | .FCU_FEC_TIME => [FCU_FEC_TIME.TIME]
  | .FCU_PEND => [FCU_PEND.PEND]
  | .ALM_CFG => [ALM_CFG.APP_GRANT, ALM_CFG.IRQ_EN]
  | .ALM_STAT => [ALM_STAT.CLEARING, ALM_STAT.STAGE_OVF, ALM_STAT.SKIP, ALM_STAT.WRAP, ALM_STAT.STAGED, ALM_STAT.LOST_CNT]
  | .ALM_OLDEST => [ALM_OLDEST.N]
  | .ALM_NEWEST => [ALM_NEWEST.N]
  | .ALM_CURSOR => [ALM_CURSOR.N]
  | .ALM_WIN => [ALM_WIN.W]
  | .ALM_POST => [ALM_POST.W]
  | .ALM_CTL => [ALM_CTL.POST, ALM_CTL.CLEAR]
  | .SVC_PTL_CFG => [SVC_PTL_CFG.DR_EN, SVC_PTL_CFG.SR_EN, SVC_PTL_CFG.MR_EN, SVC_PTL_CFG.DR_RATE, SVC_PTL_CFG.SR_INT, SVC_PTL_CFG.MR_RATE]
  | .SVC_PTL_STAT => [SVC_PTL_STAT.DR_PASS, SVC_PTL_STAT.SR_PASS, SVC_PTL_STAT.MR_PASS, SVC_PTL_STAT.UE_CNT]
  | .SVC_PTL_BASE => [SVC_PTL_BASE.LINE]
  | .SVC_PTL_LIMIT => [SVC_PTL_LIMIT.LINE]
  | .SVC_SVY_CFG => [SVC_SVY_CFG.EN, SVC_SVY_CFG.BUDGET, SVC_SVY_CFG.ABANDON_MAX, SVC_SVY_CFG.SLICE_INT]
  | .SVC_SVY_STAT => [SVC_SVY_STAT.STATE, SVC_SVY_STAT.SHUT_ARM, SVC_SVY_STAT.FULL_DONE, SVC_SVY_STAT.RES_OVF, SVC_SVY_STAT.INST, SVC_SVY_STAT.SKIP_CNT, SVC_SVY_STAT.RES_WR]
  | .SVC_REPAIR => [SVC_REPAIR.GO, SVC_REPAIR.ERR, SVC_REPAIR.INST, SVC_REPAIR.ROW]
  | .SVC_SVY_EN => [SVC_SVY_EN.EN]
  | .SVC_LB_PEND => [SVC_LB_PEND.PEND]
  | .SVC_SVY_RES => [SVC_SVY_RES.W]
  | .SVC_LB_CFG => [SVC_LB_CFG.THR, SVC_LB_CFG.EN, SVC_LB_CFG.LEAK]
  | .SVC_LB_STAT => [SVC_LB_STAT.OVF, SVC_LB_STAT.PEAK, SVC_LB_STAT.COUNT]
  | .SVC_INST_STAT => [SVC_INST_STAT.HEALTH, SVC_INST_STAT.SPARE_FREE, SVC_INST_STAT.FAILED_ROWS, SVC_INST_STAT.REPAIRED]
  | .SVC_CAL_CTL => [SVC_CAL_CTL.GO, SVC_CAL_CTL.BUSY, SVC_CAL_CTL.CLASS, SVC_CAL_CTL.ITEM, SVC_CAL_CTL.HEAD]
  | .SVC_CAL_STAT => [SVC_CAL_STAT.RESULT, SVC_CAL_STAT.CAUSE, SVC_CAL_STAT.ITER]
  | .SVC_CAL_REF => [SVC_CAL_REF.XTAL_ERR]
  | .PCX_CFG => [PCX_CFG.SPLIT, PCX_CFG.LOCK]
  | .PCX_CORE_CTL => [PCX_CORE_CTL.RUN, PCX_CORE_CTL.HEIR]
  | .PCX_CORE_STAT => [PCX_CORE_STAT.STATE, PCX_CORE_STAT.UE_TRAP, PCX_CORE_STAT.CAUSE]
  | .PCX_RST_VEC => [PCX_RST_VEC.VEC]
  | .PCX_KPR_STAT => [PCX_KPR_STAT.RESTART, PCX_KPR_STAT.RESTARTS, PCX_KPR_STAT.LAST_MS]
  | .PCX_KPR_CTL => [PCX_KPR_CTL.RESUMED]
  | .PCX_CKPT => [PCX_CKPT.OFFSET]
  | .PCX_NMI_VEC => [PCX_NMI_VEC.VEC]
  | .PCX_WDT_CTL => [PCX_WDT_CTL.EN, PCX_WDT_CTL.TIMEOUT]
  | .PCX_WDT_KICK => [PCX_WDT_KICK.KEY]
  | .PCX_WDT_STAT => [PCX_WDT_STAT.STAGE, PCX_WDT_STAT.BADKICK, PCX_WDT_STAT.SINCE]
  | .PCX_MTIMECMP => [PCX_MTIMECMP.CMP]
  | .PCX_MSIP => [PCX_MSIP.MSIP]
  | .PCX_CMO_ADDR => [PCX_CMO_ADDR.ADDR]
  | .PCX_CMO_CTL => [PCX_CMO_CTL.GO, PCX_CMO_CTL.BUSY, PCX_CMO_CTL.OP, PCX_CMO_CTL.ERR, PCX_CMO_CTL.LINES]
  | .PCX_IRQ_SRC => [PCX_IRQ_SRC.EN, PCX_IRQ_SRC.PEND, PCX_IRQ_SRC.CLAIMED, PCX_IRQ_SRC.PRIO, PCX_IRQ_SRC.TARGET]
  | .PCX_IRQ_THR => [PCX_IRQ_THR.THR]
  | .PCX_IRQ_CLAIM => [PCX_IRQ_CLAIM.ID]
  | .PCX_PROT_BASE => [PCX_PROT_BASE.PAGE]
  | .PCX_PROT_LIMIT => [PCX_PROT_LIMIT.PAGE]
  | .PCX_PROT_ATTR => [PCX_PROT_ATTR.EN, PCX_PROT_ATTR.DBGG, PCX_PROT_ATTR.X, PCX_PROT_ATTR.W, PCX_PROT_ATTR.R, PCX_PROT_ATTR.MID_HI, PCX_PROT_ATTR.MID_LO]
  | .PCX_PROT_COMMIT => [PCX_PROT_COMMIT.COMMIT]
  | .PCX_PROT_STAT => [PCX_PROT_STAT.PEND, PCX_PROT_STAT.DENY_CNT]
  | .PCX_FRY_REQ => [PCX_FRY_REQ.W]
  | .PCX_FRY_RES => [PCX_FRY_RES.W]
  | .PCX_FRY_DB => [PCX_FRY_DB.POST, PCX_FRY_DB.CANCEL, PCX_FRY_DB.SEQ]
  | .PCX_FRY_STAT => [PCX_FRY_STAT.STATE, PCX_FRY_STAT.DB_ERR, PCX_FRY_STAT.SLOT_REJ, PCX_FRY_STAT.TMO, PCX_FRY_STAT.VER, PCX_FRY_STAT.LAST_SEQ, PCX_FRY_STAT.ERR]
  | .PCX_FRY_KCTL => [PCX_FRY_KCTL.TAKE, PCX_FRY_KCTL.DONE, PCX_FRY_KCTL.ERR]
  | .PCX_FRY_CFG => [PCX_FRY_CFG.NOTIFY, PCX_FRY_CFG.TAKE_TMO, PCX_FRY_CFG.DONE_TMO]
  | .PCX_DBG_STAT => [PCX_DBG_STAT.UNLOCKED]
  | .HIF_CFG => [HIF_CFG.PROTO, HIF_CFG.CLK_SRC0, HIF_CFG.CLK_SRC1, HIF_CFG.PERST_EN, HIF_CFG.LOCK]
  | .HIF_PORT_CTL => [HIF_PORT_CTL.DISABLE, HIF_PORT_CTL.RETRAIN, HIF_PORT_CTL.MAX_RATE, HIF_PORT_CTL.MAX_WIDTH, HIF_PORT_CTL.REC_TMO]
  | .HIF_PORT_STAT => [HIF_PORT_STAT.LINK, HIF_PORT_STAT.RATE, HIF_PORT_STAT.WIDTH, HIF_PORT_STAT.CTRL_RDY, HIF_PORT_STAT.LOST, HIF_PORT_STAT.REFCLK_BAD, HIF_PORT_STAT.DOWN_CNT]
  | .HIF_ERR_CNT => [HIF_ERR_CNT.REPLAY, HIF_ERR_CNT.RX_ERR]
  | .CQE_CFG => [CQE_CFG.FP_EN, CQE_CFG.FETCH_HOLD]
  | .CQE_STAT => [CQE_STAT.STATE, CQE_STAT.DONE_ERR, CQE_STAT.IO_OUT, CQE_STAT.ADM_OUT]
  | .CQE_OVL_CFG => [CQE_OVL_CFG.ENABLE]
  | .CQE_SCHED => [CQE_SCHED.READ_FLOOR, CQE_SCHED.FLOOR_WIN]
  | .CQE_THROT => [CQE_THROT.THROT_LO, CQE_THROT.DIRTY]
  | .CQE_AGE => [CQE_AGE.AGE_EVT, CQE_AGE.AGE_TAG, CQE_AGE.AGE_LIM]
  | .CQE_CLAIM => [CQE_CLAIM.LEASE_EVT, CQE_CLAIM.LEASE, CQE_CLAIM.GRANT, CQE_CLAIM.CLAIM]
  | .CQE_HQ_BASE => [CQE_HQ_BASE.ADDR]
  | .CQE_HQ_CTL => [CQE_HQ_CTL.ENABLE, CQE_HQ_CTL.IRQ_EN, CQE_HQ_CTL.FULL, CQE_HQ_CTL.SIZE_LOG2]
  | .CQE_HQ_PTR => [CQE_HQ_PTR.WR, CQE_HQ_PTR.RD]
  | .CQE_DONE_DW0 => [CQE_DONE_DW0.DW0]
  | .CQE_DONE => [CQE_DONE.DNR, CQE_DONE.SCT, CQE_DONE.SC, CQE_DONE.CTAG]
  | .CQE_OVL_STAT => [CQE_OVL_STAT.HOST, CQE_OVL_STAT.INT]
  | .CQE_NS_CFG => [CQE_NS_CFG.STATE, CQE_NS_CFG.ATT, CQE_NS_CFG.PLVL, CQE_NS_CFG.ZONED, CQE_NS_CFG.LBAF, CQE_NS_CFG.PIT, CQE_NS_CFG.PIL, CQE_NS_CFG.EXT, CQE_NS_CFG.GROUP, CQE_NS_CFG.FP, CQE_NS_CFG.KSLOT]
  | .CQE_NS_BASE => [CQE_NS_BASE.UNIT]
  | .CQE_NS_ROWS => [CQE_NS_ROWS.UNITS]
  | .BMU_CFG => [BMU_CFG.CHANNELS, BMU_CFG.RATE, BMU_CFG.LECC_EN, BMU_CFG.SIZE]
  | .BMU_STAT => [BMU_STAT.TRAINED, BMU_STAT.CH_FAIL, BMU_STAT.SR, BMU_STAT.UE, BMU_STAT.CE_CNT, BMU_STAT.LECC_CNT]
  | .BMU_CC_CTL => [BMU_CC_CTL.ENABLE, BMU_CC_CTL.STATE]
  | .BMU_WAY_PWR => [BMU_WAY_PWR.OFF_REQ, BMU_WAY_PWR.ON]
  | .BMU_STREAM_CFG => [BMU_STREAM_CFG.STREAM_N]
  | .BMU_EVB_STAT => [BMU_EVB_STAT.PEAK, BMU_EVB_STAT.USED]
  | .BMU_CLASS_CFG => [BMU_CLASS_CFG.PF_EN, BMU_CLASS_CFG.NOALLOC, BMU_CLASS_CFG.STREAM_EN, BMU_CLASS_CFG.WAY_MASK]
  | .BMU_MNT_ADDR => [BMU_MNT_ADDR.ADDR]
  | .BMU_MNT_CTL => [BMU_MNT_CTL.GO, BMU_MNT_CTL.BUSY, BMU_MNT_CTL.OP, BMU_MNT_CTL.ERR, BMU_MNT_CTL.LINES]
  | .BMU_SLOT_BASE => [BMU_SLOT_BASE.ADDR]
  | .BMU_SLOT_CFG => [BMU_SLOT_CFG.ENABLE, BMU_SLOT_CFG.COUNT]
  | .BMU_SLOT_STAT => [BMU_SLOT_STAT.RD_RSV, BMU_SLOT_STAT.FREE]
  | .BMU_BUDGET => [BMU_BUDGET.MAX, BMU_BUDGET.USED]
  | .BMU_DISCARD => [BMU_DISCARD.GO, BMU_DISCARD.BUSY, BMU_DISCARD.NS]
  | .BMU_CCC_BASE => [BMU_CCC_BASE.ADDR]
  | .BMU_CCC_CFG => [BMU_CCC_CFG.EN, BMU_CCC_CFG.AGE, BMU_CCC_CFG.ADMIT_THR, BMU_CCC_CFG.FRAMES]
  | .BMU_CCC_STAT => [BMU_CCC_STAT.HIT, BMU_CCC_STAT.ADMIT]
  | .BMU_CCC_NS => [BMU_CCC_NS.NS_EN]
  | .DMF_CH_CTL => [DMF_CH_CTL.COMMIT, DMF_CH_CTL.RESUME, DMF_CH_CTL.ABORT, DMF_CH_CTL.CLEAR]
  | .DMF_CH_STAT => [DMF_CH_STAT.STATE, DMF_CH_STAT.PEND, DMF_CH_STAT.SHADOW_LATE, DMF_CH_STAT.SHADOW_REJ, DMF_CH_STAT.DONE_EVT, DMF_CH_STAT.PRQ, DMF_CH_STAT.CAUSE, DMF_CH_STAT.FCAUSE, DMF_CH_STAT.RETRIES, DMF_CH_STAT.TAG]
  | .DMF_CH_CFG => [DMF_CH_CFG.OWNER, DMF_CH_CFG.PRIV, DMF_CH_CFG.RETRY, DMF_CH_CFG.PRIO]
  | .DMF_CH_ATP => [DMF_CH_ATP.MODE, DMF_CH_ATP.ASID, DMF_CH_ATP.PPN]
  | .DMF_CH_FAULT_VA => [DMF_CH_FAULT_VA.VA]
  | .DMF_CH_PROG => [DMF_CH_PROG.HOLD, DMF_CH_PROG.SRC_DONE, DMF_CH_PROG.DST_DONE]
  | .DMF_CH_SHD => [DMF_CH_SHD.W]
  | .DMF_CH_ACT => [DMF_CH_ACT.W]
  | .DMF_CFG => [DMF_CFG.NOPROG, DMF_CFG.PRQ]
  | .DMF_FP_MASK => [DMF_FP_MASK.MASK]
  | .DMF_INV => [DMF_INV.GO, DMF_INV.BUSY, DMF_INV.SCOPE, DMF_INV.ASID]
  | .DMF_INV_VA => [DMF_INV_VA.VA]
  | .DMF_IRQ_PEND => [DMF_IRQ_PEND.PEND]
  | .MPC_CFG => [MPC_CFG.CHK_EN, MPC_CFG.SOFT_EN, MPC_CFG.IRQ_EN]
  | .MPC_STAT => [MPC_STAT.WORK_ERR, MPC_STAT.LOG_OVF, MPC_STAT.CTX, MPC_STAT.ENC]
  | .MPC_VSN => [MPC_VSN.NEXT]
  | .MPC_WORK_BASE => [MPC_WORK_BASE.ADDR]
  | .MPC_CNT_REC => [MPC_CNT_REC.COUNT]
  | .MPC_CNT_FAIL => [MPC_CNT_FAIL.COUNT]
  | .MPC_CNT_MIS => [MPC_CNT_MIS.COUNT]
  | .MPC_EVT_LOG => [MPC_EVT_LOG.VALID, MPC_EVT_LOG.KIND, MPC_EVT_LOG.MASK, MPC_EVT_LOG.ROW_HI, MPC_EVT_LOG.ROW_LO]
  | .MPC_KEY_CTL => [MPC_KEY_CTL.GO, MPC_KEY_CTL.OP, MPC_KEY_CTL.ERR, MPC_KEY_CTL.BUSY, MPC_KEY_CTL.KGEN, MPC_KEY_CTL.HOST_EN, MPC_KEY_CTL.SLOT]
  | .MPC_KEY_DATA => [MPC_KEY_DATA.KEY]
  | .MPC_KEY_STAT => [MPC_KEY_STAT.STATE, MPC_KEY_STAT.KGEN, MPC_KEY_STAT.DIRTY]
  | .RDC_LANE_AFE => [RDC_LANE_AFE.GAIN, RDC_LANE_AFE.BOOST, RDC_LANE_AFE.HPF, RDC_LANE_AFE.OFS_TRIM]
  | .RDC_LANE_SKEW => [RDC_LANE_SKEW.DELAY, RDC_LANE_SKEW.PHASE]
  | .RDC_LANE_STAT => [RDC_LANE_STAT.LOST, RDC_LANE_STAT.BIAS_FLT, RDC_LANE_STAT.AMP, RDC_LANE_STAT.WEAK_CNT, RDC_LANE_STAT.CLIP_CNT]
  | .RDC_HP_CTL => [RDC_HP_CTL.ZT_LOAD_EN, RDC_HP_CTL.ZT_WB_EN, RDC_HP_CTL.SR_FORCE, RDC_HP_CTL.SR_SEL, RDC_HP_CTL.LOSS_THR, RDC_HP_CTL.LOSS_N]
  | .RDC_HP_RATE => [RDC_HP_RATE.RATE]
  | .RDC_HP_TR => [RDC_HP_TR.KP_ACQ, RDC_HP_TR.KI_ACQ, RDC_HP_TR.KP_TRK, RDC_HP_TR.KI_TRK, RDC_HP_TR.FOFS]
  | .RDC_HP_ADAPT => [RDC_HP_ADAPT.GRP_FRZ, RDC_HP_ADAPT.MU_EQ, RDC_HP_ADAPT.MU_AGC, RDC_HP_ADAPT.MU_BLR, RDC_HP_ADAPT.NP_FRZ, RDC_HP_ADAPT.CLR_FRZ, RDC_HP_ADAPT.TR_FRZ, RDC_HP_ADAPT.BLR_FRZ, RDC_HP_ADAPT.AGC_FRZ]
  | .RDC_HP_TARGET => [RDC_HP_TARGET.G2, RDC_HP_TARGET.G1, RDC_HP_TARGET.G0]
  | .RDC_HP_LOOP => [RDC_HP_LOOP.LAMBDA, RDC_HP_LOOP.CLR_K, RDC_HP_LOOP.AMP_TGT]
  | .RDC_HP_CLR => [RDC_HP_CLR.VALID, RDC_HP_CLR.CLR]
  | .RDC_HP_STAT => [RDC_HP_STAT.PWR, RDC_HP_STAT.LOCKED, RDC_HP_STAT.SR_ACT, RDC_HP_STAT.ZT_ERR, RDC_HP_STAT.PAL_ERR, RDC_HP_STAT.BLR1, RDC_HP_STAT.BLR0]
  | .RDC_HP_TAP => [RDC_HP_TAP.COEF]
  | .RDC_ZTAB_BASE => [RDC_ZTAB_BASE.ADDR]
  | .RDC_PAL_STAT => [RDC_PAL_STAT.VER, RDC_PAL_STAT.UP, RDC_PAL_STAT.CRC_ERR, RDC_PAL_STAT.RESEND]
  | .RDC_HEAD_CFG => [RDC_HEAD_CFG.CREF, RDC_HEAD_CFG.PGAIN, RDC_HEAD_CFG.RBIAS1, RDC_HEAD_CFG.RBIAS0]
  | .RDC_HP_DET => [RDC_HP_DET.NP_EN, RDC_HP_DET.NP_ZSH, RDC_HP_DET.MU_NP, RDC_HP_DET.MU_NV, RDC_HP_DET.LLR_SCALE, RDC_HP_DET.NP_SET]
  | .RDC_HP_DEC => [RDC_HP_DEC.ITER_MAX, RDC_HP_DEC.LAST_ITER, RDC_HP_DEC.NORM]
  | .RDC_HP_SYNC => [RDC_HP_SYNC.TOL, RDC_HP_SYNC.SM1_MISS, RDC_HP_SYNC.BOTH_MISS]
  | .RDC_RETRY_STAT => [RDC_RETRY_STAT.UNREC, RDC_RETRY_STAT.HELD, RDC_RETRY_STAT.CAP_MISS]
  | .RDC_NP_ADDR => [RDC_NP_ADDR.AUTOINC, RDC_NP_ADDR.PATH, RDC_NP_ADDR.SET, RDC_NP_ADDR.WORD]
  | .RDC_NP_DATA => [RDC_NP_DATA.WORD]
  | .RDC_RETRY_CFG => [RDC_RETRY_CFG.HW_EN, RDC_RETRY_CFG.ORD_ERR, RDC_RETRY_CFG.L1_ITER, RDC_RETRY_CFG.OFS_STEP, RDC_RETRY_CFG.L6_N]
  | .RDC_RETRY_ORDER => [RDC_RETRY_ORDER.ORDER]
  | .RDC_CAP_BASE => [RDC_CAP_BASE.ADDR, RDC_CAP_BASE.EN]
  | .RDC_HST_CTL => [RDC_HST_CTL.CLR, RDC_HST_CTL.SNAP]
  | .RDC_LDPC_H => [RDC_LDPC_H.ROW, RDC_LDPC_H.SHIFT]
  | .RDC_HST_SECT => [RDC_HST_SECT.COUNT]
  | .RDC_HST_FAIL => [RDC_HST_FAIL.COUNT]
  | .RDC_HST_SYNC => [RDC_HST_SYNC.COUNT]
  | .RDC_HST_FLIP => [RDC_HST_FLIP.COUNT]
  | .RDC_HST_HOFF => [RDC_HST_HOFF.COUNT]
  | .RDC_HST_UNREC => [RDC_HST_UNREC.COUNT]
  | .RDC_HST_REC => [RDC_HST_REC.COUNT]
  | .WRC_WR_CTL => [WRC_WR_CTL.WT_LOAD_EN, WRC_WR_CTL.WT_WB_EN, WRC_WR_CTL.INHIBIT, WRC_WR_CTL.ASSIGNED, WRC_WR_CTL.SLOT]
  | .WRC_WR_STAT => [WRC_WR_STAT.PWR, WRC_WR_STAT.GATE, WRC_WR_STAT.AST_ON, WRC_WR_STAT.WT_ERR, WRC_WR_STAT.AST_FLT, WRC_WR_STAT.CAUSE, WRC_WR_STAT.DRV, WRC_WR_STAT.MON]
  | .WRC_HEAD_CFG => [WRC_HEAD_CFG.ATYPE, WRC_HEAD_CFG.HBO, WRC_HEAD_CFG.CTGT, WRC_HEAD_CFG.HTR_MAX, WRC_HEAD_CFG.KC]
  | .WRC_WTAB_BASE => [WRC_WTAB_BASE.ADDR]
  | .WRC_CFG => [WRC_CFG.OT_PCT, WRC_CFG.KA, WRC_CFG.AST_LEAD, WRC_CFG.MON_TOL, WRC_CFG.KH]
  | .WRC_WUS_STAT => [WRC_WUS_STAT.LIVE, WRC_WUS_STAT.SEEN]
  | .WRC_VFY_CFG => [WRC_VFY_CFG.MODE, WRC_VFY_CFG.SAMPLE_N, WRC_VFY_CFG.VFY_ITER, WRC_VFY_CFG.TRIM_MAX]
  | .WRC_TRIM_CFG => [WRC_TRIM_CFG.VWIN, WRC_TRIM_CFG.E_HI, WRC_TRIM_CFG.E_LO, WRC_TRIM_CFG.TSTEP]
  | .WRC_RWL_BASE => [WRC_RWL_BASE.ADDR]
  | .WRC_RWL_CTL => [WRC_RWL_CTL.ENABLE, WRC_RWL_CTL.IRQ_EN, WRC_RWL_CTL.FULL, WRC_RWL_CTL.SIZE_LOG2]
  | .WRC_RWL_PTR => [WRC_RWL_PTR.WR, WRC_RWL_PTR.RD]
  | .SVE_COEF => [SVE_COEF.W]
  | .SVE_CLU_CTL => [SVE_CLU_CTL.BANK_ERR, SVE_CLU_CTL.COMMIT]
  | .SVE_CLU_STAT => [SVE_CLU_STAT.OVR, SVE_CLU_STAT.EXEC_MAX, SVE_CLU_STAT.BUSY]
  | .SVE_CTX_CFG => [SVE_CTX_CFG.ENABLE, SVE_CTX_CFG.MODE, SVE_CTX_CFG.CLU, SVE_CTX_CFG.BANK]
  | .SVE_CTX_MAN => [SVE_CTX_MAN.MAN]
  | .SVE_CTX_OUT => [SVE_CTX_OUT.OUT]
  | .SVE_CTX_INTEG => [SVE_CTX_INTEG.I]
  | .SVE_CTX_STAT => [SVE_CTX_STAT.CLAMP_I, SVE_CTX_STAT.CLAMP_O, SVE_CTX_STAT.MODE_ACT, SVE_CTX_STAT.OVR, SVE_CTX_STAT.LATE, SVE_CTX_STAT.SEC_SAT, SVE_CTX_STAT.CLAMP_CNT]
  | .SVE_SV_CFG => [SVE_SV_CFG.RRO_EN, SVE_SV_CFG.MISS_N, SVE_SV_CFG.TRK_WIN, SVE_SV_CFG.SAM_WIN, SVE_SV_CFG.AMP_MIN, SVE_SV_CFG.SV_MBPS]
  | .SVE_ACT_CFG => [SVE_ACT_CFG.SP_RAMP, SVE_ACT_CFG.ACT_MISS, SVE_ACT_CFG.SKEW_MAX, SVE_ACT_CFG.CUR_PHASE]
  | .SVE_ACT_STAT => [SVE_ACT_STAT.SV_LOSS, SVE_ACT_STAT.N_PES]
  | .SVE_PES => [SVE_PES.PES]
  | .SVE_WEDGE_STAT => [SVE_WEDGE_STAT.VALID, SVE_WEDGE_STAT.SERVO, SVE_WEDGE_STAT.MISS_CNT, SVE_WEDGE_STAT.MISS_TOT, SVE_WEDGE_STAT.WEDGE]
  | .SVE_TRK_CTL => [SVE_TRK_CTL.GRACE, SVE_TRK_CTL.LIMIT]
  | .SVE_SERVICE => [SVE_SERVICE.SERVICE]
  | .SVE_TRK_STAT => [SVE_TRK_STAT.STATE, SVE_TRK_STAT.EXPIRED, SVE_TRK_STAT.RETRACT, SVE_TRK_STAT.LOADED, SVE_TRK_STAT.SINCE]
  | .SVE_SEEK_TGT => [SVE_SEEK_TGT.TRACK]
  | .SVE_SEEK_DLT => [SVE_SEEK_DLT.DLT_0, SVE_SEEK_DLT.DLT_1, SVE_SEEK_DLT.DLT_2, SVE_SEEK_DLT.DLT_3]
  | .SVE_SEEK_CMD => [SVE_SEEK_CMD.SLOTS, SVE_SEEK_CMD.WR, SVE_SEEK_CMD.UNLOAD, SVE_SEEK_CMD.LOAD, SVE_SEEK_CMD.GO]
  | .SVE_SEEK_STAT => [SVE_SEEK_STAT.STATE, SVE_SEEK_STAT.ERR, SVE_SEEK_STAT.DONE, SVE_SEEK_STAT.SETTLED, SVE_SEEK_STAT.DROP, SVE_SEEK_STAT.WEDGES]
  | .SVE_TRAJ_LIM => [SVE_TRAJ_LIM.J_MAX, SVE_TRAJ_LIM.A_MAX, SVE_TRAJ_LIM.V_MAX, SVE_TRAJ_LIM.HO_TRK]
  | .SVE_TRAJ_GAIN => [SVE_TRAJ_GAIN.ACC_GAIN, SVE_TRAJ_GAIN.KV, SVE_TRAJ_GAIN.SEEK_WIN, SVE_TRAJ_GAIN.KX]
  | .SVE_SETTLE_CFG => [SVE_SETTLE_CFG.SET_TMO, SVE_SETTLE_CFG.RD_N, SVE_SETTLE_CFG.WR_N, SVE_SETTLE_CFG.RD_WIN, SVE_SETTLE_CFG.WR_WIN]
  | .SVE_RAMP_CFG => [SVE_RAMP_CFG.LD_V, SVE_RAMP_CFG.LD_TMO, SVE_RAMP_CFG.LD_N, SVE_RAMP_CFG.LD_RETRY, SVE_RAMP_CFG.UL_VEL]
  | .SVE_RRO_BASE => [SVE_RRO_BASE.ADDR]
  | .SVE_RRO_CTL => [SVE_RRO_CTL.LRN_EN, SVE_RRO_CTL.LD_EN, SVE_RRO_CTL.WB_EN, SVE_RRO_CTL.ERR, SVE_RRO_CTL.NH, SVE_RRO_CTL.MAX_0, SVE_RRO_CTL.MAX_1]
  | .SVE_RRO_HARM => [SVE_RRO_HARM.HARM, SVE_RRO_HARM.PHASE, SVE_RRO_HARM.MU]
  | .SVE_NOTCH_CTL => [SVE_NOTCH_CTL.EN, SVE_NOTCH_CTL.SEC, SVE_NOTCH_CTL.RHO, SVE_NOTCH_CTL.MU_N, SVE_NOTCH_CTL.F_STEP]
  | .SVE_NOTCH_LIM => [SVE_NOTCH_LIM.F_HI, SVE_NOTCH_LIM.F_LO]
  | .SVE_NOTCH_STAT => [SVE_NOTCH_STAT.BOUND, SVE_NOTCH_STAT.F_APP, SVE_NOTCH_STAT.ERR, SVE_NOTCH_STAT.F_EST]
  | .SVE_VFF_CTL => [SVE_VFF_CTL.EN, SVE_VFF_CTL.VFF_MAX]
  | .SVE_SHK_CFG => [SVE_SHK_CFG.SHK_THR, SVE_SHK_CFG.FW_THR, SVE_SHK_CFG.SHK_HOLD, SVE_SHK_CFG.FWB_EN, SVE_SHK_CFG.FW_BANK, SVE_SHK_CFG.SHK_EN]
  | .SVE_SHK_STAT => [SVE_SHK_STAT.SHOCK, SVE_SHK_STAT.GUARD, SVE_SHK_STAT.SHK_CNT, SVE_SHK_STAT.LAST_SRC, SVE_SHK_STAT.PEAK]
  | .SVE_VG_CFG => [SVE_VG_CFG.EN, SVE_VG_CFG.VG_THR, SVE_VG_CFG.VG_N, SVE_VG_CFG.VG_ADD]
  | .SVE_VFF_COEF => [SVE_VFF_COEF.W]
  | .SVE_CMAP_BASE => [SVE_CMAP_BASE.ADDR]
  | .SVE_CMAP_CFG => [SVE_CMAP_CFG.ENABLE, SVE_CMAP_CFG.ZONES_M1, SVE_CMAP_CFG.LAST_BAND]
  | .SVE_DRIFT_CFG => [SVE_DRIFT_CFG.IRQ_EN, SVE_DRIFT_CFG.K, SVE_DRIFT_CFG.WARN_PCT, SVE_DRIFT_CFG.CHG_PCT]
  | .SVE_DRIFT_STAT => [SVE_DRIFT_STAT.OVF, SVE_DRIFT_STAT.COUNT]
  | .SVE_DRIFT_LOG => [SVE_DRIFT_LOG.MAP_BIAS, SVE_DRIFT_LOG.OBS_BIAS, SVE_DRIFT_LOG.VALID, SVE_DRIFT_LOG.KIND, SVE_DRIFT_LOG.HEAD, SVE_DRIFT_LOG.BAND]
  | .SVE_SLOT_MAP => [SVE_SLOT_MAP.SPARE_EN, SVE_SLOT_MAP.SPARE_ARM, SVE_SLOT_MAP.EN_3, SVE_SLOT_MAP.ARM_3, SVE_SLOT_MAP.EN_2, SVE_SLOT_MAP.ARM_2, SVE_SLOT_MAP.EN_1, SVE_SLOT_MAP.ARM_1, SVE_SLOT_MAP.EN_0, SVE_SLOT_MAP.ARM_0]
  | .SVE_REBUILD => [SVE_REBUILD.ACTIVE, SVE_REBUILD.SLOT, SVE_REBUILD.OLD_ARM, SVE_REBUILD.WMARK]
  | .SVE_HEAD_STATE => [SVE_HEAD_STATE.WRT_BAD, SVE_HEAD_STATE.RDR1_BAD, SVE_HEAD_STATE.RDR0_BAD, SVE_HEAD_STATE.STATE]
  | .SPN_CTL => [SPN_CTL.SPD_SET]
  | .SPN_STAT => [SPN_STAT.STATE, SPN_STAT.AT_SPEED, SPN_STAT.INDEX_VALID, SPN_STAT.SU_FAIL, SPN_STAT.OBS_LOSS, SPN_STAT.STOP, SPN_STAT.START, SPN_STAT.SPEED]
  | .SPN_LIM => [SPN_LIM.SU_RES, SPN_LIM.ACC_MIN, SPN_LIM.SPD_TOL, SPN_LIM.SC_RATE]
  | .SPN_SU_CFG => [SPN_SU_CFG.VPULSE, SPN_SU_CFG.TPULSE, SPN_SU_CFG.SU_TRY, SPN_SU_CFG.I_OL]
  | .SPN_HO_CFG => [SPN_HO_CFG.OL_ACC, SPN_HO_CFG.HO_RPM, SPN_HO_CFG.HO_ANG, SPN_HO_CFG.HO_N]
  | .SPN_MOTOR => [SPN_MOTOR.POLES, SPN_MOTOR.RPH, SPN_MOTOR.LPH, SPN_MOTOR.KE]
  | .SPN_ORR_CFG => [SPN_ORR_CFG.EN, SPN_ORR_CFG.SLOT_SRC, SPN_ORR_CFG.SLOT, SPN_ORR_CFG.DW_MAX, SPN_ORR_CFG.LOCK_WIN, SPN_ORR_CFG.SLEW]
  | .SPN_ORR_STAT => [SPN_ORR_STAT.OSTATE, SPN_ORR_STAT.FREE_EVT, SPN_ORR_STAT.UNLOCK_EVT, SPN_ORR_STAT.SLOT_USED, SPN_ORR_STAT.PH_ERR]
  | .SPN_COMMIT => [SPN_COMMIT.BANK_ERR, SPN_COMMIT.COMMIT]
  | .SPN_CTX_CFG => [SPN_CTX_CFG.ENABLE, SPN_CTX_CFG.MODE]
  | .SPN_CTX_MAN => [SPN_CTX_MAN.MAN]
  | .SPN_CTX_OUT => [SPN_CTX_OUT.OUT]
  | .SPN_CTX_INTEG => [SPN_CTX_INTEG.I]
  | .SPN_CTX_STAT => [SPN_CTX_STAT.CLAMP_I, SPN_CTX_STAT.CLAMP_O, SPN_CTX_STAT.MODE_ACT, SPN_CTX_STAT.OVR, SPN_CTX_STAT.SEC_SAT, SPN_CTX_STAT.CLAMP_CNT]
  | .SPN_COEF => [SPN_COEF.W]
  | .PWR_STAT => [PWR_STAT.LOSS, PWR_STAT.WARN, PWR_STAT.RAIL_OK, PWR_STAT.LATCHED, PWR_STAT.RETRACTED]
  | .PWR_SNS_CFG => [PWR_SNS_CFG.WARN12, PWR_SNS_CFG.LOSS12, PWR_SNS_CFG.WARN5, PWR_SNS_CFG.LOSS5]
  | .PWR_VCM_CFG => [PWR_VCM_CFG.RET_DIR, PWR_VCM_CFG.ILIM_ACT, PWR_VCM_CFG.ILIM, PWR_VCM_CFG.ICONT]
  | .PWR_RET_CFG => [PWR_RET_CFG.RET_V, PWR_RET_CFG.RET_BEMF, PWR_RET_CFG.RET_TMO, PWR_RET_CFG.BRK_ILIM]
  | .PWR_HU_CFG => [PWR_HU_CFG.HU_CLAMP, PWR_HU_CFG.HU_MIN]
  | .SPL_CFG => [SPL_CFG.EN, SPL_CFG.ELIG, SPL_CFG.SRC, SPL_CFG.VER_CAP, SPL_CFG.MEMBER_ID]
  | .SPL_STAT => [SPL_STAT.STATE, SPL_STAT.IS_MASTER, SPL_STAT.REF_LOCK, SPL_STAT.WRAP_P, SPL_STAT.WRAP_N, SPL_STAT.MASTER_CHG, SPL_STAT.MEMB_EVT, SPL_STAT.MEMBERS, SPL_STAT.MASTER_ID]
  | .SPL_SIDE_STAT => [SPL_SIDE_STAT.LINK, SPL_SIDE_STAT.VER, SPL_SIDE_STAT.PEER_ID, SPL_SIDE_STAT.DOWN_CNT, SPL_SIDE_STAT.CRC_ERR]
  | .SPL_MER_CFG => [SPL_MER_CFG.STEP_THR, SPL_MER_CFG.PULSE_WIN, SPL_MER_CFG.OUT_EN, SPL_MER_CFG.MER_DLY]
  | .SPL_MER_STAT => [SPL_MER_STAT.OFS, SPL_MER_STAT.STEP_EVT, SPL_MER_STAT.PULSE_LOSS, SPL_MER_STAT.HOPS]
  | .SPL_FW_CFG => [SPL_FW_CFG.TX_EN, SPL_FW_CFG.RX_EN, SPL_FW_CFG.FW_RADIUS, SPL_FW_CFG.FW_WIN]
  | .SPL_FW_STAT => [SPL_FW_STAT.ACTIVE, SPL_FW_STAT.LAST_HOPS, SPL_FW_STAT.LAST_ORIGIN, SPL_FW_STAT.RX_CNT]
  | .SPL_VIB => [SPL_VIB.VIB_HOPS, SPL_VIB.NBR, SPL_VIB.OWN]
  | .SPL_PLAN_CTL => [SPL_PLAN_CTL.SUBMIT, SPL_PLAN_CTL.PLAN_ERR, SPL_PLAN_CTL.PLAN_ORIGIN, SPL_PLAN_CTL.VER]
  | .SPL_RLY_CTL => [SPL_RLY_CTL.SEND, SPL_RLY_CTL.POP, SPL_RLY_CTL.TX_BUSY, SPL_RLY_CTL.RX_OVF, SPL_RLY_CTL.BCAST, SPL_RLY_CTL.DEST, SPL_RLY_CTL.RX_COUNT]
  | .SPL_MEMBERS => [SPL_MEMBERS.W]
  | .SPL_PLAN => [SPL_PLAN.W]
  | .SPL_PLAN_TX => [SPL_PLAN_TX.W]
  | .SPL_RLY_TX => [SPL_RLY_TX.W]
  | .SPL_RLY_RX => [SPL_RLY_RX.W]
  | .BLK_ID => [BLK_ID.PREFIX, BLK_ID.BLOCK]
  | .BLK_VER => [BLK_VER.PART, BLK_VER.MAJOR, BLK_VER.MINOR]
  | .BLK_IRQ => [BLK_IRQ.ANY, BLK_IRQ.LINES]
  | .BLK_LOCK => [BLK_LOCK.RWK_DENY, BLK_LOCK.LOCK]

/-- Where a register array lies: block, offset of element 0, (stride, count) per index, outermost first, and whether it is 64 bits wide. -/
structure RegInfo where
  block : Nat
  offset : Nat
  dims : List (Nat × Nat)
  wide : Bool
  deriving DecidableEq, Repr

/-- Placement of each array of the chapters. The common registers (R593) are placed by `regAt` itself. -/
def regInfo : RegName → RegInfo
  | .PTM_MODE_STAT => ⟨0, 0x0, [], false⟩
  | .PTM_MODE_CTL => ⟨0, 0x4, [], false⟩
  | .PTM_SAFE_CTL => ⟨0, 0x8, [], false⟩
  | .PTM_BOOT_STAT => ⟨0, 0x10, [], false⟩
  | .PTM_WAKE_CFG => ⟨0, 0x14, [], false⟩
  | .PTM_JNL_STAT => ⟨0, 0x20, [], false⟩
  | .PTM_CAP_CFG => ⟨0, 0x100, [], false⟩
  | .PTM_CAP_STAT => ⟨0, 0x104, [], false⟩
  | .PTM_AVS_CFG => ⟨0, 0x200, [], false⟩
  | .PTM_AVS_STAT => ⟨0, 0x204, [], false⟩
  | .PTM_HSW_CFG => ⟨0, 0x300, [], false⟩
  | .PTM_HSW_LOG => ⟨0, 0x308, [], true⟩
  | .PTM_ISL_PWR => ⟨0, 0x400, [], false⟩
  | .PTM_DOM_PWR => ⟨0, 0x404, [], false⟩
  | .PTM_THERM => ⟨0, 0x408, [], false⟩
  | .PTM_MER_TIME => ⟨0, 0x500, [], true⟩
  | .PTM_CW_CTL => ⟨0, 0x600, [], false⟩
  | .PTM_CW_STAT => ⟨0, 0x604, [], false⟩
  | .PTM_GPIO_DIR => ⟨0, 0x700, [], true⟩
  | .PTM_GPIO_OUT => ⟨0, 0x708, [], true⟩
  | .PTM_GPIO_IN => ⟨0, 0x710, [], true⟩
  | .PTM_GPIO_PULL => ⟨0, 0x718, [], true⟩
  | .PTM_LED_CFG => ⟨0, 0x720, [], false⟩
  | .FCU_SRC_CFG => ⟨1, 0x0, [(0x8, 384)], false⟩
  | .FCU_SRC_STAT => ⟨1, 0x4, [(0x8, 384)], false⟩
  | .FCU_CFG => ⟨1, 0x1000, [], false⟩
  | .FCU_ACK => ⟨1, 0x1004, [], false⟩
  | .FCU_RAISE => ⟨1, 0x1008, [], false⟩
  | .FCU_SELF => ⟨1, 0x100c, [], false⟩
  | .FCU_RELOAD => ⟨1, 0x1010, [], false⟩
  | .FCU_FEC_INFO => ⟨1, 0x1020, [], false⟩
  | .FCU_FEC_ADDR => ⟨1, 0x1028, [], true⟩
  | .FCU_FEC_TIME => ⟨1, 0x1030, [], true⟩
  | .FCU_PEND => ⟨1, 0x1100, [(0x4, 12)], false⟩
  | .ALM_CFG => ⟨2, 0x0, [], false⟩
  | .ALM_STAT => ⟨2, 0x4, [], false⟩
  | .ALM_OLDEST => ⟨2, 0x8, [], false⟩
  | .ALM_NEWEST => ⟨2, 0xc, [], false⟩
  | .ALM_CURSOR => ⟨2, 0x10, [], false⟩
  | .ALM_WIN => ⟨2, 0x20, [(0x4, 8)], false⟩
  | .ALM_POST => ⟨2, 0x40, [(0x4, 5)], false⟩
  | .ALM_CTL => ⟨2, 0x60, [], false⟩
  | .SVC_PTL_CFG => ⟨3, 0x0, [], false⟩
  | .SVC_PTL_STAT => ⟨3, 0x4, [], false⟩
  | .SVC_PTL_BASE => ⟨3, 0x8, [], true⟩
  | .SVC_PTL_LIMIT => ⟨3, 0x10, [], true⟩
  | .SVC_SVY_CFG => ⟨3, 0x20, [], false⟩
  | .SVC_SVY_STAT => ⟨3, 0x24, [], false⟩
  | .SVC_REPAIR => ⟨3, 0x28, [], false⟩
  | .SVC_SVY_EN => ⟨3, 0x40, [(0x4, 8)], false⟩
  | .SVC_LB_PEND => ⟨3, 0x60, [(0x4, 8)], false⟩
  | .SVC_SVY_RES => ⟨3, 0x100, [(0x10, 64), (0x4, 4)], false⟩
  | .SVC_LB_CFG => ⟨3, 0x10000, [(0x10, 256)], false⟩
  | .SVC_LB_STAT => ⟨3, 0x10004, [(0x10, 256)], false⟩
  | .SVC_INST_STAT => ⟨3, 0x10008, [(0x10, 256)], false⟩
  | .SVC_CAL_CTL => ⟨3, 0x80000, [], false⟩
  | .SVC_CAL_STAT => ⟨3, 0x80004, [], false⟩
  | .SVC_CAL_REF => ⟨3, 0x80008, [], false⟩
  | .PCX_CFG => ⟨4, 0x0, [], false⟩
  | .PCX_CORE_CTL => ⟨4, 0x10, [(0x10, 4)], false⟩
  | .PCX_CORE_STAT => ⟨4, 0x14, [(0x10, 4)], false⟩
  | .PCX_RST_VEC => ⟨4, 0x18, [(0x10, 4)], true⟩
  | .PCX_KPR_STAT => ⟨4, 0x100, [], false⟩
  | .PCX_KPR_CTL => ⟨4, 0x104, [], false⟩
  | .PCX_CKPT => ⟨4, 0x108, [(0x4, 2)], false⟩
  | .PCX_NMI_VEC => ⟨4, 0x110, [], true⟩
  | .PCX_WDT_CTL => ⟨4, 0x200, [(0x10, 5)], false⟩
  | .PCX_WDT_KICK => ⟨4, 0x204, [(0x10, 5)], false⟩
  | .PCX_WDT_STAT => ⟨4, 0x208, [(0x10, 5)], false⟩
  | .PCX_MTIMECMP => ⟨4, 0x300, [(0x8, 5)], true⟩
  | .PCX_MSIP => ⟨4, 0x340, [(0x4, 5)], false⟩
  | .PCX_CMO_ADDR => ⟨4, 0x400, [], true⟩
  | .PCX_CMO_CTL => ⟨4, 0x408, [], false⟩
  | .PCX_IRQ_SRC => ⟨4, 0x1000, [(0x4, 128)], false⟩
  | .PCX_IRQ_THR => ⟨4, 0x1400, [(0x10, 9)], false⟩
  | .PCX_IRQ_CLAIM => ⟨4, 0x1404, [(0x10, 9)], false⟩
  | .PCX_PROT_BASE => ⟨4, 0x2000, [(0x10, 64)], false⟩
  | .PCX_PROT_LIMIT => ⟨4, 0x2004, [(0x10, 64)], false⟩
  | .PCX_PROT_ATTR => ⟨4, 0x2008, [(0x10, 64)], false⟩
  | .PCX_PROT_COMMIT => ⟨4, 0x2400, [], true⟩
  | .PCX_PROT_STAT => ⟨4, 0x2408, [], false⟩
  | .PCX_FRY_REQ => ⟨4, 0x10000, [(0x400, 8), (0x4, 64)], false⟩
  | .PCX_FRY_RES => ⟨4, 0x10100, [(0x400, 8), (0x4, 64)], false⟩
  | .PCX_FRY_DB => ⟨4, 0x10200, [(0x400, 8)], false⟩
  | .PCX_FRY_STAT => ⟨4, 0x10204, [(0x400, 8)], false⟩
  | .PCX_FRY_KCTL => ⟨4, 0x10208, [(0x400, 8)], false⟩
  | .PCX_FRY_CFG => ⟨4, 0x1020c, [(0x400, 8)], false⟩
  | .PCX_DBG_STAT => ⟨4, 0x12000, [], false⟩
  | .HIF_CFG => ⟨5, 0x0, [], false⟩
  | .HIF_PORT_CTL => ⟨5, 0x10, [(0x10, 2)], false⟩
  | .HIF_PORT_STAT => ⟨5, 0x14, [(0x10, 2)], false⟩
  | .HIF_ERR_CNT => ⟨5, 0x18, [(0x10, 2)], false⟩
  | .CQE_CFG => ⟨6, 0x0, [], false⟩
  | .CQE_STAT => ⟨6, 0x4, [], false⟩
  | .CQE_OVL_CFG => ⟨6, 0x8, [], false⟩
  | .CQE_SCHED => ⟨6, 0xc, [], false⟩
  | .CQE_THROT => ⟨6, 0x10, [], false⟩
  | .CQE_AGE => ⟨6, 0x14, [], false⟩
  | .CQE_CLAIM => ⟨6, 0x18, [], false⟩
  | .CQE_HQ_BASE => ⟨6, 0x20, [], true⟩
  | .CQE_HQ_CTL => ⟨6, 0x28, [], false⟩
  | .CQE_HQ_PTR => ⟨6, 0x2c, [], false⟩
  | .CQE_DONE_DW0 => ⟨6, 0x30, [], false⟩
  | .CQE_DONE => ⟨6, 0x34, [], false⟩
  | .CQE_OVL_STAT => ⟨6, 0x40, [(0x4, 4)], false⟩
  | .CQE_NS_CFG => ⟨6, 0x10000, [(0x10, 128)], false⟩
  | .CQE_NS_BASE => ⟨6, 0x10004, [(0x10, 128)], false⟩
  | .CQE_NS_ROWS => ⟨6, 0x10008, [(0x10, 128)], false⟩
  | .BMU_CFG => ⟨7, 0x0, [], false⟩
  | .BMU_STAT => ⟨7, 0x4, [], false⟩
  | .BMU_CC_CTL => ⟨7, 0x100, [], false⟩
  | .BMU_WAY_PWR => ⟨7, 0x104, [], false⟩
  | .BMU_STREAM_CFG => ⟨7, 0x108, [], false⟩
  | .BMU_EVB_STAT => ⟨7, 0x10c, [], false⟩
  | .BMU_CLASS_CFG => ⟨7, 0x200, [(0x4, 16)], false⟩
  | .BMU_MNT_ADDR => ⟨7, 0x300, [], true⟩
  | .BMU_MNT_CTL => ⟨7, 0x308, [], false⟩
  | .BMU_SLOT_BASE => ⟨7, 0x400, [], true⟩
  | .BMU_SLOT_CFG => ⟨7, 0x408, [], false⟩
  | .BMU_SLOT_STAT => ⟨7, 0x40c, [], false⟩
  | .BMU_BUDGET => ⟨7, 0x410, [], false⟩
  | .BMU_DISCARD => ⟨7, 0x414, [], false⟩
  | .BMU_CCC_BASE => ⟨7, 0x500, [], true⟩
  | .BMU_CCC_CFG => ⟨7, 0x508, [], false⟩
  | .BMU_CCC_STAT => ⟨7, 0x50c, [], false⟩
  | .BMU_CCC_NS => ⟨7, 0x510, [(0x4, 4)], false⟩
  | .DMF_CH_CTL => ⟨8, 0x0, [(0x100, 64)], false⟩
  | .DMF_CH_STAT => ⟨8, 0x4, [(0x100, 64)], false⟩
  | .DMF_CH_CFG => ⟨8, 0x8, [(0x100, 64)], false⟩
  | .DMF_CH_ATP => ⟨8, 0x10, [(0x100, 64)], true⟩
  | .DMF_CH_FAULT_VA => ⟨8, 0x18, [(0x100, 64)], true⟩
  | .DMF_CH_PROG => ⟨8, 0x20, [(0x100, 64)], true⟩
  | .DMF_CH_SHD => ⟨8, 0x40, [(0x100, 64), (0x4, 8)], false⟩
  | .DMF_CH_ACT => ⟨8, 0x60, [(0x100, 64), (0x4, 8)], false⟩
  | .DMF_CFG => ⟨8, 0x10000, [], false⟩
  | .DMF_FP_MASK => ⟨8, 0x10008, [], true⟩
  | .DMF_INV => ⟨8, 0x10010, [], false⟩
  | .DMF_INV_VA => ⟨8, 0x10018, [], true⟩
  | .DMF_IRQ_PEND => ⟨8, 0x10020, [], true⟩
  | .MPC_CFG => ⟨9, 0x0, [], false⟩
  | .MPC_STAT => ⟨9, 0x4, [], false⟩
  | .MPC_VSN => ⟨9, 0x8, [], false⟩
  | .MPC_WORK_BASE => ⟨9, 0x10, [], true⟩
  | .MPC_CNT_REC => ⟨9, 0x18, [], false⟩
  | .MPC_CNT_FAIL => ⟨9, 0x1c, [], false⟩
  | .MPC_CNT_MIS => ⟨9, 0x20, [], false⟩
  | .MPC_EVT_LOG => ⟨9, 0x28, [], true⟩
  | .MPC_KEY_CTL => ⟨9, 0x100, [], false⟩
  | .MPC_KEY_DATA => ⟨9, 0x140, [(0x4, 16)], false⟩
  | .MPC_KEY_STAT => ⟨9, 0x1000, [(0x4, 128)], false⟩
  | .RDC_LANE_AFE => ⟨10, 0x0, [(0x40, 32)], false⟩
  | .RDC_LANE_SKEW => ⟨10, 0x4, [(0x40, 32)], false⟩
  | .RDC_LANE_STAT => ⟨10, 0x8, [(0x40, 32)], false⟩
  | .RDC_HP_CTL => ⟨10, 0x10000, [(0x400, 16)], false⟩
  | .RDC_HP_RATE => ⟨10, 0x10004, [(0x400, 16)], false⟩
  | .RDC_HP_TR => ⟨10, 0x10008, [(0x400, 16)], false⟩
  | .RDC_HP_ADAPT => ⟨10, 0x1000c, [(0x400, 16)], false⟩
  | .RDC_HP_TARGET => ⟨10, 0x10010, [(0x400, 16)], false⟩
  | .RDC_HP_LOOP => ⟨10, 0x10014, [(0x400, 16)], false⟩
  | .RDC_HP_CLR => ⟨10, 0x10018, [(0x400, 16)], false⟩
  | .RDC_HP_STAT => ⟨10, 0x1001c, [(0x400, 16)], false⟩
  | .RDC_HP_TAP => ⟨10, 0x10100, [(0x400, 16), (0x4, 48)], false⟩
  | .RDC_ZTAB_BASE => ⟨10, 0x20000, [], true⟩
  | .RDC_PAL_STAT => ⟨10, 0x20040, [(0x4, 4)], false⟩
  | .RDC_HEAD_CFG => ⟨10, 0x20100, [(0x4, 24)], false⟩
  | .RDC_HP_DET => ⟨10, 0x30000, [(0x40, 16)], false⟩
  | .RDC_HP_DEC => ⟨10, 0x30004, [(0x40, 16)], false⟩
  | .RDC_HP_SYNC => ⟨10, 0x30008, [(0x40, 16)], false⟩
  | .RDC_RETRY_STAT => ⟨10, 0x3000c, [(0x40, 16)], false⟩
  | .RDC_NP_ADDR => ⟨10, 0x30800, [], false⟩
  | .RDC_NP_DATA => ⟨10, 0x30804, [], false⟩
  | .RDC_RETRY_CFG => ⟨10, 0x30810, [], false⟩
  | .RDC_RETRY_ORDER => ⟨10, 0x30814, [(0x4, 2)], false⟩
  | .RDC_CAP_BASE => ⟨10, 0x30820, [], true⟩
  | .RDC_HST_CTL => ⟨10, 0x30830, [], false⟩
  | .RDC_LDPC_H => ⟨10, 0x31000, [(0x4, 576)], false⟩
  | .RDC_HST_SECT => ⟨10, 0x40000, [(0x40, 24)], true⟩
  | .RDC_HST_FAIL => ⟨10, 0x40008, [(0x40, 24)], false⟩
  | .RDC_HST_SYNC => ⟨10, 0x4000c, [(0x40, 24)], false⟩
  | .RDC_HST_FLIP => ⟨10, 0x40010, [(0x40, 24)], true⟩
  | .RDC_HST_HOFF => ⟨10, 0x40018, [(0x40, 24)], false⟩
  | .RDC_HST_UNREC => ⟨10, 0x4001c, [(0x40, 24)], false⟩
  | .RDC_HST_REC => ⟨10, 0x40020, [(0x40, 24), (0x4, 8)], false⟩
  | .WRC_WR_CTL => ⟨11, 0x0, [(0x20, 8)], false⟩
  | .WRC_WR_STAT => ⟨11, 0x4, [(0x20, 8)], false⟩
  | .WRC_HEAD_CFG => ⟨11, 0x10000, [(0x4, 24)], false⟩
  | .WRC_WTAB_BASE => ⟨11, 0x20000, [], true⟩
  | .WRC_CFG => ⟨11, 0x20008, [], false⟩
  | .WRC_WUS_STAT => ⟨11, 0x2000c, [], false⟩
  | .WRC_VFY_CFG => ⟨11, 0x20010, [], false⟩
  | .WRC_TRIM_CFG => ⟨11, 0x20014, [], false⟩
  | .WRC_RWL_BASE => ⟨11, 0x20020, [], true⟩
  | .WRC_RWL_CTL => ⟨11, 0x20028, [], false⟩
  | .WRC_RWL_PTR => ⟨11, 0x2002c, [], false⟩
  | .SVE_COEF => ⟨12, 0x0, [(0x1000, 12), (0x200, 4), (0x4, 128)], false⟩
  | .SVE_CLU_CTL => ⟨12, 0x10000, [(0x10, 12)], false⟩
  | .SVE_CLU_STAT => ⟨12, 0x10004, [(0x10, 12)], false⟩
  | .SVE_CTX_CFG => ⟨12, 0x20000, [(0x20, 24)], false⟩
  | .SVE_CTX_MAN => ⟨12, 0x20004, [(0x20, 24)], false⟩
  | .SVE_CTX_OUT => ⟨12, 0x20008, [(0x20, 24)], false⟩
  | .SVE_CTX_INTEG => ⟨12, 0x2000c, [(0x20, 24)], false⟩
  | .SVE_CTX_STAT => ⟨12, 0x20010, [(0x20, 24)], false⟩
  | .SVE_SV_CFG => ⟨12, 0x30000, [], false⟩
  | .SVE_ACT_CFG => ⟨12, 0x30010, [(0x4, 4)], false⟩
  | .SVE_ACT_STAT => ⟨12, 0x30020, [(0x4, 4)], false⟩
  | .SVE_PES => ⟨12, 0x30040, [(0x4, 16)], false⟩
  | .SVE_WEDGE_STAT => ⟨12, 0x30080, [(0x4, 16)], false⟩
  | .SVE_TRK_CTL => ⟨12, 0x40000, [], false⟩
  | .SVE_SERVICE => ⟨12, 0x40004, [], false⟩
  | .SVE_TRK_STAT => ⟨12, 0x40008, [], false⟩
  | .SVE_SEEK_TGT => ⟨12, 0x50000, [(0x20, 4)], false⟩
  | .SVE_SEEK_DLT => ⟨12, 0x50004, [(0x20, 4)], false⟩
  | .SVE_SEEK_CMD => ⟨12, 0x50008, [(0x20, 4)], false⟩
  | .SVE_SEEK_STAT => ⟨12, 0x5000c, [(0x20, 4)], false⟩
  | .SVE_TRAJ_LIM => ⟨12, 0x50010, [(0x20, 4)], false⟩
  | .SVE_TRAJ_GAIN => ⟨12, 0x50014, [(0x20, 4)], false⟩
  | .SVE_SETTLE_CFG => ⟨12, 0x50100, [], false⟩
  | .SVE_RAMP_CFG => ⟨12, 0x50104, [], false⟩
  | .SVE_RRO_BASE => ⟨12, 0x60000, [], true⟩
  | .SVE_RRO_CTL => ⟨12, 0x60008, [], false⟩
  | .SVE_RRO_HARM => ⟨12, 0x60010, [(0x20, 2), (0x4, 8)], false⟩
  | .SVE_NOTCH_CTL => ⟨12, 0x60100, [(0x40, 4), (0x10, 4)], false⟩
  | .SVE_NOTCH_LIM => ⟨12, 0x60104, [(0x40, 4), (0x10, 4)], false⟩
  | .SVE_NOTCH_STAT => ⟨12, 0x60108, [(0x40, 4), (0x10, 4)], false⟩
  | .SVE_VFF_CTL => ⟨12, 0x70000, [(0x4, 4)], false⟩
  | .SVE_SHK_CFG => ⟨12, 0x70010, [], false⟩
  | .SVE_SHK_STAT => ⟨12, 0x70014, [], false⟩
  | .SVE_VG_CFG => ⟨12, 0x70018, [], false⟩
  | .SVE_VFF_COEF => ⟨12, 0x70100, [(0x100, 4), (0x4, 32)], false⟩
  | .SVE_CMAP_BASE => ⟨12, 0x80000, [], true⟩
  | .SVE_CMAP_CFG => ⟨12, 0x80008, [], false⟩
  | .SVE_DRIFT_CFG => ⟨12, 0x8000c, [], false⟩
  | .SVE_DRIFT_STAT => ⟨12, 0x80010, [], false⟩
  | .SVE_DRIFT_LOG => ⟨12, 0x80018, [], true⟩
  | .SVE_SLOT_MAP => ⟨12, 0x80040, [(0x4, 4)], false⟩
  | .SVE_REBUILD => ⟨12, 0x80050, [(0x4, 4)], false⟩
  | .SVE_HEAD_STATE => ⟨12, 0x80080, [(0x4, 24)], false⟩
  | .SPN_CTL => ⟨13, 0x0, [], false⟩
  | .SPN_STAT => ⟨13, 0x4, [], false⟩
  | .SPN_LIM => ⟨13, 0x8, [], false⟩
  | .SPN_SU_CFG => ⟨13, 0xc, [], false⟩
  | .SPN_HO_CFG => ⟨13, 0x10, [], false⟩
  | .SPN_MOTOR => ⟨13, 0x14, [], false⟩
  | .SPN_ORR_CFG => ⟨13, 0x20, [], false⟩
  | .SPN_ORR_STAT => ⟨13, 0x24, [], false⟩
  | .SPN_COMMIT => ⟨13, 0x30, [], false⟩
  | .SPN_CTX_CFG => ⟨13, 0x100, [(0x20, 3)], false⟩
  | .SPN_CTX_MAN => ⟨13, 0x104, [(0x20, 3)], false⟩
  | .SPN_CTX_OUT => ⟨13, 0x108, [(0x20, 3)], false⟩
  | .SPN_CTX_INTEG => ⟨13, 0x10c, [(0x20, 3)], false⟩
  | .SPN_CTX_STAT => ⟨13, 0x110, [(0x20, 3)], false⟩
  | .SPN_COEF => ⟨13, 0x10000, [(0x200, 3), (0x4, 128)], false⟩
  | .PWR_STAT => ⟨14, 0x0, [], false⟩
  | .PWR_SNS_CFG => ⟨14, 0x20, [], false⟩
  | .PWR_VCM_CFG => ⟨14, 0x40, [(0x4, 4)], false⟩
  | .PWR_RET_CFG => ⟨14, 0x50, [], false⟩
  | .PWR_HU_CFG => ⟨14, 0x58, [], false⟩
  | .SPL_CFG => ⟨15, 0x0, [], false⟩
  | .SPL_STAT => ⟨15, 0x4, [], false⟩
  | .SPL_SIDE_STAT => ⟨15, 0x8, [(0x4, 2)], false⟩
  | .SPL_MER_CFG => ⟨15, 0x10, [], false⟩
  | .SPL_MER_STAT => ⟨15, 0x14, [], false⟩
  | .SPL_FW_CFG => ⟨15, 0x18, [], false⟩
  | .SPL_FW_STAT => ⟨15, 0x1c, [], false⟩
  | .SPL_VIB => ⟨15, 0x20, [], false⟩
  | .SPL_PLAN_CTL => ⟨15, 0x24, [], false⟩
  | .SPL_RLY_CTL => ⟨15, 0x28, [], false⟩
  | .SPL_MEMBERS => ⟨15, 0x100, [(0x4, 16)], false⟩
  | .SPL_PLAN => ⟨15, 0x200, [(0x4, 128)], false⟩
  | .SPL_PLAN_TX => ⟨15, 0x400, [(0x4, 128)], false⟩
  | .SPL_RLY_TX => ⟨15, 0x600, [(0x4, 12)], false⟩
  | .SPL_RLY_RX => ⟨15, 0x640, [(0x4, 16)], false⟩
  | .BLK_ID => ⟨0, 0xfff00, [(0x100000, 16)], false⟩
  | .BLK_VER => ⟨0, 0xfff04, [(0x100000, 16)], false⟩
  | .BLK_IRQ => ⟨0, 0xfff08, [(0x100000, 16)], false⟩
  | .BLK_LOCK => ⟨0, 0xfff0c, [(0x100000, 16)], false⟩

/-- The arrays of the chapters, in address order. -/
def regsOfBlock : Nat → List RegName
  | 0 => [.PTM_MODE_STAT, .PTM_MODE_CTL, .PTM_SAFE_CTL, .PTM_BOOT_STAT, .PTM_WAKE_CFG, .PTM_JNL_STAT, .PTM_CAP_CFG, .PTM_CAP_STAT, .PTM_AVS_CFG, .PTM_AVS_STAT, .PTM_HSW_CFG, .PTM_HSW_LOG, .PTM_ISL_PWR, .PTM_DOM_PWR, .PTM_THERM, .PTM_MER_TIME, .PTM_CW_CTL, .PTM_CW_STAT, .PTM_GPIO_DIR, .PTM_GPIO_OUT, .PTM_GPIO_IN, .PTM_GPIO_PULL, .PTM_LED_CFG]
  | 1 => [.FCU_SRC_CFG, .FCU_SRC_STAT, .FCU_CFG, .FCU_ACK, .FCU_RAISE, .FCU_SELF, .FCU_RELOAD, .FCU_FEC_INFO, .FCU_FEC_ADDR, .FCU_FEC_TIME, .FCU_PEND]
  | 2 => [.ALM_CFG, .ALM_STAT, .ALM_OLDEST, .ALM_NEWEST, .ALM_CURSOR, .ALM_WIN, .ALM_POST, .ALM_CTL]
  | 3 => [.SVC_PTL_CFG, .SVC_PTL_STAT, .SVC_PTL_BASE, .SVC_PTL_LIMIT, .SVC_SVY_CFG, .SVC_SVY_STAT, .SVC_REPAIR, .SVC_SVY_EN, .SVC_LB_PEND, .SVC_SVY_RES, .SVC_LB_CFG, .SVC_LB_STAT, .SVC_INST_STAT, .SVC_CAL_CTL, .SVC_CAL_STAT, .SVC_CAL_REF]
  | 4 => [.PCX_CFG, .PCX_CORE_CTL, .PCX_CORE_STAT, .PCX_RST_VEC, .PCX_KPR_STAT, .PCX_KPR_CTL, .PCX_CKPT, .PCX_NMI_VEC, .PCX_WDT_CTL, .PCX_WDT_KICK, .PCX_WDT_STAT, .PCX_MTIMECMP, .PCX_MSIP, .PCX_CMO_ADDR, .PCX_CMO_CTL, .PCX_IRQ_SRC, .PCX_IRQ_THR, .PCX_IRQ_CLAIM, .PCX_PROT_BASE, .PCX_PROT_LIMIT, .PCX_PROT_ATTR, .PCX_PROT_COMMIT, .PCX_PROT_STAT, .PCX_FRY_REQ, .PCX_FRY_RES, .PCX_FRY_DB, .PCX_FRY_STAT, .PCX_FRY_KCTL, .PCX_FRY_CFG, .PCX_DBG_STAT]
  | 5 => [.HIF_CFG, .HIF_PORT_CTL, .HIF_PORT_STAT, .HIF_ERR_CNT]
  | 6 => [.CQE_CFG, .CQE_STAT, .CQE_OVL_CFG, .CQE_SCHED, .CQE_THROT, .CQE_AGE, .CQE_CLAIM, .CQE_HQ_BASE, .CQE_HQ_CTL, .CQE_HQ_PTR, .CQE_DONE_DW0, .CQE_DONE, .CQE_OVL_STAT, .CQE_NS_CFG, .CQE_NS_BASE, .CQE_NS_ROWS]
  | 7 => [.BMU_CFG, .BMU_STAT, .BMU_CC_CTL, .BMU_WAY_PWR, .BMU_STREAM_CFG, .BMU_EVB_STAT, .BMU_CLASS_CFG, .BMU_MNT_ADDR, .BMU_MNT_CTL, .BMU_SLOT_BASE, .BMU_SLOT_CFG, .BMU_SLOT_STAT, .BMU_BUDGET, .BMU_DISCARD, .BMU_CCC_BASE, .BMU_CCC_CFG, .BMU_CCC_STAT, .BMU_CCC_NS]
  | 8 => [.DMF_CH_CTL, .DMF_CH_STAT, .DMF_CH_CFG, .DMF_CH_ATP, .DMF_CH_FAULT_VA, .DMF_CH_PROG, .DMF_CH_SHD, .DMF_CH_ACT, .DMF_CFG, .DMF_FP_MASK, .DMF_INV, .DMF_INV_VA, .DMF_IRQ_PEND]
  | 9 => [.MPC_CFG, .MPC_STAT, .MPC_VSN, .MPC_WORK_BASE, .MPC_CNT_REC, .MPC_CNT_FAIL, .MPC_CNT_MIS, .MPC_EVT_LOG, .MPC_KEY_CTL, .MPC_KEY_DATA, .MPC_KEY_STAT]
  | 10 => [.RDC_LANE_AFE, .RDC_LANE_SKEW, .RDC_LANE_STAT, .RDC_HP_CTL, .RDC_HP_RATE, .RDC_HP_TR, .RDC_HP_ADAPT, .RDC_HP_TARGET, .RDC_HP_LOOP, .RDC_HP_CLR, .RDC_HP_STAT, .RDC_HP_TAP, .RDC_ZTAB_BASE, .RDC_PAL_STAT, .RDC_HEAD_CFG, .RDC_HP_DET, .RDC_HP_DEC, .RDC_HP_SYNC, .RDC_RETRY_STAT, .RDC_NP_ADDR, .RDC_NP_DATA, .RDC_RETRY_CFG, .RDC_RETRY_ORDER, .RDC_CAP_BASE, .RDC_HST_CTL, .RDC_LDPC_H, .RDC_HST_SECT, .RDC_HST_FAIL, .RDC_HST_SYNC, .RDC_HST_FLIP, .RDC_HST_HOFF, .RDC_HST_UNREC, .RDC_HST_REC]
  | 11 => [.WRC_WR_CTL, .WRC_WR_STAT, .WRC_HEAD_CFG, .WRC_WTAB_BASE, .WRC_CFG, .WRC_WUS_STAT, .WRC_VFY_CFG, .WRC_TRIM_CFG, .WRC_RWL_BASE, .WRC_RWL_CTL, .WRC_RWL_PTR]
  | 12 => [.SVE_COEF, .SVE_CLU_CTL, .SVE_CLU_STAT, .SVE_CTX_CFG, .SVE_CTX_MAN, .SVE_CTX_OUT, .SVE_CTX_INTEG, .SVE_CTX_STAT, .SVE_SV_CFG, .SVE_ACT_CFG, .SVE_ACT_STAT, .SVE_PES, .SVE_WEDGE_STAT, .SVE_TRK_CTL, .SVE_SERVICE, .SVE_TRK_STAT, .SVE_SEEK_TGT, .SVE_SEEK_DLT, .SVE_SEEK_CMD, .SVE_SEEK_STAT, .SVE_TRAJ_LIM, .SVE_TRAJ_GAIN, .SVE_SETTLE_CFG, .SVE_RAMP_CFG, .SVE_RRO_BASE, .SVE_RRO_CTL, .SVE_RRO_HARM, .SVE_NOTCH_CTL, .SVE_NOTCH_LIM, .SVE_NOTCH_STAT, .SVE_VFF_CTL, .SVE_SHK_CFG, .SVE_SHK_STAT, .SVE_VG_CFG, .SVE_VFF_COEF, .SVE_CMAP_BASE, .SVE_CMAP_CFG, .SVE_DRIFT_CFG, .SVE_DRIFT_STAT, .SVE_DRIFT_LOG, .SVE_SLOT_MAP, .SVE_REBUILD, .SVE_HEAD_STATE]
  | 13 => [.SPN_CTL, .SPN_STAT, .SPN_LIM, .SPN_SU_CFG, .SPN_HO_CFG, .SPN_MOTOR, .SPN_ORR_CFG, .SPN_ORR_STAT, .SPN_COMMIT, .SPN_CTX_CFG, .SPN_CTX_MAN, .SPN_CTX_OUT, .SPN_CTX_INTEG, .SPN_CTX_STAT, .SPN_COEF]
  | 14 => [.PWR_STAT, .PWR_SNS_CFG, .PWR_VCM_CFG, .PWR_RET_CFG, .PWR_HU_CFG]
  | 15 => [.SPL_CFG, .SPL_STAT, .SPL_SIDE_STAT, .SPL_MER_CFG, .SPL_MER_STAT, .SPL_FW_CFG, .SPL_FW_STAT, .SPL_VIB, .SPL_PLAN_CTL, .SPL_RLY_CTL, .SPL_MEMBERS, .SPL_PLAN, .SPL_PLAN_TX, .SPL_RLY_TX, .SPL_RLY_RX]
  | _ => []

/-- Reset value of a register whose elements all reset alike; the others are in `regReset`. -/
def regResetWord : RegName → Nat
  | .PTM_SAFE_CTL => 0x20000000
  | .PTM_BOOT_STAT => 0x10000000
  | .PTM_WAKE_CFG => 0x7
  | .PTM_CAP_CFG => 0x19532200
  | .PTM_CAP_STAT => 0x400804
  | .PTM_AVS_CFG => 0x50000820
  | .PTM_AVS_STAT => 0x3C000000
  | .PTM_HSW_CFG => 0x14
  | .PTM_ISL_PWR => 0xFFFFFFFF
  | .PTM_DOM_PWR => 0xF000000
  | .PTM_THERM => 0x6E7D
  | .PTM_GPIO_PULL => 0xFFFFFFFFF
  | .PTM_LED_CFG => 0x32
  | .FCU_SRC_CFG => 0xC6C40540
  | .FCU_CFG => 0xA0000
  | .FCU_SELF => 0x40000000
  | .ALM_CFG => 0x40000000
  | .SVC_PTL_CFG => 0x60100A08
  | .SVC_SVY_CFG => 0x8008400A
  | .SVC_SVY_EN => 0xFFFFFFFF
  | .SVC_LB_CFG => 0x108927C0
  | .PCX_NMI_VEC => 0x100
  | .PCX_WDT_CTL => 0x14
  | .PCX_FRY_STAT => 0x100000
  | .PCX_FRY_CFG => 0x800A0FA0
  | .HIF_CFG => 0x8000000
  | .HIF_PORT_CTL => 0x2C300000
  | .CQE_CFG => 0x80000000
  | .CQE_OVL_CFG => 0x80000000
  | .CQE_SCHED => 0x19100000
  | .CQE_THROT => 0x10000000
  | .CQE_AGE => 0x64
  | .CQE_CLAIM => 0x320000
  | .CQE_HQ_CTL => 0x4C000000
  | .BMU_CC_CTL => 0x80000000
  | .BMU_WAY_PWR => 0xFFFF
  | .BMU_STREAM_CFG => 0x100
  | .BMU_CLASS_CFG => 0x2000FFFF
  | .BMU_SLOT_STAT => 0x10000000
  | .BMU_BUDGET => 0xBE00000
  | .BMU_CCC_CFG => 0x6040000
  | .DMF_CH_CFG => 0x13000000
  | .DMF_CFG => 0xA0E0000
  | .DMF_FP_MASK => 0xFFFF
  | .MPC_CFG => 0xE0000000
  | .MPC_VSN => 0x1
  | .RDC_LANE_AFE => 0x28000100
  | .RDC_HP_CTL => 0x80101000
  | .RDC_HP_RATE => 0x10000
  | .RDC_HP_TR => 0x496C0000
  | .RDC_HP_ADAPT => 0x46800
  | .RDC_HP_TARGET => 0x103020
  | .RDC_HP_LOOP => 0x840450
  | .RDC_HEAD_CFG => 0x8000
  | .RDC_HP_DET => 0xA8A08000
  | .RDC_HP_DEC => 0x1400C0
  | .RDC_HP_SYNC => 0x4000000
  | .RDC_RETRY_CFG => 0x8F000A40
  | .WRC_WR_CTL => 0x80000000
  | .WRC_CFG => 0xC321040
  | .WRC_VFY_CFG => 0x51000066
  | .WRC_TRIM_CFG => 0x409B40
  | .WRC_RWL_CTL => 0x4C000000
  | .SVE_SV_CFG => 0x84482190
  | .SVE_ACT_CFG => 0x8320096
  | .SVE_TRK_CTL => 0x501F4
  | .SVE_TRK_STAT => 0xC0000000
  | .SVE_SEEK_STAT => 0xC0000000
  | .SVE_TRAJ_LIM => 0x28646410
  | .SVE_TRAJ_GAIN => 0x4B010620
  | .SVE_SETTLE_CFG => 0x64380F06
  | .SVE_RAMP_CFG => 0x1E644990
  | .SVE_RRO_CTL => 0xC4004040
  | .SVE_RRO_HARM => 0x6000
  | .SVE_NOTCH_CTL => 0xE68032
  | .SVE_VFF_CTL => 0x1000
  | .SVE_SHK_CFG => 0x4060120F
  | .SVE_VG_CFG => 0x80300840
  | .SVE_DRIFT_CFG => 0x80065019
  | .SPN_CTL => 0x1C20
  | .SPN_LIM => 0xA140A0A
  | .SPN_SU_CFG => 0x3C32301E
  | .SPN_HO_CFG => 0x323C1410
  | .SPN_ORR_CFG => 0x40643214
  | .PWR_SNS_CFG => 0x6C66BEB4
  | .PWR_VCM_CFG => 0xA06400
  | .PWR_RET_CFG => 0x14329650
  | .PWR_HU_CFG => 0xA03C
  | .SPL_CFG => 0x40000000
  | .SPL_MER_CFG => 0x10088000
  | .SPL_MER_STAT => 0x3FF
  | .SPL_FW_CFG => 0xC007FC32
  | .SPL_VIB => 0x40000000
  | _ => 0

end Sys2Proof.Machine
end

