-- ==== Sys2Proof/Machine/Bits.lean ====
section
/-! DEFINITION. Bit fields of register values, byte order, saturating counts, the CRC of R547, and the sorted sparse
tables in which registers and memory are held. -/
namespace Sys2Proof.Machine

/-- Bits `hi` down to `lo` of a register value. -/
def getBits (v : DWord) (hi lo : Nat) : Nat := (v.toNat >>> lo) % 2 ^ (hi + 1 - lo)

/-- `v` with bits `hi` down to `lo` replaced by the low bits of `x`. -/
def setBits (v : DWord) (hi lo x : Nat) : DWord :=
  let m : DWord := BitVec.ofNat 64 (2 ^ (hi + 1 - lo) - 1) <<< lo
  (v &&& ~~~m) ||| (BitVec.ofNat 64 x <<< lo &&& m)

/-- Bits `hi` down to `lo` of a plain number, for words built or taken apart outside the register file. -/
def nbits (v hi lo : Nat) : Nat := (v >>> lo) % 2 ^ (hi + 1 - lo)

/-- Bit `k` of a number. -/
def nbit (v k : Nat) : Bool := v.testBit k

/-- A Boolean as a one-bit field. -/
def b2n (b : Bool) : Nat := if b then 1 else 0

/-- `v` with bit `k` set or cleared. -/
def setNBit (v k : Nat) (b : Bool) : Nat := if b then v ||| 2 ^ k else if v.testBit k then v - 2 ^ k else v

/-- A count that saturates at `m`. -/
def satAdd (v k m : Nat) : Nat := min m (v + k)

/-- `v` held within `lo` to `hi` (the spec's "values outside are clamped"). -/
def clampN (lo hi v : Nat) : Nat := max lo (min hi v)

/-- `v` held within `lo` to `hi`. -/
def clampI (lo hi v : Int) : Int := max lo (min hi v)

/-- The `w`-bit two's complement number whose bits are `v`. -/
def toSigned (w v : Nat) : Int :=
  let x := v % 2 ^ w
  if x < 2 ^ (w - 1) then (x : Int) else (x : Int) - (2 ^ w : Nat)

/-- The `w`-bit two's complement bits of `x`. -/
def ofSigned (w : Nat) (x : Int) : Nat := (x % ((2 ^ w : Nat) : Int)).toNat

/-- Halves to even: `⌊x / 2^k⌋` rounded to the nearest, ties to even. -/
def roundEven (x : Int) (k : Nat) : Int :=
  let p : Int := ((2 ^ k : Nat) : Int)
  let q := x / p
  let r := x % p
  if 2 * r < p then q else if 2 * r > p then q + 1 else if q % 2 = 0 then q else q + 1

/-- `(a - b) mod m` lies in 1 to `m/2 - 1`: `a` is newer than `b` in a count that wraps at `m` (R279, R438, R511, R549, R562). -/
def newer (m a b : Nat) : Bool :=
  let d := (a + m - b % m) % m
  decide (1 ≤ d ∧ d ≤ m / 2 - 1)

/-- The `n` bytes of `v`, least significant first (R546). -/
def leBytes : Nat → Nat → List Byte
  | 0, _ => []
  | n + 1, v => BitVec.ofNat 8 v :: leBytes n (v / 256)

/-- The number whose bytes, least significant first, are `l`. -/
def ofLeBytes : List Byte → Nat
  | [] => 0
  | b :: l => b.toNat + 256 * ofLeBytes l

/-- Bytes of a number, most significant first. -/
def beBytes (n v : Nat) : List Byte := (leBytes n v).reverse
def ofBeBytes (l : List Byte) : Nat := ofLeBytes l.reverse

/-- One bit step of the reflected CRC-32. -/
def crcBit (c : Word) : Word := if c.getLsbD 0 then (c >>> 1) ^^^ 0xEDB88320#32 else c >>> 1

/-- One byte step of the reflected CRC-32: least significant bit first (R547). -/
def crcByte (c : Word) (b : Byte) : Word := (List.range 8).foldl (fun x _ => crcBit x) (c ^^^ b.setWidth 32)

/-- The CRC of R547: polynomial 0x04C1_1DB7, bytes least significant bit first, initial value all ones, final complement. -/
def crc32 (bs : List Byte) : Word := ~~~(bs.foldl crcByte 0xFFFFFFFF#32)

/-- The CRC-16 of a Causeway frame: polynomial 0x1021, initial value 0xFFFF (R474). -/
def crcCwBit (c : Nat) : Nat := if 0x8000 ≤ c then (2 * c % 0x10000) ^^^ 0x1021 else 2 * c
def crcCw (bs : List Nat) : Nat := bs.foldl (fun c b => (List.range 8).foldl (fun x _ => crcCwBit x) (c ^^^ (256 * b))) 0xFFFF

/-- CRC of 32-bit words stored least significant byte first. -/
def crcWords (ws : List Word) : Word := crc32 (ws.flatMap fun w => leBytes 4 w.toNat)

/-- The entry of a sparse table, `d` where it lists none. -/
def Sparse.get {α : Type} (d : α) : List (Nat × α) → Nat → α
  | [], _ => d
  | (k, v) :: l, a => if k = a then v else Sparse.get d l a

/-- Insert before the first greater key. -/
def Sparse.insert {α : Type} (a : Nat) (v : α) : List (Nat × α) → List (Nat × α)
  | [] => [(a, v)]
  | (k, w) :: l => if a < k then (a, v) :: (k, w) :: l else (k, w) :: Sparse.insert a v l

/-- The table with entry `a` set to `v`; an entry equal to the default `d` is not listed. -/
def Sparse.put {α : Type} [DecidableEq α] (d : α) (l : List (Nat × α)) (a : Nat) (v : α) : List (Nat × α) :=
  let l' := l.filter fun e => e.1 != a
  if v = d then l' else Sparse.insert a v l'

/-- Keys strictly rise and no entry equals the default of its key: the one form a table can have. -/
def Sparse.wf {α : Type} [DecidableEq α] (d : Nat → α) : List (Nat × α) → Bool
  | [] => true
  | (k, v) :: l => decide (v ≠ d k) && (match l with | [] => true | (k', _) :: _ => decide (k < k')) && Sparse.wf d l

end Sys2Proof.Machine
end

