-- ==== Sys2Proof/Machine/Aes.lean ====
section
/-! DEFINITION. The codes of the media data path: GF(2^8) of R274, the erasure solution of R287, the guard of R298, and AES-256-XTS of R294
(FIPS 197 and IEEE 1619, which the spec names; assumption log 23). -/
namespace Sys2Proof.Machine

/-- Product in GF(2^8) with the primitive polynomial whose low byte is `p`. -/
def fieldMul (p a b : Byte) : Byte :=
  ((List.range 8).foldl (fun (x : Byte × Byte) k =>
    (if b.getLsbD k then x.1 ^^^ x.2 else x.1, if x.2.getLsbD 7 then (x.2 <<< 1) ^^^ p else x.2 <<< 1)) (0, a)).1

/-- GF(2^8) of R274: x^8 + x^4 + x^3 + x^2 + 1. -/
def gfMul (a b : Byte) : Byte := fieldMul 0x1D a b
def gfPow (a : Byte) : Nat → Byte
  | 0 => 1
  | n + 1 => gfMul a (gfPow a n)

/-- The inverse, a^254 = a^2 · a^4 · … · a^128. -/
def inv254 (mul : Byte → Byte → Byte) (a : Byte) : Byte :=
  ((List.range 7).foldl (fun (x : Byte × Byte) _ => (mul x.1 x.1, mul x.2 (mul x.1 x.1))) (a, 1)).2
def gfInv (a : Byte) : Byte := inv254 gfMul a

/-- α^k, α = 0x02. -/
def alpha (k : Nat) : Byte := gfPow 2 (k % 255)

/-- S_i over the members given, one column (R274). -/
def syndrome (i : Nat) (xs : List (Nat × Byte)) : Byte := xs.foldl (fun s e => s ^^^ gfMul (alpha (i * e.1)) e.2) 0

/-- Product of a polynomial (low coefficient first) with z + r. -/
def polyMulLin (p : List Byte) (r : Byte) : List Byte :=
  (List.range (p.length + 1)).map fun k => gfMul r (p.getD k 0) ^^^ (if k = 0 then 0 else p.getD (k - 1) 0)

/-- The coefficients by which the sums S'_0, S'_1, … give erased member `a` among `es`: those of the polynomial that is 1 at α^a and 0 at the
others (R287 for any number of erasures). -/
def eraseCoeffs (es : List Nat) (a : Nat) : List Byte :=
  let others := es.filter (· != a)
  let num := others.foldl (fun p b => polyMulLin p (alpha b)) [1]
  let den := others.foldl (fun d b => gfMul d (alpha a ^^^ alpha b)) 1
  num.map fun c => gfMul c (gfInv den)

/-- The byte of erased member `a`, from one column of the known members. -/
def eraseByte (es : List Nat) (coeffs : List Byte) (known : List (Nat × Byte)) : Byte :=
  (List.range es.length).foldl (fun x i => x ^^^ gfMul (coeffs.getD i 0) (syndrome i known)) 0

/-- Coded bytes of a member (R274). -/
def codedBytes : Nat := 4104

/-- The coded bytes of erased member `a` (R286, R287). -/
def eraseMember (es : List Nat) (a : Nat) (known : List (Nat × List Byte)) : List Byte :=
  let cs := eraseCoeffs es a
  (List.range codedBytes).map fun c => eraseByte es cs (known.map fun e => (e.1, e.2.getD c 0))

/-- The guard of R298: CRC-16, polynomial 0x8BB7, initial value 0. -/
def crc16Bit (c : BitVec 16) : BitVec 16 := if c.getLsbD 15 then (c <<< 1) ^^^ 0x8BB7#16 else c <<< 1
def guardCrc (bs : List Byte) : Nat :=
  (bs.foldl (fun (c : BitVec 16) (b : Byte) =>
    (List.range 8).foldl (fun x _ => crc16Bit x) (c ^^^ (BitVec.ofNat 16 (b.toNat * 256)))) (0 : BitVec 16)).toNat

/-- Protection information: guard, application tag, reference tag, each most significant byte first. -/
def piBytes (guard app ref : Nat) : List Byte := beBytes 2 guard ++ beBytes 2 app ++ beBytes 4 ref
def piGuard (p : List Byte) : Nat := ofBeBytes (p.take 2)
def piApp (p : List Byte) : Nat := ofBeBytes ((p.drop 2).take 2)
def piRef (p : List Byte) : Nat := ofBeBytes ((p.drop 4).take 4)

/-- AES's field and its S-boxes. -/
def aesMul (a b : Byte) : Byte := fieldMul 0x1B a b
def aesPow (a : Byte) : Nat → Byte
  | 0 => 1
  | n + 1 => aesMul a (aesPow a n)
def sbox (a : Byte) : Byte :=
  let b := inv254 aesMul a
  b ^^^ b.rotateLeft 1 ^^^ b.rotateLeft 2 ^^^ b.rotateLeft 3 ^^^ b.rotateLeft 4 ^^^ 0x63
def invSbox (a : Byte) : Byte := inv254 aesMul (a.rotateLeft 1 ^^^ a.rotateLeft 3 ^^^ a.rotateLeft 6 ^^^ 0x05)

/-- Bytewise exclusive or. -/
def xorBytes (a b : List Byte) : List Byte := List.zipWith (· ^^^ ·) a b

/-- The 60 round-key words of a 32-byte key. -/
def aesKeyWords (key : List Byte) : List (List Byte) :=
  let first := (List.range 8).map fun i => (key.drop (4 * i)).take 4
  (List.range 52).foldl (fun ws k =>
    let i := k + 8
    let t := ws.getD (i - 1) []
    let t := if i % 8 = 0 then xorBytes (((t.drop 1) ++ t.take 1).map sbox) [aesPow 2 (i / 8 - 1), 0, 0, 0]
      else if i % 8 = 4 then t.map sbox else t
    ws ++ [xorBytes (ws.getD (i - 8) []) t]) first

/-- Round key `r`. -/
def roundKey (ws : List (List Byte)) (r : Nat) : List Byte := ((ws.drop (4 * r)).take 4).flatten

/-- A permutation of the state by rows: row `r` shifted by `f r` columns. -/
def shiftRows (f : Nat → Nat) (s : List Byte) : List Byte := (List.range 16).map fun k => s.getD (4 * ((k / 4 + f (k % 4)) % 4) + k % 4) 0

/-- Columns multiplied by the circulant of `cs`. -/
def mixColumns (cs : List Byte) (s : List Byte) : List Byte := (List.range 16).map fun k =>
  (List.range 4).foldl (fun x j => x ^^^ aesMul (cs.getD ((j + 4 - k % 4) % 4) 0) (s.getD (4 * (k / 4) + j) 0)) 0

/-- The AES-256 cipher and its inverse on one block. -/
def aesEncrypt (ws : List (List Byte)) (b : List Byte) : List Byte :=
  (List.range 14).foldl (fun s k =>
    let t := shiftRows id (s.map sbox)
    xorBytes (if k = 13 then t else mixColumns [2, 3, 1, 1] t) (roundKey ws (k + 1))) (xorBytes b (roundKey ws 0))
def aesDecrypt (ws : List (List Byte)) (b : List Byte) : List Byte :=
  (List.range 14).foldl (fun s k =>
    let t := xorBytes ((shiftRows (fun r => 4 - r) s).map invSbox) (roundKey ws (13 - k))
    if k = 13 then t else mixColumns [14, 11, 13, 9] t) (xorBytes b (roundKey ws 14))

/-- The next tweak: times α in the field of XTS. -/
def xtsNext (t : List Byte) : List Byte :=
  let v := 2 * ofLeBytes t
  leBytes 16 (if v < 2 ^ 128 then v else (v - 2 ^ 128) ^^^ 0x87)

/-- Blocks of 16 bytes, whole ones first. -/
def blocks : Nat → List Byte → List (List Byte)
  | 0, _ => []
  | n + 1, l => if l.isEmpty then [] else l.take 16 :: blocks n (l.drop 16)

/-- One XTS block. -/
def xtsBlock (f : List Byte → List Byte) (t b : List Byte) : List Byte := xorBytes (f (xorBytes b t)) t

/-- XTS over blocks with stealing for a last partial one: in decryption the last two tweaks change places (`dec`). -/
def xtsGo (f : List Byte → List Byte) (dec : Bool) : List Byte → List (List Byte) → List Byte
  | _, [] => []
  | t, [b] => xtsBlock f t b
  | t, b :: p :: l =>
    if p.length < 16 then
      let cc := xtsBlock f (if dec then xtsNext t else t) b
      xtsBlock f (if dec then t else xtsNext t) (p ++ cc.drop p.length) ++ cc.take p.length
    else xtsBlock f t b ++ xtsGo f dec (xtsNext t) (p :: l)

/-- The tweak of R294: the namespace LBA in bytes 0 to 7, least significant first. -/
def xtsTweak (k2 : List Byte) (lba : Nat) : List Byte := aesEncrypt (aesKeyWords k2) (leBytes 16 (lba % 2 ^ 64))

/-- One data unit encrypted or decrypted under a key slot's 64 bytes, K1 then K2 (R294). -/
def xtsEncrypt (key : List Byte) (lba : Nat) (unit : List Byte) : List Byte :=
  xtsGo (aesEncrypt (aesKeyWords (key.take 32))) false (xtsTweak (key.drop 32) lba) (blocks 257 unit)
def xtsDecrypt (key : List Byte) (lba : Nat) (unit : List Byte) : List Byte :=
  xtsGo (aesDecrypt (aesKeyWords (key.take 32))) true (xtsTweak (key.drop 32) lba) (blocks 257 unit)

end Sys2Proof.Machine
end

