-- ==== Sys2Proof/Machine/Real.lean ====
section
/-! DEFINITION. Logarithms and circular functions of rational numbers, for the rules that give a value by them. No rule gives a precision: each is
computed to 2^-48 or better and rounded to that grid (assumption log 6). -/
namespace Sys2Proof.Machine

/-- Rounding to the nearest integer, halves away from zero. -/
def rnd (x : Rat) : Int := if x ≥ 0 then ⌊x + 1 / 2⌋ else -⌊-x + 1 / 2⌋

/-- A number on the grid of 2^-48. -/
def grid (x : Rat) : Rat := (rnd (x * 2 ^ 48) : Rat) / 2 ^ 48

/-- The sum of `t^(2k+1) / (2k+1)` for `k` below `n`: the inverse hyperbolic tangent. -/
def atanhSum (t : Rat) : Nat → Rat
  | 0 => 0
  | n + 1 => atanhSum t n + t ^ (2 * n + 1) / ((2 * n + 1 : Nat) : Rat)

/-- ln 2. -/
def ln2 : Rat := grid (2 * atanhSum (1 / 3) 20)

/-- ln of a number at least 1: `k` ln 2 and the logarithm of what is left, in 1 to 2. -/
def lnUp (x : Rat) : Rat :=
  let k := Nat.log2 ⌊x⌋.toNat
  let m := x / 2 ^ k
  (k : Rat) * ln2 + grid (2 * atanhSum (grid ((m - 1) / (m + 1))) 20)

/-- The natural logarithm; 0 of what is not positive. -/
def lnR (x : Rat) : Rat := if x ≤ 0 then 0 else if x < 1 then -lnUp (1 / x) else lnUp x

/-- log10. -/
def log10R (x : Rat) : Rat := lnR x / lnR 10

/-- π to 60 decimal places. -/
def piR : Rat := 3141592653589793238462643383279502884197169399375105820974944 / 10 ^ 60

/-- The sum of `(-1)^k x^(2k) / (2k)!` for `k` below `n`, from the last term inwards; `sinSum` likewise of the odd powers. -/
def cosSum (x2 : Rat) : Nat → Nat → Rat
  | 0, _ => 1
  | n + 1, k => 1 - x2 / (((2 * k + 1) * (2 * k + 2) : Nat) : Rat) * cosSum x2 n (k + 1)
def sinSum (x2 : Rat) : Nat → Nat → Rat
  | 0, _ => 1
  | n + 1, k => 1 - x2 / (((2 * k + 2) * (2 * k + 3) : Nat) : Rat) * sinSum x2 n (k + 1)

/-- cos and sin of `t` turns: `t` is taken modulo 1 and the angle reduced to an eighth of a turn either side of a quarter. -/
def cosQuarter (t : Rat) : Rat := let x := grid (2 * piR * t); grid (cosSum (grid (x * x)) 14 0)
def sinQuarter (t : Rat) : Rat := let x := grid (2 * piR * t); grid (x * sinSum (grid (x * x)) 14 0)
def cosR (t : Rat) : Rat :=
  let q := ⌊4 * t + 1 / 2⌋
  let r := t - (q : Rat) / 4
  match (q % 4).toNat with
  | 0 => cosQuarter r
  | 1 => -sinQuarter r
  | 2 => -cosQuarter r
  | _ => sinQuarter r
def sinR (t : Rat) : Rat := cosR (t - 1 / 4)

/-- acos(c) / 2π in turns, 0 to 1/2, by bisection of the falling cosine: `n` halvings. -/
def acosTurns (c : Rat) : Nat → Rat → Rat → Rat
  | 0, lo, _ => lo
  | n + 1, lo, hi =>
    let m := (lo + hi) / 2
    if cosR m ≥ c then acosTurns c n m hi else acosTurns c n lo m

end Sys2Proof.Machine
end

