-- ==== Sys2Proof/Machine/Traj.lean ====
section
/-! DEFINITION. The jerk-limited profile of R203 in least time, runout angles and notch sections (R203, R211, R212, R214, R215). Positions in tracks,
times in ms. No rule gives a precision: a value is computed on a grid of 2^-48 (assumption log 6). -/
namespace Sys2Proof.Machine

/-- Position, velocity and acceleration. -/
structure Kin where
  y : Rat := 0
  v : Rat := 0
  a : Rat := 0
  deriving DecidableEq, Repr, Inhabited

/-- The state after a time `t` of jerk `j`. -/
def Kin.go (k : Kin) (j t : Rat) : Kin :=
  { y := k.y + k.v * t + k.a * t ^ 2 / 2 + j * t ^ 3 / 6, v := k.v + k.a * t + j * t ^ 2 / 2, a := k.a + j * t }

/-- The state a time `t` into segments of jerk and duration. -/
def Kin.along (k : Kin) : List (Rat × Rat) → Rat → Kin
  | [], _ => k
  | (j, d) :: l, t => if t ≤ d then k.go j t else (k.go j d).along l (t - d)

/-- The duration of segments, and the state at their end. -/
def segTime (l : List (Rat × Rat)) : Rat := (l.map (·.2)).sum
def Kin.after (k : Kin) (l : List (Rat × Rat)) : Kin := l.foldl (fun k e => k.go e.1 e.2) k

/-- The square root of a number at least 0. -/
def sqrtR (x : Rat) : Rat := (Nat.sqrt ⌊x * 2 ^ 96⌋.toNat : Rat) / 2 ^ 48

/-- Segments with their jerks the other way. -/
def mirrored (l : List (Rat × Rat)) : List (Rat × Rat) := l.map fun e => (-e.1, e.2)

/-- The fall in least time from velocity `v` ≥ 0 (as it is once `a` has gone straight to 0) and acceleration `a` to rest: a pulse of negative acceleration
down to at most `am`. -/
def fallSegs (j am v a : Rat) : List (Rat × Rat) :=
  let m := max am (-a)
  let w := v + a * |a| / (2 * j)
  let p := sqrtR (max 0 (j * v + a ^ 2 / 2))
  if p ≤ m then [(-j, grid ((a + p) / j)), (j, grid (p / j))]
  else [(-j, (a + m) / j), (0, (w - m ^ 2 / j) / m + if a < 0 then a ^ 2 / j / m else 0), (j, m / j)]

/-- To rest from velocity `v` and acceleration `a` in least time. -/
def stopSegs (j am v a : Rat) : List (Rat × Rat) :=
  if v + a * |a| / (2 * j) ≥ 0 then fallSegs j am v a else mirrored (fallSegs j am (-v) (-a))

/-- Acceleration for a time `th`: jerk up to `am`, which then holds. -/
def pushSegs (j am a th : Rat) : List (Rat × Rat) :=
  let r := min th (max 0 ((am - a) / j))
  [(j, r), (0, th - r)]

/-- A push of `th` and then the way to rest. -/
def reach (j am v a th : Rat) : List (Rat × Rat) :=
  let p := pushSegs j am a th
  let k := ({ v, a } : Kin).after p
  p ++ stopSegs j am k.v k.a

/-- The push whose way to rest covers `d`, by `n` halvings of the times between `lo` and `hi`: the way grows with the push. -/
def findPush (j am v a d : Rat) : Nat → Rat → Rat → Rat
  | 0, lo, _ => lo
  | n + 1, lo, hi =>
    let m := (lo + hi) / 2
    if (({ v, a } : Kin).after (reach j am v a m)).y ≤ d then findPush j am v a d n m hi else findPush j am v a d n lo m

/-- The profile over a distance `d` no shorter than the way to rest: through the limit velocity `vm` where the distance allows, else with the push that fits. -/
def planUp (j am vm d v a : Rat) : List (Rat × Rat) :=
  let up := mirrored (stopSegs j am (vm - v) (-a))
  let down := stopSegs j am vm 0
  let k := ({ v, a } : Kin).after up
  let dv := k.y + (({ v := vm } : Kin).after down).y
  if dv ≤ d then up ++ (0, (d - dv) / vm) :: down
  else reach j am v a (findPush j am v a d 56 0 (grid (segTime up + 1 / 2 ^ 20)))

/-- The profile of R203: over distance `d` from velocity `v` and acceleration `a` to rest, in least time. -/
def plan (j am vm d v a : Rat) : List (Rat × Rat) :=
  if (({ v, a } : Kin).after (stopSegs j am v a)).y ≤ d then planUp j am vm d v a else mirrored (planUp j am vm (-d) (-v) (-a))

/-- The reference a time `t` into the profile towards `goal`; from its end on it is at rest there. -/
def profile (j am vm goal : Rat) (k : Kin) (t : Rat) : Kin :=
  let l := plan j am vm (goal - k.y) k.v k.a
  if segTime l ≤ t then { y := goal } else k.along l t

/-- Σ C_k cos(2π h n / 420) + S_k sin(2π h n / 420) of R211, rounded. -/
def rroSum (c s : List Int) (h : List Nat) (n : Nat) : Int :=
  let ang := fun h : Nat => ((h * n : Nat) : Rat) / 420
  rnd (List.zipWith (fun c h => (c : Rat) * cosR (ang h)) c h ++ List.zipWith (fun s h => (s : Rat) * sinR (ang h)) s h).sum

/-- The steps of R212: error, harmonic, wedge, phase, MU. -/
def rroAngle (h n ph : Nat) : Rat := ((h * n : Nat) : Rat) / 420 + (ph : Rat) / 1024
def rroStepC (e : Int) (h n ph mu : Nat) : Int := rnd (e * cosR (rroAngle h n ph) / 2 ^ (10 + mu))
def rroStepS (e : Int) (h n ph mu : Nat) : Int := rnd (e * sinR (rroAngle h n ph) / 2 ^ (10 + mu))

/-- The notch section of R215 for a frequency `f` of a wedge rate `fs` and the radius `rho` / 256: b0, b1, b2, a1, a2 in Q2.29. -/
def notchSection (f fs rho : Nat) : List Int :=
  let c := cosR ((f : Rat) / fs)
  let r := (rho : Rat) / 256
  let a1 := -2 * r * c
  let a2 := r ^ 2
  let k := (1 + a1 + a2) / (2 - 2 * c)
  [k, -2 * k * c, k, a1, a2].map fun x => rnd (x * 2 ^ 29)

/-- F_EST of R214 for c: the nearest whole Hz. -/
def notchFreq (c : Rat) (fs : Nat) : Nat := (rnd (fs * acosTurns c 40 0 (1 / 2))).toNat

end Sys2Proof.Machine
end

