-- ==== Sys2Proof/Config.lean ====
section
/-! DEFINITION. What an implementation fixes and the spec leaves open: free values. Each constant has no body, so no proof
can see what it is (assumption log 3). -/
namespace Sys2Proof

/-- The n-th free value a run consumes: a value the spec leaves open. -/
opaque Config.freeValue : Nat → Nat

/-- Row and shift constants of the LDPC code (Table 4.9 gives the register, not the constants). -/
opaque Config.ldpcRow : Nat → Nat
opaque Config.ldpcShift : Nat → Nat

/-- The event number within its kind that a subsystem assigns to an Almanac record (R548: published with the Keeper build). -/
opaque Config.almNumber : Nat → Nat → String → Nat

/-- The severity of a record whose kind has a range of typical severities (Table 21.2). -/
opaque Config.almSeverity : Nat → String → Nat

/-- The parameters P0 to P3 of a record, from its content, laid out by its code (R548). -/
opaque Config.almParam : String → List Nat → Nat → Nat

/-- INSTANCE: fixed at manufacture and unique to each part (R247). -/
opaque Config.splInstance : Nat

/-- The three duties for v_d, v_q and the angle (1/65,536 turn), the vector shortened to what the stage can produce, and whether it was (R223): the supply and
the modulation are not given. -/
opaque Config.focDuty : Int → Int → Nat → Nat → Nat
opaque Config.focShort : Int → Int → Bool

/-- d of R92 in 0.01 nm where A_1 or A_3 is 0, so that no logarithm exists: from A_1, A_3, LAMBDA and CREF. -/
opaque Config.spacing : Nat → Nat → Nat → Nat → Rat

/-- The logic die's identity in its HELLO (Table 17.6 names it and gives no value). -/
opaque Config.dieIdentity : Nat

/-- A byte of the VPD that nothing has written (R316: it is in device configuration, whose content the spec does not give). -/
opaque Config.vpdByte : Nat → Nat

end Sys2Proof
end

