-- ==== Sys2Proof/Machine/BlockState.lean ====
section
/-! DEFINITION. The state of each block that no register shows: queues, buffers, latches, machines in progress. Every type
is plain data. -/
namespace Sys2Proof.Machine

/-- What leaves the part: completions, interrupts and frames, newest first. `frame port kind args` is one frame or level
change on the named port, `data m v` a value returned to master `m`, `busError m` an error response to it. -/
inductive Out where
  | frame (port : String) (kind : String) (args : List Nat)
  | data (m : Nat) (v : Nat)
  | busError (m : Nat)
  | completion (port sqid cid : Nat) (sct sc : Nat) (dnr : Bool) (dw0 : Nat)
  | event (what : String) (args : List Nat)
  deriving DecidableEq, Repr

/-- Per-master latches of register accesses (R598, R599, R423): `hi` a latched high word, `lo` a held low word, keyed by
master and register word address. -/
structure AccessState where
  hi : List (Nat × Nat × Nat) := []
  lo : List (Nat × Nat × Nat) := []
  deriving DecidableEq, Repr, Inhabited

/-- An Almanac record as it enters staging (Table 21.1); `n` is its record number. -/
structure AlmRec where
  n : Nat
  code : Nat
  sev : Nat
  subsys : Nat
  keeper : Bool
  lost : Bool
  hours : Nat
  secs : Nat
  cycles : Nat
  p : List Nat
  deriving DecidableEq, Repr

/-- One Almanac reader: cursor, latched window, SKIP bit (R553, R554). -/
structure AlmReader where
  cursor : Nat := 0
  wroteAt : Option Nat := none
  window : List Nat := []
  skip : Bool := false
  deriving DecidableEq, Repr, Inhabited

/-- ALM and the always-on counters of domain 0 (R545, R549 to R556). -/
structure AlmState where
  staged : List AlmRec := []
  lostPending : Bool := false
  hours : Nat := 0
  secs : Nat := 0
  cycles : Nat := 0
  clearRemoved : Nat := 0
  scanned : Bool := false
  keeper : AlmReader := {}
  service : AlmReader := {}
  app : AlmReader := {}
  deriving DecidableEq, Repr, Inhabited

/-- What first-error capture records of an event (Table 20.2): master ID, TYPE, SIZE and ADDR. -/
structure FCap where
  mid : Nat
  typ : Nat
  size : Nat
  addr : Nat
  deriving DecidableEq, Repr

/-- FCU: sources whose escalation timer runs, with the tick of its expiry; the start of each window with the WIN it began under (R535); sources whose acknowledgement
starts a new ladder in the next tick (R537); the sampled level of each source and consecutive samples with agreeing rails
(R532, R536), the configuration registers whose two copies disagree and whether the disagreement persists (R541), the lines that
failed accesses of subsystems have raised since the last tick, with what they give to capture (R531, R534). -/
structure FcuState where
  timers : List (Nat × Nat) := []
  windows : List (Nat × Nat × Nat) := []
  again : List Nat := []
  asserted : List Nat := []
  equal : List (Nat × Nat) := []
  disagree : List Nat := []
  persistent : Bool := false
  late : List (Nat × FCap) := []
  deriving DecidableEq, Repr, Inhabited

/-- A mode named by a request (R496). -/
structure ModeReq where
  mode : Nat
  ilvl : Nat
  ret : Bool
  deriving DecidableEq, Repr

/-- PTM: the sequencer, the handshake log, the power-loss sequence, the voltage loop, the supply warning, LED0. `plStep` is the
step of Table 18.9 in progress, 0 outside the sequence; `plReset` marks one that FCU's DIRECT 3 started, `plReturn` inputs that
returned during it; `resetPend` a chip reset the Keeper requested, keeping DRAM or not, that waits for the armed shutdown test (R530). -/
structure PtmState where
  ticks : Nat := 0
  target : Option ModeReq := none
  retention : Bool := false
  savedSpd : Nat := 7200
  wasIdle : Nat := 0
  wakePend : Nat := 0
  bootAt : Nat := 0
  bootStopped : Bool := false
  resetPend : Option Bool := none
  powered : Bool := true
  hsw : List (Nat × Nat × Nat) := []
  plStep : Nat := 0
  plReset : Bool := false
  plArmed : Bool := false
  plAt : Nat := 0
  plReturn : Bool := false
  plUnits : Nat := 0
  nresetHeld : Bool := false
  marginHigh : Nat := 0
  emerUsed : Bool := false
  granted : Nat := 4
  led0 : Bool := false
  led0At : Nat := 0
  hbCount : Nat := 0
  hbNext : Nat := 0
  causeAt : Nat := 0
  hotAt : Nat := 0
  releaseAt : Nat := 0
  wakeDue : Bool := false
  psOp : Nat := 0
  dramTraining : Nat := 0
  vpre : Bool := false
  seqStep : Nat := 0
  loads : List Nat := []
  deriving DecidableEq, Repr, Inhabited

/-- A region of the protection checker in use (R430). -/
structure Region where
  base : Nat
  limit : Nat
  en : Bool
  dbgg : Bool
  x : Bool
  w : Bool
  r : Bool
  midLo : Nat
  midHi : Nat
  deriving DecidableEq, Repr

/-- A core cache maintenance operation: its master's latched registers and progress (R423). -/
structure CmoLatch where
  master : Nat
  addr : Nat
  op : Nat
  lines : Nat
  busy : Bool
  err : Bool
  deriving DecidableEq, Repr

/-- An L2 line of the application cores: its line address, bytes, whether it is dirty, whether its fill found write permission (R431). -/
structure CoreLine where
  line : Nat
  bytes : List Byte
  dirty : Bool := false
  w : Bool := true
  deriving DecidableEq, Repr

/-- PCX: regions in use, cache lines of the application cores, maintenance, NMI, Keeper restart (R418 to R442). -/
structure PcxState where
  regions : List (Nat × Region) := []
  l2 : List CoreLine := []
  l1 : List (Nat × Nat) := []
  storeBuf : List (Nat × Nat × Byte) := []
  cmo : List CmoLatch := []
  nmiHeld : Bool := false
  keeperPc : Nat := 0
  kprStart : Nat := 0
  mcycle : Nat := 0
  trap : List (Nat × Nat × Nat) := []
  deriving DecidableEq, Repr, Inhabited

/-- A relay exchange (R461): the member at the other end, its identifier, the fragments got so far of `total`, for a request of this
member the channel it was posted on, and when it began. -/
structure RelayCall where
  peer : Nat
  xid : Nat
  total : Nat
  chunks : List (Nat × List Nat) := []
  chan : Nat := 6
  time : Nat
  deriving DecidableEq, Repr

/-- One part of a firmware slot (R463 to R467). -/
structure FwPart where
  slot : Nat
  part : Nat
  valid : Bool
  active : Bool
  svn : Nat
  ver : Nat
  deriving DecidableEq, Repr

/-- A sealed copy of the map and the zone table in the Ephemeris (R58): its place of the two, its sequence number, the CRC-32 that seals it, the
bytes it expands into; how they are compressed is internal to the Keeper. -/
structure MapCopy where
  place : Nat
  seq : Nat
  crc : Nat
  bytes : List Byte
  deriving DecidableEq, Repr

/-- A posted request: its channel, the tick of its post, the ticks that restarts of the Keeper had taken by then, and its expired timeouts (R453, R454). -/
structure FerryPosted where
  chan : Nat
  tick : Nat
  lost : Nat
  takeTmo : Bool := false
  doneTmo : Bool := false
  deriving DecidableEq, Repr

/-- A channel's change of state, the tick it was made in, and what a CANCEL in that tick took away: ERR and the post (R449). -/
structure FerryMove where
  chan : Nat
  tick : Nat
  undo : Option (Nat × FerryPosted) := none
  deriving DecidableEq, Repr

/-- Ferry and the Keeper's services: posted requests, oldest first (R453), the last change of each channel (R449), TAKEN channels in order, the ticks of the Keeper's restarts (R454); live nonces by channel (R460); firmware parts, the parts
that become active at the next chip reset, minimum SVNs (R463 to R467); the key vault's keys by namespace entry (R297); the relay agent (R461): pushes, requests of others and of its own, the exchange on channel 6, frames to send;
commands TAKEN that wait (channel, kind, data); and what device configuration and the Ephemeris hold: the repair table, calibration
results by entry in their targets' formats, SVC_BOOT, FACTORY,
register values that BOOT reloads, the lap count, the counters' copy, VSN_MARK, the map copies, the VPD. -/
structure KprState where
  posted : List FerryPosted := []
  moves : List FerryMove := []
  taken : List Nat := []
  restartTicks : Nat := 0
  nonces : List (Nat × Nat × List Nat) := []
  parts : List FwPart := []
  fwNext : List (Nat × Nat) := []
  vault : List (Nat × List Byte) := []
  minSvn : List (Nat × Nat) := []
  relayCfg : Nat := 0
  relayIn : List RelayCall := []
  relayOut : List RelayCall := []
  relayNow : Option (Nat × Nat) := none
  relaySeq : Nat := 0
  relayTx : List (Nat × List Nat) := []
  waiting : List (Nat × Nat × Nat) := []
  failedSince : List (Nat × Nat) := []
  repairTable : List (Nat × Nat) := []
  calVals : List (Nat × List Nat) := []
  svcBoot : Bool := false
  factory : Bool := false
  bootRegs : List (Nat × Nat) := []
  lap : Nat := 0
  vsnMark : Nat := 0
  hoursCopy : Nat := 0
  secsCopy : Nat := 0
  cyclesCopy : Nat := 0
  mapSeq : Nat := 0
  mapCopies : List MapCopy := []
  vpd : List (Nat × Nat) := []
  deriving DecidableEq, Repr, Inhabited

/-- SVC: patrol cursors, Survey slice in progress, spare rows in use, calibration run. -/
structure SvcState where
  drCursor : Nat := 0
  srInst : Nat := 0
  srRow : Nat := 0
  mrCursor : Nat := 0
  svyInst : Nat := 0
  svyRow : Nat := 0
  locked : Bool := false
  abandons : Nat := 0
  full : Bool := false
  fInst : Nat := 0
  fRow : Nat := 0
  prevState : Nat := 0
  unread : List Nat := []
  failedRows : List (Nat × Nat) := []
  repairs : List (Nat × Nat) := []
  calActive : Bool := false
  calClass : Nat := 0
  calItem : Nat := 0
  calHead : Nat := 0
  calInTol : Nat := 0
  calLast : Nat := 0
  calSaved : List (Nat × Nat) := []
  calTrims : List (Nat × List Nat) := []
  trims : List (Nat × List Nat) := []
  calStart : Nat := 0
  leakAt : List (Nat × Nat) := []
  sliceAt : Nat := 0
  sliceEnd : Nat := 0
  deriving DecidableEq, Repr, Inhabited

/-- A media sector a writer handles. -/
structure SecInfo where
  row : Nat
  j : Nat
  path : Nat
  head : Nat
  tag : Nat
  track : Nat
  deriving DecidableEq, Repr

/-- One writer of WRC (R149 to R173). -/
structure Writer where
  pass : Bool := false
  ready : Bool := false
  head : Nat := 0
  zone : Nat := 0
  path : Nat := 0
  liveSet : Option (Nat × Nat) := none
  params : List Word := []
  sector : Option SecInfo := none
  last : Option (SecInfo × Nat) := none
  completed : Bool := false
  queue : List SecInfo := []
  powerLoss : Bool := false
  assist : Bool := false
  monHigh : Nat := 0
  monLow : Nat := 0
  drvInit : Nat := 0
  loading : Bool := false
  waitAck : Bool := false
  rate : Nat := 0
  deriving DecidableEq, Repr, Inhabited

/-- A member in a writer's sector buffer (R153): its row, number and media tag, and the bytes that MPC supplied, user bytes and internal bytes 0 to 11. -/
structure HeldSector where
  row : Nat
  j : Nat
  tag : Nat
  bytes : List Byte
  deriving DecidableEq, Repr

/-- A row being written: members completed, the time of the last postamble, and the members with a NEIGHBOUR entry (R171). -/
structure RowProgress where
  row : Nat
  done : List Nat
  lastEnd : Nat
  neighbour : List Nat
  deriving DecidableEq, Repr

/-- WRC: writers, those whose powering waits for a grant (R485), sector buffers, live write-unsafe sources, heater codes, verify statistics; members to be
verified (row and member), members with an entry of an interruption, rows reported written for SAMPLE (R171, R172). -/
structure WrcState where
  writers : List (Nat × Writer) := []
  rising : List Nat := []
  buffer : List HeldSector := []
  due : List (Nat × Nat) := []
  again : List (Nat × Nat) := []
  sampled : Nat := 0
  offtrack : List Nat := []
  preamp : List Nat := []
  shock : Bool := false
  forewarn : Bool := false
  supply : Bool := false
  safe : Bool := false
  heater : List (Nat × Nat) := []
  clearance : List (Nat × Int × Nat) := []
  pend : List (Nat × Nat × Nat) := []
  rows : List RowProgress := []
  verify : List (Nat × Nat × Nat × Nat) := []
  trim : List (Nat × Int) := []
  cleared : List (Nat × Nat) := []
  tags : List (Nat × Nat) := []
  grants : List (Nat × Nat) := []
  waiting : List (Nat × Nat) := []
  deriving DecidableEq, Repr, Inhabited

--BEGIN Hif
/-- An NVMe submission queue of a controller (R309, R313): entries the host has made available lie from `head` to `tail`. -/
structure SubQ where
  id : Nat
  size : Nat
  cq : Nat
  prio : Nat := 0
  head : Nat := 0
  tail : Nat := 0
  deleting : Bool := false
  deleter : Nat := 0
  deriving DecidableEq, Repr, Inhabited

/-- A completion queue (R312, R313): entries not yet freed lie from `head` to `tail`; `held` waits in the part for room. -/
structure ComQ where
  id : Nat
  size : Nat
  vector : Nat := 0
  ien : Bool := true
  head : Nat := 0
  tail : Nat := 0
  phase : Bool := true
  held : List Out := []
  coalesced : Nat := 0
  heldAt : Nat := 0
  deriving DecidableEq, Repr, Inhabited

/-- A host port and its controller (R302 to R319, R341, R342): `en` CC.EN, `rdy` CSTS.RDY, `shst` CSTS.SHST, `pp` CSTS.PP, `cfs`
CSTS.CFS, `shn` the sequence number at a normal shutdown notification. -/
structure Port where
  perst : Bool := false
  l2 : Bool := false
  en : Bool := false
  rdy : Bool := false
  resetting : Bool := false
  abrupt : Bool := false
  shst : Nat := 0
  shn : Option Nat := none
  pp : Bool := false
  cfs : Bool := false
  sqs : List SubQ := []
  cqs : List ComQ := []
  features : List (Nat × Nat) := []
  aers : List (Nat × Nat) := []
  wrr : Bool := false
  arbLast : List Nat := [0, 0, 0, 0]
  arbQ : Nat := 0
  burst : Nat := 0
  credit : List Nat := [0, 0, 0]
  deriving DecidableEq, Repr, Inhabited

/-- HIF: the two ports, NVMe-MI configuration, SAS mode pages. -/
structure HifState where
  ports : List (Nat × Port) := []
  miConfig : List (Nat × Nat) := []
  modePages : List (Nat × Nat) := []
  deriving DecidableEq, Repr, Inhabited
--END Hif

--BEGIN Cqe
/-- One LBA of a held read (R327): 0 waits on an earlier write, 1 comes from the medium, 2 sent, 3 unrecovered, 4 in the unreadable list. `slot`: its
entry in the slot list (R381). `unw`: MPC delivered it as unwritten (R301). `stale`: a version
has entered since the snapshot (R390). -/
structure CmdLba where
  st : Nat
  stale : Bool := false
  slot : Option Nat := none
  unw : Bool := false
  deriving DecidableEq, Repr, Inhabited

/-- A held command (R322, Table 12.11). `kind` as KIND. `started`: a write's data transfer has started; `arrived`: its data is in the
buffer; `silent`: its completion is not to be reported (R341); `want`: a reason to hand it off; `handed`, `consumed`: its hand-off
entry was written, and read by firmware. -/
structure Cmd where
  ctag : Nat
  port : Nat
  nexus : Nat := 0
  sqid : Nat
  cid : Nat
  kind : Nat
  sqe : List Nat := []
  nsid : Nat := 0
  ns : Option Nat := none
  lba : Nat := 0
  n : Nat := 0
  fua : Bool := false
  zero : Bool := false
  seq : Nat
  time : Nat
  slots : List Nat := []
  started : Bool := false
  arrived : Bool := false
  lbas : List CmdLba := []
  sent : Bool := false
  unrec : Option Nat := none
  prinfo : Nat := 0
  reftag : Nat := 0
  apptag : Nat := 0
  appmask : Nat := 0
  silent : Bool := false
  want : Option Nat := none
  handed : Bool := false
  resumed : Bool := false
  hq : Nat := 0
  adm : Bool := false
  ordered : Bool := false
  lun : Nat := 0
  deriving DecidableEq, Repr, Inhabited

/-- A version in the buffer (R327 to R330, R382, R509): a LBA of a write, its slot; in the budget with its journal block; on the
medium, itself or a newer one. -/
structure Ver where
  ns : Nat
  lba : Nat
  seq : Nat
  slot : Nat
  inBudget : Bool := false
  block : Option Nat := none
  medium : Bool := false
  deriving DecidableEq, Repr, Inhabited

/-- A zone of a zoned namespace not in its reset state: state 1 empty, 2 implicitly open, 3 explicitly open, 4 closed, 14 full,
15 offline, the write pointer as an offset in the zone, the fetch sequence number of the last Reset (R311). -/
structure Zone where
  st : Nat := 1
  wp : Nat := 0
  rst : Option Nat := none
  deriving DecidableEq, Repr, Inhabited

/-- CQE: held commands, overlay index, hand-off queue, latched DW0, destage accounting, activation, zones, unreadable LBAs, free
extents (base and length in units of 256 rows, KGEN_HI, GEN_CNT; R351), and of each namespace entry its KGEN, the GEN_CNT of its rows and its
cryptographic erasures (R297, R351). `inner`: tracks whose rows firmware has registered as internal operations (R63, R75, R278); `rebuilt`: row
and member of rebuilds that wait for their write (R75); `owed`: row, member and version (namespace, LBA, sequence number) of members that a written
row's parity alone covers, until the rebuild writes them (R72). -/
structure CqeState where
  cmds : List Cmd := []
  nextSeq : Nat := 0
  overlay : List Ver := []
  handQ : List Nat := []
  dw0 : List (Nat × Nat) := []
  destaged : Nat := 0
  lastFrame : Nat := 0
  admitted : Nat := 0
  actAt : Nat := 0
  activating : Bool := false
  swapped : Bool := false
  zones : List ((Nat × Nat) × Zone) := []
  unreadable : List (Nat × Nat) := []
  extents : List (Nat × Nat × Nat × Nat) := []
  gens : List (Nat × Nat × Nat × Nat) := []
  inner : List Nat := []
  rebuilt : List (Nat × Nat) := []
  owed : List (Nat × Nat × Nat × Nat × Nat) := []
  side : Nat := 0
  fetched : Nat × Nat := (0, 0)
  grantAt : List (Nat × Nat) := []
  media : List (Nat × Nat × Nat × Bool) := []
  deriving DecidableEq, Repr, Inhabited
--END Cqe

--BEGIN Bmu
/-- A line of the buffer cache (R366 to R377). Memory holds what a read returns; `old` is what DRAM holds under a dirty line. -/
structure CLine where
  way : Nat
  dirty : Bool := false
  old : List Byte := []
  deriving DecidableEq, Repr, Inhabited

/-- An eviction-buffer entry (R372). -/
structure EvEntry where
  line : Nat
  old : List Byte
  deriving DecidableEq, Repr, Inhabited

/-- A stream tracker (R373), most recently used first. -/
structure Tracker where
  cls : Nat
  next : Nat
  run : Nat
  deriving DecidableEq, Repr, Inhabited

/-- A content-cache frame tag (R387): its namespace entry and extent, the valid LBAs, the reference bit. -/
structure Frame where
  ns : Nat
  ext : Nat
  valid : List Nat := []
  ref : Bool := false
  deriving DecidableEq, Repr, Inhabited

/-- A check line in the check cache (R362): its channel and number there, the groups of eight check bytes it holds, whether DRAM lacks some of them. -/
structure CheckLine where
  chan : Nat
  k : Nat
  groups : List (Nat × List Byte) := []
  dirty : Bool := false
  deriving DecidableEq, Repr, Inhabited

/-- BMU: cache lines by line address, pseudo-LRU bits by set, eviction buffer, trackers, poisoned halves, ways being cleaned, the
maintenance operation in progress (OP, first line, lines), rows of ways out of use (R527), frame hits
not yet counted, slots in use, writes waiting for the budget in the order their data completed, content cache (frames,
clock hand, popularity, LBAs waiting to be filled, the tick of the last halving), check lines in the check cache, most recently used first, and
the check region by channel and check line (R362). -/
structure BmuState where
  lines : List (Nat × CLine) := []
  lru : List (Nat × Nat) := []
  evb : List EvEntry := []
  trackers : List Tracker := []
  poison : List Nat := []
  cleaning : List Nat := []
  mnt : Option (Nat × Nat × Nat) := none
  excluded : List (Nat × Nat) := []
  hits : Nat := 0
  used : List Nat := []
  budgetQ : List Nat := []
  frames : List (Nat × Frame) := []
  hand : Nat := 0
  pop : List (Nat × Nat) := []
  fills : List (Nat × Nat × Nat × Nat) := []
  agedAt : Nat := 0
  checks : List CheckLine := []
  checkMem : List (Nat × Nat × List Byte) := []
  checkOff : List Nat := []
  deriving DecidableEq, Repr, Inhabited
--END Bmu

--BEGIN Dmf
/-- A DMA channel (R394 to R415): `mark` is when it took its engine, last completed a burst or was suspended (R410, R413); held bytes, the address of its active descriptor (none for a shadow set), when it became READY, whether
the access to come is a descriptor fetch or a write-back, an ABORT waiting for a burst boundary, whether its page request was raised to FCU. -/
structure Chan where
  held : List Byte := []
  descAddr : Option Nat := none
  since : Nat := 0
  fetching : Bool := false
  writeback : Bool := false
  aborting : Bool := false
  prqRaised : Bool := false
  mark : Nat := 0
  deriving DecidableEq, Repr, Inhabited

/-- An IOTLB entry (R408): ASID, global, virtual page, its size in bits, the leaf PTE. -/
structure Iotlb where
  asid : Nat
  glob : Bool
  vpn : Nat
  bits : Nat
  pte : Nat
  deriving DecidableEq, Repr, Inhabited

/-- DMF: channels, IOTLB, the bytes waiting on the two MPC stream ports (R399), the ranges of memory, first byte and the byte after the last, that bytes from
port 1 have been written to for reads that have not been sent (R30), a count of arbitration steps. -/
structure DmfState where
  ch : List (Nat × Chan) := []
  iotlb : List Iotlb := []
  port0 : List Byte := []
  port1 : List Byte := []
  landed : List (Nat × Nat) := []
  steps : Nat := 0
  deriving DecidableEq, Repr, Inhabited
--END Dmf

--BEGIN Mpc
/-- A member held by a reconstruction context (R284 to R288): 1 usable, 2 SOFT, 3 ERASED. -/
structure CtxMember where
  j : Nat
  st : Nat
  bytes : List Byte := []
  rel : List Nat := []
  deriving DecidableEq, Repr, Inhabited

/-- A reconstruction context (R284 to R293): its row, whether a rebuild request opened it, members held, members handed off
(0 from a ladder, 1 without one, 2 by a rebuild request), whether it has begun, whether its accumulators are on die, whether a solve has failed. -/
structure RCtx where
  row : Nat
  rebuild : Bool
  members : List CtxMember := []
  handed : List (Nat × Nat) := []
  failed : Bool := false
  begun : Bool := false
  onDie : Bool := true
  deriving DecidableEq, Repr, Inhabited

/-- An encode slot (R279 to R281): its row and tag, the members encoded (number, ciphertext and metadata, the version written), whether
it lies on die, whether its parity is ready, the parity members. -/
structure EncSlot where
  k : Nat
  row : Nat
  tag : Nat
  members : List (Nat × List Byte) := []
  vers : List (Nat × Nat × Nat) := []
  ready : Bool := false
  parity : List (Nat × List Byte) := []
  deriving DecidableEq, Repr, Inhabited

/-- MPC: key material by slot, contexts, encode slots, event log, usable members of rows being read whole in this pass (R283). -/
structure MpcState where
  keys : List (Nat × List Byte) := []
  ctxs : List (Nat × RCtx) := []
  enc : List EncSlot := []
  log : List Nat := []
  gather : List (Nat × List (Nat × List Byte)) := []
  deriving DecidableEq, Repr, Inhabited
--END Mpc

--BEGIN Rdc
/-- A ladder of a head path (R132 to R146): its capture slot, its sector, what it latched at its start, its position and
re-read within the level, its L1 job, the times of its last read and of the read of its best attempt, whether a re-read is under way, the sum of the
LLRs of the level's re-reads, the best attempt (UNSAT, ITER) and the hand-off to MPC. -/
structure Ladder where
  slot : Nat
  row : Nat
  j : Nat
  head : Nat
  track : Nat
  p0 : Bool
  order : Nat
  l1Iter : Nat
  ofs : Nat
  l6n : Nat
  captured : Bool
  time : Nat
  bestTime : Nat
  sum : List Int := []
  pos : Nat := 0
  sub : Nat := 0
  l1 : Bool := false
  cause : Nat := 0
  best : Option (Nat × Nat) := none
  pay : List Nat := []
  handed : Bool := false
  passed4 : Bool := false
  begun : Bool := false
  rebuilt : Bool := false
  deriving DecidableEq, Repr, Inhabited

/-- A command frame on a preamp link that has no ACK yet, and the tick at which it was last sent (R108). -/
structure PalCmd where
  act : Nat
  typ : Nat
  payload : Nat
  resends : Nat := 0
  since : Nat := 0
  deriving DecidableEq, Repr, Inhabited

/-- One bit behind the equaliser (R86): the readers' partial sums and the samples under their taps. -/
structure EqBit where
  y0 : Rat
  y1 : Rat
  w0 : List Rat
  w1 : List Rat
  deriving DecidableEq, Repr, Inhabited

/-- A sync mark found (R119): its end's offset from the nominal position, and its differing bits. -/
structure Mark where
  pos : Int
  diff : Nat
  deriving DecidableEq, Repr

/-- A sector that a head path is reading (R81 to R91, R119 to R125): channel bits taken, samples after baseline correction, tentative decisions,
equalised bits, branch metrics, forward metrics, detector outputs and decisions, each newest first; marks found; whether lock was lost; the gain loop's
sums. -/
structure Run where
  n : Nat := 0
  x0 : List Rat := []
  x1 : List Rat := []
  d : List Bool := []
  eq : List EqBit := []
  bm : List (List Rat) := []
  alpha : List (List Rat) := []
  lam : List Rat := []
  dec : List Bool := []
  m1 : Option Mark := none
  m2 : Option Mark := none
  lost : Bool := false
  sumY : Rat := 0
  sumZ : Rat := 0
  deriving DecidableEq, Repr, Inhabited

/-- RDC: live-set tags, writes held pending (R98), noise-predictor words, tap accumulator bits below COEF, the clearance
estimates, lanes whose loss waits for a boundary, ladders, live counters (R147), members that ended unrecovered and CQE has not yet
taken, preamp links, and the head paths whose unfinished reads of their present pass are erased, with the CAUSE (R49, R72, R139). Further: the sectors
being read and the ladder slot that a re-read serves; writes made while a path was not ACTIVE, which its next load does not override (R99); loads not
complete; SR_SEL as of the last boundary; paths whose readers are selected; L1 jobs in order of arrival (R135); clipped samples not yet counted; wanted members
sent to MPC unread (R139); the WR_CUR, WR_OS and HTR_SET values last acknowledged (R159). -/
structure RdcState where
  tag : List (Nat × Nat × Nat) := []
  pend : List (Nat × Nat × Nat) := []
  np : List (Nat × Nat) := []
  npPend : List (Nat × Nat) := []
  tapLow : List (Nat × Nat) := []
  base : List (Nat × Rat) := []
  freq : List (Nat × Rat) := []
  phase : List (Nat × Rat) := []
  clr : List (Nat × Rat) := []
  losing : List Nat := []
  bothTrack : List (Nat × Nat) := []
  bothReady : List Nat := []
  readAny : List Nat := []
  ladders : List (Nat × Ladder) := []
  hst : List (Nat × Nat) := []
  cmds : List PalCmd := []
  unrec : List (Nat × Nat) := []
  lastUse : List (Nat × Nat) := []
  erased : List (Nat × Nat) := []
  run : List (Nat × Run) := []
  sector : List Nat := []
  reread : List (Nat × Nat) := []
  early : List (Nat × Nat × Nat) := []
  loading : List Nat := []
  srSel : List (Nat × Nat) := []
  rdOn : List Nat := []
  l1q : List Nat := []
  clip : List (Nat × Nat) := []
  lost : List (Nat × Nat) := []
  acked : List (Nat × Nat) := []
  deriving DecidableEq, Repr, Inhabited
--END Rdc

/-- A control-law context: filter states (58 fraction bits), whether its last execution was in AUTO, its waiting trigger, its
feedforward (R176 to R181). -/
structure Ctx where
  s1 : List Int := []
  s2 : List Int := []
  wasAuto : Bool := false
  trig : Option Int := none
  ff : Int := 0
  deriving DecidableEq, Repr, Inhabited

/-- What one execution of a context yields (R176, R179, R180). -/
structure ExecResult where
  out : Int := 0
  i : Int := 0
  s1 : List Int := []
  s2 : List Int := []
  clampI : Bool := false
  clampO : Bool := false
  secSat : Bool := false
  deriving DecidableEq, Repr, Inhabited

/-- An execution under way: its context, its input, its mode, the MAN it holds or loads, the wedge it belongs to, its result; `live` until the context is stopped
(R177, R180, R181, R187). -/
structure CtxRun where
  k : Nat
  e : Int := 0
  auto : Bool := false
  man : Option Int := none
  wedge : Nat := 0
  res : ExecResult := {}
  live : Bool := true
  deriving DecidableEq, Repr, Inhabited

/-- A seek of one actuator (R201 to R210). Positions are logical tracks times 65,536. The profile in force starts at `y0`, `v0`, `a0` towards `goal` within
the limits `lim`, `step` wedges ago; `first` until the first wedge after the command, `since` the tick at which the present load or unload began. -/
structure Seek where
  track : Int := 0
  slots : Nat := 0
  wr : Bool := false
  yT : Int := 0
  yRef : Int := 0
  vRef : Int := 0
  aRef : Int := 0
  y0 : Int := 0
  v0 : Int := 0
  a0 : Int := 0
  goal : Int := 0
  step : Nat := 0
  lim : List Nat := []
  first : Bool := false
  yMeas : Int := 0
  counts : List Nat := []
  settleWedges : Nat := 0
  tries : Nat := 0
  detect : Nat := 0
  sub : Nat := 0
  unloading : Bool := false
  ramp : Bool := false
  reload : Bool := false
  since : Nat := 0
  deriving DecidableEq, Repr, Inhabited

/-- What SVE holds of a head path's target, from the map record read at the start of its pass (R54, R190). -/
structure PathTgt where
  head : Nat := 0
  band : Nat := 0
  zone : Nat := 0
  target : Int := 0
  trkOfs : Int := 0
  bias : Int := 0
  tp : Nat := 0
  deriving DecidableEq, Repr, Inhabited

/-- A learned runout set (R211 to R213). -/
structure RroSet where
  tag : Option (Nat × Nat) := none
  c : List Int := []
  s : List Int := []
  learned : Bool := false
  deriving DecidableEq, Repr, Inhabited

/-- A notch tracker's estimator (R214, R215). -/
structure Notch where
  c : Rat := 0
  p : Rat := 0
  x1 : Int := 0
  x2 : Int := 0
  y1 : Rat := 0
  y2 : Rat := 0
  atBound : Bool := false
  deriving DecidableEq, Repr, Inhabited

/-- Vibration feedforward of an actuator (R216). -/
structure Vff where
  s1 : List Int := []
  s2 : List Int := []
  out : Int := 0
  deriving DecidableEq, Repr, Inhabited

/-- Drift observation of a head path in its present visit to a band (R59, R60): a visit ends when the path's target leaves the band. -/
structure Drift where
  band : Nat := 0
  bf : Rat := 0
  revs : Nat := 0
  sum : Int := 0
  n : Nat := 0
  logged : List Nat := []
  deriving DecidableEq, Repr, Inhabited

/-- A pass of an actuator (R70 to R72): its issuer (0 the fast path, 1 application firmware), the head paths selected (the head that serves
each is latched in its target), whether it must end, the tracks whose registration as internal operations ends with it. -/
structure Pass where
  issuer : Nat
  track : Nat
  band : Nat
  write : Bool
  paths : List Nat
  ending : Bool
  release : List Nat
  start : Nat := 0
  reads : Bool := true
  deriving DecidableEq, Repr

/-- SVE: contexts, active coefficient banks, active set, seeks, learned runout, notches, feedforward, drift, passes. `unreach` holds the bands
(actuator, band) with an UNREACH event that the Keeper has not yet marked in their headers (R62), `extraLogged` those whose extra passes have their
record of this hour (R64). -/
structure SveState where
  ctx : List (Nat × Ctx) := []
  waiting : List Nat := []
  running : List (Nat × CtxRun) := []
  rejoin : List Nat := []
  bank : List (Nat × Nat) := []
  active : List Nat := []
  tgt : List (Nat × PathTgt) := []
  seek : List (Nat × Seek) := []
  wedgeGot : List (Nat × Int × Int) := []
  wedgeDone : List Nat := []
  wedgeTrk : List (Nat × Int) := []
  wedgePred : List (Nat × Nat) := []
  actMiss : List (Nat × Nat) := []
  setPt : List (Nat × Int) := []
  setPtNew : List (Nat × Int) := []
  setPtOld : List (Nat × Int) := []
  rampTick : List (Nat × Nat) := []
  uAck : List (Nat × Int) := []
  maUnack : List (Nat × Nat) := []
  retract : List Nat := []
  rro : List (Nat × RroSet) := []
  rroLoad : List (Nat × Nat × Nat) := []
  notch : List (Nat × Notch) := []
  vff : List (Nat × Vff) := []
  vgHigh : Nat := 0
  vgLow : Nat := 0
  nbr : Nat := 0
  fwReported : Bool := false
  shkSeen : Nat := 0
  drift : List (Nat × Drift) := []
  log : List (Nat × Nat × Nat × Int × Int) := []
  unreach : List (Nat × Nat) := []
  extraLogged : List (Nat × Nat) := []
  pass : List (Nat × Pass) := []
  deriving DecidableEq, Repr, Inhabited

--BEGIN Spn
/-- SPN (chapter 8): contexts, active banks and commits waiting; start-up; set-points; counters; the Orrery. Speeds are in
1/256 rpm, the set-point in 1/25600 rpm, open-loop speed in 1/4800 rpm, Δω in 1/100000 rpm. -/
structure SpnState where
  ctx : List (Nat × Ctx) := []
  bank : List (Nat × Nat) := []
  rotor : Nat := 0
  attempts : Nat := 0
  startPend : Bool := false
  peaks : List Nat := []
  badSets : Nat := 0
  aligning : Bool := false
  angle : Nat := 0
  olSpeed : Nat := 0
  agree : Nat := 0
  lastDelta : Rat := 0
  lastTheta : Nat := 0
  spoiled : Bool := false
  hoPeriods : Nat := 0
  catchPeriods : Nat := 0
  lossPeriods : Nat := 0
  lossPhase : Nat := 0
  samp : List Int := []
  idStart : Int := 0
  idLeft : Nat := 0
  iq : Int := 0
  limStart : Int := 0
  limFrames : Nat := 0
  setPt : Nat := 0
  spdPend : Option Nat := none
  inTol : Nat := 0
  inHalf : Nat := 0
  dw : Int := 0
  orrIn : Nat := 0
  orrOut : Nat := 0
  indexNew : Bool := false
  since : Nat := 0
  deriving DecidableEq, Repr, Inhabited
--END Spn

--BEGIN Pwr
/-- A register access over the Causeway that has no answer yet, and the tick of its first frame (R476). -/
structure CwAccess where
  tag : Nat
  master : Nat
  write : Bool
  offset : Nat
  value : Nat
  resent : Bool := false
  since : Nat := 0
  deriving DecidableEq, Repr, Inhabited

/-- The power die (Table 17.7: 0 HOLD, 1 COMMANDED, 2 AUTONOMOUS, 3 LOSS): actuators being retracted, arms that timed out, the
commands its stages apply, its last 16 register responses (tag, value, code), PTM's accesses without an answer, the PWR_STAT that PTM has seen, the tick
of the last heartbeat or RESUME (R478), the ticks in which retracts began (R480), each VCM's current samples in its 100 ms window, newest first (R471), and
the non-volatile copies of PWR_RET_CFG and PWR_HU_CFG (Table 17.8). -/
structure PwrState where
  st : Nat := 0
  retracting : List Nat := []
  timedOut : List Nat := []
  braking : Bool := false
  stages : Bool := false
  isolated : Bool := false
  vcm : List (Nat × Int) := []
  sampled : List Nat := []
  duty : List Nat := []
  tags : List (Nat × Nat × Nat) := []
  nextTag : Nat := 0
  open_ : List CwAccess := []
  seen : Nat := 0
  hbSeen : Nat := 0
  retractAt : List (Nat × Nat) := []
  currents : List (Nat × List (Nat × Int)) := []
  nvRet : Nat := 0x14329650
  nvHu : Nat := 0xA03C
  deriving DecidableEq, Repr, Inhabited
--END Pwr

--BEGIN Spl
/-- What a member knows of another (R258, R260, R270): frames since its last BEACON and that BEACON's content. -/
structure Member where
  since : Nat := 0
  healthy : Bool := false
  elig : Bool := false
  inst : Nat := 0
  level : Nat := 0
  s2v : Bool := false
  hops : Nat := 0
  deriving DecidableEq, Repr, Inhabited

/-- Parts of a plan received so far, and the tick at which the first arrived (R266). -/
structure PlanSet where
  ver : Nat
  origin : Nat
  parts : List (Nat × List Nat)
  since : Nat := 0
  deriving DecidableEq, Repr

/-- SPL (chapter 9). Times are in 1/16 ns: `thetas` the last acquisitions, `stepPend` a step waiting for the frame boundary,
`phase` the sub-tick phase, `linkAt` the tick at which each side's TRAIN or HELLO began, `timeCopy` the best TIME copy of this frame (HOPS, theta, SEQ, ORIGIN). -/
structure SplState where
  members : List (Nat × Member) := []
  last : List (Nat × Nat) := []
  seq : List (Nat × Nat) := []
  joinFrames : Nat := 0
  hasMaster : Bool := false
  delay : List (Nat × Int) := []
  thetas : List Int := []
  fi : Rat := 0
  trim : Rat := 0
  stepPend : Option Int := none
  phase : Nat := 0
  timeCopy : Option (Nat × Int × Nat × Nat) := none
  timeAbsent : Nat := 0
  pulseSeen : Bool := false
  pulseAbsent : Nat := 0
  corrected : Bool := false
  frames : Nat := 0
  plans : List PlanSet := []
  adopt : Option PlanSet := none
  linkAt : List (Nat × Nat) := []
  reflood : Bool := false
  rx : List (List Nat) := []
  txCount : Nat := 0
  leaveFrames : Nat := 0
  marker : List (Nat × Nat × Nat) := []
  merOut : Nat := 0
  fwAt : Nat := 0
  vibSq : List Nat := []
  vibN : Nat := 0
  deriving DecidableEq, Repr, Inhabited
--END Spl

end Sys2Proof.Machine
end

