-- ==== Sys2Proof/Machine/State.lean ====
section
/-! DEFINITION. The state of the part: the register file, memory, the commands waiting, and the block state no register
shows. Plain data (assumption log 1). -/
namespace Sys2Proof.Machine

/-- Why a command stops the model with a fault. No command of this part does: an access that the part refuses completes with a bus error, and a command that is
discarded goes on; both are effects. -/
inductive Fault where
  /-- Raised by nothing: the part has no state in which it does not go on. Safe. -/
  | stuck
  deriving DecidableEq, Repr

/-- Why a command has no meaning. -/
inductive Refusal where
  /-- A row of the table whose meaning is not written, rejected by its mnemonic; raised by nothing, since every row has its meaning. Safe: nothing is
  claimed of it. -/
  | notModelled (mnemonic : String)
  deriving DecidableEq, Repr

/-- The state of the part. -/
structure State where
  /-- Registers not at their reset value, keyed by `regKey`; an unlisted register reads as it resets. -/
  regs : List (Nat × DWord) := []
  /-- Memory: DRAM, tightly coupled memories and eMRAM; an unlisted byte reads 0 (assumption log 2). -/
  mem : List Host.Cell := []
  /-- Commands waiting, first in first out. -/
  pending : List Instr := []
  /-- What has left the part, newest first. -/
  out : List Out := []
  /-- Free values consumed: the model's own counter (assumption log 3). -/
  freeCtr : Nat := 0
  access : AccessState := {}
  ptm : PtmState := {}
  fcu : FcuState := {}
  alm : AlmState := {}
  svc : SvcState := {}
  pcx : PcxState := {}
  kpr : KprState := {}
  hif : HifState := {}
  cqe : CqeState := {}
  bmu : BmuState := {}
  dmf : DmfState := {}
  mpc : MpcState := {}
  rdc : RdcState := {}
  wrc : WrcState := {}
  sve : SveState := {}
  spn : SpnState := {}
  pwr : PwrState := {}
  spl : SplState := {}
  deriving DecidableEq, Repr, Inhabited

/-- The machine right after chip reset: every register at its reset value (none listed), memory with nothing listed, no
command waiting, and every block's hidden state empty. -/
def State.reset : State := {}

end Sys2Proof.Machine
end

