-- ==== Sys2Proof/Machine/Prog.lean ====
section
/-! DEFINITION. The programs in which meanings are written: a few primitive updates, put in sequence, each able to read the
state as the updates before it left it. An invariant that every primitive update keeps is kept by every meaning. -/
namespace Sys2Proof.Machine

/-- A register is keyed by its element number and its name. -/
def regKey (r : RegName) (i : Nat) : Nat := i * 512 + r.ctorIdx

/-- Spare rows of a memory instance (Table 19.1). -/
def spareRows (i : Nat) : Nat :=
  if 0x1D ≤ i ∧ i ≤ 0x2C then 8 else if i ≤ 0x4E then 4 else 0

/-- A memory instance of Table 19.1; the others are reserved (R513). -/
def instKnown (i : Nat) : Bool := decide (i < 0x4F ∨ 0xE0 ≤ i ∧ i ≤ 0xE3 ∨ i = 0xF0)

/-- A reserved source of Table 20.1: never raised, reads 0. -/
def sourceReserved (i : Nat) : Bool :=
  i == 9 || decide (21 ≤ i ∧ i ≤ 23) || decide (29 ≤ i ∧ i ≤ 31) || i == 111 || decide (117 ≤ i ∧ i ≤ 127) ||
    decide (228 ≤ i ∧ i ≤ 231) || decide (250 ≤ i ∧ i ≤ 255) || decide (259 ≤ i ∧ i ≤ 263) || decide (266 ≤ i ∧ i ≤ 271) ||
    decide (276 ≤ i ∧ i ≤ 279) || decide (281 ≤ i ∧ i ≤ 287) || decide (295 ≤ i ∧ i ≤ 319) || decide (384 ≤ i)

/-- Block rows of the four circulants of block column `c`, in ascending order (R128): constants the spec does not list. -/
def ldpcRows (c : Nat) : List Nat :=
  let r0 := Config.ldpcRow (4 * c) % 13
  let r1 := r0 + 1 + Config.ldpcRow (4 * c + 1) % (13 - r0)
  let r2 := r1 + 1 + Config.ldpcRow (4 * c + 2) % (14 - r1)
  [r0, r1, r2, r2 + 1 + Config.ldpcRow (4 * c + 3) % (15 - r2)]

/-- ROW and SHIFT of entry `i` of RDC_LDPC_H (Table 4.9). -/
def ldpcRowOf (i : Nat) : Nat := (ldpcRows (i / 4)).getD (i % 4) 0
def ldpcShiftOf (i : Nat) : Nat := Config.ldpcShift i % 256

/-- Reset value of element `i` of a register (the Reset columns; Table 23.4 for the common registers). -/
def regReset (r : RegName) (i : Nat) : DWord :=
  match r with
  | .FCU_SRC_CFG => if sourceReserved i then 0 else 0xC6C40540
  | .RDC_HP_TAP => if i % 48 = 8 ∨ i % 48 = 32 then 0x100 else 0
  | .RDC_RETRY_ORDER => if i = 0 then 0xF7653201 else 0x76532041
  | .SVC_LB_CFG => if instKnown i then BitVec.ofNat 64 (regResetWord .SVC_LB_CFG) else 0
  | .SVC_INST_STAT => BitVec.ofNat 64 (spareRows i <<< 20)
  | .RDC_LDPC_H => BitVec.ofNat 64 (ldpcRowOf i <<< 8 ||| ldpcShiftOf i)
  | .BLK_ID => BitVec.ofNat 64 ((([0x50544D, 0x464355, 0x414C4D, 0x535643, 0x504358, 0x484946, 0x435145, 0x424D55, 0x444D46,
      0x4D5043, 0x524443, 0x575243, 0x535645, 0x53504E, 0x505752, 0x53504C] : List Nat).getD i 0) <<< 8 ||| i)
  | .BLK_VER => if i = 14 then 0x84160000 else 0x84160100
  | r => BitVec.ofNat 64 (regResetWord r)

/-- The value of a register. -/
def State.reg (s : State) (r : RegName) (i : Nat) : DWord := Sparse.get (regReset r i) s.regs (regKey r i)

/-- The value of a register field. -/
def State.get (s : State) (f : Fld) (i : Nat) : Nat := getBits (s.reg f.reg i) f.hi f.lo

/-- A one-bit register field. -/
def State.on (s : State) (f : Fld) (i : Nat) : Bool := s.get f i != 0

/-- What a byte of memory that nothing has written reads as (assumption log 2). -/
def memDefault : Byte := 0

/-- One byte of memory. -/
def State.byte (s : State) (a : Nat) : Byte := Sparse.get memDefault s.mem a

/-- The primitive updates. -/
inductive Upd where
  | fld (f : Fld) (i v : Nat)
  | reg (r : RegName) (i : Nat) (v : DWord)
  | regsReset (p : RegName → Nat → Bool)
  | mem (a : Nat) (b : Byte)
  | memForget (lo len : Nat)
  | emit (o : Out)
  | free
  | access (f : AccessState → AccessState)
  | ptm (f : PtmState → PtmState)
  | fcu (f : FcuState → FcuState)
  | alm (f : AlmState → AlmState)
  | svc (f : SvcState → SvcState)
  | pcx (f : PcxState → PcxState)
  | kpr (f : KprState → KprState)
  | hif (f : HifState → HifState)
  | cqe (f : CqeState → CqeState)
  | bmu (f : BmuState → BmuState)
  | dmf (f : DmfState → DmfState)
  | mpc (f : MpcState → MpcState)
  | rdc (f : RdcState → RdcState)
  | wrc (f : WrcState → WrcState)
  | sve (f : SveState → SveState)
  | spn (f : SpnState → SpnState)
  | pwr (f : PwrState → PwrState)
  | spl (f : SplState → SplState)

/-- The state with a whole register replaced. -/
def State.setReg (s : State) (r : RegName) (i : Nat) (v : DWord) : State :=
  { s with regs := Sparse.put (regReset r i) s.regs (regKey r i) v }

/-- The state with a field replaced; the register's other bits stay. -/
def State.setFld (s : State) (f : Fld) (i v : Nat) : State := s.setReg f.reg i (setBits (s.reg f.reg i) f.hi f.lo v)

/-- The effect of one primitive update. -/
def Upd.apply (u : Upd) (s : State) : State :=
  match u with
  | .fld f i v => s.setFld f i v
  | .reg r i v => s.setReg r i v
  | .regsReset p => { s with regs := s.regs.filter fun e => !p (RegName.ofNat (e.1 % 512)) (e.1 / 512) }
  | .mem a b => { s with mem := Sparse.put memDefault s.mem a b }
  | .memForget lo len => { s with mem := s.mem.filter fun e => !(decide (lo ≤ e.1 ∧ e.1 < lo + len)) }
  | .emit o => { s with out := o :: s.out }
  | .free => { s with freeCtr := s.freeCtr + 1 }
  | .access f => { s with access := f s.access }
  | .ptm f => { s with ptm := f s.ptm }
  | .fcu f => { s with fcu := f s.fcu }
  | .alm f => { s with alm := f s.alm }
  | .svc f => { s with svc := f s.svc }
  | .pcx f => { s with pcx := f s.pcx }
  | .kpr f => { s with kpr := f s.kpr }
  | .hif f => { s with hif := f s.hif }
  | .cqe f => { s with cqe := f s.cqe }
  | .bmu f => { s with bmu := f s.bmu }
  | .dmf f => { s with dmf := f s.dmf }
  | .mpc f => { s with mpc := f s.mpc }
  | .rdc f => { s with rdc := f s.rdc }
  | .wrc f => { s with wrc := f s.wrc }
  | .sve f => { s with sve := f s.sve }
  | .spn f => { s with spn := f s.spn }
  | .pwr f => { s with pwr := f s.pwr }
  | .spl f => { s with spl := f s.spl }

/-- A program: updates in sequence; `ask` reads the state at that point. -/
inductive Prog where
  | skip
  | upd (u : Upd)
  | seq (p q : Prog)
  | ask (k : State → Prog)

/-- Running a program. -/
def Prog.run : Prog → State → State
  | .skip, s => s
  | .upd u, s => u.apply s
  | .seq p q, s => q.run (p.run s)
  | .ask k, s => (k s).run s

/-- Programs one after another. -/
def all : List Prog → Prog
  | [] => .skip
  | p :: ps => .seq p (all ps)

/-- A program for each element, in order. -/
def each {α : Type} (l : List α) (f : α → Prog) : Prog := all (l.map f)

/-- A program under a condition known beforehand. -/
def when (c : Bool) (p : Prog) : Prog := if c then p else .skip

/-- A program under a condition on the state at that point. -/
def whenS (c : State → Bool) (p : Prog) : Prog := .ask fun s => if c s then p else .skip

/-- Set a field. -/
def setF (f : Fld) (i v : Nat) : Prog := .upd (.fld f i v)

/-- Ticks of 125 ns in a millisecond and in a second (R490). -/
def tickMs : Nat := 8000
def tickSec : Nat := 8000000

/-- Set a whole register. -/
def setR (r : RegName) (i v : Nat) : Prog := .upd (.reg r i (BitVec.ofNat 64 v))

/-- Raise a saturating count. -/
def incF (f : Fld) (i : Nat) : Prog := .ask fun s => setF f i (satAdd (s.get f i) 1 (2 ^ f.width - 1))

/-- Something leaves the part. -/
def emit (o : Out) : Prog := .upd (.emit o)

/-- Consume a free value: a value the spec leaves open (assumption log 3). -/
def fresh (k : Nat → Prog) : Prog := .ask fun s => .seq (.upd .free) (k (Config.freeValue s.freeCtr))

/-- The outcome of a command whose effect is `p`. -/
def Prog.exec (p : Prog) (s : State) : Host.Outcome State Fault Refusal := .next (p.run s)

end Sys2Proof.Machine
end

