-- ==== Sys2Proof/Machine/Ops.lean ====
section
/-! DEFINITION. Named operations over registers, memory and the always-on services that every family uses: field bits,
memory words, time, Almanac entry, interrupts, the NMI, responses to a master. -/
namespace Sys2Proof.Machine

/-- A register with its RW and RWK fields as `v` has them, the others as they stand. -/
def rwMerge (r : RegName) (old : DWord) (v : Nat) : DWord :=
  (regFields r).foldl (fun w f => if f.acc = .rw ∨ f.acc = .rwk then setBits w f.hi f.lo (nbits v f.hi f.lo) else w) old

/-- The bits of a value that a register holds: its fields; reserved bits read 0 (R13). -/
def fieldBits (r : RegName) (v : Nat) : Nat :=
  ((regFields r).foldl (fun w f => setBits w f.hi f.lo (nbits v f.hi f.lo)) (0 : DWord)).toNat

/-- Set or clear one bit of a field. -/
def setBitF (f : Fld) (i k : Nat) (b : Bool) : Prog := .ask fun s => setF f i (setNBit (s.get f i) k b)

/-- Bit `k` of a field. -/
def State.bitF (s : State) (f : Fld) (i k : Nat) : Bool := (s.get f i).testBit k

/-- A field as a signed number. -/
def State.sget (s : State) (f : Fld) (i : Nat) : Int := toSigned f.width (s.get f i)

/-- Write a signed number into a field. -/
def setI (f : Fld) (i : Nat) (x : Int) : Prog := setF f i (ofSigned f.width x)

/-- The bytes of memory from `a` on. -/
def State.bytes (s : State) (a n : Nat) : List Byte := (List.range n).map fun k => s.byte (a + k)

/-- A 32-bit word of memory, least significant byte first. -/
def State.memW (s : State) (a : Nat) : Nat := ofLeBytes (s.bytes a 4)

/-- `n` consecutive words of memory. -/
def State.memWs (s : State) (a n : Nat) : List Word := (List.range n).map fun k => BitVec.ofNat 32 (s.memW (a + 4 * k))

/-- Write bytes from address `a` on. -/
def putBytes (a : Nat) : List Byte → Prog
  | [] => .skip
  | b :: l => .seq (.upd (.mem a b)) (putBytes (a + 1) l)

/-- A store of `n` bytes at `a` reaches the lines and halves it touches: a cached line becomes dirty, keeping what DRAM holds under it
(R372, R374); a half it covers whole loses its poison mark (R364). -/
def storeMarks (a n : Nat) : Prog := .ask fun s => when (n != 0) (.upd (.bmu fun b => { b with
  lines := b.lines.map fun e => if a / 64 ≤ e.1 ∧ e.1 ≤ (a + n - 1) / 64 ∧ !e.2.dirty then (e.1, { e.2 with dirty := true, old := s.bytes (64 * e.1) 64 }) else e
  poison := b.poison.filter fun h => !decide (a ≤ 32 * h ∧ 32 * h + 32 ≤ a + n) }))

/-- A store as every master sees it: memory holds what a read returns, wherever the line is (R35, R366). -/
def memBytes (a : Nat) (bs : List Byte) : Prog := .seq (storeMarks a bs.length) (putBytes a bs)

/-- DRAM begins here (Table 1.7). -/
def dramBase : Nat := 0x100000000

/-- Channels configured (Table 13.2), installed bytes S (R33, R357). -/
def State.channels (s : State) : Nat :=
  match s.get BMU_CFG.CHANNELS 0 with
  | 0 => 0
  | 1 => 2
  | _ => 4
def State.installed (s : State) : Nat :=
  if s.channels = 0 then 0 else 2 ^ 28 * min (if s.channels = 2 then 32 else 64) (s.get BMU_CFG.SIZE 0)

/-- The channel of a DRAM address (R358). -/
def State.channelOf (s : State) (a : Nat) : Nat := (a - dramBase) / 256 % max 1 s.channels

/-- Installed DRAM holds these bytes, on channels that trained (R33, R359). -/
def State.dramOk (s : State) (a len : Nat) : Bool :=
  decide (dramBase ≤ a ∧ a + len ≤ dramBase + s.installed) &&
    ((List.range (min 4 (len / 256 + 2))).all fun k => decide (a + len ≤ a + 256 * k) || !s.bitF BMU_STAT.CH_FAIL 0 (s.channelOf (a + 256 * k)))

/-- Write one word, least significant byte first. -/
def memWord (a v : Nat) : Prog := memBytes a (leBytes 4 v)

/-- Write words one after another. -/
def memWords (a : Nat) (ws : List Word) : Prog := memBytes a (ws.flatMap fun w => leBytes 4 w.toNat)

/-- The CRC word of a table entry matches: word `n` is the CRC of words 0 to `n - 1` (R53, R94, R157, R213). -/
def State.crcOk (s : State) (a n : Nat) : Bool := crcWords (s.memWs a n) == BitVec.ofNat 32 (s.memW (a + 4 * n))

/-- Write a table entry of `ws` with its CRC word after them. -/
def memSealed (a : Nat) (ws : List Word) : Prog := memWords a (ws ++ [crcWords ws])

/-- Meridian time (R490). -/
def State.time (s : State) : Nat := s.get PTM_MER_TIME.TIME 0

/-- Low word of Meridian time. -/
def State.timeLo (s : State) : Nat := s.time % 2 ^ 32

/-- Modes as MERMODE encodes them (Table 15.8). -/
def mBoot : Nat := 0
def mActive : Nat := 1
def mIdle : Nat := 2
def mStandby : Nat := 3
def mService : Nat := 4
def mRecovery : Nat := 5

/-- The mode in force. -/
def State.mode (s : State) : Nat := s.get PTM_MODE_STAT.MODE 0

/-- The safe state holds (R503). -/
def State.safe (s : State) : Bool := s.on PTM_MODE_STAT.SAFE 0

/-- A mode of normal service, in which FCU runs its ladder (R536). -/
def State.normalService (s : State) : Bool := s.mode == mActive || s.mode == mIdle || s.mode == mStandby

/-- The power cap in force, W (Table 17.15). -/
def State.capW (s : State) : Nat := clampN 12 40 (s.get PTM_CAP_CFG.CAP 0)

/-- MERMODE (Table 15.8). -/
def State.mermode (s : State) : Nat :=
  s.capW <<< 24 ||| s.get PTM_CAP_STAT.WR_ALLOW 0 <<< 16 ||| s.get PTM_CAP_STAT.HP_ALLOW 0 <<< 8 |||
    s.get PTM_MODE_STAT.SAFE 0 <<< 5 ||| s.get PTM_MODE_STAT.ILVL 0 <<< 3 ||| s.get PTM_MODE_STAT.MODE 0

/-- Records staged in the always-on SRAM at most (R550). -/
def stagingSize : Nat := 256

/-- The number of records staged, as ALM_STAT shows it. -/
def almShow : Prog := .ask fun s => setF ALM_STAT.STAGED 0 s.alm.staged.length

/-- A record enters staging with the next number and the time stamp of this tick, or is discarded when staging is full
(R546, R549, R550). -/
def almEnter (code sev subsys : Nat) (kpr : Bool) (p : List Nat) : Prog := .ask fun s =>
  if s.alm.staged.length ≥ stagingSize then
    all [setF ALM_STAT.STAGE_OVF 0 1, incF ALM_STAT.LOST_CNT 0, .upd (.alm fun a => { a with lostPending := true })]
  else
    let n := (s.get ALM_NEWEST.N 0 + s.alm.staged.length + 1) % 2 ^ 32
    all [.upd (.alm fun a =>
          { a with
            staged := a.staged ++ [{ n, code, sev, subsys, keeper := kpr, lost := a.lostPending, hours := a.hours,
                                     secs := a.secs, cycles := a.cycles, p }]
            lostPending := false }),
      when (n % 65536 == 0) (setF ALM_STAT.WRAP 0 1), almShow]

/-- One record enters before another when its SUBSYS is lower, or its CODE under one SUBSYS (R550). -/
def recBefore (a b : AlmRec) : Bool := decide (a.subsys < b.subsys) || (a.subsys == b.subsys && decide (a.code < b.code))

/-- A record placed among records in order, behind its equals. -/
def recInsert (r : AlmRec) : List AlmRec → List AlmRec
  | [] => [r]
  | x :: xs => if recBefore r x then r :: x :: xs else x :: recInsert r xs

/-- The records from the `k`-th on put in the order of R550; the numbers and the LOST mark go by place. -/
def recOrder (k : Nat) (l : List AlmRec) : List AlmRec :=
  l.take k ++ List.zipWith (fun r o => { r with n := o.n, lost := o.lost }) ((l.drop k).foldl (fun acc r => recInsert r acc) []) (l.drop k)

/-- What one event does, its records entering in ascending SUBSYS and CODE (R550). -/
def oneEvent (p : Prog) : Prog := .ask fun s => .seq p (.ask fun t =>
  when (decide (s.alm.staged.length + 2 ≤ t.alm.staged.length)) (.upd (.alm fun a => { a with staged := recOrder s.alm.staged.length a.staged })))

/-- Kinds of record (Table 21.2). -/
def kState : Nat := 0
def kFault : Nat := 1
def kRecovery : Nat := 2
def kCal : Nat := 3
def kSecurity : Nat := 4
def kFirmware : Nat := 5

/-- The typical severity of a kind; the severity of a fault is among WARNING to CRITICAL, free (assumption log 5). -/
def kindSev (kind : Nat) (ev : String) : Nat :=
  if kind = kState then 0 else if kind = kFault then 2 + Config.almSeverity kind ev % 3 else 1

/-- An event's record: the number within its kind and the layout of its parameters are the Keeper build's (R548), so both are
free values of the event and its content (assumption log 5). -/
def almEvent (subsys kind : Nat) (ev : String) (content : List Nat) : Prog :=
  almEnter (kind <<< 12 ||| Config.almNumber subsys kind ev % 4096) (kindSev kind ev) subsys false
    ((List.range 4).map fun k => Config.almParam ev content k % 2 ^ 32)

/-- The words of a record as it lies in the ring (Table 21.1, R547). -/
def almWords (r : AlmRec) : List Word :=
  let ws : List Word :=
    [BitVec.ofNat 32 ((r.code % 65536) <<< 16 ||| (r.sev % 16) <<< 12 ||| (r.subsys % 16) <<< 8 ||| b2n r.keeper <<< 7 |||
        (r.n / 65536 % 2) <<< 6 ||| b2n r.lost <<< 5),
      BitVec.ofNat 32 ((r.hours % 2 ^ 20) <<< 12 ||| r.secs % 4096),
      BitVec.ofNat 32 ((r.cycles % 2 ^ 24) <<< 8 ||| r.n % 256)] ++ (List.range 4).map fun k => BitVec.ofNat 32 (r.p.getD k 0)
  ws ++ [crcWords ws]

/-- An NMI from FCU to the Keeper (R427): taken at PCX_NMI_VEC, or held while the Keeper is restarting. -/
def nmi : Prog := .ask fun s =>
  if s.on PCX_KPR_STAT.RESTART 0 then .upd (.pcx fun p => { p with nmiHeld := true })
  else all [.upd (.pcx fun p => { p with keeperPc := s.get PCX_NMI_VEC.VEC 0 }), emit (.event "nmi" [s.get PCX_NMI_VEC.VEC 0])]

/-- A value returned to a master. -/
def reply (m : Master) (v : Nat) : Prog := emit (.data m.id v)

/-- A bus error returned to a master. -/
def busErr (m : Master) : Prog := emit (.busError m.id)

/-- A frame sent on a link. -/
def send (port kind : String) (args : List Nat) : Prog := emit (.frame port kind args)

/-- A Causeway frame's 16 bytes: TYPE, TAG, twelve bytes of payload, the CRC-16 (R474, Table 17.6). -/
def cwBytes (typ tag : Nat) (payload : List Nat) : List Nat :=
  let b := (typ :: tag :: payload ++ List.replicate 12 0).take 14
  b ++ [crcCw b / 256, crcCw b % 256]
def beNats (n v : Nat) : List Nat := (beBytes n v).map BitVec.toNat
def cwSend (kind : String) (typ tag : Nat) (payload : List Nat) : Prog := send "CW" kind (cwBytes typ tag payload)

/-- What the logic die has the power die do where Table 17.6 gives no frame for it: all spindle switches off or all low sides on, VPRE (assumption log 21). -/
def pdRequest (kind : String) (args : List Nat) : Prog := send "PD" kind args

/-- The island that holds a register block (Table 1.13); `none` where no island serves it. Head-path and writer registers lie
in clocked domains, see `regDomain`. Of the islands that a subsystem is spread over (CQE, MPC, PCX, BMU, DMF, SVE) the spec does not say which one decides:
the one taken here is the model's (DESIGN CHOICE, assumption log 53). -/
def blockIsland (b : Nat) : Option Nat :=
  ([some 1, some 2, some 3, some 4, some 10, some 12, some 13, some 17, some 18, some 20, none, some 26, some 28, some 29,
    some 30, some 31] : List (Option Nat)).getD b none

/-- An island is powered. -/
def State.islandOn (s : State) (i : Nat) : Bool := s.bitF PTM_ISL_PWR.ON 0 i

/-- A clocked domain, 32 to 59, is powered. -/
def State.domainOn (s : State) (d : Nat) : Bool := s.bitF PTM_DOM_PWR.ON 0 (d - 32)

/-- The block's registers return to reset, but for those `keep` names (R537, R538). The common registers stay (R593). -/
def resetBlockRegs (b : Nat) (keep : List RegName) : Prog :=
  .upd (.regsReset fun r _ => (regsOfBlock b).contains r && !keep.contains r)

/-- nFAULT: asserted while a source with DIRECT = 4 has PEND set, while the safe state holds with NFAULT_EN, and while BOOT is
stopped (Table 20.9). -/
def State.nfaultLevel (s : State) : Bool :=
  (List.range 384).any (fun i => s.get FCU_SRC_CFG.DIRECT i == 4 && s.on FCU_SRC_STAT.PEND i) ||
    (s.safe && s.on PTM_SAFE_CTL.NFAULT_EN 0) || s.ptm.bootStopped

/-- Drive nFAULT. -/
def driveNfault : Prog := .ask fun s => setF FCU_CFG.NFAULT 0 (b2n s.nfaultLevel)

end Sys2Proof.Machine
end

