-- ==== Sys2Proof/Machine/LineCode.lean ====
section
/-! DEFINITION. The line code and the check lines of DRAM (R358, R361, R362, R364). -/
namespace Sys2Proof.Machine

/-- The code's generator, low coefficient first: its roots are α^0 to α^3 (the spec names the field and the four check symbols; the roots are the model's,
DESIGN CHOICE, assumption log 51). -/
def lineGen : List Byte := (List.range 4).foldl (fun p k => polyMulLin p (alpha k)) [1]

/-- Check bytes of a codeword's symbols, the first symbol first: the remainder of their division by the generator, highest power first. -/
def rsCheck (ms : List Byte) : List Byte :=
  ms.foldl (fun r m =>
    let f := m ^^^ r.getD 0 0
    (List.range 4).map fun k => r.getD (k + 1) 0 ^^^ gfMul f (lineGen.getD (3 - k) 0)) [0, 0, 0, 0]

/-- The four check bytes of half `h` (address over 32): the line's address bits [39:6], least significant byte last, lead its 32 bytes; under a poison mark
their complement (R361, R364). -/
def State.halfCheck (s : State) (h : Nat) : List Byte :=
  let c := rsCheck (beBytes 5 (h / 2) ++ s.bytes (32 * h) 32)
  if s.bmu.poison.contains h then c.map (~~~ ·) else c

/-- The channel of a DRAM line, the check line of its check bytes there, and their place in it, over 8 (R358, R362). -/
def State.checkAt (s : State) (l : Nat) : Nat × Nat × Nat :=
  let off := 64 * l - dramBase
  let ca := off / (256 * max 1 s.channels) * 256 + off % 256
  (s.channelOf (64 * l), ca / 512, ca / 64 % 8)

/-- What the check region holds of a check line; of one that nothing has written, zeros (DESIGN CHOICE, assumption log 51). -/
def BmuState.checkDram (b : BmuState) (c k : Nat) : List Byte := ((b.checkMem.find? fun e => e.1 == c && e.2.1 == k).map (·.2.2)).getD (List.replicate 64 0)

/-- A check line leaves the check cache for DRAM, as a whole line: one not assembled whole is read first and merged (R362). -/
def BmuState.checkOut (b : BmuState) (x : CheckLine) : BmuState :=
  if !x.dirty then b else
  let old := b.checkDram x.chan x.k
  let new := (List.range 8).flatMap fun i => ((x.groups.find? fun e => e.1 == i).map (·.2)).getD ((old.drop (8 * i)).take 8)
  { b with checkMem := (b.checkMem.filter fun e => !(e.1 == x.chan && e.2.1 == x.k)) ++ [(x.chan, x.k, new)] }

/-- The lines that the check cache holds: 1,024, less four for each row taken out of use (R362, R527). -/
def BmuState.checkRoom (b : BmuState) : Nat := 1024 - 4 * b.checkOff.length

/-- Lines beyond the check cache's room leave it, those used longest ago first (the order is the model's, assumption log 51). -/
def BmuState.checkTrim (b : BmuState) : BmuState :=
  { (b.checks.drop b.checkRoom).foldl BmuState.checkOut b with checks := b.checks.take b.checkRoom }

/-- A check line is the most recently used of the cache's (R362). -/
def BmuState.checkIn (b : BmuState) (x : CheckLine) : BmuState :=
  { b with checks := x :: b.checks.filter fun e => !(e.chan == x.chan && e.k == x.k) }.checkTrim

/-- The check line in the cache. -/
def BmuState.checkOf (b : BmuState) (c k : Nat) : Option CheckLine := b.checks.find? fun e => e.chan == c && e.k == k

/-- A read of DRAM line `l` needs its check line, which is read into the check cache where it is not held whole (R362). -/
def checkRead (l : Nat) : Prog := .ask fun s =>
  let (c, k, _) := s.checkAt l
  .upd (.bmu fun b =>
    let x := (b.checkOf c k).getD { chan := c, k }
    b.checkIn { x with groups := (List.range 8).map fun i => (i, ((x.groups.find? fun e => e.1 == i).map (·.2)).getD (((b.checkDram c k).drop (8 * i)).take 8)) })

/-- Line `l` is written to DRAM: its eight check bytes enter its check line (R361, R362). -/
def lineOut (l : Nat) : Prog := .ask fun s =>
  let (c, k, i) := s.checkAt l
  .upd (.bmu fun b =>
    let x := (b.checkOf c k).getD { chan := c, k }
    b.checkIn { x with dirty := true, groups := (x.groups.filter fun e => e.1 != i) ++ [(i, s.halfCheck (2 * l) ++ s.halfCheck (2 * l + 1))] })

/-- Every check line is on DRAM, and the check cache empty (R360; DEDUCED, assumption log 51). -/
def checkFlush : Prog := .upd (.bmu fun b => { b.checks.foldl BmuState.checkOut b with checks := [] })

end Sys2Proof.Machine
end

