-- ==== Sys2Proof/Machine/Fabric.lean ====
section
/-! DEFINITION. The memory fabric as a transaction enters it: register addresses, the address map, the protection checker, powered-down islands (R24, R33
to R37, R429 to R433), and a store of a subsystem through the buffer cache (R35, R366 to R373). -/
namespace Sys2Proof.Machine

/-- An event that does not come from a memory access: `d` is the origin's detail (R534). -/
def detail (d : Nat) : FCap := { mid := 0, typ := 15, size := 15, addr := d }

/-- An event of an access by master `m` (Table 20.2). -/
def accessCap (m : Master) (typ size addr : Nat) : FCap := { mid := m.id, typ, size, addr }

/-- Elements of an array with these dimensions. -/
def dimSize : List (Nat × Nat) → Nat
  | [] => 1
  | (_, n) :: ds => n * dimSize ds

/-- Byte offset of element `i`, counted row by row, from element 0. -/
def dimOffset : List (Nat × Nat) → Nat → Nat
  | [], _ => 0
  | (st, _) :: ds, i => st * (i / dimSize ds) + dimOffset ds (i % dimSize ds)

/-- Where register space begins (Table 1.7). -/
def regBase : Nat := 0x80000000

/-- Physical address of element `i` of a register (R9, R589; Table 23.3 for the common registers). -/
def regAddr (r : RegName) (i : Nat) : Nat :=
  match r with
  | .BLK_ID => regBase + i * 0x100000 + 0xFFF00
  | .BLK_VER => regBase + i * 0x100000 + 0xFFF04
  | .BLK_IRQ => regBase + i * 0x100000 + 0xFFF08
  | .BLK_LOCK => regBase + i * 0x100000 + 0xFFF0C
  | r => regBase + (regInfo r).block * 0x100000 + (regInfo r).offset + dimOffset (regInfo r).dims i

/-- Access types, as first-error capture encodes them (Table 20.2). -/
def atRead : Nat := 0
def atWrite : Nat := 1
def atFetch : Nat := 2
def atAtomic : Nat := 3

/-- Regions of the address map (Table 1.7). -/
inductive MapRegion where
  | rom | keeperTcm | appTcm (c : Nat) | emram | regs | dram
  deriving DecidableEq, Repr

/-- Where an access of `n` bytes at `a` lies; none outside the map, in the reserved eMRAM region, beyond installed DRAM or on a channel that failed
training (R33, R34, R37, R359), or in the TCM of a split-lock follower (R419). -/
def State.region (s : State) (a n : Nat) : Option MapRegion :=
  let within (lo hi : Nat) : Bool := decide (lo ≤ a ∧ a + n ≤ hi)
  if within 0 0x40000 then some .rom
  else if within 0x10000000 0x10200000 then some .keeperTcm
  else if within 0x20000000 0x20100000 then
    let c := (a - 0x20000000) / 0x40000
    if s.on PCX_CFG.SPLIT 0 ∧ c % 2 = 1 then none else some (.appTcm c)
  else if within 0x40000000 0x41F80000 then some .emram
  else if within 0x80000000 0x81000000 then some .regs
  else if s.dramOk a n then some .dram
  else none

/-- The island of a region (Table 1.13). -/
def MapRegion.island : MapRegion → Option Nat
  | .rom | .emram => some 11
  | .keeperTcm => some 5
  | .appTcm c => some (6 + c)
  | .regs => none
  | .dram => some 17

/-- The default regions (Table 15.10): first and last page, master IDs, R, W, X, DBGG. -/
def defaultRegion (r : Nat) : Region :=
  let mk (base limit lo hi : Nat) (rd wr ex dbgg : Bool) : Region := { base, limit, en := true, dbgg, x := ex, w := wr, r := rd, midLo := lo, midHi := hi }
  match r with
  | 0 => mk 0x0 0x3F 0x01 0x01 true false true false
  | 1 => mk 0x10000 0x101FF 0x01 0x01 true true true false
  | 2 => mk 0x10000 0x101FF 0x3F 0x3F true true false true
  | 3 => mk 0x20000 0x2003F 0x02 0x02 true true true false
  | 4 => mk 0x20040 0x2007F 0x03 0x03 true true true false
  | 5 => mk 0x20080 0x200BF 0x04 0x04 true true true false
  | 6 => mk 0x200C0 0x200FF 0x05 0x05 true true true false
  | 7 => mk 0x20000 0x200FF 0x01 0x05 true true false false
  | 8 => mk 0x20000 0x200FF 0x40 0x7F true true false false
  | 9 => mk 0x40000 0x41FFF 0x01 0x01 true true false false
  | 10 => mk 0x41000 0x41BFF 0x12 0x12 true true false false
  | 11 => mk 0x41C00 0x41DFF 0x31 0x31 true true false false
  | 12 => mk 0x80000 0x80FFF 0x01 0x01 true true false false
  | 13 => mk 0x80000 0x80FFF 0x02 0x05 true true false false
  | 14 => mk 0x80000 0x80FFF 0x3F 0x3F true true false true
  | 15 => mk 0x100000 0x4FFFFF 0x01 0x01 true true false false
  | 16 => mk 0x100000 0x4FFFFF 0x02 0x05 true true true false
  | 17 => mk 0x100000 0x4FFFFF 0x00 0xFF true true false false
  | _ => { base := 0, limit := 0, en := false, dbgg := false, x := false, w := false, r := false, midLo := 0, midHi := 0 }

/-- Region `r` in use: as committed, or the default (R432, R433). -/
def State.regionUsed (s : State) (r : Nat) : Region := ((s.pcx.regions.find? fun e => e.1 == r).map (·.2)).getD (defaultRegion r)

/-- A region matches a page and a master (R430). -/
def State.regionMatches (s : State) (m : Master) (page r : Nat) : Bool :=
  let g := s.regionUsed r
  g.en && decide (g.base ≤ page ∧ page ≤ g.limit ∧ g.midLo ≤ m.id ∧ m.id ≤ g.midHi) && (!g.dbgg || s.on PCX_DBG_STAT.UNLOCKED 0)

/-- The lowest-numbered matching region decides (R430). -/
def State.permits (s : State) (m : Master) (typ page : Nat) : Bool :=
  match (List.range 64).find? fun r => s.regionMatches m page r with
  | some r =>
    let g := s.regionUsed r
    if typ = atRead then g.r else if typ = atWrite then g.w else if typ = atFetch then g.x else g.r && g.w
  | none => false

/-- The Keeper's accesses to the PCX_PROT registers are always permitted (R429). -/
def protRegister (a : Nat) : Bool := decide (regBase + 0x400000 + (regInfo .PCX_PROT_BASE).offset ≤ a ∧
  a < regBase + 0x400000 + (regInfo .PCX_PROT_BASE).offset + 0x1000) || a / 0x100 == (regBase + 0x400000 + (regInfo .PCX_PROT_STAT).offset) / 0x100

/-- The pages that the `n` bytes at `a` touch. -/
def pagesOf (a n : Nat) : List Nat := (List.range ((a + n - 1) / 4096 - a / 4096 + 1)).map (a / 4096 + ·)

/-- The FCU source that reports an access, if it ends with a bus error: outside the map or a write to the boot ROM 17, denied 16, in register space not an
aligned access of 4 or 8 bytes 17, an island that is down 18 (R11, R24, R34, R36). -/
def State.accessFault (s : State) (m : Master) (typ a n : Nat) : Option Nat :=
  match s.region a n with
  | none => some 17
  | some g =>
    if g = .rom ∧ (typ = atWrite ∨ typ = atAtomic) then some 17
    else if !((pagesOf a n).all fun p => s.permits m typ p) && !(m == .keeper && protRegister a) then some 16
    else if g = .regs ∧ ¬((n = 4 ∨ n = 8) ∧ a % n = 0) then some 17
    else match g.island with
      | some i => if s.islandOn i then none else some 18
      | none => none

/-- The size of an access as capture encodes it: the power of two, of a line at most (Table 20.2). -/
def sizeLog (n : Nat) : Nat := min 6 (Nat.log2 n)

/-- States of the cache (Table 13.7). -/
def ccEnabled : Nat := 0
def ccCleaning : Nat := 1
def ccDisabled : Nat := 2
def ccEnabling : Nat := 3
def State.ccState (s : State) : Nat := s.get BMU_CC_CTL.STATE 0

/-- Line `l` in the cache; in the eviction buffer. -/
def State.cline (s : State) (l : Nat) : Option CLine := (s.bmu.lines.find? fun e => e.1 == l).map (·.2)
def State.inEvb (s : State) (l : Nat) : Bool := s.bmu.evb.any fun e => e.line == l

/-- The set of a line (PA[19:6]). -/
def cacheSet (l : Nat) : Nat := l % 16384

/-- Ways that may be allocated into: powered, and not asked off (R376). -/
def State.waysOn (s : State) : Nat := s.get BMU_WAY_PWR.ON 0 &&& (65535 - s.get BMU_WAY_PWR.OFF_REQ 0)

/-- Ways whose row for the set of line `l` is in use (R527). -/
def State.waysFor (s : State) (l : Nat) : Nat :=
  s.waysOn &&& (65535 - ((s.bmu.excluded.filter fun e => e.2 == cacheSet l / 4).map fun e => 2 ^ e.1).sum)

/-- The effective mask of a class (R369), for line `l`. -/
def State.effMask (s : State) (c l : Nat) : Nat := s.get BMU_CLASS_CFG.WAY_MASK c &&& s.waysFor l

/-- The least recently used way among those of `mask`: the tree is walked from node `n` of `d` remaining levels, over ways `lo` on, against a
side that holds no way of the mask (R366). -/
def plruVictim (bits mask : Nat) : Nat → Nat → Nat → Nat
  | 0, _, lo => lo
  | d + 1, n, lo =>
    let half := 2 ^ d
    let left := nbits mask (lo + half - 1) lo
    let right := nbits mask (lo + 2 * half - 1) (lo + half)
    if (nbit bits n && right != 0) || left == 0 then plruVictim bits mask d (2 * n + 2) (lo + half)
    else plruVictim bits mask d (2 * n + 1) lo

/-- The tree after way `w` is used (`away`) or made the least recently used (R371). -/
def plruTouch (bits w : Nat) (away : Bool) : Nat → Nat → Nat → Nat
  | 0, _, _ => bits
  | d + 1, n, lo =>
    let half := 2 ^ d
    let right := decide (lo + half ≤ w)
    plruTouch (setNBit bits n (if away then !right else right)) w away d (if right then 2 * n + 2 else 2 * n + 1) (if right then lo + half else lo)

/-- Way `w` of the set of line `l` is used. -/
def touchWay (l w : Nat) (away : Bool) : Prog := .upd (.bmu fun b =>
  { b with lru := Sparse.put 0 b.lru (cacheSet l) (plruTouch (Sparse.get 0 b.lru (cacheSet l)) w away 4 0 0) })

/-- Entries in use, and their peak since the last read (Table 13.5). -/
def evbShow : Prog := .ask fun s => .seq (setF BMU_EVB_STAT.USED 0 s.bmu.evb.length)
  (setF BMU_EVB_STAT.PEAK 0 (max (s.get BMU_EVB_STAT.PEAK 0) s.bmu.evb.length))

/-- The line in way `w` of a set. -/
def State.lineInWay (s : State) (set w : Nat) : Option (Nat × CLine) := s.bmu.lines.find? fun e => cacheSet e.1 == set && e.2.way == w

/-- The way an allocation of line `l` takes under `mask` (R366, R369). -/
def State.allocWay (s : State) (l mask : Nat) : Nat := plruVictim (Sparse.get 0 s.bmu.lru (cacheSet l)) mask 4 0 0

/-- An eviction-buffer entry is written to DRAM and freed (R372). -/
def evbWritten (l : Nat) : Prog := all [lineOut l, .upd (.bmu fun b => { b with evb := b.evb.filter fun e => e.line != l }), evbShow, emit (.event "DRAM line write" [64 * l])]

/-- Line `l` is placed in a way of `mask`: a clean victim is dropped, a dirty one enters the eviction buffer, waiting until the oldest entry is written
where all 32 are in use (R372); `dirty` with `old` what DRAM holds; a prefetched line is the least recently used of its set (R371). -/
def allocLine (l mask : Nat) (dirty : Bool) (old : List Byte) (prefetched : Bool) : Prog := .ask fun s =>
  let w := s.allocWay l mask
  let out := match s.lineInWay (cacheSet l) w with
    | some (v, c) => if c.dirty then [({ line := v, old := c.old } : EvEntry)] else []
    | none => []
  all [
    match s.bmu.evb.find? fun e => e.line != l with
      | some e => when (!out.isEmpty && decide (32 ≤ s.bmu.evb.length)) (evbWritten e.line)
      | none => .skip,
    .upd (.bmu fun b => { b with
      lines := (b.lines.filter fun e => !(cacheSet e.1 == cacheSet l && e.2.way == w)) ++ [(l, { way := w, dirty, old })]
      evb := (b.evb.filter fun e => e.line != l) ++ out }),
    touchWay l w (!prefetched), evbShow]

/-- A full-line store of a class with STREAM_EN passes the trackers; the answer is its run count before the store (R373). -/
def State.runBefore (s : State) (c a : Nat) : Nat :=
  match s.bmu.trackers.find? fun t => t.cls == c && t.next == a with
  | some t => t.run
  | none => 0
def trackStore (c a : Nat) : Prog := .ask fun s =>
  let n := s.runBefore c a
  let rest := s.bmu.trackers.filter fun t => !(t.cls == c && t.next == a)
  .upd (.bmu fun b => { b with trackers := { cls := c, next := a + 64, run := min 1024 (n + 1) } :: rest.take 15 })

/-- STREAM_N in force. -/
def State.streamN (s : State) : Nat := clampN 16 1024 (s.get BMU_STREAM_CFG.STREAM_N 0)

/-- A store within one line, as the cache takes it, before its bytes are written (R369, R372, R373, R378). -/
def lineStore (c a n : Nat) : Prog := .ask fun s =>
  let l := a / 64
  let full := n == 64
  let old := s.bytes (64 * l) 64
  let streams := full && s.on BMU_CLASS_CFG.STREAM_EN c
  let bypass := full && (s.on BMU_CLASS_CFG.NOALLOC c || s.effMask c l == 0 || streams && decide (s.streamN ≤ s.runBefore c a))
  let mask := if s.effMask c l = 0 then s.waysFor l &&& (2 ^ 16 - s.waysFor l) else s.effMask c l
  .seq (match s.cline l with
    | some e => touchWay l e.way true
    | none =>
      if s.ccState ≠ ccEnabled ∨ mask = 0 then .skip
      else if bypass then .seq (.upd (.bmu fun b => { b with evb := b.evb.filter fun e => e.line != l })) evbShow
      else (allocLine l mask true (match s.bmu.evb.find? fun e => e.line == l with
        | some e => e.old
        | none => old) false))
    (when streams (trackStore c a))

/-- The parts of a range that lie in one line each: address and length. -/
def lineParts : Nat → Nat → Nat → List (Nat × Nat)
  | 0, _, _ => []
  | k + 1, a, n =>
    if n = 0 then [] else
    let m := min n (64 - a % 64)
    (a, m) :: lineParts k (a + m) (n - m)

/-- An access ends self-refresh (R360). -/
def dramAwake : Prog := whenS (fun s => s.on BMU_STAT.SR 0) (setF BMU_STAT.SR 0 0)

/-- Lines of a store that are neither in a way nor in the eviction buffer have gone to DRAM (R369, R373, R378). -/
def linesOut (a n : Nat) : Prog := each (lineParts (n / 64 + 2) a n) fun x => .ask fun s =>
  when ((s.cline (x.1 / 64)).isNone && !s.inEvb (x.1 / 64)) (.seq (when (x.2 != 64) (checkRead (x.1 / 64))) (lineOut (x.1 / 64)))

/-- A store of master `m` to DRAM through the buffer cache. -/
def dramStore (m : Master) (a : Nat) (bs : List Byte) : Prog := all [dramAwake,
  each (lineParts (bs.length / 64 + 2) a bs.length) fun x => lineStore m.cls x.1 x.2, memBytes a bs, linesOut a bs.length]

/-- The parts of a store that lie in one 256-byte block each, over which the map, the pages and the DRAM channels do not change (R358). -/
def storeParts : Nat → Nat → List Byte → List (Nat × List Byte)
  | 0, _, _ => []
  | k + 1, a, bs =>
    if bs.isEmpty then [] else
    let m := 256 - a % 256
    (a, bs.take m) :: storeParts k (a + m) (bs.drop m)

/-- A line of source `i` that a subsystem raises; FCU samples it at the next tick (R531). -/
def lateLine (i : Nat) (c : FCap) : Prog := .upd (.fcu fun x => { x with late := x.late ++ [(i, c)] })

/-- A failed access of a subsystem's own: FCU samples its line, with what first-error capture takes of it, at the next tick (R531, R534). -/
def faultLine (m : Master) (typ a n src : Nat) : Prog := .seq (when (src == 16) (incF PCX_PROT_STAT.DENY_CNT 0))
  (lateLine src (accessCap m typ (sizeLog n) a))

/-- A store of a subsystem over the memory fabric: each transaction is judged (R34, R36) and, admitted, reaches DRAM through the buffer cache (R35). -/
def fabricStore (m : Master) (a : Nat) (bs : List Byte) : Prog := each (storeParts (bs.length / 256 + 2) a bs) fun x => .ask fun s =>
  match s.accessFault m atWrite x.1 x.2.length with
  | some src => faultLine m atWrite x.1 x.2.length src
  | none => if s.region x.1 x.2.length = some .dram then dramStore m x.1 x.2 else memBytes x.1 x.2

/-- The source that ends the first failing transaction of a store of `n` bytes into DRAM, if one fails. -/
def State.storeFault (s : State) (m : Master) (a n : Nat) : Option Nat :=
  match s.accessFault m atWrite a n with
  | some src => some src
  | none => if s.region a n = some .dram then none else some 17

/-- Likewise of a load of `n` bytes from DRAM. -/
def State.loadFault (s : State) (m : Master) (a n : Nat) : Option Nat :=
  match s.accessFault m atRead a n with
  | some src => some src
  | none => if s.region a n = some .dram then none else some 17

/-- A table entry that a subsystem stores: words, then the CRC word over them (R53, R94, R157, R213). -/
def fabricWords (m : Master) (a : Nat) (ws : List Word) : Prog := fabricStore m a (ws.flatMap fun w => leBytes 4 w.toNat)
def fabricSealed (m : Master) (a : Nat) (ws : List Word) : Prog := fabricWords m a (ws ++ [crcWords ws])

/-- A half of these bytes reads as uncorrectable (R364). -/
def State.poisoned (s : State) (a n : Nat) : Bool := n != 0 && s.bmu.poison.any fun h => decide (a / 32 ≤ h ∧ h ≤ (a + n - 1) / 32)

/-- Parts of a firmware slot: 0 Keeper, 1 application; where each lies, its size, its TYPE (R463). -/
def partAddr (slot part : Nat) : Nat := 0x40000000 + 0x800000 * slot + 0x200000 * part
def partSize (part : Nat) : Nat := if part = 0 then 0x200000 else 0x600000
def partType (part : Nat) : Nat := if part = 0 then 0x4B else 0x41

/-- A part's body is placed at LOAD (R463, Table 16.11); its start address. -/
def State.imageEntry (s : State) (slot part : Nat) : Nat := (s.memW (partAddr slot part + 24) + 2 ^ 32 * s.memW (partAddr slot part + 28)) % 2 ^ 40
def imageLoad (slot part : Nat) : Prog := .ask fun s =>
  let a := partAddr slot part
  fabricStore .keeper ((s.memW (a + 16) + 2 ^ 32 * s.memW (a + 20)) % 2 ^ 40) (s.bytes (a + 256) (min (s.memW (a + 12)) (partSize part - 256)))

end Sys2Proof.Machine
end

