-- ==== Sys2Proof/Machine/PalOps.lean ====
section
/-! DEFINITION. The preamp links: frames, their CRC, commands that wait for an ACK (R105 to R111, R159, R194). -/
namespace Sys2Proof.Machine

/-- One bit step of the link's CRC-8, x^8 + x^2 + x + 1, most significant bit first. -/
def crc8Bit (c : Nat) : Nat := if c ≥ 128 then (2 * c % 256) ^^^ 7 else 2 * c

/-- CRC-8 with initial value 0xFF (R105). -/
def crc8 (bs : List Nat) : Nat :=
  bs.foldl (fun c b => (List.range 8).foldl (fun x _ => crc8Bit x) (c ^^^ b)) 0xFF

/-- The CRC byte of a frame: TYPE, then PAYLOAD most significant byte first. -/
def palCrc (typ payload : Nat) : Nat := crc8 [typ, payload / 65536 % 256, payload / 256 % 256, payload % 256]

/-- The preamp link of actuator `a` is up. -/
def State.palUp (s : State) (a : Nat) : Bool := s.on RDC_PAL_STAT.UP a

/-- The arm position a command frame names: bits 18 to 16 of MA_CMD, bits 14 to 12 of the others. -/
def palArm (typ payload : Nat) : Nat := if typ = 0x30 then nbits payload 18 16 else nbits payload 14 12

/-- A frame: TYPE, PAYLOAD and its CRC-8 (R105). Where no frame is sent, the line carries IDLE frames, which are not listed. -/
def palFrame (a typ payload : Nat) : Prog := send "PAL" "FRAME" [a, typ, payload, palCrc typ payload]

/-- A command frame: it waits for its ACK. A newer MA_CMD for an arm replaces the one before (R194). Nothing is sent while the
link is down. -/
def palCmd (a typ payload : Nat) : Prog := whenS (fun s => s.palUp a) (.seq (palFrame a typ payload)
  (.ask fun s => .upd (.rdc fun x =>
    { x with cmds := (x.cmds.filter fun c => !(typ == 0x30 && c.typ == 0x30 && c.act == a && palArm 0x30 c.payload == palArm 0x30 payload)) ++
        [{ act := a, typ, payload, since := s.ptm.ticks }] })))

/-- The oldest outstanding command that an ACK with this CRC and TYPE names. -/
def State.palFind (s : State) (a typ crc : Nat) : Option PalCmd :=
  s.rdc.cmds.find? fun c => c.act == a && c.typ == typ && palCrc c.typ c.payload == crc

/-- A command is no longer outstanding. -/
def palDrop (c : PalCmd) : Prog := .upd (.rdc fun x => { x with cmds := x.cmds.erase c })

/-- RD_SEL, RD_BIAS, RD_PGAIN (Table 3.16). -/
def rdSel (p arm : Nat) (on : Bool) : Prog := palCmd (p / 4) 0x10 (p % 4 * 65536 + arm * 4096 + b2n on * 256)
def rdBias (a arm r code : Nat) : Prog := palCmd a 0x11 (arm * 4096 + r * 256 + code)
def rdPgain (a arm code : Nat) : Prog := palCmd a 0x12 (arm * 4096 + code)

/-- Where the value last acknowledged of a type and arm position is kept; a frame that is sent only when its value differs from it (R159). -/
def ackKey (a typ payload : Nat) : Nat := (256 * a + typ) * 8 + palArm typ payload
def palValue (a typ payload : Nat) : Prog := whenS (fun s => Sparse.get (2 ^ 24) s.rdc.acked (ackKey a typ payload) != payload) (palCmd a typ payload)
/-- An acknowledged value. -/
def palAcked (c : PalCmd) : Prog := when ([0x21, 0x22, 0x25].contains c.typ)
  (.upd (.rdc fun x => { x with acked := Sparse.put (2 ^ 24) x.acked (ackKey c.act c.typ c.payload) c.payload }))

/-- WR_SEL, WR_CUR, WR_OS, AST_SET, AST_ON, HTR_SET (Table 5.7). -/
def wrSel (w arm : Nat) (on : Bool) : Prog := palCmd (w / 2) 0x20 (w % 2 * 65536 + arm * 4096 + b2n on * 256)
def wrCur (a arm iw : Nat) : Prog := palValue a 0x21 (arm * 4096 + iw)
def wrOs (a arm osa osd : Nat) : Prog := palValue a 0x22 (osa * 65536 + arm * 4096 + osd)
def astSet (a arm d : Nat) : Prog := palCmd a 0x23 (arm * 4096 + d)
def astOn (a arm : Nat) (on : Bool) : Prog := palCmd a 0x24 (arm * 4096 + b2n on * 256)
def htrSet (a arm h : Nat) : Prog := palValue a 0x25 (arm * 4096 + h)

/-- MA_CMD (Table 6.15): the signed command in its low 16 bits. -/
def maCmd (a arm : Nat) (u : Int) : Prog := palCmd a 0x30 (arm * 65536 + ofSigned 16 u)

/-- Link-up begins: HELLO frames at P1 (R106). Nothing is sent while VPRE is off. -/
def palStart (a : Nat) : Prog := whenS (fun s => s.ptm.vpre && !s.palUp a) (palFrame a 0x01 0x02)

/-- The link of actuator `a` goes down (R110, R160, R195). -/
def palDown (a : Nat) : Prog := all [
  setF RDC_PAL_STAT.UP a 0, setF RDC_PAL_STAT.VER a 0,
  .upd (.rdc fun x => { x with cmds := x.cmds.filter fun c => c.act != a })]

/-- VPRE is switched: on, link-up begins; off, the links are down (R106). -/
def setVpre (on : Bool) : Prog := all [
  .upd (.ptm fun x => { x with vpre := on }), pdRequest "VPRE" [b2n on],
  each (List.range 4) fun a => if on then palStart a else palDown a]

end Sys2Proof.Machine
end

