-- ==== Sys2Proof/Machine/WriteOps.lean ====
section
/-! DEFINITION. WRC's shared operations: write-unsafe sources, closing gates, the rewrite ring (R164 to R170), the heater and
assist arithmetic (R161, R162). -/
namespace Sys2Proof.Machine

/-- Closure causes (Table 5.11). -/
def cOfftrack : Nat := 0
def cShock : Nat := 1
def cForewarn : Nat := 2
def cSpeed : Nat := 3
def cSupply : Nat := 4
def cAssist : Nat := 5
def cPreamp : Nat := 6
def cPowerloss : Nat := 7
def cInhibit : Nat := 8
def cVerify : Nat := 9
def cNeighbour : Nat := 10
def cSafe : Nat := 11

/-- Writer `w`. -/
def State.writer (s : State) (w : Nat) : Writer := Sparse.get {} s.wrc.writers w

/-- Replace writer `w`. -/
def setWriter (w : Nat) (f : Writer → Writer) : Prog :=
  .upd (.wrc fun x => { x with writers := Sparse.put {} x.writers w (f (Sparse.get {} x.writers w)) })

/-- Writer power states (Table 5.4): READY while the domain is powered, ACTIVE while a gate is open. The table only names them (DESIGN CHOICE, assumption
log 29). -/
def wpOff : Nat := 0
def wpReady : Nat := 1
def wpActive : Nat := 2

/-- The wedge interval of the reference build in whole ticks: 19.84 µs is 158.7 ticks (R167, R171). -/
def wedgeTicks : Nat := 158

/-- Rounding to the nearest, halves away from zero, of `a / b` (R176; assumption log 6 for the other rules that say "round"). -/
def roundDiv (a : Int) (b : Nat) : Int :=
  if a ≥ 0 then (2 * a + b) / (2 * b) else -((2 * (-a) + b) / (2 * b))

/-- Entries of the rewrite ring (Table 5.14). -/
def State.rwlSize (s : State) : Nat := 2 ^ clampN 8 15 (s.get WRC_RWL_CTL.SIZE_LOG2 0)

/-- Entries written and not yet consumed. -/
def State.rwlUsed (s : State) : Nat :=
  (s.get WRC_RWL_PTR.WR 0 + s.rwlSize - s.get WRC_RWL_PTR.RD 0 % s.rwlSize) % s.rwlSize

/-- The ring holds an entry of row `g`, and the pass of actuator `a` is the fast path's (R170). -/
def State.ringHas (s : State) (g : Nat) : Bool := (List.range s.rwlUsed).any fun k =>
  let a := s.get WRC_RWL_BASE.ADDR 0 * 4096 + 16 * ((s.get WRC_RWL_PTR.RD 0 + k) % s.rwlSize)
  s.memW a + 2 ^ 32 * (s.memW (a + 4) % 256) == g
def State.fastPass (s : State) (a : Nat) : Bool := s.sve.pass.any fun e => e.1 == a && e.2.issuer == 0

/-- Fewer than 16 entries are free (R169). -/
def State.rwlFull (s : State) : Bool := decide (s.rwlSize < s.rwlUsed + 16)

/-- WRC_WUS_STAT.LIVE: the write-unsafe sources in SEEN order (Table 5.12). -/
def State.wusLive (s : State) : Nat :=
  b2n (!s.wrc.offtrack.isEmpty) ||| b2n s.wrc.shock <<< 1 ||| b2n s.wrc.forewarn <<< 2 ||| b2n (!s.on SPN_STAT.AT_SPEED 0) <<< 3 |||
    b2n s.wrc.supply <<< 4 ||| b2n (s.wrc.writers.any fun e => e.2.powerLoss) <<< 5 ||| b2n s.wrc.safe <<< 6 |||
    b2n s.rwlFull <<< 7

/-- The tick in which a source last deasserted, by its key: a gate reopens one tick later (R164). -/
def noteCleared (k : Nat) : Prog := .ask fun s =>
  .upd (.wrc fun x => { x with cleared := Sparse.put 0 x.cleared k (s.ptm.ticks + 1) })

/-- Keys of the sources: one for each kind, and per head path, actuator and writer. -/
def kShock : Nat := 0
def kForewarn : Nat := 1
def kSpeed : Nat := 2
def kSupply : Nat := 3
def kSafe : Nat := 4
def kFull : Nat := 5
def kOfftrack (p : Nat) : Nat := 16 + p
def kPreamp (a : Nat) : Nat := 32 + a
def kWriter (w : Nat) : Nat := 40 + w

/-- Show the live sources; a source that has newly asserted is SEEN (Table 5.12). -/
def wusShow : Prog := .ask fun s =>
  let new := s.wusLive
  let old := s.get WRC_WUS_STAT.LIVE 0
  all [setF WRC_WUS_STAT.SEEN 0 (s.get WRC_WUS_STAT.SEEN 0 ||| (new &&& (new ^^^ old))), setF WRC_WUS_STAT.LIVE 0 new,
    when (nbit old 7 && !nbit new 7) (noteCleared kFull), setF WRC_RWL_CTL.FULL 0 (b2n s.rwlFull)]

/-- Write one rewrite entry and advance WR (Table 5.13, R168). -/
def rewriteEntry (x : SecInfo) (cause : Nat) (adj : Bool) : Prog := .ask fun s =>
  let wr := s.get WRC_RWL_PTR.WR 0 % s.rwlSize
  all [fabricWords .wrc (s.get WRC_RWL_BASE.ADDR 0 * 4096 + 16 * wr)
      [BitVec.ofNat 32 x.row,
        BitVec.ofNat 32 (1 <<< 31 ||| b2n adj <<< 28 ||| (cause % 16) <<< 24 ||| (x.head % 32) <<< 16 ||| (x.path % 16) <<< 12 |||
          (x.j % 16) <<< 8 ||| x.row / 2 ^ 32 % 256),
        BitVec.ofNat 32 x.tag, BitVec.ofNat 32 s.timeLo],
    setF WRC_RWL_PTR.WR 0 ((wr + 1) % s.rwlSize), .upd (.wrc fun z => { z with again := (z.again.filter fun e => e != (x.row, x.j)) ++ [(x.row, x.j)] })]

/-- The sector that head path `p` completed last under either writer of its actuator, and when (R167). -/
def State.lastDone (s : State) (p : Nat) : Option (SecInfo × Nat) :=
  ([p / 4 * 2, p / 4 * 2 + 1].filterMap fun w => (s.writer w).last.filter fun e => e.1.path == p).foldl (fun b e => match b with
    | some x => if x.2 < e.2 then some e else b
    | none => some e) none

/-- The entries of one writer's closure: the interrupted sector, then its NEIGHBOUR for off-track and shock (R167). -/
def rewriteInterrupted (w cause : Nat) : Prog := .ask fun s =>
  match (s.writer w).sector with
  | none => .skip
  | some x =>
    let adj := cause == cOfftrack || cause == cShock
    all [rewriteEntry x cause adj,
      when adj (match s.lastDone x.path with
        | some (y, tEnd) =>
          if s.time ≤ tEnd + wedgeTicks then
            .seq (rewriteEntry y cNeighbour true)
              (.upd (.wrc fun z => { z with rows := z.rows.map fun r => if r.row = y.row then { r with neighbour := y.j :: r.neighbour.filter (· != y.j) } else r }))
          else .skip
        | none => .skip)]

/-- A member leaves the writers' sector buffer. -/
def bufferDrop (g j : Nat) : Prog := .upd (.wrc fun z => { z with buffer := z.buffer.filter fun h => !(h.row == g && h.j == j) })

/-- Close the gate of writer `w` (R166, R167): squelch the pair, record the cause, write the entries. A closure for a FAILED
head leaves no entry. Squelch stops the assist power (R160); the arm's AST_ON stays as commanded but behind an assist fault, so that the gate may reopen once its
sources have cleared (R163, R164; the spec does not say when assist returns: DESIGN CHOICE, assumption log 29). -/
def closeGate (w cause : Nat) (failed : Bool) : Prog := .ask fun s =>
  if s.on WRC_WR_STAT.GATE w then
    all [setF WRC_WR_STAT.GATE w 0, when (cause == cAssist) (setF WRC_WR_STAT.AST_ON w 0), send "WRO" "squelch" [w],
      when (s.domainOn (48 + w)) (setF WRC_WR_STAT.PWR w wpReady),
      when (s.writer w).sector.isSome (setF WRC_WR_STAT.CAUSE w cause),
      (match (s.writer w).sector with
        | some x => bufferDrop x.row x.j
        | none => .skip),
      when (!failed) (rewriteInterrupted w cause), setWriter w fun x => { x with sector := none }]
  else .skip

/-- Close the gates of several writers, in ascending number (R168), and show the sources. -/
def closeGates (ws : List Nat) (cause : Nat) : Prog := .seq (each ws fun w => closeGate w cause false) wusShow

/-- All writers. -/
def allWriters : List Nat := List.range 8

/-- The writers whose present head path is `p`. -/
def State.writersOfPath (s : State) (p : Nat) : List Nat :=
  allWriters.filter fun w => (s.writer w).pass && (s.writer w).path == p

/-- The writers of actuator `a`. -/
def writersOfAct (a : Nat) : List Nat := [2 * a, 2 * a + 1]

/-- An OFFTRACK or SHOCK assertion restarts the wait of rows whose last postamble is less than a wedge interval old (R171). -/
def rowsDisturbed (ps : List Nat) : Prog := .ask fun s => .upd (.wrc fun x =>
  { x with rows := x.rows.map fun r =>
      if s.time ≤ r.lastEnd + wedgeTicks ∧ (r.done.any fun j => ps.contains ((j + r.row) % 16)) then { r with lastEnd := s.time } else r })

/-- Head path `p` off track, or back on (Table 5.10). -/
def setOfftrack (p : Nat) (b : Bool) : Prog := .ask fun s =>
  if b then
    all [.upd (.wrc fun x => { x with offtrack := if x.offtrack.contains p then x.offtrack else p :: x.offtrack }),
      closeGates (s.writersOfPath p) cOfftrack, rowsDisturbed [p]]
  else when (s.wrc.offtrack.contains p) <| .seq (noteCleared (kOfftrack p)) <| .seq (.upd (.wrc fun x => { x with offtrack := x.offtrack.filter (· != p) })) wusShow

/-- Actuator `a`'s preamp source (Table 5.10). -/
def setPreamp (a : Nat) (b : Bool) : Prog :=
  if b then
    all [.upd (.wrc fun x => { x with preamp := if x.preamp.contains a then x.preamp else a :: x.preamp }),
      closeGates (writersOfAct a) cPreamp]
  else whenS (fun s => s.wrc.preamp.contains a) <| .seq (noteCleared (kPreamp a)) <| .seq (.upd (.wrc fun x => { x with preamp := x.preamp.filter (· != a) })) wusShow

/-- A source of the scope "all writers" asserts: gates close in the tick after (R31, R166). -/
def setShock (b : Bool) : Prog :=
  .seq (.upd (.wrc fun x => { x with shock := b }))
    (if b then .seq (closeGates allWriters cShock) (rowsDisturbed (List.range 16)) else .seq (noteCleared kShock) wusShow)
def setForewarn (b : Bool) : Prog :=
  .seq (.upd (.wrc fun x => { x with forewarn := b })) (if b then closeGates allWriters cForewarn else .seq (noteCleared kForewarn) wusShow)
/-- AT_SPEED changes: the speed source is asserted exactly while it is 0 (R234). -/
def setAtSpeed (b : Bool) : Prog :=
  .seq (setF SPN_STAT.AT_SPEED 0 (b2n b)) (if b then .seq (noteCleared kSpeed) wusShow else closeGates allWriters cSpeed)
def setSupply (b : Bool) : Prog :=
  .seq (.upd (.wrc fun x => { x with supply := b })) (if b then closeGates allWriters cSupply else .seq (noteCleared kSupply) wusShow)
def setSafeSource (b : Bool) : Prog :=
  .seq (.upd (.wrc fun x => { x with safe := b })) (if b then closeGates allWriters cSafe else .seq (noteCleared kSafe) wusShow)

/-- The power-loss source of writer `w` asserts (R165); it does not deassert within the power cycle. -/
def setPowerLoss (w : Nat) : Prog := .seq (setWriter w fun x => { x with powerLoss := true }) (closeGates [w] cPowerloss)

/-- Writer `w` may open its gate as far as the write-unsafe sources, the ring and ENABLE go (R164, R169). -/
def State.gateAllowed (s : State) (w : Nat) : Bool :=
  let x := s.writer w
  !(s.wrc.offtrack.contains x.path || s.wrc.preamp.contains (w / 2) || s.wrc.shock || s.wrc.forewarn || !s.on SPN_STAT.AT_SPEED 0 ||
    s.wrc.supply || s.wrc.safe || x.powerLoss || x.assist || s.on WRC_WR_CTL.INHIBIT w || s.rwlFull ||
    !s.on WRC_RWL_CTL.ENABLE 0) &&
  ([kShock, kForewarn, kSpeed, kSupply, kSafe, kFull, kOfftrack x.path, kPreamp (w / 2), kWriter w].all fun k =>
    Sparse.get 0 s.wrc.cleared k ≤ s.ptm.ticks)

/-- A clearance is usable: delivered at most 1 s ago (R161). CTGT = 0 ends the heater loop and leaves C usable: the rules do not say otherwise (DESIGN CHOICE,
assumption log 29). -/
def State.clearance (s : State) (h : Nat) : Option Int :=
  match s.wrc.clearance.find? fun e => e.1 == h with
  | some (_, c, t) => if s.time ≤ t + tickSec then some c else none
  | none => none

/-- The clearance error C − 5 × CTGT in 0.01 nm (R161). -/
def State.clearErr (s : State) (h : Nat) : Int :=
  match s.clearance h with
  | some c => c - 5 * (s.get WRC_HEAD_CFG.CTGT h : Int)
  | none => 0

/-- The heater code after a delivery of clearance (R161). -/
def heaterNext (old kh htrMax : Nat) (err : Int) : Nat :=
  (clampI 0 htrMax ((old : Int) + clampI (-4) 4 (roundDiv ((kh : Int) * err) 1024))).toNat

/-- The assist set-point P_sp in monitor codes (R162). -/
def assistSetPoint (asp kc : Nat) (trim err : Int) : Nat :=
  (clampI 0 1023 ((asp : Int) + roundDiv ((asp : Int) * trim) 1024 + roundDiv ((kc : Int) * err) 1600)).toNat

/-- The assist drive code after a monitor sample (R162). -/
def assistDrive (d pSp m ka drvMax : Nat) : Nat :=
  (clampI 0 drvMax ((d : Int) + roundDiv ((pSp : Int) - (m : Int)) (2 ^ ka))).toNat

/-- The arm of the head that writer `w` serves. -/
def State.wArm (s : State) (w : Nat) : Nat := (s.writer w).head % 6

/-- The write-parameter entry of (head, zone) (R157). -/
def State.wtabAddr (s : State) (h z : Nat) : Nat := s.get WRC_WTAB_BASE.ADDR 0 * 4096 + (128 * h + z) * 64

/-- Word `k` of a writer's live set. -/
def State.wParam (s : State) (w k : Nat) : Nat := ((s.writer w).params.getD k 0).toNat

/-- The TRIM of writer `w`'s live set (R162, R173). -/
def State.wTrim (s : State) (w : Nat) : Int := toSigned 12 (nbits (s.wParam w 6) 11 0)

/-- The set-point of writer `w`'s assist (R162). -/
def State.wSetPoint (s : State) (w : Nat) : Nat :=
  assistSetPoint (nbits (s.wParam w 5) 9 0) (s.get WRC_HEAD_CFG.KC (s.writer w).head) (s.wTrim w) (s.clearErr (s.writer w).head)

/-- The heater code the preamp receives while a head is assigned to a writer (R161). -/
def State.heaterWrite (s : State) (h : Nat) : Nat := Sparse.get 0 s.wrc.heater h - s.get WRC_HEAD_CFG.HBO h

/-- A head is assigned to a writer in this pass. -/
def State.headWriting (s : State) (h : Nat) : Bool := allWriters.any fun w => (s.writer w).pass && (s.writer w).head == h

/-- A MPC member streams out to WRC under its row's tag: it lies in its writer's sector buffer, and its tag is the newest issued for the member (R153, R172,
R280). -/
def toWriter (g j tag : Nat) (coded : List Byte) : Prog := .seq (send "SECTOR" "write member" ([g, j, tag] ++ coded.map (·.toNat)))
  (.upd (.wrc fun z => { z with
    buffer := (z.buffer.filter fun h => !(h.row == g && h.j == j)) ++ [{ row := g, j, tag, bytes := coded ++ beBytes 4 tag }]
    tags := Sparse.put 0 z.tags (16 * g + j) tag }))

/-- Frames of a writer's pass start (Table 5.2, step 2), which wait for their ACKs; step 3 on assist heads; the writer is then ready (R154). -/
def writerFrames (w : Nat) : Prog := .ask fun s =>
  let a := w / 2
  let arm := s.wArm w
  all [wrSel w arm true, wrCur a arm (nbits (s.wParam w 4) 7 0), wrOs a arm (nbits (s.wParam w 4) 15 8) (nbits (s.wParam w 4) 21 16),
    htrSet a arm (s.heaterWrite (s.writer w).head), setWriter w fun x => { x with waitAck := true }]
def writerAssist (w : Nat) : Prog := .ask fun s =>
  let a := w / 2
  let arm := s.wArm w
  all [
    when (s.get WRC_HEAD_CFG.ATYPE (s.writer w).head != 0) (all [
      astSet a arm (s.writer w).drvInit, setF WRC_WR_STAT.DRV w (s.writer w).drvInit, astOn a arm true, setF WRC_WR_STAT.AST_ON w 1]),
    setWriter w fun x => { x with ready := true, waitAck := false }]

/-- A writer whose frames of step 2 are all acknowledged goes on (R154). -/
def State.stepAcked (s : State) (w : Nat) : Bool := (s.writer w).waitAck && !(s.rdc.cmds.any fun c => c.act == w / 2 &&
  [0x20, 0x21, 0x22, 0x25].contains c.typ && palArm c.typ c.payload == s.wArm w)
def writersAcked (a : Nat) : Prog := .ask fun s => each ((writersOfAct a).filter s.stepAcked) writerAssist

/-- A writer's pass ends: assist off, read heater code, driver deselected, TRIM and DRV_INIT written back (R154, R158). -/
def writerEnd (w : Nat) : Prog := .ask fun s => when (s.writer w).pass (
  let x := s.writer w
  let a := w / 2
  let arm := s.wArm w
  all [
    when (s.get WRC_HEAD_CFG.ATYPE x.head != 0) (astOn a arm false), setF WRC_WR_STAT.AST_ON w 0,
    htrSet a arm (Sparse.get 0 s.wrc.heater x.head), wrSel w arm false,
    (match x.liveSet with
      | some (h, z') => when (x.completed && s.on WRC_WR_CTL.WT_WB_EN w)
          (let e := s.wtabAddr h z'
           .seq (fabricSealed .wrc e ((List.range 15).map fun k =>
             if k = 6 then BitVec.ofNat 32 (s.memW (e + 24) / 4096 * 4096 + nbits (s.wParam w 6) 11 0)
             else if k = 7 then BitVec.ofNat 32 (s.memW (e + 28) / 1024 * 1024 + x.drvInit % 1024) else BitVec.ofNat 32 (s.memW (e + 4 * k))))
             (.upd (.wrc fun z => { z with trim := z.trim.filter fun e => e.1 != 128 * h + z' })))
      | none => .skip),
    setF WRC_WR_CTL.ASSIGNED w 0, when (s.domainOn (48 + w)) (setF WRC_WR_STAT.PWR w wpReady),
    setWriter w fun x => { x with pass := false, ready := false, waitAck := false, loading := false, completed := false, assist := false, monHigh := 0, monLow := 0 },
    when x.assist (noteCleared (kWriter w)), setPreamp a false])

/-- ACTIVE, of the states of a head path (R112), and the state of one. -/
def pwActive : Nat := 3
def State.hpPwr (s : State) (p : Nat) : Nat := s.get RDC_HP_STAT.PWR p

/-- What lane `n`'s front end is set to: gain, boost, high-pass corner and sampling phase, each at most the top of its range, and the offset trim
(R83, R84). -/
def frontEnd (n : Nat) : Prog := .ask fun s => emit (.event "front end" [n, min 120 (s.get RDC_LANE_AFE.GAIN n), min 24 (s.get RDC_LANE_AFE.BOOST n),
  min 19 (s.get RDC_LANE_AFE.HPF n), s.get RDC_LANE_AFE.OFS_TRIM n, s.get RDC_LANE_SKEW.PHASE n])

/-- A list of writes without those of a register, and with a newer one of it. -/
def writeDrop (p key : Nat) (l : List (Nat × Nat × Nat)) : List (Nat × Nat × Nat) := l.filter fun e => !(e.1 == p && e.2.1 == key)
def writePut (p key v : Nat) (l : List (Nat × Nat × Nat)) : List (Nat × Nat × Nat) := writeDrop p key l ++ [(p, key, v)]

/-- The writers that use a WRC register whose writes are held pending: its own writer, those of its head, or all (R155). -/
def State.wrcUsers (s : State) (r : RegName) (i : Nat) : List Nat :=
  allWriters.filter fun w => (s.writer w).pass &&
    (match r with
      | .WRC_WR_CTL => w == i
      | .WRC_HEAD_CFG => (s.writer w).head == i
      | _ => r == .WRC_CFG)

/-- A register takes a value as a write of its Keeper gives it: pending while its head path is ACTIVE (R98) or a writer that uses it is in a pass (R155), an
older pending write dropped; for the registers of Table 21.3. -/
def targetPut (r : RegName) (i v : Nat) : Prog := .ask fun s =>
  let held := match r with
    | .RDC_LANE_AFE => s.hpPwr (i / 2) == pwActive
    | .WRC_HEAD_CFG => !(s.wrcUsers r i).isEmpty
    | _ => false
  all [
    when (r == .RDC_LANE_AFE) (.upd (.rdc fun x => { x with
      pend := if held then writePut (i / 2) (regKey r i) v x.pend else writeDrop (i / 2) (regKey r i) x.pend
      early := if held then x.early else writePut (i / 2) (regKey r i) v x.early })),
    when (r == .WRC_HEAD_CFG) (.upd (.wrc fun x => { x with pend := if held then writePut 0 (regKey r i) v x.pend else writeDrop 0 (regKey r i) x.pend })),
    when (!held) (.seq (.upd (.reg r i (BitVec.ofNat 64 v))) (when (r == .RDC_LANE_AFE) (frontEnd i)))]

end Sys2Proof.Machine
end

