-- ==== Sys2Proof/Machine/LoopOps.lean ====
section
/-! DEFINITION. The control-law arithmetic of Transit's and SPN's contexts (R176 to R180, R224). -/
namespace Sys2Proof.Machine

/-- The largest 32-bit value and the least: Q2.29 saturation (R176). -/
def sat32 (x : Int) : Int := clampI (-2147483648) 2147483647 x
def sat16 (x : Int) : Int := clampI (-32768) 32767 x
/-- S1 and S2 saturate at ±32.0 with 58 fraction bits (R176). -/
def satS (x : Int) : Int := clampI (-(32 * 2 ^ 58)) (32 * 2 ^ 58) x

/-- One biquad section of the cascade: output, next S1, next S2, whether the output saturated (R176). -/
def biquad (b0 b1 b2 a1 a2 x s1 s2 : Int) : Int × Int × Int × Bool :=
  let r := roundDiv (b0 * x + s1) (2 ^ 29)
  let y := sat32 r
  (y, satS (b1 * x - a1 * y + s2), satS (b2 * x - a2 * y), y != r)

/-- The cascade over sections `ss` of coefficients: output, the new states, saturation seen. -/
def cascade : List (List Int) → List Int → List Int → Int → Int × List Int × List Int × Bool
  | [], _, _, x => (x, [], [], false)
  | c :: cs, s1, s2, x =>
    let (y, n1, n2, f) := biquad (c.getD 0 0) (c.getD 1 0) (c.getD 2 0) (c.getD 3 0) (c.getD 4 0) x (s1.headD 0) (s2.headD 0)
    let (z, l1, l2, g) := cascade cs s1.tail s2.tail y
    (z, n1 :: l1, n2 :: l2, f || g)

/-- X = sat32(E << IN_SH), with rounding when IN_SH is negative (R176). -/
def scaleIn (e inSh : Int) : Int :=
  sat32 (if inSh ≥ 0 then e * 2 ^ inSh.toNat else roundDiv e (2 ^ (-inSh).toNat))

/-- A coefficient bank as one execution uses it (Table 6.3). -/
structure Bank where
  secs : List (List Int)
  kp : Int
  ki : Int
  iHi : Int
  iLo : Int
  outHi : Int
  outLo : Int
  aw : Bool
  outSh : Nat
  inSh : Int
  deriving DecidableEq, Repr

/-- A bank read word by word. -/
def bankOf (w : Nat → Nat) : Bank :=
  let q := fun k => toSigned 32 (w k)
  { secs := (List.range (min 16 (nbits (w 86) 4 0))).map fun s => (List.range 5).map fun k => q (5 * s + k)
    kp := q 80, ki := q 81, iHi := q 82, iLo := q 83, outHi := q 84, outLo := q 85, aw := nbit (w 86) 31
    outSh := nbits (w 86) 20 16, inSh := toSigned 6 (nbits (w 86) 13 8) }

/-- The limits of a bank are inverted: its commit is refused (Table 6.3). -/
def Bank.inverted (b : Bank) : Bool := decide (b.iLo > b.iHi ∨ b.outLo > b.outHi)

/-- One execution: input `e`, feedforward `ff`, MAN, integrator `i`, mode, whether this is the first AUTO execution, and the
limits that lie on the output beyond the bank's own: the stroke of R183, I_ACC of R231 (R176, R179). CLAMP_I and CLAMP_O mean
"at a limit after the execution" (Table 6.8), and CLAMP_I also a clamped preset (R180). -/
def execCtx (b : Bank) (e ff man i : Int) (auto first : Bool) (s1 s2 : List Int) (lim : Option (Int × Int)) : ExecResult :=
  let (w, n1, n2, sat) := cascade b.secs s1 s2 (scaleIn e b.inSh)
  let sh : Int := 2 ^ b.outSh
  let outer := fun o : Int => match lim with
    | some (lo, hi) => clampI lo hi o
    | none => o
  let atOuter := fun o : Int => match lim with
    | some (lo, hi) => decide (o ≤ lo ∨ hi ≤ o)
    | none => false
  if auto then
    let kpw := roundDiv (b.kp * w) (2 ^ 29)
    let pre := man * sh - kpw - ff * sh
    let i0 := if first then clampI b.iLo b.iHi pre else i
    let yt := kpw + i0 + ff * sh
    let y := clampI b.outLo b.outHi yt
    let o := sat16 (roundDiv y (2 ^ b.outSh))
    let kiw := roundDiv (b.ki * w) (2 ^ 29)
    let held := b.aw && (decide (yt > b.outHi ∧ kiw > 0) || decide (yt < b.outLo ∧ kiw < 0))
    let i1 := if held then i0 else clampI b.iLo b.iHi (i0 + kiw)
    { out := outer o, i := i1, s1 := n1, s2 := n2, clampI := (first && i0 != pre) || decide (i1 ≤ b.iLo ∨ b.iHi ≤ i1)
      clampO := decide (yt ≤ b.outLo ∨ b.outHi ≤ yt) || atOuter o, secSat := sat }
  else { out := outer man, i, s1 := n1, s2 := n2, clampI := false, clampO := atOuter man, secSat := sat }

/-- The registers of a set of contexts: Transit's 24 (Tables 6.6 to 6.8) or SPN's 3 (R224). -/
structure CtxFile where
  enable : Fld
  mode : Fld
  man : Fld
  out : Fld
  integ : Fld
  clampI : Fld
  clampO : Fld
  modeAct : Fld
  secSat : Fld
  clampCnt : Fld
  deriving DecidableEq, Repr

/-- Transit's contexts. -/
def sveFile : CtxFile :=
  { enable := SVE_CTX_CFG.ENABLE, mode := SVE_CTX_CFG.MODE, man := SVE_CTX_MAN.MAN, out := SVE_CTX_OUT.OUT
    integ := SVE_CTX_INTEG.I, clampI := SVE_CTX_STAT.CLAMP_I, clampO := SVE_CTX_STAT.CLAMP_O
    modeAct := SVE_CTX_STAT.MODE_ACT, secSat := SVE_CTX_STAT.SEC_SAT, clampCnt := SVE_CTX_STAT.CLAMP_CNT }

/-- SPN's contexts. -/
def spnFile : CtxFile :=
  { enable := SPN_CTX_CFG.ENABLE, mode := SPN_CTX_CFG.MODE, man := SPN_CTX_MAN.MAN, out := SPN_CTX_OUT.OUT
    integ := SPN_CTX_INTEG.I, clampI := SPN_CTX_STAT.CLAMP_I, clampO := SPN_CTX_STAT.CLAMP_O
    modeAct := SPN_CTX_STAT.MODE_ACT, secSat := SPN_CTX_STAT.SEC_SAT, clampCnt := SPN_CTX_STAT.CLAMP_CNT }

/-- One execution of context `k` on what its registers hold as it starts (R176, R180): the first MANUAL execution takes, and loads into MAN, the last
AUTO output. Sections that the bank does not use keep their states. -/
def State.ctxRun (s : State) (F : CtxFile) (k : Nat) (b : Bank) (e ff : Int) (lim : Option (Int × Int)) (c : Ctx) : CtxRun :=
  let auto := s.on F.mode k
  let load := !auto && c.wasAuto
  let man := if load then s.sget F.out k else s.sget F.man k
  let r := execCtx b e ff man (toSigned 32 (s.get F.integ k)) auto (auto && !c.wasAuto) c.s1 c.s2 lim
  { k, e, auto, man := if load then some man else none
    res := { r with s1 := r.s1 ++ c.s1.drop r.s1.length, s2 := r.s2 ++ c.s2.drop r.s2.length } }

/-- An execution ends: its result goes to OUT, INTEG and STAT (R176, R179, R180). -/
def ctxEnd (F : CtxFile) (x : CtxRun) (store : (Ctx → Ctx) → Prog) : Prog := .ask fun s =>
  all [(match x.man with
      | some v => setI F.man x.k v
      | none => .skip),
    setI F.out x.k x.res.out, setI F.integ x.k x.res.i, setF F.clampI x.k (b2n x.res.clampI), setF F.clampO x.k (b2n x.res.clampO),
    setF F.modeAct x.k (b2n x.auto), when x.res.secSat (setF F.secSat x.k 1),
    setF F.clampCnt x.k (if x.res.clampO then satAdd (s.get F.clampCnt x.k) 1 255 else 0),
    store fun c => { c with s1 := x.res.s1, s2 := x.res.s2, wasAuto := x.auto }]

/-- An execution that takes no time in the model (SPN's, R224). -/
def runCtx (F : CtxFile) (k : Nat) (b : Bank) (e ff : Int) (lim : Option (Int × Int)) (c : Ctx) (store : (Ctx → Ctx) → Prog) : Prog :=
  .ask fun s => ctxEnd F (s.ctxRun F k b e ff lim c) store

/-- What a bank's word holds of a written value: words 87 to 127 and the unlisted bits of word 86 read 0 (Table 6.3). -/
def coefHeld (i v : Nat) : Nat := if i < 86 then v else if i = 86 then v &&& 0x801F3F1F else 0
/-- Likewise of a word of a vibration set: words 26 to 31 read 0 (Table 7.14). -/
def vffHeld (i v : Nat) : Nat := if i < 26 then v else 0

end Sys2Proof.Machine
end

