-- ==== Sys2Proof/Machine/SpnOps.lean ====
section
/-! DEFINITION. SPN's shared operations: the state machine of Table 8.5, the Orrery of Table 8.12, the speed set-point
(R222, R227 to R241). -/
namespace Sys2Proof.Machine

/-- Spindle states (Table 8.10). -/
def spOff : Nat := 0
def spSense : Nat := 1
def spRamp : Nat := 2
def spAccel : Nat := 3
def spRun : Nat := 4
def spChange : Nat := 5
def spBrake : Nat := 6
def spShort : Nat := 7
def spCatch : Nat := 8
def spHanded : Nat := 9

/-- Orrery states (Table 8.14). -/
def orOff : Nat := 0
def orSuspend : Nat := 1
def orFree : Nat := 2
def orRejoin : Nat := 3
def orLocked : Nat := 4

/-- The spindle's state. -/
def State.spn? (s : State) : Nat := s.get SPN_STAT.STATE 0

/-- HO_RPM in rpm (Table 8.7). -/
def State.hoRpm (s : State) : Nat := 10 * clampN 30 120 (s.get SPN_HO_CFG.HO_RPM 0)

/-- SU_TRY and HO_N, 0 treated as 1. -/
def State.suTry (s : State) : Nat := max 1 (s.get SPN_SU_CFG.SU_TRY 0)
def State.hoN (s : State) : Nat := max 1 (s.get SPN_HO_CFG.HO_N 0)

/-- A current in 0.05 A units as codes of 6 A / 32,768. -/
def ampCode (x : Nat) : Int := roundDiv (x * 32768 : Nat) 120

/-- I_ACC in codes (R231): (CAP − SU_RES) / 12 V, at least ACC_MIN, at most 6 A. -/
def State.iAcc (s : State) : Int :=
  let w : Int := (s.capW : Int) - (min 40 (s.get SPN_LIM.SU_RES 0) : Nat)
  max (ampCode (s.get SPN_LIM.ACC_MIN 0)) (min 32767 (roundDiv (w * 32768) 72)) |> min 32767

/-- Orrery state. -/
def setOrr (o : Nat) : Prog := .seq (setF SPN_ORR_STAT.OSTATE 0 o)
  (.upd (.spn fun x => { x with orrIn := 0, orrOut := 0, dw := if o == orOff || o == orSuspend then 0 else x.dw }))

/-- SPN enters state `st`: entering RUN sets AT_SPEED, the set-point is SPD_SET; leaving RUN clears AT_SPEED and suspends the Orrery (R234, Table 8.12); INDEX_VALID clears in OFF and
HANDED (R236). -/
def setSpn (st : Nat) : Prog := .ask fun s => all [
  setF SPN_STAT.STATE 0 st,
  when (s.spn? == spRun && st != spRun) (all [setAtSpeed false,
    when (s.get SPN_ORR_STAT.OSTATE 0 != orOff) (setOrr orSuspend)]),
  when (st == spOff || st == spHanded) (setF SPN_STAT.INDEX_VALID 0 0),
  .upd (.spn fun x => { x with inTol := 0, inHalf := 0, agree := 0, spoiled := true, catchPeriods := 0, hoPeriods := 0, lossPeriods := 0, lossPhase := 0
                               since := s.ptm.ticks }),
  when (st == spRun) (.seq (setAtSpeed true) (.upd (.spn fun x => { x with setPt := 25600 * s.get SPN_CTL.SPD_SET 0 })))]

/-- All six switches off, or all three low sides on. -/
def spnDriveOff : Prog := pdRequest "SPN_OFF" []
def spnShortBrake : Prog := pdRequest "SPN_SHORT" []

/-- Sensing pulse `m` goes out at 30° × m: VPULSE, TPULSE (R228, Table 8.6). -/
def spnPulse (m : Nat) : Prog := .ask fun s =>
  emit (.event "sensing pulse" [30 * m, s.get SPN_SU_CFG.VPULSE 0, max 1 (s.get SPN_SU_CFG.TPULSE 0)])

/-- Sensing begins: twelve pulses from angle 0 (R228). -/
def spnSense : Prog := all [setSpn spSense, .upd (.spn fun x => { x with peaks := [], badSets := 0, aligning := false }), spnPulse 0]

/-- A pending SPD_SET becomes the value in force (R241): "applies at the hand-over" and "until the last actuator unloads". -/
def applySpdPend : Prog := .ask fun s =>
  match s.spn.spdPend with
  | some v => .seq (setF SPN_CTL.SPD_SET 0 v) (.upd (.spn fun x => { x with spdPend := none }))
  | none => .skip

/-- Hand-over into ACCEL (R230, R232): the current set-points take `id` and `iq`, MAN is `iq`, the speed context goes to AUTO and
the output's upper limit ramps from MAN over 100 frames. -/
def spnHandOver (id iq : Int) : Prog := all [
  applySpdPend, setSpn spAccel, setI SPN_CTX_MAN.MAN 2 iq, setF SPN_CTX_CFG.MODE 2 1,
  .ask fun s => .upd (.spn fun x =>
    { x with idStart := id, idLeft := 64, iq := iq, limStart := iq, limFrames := 100
             ctx := Sparse.put {} x.ctx 2 { Sparse.get {} x.ctx 2 with wasAuto := false }
             setPt := 25600 * s.get SPN_CTL.SPD_SET 0, startPend := false })]

/-- START (Tables 8.5 and 8.9). `rotor` is the speed that the back-EMF shows, 1/256 rpm. -/
def spnStart : Prog := .ask fun s =>
  if s.spn? = spOff then
    .seq (.upd (.spn fun x => { x with attempts := 0 }))
      (if s.get SPN_MOTOR.POLES 0 = 0 then setF SPN_STAT.SU_FAIL 0 1
       else if s.spn.rotor ≥ 256 * s.hoRpm then .seq spnDriveOff (setSpn spCatch)
       else if s.spn.rotor > 0 then
         all [spnShortBrake, setSpn spShort, .upd (.spn fun x => { x with startPend := true })]
       else .seq (.upd (.spn fun x => { x with attempts := 1 })) spnSense)
  else if s.spn? = spBrake then
    all [setSpn spAccel, .upd (.spn fun x => { x with setPt := 25600 * s.get SPN_CTL.SPD_SET 0 })]
  else if s.spn? = spShort then .upd (.spn fun x => { x with startPend := true })
  else .skip

/-- STOP (Tables 8.5 and 8.9). -/
def spnStop : Prog := .ask fun s =>
  if s.spn? = spAccel ∨ s.spn? = spRun ∨ s.spn? = spChange then
    .seq (setSpn spBrake) (.upd (.spn fun x => { x with setPt := 0 }))
  else if s.spn? = spSense ∨ s.spn? = spRamp ∨ s.spn? = spCatch ∨ s.spn? = spShort then
    all [spnShortBrake, setSpn spShort, .upd (.spn fun x => { x with startPend := false, aligning := false })]
  else .skip

/-- Power loss sampled, or the Causeway heartbeat lost: SPN stops sending duties (R243). -/
def spnHanded : Prog := setSpn spHanded

/-- The speed set-point in force changes while the spindle runs: the set-point ramps (Table 8.5). -/
def spnChange (v : Nat) : Prog := .ask fun s =>
  if v = s.get SPN_CTL.SPD_SET 0 then .skip
  else .seq (setF SPN_CTL.SPD_SET 0 v) (when (s.spn? == spRun) (setSpn spChange))

/-- A write of SPD_SET (R222, R241). -/
def spnSpdSet (v0 : Nat) : Prog := .ask fun s =>
  let v := clampN 5400 10000 v0
  if s.spn? = spRun ∨ s.spn? = spChange then
    if s.get SVE_TRK_STAT.LOADED 0 = 0 then spnChange v
    else .upd (.spn fun x => { x with spdPend := some v })
  else if s.spn? = spSense ∨ s.spn? = spRamp ∨ s.spn? = spCatch then .upd (.spn fun x => { x with spdPend := some v })
  else .seq (setF SPN_CTL.SPD_SET 0 v)
    (.upd (.spn fun x => { x with spdPend := none, setPt := if s.spn? = spAccel then 25600 * v else x.setPt }))

/-- The last actuator has unloaded: a held SPD_SET takes effect as if written now (R241). -/
def spnUnloaded : Prog := .ask fun s =>
  match s.spn.spdPend with
  | some v => .seq (.upd (.spn fun x => { x with spdPend := none })) (spnSpdSet v)
  | none => .skip

/-- A write of SPN_ORR_CFG: EN = 0 puts the Orrery in OFF, EN = 1 takes it out (Table 8.12). -/
def orrCfgWritten : Prog := .ask fun s =>
  if s.on SPN_ORR_CFG.EN 0 then when (s.get SPN_ORR_STAT.OSTATE 0 == orOff) (setOrr orSuspend) else setOrr orOff

/-- Word `i` of the active bank of context `k`. -/
def State.spnBank (s : State) (k : Nat) : Bank := bankOf fun i => Sparse.get 0 s.spn.bank (k * 128 + i)

/-- A commit of context `k`'s shadow bank (R181, R224, Table 8.4). -/
def spnCommitCtx (k : Nat) : Prog := .ask fun s =>
  let w := fun i => s.get SPN_COEF.W (k * 128 + i)
  .seq (setBitF SPN_COMMIT.COMMIT 0 k false)
    (if (bankOf w).inverted then setF SPN_COMMIT.BANK_ERR 0 1
     else .upd (.spn fun x => { x with bank := (List.range 128).foldl (fun b i => Sparse.put 0 b (k * 128 + i) (w i)) x.bank }))

/-- One execution of SPN's context `k`, with its output limit. -/
def runSpnCtx (k : Nat) (e ff : Int) (lim : Option (Int × Int)) : Prog := .ask fun s =>
  when (s.on SPN_CTX_CFG.ENABLE k) (runCtx spnFile k (s.spnBank k) e ff lim (Sparse.get {} s.spn.ctx k)
    fun f => .upd (.spn fun x => { x with ctx := Sparse.put {} x.ctx k (f (Sparse.get {} x.ctx k)) }))

/-- The bit-reversed low four bits of a member index: its default slot (R240). -/
def defaultSlot (m : Nat) : Nat :=
  b2n (nbit m 0) * 8 + b2n (nbit m 1) * 4 + b2n (nbit m 2) * 2 + b2n (nbit m 3)

end Sys2Proof.Machine
end

