-- ==== Sys2Proof/Machine/MapOps.lean ====
section
/-! DEFINITION. Which head serves a path, the concurrency map's band records, the zone table, co-reachable sets
(R42 to R55, R65 to R74). -/
namespace Sys2Proof.Machine

/-- The head paths of an actuator (R19). -/
def pathsOf (a : Nat) : List Nat := [4 * a, 4 * a + 1, 4 * a + 2, 4 * a + 3]

/-- Head states (Table 2.1). -/
def hAbsent : Nat := 0
def hSpare : Nat := 1
def hInSlot : Nat := 2
def hDegraded : Nat := 3
def hFailed : Nat := 4
def hRetired : Nat := 5

/-- Arm position and EN of slot `sl` in a slot-map value (Table 2.2). -/
def slotArm (w sl : Nat) : Nat := nbits w (4 * sl + 2) (4 * sl)
def slotEn (w sl : Nat) : Bool := nbit w (4 * sl + 3)

/-- The slot map of actuator `a`. -/
def State.slotMap (s : State) (a : Nat) : Nat := (s.reg .SVE_SLOT_MAP a).toNat

/-- The head in the slot of head path `p`, where the slot is in use (R43, R67). -/
def State.headOf (s : State) (p : Nat) : Option Nat :=
  if slotEn (s.slotMap (p / 4)) (p % 4) then some (6 * (p / 4) + slotArm (s.slotMap (p / 4)) (p % 4)) else none

/-- The head path that head `h` serves. -/
def State.pathOfHead (s : State) (h : Nat) : Option Nat := (pathsOf (h / 6)).find? fun p => s.headOf p == some h

/-- The state of head `h`. -/
def State.headState (s : State) (h : Nat) : Nat := s.get SVE_HEAD_STATE.STATE h

/-- Head path `p` is usable: its slot is in use and its head IN_SLOT or DEGRADED (R70, rule 1). -/
def State.pathUsable (s : State) (p : Nat) : Bool :=
  match s.headOf p with
  | some h => s.headState h == hInSlot || s.headState h == hDegraded
  | none => false

/-- The lowest-numbered usable slot of an actuator (R184, R113). -/
def State.lowestUsable (s : State) (a : Nat) : Option Nat := (pathsOf a).find? fun p => s.pathUsable p

/-- Where the map lies, and band record (b, a) (R50). -/
def State.mapBase (s : State) : Nat := s.get SVE_CMAP_BASE.ADDR 0 * 4096
def State.recAddr (s : State) (b a : Nat) : Nat := s.mapBase + (4 * b + a) * 32

/-- A band record's CRC matches (R53). -/
def State.recOk (s : State) (b a : Nat) : Bool := s.crcOk (s.recAddr b a) 7

/-- The newest of the Ephemeris's copies of the map (R58). -/
def State.mapNewest (s : State) : Option MapCopy := s.kpr.mapCopies.foldl (fun b c => match b with
  | some x => if x.seq < c.seq then some c else b
  | none => some c) none

/-- The Keeper reloads a band record from the newest copy of the map in the Ephemeris (R53). -/
def mapReload (b a : Nat) : Prog := .ask fun s => match s.mapNewest with
  | some c => fabricStore .keeper (s.recAddr b a) ((c.bytes.drop ((4 * b + a) * 32)).take 32)
  | none => .skip

/-- The records that SVE is about to use of actuator `a`: one whose CRC fails is not used; its source is raised and the Keeper reloads it (R53). -/
def mapCheck (a : Nat) (bands : List Nat) : Prog := .ask fun s =>
  let bad := bands.filter fun b => !s.recOk b a
  when (s.on SVE_CMAP_CFG.ENABLE 0 && !bad.isEmpty) (.seq (lateLine 224 (detail a)) (each bad.dedup fun b => mapReload b a))

/-- Header (Table 2.6) and head entry (Table 2.7) of a band record. -/
def State.recHdr (s : State) (b a : Nat) : Nat := s.memW (s.recAddr b a)
def State.recEntry (s : State) (b a arm : Nat) : Nat := s.memW (s.recAddr b a + 4 + 4 * arm)
def hdrValid (w : Nat) : Bool := nbit w 31
def hdrUnreach (w : Nat) : Bool := nbit w 30
def hdrRemapped (w : Nat) : Bool := nbit w 29
def hdrLink (w : Nat) : Nat := nbits w 15 0
def entValid (w : Nat) : Bool := nbit w 31
def entTrkOfs (w : Nat) : Int := toSigned 14 (nbits w 25 12)
def entBias (w : Nat) : Int := toSigned 12 (nbits w 11 0)

/-- Zone-table entries (R50, Table 2.13). -/
def State.zones (s : State) : Nat := s.get SVE_CMAP_CFG.ZONES_M1 0 + 1
def State.zoneAddr (s : State) (z : Nat) : Nat := s.mapBase + (s.get SVE_CMAP_CFG.LAST_BAND 0 + 1) * 128 + 16 * z
def State.zoneTp (s : State) (z : Nat) : Nat := nbits (s.memW (s.zoneAddr z)) 31 24
def State.zoneFirst (s : State) (z : Nat) : Nat := nbits (s.memW (s.zoneAddr z)) 23 0
def State.zoneTracks (s : State) (z : Nat) : Nat := nbits (s.memW (s.zoneAddr z + 4)) 23 0
def State.zoneSpt (s : State) (z : Nat) : Nat := nbits (s.memW (s.zoneAddr z + 8)) 15 0
def State.zoneRow (s : State) (z : Nat) : Nat := nbits (s.memW (s.zoneAddr z + 8)) 23 16 * 2 ^ 32 + s.memW (s.zoneAddr z + 12)

/-- The zone of a logical track: the last whose first track is not beyond it. -/
def State.zoneOf (s : State) (t : Nat) : Nat :=
  (List.range s.zones).foldl (fun z k => if s.zoneFirst k ≤ t then k else z) 0

/-- Where a global row lies: zone, logical track, sector index (R67). -/
def State.rowPlace (s : State) (g : Nat) : Nat × Nat × Nat :=
  let z := (List.range s.zones).foldl (fun z k => if s.zoneRow k ≤ g then k else z) 0
  let k := g - s.zoneRow z
  (z, s.zoneFirst z + k / s.zoneSpt z, k % s.zoneSpt z)

/-- The logical track of a row, and the first row of a track. -/
def State.rowTrack (s : State) (g : Nat) : Nat := (s.rowPlace g).2.1
def State.trackRow (s : State) (t : Nat) : Nat := s.zoneRow (s.zoneOf t) + (t - s.zoneFirst (s.zoneOf t)) * s.zoneSpt (s.zoneOf t)

/-- The head path of member `j` of row `g`, and the member on a path (R68). -/
def memberPath (g j : Nat) : Nat := (j + g) % 16
def pathMember (g p : Nat) : Nat := (p + 16 - g % 16) % 16

/-- Where actuator `a`'s members of logical track `t` lie: the band and the logical track there (R63, R67). -/
def State.place (s : State) (a t : Nat) : Nat × Nat :=
  let h := s.recHdr (t / 256) a
  if hdrRemapped h then (hdrLink h, 256 * hdrLink h + t % 256) else (t / 256, t)

/-- The records that a target of actuator `a` at logical track `t` uses. -/
def State.targetBands (s : State) (a t : Nat) : List Nat := [t / 256, (s.place a t).1]

/-- A target's records exist and are VALID, for the head too (R57, R70 rule 3, R202). -/
def State.targetValid (s : State) (a arm t : Nat) : Bool :=
  let b := (s.place a t).1
  decide (t / 256 ≤ s.get SVE_CMAP_CFG.LAST_BAND 0) && hdrValid (s.recHdr (t / 256) a) && hdrValid (s.recHdr b a) &&
    entValid (s.recEntry b a arm)

/-- What SVE holds for head path `p` with head `h` at logical track `t`. -/
def State.pathTarget (s : State) (p h t : Nat) : PathTgt :=
  let (b, tt) := s.place (p / 4) t
  let e := s.recEntry b (p / 4) (h % 6)
  { head := h, band := t / 256, zone := s.zoneOf t, target := (tt : Int), trkOfs := entTrkOfs e, bias := entBias e
    tp := s.zoneTp (s.zoneOf t) }

/-- The same where the map is in use and the records pass their CRC; else SVE uses no part of them (R53, Table 2.5). -/
def State.safeTarget (s : State) (p h t : Nat) : PathTgt :=
  if s.on SVE_CMAP_CFG.ENABLE 0 && (s.targetBands (p / 4) t).all fun b => s.recOk b (p / 4) then s.pathTarget p h t
  else { head := h, band := t / 256, zone := s.zoneOf t, target := (t : Int), tp := s.zoneTp (s.zoneOf t) }

/-- y_h of R47 in 1/2048 nm: the track pitch is in 0.5 nm, the bias in 2500/2048 nm. -/
def PathTgt.y (x : PathTgt) : Int := x.target * x.tp * 1024 + x.bias * 2500

/-- 2 × S_u = 4.5 µm in 1/2048 nm (R46). -/
def twoStroke : Int := 9216000

/-- Targets form a co-reachable set: one band or two adjacent ones of one zone, and the spread of y_h (R47, R48). -/
def coReachable (l : List PathTgt) : Bool :=
  (l.all fun x => l.all fun y => decide (x.y - y.y ≤ twoStroke) && x.zone == y.zone && decide (x.band ≤ y.band + 1))

/-- The spare band of a band's zone on an actuator (R63, R64): the band after the zone's data tracks. -/
def State.spareBand (s : State) (b : Nat) : Nat :=
  let z := s.zoneOf (256 * b)
  (s.zoneFirst z + s.zoneTracks z) / 256
def State.spareUsed (s : State) (a b : Nat) : Bool := nbit (s.recHdr (s.spareBand b) a) 27

/-- Data members of a row of namespace entry `n`, parity members, rows and LBAs (R65, R349). -/
def levelD (l : Nat) : Nat := ([16, 15, 14, 12] : List Nat).getD l 16
def State.nsD (s : State) (n : Nat) : Nat := levelD (s.get CQE_NS_CFG.PLVL n)
def State.nsM (s : State) (n : Nat) : Nat := 16 - s.nsD n
def State.nsRow0 (s : State) (n : Nat) : Nat := 256 * s.get CQE_NS_BASE.UNIT n
def State.nsRows (s : State) (n : Nat) : Nat := 256 * s.get CQE_NS_ROWS.UNITS n
def State.nsLbas (s : State) (n : Nat) : Nat := s.nsRows n * s.nsD n

/-- The row and data member of a namespace LBA, and back (R67, R68). -/
def State.lbaRow (s : State) (n lba : Nat) : Nat := s.nsRow0 n + lba / s.nsD n
def State.lbaMember (s : State) (n lba : Nat) : Nat := lba % s.nsD n
def State.rowLba (s : State) (n g j : Nat) : Nat := (g - s.nsRow0 n) * s.nsD n + j

/-- The namespace that a row belongs to; a deletion in progress still holds its rows. -/
def State.nsOfRow (s : State) (g : Nat) : Option Nat := (List.range 128).find? fun n =>
  (s.get CQE_NS_CFG.STATE n == 1 || s.get CQE_NS_CFG.STATE n == 2) && decide (s.nsRow0 n ≤ g ∧ g < s.nsRow0 n + s.nsRows n)

/-- A row of a P0 namespace (R65). -/
def State.rowP0 (s : State) (g : Nat) : Bool := match s.nsOfRow g with
  | some n => s.nsM n == 0
  | none => false

/-- A slot is being rebuilt at or above its watermark in band `b` (R74). -/
def State.rebuilding (s : State) (p b : Nat) : Bool :=
  s.on SVE_REBUILD.ACTIVE (p / 4) && s.get SVE_REBUILD.SLOT (p / 4) == p % 4 && decide (s.get SVE_REBUILD.WMARK (p / 4) ≤ b)

end Sys2Proof.Machine
end

