-- ==== Sys2Proof/Machine/ServoOps.lean ====
section
/-! DEFINITION. Transit's shared operations: banks, the active set (R187), unloading and
the tick in which an actuator counts as parked (R210, R606). -/
namespace Sys2Proof.Machine

/-- Context `k` of Transit. -/
def State.ctx (s : State) (k : Nat) : Ctx := Sparse.get {} s.sve.ctx k
def setCtx (k : Nat) (f : Ctx → Ctx) : Prog :=
  .upd (.sve fun x => { x with ctx := Sparse.put {} x.ctx k (f (Sparse.get {} x.ctx k)) })

/-- The seek machine of actuator `a`. -/
def State.seek (s : State) (a : Nat) : Seek := Sparse.get {} s.sve.seek a
def setSeek (a : Nat) (f : Seek → Seek) : Prog :=
  .upd (.sve fun x => { x with seek := Sparse.put {} x.seek a (f (Sparse.get {} x.seek a)) })

/-- Context `k` stops: its waiting trigger is dropped, and an execution under way ends without effect (R187, R192, R210). -/
def ctxStop (k : Nat) : Prog := .upd (.sve fun x => { x with
  ctx := Sparse.put {} x.ctx k { Sparse.get {} x.ctx k with trig := none }, waiting := x.waiting.filter (· != k)
  running := x.running.map fun e => if e.2.k == k then (e.1, { e.2 with live := false }) else e })

/-- The target of head path `p`. -/
def State.tgt (s : State) (p : Nat) : PathTgt := Sparse.get {} s.sve.tgt p
def setTgt (p : Nat) (f : PathTgt → PathTgt) : Prog :=
  .upd (.sve fun x => { x with tgt := Sparse.put {} x.tgt p (f (Sparse.get {} x.tgt p)) })

/-- An MA_CMD goes out to path `p`'s arm; it counts until an ACK (R194). -/
def maSent (p : Nat) (u : Int) : Prog := .ask fun s => .seq (maCmd (p / 4) ((s.tgt p).head % 6) u)
  (.upd (.sve fun x => { x with maUnack := Sparse.put 0 x.maUnack p (Sparse.get 0 x.maUnack p + 1) }))

/-- Head path `p` gets target `t`: where the target leaves the band, or another head serves the path, the visit ends (R59). -/
def aim (p : Nat) (t : PathTgt) : Prog := .ask fun s => .seq (setTgt p fun _ => t)
  (when ((s.tgt p).band != t.band || (s.tgt p).head != t.head) (.upd (.sve fun x => { x with drift := Sparse.put {} x.drift p {} })))

/-- The targets of an actuator's paths are gone: their visits end (R59). -/
def visitsEnd (a : Nat) : Prog := each (pathsOf a) fun p => .upd (.sve fun x => { x with drift := Sparse.put {} x.drift p {} })

/-- Word `i` of the active bank `b` of unit `u` (R181). -/
def State.bankWord (s : State) (u b i : Nat) : Nat := Sparse.get 0 s.sve.bank ((u * 4 + b) * 128 + i)

/-- Seek states (Table 7.4). -/
def skTracking : Nat := 0
def skMove : Nat := 1
def skTrackIn : Nat := 2
def skSettle : Nat := 3
def skLoading : Nat := 4
def skUnloading : Nat := 5
def skUnloaded : Nat := 6

/-- Tracking watchdog states (Table 6.18). -/
def trkServed : Nat := 0
def trkAutonomous : Nat := 1
def trkParking : Nat := 2
def trkUnloaded : Nat := 3

/-- Actuator `a` is loaded. -/
def State.loaded (s : State) (a : Nat) : Bool := s.bitF SVE_TRK_STAT.LOADED 0 a

/-- A head path joins the active set: its context's states are cleared, MAN is its expected bias and its next execution is the
first in AUTO (R187); its wedges at the clamp count from here (R49). The sequencer enables it, since parking disables every context (R606;
assumption log 20). -/
def joinActive (p : Nat) : Prog := .ask fun s =>
  all [ctxStop p, setCtx p fun c => { c with s1 := [], s2 := [], wasAuto := false },
    setI SVE_CTX_MAN.MAN p (16 * (s.tgt p).bias), setF SVE_CTX_CFG.ENABLE p 1, setF SVE_CTX_CFG.MODE p 1, setF SVE_CTX_STAT.CLAMP_CNT p 0,
    .upd (.sve fun x => { x with active := if x.active.contains p then x.active else x.active ++ [p] })]

/-- A head path leaves the active set: its context stops and the preamp is sent a microactuator command of 0, in effect once acknowledged (R187). -/
def leaveActive (p : Nat) : Prog := .ask fun s =>
  when (s.sve.active.contains p) (all [
    .upd (.sve fun x => { x with active := x.active.filter (· != p) }),
    ctxStop p, maSent p 0])

/-- The reads of head path `p` that its present pass has not completed are erased, with their CAUSE (R49, R72, R139). -/
def eraseReads (p cause : Nat) : Prog := .seq (emit (.event "erased" [p, cause]))
  (.upd (.rdc fun x => { x with erased := (x.erased.filter fun e => e.1 != p) ++ [(p, cause)] }))

/-- Causes of an ERASED or failed member (Table 4.17). -/
def fcDecode : Nat := 0
def fcSync : Nat := 1
def fcHead : Nat := 2
def fcRemoved : Nat := 3
def fcTiming : Nat := 4
def fcCrc : Nat := 5

/-- The mark of a sector that a preamp link error erased: it is taken again (R109, R110). -/
def fcRetake : Nat := 16

/-- A removal under R49: the path leaves the active set, its reads in the pass are erased, its gate closes under the off-track rule. -/
def removePath (p : Nat) : Prog := all [leaveActive p, setOfftrack p true, eraseReads p fcRemoved]

/-- Every context of an actuator is disabled (R210, R606). -/
def disableContexts (a : Nat) : Prog :=
  each (pathsOf a ++ [16 + a, 20 + a]) fun k => .seq (setF SVE_CTX_CFG.ENABLE k 0) (ctxStop k)

/-- The position and current contexts of an actuator stop (R192). -/
def stopLoops (a : Nat) : Prog :=
  each [16 + a, 20 + a] fun k => .seq (setF SVE_CTX_CFG.ENABLE k 0) (ctxStop k)

/-- Request the power die's emergency retract of the actuators in `as` (R192, R197, R199). -/
def requestRetract (as : List Nat) : Prog := .seq
  (cwSend "RETRACT" 0x40 0 [as.foldl (fun m a => m ||| 2 ^ a) 0])
  (.upd (.sve fun x => { x with retract := as ++ x.retract.filter fun a => !as.contains a }))

/-- Slots of an actuator in a mask. -/
def slotsIn (a mask : Nat) : List Nat := (pathsOf a).filter fun p => nbit mask (p % 4)

/-- A seek moves on into `st`; SVE_SEEK_STAT shows it but while the actuator unloads (Table 7.4, R210). -/
def setSub (a st : Nat) : Prog := .ask fun s => .seq (setSeek a fun k => { k with sub := st })
  (when (!(s.seek a).unloading) (setF SVE_SEEK_STAT.STATE a st))

/-- No head path of actuator `a` waits for link-up to rejoin the active set (R195): a seek or an unload has settled which are active. -/
def rejoinNone (a : Nat) : Prog := .upd (.sve fun x => { x with rejoin := x.rejoin.filter fun p => p / 4 != a })

/-- Into MOVE: the slots leave the active set, the position context goes to MANUAL (R204). -/
def enterMove (a : Nat) : Prog := all [rejoinNone a, each (pathsOf a) leaveActive, setF SVE_CTX_CFG.MODE (16 + a) 0, setSub a skMove]

/-- Into TRACK_IN: the position context returns to AUTO, the slots' paths join the active set and others leave it (R205, R206). -/
def enterTrackIn (a : Nat) : Prog := .ask fun s =>
  let m := (s.seek a).slots
  all [rejoinNone a, setF SVE_CTX_CFG.MODE (16 + a) 1,
    each (pathsOf a) fun p => if nbit m (p % 4) then when (!s.sve.active.contains p) (joinActive p) else leaveActive p, setSub a skTrackIn]

/-- The reference rests at `y`. -/
def Seek.rest (k : Seek) (y : Int) : Seek := { k with yRef := y, vRef := 0, aRef := 0, y0 := y, v0 := 0, a0 := 0, goal := y, step := 0 }

/-- Into SETTLE: counts start at 0 (R207). -/
def enterSettle (a : Nat) : Prog := .seq (setSeek a fun k => { k.rest k.yRef with counts := [0, 0, 0, 0], settleWedges := 0 }) (setSub a skSettle)

/-- The hand-over distance in 1/65,536 track (Table 7.5). -/
def State.hoTrk (s : State) (a : Nat) : Int := 65536 * (max 1 (s.get SVE_TRAJ_LIM.HO_TRK a) : Nat)

/-- Start a seek towards the latched targets from the present reference (R204 to R206). -/
def seekFrom (a : Nat) : Prog := .ask fun s =>
  let k := s.seek a
  if (k.yT - k.yRef).natAbs > (s.hoTrk a).natAbs then enterMove a
  else if k.yT = k.yRef ∧ k.vRef = 0 ∧ k.aRef = 0 then .seq (enterTrackIn a) (enterSettle a) else enterTrackIn a

/-- The load drive: LD_V in bridge codes (R209 step 1). -/
def State.loadMan (s : State) : Int := roundDiv (s.get SVE_RAMP_CFG.LD_V 0 * 32768 : Nat) 240

/-- LOADING begins: the current context drives the arm off the ramp in MANUAL (R209 step 1). -/
def loadDrive (a : Nat) : Prog := .ask fun s => all [
  setF SVE_SEEK_STAT.STATE a skLoading, setF SVE_CTX_CFG.ENABLE (20 + a) 1, setF SVE_CTX_CFG.MODE (20 + a) 0, setI SVE_CTX_MAN.MAN (20 + a) s.loadMan,
  setSeek a fun k => { k with first := true, detect := 0, sub := skLoading, unloading := false, ramp := false, reload := false, since := s.ptm.ticks }]

/-- Unload's drive toward the ramp: position context MANUAL, slots out of the active set, current context MANUAL (R210 steps 2 and 3). -/
def rampDrive (a : Nat) : Prog := all [
  rejoinNone a, setF SVE_CTX_CFG.MODE (16 + a) 0, each (pathsOf a) leaveActive, setF SVE_CTX_CFG.MODE (20 + a) 0,
  setSeek a fun k => { k with ramp := true, sub := skUnloading }]

/-- Slot of path `p` is free of a seek that has not settled it (R207). -/
def State.settled (s : State) (p : Nat) : Bool :=
  s.get SVE_SEEK_STAT.STATE (p / 4) == skTracking ||
    s.get SVE_SEEK_STAT.STATE (p / 4) == skSettle && s.bitF SVE_SEEK_STAT.SETTLED (p / 4) (p % 4)

/-- The sub-state of actuator `a`'s seek, also while it unloads. -/
def State.seekSub (s : State) (a : Nat) : Nat :=
  let st := s.get SVE_SEEK_STAT.STATE a
  if st = skUnloading then (s.seek a).sub else st

/-- A seek ends when every slot is settled or dropped (R208); an unload goes on to the ramp (R210 step 2). -/
def settleCheck (a : Nat) : Prog := .ask fun s =>
  let m := (s.seek a).slots
  let done := s.get SVE_SEEK_STAT.SETTLED a ||| s.get SVE_SEEK_STAT.DROP a
  when (s.seekSub a == skSettle && m &&& done == m)
    (if (s.seek a).unloading then rampDrive a
     else all [setSub a skTracking, setF SVE_SEEK_STAT.DONE a 1, when (m &&& s.get SVE_SEEK_STAT.SETTLED a == 0) (setF SVE_SEEK_STAT.ERR a 7)])

/-- A slot is dropped from its seek (R208). -/
def dropSlot (p : Nat) : Prog := .seq (leaveActive p) (setBitF SVE_SEEK_STAT.DROP (p / 4) (p % 4) true)

/-- A slot of a seek whose head has failed is dropped in the same wedge (R208). -/
def seekDrops (p : Nat) : Prog := whenS (fun s => nbit (s.seek (p / 4)).slots (p % 4) && [skMove, skTrackIn, skSettle].contains (s.seekSub (p / 4)))
  (.seq (dropSlot p) (settleCheck (p / 4)))

/-- The tick in which LOADED clears (R606): contexts disabled, the arm UNLOADED, DONE; the watchdog is UNLOADED when no arm is
loaded (Table 6.18). A pass of the actuator has then still to end (R158). An arm unloaded only to be loaded again goes back to LOADING (R209 step 3). -/
def parked (a : Nat) : Prog := .ask fun s => if (s.seek a).reload then .seq (disableContexts a) (loadDrive a) else all [
  rejoinNone a, each (pathsOf a) leaveActive, disableContexts a, setBitF SVE_TRK_STAT.LOADED 0 a false,
  setF SVE_SEEK_STAT.STATE a skUnloaded, setF SVE_SEEK_STAT.DONE a 1,
  setSeek a fun k => { k with unloading := false, ramp := false, sub := skUnloaded },
  .upd (.sve fun x => { x with retract := x.retract.filter (· != a), pass := x.pass.map fun e => if e.1 == a then (e.1, { e.2 with ending := true }) else e }), visitsEnd a,
  when (setNBit (s.get SVE_TRK_STAT.LOADED 0) a false == 0 && s.bitF SVE_TRK_STAT.LOADED 0 a)
    (.seq (setF SVE_TRK_STAT.STATE 0 trkUnloaded) spnUnloaded)]

/-- Unload starts (R53, R210 step 1): a seek in progress is abandoned and the actuator seeks to logical track 0 with the read settle. A pass in
progress ends. An arm that is still loading goes straight to the ramp. -/
def startUnload (a : Nat) : Prog := .ask fun s =>
  let us := (pathsOf a).filter fun p => s.pathUsable p
  when (s.get SVE_SEEK_STAT.STATE a != skUnloading && s.get SVE_SEEK_STAT.STATE a != skUnloaded) (all [
    setF SVE_SEEK_STAT.STATE a skUnloading, setF SVE_SEEK_STAT.ERR a 0, setF SVE_SEEK_STAT.WEDGES a 0,
    .upd (.sve fun x => { x with pass := x.pass.map fun e => if e.1 == a then (e.1, { e.2 with ending := true }) else e }),
    setSeek a fun k => { k with first := true, unloading := true, ramp := false, reload := false, wr := false, yT := 0, since := s.ptm.ticks
                                slots := (us.map fun p => 2 ^ (p % 4)).sum },
    if s.get SVE_SEEK_STAT.STATE a = skLoading then rampDrive a
    else all [mapCheck a (s.targetBands a 0), .ask fun t => each us fun p => aim p (t.safeTarget p ((t.headOf p).getD 0) 0), seekFrom a]])

/-- Unload every loaded actuator. -/
def unloadAll : Prog := .ask fun s => each ((List.range 4).filter fun a => s.loaded a) startUnload

/-- The actuator's pass must end: no sector starts in it any more (R504). -/
def State.passEnding (s : State) (a : Nat) : Bool := s.sve.pass.any fun e => e.1 == a && e.2.ending

/-- Every pass in progress must end, and no new one starts (R504). -/
def endPasses : Prog :=
  .upd (.sve fun x => { x with pass := x.pass.map fun e => (e.1, { e.2 with ending := true }) })

end Sys2Proof.Machine
end

