-- ==== Sys2Proof/Machine/ModeOps.lean ====
section
/-! DEFINITION. The safe state (R503 to R507), block resets (R199, R272, R537, R538), chip reset (R498, R593) and the parts of
BOOT that begin it. -/
namespace Sys2Proof.Machine

/-- Register block numbers (Table 1.2), which are also the SUBSYS numbers of Almanac records. -/
def bPTM : Nat := 0
def bFCU : Nat := 1
def bALM : Nat := 2
def bSVC : Nat := 3
def bPCX : Nat := 4
def bHIF : Nat := 5
def bCQE : Nat := 6
def bBMU : Nat := 7
def bDMF : Nat := 8
def bMPC : Nat := 9
def bRDC : Nat := 10
def bWRC : Nat := 11
def bSVE : Nat := 12
def bSPN : Nat := 13
def bPWR : Nat := 14
def bSPL : Nat := 15

/-- A transition in progress ends at its step boundary; the mode stays the one it started from (R496). -/
def endTransition : Prog := .seq (setF PTM_MODE_STAT.TRANS 0 0) (.upd (.ptm fun p => { p with target := none }))

/-- The power-loss sequence is running (Table 18.9). -/
def State.inPowerLoss (s : State) : Bool := s.ptm.plStep != 0

/-- The record of a calibration run that ends (R548, R559): a failure has bit 11 of the number set. -/
def calRecord (fail : Bool) (sev : Nat) : Prog := .ask fun s =>
  almEnter (kCal <<< 12 ||| b2n fail <<< 11 ||| s.svc.calClass <<< 8 ||| s.svc.calItem) sev bSVC false
    [s.svc.calClass <<< 16 ||| s.svc.calItem <<< 8 ||| s.svc.calHead, s.svc.calLast, s.get SVC_CAL_STAT.ITER 0, (s.ptm.ticks - s.svc.calStart) / tickMs]

/-- The run's targets take their values before it again, under their own rules for writes during use, and so do the trims behind them (R559). -/
def calRestore : Prog := .ask fun s => .seq (each s.svc.calSaved fun e => targetPut (RegName.ofNat (e.1 % 512)) (e.1 / 512) e.2)
  (.upd (.svc fun x => { x with trims := x.calTrims }))

/-- A run is over. -/
def calOver (result cause : Nat) : Prog := all [
  setF SVC_CAL_CTL.BUSY 0 0, setF SVC_CAL_STAT.RESULT 0 result, setF SVC_CAL_STAT.CAUSE 0 cause, .upd (.svc fun x => { x with calActive := false, calSaved := [], calTrims := [] })]

/-- A calibration run ends ABORTED: its targets are restored, its entry is not changed, and a record is posted (R558, R559). -/
def calAbort : Prog := .ask fun s => when s.svc.calActive (all [calRestore, calRecord false 1, calOver 0 2])

/-- A shock event begins: a run of class H aborts, and one whose condition is that no shock event holds (R558, Table 21.3). -/
def calShock : Prog := .ask fun s => when (s.svc.calClass == 1 || s.svc.calItem == 7) calAbort

/-- Entry into the safe state (R503, R504, R507). While it holds a further cause is recorded only in the Almanac; during the
power-loss sequence only SAFE and SAFE_CAUSE are set. -/
def enterSafe (cause : Nat) : Prog := .ask fun s =>
  if s.ptm.retention then .skip
  else if s.safe then almEvent bPTM kFault "safe cause" [cause]
  else all [setF PTM_MODE_STAT.SAFE 0 1, setF PTM_MODE_STAT.SAFE_CAUSE 0 cause,
    when (!s.inPowerLoss) (all [
      setSafeSource true, endPasses, endTransition, driveNfault, almEvent bPTM kFault "safe state" [cause], calAbort,
      when (s.on PTM_SAFE_CTL.PARK 0 || cause == 4) unloadAll,
      when (cause == 4) (.seq spnStop (setVpre false))])]

/-- The block reset of SVE (R199): a retract of every loaded actuator is requested, then every register and context resets. -/
def resetSVE : Prog := .ask fun s => all [
  requestRetract ((List.range 4).filter fun a => s.loaded a), resetBlockRegs bSVE [],
  .upd (.sve fun x => { retract := x.retract, pass := x.pass.map fun e => (e.1, { e.2 with ending := true }) })]

/-- The block reset of RDC (R538): passes are left, ladders end without result, live sets are untagged, the links relink. -/
def resetRDC : Prog := all [
  .upd (.sve fun x => { x with pass := x.pass.map fun e => (e.1, { e.2 with ending := true }) }),
  resetBlockRegs bRDC [], .upd (.rdc fun _ => {}), .ask fun s => setF PTM_DOM_PWR.ON 0 (s.get PTM_DOM_PWR.ON 0 / 65536 * 65536),
  each (List.range 4) palStart]

/-- The block reset of WRC (R538): open gates close with cause INHIBIT and leave their entries; the ring stays in force. -/
def resetWRC : Prog := all [
  closeGates allWriters cInhibit,
  resetBlockRegs bWRC [.WRC_RWL_BASE, .WRC_RWL_CTL, .WRC_RWL_PTR], each (List.range 8) fun w => setBitF PTM_DOM_PWR.ON 0 (16 + w) false,
  .upd (.wrc fun x => { offtrack := x.offtrack, preamp := x.preamp, shock := x.shock, forewarn := x.forewarn, supply := x.supply, safe := x.safe
                        writers := (x.writers.filter fun e => e.2.powerLoss).map fun e => (e.1, { powerLoss := true }) }),
  wusShow]

/-- The block reset of SPN (R538): all switches off, OFF, the speed source holds every gate closed, the Orrery in SUSPEND. -/
def resetSPN : Prog := all [
  pdRequest "SPN_OFF" [], resetBlockRegs bSPN [], .upd (.spn fun x => { rotor := x.rotor }), setF SPN_ORR_STAT.OSTATE 0 orSuspend,
  closeGates allWriters cSpeed]

/-- Encode slots in use and contexts open, as MPC_STAT shows them. -/
def mpcShow : Prog := .ask fun s => .seq (setF MPC_STAT.ENC 0 s.mpc.enc.length) (setF MPC_STAT.CTX 0 s.mpc.ctxs.length)

/-- The block reset of DMF (R538): every channel IDLE with its reset configuration; held bytes and pending sets are discarded; an encode
slot that lost its input is freed. -/
def resetDMF : Prog := all [resetBlockRegs bDMF [], .upd (.dmf fun _ => {}),
  .upd (.mpc fun x => { x with enc := x.enc.filter (·.ready), gather := [] }), mpcShow]

/-- SPL's trim starts at the result of the XTAL item, in 0.001 ppm; 0 before one (Table 21.3). -/
def splTrimStart : Prog := .ask fun s => .upd (.spl fun x => { x with trim := (toSigned 32 ((Sparse.get [] s.svc.trims 1).getD 0 0) : Rat) / 1000 })

/-- The block reset of SPL (R272). -/
def resetSPL : Prog := .seq (resetBlockRegs bSPL []) (.seq (.upd (.spl fun _ => {})) splTrimStart)

/-- The block reset of MPC (R538): key slots, MPC_KEY_STAT and MPC_VSN stay; contexts and encode slots close; a ladder whose member was
handed off goes on at its next position. -/
def resetMPC : Prog := all [resetBlockRegs bMPC [.MPC_KEY_STAT, .MPC_VSN], .upd (.mpc fun x => { keys := x.keys }),
  .upd (.rdc fun x => { x with ladders := x.ladders.map fun e =>
    if e.2.handed then (e.1, { e.2 with handed := false, begun := false, pos := e.2.pos + 1, sub := 0 }) else e })]

/-- The block reset that Table 20.1 names for a source's origin; `none` where step 3 is skipped. -/
def blockOfSource (i : Nat) : Option Nat :=
  if 128 ≤ i ∧ i ≤ 191 then some bDMF
  else if 192 ≤ i ∧ i ≤ 223 then some bSVE
  else if i = 225 ∨ i = 226 then some bSVE
  else if 232 ≤ i ∧ i ≤ 239 then some bRDC
  else if 240 ≤ i ∧ i ≤ 247 then some bWRC
  else if i = 248 ∨ i = 249 then some bSPN
  else if 256 ≤ i ∧ i ≤ 258 then some bSPL
  else if i = 280 then some bMPC
  else none

/-- The block reset of block `b`. -/
def blockReset (b : Nat) : Prog :=
  if b = bDMF then resetDMF else if b = bSVE then resetSVE else if b = bRDC then resetRDC else if b = bWRC then resetWRC
  else if b = bSPN then resetSPN else if b = bSPL then resetSPL else if b = bMPC then resetMPC else .skip

/-- Registers that a chip reset leaves: domain 0's (Table 18.14, R545, R550), the power die's and, where it is warm, SVC's result ring (R530). -/
def keptOverReset (warm : Bool) (r : RegName) : Bool :=
  [RegName.PTM_BOOT_STAT, .PTM_WAKE_CFG, .PTM_JNL_STAT, .ALM_NEWEST, .ALM_OLDEST, .ALM_STAT,
    .PWR_STAT, .PWR_SNS_CFG, .PWR_VCM_CFG, .PWR_RET_CFG, .PWR_HU_CFG].contains r || warm && r == .SVC_SVY_RES

/-- A chip reset (R498): every register of the logic die but those of domain 0 returns to reset, the hidden state of every
block is lost, the tightly coupled memories are lost, and DRAM too unless it is kept; BOOT begins. -/
def chipReset (warm dramKept : Bool) : Prog := all [
  .ask fun s => .seq (.upd (.regsReset fun r _ => !keptOverReset warm r)) (when warm (setF SVC_SVY_STAT.RES_WR 0 (s.get SVC_SVY_STAT.RES_WR 0))),
  .upd (.ptm fun p => { ticks := p.ticks, powered := p.powered, bootAt := p.ticks, dramTraining := p.dramTraining }), .upd (.fcu fun _ => {}), .upd (.pcx fun _ => {}),
  .upd (.hif fun x => { ports := x.ports.map fun e => (e.1, { perst := e.2.perst }) }),
  .upd (.pwr fun x => { x with open_ := [], nextTag := 0, seen := 0 }), .upd (.cqe fun x => { zones := x.zones, unreadable := x.unreadable, extents := x.extents, gens := x.gens }), .upd (.bmu fun b => { poison := if dramKept then b.poison else [], checkMem := if dramKept then b.checkMem else [] }),
  .upd (.dmf fun _ => {}), .upd (.mpc fun _ => {}),
  .upd (.rdc fun _ => {}), .upd (.wrc fun _ => {}), .upd (.sve fun _ => {}), .upd (.spn fun x => { rotor := x.rotor }), .upd (.spl fun _ => {}),
  .upd (.access fun _ => {}), .upd (.svc fun x => { unread := if warm then x.unread else [] }),
  .upd (.kpr fun k => { k with posted := [], moves := [], taken := [], restartTicks := 0, nonces := [], relayIn := [], relayOut := [], relayNow := none, relayTx := [], relayCfg := 0, waiting := [] }),
  .upd (.memForget 0x10000000 0x200000), .upd (.memForget 0x20000000 0x100000),
  when (!dramKept) (.upd (.memForget dramBase 0x400000000)),
  setF PTM_BOOT_STAT.STEP 0 1, setF PTM_BOOT_STAT.WARM 0 (b2n warm), setF PTM_BOOT_STAT.DRAM_KEPT 0 (b2n dramKept),
  setF PTM_BOOT_STAT.FETCH_EN 0 0, setF PTM_BOOT_STAT.BOOT_ERR 0 0, setF PTM_BOOT_STAT.BOOT_MS 0 0,
  setF PTM_JNL_STAT.ARMED 0 0, setF PTM_JNL_STAT.REPLAYED 0 0, setF ALM_STAT.CLEARING 0 0,
  .upd (.alm fun a => { a with keeper := {}, service := {}, app := {}, scanned := a.scanned && warm })]

/-- A feature's value at a port, `d` while none was set (R309). -/
def Port.feature (p : Port) (i d : Nat) : Nat := ((p.features.find? fun e => e.1 == i).map (·.2)).getD d

/-- The power state that the controllers ask for: the lowest (R497). -/
def State.psAsked (s : State) : Nat := min 4 (min ((Sparse.get {} s.hif.ports 0 : Port).feature 2 0 % 32) ((Sparse.get {} s.hif.ports 1 : Port).feature 2 0 % 32))

/-- PS shows the power state in force: the one asked for once its mode is reached (Table 18.7); in ACTIVE with PS3 or PS4 asked for, the operational
state that was left (R497; assumption log 24). -/
def psShow : Prog := .ask fun s =>
  let w := s.psAsked
  let put (v : Nat) : Prog := setF PTM_MODE_STAT.PS 0 v
  if s.mode = mActive then (if w ≤ 2 then .seq (put w) (.upd (.ptm fun p => { p with psOp := w })) else put s.ptm.psOp)
  else when ((w == 3 && s.mode == mIdle && s.get PTM_MODE_STAT.ILVL 0 == 2) || (w == 4 && s.mode == mStandby)) (put w)

/-- A slice abandons, and has unlocked, before tick s of a power loss, or before its instance is powered down (R524). -/
def sliceDrop : Prog := .ask fun s => when s.svc.locked (.upd (.svc fun x => { x with locked := false, abandons := x.abandons + 1, sliceEnd := s.ptm.ticks }))

/-- The mode changes. A change between normal service and the other modes ends every ladder at its current step (R539). -/
def setMode (m ilvl : Nat) : Prog := .ask fun s =>
  let normal := m == mActive || m == mIdle || m == mStandby
  all [setF PTM_MODE_STAT.MODE 0 m, setF PTM_MODE_STAT.ILVL 0 (if m = mIdle then ilvl else 0),
    when (s.normalService != normal) (.upd (.fcu fun x => { x with timers := [] })), psShow]

/-- Timing domains that stay powered in journal mode (Table 18.9, step 4). -/
def journalIslands : List Nat := [0, 1, 11, 15, 16, 17, 21, 30]

/-- Every writer's power-loss source has asserted: the tick after, journal mode (Table 18.9, steps 3 and 4). -/
def journalMode : Prog := .ask fun s =>
  when (s.ptm.plStep == 2 && allWriters.all fun w => (s.writer w).powerLoss) (all [
    .upd (.ptm fun p => { p with plStep := 5 }),
    setF PTM_ISL_PWR.ON 0 (journalIslands.foldl (fun m i => m + 2 ^ i) 0), setF PTM_DOM_PWR.ON 0 0x0C000000,
    each (List.range 16) fun p => setF RDC_HP_STAT.PWR p 0, each allWriters fun w => setF WRC_WR_STAT.PWR w 0])

/-- A power-loss sequence begins: step 2 of Table 18.9, for a supply loss (R508) or as FCU's DIRECT 3 (R539). The budget closes
and fetch stops, both because the sequence runs; each writer with no sector in progress has its power-loss source asserted
at once (R165), and with none in progress journal mode follows. -/
def powerLossBegin (direct : Bool) : Prog := .ask fun s =>
  if s.inPowerLoss then .skip
  else all [
    .upd (.ptm fun p => { p with plStep := 2, plReset := direct, plArmed := s.on PTM_JNL_STAT.ARMED 0, plAt := p.ticks, plUnits := s.cqe.overlay.countP (·.inBudget) }),
    sliceDrop, endTransition, spnHanded, setF PTM_JNL_STAT.ARMED 0 0,
    each (allWriters.filter fun w => (s.writer w).sector.isNone) setPowerLoss, journalMode]

end Sys2Proof.Machine
end

