-- ==== Sys2Proof/Machine/FcuOps.lean ====
section
/-! DEFINITION. FCU (chapter 20): events, first-error capture, counting, the ladder and the direct reactions (R531 to R541). -/
namespace Sys2Proof.Machine

/-- The capture of an event that the outside brings: of an access by a master, or of none, with the origin's detail where the source has one (R534). -/
def eventCap (m : Option Master) (typ size addr : Nat) : FCap :=
  match m with
  | some x => accessCap x typ size addr
  | none => detail addr

/-- What is captured of an event that does not come from a memory access: the origin's detail for the sources that have one, 0 for the others (R534). -/
def eventDetail (i : Nat) (c : FCap) : FCap := if c.typ = 15 ∧ ¬((128 ≤ i ∧ i ≤ 294) ∨ i = 25 ∨ i = 27) then { c with addr := 0 } else c

/-- PEND of a source, with its bit in FCU_PEND and the level of nFAULT (R544). -/
def setPend (i : Nat) (b : Bool) : Prog :=
  all [setF FCU_SRC_STAT.PEND i (b2n b), setBitF FCU_PEND.PEND (i / 32) (i % 32) b, driveNfault]

/-- First-error capture (R534). -/
def capture (i : Nat) (c : FCap) : Prog := .ask fun s =>
  if s.on FCU_FEC_INFO.VALID 0 then setF FCU_FEC_INFO.MULTI 0 1
  else all [setF FCU_FEC_INFO.VALID 0 1, setF FCU_FEC_INFO.SRC 0 i, setF FCU_FEC_INFO.MID 0 c.mid, setF FCU_FEC_INFO.TYPE 0 c.typ,
    setF FCU_FEC_INFO.SIZE 0 c.size, setF FCU_FEC_ADDR.ADDR 0 c.addr, setF FCU_FEC_TIME.TIME 0 s.time]

/-- Whether the next event of source `i` is severe: it brings WCNT to N, or SEVERE is set in this window (R535). -/
def State.severeNext (s : State) (i : Nat) : Bool :=
  s.on FCU_SRC_STAT.SEVERE i || decide (max 1 (s.get FCU_SRC_CFG.N i) ≤ satAdd (s.get FCU_SRC_STAT.WCNT i) 1 255)

/-- A window that an event starts, or goes on: its start, and WIN as the event finds it (R535, Table 20.7). -/
def windowNote (i : Nat) : Prog := .ask fun s => .upd (.fcu fun x =>
  let start := if s.get FCU_SRC_STAT.WCNT i = 0 then s.ptm.ticks else (Sparse.get (0, 0) x.windows i).1
  { x with windows := Sparse.put (0, 0) x.windows i (start, s.get FCU_SRC_CFG.WIN i) })

/-- The window is over: 2^WIN ms after its start; with WIN = 31 it never is (R535). -/
def State.windowOver (s : State) (i : Nat) : Bool :=
  let (start, w) := Sparse.get (0, 0) s.fcu.windows i
  w != 31 && decide (start + 2 ^ min 24 w * tickMs ≤ s.ptm.ticks)

/-- Counting one event (R535). -/
def count (i : Nat) : Prog := .ask fun s =>
  all [windowNote i, incF FCU_SRC_STAT.WCNT i, incF FCU_SRC_STAT.TOTAL i, when (s.severeNext i) (setF FCU_SRC_STAT.SEVERE i 1)]

/-- The ladder's next step, and whether LAST allows it (R536). -/
def nextStep (i n : Nat) : Nat := if n = 2 ∧ blockOfSource i = none then 4 else n + 1
def State.stepAllowed (s : State) (i n : Nat) : Bool := decide (n ≤ 4 ∧ n ≤ s.get FCU_SRC_CFG.LAST i + 1)

/-- The escalation time in ticks: ESC_MUL × 10^ESC_EXP µs, at most 1 s (R536, Table 20.7). -/
def State.escTicks (s : State) (i : Nat) : Nat :=
  8 * min 1000000 (clampN 1 9 (s.get FCU_SRC_CFG.ESC_MUL i) * 10 ^ min 6 (s.get FCU_SRC_CFG.ESC_EXP i))

/-- The escalation timer starts, or stops. -/
def setTimer (i : Nat) (b : Bool) : Prog := .ask fun s => .upd (.fcu fun x =>
  { x with timers := (if b then [(i, s.ptm.ticks + s.escTicks i)] else []) ++ x.timers.filter fun e => e.1 != i })
def State.timerOver (s : State) (i : Nat) : Bool := s.fcu.timers.any fun e => e.1 == i && decide (e.2 ≤ s.ptm.ticks)

/-- The ladder of source `i` arrives at step `n` (R536). -/
def arrive (i n : Nat) : Prog := oneEvent (.ask fun s => all [
  setF FCU_SRC_STAT.STEP i n, setPend i true,
  setTimer i (s.stepAllowed i (nextStep i n)),
  when (2 ≤ n) (almEvent bFCU kFault "ladder step" [i, n]),
  when (n == 2) nmi,
  when (n == 3) (match blockOfSource i with
    | some b => blockReset b
    | none => .skip),
  when (n == 4) (enterSafe 1)])

/-- The direct reaction of BOOT, SERVICE and RECOVERY (R539); DIRECT 4 is nFAULT's level, 0, 6 and 7 the owner's interrupt. -/
def direct (i : Nat) : Prog := .ask fun s =>
  let d := s.get FCU_SRC_CFG.DIRECT i
  if d = 1 then nmi
  else if d = 2 then (match blockOfSource i with
    | some b => blockReset b
    | none => nmi)
  else if d = 3 then powerLossBegin true
  else if d = 5 then enterSafe 1
  else .skip

/-- The reaction to a severe event (R536, R537, R539, R541). -/
def react (i : Nat) : Prog := .ask fun s =>
  if s.on FCU_SELF.SELF_FLT 0 then setPend i true
  else if s.normalService then
    if s.get FCU_SRC_STAT.STEP i = 0 then arrive i 1 else setF FCU_SRC_STAT.AGAIN i 1
  else if s.on FCU_SRC_STAT.PEND i then .skip
  else .seq (setPend i true) (direct i)

/-- One event of source `i`: captured, counted, judged and reacted to (R532 to R539). A disabled or reserved source raises none,
and FCU raises none while its island is down. -/
def raise (i : Nat) (c : FCap) : Prog := .ask fun s =>
  if sourceReserved i ∨ !s.on FCU_SRC_CFG.EN i ∨ !s.islandOn 2 then .skip
  else all [capture i (eventDetail i c), count i, when (s.severeNext i) (react i)]

/-- Report a failed access (R24, R34, R36, R430). -/
def accessReport (m : Master) (typ a n src : Nat) : Prog := .seq (when (src == 16) (incF PCX_PROT_STAT.DENY_CNT 0)) (raise src (accessCap m typ (sizeLog n) a))

/-- A write reserved to the Keeper, by another master: discarded, reported as a protection violation and counted in the block's
RWK_DENY (R14, R596). -/
def deny (m : Master) (r : RegName) (i : Nat) : Prog :=
  .seq (raise 16 (accessCap m 1 2 (regAddr r i))) (incF BLK_LOCK.RWK_DENY (regInfo r).block)

/-- A command that only the Keeper's write makes act (R596). -/
def keeperOnly (m : Master) (r : RegName) (i : Nat) (p : Prog) : Prog := if m = .keeper then p else deny m r i

/-- Every field of a register is the Keeper's, and not each is a command: any write of it by another master is reported (R14). R596 speaks of the registers
that hold fields of other codes too. -/
def allKeeper (r : RegName) : Bool :=
  ((regFields r).all fun f => f.acc == .rwk || f.acc == .wok) && (regFields r).any fun f => f.acc == .rwk

/-- A write of fields of the Keeper's that read back: another master's changes nothing, and is reported (R14), in a register that holds fields of other codes
where it would have changed one (R596). -/
def keeperSets (m : Master) (r : RegName) (i : Nat) (changes : State → Bool) (p : Prog) : Prog :=
  if m = .keeper then p else whenS (fun s => allKeeper r || changes s) (deny m r i)

/-- Source `i` is owned by application firmware. -/
def State.appOwned (s : State) (i : Nat) : Bool := !s.on FCU_SRC_CFG.OWNER i

end Sys2Proof.Machine
end

