-- ==== Sys2Proof/Machine/SplOps.lean ====
section
/-! DEFINITION. SPL's shared operations: sides and wrap, flooding, the acceptance test, membership and election, time
discipline, plans (R247 to R272). -/
namespace Sys2Proof.Machine

/-- Member states (Table 9.10) and hop states (Table 9.11). -/
def mbOff : Nat := 0
def mbLinking : Nat := 1
def mbJoining : Nat := 2
def mbMember : Nat := 3
def mbDup : Nat := 4
def lkDown : Nat := 0
def lkTrain : Nat := 1
def lkHello : Nat := 2
def lkUp : Nat := 3

/-- Frame types (Table 9.3). -/
def tHello : Nat := 0x01
def tDlyReq : Nat := 0x02
def tDlyRsp : Nat := 0x03
def tBeacon : Nat := 0x10
def tJoin : Nat := 0x11
def tLeave : Nat := 0x12
def tTime : Nat := 0x20
def tPlan : Nat := 0x21
def tFwarn : Nat := 0x30
def tRelay : Nat := 0x40

def State.splState (s : State) : Nat := s.get SPL_STAT.STATE 0
def State.link (s : State) (d : Nat) : Nat := s.get SPL_SIDE_STAT.LINK d
def State.ownId (s : State) : Nat := s.get SPL_CFG.MEMBER_ID 0
/-- SRC, where 3 is treated as 2: 0 STRAIT, 1 PULSE, 2 LOCAL. -/
def State.merSrc (s : State) : Nat := min 2 (s.get SPL_CFG.SRC 0)
/-- Joining or a full member: the states that send BEACONs and elect (R258, R260). -/
def State.beacons (s : State) : Bool := s.splState == mbJoining || s.splState == mbMember

/-- The member sets HEALTHY (R258). -/
def State.splHealthy (s : State) : Bool :=
  s.splState == mbMember && s.mode != mBoot && s.mode != mRecovery && !s.safe

/-- The lane on which a frame bound for ring X (SL1) or ring Y (SL3) leaves, wrapped as R255 says; the side it crosses. -/
def State.outLane (s : State) (ringX : Bool) : Nat :=
  if ringX then (if s.on SPL_STAT.WRAP_N 0 then 3 else 1) else (if s.on SPL_STAT.WRAP_P 0 then 1 else 3)
def laneSide (lane : Nat) : Nat := if lane = 1 then 1 else 0

/-- The hop of side `d` runs at S2. -/
def State.hopS2 (s : State) (d : Nat) : Bool := s.get SPL_SIDE_STAT.VER d == 2

/-- The VER byte sent on a side (Table 9.5). -/
def State.verByte (s : State) (d : Nat) : Nat := if s.hopS2 d then 0x20 else 0x12

/-- A Strait frame of 64 bytes: its header, the payload from byte 8 on, its CRC (R247, Table 9.2). -/
def straitFrame (typ ver origin hops seq : Nat) (s2v : Bool) (payload : List Byte) : List Byte :=
  let body := [BitVec.ofNat 8 typ, BitVec.ofNat 8 ver] ++ beBytes 2 origin ++ beBytes 2 hops ++ [BitVec.ofNat 8 seq, BitVec.ofNat 8 (b2n s2v)] ++
    (payload ++ List.replicate 52 0#8).take 52
  body ++ beBytes 4 (crc32 body).toNat

/-- A payload as a hop carries it: the vibration level of a BEACON is 0 without S2V, the CORR of a TIME is a multiple of 8 ns on an S1 hop (Table 9.5). -/
def hopPayload (typ : Nat) (s2 s2v : Bool) (p : List Byte) : List Byte :=
  if typ = tBeacon ∧ !s2v then p.set 6 0
  else if typ = tTime ∧ !s2 then p.take 8 ++ beBytes 4 (ofBeBytes ((p.drop 8).take 4) / 128 * 128)
  else p

/-- One frame goes out on one lane, if its side is UP. -/
def splSend (lane typ origin hops seq : Nat) (s2v : Bool) (payload : List Byte) : Prog := .ask fun s =>
  let d := laneSide lane
  let v := s2v && s.hopS2 d
  when (s.link d == lkUp) (send "SL" "frame" (lane ::
    (straitFrame typ (s.verByte d) origin hops seq v (hopPayload typ (s.hopS2 d) v payload)).map (·.toNat)))

/-- Forwarding (R252): not its own, not beyond 1,022 hops; the frame leaves on the ring it came by. -/
def splForward (h : StraitHdr) (typ : Nat) (payload : List Byte) : Prog := .ask fun s =>
  if h.origin.val = s.ownId ∨ h.hops.val + 1 ≥ 1023 then .skip
  else splSend (s.outLane (h.side == 0)) typ h.origin (h.hops + 1) h.seq (h.s2v && s.hopS2 h.side) payload

/-- The next SEQ of a TYPE. -/
def splSeq (typ : Nat) (k : Nat → Prog) : Prog := .ask fun s =>
  let q := (Sparse.get 0 s.spl.seq typ + 1) % 256
  .seq (.upd (.spl fun x => { x with seq := Sparse.put 0 x.seq typ q })) (k q)

/-- A frame this member originates floods both rings with its next SEQ of that TYPE (R252, R253). -/
def splFlood (typ : Nat) (payload : List Byte) : Prog := splSeq typ fun q => .ask fun s =>
  .seq (splSend (s.outLane true) typ s.ownId 1 q true payload) (splSend (s.outLane false) typ s.ownId 1 q true payload)

/-- A hop-scoped frame on the lane of side `d`; before the hop has a version it carries the version offered (R249). -/
def splHop (d typ ver : Nat) (payload : List Byte) : Prog := splSeq typ fun q => .ask fun s =>
  send "SL" "frame" ((if d = 0 then 3 else 1) :: (straitFrame typ ver s.ownId 1 q (decide (0x20 ≤ ver)) payload).map (·.toNat))

/-- A time stamp as it is sent: the Meridian time, and the fine part, which the member measures (free) and an S1 hop sends as 0 (R247, Table 9.5). -/
def stampBytes (s2 : Bool) (ticks fine : Nat) : List Byte := beBytes 8 ticks ++ beBytes 2 (if s2 then fine % 2000 else 0)
def dlyReq (d : Nat) : Prog := fresh fun fine => .ask fun s => splHop d tDlyReq (s.verByte d) (stampBytes (s.hopS2 d) s.time fine)

/-- The HELLO this part offers: S2.0, or S1.2 while VER_CAP is 1 (R249). It goes out every 10 µs, and a hop marker every 1 µs while the side is UP: the member's
ID, the LINK state (R247, Table 9.4). -/
def State.ownVer (s : State) : Nat := if s.on SPL_CFG.VER_CAP 0 then 0x12 else 0x20
def sendHello (d : Nat) : Prog := .ask fun s => splHop d tHello s.ownVer ([BitVec.ofNat 8 s.ownVer] ++ beBytes 2 s.ownId ++ [BitVec.ofNat 8 (s.get SPL_CFG.EN 0)])
def sendMarker (d : Nat) : Prog := .ask fun s => send "SL" "marker" [if d = 0 then 3 else 1, s.ownId, s.link d]

/-- What the sides send of themselves at a tick, and MER_OUT's falling edge (R247, R262, Table 9.4). -/
def splTick : Prog := .ask fun s => all [
  each (List.range 2) fun d => .seq (when (s.link d == lkHello && s.ptm.ticks % 80 == 0) (sendHello d)) (when (s.link d == lkUp && s.ptm.ticks % 8 == 0) (sendMarker d)),
  when (s.spl.merOut != 0) (.upd (.spl fun x => { x with merOut := x.merOut - 1 }))]

/-- The acceptance test of R253, and setting LAST. -/
def State.accepts (s : State) (h : StraitHdr) (typ : Nat) : Bool :=
  h.origin.val != s.ownId &&
    (let d := (h.seq.val + 256 - Sparse.get 0 s.spl.last (h.origin * 256 + typ)) % 256; decide (1 ≤ d ∧ d ≤ 127))
def setLast (h : StraitHdr) (typ : Nat) : Prog :=
  .upd (.spl fun x => { x with last := Sparse.put 0 x.last (h.origin * 256 + typ) h.seq })

/-- A flooded frame arrives on a side that is UP: it is acted on if it passes the test, and forwarded (R248, R252, R253). -/
def splReceive (h : StraitHdr) (typ : Nat) (payload : List Byte) (act : Prog) : Prog := .ask fun s =>
  when (s.link h.side == lkUp && (s.splState != mbOff || s.spl.leaveFrames != 0)) (.seq
    (when (s.accepts h typ && s.splState != mbOff) (.seq (setLast h typ) act))
    (splForward h typ payload))

/-- MEMBERS and SPL_MEMBERS as the member list stands; the member itself is always present (R258). -/
def membersShow : Prog := .ask fun s =>
  let ids := if s.splState == mbOff then [] else s.ownId :: (s.spl.members.map (·.1)).filter (· != s.ownId)
  .seq (setF SPL_STAT.MEMBERS 0 ids.length)
    (each (List.range 16) fun i => setF SPL_MEMBERS.W i
      ((ids.filter fun k => k / 32 == i).foldl (fun m k => m ||| 2 ^ (k % 32)) 0))

/-- What is held of member `id`. -/
def setMember (id : Nat) (m : Member) : Prog :=
  .upd (.spl fun x => { x with members := Sparse.insert id m (x.members.filter fun e => e.1 != id) })

/-- A member is removed. -/
def splRemove (id : Nat) : Prog := all [
  .upd (.spl fun x => { x with members := x.members.filter fun e => e.1 != id }),
  setF SPL_STAT.MEMB_EVT 0 1, membersShow]

/-- JOIN is flooded; every SEQ counter restarts at 1 after it (R253). -/
def splJoin : Prog := .seq (splFlood tJoin (beBytes 4 Config.splInstance)) (.upd (.spl fun x => { x with seq := [] }))

/-- The member's state. -/
def setSplState (st : Nat) : Prog := .seq (setF SPL_STAT.STATE 0 st) membersShow

/-- A side reaches UP (R249, R256, Table 9.7). -/
def sideUp (d : Nat) : Prog := .ask fun s => all [
  setF SPL_SIDE_STAT.LINK d lkUp,
  if d = 0 then setF SPL_STAT.WRAP_P 0 0 else setF SPL_STAT.WRAP_N 0 0,
  dlyReq d,
  when (s.splState == mbLinking) (all [splJoin, setSplState mbJoining, .upd (.spl fun x => { x with joinFrames := 0 })])]

/-- With both sides DOWN the member is isolated (R255, Table 9.7). -/
def splIsolated : Prog := whenS (fun s => s.link 0 == lkDown && s.link 1 == lkDown && s.beacons) (setSplState mbLinking)

/-- A side's transmit lane goes to electrical idle and its state to DOWN (Table 9.4). -/
def sideIdle (d : Nat) : Prog := all [setF SPL_SIDE_STAT.LINK d lkDown, setF SPL_SIDE_STAT.VER d 0, send "SL" "idle" [d], splIsolated]

/-- A side that was UP is lost: its lane goes idle and it wraps (R249, R255). -/
def sideDown (d : Nat) : Prog := .seq (if d = 0 then setF SPL_STAT.WRAP_P 0 1 else setF SPL_STAT.WRAP_N 0 1) (sideIdle d)

/-- Orderly leave (R259): LEAVE floods, the member keeps forwarding for 2 frames, then its lanes go idle. -/
def splLeave : Prog := .ask fun s =>
  when (s.splState != mbOff) (all [splFlood tLeave [], setSplState mbOff,
    .upd (.spl fun x => { x with leaveFrames := 2, members := [], joinFrames := 0, hasMaster := false, last := [] }),
    setF SPL_STAT.IS_MASTER 0 0])

/-- EN is 0: both sides are DOWN with their lanes in electrical idle, and nothing wraps (Table 9.4). -/
def lanesIdle : Prog := all [setF SPL_SIDE_STAT.LINK 0 0, setF SPL_SIDE_STAT.LINK 1 0, setF SPL_SIDE_STAT.VER 0 0, setF SPL_SIDE_STAT.VER 1 0,
  setF SPL_STAT.WRAP_P 0 0, setF SPL_STAT.WRAP_N 0 0, send "SL" "idle" [0], send "SL" "idle" [1]]

/-- A duplicate of this member's ID is seen in a BEACON or JOIN (R257). -/
def splDuplicate (origin inst : Nat) : Prog := .ask fun s =>
  when (origin == s.ownId && inst != Config.splInstance % 2 ^ 32 &&
      (s.splState == mbJoining || (s.splState == mbMember && decide (inst < Config.splInstance % 2 ^ 32)))) (all [
    setSplState mbDup, raise 258 (detail 0), almEvent bSPL kFault "duplicate member ID" [origin, inst]])

/-- REF_LOCK where the rules fix it: 1 in LOCAL mode, while EN = 0, and on the master in STRAIT mode (R263). -/
def refLockFixed : Prog := whenS (fun s => s.merSrc == 2 || !s.on SPL_CFG.EN 0 || (s.merSrc == 0 && s.on SPL_STAT.IS_MASTER 0))
  (setF SPL_STAT.REF_LOCK 0 1)

/-- Election at a frame start (R260). -/
def splElect : Prog := .ask fun s => when s.beacons (
  let others := (s.spl.members.filter fun e => e.2.healthy && e.2.elig && e.1 != s.ownId).map (·.1)
  let cands := if s.splHealthy && s.on SPL_CFG.ELIG 0 then s.ownId :: others else others
  match cands with
  | [] => .seq (.upd (.spl fun x => { x with hasMaster := false })) (all [
      when s.spl.hasMaster (.seq (setF SPL_STAT.MASTER_CHG 0 1) (almEvent bSPL kState "master change" [512])),
      setF SPL_STAT.IS_MASTER 0 0])
  | c :: cs =>
    let m := cs.foldl min c
    all [when (!s.spl.hasMaster || s.get SPL_STAT.MASTER_ID 0 != m)
        (.seq (setF SPL_STAT.MASTER_CHG 0 1) (almEvent bSPL kState "master change" [m])),
      setF SPL_STAT.MASTER_ID 0 m, setF SPL_STAT.IS_MASTER 0 (b2n (m == s.ownId)),
      .upd (.spl fun x => { x with hasMaster := true })])

/-- Sub-tick units: 125 ns of 16 parts. -/
def tickUnits : Nat := 2000

/-- step(theta), at a frame boundary (R261). -/
def splStep (theta : Int) : Prog := .ask fun s =>
  let tot : Int := (s.time * tickUnits + s.spl.phase : Nat) + theta
  all [setF PTM_MER_TIME.TIME 0 ((tot / tickUnits) % 2 ^ 64).toNat,
    .upd (.spl fun x => { x with phase := (tot % tickUnits).toNat, corrected := true }),
    setF SPL_MER_STAT.STEP_EVT 0 1, almEvent bSPL kState "Meridian step" [ofSigned 32 (theta / 16)]]

/-- The discipline of R261 for one theta, in 1/16 ns. A step waits for the frame boundary. -/
def splDiscipline (theta : Int) : Prog := .ask fun s =>
  let win : Int := max 1 (s.get SPL_MER_CFG.PULSE_WIN 0) * tickUnits
  let thr : Int := max 2 (s.get SPL_MER_CFG.STEP_THR 0) * tickUnits
  let l := theta :: s.spl.thetas.take 2
  let agree := l.length == 3 && l.all fun a => l.all fun b => decide (a - b ≤ win)
  .seq (setI SPL_MER_STAT.OFS 0 (clampI (-32767) 32767 (roundDiv theta 16)))
    (if !s.on SPL_STAT.REF_LOCK 0 then
      if agree then .seq (setF SPL_STAT.REF_LOCK 0 1) (.upd (.spl fun x => { x with thetas := [], stepPend := some theta }))
      else .upd (.spl fun x => { x with thetas := l })
    else if theta.natAbs > thr.natAbs then .upd (.spl fun x => { x with stepPend := some theta })
    else .upd (.spl fun x =>
      let f := x.fi + (theta : Rat) / 16 / 4096
      { x with fi := f, trim := max (-200) (min 200 (f + (theta : Rat) / 16 / 64)) }))

/-- Words of the plan register from the entries of the parts (Tables 9.3 and 9.17). -/
def planEntry (ps : List (Nat × List Nat)) (m : Nat) : Nat :=
  match ps.find? fun e => e.1 == m / 48 with
  | some (_, es) => es.getD (m % 48) 0 % 256
  | none => 0
def planWord (ps : List (Nat × List Nat)) (i : Nat) : Nat :=
  planEntry ps (4 * i) + planEntry ps (4 * i + 1) * 256 + planEntry ps (4 * i + 2) * 65536 + planEntry ps (4 * i + 3) * 16777216

/-- A plan replaces that of version `ver` and origin `origin` (R266). -/
def PlanSet.beats (p : PlanSet) (ver origin : Nat) : Bool := newer 65536 p.ver ver || p.ver == ver && decide (p.origin < origin)

/-- A plan is adopted in one tick (R266). -/
def planAdopt (p : PlanSet) : Prog := all [
  each (List.range 128) fun i => setF SPL_PLAN.W i (planWord p.parts i),
  setF SPL_PLAN_CTL.VER 0 p.ver, setF SPL_PLAN_CTL.PLAN_ORIGIN 0 p.origin]

/-- The entries of part `k` as a register array holds them. -/
def State.planPart (s : State) (f : Fld) (k : Nat) : List Nat :=
  ((List.range 48).filter fun j => decide (48 * k + j < 512)).map fun j =>
    s.get f ((48 * k + j) / 4) / 256 ^ ((48 * k + j) % 4) % 256

/-- A PLAN part's payload (Table 9.3). -/
def planBytes (ver part : Nat) (es : List Nat) : List Byte := beBytes 2 ver ++ [BitVec.ofNat 8 part, 0] ++ es.map (BitVec.ofNat 8)

/-- The eleven PLAN parts of a plan flood (R266). -/
def planFlood (f : Fld) (ver : Nat) : Prog := .ask fun s =>
  each (List.range 11) fun k => splFlood tPlan (planBytes ver k (s.planPart f k))

/-- SUBMIT (R266): flood with the next version, 0 skipped, and adopt at once. -/
def planSubmit : Prog := .ask fun s =>
  let v := (s.get SPL_PLAN_CTL.VER 0 + 1) % 65536
  let v := if v = 0 then 1 else v
  all [when (s.splState != mbOff) (planFlood SPL_PLAN_TX.W v),
    planAdopt { ver := v, origin := s.ownId, parts := (List.range 11).map fun k => (k, s.planPart SPL_PLAN_TX.W k) }]

/-- A BEACON's payload, and that of this member (Table 9.3). -/
def beaconBytes (inst : Nat) (healthy elig refLock : Bool) (master level ver : Nat) : List Byte :=
  beBytes 4 inst ++ beBytes 2 (b2n healthy <<< 15 ||| b2n elig <<< 14 ||| b2n refLock <<< 13 ||| master) ++ [BitVec.ofNat 8 level] ++ beBytes 2 ver
def State.beaconPayload (s : State) : List Byte :=
  beaconBytes Config.splInstance s.splHealthy (s.on SPL_CFG.ELIG 0) (s.on SPL_STAT.REF_LOCK 0) (s.get SPL_STAT.MASTER_ID 0) (s.get SPL_VIB.OWN 0)
    (s.get SPL_PLAN_CTL.VER 0)

/-- A forewarning's payload: PEAK, LAST_SRC, the Meridian time of the tick (Table 9.3). -/
def fwarnBytes (peak src tm : Nat) : List Byte := [BitVec.ofNat 8 peak, BitVec.ofNat 8 (src % 8)] ++ beBytes 8 tm

/-- A forewarning is originated on a shock report of SVE (R219, R267). -/
def splForewarn (peak src : Nat) : Prog := .ask fun s =>
  when (s.on SPL_FW_CFG.TX_EN 0 && s.splState == mbMember && !s.wrc.forewarn) (splFlood tFwarn (fwarnBytes peak src s.time))

/-- A RELAY frame's payload (Table 9.3). -/
def relayPayload (bcast : Bool) (dest : Nat) (data : List Byte) : List Byte :=
  beBytes 2 (b2n bcast <<< 15 ||| dest % 512) ++ [0, 0] ++ (data ++ List.replicate 48 0#8).take 48

/-- SPL_RLY_RX shows the frame at the head of the queue, or 0 (R271). -/
def relayShow : Prog := .ask fun s =>
  let f := s.spl.rx.headD []
  .seq (setF SPL_RLY_CTL.RX_COUNT 0 s.spl.rx.length)
    (each (List.range 16) fun i => setF SPL_RLY_RX.W i
      (f.getD (4 * i) 0 * 2 ^ 24 + f.getD (4 * i + 1) 0 * 65536 + f.getD (4 * i + 2) 0 * 256 + f.getD (4 * i + 3) 0))

/-- POP removes the head of the queue (R271). -/
def relayPop : Prog := .seq (.upd (.spl fun x => { x with rx := x.rx.tail })) relayShow

/-- SEND originates a RELAY frame from SPL_RLY_TX, at most two in a frame (R271). -/
def relaySend : Prog := .ask fun s =>
  if s.on SPL_RLY_CTL.TX_BUSY 0 then .skip
  else all [splFlood tRelay (relayPayload (s.on SPL_RLY_CTL.BCAST 0) (s.get SPL_RLY_CTL.DEST 0) ((List.range 12).flatMap fun i => beBytes 4 (s.get SPL_RLY_TX.W i))),
    .upd (.spl fun x => { x with txCount := x.txCount + 1 }),
    when (decide (2 ≤ s.spl.txCount + 1)) (setF SPL_RLY_CTL.TX_BUSY 0 1)]

/-- A TIME frame's payload (Table 9.3). -/
def timeBytes (tf corr : Nat) : List Byte := beBytes 8 tf ++ beBytes 4 corr

/-- This member's vibration level over the conversions since the last frame start: min(255, round(1,024 × max RMS / 32,768)) (R270). -/
def State.ownLevel (s : State) : Nat := min 255 (((Nat.sqrt (s.spl.vibSq.foldl max 0 / s.spl.vibN)) + 16) / 32)

/-- SPL's duties at a frame start (R258 to R271). MER_OUT goes high for 8 ticks (R262). -/
def splFrame : Prog := .ask fun s0 => all [
  .upd (.spl fun x => { x with corrected := false, frames := x.frames + 1, merOut := if s0.on SPL_MER_CFG.OUT_EN 0 then 8 else 0, vibSq := [], vibN := 0 }),
  -- an orderly leave ends after two frames
  .ask fun s => when (s.spl.leaveFrames != 0) (.seq (.upd (.spl fun x => { x with leaveFrames := x.leaveFrames - 1 }))
    (when (s.spl.leaveFrames == 1) lanesIdle)),
  -- a TIME copy of the frame that ends now disciplines the time; absences are counted
  .ask fun s => when (s.merSrc == 0 && s.on SPL_CFG.EN 0 && !s.on SPL_STAT.IS_MASTER 0) (match s.spl.timeCopy with
    | some (h, th, _, _) => all [setF SPL_MER_STAT.HOPS 0 h, .upd (.spl fun x => { x with timeAbsent := 0 }), splDiscipline th]
    | none => all [setF SPL_MER_STAT.HOPS 0 0x3FF, .upd (.spl fun x => { x with timeAbsent := x.timeAbsent + 1, thetas := [] }),
        when (decide (8 ≤ s.spl.timeAbsent + 1)) (setF SPL_STAT.REF_LOCK 0 0)]),
  .ask fun s => when (s.merSrc == 1 && s.on SPL_CFG.EN 0)
    (if s.spl.pulseSeen then .upd (.spl fun x => { x with pulseSeen := false, pulseAbsent := 0 })
     else .seq (.upd (.spl fun x => { x with pulseAbsent := x.pulseAbsent + 1, thetas := [] }))
      (when (decide (3 ≤ s.spl.pulseAbsent + 1) && s.on SPL_STAT.REF_LOCK 0)
        (.seq (setF SPL_STAT.REF_LOCK 0 0) (setF SPL_MER_STAT.PULSE_LOSS 0 1)))),
  .ask fun s => match s.spl.stepPend with
    | some th => .seq (splStep th) (.upd (.spl fun x => { x with stepPend := none }))
    | none => .skip,
  .upd (.spl fun x => { x with timeCopy := none }),
  .ask fun s => match s.spl.adopt with
    | some p => .seq (.upd (.spl fun x => { x with adopt := none })) (when (p.beats (s.get SPL_PLAN_CTL.VER 0) (s.get SPL_PLAN_CTL.PLAN_ORIGIN 0)) (planAdopt p))
    | none => .skip,
  -- NBR before this frame's ageing: BEACONs that arrived in the last frame
  .ask fun s =>
    let vh := max 1 (s.get SPL_VIB.VIB_HOPS 0)
    let ls := (s.spl.members.filter fun e => e.2.since == 0 && e.2.s2v && decide (e.2.hops ≤ vh) && e.1 != s.ownId).map
      fun e => e.2.level
    .seq (setF SPL_VIB.NBR 0 (if s.splState = mbMember then ls.foldl max 0 else 0)) (setF SPL_VIB.OWN 0 s0.ownLevel),
  -- presence, joining, election
  .ask fun s =>
    let gone := s.spl.members.any fun e => decide (3 ≤ e.2.since)
    all [.upd (.spl fun x => { x with members :=
        (x.members.filter fun e => decide (e.2.since < 3)).map (fun e => (e.1, { e.2 with since := e.2.since + 1 })) }),
      when gone (.seq (setF SPL_STAT.MEMB_EVT 0 1) membersShow)],
  .ask fun s => when (s.splState == mbJoining) (.seq (.upd (.spl fun x => { x with joinFrames := x.joinFrames + 1 }))
    (when (decide (3 ≤ s.spl.joinFrames + 1)) (.seq (setSplState mbMember) (setF SPL_STAT.MEMB_EVT 0 1)))),
  splElect, refLockFixed,
  -- the master's floods; CORR is a measured delay
  .ask fun s => when (s.on SPL_STAT.IS_MASTER 0 && s.beacons) (all [
    fresh fun corr => splFlood tTime (timeBytes s.time (corr % 2 ^ 32)), setF SPL_MER_STAT.HOPS 0 0,
    when ((s.spl.reflood || s.spl.frames % 100 == 0) && s.get SPL_PLAN_CTL.VER 0 != 0)
      (planFlood SPL_PLAN.W (s.get SPL_PLAN_CTL.VER 0))]),
  .upd (.spl fun x => { x with reflood := false, txCount := 0 }), setF SPL_RLY_CTL.TX_BUSY 0 0,
  .ask fun s => each ((List.range 2).filter fun d => s.link d == lkUp && s.spl.frames % 1000 == 0)
    dlyReq,
  .ask fun s => when (s.on SPL_MER_CFG.OUT_EN 0) (send "MER_OUT" "pulse" [s.time])]

end Sys2Proof.Machine
end

