-- ==== Sys2Proof/Machine/HeadOps.lean ====
section
/-! DEFINITION. Head states and their transitions (R43 to R45, R72, R604, R605). -/
namespace Sys2Proof.Machine

/-- The Keeper's copy of a register in device configuration (R73, R604; assumption log 12). -/
def deviceCopy (r : RegName) (i : Nat) : Prog := .ask fun s =>
  .upd (.kpr fun k => { k with bootRegs := (k.bootRegs.filter fun e => e.1 != regKey r i) ++ [(regKey r i, (s.reg r i).toNat)] })

/-- The value device configuration holds for a register. -/
def State.deviceValue (s : State) (r : RegName) (i : Nat) : Option Nat :=
  (s.kpr.bootRegs.find? fun e => e.1 == regKey r i).map (·.2)

/-- A FAILED head leaves its pass: its path leaves the active set, its sector being read is erased, its gate closes without a
rewrite entry (R72, R166, R187, Table 5.10). Its writer stays assigned, and opens no gate, until the pass ends (R158). -/
def pathFailed (p : Nat) : Prog := .ask fun s => all [
  leaveActive p, seekDrops p, eraseReads p fcHead,
  each (s.writersOfPath p) fun w => .seq (closeGate w cPreamp true) (setWriter w fun x => { x with queue := [] })]

/-- Head `h` moves to `st`: DEGRADED and FAILED come with an Almanac record and an event of the head's source in the same tick
(R45); every change is copied to device configuration (R604). -/
def headTo (h st : Nat) : Prog := .ask fun s => all [
  setF SVE_HEAD_STATE.STATE h st, deviceCopy .SVE_HEAD_STATE h,
  when (st == hDegraded || st == hFailed)
    (.seq (raise (192 + h) (detail h)) (almEvent bSVE kState "head state" [h, s.headState h, st])),
  when (st == hFailed) (.seq (.upd (.kpr fun k => { k with failedSince := (k.failedSince.filter fun e => e.1 != h) ++ [(h, s.ptm.ticks)] }))
    (match s.pathOfHead h with
      | some p => pathFailed p
      | none => .skip))]

/-- Transitions of Table 2.1. `rebuild` marks a SERVICE re-build of the map, the only way out of ABSENT. -/
def headLegal (rebuild : Bool) (o n : Nat) : Bool :=
  match o with
  | 0 => rebuild && (n == hSpare || n == hInSlot)
  | 1 => n == hInSlot
  | 2 => n == hDegraded || n == hFailed
  | 3 => n == hFailed
  | 4 => n == hRetired
  | _ => false

/-- A slot-map value is valid (Table 2.2): no arm field is 6 or 7, and no two enabled fields name one arm. -/
def slotMapValid (v : Nat) : Bool :=
  let arms := (List.range 4).map (slotArm v) ++ [nbits v 18 16]
  let named := ((List.range 4).filter (slotEn v)).map (slotArm v) ++ if nbit v 19 then [nbits v 18 16] else []
  arms.all (· < 6) && named.Nodup

end Sys2Proof.Machine
end

