-- ==== Sys2Proof/Machine/Samples.lean ====
section
/-! DEFINITION. The sample-level loops of a head path over one sector: alignment, equaliser, tap adaptation, baseline, timing and gain loops, the joint
detector with its noise predictors (R80 to R91, R119, R121 to R125). Sums are exact; a tap rounds to its accumulator's LSB at each update, a
noise-predictor word to its format at a boundary (assumption log 6). -/
namespace Sys2Proof.Machine

def clampR (lo hi x : Rat) : Rat := max lo (min hi x)
def sgnR (x : Rat) : Rat := if x > 0 then 1 else if x < 0 then -1 else 0

/-- Channel bit 1 is d = +1, channel bit 0 is d = −1 (R117). -/
def dec (b : Bool) : Rat := if b then 1 else -1

/-- What the loops and the detector of a head path are set to for a sector. `only` names the reader in use in single-reader mode. -/
structure LoopCfg where
  g0 : Rat
  g1 : Rat
  g2 : Rat
  ampTgt : Rat
  delay0 : Nat
  delay1 : Nat
  m : Nat
  grpFrz : Nat
  only : Option Nat
  muBlr : Nat
  blrFrz : Bool
  kiAcq : Nat
  kpAcq : Nat
  ki : Nat
  kp : Nat
  trFrz : Bool
  muAgc : Nat
  agcFrz : Bool
  npEn : Bool
  npFrz : Bool
  muNp : Nat
  muNv : Nat
  tol : Nat
  deriving DecidableEq, Repr

/-- What the loops adapt: tap accumulators, baselines, timing, gains, the noise-predictor set in use (256 words). -/
structure LoopSt where
  acc : List Int
  b0 : Rat
  b1 : Rat
  freq : Rat
  phase : Rat
  gain0 : Int
  gain1 : Int
  np : List Rat
  deriving DecidableEq, Repr

/-- A of the target (R87). -/
def LoopCfg.amp (c : LoopCfg) : Rat := c.ampTgt / (|c.g0| + |c.g1| + |c.g2|)

/-- z of the target from three symbols (R87). -/
def targetOut (c : LoopCfg) (d0 d1 d2 : Rat) : Rat := c.amp * (c.g0 * d0 + c.g1 * d1 + c.g2 * d2)

/-- The samples under a reader's 24 taps for the bit eight behind the newest sample, delayed by DELAY; none before the sector count as 0 (R84, R86). -/
def window (xs : List Rat) (delay : Nat) : List Rat := (List.range 24).map fun i => xs.getD (i + delay) 0

/-- A reader's partial sum over its taps (R86, R121). -/
def partialSum (acc : List Int) (w : List Rat) : Rat := ((acc.zip w).map fun e => (e.1 : Rat) / 2 ^ 21 * e.2).sum

/-- The detector's y: both partial sums, or that of the reader in use (R121, R123). -/
def LoopCfg.y (c : LoopCfg) (b : EqBit) : Rat := match c.only with
  | some r => if r = 0 then b.y0 else b.y1
  | none => b.y0 + b.y1

/-- The 24-bit accumulator after an update by `dc` coefficient units (R88, R89). -/
def tapStep (a : Int) (dc : Rat) : Int := clampI (-8388608) 8388607 (a + rnd (dc * 2 ^ 21))

/-- Whether tap `i` adapts: its group is not frozen, nor its reader out of use (R88, R103, R104). -/
def tapLive (c : LoopCfg) (i : Nat) : Bool :=
  !nbit c.grpFrz (i / 4) && (match c.only with
    | some r => i / 24 == r
    | none => true)

/-- ΔGAIN from AMP_TGT / AMP (R91). -/
def agcStep (r : Rat) (mu : Nat) : Int := clampI (-8) 8 (rnd (2 ^ 4 / 2 ^ mu * 80 * log10R r))

/-- The format of word `k` of a pattern, its limits (Table 4.8), and a word of the set. -/
def npScale (k : Nat) : Rat := if k = 5 then 64 else if k = 0 ∨ k = 6 then 256 else 16384
def npLimits (k : Nat) : Rat × Rat := if k = 5 then (1 / 4, 65535 / 64) else ((-32768) / npScale k, 32767 / npScale k)
def npGet (np : List Rat) (b k : Nat) : Rat := np.getD (8 * b + k) 0
def npSet (np : List Rat) (b k : Nat) (x : Rat) : List Rat := np.set (8 * b + k) (clampR (npLimits k).1 (npLimits k).2 x)

/-- Symbol d[k − i] of pattern `b` (R121). -/
def patSym (b i : Nat) : Rat := dec (nbit b i)

/-- w[k − i] and u[k − i] along pattern `b`, `eq` newest first; 0 before the sector's first bit, for which the spec gives no value (R121; DESIGN
CHOICE, assumption log 6). -/
def patW (c : LoopCfg) (eq : List EqBit) (b i : Nat) : Rat := match eq[i]? with
  | some x => c.y x - targetOut c (patSym b i) (patSym b (i + 1)) (patSym b (i + 2))
  | none => 0
def patU (c : LoopCfg) (np : List Rat) (eq : List EqBit) (b i : Nat) : Rat := match eq[i]? with
  | some x => if c.only.isSome then 0 else x.y0 - x.y1 - npGet np (b / 2 ^ i % 8) 6
  | none => 0

/-- ε of R121 for pattern `b`; with `pred` false every P and Q counts as 0 (Table 4.6). -/
def patEps (c : LoopCfg) (pred : Bool) (np : List Rat) (eq : List EqBit) (b : Nat) : Rat :=
  let g := npGet np b
  patW c eq b 0 - g 0 -
    if pred then g 1 * patW c eq b 1 + g 2 * patW c eq b 2 + g 3 * patU c np eq b 0 + g 4 * patU c np eq b 1 else 0

/-- The branch metric M (R121): with NP_EN 0 every SIG2 is 16. -/
def branchMetric (c : LoopCfg) (np : List Rat) (eq : List EqBit) (b : Nat) : Rat :=
  let e := patEps c c.npEn np eq b
  let v := if c.npEn then npGet np b 5 else 16
  e * e / v + lnR v

/-- Metrics of the sixteen states: at the sector's first bit and behind the backward window all alike. State s holds d[k − 1] in bit 0, so the branch
of pattern b leaves state b / 2 and enters state b mod 16 (R121). -/
def flat : List Rat := List.replicate 16 0
def forwardStep (a m : List Rat) : List Rat := (List.range 16).map fun s => min (a.getD (s / 2) 0 + m.getD s 0) (a.getD (s / 2 + 8) 0 + m.getD (s + 16) 0)
def backwardStep (b m : List Rat) : List Rat := (List.range 16).map fun s =>
  min (b.getD (2 * s % 16) 0 + m.getD (2 * s) 0) (b.getD ((2 * s + 1) % 16) 0 + m.getD (2 * s + 1) 0)

/-- The least of a list of metrics. -/
def leastOf (l : List Rat) : Rat := l.foldl min (l.headD 0)

/-- Λ of the bit `i` behind the newest, over a backward window of 64 bits (R121). -/
def Run.lambda (r : Run) (i : Nat) : Rat :=
  let a := r.alpha.getD (i + 1) flat
  let m := r.bm.getD i []
  let b := ((r.bm.take i).drop (i - 64)).foldl backwardStep flat
  let best := fun d : Nat => leastOf ((List.range 16).map fun s => a.getD s 0 + m.getD (2 * s + d) 0 + b.getD ((2 * s + d) % 16) 0)
  (best 0 - best 1) / 2

/-- The update of the noise predictors by one detected bit of pattern `b` (R125). -/
def npStep (c : LoopCfg) (np : List Rat) (eq : List EqBit) (b : Nat) : List Rat :=
  let g := npGet np
  let e := patEps c true np eq b
  let p := e / 2 ^ c.muNp / 256
  let v := (eq.head?.map fun x => x.y0 - x.y1).getD 0
  let n := npSet np b 0 (g b 0 + (patW c eq b 0 - g b 0) / 2 ^ c.muNv)
  let n := npSet n (b % 8) 6 (g (b % 8) 6 + (v - g (b % 8) 6) / 2 ^ c.muNv)
  let n := npSet n b 1 (g b 1 + p * patW c eq b 1)
  let n := npSet n b 2 (g b 2 + p * patW c eq b 2)
  let n := if c.only.isSome then n else npSet (npSet n b 3 (g b 3 + p * patU c np eq b 0)) b 4 (g b 4 + p * patU c np eq b 1)
  npSet n b 5 (g b 5 + (e * e - g b 5) / 2 ^ c.muNv)

/-- The bits of a word, most significant first, and the sync marks (Table 4.2). -/
def wordBits (n w : Nat) : List Bool := (List.range n).map fun k => nbit w (n - 1 - k)
def sm1Bits : List Bool := wordBits 40 0x7CA35E1893
def sm2Bits : List Bool := wordBits 40 0x835CA1E76C

/-- A mark that ends at channel bit `e`, sought within ±16 bits of `nominal`: of several the one with fewest differing bits, the earliest of equal ones
(R119; assumption log 6). -/
def markSeek (tol nominal e : Nat) (mark d : List Bool) (old : Option Mark) : Option Mark :=
  let diff := ((mark.zip (d.take 40).reverse).filter fun x => x.1 != x.2).length
  if d.length < 40 ∨ nominal + 16 < e ∨ e + 16 < nominal ∨ tol < diff ∨ (old.any fun o => decide (o.diff ≤ diff)) then old
  else some { pos := (e : Int) - nominal, diff }

/-- Table 4.4: the codeword's start relative to its nominal position and whether it was set from SM1; `none` is a sync failure. -/
def syncDecision (m1 m2 : Option Mark) : Option (Int × Bool) :=
  match m1, m2 with
  | some a, some b => if b.pos = a.pos then some (b.pos, false) else if a.diff < b.diff then some (a.pos, true) else some (b.pos, false)
  | some a, none => some (a.pos, true)
  | none, some b => some (b.pos, false)
  | none, none => none
def Run.sync (r : Run) : Option (Int × Bool) := syncDecision r.m1 r.m2

/-- The channel bit at which the codeword starts (Table 4.2, R119). -/
def codeStart (pos : Int) : Nat := (400 + pos).toNat

/-- Codeword bits. -/
def codeLen : Nat := 36864

/-- One output of the detector, for the bit `i` behind the newest; the set in use follows a codeword bit (R121, R125). -/
def detectBit (c : LoopCfg) (x : LoopSt × Run) (i : Nat) : LoopSt × Run :=
  let l := x.2.lambda i
  let r := { x.2 with lam := l :: x.2.lam, dec := decide (0 < l) :: x.2.dec }
  let k := r.lam.length - 1
  let b := ((List.range 5).map fun j => if r.dec.getD j false then 2 ^ j else 0).sum
  let code := match r.sync with
    | some (pos, _) => decide (codeStart pos ≤ k ∧ k < codeStart pos + codeLen)
    | none => false
  (if code && !c.npFrz then { x.1 with np := npStep c x.1.np (r.eq.drop i) b } else x.1, r)

/-- The loops' updates by the bit `t` whose equaliser output lies twelve behind the newest (R85, R87 to R91). -/
def loopStep (c : LoopCfg) (st : LoopSt) (r : Run) (t : Nat) : LoopSt × Run :=
  match r.eq.drop 12 with
  | [] => (st, r)
  | b :: eq =>
    let d := fun i : Nat => (r.d[20 + i]?).elim (0 : Rat) dec
    let y := c.y b
    let yPrev := (eq.head?.map c.y).getD 0
    let z := targetOut c (d 0) (d 1) (d 2)
    let e := z - y
    let xs := b.w0 ++ b.w1
    let acc := (List.range 48).map fun i =>
      let a := st.acc.getD i 0
      if tapLive c i then tapStep a (e * xs.getD i 0 / 16384 / 2 ^ c.m) else a
    let blr := fun (b : Rat) (l : List Int) =>
      if c.blrFrz then b else clampR (-32) 32 (b - e * sgnR ((l.sum : Int) : Rat) / 2 ^ c.muBlr)
    let et := (y * d 1 - yPrev * d 0) / c.ampTgt
    let acq := r.m1.isNone && r.m2.isNone
    let f := if c.trFrz then st.freq else st.freq + et / 2 ^ (if acq then c.kiAcq else c.ki)
    let data := decide (320 ≤ t)
    let sy := if data then r.sumY + |y| else 0
    let sz := if data then r.sumZ + |z| else 0
    let full := data && (t - 320) % 256 == 255
    let dg := if full && !c.agcFrz && decide (sy > 0) then agcStep (sz / sy) c.muAgc else 0
    let gain := fun (r : Nat) (g : Int) => if full && !c.agcFrz && (c.only.all fun o => o == r) then clampI 0 120 (min g 120 + dg) else g
    ({ st with acc := acc, b0 := blr st.b0 (st.acc.take 24), b1 := blr st.b1 (st.acc.drop 24), freq := f
               phase := st.phase + et / 2 ^ (if acq then c.kpAcq else c.kp) + f, gain0 := gain 0 st.gain0, gain1 := gain 1 st.gain1 },
      { r with lost := r.lost || decide (|f| > 3 / 1000), sumY := if full then 0 else sy, sumZ := if full then 0 else sz })

/-- One channel bit arrives: its samples, corrected and aligned, complete the equaliser output of the bit eight before; the loops take the output twelve
before that, the detector answers for the bit 96 before it (R84, R86, R87, R90, R119, R122). -/
def stepBit (c : LoopCfg) (x : LoopSt × Run) (o : BitObs) : LoopSt × Run :=
  let st := x.1
  let r := x.2
  let d := o.d :: r.d
  let r : Run := { r with
    n := r.n + 1, d := d, x0 := ((o.x0.toInt : Rat) - st.b0) :: r.x0, x1 := ((o.x1.toInt : Rat) - st.b1) :: r.x1
    m1 := markSeek c.tol 359 r.n sm1Bits d r.m1, m2 := markSeek c.tol 399 r.n sm2Bits d r.m2 }
  if r.n ≤ 8 then (st, r)
  else
    let w0 := window r.x0 c.delay0
    let w1 := window r.x1 c.delay1
    let eq := { y0 := partialSum (st.acc.take 24) w0, y1 := partialSum (st.acc.drop 24) w1, w0, w1 } :: r.eq
    let m := (List.range 32).map (branchMetric c st.np eq)
    let y := loopStep c st { r with eq := eq, bm := m :: r.bm, alpha := forwardStep (r.alpha.headD flat) m :: r.alpha } (r.n - 21)
    if r.n ≤ 104 then y else detectBit c y 96

/-- A piece of a sector. -/
def runBits (c : LoopCfg) (st : LoopSt) (r : Run) (l : List BitObs) : LoopSt × Run := l.foldl (stepBit c) (st, r)

/-- The sector has ended: the detector answers for the bits it still holds, over what is left of its window. -/
def flushRun (c : LoopCfg) (x : LoopSt × Run) : LoopSt × Run :=
  ((List.range (x.2.eq.length - x.2.lam.length)).reverse).foldl (detectBit c) x

/-- The LLR of one codeword bit (R122), `scale` LLR_SCALE. -/
def llrOf (scale : Nat) (l : Rat) : Int := clampI (-31) 31 (rnd (16 * l / (max 1 scale : Nat)))

/-- The LLRs of a sector's codeword, bit 0 first (R119, R122). -/
def Run.llrs (r : Run) (scale : Nat) (start : Nat) : List Int :=
  let l := (r.lam.reverse.drop start).take codeLen
  (l ++ List.replicate (codeLen - l.length) 0).map (llrOf scale)

/-- A noise-predictor word from its bits, and back, rounded to the nearest, an exact half away from zero (Table 4.8; DESIGN CHOICE, assumption log 6). -/
def npValue (i w : Nat) : Rat := if i % 8 = 5 then (w : Rat) / 64 else (toSigned 16 w : Rat) / npScale (i % 8)
def npBits (i : Nat) (x : Rat) : Nat := if i % 8 = 5 then (rnd (x * 64)).toNat else ofSigned 16 (rnd (x * npScale (i % 8)))

/-- Words 5 reset to 16 LSB², the others to 0 (R126). -/
def npReset (i : Nat) : Nat := if i % 8 = 5 then 0x400 else 0

end Sys2Proof.Machine
end

