-- ==== Sys2Proof/Machine/Ldpc.lean ====
section
/-! DEFINITION. The LDPC code, its encoder and its decoder, and the recorded sector (R116 to R118, R128, R129, R144). -/
namespace Sys2Proof.Machine

/-- The codeword bits of check `r`: in row `r` mod 256 of each circulant of its block row (R128). -/
def checkVars (r : Nat) : List Nat := (List.range 576).filterMap fun i =>
  if ldpcRowOf i = r / 256 then some (256 * (i / 4) + (r % 256 + ldpcShiftOf i) % 256) else none

/-- Checks of H, and how many a word leaves unsatisfied; bit `i` of `w` is codeword bit `i`. -/
def checkCount : Nat := 4096
def unsatisfied (w : Nat) : Nat := (List.range checkCount).countP fun r => (checkVars r).foldl (fun p v => p ^^ nbit w v) false

/-- Information bits of a codeword (R128). -/
def infoLen : Nat := 32896

/-- One column of the elimination over GF(2): a row that has the column's bit becomes its pivot and is added to the others that have it. -/
def pivotStep (x : List Nat × List Nat) (col : Nat) : List Nat × List Nat :=
  match x.2.find? fun r => nbit r col with
  | none => x
  | some p =>
    let add := fun r : Nat => if nbit r col then r ^^^ p else r
    (x.1.map add ++ [p], (x.2.erase p).map add)

/-- The parity bits that the information bits determine (R128): the solution of H over their columns. Bit 3,968 of a row is its right side. -/
def parityOf (info : Nat) : Nat :=
  let rows := (List.range checkCount).map fun r =>
    let vs := checkVars r
    (vs.filter fun v => decide (infoLen ≤ v)).foldl (fun w v => w ^^^ 2 ^ (v - infoLen)) 0 +
      if (vs.filter fun v => decide (v < infoLen)).foldl (fun p v => p ^^ nbit info v) false then 2 ^ 3968 else 0
  let piv := ((List.range 3968).foldl pivotStep ([], rows)).1
  (List.range 3968).foldl (fun w c => match piv.find? fun r => r % 2 ^ 3968 == 2 ^ c with
    | some r => if nbit r 3968 then w + 2 ^ c else w
    | none => w) 0

/-- Bits to a number whose bit `i` is element `i`, and bytes to bits, most significant first (R117). -/
def bitsNat (l : List Bool) : Nat := l.foldr (fun b n => 2 * n + b2n b) 0
def bytesBits (l : List Byte) : List Bool := l.flatMap fun b => wordBits 8 b.toNat
def bitsBytes : Nat → List Bool → List Byte
  | 0, _ => []
  | n + 1, l => BitVec.ofNat 8 ((l.take 8).foldl (fun v b => 2 * v + b2n b) 0) :: bitsBytes n (l.drop 8)

/-- The prefix of R118 and the bytes it covers. -/
def sectorCrcBytes (g j : Nat) (bytes : List Byte) : List Byte :=
  leBytes 5 g ++ [BitVec.ofNat 8 j, 0, 0] ++ bytes.take 4108

/-- The sector CRC matches (R118). -/
def sectorCrcOk (g j : Nat) (bytes : List Byte) : Bool :=
  decide (bytes.length = 4112) && (crc32 (sectorCrcBytes g j bytes)).toNat == ofLeBytes (bytes.drop 4108)

/-- The 4,112 bytes of member `j` of row `g` as recorded: user bytes and internal bytes 0 to 11, and the CRC that WRC writes (R118, Table 4.3). -/
def sectorBytes (g j : Nat) (coded : List Byte) : List Byte :=
  let bs := coded.take 4108
  bs ++ leBytes 4 (crc32 (sectorCrcBytes g j bs)).toNat

/-- The codeword of a sector's bytes (R117, R128). -/
def codeword (bytes : List Byte) : List Bool :=
  let info := bytesBits bytes
  info ++ (List.range 3968).map (nbit (parityOf (bitsNat info)))

/-- A pattern of period 8 over `n` channel bits, 1111 0000 or its opposite. -/
def fourT (n : Nat) (first : Bool) : List Bool := (List.range n).map fun k => decide (k % 8 < 4) == first

/-- The 37,552 channel bits of a sector (Table 4.2). -/
def sectorChannelBits (bytes : List Byte) : List Bool :=
  fourT 320 true ++ sm1Bits ++ sm2Bits ++ codeword bytes ++ fourT 32 false ++ fourT 256 true

/-- The sign and the least magnitude of what a check's other messages say (R129). -/
def checkMessage (norm : Rat) (others : List Rat) : Rat :=
  norm * (others.map sgnR).prod * leastOf (others.map fun x => |x|)

/-- One check of a layer: its messages leave the bits' a-posteriori LLRs, are formed anew, and enter them (R129). -/
def checkStep (norm : Rat) (x : Array Rat × Array (List Rat)) (r : Nat) : Array Rat × Array (List Rat) :=
  let vs := checkVars r
  let old := x.2.getD r []
  let q := vs.zipIdx.map fun e => x.1.getD e.1 0 - old.getD e.2 0
  let new := (List.range q.length).map fun i => checkMessage norm (q.eraseIdx i)
  ((vs.zip (q.zip new)).foldl (fun l e => l.setIfInBounds e.1 (e.2.1 + e.2.2)) x.1, x.2.setIfInBounds r new)

/-- One iteration: sixteen layers of 256 checks, in the order of the block rows (R129). -/
def iteration (norm : Rat) (x : Array Rat × Array (List Rat)) : Array Rat × Array (List Rat) := (List.range checkCount).foldl (checkStep norm) x

/-- Hard decisions: a positive LLR is 1 (R122). -/
def hardBits (l : List Rat) : List Bool := l.map fun x => decide (0 < x)

/-- Layered normalised min-sum until every check is satisfied or `fuel` iterations are done (R129): a-posteriori LLRs, iterations, checks left. -/
def minSum (norm : Rat) : Nat → Nat → Array Rat × Array (List Rat) → Array Rat × Nat × Nat
  | 0, n, x => (x.1, n, unsatisfied (bitsNat (hardBits x.1.toList)))
  | fuel + 1, n, x =>
    let y := iteration norm x
    if unsatisfied (bitsNat (hardBits y.1.toList)) = 0 then (y.1, n + 1, 0) else minSum norm fuel (n + 1) y

/-- NORM in force, and ITER_MAX (Table 4.10). -/
def normOf (v : Nat) : Rat := (max 0x80 v : Nat) / 256
def iterMaxOf (v : Nat) : Nat := clampN 1 20 v

/-- REL of a byte (R144): the least magnitude of its eight a-posteriori LLRs in whole LSB, at most 15. -/
def relOf (l : List Rat) : Fin 16 := Fin.ofNat 16 (min 15 ⌊leastOf (l.map fun x => |x|)⌋.toNat)
def relsOf : Nat → List Rat → List (Fin 16)
  | 0, _ => []
  | n + 1, l => relOf (l.take 8) :: relsOf n (l.drop 8)

/-- A decode of LLRs (R129, R144, R147). -/
def ldpcDecode (iterMax norm : Nat) (llrs : List Int) : Decode :=
  let l0 : List Rat := llrs.map fun x => (x : Rat)
  let (l, it, un) := minSum (normOf norm) iterMax 0 (l0.toArray, (List.replicate checkCount []).toArray)
  let h := hardBits l.toList
  { iter := Fin.ofNat 256 it, unsat := Fin.ofNat 4097 un, bytes := bitsBytes 4112 h, flips := ((h.zip (hardBits l0)).filter fun e => e.1 != e.2).length
    rel := relsOf 4112 l.toList, llrs := llrs.map fun x => BitVec.ofInt 8 x }

/-- The saturating sum of sets of LLRs (L3, L6 of Table 4.11). -/
def llrSum (a b : List Int) : List Int := if a.isEmpty then b else List.zipWith (fun x y => clampI (-31) 31 (x + y)) a b

/-- What a sector's run left once the detector has answered for all its bits: sync, timing, its decode (R119, R122, R129). -/
def Run.out (r : Run) (scale iterMax norm : Nat) : ReadOut :=
  { sync := r.sync, timing := r.lost, d := r.sync.map fun x => ldpcDecode iterMax norm (r.llrs scale (codeStart x.1)) }

end Sys2Proof.Machine
end

