-- ==== Sys2Proof/Machine/RdcOps.lean ====
section
/-! DEFINITION. RDC's shared operations: pending writes and boundaries, live sets, single-reader mode, power states, ladders and
the hand-off to MPC, the preamp links' faults (chapters 3 and 4). -/
namespace Sys2Proof.Machine

/-- Power states of a head path (Table 3.18). -/
def pwOff : Nat := 0
def pwServo : Nat := 1
def pwReady : Nat := 2


/-- The head path a register of Tables 3.2 to 3.9, 4.6, 4.10 or 4.5 belongs to (R98, R127); RDC_HEAD_CFG belongs to its head's path. -/
def State.rdcPath (s : State) (r : RegName) (i : Nat) : Option Nat :=
  if [RegName.RDC_LANE_AFE, .RDC_LANE_SKEW].contains r then some (i / 2)
  else if [RegName.RDC_HP_RATE, .RDC_HP_TR, .RDC_HP_ADAPT, .RDC_HP_TARGET, .RDC_HP_LOOP, .RDC_HP_DET, .RDC_HP_DEC,
      .RDC_HP_SYNC].contains r then some i
  else if r = .RDC_HP_TAP then some (i / 48)
  else if r = .RDC_HEAD_CFG then s.pathOfHead i
  else none

/-- A tap's accumulator (R89). -/
def State.tapAcc (s : State) (p i : Nat) : Int :=
  toSigned 24 (s.get RDC_HP_TAP.COEF (48 * p + i) * 4096 + Sparse.get 0 s.rdc.tapLow (48 * p + i))
def setTapAcc (p i : Nat) (a : Int) : Prog :=
  let v := ofSigned 24 a
  .seq (setF RDC_HP_TAP.COEF (48 * p + i) (v / 4096))
    (.upd (.rdc fun x => { x with tapLow := Sparse.put 0 x.tapLow (48 * p + i) (v % 4096) }))

/-- Index of a noise-predictor word: head path, set, word. -/
def npIndex (p set w : Nat) : Nat := 2048 * p + 256 * set + w
def State.npWord (s : State) (i : Nat) : Nat := Sparse.get (npReset i) s.rdc.np i
def setNp (i v : Nat) : Prog := .upd (.rdc fun x => { x with np := Sparse.put (npReset i) x.np i v })

/-- Tap `i` of the array belongs to a lost reader: it stays 0 (R103). -/
def State.tapLost (s : State) (i : Nat) : Bool := s.on RDC_LANE_STAT.LOST (2 * (i / 48) + i % 48 / 24)

/-- The sample rate in force, in 1/65,536 GS/s (R80). -/
def State.sampleRate (s : State) (p : Nat) : Nat := clampN 0x10000 0x44CCD (s.get RDC_HP_RATE.RATE p)
def sampleClock (p : Nat) : Prog := .ask fun s => emit (.event "sample clock" [p, s.sampleRate p])

/-- A register's RW bits take their written value, and the front end and the sample clock follow (R80, R83, R84); a tap's low bits clear (R89). -/
def rdcApply (key v : Nat) : Prog := .ask fun s =>
  let r := RegName.ofNat (key % 512)
  let i := key / 512
  when (!(r == .RDC_HP_TAP && s.tapLost i)) (all [
    .upd (.reg r i (rwMerge r (s.reg r i) v)),
    when (r == .RDC_HP_TAP) (.upd (.rdc fun x => { x with tapLow := Sparse.put 0 x.tapLow i 0 })),
    when (r == .RDC_LANE_AFE || r == .RDC_LANE_SKEW) (frontEnd i), when (r == .RDC_HP_RATE) (sampleClock i)])

/-- A write is held pending while the head path is ACTIVE, the last to each register kept (R98); else it applies at once, and again behind the load of
the next pass, which it overrides (R99). -/
def rdcWrite (p : Nat) (r : RegName) (i v : Nat) : Prog := .ask fun s =>
  if s.hpPwr p = pwActive then .upd (.rdc fun x => { x with pend := writePut p (regKey r i) v x.pend })
  else .seq (rdcApply (regKey r i) v)
    (.upd (.rdc fun x => { x with pend := writeDrop p (regKey r i) x.pend, early := writePut p (regKey r i) v x.early }))

/-- The writes that follow a pass start's load: those made before the pass, then the pending ones (R99). -/
def writesAfterLoad (p : Nat) (loaded : Bool) : Prog := .ask fun s => all [
  when loaded (each (s.rdc.early.filter fun e => e.1 == p) fun e => rdcApply e.2.1 e.2.2),
  each (s.rdc.pend.filter fun e => e.1 == p) fun e => rdcApply e.2.1 e.2.2,
  .upd (.rdc fun x => { x with pend := x.pend.filter (fun e => e.1 != p), early := x.early.filter fun e => e.1 != p })]

/-- The write clocks of path `p`'s writers take their rate from its RATE (R152). -/
def writerClock (p : Nat) : Prog := .ask fun s => each (s.writersOfPath p) fun w => .seq (setWriter w fun x => { x with rate := s.sampleRate p })
  (emit (.event "write clock" [w, s.sampleRate p]))

/-- A boundary of R98: pending writes apply, behind a load that is not complete (R99), single-reader mode begins or ends on the reader that SR_SEL then names (R103, R104, R127). -/
def rdcBoundary (p : Nat) : Prog := .ask fun s => all [
  when (!s.rdc.loading.contains p) (.seq (each (s.rdc.pend.filter fun e => e.1 == p) fun e => rdcApply e.2.1 e.2.2)
    (.upd (.rdc fun x => { x with pend := x.pend.filter fun e => e.1 != p }))),
  each (s.rdc.npPend.filter fun e => e.1 / 2048 == p) fun e => setNp e.1 e.2,
  each (s.rdc.losing.filter fun n => n / 2 == p) fun n => .seq (setF RDC_LANE_STAT.LOST n 1)
    (each (List.range 24) fun i => setTapAcc p (24 * (n % 2) + i) 0),
  .upd (.rdc fun x => { x with npPend := x.npPend.filter fun e => e.1 / 2048 != p
                               losing := x.losing.filter fun n => n / 2 != p, srSel := Sparse.put 0 x.srSel p (s.get RDC_HP_CTL.SR_SEL p) }),
  .ask fun t => setF RDC_HP_STAT.SR_ACT p
    (b2n (t.on RDC_LANE_STAT.LOST (2 * p) || t.on RDC_LANE_STAT.LOST (2 * p + 1) || t.on RDC_HP_CTL.SR_FORCE p))]

/-- The lane that samples head path `p`'s servo fields (R81, R189). -/
def State.servoLane (s : State) (p : Nat) : Nat := if s.on RDC_LANE_STAT.LOST (2 * p) then 2 * p + 1 else 2 * p

/-- The reader in use in single-reader mode: the one not lost, else the one SR_SEL named at the boundary (R103, R104). -/
def State.singleReader (s : State) (p : Nat) : Option Nat :=
  if !s.on RDC_HP_STAT.SR_ACT p then none
  else if s.on RDC_LANE_STAT.LOST (2 * p) then some 1
  else if s.on RDC_LANE_STAT.LOST (2 * p + 1) then some 0
  else some (Sparse.get 0 s.rdc.srSel p)

/-- The path's target, loop and tap words as the live registers hold them (R87, R91). -/
def State.liveTaps (s : State) (p : Nat) : List Int := (List.range 48).map (s.tapAcc p)

/-- The ladder in slot `k` of path `p`. -/
def State.ladder (s : State) (p k : Nat) : Option Ladder := (s.rdc.ladders.find? fun e => e.1 == 4 * p + k).map (·.2)

/-- The level at the ladder's position; 15 past the last (R136). -/
def Ladder.level (l : Ladder) : Nat := if l.pos ≥ 8 then 15 else nbits l.order (4 * l.pos + 3) (4 * l.pos)

/-- The ladder whose re-read path `p` is making. -/
def State.rereadOf (s : State) (p : Nat) : Option Ladder := match s.rdc.reread.find? fun e => e.1 == p with
  | some (_, k) => s.ladder p k
  | none => none

/-- The coefficient-table entry of (head, zone) (R94), and whether it may be loaded (R96). RDC_ZTAB_BASE has no field table: that it holds bits [39:12] of
the address, read and written, is the model's (DESIGN CHOICE, assumption log 1). -/
def State.ztabAddr (s : State) (h z : Nat) : Nat := s.get RDC_ZTAB_BASE.ADDR 0 * 4096 + (128 * h + z) * 128
def State.ztabOk (s : State) (a : Nat) : Bool := s.dramOk a 128 && !s.poisoned a 128 && s.crcOk a 31 && nbit (s.memW (a + 120)) 31

/-- The entry that an L2 re-read reloads, if it can be loaded (R133). -/
def State.l2Entry (s : State) (p : Nat) : Option Nat := match s.rereadOf p with
  | some l => let a := s.ztabAddr (s.tgt p).head (s.tgt p).zone
    if l.level = 2 ∧ s.ztabOk a then some a else none
  | none => none

/-- Words 27 and 28 of the entry, or the registers: TARGET and LOOP in force (Table 3.12). -/
def State.targetWord (s : State) (p : Nat) : Nat := match s.l2Entry p with
  | some a => s.memW (a + 108)
  | none => (s.reg .RDC_HP_TARGET p).toNat
def State.loopWord (s : State) (p : Nat) : Nat := match s.l2Entry p with
  | some a => s.memW (a + 112)
  | none => (s.reg .RDC_HP_LOOP p).toNat

/-- The reader an L5 re-read uses, else that of single-reader mode (Table 4.11). -/
def State.readerInUse (s : State) (p : Nat) : Option Nat := match s.rereadOf p with
  | some l => if l.level = 5 ∧ !s.on RDC_HP_STAT.SR_ACT p then some l.sub else s.singleReader p
  | none => s.singleReader p

/-- The loops' settings for a sector; all adaptation is frozen for a re-read (R133). -/
def State.loopCfg (s : State) (p : Nat) : LoopCfg :=
  let frozen := (s.rereadOf p).isSome
  let g := fun hi lo => (toSigned 8 (nbits (s.targetWord p) hi lo) : Rat) / 32
  { g0 := g 7 0, g1 := g 15 8, g2 := g 23 16, ampTgt := clampN 16 120 (nbits (s.loopWord p) 7 0)
    delay0 := s.get RDC_LANE_SKEW.DELAY (2 * p), delay1 := s.get RDC_LANE_SKEW.DELAY (2 * p + 1), m := 8 + min 12 (s.get RDC_HP_ADAPT.MU_EQ p)
    grpFrz := if frozen then 0xFFF else s.get RDC_HP_ADAPT.GRP_FRZ p, only := s.readerInUse p
    muBlr := max 4 (s.get RDC_HP_ADAPT.MU_BLR p), blrFrz := frozen || s.on RDC_HP_ADAPT.BLR_FRZ p
    kiAcq := max 1 (s.get RDC_HP_TR.KI_ACQ p), kpAcq := max 1 (s.get RDC_HP_TR.KP_ACQ p)
    ki := max 1 (s.get RDC_HP_TR.KI_TRK p), kp := max 1 (s.get RDC_HP_TR.KP_TRK p), trFrz := frozen || s.on RDC_HP_ADAPT.TR_FRZ p
    muAgc := clampN 4 12 (s.get RDC_HP_ADAPT.MU_AGC p), agcFrz := frozen || s.on RDC_HP_ADAPT.AGC_FRZ p
    npEn := s.on RDC_HP_DET.NP_EN p, npFrz := frozen || s.on RDC_HP_ADAPT.NP_FRZ p
    muNp := max 6 (s.get RDC_HP_DET.MU_NP p), muNv := max 6 (s.get RDC_HP_DET.MU_NV p), tol := min 7 (s.get RDC_HP_SYNC.TOL p) }

/-- What the loops start a piece of a sector from: the live registers, or for an L2 re-read the entry's taps and the zone's predictor set (R124, R133). -/
def State.loopStart (s : State) (p : Nat) : LoopSt :=
  let set := if (s.l2Entry p).isSome then min 7 ((s.tgt p).zone / 2 ^ s.get RDC_HP_DET.NP_ZSH p) else s.get RDC_HP_DET.NP_SET p
  { acc := match s.l2Entry p with
      | some a => (List.range 48).map fun i =>
          if s.tapLost (48 * p + i) then 0 else toSigned 12 (nbits (s.memW (a + 4 * (i / 2))) (16 * (i % 2) + 11) (16 * (i % 2))) * 4096
      | none => s.liveTaps p
    b0 := Sparse.get 0 s.rdc.base (2 * p), b1 := Sparse.get 0 s.rdc.base (2 * p + 1)
    freq := Sparse.get 0 s.rdc.freq p, phase := Sparse.get 0 s.rdc.phase p
    gain0 := (s.get RDC_LANE_AFE.GAIN (2 * p) : Nat), gain1 := (s.get RDC_LANE_AFE.GAIN (2 * p + 1) : Nat)
    np := (List.range 256).map fun w => npValue w (s.npWord (npIndex p set w)) }

/-- What the loops adapted goes to their registers (R85 to R91, R125); a re-read leaves the live settings as they are (R133). -/
def loopsShow (p : Nat) (st : LoopSt) : Prog := .ask fun s => when (s.rereadOf p).isNone (all [
  each (List.range 48) fun i => setTapAcc p i (st.acc.getD i 0),
  setF RDC_LANE_AFE.GAIN (2 * p) st.gain0.toNat, setF RDC_LANE_AFE.GAIN (2 * p + 1) st.gain1.toNat,
  setI RDC_HP_STAT.BLR0 p (rnd (4 * st.b0)), setI RDC_HP_STAT.BLR1 p (rnd (4 * st.b1)),
  setI RDC_HP_TR.FOFS p (clampI (-32768) 32767 (rnd (10000000 * st.freq))),
  each (List.range 256) fun w => setNp (npIndex p (s.get RDC_HP_DET.NP_SET p) w) (npBits w (st.np.getD w 0)),
  .upd (.rdc fun x => { x with base := Sparse.put 0 (Sparse.put 0 x.base (2 * p) st.b0) (2 * p + 1) st.b1
                               freq := Sparse.put 0 x.freq p st.freq, phase := Sparse.put 0 x.phase p st.phase })])

/-- ADC samples at −128 or +127 are counted per 1,024 (Table 3.13); a lane in use samples. -/
def clipCount (n : Nat) (xs : List (BitVec 8)) : Prog := .ask fun s =>
  let c := Sparse.get 0 s.rdc.clip n + xs.countP fun x => x.toInt == -128 || x.toInt == 127
  when (!s.on RDC_LANE_STAT.LOST n) (.seq (setF RDC_LANE_STAT.CLIP_CNT n (satAdd (s.get RDC_LANE_STAT.CLIP_CNT n) (c / 1024) 255))
    (.upd (.rdc fun x => { x with clip := Sparse.put 0 x.clip n (c % 1024) })))

/-- The sector that path `p` is reading. -/
def State.run (s : State) (p : Nat) : Run := Sparse.get {} s.rdc.run p
def setRun (p : Nat) (r : Run) : Prog := .upd (.rdc fun x => { x with run := Sparse.put {} x.run p r })

/-- A piece of a sector: the bits before a servo gate, or before its end. Positions and the loops go on behind the gate as they stopped (R81, R120). -/
def readPiece (p : Nat) (bits : List BitObs) : Prog := .ask fun s => when (!bits.isEmpty) (
  let x := runBits (s.loopCfg p) (s.loopStart p) (s.run p) bits
  all [loopsShow p x.1, setRun p x.2, clipCount (2 * p) (bits.map (·.x0)), clipCount (2 * p + 1) (bits.map (·.x1))])

/-- The end of a sector's read and what it left; `iter` bounds its decode (R119 to R131). -/
def readOut (p iter : Nat) (o : SectorObs) (k : ReadOut → Prog) : Prog := match o with
  | .result r => k r
  | .samples bits => .seq (readPiece p bits) (.ask fun s =>
      let x := flushRun (s.loopCfg p) (s.loopStart p, s.run p)
      .seq (loopsShow p x.1) (k (x.2.out (s.get RDC_HP_DET.LLR_SCALE p) iter (s.get RDC_HP_DEC.NORM p))))

/-- A sector's read is over. -/
def readOver (p : Nat) : Prog := .upd (.rdc fun x => { x with
  erased := x.erased.filter fun e => e != (p, fcRetake)
  run := Sparse.put {} x.run p {}, sector := x.sector.filter (· != p), reread := x.reread.filter fun e => e.1 != p })

/-- A reader-loss report for lanes of path `p`: the flags, the head's state, and single-reader mode from the next boundary
(R45, R101 to R103). -/
def readerLoss (p : Nat) (lanes : List Nat) : Prog := .ask fun s =>
  match s.headOf p with
  | none => .skip
  | some h =>
    if !s.pathUsable p then .skip else all [
      each lanes fun n => setF (if n % 2 = 0 then SVE_HEAD_STATE.RDR0_BAD else SVE_HEAD_STATE.RDR1_BAD) h 1,
      .upd (.rdc fun x => { x with losing := lanes ++ x.losing.filter fun n => !lanes.contains n }),
      .ask fun t =>
        if t.on SVE_HEAD_STATE.RDR0_BAD h && t.on SVE_HEAD_STATE.RDR1_BAD h then headTo h hFailed
        else if t.headState h == hInSlot then headTo h hDegraded else deviceCopy .SVE_HEAD_STATE h]

/-- Live counters of a head (R147): 0 SECT, 1 SYNC, 2 FAIL, 3 FLIP, 4 HOFF, 5 UNREC, 8 + l REC[l]. -/
def hstKey (h k : Nat) : Nat := 16 * h + k
def hstMax (k : Nat) : Nat := if k = 0 ∨ k = 3 then 2 ^ 64 - 1 else 2 ^ 32 - 1
def hstAdd (h k n : Nat) : Prog := .ask fun s => when (s.headState h != hRetired)
  (.upd (.rdc fun x => { x with hst := Sparse.put 0 x.hst (hstKey h k) (satAdd (Sparse.get 0 x.hst (hstKey h k)) n (hstMax k)) }))

/-- A decode succeeded: syndrome zero and CRC matching (R129). -/
def decodeGood (d : Decode) (g j : Nat) : Bool := d.unsat.val == 0 && sectorCrcOk g j d.bytes

/-- Member statuses (Table 4.16). -/
def msGood : Nat := 0
def msRecovered : Nat := 1
def msSoft : Nat := 2
def msErased : Nat := 3

/-- A member goes to MPC on the sector stream: the descriptor of Table 4.16, with the time of its read, and its payload (R143). -/
def sendMember (time g j p h level status cause unsat iter : Nat) (payload : List Nat) : Prog := send "SECTOR" "MEMBER" ([g % 2 ^ 32,
    (level % 8) <<< 27 ||| (status % 8) <<< 24 ||| (h % 32) <<< 16 ||| (p % 16) <<< 12 ||| (j % 16) <<< 8 ||| g / 2 ^ 32 % 256,
    (cause % 16) <<< 20 ||| (unsat % 4096) <<< 8 ||| iter % 256, time] ++ payload)

/-- Two reliabilities per byte, the even byte's in the low nibble (R143). -/
def packRel : List (Fin 16) → List Nat
  | a :: b :: l => (a.val + 16 * b.val) :: packRel l
  | [a] => [a.val]
  | [] => []

/-- A member ends unrecovered: CQE takes it from here (R141, R336). -/
def unrecovered (g j : Nat) : Prog := .upd (.rdc fun x => { x with unrec := x.unrec ++ [(g, j)] })

def setLadder (p k : Nat) (f : Ladder → Ladder) : Prog :=
  .upd (.rdc fun x => { x with ladders := x.ladders.map fun e => if e.1 == 4 * p + k then (e.1, f e.2) else e })
def showHeld (p : Nat) : Prog := .ask fun s =>
  setF RDC_RETRY_STAT.HELD p (s.rdc.ladders.filter fun e => e.1 / 4 == p).length
/-- A ladder ends and its slot is free. -/
def ladderFree (p k : Nat) : Prog := .seq (.upd (.rdc fun x => { x with
    ladders := x.ladders.filter (fun e => e.1 != 4 * p + k), l1q := x.l1q.filter (· != 4 * p + k), reread := x.reread.filter fun e => e != (p, k) })) (showHeld p)

/-- Re-reads of a level (Table 4.11). -/
def Ladder.reads (l : Ladder) : Nat :=
  match l.level with
  | 3 => 2
  | 5 => 2
  | 6 => clampN 2 8 l.l6n
  | 7 => 4
  | _ => 1

/-- The ladder ends unrecovered (R141). -/
def ladderUnrec (p k : Nat) (l : Ladder) : Prog := all [
  setF RDC_RETRY_STAT.UNREC p 1, hstAdd l.head 5 1,
  almEvent bRDC kFault "sector unrecovered" [l.row, l.j, l.head, nbits l.order (4 * (l.pos - 1) + 3) (4 * (l.pos - 1))],
  unrecovered l.row l.j, ladderFree p k]

/-- The ladder ends because MPC has rebuilt the member meanwhile (R145). -/
def ladderRebuilt (p k : Nat) (l : Ladder) : Prog := .seq (hstAdd l.head 12 1) (ladderFree p k)

/-- The microactuator code of an L3 offset: OFS_STEP % of the track pitch, by which the re-read moves the head (R133). -/
def State.l3Offset (s : State) (p : Nat) (l : Ladder) : Int :=
  let c := roundDiv (clampN 1 30 l.ofs * (s.tgt p).tp * 32768 : Nat) 500000
  if l.sub = 0 then c else -c

/-- The re-read of L3 is made unless it would carry the microactuator past its stroke (R133). -/
def State.l3Made (s : State) (p : Nat) (l : Ladder) : Bool :=
  let u := Sparse.get 0 s.sve.uAck p + s.l3Offset p l
  decide (-29491 ≤ u ∧ u ≤ 29491)

/-- Hand a member off to MPC: SOFT with its best attempt, or ERASED (R143, R144). -/
def handOff (p : Nat) (l : Ladder) (erased : Bool) (cause : Nat) : Prog := .seq (hstAdd l.head 4 1)
  (match (if erased then none else l.best) with
    | some (u, it) => sendMember l.bestTime l.row l.j p l.head 4 msSoft cause u it l.pay
    | none => sendMember l.time l.row l.j p l.head 4 msErased cause 0 0 [])

/-- A FAILED head's ladder, or one that HW_EN 0 stops, at a level boundary: its member goes to MPC, or it ends unrecovered (R140, R142). A stopped ladder
whose member MPC holds waits for MPC; one that has handed off leaves its slot. -/
def ladderStop (p k : Nat) (l : Ladder) (failed : Bool) : Prog :=
  if l.p0 || l.passed4 then ladderUnrec p k l
  else if failed then .seq (handOff p l true fcHead) (setLadder p k fun l => { l with handed := true, passed4 := true })
  else .seq (handOff p l false l.cause) (ladderFree p k)

/-- Move a ladder on from its position: levels that do not apply are skipped, L1 starts beside the next level, L4 hands off, a re-read level waits for
its re-reads (R132, R133, R135, R140 to R142, R145). Eight positions at most. -/
def ladderGo : Nat → Nat → Nat → Prog
  | 0, _, _ => .skip
  | n + 1, p, k => .ask fun s =>
    match s.ladder p k with
    | none => .skip
    | some l =>
      let next := .seq (setLadder p k fun l => { l with pos := l.pos + 1, sub := 0, sum := [] }) (ladderGo n p k)
      let lv := l.level
      if lv = 15 then (if l.l1 then .skip else if l.rebuilt then ladderRebuilt p k l else ladderUnrec p k l)
      else if s.headState l.head = hFailed then ladderStop p k l true
      else if !s.on RDC_RETRY_CFG.HW_EN 0 then ladderStop p k l false
      else if lv = 1 then .seq (when l.captured (.seq (setLadder p k fun l => { l with l1 := true }) (.upd (.rdc fun x => { x with l1q := x.l1q ++ [4 * p + k] })))) next
      else if lv = 4 then
        .seq (handOff p l false l.cause) (setLadder p k fun l => { l with handed := true, passed4 := true })
      else if lv = 5 ∧ (s.on RDC_HP_STAT.SR_ACT p ∨ s.headState l.head = hDegraded) then next
      else .skip

/-- A ladder of path `p`'s slot moves on. -/
def ladderNext (p k : Nat) : Prog := .seq (setLadder p k fun l => { l with pos := l.pos + 1, sub := 0, sum := [] }) (ladderGo 9 p k)

/-- The ladders of an actuator's paths that wait for a re-read: members that the issuer takes first, as needed for a command in flight (R70, R134). -/
def Ladder.waits (l : Ladder) : Bool := !l.handed && ([0, 2, 3, 5, 6, 7] : List Nat).contains l.level
def State.rereadWants (s : State) (a : Nat) : List Want := (s.rdc.ladders.filter fun e => e.1 / 16 == a && e.2.waits).map fun e =>
  { slot := Fin.ofNat 4 (e.1 / 4), track := Fin.ofNat 16777216 (s.rowTrack e.2.row), writer := none }

/-- Path `p` is in a pass on the track of a row (R134). -/
def State.onRow (s : State) (p g : Nat) : Bool :=
  s.sve.active.contains p && (s.tgt p).band == s.rowTrack g / 256 && (s.tgt p).target == ((s.place (p / 4) (s.rowTrack g)).2 : Int)

/-- A level recovers the sector: counted, and the member sent as RECOVERED (R143, R147). -/
def ladderRecover (p k : Nat) (l : Ladder) (time level : Nat) (d : Decode) : Prog := all [
  hstAdd l.head (8 + level) 1, hstAdd l.head 3 d.flips,
  sendMember time l.row l.j p l.head level msRecovered l.cause d.unsat d.iter (d.bytes.map (·.toNat)), ladderFree p k]

/-- The ladder of a member, by row and member number. -/
def State.ladderOf (s : State) (g j : Nat) : Option (Nat × Ladder) := s.rdc.ladders.find? fun e => e.2.row == g && e.2.j == j

/-- MPC's report on a member handed off from a ladder (R145). A member reconstructed at a later level ends its ladder at the next boundary. -/
def ladderReport (g j : Nat) (ok : Bool) : Prog := .ask fun s =>
  match s.ladderOf g j with
  | none => .skip
  | some (e, l) =>
    if l.handed then
      if ok then ladderRebuilt (e / 4) (e % 4) l
      else .seq (setLadder (e / 4) (e % 4) fun l => { l with handed := false }) (ladderNext (e / 4) (e % 4))
    else when ok (setLadder (e / 4) (e % 4) fun l => { l with rebuilt := true })

/-- MPC's report on a member handed off without a ladder: reconstructed under R140 it counts in REC[4] of its path's head, unrecovered it ends as under R141;
of one that was not read (`kind` 3) no count is made (R147, R288). -/
def freeReport (g j kind : Nat) (ok : Bool) : Prog := .ask fun s =>
  let p := memberPath g j
  let h := (s.headOf p).getD 0
  if ok then when (kind == 1) (hstAdd h 12 1)
  else all [setF RDC_RETRY_STAT.UNREC p 1, when (kind == 1) (hstAdd h 5 1), almEvent bRDC kFault "sector unrecovered" [g, j, h, 4], unrecovered g j]

/-- MPC begins to reconstruct a row: an L1 success is discarded from then on (R146). -/
def ladderBegun (g : Nat) : Prog := .upd (.rdc fun x =>
  { x with ladders := x.ladders.map fun e => if e.2.row == g && e.2.handed then (e.1, { e.2 with begun := true }) else e })

/-- Where capture slot `k` of path `p` lies (R138). -/
def State.capAddr (s : State) (p k : Nat) : Nat := s.get RDC_CAP_BASE.ADDR 0 * 65536 + (4 * p + k) * 0xA000

/-- The capture: header and LLRs (R138). -/
def captureWrite (p k g j h : Nat) (d : Decode) : Prog := .ask fun s =>
  .seq (fabricWords .rdc (s.capAddr p k) ([BitVec.ofNat 32 g,
      BitVec.ofNat 32 ((h % 32) <<< 16 ||| (p % 16) <<< 12 ||| (j % 16) <<< 8 ||| g / 2 ^ 32 % 256),
      BitVec.ofNat 32 ((d.unsat.val % 4096) <<< 8 ||| d.iter.val), BitVec.ofNat 32 s.timeLo] ++ List.replicate 12 0))
    (fabricStore .rdc (s.capAddr p k + 64) d.llrs)

/-- A failed sector that is to be read again as an ordinary read (R109, R138). -/
def readAgain (g j : Nat) : Prog := emit (.event "read again" [g, j])

/-- The lowest capture slot of path `p` that no ladder holds (R138, R140). Which free slot a capture takes is not specified (DESIGN CHOICE, assumption
log 28). -/
def State.captureSlot (s : State) (p : Nat) : Option Nat := (List.range 4).find? fun k => (s.ladder p k).isNone

/-- The reconstruction context of a row. -/
def State.ctxOf (s : State) (g : Nat) : Option (Nat × RCtx) := s.mpc.ctxs.find? fun e => e.2.row == g

/-- Ladders that have not yet handed off (R290). -/
def State.laddersOpen (s : State) : Nat := s.rdc.ladders.countP fun e => !e.2.passed4

/-- A hand-off may open a context (R290): `kind` 0 from a ladder, 1 and 3 without one, 2 a rebuild request. -/
def State.ctxRoom (s : State) (kind : Nat) : Bool :=
  let rdc := s.mpc.ctxs.countP fun e => !e.2.rebuild
  if kind = 2 then decide (s.mpc.ctxs.length - rdc < 16)
  else if kind = 0 then decide (rdc < 64)
  else decide (rdc + s.laddersOpen < 64)

/-- A failed sector while HW_EN is 0: no ladder (R140); where MPC can open no context for it, it is read again (R290). -/
def failedNoLadder (time g j p h : Nat) (p0 : Bool) (cause : Nat) (best : Option (Nat × Nat)) (pay : List Nat) : Prog := .ask fun s =>
  if p0 then .seq (hstAdd h 5 1) (unrecovered g j)
  else if (s.ctxOf g).isNone ∧ !s.ctxRoom 1 then .seq (incF RDC_RETRY_STAT.CAP_MISS p) (readAgain g j)
  else .seq (hstAdd h 4 1) (match best with
    | some (u, it) => sendMember time g j p h 4 msSoft cause u it pay
    | none => sendMember time g j p h 4 msErased cause 0 0 [])

/-- A failed sector of an ordinary read: captured, and put on a ladder, handed off, returned unrecovered or read again
(R132 to R140). `d` is what its decode left; `none` after a sync failure. The bound of four slots is the ladders'. -/
def sectorFailed (p g j h track : Nat) (cause : Nat) (d : Option Decode) : Prog := .ask fun s =>
  let p0 := s.rowP0 g
  let hw := s.on RDC_RETRY_CFG.HW_EN 0
  let best := match d with
    | some d => if cause = fcCrc then none else some (d.unsat.val, d.iter.val)
    | none => none
  let pay := match d with
    | some d => d.bytes.map (·.toNat) ++ packRel d.rel
    | none => []
  match s.captureSlot p with
  | none => if hw then .seq (incF RDC_RETRY_STAT.CAP_MISS p) (readAgain g j) else failedNoLadder s.timeLo g j p h p0 cause best pay
  | some k =>
    let wanted := s.on RDC_CAP_BASE.EN 0 && d.isSome
    match (if wanted then s.storeFault .rdc (s.capAddr p k) 0xA000 else none) with
    | some src => all [accessReport .rdc atWrite (s.capAddr p k) 64 src, incF RDC_RETRY_STAT.CAP_MISS p, readAgain g j]
    | none =>
      let l : Ladder := { slot := k, row := g, j, head := h, track, p0, order := s.get RDC_RETRY_ORDER.ORDER (b2n (!p0))
                          l1Iter := max 1 (s.get RDC_RETRY_CFG.L1_ITER 0), ofs := s.get RDC_RETRY_CFG.OFS_STEP 0
                          l6n := s.get RDC_RETRY_CFG.L6_N 0, captured := wanted, time := s.timeLo, bestTime := s.timeLo, cause, best, pay }
      .seq (match d with
          | some d => when wanted (captureWrite p k g j h d)
          | none => .skip)
        (if hw then
          all [.upd (.rdc fun x => { x with ladders := x.ladders ++ [(4 * p + k, l)] }), showHeld p, ladderGo 9 p k]
         else failedNoLadder s.timeLo g j p h p0 cause best pay)

/-- A member known to be unusable (R139): in a P0 row it ends unrecovered, else it goes to MPC as ERASED. Nothing of it was read, so that no counter of R147
is charged. -/
def memberGone (g j p h cause : Nat) : Prog := .ask fun s =>
  if s.rowP0 g then unrecovered g j else sendMember s.timeLo g j p h 4 msErased cause 0 0 []

/-- A head path is selected in a pass. -/
def State.inPass (s : State) (p : Nat) : Bool := s.sve.pass.any fun e => e.2.paths.contains p

/-- An arm that is loaded, or loading, with no active path demodulates on path `p` (R184). -/
def State.tracksAlone (s : State) (p : Nat) : Bool :=
  (s.loaded (p / 4) || s.get SVE_SEEK_STAT.STATE (p / 4) == skLoading) && !((pathsOf (p / 4)).any fun q => s.sve.active.contains q) &&
    s.lowestUsable (p / 4) == some p

/-- The sectors that paths are reading are erased by a link error (R109, R110). -/
def erasePaths (ps : List Nat) : Prog := each ps fun p => whenS (fun s => s.rdc.sector.contains p) (eraseReads p fcRetake)

/-- A preamp link error burst (R109, R160): the interval's sectors on the active paths are erased, PAL_ERR sets, the gates close. -/
def palBurst (a : Nat) : Prog := .ask fun s =>
  let ps := (pathsOf a).filter fun p => s.sve.active.contains p
  all [erasePaths ps, each ps fun p => setF RDC_HP_STAT.PAL_ERR p 1, raise (232 + a) (detail a), setPreamp a true,
    .upd (.rdc fun x => { x with cmds := x.cmds.filter fun c => c.act != a || c.resends < 3 })]

/-- Reader selection: while the link runs at P1 only one RD_SEL of the actuator has ON = 1 (R111). -/
def readersOff (p : Nat) : Prog := .ask fun s => when (s.rdc.rdOn.contains p) (.seq (match s.headOf p with
    | some h => rdSel p (h % 6) false
    | none => .skip) (.upd (.rdc fun x => { x with rdOn := x.rdOn.filter (· != p) })))
def readersOn (p h : Nat) : Prog := .ask fun s => all [
  when (s.get RDC_PAL_STAT.VER (p / 4) == 1) (each ((pathsOf (p / 4)).filter fun q => q != p) readersOff),
  rdSel p (h % 6) true, .upd (.rdc fun x => { x with rdOn := p :: x.rdOn.filter (· != p) })]

/-- A head path's power state, with its domain's supply (R112). Leaving ACTIVE clears the clearance estimate's VALID (R93); leaving
READY or SERVO for OFF deselects the readers (R107). -/
def setPwr (p st : Nat) : Prog := .ask fun s => all [
  when (st == pwOff && (if s.svc.full then s.svc.fInst else s.svc.svyInst) == 0x33 + p) sliceDrop,
  when (st == pwOff) (readersOff p),
  when (s.hpPwr p == pwActive) (setF RDC_HP_CLR.VALID p 0),
  setF RDC_HP_STAT.PWR p st, setBitF PTM_DOM_PWR.ON 0 p (st != pwOff)]

/-- A head path enters READY: the sample clock runs at RATE, the front ends are set, its readers are biased and selected (R80, R83, R107, R112). -/
def enterReady (p : Nat) : Prog := .ask fun s => all [setPwr p pwReady, sampleClock p, frontEnd (2 * p), frontEnd (2 * p + 1), match s.headOf p with
  | some h => all [
      rdBias (p / 4) (h % 6) 0 (s.get RDC_HEAD_CFG.RBIAS0 h), rdBias (p / 4) (h % 6) 1 (s.get RDC_HEAD_CFG.RBIAS1 h),
      rdPgain (p / 4) (h % 6) (s.get RDC_HEAD_CFG.PGAIN h), readersOn p h]
  | none => .skip]

/-- The live set of a path takes an entry's fields (R95, Table 3.12); a lost lane's taps stay 0 (R103). -/
def ztabApply (p a : Nat) : Prog := .ask fun s =>
  let w := fun k => s.memW (a + 4 * k)
  all [each (List.range 48) fun i => when (!s.tapLost (48 * p + i)) (setTapAcc p i (toSigned 12 (nbits (w (i / 2)) (16 * (i % 2) + 11) (16 * (i % 2))) * 4096)),
    each [0, 1] fun r => all [
      setR .RDC_LANE_AFE (2 * p + r) (fieldBits .RDC_LANE_AFE (nbits (w (24 + r)) 30 8 <<< 8 ||| s.get RDC_LANE_AFE.OFS_TRIM (2 * p + r))),
      setR .RDC_LANE_SKEW (2 * p + r) (fieldBits .RDC_LANE_SKEW (if r = 0 then nbits (w 29) 13 0 else nbits (w 29) 29 16)), frontEnd (2 * p + r)],
    setF RDC_HP_RATE.RATE p (nbits (w 26) 18 0), sampleClock p, setR .RDC_HP_TARGET p (nbits (w 27) 23 0),
    setR .RDC_HP_LOOP p (fieldBits .RDC_HP_LOOP (nbits (w 28) 23 0))]

/-- Write a path's live set back (R97): bytes 0 to 63, then bytes 64 to 127, each one line transaction. -/
def ztabWriteback (p : Nat) : Prog := .ask fun s =>
  match s.rdc.tag.find? fun e => e.1 == p with
  | none => .skip
  | some (_, h, z) =>
    let a := s.ztabAddr h z
    let lost := fun r => s.on RDC_LANE_STAT.LOST (2 * p + r)
    let frozen := s.get RDC_HP_ADAPT.GRP_FRZ p == 0xFFF && getBits (s.reg .RDC_HP_ADAPT p) 4 0 == 31
    let word := fun k =>
      if k < 24 then
        if lost (k / 12) then s.memW (a + 4 * k)
        else s.get RDC_HP_TAP.COEF (48 * p + 2 * k) ||| s.get RDC_HP_TAP.COEF (48 * p + 2 * k + 1) <<< 16
      else if k < 26 then
        if lost (k - 24) then s.memW (a + 4 * k) else getBits (s.reg .RDC_LANE_AFE (2 * p + (k - 24))) 30 8 <<< 8
      else s.memW (a + 4 * k)
    let ws := (List.range 31).map fun k => BitVec.ofNat 32 (word k)
    when (s.on RDC_HP_CTL.ZT_WB_EN p && !frozen && s.rdc.readAny.contains p)
      (.seq (fabricWords .rdc a (ws.take 16)) (fabricWords .rdc (a + 64) (ws.drop 16 ++ [crcWords ws])))

/-- The ACTIVE rule of R113 holds. -/
def State.manyPaths (s : State) : Bool := s.mode == mActive || s.mode == mRecovery && s.on PTM_MODE_STAT.MEDIA_EN 0

/-- Head paths in READY or ACTIVE. -/
def State.readyPaths (s : State) : List Nat := (List.range 16).filter fun q => decide (pwReady ≤ s.hpPwr q)

end Sys2Proof.Machine
end

