-- ==== Sys2Proof/Machine/WrcOps.lean ====
section
/-! DEFINITION. WRC's further operations: parameter sets, heater and assist, verify outcomes, pending writes (chapter 5). -/
namespace Sys2Proof.Machine

/-- A clearance reaches WRC for head `h`: the heater follows (R161). -/
def clearanceTo (h : Nat) (c : Int) : Prog := .ask fun s => all [
  .upd (.wrc fun x => { x with clearance := (x.clearance.filter fun e => e.1 != h) ++ [(h, c, s.time)] }),
  .ask fun s => when (s.get WRC_HEAD_CFG.CTGT h != 0 && s.get RDC_HEAD_CFG.CREF h != 0) (
    let n := heaterNext (Sparse.get 0 s.wrc.heater h) (s.get WRC_CFG.KH 0) (s.get WRC_HEAD_CFG.HTR_MAX h) (s.clearErr h)
    .seq (.upd (.wrc fun x => { x with heater := Sparse.put 0 x.heater h n }))
      (.ask fun t => htrSet (h / 6) (h % 6) (if t.headWriting h then t.heaterWrite h else n)))]

/-- An assist fault of writer `w` (R163); `kill` for a monitor above the set-point by a quarter. -/
def assistFault (w : Nat) (kill : Bool) : Prog := .ask fun s => all [
  when kill (all [setF WRC_WR_STAT.DRV w 0, setF WRC_WR_STAT.AST_ON w 0, astOn (w / 2) (s.wArm w) false]),
  setF WRC_WR_STAT.AST_FLT w 1, setWriter w fun x => { x with assist := true, monHigh := 0, monLow := 0 },
  raise (240 + w) (detail w), closeGate w cAssist false, wusShow]

/-- The power-loss source of a writer whose postamble ends during a power-loss sequence (R165). -/
def powerLossAfter (w : Nat) : Prog := whenS (fun s => s.ptm.plStep == 2) (.seq (setPowerLoss w) journalMode)

/-- A write to such a register (R155). -/
def wrcWrite (r : RegName) (i v : Nat) : Prog := .ask fun s =>
  match s.wrcUsers r i with
  | [] => .seq (.upd (.reg r i (BitVec.ofNat 64 v))) (.upd (.wrc fun x => { x with pend := x.pend.filter fun e => e.2.1 != regKey r i }))
  | _ => .upd (.wrc fun x => { x with pend := (x.pend.filter fun e => e.2.1 != regKey r i) ++ [(0, regKey r i, v)] })

/-- The start of a write sector's preamble on writer `w` applies what is pending for it (R155). -/
def wrcBoundary (w : Nat) : Prog := .ask fun s =>
  let mine := s.wrc.pend.filter fun e => (s.wrcUsers (RegName.ofNat (e.2.1 % 512)) (e.2.1 / 512)).contains w
  .seq (each mine fun e => .ask fun t =>
      let r := RegName.ofNat (e.2.1 % 512)
      let i := e.2.1 / 512
      if r = .WRC_WR_CTL then
        all [setF WRC_WR_CTL.WT_LOAD_EN i (nbits e.2.2 31 31), setF WRC_WR_CTL.WT_WB_EN i (nbits e.2.2 30 30)]
      else if r = .WRC_HEAD_CFG then setR r i (nbits e.2.2 29 0 + t.get WRC_HEAD_CFG.ATYPE i * 2 ^ 30)
      else setR r i e.2.2)
    (.upd (.wrc fun x => { x with pend := x.pend.filter fun e => !mine.contains e }))

/-- A member has been verified, or its rewrite has settled its entry (R171). -/
def neighbourDone (g j : Nat) : Prog := .upd (.wrc fun z => { z with
  rows := z.rows.map fun r => if r.row = g then { r with neighbour := r.neighbour.filter (· != j) } else r })

/-- A verify outcome (R172): MARGINAL and FAIL give a rewrite entry with cause VERIFY; one whose tag is older than the newest tag issued
for the member is discarded; a PASS settles the sector's NEIGHBOUR entry and ends its row's wait for it (R171). -/
def verifyOutcome (x : SecInfo) (d : Option Decode) (good : Bool) : Prog := .ask fun s =>
  let newest := Sparse.get x.tag s.wrc.tags (16 * x.row + x.j)
  if newer (2 ^ 24) (newest / 256) (x.tag / 256) then .skip
  else
    let lim := clampN 1 20 (s.get WRC_VFY_CFG.VFY_ITER 0)
    let pass := good && (match d with
      | some d => decide (d.iter.val ≤ lim)
      | none => false)
    if pass then all [emit (.event "verify pass" [x.row, x.j]), neighbourDone x.row x.j,
      .upd (.wrc fun z => { z with due := z.due.filter fun e => e != (x.row, x.j) })]
    else all [emit (.event (if good then "verify marginal" else "verify fail") [x.row, x.j]), rewriteEntry x cVerify false, wusShow]

/-- The TRIM in use for (head, zone): a writer's live set, the one kept since its last write-back, else the entry's (R173). -/
def State.trimOf (s : State) (h z : Nat) : Int :=
  match allWriters.find? fun w => (s.writer w).liveSet == some (h, z) with
  | some w => s.wTrim w
  | none => match s.wrc.trim.find? fun e => e.1 == 128 * h + z with
    | some e => e.2
    | none => if s.crcOk (s.wtabAddr h z) 15 then toSigned 12 (nbits (s.memW (s.wtabAddr h z + 24)) 11 0) else 0

/-- TRIM of a writer's live set. -/
def setTrim (w : Nat) (t : Int) : Prog := setWriter w fun x => { x with params := x.params.set 6 (BitVec.ofNat 32 (ofSigned 12 t)) }

/-- FLIP and bit counts of verified sectors adjust the trim of (head, zone) (R173). -/
def verifyTrim (h z flips : Nat) : Prog := .ask fun s =>
  let old := (s.wrc.verify.find? fun e => e.1 == 128 * h + z).map (·.2)
  let n := (old.map (·.1)).getD 0 + 1
  let f := (old.map (·.2.1)).getD 0 + flips
  let rest := s.wrc.verify.filter fun e => e.1 != 128 * h + z
  if n < max 16 (s.get WRC_TRIM_CFG.VWIN 0) then .upd (.wrc fun x => { x with verify := rest ++ [(128 * h + z, n, f, 0)] })
  else
    let eHi := s.get WRC_TRIM_CFG.E_HI 0
    let eLo := if s.get WRC_TRIM_CFG.E_LO 0 ≤ eHi then eHi + 1 else s.get WRC_TRIM_CFG.E_LO 0
    let bits := n * 36864
    let st : Int := 2 * s.get WRC_TRIM_CFG.TSTEP 0
    let lim : Int := s.get WRC_VFY_CFG.TRIM_MAX 0
    let d : Int := if f * 2 ^ eHi > bits then st else if f * 2 ^ eLo < bits then -st else 0
    let new := clampI (-lim) lim (s.trimOf h z + d)
    .seq (.upd (.wrc fun x => { x with verify := rest }))
      (when (s.get WRC_HEAD_CFG.ATYPE h != 0 && d != 0) (.seq
        (.upd (.wrc fun x => { x with trim := (x.trim.filter fun e => e.1 != 128 * h + z) ++ [(128 * h + z, new)] }))
        (each (allWriters.filter fun w => (s.writer w).liveSet == some (h, z)) fun w => setTrim w new)))

/-- VMODE of R172 in force, and the members that a written row must have verified: rewritten ones from EVENT on, all of one row in 2^SAMPLE_N from SAMPLE on,
all in FULL. -/
def State.verifyMode (s : State) : Nat := s.get WRC_VFY_CFG.MODE 0
def verifyDue (g : Nat) (done : List Nat) : Prog := .ask fun s =>
  let all := s.verifyMode == 3 || s.verifyMode == 2 && (s.wrc.sampled + 1) % 2 ^ s.get WRC_VFY_CFG.SAMPLE_N 0 == 0
  let js := done.filter fun j => all || s.verifyMode != 0 && s.wrc.again.contains (g, j)
  .seq (.upd (.wrc fun z => { z with
      sampled := z.sampled + 1, again := z.again.filter fun e => !(e.1 == g && done.contains e.2)
      due := (z.due.filter fun e => !(e.1 == g && done.contains e.2)) ++ js.map fun j => (g, j) }))
    (when (!js.isEmpty) (emit (.event "verify wanted" (g :: js))))

end Sys2Proof.Machine
end

