-- ==== Sys2Proof/Machine/SveOps.lean ====
section
/-! DEFINITION. Transit's further operations: triggers, one wedge of a head path and of an actuator, seeks, runout, notches, drift
(chapters 6 and 7). -/
namespace Sys2Proof.Machine

/-- Runout learning and notch estimation are allowed for actuator `a` (R212, R214): LRN_EN, its state, shock, forewarning and guard. -/
def State.learnOk (s : State) (a : Nat) : Bool :=
  s.on SVE_RRO_CTL.LRN_EN 0 && s.get SVE_SEEK_STAT.STATE a == skTracking && !s.wrc.shock && !s.wrc.forewarn && !s.on SVE_SHK_STAT.GUARD 0

/-- Head path `p` demodulates wedges: an active path, a slot of a seek in MOVE, or the lowest usable slot of an actuator with loaded or
loading heads and no active path (R184, R204, R209). -/
def State.demodulates (s : State) (p : Nat) : Bool :=
  let a := p / 4
  let st := s.seekSub a
  s.hpPwr p != pwOff && !s.sve.retract.contains a &&
    (s.sve.active.contains p || st == skMove && nbit (s.seek a).slots (p % 4) ||
      (s.loaded a || st == skLoading) && st != skMove && !((pathsOf a).any fun q => s.sve.active.contains q) && s.lowestUsable a == some p)

/-- The paths of an actuator that demodulate. -/
def State.demodPaths (s : State) (a : Nat) : List Nat := (pathsOf a).filter fun p => s.demodulates p

/-- Pairs of class `c` in use: number, harmonics (Table 7.10, Table 7.11). -/
def State.rroPairs (s : State) : Nat := min 8 (s.get SVE_RRO_CTL.NH 0)
def State.rroMax (s : State) (c : Nat) : Int := 16 * ((if c = 0 then s.get SVE_RRO_CTL.MAX_0 0 else s.get SVE_RRO_CTL.MAX_1 0 : Nat) : Int)

/-- The runout feedforward of class `c` from the live set `i` at wedge `n` (R211). -/
def State.rroFf (s : State) (c i n : Nat) : Int :=
  let r := Sparse.get {} s.sve.rro i
  let use := (List.range s.rroPairs).filter fun k => s.get SVE_RRO_HARM.HARM (8 * c + k) != 0
  let h := use.map fun k => s.get SVE_RRO_HARM.HARM (8 * c + k)
  clampI (-(s.rroMax c)) (s.rroMax c) (sat16 (rroSum (use.map fun k => r.c.getD k 0) (use.map fun k => r.s.getD k 0) h n))

/-- Learning at an AUTO execution with input `e` (R212). -/
def rroLearn (c i a n : Nat) (e : Int) : Prog := .ask fun s =>
  let r := Sparse.get {} s.sve.rro i
  let m := s.rroMax c
  let step := fun (old : List Int) (f : Int → Nat → Nat → Nat → Nat → Int) => (List.range 8).map fun k =>
    let hm := s.get SVE_RRO_HARM.HARM (8 * c + k)
    if k < s.rroPairs ∧ hm ≠ 0 then
      clampI (-m) m (old.getD k 0 + f e hm n (s.get SVE_RRO_HARM.PHASE (8 * c + k)) (s.get SVE_RRO_HARM.MU (8 * c + k)))
    else old.getD k 0
  when (s.learnOk a) (.upd (.sve fun x =>
    { x with rro := Sparse.put {} x.rro i { r with c := step r.c rroStepC, s := step r.s rroStepS, learned := true } }))

/-- The bank a position context uses: FW_BANK under a forewarning with FWB_EN (R220), else its own. -/
def State.ctxBankNo (s : State) (k : Nat) : Nat :=
  if 16 ≤ k ∧ k < 20 ∧ s.wrc.forewarn ∧ s.on SVE_SHK_CFG.FWB_EN 0 then s.get SVE_SHK_CFG.FW_BANK 0 else s.get SVE_CTX_CFG.BANK k
def State.ctxBank (s : State) (k : Nat) : Bank := bankOf fun i => s.bankWord (s.get SVE_CTX_CFG.CLU k) (s.ctxBankNo k) i

/-- The wedge number that context `k` runs at: its path's, or that of the actuator's first demodulating path with a PES (R211, R212). -/
def State.ctxWedge (s : State) (k : Nat) : Nat :=
  let ps := s.demodPaths (k % 4)
  s.get SVE_WEDGE_STAT.WEDGE (if k < 16 then k else (ps.find? fun p => s.on SVE_WEDGE_STAT.VALID p).getD (ps.headD (4 * (k % 4))))

/-- The feedforward of a context (R183, R205, R211, R186). -/
def State.ctxFf (s : State) (k : Nat) : Int :=
  if k < 16 then 16 * (s.tgt k).bias + s.rroFf 0 k (s.ctxWedge k)
  else if k < 20 then
    let a := k - 16
    let st := s.seekSub a
    (if st = skTrackIn then roundDiv ((s.get SVE_TRAJ_GAIN.ACC_GAIN a : Int) * (s.seek a).aRef) (1000 * 65536) else 0) +
      (if st = skTrackIn ∨ st = skTracking then s.rroFf 1 k (s.ctxWedge k) else 0)
  else 0

/-- A commit of shadow bank `b` of unit `u` (R181, Table 6.3): refused with inverted limits; the sections of enabled trackers of position
contexts that use the bank keep their tracked values (R215). -/
def cluApply (u b : Nat) : Prog := .ask fun s =>
  let w := fun i => s.get SVE_COEF.W ((u * 4 + b) * 128 + i)
  let kept := (List.range 16).filter fun i => s.on SVE_NOTCH_CTL.EN i && s.get SVE_CTX_CFG.CLU (16 + i / 4) == u && s.ctxBankNo (16 + i / 4) == b
  let secs := kept.map fun i => s.get SVE_NOTCH_CTL.SEC i
  .seq (setBitF SVE_CLU_CTL.COMMIT u b false)
    (if (bankOf w).inverted then setF SVE_CLU_CTL.BANK_ERR u 1
     else .upd (.sve fun x => { x with bank := (List.range 128).foldl (fun l i =>
       if i < 80 ∧ secs.contains (i / 5) then l else Sparse.put 0 l ((u * 4 + b) * 128 + i) (w i)) x.bank }))

/-- Context `k` may execute now: a microactuator context while its path is active and its link up (R187, R195), a current context while the Causeway is up
(R186). -/
def State.ctxMay (s : State) (k : Nat) : Bool :=
  if k < 16 then s.sve.active.contains k && s.palUp (k / 4) else decide (k < 20) || s.get PTM_CW_STAT.LINK 0 == 2

/-- The context unit `u` serves next of those that wait: current, then position, then microactuator contexts, in order of arrival (R177). -/
def State.ctxNext (s : State) (u : Nat) : Option Nat :=
  let w := s.sve.waiting.filter fun k => s.get SVE_CTX_CFG.CLU k == u
  (w.find? fun k => decide (20 ≤ k)).or ((w.find? fun k => decide (16 ≤ k)).or w.head?)

/-- The execution of context `k` with its waiting input, on what stands at its start. -/
def State.ctxBegun (s : State) (k : Nat) : CtxRun :=
  let c := s.ctx k
  { s.ctxRun sveFile k (s.ctxBank k) (c.trig.getD 0) (s.ctxFf k) (if k < 16 then some (-29491, 29491) else none) c with
    wedge := s.ctxWedge k }

/-- Unit `u`, if it executes nothing, takes the next waiting context, commits first (R177, R181). Contexts that may no longer execute are dropped. -/
def ctxStart (u : Nat) : Prog := whenS (fun s => (s.sve.running.find? (·.1 == u)).isNone) (.ask fun s =>
  let out := s.sve.waiting.filter fun k => s.get SVE_CTX_CFG.CLU k == u && !(s.on SVE_CTX_CFG.ENABLE k && s.ctxMay k)
  .seq (each out ctxStop) (.ask fun s => match s.ctxNext u with
    | none => .skip
    | some k => .seq (each ((List.range 4).filter fun b => s.bitF SVE_CLU_CTL.COMMIT u b) (cluApply u)) (.ask fun s => .upd (.sve fun x => { x with
        ctx := Sparse.put {} x.ctx k { Sparse.get {} x.ctx k with trig := none }, waiting := x.waiting.filter (· != k)
        running := x.running ++ [(u, s.ctxBegun k)] }))))

/-- A trigger of context `k` with input `e` (R175, R177, R178): one that still waits is replaced, counted and raised as a loop overrun. -/
def trigger (k : Nat) (e : Int) : Prog := .ask fun s =>
  when (s.on SVE_CTX_CFG.ENABLE k && s.ctxMay k) (all [
    when (s.ctx k).trig.isSome (all [setF SVE_CTX_STAT.OVR k 1, incF SVE_CLU_STAT.OVR (s.get SVE_CTX_CFG.CLU k), raise 225 (detail k)]),
    setCtx k fun c => { c with trig := some e },
    .upd (.sve fun x => { x with waiting := x.waiting.filter (· != k) ++ [k] }),
    ctxStart (s.get SVE_CTX_CFG.CLU k)])

/-- The MA_CMD of a wedge; two in a row for an arm without an ACK count as a burst (R194). -/
def maSend (p : Nat) (u : Int) : Prog := .ask fun s =>
  if 2 ≤ Sparse.get 0 s.sve.maUnack p then .seq (.upd (.sve fun x => { x with maUnack := Sparse.put 0 x.maUnack p 0 })) (palBurst (p / 4)) else maSent p u

/-- An execution has ended: its output goes on, to the microactuator's preamp, as the current loop's set-point, or to the power die (R183 to R187, R212). -/
def ctxDone (x : CtxRun) : Prog :=
  .seq (ctxEnd sveFile x (setCtx x.k)) (
    if x.k < 16 then .seq (when x.auto (rroLearn 0 x.k (x.k / 4) x.wedge x.e)) (maSend x.k x.res.out)
    else if x.k < 20 then .seq (when x.auto (rroLearn 1 x.k (x.k - 16) x.wedge x.e))
      (.upd (.sve fun y => { y with setPtNew := (y.setPtNew.filter fun z => z.1 != x.k - 16) ++ [(x.k - 16, x.res.out)] }))
    else cwSend "VCM_CMD" 0x21 0 ((x.k - 20) :: beNats 2 (ofSigned 16 x.res.out)))

/-- A path's target physical track in 1/65,536 track: it moves with the reference (R190, R205). -/
def State.physTarget (s : State) (p : Nat) : Int :=
  (s.seek (p / 4)).yRef - (s.seek (p / 4)).yT + ((s.tgt p).target + (s.tgt p).trkOfs) * 65536

/-- φ of R190: the position modulo two tracks from the burst amplitudes. For amplitudes both 0, which AMP_MIN = 0 lets through, the spec gives no r; the
model takes 0 (DESIGN CHOICE, assumption log 3). -/
def burstPhase (a b : Int) : Rat :=
  let r : Rat := (a : Rat) / ((a.natAbs + b.natAbs : Nat) : Rat)
  let f := if b ≥ 0 then r / 2 else 1 - r / 2
  f - 2 * ⌊f / 2⌋

/-- The position P of R190: 2m + φ nearest the Gray track number, the lower on a tie, less the RRO term. -/
def wedgePosition (o : WedgeObs) (rro : Bool) : Rat :=
  let f := burstPhase o.a o.b
  let m : Int := -⌊(1 / 2 : Rat) - ((o.gray.val : Rat) - f) / 2⌋
  2 * m + f - if rro then (o.rro.toInt : Rat) / 4096 else 0

/-- e_p of R190: the track pitch is in 0.5 nm, the error in 1/1024 nm. -/
def wedgePes (pos : Rat) (phys : Int) (tp : Nat) : Int := rnd ((pos - (phys : Rat) / 65536) * (tp : Rat) * 512)

/-- The wedge's SAM, number, track and bursts are as R191 wants them; in MOVE the window is SEEK_WIN and no burst counts (R204). -/
def State.wedgeOk (s : State) (p : Nat) (o : WedgeObs) : Bool :=
  let move := s.seekSub (p / 4) == skMove
  let win := if move then 2 ^ s.get SVE_TRAJ_GAIN.SEEK_WIN (p / 4) else max 1 (s.get SVE_SV_CFG.TRK_WIN 0)
  let want := Sparse.get 0 s.sve.wedgePred p
  let g : Int := o.gray.val * 65536
  decide (o.sam.natAbs ≤ max 1 (s.get SVE_SV_CFG.SAM_WIN 0)) && decide (o.wedge.val < 420) && (want == 0 || want == o.wedge.val + 1) &&
    decide ((g - s.physTarget p).natAbs ≤ win * 65536) &&
    (move || decide (s.get SVE_SV_CFG.AMP_MIN 0 ≤ o.a.natAbs + o.b.natAbs))

/-- The prediction for the next wedge: one on, where there is a prediction (R191). -/
def predictNext (p : Nat) (got : Option Nat) : Prog := .upd (.sve fun x =>
  let w := match got with
    | some w => (w + 1) % 420 + 1
    | none => if Sparse.get 0 x.wedgePred p = 0 then 0 else Sparse.get 0 x.wedgePred p % 420 + 1
  { x with wedgePred := Sparse.put 0 x.wedgePred p w })

/-- The settle count of path `p` after a wedge: one more, or restarted (R207). -/
def settleCount (p : Nat) (ok : Bool) : Prog := .ask fun s =>
  let a := p / 4
  let k := s.seek a
  let n := if k.wr then max 1 (s.get SVE_SETTLE_CFG.WR_N 0) + (if s.on SVE_SHK_STAT.GUARD 0 then s.get SVE_VG_CFG.VG_ADD 0 else 0)
    else max 1 (s.get SVE_SETTLE_CFG.RD_N 0)
  let c := if ok then k.counts.getD (p % 4) 0 + 1 else 0
  when (s.seekSub a == skSettle && nbit k.slots (p % 4) && !s.bitF SVE_SEEK_STAT.SETTLED a (p % 4))
    (.seq (setSeek a fun k => { k with counts := k.counts.set (p % 4) c }) (when (decide (n ≤ c)) (setBitF SVE_SEEK_STAT.SETTLED a (p % 4) true)))

/-- The PES meets the settle criterion (R207). -/
def State.settleOk (s : State) (p : Nat) (e : Int) : Bool :=
  let pitch := (s.tgt p).tp * 512
  if (s.seek (p / 4)).wr then
    decide (e.natAbs * 200 ≤ min (2 * clampN 1 30 (s.get SVE_SETTLE_CFG.WR_WIN 0)) (clampN 4 30 (s.get WRC_CFG.OT_PCT 0)) * pitch) &&
      !s.wrc.shock && !s.wrc.forewarn
  else decide (e.natAbs * 100 ≤ clampN 1 50 (s.get SVE_SETTLE_CFG.RD_WIN 0) * pitch)

/-- The off-track source of an active path after a PES (Table 5.10). -/
def judgeOfftrack (p : Nat) (e : Int) : Prog := .ask fun s =>
  let ot := clampN 4 30 (s.get WRC_CFG.OT_PCT 0)
  let pitch := (s.tgt p).tp * 512
  when (s.sve.active.contains p)
    (if ot * pitch < e.natAbs * 100 then setOfftrack p true else when (decide (e.natAbs * 200 ≤ ot * pitch)) (setOfftrack p false))

/-- A drift event of path `p` (R60, R61, Table 2.8): at most one of each kind in a visit. -/
def driftEvent (p kind : Nat) (cond : Bool) : Prog := .ask fun s =>
  let d := Sparse.get {} s.sve.drift p
  let h := (s.tgt p).head
  when (cond && !d.logged.contains kind) (all [
    .upd (.sve fun x => { x with drift := Sparse.put {} x.drift p { d with logged := kind :: d.logged } }),
    if s.sve.log.length ≥ 64 then setF SVE_DRIFT_STAT.OVF 0 1
    else .seq (.upd (.sve fun x => { x with log := x.log ++ [(kind, h, d.band, rnd d.bf, (s.tgt p).bias)] })) (incF SVE_DRIFT_STAT.COUNT 0),
    when (kind != 0) (almEvent bSVE kFault "drift" [kind, h, d.band, ofSigned 32 (rnd d.bf)]),
    when (kind == 2) (.upd (.sve fun x => { x with unreach := if x.unreach.contains (p / 4, d.band) then x.unreach else (p / 4, d.band) :: x.unreach }))])

/-- Drift observation over a wedge, and at wedge 0 over the revolution that ended (R59, R60). UNREACH is judged once every usable path of the
actuator has a B_f of two revolutions in this band: what counts for a head without one the spec does not say (DESIGN CHOICE, assumption log 17). -/
def driftWedge (p : Nat) (zero : Bool) : Prog := .ask fun s =>
  let t := s.tgt p
  let d0 := Sparse.get {} s.sve.drift p
  let d := if d0.band = t.band ∧ d0.n + d0.revs > 0 then d0 else { band := t.band }
  let put := fun d : Drift => Prog.upd (.sve fun x => { x with drift := Sparse.put {} x.drift p d })
  let u := Sparse.get 0 s.sve.uAck p
  let tv : Rat := ((s.seek (p / 4)).yRef : Rat) / 65536
  let th : Rat := ((t.band * 256 : Nat) : Rat) + ((t.target % 256 : Int) : Rat)
  if !(s.sve.active.contains p && s.get SVE_SEEK_STAT.STATE (p / 4) == skTracking) then .skip
  else if zero ∧ d.n > 0 then
    let b : Rat := (d.sum : Rat) / d.n / 16 - (th - tv) * ((t.tp : Rat) / 2) * 2048 / 2500
    let bf : Rat := if d.revs = 0 then (t.bias : Rat) else d.bf + (b - d.bf) / 2 ^ max 1 (s.get SVE_DRIFT_CFG.K 0)
    .seq (put { d with bf := bf, revs := d.revs + 1, sum := u, n := 1 }) (.ask fun s =>
      let chg : Rat := clampN 5 100 (s.get SVE_DRIFT_CFG.CHG_PCT 0)
      let warn : Rat := clampN 50 100 (s.get SVE_DRIFT_CFG.WARN_PCT 0)
      let us := (pathsOf (p / 4)).filter fun q => s.pathUsable q
      let bs := us.map fun q => Sparse.get {} s.sve.drift q
      when (decide (1 ≤ d.revs)) (all [
        driftEvent p 0 (decide (chg * 2048 ≤ |bf - t.bias| * 100)), driftEvent p 1 (decide (warn * 2048 ≤ |bf| * 100)),
        driftEvent p 2 ((bs.all fun x => x.band == t.band && decide (2 ≤ x.revs)) &&
          (bs.any fun x => bs.any fun y => decide ((x.bf - y.bf) * 10 > 36864)))]))
  else put { d with sum := d.sum + u, n := d.n + 1 }

/-- A wedge without a PES on path `p` (R191, R192). -/
def wedgeMiss (p : Nat) : Prog := .ask fun s => all [
  setF SVE_WEDGE_STAT.VALID p 0, incF SVE_WEDGE_STAT.MISS_CNT p, incF SVE_WEDGE_STAT.MISS_TOT p, predictNext p none,
  when (s.sve.active.contains p) (setOfftrack p true), settleCount p false,
  .upd (.sve fun x => { x with wedgeDone := p :: x.wedgeDone })]

/-- The bracketed term of R184 in 1/8 of e_V's unit: u_p as it stands at the wedge's servo gate, 0 while the link is down (R183, R195); only for a path whose
context is in AUTO. -/
def State.maTerm (s : State) (p : Nat) : Int :=
  if s.on SVE_CTX_CFG.MODE p then 625 * ((if s.palUp (p / 4) then Sparse.get 0 s.sve.uAck p else 0) - 16 * (s.tgt p).bias) else 0

/-- A wedge with what R191 wants: in MOVE its track number, else its PES (R190, R204). -/
def wedgeGood (p : Nat) (o : WedgeObs) : Prog := .ask fun s =>
  let e := wedgePes (wedgePosition o (s.on SVE_SV_CFG.RRO_EN 0)) (s.physTarget p) (s.tgt p).tp
  let move := s.seekSub (p / 4) == skMove
  let y : Int := (o.gray.val - (s.tgt p).target - (s.tgt p).trkOfs) * 65536 + (s.seek (p / 4)).yT
  all [setF SVE_WEDGE_STAT.MISS_CNT p 0, setF SVE_WEDGE_STAT.WEDGE p o.wedge.val, predictNext p (some o.wedge.val),
    if move then .seq (setF SVE_WEDGE_STAT.VALID p 0)
      (.upd (.sve fun x => { x with wedgeTrk := x.wedgeTrk ++ [(p, y)], wedgeDone := p :: x.wedgeDone }))
    else all [
      setF SVE_WEDGE_STAT.VALID p 1, setI SVE_PES.PES p e, judgeOfftrack p e, settleCount p (s.settleOk p e),
      .upd (.sve fun x => { x with wedgeGot := x.wedgeGot ++ [(p, e, s.maTerm p)], wedgeDone := p :: x.wedgeDone }),
      trigger p e, driftWedge p (o.wedge.val == 0)]]

/-- A load has found servo: loops to AUTO, y_ref and y_T at the measured position, TRACKING (R53, R209 step 2, Table 6.18). -/
def loadDone (a p gray : Nat) : Prog := .ask fun s =>
  let us := (pathsOf a).filter fun q => s.pathUsable q
  .seq (mapCheck a (s.targetBands a gray)) (.ask fun s =>
  let t : Nat := ((gray : Int) - (s.safeTarget p ((s.headOf p).getD 0) gray).trkOfs).toNat
  all [mapCheck a (s.targetBands a t), .ask fun s => each us fun q => aim q (s.safeTarget q ((s.headOf q).getD 0) t),
    setSeek a fun k => { k.rest (t * 65536) with track := t, yT := t * 65536, tries := 0 },
    each [16 + a, 20 + a] fun k => .seq (setF SVE_CTX_CFG.ENABLE k 1) (setF SVE_CTX_CFG.MODE k 1),
    setBitF SVE_TRK_STAT.LOADED 0 a true, setSub a skTracking, setF SVE_SEEK_STAT.ERR a 0, setF SVE_SEEK_STAT.DONE a 1,
    setBitF SVE_TRK_STAT.RETRACT 0 a false,
    when (s.get SVE_TRK_STAT.STATE 0 == trkUnloaded) (.seq (setF SVE_TRK_STAT.STATE 0 trkServed) (setF SVE_TRK_STAT.SINCE 0 0))])

/-- A wedge counts in WEDGES, from the first one after the command (Table 7.4, Table 7.19). -/
def countWedge (a : Nat) : Prog := .ask fun s => when (s.get SVE_SEEK_STAT.STATE a ≥ skMove && s.get SVE_SEEK_STAT.STATE a ≤ skUnloading)
  (if (s.seek a).first then setSeek a fun k => { k with first := false } else incF SVE_SEEK_STAT.WEDGES a)

/-- Servo detection while loading: LD_N consecutive wedges with a SAM and a track number (R209 step 2). -/
def loadWedge (p : Nat) (o : Option WedgeObs) : Prog := .seq (countWedge (p / 4)) (.ask fun s =>
  let a := p / 4
  let n := max 1 (s.get SVE_RAMP_CFG.LD_N 0)
  match o with
  | some x =>
    if (s.seek a).detect + 1 ≥ n then .seq (predictNext p (some x.wedge.val)) (loadDone a p x.gray.val)
    else setSeek a fun k => { k with detect := k.detect + 1 }
  | none => setSeek a fun k => { k with detect := 0 })

/-- J_MAX, A_MAX, V_MAX in the units of Table 7.5. -/
def State.trajLimits (s : State) (a : Nat) : List Nat :=
  [max 1 (s.get SVE_TRAJ_LIM.J_MAX a), max 1 (s.get SVE_TRAJ_LIM.A_MAX a), max 1 (s.get SVE_TRAJ_LIM.V_MAX a)]

/-- The reference `n` wedges into a profile, in 1/65,536 track and per ms; `spd` gives the wedge interval, 1000 / (7 × SPD_SET) ms (R203). -/
def Seek.at (k : Seek) (spd n : Nat) : Int × Int × Int :=
  let x := profile (1000 * k.lim.getD 0 1) (100 * k.lim.getD 1 1) (500 * k.lim.getD 2 1) ((k.goal : Rat) / 65536)
    { y := (k.y0 : Rat) / 65536, v := (k.v0 : Rat) / 65536, a := (k.a0 : Rat) / 65536 } (1000 * n / (7 * spd))
  (rnd (x.y * 65536), rnd (x.v * 65536), rnd (x.a * 65536))

/-- The reference a wedge on (R203, R206): new limits hold from this evaluation; a new target is planned for from the reference it gives. -/
def Seek.advance (k : Seek) (lim : List Nat) (spd : Nat) : Seek :=
  let k := if k.lim = lim then k else { k with y0 := k.yRef, v0 := k.vRef, a0 := k.aRef, step := 0, lim }
  let (y, v, a) := k.at spd (k.step + 1)
  let k := { k with yRef := y, vRef := v, aRef := a, step := k.step + 1 }
  if k.goal = k.yT then k else { k with y0 := y, v0 := v, a0 := a, step := 0, goal := k.yT }

/-- The reference advances by one wedge, and the seek changes state with it (R203 to R208). -/
def seekAdvance (a : Nat) : Prog := .ask fun s =>
  let st := s.seekSub a
  let k := (s.seek a).advance (s.trajLimits a) (s.get SPN_CTL.SPD_SET 0)
  .seq (countWedge a)
    (if st = skMove ∨ st = skTrackIn then all [
        setSeek a fun x => { k with first := x.first },
        when (st == skMove && decide ((k.yT - k.yRef).natAbs ≤ (s.hoTrk a).natAbs)) (enterTrackIn a),
        when (k.yRef == k.yT) (enterSettle a)]
     else when (st == skSettle) (setSeek a fun k => { k with settleWedges := k.settleWedges + 1 }))

/-- MAN of the position context in MOVE (R204): positions in 1/65,536 track, a wedge interval of 1000 / (7 × SPD_SET) ms. -/
def State.moveMan (s : State) (a : Nat) (y : Int) : Int :=
  let k := s.seek a
  let spd : Int := s.get SPN_CTL.SPD_SET 0
  sat16 (roundDiv (4 * (s.get SVE_TRAJ_GAIN.ACC_GAIN a : Int) * k.aRef +
    (s.get SVE_TRAJ_GAIN.KV a : Int) * (1000 * k.vRef - 7 * spd * (y - k.yMeas)) +
    4000 * (s.get SVE_TRAJ_GAIN.KX a : Int) * (k.yRef - y)) (4000 * 65536))

/-- e_V of R184 from the paths with a PES and their microactuator terms. -/
def eVOf (got : List (Nat × Int × Int)) : Int := roundDiv ((got.map fun e => 8 * e.2.1 - e.2.2).sum) (8 * got.length)

/-- One step of the estimator notch on `x` with pole radius `rho`, step exponent `mu` and the bounds of c (R214). -/
def Notch.learn (n : Notch) (x : Int) (rho : Rat) (mu : Nat) (lo hi : Rat) : Notch :=
  let y := grid (x - 2 * n.c * n.x1 + n.x2 + 2 * rho * n.c * n.y1 - rho * rho * n.y2)
  let p := grid (n.p + (x * x - n.p) / 64)
  { n with c := clampR lo hi (grid (n.c + y * n.x1 / 2 ^ mu / max p 1)), p, x1 := x, x2 := n.x1, y1 := y, y2 := n.y1 }

/-- One wedge of notch tracker `r` of actuator `a` (R214, R215); `zero` at wedge 0. -/
def notchWedge (a r : Nat) (x : Int) (zero : Bool) : Prog := .ask fun s =>
  let i := 4 * a + r
  let n := Sparse.get {} s.sve.notch i
  let lo := s.get SVE_NOTCH_LIM.F_LO i
  let hi := s.get SVE_NOTCH_LIM.F_HI i
  let fs := 7 * s.get SPN_CTL.SPD_SET 0
  let rho := s.get SVE_NOTCH_CTL.RHO i
  if !s.on SVE_NOTCH_CTL.EN i then .skip
  else if hi ≤ lo ∨ fs ≤ 2 * hi then setF SVE_NOTCH_STAT.ERR i 1
  else
    let n' := if s.learnOk a then n.learn x ((rho : Rat) / 256) (max 6 (s.get SVE_NOTCH_CTL.MU_N i)) (cosR ((hi : Rat) / fs)) (cosR ((lo : Rat) / fs)) else n
    let f := clampN lo hi (notchFreq n'.c fs)
    let at' := f == lo || f == hi
    all [setF SVE_NOTCH_STAT.F_EST i f, when (zero && n.atBound && at') (setF SVE_NOTCH_STAT.BOUND i 1),
      .upd (.sve fun x => { x with notch := Sparse.put {} x.notch i { n' with atBound := if zero then at' else n.atBound && at' } }),
      when (zero && decide (s.get SVE_NOTCH_CTL.F_STEP i ≤ max f (s.get SVE_NOTCH_STAT.F_APP i) - min f (s.get SVE_NOTCH_STAT.F_APP i)))
        (let w := (s.get SVE_CTX_CFG.CLU (16 + a) * 4 + s.ctxBankNo (16 + a)) * 128 + 5 * s.get SVE_NOTCH_CTL.SEC i
         .seq (.upd (.sve fun x => { x with bank := (List.range 5).foldl (fun l j =>
             Sparse.put 0 l (w + j) (ofSigned 32 (sat32 ((notchSection f fs rho).getD j 0)))) x.bank }))
           (setF SVE_NOTCH_STAT.F_APP i f))]

/-- e_V is formed, or in MOVE the trajectory's set-point (R184, R192, R204); then the wedge of the actuator is over. -/
def evForm (a : Nat) : Prog := .ask fun s =>
  let got := s.sve.wedgeGot.filter fun e => e.1 / 4 == a
  let trk := s.sve.wedgeTrk.filter fun e => e.1 / 4 == a
  let zero := (pathsOf a).any fun p => got.any (·.1 == p) && s.get SVE_WEDGE_STAT.WEDGE p == 0
  all [setF SVE_ACT_STAT.N_PES a got.length,
    .upd (.sve fun x => { x with actMiss := Sparse.put 0 x.actMiss a (if got.isEmpty && trk.isEmpty then Sparse.get 0 x.actMiss a + 1 else 0)
                                 wedgeGot := x.wedgeGot.filter fun e => e.1 / 4 != a, wedgeTrk := x.wedgeTrk.filter fun e => e.1 / 4 != a
                                 wedgeDone := x.wedgeDone.filter fun p => p / 4 != a }),
    when (s.seekSub a == skMove && !trk.isEmpty) (
      let y := roundDiv (trk.map (·.2)).sum trk.length
      all [setI SVE_CTX_MAN.MAN (16 + a) (s.moveMan a y), setSeek a fun k => { k with yMeas := y },
        fresh fun e => trigger (16 + a) (toSigned 32 e)]),
    when (s.seekSub a != skMove && !got.isEmpty && !(s.seek a).ramp) (
      let e := eVOf got
      let y := roundDiv (got.map fun g => s.physTarget g.1 + roundDiv (g.2.1 * 65536) ((s.tgt g.1).tp * 512) -
        ((s.tgt g.1).target + (s.tgt g.1).trkOfs) * 65536 + (s.seek a).yT).sum got.length
      all [setSeek a fun k => { k with yMeas := y }, trigger (16 + a) e, each (List.range 4) fun r => notchWedge a r e zero]),
    settleCheck a]

/-- The runout-table entry of index `h` (24 + a for class 1) and zone `z` (R213). -/
def State.rroAddr (s : State) (h z : Nat) : Nat := s.get SVE_RRO_BASE.ADDR 0 * 4096 + (128 * h + z) * 64

/-- Index and zone of live set `i`: 0 to 15 for head paths, 16 + a for actuators (R213). -/
def State.rroTag (s : State) (i : Nat) : Nat × Nat :=
  if i < 16 then ((s.tgt i).head, (s.tgt i).zone) else (24 + (i - 16), s.zoneOf ((s.seek (i - 16)).yT / 65536).toNat)

/-- At the start of a pass live set `i` is loaded, unless its tag says that it is that of index and zone (R213). -/
def rroFetch (i : Nat) : Prog := whenS (fun s => s.on SVE_RRO_CTL.LD_EN 0 && (Sparse.get {} s.sve.rro i).tag != some (s.rroTag i)) (.ask fun s => .seq
  (emit (.event "runout load" [i])) (.upd (.sve fun x => { x with rroLoad := (x.rroLoad.filter fun e => e.1 != i) ++ [(i, s.rroTag i)] })))

/-- Write learned set `i` back (R213). -/
def rroWriteback (i : Nat) : Prog := .ask fun s =>
  let r := Sparse.get {} s.sve.rro i
  match r.tag with
  | some (h, z) => when (r.learned && s.on SVE_RRO_CTL.WB_EN 0) (.seq
      (fabricSealed .sve (s.rroAddr h z) ((List.range 8).map (fun k => BitVec.ofNat 32 (ofSigned 16 (r.s.getD k 0) * 65536 + ofSigned 16 (r.c.getD k 0))) ++
        [0x80000000#32] ++ List.replicate 6 0))
      (.upd (.sve fun x => { x with rro := Sparse.put {} x.rro i { r with learned := false } })))
  | none => .skip

/-- The drive's spindle is turning: not OFF and not handed to the power die. -/
def State.spinning (s : State) : Bool := s.spn? != spOff && s.spn? != spHanded

end Sys2Proof.Machine
end

