-- ==== Sys2Proof/Machine/Pass.lean ====
section
/-! DEFINITION. Passes of an actuator (R54, R62, R70 to R74, R95, R124, R150 to R154, R187, R355). -/
namespace Sys2Proof.Machine

/-- Writer `w` may be powered (R150, R151): below four writers only the granted actuators' even writers. -/
def State.writerAllowed (s : State) (w : Nat) : Bool :=
  let n := s.get PTM_CAP_STAT.WR_ALLOW 0
  if 8 ≤ n then true else if 4 ≤ n then w % 2 == 0 else w % 2 == 0 && s.wrc.grants.any fun e => e.1 == w / 2

/-- The oldest waiting actuator without a grant, the lower number on a tie (R151). -/
def oldestWaiting (l : List (Nat × Nat)) : Option (Nat × Nat) :=
  l.foldl (fun b e => match b with
    | some x => if e.2 < x.2 ∨ (e.2 = x.2 ∧ e.1 < x.1) then some e else b
    | none => some e) none

/-- Grants of the writer budget while WR_ALLOW is below 4, to the actuators that wait longest (R151). -/
def grantWriters (a : Nat) (waiting : Option Nat) (atEnd : Bool) : Prog := .ask fun s =>
  let wait := (s.wrc.waiting.filter fun e => e.1 != a) ++ (match waiting with
    | some n => [(a, n)]
    | none => [])
  let held := s.wrc.grants.map fun e => if e.1 == a && atEnd then (e.1, e.2 + 1) else e
  let others := wait.any fun e => e.1 != a && !(held.any fun g => g.1 == e.1)
  let kept := if atEnd then held.filter fun e => !(e.1 == a && (waiting.isNone || decide (4 ≤ e.2) && others)) else held
  let rest := wait.filter fun e => !kept.any fun g => g.1 == e.1
  let n := s.get PTM_CAP_STAT.WR_ALLOW 0
  .upd (.wrc fun x => { x with
    waiting := wait
    grants := if 4 ≤ n then kept else
      match oldestWaiting rest with
      | some e => if kept.length < n ∧ (atEnd ∨ e.1 = a) then kept ++ [(e.1, 0)] else kept
      | none => kept })

/-- The bias by which a path's head is judged in a band after an UNREACH event: what drift observation holds, else the map's (R62). -/
def State.biasF (s : State) (p : Nat) (t : PathTgt) : Rat :=
  let d := Sparse.get {} s.sve.drift p
  if d.band = t.band ∧ d.revs > 0 then d.bf else t.bias

/-- R62: the path with the largest |B_f − mean| is removed, the lowest-numbered of equal ones, until the rest are co-reachable; four paths at most.
The spec names no path among equals (DESIGN CHOICE, assumption log 17). -/
def splitUnreach (s : State) : Nat → List (Nat × PathTgt) → List (Nat × PathTgt)
  | 0, l => l
  | n + 1, l =>
    let bs := l.map fun e => s.biasF e.1 e.2
    let mean : Rat := bs.sum / l.length
    let ys := l.map fun e => (e.2.target * e.2.tp * 1024 : Rat) + s.biasF e.1 e.2 * 2500
    if ys.all fun x => ys.all fun y => decide (x - y ≤ (twoStroke : Rat)) then l
    else
      let worst := (l.zip bs).foldl (fun (b : Option (Nat × Rat)) e => match b with
        | some x => if |e.2 - mean| > x.2 ∨ (|e.2 - mean| = x.2 ∧ e.1.1 < x.1) then some (e.1.1, |e.2 - mean|) else b
        | none => some (e.1.1, |e.2 - mean|)) none
      splitUnreach s n (l.filter fun e => some e.1 != worst.map (·.1))

/-- The members that a pass takes of those wanted, in the order of R70, rule 4: a path is usable, has one target and at most one writer, the
set stays co-reachable, and the counts stay within what PTM and the link allow (R111, R150). A member at or above a rebuild's watermark is not read
(R74). -/
def State.select (s : State) (a : Nat) (wants : List Want) : List (Nat × PathTgt × Option Nat) :=
  let busy := (s.sve.pass.map fun e => if e.1 == a then 0 else e.2.paths.length).sum
  let p1 := s.get RDC_PAL_STAT.VER a == 1
  (wants.mergeSort fun x y => decide (x.cls.val ≤ y.cls.val)).foldl (fun l w =>
    let p := 4 * a + w.slot
    let h := (s.headOf p).getD 0
    let t := s.pathTarget p h w.track
    let wr := w.writer.map fun i => 2 * a + i.val
    let okWriter := match wr with
      | some x => s.writerAllowed x && (!p1 || x % 2 == 0) && !l.any (fun e => e.2.2 == some x)
      | none => true
    if !s.pathUsable p || wr.isNone && s.rebuilding p (w.track.val / 256) || !s.targetValid a (h % 6) w.track || !okWriter || l.any (fun e => e.1 == p) || (p1 && !l.isEmpty) ||
        decide (s.get PTM_CAP_STAT.HP_ALLOW 0 ≤ busy + l.length) || !coReachable (t :: l.map fun e => e.2.1) then l
    else l ++ [(p, t, wr)]) []

/-- A head path enters the pass (R95, R99, R124, R187). -/
def passPath (p : Nat) (t : PathTgt) : Prog := .ask fun s => all [
  aim p t, .upd (.rdc fun x => { x with erased := x.erased.filter fun e => e.1 != p }),
  setF RDC_HP_DET.NP_SET p (min 7 (t.zone / 2 ^ s.get RDC_HP_DET.NP_ZSH p)),
  when (s.get SVE_SEEK_STAT.STATE (p / 4) == skTracking && !s.sve.active.contains p) (joinActive p),
  if s.on RDC_HP_CTL.ZT_LOAD_EN p && !(s.rdc.tag.contains (p, t.head, t.zone)) then
    .seq (emit (.event "coefficient load" [p])) (.upd (.rdc fun x => { x with loading := p :: x.loading.filter (· != p) }))
  else writesAfterLoad p false,
  rroFetch p]

/-- Writer `w`'s domain is powered, or it is not (R603). -/
def writerPower (w : Nat) (on : Bool) : Prog := .seq (setBitF PTM_DOM_PWR.ON 0 (16 + w) on) (setF WRC_WR_STAT.PWR w (if on then wpReady else wpOff))

/-- A writer is to be powered: a rise in demand, which is granted at once while FIXED is 1 and else by DEMAND_RISE_GRANT (R151, R485). -/
def writerOn (w : Nat) : Prog := .ask fun s =>
  if s.domainOn (48 + w) then .skip
  else if s.on PTM_AVS_CFG.FIXED 0 then writerPower w true
  else .upd (.wrc fun x => { x with rising := w :: x.rising.filter (· != w) })

/-- The rises that wait are granted, or refused at VMAX: the writers stay OFF (R485). -/
def writersGranted (granted : Bool) : Prog := .ask fun s => .seq
  (when granted (each (s.wrc.rising.filter fun w => s.writerAllowed w || (s.writer w).pass) fun w => writerPower w true))
  (.upd (.wrc fun x => { x with rising := [] }))

/-- Writers outside a pass follow WR_ALLOW: those it no longer permits are powered down, and from four on all it permits are powered (R40, R150, R151). -/
def writersFollow : Prog := .ask fun s => each allWriters fun w => when (!(s.writer w).pass) (
  if !s.writerAllowed w then when (s.domainOn (48 + w)) (writerPower w false)
  else when (decide (4 ≤ s.get PTM_CAP_STAT.WR_ALLOW 0) && !s.domainOn (48 + w)) (writerPower w true))

/-- Where the ACTIVE rule holds, head paths outside a pass beyond HP_ALLOW are powered down, the least recently used first (R40, R113, R114); the one by
which an arm without active paths is tracked stays in SERVO (R184). -/
def pathsFollow : Prog := .ask fun s => when s.manyPaths (
  let t := fun q => Sparse.get 0 s.rdc.lastUse q
  each (s.readyPaths.filter fun p => !s.inPass p) fun p =>
    let before := s.readyPaths.filter fun q => q != p && (s.inPass q || decide (t p < t q ∨ (t p = t q ∧ q < p)))
    when (decide (s.get PTM_CAP_STAT.HP_ALLOW 0 ≤ before.length)) (setPwr p (if s.tracksAlone p then pwServo else pwOff)))

/-- A writer is assigned to a path of the pass (R150, R152, R154): its clock's domain is powered, its assist fault is over. -/
def passWriter (p : Nat) (t : PathTgt) (w : Nat) : Prog := .ask fun s => all [
  setWriter w fun x => { x with pass := true, ready := false, waitAck := false, rate := 0, head := t.head, zone := t.zone, path := p, completed := false, assist := false },
  when (!s.rdc.loading.contains p) (writerClock p),
  when (s.writer w).assist (noteCleared (kWriter w)),
  setF WRC_WR_CTL.ASSIGNED w 1, setF WRC_WR_CTL.SLOT w (p % 4), writerOn w,
  if s.on WRC_WR_CTL.WT_LOAD_EN w && (s.writer w).liveSet != some (t.head, t.zone) then
    .seq (emit (.event "write-parameter load" [w])) (setWriter w fun x => { x with loading := true })
  else when (s.writer w).liveSet.isSome (writerFrames w)]

/-- The bands of an actuator that the fast path hands to application firmware: an UNREACH event, or the header's UNREACH (R62). -/
def State.unreachBand (s : State) (a b : Nat) : Bool := s.sve.unreach.contains (a, b) || hdrUnreach (s.recHdr b a)

/-- The issuer may start a pass on actuator `a`: the map is in use, service goes on, the arm is loaded, no pass runs, and the claim is right
(R53, R355, R504, Table 2.5). -/
def State.mayPass (s : State) (a : Nat) (firmware : Bool) : Bool :=
  s.on SVE_CMAP_CFG.ENABLE 0 && !s.safe && s.loaded a && !(s.sve.pass.any fun e => e.1 == a) && s.get SVE_SEEK_STAT.STATE a != skUnloading &&
    s.palUp a && (s.bitF CQE_CLAIM.GRANT 0 a == firmware)

/-- Ticks of a revolution at the set speed: 60 s over SPD_SET in units of 125 ns (Table 8.4). -/
def State.revTicks (s : State) : Nat := 480000000 / max 1 (s.get SPN_CTL.SPD_SET 0)

/-- The window of R346 in ticks; 0 revolutions are treated as 1. -/
def State.floorWin (s : State) : Nat := max 1 (s.get CQE_SCHED.FLOOR_WIN 0) * s.revTicks

/-- Media time that the passes of an actuator took in the window that ends now: of its reads, or of all. -/
def State.mediaTime (s : State) (a : Nat) (readsOnly : Bool) : Nat :=
  ((s.cqe.media.filter fun e => e.1 == a && (!readsOnly || e.2.2.2)).map fun e => e.2.2.1 - max e.2.1 (s.time - s.floorWin)).sum

/-- Reads of held commands wait for the medium on an actuator. -/
def State.readsWait (s : State) (a : Nat) : Bool := s.cqe.cmds.any fun c => c.kind == 0 && c.want.isNone && match c.ns with
  | some n => c.lbas.zipIdx.any fun e => e.1.st == 1 && memberPath (s.lbaRow n (c.lba + e.2)) (s.lbaMember n (c.lba + e.2)) / 4 == a
  | none => false

/-- While reads wait and have had less than READ_FLOOR % of the window's media time, the fast path gives an actuator to reads only (R346). The spec names
the share and the window; that the part judges them as a pass starts, and that reads go first where the window holds no media time yet, is
the model's reading (DESIGN CHOICE, assumption log 50). -/
def State.readsOnly (s : State) (a : Nat) : Bool :=
  let floor := min 100 (s.get CQE_SCHED.READ_FLOOR 0)
  s.readsWait a && (decide (100 * s.mediaTime a true < floor * s.mediaTime a false) || s.mediaTime a false == 0 && floor != 0)

/-- A wanted member that is a read: not a write, not rebuild, relocation or patrol work (R70, R346). -/
def wantReads (w : Want) : Bool := w.writer.isNone && decide (w.cls.val < 3)

/-- The media time of a pass of the fast path is added to the window; what no window holds any more is dropped (R346). -/
def mediaNote (a : Nat) (x : Pass) : Prog := when (x.issuer == 0) (.ask fun s => .upd (.cqe fun y => { y with
  media := (y.media.filter fun e => decide (s.time ≤ e.2.2.1 + 255 * s.revTicks)) ++ [(a, x.start, s.time, x.reads)] }))

/-- PASS_START: an issuer, the fast path or application firmware, starts a pass on actuator `a` with the members it wants in its order of R70;
`waiting` is the fetch order of the actuator's oldest waiting write member (R53, R62, R64, R70, R72, R151, R346). -/
def passStartProg (a : Nat) (firmware : Bool) (wants : List Want) (waiting : Option Nat) : Prog := .ask fun s => when (s.mayPass a firmware) (
  let bad := wants.filter fun w => (s.targetBands a w.track).any fun b => !s.recOk b a
  let good := wants.filter fun w => !bad.contains w
  let handed := if firmware then [] else good.filter fun w => s.unreachBand a (w.track.val / 256)
  let left := good.filter fun w => !handed.contains w && (firmware || !s.readsOnly a || wantReads w)
  all [
    when (!bad.isEmpty) (all [raise 224 (detail a), emit (.event "MAP_ERR" (a :: bad.map fun w => w.track.val / 256)),
      each ((bad.flatMap fun w => s.targetBands a w.track).filter fun b => !s.recOk b a) fun b => mapReload b a]),
    when (!handed.isEmpty) (emit (.event "hand-off" (a :: handed.map fun w => w.track.val))),
    grantWriters a waiting false,
    .ask fun s =>
      let sel0 := s.select a ((s.rereadWants a).filter (fun w => !left.any fun v => v.slot == w.slot) ++ left)
      let keep := if sel0.any fun e => s.unreachBand a e.2.1.band then (splitUnreach s 4 (sel0.map fun e => (e.1, e.2.1))).map (·.1) else sel0.map (·.1)
      let sel := sel0.filter fun e => keep.contains e.1
      let extra := ((sel0.filter fun e => !keep.contains e.1).map fun e => (a, e.2.1.band)).dedup.filter fun e => s.spareUsed e.1 e.2 && !s.sve.extraLogged.contains e
      when (!sel.isEmpty) (all [
        each extra fun e => .seq (almEvent bSVE kFault "band not relocated" [e.1, e.2]) (.upd (.sve fun x => { x with extraLogged := x.extraLogged ++ [e] })),
        .upd (.sve fun x => { x with pass := x.pass ++ [(a, {
          issuer := b2n firmware, track := (left.head?.map fun w => w.track.val).getD 0, band := (left.head?.map fun w => w.track.val / 256).getD 0
          write := sel.any fun e => e.2.2.isSome, paths := sel.map (·.1), ending := false, release := []
          start := s.time, reads := left.all wantReads })] }),
        setPreamp a false,
        when (s.get SVE_SEEK_STAT.STATE a == skTracking) (each ((pathsOf a).filter fun p => !(sel.any fun e => e.1 == p)) leaveActive),
        each sel fun e => passPath e.1 e.2.1,
        each sel fun e => match e.2.2 with
          | some w => passWriter e.1 e.2.1 w
          | none => .skip,
        rroFetch (16 + a)])])

/-- A claim on actuator `a` is granted (R355). -/
def claimGrant (a : Nat) : Prog := .ask fun s => when (s.bitF CQE_CLAIM.CLAIM 0 a && !s.bitF CQE_CLAIM.GRANT 0 a)
  (all [setBitF CQE_CLAIM.GRANT 0 a true, .upd (.cqe fun x => { x with grantAt := x.grantAt.filter (fun e => e.1 != a) ++ [(a, s.time)] }),
    emit (.event "claim granted" [a])])

/-- PASS_END: the pass ends: paths leave the active set, live sets are written back, writers are taken back, a claim is granted (R72, R97, R114,
R151, R154, R158, R187, R213, R355). -/
def passEndProg (a : Nat) (waiting : Option Nat) : Prog := .ask fun s =>
  match s.sve.pass.find? fun e => e.1 == a with
  | none => .skip
  | some (_, x) => all [
      each x.paths fun p => all [ztabWriteback p, rroWriteback p, leaveActive p, when (s.hpPwr p == pwActive) (setPwr p pwReady)],
      rroWriteback (16 + a), each (writersOfAct a) writerEnd,
      .upd (.rdc fun r => { r with readAny := r.readAny.filter fun p => p / 4 != a }),
      mediaNote a x, .upd (.sve fun y => { y with pass := y.pass.filter fun e => e.1 != a }),
      .upd (.mpc fun y => { y with
        gather := (y.gather.map fun e => (e.1, e.2.filter fun z => (z.1 + e.1) % 16 / 4 != a)).filter fun e => !e.2.isEmpty }),
      grantWriters a waiting true,
      writersFollow, pathsFollow,
      claimGrant a]

end Sys2Proof.Machine
end

