-- ==== Sys2Proof/Machine/PowerOps.lean ====
section
/-! DEFINITION. The power die, the concurrency unit and the thermal limits: shared operations of chapter 17. -/
namespace Sys2Proof.Machine

/-- Power-die states (Table 17.7). -/
def pdHold : Nat := 0
def pdCommanded : Nat := 1
def pdAutonomous : Nat := 2
def pdLoss : Nat := 3

/-- LINK of PTM_CW_STAT (Table 17.10). -/
def cwDown : Nat := 0
def cwHello : Nat := 1
def cwUp : Nat := 2

/-- The Causeway is up. -/
def State.cwIsUp (s : State) : Bool := s.get PTM_CW_STAT.LINK 0 == cwUp

/-- Update the power die. -/
def setPd (f : PwrState → PwrState) : Prog := .upd (.pwr f)

/-- The spindle turns. -/
def State.turning (s : State) : Bool := s.spn.rotor != 0

/-- The power die's stages turn off. -/
def stagesOff : Prog := setPd fun x => { x with stages := false, vcm := [], duty := [], sampled := [] }

/-- Every actuator is latched or timed out: the brake of a turning spindle starts, and a stopped one ends AUTONOMOUS (R481, Table 17.7). -/
def pdSettle : Prog := .ask fun s =>
  when (s.pwr.retracting.isEmpty && (s.pwr.st == pdAutonomous || s.pwr.st == pdLoss)) (
    if s.turning then setPd fun x => { x with braking := true }
    else when (s.pwr.st == pdAutonomous) (.seq stagesOff (setPd fun x => { x with st := pdHold })))

/-- A retract begins (R480): RETRACTED sets for every named actuator, whose bridge the power die drives until the arm latches; an arm
on its ramp needs no drive (assumption log 21). -/
def pdRetract (as : List Nat) : Prog := .ask fun s => .seq
  (each as fun a => setBitF PWR_STAT.RETRACTED 0 a true)
  (setPd fun x => { x with
    retracting := x.retracting ++ as.filter fun a => !x.retracting.contains a && !s.bitF PWR_STAT.LATCHED 0 a
    retractAt := as.foldl (fun l a => if x.retracting.contains a then l else Sparse.put 0 l a s.ptm.ticks) x.retractAt
    timedOut := x.timedOut.filter fun a => !as.contains a
    vcm := x.vcm.filter fun e => !as.contains e.1 })

/-- Every actuator. -/
def allActs : List Nat := [0, 1, 2, 3]

/-- The logic die sees an actuator as parked or retracted (R210 step 4, R606). -/
def parkedSeen (a : Nat) : Prog := whenS (fun s => s.loaded a || s.sve.retract.contains a || (s.seek a).ramp) (parked a)

/-- Arms that PWR_STAT reports latched, of actuators whose unload or retract waits for it (R210 step 4, R606). -/
def latchedSeen : Prog := .ask fun s =>
  each (allActs.filter fun a => s.bitF PWR_STAT.LATCHED 0 a && (s.sve.retract.contains a || (s.seek a).ramp)) parkedSeen

/-- Retracts that no request of SVE began are known to SVE from RETRACTED, or from the Causeway's loss (R22, R606). -/
def retractSeen (as : List Nat) : Prog := .upd (.sve fun x => { x with retract := x.retract ++ as.filter fun a => !x.retract.contains a })

/-- The power die's heartbeat is lost: every actuator retracts and the spindle is braked (R22, Table 17.7). -/
def pdAlone : Prog := .ask fun s => when (s.pwr.st == pdCommanded) (all [
  setPd fun x => { x with st := pdAutonomous, duty := [] }, pdRetract allActs, pdSettle])

/-- PWRGD, which the power die drives, is released high: VCORE, VIO18, VDD2 and VDDQ in regulation, no supply loss, the rail sequence over (R574). A change
of what it follows shows its level. -/
def State.pwrgd (s : State) : Bool := s.ptm.powered && !s.on PWR_STAT.LOSS 0 && s.get PWR_STAT.RAIL_OK 0 % 16 == 15
def pwrgdShow : Prog := .ask fun s => emit (.event "PWRGD" [b2n s.pwrgd])

/-- A supply loss at the power die (R473, Table 17.7): VHU is isolated, every actuator retracts. -/
def pdSupplyLoss : Prog := all [
  setF PWR_STAT.LOSS 0 1, setPd fun x => { x with st := pdLoss, isolated := true, braking := false, duty := [] }, pwrgdShow, pdRetract allActs, pdSettle]

/-- PWR_STAT, as STATUS and EVT frames carry it. -/
def State.pwrStat (s : State) : Nat := (s.reg .PWR_STAT 0).toNat

/-- The largest u of R487 for a cap. -/
def capUnit (cap fixed unit : Nat) : Nat :=
  (([8, 4, 2] : List Nat).find? fun u => decide (fixed + u * max 1 unit ≤ 10 * cap)).getD 1

/-- u by R487 and R489. -/
def State.wantU (s : State) : Nat :=
  let u := capUnit s.capW (s.get PTM_CAP_CFG.P_FIXED 0) (s.get PTM_CAP_CFG.P_UNIT 0)
  if s.on PTM_CAP_STAT.THROTTLE 0 then max 1 (u / 2) else u

/-- The unit u comes into force (R487, R488). -/
def setU (u : Nat) : Prog := whenS (fun s => s.get PTM_CAP_STAT.U 0 != u) (all [
  setF PTM_CAP_STAT.U 0 u, setF PTM_CAP_STAT.HP_ALLOW 0 (2 * u), setF PTM_CAP_STAT.WR_ALLOW 0 u, setF PTM_CAP_STAT.CAP_EVT 0 1,
  writersFollow, pathsFollow])

/-- A cause of a change of u is sampled: a fall takes effect at once, a rise is granted under R485, at once while FIXED is 1 (R488). -/
def concurrencyChange : Prog := .ask fun s =>
  if s.wantU ≤ s.get PTM_CAP_STAT.U 0 then setU s.wantU
  else when (s.on PTM_AVS_CFG.FIXED 0) (.seq (setU s.wantU) (setF PTM_AVS_STAT.AVS_LIM 0 0))

/-- The rise in u is granted (R485). -/
def grantRise : Prog := .ask fun s => .seq (setU s.wantU) (setF PTM_AVS_STAT.AVS_LIM 0 0)

/-- VSET's range (R484, Table 17.12). -/
def State.vmax (s : State) : Nat := min 80 (s.get PTM_AVS_CFG.VMAX 0)
def State.vmin (s : State) : Nat := min s.vmax (s.get PTM_AVS_CFG.VMIN 0)
def setVset (v : Nat) : Prog := .ask fun s => setF PTM_AVS_STAT.VSET 0 (clampN s.vmin s.vmax v)

/-- A write of PTM_AVS_CFG: while FIXED is 1, VMIN = VMAX sets VSET (Table 17.12). -/
def avsCfgWritten : Prog := whenS (fun s => !s.on PTM_AVS_CFG.FIXED 0 || s.vmin == s.vmax) (.ask fun s => setVset (s.get PTM_AVS_STAT.VSET 0))

/-- Thresholds of R489, in force within their ranges. -/
def State.twarn (s : State) : Int := (clampN 90 120 (s.get PTM_THERM.TWARN 0) : Nat)
def State.tshut (s : State) : Int := (clampN 100 125 (s.get PTM_THERM.TSHUT 0) : Nat)
def State.tjMax (s : State) : Int := max (s.sget PTM_THERM.TJ_LOGIC 0) (s.sget PTM_THERM.TJ_POWER 0)

/-- Junction temperatures, in °C, as measured; PTM keeps when one was last less than 5 °C below TWARN (R489). -/
def setJunctions (tl tp : Int) : Prog := all [setI PTM_THERM.TJ_LOGIC 0 tl, setI PTM_THERM.TJ_POWER 0 tp,
  whenS (fun s => decide (s.twarn - 5 < s.tjMax)) (.upd (.ptm fun p => { p with hotAt := p.ticks }))]

/-- The hotter junction is at or above TWARN: u is halved (R489). -/
def throttleCheck : Prog := whenS (fun s => decide (s.twarn ≤ s.tjMax)) (.seq (setF PTM_CAP_STAT.THROTTLE 0 1) concurrencyChange)

/-- PTM declares the Causeway down (R479). -/
def causewayDown : Prog := all [
  setF PTM_CW_STAT.LINK 0 cwDown, setF PTM_CW_STAT.DOWN_EVT 0 1, raise 6 (detail 0), enterSafe 3,
  .ask fun s => retractSeen (allActs.filter fun a => s.loaded a), spnHanded]

/-- BOOT ends with a failure (R499, Table 18.6): codes 1 to 5 stop it, and from that tick nFAULT is asserted. -/
def bootFailure (code : Nat) : Prog := all [
  setF PTM_BOOT_STAT.BOOT_ERR 0 code, almEvent bPTM kFault "boot failure" [code],
  when (code ≤ 5) (.seq (.upd (.ptm fun p => { p with bootStopped := true })) driveNfault)]

/-- A supply loss as PTM samples it (R508): the power die's part, then step 2; in RETENTION nothing changes on the logic die (R502). -/
def supplyLoss : Prog := .ask fun s => .seq pdSupplyLoss (when (!s.ptm.retention) (powerLossBegin false))

end Sys2Proof.Machine
end

