-- ==== Sys2Proof/Machine/BmuOps.lean ====
section
/-! DEFINITION. BMU's shared operations: the buffer cache (R366 to R378), the line code's marks (R361 to R364), buffer slots (R379 to R381) and
the content cache (R387 to R392). -/
namespace Sys2Proof.Machine

/-- A read of class `c` finds its line: a hit uses its way, and a line in the eviction buffer returns to the cache, dirty, where the class allocates
(R366, R372). -/
def lineRead (c l : Nat) : Prog := .ask fun s =>
  match s.cline l, s.bmu.evb.find? fun e => e.line == l with
  | some x, _ => touchWay l x.way true
  | none, some e => when (s.ccState == ccEnabled && !s.on BMU_CLASS_CFG.NOALLOC c && s.effMask c l != 0) (allocLine l (s.effMask c l) true e.old false)
  | none, none => .skip
def dramTouch (m : Master) (a n : Nat) : Prog := .seq dramAwake (each (lineParts (n / 64 + 2) a n) fun x => lineRead m.cls (x.1 / 64))

/-- Memory takes back what DRAM holds under a dirty line that is dropped (R374). -/
def dropDirty (l : Nat) (old : List Byte) : Prog := putBytes (64 * l) old

/-- Lines of a range. -/
def inLines (lo n l : Nat) : Bool := decide (lo ≤ l ∧ l < lo + n)

/-- One operation of R374 on the lines from `lo` on. The eviction buffer's entries wait to be written, or are dropped by an INVALIDATE. -/
def mntApply (op lo n : Nat) : Prog := .ask fun s =>
  let ls := s.bmu.lines.filter fun e => inLines lo n e.1
  .seq (when (op != 1) (each (ls.filter fun e => e.2.dirty) fun e => lineOut e.1)) <|
  if op = 0 then .upd (.bmu fun b => { b with
    lines := b.lines.map fun e => if inLines lo n e.1 then (e.1, { e.2 with dirty := false, old := [] }) else e })
  else all [
    when (op == 1) (.seq (each (ls.filter fun e => e.2.dirty) fun e => dropDirty e.1 e.2.old)
      (each (s.bmu.evb.filter fun e => inLines lo n e.line) fun e => dropDirty e.line e.old)),
    .upd (.bmu fun b => { b with
      lines := b.lines.filter fun e => !inLines lo n e.1
      evb := if op = 1 then b.evb.filter fun e => !inLines lo n e.line else b.evb }), evbShow]

/-- Lines of L2 written to DRAM, not checked again (R431), and removed from every cache. The cores share L2 and its class; the write-back goes out under the
first core's master ID (DESIGN CHOICE, assumption log 52). -/
def cmoClean (lo n : Nat) : Prog := .ask fun s => .seq
  (each (s.pcx.l2.filter fun l => l.dirty && decide (lo ≤ l.line ∧ l.line < lo + n)) fun l => dramStore (.app 0) (64 * l.line) l.bytes)
  (.upd (.pcx fun p => { p with l2 := p.l2.map fun l => if lo ≤ l.line ∧ l.line < lo + n then { l with dirty := false } else l }))
def cmoRemove (lo n : Nat) : Prog := .upd (.pcx fun p => { p with
  l2 := p.l2.filter fun l => !decide (lo ≤ l.line ∧ l.line < lo + n)
  l1 := p.l1.filter fun e => !decide (lo ≤ e.2 ∧ e.2 < lo + n) })

/-- Ranges of memory: one more, joined to those it adjoins; whether one holds `lo` to `hi`; those left when it goes. -/
def rangeAdd (lo hi : Nat) (l : List (Nat × Nat)) : List (Nat × Nat) :=
  let near := l.filter fun e => decide (e.1 ≤ hi ∧ lo ≤ e.2)
  l.filter (fun e => !decide (e.1 ≤ hi ∧ lo ≤ e.2)) ++ [(near.foldl (fun m e => min m e.1) lo, near.foldl (fun m e => max m e.2) hi)]
def rangeHas (lo hi : Nat) (l : List (Nat × Nat)) : Bool := l.any fun e => decide (e.1 ≤ lo ∧ hi ≤ e.2)
def rangeDrop (lo hi : Nat) (l : List (Nat × Nat)) : List (Nat × Nat) :=
  (l.flatMap fun e => [(e.1, min e.2 lo), (max e.1 hi, e.2)]).filter fun e => decide (e.1 < e.2)

/-- The free slots, as BMU_SLOT_STAT shows them. -/
def State.slotCount (s : State) : Nat := if s.on BMU_SLOT_CFG.ENABLE 0 then min 1048576 (s.get BMU_SLOT_CFG.COUNT 0) else 0
def State.freeSlots (s : State) : Nat := s.slotCount - s.bmu.used.length
def slotsShow : Prog := .ask fun s => setF BMU_SLOT_STAT.FREE 0 s.freeSlots
def slotsFree (l : List Nat) : Prog := .seq (.upd (.bmu fun b => { b with used := b.used.filter fun k => !l.contains k })) slotsShow

/-- Where a slot's data and its metadata lie (R379). -/
def State.slotAddr (s : State) (k : Nat) : Nat := s.get BMU_SLOT_BASE.ADDR 0 * 4096 + 4096 * k
def State.slotMeta (s : State) (k : Nat) : Nat := s.get BMU_SLOT_BASE.ADDR 0 * 4096 + 4096 * s.slotCount + 8 * k

/-- A namespace entry may use the content cache. -/
def State.cccOn (s : State) (ns : Nat) : Bool := s.on BMU_CCC_CFG.EN 0 && s.bitF BMU_CCC_NS.NS_EN (ns / 32) (ns % 32)
def State.cccFrames (s : State) : Nat := min 8192 (s.get BMU_CCC_CFG.FRAMES 0)
def State.frameAddr (s : State) (f : Nat) : Nat := s.get BMU_CCC_BASE.ADDR 0 * 2 ^ 20 + f * 2 ^ 20

/-- The frame that holds an extent. -/
def State.frameOf (s : State) (ns ext : Nat) : Option (Nat × Frame) := s.bmu.frames.find? fun e => e.2.ns == ns && e.2.ext == ext

/-- The popularity counter of an extent (R388). -/
def popIndex (ns ext : Nat) : Nat := (crc32 (BitVec.ofNat 8 ns :: leBytes 7 ext)).toNat % 65536
def State.popOf (s : State) (ns ext : Nat) : Nat := Sparse.get 0 s.bmu.pop (popIndex ns ext)

/-- A read command raises the counter of each extent it touches (R388). -/
def popRaise (ns : Nat) (exts : List Nat) : Prog := each exts fun e => .upd (.bmu fun b =>
  { b with pop := Sparse.put 0 b.pop (popIndex ns e) (min 255 (Sparse.get 0 b.pop (popIndex ns e) + 1)) })

/-- Change a frame's tag. -/
def setFrame (f : Nat) (g : Frame → Frame) : Prog := .upd (.bmu fun b =>
  { b with frames := b.frames.map fun e => if e.1 == f then (e.1, g e.2) else e })

/-- The clock hand's walk over at most `n` frames from `h`: the frames whose reference bit it clears, and where it stops (R389). -/
def clockWalk (frames : List (Nat × Frame)) (total : Nat) : Nat → Nat → List Nat → Option (List Nat × Nat)
  | 0, _, _ => none
  | n + 1, h, cleared =>
    match frames.find? fun e => e.1 == h with
    | some (_, f) => if f.ref && !cleared.contains h then clockWalk frames total n ((h + 1) % total) (h :: cleared) else some (cleared, h)
    | none => some (cleared, h)

/-- Frame `f` is assigned to an extent, its valid bits cleared (R389). -/
def frameAssign (f ns ext : Nat) : Prog := .seq
  (.upd (.bmu fun b => { b with frames := (b.frames.filter fun e => e.1 != f) ++ [(f, { ns, ext })], fills := b.fills.filter fun e => e.1 != f }))
  (incF BMU_CCC_STAT.ADMIT 0)

/-- Admission of an extent a read took from the medium (R389): a free frame, or the candidate the clock hand stops at. -/
def cccAdmit (ns ext : Nat) : Prog := .ask fun s =>
  when (s.cccOn ns && (s.frameOf ns ext).isNone && decide (s.get BMU_CCC_CFG.ADMIT_THR 0 ≤ s.popOf ns ext) && s.cccFrames != 0)
    (if s.bmu.frames.length < s.cccFrames then
      match (List.range s.cccFrames).find? fun f => !(s.bmu.frames.any fun e => e.1 == f) with
      | some f => frameAssign f ns ext
      | none => .skip
     else match clockWalk s.bmu.frames s.cccFrames (2 * s.cccFrames) (s.bmu.hand % s.cccFrames) [] with
      | none => .skip
      | some (cleared, h) => all [
          each cleared fun f => setFrame f fun x => { x with ref := false },
          .upd (.bmu fun b => { b with hand := h }),
          match s.bmu.frames.find? fun e => e.1 == h with
          | some (_, x) => when (decide (s.popOf x.ns x.ext < s.popOf ns ext)) (frameAssign h ns ext)
          | none => .skip])

/-- An LBA of a frame is served to a read: the reference bit sets, HIT counts in units of 256 (R391). -/
def State.frameHas (s : State) (ns lba : Nat) : Option Nat :=
  match s.frameOf ns (lba / 256) with
  | some (f, x) => if s.cccOn ns && x.valid.contains (lba % 256) then some f else none
  | none => none

/-- Valid bits of a namespace's LBAs clear as newer versions enter (R392). -/
def cccInvalidate (ns : Nat) (hit : Nat → Bool) : Prog := .upd (.bmu fun b => { b with
  frames := b.frames.map fun e => if e.2.ns == ns then (e.1, { e.2 with valid := e.2.valid.filter fun k => !hit (256 * e.2.ext + k) }) else e
  fills := b.fills.filter fun e => !(e.2.1 == ns && hit e.2.2.1) })

/-- Every frame of the namespaces named is invalidated (R392). -/
def cccDrop (ns : Nat → Bool) : Prog := .upd (.bmu fun b =>
  { b with frames := b.frames.filter fun e => !ns e.2.ns, fills := b.fills.filter fun e => !ns e.2.1 })

end Sys2Proof.Machine
end

