-- ==== Sys2Proof/Machine/SvcOps.lean ====
section
/-! DEFINITION. SVC's shared operations: memory instances, leaky buckets, patrol findings, Survey results (chapter 19). -/
namespace Sys2Proof.Machine

/-- The timing domain of a memory instance (Table 19.1). -/
def instDomain (i : Nat) : Nat :=
  if i = 0 then 0 else if i ≤ 0x08 then 5 else if i ≤ 0x0C then 6 + (i - 9) else if i ≤ 0x14 then 6 + (i - 0x0D) / 2
  else if i ≤ 0x1C then 10 else if i ≤ 0x24 then 15 else if i ≤ 0x2C then 16 else if i ≤ 0x2E then 17 else if i ≤ 0x30 then 14
  else if i = 0x31 then 11 else if i = 0x32 then 20 else if i ≤ 0x42 then 32 + (i - 0x33) else if i ≤ 0x4A then 26
  else if i = 0x4B then 27 else if i = 0x4C then 29 else if i = 0x4D then 18 else 31

/-- The size of an SRAM instance in KiB (Table 19.1). -/
def instKiB (i : Nat) : Nat :=
  if i = 0 then 8 else if i ≤ 0x0C then 256 else if i ≤ 0x14 then 64 else if i ≤ 0x1C then 256 else if i ≤ 0x2C then 1024
  else if i = 0x2D then 64 else if i = 0x2E then 256 else if i ≤ 0x30 then 512 else if i = 0x31 then 8 else if i = 0x32 then 256
  else if i ≤ 0x42 then 64 else if i ≤ 0x4A then 16 else if i = 0x4B then 64 else if i = 0x4C then 8 else if i = 0x4D then 32 else 16

/-- SRAM instances, and rows of 256 bytes in one (R513). -/
def sramInstances : Nat := 0x4F
def instRows (i : Nat) : Nat := 4 * instKiB i

/-- An instance is powered: its island, or its clocked domain. -/
def State.instOn (s : State) (i : Nat) : Bool :=
  if instDomain i < 32 then s.islandOn (instDomain i) else s.domainOn (instDomain i)

/-- Background work of SVC runs: not before FETCH_EN, in RETENTION or in journal mode (R518, R522). -/
def State.svcRuns (s : State) : Bool := s.on PTM_BOOT_STAT.FETCH_EN 0 && !s.ptm.retention && decide (s.ptm.plStep < 5)

/-- The bucket source of an instance (Table 20.1). -/
def bucketSource (i : Nat) : Nat := if i < 0x4F then 32 + i else if i = 0xF0 then 116 else 112 + i % 4

/-- The DRAM channel's instance; the eMRAM's. -/
def dramInst (ch : Nat) : Nat := 0xE0 + ch
def emramInst : Nat := 0xF0

/-- One correction in an instance, in an SRAM row that Survey has not recorded as failed (R517). -/
def bucketCorrect (i : Nat) (row : Option Nat) : Prog := .ask fun s =>
  let skip := match row with
    | some r => s.svc.failedRows.contains (i, r)
    | none => false
  when (s.on SVC_LB_CFG.EN i && !skip) (
    let c := min 255 (s.get SVC_LB_STAT.COUNT i + 1)
    all [setF SVC_LB_STAT.COUNT i c, setF SVC_LB_STAT.PEAK i (max (s.get SVC_LB_STAT.PEAK i) c),
      when (decide (max 1 (s.get SVC_LB_CFG.THR i) ≤ c) && !s.on SVC_LB_STAT.OVF i) (all [
        setF SVC_LB_STAT.OVF i 1, setBitF SVC_LB_PEND.PEND (i / 32) (i % 32) true, raise (bucketSource i) (detail i)])])

/-- A poisoned half. -/
def poisonHalf (h : Nat) : Prog := .upd (.bmu fun b => { b with poison := if b.poison.contains h then b.poison else h :: b.poison })

/-- One half of a line as a read of DRAM finds it: counted when corrected (R363), marked when uncorrectable (R364). A half that carries the
poison pattern is uncorrectable. -/
def State.halfOf (s : State) (h : Nat) (o : Half) : Half := if s.bmu.poison.contains h then .uncorrectable else o
def halfCorrected (h : Nat) : Prog := .ask fun s =>
  .seq (incF BMU_STAT.CE_CNT 0) (bucketCorrect (dramInst (s.channelOf (32 * h))) none)

/-- An uncorrectable half is delivered to master `m` (R364). -/
def ueReport (m : Master) (typ size a : Nat) : Prog := .seq (setF BMU_STAT.UE 0 1) (raise 24 (accessCap m typ size (a / 64 * 64)))
def ueDelivered (m : Master) (typ size a : Nat) : Prog := .seq (poisonHalf (a / 32)) (ueReport m typ size a)

/-- The next row for Survey from (instance, row) on: the row itself if its instance takes part, else the first row of the next one that does
(R522); none if no instance does. -/
def State.svyTakes (s : State) (i : Nat) : Bool := s.bitF SVC_SVY_EN.EN (i / 32) (i % 32) && s.instOn i
def State.svyNext (s : State) (i r : Nat) : Option (Nat × Nat) :=
  if i < sramInstances ∧ r < instRows i ∧ s.svyTakes i then some (i, r)
  else match (List.range sramInstances).find? fun k => decide (i < k) && s.svyTakes k with
    | some k => some (k, 0)
    | none => ((List.range sramInstances).find? fun k => s.svyTakes k).map fun k => (k, 0)

/-- The row of the slice in progress. -/
def State.svyRow (s : State) : Nat × Nat := if s.svc.full then (s.svc.fInst, s.svc.fRow) else (s.svc.svyInst, s.svc.svyRow)

/-- The last row of a full test: no later instance takes part. -/
def State.svyLast (s : State) (i r : Nat) : Bool :=
  decide (instRows i ≤ r + 1) && !((List.range sramInstances).any fun k => decide (i < k) && s.svyTakes k)

/-- Periodic slices are off and none runs: STATE is STOPPED (Table 19.4). -/
def svyStopped : Prog := whenS (fun s => !s.on SVC_SVY_CFG.EN 0 && !s.svc.full && !s.svc.locked) (setF SVC_SVY_STAT.STATE 0 0)

/-- The slice's row is done with; a full test ends after its last row (R529, R530). -/
def svyAdvance : Prog := .ask fun s =>
  let (i, r) := s.svyRow
  if s.svc.full then
    if s.svyLast i r then all [
      .upd (.svc fun x => { x with full := false, fInst := 0, fRow := 0, abandons := 0 }),
      setF SVC_SVY_STAT.FULL_DONE 0 1, setF SVC_SVY_STAT.SHUT_ARM 0 0, setF SVC_SVY_STAT.STATE 0 s.svc.prevState, svyStopped]
    else .upd (.svc fun x => { x with fRow := r + 1, abandons := 0 })
  else .upd (.svc fun x => { x with svyRow := r + 1, abandons := 0 })

/-- A full test starts (R529): back to back slices from the first row on. -/
def svyFullStart : Prog := .ask fun s => when (!s.svc.full) (all [
  .upd (.svc fun x => { x with full := true, fInst := 0, fRow := 0, abandons := 0, prevState := s.get SVC_SVY_STAT.STATE 0 }),
  setF SVC_SVY_STAT.STATE 0 2])

/-- Caches, whose failing rows hardware takes out of use; TCMs, whose owner must (R527). -/
def instIsCache (i : Nat) : Bool := decide (0x0D ≤ i ∧ i ≤ 0x2D)
def instIsTcm (i : Nat) : Bool := decide (1 ≤ i ∧ i ≤ 0x0C)

/-- The lines of a failing row of a buffer-cache way are written back, invalidated and excluded from allocation (R527). -/
def wayRowOff (w r : Nat) : Prog := .ask fun s => .seq
  (each (s.bmu.lines.filter fun e => e.2.way == w && cacheSet e.1 / 4 == r && e.2.dirty) fun e => lineOut e.1)
  (.upd (.bmu fun b => { b with lines := b.lines.filter fun e => !(e.2.way == w && cacheSet e.1 / 4 == r), excluded := (w, r) :: b.excluded }))

/-- The lines of a failing row of any cache are written back if dirty and invalidated; the buffer cache and the check cache allocate without it (R527). -/
def cacheRowOff (i r : Nat) (lines : List Nat) : Prog :=
  if 0x1D ≤ i ∧ i ≤ 0x2C then wayRowOff (i - 0x1D) r
  else if i = 0x2D then .upd (.bmu fun b => { b with checkOff := r :: b.checkOff }.checkTrim)
  else when (decide (0x0D ≤ i ∧ i ≤ 0x1C)) (each lines fun l => .seq (when (decide (0x15 ≤ i)) (cmoClean l 1)) (.upd (.pcx fun p => { p with
    l2 := if 0x15 ≤ i then p.l2.filter fun e => e.line != l else p.l2
    l1 := p.l1.filter fun e => !(e == ((i - 0x0D) / 2, l)) })))

/-- A result record, and the treatment of its row (R526, R527); a row that failed before is not counted again (Table 19.6). -/
def svyRecord (i r : Nat) (f : RowFail) : Prog := .ask fun s =>
  let k := s.get SVC_SVY_STAT.RES_WR 0
  let known := s.svc.failedRows.contains (i, r)
  let spare := decide (s.get SVC_INST_STAT.FAILED_ROWS i + b2n (!known) ≤ s.get SVC_INST_STAT.SPARE_FREE i)
  let bad := !instIsCache i && !instIsTcm i && f.kind != 0
  let w0 := i <<< 24 ||| (256 * r + f.off)
  let w1 := f.kind.val <<< 28 ||| f.bit.val <<< 24 ||| f.step.val <<< 16 ||| r
  let w3 := b2n spare <<< 31 ||| b2n (instIsCache i) <<< 30 ||| b2n (instIsTcm i) <<< 29
  all [when (s.svc.unread.contains k) (setF SVC_SVY_STAT.RES_OVF 0 1),
    setF SVC_SVY_RES.W (4 * k) w0, setF SVC_SVY_RES.W (4 * k + 1) w1, setF SVC_SVY_RES.W (4 * k + 2) s.timeLo, setF SVC_SVY_RES.W (4 * k + 3) w3,
    setF SVC_SVY_STAT.RES_WR 0 ((k + 1) % 64),
    .upd (.svc fun x => { x with unread := k :: x.unread.filter (· != k), failedRows := if known then x.failedRows else (i, r) :: x.failedRows }),
    when (spare && !s.kpr.repairTable.contains (i, r)) (.upd (.kpr fun x => { x with repairTable := if x.repairTable.length < 256 then x.repairTable ++ [(i, r)] else x.repairTable })),
    when (!known) (incF SVC_INST_STAT.FAILED_ROWS i), setF SVC_INST_STAT.HEALTH i (if bad || s.get SVC_INST_STAT.HEALTH i == 3 then 3 else 2),
    cacheRowOff i r (f.lines.map BitVec.toNat),
    when bad (raise 25 { mid := Master.svc.id, typ := 15, size := 15, addr := w0 }),
    raise 27 (detail w0), almEvent bSVC kFault "Survey result" [w0, w1, w3]]

end Sys2Proof.Machine
end

