-- ==== Sys2Proof/Machine/Trans.lean ====
section
/-! DEFINITION. PTM's sequencer: mode requests, the transitions of Table 18.3 and what each still waits for (R494 to R497, R500, R501). -/
namespace Sys2Proof.Machine

/-- Protocol of the host ports (HIF_CFG.PROTO): PCIe or SAS. -/
def State.isSas (s : State) : Bool := s.get HIF_CFG.PROTO 0 == 2

/-- Controller or port `q` of the host interface. -/
def State.port (s : State) (q : Nat) : Port := Sparse.get {} s.hif.ports q
def setPort (q : Nat) (f : Port → Port) : Prog :=
  .upd (.hif fun x => { x with ports := Sparse.put {} x.ports q (f (Sparse.get {} x.ports q)) })

/-- Each PCIe port is in L2 or has PERST# asserted; both SAS ports are disabled (R501 step 1). -/
def State.hostQuiet (s : State) : Bool :=
  ([0, 1] : List Nat).all fun q => if s.isSas then s.on HIF_PORT_CTL.DISABLE q else (s.port q).l2 || (s.port q).perst

/-- Acknowledged units not yet on the medium (BMU_BUDGET.USED). -/
def State.budgetUsed (s : State) : Nat := s.get BMU_BUDGET.USED 0

/-- A held command waits for the medium, or a write still has to enter the budget. -/
def State.mediaWaiting (s : State) : Bool :=
  s.cqe.cmds.any fun c => !c.handed && c.lbas.any fun e => e.st == 1

/-- The cause of the safe state persists (R506). -/
def State.causePersists (s : State) : Bool :=
  !s.cwIsUp || decide (s.twarn - 5 < s.tjMax) || (List.range 4).all (fun c => s.get PCX_CORE_STAT.STATE c != 1) ||
    (s.get PTM_MODE_STAT.SAFE_CAUSE 0 == 2 && !s.on FCU_SELF.RELOADED 0)

/-- Table 18.3 contains the transition from the mode in force. -/
def State.transListed (s : State) (r : ModeReq) : Bool :=
  let m := s.mode
  let running := m == mActive || m == mIdle
  if r.mode = mActive then m == mIdle || m == mStandby || m == mService && s.on SVE_CMAP_CFG.ENABLE 0 || m == mRecovery && !s.causePersists
  else if r.mode = mIdle then r.ilvl != 0 && (running || m == mStandby)
  else if r.mode = mStandby then if r.ret then m == mStandby && s.budgetUsed == 0 && s.hostQuiet else running
  else r.mode == mService && s.normalService

/-- A GO is accepted (R496). -/
def State.transOk (s : State) (r : ModeReq) : Bool := !s.on PTM_MODE_STAT.TRANS 0 && !s.safe && !s.inPowerLoss && s.transListed r

/-- Actuators with a usable slot. -/
def State.usableActs (s : State) : List Nat := allActs.filter fun a => (s.lowestUsable a).isSome

/-- The spindle is driven or on its way up. -/
def State.spindleUp (s : State) : Bool := !([spOff, spBrake, spShort, spHanded].contains (s.spn? ))

/-- Start, speed and stop of the spindle for a transition; the speed before IDLE I3 is kept to be restored (Table 18.3, R241). -/
def speedFor (r : ModeReq) : Prog := .ask fun s =>
  if r.mode = mIdle ∧ r.ilvl = 3 then all [
    when (s.ptm.wasIdle != 3) (.upd (.ptm fun p => { p with savedSpd := s.get SPN_CTL.SPD_SET 0, wasIdle := 3 })), spnSpdSet 5400]
  else when (s.ptm.wasIdle == 3 && r.mode != mStandby && r.mode != mService)
    (.seq (spnSpdSet s.ptm.savedSpd) (.upd (.ptm fun p => { p with wasIdle := 0 })))

/-- What a transition begins with (Table 18.3). -/
def transActions (r : ModeReq) : Prog := .ask fun s =>
  let toLoad := r.mode == mActive && (s.mode == mIdle || s.mode == mStandby) || r.mode == mIdle && r.ilvl == 1
  let fromStandby := s.mode == mStandby && (r.mode == mActive || r.mode == mIdle)
  all [
    when (r.mode == mIdle || r.mode == mStandby) endPasses,
    when (r.mode == mIdle && 2 ≤ r.ilvl) unloadAll,
    when fromStandby (.ask fun t => when (!t.spindleUp) spnStart),
    speedFor r,
    when (toLoad && !s.ptm.vpre) (setVpre true),
    when toLoad (.upd (.ptm fun p => { p with loads := s.usableActs.filter fun a => !s.loaded a })),
    when (r.mode == mStandby && r.ret) (.seq splLeave (.upd (.ptm fun p => { p with seqStep := 2 })))]

/-- A transition starts. -/
def transStart (r : ModeReq) : Prog := .seq
  (.seq (setF PTM_MODE_STAT.TRANS 0 1) (.upd (.ptm fun p => { p with target := some r, seqStep := 0, loads := [] }))) (transActions r)

/-- A GO (R496): carried out, or discarded with ERR. -/
def modeRequest (r : ModeReq) : Prog := .ask fun s => if s.transOk r then transStart r else setF PTM_MODE_CTL.ERR 0 1

/-- A write of PTM_MODE_CTL with GO = 1, the Keeper's only (Table 18.13). -/
def modeWrite (m : Master) (r : ModeReq) : Prog := keeperOnly m .PTM_MODE_CTL 0 (all [
  setF PTM_MODE_CTL.REQ_MODE 0 r.mode, setF PTM_MODE_CTL.REQ_ILVL 0 r.ilvl, setF PTM_MODE_CTL.RET 0 (b2n r.ret), modeRequest r])

/-- Media work is dispatched: in IDLE or STANDBY it sets WAKE, and the sequencer moves to ACTIVE (R495). -/
def mediaWake : Prog := .ask fun s => when ((s.mode == mIdle || s.mode == mStandby) && !s.ptm.retention) (.seq
  (setF PTM_MODE_STAT.WAKE 0 1) (if s.transOk { mode := mActive, ilvl := 0, ret := false } then transStart { mode := mActive, ilvl := 0, ret := false }
    else .upd (.ptm fun p => { p with wakeDue := true })))

/-- Issuers may send media work (R495). -/
def State.mediaMode (s : State) : Bool :=
  s.mode == mActive || s.mode == mService || (s.mode == mRecovery && s.on PTM_MODE_STAT.MEDIA_EN 0)

/-- The head paths' power in a mode (R113): one in SERVO per actuator in IDLE I1, and per loaded one in BOOT and RECOVERY; none in IDLE I2, I3 and
STANDBY; ACTIVE and SERVICE leave them as they are. -/
def pathPower (servo : State → Nat → Bool) : Prog := .ask fun s => each (List.range 16) fun p =>
  let st := if servo s (p / 4) && s.lowestUsable (p / 4) == some p then pwServo else pwOff
  when (s.hpPwr p != st) (setPwr p st)
def modePower (m ilvl : Nat) : Prog :=
  if m = mIdle ∧ ilvl = 1 then pathPower fun _ _ => true
  else if m = mIdle ∨ m = mStandby then pathPower fun _ _ => false
  else if m = mRecovery then pathPower State.loaded
  else .skip

/-- The sequencer issues the loads that are due: at speed, the preamp link up (R106, R209). -/
def seqLoads : Prog := .ask fun s => when (s.on SPN_STAT.AT_SPEED 0) (each
  (s.ptm.loads.filter fun a => s.palUp a && s.get SVE_SEEK_STAT.STATE a == skUnloaded) fun a => all [
    match s.lowestUsable a with
      | some p => when (s.hpPwr p == pwOff) (setPwr p pwServo)
      | none => .skip,
    setF SVE_SEEK_STAT.ERR a 0, setF SVE_SEEK_STAT.WEDGES a 0, setSeek a fun k => { k with tries := 0 }, loadDrive a,
    .upd (.ptm fun p => { p with loads := p.loads.filter (· != a) })])

/-- VCORE and VDDQ, which RETENTION turned off, are in regulation again (R470, R501 step 6). -/
def coreRailsUp : Prog := .seq (setBitF PWR_STAT.RAIL_OK 0 0 true) (setBitF PWR_STAT.RAIL_OK 0 3 true)

/-- A wake from RETENTION (R502): a warm chip reset with DRAM kept; Meridian time is reloaded from the always-on counters, by a value that is free but
never before the count that stopped (R41; assumption log 3); the source is recorded. -/
def wakeReset (src : Nat) : Prog := .ask fun s => all [chipReset true true, coreRailsUp, pwrgdShow,
  fresh fun k => setF PTM_MER_TIME.TIME 0 ((s.time + k % 2 ^ 40) % 2 ^ 64), setF PTM_MODE_STAT.LAST_WAKE 0 src]

/-- RETENTION is entered (R500, R501 step 6): only domain 0 stays powered, the content-cache tags are lost; a wake source sampled
meanwhile acts. -/
def retentionEnter : Prog := all [
  sliceDrop, endTransition, .upd (.ptm fun p => { p with retention := true, seqStep := 0, vpre := false }),
  setF PTM_ISL_PWR.ON 0 1, setF PTM_DOM_PWR.ON 0 0, setF PTM_CW_STAT.LINK 0 cwDown, setBitF PWR_STAT.RAIL_OK 0 0 false, setBitF PWR_STAT.RAIL_OK 0 3 false, pwrgdShow,
  .upd (.bmu fun b => { b with frames := [], pop := [], fills := [], lines := [], evb := [] }),
  .ask fun s => when (s.ptm.wakePend != 0) (wakeReset s.ptm.wakePend)]

/-- The steps of R501 that are due: the leave is over, the cache is disabled, DRAM in self-refresh, then RELEASE goes out. -/
def seqRetention : Prog := .ask fun s =>
  if s.ptm.seqStep = 2 then when (s.spl.leaveFrames == 0) (all [
    setF BMU_CC_CTL.ENABLE 0 0, when (s.ccState == ccEnabled || s.ccState == ccEnabling) (setF BMU_CC_CTL.STATE 0 ccCleaning),
    .upd (.ptm fun p => { p with seqStep := 3 })])
  else if s.ptm.seqStep = 3 then when (s.ccState == ccDisabled) (.seq
    (emit (.event "self-refresh request" [])) (.upd (.ptm fun p => { p with seqStep := 4 })))
  else when (s.ptm.seqStep == 4 && s.on BMU_STAT.SR 0) (.seq (cwSend "RELEASE" 0x05 0 [])
    (.upd (.ptm fun p => { p with seqStep := 5, releaseAt := p.ticks })))

/-- Arms down, VPRE off. -/
def seqParked : Prog := .ask fun s => when (s.get SVE_TRK_STAT.LOADED 0 == 0 && s.ptm.vpre) (setVpre false)

/-- STANDBY: destage first, then unload, then stop the spindle, then an armed shutdown test (Table 18.3, R530). -/
def seqStandby : Prog := .ask fun s =>
  if s.budgetUsed ≠ 0 then .skip
  else if s.get SVE_TRK_STAT.LOADED 0 ≠ 0 then unloadAll
  else all [seqParked, when s.spindleUp spnStop,
    .ask fun t => when (t.spn? == spOff && t.on SVC_SVY_STAT.SHUT_ARM 0) svyFullStart]

/-- The sequencer at a tick: what its transition can do now (R496). -/
def transTick : Prog := .ask fun s =>
  match s.ptm.target with
  | none => .skip
  | some r =>
    if s.safe ∨ s.inPowerLoss then .skip
    else if r.mode = mStandby then (if r.ret then seqRetention else seqStandby)
    else if r.mode = mIdle ∧ 2 ≤ r.ilvl then seqParked
    else seqLoads

/-- Actuators with a usable slot are loaded, or their load has failed. -/
def State.loadsOver (s : State) : Bool :=
  s.ptm.loads.isEmpty && s.usableActs.all fun a => s.loaded a || (s.get SVE_SEEK_STAT.STATE a == skUnloaded && s.get SVE_SEEK_STAT.ERR a == 8)

/-- The transition's actions are complete. -/
def State.transDone (s : State) (r : ModeReq) : Bool :=
  let fromParked := s.mode == mIdle || s.mode == mStandby
  if s.safe then false
  else if r.mode = mActive then !fromParked || (s.on SPN_STAT.AT_SPEED 0 && s.loadsOver)
  else if r.mode = mIdle ∧ r.ilvl = 1 then s.sve.pass.isEmpty && s.on SPN_STAT.AT_SPEED 0 && s.loadsOver
  else if r.mode = mIdle then s.get SVE_TRK_STAT.LOADED 0 == 0 && !s.ptm.vpre && s.on SPN_STAT.AT_SPEED 0
  else if r.mode = mStandby then !r.ret && s.budgetUsed == 0 && s.get SVE_TRK_STAT.LOADED 0 == 0 && !s.ptm.vpre && s.spn? == spOff &&
    !s.on SVC_SVY_STAT.SHUT_ARM 0
  else !s.cqe.cmds.any fun c => !c.adm

/-- The transition ends in its target mode (R496); work that waits for the medium wakes IDLE and STANDBY again (R495). -/
def transFinish (r : ModeReq) : Prog := all [
  endTransition, setMode r.mode r.ilvl, modePower r.mode r.ilvl,
  .ask fun s => .seq (.upd (.ptm fun p => { p with wakeDue := false })) (when (s.ptm.wakeDue || s.mediaWaiting) mediaWake)]

end Sys2Proof.Machine
end

