-- ==== Sys2Proof/Machine/CqeOps.lean ====
section
/-! DEFINITION. CQE's shared operations: namespaces and rows, held commands, fetch, overlap and the versioned buffer, completion, hand-off,
abort and reset (chapter 12; R311 to R313, R317, R382, R383). -/
namespace Sys2Proof.Machine

/-- Kinds of command (Table 12.11). -/
def kdRead : Nat := 0
def kdWrite : Nat := 1
def kdFlush : Nat := 2
def kdZeroes : Nat := 3
def kdZone : Nat := 4
def kdAppend : Nat := 5
def kdAdmin : Nat := 6
def kdVendor : Nat := 7
def kdSas : Nat := 8
def kdDestage : Nat := 9

/-- Entry `n` is VALID and serves controller `q`; on SAS only without protection information (R314, R349). -/
def State.nsServes (s : State) (n q : Nat) : Bool :=
  decide (n < 128) && s.get CQE_NS_CFG.STATE n == 1 && s.bitF CQE_NS_CFG.ATT n q && (!s.isSas || s.get CQE_NS_CFG.PIT n == 0)

/-- The state of the entry's key slot: 0 EMPTY, 1 LOCKED, 2 READY (Table 10.11). -/
def State.keyState (s : State) (k : Nat) : Nat := s.get MPC_KEY_STAT.STATE k

/-- Protection information of the namespace: LBA format 1 (R298, R310). -/
def State.nsHasPi (s : State) (n : Nat) : Bool := s.on CQE_NS_CFG.LBAF n

/-- A held command, and changes to it. -/
def State.cmd (s : State) (t : Nat) : Option Cmd := s.cqe.cmds.find? fun c => c.ctag == t
def setCmd (t : Nat) (f : Cmd → Cmd) : Prog := .upd (.cqe fun x => { x with cmds := x.cmds.map fun c => if c.ctag == t then f c else c })

/-- Writes: Write, Write Zeroes and Zone Append, whose data arrives (R326). -/
def Cmd.writes (c : Cmd) : Bool := c.kind == kdWrite || c.kind == kdZeroes || c.kind == kdAppend
def Cmd.io (c : Cmd) : Bool := !c.adm && c.kind != kdDestage
def Cmd.covers (c : Cmd) (n lba : Nat) : Bool := c.ns == some n && decide (c.lba ≤ lba ∧ lba < c.lba + c.n)

/-- The namespace of a row is in group `g`. -/
def State.rowInGroup (s : State) (g row : Nat) : Bool := match s.nsOfRow row with
  | some n => s.get CQE_NS_CFG.GROUP n == g
  | none => false

/-- Internal ranges of group `g` apart from reconstruction contexts: rows registered by track, rebuilt members that wait for their write (R63, R75,
R278, R325). -/
def State.innerUsed (s : State) (g : Nat) : Nat := (s.cqe.inner.countP fun t => s.rowInGroup g (s.trackRow t)) + s.cqe.rebuilt.countP fun e => s.rowInGroup g e.1

/-- A row is locked by an internal operation: an open context (R293), a rebuild, a copy (R63, R75). -/
def State.rowLocked (s : State) (g : Nat) : Bool :=
  s.mpc.ctxs.any (fun e => e.2.row == g) || s.cqe.inner.contains (s.rowTrack g) || s.cqe.rebuilt.any fun e => e.1 == g

/-- The counts of held commands and host ranges (Tables 12.3, 12.13), and the internal ranges (R293, R325). -/
def cqeShow : Prog := .ask fun s => all [
  when (s.get CQE_STAT.IO_OUT 0 == 0 && s.cqe.cmds.any Cmd.io) (.upd (.ptm fun p => { p with led0 := true, led0At := p.ticks })),
  setF CQE_STAT.IO_OUT 0 (s.cqe.cmds.countP Cmd.io), setF CQE_STAT.ADM_OUT 0 (s.cqe.cmds.countP Cmd.adm),
  each (List.range 4) fun g => .seq
    (setF CQE_OVL_STAT.HOST g (s.cqe.cmds.countP fun c => c.io && match c.ns with
      | some n => s.get CQE_NS_CFG.GROUP n == g
      | none => false))
    (setF CQE_OVL_STAT.INT g ((s.mpc.ctxs.countP fun e => s.rowInGroup g e.2.row) + s.innerUsed g))]

/-- CQE_STAT.STATE follows FETCH_HOLD and activation (Table 12.13). -/
def cqeState : Prog := .ask fun s => setF CQE_STAT.STATE 0
  (if s.cqe.activating then 2 else b2n (s.on CQE_CFG.FETCH_HOLD 0))

/-- Fetch goes on, and for a port (R317, R343, R494, R498, R504, R508). -/
def State.fetching (s : State) : Bool :=
  s.on PTM_BOOT_STAT.FETCH_EN 0 && !s.on CQE_CFG.FETCH_HOLD 0 && !s.cqe.activating && !s.safe && !s.inPowerLoss && !s.ptm.retention &&
    s.mode != mRecovery
def State.portUp (s : State) (q : Nat) : Bool := s.get HIF_PORT_STAT.LINK q == 2 || s.get HIF_PORT_STAT.LINK q == 3
def State.portFetches (s : State) (q : Nat) : Bool :=
  let p := s.port q
  s.portUp q && (s.isSas || p.en && p.rdy && !p.resetting && p.shn.isNone && !p.abrupt)

/-- I/O queues are not fetched in SERVICE, nor on the way there (Table 18.3). -/
def State.ioFetches (s : State) : Bool := s.mode != mService && (s.ptm.target.map fun r => r.mode) != some mService

/-- A submission queue and a completion queue of a controller. -/
def Port.sq (p : Port) (i : Nat) : Option SubQ := p.sqs.find? fun x => x.id == i
def Port.cq (p : Port) (i : Nat) : Option ComQ := p.cqs.find? fun x => x.id == i
def setSq (q i : Nat) (f : SubQ → SubQ) : Prog := setPort q fun p => { p with sqs := p.sqs.map fun x => if x.id == i then f x else x }
def setCq (q i : Nat) (f : ComQ → ComQ) : Prog := setPort q fun p => { p with cqs := p.cqs.map fun x => if x.id == i then f x else x }

/-- Entries of a completion queue that the host has not freed; a full queue. -/
def ComQ.used (c : ComQ) : Nat := (c.tail + c.size - c.head) % max 1 c.size
def ComQ.full (c : ComQ) : Bool := decide (c.size ≤ c.used + 1) || !c.held.isEmpty

/-- The submission queue has an entry, and its completion queue room (R313, R322). -/
def State.sqReady (s : State) (q i : Nat) : Bool :=
  match (s.port q).sq i with
  | some x => x.head != x.tail && !x.deleting && (match (s.port q).cq x.cq with
      | some c => !c.full
      | none => false)
  | none => false

/-- An admin or an I/O entry of an NVMe queue could be fetched now (R322). -/
def State.nvmeMay (s : State) (q i : Nat) : Bool :=
  !s.isSas && s.fetching && s.portFetches q && s.sqReady q i &&
    (if i = 0 then decide (s.cqe.cmds.countP (fun c => c.adm && c.port == q) < 16)
     else s.ioFetches && decide (s.cqe.cmds.countP Cmd.io < 4064))

/-- A controller has something to fetch. -/
def State.sideHas (s : State) (q : Nat) : Bool := (s.port q).sqs.any fun x => s.nvmeMay q x.id

/-- Class of a submission queue under the arbitration that the host has selected: one class in round robin; in weighted round robin 0 urgent, 1 high,
2 medium, 3 low. Weights and burst are fields of the Arbitration feature (R309, R323; NVMe Base's places and meanings, assumption log 30). -/
def Port.cls (p : Port) (x : SubQ) : Nat := if p.wrr then x.prio else 0
def Port.weight (p : Port) (c : Nat) : Nat := p.feature 0x01 0 / 2 ^ (24 - 8 * (c - 1)) % 2 ^ 8 + 1
def Port.burstMax (p : Port) : Nat := if p.feature 0x01 0 % 8 = 7 then 4096 else 2 ^ (p.feature 0x01 0 % 8)

/-- The class served next among those with something to fetch: urgent ahead of the weighted ones, of which the highest with credit left, or the highest
as a new round begins. -/
def Port.arbClass (p : Port) (cs : List Nat) : Nat :=
  if cs.contains 0 then 0 else (([1, 2, 3] : List Nat).find? fun c => cs.contains c && 0 < p.credit.getD (c - 1) 0).getD ((([1, 2, 3] : List Nat).find? cs.contains).getD 0)

/-- The queue that a controller's arbitration serves next: the admin queue first, then round robin within the class, a queue keeping its turn for the
arbitration burst (R323). -/
def State.arbNext (s : State) (q : Nat) : Option Nat :=
  let p := s.port q
  let ready := p.sqs.filter fun x => x.id != 0 && s.nvmeMay q x.id
  let c := p.arbClass (ready.map p.cls)
  let ids := ((ready.filter fun x => p.cls x == c).map (·.id)).mergeSort
  if s.nvmeMay q 0 then some 0
  else if 0 < p.burst ∧ ids.contains p.arbQ then some p.arbQ
  else (ids.find? fun i => decide (p.arbLast.getD c 0 < i)).or ids.head?

/-- The queue's turn is taken: burst and credit run down, and the next step of arbitration is the other side's (R323). -/
def arbTaken (q i : Nat) : Prog := .ask fun s =>
  let p := s.port q
  let c := ((p.sq i).map p.cls).getD 0
  let credit := if c = 0 ∨ 0 < p.credit.getD (c - 1) 0 then p.credit else [p.weight 1, p.weight 2, p.weight 3]
  .seq (when (i != 0) (setPort q fun x => { x with
      arbLast := x.arbLast.set c i, arbQ := i, burst := (if x.arbQ = i ∧ 0 < x.burst then x.burst else x.burstMax) - 1
      credit := if c = 0 then credit else credit.set (c - 1) (credit.getD (c - 1) 0 - 1) }))
    (.upd (.cqe fun x => { x with side := 1 - q }))

/-- CQE fetches up to 8 commands per tick (R323). -/
def State.fetchRoom (s : State) : Bool := s.cqe.fetched.1 != s.time || decide (s.cqe.fetched.2 < 8)

/-- Entry `i` of controller `q` is the one that CQE fetches next: the controllers take turns, and one with nothing to fetch yields (R322, R323). -/
def State.nvmeFetch (s : State) (q i : Nat) : Bool :=
  s.nvmeMay q i && s.fetchRoom && s.arbNext q == some i && (s.cqe.side == q || !s.sideHas (1 - q))

/-- ORDERED is a barrier on its logical unit (R323). -/
def State.sasBarrier (s : State) (lun : Nat) (ordered : Bool) : Bool :=
  (ordered && s.cqe.cmds.any fun c => c.lun == lun) || s.cqe.cmds.any fun c => c.ordered && c.lun == lun
def State.sasFetch (s : State) (q lun : Nat) (ordered : Bool) : Bool :=
  s.isSas && s.fetching && s.portFetches q && s.ioFetches && s.fetchRoom && decide (s.cqe.cmds.countP Cmd.io < 4064) && !s.sasBarrier lun ordered

/-- A free internal tag, the first from a free value on (R322; assumption log 31). -/
def State.freeTag (s : State) (v : Nat) : Nat :=
  ((List.range 4096).find? fun k => !(s.cqe.cmds.any fun c => c.ctag == (v + k) % 4096)).elim 0 fun k => (v + k) % 4096

/-- A command is fetched: its sequence number and tag (R322, R324); `p` goes on with the tag. -/
def fetchCmd (c : Cmd) (p : Nat → Prog) : Prog := fresh fun v => .ask fun s =>
  let t := s.freeTag v
  all [
    .upd (.cqe fun x => { x with nextSeq := (x.nextSeq + 1) % 2 ^ 32, cmds := x.cmds ++ [{ c with ctag := t, seq := x.nextSeq, time := s.time }],
                                  fetched := (s.time, (if x.fetched.1 = s.time then x.fetched.2 else 0) + 1) }),
    when (!s.isSas) (.seq (arbTaken c.port c.sqid) (setSq c.port c.sqid fun x => { x with head := (x.head + 1) % max 1 x.size })),
    cqeShow, p t]

/-- Is a version, or a write, older in fetch order. -/
def older (a b : Nat) : Bool := newer (2 ^ 32) b a

/-- Versions of an LBA, and one that a newer version of its LBA follows. -/
def State.verNewer (s : State) (v : Ver) (ok : Ver → Bool) : Bool :=
  s.cqe.overlay.any fun w => w.ns == v.ns && w.lba == v.lba && older v.seq w.seq && ok w

/-- A version is power-safe (chapter 12). -/
def Ver.safe (v : Ver) : Bool := v.inBudget || v.medium
def State.verSafe (s : State) (v : Ver) : Bool := v.safe || s.verNewer v Ver.safe

/-- Coalescing of a completion queue's interrupts (features 0x08 and 0x09 of NVMe Base; assumption log 30): its threshold, and whether
its vector takes part. -/
def Port.coalesce (p : Port) (c : ComQ) : Option Nat :=
  let f := p.feature 0x08 0
  if c.id = 0 ∨ f / 256 % 256 = 0 ∨ nbit (p.feature (0x10000 * c.vector + 0x09) 0) 16 then none else some (f % 256 + 1)
/-- Its aggregation time, in units of 100 µs (R312), in ticks. -/
def Port.coalesceTime (p : Port) : Nat := 800 * (p.feature 0x08 0 / 256 % 256)

/-- The interrupt message of a completion queue (R312, R313). -/
def cqInterrupt (q i : Nat) : Prog := .ask fun s => .seq
  (match (s.port q).cq i with
    | some c => when c.ien (send "HL" "interrupt" [q, c.vector])
    | none => .skip)
  (setCq q i fun c => { c with coalesced := 0 })

/-- A completion entry is written to host memory, then announced; an error status is never delayed (R312, R313). -/
def cqPost (q i : Nat) (o : Out) (err : Bool) : Prog := .ask fun s =>
  match (s.port q).cq i with
  | none => .skip
  | some c => all [
      emit o,
      setCq q i fun c => { c with
        tail := (c.tail + 1) % max 1 c.size, phase := if (c.tail + 1) % max 1 c.size = 0 then !c.phase else c.phase, coalesced := c.coalesced + 1
        heldAt := if c.coalesced = 0 then s.ptm.ticks else c.heldAt },
      match (s.port q).coalesce c with
        | some n => when (err || decide (n ≤ c.coalesced + 1)) (cqInterrupt q i)
        | none => cqInterrupt q i]

/-- A completion for a completion queue: a full one holds it in the part (R313). -/
def cqSend (q i : Nat) (o : Out) (err : Bool) : Prog := .ask fun s =>
  match (s.port q).cq i with
  | some c => if c.full then setCq q i fun x => { x with held := x.held ++ [o] } else cqPost q i o err
  | none => .skip

/-- SAS status of an outcome (Table 12.4): status, sense key, additional sense. Other outcomes are firmware's, whose status goes as it
stands. -/
def sasStatus (sct sc : Nat) : List Nat :=
  if sct = 0 ∧ sc = 0 then [0x00, 0, 0]
  else if sct = 2 ∧ sc = 0x81 then [0x02, 0x3, 0x1100]
  else if sct = 2 ∧ sc = 0x86 then [0x02, 0x7, 0x2002]
  else if sct = 0 ∧ sc = 0x07 then [0x40, 0, 0]
  else if sct = 0 ∧ sc = 0x0B then [0x02, 0x5, 0x2500]
  else if sct = 0 ∧ sc = 0x80 then [0x02, 0x5, 0x2100]
  else [0x02, sct, sc]

/-- Something refers to a slot: a version, a command, a frame fill. -/
def State.slotHeld (s : State) (k : Nat) : Bool :=
  s.cqe.overlay.any (fun v => v.slot == k) || s.cqe.cmds.any (fun c => c.slots.contains k) || s.bmu.fills.any fun e => e.2.2.2 == k

/-- Slots that nothing refers to return (R330). -/
def slotsSweep : Prog := .ask fun s => .seq (.upd (.bmu fun b => { b with used := b.used.filter s.slotHeld })) slotsShow

/-- The command is no longer held: it leaves every queue, and its buffer slots return but for those its versions keep (R330). -/
def dropCmd (c : Cmd) : Prog := .ask fun s => all [
  .upd (.cqe fun x => { x with cmds := x.cmds.filter (fun d => d.ctag != c.ctag), handQ := x.handQ.filter (· != c.ctag) }),
  .upd (.bmu fun b => { b with budgetQ := b.budgetQ.filter (· != c.ctag) }),
  slotsSweep,
  when (c.adm && s.cqe.cmds.any fun d => d.ctag == c.ctag) (setPort c.port fun p => { p with
    sqs := p.sqs.filter fun x => !(x.deleting && x.deleter == c.ctag), aers := p.aers.filter fun e => e.1 != c.ctag }),
  cqeShow]

/-- A command completes with a status (R332 to R336, R338): its completion is posted, or not reported (R341). -/
def complete (c : Cmd) (sct sc : Nat) (dnr : Bool) (dw0 : Nat) : Prog := .ask fun s => .seq (dropCmd c) (
  if c.silent then .skip
  else if s.isSas then send "SAS" "response" ([c.port, c.nexus, c.cid] ++ sasStatus sct sc)
  else match (s.port c.port).sq c.sqid with
    | some x => cqSend c.port x.cq (.completion c.port c.sqid c.cid sct sc dnr dw0) (sct != 0 || sc != 0)
    | none => .skip)

/-- An Asynchronous Event Request that waits for its event. -/
def State.isAer (s : State) (c : Cmd) : Bool := c.adm && (s.port c.port).aers.any fun e => e.1 == c.ctag

/-- Hand a command to firmware for a reason: it waits for the ring (R353). -/
def cmdHandOff (t reason : Nat) : Prog := .seq (setCmd t fun c => { c with want := some reason })
  (.upd (.cqe fun x => { x with handQ := if x.handQ.contains t then x.handQ else x.handQ ++ [t] }))

/-- Zones (R311): 4,096 rows each. -/
def State.zoneLbas (s : State) (n : Nat) : Nat := 4096 * s.nsD n
def State.zone (s : State) (n z : Nat) : Zone := ((s.cqe.zones.find? fun e => e.1 == (n, z)).map (·.2)).getD {}
def setZone (n z : Nat) (x : Zone) : Prog := .upd (.cqe fun y =>
  { y with zones := (y.zones.filter fun e => e.1 != (n, z)) ++ if x = {} then [] else [((n, z), x)] })

/-- Where a read finds an LBA (R327, R337, R391). -/
inductive LbaSrc where
  | wait | slot (k : Nat) | frame (f k : Nat) | unreadable | unwritten | medium
  deriving DecidableEq, Repr

/-- An earlier write of the LBA has neither placed its data nor been discarded (R327). -/
def State.lbaWaits (s : State) (n lba seq : Nat) : Bool :=
  s.on CQE_OVL_CFG.ENABLE 0 && s.cqe.cmds.any fun w => w.writes && !w.arrived && older w.seq seq && w.covers n lba

/-- The version of an LBA below a sequence number: the newest (R327). -/
def State.verBelow (s : State) (n lba seq : Nat) : Option Ver :=
  s.cqe.overlay.foldl (fun b v => if v.ns == n && v.lba == lba && older v.seq seq then
    (match b with
      | some w => if older w.seq v.seq then some v else b
      | none => some v) else b) none

/-- The snapshot of an LBA. In a zoned namespace an LBA at or beyond the write pointer is unwritten (assumption log 32). -/
def State.lbaSrc (s : State) (n lba seq : Nat) : LbaSrc :=
  if s.lbaWaits n lba seq then .wait
  else match s.verBelow n lba seq with
    | some v => .slot v.slot
    | none =>
      if s.cqe.unreadable.contains (n, lba) then .unreadable
      else if s.on CQE_NS_CFG.ZONED n && decide ((s.zone n (lba / s.zoneLbas n)).wp ≤ lba % s.zoneLbas n) then .unwritten
      else match s.frameHas n lba with
        | some f => .frame f (lba % 256)
        | none => .medium

/-- An unwritten LBA (R301). -/
def unwrittenData : List Byte := List.replicate 4096 0
def unwrittenPi : List Byte := List.replicate 8 0xFF

/-- The checks a command asks of protection information (R299, R300): the NVMe status code of the first that fails. `i` is the LBA's place in
the command. -/
def State.piCheck (s : State) (c : Cmd) (n i : Nat) (data pi : List Byte) : Option Nat :=
  let t := s.get CQE_NS_CFG.PIT n
  if !s.nsHasPi n || t == 0 then none
  else if nbit c.prinfo 2 && piGuard pi != guardCrc data then some 0x82
  else if nbit c.prinfo 1 && (piApp pi &&& c.appmask) != (c.apptag &&& c.appmask) then some 0x83
  else if nbit c.prinfo 0 && t != 3 && piRef pi != (c.reftag + i) % 2 ^ 32 then some 0x84
  else none

/-- One LBA's data leaves for the host (R327): with its protection information unless the format has none or PRACT strips it. -/
def sendLba (t i : Nat) (data pi : List Byte) (written : Bool) : Prog := .ask fun s =>
  match s.cmd t with
  | none => .skip
  | some c => match c.ns with
    | none => .skip
    | some n => match (if written then s.piCheck c n i data pi else none) with
      | some sc => complete c 2 sc false 0
      | none => .seq
          (send (if s.isSas then "SAS" else "HL") "read data" ([c.port, c.sqid, c.cid, c.lba + i] ++
            (data ++ if s.nsHasPi n && !nbit c.prinfo 3 then pi else []).map (·.toNat)))
          (setCmd t fun c => { c with sent := true, lbas := c.lbas.mapIdx fun k e => if k == i then { e with st := 2 } else e })

/-- An LBA takes its snapshot once its dependency is resolved; buffered data moves at once (R327, R391). -/
def resolveLba (t i : Nat) : Prog := .ask fun s =>
  match s.cmd t with
  | none => .skip
  | some c => match c.ns, c.lbas[i]? with
    | some n, some e => if e.st ≠ 0 then .skip else
      let put (st : Nat) (sl : Option Nat) : Prog := setCmd t fun c => { c with lbas := c.lbas.mapIdx fun k e => if k == i then { e with st, slot := sl } else e }
      match s.lbaSrc n (c.lba + i) c.seq with
      | .wait => .skip
      | .slot k => all [put 0 (some k), dramTouch .hif (s.slotAddr k) 4096, sendLba t i (s.bytes (s.slotAddr k) 4096) (s.bytes (s.slotMeta k) 8) true]
      | .frame f k => all [
          put 0 (some (2 ^ 31 + 256 * f + k)), setFrame f fun x => { x with ref := true },
          .upd (.bmu fun b => { b with hits := (b.hits + 1) % 256 }), when (s.bmu.hits == 255) (incF BMU_CCC_STAT.HIT 0),
          dramTouch .hif (s.frameAddr f + 4096 * k) 4096, sendLba t i (s.bytes (s.frameAddr f + 4096 * k) 4096) unwrittenPi false]
      | .unreadable => put 4 none
      | .unwritten => sendLba t i unwrittenData unwrittenPi false
      | .medium => put 1 none
    | _, _ => .skip

/-- A read whose every LBA has ended: completed, or handed off where a member ended unrecovered (R336, R337, Table 12.10). Firmware completes the
reads that it holds. -/
def readFinish (t : Nat) : Prog := .ask fun s =>
  match s.cmd t with
  | none => .skip
  | some c => when (c.kind == kdRead && c.want.isNone && c.lbas.all fun e => decide (2 ≤ e.st)) (
      if c.lbas.any fun e => e.st == 3 then cmdHandOff t 7
      else if c.lbas.any fun e => e.st == 4 then complete c 2 0x81 false 0
      else complete c 0 0 false 0)


/-- A flush is complete: every write fetched before it in its namespaces is power-safe (R333). -/
def State.flushReady (s : State) (c : Cmd) : Bool :=
  let named (n : Option Nat) : Bool := c.ns.isNone || n == c.ns
  !(s.cqe.cmds.any fun w => w.writes && !w.arrived && older w.seq c.seq && named w.ns) &&
    s.cqe.overlay.all fun v => !(older v.seq c.seq && named (some v.ns)) || s.verSafe v
def flushSweep : Prog := .ask fun s =>
  each (s.cqe.cmds.filter fun c => c.kind == kdFlush && c.want.isNone && s.flushReady c) fun c => complete c 0 0 false 0

/-- A FUA write is complete: the medium holds its data or newer data for each LBA (R334). -/
def State.fuaReady (s : State) (c : Cmd) : Bool :=
  c.arrived && s.cqe.overlay.all fun v => !(v.seq == c.seq) || v.medium || s.verNewer v (·.medium)
def fuaSweep : Prog := .ask fun s =>
  each (s.cqe.cmds.filter fun c => c.writes && c.fua && c.want.isNone && s.fuaReady c) fun c => complete c 0 0 false 0

/-- Versions that nothing holds any more are released, and their slots return (R330); those of a row wait for the verifies it needs (R171). -/
def State.verDone (s : State) (v : Ver) : Bool :=
  (v.medium && !(s.wrc.due.any fun e => e.1 == s.lbaRow v.ns v.lba) || s.verNewer v Ver.safe) && !(s.cqe.cmds.any fun c => c.writes && c.fua && c.seq == v.seq)
def releaseSweep : Prog := .ask fun s =>
  let gone := s.cqe.overlay.filter s.verDone
  when (!gone.isEmpty) (.seq (.upd (.cqe fun x => { x with overlay := x.overlay.filter fun v => !s.verDone v })) slotsSweep)

/-- Units in the budget, and the rows that hold them by key slot (R382, R385). -/
def budgetShow : Prog := .ask fun s =>
  let u := s.cqe.overlay.countP (·.inBudget)
  all [setF BMU_BUDGET.USED 0 u, setF CQE_THROT.DIRTY 0 u,
    each (List.range 128) fun k =>
      let rows := ((s.cqe.overlay.filter fun v => v.inBudget && s.get CQE_NS_CFG.KSLOT v.ns == k).map fun v => s.lbaRow v.ns v.lba).dedup
      when (s.get MPC_KEY_STAT.DIRTY k != min 65535 rows.length) (setF MPC_KEY_STAT.DIRTY k rows.length)]

/-- A replayed version leaves the budget: VALID clears in its descriptor before its block is given out again (R509). -/
def journalDesc (k : Nat) : Nat := 0x41000000 + 0xBE0000 + 32 * k
def descClear (blocks : List Nat) : Prog := .ask fun s =>
  each (blocks.filter fun k => nbit (s.memW (journalDesc k)) 31) fun k => fabricWords .bmu (journalDesc k) [BitVec.ofNat 32 (s.memW (journalDesc k) % 2 ^ 31)]

/-- Versions leave the budget (R383): on the medium, or a newer version of the LBA in the budget or on the medium. -/
def State.leavesBudget (s : State) (v : Ver) : Bool := v.inBudget && (v.medium || s.verNewer v Ver.safe)
def budgetSweep : Prog := .ask fun s =>
  let out := s.cqe.overlay.filter s.leavesBudget
  .seq (when (!out.isEmpty) (.seq (descClear (out.filterMap (·.block)))
    (.upd (.cqe fun x => { x with overlay := x.overlay.map fun v => if s.leavesBudget v then { v with inBudget := false, block := none } else v }))))
    budgetShow

/-- A write without FUA that waits for the budget completes once it is power-safe without it: its versions are on the medium, or newer ones are safe
(R332, R341). -/
def State.safeOutside (s : State) (c : Cmd) : Bool :=
  c.arrived && c.want.isNone && s.cqe.overlay.all fun v => !(some v.ns == c.ns && v.seq == c.seq) || s.verSafe v
def safeSweep : Prog := .ask fun s => each ((s.bmu.budgetQ.filterMap s.cmd).filter s.safeOutside) fun c => complete c 0 0 false 0

/-- What follows when versions become power-safe or reach the medium. The Keeper takes LBAs off the unreadable list (R337). -/
def versionSweep : Prog := all [budgetSweep, fuaSweep, safeSweep, flushSweep,
  .ask fun s => .upd (.cqe fun x => { x with unreadable := x.unreadable.filter fun e => !(s.cqe.overlay.any fun v => v.ns == e.1 && v.lba == e.2 && s.verSafe v) }),
  releaseSweep]

/-- Rows that a command touches. -/
def State.cmdRows (s : State) (c : Cmd) : List Nat :=
  match c.ns with
  | some n => if c.n = 0 then [] else
      (List.range ((c.lba + c.n - 1) / s.nsD n - c.lba / s.nsD n + 1)).map fun k => s.nsRow0 n + c.lba / s.nsD n + k
  | none => []

/-- Conditions of Table 12.10 on a row: its bands' records, UNREACH, a context or a rebuild, the ring. -/
def State.rowMapBad (s : State) (g : Nat) : Bool :=
  !s.on SVE_CMAP_CFG.ENABLE 0 || allActs.any fun a => (s.targetBands a (s.rowTrack g)).any fun b => !s.recOk b a || !hdrValid (s.recHdr b a)
def State.rowUnreach (s : State) (g : Nat) : Bool := allActs.any fun a => s.unreachBand a (s.rowTrack g / 256)
def State.rowRecon (s : State) (g : Nat) : Bool :=
  s.mpc.ctxs.any (fun e => e.2.row == g) || (List.range 16).any fun p => s.rebuilding p (s.rowTrack g / 256)

/-- Why a command is not eligible for the fast path (Table 12.10), `rows` those its media work touches. -/
def State.notFast (s : State) (c : Cmd) (rows : List Nat) : Option Nat :=
  let kinds := c.kind == kdRead || c.kind == kdWrite || c.kind == kdZeroes || c.kind == kdFlush
  let fp := s.on CQE_CFG.FP_EN 0 && match c.ns with
    | some n => s.on CQE_NS_CFG.FP n
    | none => true
  let zoned := match c.ns with
    | some n => s.on CQE_NS_CFG.ZONED n
    | none => false
  if !fp then some 1
  else if !kinds || zoned then some 0
  else if rows.any s.rowMapBad then some 2
  else if rows.any s.rowUnreach then some 3
  else if rows.any s.rowRecon then some 4
  else if rows.any s.ringHas then some 5
  else none

/-- A read that is to be carried out on the fast path, once its LBAs `ls` have taken their snapshot: where they need rows that keep it off, it is handed off
(Table 12.10; a read served from the buffer needs no row). -/
def readPath (t : Nat) (ls : List Nat) : Prog := .ask fun s => match s.cmd t with
  | some c => match c.ns with
    | some n =>
      let media := (ls.filter fun i => ((c.lbas[i]?).map (·.st)) == some 1).map fun i => s.lbaRow n (c.lba + i)
      when c.want.isNone (match s.notFast c media.dedup with
        | some r => cmdHandOff t r
        | none => .skip)
    | none => .skip
  | none => .skip

/-- Resolve what a read can now resolve. -/
def resolveRead (t : Nat) : Prog := .ask fun s => match s.cmd t with
  | some c =>
    let ls := (List.range c.lbas.length).filter fun i => ((c.lbas[i]?).map (·.st)) == some 0
    all [each ls fun i => resolveLba t i, readPath t ls, readFinish t]
  | none => .skip

/-- The reads that wait for earlier writes look again (R327, R339). -/
def resolveAll : Prog := .seq
  (.ask fun s => each (s.cqe.cmds.filter fun c => c.kind == kdRead && c.lbas.any fun e => e.st == 0) fun c => resolveRead c.ctag)
  (.ask fun s => when s.mediaWaiting mediaWake)

/-- The scope of a reset: commands whose reads are aborted, whose arrived writes are kept without a report, and whose other commands end
unreported (R341). -/
def resetCmds (sel : Cmd → Bool) : Prog := .ask fun s => all [
  each (s.cqe.cmds.filter fun c => sel c && !(c.writes && c.arrived)) dropCmd,
  .upd (.cqe fun x => { x with
    handQ := x.handQ.filter fun t => !(s.cqe.cmds.any fun c => c.ctag == t && sel c)
    cmds := x.cmds.map fun c => if sel c then { c with silent := true, want := none, handed := false } else c }),
  fuaSweep, flushSweep, resolveAll]

/-- A controller reset of port `q` is sampled (R341): its queues and outstanding requests are gone; RDY follows. -/
def controllerReset (q : Nat) : Prog := .seq (resetCmds fun c => c.port == q)
  (setPort q fun p => { p with en := false, resetting := p.rdy, sqs := [], cqs := [], aers := [], shn := none, features := [] })

/-- Port `q` is lost (R317). -/
def portLost (q : Nat) : Prog := all [
  setF HIF_PORT_STAT.LOST q 1, incF HIF_PORT_STAT.DOWN_CNT q, setF HIF_PORT_STAT.LINK q 0, setF HIF_PORT_STAT.RATE q 0,
  setF HIF_PORT_STAT.WIDTH q 0, setF HIF_PORT_STAT.CTRL_RDY q 0, raise (264 + q) (detail q), almEvent bHIF kFault "port lost" [q],
  controllerReset q]

/-- CSTS.RDY follows CC.EN once BOOT has reached step 9 (R498). -/
def rdyFollows (q : Nat) : Prog := .ask fun s =>
  when ((s.port q).en && !(s.port q).resetting && s.on PTM_BOOT_STAT.FETCH_EN 0) (.seq
    (setPort q fun p => { p with rdy := true, shst := 0 }) (setF HIF_PORT_STAT.CTRL_RDY q 1))

end Sys2Proof.Machine
end

