-- ==== Sys2Proof/Machine/Nvme.lean ====
section
/-! DEFINITION. NVMe commands as CQE fetches them (R309 to R313, R322 to R340, R349; Table 11.4). A row's command is the fetch of the entry at the head
of its submission queue; while CQE may not fetch it, it stays in its queue. Opcodes and the places of the fields are NVMe Base's (assumption log
30). -/
namespace Sys2Proof.Machine

/-- The command as it is fetched. -/
def sqeCmd (q i : Nat) (x : Sqe) (opcode kind : Nat) : Cmd :=
  { ctag := 0, port := q, sqid := i, cid := x.cid.toNat, kind, sqe := x.words opcode, nsid := x.nsid.toNat, seq := 0, time := 0, adm := i == 0
    lba := x.d10.toNat + 2 ^ 32 * x.d11.toNat, n := x.d12.toNat % 65536 + 1, fua := x.d12.getLsbD 30, prinfo := x.d12.toNat / 2 ^ 26 % 16
    reftag := x.d14.toNat, apptag := x.d15.toNat % 65536, appmask := x.d15.toNat / 65536 }

/-- A command whose LBAs and namespace are sound goes on; others complete with their error and touch nothing (R309, R349, R296). -/
def lbaChecked (t : Nat) (k : Cmd → Nat → Prog) : Prog := .ask fun s =>
  match s.cmd t with
  | none => .skip
  | some c =>
    let n := c.nsid - 1
    if !s.isSas && decide (512 < c.n) then complete c 0 0x02 false 0
    else if c.nsid = 0 ∨ !s.nsServes n c.port then complete c 0 0x0B false 0
    else if s.nsLbas n < c.lba + c.n then complete c 0 0x80 false 0
    else if s.keyState (s.get CQE_NS_CFG.KSLOT n) ≠ 2 then complete c 2 0x86 false 0
    else .seq (.seq (setCmd t fun c => { c with ns := some n }) cqeShow) (k { c with ns := some n } n)

/-- A read, once fetched (R327, Table 12.10). -/
def readStart (t : Nat) : Prog := lbaChecked t fun c n => all [
  setCmd t fun c => { c with lbas := List.replicate c.n { st := 0 } },
  popRaise n ((List.range ((c.lba + c.n - 1) / 256 - c.lba / 256 + 1)).map fun k => c.lba / 256 + k),
  each (List.range c.n) fun i => resolveLba t i,
  readPath t (List.range c.n), readFinish t, .ask fun s => when s.mediaWaiting mediaWake]

/-- NVME_READ. -/
def nvmeReadProg (q i : Nat) (x : Sqe) : Prog := whenS (fun s => i != 0 && s.nvmeFetch q i) (fetchCmd (sqeCmd q i x 0x02 kdRead) readStart)
def execNvmeRead (q : Fin 2) (i : Fin 65) (x : Sqe) (s : State) := (nvmeReadProg q i x).exec s

/-- Zones of a namespace that are open, and active (R311). -/
def State.zonesIn (s : State) (n : Nat) (sts : List Nat) : List (Nat × Zone) :=
  (s.cqe.zones.filter fun e => e.1.1 == n && sts.contains e.2.st).map fun e => (e.1.2, e.2)

/-- Room for one more open, and one more active, zone is made or refused: the status code that refuses it. An implicitly opened zone gives way, the lowest
(assumption log 32). -/
def State.zoneRoom (s : State) (n : Nat) (st : Nat) : Option Nat :=
  if st = 1 ∧ 128 ≤ (s.zonesIn n [2, 3, 4]).length then some 0xBD
  else if (st = 1 ∨ st = 4) ∧ 128 ≤ (s.zonesIn n [2, 3]).length ∧ (s.zonesIn n [2]).isEmpty then some 0xBE
  else none
def zoneMakeRoom (n st : Nat) : Prog := .ask fun s =>
  when ((st == 1 || st == 4) && decide (128 ≤ (s.zonesIn n [2, 3]).length)) (match (s.zonesIn n [2]).foldl (fun (b : Option (Nat × Zone)) e => match b with
      | some f => if e.1 < f.1 then some e else b
      | none => some e) none with
    | some (z, x) => setZone n z { x with st := 4 }
    | none => .skip)

/-- A write to a zone: its status code where it may not be made (R311). `lba` is an offset in the zone, none for an append. -/
def State.zoneRefuses (s : State) (n z : Nat) (lba : Option Nat) (len : Nat) : Option Nat :=
  let x := s.zone n z
  let at_ := lba.getD x.wp
  if x.st = 14 then some 0xB9
  else if x.st = 13 then some 0xBA
  else if x.st = 15 then some 0xBB
  else if s.zoneLbas n < at_ + len then some 0xB8
  else if at_ ≠ x.wp then some 0xBC
  else s.zoneRoom n x.st

/-- The write pointer moves on as the command is fetched; the zone opens implicitly and a filled one is full (R311). -/
def zoneAdvance (n z len : Nat) : Prog := .ask fun s =>
  let x := s.zone n z
  .seq (zoneMakeRoom n x.st) (setZone n z { x with wp := x.wp + len, st := if s.zoneLbas n ≤ x.wp + len then 14 else if x.st = 3 then 3 else 2 })

/-- A write, once fetched: its transfer starts when slots allow (R328, R380). In a zoned namespace it must be at the write pointer (R311). -/
def writeStart (t : Nat) : Prog := lbaChecked t fun c n => .ask fun s =>
  let hand := match s.notFast c (s.cmdRows c) with
    | some r => cmdHandOff t r
    | none => .skip
  if s.on CQE_NS_CFG.ZONED n then
    let z := c.lba / s.zoneLbas n
    let append := c.kind == kdAppend
    if append && c.lba % s.zoneLbas n != 0 then complete c 0 0x02 false 0
    else match s.zoneRefuses n z (if append then none else some (c.lba % s.zoneLbas n)) c.n with
      | some sc => complete c 1 sc false 0
      | none => all [
          when append (.seq (setCmd t fun c => { c with lba := c.lba + (s.zone n z).wp }) (emit (.event "zone append" [t, c.lba + (s.zone n z).wp]))),
          zoneAdvance n z c.n, hand]
  else if c.kind = kdAppend then complete c 0 0x01 false 0
  else hand

/-- NVME_WRITE. -/
def nvmeWriteProg (q i : Nat) (x : Sqe) : Prog := whenS (fun s => i != 0 && s.nvmeFetch q i) (fetchCmd (sqeCmd q i x 0x01 kdWrite) writeStart)
def execNvmeWrite (q : Fin 2) (i : Fin 65) (x : Sqe) (s : State) := (nvmeWriteProg q i x).exec s

/-- WRITE_ZEROES: a write of zeros, its protection information as with PRACT (R335). -/
def writeZeroesProg (q i : Nat) (x : Sqe) : Prog := whenS (fun s => i != 0 && s.nvmeFetch q i)
  (fetchCmd { sqeCmd q i x 0x08 kdZeroes with zero := true, prinfo := 8 } writeStart)
def execWriteZeroes (q : Fin 2) (i : Fin 65) (x : Sqe) (s : State) := (writeZeroesProg q i x).exec s

/-- ZONE_APPEND: its LBA is fixed when it is fetched (R311). -/
def zoneAppendProg (q i : Nat) (x : Sqe) : Prog := whenS (fun s => i != 0 && s.nvmeFetch q i) (fetchCmd (sqeCmd q i x 0x7D kdAppend) writeStart)
def execZoneAppend (q : Fin 2) (i : Fin 65) (x : Sqe) (s : State) := (zoneAppendProg q i x).exec s

/-- A flush, once fetched (R333). -/
def flushStart (t : Nat) : Prog := .ask fun s =>
  match s.cmd t with
  | none => .skip
  | some c =>
    let every := c.nsid == 0xFFFFFFFF
    if !every && (c.nsid == 0 || !s.nsServes (c.nsid - 1) c.port) then complete c 0 0x0B false 0
    else all [setCmd t fun c => { c with ns := if every then none else some (c.nsid - 1) }, cqeShow,
      .ask fun s => match s.cmd t with
        | some d => (match s.notFast d [] with
          | some r => cmdHandOff t r
          | none => flushSweep)
        | none => .skip]

/-- NVME_FLUSH. -/
def nvmeFlushProg (q i : Nat) (x : Sqe) : Prog := whenS (fun s => i != 0 && s.nvmeFetch q i)
  (fetchCmd { sqeCmd q i x 0x00 kdFlush with n := 0, lba := 0, fua := false } flushStart)
def execNvmeFlush (q : Fin 2) (i : Fin 65) (x : Sqe) (s : State) := (nvmeFlushProg q i x).exec s

/-- Zone actions (R311). -/
inductive ZoneAct where
  | open_ | close | finish | reset | offline
  deriving DecidableEq, Repr

/-- The state in which an action leaves a zone; none where the action does not apply to its state (assumption log 32). -/
def zoneNext (act : ZoneAct) (st : Nat) : Option Nat :=
  match act with
  | .open_ => if [1, 2, 3, 4].contains st then some 3 else none
  | .close => if [2, 3, 4].contains st then some 4 else none
  | .finish => if [1, 2, 3, 4, 14].contains st then some 14 else none
  | .reset => if [1, 2, 3, 4, 14].contains st then some 1 else none
  | .offline => if [13, 15].contains st then some 15 else none

/-- Versions of a range are gone: they leave the overlay index, the budget, the frames, and their slots return. -/
def versDrop (n lo len : Nat) : Prog := .ask fun s =>
  let hit (v : Ver) : Bool := v.ns == n && decide (lo ≤ v.lba ∧ v.lba < lo + len)
  let gone := s.cqe.overlay.filter hit
  all [descClear (gone.filterMap (·.block)),
    .upd (.cqe fun x => { x with overlay := x.overlay.filter fun v => !hit v, unreadable := x.unreadable.filter fun e => !(e.1 == n && decide (lo ≤ e.2 ∧ e.2 < lo + len)) }),
    cccInvalidate n fun l => decide (lo ≤ l ∧ l < lo + len), slotsSweep, versionSweep]

/-- One zone takes an action; `seq` is the command's place in fetch order. -/
def zoneDo (act : ZoneAct) (n z seq : Nat) : Prog := .ask fun s =>
  let x := s.zone n z
  match zoneNext act x.st with
  | none => .skip
  | some st =>
    if act = .open_ ∧ (s.zoneRoom n x.st).isSome then .skip
    else all [
      when (act == .open_) (zoneMakeRoom n x.st),
      setZone n z (if act = .reset then { rst := some seq } else { x with st, wp := if act = .finish then s.zoneLbas n else x.wp }),
      when (act == .reset) (versDrop n (z * s.zoneLbas n) (s.zoneLbas n))]

/-- The states of the zones that an action on every zone takes (NVMe Zoned Namespaces' Select All; assumption log 32). -/
def zoneAll (act : ZoneAct) : List Nat :=
  match act with
  | .open_ => [4]
  | .close => [2, 3]
  | .finish => [2, 3, 4]
  | .reset => [2, 3, 4, 14]
  | .offline => [13]

/-- A zone action on one zone, or on every zone of the namespace that it applies to. -/
def zoneAction (act : ZoneAct) (n lba seq : Nat) (every : Bool) : Prog := .ask fun s =>
  if every then each ((s.zonesIn n (zoneAll act)).map (·.1)) fun z => zoneDo act n z seq
  else when (lba % s.zoneLbas n == 0) (zoneDo act n (lba / s.zoneLbas n) seq)

/-- A zone management command, once fetched: firmware completes it; a state it changes is changed now (R311, R341). -/
def zoneStart (act : Option ZoneAct) (every : Bool) (t : Nat) : Prog := .ask fun s =>
  match s.cmd t with
  | none => .skip
  | some c =>
    let n := c.nsid - 1
    if c.nsid = 0 ∨ !s.nsServes n c.port then complete c 0 0x0B false 0
    else if !s.on CQE_NS_CFG.ZONED n then complete c 0 0x01 false 0
    else if !every && decide (s.nsLbas n ≤ c.lba) then complete c 0 0x80 false 0
    else all [setCmd t fun c => { c with ns := some n }, cqeShow, cmdHandOff t (if s.on CQE_CFG.FP_EN 0 && s.on CQE_NS_CFG.FP n then 0 else 1),
      match act with
        | some a => zoneAction a n c.lba c.seq every
        | none => .skip]

/-- Zone Management Send and Receive. -/
def zoneCmd (q i : Nat) (x : Sqe) (opcode : Nat) (act : Option ZoneAct) : Prog := whenS (fun s => i != 0 && s.nvmeFetch q i)
  (fetchCmd { sqeCmd q i x opcode kdZone with n := 0, fua := false } (zoneStart act (act.isSome && x.d13.getLsbD 8)))
def execZoneOpen (q : Fin 2) (i : Fin 65) (x : Sqe) (s : State) := (zoneCmd q i x 0x79 (some .open_)).exec s
def execZoneClose (q : Fin 2) (i : Fin 65) (x : Sqe) (s : State) := (zoneCmd q i x 0x79 (some .close)).exec s
def execZoneFinish (q : Fin 2) (i : Fin 65) (x : Sqe) (s : State) := (zoneCmd q i x 0x79 (some .finish)).exec s
def execZoneReset (q : Fin 2) (i : Fin 65) (x : Sqe) (s : State) := (zoneCmd q i x 0x79 (some .reset)).exec s
def execZoneOffline (q : Fin 2) (i : Fin 65) (x : Sqe) (s : State) := (zoneCmd q i x 0x79 (some .offline)).exec s
def execZoneManagementReceive (q : Fin 2) (i : Fin 65) (x : Sqe) (s : State) := (zoneCmd q i x 0x7A none).exec s

/-- An admin command: held, and handed to firmware, which answers it or passes it to the Keeper (R309; chapter 12). `eff` is what the part does itself. -/
def adminCmd (q : Nat) (x : Sqe) (opcode kind : Nat) (eff : Nat → Prog) : Prog := whenS (fun s => s.nvmeFetch q 0)
  (fetchCmd { sqeCmd q 0 x opcode kind with n := 0, lba := 0, fua := false } fun t => .seq (cmdHandOff t 0) (eff t))
def execIdentify (q : Fin 2) (x : Sqe) (s : State) := (adminCmd q x 0x06 kdAdmin fun _ => .skip).exec s
def execGetLogPage (q : Fin 2) (x : Sqe) (s : State) := (adminCmd q x 0x02 kdAdmin fun _ => .skip).exec s
def execGetFeatures (q : Fin 2) (x : Sqe) (s : State) := (adminCmd q x 0x0A kdAdmin fun _ => .skip).exec s
def execNamespaceManagement (q : Fin 2) (x : Sqe) (s : State) := (adminCmd q x 0x0D kdAdmin fun _ => .skip).exec s
def execNamespaceAttachment (q : Fin 2) (x : Sqe) (s : State) := (adminCmd q x 0x15 kdAdmin fun _ => .skip).exec s
def execFormatNvm (q : Fin 2) (x : Sqe) (s : State) := (adminCmd q x 0x80 kdAdmin fun _ => .skip).exec s
def execFirmwareImageDownload (q : Fin 2) (x : Sqe) (s : State) := (adminCmd q x 0x11 kdAdmin fun _ => .skip).exec s
def execFirmwareCommit (q : Fin 2) (x : Sqe) (s : State) := (adminCmd q x 0x10 kdAdmin fun _ => .skip).exec s
def execSecuritySend (q : Fin 2) (x : Sqe) (s : State) := (adminCmd q x 0x81 kdAdmin fun _ => .skip).exec s
def execSecurityReceive (q : Fin 2) (x : Sqe) (s : State) := (adminCmd q x 0x82 kdAdmin fun _ => .skip).exec s
/-- A vendor opcode, 0xC0 to 0xFF. -/
def execVendorAdminCommand (q : Fin 2) (op : Fin 64) (x : Sqe) (s : State) := (adminCmd q x (0xC0 + op) kdVendor fun _ => .skip).exec s

/-- Features of Table 11.4. -/
def featureSupported (f : Nat) : Bool := [0x01, 0x02, 0x04, 0x05, 0x06, 0x07, 0x08, 0x09, 0x0B, 0x0C].contains f

/-- SET_FEATURES: a supported feature takes its value; the write cache stays enabled (R309, R333). Interrupt Vector Configuration is per vector. -/
def setFeaturesProg (q : Nat) (x : Sqe) : Prog := adminCmd q x 0x09 kdAdmin fun _ =>
  let f := x.d10.toNat % 256
  let v := x.d11.toNat
  let key := if f = 0x09 then 0x10000 * (v % 65536) + f else f
  when (featureSupported f && !(f == 0x06 && v % 2 == 0))
    (.seq (setPort q fun p => { p with features := (p.features.filter fun e => e.1 != key) ++ [(key, v)] }) (when (f == 0x02) psShow))
def execSetFeatures (q : Fin 2) (x : Sqe) (s : State) := (setFeaturesProg q x).exec s

/-- Queue sizes and numbers of Table 11.4. -/
def queueOk (i size pc : Nat) : Bool := decide (1 ≤ i ∧ i ≤ 64 ∧ 2 ≤ size ∧ size ≤ 4096) && pc == 1

/-- CREATE_IO_COMPLETION_QUEUE: contiguous, up to 64, vectors 0 to 128 (R309, R312). -/
def createCqProg (q : Nat) (x : Sqe) : Prog := adminCmd q x 0x05 kdAdmin fun _ => .ask fun s =>
  let i := x.d10.toNat % 65536
  let size := x.d10.toNat / 65536 + 1
  let v := x.d11.toNat / 65536
  when (queueOk i size (x.d11.toNat % 2) && decide (v ≤ 128) && ((s.port q).cq i).isNone)
    (setPort q fun p => { p with cqs := p.cqs ++ [{ id := i, size, vector := v, ien := x.d11.getLsbD 1 }] })
def execCreateIoCompletionQueue (q : Fin 2) (x : Sqe) (s : State) := (createCqProg q x).exec s

/-- CREATE_IO_SUBMISSION_QUEUE: on an existing completion queue (R309). -/
def createSqProg (q : Nat) (x : Sqe) : Prog := adminCmd q x 0x01 kdAdmin fun _ => .ask fun s =>
  let i := x.d10.toNat % 65536
  let size := x.d10.toNat / 65536 + 1
  let cq := x.d11.toNat / 65536
  when (queueOk i size (x.d11.toNat % 2) && cq != 0 && ((s.port q).cq cq).isSome && ((s.port q).sq i).isNone)
    (setPort q fun p => { p with sqs := p.sqs ++ [{ id := i, size, cq, prio := x.d11.toNat / 2 % 4 }] })
def execCreateIoSubmissionQueue (q : Fin 2) (x : Sqe) (s : State) := (createSqProg q x).exec s

/-- DELETE_IO_COMPLETION_QUEUE: once no submission queue uses it (R309). -/
def deleteCqProg (q : Nat) (x : Sqe) : Prog := adminCmd q x 0x04 kdAdmin fun _ => .ask fun s =>
  let i := x.d10.toNat % 65536
  when (i != 0 && !(s.port q).sqs.any fun y => y.cq == i) (setPort q fun p => { p with cqs := p.cqs.filter fun y => y.id != i })
def execDeleteIoCompletionQueue (q : Fin 2) (x : Sqe) (s : State) := (deleteCqProg q x).exec s

/-- An abort sampled now catches the command (R338, R339). -/
def Cmd.catchable (c : Cmd) (aer : Bool) : Bool :=
  !c.silent && (if c.adm then aer else if c.kind = kdRead then !c.sent else if c.writes then !c.arrived else c.kind == kdFlush)

/-- A caught command completes, discarded whole, and what waited on it goes on (R338, R339). -/
def catchCmd (c : Cmd) (sc : Nat) : Prog := all [complete c 0 sc false 0, flushSweep, resolveAll]

/-- ABORT: executed by CQE (R338, R339). -/
def abortProg (q : Nat) (x : Sqe) : Prog := whenS (fun s => s.nvmeFetch q 0) (
  fetchCmd { sqeCmd q 0 x 0x08 kdAdmin with n := 0, lba := 0, fua := false } fun t => .ask fun s =>
    let hit := s.cqe.cmds.find? fun c => c.port == q && c.sqid == x.d10.toNat % 65536 && c.cid == x.d10.toNat / 65536 && c.ctag != t
    let aer (c : Cmd) : Bool := (s.port q).aers.any fun e => e.1 == c.ctag
    let finish (d : Nat) : Prog := .ask fun s => match s.cmd t with
      | some c => complete c 0 0 false d
      | none => .skip
    match hit with
    | some c => if c.catchable (aer c) then all [
          setPort q fun p => { p with aers := p.aers.filter fun e => e.1 != c.ctag }, catchCmd c 0x07, finish 0]
        else finish 1
    | none => finish 1)
def execAbort (q : Fin 2) (x : Sqe) (s : State) := (abortProg q x).exec s

/-- DELETE_IO_SUBMISSION_QUEUE: an abort of every command held from it, in one tick; the queue goes when firmware completes the deletion (R340). -/
def deleteSqProg (q : Nat) (x : Sqe) : Prog := adminCmd q x 0x00 kdAdmin fun t => .ask fun s =>
  let i := x.d10.toNat % 65536
  when (i != 0) (.seq
    (each (s.cqe.cmds.filter fun c => c.port == q && c.sqid == i && c.catchable false) fun c => catchCmd c 0x08)
    (setSq q i fun y => { y with deleting := true, deleter := t }))
def execDeleteIoSubmissionQueue (q : Fin 2) (x : Sqe) (s : State) := (deleteSqProg q x).exec s

/-- ASYNCHRONOUS_EVENT_REQUEST: held until firmware completes it with an event (R309). -/
def aerProg (q : Nat) (x : Sqe) : Prog := adminCmd q x 0x0C kdAdmin fun t => setPort q fun p => { p with aers := p.aers ++ [(t, x.cid.toNat)] }
def execAsynchronousEventRequest (q : Fin 2) (x : Sqe) (s : State) := (aerProg q x).exec s

end Sys2Proof.Machine
end

