-- ==== Sys2Proof/Machine/Sas.lean ====
section
/-! DEFINITION. SAS commands and task management (R314, R315, R323; Table 11.5). HIF translates a command into the 64-byte form; a row's command is
its fetch, and while CQE may not fetch it, it stays queued in HIF. -/
namespace Sys2Proof.Machine

/-- The translated entry (Table 12.11). -/
def sasWords (f : SasFrom) (opcode lba n : Nat) (fua : Bool) : List Nat :=
  [opcode + f.tag.toNat * 65536, f.lun + 1, 0, 0, 0, 0, 0, 0, 0, 0, lba % 2 ^ 32, lba / 2 ^ 32 % 2 ^ 32, (n - 1) % 65536 + b2n fua * 2 ^ 30, 0, 0, 0]
def cdbWords (f : SasFrom) (cdb : Cdb) : List Nat :=
  [f.tag.toNat * 65536, f.lun + 1, 0, 0, 0, 0, 0, 0] ++ ((List.range 4).map fun k => cdb.toNat / 2 ^ (32 * k) % 2 ^ 32) ++ [0, 0, 0, 0]

def sasCmd (f : SasFrom) (kind : Nat) (words : List Nat) : Cmd :=
  { ctag := 0, port := f.q, nexus := f.nexus.toNat, sqid := 0, cid := f.tag.toNat, kind, sqe := words, nsid := f.lun + 1, lun := f.lun
    ordered := f.ordered, seq := 0, time := 0 }

/-- A SAS command is taken: beyond 1,024 tagged commands of its nexus it ends with TASK SET FULL (R314). -/
def sasTake (f : SasFrom) (c : Cmd) (p : Nat → Prog) : Prog := .ask fun s =>
  if s.isSas && s.portUp f.q && decide (1024 ≤ s.cqe.cmds.countP fun d => d.port == f.q.val && d.nexus == f.nexus.toNat) then
    send "SAS" "response" [f.q, f.nexus.toNat, f.tag.toNat, 0x28, 0, 0]
  else when (s.sasFetch f.q f.lun f.ordered) (fetchCmd c p)

/-- SAS_READ_16, SAS_WRITE_16, SYNCHRONIZE_CACHE_16: as Read, Write and Flush. A transfer of no blocks is complete at once. -/
def sasReadProg (f : SasFrom) (lba n : Nat) : Prog :=
  sasTake f { sasCmd f kdRead (sasWords f 0x02 lba n false) with lba, n } fun t => if n = 0 then .ask fun s => (match s.cmd t with
    | some c => complete c 0 0 false 0
    | none => .skip) else readStart t
def execSasRead16 (f : SasFrom) (lba : BitVec 64) (n : BitVec 32) (s : State) := (sasReadProg f lba.toNat n.toNat).exec s
def sasWriteProg (f : SasFrom) (lba n : Nat) (fua : Bool) : Prog :=
  sasTake f { sasCmd f kdWrite (sasWords f 0x01 lba n fua) with lba, n, fua } fun t => if n = 0 then .ask fun s => (match s.cmd t with
    | some c => complete c 0 0 false 0
    | none => .skip) else writeStart t
def execSasWrite16 (f : SasFrom) (lba : BitVec 64) (n : BitVec 32) (fua : Bool) (s : State) := (sasWriteProg f lba.toNat n.toNat fua).exec s
def execSynchronizeCache16 (f : SasFrom) (s : State) := (sasTake f (sasCmd f kdFlush (sasWords f 0x00 0 1 false)) flushStart).exec s

/-- Zone commands (R311, R314): the LBA of the zone, ALL. -/
def sasZone (f : SasFrom) (act : Option ZoneAct) (lba : Nat) (every : Bool) (cdb : Cdb) : Prog :=
  sasTake f { sasCmd f kdZone (cdbWords f cdb) with lba } (zoneStart act every)
def execReportZones (f : SasFrom) (lba : BitVec 64) (cdb : Cdb) (s : State) := (sasZone f none lba.toNat false cdb).exec s
def execOpenZone (f : SasFrom) (lba : BitVec 64) (every : Bool) (cdb : Cdb) (s : State) := (sasZone f (some .open_) lba.toNat every cdb).exec s
def execCloseZone (f : SasFrom) (lba : BitVec 64) (every : Bool) (cdb : Cdb) (s : State) := (sasZone f (some .close) lba.toNat every cdb).exec s
def execFinishZone (f : SasFrom) (lba : BitVec 64) (every : Bool) (cdb : Cdb) (s : State) := (sasZone f (some .finish) lba.toNat every cdb).exec s
def execResetWritePointer (f : SasFrom) (lba : BitVec 64) (every : Bool) (cdb : Cdb) (s : State) := (sasZone f (some .reset) lba.toNat every cdb).exec s

/-- Every other command goes to firmware with its CDB, KIND 8 (Table 12.11). -/
def sasOther (f : SasFrom) (cdb : Cdb) (eff : Prog) : Prog := sasTake f (sasCmd f kdSas (cdbWords f cdb)) fun t => .seq (cmdHandOff t 0) eff
def execInquiry (f : SasFrom) (cdb : Cdb) (s : State) := (sasOther f cdb .skip).exec s
def execReadCapacity16 (f : SasFrom) (cdb : Cdb) (s : State) := (sasOther f cdb .skip).exec s
def execReportLuns (f : SasFrom) (cdb : Cdb) (s : State) := (sasOther f cdb .skip).exec s
def execTestUnitReady (f : SasFrom) (cdb : Cdb) (s : State) := (sasOther f cdb .skip).exec s
def execRequestSense (f : SasFrom) (cdb : Cdb) (s : State) := (sasOther f cdb .skip).exec s
def execModeSense10 (f : SasFrom) (cdb : Cdb) (s : State) := (sasOther f cdb .skip).exec s
def execWriteBuffer (f : SasFrom) (cdb : Cdb) (s : State) := (sasOther f cdb .skip).exec s
def execReadBuffer (f : SasFrom) (cdb : Cdb) (s : State) := (sasOther f cdb .skip).exec s

/-- START_STOP_UNIT: PS0 on start, PS4 on stop, applied by firmware with CAP_SET and MODE_SET (R497). -/
def startStopProg (f : SasFrom) (start : Bool) (cdb : Cdb) : Prog :=
  sasOther f cdb (.seq (each ([0, 1] : List Nat) fun q => setPort q fun p =>
    { p with features := (p.features.filter fun e => e.1 != 0x02) ++ [(0x02, if start then 0 else 4)] }) psShow)
def execStartStopUnit (f : SasFrom) (start : Bool) (cdb : Cdb) (s : State) := (startStopProg f start cdb).exec s

/-- MODE_SELECT_10: the Caching (0x08) and Control (0x0A) pages take the bytes sent. -/
def modeSelectProg (f : SasFrom) (page : Nat) (bytes : List Byte) (cdb : Cdb) : Prog :=
  sasOther f cdb (when (page == 0x08 || page == 0x0A)
    (.upd (.hif fun x => { x with modePages := (x.modePages.filter fun e => e.1 != page) ++ [(page, ofLeBytes bytes)] })))
def execModeSelect10 (f : SasFrom) (page : Fin 64) (bytes : List Byte) (cdb : Cdb) (s : State) := (modeSelectProg f page bytes cdb).exec s

/-- Task management answers: 0 function complete, 8 function succeeded (QUERY TASK of a held task). -/
def taskAnswer (q nexus tag code : Nat) : Prog := send "SAS" "task response" [q, nexus, tag, code]

/-- ABORT_TASK: by tag and nexus, under the abort rules (R315, R338). -/
def abortTaskProg (q nexus tag : Nat) : Prog := whenS (fun s => s.isSas && s.portUp q) (.ask fun s => .seq
  (match s.cqe.cmds.find? fun c => c.port == q && c.nexus == nexus && c.cid == tag with
    | some c => when (c.catchable false) (catchCmd c 0x07)
    | none => .skip)
  (taskAnswer q nexus tag 0))
def execAbortTask (q : Fin 2) (nexus tag : BitVec 16) (s : State) := (abortTaskProg q nexus.toNat tag.toNat).exec s

/-- LOGICAL_UNIT_RESET: every command of the unit from every initiator (R315, R341). -/
def lunResetProg (q nexus tag lun : Nat) : Prog := whenS (fun s => s.isSas && s.portUp q)
  (.seq (resetCmds fun c => c.lun == lun) (taskAnswer q nexus tag 0))
def execLogicalUnitReset (q : Fin 2) (nexus tag : BitVec 16) (lun : Fin 128) (s : State) := (lunResetProg q nexus.toNat tag.toNat lun).exec s

/-- I_T_NEXUS_RESET: one nexus across all logical units (R315). -/
def nexusResetProg (q nexus tag : Nat) : Prog := whenS (fun s => s.isSas && s.portUp q)
  (.seq (resetCmds fun c => c.port == q && c.nexus == nexus) (taskAnswer q nexus tag 0))
def execITNexusReset (q : Fin 2) (nexus tag : BitVec 16) (s : State) := (nexusResetProg q nexus.toNat tag.toNat).exec s

/-- QUERY_TASK: is the task held. -/
def queryTaskProg (q nexus tag : Nat) : Prog := whenS (fun s => s.isSas && s.portUp q) (.ask fun s =>
  taskAnswer q nexus tag (if s.cqe.cmds.any fun c => c.port == q && c.nexus == nexus && c.cid == tag && !c.silent then 8 else 0))
def execQueryTask (q : Fin 2) (nexus tag : BitVec 16) (s : State) := (queryTaskProg q nexus.toNat tag.toNat).exec s

end Sys2Proof.Machine
end

