-- ==== Sys2Proof/Machine/Hif.lean ====
section
/-! DEFINITION. HIF: doorbells, controllers, ports, reference clock, NVMe-MI (chapter 11; R341, R342). -/
namespace Sys2Proof.Machine

/-- Port `q` exists: single-port PCIe has no port 1 (R302). -/
def State.portExists (s : State) (q : Nat) : Bool := q == 0 || s.get HIF_CFG.PROTO 0 == 1 || s.isSas

/-- SQ_TAIL_DOORBELL: entries become available for fetch (R322). -/
def sqTailProg (q i tail : Nat) : Prog := .ask fun s => when ((s.port q).en && match (s.port q).sq i with
    | some x => decide (tail < x.size)
    | none => false) (setSq q i fun x => { x with tail })
def execSqTailDoorbell (q : Fin 2) (i : Fin 65) (tail : Fin 4096) (s : State) := (sqTailProg q i tail).exec s

/-- Held completions are posted while the queue has room (R313). -/
def cqDrain : Nat → Nat → Nat → Prog
  | 0, _, _ => .skip
  | k + 1, q, i => .ask fun s => match (s.port q).cq i with
      | some c => (match c.held with
          | o :: l => when (decide (c.used + 1 < c.size)) (.seq (.seq (setCq q i fun x => { x with held := l }) (cqPost q i o (match o with
                | .completion _ _ _ sct sc _ _ => sct != 0 || sc != 0
                | _ => false))) (cqDrain k q i))
          | [] => .skip)
      | none => .skip

/-- CQ_HEAD_DOORBELL: the host frees entries; held completions go out and fetch resumes (R313). -/
def cqHeadProg (q i head : Nat) : Prog := .ask fun s => match (s.port q).cq i with
  | some c => when ((s.port q).en && decide (head < c.size)) (.seq (setCq q i fun x => { x with head }) (cqDrain c.held.length q i))
  | none => .skip
def execCqHeadDoorbell (q : Fin 2) (i : Fin 65) (head : Fin 4096) (s : State) := (cqHeadProg q i head).exec s

/-- CONTROLLER_ENABLE: CC.EN = 1 with the admin queues' sizes, at most 256 entries, and the arbitration that the host selects, round robin or weighted
(`wrr`); RDY follows (R309, R323, R341, R498). -/
def enableProg (q asqs acqs : Nat) (wrr : Bool) : Prog := .ask fun s => when (!s.isSas && s.portExists q && s.portUp q && !(s.port q).en) (.seq
  (setPort q fun p => { p with
    en := true, shn := none, shst := 0, abrupt := false, wrr, arbLast := [0, 0, 0, 0], arbQ := 0, burst := 0, credit := [0, 0, 0]
    sqs := [{ id := 0, size := asqs + 1, cq := 0 }], cqs := [{ id := 0, size := acqs + 1 }] })
  (rdyFollows q))
def execControllerEnable (q : Fin 2) (aq : AdminQueues) (wrr : Bool) (s : State) := (enableProg q aq.asqs aq.acqs wrr).exec s

/-- CONTROLLER_RESET: CC.EN from 1 to 0 (R341). -/
def execControllerReset (q : Fin 2) (s : State) := (whenS (fun t => (t.port q).en) (controllerReset q)).exec s

/-- CONTROLLER_RESET_COMPLETE: CSTS.RDY reads 0; an abrupt shutdown is complete (R341, R342). -/
def resetCompleteProg (q : Nat) : Prog := .ask fun s => when ((s.port q).resetting) (all [
  setPort q fun p => { p with resetting := false, rdy := false, shst := if p.abrupt then 2 else p.shst },
  setF HIF_PORT_STAT.CTRL_RDY q 0, rdyFollows q])
def execControllerResetComplete (q : Fin 2) (s : State) := (resetCompleteProg q).exec s

/-- SHUTDOWN_NORMAL: CC.SHN = 01b (R342). -/
def shutdownProg (q : Nat) : Prog := .ask fun s => when ((s.port q).en && (s.port q).shn.isNone)
  (setPort q fun p => { p with shn := some s.cqe.nextSeq, shst := 1 })
def execShutdownNormal (q : Fin 2) (s : State) := (shutdownProg q).exec s

/-- SHUTDOWN_COMPLETE: no command of the controller is held, but for Asynchronous Event Requests (assumption log 31), and earlier writes are power-safe (R342). -/
def shutdownCompleteProg (q : Nat) : Prog := .ask fun s => match (s.port q).shn with
  | some n => when (!(s.cqe.cmds.any fun c => c.port == q && !s.isAer c || c.writes && !c.arrived && older c.seq n) &&
      s.cqe.overlay.all fun v => !older v.seq n || s.verSafe v) (setPort q fun p => { p with shst := 2 })
  | none => .skip
def execShutdownComplete (q : Fin 2) (s : State) := (shutdownCompleteProg q).exec s

/-- SHUTDOWN_ABRUPT: CC.SHN = 10b acts as a controller reset (R342). -/
def abruptProg (q : Nat) : Prog := .ask fun s => when ((s.port q).en)
  (.seq (controllerReset q) (setPort q fun p => { p with abrupt := true, resetting := true, shst := 1 }))
def execShutdownAbrupt (q : Fin 2) (s : State) := (abruptProg q).exec s

/-- MAX_RATE and MAX_WIDTH in force (Table 11.8). -/
def State.maxRate (s : State) (q : Nat) : Nat := clampN 1 5 (s.get HIF_PORT_CTL.MAX_RATE q)
def State.portLanes (s : State) : Nat := if s.get HIF_CFG.PROTO 0 = 1 then 2 else 4
def State.maxWidth (s : State) (q : Nat) : Nat :=
  let w := s.get HIF_PORT_CTL.MAX_WIDTH q
  if (w = 1 ∨ w = 2 ∨ w = 4) ∧ w ≤ s.portLanes then w else s.portLanes

/-- Port `q` may leave Detect (R306, R308; Tables 11.8, 18.5, 18.6). -/
def State.mayTrain (s : State) (q : Nat) : Bool :=
  s.portExists q && !s.on HIF_PORT_CTL.DISABLE q && !(s.port q).perst && !s.on HIF_PORT_STAT.REFCLK_BAD q && !s.ptm.retention &&
    decide (4 ≤ s.get PTM_BOOT_STAT.STEP 0) && s.get PTM_BOOT_STAT.BOOT_ERR 0 != 3

/-- HOST_LINK_UP: training ends at the highest rate and width common to the partner's and the port's limits (R303, R304). -/
def linkUpProg (q rate width : Nat) : Prog := .ask fun s => when (s.mayTrain q && !s.portUp q) (
  if s.isSas then when (rate == 6 || rate == 7) (all [
    setF HIF_PORT_STAT.LINK q 2, setF HIF_PORT_STAT.RATE q (if s.get HIF_PORT_CTL.MAX_RATE q = 6 then 6 else rate), setF HIF_PORT_STAT.WIDTH q 1,
    setF HIF_PORT_STAT.CTRL_RDY q (s.get PTM_BOOT_STAT.FETCH_EN 0)])
  else when (decide (1 ≤ rate ∧ rate ≤ 5 ∧ 1 ≤ width)) (all [
    setF HIF_PORT_STAT.LINK q 2, setF HIF_PORT_STAT.RATE q (min rate (s.maxRate q)),
    setF HIF_PORT_STAT.WIDTH q (if 4 ≤ min width (s.maxWidth q) then 4 else if 2 ≤ min width (s.maxWidth q) then 2 else 1),
    setPort q fun p => { p with l2 := false }]))
def execHostLinkUp (q : Fin 2) (rate : Fin 8) (width : Fin 5) (s : State) := (linkUpProg q rate width).exec s

/-- The port is up, or was and is in Recovery: a retrain keeps its rate and width until the link is up again or lost (R317). -/
def State.linkHeld (s : State) (q : Nat) : Bool := s.portUp q || s.get HIF_PORT_STAT.LINK q == 1 && s.get HIF_PORT_STAT.WIDTH q != 0

/-- DL_DOWN; HOST_RECOVERY_TIMEOUT: a port that was up is lost (R317). -/
def execDlDown (q : Fin 2) (s : State) := (whenS (fun t => !t.isSas && t.linkHeld q) (portLost q)).exec s
def execHostRecoveryTimeout (q : Fin 2) (s : State) := (whenS (fun t => t.linkHeld q) (portLost q)).exec s

/-- PERST_ASSERT: resets that port's PCIe logic and controller, a loss of the port (R308, R317). -/
def perstProg (q : Nat) : Prog := .ask fun s => .seq (setBitF PTM_GPIO_IN.IN 0 q false)
  (when (s.on HIF_CFG.PERST_EN 0 && !s.isSas && s.portExists q && !(s.port q).perst)
    (.seq (portLost q) (setPort q fun p => { p with perst := true, l2 := false })))
def execPerstAssert (q : Fin 2) (s : State) := (perstProg q).exec s

/-- PERST_DEASSERT: the port may train (R308). -/
def perstEndProg (q : Nat) : Prog := all [setBitF PTM_GPIO_IN.IN 0 q true, setPort q fun p => { p with perst := false },
  whenS (fun s => s.mayTrain q && !s.isSas && !s.portUp q) (setF HIF_PORT_STAT.LINK q 1)]
def execPerstDeassert (q : Fin 2) (s : State) := (perstEndProg q).exec s

/-- HOT_RESET, FUNCTION_LEVEL_RESET, LINK_DISABLE: as an assertion of PERST# on their own port (R308, R317). -/
def inbandReset (q : Nat) : Prog := whenS (fun s => !s.isSas && s.linkHeld q) (portLost q)
def execHotReset (q : Fin 2) (s : State) := (inbandReset q).exec s
def execFunctionLevelReset (q : Fin 2) (s : State) := (inbandReset q).exec s
def execLinkDisable (q : Fin 2) (s : State) := (inbandReset q).exec s

/-- SAS_HARD_RESET (R315, R317). -/
def execSasHardReset (q : Fin 2) (s : State) := (whenS (fun t => t.isSas && t.linkHeld q) (portLost q)).exec s

/-- PORT_DISABLE: a write of DISABLE = 1 (Table 11.8). -/
def portDisable (q : Nat) : Prog := .seq (setF HIF_PORT_CTL.DISABLE q 1) (.ask fun s => if s.linkHeld q then portLost q else setF HIF_PORT_STAT.LINK q 0)
def execPortDisable (q : Fin 2) (s : State) := (portDisable q).exec s

/-- RETRAIN: the link trains again within the limits now in force (R303, Table 11.8). -/
def portRetrain (q : Nat) : Prog := whenS (fun s => s.portUp q) (setF HIF_PORT_STAT.LINK q 1)
def execRetrain (q : Fin 2) (s : State) := (portRetrain q).exec s

/-- REFCLK_H_LOSS, REFCLK_H_RETURN: ports on the common reference clock (R305, R306). -/
def State.onRefclk (s : State) (q : Nat) : Bool := !s.isSas && s.portExists q && !s.on (if q = 0 then HIF_CFG.CLK_SRC0 else HIF_CFG.CLK_SRC1) 0
def refclkProg (bad : Bool) : Prog := .ask fun s => each (([0, 1] : List Nat).filter s.onRefclk) fun q => .seq
  (setF HIF_PORT_STAT.REFCLK_BAD q (b2n bad)) (when (bad && s.get HIF_PORT_STAT.LINK q == 1) (setF HIF_PORT_STAT.LINK q 0))
def execRefclkHLoss (s : State) := (refclkProg true).exec s
def execRefclkHReturn (s : State) := (refclkProg false).exec s

/-- LINK_L1_ENTRY, LINK_L1_EXIT (R307, Table 11.9). -/
def execLinkL1Entry (q : Fin 2) (s : State) := (whenS (fun t => !t.isSas && t.get HIF_PORT_STAT.LINK q == 2) (setF HIF_PORT_STAT.LINK q 3)).exec s
def execLinkL1Exit (q : Fin 2) (s : State) := (whenS (fun t => t.get HIF_PORT_STAT.LINK q == 3) (setF HIF_PORT_STAT.LINK q 2)).exec s

/-- PME_TURN_OFF: the port goes into L2, no loss of R317 (R307, R501). -/
def pmeProg (q : Nat) : Prog := whenS (fun t => !t.isSas && t.portUp q) (all [
  setPort q fun p => { p with l2 := true }, setF HIF_PORT_STAT.LINK q 0, setF HIF_PORT_STAT.RATE q 0, setF HIF_PORT_STAT.WIDTH q 0])
def execPmeTurnOff (q : Fin 2) (s : State) := (pmeProg q).exec s

/-- INTERRUPT_COALESCING_TIMEOUT: the message held for an I/O completion queue goes out (R312). -/
def coalesceProg (q i : Nat) : Prog := .ask fun s => match (s.port q).cq i with
  | some c => when (i != 0 && c.coalesced != 0 && decide (c.heldAt + (s.port q).coalesceTime ≤ s.ptm.ticks)) (cqInterrupt q i)
  | none => .skip
def execInterruptCoalescingTimeout (q : Fin 2) (i : Fin 65) (s : State) := (coalesceProg q i).exec s

/-- What MGMT receives: answered in every mode but RETENTION, where the packet is not acknowledged and is a wake source, whose wake is RETENTION_WAKE's
(R316, R502). -/
def mgmt (p : Prog) : Prog := .ask fun s => if s.ptm.retention then when (s.on PTM_WAKE_CFG.MGMT_EN 0) (emit (.event "wake source" [3])) else p

/-- An answer on MGMT (R316). What NVMe-MI puts into it and the spec does not give is free. -/
def mgmtAnswer (kind : String) (args : List Nat) : Prog := mgmt (fresh fun v => send "MGMT" kind (args ++ [v]))

/-- MCTP_PACKET: answered (R316). -/
def mctpProg (payload : Nat) : Prog := mgmtAnswer "MCTP" [payload]
def execMctpPacket (payload : BitVec 64) (s : State) := (mctpProg payload.toNat).exec s
def execNvmeMiBasicManagement (s : State) := (mgmtAnswer "basic management" []).exec s
def execReadNvmeMiDataStructure (kind port : BitVec 8) (s : State) := (mgmtAnswer "data structure" [kind.toNat, port.toNat]).exec s

/-- SUBSYSTEM_HEALTH_STATUS_POLL, CONTROLLER_HEALTH_STATUS_POLL: with what the spec gives of them: links, readiness, CSTS. -/
def subsystemHealthProg : Prog := .ask fun s => mgmtAnswer "subsystem health"
  [s.get HIF_PORT_STAT.LINK 0, s.get HIF_PORT_STAT.LINK 1, s.get HIF_PORT_STAT.CTRL_RDY 0, s.get HIF_PORT_STAT.CTRL_RDY 1]
def execSubsystemHealthStatusPoll (s : State) := subsystemHealthProg.exec s
def controllerHealthProg (q : Nat) : Prog := .ask fun s =>
  mgmtAnswer "controller health" [q, b2n (s.port q).rdy, b2n (s.port q).cfs, (s.port q).shst, b2n (s.port q).pp]
def execControllerHealthStatusPoll (q : Fin 2) (s : State) := (controllerHealthProg q).exec s

/-- CONFIGURATION_SET, CONFIGURATION_GET. -/
def configSetProg (item value : Nat) : Prog := mgmt (.seq
  (.upd (.hif fun x => { x with miConfig := (x.miConfig.filter fun e => e.1 != item) ++ [(item, value)] })) (mgmtAnswer "configuration set" [item]))
def execConfigurationSet (item : BitVec 8) (value : BitVec 32) (s : State) := (configSetProg item.toNat value.toNat).exec s
def configGetProg (item : Nat) : Prog := .ask fun s => match s.hif.miConfig.find? fun e => e.1 == item with
  | some e => mgmt (send "MGMT" "configuration" [item, e.2])
  | none => mgmtAnswer "configuration" [item]
def execConfigurationGet (item : BitVec 8) (s : State) := (configGetProg item.toNat).exec s

/-- VPD_READ, VPD_WRITE: the VPD lies in device configuration; a byte never written there is free. -/
def vpdReadProg (off len : Nat) : Prog := .ask fun s => mgmt (send "MGMT" "VPD" (off :: (List.range len).map fun k =>
  ((s.kpr.vpd.find? fun e => e.1 == off + k).map (·.2)).getD (Config.vpdByte (off + k) % 256)))
def execVpdRead (off len : BitVec 16) (s : State) := (vpdReadProg off.toNat len.toNat).exec s
def vpdWriteProg (off : Nat) (bytes : List Byte) : Prog := mgmt (.seq
  (.upd (.kpr fun x => { x with vpd := (x.vpd.filter fun e => !decide (off ≤ e.1 ∧ e.1 < off + bytes.length)) ++ bytes.mapIdx fun k b => (off + k, b.toNat) }))
  (mgmtAnswer "VPD written" [off]))
def execVpdWrite (off : BitVec 16) (bytes : List Byte) (s : State) := (vpdWriteProg off.toNat bytes).exec s

/-- MI_TUNNELLED_ADMIN: Identify, Get Log Page and Get Features run on controller 0 and are answered by application firmware over MGMT. -/
def tunnelProg (op : Nat) (x : Sqe) : Prog := mgmt (
  if op = 0x06 ∨ op = 0x02 ∨ op = 0x0A then emit (.event "tunnelled admin" (x.words op)) else mgmtAnswer "unsupported opcode" [op])
def execMiTunnelledAdmin (op : BitVec 8) (x : Sqe) (s : State) := (tunnelProg op.toNat x).exec s

end Sys2Proof.Machine
end

