-- ==== Sys2Proof/Machine/Cqe.lean ====
section
/-! DEFINITION. Buffer slots, write data, the budget, the content cache's fills, hand-off, claims, activation (R328 to R332, R343 to R347, R353 to
R355, R379 to R392). -/
namespace Sys2Proof.Machine

/-- The slots offered are free, distinct and as many as asked (R380). -/
def State.slotsFit (s : State) (l : List Nat) (k : Nat) : Bool :=
  l.length == k && l.Nodup && l.all fun x => decide (x < s.slotCount) && !s.bmu.used.contains x

/-- Take slots: nothing of theirs has landed (R30). -/
def slotsTake (l : List Nat) : Prog := .ask fun s => all [
  .upd (.dmf fun x => { x with landed := l.foldl (fun w k => rangeDrop (s.slotMeta k) (s.slotMeta k + 8) (rangeDrop (s.slotAddr k) (s.slotAddr k + 4096) w)) x.landed }),
  .upd (.bmu fun b => { b with used := b.used ++ l }), slotsShow]

/-- The overlay index has room for the write (R331): versions in it, and those of the transfers in progress. -/
def State.overlayFits (s : State) (k : Nat) : Bool :=
  decide (s.cqe.overlay.length + ((s.cqe.cmds.filter fun c => c.writes && c.started && !c.arrived).map (·.n)).sum + k ≤ 65536)

/-- L of R345 in units of 4 KiB; the budget of 12 MiB. -/
def State.throtLo (s : State) : Nat := 128 * min 23 (s.get CQE_THROT.THROT_LO 0)
def throtB : Nat := 3072

/-- Bytes of write transfers a frame may start while O > L (R345). -/
def State.admissible (s : State) : Nat := 2 * s.cqe.lastFrame * (throtB - s.budgetUsed) / (throtB - s.throtLo)

/-- A list of exactly `n` bytes. -/
def fitBytes (n : Nat) (l : List Byte) : List Byte := (l ++ List.replicate (n - l.length) 0).take n

/-- The data and protection information of LBA `i` of a write as the part keeps them: zeros without a format for it, inserted with PRACT, else as
received (R298, R299, R310, Table 4.3). -/
def State.writeUnit (s : State) (c : Cmd) (n i : Nat) (bytes : List Byte) : List Byte × List Byte :=
  let pract := nbit c.prinfo 3
  let unit := if s.nsHasPi n && !pract then 4104 else 4096
  let part := if c.zero then [] else (bytes.drop (i * unit)).take unit
  let data := fitBytes 4096 (part.take 4096)
  let ref := if s.get CQE_NS_CFG.PIT n = 3 then c.reftag else (c.reftag + i) % 2 ^ 32
  (data, if !s.nsHasPi n then List.replicate 8 0 else if pract then piBytes (guardCrc data) c.apptag ref else fitBytes 8 (part.drop 4096))

/-- A write of this sequence number was overtaken by a Reset of its zone. -/
def State.zoneOvertakes (s : State) (n lba seq : Nat) : Bool :=
  s.on CQE_NS_CFG.ZONED n && match (s.zone n (lba / s.zoneLbas n)).rst with
    | some r => older seq r
    | none => false

/-- All of a write's data has arrived: its versions enter the index in one tick, beneath newer ones (R328); frames lose those LBAs (R392); reads look
again; a write without FUA queues for the budget (R382). A check of its protection information that fails ends it (R299). -/
def writeArrived (t : Nat) (bytes : List Byte) : Prog := .ask fun s =>
  match s.cmd t with
  | none => .skip
  | some c => match c.ns with
    | none => .skip
    | some n =>
      let units := (List.range c.n).map fun i => (i, s.writeUnit c n i bytes)
      match units.findSome? fun e => if c.zero || nbit c.prinfo 3 then none else s.piCheck c n e.1 e.2.1 e.2.2 with
      | some sc => .seq (complete c 2 sc false 0) (.seq flushSweep resolveAll)
      | none =>
        let kept := units.filter fun e => !s.zoneOvertakes n (c.lba + e.1) c.seq
        let hit (l : Nat) : Bool := decide (c.lba ≤ l ∧ l < c.lba + c.n)
        all [
          each kept fun e => let k := c.slots.getD e.1 0
            .seq (fabricStore .hif (s.slotAddr k) e.2.1) (fabricStore .hif (s.slotMeta k) e.2.2),
          .upd (.cqe fun x => { x with
            overlay := x.overlay ++ kept.map fun e => { ns := n, lba := c.lba + e.1, seq := c.seq, slot := c.slots.getD e.1 0 }
            cmds := x.cmds.map fun d => if d.ctag == t then { d with arrived := true }
              else if d.kind == kdRead && d.ns == some n then { d with lbas := d.lbas.mapIdx fun i e => if e.st == 1 && hit (d.lba + i) then { e with stale := true } else e }
              else d }),
          cccInvalidate n hit,
          when (!c.fua) (.upd (.bmu fun b => { b with budgetQ := b.budgetQ ++ [t] })),
          versionSweep, slotsSweep, resolveAll]

/-- A write's transfer starts into its slots; a write of zeros needs none. -/
def writeGo (c : Cmd) (slots : List Nat) : Prog := all [
  setCmd c.ctag fun d => { d with started := true, slots }, slotsTake slots, when c.zero (writeArrived c.ctag [])]

/-- The transfer of a write may start now, as to slots and the overlay. -/
def State.writeReady (s : State) (c : Cmd) (slots : List Nat) : Bool :=
  c.writes && !c.started && c.ns.isSome && s.slotsFit slots c.n && decide (256 * s.get BMU_SLOT_STAT.RD_RSV 0 < s.freeSlots) && s.overlayFits c.n

/-- LBAs of a read that media work will bring. -/
def Cmd.mediaLbas (c : Cmd) : List Nat := (c.lbas.zipIdx.filter fun e => e.1.st == 1 && e.1.slot.isNone).map (·.2)

/-- SLOT_ASSIGN: a waiting write, or a read's media work, is given slots (R331, R345, R380). -/
def slotAssignProg (t : Nat) (slots : List Nat) : Prog := .ask fun s =>
  match s.cmd t with
  | none => .skip
  | some c =>
    if c.writes then when (s.writeReady c slots && decide (s.budgetUsed ≤ s.throtLo)) (writeGo c slots)
    else when (c.kind == kdRead && !c.mediaLbas.isEmpty && s.slotsFit slots c.mediaLbas.length) (.seq
      (setCmd t fun d => { d with slots := d.slots ++ slots, lbas := d.lbas.mapIdx fun i e => match (c.mediaLbas.zip slots).find? fun z => z.1 == i with
        | some z => { e with slot := some z.2 }
        | none => e })
      (slotsTake slots))
def execSlotAssign (t : BitVec 12) (slots : List (Fin 1048576)) (s : State) := (slotAssignProg t.toNat (slots.map (·.val))).exec s

/-- WRITE_ADMISSION: a throttled transfer starts within what the frame admits (R345). -/
def admissionProg (t : Nat) (slots : List Nat) : Prog := .ask fun s =>
  match s.cmd t with
  | none => .skip
  | some c => when (s.writeReady c slots && decide (s.throtLo < s.budgetUsed ∧ s.cqe.admitted + 4096 * c.n ≤ s.admissible))
      (.seq (.upd (.cqe fun x => { x with admitted := x.admitted + 4096 * c.n })) (writeGo c slots))
def execWriteAdmission (t : BitVec 12) (slots : List (Fin 1048576)) (s : State) := (admissionProg t.toNat (slots.map (·.val))).exec s

/-- WRITE_DATA_COMPLETE (R328). -/
def writeDataProg (t : Nat) (bytes : List Byte) : Prog := .ask fun s =>
  match s.cmd t with
  | some c => when (c.writes && c.started && !c.arrived) (writeArrived t bytes)
  | none => .skip
def execWriteDataComplete (t : BitVec 12) (bytes : List Byte) (s : State) := (writeDataProg t.toNat bytes).exec s

/-- The versions of a write, and those of them that need a unit: no newer version of their LBA is power-safe. -/
def State.versOf (s : State) (c : Cmd) : List Ver := s.cqe.overlay.filter fun v => some v.ns == c.ns && v.seq == c.seq
def State.unitsOf (s : State) (c : Cmd) : List Ver := (s.versOf c).filter fun v => !s.verSafe v

/-- Units that the write's entry displaces (R382, R383). -/
def State.displaces (s : State) (c : Cmd) (w : Ver) : Bool :=
  w.inBudget && (s.unitsOf c).any fun v => v.ns == w.ns && v.lba == w.lba && older w.seq v.seq

/-- The write fits in the budget with these journal blocks, free ones (R382, R509). -/
def State.budgetFits (s : State) (c : Cmd) (blocks : List Nat) : Bool :=
  let stay := s.cqe.overlay.filter fun w => w.inBudget && !s.displaces c w
  blocks.length == (s.unitsOf c).length && blocks.Nodup && !(blocks.any fun k => stay.any fun w => w.block == some k) &&
    decide (stay.length + blocks.length ≤ s.get BMU_BUDGET.MAX 0)

/-- BUDGET_ENTRY: the first write waiting enters whole, and completes (R332, R382 to R384). -/
def budgetProg (blocks : List Nat) : Prog := .ask fun s =>
  match s.bmu.budgetQ.head?.bind s.cmd with
  | none => .skip
  | some c => when (!s.inPowerLoss && s.budgetFits c blocks) (
      let put := (s.unitsOf c).zip blocks
      all [
        .upd (.bmu fun b => { b with budgetQ := b.budgetQ.tail }),
        .upd (.cqe fun x => { x with overlay := x.overlay.map fun v => match put.find? fun e => e.1 == v with
          | some e => { v with inBudget := true, block := some e.2 }
          | none => v }),
        if c.silent then dropCmd c else when c.want.isNone (complete c 0 0 false 0),
        versionSweep])
def execBudgetEntry (blocks : List (Fin 3040)) (s : State) := (budgetProg (blocks.map (·.val))).exec s

/-- DISCARD_GO: the Keeper's, discarded while BUSY (R386). -/
def discardGo (n : Nat) : Prog := whenS (fun s => !s.on BMU_DISCARD.BUSY 0) (.seq (setF BMU_DISCARD.NS 0 n) (setF BMU_DISCARD.BUSY 0 1))
def execDiscardGo (m : Master) (n : Fin 128) (s : State) := (keeperOnly m .BMU_DISCARD 0 (discardGo n)).exec s

/-- A namespace's data leaves the part: versions, destage, frames (R386). -/
def nsDiscard (n : Nat) : Prog := .ask fun s => all [
  .upd (.mpc fun x => { x with enc := x.enc.filter fun e => s.nsOfRow e.row != some n }), mpcShow,
  versDrop n 0 (s.nsLbas n), cccDrop fun m => m == n, slotsSweep]

/-- DISCARD_EXECUTE: once no command of the namespace is held, in one tick (R386). -/
def discardProg : Prog := .ask fun s =>
  let n := s.get BMU_DISCARD.NS 0
  when (s.on BMU_DISCARD.BUSY 0 && !(s.cqe.cmds.any fun c => c.ns == some n)) (.seq (nsDiscard n) (setF BMU_DISCARD.BUSY 0 0))
def execDiscardExecute (s : State) := discardProg.exec s

/-- CCC_FRAME_FILL: an LBA that a read took from the medium is copied from its slot into its frame, unless a version of it has entered (R390). -/
def frameFillProg (f k : Nat) : Prog := .ask fun s =>
  match s.bmu.fills.find? fun e => e.1 == f && e.2.2.1 % 256 == k with
  | some (_, ns, lba, slot) => all [
      .upd (.bmu fun b => { b with fills := b.fills.filter fun e => !(e.1 == f && e.2.1 == ns && e.2.2.1 == lba) }),
      when ((s.frameOf ns (lba / 256)).map (·.1) == some f) (.seq
        (fabricStore .bmu (s.frameAddr f + 4096 * k) (s.bytes (s.slotAddr slot) 4096))
        (setFrame f fun x => { x with valid := k :: x.valid.filter (· != k) })),
      slotsSweep]
  | none => .skip
def execCccFrameFill (f : Fin 8192) (k : Fin 256) (s : State) := (frameFillProg f k).exec s

/-- COMMAND_AGE_LIMIT: a held command has reached AGE_LIM, in units of 100 ms, 0 treated as 1 (R347). -/
def ageProg (t : Nat) : Prog := whenS (fun s => match s.cmd t with
    | some c => decide (c.time + 100 * tickMs * max 1 (s.get CQE_AGE.AGE_LIM 0) ≤ s.time)
    | none => false) (all [setF CQE_AGE.AGE_EVT 0 1, setF CQE_AGE.AGE_TAG 0 t, raise 272 (detail 0)])
def execCommandAgeLimit (t : BitVec 12) (s : State) := (ageProg t.toNat).exec s

/-- The hand-off ring (R353): its size, the entries that firmware has not read. -/
def State.hqSize (s : State) : Nat := 2 ^ clampN 8 12 (s.get CQE_HQ_CTL.SIZE_LOG2 0)
def State.hqUsed (s : State) : Nat := (s.get CQE_HQ_PTR.WR 0 + s.hqSize - s.get CQE_HQ_PTR.RD 0 % s.hqSize) % s.hqSize
def State.hqFull (s : State) : Bool := s.hqUsed + 1 == s.hqSize
def hqShow : Prog := .ask fun s => setF CQE_HQ_CTL.FULL 0 (b2n s.hqFull)

/-- An entry as it lies in the ring (Table 12.11); where the slot list lies is free (assumption log 39). -/
def hqWords (c : Cmd) (reason list : Nat) : List Word :=
  ((List.range 16).map fun k => BitVec.ofNat 32 (c.sqe.getD k 0)) ++
    ([b2n c.resumed <<< 25 ||| c.port <<< 24 ||| reason <<< 16 ||| c.kind <<< 12 ||| c.ctag, c.nsid, c.seq, list % 2 ^ 32, list / 2 ^ 32 % 256,
      c.cid <<< 16 ||| c.sqid, c.time] ++ List.replicate 9 0 : List Nat).map (BitVec.ofNat 32)

/-- Write one entry at WR. -/
def hqWrite (c : Cmd) (reason : Nat) : Prog := fresh fun v => .ask fun s =>
  let i := s.get CQE_HQ_PTR.WR 0 % s.hqSize
  all [
    fabricWords .cqe (s.get CQE_HQ_BASE.ADDR 0 * 4096 + 128 * i) (hqWords c reason (v % 2 ^ 40)),
    setF CQE_HQ_PTR.WR 0 ((i + 1) % s.hqSize), setCmd c.ctag fun d => { d with handed := true, hq := i },
    .upd (.cqe fun x => { x with handQ := x.handQ.filter (· != c.ctag) }), hqShow]

/-- A partial row: some of its LBAs, not all, have versions that the medium does not hold. -/
def State.partialRow (s : State) (g : Nat) : Option Nat := (s.nsOfRow g).bind fun n =>
  let k := ((List.range (s.nsD n)).filter fun j => s.cqe.overlay.any fun v => v.ns == n && v.lba == s.rowLba n g j && !v.medium).length
  if 0 < k ∧ k < s.nsD n then some n else none

/-- HANDOFF_ENTRY_WRITE: the first command waiting, or the destage of a partial row (R353; chapter 12, Fast path). -/
def handoffProg (row : Option Nat) : Prog := .ask fun s => when (s.on CQE_HQ_CTL.ENABLE 0 && !s.hqFull) (
  match row with
  | some g => (match s.partialRow g with
      | some n => fresh fun v =>
          let c : Cmd := { ctag := s.freeTag v, port := 0, sqid := 0, cid := 0, kind := kdDestage, nsid := n + 1, ns := some n
                           lba := s.rowLba n g 0, n := s.nsD n, seq := 0, time := s.time, silent := true }
          .seq (.upd (.cqe fun x => { x with cmds := x.cmds ++ [c] })) (hqWrite c 0)
      | none => .skip)
  | none => (match s.cqe.handQ.head?.bind s.cmd with
      | some c => hqWrite c (c.want.getD 0)
      | none => .skip))
def execHandoffEntryWrite (row : Option (BitVec 40)) (s : State) := (handoffProg (row.map (·.toNat))).exec s

/-- CQE_DONE_DW0: latched per master (R354). -/
def doneDw0 (m : Master) (v : Nat) : Prog := .upd (.cqe fun x => { x with dw0 := (x.dw0.filter fun e => e.1 != m.id) ++ [(m.id, v)] })
def execCqeDoneDw0 (m : Master) (v : BitVec 32) (s : State) := (doneDw0 m v.toNat).exec s

/-- CQE_DONE: the completion of a command that firmware holds, else DONE_ERR (R354). -/
def doneProg (m : Master) (t sct sc : Nat) (dnr : Bool) : Prog := .ask fun s =>
  match s.cmd t with
  | some c => if c.handed then
        .seq (complete c sct sc dnr (((s.cqe.dw0.find? fun e => e.1 == m.id).map (·.2)).getD 0)) (.seq flushSweep resolveAll)
      else .seq (setF CQE_STAT.DONE_ERR 0 1) (raise 273 (detail 0))
  | none => .seq (setF CQE_STAT.DONE_ERR 0 1) (raise 273 (detail 0))
def execCqeDone (m : Master) (t : BitVec 12) (sct : Fin 8) (sc : BitVec 8) (dnr : Bool) (s : State) := (doneProg m t.toNat sct sc.toNat dnr).exec s

/-- ACTUATOR_CLAIM: CLAIM of an actuator is set or cleared; a grant waits for the fast path's pass to end (R355). -/
def claimProg (a : Nat) (on : Bool) : Prog := .ask fun s => if on
  then .seq (setBitF CQE_CLAIM.CLAIM 0 a true) (when (!(s.sve.pass.any fun e => e.1 == a && e.2.issuer == 0)) (claimGrant a))
  else .seq (setBitF CQE_CLAIM.CLAIM 0 a false) (setBitF CQE_CLAIM.GRANT 0 a false)
def execActuatorClaim (a : Fin 4) (on : Bool) (s : State) := (claimProg a on).exec s

/-- CLAIM_LEASE_EXPIRY: a grant is held longer than LEASE, in ms, 0 treated as 1; the claim stays in force (R355). -/
def leaseProg (a : Nat) : Prog := whenS (fun s => s.bitF CQE_CLAIM.GRANT 0 a &&
    decide (((s.cqe.grantAt.find? fun e => e.1 == a).map (·.2)).getD 0 + tickMs * max 1 (s.get CQE_CLAIM.LEASE 0) < s.time)) (.seq (setF CQE_CLAIM.LEASE_EVT 0 1) (raise 274 (detail a)))
def execClaimLeaseExpiry (a : Fin 4) (s : State) := (leaseProg a).exec s

/-- Firmware has read a command's entry: RD has passed it. -/
def State.consumed (s : State) (c : Cmd) : Bool :=
  c.handed && decide (s.hqUsed < (s.get CQE_HQ_PTR.WR 0 + s.hqSize - c.hq % s.hqSize - 1) % s.hqSize + 1)

/-- An activation begins (R343 step 1): fetch stops on both controllers, CSTS.PP reads 1. -/
def activationStart : Prog := all [
  .ask fun s => .upd (.cqe fun x => { x with activating := true, swapped := false, actAt := s.ptm.ticks }), cqeState,
  setPort 0 fun p => { p with pp := true }, setPort 1 fun p => { p with pp := true }]

/-- The Keeper swaps the application image and restarts the running application cores, their caches invalid (R343 step 3, R436). -/
def imageSwap : Prog := .ask fun s => all [
  (match s.kpr.fwNext.find? fun e => e.1 == 1 with
    | some e => imageLoad e.2 1
    | none => .skip),
  .upd (.pcx fun p => { p with l1 := p.l1.filter fun e => decide (4 ≤ e.1) }), emit (.event "application image swapped" []),
  each ((List.range 4).filter fun c => s.get PCX_CORE_STAT.STATE c == 1) fun c => emit (.event "core start" [c, s.get PCX_RST_VEC.VEC c])]

/-- The image is swapped; entries that the old one consumed and did not complete are written again with RESUMED (R343, R344). -/
def imageSwapped : Prog := .ask fun s =>
  let again := (s.cqe.cmds.filter s.consumed).map (·.ctag)
  all [
    .upd (.cqe fun x => { x with
      swapped := true, handQ := x.handQ ++ again.filter fun t => !x.handQ.contains t
      cmds := x.cmds.map fun c => if again.contains c.ctag then { c with handed := false, resumed := true, want := some (c.want.getD 0) } else c }),
    imageSwap]

/-- ACTIVATION_TIMEOUT: 2 s have passed, and the Keeper swaps the image all the same (R344). -/
def activationTimeoutProg : Prog := whenS (fun s => s.cqe.activating && !s.cqe.swapped && decide (s.cqe.actAt + 2 * tickSec ≤ s.ptm.ticks)) imageSwapped
def execActivationTimeout (s : State) := activationTimeoutProg.exec s

/-- ACTIVATION_RESUME: the image is swapped, no command held before but Asynchronous Event Requests (assumption log 31) or the 2 s past; fetch resumes, CSTS.PP returns to 0 (R343 step 4). -/
def activationResumeProg : Prog := .ask fun s => when (s.cqe.activating && (s.cqe.swapped || s.cqe.cmds.all s.isAer)) (all [
  when (!s.cqe.swapped) imageSwapped,
  .upd (.cqe fun x => { x with activating := false, swapped := false }), cqeState,
  setPort 0 fun p => { p with pp := false }, setPort 1 fun p => { p with pp := false }, rdyFollows 0, rdyFollows 1])
def execActivationResume (s : State) := activationResumeProg.exec s

/-- A Meridian frame begins: R_d is what the last frame destaged (R345). -/
def cqeFrame : Prog := .upd (.cqe fun x => { x with lastFrame := x.destaged, destaged := 0, admitted := 0 })

end Sys2Proof.Machine
end

