-- ==== Sys2Proof/Machine/Access.lean ====
section
/-! DEFINITION. The memory fabric as a transaction enters it: the address map, the protection checker, powered-down islands (R24, R33 to R37, R429 to
R433). -/
namespace Sys2Proof.Machine

/-- The core that acts for a halted application core: HEIR if it runs, else the lowest-numbered running one (R436). -/
def State.running (s : State) (c : Nat) : Bool := s.get PCX_CORE_STAT.STATE c == 1
def State.heir (s : State) (c : Nat) : Option Nat :=
  if s.running (s.get PCX_CORE_CTL.HEIR c) then some (s.get PCX_CORE_CTL.HEIR c) else (List.range 4).find? s.running
def State.actsFor (s : State) (c : Nat) : Option Nat := if s.get PCX_CORE_STAT.STATE c = 2 then s.heir c else some c

end Sys2Proof.Machine
end

