-- ==== Sys2Proof/Machine/DmfOps.lean ====
section
/-! DEFINITION. DMF's channels: descriptors, hand-over, arbitration, halts, translation (R394 to R416). -/
namespace Sys2Proof.Machine

/-- States of a channel (Table 14.7). -/
def chIdle : Nat := 0
def chReady : Nat := 1
def chRunning : Nat := 2
def chSuspended : Nat := 3
def chHalted : Nat := 4

/-- Halt causes (Table 14.7). -/
def haltBus : Nat := 1
def haltUe : Nat := 2
def haltConfig : Nat := 3
def haltTimeout : Nat := 4
def haltAborted : Nat := 5

/-- A channel, its state and priority, and changes to it. -/
def State.chan (s : State) (n : Nat) : Chan := Sparse.get {} s.dmf.ch n
def State.chSt (s : State) (n : Nat) : Nat := s.get DMF_CH_STAT.STATE n
def State.chPrio (s : State) (n : Nat) : Nat := s.get DMF_CH_CFG.PRIO n
def setChan (n : Nat) (f : Chan → Chan) : Prog := .upd (.dmf fun x => { x with ch := Sparse.put {} x.ch n (f (Sparse.get {} x.ch n)) })

/-- A channel is the fast path's (R394). -/
def State.fastChan (s : State) (n : Nat) : Bool := s.bitF DMF_FP_MASK.MASK 0 n

/-- Who may write a channel's registers: the owner, or the core that acts for it, and the Keeper (R395, R436). -/
def State.dmaMay (s : State) (m : Master) (n : Nat) : Bool :=
  m == .keeper || if s.fastChan n then m == .cqe else match m with
    | .app c => let o := s.get DMF_CH_CFG.OWNER n
      decide (1 ≤ o ∧ o ≤ 4) && s.actsFor (o - 1) == some c.val
    | _ => false

/-- A command on a channel: by any other master it is discarded and reported (R395). -/
def ownerOnly (m : Master) (n : Nat) (p : Prog) : Prog := .ask fun s =>
  if s.dmaMay m n then p else raise 16 (accessCap m 1 2 (regAddr .DMF_CH_CTL n))

/-- A channel's interrupt to its owner (R416). -/
def dmaIrq (n : Nat) : Prog := .ask fun s =>
  setBitF DMF_IRQ_PEND.PEND 0 n (s.on DMF_CH_STAT.DONE_EVT n || s.chSt n == chSuspended || s.chSt n == chHalted)

/-- A channel's state; FCAUSE stands while it is SUSPENDED (R409, R410, R414). -/
def chTo (n st : Nat) : Prog := .ask fun s => all [
  setChan n fun c => { c with mark := s.time }, setF DMF_CH_STAT.STATE n st, setF DMF_CH_STAT.PRQ n (b2n (st == chSuspended)),
  when (st != chSuspended) (setF DMF_CH_STAT.FCAUSE n 0), dmaIrq n]

/-- A channel becomes READY behind those that are. -/
def chToReady (n : Nat) : Prog := all [
  chTo n chReady, .ask fun s => setChan n fun c => { c with since := s.dmf.steps },
  .upd (.dmf fun x => { x with steps := x.steps + 1 })]

/-- A halt (R415): the channel's source is raised, its owner interrupted; an ABORT discards a pending set (R414). -/
def chHalt (n cause : Nat) : Prog := all [
  setF DMF_CH_STAT.CAUSE n cause, chTo n chHalted, setChan n fun c => { c with aborting := false },
  when (cause == haltAborted) (setF DMF_CH_STAT.PEND n 0), raise (128 + n) (detail n)]

/-- A descriptor (Table 14.3). -/
structure DmaDesc where
  src : Nat
  dst : Nat
  len : Nat
  wb : Bool
  irq : Bool
  last : Bool
  skind : Nat
  dkind : Nat
  swap : Nat
  sw : Nat
  dw : Nat
  tag : Nat
  next : Nat

/-- The descriptor that eight words spell. -/
def descOf (w : Nat → Nat) : DmaDesc := {
  src := w 0 + 2 ^ 32 * w 1, dst := w 2 + 2 ^ 32 * w 3, len := nbits (w 4) 23 0, wb := nbit (w 5) 30, irq := nbit (w 5) 29, last := nbit (w 5) 28
  skind := nbits (w 5) 27 26, dkind := nbits (w 5) 25 24, swap := nbits (w 5) 21 20, sw := nbits (w 5) 18 16, dw := nbits (w 5) 14 12
  tag := nbits (w 5) 11 0, next := 32 * ((w 6 + 2 ^ 32 * w 7) / 32) }

/-- The active descriptor of a channel. -/
def State.desc (s : State) (n : Nat) : DmaDesc := descOf fun i => s.get DMF_CH_ACT.W (8 * n + i)

/-- Bytes of a SWAP unit. -/
def swapUnit (swap : Nat) : Nat := if swap = 0 then 1 else if swap = 1 then 2 else 4

/-- The check of R398. A stream-port end counts LEN by bytes: R399 gives a sector's 8 metadata bytes a descriptor of their own (assumption log 38). -/
def DmaDesc.valid (d : DmaDesc) : Bool :=
  decide (d.sw < 5 ∧ d.dw < 5 ∧ d.skind < 2 ∧ d.dkind < 2 ∧ d.len % 2 ^ max (if d.skind = 0 then d.sw else 0) (if d.dkind = 0 then d.dw else 0) = 0 ∧ d.len % swapUnit d.swap = 0) &&
    (if d.skind = 0 then d.src % 2 ^ d.sw == 0 else d.src % 256 == 1 && d.sw == 4) &&
    (if d.dkind = 0 then d.dst % 2 ^ d.dw == 0 else d.dst % 256 == 0 && d.dw == 4)

/-- The translation mode of a channel; fast-path channels always use Bare (R407). -/
def State.atpMode (s : State) (n : Nat) : Nat := if s.fastChan n then 0 else s.get DMF_CH_ATP.MODE n

/-- A descriptor image becomes active: words from memory at `addr`, or the shadow set. -/
def loadDesc (n : Nat) (ws : Nat → Nat) (addr : Option Nat) : Prog := all [
  each (List.range 8) fun i => setF DMF_CH_ACT.W (8 * n + i) (ws i),
  setF DMF_CH_STAT.TAG n (descOf ws).tag, setF DMF_CH_STAT.RETRIES n 0, setR .DMF_CH_PROG n 0,
  setChan n fun c => { c with held := [], descAddr := addr, fetching := false, writeback := false }]

/-- The pending shadow set is taken over as a whole (R404, R406). -/
def takeShadow (n : Nat) : Prog := .ask fun s =>
  .seq (loadDesc n (fun i => s.get DMF_CH_SHD.W (8 * n + i)) none) (setF DMF_CH_STAT.PEND n 0)

/-- An active descriptor is checked (R398, R407); one of no bytes completes at once, `done` being what follows its last byte. -/
def checkDesc (n : Nat) (done : Prog) : Prog := .ask fun s =>
  if !(s.desc n).valid || (s.atpMode n != 0 && s.atpMode n != 9) then chHalt n haltConfig
  else when ((s.desc n).len == 0) (
    if (s.desc n).wb && (s.chan n).descAddr.isSome then setChan n fun c => { c with writeback := true } else done)

/-- The end of a descriptor (R400, R404, R405): `late` if a commit is sampled in this step. An ABORT that waits acts at this boundary (R414). A descriptor without bytes may end the same way. -/
def descEnd : Nat → Nat → Bool → Prog
  | 0, _, _ => .skip
  | k + 1, n, late => .ask fun s => all [
      when (s.desc n).irq (setF DMF_CH_STAT.DONE_EVT n 1),
      when late (setF DMF_CH_STAT.SHADOW_LATE n 1),
      setChan n fun c => { c with writeback := false },
      if (s.chan n).aborting then chHalt n haltAborted
      else if (s.desc n).last then chTo n chIdle
      else if s.on DMF_CH_STAT.PEND n ∧ !late then .seq (takeShadow n) (checkDesc n (descEnd k n false))
      else setChan n fun c => { c with fetching := true },
      dmaIrq n]

/-- Channels of a domain in a state; the READY channel that an engine takes (R396, rule 1). -/
def chansIn (d : Nat) : List Nat := (List.range 32).map fun k => 32 * d + k
def State.chansAt (s : State) (d st : Nat) : List Nat := (chansIn d).filter fun n => s.chSt n == st
def State.bestReady (s : State) (d : Nat) : Option Nat := (s.chansAt d chReady).foldl (fun b n =>
  match b with
  | none => some n
  | some k => if s.chPrio k < s.chPrio n ∨ (s.chPrio k = s.chPrio n ∧ (s.chan n).since < (s.chan k).since) then some n else some k) none

/-- An arbitration step of a domain (R396 rule 1, R404): pending sets of IDLE channels are taken over, free engines take READY channels. -/
def arbitrate (d : Nat) : Prog := .ask fun s => .seq
  (each ((s.chansAt d chIdle).filter fun n => s.on DMF_CH_STAT.PEND n) fun n =>
    all [takeShadow n, chToReady n, checkDesc n (descEnd 2 n false)])
  (each (List.range 4) fun _ => .ask fun t => when (decide ((t.chansAt d chRunning).length < 4)) (match t.bestReady d with
    | some n => chTo n chRunning
    | none => .skip))

/-- What a running channel does at a burst boundary (R396 rules 2 and 3, R414): `descB` if it is a descriptor boundary. -/
def chBoundary (n : Nat) (descB : Bool) : Prog := .ask fun s =>
  let d := n / 32
  let ready := s.chansAt d chReady
  let lowest := (s.chansAt d chRunning).all fun k => decide (s.chPrio n < s.chPrio k ∨ (s.chPrio n = s.chPrio k ∧ k ≤ n))
  when (s.chSt n == chRunning) (
    if (s.chan n).aborting then chHalt n haltAborted
    else when ((descB && ready.any fun k => decide (s.chPrio n ≤ s.chPrio k)) ||
        (decide (4 ≤ (s.chansAt d chRunning).length) && lowest && ready.any fun k => decide (s.chPrio n < s.chPrio k))) (chToReady n))

/-- A write of COMMIT (R404, R406). -/
def chCommit (n : Nat) : Prog := .ask fun s =>
  if s.on DMF_CH_STAT.PEND n then setF DMF_CH_STAT.SHADOW_REJ n 1 else setF DMF_CH_STAT.PEND n 1

/-- A write of RESUME, ABORT, CLEAR (R410, R414, R415). -/
def chResume (n : Nat) : Prog := whenS (fun s => s.chSt n == chSuspended) (.seq (setChan n fun c => { c with prqRaised := false }) (chToReady n))
def chAbort (n : Nat) : Prog := .ask fun s =>
  if s.chSt n = chIdle then setF DMF_CH_STAT.PEND n 0
  else if s.chSt n = chRunning then setChan n fun c => { c with aborting := true }
  else chHalt n haltAborted
def chClear (n : Nat) : Prog := whenS (fun s => s.chSt n == chHalted) (all [
  chTo n chIdle, setF DMF_CH_STAT.CAUSE n 0, setR .DMF_CH_PROG n 0, setChan n fun _ => {}])

/-- A write of DMF_CH_CTL: ABORT alone acts; CLEAR acts before COMMIT (R415). The next step of the domain's arbiter follows (R404). -/
def chControl (n : Nat) (commit resume abort clear : Bool) : Prog := .seq
  (if abort then chAbort n else all [when clear (chClear n), when resume (chResume n), when commit (chCommit n)]) (arbitrate (n / 32))

/-- Page-table entry bits (R407). -/
def pteV (p : Nat) : Bool := nbit p 0
def pteR (p : Nat) : Bool := nbit p 1
def pteW (p : Nat) : Bool := nbit p 2
def pteX (p : Nat) : Bool := nbit p 3
def pteU (p : Nat) : Bool := nbit p 4
def pteA (p : Nat) : Bool := nbit p 6
def pteD (p : Nat) : Bool := nbit p 7
def ptePpn (p : Nat) : Nat := nbits p 53 10
def pteWellFormed (p : Nat) : Bool := pteV p && (pteR p || !pteW p) && p / 2 ^ 54 == 0
def pteLeaf (p : Nat) : Bool := pteR p || pteX p

/-- A leaf permits an access (R407). -/
def leafPermits (p : Nat) (write priv : Bool) : Bool :=
  (if write then pteW p && pteD p else pteR p) && (pteU p == !priv) && pteA p

/-- The end of a walk: a page fault, a failed PTE read, or a leaf and the size of its page in bits. -/
inductive WalkEnd where
  | page | failed | leaf (pte bits : Nat)

/-- The Sv48 walk (R407, R408): from level `l` − 1 down, `base` the table's physical address. -/
def State.sv48 (s : State) (m : Master) (va : Nat) : Nat → Nat → WalkEnd
  | 0, _ => .page
  | l + 1, base =>
    let a := base + 8 * nbits va (20 + 9 * l) (12 + 9 * l)
    if (s.accessFault m atRead a 8).isSome || (s.region a 8).elim true (· == .regs) || s.poisoned a 8 then .failed
    else
      let p := ofLeBytes (s.bytes a 8)
      if !pteWellFormed p then .page
      else if pteLeaf p then (if ptePpn p % 2 ^ (9 * l) = 0 then .leaf p (12 + 9 * l) else .page)
      else if pteU p || pteA p || pteD p then .page
      else s.sv48 m va l (4096 * ptePpn p)

/-- The PTEs that the walk reads, the one that fails the last (R408). -/
def State.sv48Reads (s : State) (m : Master) (va : Nat) : Nat → Nat → List Nat
  | 0, _ => []
  | l + 1, base =>
    let a := base + 8 * nbits va (20 + 9 * l) (12 + 9 * l)
    if (s.accessFault m atRead a 8).isSome || (s.region a 8).elim true (· == .regs) || s.poisoned a 8 then [a]
    else
      let p := ofLeBytes (s.bytes a 8)
      if pteWellFormed p && !pteLeaf p then a :: s.sv48Reads m va l (4096 * ptePpn p) else [a]

/-- An IOTLB entry serves an address of an address space (R408). -/
def Iotlb.serves (e : Iotlb) (asid va : Nat) : Bool := (e.glob || e.asid == asid) && va / 2 ^ e.bits == e.vpn

/-- How a translation ends: a fault with its cause, or a physical address, with the translation to be held. -/
inductive Trans where
  | fault (cause : Nat)
  | ok (pa : Nat) (fill : Option Iotlb)
  deriving DecidableEq, Repr

/-- Translation of an address for a channel (R407, R408); `page` is the cause of a page fault (Table 14.5). -/
def State.translate (s : State) (n va : Nat) (write : Bool) (page : Nat) : Trans :=
  if s.atpMode n = 0 then (if va < 2 ^ 40 then .ok va none else .fault 4)
  else
    let asid := s.get DMF_CH_ATP.ASID n
    let v := va % 2 ^ 48
    let finish (pte bits : Nat) (fill : Option Iotlb) : Trans :=
      let pa := ptePpn pte * 4096 / 2 ^ bits * 2 ^ bits + v % 2 ^ bits
      if !leafPermits pte write (s.on DMF_CH_CFG.PRIV n) then .fault page else if pa < 2 ^ 40 then .ok pa fill else .fault 4
    if va / 2 ^ 47 ≠ 0 ∧ va / 2 ^ 47 ≠ 2 ^ 17 - 1 then .fault page
    else match s.dmf.iotlb.find? (·.serves asid v) with
      | some e => finish e.pte e.bits none
      | none => match s.sv48 (.dma (Fin.ofNat 64 n)) v 4 (4096 * s.get DMF_CH_ATP.PPN n) with
        | .page => .fault page
        | .failed => .fault 5
        | .leaf pte bits => finish pte bits (some { asid, glob := nbit pte 5, vpn := v / 2 ^ bits, bits, pte })

/-- A translation is held; with 512 held, one of them makes room (R408). -/
def tlbFill (e : Iotlb) : Prog := .ask fun s =>
  if s.dmf.iotlb.length < 512 then .upd (.dmf fun x => { x with iotlb := x.iotlb ++ [e] })
  else fresh fun k => .upd (.dmf fun x => { x with iotlb := x.iotlb.eraseIdx (k % 512) ++ [e] })

/-- The PTEs read for an address of a channel: none in Bare mode, for an address that is not canonical, or while the IOTLB serves it (R407, R408). -/
def State.walkReads (s : State) (n va : Nat) : List Nat :=
  let v := va % 2 ^ 48
  if s.atpMode n = 0 ∨ (va / 2 ^ 47 ≠ 0 ∧ va / 2 ^ 47 ≠ 2 ^ 17 - 1) ∨ (s.dmf.iotlb.any (·.serves (s.get DMF_CH_ATP.ASID n) v)) = true then []
  else s.sv48Reads (.dma (Fin.ofNat 64 n)) v 4 (4096 * s.get DMF_CH_ATP.PPN n)

/-- A PTE read passes through the buffer cache; a bus error and a poisoned half are reported with the channel as the master (R34, R364, R394, R408). -/
def walkRead (n a : Nat) : Prog := .ask fun s =>
  let m : Master := .dma (Fin.ofNat 64 n)
  match s.accessFault m atRead a 8 with
  | some src => accessReport m atRead a 8 src
  | none => when (s.region a 8 == some .dram) (.seq (dramTouch m a 8) (when (s.poisoned a 8) (ueReport m atRead (sizeLog 8) a)))

/-- An access is translated before any byte of it is issued (R409); a fault suspends the channel, an ABORT prevails (R414). -/
def translated (n va : Nat) (write : Bool) (page : Nat) (p : Nat → Prog) : Prog := .ask fun s => .seq (each (s.walkReads n va) (walkRead n)) (
  match s.translate n va write page with
  | .fault c =>
    if (s.chan n).aborting then chHalt n haltAborted
    else all [chTo n chSuspended, setF DMF_CH_STAT.FCAUSE n c, setR .DMF_CH_FAULT_VA n va]
  | .ok pa fill => .seq (match fill with
    | some e => tlbFill e
    | none => .skip) (p pa))

/-- A burst that ends in a bus error: retried up to RETRY times (R411, R414). -/
def chBusError (n : Nat) : Prog := .ask fun s =>
  if (s.chan n).aborting then chHalt n haltAborted
  else if s.get DMF_CH_CFG.RETRY n ≤ s.get DMF_CH_STAT.RETRIES n then chHalt n haltBus
  else incF DMF_CH_STAT.RETRIES n

/-- A memory access of a channel: denied or outside the map it ends with a bus error (R24, R34, R36); a poisoned half read halts it (R412). -/
def chAccess (n typ a len : Nat) (p : Prog) : Prog := .ask fun s =>
  match s.accessFault (.dma (Fin.ofNat 64 n)) typ a len with
  | some src => .seq (accessReport (.dma (Fin.ofNat 64 n)) typ a len src) (chBusError n)
  | none => if typ = atRead ∧ s.poisoned a len then .seq (ueReport (.dma (Fin.ofNat 64 n)) typ (sizeLog len) a) (chHalt n haltUe) else p

/-- DMA_COMMIT, DMA_RESUME, DMA_ABORT, DMA_CLEAR: writes of DMF_CH_CTL. -/
def execDmaCommit (m : Master) (n : Fin 64) (s : State) := (ownerOnly m n (chControl n true false false false)).exec s
def execDmaResume (m : Master) (n : Fin 64) (s : State) := (ownerOnly m n (chControl n false true false false)).exec s
def execDmaAbort (m : Master) (n : Fin 64) (s : State) := (ownerOnly m n (chControl n false false true false)).exec s
def execDmaClear (m : Master) (n : Fin 64) (s : State) := (ownerOnly m n (chControl n false false false true)).exec s

/-- 2^k µs have passed since the channel's mark; a limit above 20 is treated as 20 (Table 14.10). -/
def State.chOver (s : State) (n k : Nat) : Bool := decide ((s.chan n).mark + 8 * 2 ^ min 20 k ≤ s.time)

/-- DMA_PROGRESS_TIMEOUT: a channel has held its engine for 2^NOPROG µs without a burst (R413). -/
def progressTimeoutProg (n : Nat) : Prog := whenS (fun s => s.chSt n == chRunning && s.chOver n (s.get DMF_CFG.NOPROG 0)) (.seq (chHalt n haltTimeout) (arbitrate (n / 32)))
def execDmaProgressTimeout (n : Fin 64) (s : State) := (progressTimeoutProg n).exec s

/-- DMA_PAGE_REQUEST_TIMEOUT: a channel has stayed SUSPENDED for 2^PRQ µs: its source is raised once (R410). -/
def pageTimeoutProg (n : Nat) : Prog := whenS (fun s => s.chSt n == chSuspended && !(s.chan n).prqRaised && s.chOver n (s.get DMF_CFG.PRQ 0)) (.seq
  (setChan n fun c => { c with prqRaised := true }) (raise (128 + n) (detail n)))
def execDmaPageRequestTimeout (n : Fin 64) (s : State) := (pageTimeoutProg n).exec s

/-- An entry is in the scope of an invalidation (Table 14.4). -/
def Iotlb.inScope (e : Iotlb) (scope asid va : Nat) : Bool :=
  if scope = 1 then !e.glob && e.asid == asid
  else if scope = 2 then e.serves asid (va % 2 ^ 48)
  else true

/-- IOTLB_INVALIDATE: a write of DMF_INV with GO by the Keeper or an application core (R408); with BUSY its value fields alone apply (R597). -/
def invalidateProg (m : Master) (scope asid : Nat) : Prog := when m.isCore (all [
  setF DMF_INV.SCOPE 0 scope, setF DMF_INV.ASID 0 asid,
  .ask fun s => when (!s.on DMF_INV.BUSY 0) (.seq (setF DMF_INV.BUSY 0 1)
    (.upd (.dmf fun x => { x with iotlb := x.iotlb.filter fun e => !e.inScope scope asid (s.get DMF_INV_VA.VA 0) })))])
def execIotlbInvalidate (m : Master) (scope : Fin 4) (asid : BitVec 16) (s : State) := (invalidateProg m scope asid.toNat).exec s

/-- IOTLB_INVALIDATE_DONE: every burst translated through a removed entry has completed (R408). -/
def execIotlbInvalidateDone (s : State) := (setF DMF_INV.BUSY 0 0).exec s

end Sys2Proof.Machine
end

