-- ==== Sys2Proof/Machine/MpcOps.lean ====
section
/-! DEFINITION. MPC's shared operations: key slots, delivery, reconstruction contexts, encode slots (R274 to R301), and what CQE does with members
that end unrecovered (R336). -/
namespace Sys2Proof.Machine

/-- Kinds of event (Table 10.9). -/
def evMismatch : Nat := 0
def evTorn : Nat := 1
def evRecFail : Nat := 2
def evWork : Nat := 3

/-- An event enters the log, or is lost when 32 are held (Table 10.9). -/
def mpcEvent (kind mask g : Nat) : Prog := .ask fun s =>
  if s.mpc.log.length < 32 then .upd (.mpc fun x => { x with log := x.log ++ [2 ^ 63 + kind * 2 ^ 60 + mask * 2 ^ 40 + g % 2 ^ 40] })
  else setF MPC_STAT.LOG_OVF 0 1

/-- The media tag of a member's 4,112 bytes; its VSN and KGEN (R277). -/
def memberTag (bs : List Byte) : Nat := ofBeBytes ((bs.drop 4104).take 4)
def tagVsn (t : Nat) : Nat := t / 256
def tagKgen (t : Nat) : Nat := t / 4 % 64
def tagOf (vsn kgen : Nat) : Nat := vsn * 256 + kgen * 4

/-- Key material of a slot: K1 then K2 (R295). -/
def State.keyBytes (s : State) (k : Nat) : List Byte := ((s.mpc.keys.find? fun e => e.1 == k).map (·.2)).getD []

/-- The user bytes and protection information behind a member's coded bytes (R294, Table 4.3). -/
def State.memberPlain (s : State) (n lba : Nat) (coded : List Byte) : List Byte × List Byte :=
  let key := s.keyBytes (s.get CQE_NS_CFG.KSLOT n)
  let pi := s.nsHasPi n
  let p := xtsDecrypt key lba (coded.take (if pi then 4104 else 4096))
  (p.take 4096, if pi then p.drop 4096 else [])

/-- A sector's coded bytes: encrypted, with zeros behind it where the format has no protection information (R294, Table 4.3). -/
def State.memberCoded (s : State) (n lba : Nat) (data pi : List Byte) : List Byte :=
  let key := s.keyBytes (s.get CQE_NS_CFG.KSLOT n)
  if s.nsHasPi n then xtsEncrypt key lba (data ++ pi) else xtsEncrypt key lba data ++ List.replicate 8 0

/-- A held read takes the LBA from the medium. -/
def Cmd.wants (c : Cmd) (n lba : Nat) : Bool := c.kind == kdRead && c.covers n lba && ((c.lbas[lba - c.lba]?).map (·.st)) == some 1

/-- A usable member whose read a command needs is delivered on port 1, deciphered or as unwritten (R282, R301, R399). An EMPTY slot refuses (R296). -/
def deliver (g j : Nat) (bs : List Byte) : Prog := .ask fun s =>
  match s.nsOfRow g with
  | none => .skip
  | some n =>
    let lba := s.rowLba n g j
    let k := s.get CQE_NS_CFG.KSLOT n
    let fresh0 := tagVsn (memberTag bs) == 0 || tagKgen (memberTag bs) != s.get MPC_KEY_STAT.KGEN k
    when (decide (j < s.nsD n) && s.cqe.cmds.any (·.wants n lba) && (fresh0 || s.keyState k != 0)) (
      let d := if fresh0 then (unwrittenData, if s.nsHasPi n then unwrittenPi else []) else s.memberPlain n lba (bs.take 4104)
      .seq (.upd (.dmf fun x => { x with port1 := x.port1 ++ d.1 ++ d.2 }))
        (.upd (.cqe fun x => { x with
          cmds := x.cmds.map fun c => if c.wants n lba then { c with lbas := c.lbas.mapIdx fun i e => if c.lba + i == lba then { e with unw := fresh0 } else e } else c })))

/-- The tag most members carry; among equally frequent ones the newest VSN, then the higher tag (R283). -/
def tagBetter (ts : List Nat) (a b : Nat) : Bool :=
  decide (ts.count b < ts.count a) || (ts.count a == ts.count b &&
    (newer (2 ^ 24) (tagVsn a) (tagVsn b) || (tagVsn a == tagVsn b && decide (b < a))))
def majorityTag (ts : List Nat) : Nat := ts.foldl (fun b a => if tagBetter ts a b then a else b) (ts.headD 0)

/-- Members whose tags differ from the majority: TORN (R283, R287). -/
def tornMask (ms : List (Nat × Nat)) : Nat :=
  let maj := majorityTag (ms.map (·.2))
  ((ms.filter fun e => e.2 != maj).map fun e => 2 ^ e.1).sum
def mpcTorn (g : Nat) (ms : List (Nat × Nat)) : Prog := .seq (mpcEvent evTorn (tornMask ms) g) (incF MPC_CNT_MIS.COUNT 0)

/-- A usable member of a row that is not being reconstructed: with all sixteen of one pass, the checks of R283. -/
def gatherMember (g j m : Nat) (bs : List Byte) : Prog := .ask fun s =>
  when (s.on MPC_CFG.CHK_EN 0 && m != 0) (
    let ms := (Sparse.get [] s.mpc.gather g).filter (fun e => e.1 != j) ++ [(j, bs)]
    if ms.length < 16 then .upd (.mpc fun x => { x with gather := Sparse.put [] x.gather g ms })
    else all [
      .upd (.mpc fun x => { x with gather := Sparse.put [] x.gather g [] }),
      when (tornMask (ms.map fun e => (e.1, memberTag e.2)) != 0) (mpcTorn g (ms.map fun e => (e.1, memberTag e.2))),
      when ((List.range m).any fun i => (List.range codedBytes).any fun c => syndrome i (ms.map fun e => (e.1, e.2.getD c 0)) != 0)
        (.seq (mpcEvent evMismatch 0xFFFF g) (incF MPC_CNT_MIS.COUNT 0))])

/-- A context, by row, and changes to it. -/
def setRctx (g : Nat) (f : RCtx → RCtx) : Prog := .upd (.mpc fun x => { x with ctxs := x.ctxs.map fun e => if e.2.row == g then (e.1, f e.2) else e })

/-- No head can write the member: its slot serves none that is IN_SLOT or DEGRADED (R72, R73). -/
def State.memberFailed (s : State) (g j : Nat) : Bool := !s.pathUsable (memberPath g j)

/-- A member cannot be read: its head is FAILED, or its slot is being rebuilt and the row lies at or above WMARK (R74, R284). -/
def State.memberLost (s : State) (g j : Nat) : Bool := s.memberFailed g j || s.rebuilding (memberPath g j) (s.rowTrack g / 256)

/-- Members of a context by state: usable, SOFT, ERASED; whether every one has arrived (R284, R286). -/
def RCtx.held (x : RCtx) (st : Nat) : List CtxMember := x.members.filter fun m => m.st == st
def RCtx.has (x : RCtx) (j : Nat) : Bool := x.members.any fun m => m.j == j
def State.ctxErased (s : State) (x : RCtx) : List Nat :=
  (x.held 3).map (·.j) ++ (if s.on MPC_CFG.SOFT_EN 0 then [] else (x.held 2).map (·.j)) ++ ((List.range 16).filter fun j => !x.has j && s.memberLost x.row j)
def State.ctxAll (s : State) (x : RCtx) : Bool := (List.range 16).all fun j => x.has j || s.memberLost x.row j

/-- MPC's requests for members that have not been served are withdrawn (R146, R284). -/
def wantedNoMore (g : Nat) : Prog := emit (.event "members withdrawn" [g])

/-- A context closes (R288, R293). -/
def ctxClose (g : Nat) : Prog := all [.upd (.mpc fun x => { x with ctxs := x.ctxs.filter fun e => e.2.row != g }), mpcShow, cqeShow, wantedNoMore g]

/-- On-die accumulators in use (R291): m for each context on die. -/
def State.accUsed (s : State) : Nat := ((s.mpc.ctxs.filter fun e => e.2.onDie).map fun e => (s.nsOfRow e.2.row).elim 0 s.nsM).sum

/-- A context opens: the lowest record free, on die if its m accumulators are; the row's other members are asked for (R284, R290, R291). -/
def ctxOpen (g j kind m : Nat) : Prog := .ask fun s =>
  let n := ((List.range 80).find? fun k => !(s.mpc.ctxs.any fun e => e.1 == k)).getD 0
  all [
    .upd (.mpc fun x => { x with ctxs := x.ctxs ++ [(n, { row := g, rebuild := kind == 2, onDie := decide (s.accUsed + m ≤ 32) })] }),
    emit (.event "members wanted" (g :: (List.range 16).filter fun i => i != j && !s.memberLost g i && !s.rdc.erased.contains (memberPath g i, fcRemoved))),
    mpcShow, cqeShow]

/-- The working area's record of a context fails an access, where the context needs one (R291, R292). -/
def State.recordFails (s : State) (n m : Nat) (x : RCtx) : Bool :=
  let a := s.get MPC_WORK_BASE.ADDR 0 * 65536 + n * 65536
  (!x.onDie || decide (m < (x.held 2).length)) &&
    ((s.accessFault .mpc atWrite a 65536).isSome || (s.region a 65536) != some .dram || s.poisoned a 65536)

/-- What a context keeps in its record: accumulator `i` at 4,104 i where they are not on die, and behind four of them, each in 6,168 bytes, the SOFT payloads
that no soft buffer takes (R27, R291). The places within the record are the model's (DESIGN CHOICE, assumption log 28). -/
def softPayload (x : CtxMember) : List Byte :=
  x.bytes ++ (packRel (x.rel.map fun r => Fin.ofNat 16 r)).map fun b => BitVec.ofNat 8 b
def recordWrite (g m : Nat) : Prog := .ask fun s =>
  match s.ctxOf g with
  | none => .skip
  | some (n, x) =>
    let a := s.get MPC_WORK_BASE.ADDR 0 * 65536 + n * 65536
    let known := (x.held 1).map fun u => (u.j, u.bytes)
    .seq (when (!x.onDie) (each (List.range m) fun i => fabricStore .mpc (a + 4104 * i)
        ((List.range codedBytes).map fun c => syndrome i (known.map fun e => (e.1, e.2.getD c 0)))))
      (each ((x.held 2).zipIdx.filter fun e => !x.onDie || decide (m ≤ e.2)) fun e => fabricStore .mpc (a + 16416 + 6168 * e.2) (softPayload e.1))

/-- A working-area access has failed (R292): WORK_ERR, its source, an event. -/
def workError (g : Nat) : Prog := all [setF MPC_STAT.WORK_ERR 0 1, mpcEvent evWork 0 g, raise 280 (detail 0)]

/-- A context that lost its accumulation closes at once: its members from ladders are reported not reconstructed (R292). -/
def ctxLost (g : Nat) (x : RCtx) : Prog := all [
  workError g, incN x.handed.length, ctxClose g,
  each (x.handed.filter fun e => e.2 == 0) fun e => ladderReport g e.1 false,
  each (x.handed.filter fun e => e.2 == 1 || e.2 == 3) fun e => readAgain g e.1]
where
  incN (n : Nat) : Prog := each (List.range n) fun _ => incF MPC_CNT_FAIL.COUNT 0

/-- The columns of a solve under case 2 of R286: erased members and the m − e SOFT ones of lowest REL, ties to the lower member. -/
def softErase (erased : List Nat) (soft : List CtxMember) (k c : Nat) : List Nat :=
  let order := soft.map (fun x => (x.rel.getD c 0, x.j))
  erased ++ ((order.mergeSort fun a b => decide (a.1 < b.1 ∨ (a.1 = b.1 ∧ a.2 ≤ b.2))).take k).map (·.2)

/-- Coded bytes of member `j` as the context solves it; none while no case of R286 holds, an empty list where the solve fails at once. -/
def State.solved (s : State) (x : RCtx) (dd m : Nat) (j : Nat) : Option (List Byte) :=
  let us := x.held 1
  let soft := if s.on MPC_CFG.SOFT_EN 0 then x.held 2 else []
  let er := s.ctxErased x
  let known := us.map fun u => (u.j, u.bytes)
  if dd ≤ us.length then
    some (eraseMember ((List.range 16).filter fun k => !(us.any fun u => u.j == k)) j known)
  else if s.ctxAll x ∧ er.length ≤ m ∧ s.on MPC_CFG.SOFT_EN 0 then
    some ((List.range codedBytes).map fun c =>
      let es := softErase er soft (m - er.length) c
      let col := (known ++ soft.map fun u => (u.j, u.bytes)).filterMap fun e => if es.contains e.1 then none else some (e.1, e.2.getD c 0)
      if es.contains j then eraseByte es (eraseCoeffs es j) col else ((soft.find? fun u => u.j == j).map fun u => u.bytes.getD c 0).getD 0)
  else if m < er.length ∨ s.ctxAll x then some []
  else none

/-- What the solve gives for a handed-off member: rebuilt coded bytes with the usable members' tag, checked against the recorded CRC that
`crc` gives, if it gives one (R287; assumption log 33). -/
def rebuiltOk (g j tag : Nat) (coded : List Byte) (crc : Option Nat) : Bool :=
  match crc with
  | some c => (crc32 (sectorCrcBytes g j (coded ++ beBytes 4 tag))).toNat == c
  | none => !coded.isEmpty

/-- One handed-off member's outcome (R288). -/
def memberOutcome (g : Nat) (j kind tag : Nat) (coded : List Byte) (ok : Bool) : Prog :=
  if ok then all [
    incF MPC_CNT_REC.COUNT 0,
    setRctx g fun x => { x with handed := x.handed.filter fun e => e.1 != j },
    if kind = 2 then .seq (toWriter g j tag coded)
      (.upd (.cqe fun x => { x with rebuilt := (x.rebuilt.filter fun e => e != (g, j)) ++ [(g, j)] })) else deliver g j (coded ++ beBytes 4 tag),
    if kind = 0 then ladderReport g j true else freeReport g j kind true]
  else all [incF MPC_CNT_FAIL.COUNT 0, mpcEvent evRecFail (2 ^ j) g, when (kind == 0) (ladderReport g j false)]

/-- A context solves if it can (R286 to R288). Usable members whose tags differ fail the solve. -/
def ctxSolve (g dd m : Nat) (crcs : List (Nat × Nat)) : Prog := .ask fun s =>
  match s.ctxOf g with
  | none => .skip
  | some (_, x) =>
    let us := x.held 1
    let tags := us.map fun u => (u.j, memberTag u.bytes)
    let torn := tornMask tags != 0
    let tag := (tags.headD (0, 0)).2
    if x.handed.isEmpty then .skip
    else match s.solved x dd m 0 with
      | none => .skip
      | some _ =>
        let res := x.handed.map fun e =>
          let coded := if torn then [] else (s.solved x dd m e.1).getD []
          (e.1, e.2, coded, !coded.isEmpty && rebuiltOk g e.1 tag coded ((crcs.find? fun c => c.1 == e.1).map (·.2)))
        all [
          when torn (mpcTorn g tags), when (decide (dd ≤ us.length)) (wantedNoMore g),
          when (res.any fun r => !r.2.2.2) (setRctx g fun y => { y with failed := true }),
          each res fun r => memberOutcome g r.1 r.2.1 tag r.2.2.1 r.2.2.2]

/-- Contexts whose handed-off members have all ended close; a member without a ladder ends unrecovered after a failed solve when nothing of its
row is still to come (R288). -/
def ctxSweep : Prog := .ask fun s => each s.mpc.ctxs fun e =>
  let x := e.2
  let g := x.row
  let onLadder := s.rdc.ladders.any fun l => l.2.row == g
  let gone := x.handed.filter fun h => h.2 == 0 && (s.ladderOf g h.1).isNone
  let ended := if x.failed && !onLadder && s.ctxAll x then x.handed.filter fun h => h.2 != 0 else []
  let left := x.handed.filter fun h => !gone.contains h && !ended.contains h
  all [
    each (ended.filter fun h => h.2 != 2) fun h => freeReport g h.1 h.2 false,
    if left.isEmpty then ctxClose g else setRctx g fun y => { y with handed := left }]

/-- CQE takes the members that ended unrecovered: the reads that need them end so (R141, R336). -/
def unrecSweep : Prog := .ask fun s => when (!s.rdc.unrec.isEmpty) (.seq (.upd (.rdc fun x => { x with unrec := [] }))
  (each s.rdc.unrec fun e => .ask fun t =>
    match t.nsOfRow e.1 with
    | none => .skip
    | some n =>
      let lba := t.rowLba n e.1 e.2
      when (decide (e.2 < t.nsD n)) (each (t.cqe.cmds.filter fun c => c.wants n lba) fun c => .seq
        (setCmd c.ctag fun d => { d with
          unrec := some (min lba (d.unrec.getD lba))
          lbas := d.lbas.mapIdx fun i y => if d.lba + i == lba then { y with st := 3 } else y })
        (readFinish c.ctag))))

/-- Members that held reads take from the medium and that cannot be read there (R139). -/
def State.lostWanted (s : State) : List (Nat × Nat) := ((s.cqe.cmds.filter fun c => c.kind == kdRead).flatMap fun c => match c.ns with
  | none => []
  | some n => (c.lbas.zipIdx.filter fun e => e.1.st == 1).filterMap fun e =>
      let g := s.lbaRow n (c.lba + e.2)
      let j := s.lbaMember n (c.lba + e.2)
      if s.memberLost g j then some (g, j) else none).dedup

/-- Such a member goes to MPC as ERASED at once, where a context can be had, or ends unrecovered in a P0 row (R139, R290); each once while it is wanted. -/
def lostSweep : Prog := .ask fun s => when (s.on SVE_CMAP_CFG.ENABLE 0 && !s.safe) (
  let now := s.lostWanted
  .seq (.upd (.rdc fun x => { x with lost := x.lost.filter now.contains }))
    (each (now.filter fun e => !s.rdc.lost.contains e) fun e => .ask fun t => when (t.rowP0 e.1 || (t.ctxOf e.1).isSome || t.ctxRoom 3) (.seq
      (.upd (.rdc fun x => { x with lost := x.lost ++ [e] }))
      (memberGone e.1 e.2 (memberPath e.1 e.2) ((t.headOf (memberPath e.1 e.2)).getD 0) fcHead))))

/-- What follows the end of a member's read, of a ladder or of a solve. -/
def memberSweep : Prog := .seq ctxSweep unrecSweep

/-- A member that a context has taken enters its record, which may fail (R291, R292), and the context solves if it can. -/
def recordSolve (g dd m : Nat) (crcs : List (Nat × Nat)) : Prog := .ask fun t => match t.ctxOf g with
  | some (k, x) => if t.recordFails k m x then ctxLost g x else .seq (recordWrite g m) (ctxSolve g dd m crcs)
  | none => .skip

/-- A usable member arrives (R282, R285, R286). -/
def usableArrives (g j m dd : Nat) (bs : List Byte) (crcs : List (Nat × Nat)) : Prog := .ask fun s =>
  match s.ctxOf g with
  | none => .seq (gatherMember g j m bs) (deliver g j bs)
  | some (_, x) =>
    let was := x.handed.any fun e => e.1 == j
    if x.members.any fun y => y.j == j && y.st == 1 then .skip
    else if was ∧ !x.begun then all [
      setRctx g fun y => { y with handed := y.handed.filter (fun e => e.1 != j), members := y.members.filter fun e => e.j != j }, deliver g j bs]
    else all [
      setRctx g fun y => { y with begun := true, handed := y.handed.filter (fun e => e.1 != j)
                                  members := y.members.filter (fun e => e.j != j) ++ [{ j, st := 1, bytes := bs }] },
      ladderBegun g, deliver g j bs, recordSolve g dd m crcs]

/-- A hand-off arrives: SOFT, or ERASED; a rebuild request (R284, R286, R290). -/
def handOffArrives (g j m dd kind : Nat) (soft : Bool) (bs : List Byte) (rel : List Nat) (crcs : List (Nat × Nat)) : Prog := .ask fun s =>
  if m = 0 then when (kind != 2) (unrecovered g j)
  else if (s.ctxOf g).isNone ∧ !s.ctxRoom kind then emit (.event "read again" [g, j])
  else all [
    when (s.ctxOf g).isNone (ctxOpen g j kind m),
    .ask fun t => match t.ctxOf g with
      | none => .skip
      | some (_, x) =>
        let isSoft := soft && t.on MPC_CFG.SOFT_EN 0 && decide ((x.held 2).length < 7)
        when (!(x.members.any fun y => y.j == j && y.st == 1)) (setRctx g fun y => { y with
          members := y.members.filter (fun e => e.j != j) ++ [if isSoft then { j, st := 2, bytes := bs, rel } else { j, st := 3 }]
          handed := y.handed.filter (fun e => e.1 != j) ++ [(j, kind)] }),
    recordSolve g dd m crcs]

/-- An encode slot of a row, and changes to it. -/
def State.encOf (s : State) (g : Nat) : Option EncSlot := s.mpc.enc.find? fun e => e.row == g
def setEnc (g : Nat) (f : EncSlot → EncSlot) : Prog := .upd (.mpc fun x => { x with enc := x.enc.map fun e => if e.row == g then f e else e })
def encFree (g : Nat) : Prog := .seq (.upd (.mpc fun x => { x with enc := x.enc.filter fun e => e.row != g })) mpcShow

/-- VSN after the one given: modulo 2^24, 0 skipped (R279). -/
def vsnNext (v : Nat) : Nat := if (v + 1) % 2 ^ 24 = 0 then 1 else (v + 1) % 2 ^ 24

/-- The Keeper raises VSN_MARK by 65,536 whenever NEXT comes within 4,096 of it (R510). -/
def vsnMarked : Prog := .ask fun s =>
  when (decide ((s.kpr.vsnMark + 2 ^ 24 - s.get MPC_VSN.NEXT 0) % 2 ^ 24 ≤ 4096))
    (.upd (.kpr fun k => { k with vsnMark := (k.vsnMark + 65536) % 2 ^ 24 }))

/-- A row's first data member is accepted for encoding: it takes the lowest free slot and its VSN (R279, R281). Members written under an
older tag do not count for this write (R171). -/
def encOpen (g kgen : Nat) : Prog := .ask fun s =>
  let k := ((List.range 64).find? fun k => !(s.mpc.enc.any fun e => e.k == k)).getD 0
  all [
    .upd (.wrc fun x => { x with rows := x.rows.filter fun r => r.row != g }),
    .upd (.mpc fun x => { x with enc := x.enc ++ [{ k, row := g, tag := tagOf (s.get MPC_VSN.NEXT 0) kgen }] }),
    setF MPC_VSN.NEXT 0 (vsnNext (s.get MPC_VSN.NEXT 0)), vsnMarked, mpcShow]

/-- An encode slot of the working area fails an access (R291, R292): slots 16 to 63 lie there. -/
def State.encFails (s : State) (k : Nat) : Bool :=
  let a := s.get MPC_WORK_BASE.ADDR 0 * 65536 + 0x500000 + (k - 16) * 20480
  decide (16 ≤ k) && ((s.accessFault .mpc atWrite a 16416).isSome || (s.region a 16416) != some .dram || s.poisoned a 16416)

/-- The version of an LBA that a destage writes: the newest whose data has arrived, in the budget or not (R329, R334). -/
def State.destageVer (s : State) (n lba : Nat) : Option Ver :=
  s.cqe.overlay.foldl (fun b v => if v.ns == n && v.lba == lba then
    (match b with
      | some w => if older w.seq v.seq then some v else b
      | none => some v) else b) none

/-- The parity members of a slot in the working area enter it, 4,104 bytes each (R280, R291). -/
def encWrite (slot : Nat) (par : List (Nat × List Byte)) : Prog := .ask fun s =>
  when (decide (16 ≤ slot)) (each par.zipIdx fun e => fabricStore .mpc (s.get MPC_WORK_BASE.ADDR 0 * 65536 + 0x500000 + (slot - 16) * 20480 + 4104 * e.2) e.1.2)

/-- LBAs in the unreadable list at most (R337). -/
def unreadableMax : Nat := 1024

end Sys2Proof.Machine
end

