-- ==== Sys2Proof/Machine/Rdc.lean ====
section
/-! DEFINITION. Commands of the read channel and the preamp links (chapters 3 and 4). -/
namespace Sys2Proof.Machine

/-- ZTAB_LOAD_DONE: the load of a path's coefficient-table entry ends; `bad` for a bus error or an uncorrectable DRAM error (R95, R96). The writes made
before and during it follow (R99). -/
def ztabLoadProg (p : Nat) (bad : Bool) : Prog := .ask fun s => when (s.rdc.loading.contains p) (
  let x := s.tgt p
  let a := s.ztabAddr x.head x.zone
  all [
    match s.loadFault .rdc a 128 with
      | some src => faultLine .rdc atRead a 128 src
      | none => .skip,
    if bad || (s.loadFault .rdc a 128).isSome || !s.ztabOk a then setF RDC_HP_STAT.ZT_ERR p 1
    else .seq (ztabApply p a) (.upd (.rdc fun r => { r with tag := (r.tag.filter fun e => e.1 != p) ++ [(p, x.head, x.zone)] })),
    .upd (.rdc fun r => { r with loading := r.loading.filter (· != p) }), writesAfterLoad p true, writerClock p])
def execZtabLoadDone (p : Fin 16) (bad : Bool) (s : State) := (ztabLoadProg p bad).exec s

/-- An actuator keeps its lowest usable slot in SERVO (R113): in IDLE I1, and loaded ones in BOOT and in RECOVERY without media. -/
def State.keepsServo (s : State) (p : Nat) : Bool := s.lowestUsable (p / 4) == some p &&
  (s.mode == mIdle && s.get PTM_MODE_STAT.ILVL 0 == 1 || s.loaded (p / 4) && (s.mode == mBoot || s.mode == mRecovery && !s.on PTM_MODE_STAT.MEDIA_EN 0))

/-- PTM lets a head path reach READY, or SERVO (R113): in SERVICE firmware sets the states; where the ACTIVE rule holds, READY within the number that the
power cap allows; the path by which an arm without active paths is tracked may be in SERVO (R184). -/
def State.mayReady (s : State) (p : Nat) : Bool := s.mode == mService ||
  s.manyPaths && (s.inPass p || decide ((s.readyPaths.filter (· != p)).length < s.get PTM_CAP_STAT.HP_ALLOW 0))
def State.mayServo (s : State) (p : Nat) : Bool := s.mode == mService || s.keepsServo p || s.manyPaths && s.tracksAlone p

/-- HP_POWER_UP_DONE: the power-up time of a head path has passed; it reaches READY, or SERVO (R107, R112, R113). -/
def hpPowerUpProg (p : Nat) (ready : Bool) : Prog := .ask fun s =>
  if ready then when ((s.hpPwr p == pwOff || s.hpPwr p == pwServo) && s.mayReady p) (.seq (enterReady p) (.ask fun t =>
    .upd (.rdc fun x => { x with lastUse := Sparse.put 0 x.lastUse p t.ptm.ticks })))
  else when (s.hpPwr p == pwOff && s.mayServo p) (setPwr p pwServo)
def execHpPowerUpDone (p : Fin 16) (ready : Bool) (s : State) := (hpPowerUpProg p ready).exec s

/-- Ticks of 10 ms (R113). -/
def idleTicks : Nat := 10 * tickMs

/-- Path `p` has been unused for 10 ms, and no READY path beyond it is used less recently. -/
def State.leastUsed (s : State) (p : Nat) : Bool :=
  let t := fun q => Sparse.get 0 s.rdc.lastUse q
  decide (t p + idleTicks ≤ s.ptm.ticks) && (s.readyPaths.filter fun q => !s.inPass q).all fun q => decide (t p ≤ t q)

/-- HP_IDLE_OFF: a head path unused for 10 ms goes OFF (R113): where the ACTIVE rule holds, the least recently used beyond the allowed number; elsewhere any
but those kept in SERVO; in SERVICE none of itself. The path by which an arm without active paths is tracked goes to SERVO instead (R184). -/
def hpIdleOffProg (p : Nat) : Prog := .ask fun s =>
  when (!s.inPass p && s.hpPwr p != pwOff && s.mode != mService &&
      (if s.manyPaths then decide (s.get PTM_CAP_STAT.HP_ALLOW 0 < s.readyPaths.length) && s.leastUsed p || s.hpPwr p == pwServo && !s.tracksAlone p
       else !s.keepsServo p))
    (let st := if s.manyPaths && s.tracksAlone p then pwServo else pwOff
     when (s.hpPwr p != st) (setPwr p st))
def execHpIdleOff (p : Fin 16) (s : State) := (hpIdleOffProg p).exec s

/-- The read of a sector begins (R112, R147). -/
def sectorBegins (p : Nat) : Prog := .ask fun s => all [
  when (s.hpPwr p == pwReady) (setPwr p pwActive), hstAdd (s.tgt p).head 0 1, setRun p {},
  .upd (.rdc fun x => { x with readAny := p :: x.readAny.filter (· != p), lastUse := Sparse.put 0 x.lastUse p s.ptm.ticks
                               sector := p :: x.sector.filter (· != p) })]

/-- BOOST codes of the four re-reads of L7 (Table 4.11). -/
def boostStep (n : Nat) : Int := ([-4, -2, 2, 4] : List Int).getD n 0
def boostedEnd (n : Nat) (k : Nat) : Prog := .ask fun s => emit (.event "front end" [n, min 120 (s.get RDC_LANE_AFE.GAIN n),
  (clampI 0 24 ((min 24 (s.get RDC_LANE_AFE.BOOST n) : Nat) + boostStep k)).toNat, min 19 (s.get RDC_LANE_AFE.HPF n), s.get RDC_LANE_AFE.OFS_TRIM n,
  s.get RDC_LANE_SKEW.PHASE n])

/-- A re-read begins: the settings that its level changes hold for this sector (R132, R133). -/
def rereadBegins (p k : Nat) (l : Ladder) : Prog := all [
  .upd (.rdc fun x => { x with reread := (x.reread.filter fun e => e.1 != p) ++ [(p, k)] }),
  when (l.level == 7) (.seq (boostedEnd (2 * p) l.sub) (boostedEnd (2 * p + 1) l.sub)),
  when (l.level == 3) (.ask fun s => maCmd (p / 4) (l.head % 6) (Sparse.get 0 s.sve.uAck p + s.l3Offset p l))]

/-- The path's live settings are back at the sector's postamble (R133). -/
def rereadRestored (p : Nat) (l : Ladder) : Prog := all [
  when (l.level == 7) (.seq (frontEnd (2 * p)) (frontEnd (2 * p + 1))),
  when (l.level == 3) (.ask fun s => maCmd (p / 4) (l.head % 6) (Sparse.get 0 s.sve.uAck p - s.l3Offset p l))]

/-- SECTOR_PREAMBLE_START: a boundary of R98; the read of a sector of the pass begins, unless the path's load is not complete (R95) or
its slot not settled (R207). `reread` names the
ladder that the sector is on, if it is a re-read: made on the sector's track (R134), at L3 only within the stroke (R133). -/
def preambleStartProg (p : Nat) (reread : Option Nat) : Prog := .seq (rdcBoundary p) (.ask fun s =>
  when (s.inPass p && !s.passEnding (p / 4) && s.sve.active.contains p && s.settled p && decide (pwReady ≤ s.hpPwr p) && !s.rdc.loading.contains p) (match reread with
    | none => sectorBegins p
    | some k => match s.ladder p k with
      | none => .skip
      | some l => when (l.waits && s.onRow p l.row) (
          if l.level = 3 ∧ !s.l3Made p l then
            (if l.sub = 0 then setLadder p k fun l => { l with sub := 1 } else ladderNext p k)
          else .seq (sectorBegins p) (rereadBegins p k l))))
def execSectorPreambleStart (x : ReadStart) (s : State) := (preambleStartProg x.p (x.reread.map (·.val))).exec s

/-- The gain loop over a preamble: one update for each 32 bit periods (R91). No amplitude asks for the full step. -/
def preambleGain (tgt mu : Nat) (g : Int) (amps : List Nat) : Int :=
  amps.foldl (fun g a => clampI 0 120 (g + if a = 0 then 8 else agcStep (tgt / a) mu)) g

/-- One lane's preamble: GAIN, AMP, and the count of weak preambles (R91, R100). The gain in force is at most 120 (R83); a held GAIN reads as written. -/
def lanePreamble (n : Nat) (amps : List Nat) : Prog := .ask fun s =>
  let p := n / 2
  let held := s.on RDC_HP_ADAPT.AGC_FRZ p || (s.rereadOf p).isSome
  let g0 : Int := (min 120 (s.get RDC_LANE_AFE.GAIN n) : Nat)
  let g := if held then g0
    else preambleGain (clampN 16 120 (s.get RDC_HP_LOOP.AMP_TGT p)) (clampN 4 12 (s.get RDC_HP_ADAPT.MU_AGC p)) g0 amps
  let amp := amps.getLastD 0
  when (!s.on RDC_LANE_STAT.LOST n) (all [
    when (!held) (.seq (setF RDC_LANE_AFE.GAIN n g.toNat) (frontEnd n)), setF RDC_LANE_STAT.AMP n amp,
    setF RDC_LANE_STAT.WEAK_CNT n (if g = 120 ∧ amp < s.get RDC_HP_CTL.LOSS_THR p then satAdd (s.get RDC_LANE_STAT.WEAK_CNT n) 1 255 else 0)])

/-- d of R92 in 0.01 nm: (λ_1 / 4π)(ln(A_1 / A_3) − R_td), λ_1 in 0.25 nm, R_td in 1/4,096 neper. Of an amplitude of 0 the spec states no logarithm: a free
value (assumption log 3). -/
def spacing (a1 a3 lambda cref : Nat) : Rat :=
  if a1 = 0 ∨ a3 = 0 then Config.spacing a1 a3 lambda cref
  else 25 * lambda / (4 * piR) * (lnR ((a1 : Rat) / a3) - (cref : Rat) / 4096)

/-- PREAMBLE_END of a data sector read in a pass: gain and weak counts of both lanes, the double-loss watch of R102, the clearance estimate (R92). `amps`
are the lane's successive amplitudes, `a1` and `a3` the fundamental and third-harmonic amplitudes averaged over the readers in use. -/
def preambleEndProg (p track : Nat) (amps0 amps1 : List Nat) (a1 a3 : Nat) : Prog := .ask fun s => when (s.rdc.sector.contains p) (
  let n := max 1 (s.get RDC_HP_CTL.LOSS_N p)
  let w := fun (s : State) r => s.get RDC_LANE_STAT.WEAK_CNT (2 * p + r)
  all [lanePreamble (2 * p) amps0, lanePreamble (2 * p + 1) amps1,
    .ask fun t =>
      let weak := w t 0 > 0 ∧ w t 1 > 0
      let old := s.rdc.bothTrack.find? fun e => e.1 == p
      .upd (.rdc fun x => { x with
        bothTrack := if ¬weak then x.bothTrack.filter fun e => e.1 != p
                     else if w s 0 < n ∧ w s 1 < n ∧ n ≤ w t 0 ∧ n ≤ w t 1 then (x.bothTrack.filter fun e => e.1 != p) ++ [(p, track)]
                     else x.bothTrack
        bothReady := match old with
          | some (_, b) => if weak ∧ n ≤ w t 0 ∧ n ≤ w t 1 ∧ track ≠ b then p :: x.bothReady.filter (· != p) else x.bothReady.filter (· != p)
          | none => x.bothReady.filter (· != p) }),
    when (!s.on RDC_HP_ADAPT.CLR_FRZ p && (s.rereadOf p).isNone) (
      let d := spacing a1 a3 (max 1 (s.get RDC_HP_LOOP.LAMBDA p)) (s.get RDC_HEAD_CFG.CREF (s.tgt p).head)
      let c := Sparse.get 0 s.rdc.clr p
      let c' := clampR 0 65535 (c + (d - c) / 2 ^ min 8 (s.get RDC_HP_LOOP.CLR_K p))
      .seq (.upd (.rdc fun x => { x with clr := Sparse.put 0 x.clr p c' })) (setF RDC_HP_CLR.CLR p (rnd c').toNat))])
def execPreambleEnd (p : Fin 16) (track : Fin 16777216) (amps0 amps1 : List (BitVec 8)) (a1 a3 : BitVec 16) (s : State) :=
  (preambleEndProg p track (amps0.map (·.toNat)) (amps1.map (·.toNat)) a1.toNat a3.toNat).exec s

/-- CLEARANCE_DELIVERY: C goes to WRC for the head, and VALID shows that it did; of a head without a touchdown reference nothing is delivered (R93,
Table 3.11). -/
def clearanceProg (p : Nat) : Prog := .ask fun s => when (s.hpPwr p == pwActive && s.get RDC_HEAD_CFG.CREF (s.tgt p).head != 0)
  (.seq (setF RDC_HP_CLR.VALID p 1) (clearanceTo (s.tgt p).head (s.get RDC_HP_CLR.CLR p)))
def execClearanceDelivery (p : Fin 16) (s : State) := (clearanceProg p).exec s

/-- What a failed decode counts and its cause (R129, R147): a zero syndrome with a mismatching CRC is a CRC failure. -/
def failCause (timing : Bool) (d : Option Decode) : Nat :=
  if timing then fcTiming
  else match d with
    | some d => if d.unsat.val = 0 then fcCrc else fcDecode
    | none => fcDecode

/-- What a read shows in the path's registers (R85, R119, Table 4.10). -/
def readShow (p : Nat) (r : ReadOut) : Prog := all [
  (match r.sync with
    | some (_, true) => .skip
    | some (_, false) => incF RDC_HP_SYNC.SM1_MISS p
    | none => .seq (incF RDC_HP_SYNC.SM1_MISS p) (incF RDC_HP_SYNC.BOTH_MISS p)),
  setF RDC_HP_STAT.LOCKED p (b2n !r.timing),
  match r.sync, r.d with
    | some _, some d => setF RDC_HP_DEC.LAST_ITER p d.iter
    | _, _ => .skip]

/-- A sector of a path whose reads are erased, or of a member that cannot be read: to be taken again after a link error, else unusable (R109, R110, R139). -/
def sectorErased (x : SecInfo) (verify : Bool) (cause : Nat) : Prog :=
  if cause = fcRetake then readAgain x.row x.j
  else when (!verify) (memberGone x.row x.j x.path x.head cause)

/-- What becomes of a sector that was read (R119, R129, R138 to R143, R172): `cut` if its decode was cut off (R131). -/
def sectorOutcome (x : SecInfo) (verify cut : Bool) (r : ReadOut) : Prog := .seq (readShow x.path r) (
  match r.sync, r.d with
  | some _, some d =>
    if decodeGood d x.row x.j && !r.timing && !cut then
      .seq (hstAdd x.head 3 d.flips) (.ask fun s =>
        if verify then .seq (verifyOutcome x (some d) true) (verifyTrim x.head (s.zoneOf (s.tgt x.path).target.toNat) d.flips)
        else sendMember s.timeLo x.row x.j x.path x.head 0 msGood 0 d.unsat d.iter (d.bytes.map (·.toNat)))
    else .seq (hstAdd x.head 2 1)
      (if verify then verifyOutcome x (some d) false
       else sectorFailed x.path x.row x.j x.head x.track (if cut && !r.timing then fcDecode else failCause r.timing (some d)) (some d))
  | some _, none => .seq (hstAdd x.head 2 1)
      (if verify then verifyOutcome x none false else sectorFailed x.path x.row x.j x.head x.track (failCause r.timing none) none)
  | none, _ => .seq (hstAdd x.head 1 1)
      (if verify then verifyOutcome x none false else sectorFailed x.path x.row x.j x.head x.track fcSync none))

/-- SECTOR_READ_END and DECODE_CUTOFF: the read of member `x` ends. `lost` if the member cannot be read (R139). -/
def sectorEndProg (x : SecInfo) (verify lost : Bool) (cut : Option Nat) (o : SectorObs) : Prog := .ask fun s =>
  .seq (readOut x.path ((iterMaxOf (s.get RDC_HP_DEC.ITER_MAX x.path)).min (cut.getD 20)) o fun r =>
      match s.rdc.erased.find? fun e => e.1 == x.path with
      | some (_, cause) => sectorErased x verify cause
      | none => if lost && !verify then sectorErased x verify fcHead else sectorOutcome x verify cut.isSome r)
    (readOver x.path)

/-- A better attempt replaces the best (R144): lowest UNSAT, never one that ended in CRC. Which of two with equal UNSAT is the best the spec does not say: the
earlier one stays (DESIGN CHOICE, assumption log 28). -/
def betterAttempt (time : Nat) (d : Decode) (l : Ladder) : Ladder :=
  if d.unsat.val = 0 then l
  else if (match l.best with
    | some (u, _) => decide (u ≤ d.unsat.val)
    | none => false) then l
  else { l with best := some (d.unsat.val, d.iter.val), pay := d.bytes.map (·.toNat) ++ packRel d.rel, bestTime := time }

/-- LLRs as they were captured. -/
def bytesLlrs (bs : List Byte) : List Int := bs.map fun b => b.toInt

/-- The decodes of a re-read that the level asks for beside that of the read itself (Table 4.11): at L3 that of both sums, at L6 that of the sum so far in
its place, at L7 a second one at NORM − 0x20. -/
def rereadDecodes (l : Ladder) (iter norm : Nat) (d : Decode) : List Decode :=
  let own := bytesLlrs d.llrs
  if l.sum.isEmpty then (if l.level = 7 then [d, ldpcDecode (4 * l.l1Iter) (norm - 0x20) own] else [d])
  else if l.level = 6 then [ldpcDecode iter norm (llrSum l.sum own)]
  else [d, ldpcDecode iter norm (llrSum l.sum own)]

/-- The re-read of path `p` for the ladder in slot `k` has ended with `ds`, its decodes in order. -/
def rereadOutcome (p k : Nat) (l : Ladder) (r : ReadOut) (ds : List Decode) : Prog := .ask fun s =>
  all [
    readShow p { r with d := ds.getLast? },
    match (if r.timing then none else ds.find? fun d => decodeGood d l.row l.j) with
    | some d => ladderRecover p k l s.timeLo l.level d
    | none => all [
        hstAdd l.head (if r.sync.isNone then 1 else 2) 1,
        setLadder p k fun l => (ds.foldl (fun l d => betterAttempt s.timeLo d l) l),
        when ((l.level == 3 || l.level == 6) && !r.timing) (match r.d with
          | some d => setLadder p k fun l => { l with sum := llrSum l.sum (bytesLlrs d.llrs) }
          | none => .skip),
        if l.sub + 1 < l.reads then .seq (setLadder p k fun l => { l with sub := l.sub + 1 }) (ladderGo 9 p k) else ladderNext p k]]

/-- LADDER_LEVEL_BOUNDARY: a level boundary of a ladder, where a re-read of it has ended with `o` (R132, R133, R140 to R142, R145); `needed` whether a
command or internal operation still needs the sector. An erased re-read is made again. -/
def ladderBoundaryProg (p k : Nat) (needed : Bool) (o : SectorObs) : Prog := .ask fun s =>
  match s.ladder p k with
  | none => .skip
  | some l =>
    let mine := s.rdc.reread.contains (p, k)
    let gone := s.rdc.erased.any fun e => e.1 == p
    let after := fun (q : Prog) => if !needed then ladderFree p k else if l.rebuilt then ladderRebuilt p k l else if l.handed || l.level == 15 then .skip else q
    if !mine then after (ladderGo 9 p k)
    else
      let iter := iterMaxOf (s.get RDC_HP_DEC.ITER_MAX p)
      let norm := s.get RDC_HP_DEC.NORM p
      all [
        readOut p (if l.level = 7 then 4 * l.l1Iter else iter) o fun r =>
          .seq (rereadRestored p l) (after (
            if gone || s.headState l.head == hFailed then ladderGo 9 p k
            else rereadOutcome p k l r (match o, r.sync, r.d with
              | _, none, _ => []
              | .samples _, _, some d => rereadDecodes l iter norm d
              | .result _, _, some d => [d]
              | _, _, none => []))),
        readOver p]

/-- The captured LLRs of a slot decoded as L1 does: up to 4 × L1_ITER iterations at NORM, then again at NORM − 0x20 (Table 4.11). -/
def State.l1Decode (s : State) (p k : Nat) (l : Ladder) : Decode :=
  let norm := s.get RDC_HP_DEC.NORM p
  let x := bytesLlrs (s.bytes (s.capAddr p k + 64) 36864)
  let d := ldpcDecode (4 * l.l1Iter) norm x
  if decodeGood d l.row l.j then d else ldpcDecode (4 * l.l1Iter) (norm - 0x20) x

/-- L1_JOB_DONE: an extended-decode job ends, one of those the four engines hold (R135, R145, R146). `d` is what it left; none: what the capture gives. -/
def l1DoneProg (p k : Nat) (d : Option Decode) : Prog := .ask fun s =>
  match s.ladder p k with
  | none => .skip
  | some l => when (l.l1 && (s.rdc.l1q.take 4).contains (4 * p + k)) (
      let d := d.getD (s.l1Decode p k l)
      if decodeGood d l.row l.j && !(l.handed && l.begun) && !l.rebuilt then ladderRecover p k l l.time 1 d
      else all [
        setLadder p k fun l => { betterAttempt l.time d l with l1 := false }, .upd (.rdc fun x => { x with l1q := x.l1q.filter (· != 4 * p + k) }),
        when (l.level == 15) (ladderGo 9 p k)])

/-- READER_LOSS: RDC reports reader loss of lane `n` on a bias fault, or on weak preambles while the partner's count is below LOSS_N; a
lost partner counts as below (R101, R45). -/
def readerLossProg (n : Nat) : Prog := .ask fun s =>
  let p := n / 2
  let q := if n % 2 = 0 then n + 1 else n - 1
  let m := max 1 (s.get RDC_HP_CTL.LOSS_N p)
  when (!s.on RDC_LANE_STAT.LOST n && !s.rdc.losing.contains n && (s.on RDC_LANE_STAT.BIAS_FLT n ||
    decide (m ≤ s.get RDC_LANE_STAT.WEAK_CNT n) && (s.on RDC_LANE_STAT.LOST q || s.rdc.losing.contains q || decide (s.get RDC_LANE_STAT.WEAK_CNT q < m))))
    (readerLoss p [n])
def execReaderLoss (n : Fin 32) (s : State) := (readerLossProg n).exec s

/-- BOTH_READERS_LOSS: weak preambles on both lanes on a different track (R102). -/
def bothLossProg (p : Nat) : Prog := .ask fun s => when (s.rdc.bothReady.contains p)
  (.seq (readerLoss p [2 * p, 2 * p + 1]) (.upd (.rdc fun x => { x with bothReady := x.bothReady.filter (· != p), bothTrack := x.bothTrack.filter fun e => e.1 != p })))
def execBothReadersLoss (p : Fin 16) (s : State) := (bothLossProg p).exec s

/-- SR_FORCE: a write of SR_FORCE and SR_SEL. RDC_HP_CTL is outside the tables R98 names, so the write applies at once; the mode follows at
the next boundary (R104). -/
def srForceProg (p : Nat) (on sel : Bool) : Prog :=
  .seq (setF RDC_HP_CTL.SR_FORCE p (b2n on)) (setF RDC_HP_CTL.SR_SEL p (b2n sel))
def execSrForce (p : Fin 16) (on sel : Bool) (s : State) := (srForceProg p on sel).exec s

/-- An order obeys the rules of R136. -/
def orderValid (q v : Nat) : Bool :=
  let l := (List.range 8).map fun k => nbits v (4 * k + 3) (4 * k)
  let lv := l.takeWhile (· != 15)
  l.all (fun x => x ≤ 7 || x == 15) && (l.drop lv.length).all (· == 15) && !lv.isEmpty && lv.Nodup &&
    (!lv.dropLast.contains 7) &&
    (if q = 0 then !lv.contains 4 else lv.contains 4 && !(lv.takeWhile (· != 4)).contains 6 && !(lv.takeWhile (· != 4)).contains 7)

/-- RETRY_ORDER_WRITE: applied if valid, else discarded with ORD_ERR (R136). -/
def retryOrderProg (q v : Nat) : Prog :=
  if orderValid q v then setF RDC_RETRY_ORDER.ORDER q v else setF RDC_RETRY_CFG.ORD_ERR 0 1
def execRetryOrderWrite (q : Fin 2) (v : Word) (s : State) := (retryOrderProg q v.toNat).exec s

/-- HST_SNAP: every live counter goes to its register (R148). -/
def hstSnapProg : Prog := .ask fun s =>
  let c := fun h k => Sparse.get 0 s.rdc.hst (hstKey h k)
  each (List.range 24) fun h => all [
    setF RDC_HST_SECT.COUNT h (c h 0), setF RDC_HST_SYNC.COUNT h (c h 1), setF RDC_HST_FAIL.COUNT h (c h 2), setF RDC_HST_FLIP.COUNT h (c h 3),
    setF RDC_HST_HOFF.COUNT h (c h 4), setF RDC_HST_UNREC.COUNT h (c h 5),
    each (List.range 8) fun l => setF RDC_HST_REC.COUNT (8 * h + l) (c h (8 + l))]
def execHstSnap (s : State) := hstSnapProg.exec s

/-- HST_CLR: the live counters and the registers clear (R148). -/
def hstClrProg : Prog := .seq (.upd (.rdc fun x => { x with hst := [] })) hstSnapProg
def execHstClr (s : State) := hstClrProg.exec s

/-- The word RDC_NP_ADDR names. -/
def State.npAddr (s : State) : Nat :=
  npIndex (s.get RDC_NP_ADDR.PATH 0) (s.get RDC_NP_ADDR.SET 0) (s.get RDC_NP_ADDR.WORD 0)

/-- Reserved noise-predictor words read 0 (Table 4.8). -/
def npReserved (i : Nat) : Bool := i % 8 == 7 || i % 8 == 6 && decide (64 ≤ i % 256)

/-- The value RDC_NP_DATA shows, a write of it, and the advance of WORD (R126, R127, Table 4.7). A newer write takes the place of a pending one. -/
def State.npShown (s : State) : Nat := if npReserved s.npAddr then 0 else s.npWord s.npAddr
def npPut (v0 : Nat) : Prog := .ask fun s =>
  let i := s.npAddr
  let v := if i % 8 = 5 then max 16 v0 else v0
  when (!npReserved i) (.seq (.upd (.rdc fun x => { x with npPend := x.npPend.filter fun e => e.1 != i }))
    (if s.hpPwr (i / 2048) = pwActive then .upd (.rdc fun x => { x with npPend := x.npPend ++ [(i, v)] }) else setNp i v))
def npAdvance : Prog := .ask fun s => when (s.on RDC_NP_ADDR.AUTOINC 0) (setF RDC_NP_ADDR.WORD 0 ((s.get RDC_NP_ADDR.WORD 0 + 1) % 256))

/-- NP_DATA_ACCESS: a read returns the word in use; a write applies, at the next boundary while the head path is ACTIVE; WORD advances with
AUTOINC (R126, R127, Table 4.7). -/
def npDataProg (m : Master) (w : Option Nat) : Prog := .seq (match w with
  | none => .ask fun s => reply m s.npShown
  | some v => npPut v) npAdvance
def execNpDataAccess (m : Master) (w : Option (BitVec 16)) (s : State) := (npDataProg m (w.map (·.toNat))).exec s

/-- PAL_HELLO: the preamp answers with its highest version; the link comes up at the lower of the two, at P2 behind 64 IDLE frames (R106). The arms' commands are zeroed
and the paths may rejoin (R195); the actuator's preamp source deasserts (Table 5.10). -/
def palHelloProg (a ver : Nat) : Prog := whenS (fun s => s.ptm.vpre && !s.palUp a && ver ≥ 1) (all [
  setF RDC_PAL_STAT.VER a (min 2 ver), setF RDC_PAL_STAT.UP a 1, when (2 ≤ ver) (send "PAL" "IDLE" [a, 64]), palFrame a 0x31 0x3F,
  .upd (.sve fun x => { x with uAck := (pathsOf a).foldl (fun l p => Sparse.put 0 l p 0) x.uAck
                               maUnack := x.maUnack.filter fun e => e.1 / 4 != a }),
  setPreamp a false,
  .ask fun s => .seq (each ((pathsOf a).filter fun p => s.hpPwr p ≥ pwReady) enterReady)
    (let ps := s.sve.rejoin.filter fun p => p / 4 == a && s.pathUsable p && s.get SVE_SEEK_STAT.STATE a == skTracking
     .seq (each (if ver < 2 then ps.take 1 else ps) joinActive) (rejoinNone a))])
def execPalHello (a : Fin 4) (ver : Fin 256) (s : State) := (palHelloProg a ver).exec s

/-- PREAMP_LINK_UP_START: HELLO frames begin on a link that is down while VPRE is on (R106). -/
def execPreampLinkUpStart (a : Fin 4) (s : State) := (palStart a).exec s

/-- A STATUS frame's writer fault on head `h`: WRT_BAD, FAILED, the preamp source (R45, R160, Table 5.10). -/
def writerFault (h : Nat) : Prog := .ask fun s => all [
  setF SVE_HEAD_STATE.WRT_BAD h 1,
  if s.headState h = hInSlot ∨ s.headState h = hDegraded then headTo h hFailed else deviceCopy .SVE_HEAD_STATE h,
  setPreamp (h / 6) true]

/-- PAL_STATUS: the bias faults of the lanes, writer faults, assist faults (R105, R160, R163). -/
def palStatusProg (a payload : Nat) : Prog := .ask fun s => when (s.palUp a) (all [
  each (pathsOf a) fun p => match s.headOf p with
    | some h => .seq (setF RDC_LANE_STAT.BIAS_FLT (2 * p) (b2n (nbit payload (2 * (h % 6)))))
        (setF RDC_LANE_STAT.BIAS_FLT (2 * p + 1) (b2n (nbit payload (2 * (h % 6) + 1))))
    | none => .skip,
  each (List.range 6) fun k => when (nbit payload (12 + 2 * k) && !s.on SVE_HEAD_STATE.WRT_BAD (6 * a + k)) (writerFault (6 * a + k)),
  each (writersOfAct a) fun w => when ((s.writer w).pass && !(s.writer w).assist && nbit payload (13 + 2 * s.wArm w)) (assistFault w false)])
def execPalStatus (a : Fin 4) (payload : BitVec 24) (s : State) := (palStatusProg a payload.toNat).exec s

/-- The path of actuator `a` that a head at an arm position serves: the active path whose pass latched it, else the slot that names it (R72). -/
def State.pathOfArm (s : State) (a arm : Nat) : Option Nat :=
  match (pathsOf a).find? fun p => s.sve.active.contains p && (s.tgt p).head == 6 * a + arm with
  | some p => some p
  | none => (pathsOf a).find? fun p => s.headOf p == some (6 * a + arm)

/-- PAL_ACK: the preamp acknowledges a command frame (R108, R154, R159); an acknowledged MA_CMD becomes the command in effect (R183, R194). -/
def palAckProg (a typ crc : Nat) : Prog := .ask fun s =>
  match s.palFind a typ crc with
  | none => .skip
  | some c => all [palDrop c, palAcked c, writersAcked a, when (typ == 0x30) (match s.pathOfArm a (palArm typ c.payload) with
      | some p => .upd (.sve fun x => { x with uAck := Sparse.put 0 x.uAck p (toSigned 16 (nbits c.payload 15 0))
                                               maUnack := Sparse.put 0 x.maUnack p 0 })
      | none => .skip)]
def execPalAck (a : Fin 4) (typ crc : BitVec 8) (s : State) := (palAckProg a typ.toNat crc.toNat).exec s

/-- PAL_RESEND: 2 µs without an ACK: resent up to three times, then it counts as a burst (R108, R109). -/
def palResendProg (a typ crc : Nat) : Prog := .ask fun s =>
  match s.palFind a typ crc with
  | none => .skip
  | some c =>
    if typ = 0x30 ∨ s.ptm.ticks < c.since + 16 then .skip
    else if c.resends < 3 then all [palFrame a c.typ c.payload, incF RDC_PAL_STAT.RESEND a,
      .upd (.rdc fun x => { x with cmds := x.cmds.map fun d => if d == c then { d with resends := d.resends + 1, since := s.ptm.ticks } else d })]
    else palBurst a
def execPalResend (a : Fin 4) (typ crc : BitVec 8) (s : State) := (palResendProg a typ.toNat crc.toNat).exec s

/-- PAL_ERROR_BURST: upstream CRC errors of one wedge interval; four make a burst (R108, R109). -/
def palErrorBurstProg (a n : Nat) : Prog := .ask fun s => .seq
  (setF RDC_PAL_STAT.CRC_ERR a (satAdd (s.get RDC_PAL_STAT.CRC_ERR a) n 255)) (when (4 ≤ n) (palBurst a))
def execPalErrorBurst (a : Fin 4) (crcErrors : Fin 256) (s : State) := (palErrorBurstProg a crcErrors).exec s

/-- PAL_LINK_LOSS: 20 µs without an upstream frame (R110, R160, R195). -/
def palLinkLossProg (a : Nat) : Prog := .ask fun s => when (s.ptm.vpre && s.palUp a) (
  let ps := (pathsOf a).filter fun p => s.sve.active.contains p
  all [palDown a, erasePaths ps, each ps leaveActive,
    .upd (.sve fun x => { x with rejoin := (x.rejoin.filter fun p => p / 4 != a) ++ ps, uAck := (pathsOf a).foldl (fun l p => Sparse.put 0 l p 0) x.uAck
                                 pass := x.pass.map fun e => if e.1 == a then (e.1, { e.2 with ending := true }) else e }),
    raise (236 + a) (detail a), setPreamp a true, palStart a])
def execPalLinkLoss (a : Fin 4) (s : State) := (palLinkLossProg a).exec s

end Sys2Proof.Machine
end

