-- ==== Sys2Proof/Machine/Mpc.lean ====
section
/-! DEFINITION. MPC's commands (rows 380 to 386), the row report of R171 (319), and the reads and ladders whose members may end unrecovered (rows of
chapter 4). -/
namespace Sys2Proof.Machine

/-- MEMBER_ARRIVAL: a member reaches MPC with the descriptor of Table 4.16 (`status` 0 GOOD, 1 RECOVERED, 2 SOFT, 3 ERASED), its 4,112 bytes and
reliabilities; `kind` 0 from a ladder, 1 after a failed read without one (R140), 2 a rebuild request, 3 a member that was not
read (R139). `crcs`: recorded CRCs of handed-off members (R284 to R290). -/
def memberArrivalProg (g j status kind : Nat) (bs : List Byte) (rel : List Nat) (crcs : List (Nat × Nat)) : Prog := .ask fun s =>
  match s.nsOfRow g with
  | none => .skip
  | some n => .seq (if status < 2 then usableArrives g j (s.nsM n) (s.nsD n) bs crcs
      else handOffArrives g j (s.nsM n) (s.nsD n) kind (status == 2) bs rel crcs) memberSweep
def execMemberArrival (row : Fin (2 ^ 40)) (j : Fin 16) (status kind : Fin 4) (bytes : List Byte) (rel : List (Fin 16))
    (crcs : List (Fin 16 × Word)) (s : State) :=
  (memberArrivalProg row j status kind bytes (rel.map (·.val)) (crcs.map fun e => (e.1.val, e.2.toNat))).exec s

/-- The coded bytes of an untouched member: as recorded, or those of an unwritten LBA where its key is gone or its row was never written (R278). -/
def State.recordedCoded (s : State) (n lba : Nat) (bs : List Byte) : List Byte :=
  let t := memberTag bs
  if tagVsn t = 0 ∨ tagKgen t ≠ s.get MPC_KEY_STAT.KGEN (s.get CQE_NS_CFG.KSLOT n) then s.memberCoded n lba unwrittenData unwrittenPi
  else bs.take 4104

/-- An LBA enters the unreadable list; while the list is full its row is not written (R337). -/
def listUnreadable (n lba g : Nat) (p : Prog) : Prog := .ask fun s =>
  if s.cqe.unreadable.contains (n, lba) then p
  else if s.cqe.unreadable.length < unreadableMax then .seq (.upd (.cqe fun x => { x with unreadable := x.unreadable ++ [(n, lba)] })) p
  else .seq (encFree g) (raise 275 (detail 0))

/-- ENCODE_MEMBER: data member `j` of row `g` is accepted: from the stream of port 0, or as recorded on the medium (`lost` if it ended unrecovered
there). A member already in the slot is encrypted again, with the same result, for the pass that writes it (R278 to R281, R293, R296). -/
def encodeProg (g j : Nat) (recorded : Option (List Byte)) (lost : Bool) : Prog := .ask fun s =>
  match s.nsOfRow g with
  | none => .skip
  | some n =>
    let lba := s.rowLba n g j
    let k := s.get CQE_NS_CFG.KSLOT n
    let len := if s.nsHasPi n then 4104 else 4096
    let fromPort := recorded.isNone
    let pop : Prog := when fromPort (.upd (.dmf fun x => { x with port0 := x.port0.drop len }))
    let may := decide (j < s.nsD n) && s.keyState k != 0 && !s.rowLocked g && (!fromPort || decide (len ≤ s.dmf.port0.length))
    let unit := s.dmf.port0.take len
    when may (match s.encOf g with
      | some e => match e.members.find? fun y => y.1 == j with
        | some (_, coded) => .seq pop (toWriter g j e.tag coded)
        | none => put n lba e.k pop unit
      | none => when (decide (s.mpc.enc.length < 64)) (.seq (encOpen g (s.get MPC_KEY_STAT.KGEN k)) (.ask fun t =>
          match t.encOf g with
          | some e => put n lba e.k pop unit
          | none => .skip)))
where
  put (n lba slot : Nat) (pop : Prog) (unit : List Byte) : Prog := .ask fun s =>
    let coded := match recorded with
      | some bs => s.recordedCoded n lba bs
      | none => s.memberCoded n lba (unit.take 4096) (unit.drop 4096)
    let ver := if recorded.isSome then none else s.destageVer n lba
    let accept : Prog := setEnc g fun e => { e with
      members := e.members ++ [(j, coded)]
      vers := e.vers ++ (match ver with
        | some v => [(v.ns, v.lba, v.seq)]
        | none => []) }
    .seq pop (if s.encFails slot then .seq (encFree g) (workError g)
      else if lost && recorded.isSome then listUnreadable n lba g accept else accept)
def execEncodeMember (row : Fin (2 ^ 40)) (j : Fin 16) (recorded : Option (List Byte)) (lost : Bool) (s : State) :=
  (encodeProg row j recorded lost).exec s

/-- PARITY_READY: every data member of the row is encoded, and its parity members go to WRC (R274, R280). -/
def parityReadyProg (g : Nat) : Prog := .ask fun s =>
  match s.nsOfRow g, s.encOf g with
  | some n, some e =>
    let ps := (List.range 16).filter fun j => decide (s.nsD n ≤ j)
    when (!e.ready && (List.range (s.nsD n)).all fun j => e.members.any fun y => y.1 == j) (
      let par := ps.map fun j => (j, eraseMember ps j e.members)
      if s.encFails e.k then .seq (encFree g) (workError g)
      else all [setEnc g fun x => { x with ready := true, parity := par }, encWrite e.k par, each par fun y => toWriter g y.1 e.tag y.2])
  | _, _ => .skip
def execParityReady (row : Fin (2 ^ 40)) (s : State) := (parityReadyProg row).exec s

/-- Every member of the row has been completed, or lies on a FAILED head (R171, R166); of a row that is only rebuilt, the rebuilt members (R74). -/
def State.rowComplete (s : State) (r : RowProgress) : Bool :=
  let mine := s.cqe.rebuilt.filter fun e => e.1 == r.row
  if (s.encOf r.row).isNone && !mine.isEmpty then mine.all fun e => r.done.contains e.2
  else (List.range 16).all fun j => r.done.contains j || s.memberFailed r.row j

/-- ROW_WRITTEN: one wedge interval has passed since the row's last postamble (R171): its versions are on the medium (R328, R334, R382, R383), its
encode slot is free (R281). The version of a member that was not written stays in the buffer: it is owed until the rebuild writes it (R72). -/
def rowWrittenProg (g : Nat) : Prog := .ask fun s =>
  match s.wrc.rows.find? fun r => r.row == g with
  | none => .skip
  | some r => when (s.rowComplete r && r.neighbour.isEmpty && decide (r.lastEnd + wedgeTicks < s.time)) (
      let every := (s.encOf g).elim [] (·.vers)
      let onMedium := fun v : Nat × Nat × Nat => r.done.any fun j => s.rowLba v.1 g j == v.2.1
      let vs := every.filter onMedium
      let owed := (every.filter fun v => !onMedium v).flatMap fun v => ((List.range 16).filter fun j => s.rowLba v.1 g j == v.2.1 && decide (j < s.nsD v.1)).map fun j => (g, j, v)
      all [
        .upd (.wrc fun x => { x with rows := x.rows.filter fun y => y.row != g }), verifyDue g r.done, encFree g,
        .upd (.cqe fun x => { x with
          destaged := x.destaged + 4096 * vs.length
          owed := (x.owed.filter fun e => !(e.1 == g && (r.done.contains e.2.1 || owed.any fun o => o.2.1 == e.2.1))) ++ owed
          rebuilt := x.rebuilt.filter fun e => !(e.1 == g && r.done.contains e.2)
          overlay := x.overlay.map fun v =>
            if vs.contains (v.ns, v.lba, v.seq) || (x.owed.any fun e => e.1 == g && r.done.contains e.2.1 && e.2.2 == (v.ns, v.lba, v.seq)) then { v with medium := true }
            else v }),
        cqeShow, versionSweep])
def execRowWritten (row : Fin (2 ^ 40)) (s : State) := (rowWrittenProg row).exec s

/-- The end of a key-slot operation: ERR, and the sixteen KEY_DATA words are cleared (R295). -/
def keyEnd (err : Nat) : Prog := .seq (setF MPC_KEY_CTL.ERR 0 err) (each (List.range 16) fun i => setF MPC_KEY_DATA.KEY i 0)

/-- A write of MPC_KEY_CTL with GO (R295, Table 10.3): `p` gives the operation on the slot. -/
def keyOp (m : Master) (op slot kgen : Nat) (hostEn : Bool) (p : State → Prog) : Prog := keeperOnly m .MPC_KEY_CTL 0 (all [
  setF MPC_KEY_CTL.OP 0 op, setF MPC_KEY_CTL.KGEN 0 kgen, setF MPC_KEY_CTL.HOST_EN 0 (b2n hostEn), setF MPC_KEY_CTL.SLOT 0 slot,
  whenS (fun s => !s.on MPC_KEY_CTL.BUSY 0) (.ask p)])

/-- The bytes of MPC_KEY_DATA words: the first key byte is the most significant of its lowest word (Table 10.10). -/
def State.keyData (s : State) : List Byte := (List.range 16).flatMap fun i => beBytes 4 (s.get MPC_KEY_DATA.KEY i)

/-- The frames of a slot's namespaces leave the content cache when its key changes (R392). -/
def keyFrames (slot : Nat) : Prog := .ask fun s => cccDrop fun n => s.get CQE_NS_CFG.KSLOT n == slot

/-- K1 = K2 refuses a LOAD with KEYS_EQUAL, rows held dirty with DIRTY. -/
def keyLoad (slot kgen : Nat) (hostEn : Bool) (s : State) : Prog :=
  if s.get MPC_KEY_STAT.DIRTY slot ≠ 0 then keyEnd 1
  else if s.keyData.take 32 = s.keyData.drop 32 then keyEnd 3
  else all [
    .upd (.mpc fun x => { x with keys := x.keys.filter (fun e => e.1 != slot) ++ [(slot, s.keyData)] }),
    setF MPC_KEY_STAT.KGEN slot kgen, setF MPC_KEY_STAT.STATE slot (if hostEn then 2 else 1), keyFrames slot, keyEnd 0]
def keyTo (slot st : Nat) (s : State) : Prog :=
  if s.keyState slot = 0 then keyEnd 2 else .seq (setF MPC_KEY_STAT.STATE slot st) (keyEnd 0)
def keyZeroise (slot : Nat) (s : State) : Prog :=
  if s.get MPC_KEY_STAT.DIRTY slot ≠ 0 then keyEnd 1
  else all [.upd (.mpc fun x => { x with keys := x.keys.filter fun e => e.1 != slot }), setF MPC_KEY_STAT.STATE slot 0, keyFrames slot, keyEnd 0]

/-- The operation that OP names (Table 10.3). -/
def keyOperate (op slot kgen : Nat) (hostEn : Bool) (s : State) : Prog :=
  if op = 0 then keyLoad slot kgen hostEn s else if op = 1 then keyTo slot 1 s else if op = 2 then keyTo slot 2 s
  else if op = 3 then keyZeroise slot s else keyEnd 4

/-- KEY_LOAD, KEY_LOCK, KEY_UNLOCK, KEY_ZEROISE. -/
def execKeyLoad (m : Master) (slot : Fin 128) (kgen : Fin 64) (hostEn : Bool) (s : State) :=
  (keyOp m 0 slot kgen hostEn (keyOperate 0 slot kgen hostEn)).exec s
def execKeyLock (m : Master) (slot : Fin 128) (s : State) := (keyOp m 1 slot 0 false (keyOperate 1 slot 0 false)).exec s
def execKeyUnlock (m : Master) (slot : Fin 128) (s : State) := (keyOp m 2 slot 0 false (keyOperate 2 slot 0 false)).exec s
def execKeyZeroise (m : Master) (slot : Fin 128) (s : State) := (keyOp m 3 slot 0 false (keyOperate 3 slot 0 false)).exec s

/-- The member that path `p` reads, and whether it cannot be read (R139). -/
def State.readInfo (s : State) (p g j tag : Nat) : SecInfo :=
  { row := g, j, path := p, head := (s.tgt p).head, tag, track := (s.tgt p).target.toNat }
def State.readLost (s : State) (p g j : Nat) : Bool := s.memberLost g j || s.headState (s.tgt p).head == hFailed

/-- The codeword's start from the marks of a read: a mark with more than TOL differing bits is not found (R119). -/
def State.syncSeen (s : State) (p : Nat) (sm1 sm2 : Option MarkObs) : Option (Int × Bool) :=
  let found := fun m : Option MarkObs => (m.filter fun x => decide (x.diff.val ≤ (s.loopCfg p).tol)).map fun x => ({ pos := (x.pos.val : Int) - 16, diff := x.diff.val } : Mark)
  syncDecision (found sm1) (found sm2)

/-- SECTOR_READ_END, DECODE_CUTOFF, LADDER_LEVEL_BOUNDARY, L1_JOB_DONE: the ends of RDC's reads and jobs, and what follows a member that ends
unrecovered. -/
def execSectorReadEnd (p : Fin 16) (row : Fin (2 ^ 40)) (j : Fin 16) (tag : Word) (verify sampled timing : Bool) (sm1 sm2 : Option MarkObs)
    (d : Option Decode) (bits : List BitObs) (s : State) :=
  (Prog.seq (Prog.ask fun s => sectorEndProg (s.readInfo p row j tag.toNat) verify (s.readLost p row j) none
    (readSeen sampled { sync := s.syncSeen p sm1 sm2, timing, d } bits)) memberSweep).exec s
def execDecodeCutoff (p : Fin 16) (row : Fin (2 ^ 40)) (j : Fin 16) (x : MediaRead) (c : Cutoff) (s : State) :=
  (Prog.seq (Prog.ask fun s => sectorEndProg (s.readInfo p row j x.tag.toNat) x.verify (s.readLost p row j) (some c.iter.val) c.o) memberSweep).exec s
def execLadderLevelBoundary (p : Fin 16) (slot : Fin 4) (needed sampled : Bool) (r : ReadOut) (bits : List BitObs) (s : State) :=
  (Prog.seq (ladderBoundaryProg p slot needed (readSeen sampled r bits)) memberSweep).exec s
def execL1JobDone (p : Fin 16) (slot : Fin 4) (d : Option Decode) (s : State) := (Prog.seq (l1DoneProg p slot d) memberSweep).exec s

end Sys2Proof.Machine
end

