-- ==== Sys2Proof/Machine/Power.lean ====
section
/-! DEFINITION. Commands of the power die, the Causeway, the self-timed islands, core voltage and temperature (chapter 17). -/
namespace Sys2Proof.Machine

/-- FABRIC_TRANSACTION_TIMEOUT: a transaction not completed BUS_TMO after its issue ends with a bus error (R535, Table 20.7). -/
def execFabricTransactionTimeout (m : Master) (typ size : Fin 16) (addr : PAddr) (s : State) :=
  (Prog.seq (busErr m) (raise 20 (accessCap m typ size addr.toNat))).exec s

/-- CAUSEWAY_HELLO: the power die's HELLO ends link-up (R477); arms that timed out are reported now (R480). -/
def cwHelloProg (major minor : Nat) : Prog := .ask fun s => when (!s.cwIsUp) (.seq (setF PTM_CW_STAT.PD_VER 0 (16 * major + minor)) (
  if major = 1 then all [
    setF PTM_CW_STAT.VER_ERR 0 0, setF PTM_CW_STAT.LINK 0 cwUp,
    each s.pwr.timedOut fun a => emit (.event "retract not latched" [a]), setPd fun x => { x with timedOut := [] }]
  else all [
    setF PTM_CW_STAT.VER_ERR 0 1, setF PTM_CW_STAT.LINK 0 cwHello, when (s.mode == mBoot) (bootFailure 1)]))
def execCausewayHello (major minor : Fin 16) (s : State) := (cwHelloProg major minor).exec s

/-- HEARTBEAT_SEND: every 2 µs while the link is up and HB_STOP is 0, whatever firmware does; not without VCORE or domain 30 (R478). -/
def State.beats (s : State) : Bool :=
  s.cwIsUp && !s.on PTM_CW_CTL.HB_STOP 0 && !s.ptm.retention && s.bitF PWR_STAT.RAIL_OK 0 0 && s.domainOn 30 && decide (s.ptm.hbNext ≤ s.ptm.ticks)
def heartbeatProg : Prog := .ask fun s => when s.beats (all [
  cwSend "HB" 0x02 0 (beNats 8 s.time ++ beNats 2 s.ptm.hbCount),
  .upd (.ptm fun p => { p with hbCount := (p.hbCount + 1) % 65536, hbNext := p.ticks + 16 }), setPd fun x => { x with hbSeen := s.ptm.ticks }])
def execHeartbeatSend (s : State) := heartbeatProg.exec s

/-- HEARTBEAT_TIMEOUT: 50 µs without a heartbeat, at the power die (R22, Table 17.7). -/
def heartbeatTimeoutProg : Prog := whenS (fun s => decide (s.pwr.hbSeen + 400 ≤ s.ptm.ticks)) pdAlone
def execHeartbeatTimeout (s : State) := heartbeatTimeoutProg.exec s

/-- CAUSEWAY_DOWN (R479). -/
def execCausewayDown (s : State) := (whenS State.cwIsUp causewayDown).exec s

/-- RESUME: a Keeper write; discarded while the link is not up (R479). In AUTONOMOUS it stops braking (Table 17.7). -/
def resumeSend : Prog := .ask fun s => when s.cwIsUp (.seq (cwSend "RESUME" 0x03 0 []) (
  when (s.pwr.st == pdHold || s.pwr.st == pdAutonomous)
    (setPd fun x => { x with st := pdCommanded, stages := s.pwr.st == pdHold, braking := false, hbSeen := s.ptm.ticks })))
def resumeProg (m : Master) : Prog := keeperOnly m .PTM_CW_CTL 0 resumeSend
def execResume (m : Master) (s : State) := (resumeProg m).exec s

/-- RELEASE at the power die: accepted with every arm latched and the spindle stopped (Table 17.7). -/
def releaseProg : Prog := .ask fun s =>
  when (s.pwr.st == pdCommanded && s.get PWR_STAT.LATCHED 0 == 15 && !s.turning) (.seq stagesOff (setPd fun x => { x with st := pdHold }))
def execRelease (s : State) := releaseProg.exec s

/-- What an upstream frame with PWR_STAT tells PTM: the value, and arms newly reported latched (R210, R474, R606). -/
def statSeen : Prog := .ask fun s => .seq (setPd fun x => { x with seen := s.pwrStat }) latchedSeen

/-- A cause of the supply warning is present: a warning, or a rail out of regulation (R473). -/
def State.supplyCause (s : State) : Bool := s.on PWR_STAT.WARN 0 || s.get PWR_STAT.RAIL_OK 0 != 63
def supplySeen : Prog := whenS State.supplyCause (.upd (.ptm fun p => { p with causeAt := p.ticks }))

/-- EVT: a change of PWR_STAT crosses to PTM; the supply and arm levels are the power die's, and a warning that it brings is sampled (R473, R474). -/
def evtProg (loss warn : Bool) (railOk latched : Nat) : Prog := all [
  supplySeen, setF PWR_STAT.LOSS 0 (b2n loss), setF PWR_STAT.WARN 0 (b2n warn), setF PWR_STAT.RAIL_OK 0 railOk, pwrgdShow, setF PWR_STAT.LATCHED 0 latched, statSeen,
  supplySeen, whenS (fun s => warn && !s.wrc.supply) (setSupply true)]
def execEvt (loss warn : Bool) (railOk : Fin 64) (latched : Fin 16) (s : State) := (evtProg loss warn railOk latched).exec s

/-- VCM_TICK: the power die samples the named currents and answers with VCM_SAMP; motor frames count from RESUME on (R475, R477). -/
def vcmTickProg (mask : Nat) : Prog := .ask fun s => when (s.pwr.st == pdCommanded)
  (setPd fun x => { x with sampled := allActs.filter fun a => x.sampled.contains a || nbit mask a })
def execVcmTick (mask : Fin 16) (s : State) := (vcmTickProg mask).exec s

/-- VCM_CMD: the bridge voltage, ignored while the actuator's RETRACTED is 1 (R475, R480). A drive takes the arm off its latch
(assumption log 21). -/
def vcmCmdProg (a : Nat) (v : Int) : Prog := .ask fun s => when (s.pwr.st == pdCommanded && !s.bitF PWR_STAT.RETRACTED 0 a) (.seq
  (setPd fun x => { x with stages := true, vcm := Sparse.put 0 x.vcm a v })
  (when (v != 0) (setBitF PWR_STAT.LATCHED 0 a false)))
def execVcmCmd (a : Fin 4) (v : BitVec 16) (s : State) := (vcmCmdProg a v.toInt).exec s

/-- Squares of the samples of a current, each over the time to the next one, at most a wedge interval, in the 100 ms before `now` (R471). -/
def squareTime (now : Nat) : Nat → List (Nat × Int) → Int
  | _, [] => 0
  | next, (t, i) :: l => if now ≤ t + 100 * tickMs then i * i * (min 160 (next - t) : Nat) + squareTime now t l else 0

/-- The bridge's RMS exceeds ICONT: in 25 mA, of 4 A / 32,768 per code (R471, Table 17.4). -/
def State.overIcont (s : State) (a : Nat) (l : List (Nat × Int)) : Bool :=
  let c := clampN 1 100 (s.get PWR_VCM_CFG.ICONT a)
  decide ((1048576 * (c * c) * (100 * tickMs) : Nat) < 25 * squareTime s.ptm.ticks s.ptm.ticks l)

/-- A sample of an actuator's current, and the limit at ICONT that follows the window's RMS (R471; assumption log 21). -/
def bridgeLimit (a : Nat) (i : Int) : Prog := .ask fun s =>
  let l := (s.ptm.ticks, i) :: (Sparse.get [] s.pwr.currents a).filter fun e => decide (s.ptm.ticks ≤ e.1 + 100 * tickMs)
  .seq (setPd fun x => { x with currents := Sparse.put [] x.currents a l }) (setF PWR_VCM_CFG.ILIM_ACT a (b2n (s.overIcont a l)))

/-- VCM_SAMP: the current context's input is its set-point, with the vibration feedforward where it is on, minus the sampled
current (R186, R216); while the Causeway is down no current context executes. -/
def vcmSampProg (a : Nat) (i : Int) : Prog := .ask fun s => .seq
  (setPd fun x => { x with sampled := x.sampled.filter (· != a) })
  (when s.cwIsUp (trigger (20 + a) (Sparse.get 0 s.sve.setPt a +
    (if s.on SVE_VFF_CTL.EN a then (Sparse.get {} s.sve.vff a : Vff).out else 0) - i)))
def execVcmSamp (a : Fin 4) (i : BitVec 16) (bemf : BitVec 16) (s : State) :=
  (all [emit (.event "VCM back-EMF" [a, bemf.toNat]), bridgeLimit a i.toInt, vcmSampProg a i.toInt]).exec s

/-- SPN_DUTY: phase duties for the next PWM period (R475). -/
def spnDutyProg (u v w : Nat) : Prog := .ask fun s => when (s.pwr.st == pdCommanded)
  (setPd fun x => { x with stages := true, duty := [u, v, w] })
def execSpnDuty (u v w : BitVec 16) (s : State) := (spnDutyProg u.toNat v.toNat w.toNat).exec s

/-- SPN_SAMP: the phase currents of the period, for field-oriented control (R223). -/
def execSpnSamp (iu iv iw bemf : BitVec 16) (s : State) := (Prog.seq (emit (.event "SPCT back-EMF" [bemf.toNat]))
  (.upd (.spn fun x => { x with samp := [iu.toInt, iv.toInt, iw.toInt] }))).exec s

/-- RETRACT at the power die: the named actuators (Table 17.7). -/
def retractProg (mask : Nat) : Prog := whenS (fun s => s.pwr.st == pdCommanded) (pdRetract (allActs.filter fun a => nbit mask a))
def execRetract (mask : Fin 16) (s : State) := (retractProg mask).exec s

/-- RAIL_FAULT: rail `k` leaves regulation for 10 µs or reaches its limit (R470). -/
def railFaultProg (k : Nat) : Prog := all [setBitF PWR_STAT.RAIL_OK 0 k false, pwrgdShow, supplySeen, setSupply true, raise k (detail k)]
def execRailFault (k : Fin 6) (s : State) := (railFaultProg k).exec s

/-- SUPPLY_WARNING: sampled by PTM (R473). -/
def execSupplyWarning (s : State) := (all [setF PWR_STAT.WARN 0 1, supplySeen, setSupply true]).exec s

/-- SUPPLY_WARNING_CLEAR: 1 ms after its last cause has cleared, every rail in regulation and no warning present (R473). -/
def supplyClearProg : Prog := whenS (fun s => s.wrc.supply && !s.supplyCause && decide (s.ptm.causeAt + tickMs ≤ s.ptm.ticks)) (setSupply false)
def execSupplyWarningClear (s : State) := supplyClearProg.exec s

/-- SUPPLY_LOSS (R473, R508). -/
def execSupplyLoss (s : State) := supplyLoss.exec s

/-- POWERLOSS_WRITER_ASSERT: at the writer's postamble, or 20 µs after detection (R165); the last one brings journal mode. -/
def powerlossWriterProg (w : Nat) : Prog := whenS (fun s => s.ptm.plStep == 2 && !(s.writer w).powerLoss &&
    ((s.writer w).sector.isNone || decide (s.ptm.plAt + 160 ≤ s.ptm.ticks))) (.seq (setPowerLoss w) journalMode)
def execPowerlossWriterAssert (w : Fin 8) (s : State) := (powerlossWriterProg w).exec s

/-- ARM_LATCH: the arm is on its ramp; LATCHED sets, its bridge turns off (R480), and with the link up the logic die sees it (R210, R606). -/
def armLatchProg (a : Nat) : Prog := .ask fun s => when (s.pwr.retracting.contains a || (s.seek a).ramp) (all [
  setBitF PWR_STAT.LATCHED 0 a true,
  setPd fun x => { x with retracting := x.retracting.filter (· != a), vcm := x.vcm.filter fun e => e.1 != a },
  when s.cwIsUp statSeen, pdSettle])
def execArmLatch (a : Fin 4) (s : State) := (armLatchProg a).exec s

/-- RET_TMO has passed since the actuator's retract began (R480). -/
def State.retractOver (s : State) (a : Nat) : Bool :=
  decide (Sparse.get 0 s.pwr.retractAt a + max 1 (s.get PWR_RET_CFG.RET_TMO 0) * tickMs ≤ s.ptm.ticks)

/-- RETRACT_TIMEOUT: RET_TMO without a latch: the bridge turns off and LATCHED stays 0 (R480); the actuator counts as retracted (R606). -/
def retractTimeoutProg (a : Nat) : Prog := .ask fun s => when (s.pwr.retracting.contains a && s.retractOver a) (all [
  setPd fun x => { x with retracting := x.retracting.filter (· != a), timedOut := a :: x.timedOut },
  when (s.sve.retract.contains a) (parkedSeen a), pdSettle])
def execRetractTimeout (a : Fin 4) (s : State) := (retractTimeoutProg a).exec s

/-- SPINDLE_BRAKE_END: 1 s without a zero crossing (R481): in AUTONOMOUS the stages turn off. -/
def brakeEndProg : Prog := whenS (fun s => s.pwr.braking) (all [
  setPd fun x => { x with braking := false }, .upd (.spn fun x => { x with rotor := 0 }), pdSettle])
def execSpindleBrakeEnd (s : State) := brakeEndProg.exec s

/-- Entries of the handshake log (R482). -/
def hswDepth : Nat := 16

/-- HANDSHAKE_TIMEOUT: domain `a`'s request to `b` is abandoned; the requester gets an error, PTM logs the pair (R482). -/
def handshakeProg (a b : Nat) (k : Handshake) : Prog := .ask fun s => all [
  when (s.ptm.hsw.length < hswDepth) (.upd (.ptm fun p => { p with hsw := p.hsw ++ [(s.timeLo, b, a)] })),
  raise 7 (detail (64 * b + a)),
  match k with
  | .fabric m => busErr m
  | .read p => .seq (erasePaths [p]) (setF RDC_HP_STAT.PAL_ERR p 1)
  | .write w => closeGates [w] cInhibit
  | .other => .skip]
def execHandshakeTimeout (a b : Fin 60) (k : Handshake) (s : State) := (handshakeProg a b k).exec s

/-- What PTM measures of the margins: the smallest, in 0.01 %, shown in whole percent (assumption log 22), and its island (R484). -/
def setMargin (m : Int) (isl : Nat) : Prog :=
  .seq (setI PTM_AVS_STAT.MARGIN_MIN 0 (clampI (-128) 127 (m / 100))) (setF PTM_AVS_STAT.MIN_ISL 0 isl)

/-- MARGIN and EMER in 0.01 %. -/
def State.marginTarget (s : State) : Int := 100 * (clampN 1 50 (s.get PTM_AVS_CFG.MARGIN 0) : Nat)
def State.emerTarget (s : State) : Int := 100 * (s.get PTM_AVS_CFG.EMER 0 : Nat)

/-- AVS_PERIOD: one 10 µs period of R484. -/
def avsPeriodProg (m : Int) (isl : Nat) : Prog := .ask fun s =>
  let v := s.get PTM_AVS_STAT.VSET 0
  let high := if s.marginTarget + 400 < m then s.ptm.marginHigh + 1 else 0
  all [setMargin m isl, .upd (.ptm fun p => { p with emerUsed := false, marginHigh := if high = 100 then 0 else high }),
    when (!s.on PTM_AVS_CFG.FIXED 0) (
      if m < s.marginTarget then setVset (v + 1) else when (high == 100) (setVset (v - 1)))]
def execAvsPeriod (margin : Int) (isl : Fin 32) (s : State) := (avsPeriodProg margin isl).exec s

/-- AVS_EMERGENCY_STEP: at most once per 10 µs (R484); while FIXED is 1 the shortfall is only counted (R485). -/
def avsEmergencyProg (m : Int) (isl : Nat) : Prog := .ask fun s => when (decide (m < s.emerTarget) && !s.ptm.emerUsed) (all [
  setMargin m isl, .upd (.ptm fun p => { p with emerUsed := true }), incF PTM_AVS_STAT.EMER_CNT 0,
  when (!s.on PTM_AVS_CFG.FIXED 0) (setVset (s.get PTM_AVS_STAT.VSET 0 + 5))])
def execAvsEmergencyStep (margin : Int) (isl : Fin 32) (s : State) := (avsEmergencyProg margin isl).exec s

/-- AVS_UNDERRUN: m_min below 0 for 1 ms with VSET at VMAX (R486). -/
def avsUnderrunProg (m : Int) (isl : Nat) : Prog := .ask fun s =>
  when (decide (m < 0) && s.get PTM_AVS_STAT.VSET 0 == s.vmax) (.seq (setMargin m isl) (raise 8 (detail isl)))
def execAvsUnderrun (margin : Int) (isl : Fin 32) (s : State) := (avsUnderrunProg margin isl).exec s

/-- DEMAND_RISE_GRANT: the rise is granted once the margins allow it, or refused at VMAX (R485). -/
def demandRiseProg (granted : Bool) : Prog := .ask fun s =>
  if granted then .seq grantRise (writersGranted true)
  else when (s.get PTM_AVS_STAT.VSET 0 == s.vmax && !s.on PTM_AVS_CFG.FIXED 0) (.seq (setF PTM_AVS_STAT.AVS_LIM 0 1) (writersGranted false))
def execDemandRiseGrant (granted : Bool) (s : State) := (demandRiseProg granted).exec s

/-- THERMAL_WARNING (R489). -/
def execThermalWarning (tl tp : BitVec 8) (s : State) := (Prog.seq (setJunctions tl.toInt tp.toInt) throttleCheck).exec s

/-- THROTTLE_CLEAR: both junctions have stayed 5 °C below TWARN for 1 s (R489). -/
def throttleClearProg (tl tp : Int) : Prog := .seq (setJunctions tl tp)
  (whenS (fun s => s.on PTM_CAP_STAT.THROTTLE 0 && decide (s.tjMax ≤ s.twarn - 5) && decide (s.ptm.hotAt + tickSec ≤ s.ptm.ticks)) (.seq (setF PTM_CAP_STAT.THROTTLE 0 0) concurrencyChange))
def execThrottleClear (tl tp : BitVec 8) (s : State) := (throttleClearProg tl.toInt tp.toInt).exec s

/-- THERMAL_SHUTDOWN: a junction at or above TSHUT (R489, R504). -/
def thermalShutdownProg (tl tp : Int) : Prog := .seq (setJunctions tl tp)
  (.seq throttleCheck (whenS (fun s => decide (s.tshut ≤ s.tjMax)) (enterSafe 4)))
def execThermalShutdown (tl tp : BitVec 8) (s : State) := (thermalShutdownProg tl.toInt tp.toInt).exec s

/-- SAFE_ENTER: a Keeper write of ENTER (R503, Table 18.13). -/
def safeEnterProg (m : Master) : Prog := keeperOnly m .PTM_SAFE_CTL 0 (enterSafe 7)
def execSafeEnter (m : Master) (s : State) := (safeEnterProg m).exec s

end Sys2Proof.Machine
end

