-- ==== Sys2Proof/Machine/Pcx.lean ====
section
/-! DEFINITION. The processor complex (chapter 15): core caches and their maintenance, the interrupt controller, timers, the protection checker's
commit, watchdogs, core failure and inheritance, the Keeper's restart, the Meridian CSRs. -/
namespace Sys2Proof.Machine

/-- The master of a hart: 0 the Keeper, 1 + c application core c (R417). -/
def hartMaster (h : Nat) : Master := if h = 0 then .keeper else .app (Fin.ofNat 4 (h - 1))

/-- The hart of a master, if it is a core. -/
def masterHart : Master → Option Nat
  | .keeper => some 0
  | .app c => some (1 + c)
  | _ => none

/-- Split-lock, and the follower of a pair (R419). -/
def State.split (s : State) : Bool := s.on PCX_CFG.SPLIT 0
def State.follower (s : State) (c : Nat) : Bool := s.split && c % 2 == 1

/-- A hart executes: the Keeper outside a restart, a running core that leads. -/
def State.hartRuns (s : State) (h : Nat) : Bool :=
  if h = 0 then !s.on PCX_KPR_STAT.RESTART 0 else s.running (h - 1) && !s.follower (h - 1)

/-- A trap that a hart takes: mcause and mtval. -/
def trap (h cause tval : Nat) : Prog := .upd (.pcx fun p => { p with trap := (h, cause, tval) :: p.trap.filter fun e => e.1 != h })

/-- mcause of a failed access (R421). -/
def accessCause (typ : Nat) : Nat := if typ = atFetch then 1 else if typ = atRead then 5 else 7

/-- ATOMIC_REGISTER_FAULT: refused inside the core before any transaction (R422). -/
def atomicRegisterProg (h : Nat) (fetch : Bool) (a : Nat) : Prog := .ask fun s =>
  when (s.hartRuns h && s.region a 4 == some .regs) (trap h (if fetch then 1 else 7) a)
def execAtomicRegisterFault (h : Fin 5) (fetch : Bool) (a : PAddr) (s : State) := (atomicRegisterProg h fetch a.toNat).exec s

/-- A read of a Meridian CSR: M mode always; S and U modes under the TM bits; a write never (R428). -/
def csrAllowed (priv : Nat) (mTM sTM write : Bool) : Bool := !write && (priv == 3 || (mTM && (priv == 1 || sTM)))
def csrRead (h priv : Nat) (mTM sTM write : Bool) (v : State → Nat) : Prog := .ask fun s =>
  if csrAllowed priv mTM sTM write then reply (hartMaster h) (v s) else fresh fun k => trap h 2 k

/-- The value of MERFRAME (Table 15.8). -/
def State.merframe (s : State) : Nat := (s.time / 8000 % 2 ^ 48) <<< 16 ||| s.time % 8000

/-- TIME_CSR_READ, MERFRAME_READ, MERMODE_READ. -/
def execTimeCsrRead (h : Fin 5) (priv : Fin 4) (mTM sTM write : Bool) (s : State) := (csrRead h priv mTM sTM write State.time).exec s
def execMerframeRead (h : Fin 5) (priv : Fin 4) (mTM sTM write : Bool) (s : State) := (csrRead h priv mTM sTM write State.merframe).exec s
def execMermodeRead (h : Fin 5) (priv : Fin 4) (mTM sTM write : Bool) (s : State) := (csrRead h priv mTM sTM write State.mermode).exec s

/-- A master's latched maintenance registers (R423). -/
def State.cmo (s : State) (m : Master) : CmoLatch :=
  (s.pcx.cmo.find? fun c => c.master == m.id).getD { master := m.id, addr := 0, op := 0, lines := 0, busy := false, err := false }
def setCmo (m : Master) (f : CmoLatch → CmoLatch) : Prog := .ask fun s =>
  .upd (.pcx fun p => { p with cmo := f (s.cmo m) :: p.cmo.filter fun c => c.master != m.id })

/-- A write of PCX_CMO_CTL with GO (R423, R597): discarded with ERR in the cases the rule names; by another master than a core it is discarded. -/
def cmoGo (m : Master) (op lines : Nat) : Prog := when m.isCore (.ask fun s =>
  let c := s.cmo m
  if c.busy ∨ op = 3 ∨ !s.dramOk c.addr (64 * (lines + 1)) then
    setCmo m fun x => { x with op, lines, err := true }
  else all [setCmo m fun x => { x with op, lines, busy := true },
    when (op != 1) (cmoClean (c.addr / 64) (lines + 1)), when (op != 0) (cmoRemove (c.addr / 64) (lines + 1))])
def execCmoClean (m : Master) (lines : BitVec 16) (s : State) := (cmoGo m 0 lines.toNat).exec s
def execCmoInvalidate (m : Master) (lines : BitVec 16) (s : State) := (cmoGo m 1 lines.toNat).exec s
def execCmoCleanInvalidate (m : Master) (lines : BitVec 16) (s : State) := (cmoGo m 2 lines.toNat).exec s

/-- CMO_DONE: the last line of a master's operation is handled. -/
def execCmoDone (m : Master) (s : State) := (setCmo m fun x => { x with busy := false }).exec s

/-- The line of an interrupt source (Table 15.6). -/
def State.irqLine (s : State) (i : Nat) : Bool :=
  if i = 0 then false
  else if i ≤ 16 then s.on RDC_HP_STAT.ZT_ERR (i - 1) || s.on RDC_HP_STAT.PAL_ERR (i - 1) || s.on RDC_RETRY_STAT.UNREC (i - 1)
  else if i ≤ 24 then s.on WRC_WR_STAT.WT_ERR (i - 17) || s.on WRC_WR_STAT.AST_FLT (i - 17)
  else if i = 25 then s.on WRC_RWL_CTL.IRQ_EN 0 && s.rwlUsed != 0
  else if i ≤ 29 then s.on SVE_SEEK_STAT.DONE (i - 26)
  else if i = 30 then s.on SVE_DRIFT_CFG.IRQ_EN 0 && !s.sve.log.isEmpty
  else if i = 31 then s.on SPN_STAT.SU_FAIL 0 || s.on SPN_STAT.OBS_LOSS 0
  else if i ≤ 33 then s.on HIF_PORT_STAT.LOST (i - 32)
  else if i = 34 then s.on CQE_HQ_CTL.IRQ_EN 0 && s.get CQE_HQ_PTR.WR 0 != s.get CQE_HQ_PTR.RD 0
  else if i = 35 then s.on MPC_CFG.IRQ_EN 0 && (!s.mpc.log.isEmpty || s.on MPC_STAT.WORK_ERR 0 || s.on MPC_STAT.LOG_OVF 0)
  else if i = 36 then s.on SPL_STAT.MASTER_CHG 0 || s.on SPL_STAT.MEMB_EVT 0 || s.on SPL_MER_STAT.STEP_EVT 0 || s.on SPL_MER_STAT.PULSE_LOSS 0 ||
    s.on SPL_PLAN_CTL.PLAN_ERR 0 || s.on SPL_RLY_CTL.RX_OVF 0 || s.get SPL_RLY_CTL.RX_COUNT 0 != 0
  else if i ≤ 42 then (List.range 64).any fun n => s.bitF DMF_IRQ_PEND.PEND 0 n &&
    (if i = 42 then s.fastChan n else !s.fastChan n && (
      let o := s.get DMF_CH_CFG.OWNER n
      if i = 37 then o == 0 || decide (5 ≤ o) else decide (1 ≤ o ∧ o ≤ 4) && s.actsFor (o - 1) == some (i - 38)))
  else if i ≤ 44 then (List.range 384).any fun k => s.on FCU_SRC_STAT.PEND k && s.on FCU_SRC_CFG.OWNER k == (i == 43) &&
    decide (s.get FCU_SRC_STAT.STEP k ≤ 1)
  else if i = 45 then s.on PTM_MODE_STAT.TRANS 0 || s.on PTM_MODE_STAT.WAKE 0 || s.safe
  else if i = 46 then s.on ALM_CFG.IRQ_EN 0 && (s.on ALM_STAT.WRAP 0 || s.on ALM_STAT.STAGE_OVF 0)
  else if i = 47 then false
  else if i ≤ 55 then s.get PCX_FRY_STAT.STATE (i - 48) == 1
  else if i ≤ 60 then s.get PCX_WDT_STAT.STAGE (i - 56) == 1 || s.get PCX_WDT_STAT.STAGE (i - 56) == 2
  else false

/-- A source is pending (R425). -/
def State.irqPending (s : State) (i : Nat) : Bool := s.irqLine i && !s.on PCX_IRQ_SRC.CLAIMED i

/-- A target's core in split-lock is its lead (R424). -/
def State.leadTarget (s : State) (t : Nat) : Nat := if s.split ∧ (t = 2 ∨ t = 4 ∨ t = 6 ∨ t = 8) then t - 1 else t

/-- The target a source is delivered to: fixed ones, TARGET above 8, split-lock, and the heir of a halted core (R424, R425, R436). -/
def State.irqTarget (s : State) (i : Nat) : Nat :=
  let v := s.get PCX_IRQ_SRC.TARGET i
  let t := s.leadTarget (if i = 36 ∨ i = 37 ∨ i = 43 ∨ i = 45 ∨ i = 46 then 0 else if 56 ≤ i ∧ i ≤ 60 then i - 56 else if 9 ≤ v then 0 else v)
  if t = 0 then 0
  else match s.actsFor ((t - 1) % 4) with
    | some c => 1 + c + 4 * ((t - 1) / 4)
    | none => t

/-- The hart of a target. -/
def targetMaster (t : Nat) : Master := if t = 0 then .keeper else .app (Fin.ofNat 4 ((t - 1) % 4))

/-- The source that a claim of target `t` returns: the highest PRIO, the lowest number on a tie (R425). -/
def State.irqBest (s : State) (t : Nat) : Nat :=
  ((List.range 128).filter fun i => s.on PCX_IRQ_SRC.EN i && s.irqTarget i == t && decide (0 < s.get PCX_IRQ_SRC.PRIO i) && s.irqPending i).foldl
    (fun b i => if b = 0 ∨ s.get PCX_IRQ_SRC.PRIO b < s.get PCX_IRQ_SRC.PRIO i then i else b) 0

/-- Target `t`'s interrupt is asserted (R425). -/
def State.irqAsserted (s : State) (t : Nat) : Bool := (List.range 128).any fun i =>
  s.on PCX_IRQ_SRC.EN i && s.irqTarget i == t && s.irqPending i && decide (s.get PCX_IRQ_THR.THR t < s.get PCX_IRQ_SRC.PRIO i)

/-- IRQ_CLAIM: a read of PCX_IRQ_CLAIM. -/
def irqClaimProg (m : Master) (t : Nat) : Prog := .ask fun s =>
  if m ≠ targetMaster t then reply m 0
  else .seq (reply m (s.irqBest t)) (when (s.irqBest t != 0) (setF PCX_IRQ_SRC.CLAIMED (s.irqBest t) 1))
def execIrqClaim (m : Master) (t : Fin 9) (s : State) := (irqClaimProg m t).exec s

/-- IRQ_COMPLETE: a write of PCX_IRQ_CLAIM; by another master than the target's hart it is discarded. -/
def irqCompleteProg (m : Master) (t i : Nat) : Prog := when (m == targetMaster t) (setF PCX_IRQ_SRC.CLAIMED i 0)
def execIrqComplete (m : Master) (t : Fin 9) (src : Fin 128) (s : State) := (irqCompleteProg m t src).exec s

/-- MACHINE_TIMER: a hart's timer interrupt is pending while Meridian time is at least its compare value (R426). -/
def State.timerPending (s : State) (h : Nat) : Bool := decide (s.get PCX_MTIMECMP.CMP h ≤ s.time)
def machineTimerProg (h : Nat) : Prog := whenS (fun s => s.timerPending h) (emit (.event "machine timer interrupt" [h]))
def execMachineTimer (h : Fin 5) (s : State) := (machineTimerProg h).exec s

/-- Writes of PCX_MSIP and PCX_MTIMECMP are the Keeper's and the hart's own; others are discarded (R426). -/
def hartMayWrite (m : Master) (h : Nat) : Bool := m == .keeper || masterHart m == some h
def msipProg (m : Master) (h : Nat) (v : Bool) : Prog := when (hartMayWrite m h) (setF PCX_MSIP.MSIP h (b2n v))
def execMsipWrite (m : Master) (h : Fin 5) (v : Bool) (s : State) := (msipProg m h v).exec s

/-- A region's shadow. -/
def State.regionShadow (s : State) (r : Nat) : Region :=
  { base := s.get PCX_PROT_BASE.PAGE r, limit := s.get PCX_PROT_LIMIT.PAGE r, en := s.on PCX_PROT_ATTR.EN r, dbgg := s.on PCX_PROT_ATTR.DBGG r
    x := s.on PCX_PROT_ATTR.X r, w := s.on PCX_PROT_ATTR.W r, r := s.on PCX_PROT_ATTR.R r
    midLo := s.get PCX_PROT_ATTR.MID_LO r, midHi := s.get PCX_PROT_ATTR.MID_HI r }

/-- PROT_COMMIT: the named regions' shadows come into use in one checker step, before the write's response (R432); the protection set-up is the Keeper's
(R28, R596). -/
def protCommit (mask : Nat) : Prog := .ask fun s => .upd (.pcx fun p =>
  { p with regions := (p.regions.filter fun e => !nbit mask e.1) ++ ((List.range 64).filter fun r => nbit mask r).map fun r => (r, s.regionShadow r) })
def execProtCommit (c : ProtCommit) (s : State) := (keeperOnly c.m .PCX_PROT_COMMIT 0 (protCommit c.mask.toNat)).exec s

/-- A store buffer is written to L2, or discarded (R435). -/
def l2Store (ls : List CoreLine) (a : Nat) (b : Byte) (old : List Byte) : List CoreLine :=
  if ls.any fun l => l.line == a / 64 then
    ls.map fun l => if l.line == a / 64 then { l with bytes := l.bytes.set (a % 64) b, dirty := true } else l
  else { line := a / 64, bytes := old.set (a % 64) b, dirty := true } :: ls
def storeBufEnd (c : Nat) (keep : Bool) : Prog := .ask fun s => .upd (.pcx fun p =>
  { p with
    l2 := if keep then (p.storeBuf.filter fun e => e.1 == c).foldl (fun ls e => l2Store ls e.2.1 e.2.2 (s.bytes (e.2.1 / 64 * 64) 64)) p.l2 else p.l2
    storeBuf := p.storeBuf.filter fun e => e.1 != c })

/-- Halt causes of a core (Table 15.3). -/
def coreWatchdog : Nat := 1
def coreMiscompare : Nat := 2
def coreKeeper : Nat := 3

/-- Application core `c`, or its pair, halts (R435, R436). -/
def haltCore (c cause : Nat) : Prog := .ask fun s =>
  let cs := if s.split then [c - c % 2, c - c % 2 + 1] else [c]
  when (s.running c) (all [
    each cs fun k => all [setF PCX_CORE_STAT.STATE k 2, setF PCX_CORE_STAT.CAUSE k cause, storeBufEnd k (cause != coreMiscompare)],
    when (cause != coreKeeper) (raise (12 + c) (detail cause)),
    .ask fun t => when ((List.range 4).all fun k => !t.running k) (enterSafe 5)])

/-- A core starts at its PCX_RST_VEC with its L1 caches invalidated (R436). -/
def startCore (c : Nat) : Prog := .ask fun s =>
  let cs := if s.split then [c, c + 1] else [c]
  when (!s.running c) (all [
    each cs fun k => setF PCX_CORE_STAT.STATE k 1,
    .upd (.pcx fun p => { p with l1 := p.l1.filter fun e => !cs.contains e.1 }),
    emit (.event "core start" [c, s.get PCX_RST_VEC.VEC c])])

/-- CORE_RUN: a write of PCX_CORE_CTL; a follower's is ignored (R419, R436). -/
def coreControl (m : Master) (c : Nat) (run : Bool) (heir : Nat) : Prog :=
  keeperSets m .PCX_CORE_CTL c (fun s => s.on PCX_CORE_CTL.RUN c != run || s.get PCX_CORE_CTL.HEIR c != heir) (.ask fun s => all [
    setF PCX_CORE_CTL.HEIR c heir, setF PCX_CORE_CTL.RUN c (b2n run), when (!s.follower c) (if run then startCore c else haltCore c coreKeeper)])
def execCoreRun (m : Master) (c : Fin 4) (run : Bool) (heir : Fin 4) (s : State) := (coreControl m c run heir).exec s

/-- PAIR_MISCOMPARE (R435). -/
def execPairMiscompare (pair : Fin 2) (s : State) := (whenS State.split (haltCore (2 * pair) coreMiscompare)).exec s

/-- A Keeper restart (R438, R468): in a restart already, the safe state. FCU captures it under the Keeper's master ID. -/
def keeperRestart (src : Nat) : Prog := .ask fun s => .seq
  (raise src { mid := 1, typ := 15, size := 15, addr := 0 })
  (if s.on PCX_KPR_STAT.RESTART 0 then enterSafe 6
   else all [setF PCX_KPR_STAT.RESTART 0 1, incF PCX_KPR_STAT.RESTARTS 0, setF PCX_DBG_STAT.UNLOCKED 0 0,
    .upd (.pcx fun p => { p with kprStart := s.ptm.ticks })])
def execKeeperMiscompare (s : State) := (keeperRestart 10).exec s

/-- A checkpoint record (R438): valid if its length is in range and its CRC matches; it lies within the Keeper's TCM. -/
def State.ckptAddr (s : State) (i : Nat) : Nat := 0x10000000 + s.get PCX_CKPT.OFFSET i * 4096
def State.ckptValid (s : State) (i : Nat) : Bool :=
  let a := s.ckptAddr i
  let n := s.memW (a + 4)
  decide (64 ≤ n ∧ n ≤ 262144 ∧ a + n ≤ 0x10200000) && (crc32 (s.bytes (a + 12) (n - 12))).toNat == s.memW (a + 8)

/-- The record that the restart takes. -/
def State.ckptTaken (s : State) : Option Nat :=
  match s.ckptValid 0, s.ckptValid 1 with
  | true, true => some (if newer (2 ^ 32) (s.memW (s.ckptAddr 1)) (s.memW (s.ckptAddr 0)) then 1 else 0)
  | true, false => some 0
  | false, true => some 1
  | false, false => none

/-- KEEPER_RESTART_ENTRY: the restart code resumes the Keeper from a record, whose layout beyond word 2 is the Keeper's, or starts a chip reset. -/
def restartEntryProg : Prog := .ask fun s => when (s.on PCX_KPR_STAT.RESTART 0) (
  match s.ckptTaken with
  | some _ => fresh fun k => .upd (.pcx fun p => { p with keeperPc := k % 2 ^ 40 })
  | none => chipReset true false)
def execKeeperRestartEntry (s : State) := restartEntryProg.exec s

/-- A kick's effect: SINCE and STAGE to 0 (R434). -/
def wdtClear (h : Nat) : Prog := .seq (setF PCX_WDT_STAT.SINCE h 0) (setF PCX_WDT_STAT.STAGE h 0)

/-- RESUMED: a Keeper write ends the restart (R438). -/
def resumedProg (m : Master) : Prog := keeperOnly m .PCX_KPR_CTL 0 (.ask fun s => when (s.on PCX_KPR_STAT.RESTART 0) (all [
  setF PCX_KPR_STAT.RESTART 0 0, setF PCX_KPR_STAT.LAST_MS 0 (min 65535 ((s.ptm.ticks - s.pcx.kprStart) / 8000)), wdtClear 0,
  when s.pcx.nmiHeld (.seq (.upd (.pcx fun p => { p with nmiHeld := false })) nmi)]))
def execResumed (m : Master) (s : State) := (resumedProg m).exec s

/-- KEEPER_RESTART_TIMEOUT: 100 ms without RESUMED (R438). -/
def restartTimeoutProg : Prog := whenS (fun t => t.on PCX_KPR_STAT.RESTART 0 && decide (t.pcx.kprStart + 100 * tickMs ≤ t.ptm.ticks)) (enterSafe 6)
def execKeeperRestartTimeout (s : State) := restartTimeoutProg.exec s

/-- WATCHDOG_KICK: any other write is discarded and counted (R434). -/
def kickProg (m : Master) (h v : Nat) : Prog :=
  if v = 0xD1A5 ∧ masterHart m = some h then wdtClear h else incF PCX_WDT_STAT.BADKICK h
def execWatchdogKick (m : Master) (h : Fin 5) (v : Word) (s : State) := (kickProg m h v.toNat).exec s

/-- A watchdog runs; its TIMEOUT in ms (R434). -/
def State.wdtRuns (s : State) (h : Nat) : Bool := s.on PCX_WDT_CTL.EN h && s.hartRuns h
def State.wdtTimeout (s : State) (h : Nat) : Nat := max 1 (s.get PCX_WDT_CTL.TIMEOUT h)

/-- WATCHDOG_STAGE_1, WATCHDOG_STAGE_2: SINCE reaches TIMEOUT, and twice TIMEOUT. -/
def stage1Prog (h : Nat) : Prog := .ask fun s => when (s.wdtRuns h && s.get PCX_WDT_STAT.STAGE h == 0) (.seq
  (setF PCX_WDT_STAT.STAGE h 1) (setF PCX_WDT_STAT.SINCE h (max (s.get PCX_WDT_STAT.SINCE h) (s.wdtTimeout h))))
def stage2Prog (h : Nat) : Prog := .ask fun s => when (s.wdtRuns h && s.get PCX_WDT_STAT.STAGE h == 1) (all [
  setF PCX_WDT_STAT.STAGE h 2, setF PCX_WDT_STAT.SINCE h (min 65535 (max (s.get PCX_WDT_STAT.SINCE h) (2 * s.wdtTimeout h))),
  if h = 0 then keeperRestart 11 else haltCore (h - 1) coreWatchdog])
def execWatchdogStage1 (h : Fin 5) (s : State) := (stage1Prog h).exec s
def execWatchdogStage2 (h : Fin 5) (s : State) := (stage2Prog h).exec s

end Sys2Proof.Machine
end

