-- ==== Sys2Proof/Machine/Pins.lean ====
section
/-! DEFINITION. The levels of ports that follow from State: PWRGD, nFAULT, the LEDs, MER_OUT, the general-purpose pads, the DRAM's retention pads (R564,
R565, R572 to R574). -/
namespace Sys2Proof.Machine

/-- nFAULT is low (R572, R574). -/
def State.nfaultLow (s : State) : Bool := s.on FCU_CFG.NFAULT 0

/-- LED0 is low: while CQE holds an I/O command, and STRETCH ms after each assertion, or as LED0_VAL says; LED1 follows nFAULT, or LED1_VAL (R572). -/
def State.stretched (s : State) : Bool := s.ptm.led0 && decide (s.ptm.ticks < s.ptm.led0At + s.get PTM_LED_CFG.STRETCH 0 * tickMs)
def State.led0Low (s : State) : Bool := if s.on PTM_LED_CFG.LED0_SW 0 then s.on PTM_LED_CFG.LED0_VAL 0 else s.stretched || s.get CQE_STAT.IO_OUT 0 != 0
def State.led1Low (s : State) : Bool := if s.on PTM_LED_CFG.LED1_SW 0 then s.on PTM_LED_CFG.LED1_VAL 0 else s.nfaultLow

/-- MER_OUT is high: for 8 ticks from a local frame start, while OUT_EN is 1 (R262). -/
def State.merOutHigh (s : State) : Bool := s.spl.merOut != 0

/-- RESET_n of a DRAM channel is held high in a reset or RETENTION that keeps the DRAM's content, low in a cold reset (R565): before step 5 of BOOT. -/
def State.dramResetHigh (s : State) : Bool := s.ptm.retention || s.on PTM_BOOT_STAT.DRAM_KEPT 0 || decide (5 ≤ s.get PTM_BOOT_STAT.STEP 0)

/-- A pad as PTM samples it (R573): an output's own level, PERST# inputs, a level from outside otherwise, which is free; in
RETENTION every pin is an input. -/
def State.pad (s : State) (n : Nat) : Bool :=
  if n < 2 ∧ s.on HIF_CFG.PERST_EN 0 then !(s.port n).perst
  else if s.bitF PTM_GPIO_DIR.DIR 0 n && !s.ptm.retention then s.bitF PTM_GPIO_OUT.OUT 0 n else nbit (Config.freeValue s.freeCtr) n
def State.gpioIn (s : State) : Nat := (List.range 36).foldl (fun w n => setNBit w n (s.pad n)) 0

end Sys2Proof.Machine
end

