-- ==== Sys2Proof/Machine/Alm.lean ====
section
/-! DEFINITION. The Almanac and its readers, calibration runs and their entries, the activity LED, operating time (chapter 21, R572, R64, R76). -/
namespace Sys2Proof.Machine

/-- Slots of the ring, and the address of record `n` (R549). -/
def almSlots : Nat := 65536
def almBase : Nat := 0x41C00000
def almAddr (n : Nat) : Nat := almBase + 32 * (n % almSlots)

/-- The number after the newest record in the ring, and the records the ring holds. -/
def State.almNext (s : State) : Nat := (s.get ALM_NEWEST.N 0 + 1) % 2 ^ 32
def State.almCount (s : State) : Nat := (s.almNext + 2 ^ 32 - s.get ALM_OLDEST.N 0) % 2 ^ 32

/-- The number of the newest record, staged ones counted (R549, R550). -/
def State.almLast (s : State) : Nat := (s.get ALM_NEWEST.N 0 + s.alm.staged.length) % 2 ^ 32

/-- A record of the configured severity or higher is pushed to the collector (R461). -/
def almPush (r : AlmRec) : Prog := .ask fun s => when (nbit s.kpr.relayCfg 15 && decide (nbits s.kpr.relayCfg 19 16 ≤ r.sev)) (.upd (.kpr fun k =>
  { k with
    relayTx := k.relayTx ++ [(nbits k.relayCfg 8 0, [2, k.relaySeq % 256, 1, 0] ++ (almWords r).flatMap fun w => (leBytes 4 w.toNat).map BitVec.toNat)]
    relaySeq := k.relaySeq + 1 }))

/-- The oldest staged record goes to its slot; a full ring loses its oldest (R549, R550). -/
def almStore (r : AlmRec) : Prog := .ask fun s => all [
  memWords (almAddr r.n) (almWords r),
  when (decide (almSlots ≤ s.almCount)) (setF ALM_OLDEST.N 0 ((s.get ALM_OLDEST.N 0 + 1) % 2 ^ 32)),
  setF ALM_NEWEST.N 0 r.n, .upd (.alm fun a => { a with staged := a.staged.tail }), almShow, almPush r]

/-- ALM_RECORD_COMMIT: whenever domain 3 is powered and no clear is in progress, the ring once scanned (R550, R552). -/
def almCommitProg : Prog := .ask fun s =>
  match s.alm.staged with
  | r :: _ =>
    if !s.islandOn bALM ∨ s.on ALM_STAT.CLEARING 0 ∨ !s.alm.scanned then .skip
    else match s.accessFault .alm atWrite (almAddr r.n) 32 with
      | some src => accessReport .alm atWrite (almAddr r.n) 32 src
      | none => almStore r
  | [] => .skip
def execAlmRecordCommit (s : State) := almCommitProg.exec s

/-- Staged records take the numbers from `n` on (R552, R556); a LAP change sets WRAP (R549). -/
def almRenumber (n : Nat) : Prog := .ask fun s => .seq
  (.upd (.alm fun a => { a with staged := a.staged.mapIdx fun k r => { r with n := (n + k) % 2 ^ 32 } }))
  (when ((List.range s.alm.staged.length).any fun k => (n + k) % almSlots == 0) (setF ALM_STAT.WRAP 0 1))

/-- ALM_POST: a Keeper write of POST (R555). -/
def almPost : Prog := .ask fun s =>
  let w := s.get ALM_POST.W 0
  almEnter (nbits w 31 16) (nbits w 15 12) (nbits w 11 8) true ((List.range 4).map fun k => s.get ALM_POST.W (1 + k))
def execAlmPost (m : Master) (s : State) := (keeperOnly m .ALM_CTL 0 almPost).exec s

/-- ALM_CTL_CLEAR: a Keeper write of CLEAR (R556). -/
def almClear : Prog := .ask fun s => when (!s.on ALM_STAT.CLEARING 0) (all [
  setF ALM_STAT.CLEARING 0 1, .upd (.alm fun a => { a with clearRemoved := s.almCount }), setF ALM_OLDEST.N 0 s.almNext])
def execAlmCtlClear (m : Master) (s : State) := (keeperOnly m .ALM_CTL 0 almClear).exec s

/-- ALM_CLEAR_DONE: the ring is zeroed and the clear's own record appended, before those that wait in staging (R556). -/
def almClearDoneProg : Prog := .ask fun s => when (s.on ALM_STAT.CLEARING 0) (
  let n := s.almNext
  let r : AlmRec := { n, code := kFirmware <<< 12 ||| 1, sev := 1, subsys := bALM, keeper := false, lost := false, hours := s.alm.hours
                      secs := s.alm.secs, cycles := s.alm.cycles, p := [s.alm.clearRemoved, 0, 0, 0] }
  all [.upd (.memForget almBase (32 * almSlots)), memWords (almAddr n) (almWords r),
    setF ALM_NEWEST.N 0 n, setF ALM_OLDEST.N 0 n, setF ALM_STAT.CLEARING 0 0, when (n % almSlots == 0) (setF ALM_STAT.WRAP 0 1),
    .upd (.alm fun a => { a with keeper := { a.keeper with cursor := n }, service := { a.service with cursor := n }, app := { a.app with cursor := n } }),
    almRenumber ((n + 1) % 2 ^ 32), almPush r])
def execAlmClearDone (s : State) := almClearDoneProg.exec s

/-- The readers (R553): 0 the Keeper, 1 service, 2 application firmware. -/
def State.almReaderOf (s : State) (m : Master) : Option Nat :=
  match m with
  | .keeper => some 0
  | .debug => if s.on PCX_DBG_STAT.UNLOCKED 0 then some 1 else none
  | .app _ => if s.on ALM_CFG.APP_GRANT 0 then some 2 else none
  | _ => none
def State.almReader (s : State) (k : Nat) : AlmReader := if k = 0 then s.alm.keeper else if k = 1 then s.alm.service else s.alm.app
def setReader (k : Nat) (f : AlmReader → AlmReader) : Prog := .upd (.alm fun a =>
  if k = 0 then { a with keeper := f a.keeper } else if k = 1 then { a with service := f a.service } else { a with app := f a.app })

/-- ALM_CURSOR_WRITE: held within OLDEST and NEWEST + 1 (R554). -/
def cursorWrite (k v : Nat) : Prog := .ask fun s =>
  let v' := if newer (2 ^ 32) (s.get ALM_OLDEST.N 0) v then s.get ALM_OLDEST.N 0 else if newer (2 ^ 32) v s.almNext then s.almNext else v
  setReader k fun r => { r with cursor := v', wroteAt := some s.ptm.ticks }
def cursorProg (m : Master) (v : Nat) : Prog := .ask fun s =>
  match s.almReaderOf m with
  | some k => cursorWrite k v
  | none => .skip
def execAlmCursorWrite (m : Master) (v : Word) (s : State) := (cursorProg m v.toNat).exec s

/-- A reader's cursor, moved to OLDEST where it has fallen below. -/
def State.almAt (s : State) (k : Nat) : Nat :=
  let c := (s.almReader k).cursor
  if newer (2 ^ 32) (s.get ALM_OLDEST.N 0) c then s.get ALM_OLDEST.N 0 else c

/-- The record under a reader's cursor; none at NEWEST + 1. -/
def State.almRecord (s : State) (k : Nat) : List Nat :=
  if s.almAt k = s.almNext then [] else (s.memWs (almAddr (s.almAt k)) 8).map BitVec.toNat

/-- Word `i` of a reader's window: of the record that a read of word 0 latches, or of the latched one; with the cursor at NEWEST + 1 it reads 0 (R554). -/
def State.almWord (s : State) (k i : Nat) : Nat :=
  if i = 0 then (s.almRecord k).getD 0 0 else if (s.almReader k).cursor = s.almNext then 0 else (s.almReader k).window.getD i 0

/-- The latch that a read of ALM_WIN[0] makes, and the advance that a read of ALM_WIN[7] makes, lost in the tick of a write of the cursor (R554). -/
def windowLatch (k : Nat) : Prog := .ask fun s => setReader k fun r =>
  { r with cursor := s.almAt k, window := s.almRecord k, skip := r.skip || s.almAt k != r.cursor }
def windowAdvance (k : Nat) : Prog := .ask fun s => when ((s.almReader k).cursor != s.almNext && (s.almReader k).wroteAt != some s.ptm.ticks)
  (setReader k fun r => { r with cursor := (r.cursor + 1) % 2 ^ 32 })

/-- ALM_WINDOW_LATCH, ALM_WINDOW_ADVANCE: reads of ALM_WIN[0] and ALM_WIN[7]; a master that is no reader reads 0 (R553). -/
def windowLatchProg (m : Master) : Prog := .ask fun s =>
  match s.almReaderOf m with
  | some k => .seq (reply m (s.almWord k 0)) (windowLatch k)
  | none => reply m 0
def windowAdvanceProg (m : Master) : Prog := .ask fun s =>
  match s.almReaderOf m with
  | some k => .seq (reply m (s.almWord k 7)) (windowAdvance k)
  | none => reply m 0
def execAlmWindowLatch (m : Master) (s : State) := (windowLatchProg m).exec s
def execAlmWindowAdvance (m : Master) (s : State) := (windowAdvanceProg m).exec s

/-- Calibration entry e of copy A or B (Table 21.4, R562), its address, its words if valid. -/
def calIndex (cls item head : Nat) : Nat := if cls = 0 then item else 8 + 4 * head + item
def calAddr (copy e : Nat) : Nat := 0x41E80000 + 0x10000 * copy + 32 * e
def State.calValid (s : State) (copy e : Nat) : Bool := s.crcOk (calAddr copy e) 7
def State.calCopy (s : State) (e : Nat) : Option Nat :=
  let gen (c : Nat) := s.memW (calAddr c e) / 2 ^ 24
  match s.calValid 0 e, s.calValid 1 e with
  | true, true => some (if newer 256 (gen 1) (gen 0) then 1 else 0)
  | true, false => some 0
  | false, true => some 1
  | false, false => none

/-- Word `k` of the entry in use; 0 with no valid copy. -/
def State.calWord (s : State) (e k : Nat) : Nat :=
  match s.calCopy e with
  | some c => s.memW (calAddr c e + 4 * k)
  | none => 0
def State.calLastOf (s : State) (e : Nat) : Nat := nbits (s.calWord e 4) 17 16

/-- The Keeper writes the entry of a completed run to the copy not in use (R559, R562): `vals` the values of a pass. -/
def calEntryWrite (pass : Bool) (vals : List Nat) : Prog := .ask fun s =>
  let e := calIndex s.svc.calClass s.svc.calItem s.svc.calHead
  let copy := match s.calCopy e with
    | some 0 => 1
    | _ => 0
  let w0 := ((s.calWord e 0 / 2 ^ 24 + 1) % 256) <<< 24 ||| s.svc.calClass <<< 16 ||| s.svc.calItem <<< 8 ||| s.svc.calHead
  let v (k : Nat) := if pass then vals.getD k 0 else s.calWord e (1 + k)
  .seq (fabricSealed .keeper (calAddr copy e) (([w0, v 0, v 1, v 2, (if pass then 2 else 3) <<< 16 ||| min 65535 (s.calWord e 4 % 65536 + 1), s.alm.hours, s.alm.cycles] :
      List Nat).map (BitVec.ofNat 32)))
    (when pass (.upd (.kpr fun x => { x with calVals := (x.calVals.filter fun c => c.1 != e) ++ [(e, vals)] })))

/-- The registers an item's result is written to (Table 21.3). -/
def calTargets (cls item head : Nat) : List (RegName × Nat) :=
  if cls = 0 then (if item = 6 then (List.range 32).map fun n => (.RDC_LANE_AFE, n) else [])
  else if item = 0 then [(.WRC_HEAD_CFG, head), (.RDC_HEAD_CFG, head)]
  else if item = 3 then [(.RDC_HEAD_CFG, head)]
  else [(.WRC_HEAD_CFG, head)]

/-- The value a write holds pending builds on: the one already pending, else the register (R98, R155). -/
def State.rdcBase (s : State) (r : RegName) (i : Nat) : DWord :=
  ((s.rdc.pend.find? fun e => e.2.1 == regKey r i).map fun e => BitVec.ofNat 64 e.2.2).getD (s.reg r i)
def State.wrcBase (s : State) (r : RegName) (i : Nat) : DWord :=
  if (s.wrcUsers r i).isEmpty then s.reg r i else ((s.wrc.pend.find? fun e => e.2.1 == regKey r i).map fun e => BitVec.ofNat 64 e.2.2).getD (s.reg r i)

/-- A result goes to its targets: registers, or the trims of class M that no register shows, the start value of SPL's
trim among them (Table 21.3); under their own rules for writes during use (R98, R155, R559). -/
def calWrite (cls item head : Nat) (vals : List Nat) : Prog := .ask fun s =>
  let v (k : Nat) := vals.getD k 0
  let wr (f : Fld) (x : Nat) (r : DWord) := setBits r f.hi f.lo x
  let wh := s.wrcBase .WRC_HEAD_CFG head
  if cls = 0 then
    if item = 6 then each (List.range 32) fun n => rdcWrite (n / 2) .RDC_LANE_AFE n (wr RDC_LANE_AFE.OFS_TRIM (v n) (s.rdcBase .RDC_LANE_AFE n)).toNat
    else .upd (.svc fun x => { x with trims := (x.trims.filter fun e => e.1 != item) ++ [(item, vals)] })
  else if item = 0 then .seq (wrcWrite .WRC_HEAD_CFG head (wr WRC_HEAD_CFG.HTR_MAX (v 0) wh).toNat) (setF RDC_HEAD_CFG.CREF head (v 1))
  else if item = 1 then wrcWrite .WRC_HEAD_CFG head (wr WRC_HEAD_CFG.CTGT (v 1) (wr WRC_HEAD_CFG.HBO (v 0) wh)).toNat
  else if item = 2 then wrcWrite .WRC_HEAD_CFG head (wr WRC_HEAD_CFG.KC (v 0) wh).toNat
  else all [setF RDC_HEAD_CFG.RBIAS0 head (v 0), setF RDC_HEAD_CFG.RBIAS1 head (v 1), setF RDC_HEAD_CFG.PGAIN head (v 2)]

/-- An item of Table 21.3, and its condition. -/
def calItemExists (cls item : Nat) : Bool := if cls = 0 then decide (item < 8) else decide (cls = 1 ∧ item < 4)
def State.calCond (s : State) (cls item head : Nat) : Bool :=
  if cls = 0 then
    if item ≤ 1 then s.mode == mService
    else if item ≤ 3 then !s.ptm.retention
    else if item = 4 then allActs.all fun a => !s.loaded a
    else if item = 5 then s.get SPN_STAT.STATE 0 == 0
    else if item = 6 then (List.range 16).all fun p => s.hpPwr p != pwActive
    else !s.wrc.shock
  else (s.mode == mService || (s.mode == mActive && s.bitF CQE_CLAIM.GRANT 0 (head / 6))) &&
    (item != 2 || s.get WRC_HEAD_CFG.ATYPE head == 1 || s.get WRC_HEAD_CFG.ATYPE head == 2)

/-- LIMIT of an item, in ms (Table 21.3), and its end, in ticks after the start. -/
def calLimit (cls item : Nat) : Nat :=
  if cls = 0 then (if item = 0 then 200 else if item = 1 then 10 else if item = 4 ∨ item = 5 then 100 else if item = 6 then 20 else 50)
  else if item = 0 then 2000 else if item = 3 then 500 else 1000
def State.calEnd (s : State) : Nat := s.svc.calStart + calLimit s.svc.calClass s.svc.calItem * tickMs

/-- A run that has not converged ends with TIMEOUT (R558, R559). -/
def calTimeout : Prog := .ask fun s => when s.svc.calActive (all [calRestore, calRecord true 2, calEntryWrite false [], calOver 3 1])

/-- A run whose condition has lapsed ends ABORTED (R558). -/
def calSweep : Prog := .ask fun s => when (s.svc.calActive && !s.calCond s.svc.calClass s.svc.calItem s.svc.calHead) calAbort

/-- CAL_GO: a Keeper write of SVC_CAL_CTL with GO (R557, R597): discarded while a run is in progress. -/
def calStart (cls item head : Nat) : Prog := .ask fun s => all [
  setF SVC_CAL_CTL.CLASS 0 cls, setF SVC_CAL_CTL.ITEM 0 item, setF SVC_CAL_CTL.HEAD 0 head,
  when (!s.svc.calActive && calItemExists cls item && decide (cls = 1 → head < 24)) (all [
    setF SVC_CAL_CTL.BUSY 0 1, setF SVC_CAL_STAT.RESULT 0 1, setF SVC_CAL_STAT.CAUSE 0 0, setF SVC_CAL_STAT.ITER 0 0,
    .upd (.svc fun x => { x with
      calActive := true, calClass := cls, calItem := item, calHead := if cls = 1 then head else 0, calInTol := 0, calLast := 0, calStart := s.ptm.ticks
      calSaved := (calTargets cls item head).map fun t => (regKey t.1 t.2, (s.reg t.1 t.2).toNat)
      calTrims := x.trims }),
    calSweep])]
def execCalGo (m : Master) (cls : Fin 2) (item : BitVec 8) (head : Fin 32) (s : State) := (keeperOnly m .SVC_CAL_CTL 0 (calStart cls item.toNat head)).exec s

/-- CAL_ITERATION_END: the corrected values, the converging quantity, whether the correction stayed within tolerance; four such iterations in a row
converge, no later than LIMIT (R558, R559). XTAL's result is −XTAL_ERR, whatever was measured (Table 21.3). -/
def calIterationProg (vals : List Nat) (q : Nat) (inTol : Bool) : Prog := all [calSweep, whenS (fun s => decide (s.calEnd < s.ptm.ticks)) calTimeout,
  .ask fun s => when s.svc.calActive (
    let v := if s.svc.calClass = 0 ∧ s.svc.calItem = 1 then [ofSigned 32 (-s.sget SVC_CAL_REF.XTAL_ERR 0)] else vals
    all [incF SVC_CAL_STAT.ITER 0, .upd (.svc fun x => { x with calLast := q, calInTol := if inTol then x.calInTol + 1 else 0 }),
      calWrite s.svc.calClass s.svc.calItem s.svc.calHead v,
      when (inTol && decide (3 ≤ s.svc.calInTol)) (all [calRecord false 0, calEntryWrite true v, calOver 2 0])])]
def execCalIterationEnd (vals : List Word) (q : Word) (inTol : Bool) (s : State) := (calIterationProg (vals.map BitVec.toNat) q.toNat inTol).exec s

/-- CAL_LIMIT_EXPIRY: not converged LIMIT after the start (R558, R559). -/
def calLimitProg : Prog := whenS (fun s => decide (s.calEnd ≤ s.ptm.ticks)) calTimeout
def execCalLimitExpiry (s : State) := calLimitProg.exec s

/-- LED_STRETCH_END: STRETCH ms after the last assertion, with no I/O command held (R572). -/
def ledProg : Prog := whenS (fun s => s.get CQE_STAT.IO_OUT 0 == 0 && !s.stretched) (.upd (.ptm fun p => { p with led0 := false }))
def execLedStretchEnd (s : State) := ledProg.exec s

/-- A FAILED head in its slot, on an actuator with no spare (R76). -/
def State.failedForGood (s : State) (h : Nat) : Bool :=
  s.headState h == hFailed && (s.pathOfHead h).isSome && !(nbit (s.slotMap (h / 6)) 19 && s.headState (6 * (h / 6) + nbits (s.slotMap (h / 6)) 18 16) == hSpare)

/-- The Keeper copies the counters to device configuration (R545). -/
def countersCopied : Prog := .ask fun s => .upd (.kpr fun k => { k with hoursCopy := s.alm.hours, secsCopy := s.alm.secs, cyclesCopy := s.alm.cycles })

/-- OPERATING_HOUR_ELAPSED: an hour of operating time completes (R545): a band's extra passes may be logged again (R64); the hourly records of R76. -/
def hourProg : Prog := .seq (.upd (.alm fun a => { a with hours := min 16777215 (a.hours + 1), secs := 0 })) (.seq countersCopied (oneEvent (.ask fun s => all [
  .upd (.sve fun x => { x with extraLogged := [] }),
  each ((List.range 24).filter s.failedForGood) fun h => almEvent bSVE kFault "head FAILED without spare" [h]])))
def execOperatingHourElapsed (s : State) := hourProg.exec s

end Sys2Proof.Machine
end

