-- ==== Sys2Proof/Machine/Bmu.lean ====
section
/-! DEFINITION. Commands of the buffer cache and DRAM (chapter 13). -/
namespace Sys2Proof.Machine

/-- A DRAM access makes BMU leave self-refresh first (R360). -/
def leaveSr : Prog := setF BMU_STAT.SR 0 0

/-- An access to DRAM as the fabric judges it (R24, R34, R36, R359): a bus error and its report, or, admitted, `p`. -/
def dramJudged (m : Master) (typ a n : Nat) (p : Prog) : Prog := .ask fun s =>
  match s.accessFault m typ a n with
  | some src => .seq (busErr m) (accessReport m typ a n src)
  | none => when (s.region a n == some .dram) p

/-- Prefetch of the line after `l` (R371): same page, absent, room in the eviction buffer; a poisoned half is not installed. -/
def prefetch (c l : Nat) (o : Half) : Prog := .ask fun s =>
  let n := l + 1
  when (s.on BMU_CLASS_CFG.PF_EN c && n / 64 == l / 64 && (s.cline n).isNone && !s.inEvb n && decide (s.bmu.evb.length < 28) &&
      s.ccState == ccEnabled && s.effMask c n != 0 && o != .uncorrectable && !s.poisoned (64 * n) 64)
    (all [checkRead n, when (o == .corrected) (halfCorrected (2 * n)), allocLine n (s.effMask c n) (o == .corrected) (if o = .corrected then s.bytes (64 * n) 64 else []) true])

/-- MISS_FILL_DONE: the line of `a` is read for master `m`, critical half first (R368): how its two halves read, the half a prefetch of the next
line finds, and the link-ECC corrections and retries of the bursts (R365). -/
def missFillProg (m : Master) (a : Nat) (o0 o1 pre : Half) (lecc : Nat) : Prog := .ask fun s =>
  let l := a / 64
  let c := m.cls
  dramJudged m atRead a (8 - a % 8) (when ((s.cline l).isNone && !s.inEvb l) (
    let halves := [(2 * l, o0), (2 * l + 1, o1)]
    let first := if a / 32 = 2 * l then halves else halves.reverse
    let read := halves.map fun e => (e.1, s.halfOf e.1 e.2)
    let fixed := read.any fun e => e.2 == .corrected
    let mask := s.effMask c l
    let allocates := s.ccState == ccEnabled && !s.on BMU_CLASS_CFG.NOALLOC c && mask != 0
    all [leaveSr, checkRead l, when (s.on BMU_CFG.LECC_EN 0) (setF BMU_STAT.LECC_CNT 0 (satAdd (s.get BMU_STAT.LECC_CNT 0) lecc 255)),
      each first fun (h, o) => match s.halfOf h o with
        | .clean => .skip
        | .corrected => halfCorrected h
        | .uncorrectable => ueDelivered m 0 3 (32 * h),
      if allocates then allocLine l mask fixed (if fixed then s.bytes (64 * l) 64 else []) false else when fixed (lineOut l),
      if read.any fun e => e.1 == a / 32 && e.2 == .uncorrectable then emit (.event "poison" [m.id, a]) else reply m (s.memW (a / 4 * 4)),
      prefetch c l pre]))
def execMissFillDone (m : Master) (a : PAddr) (o0 o1 pre : Half) (lecc : Fin 256) (s : State) :=
  (missFillProg m a.toNat o0 o1 pre lecc).exec s

/-- EVICTION_WRITE_DONE: the entry is on DRAM and freed; its check bytes go to the check cache (R362, R372). -/
def evictionDoneProg (l : Nat) : Prog := .ask fun s => when (s.inEvb l) (evbWritten l)
def execEvictionWriteDone (line : BitVec 34) (s : State) := (evictionDoneProg line.toNat).exec s

/-- PARTIAL_STORE_MERGE: DISABLED, or CLEANING for a line not in a way (R378). -/
def partialMergeProg (m : Master) (a : Nat) (bs : List Byte) : Prog := .ask fun s =>
  dramJudged m atWrite a bs.length (when ((s.ccState == ccDisabled || s.ccState == ccCleaning && (s.cline (a / 64)).isNone) && decide (a % 64 + bs.length ≤ 64 ∧ bs.length < 64))
    (all [leaveSr, memBytes a bs, linesOut a bs.length]))
def execPartialStoreMerge (m : Master) (a : PAddr) (bs : List Byte) (s : State) := (partialMergeProg m a.toNat bs).exec s

/-- A Keeper write of BMU_MNT_CTL with GO (R374, Table 13.6). -/
def mntGo (m : Master) (op lines : Nat) : Prog := keeperOnly m .BMU_MNT_CTL 0 (.seq
  (.seq (setF BMU_MNT_CTL.OP 0 op) (setF BMU_MNT_CTL.LINES 0 lines))
  (.ask fun s =>
    let lo := s.get BMU_MNT_ADDR.ADDR 0
    if s.on BMU_MNT_CTL.BUSY 0 ∨ op = 3 ∨ !s.dramOk (64 * lo) (64 * (lines + 1)) then setF BMU_MNT_CTL.ERR 0 1
    else all [setF BMU_MNT_CTL.BUSY 0 1, .upd (.bmu fun b => { b with mnt := some (op, lo, lines + 1) }), mntApply op lo (lines + 1)]))

/-- MNT_CLEAN, MNT_INVALIDATE, MNT_CLEAN_INVALIDATE (R374). -/
def mntCleanProg (m : Master) (lines : Nat) : Prog := mntGo m 0 lines
def execMntClean (m : Master) (lines : BitVec 20) (s : State) := (mntCleanProg m lines.toNat).exec s
def mntInvalidateProg (m : Master) (lines : Nat) : Prog := mntGo m 1 lines
def execMntInvalidate (m : Master) (lines : BitVec 20) (s : State) := (mntInvalidateProg m lines.toNat).exec s
def mntCleanInvalidateProg (m : Master) (lines : Nat) : Prog := mntGo m 2 lines
def execMntCleanInvalidate (m : Master) (lines : BitVec 20) (s : State) := (mntCleanInvalidateProg m lines.toNat).exec s

/-- MNT_DONE: the last line is handled; a clean has waited for the eviction buffer's entries of its range (R374). -/
def mntDoneProg : Prog := .ask fun s => match s.bmu.mnt with
  | some (op, lo, n) => when (op == 1 || !(s.bmu.evb.any fun e => inLines lo n e.line))
      (.seq (setF BMU_MNT_CTL.BUSY 0 0) (.upd (.bmu fun b => { b with mnt := none })))
  | none => .skip
def execMntDone (s : State) := mntDoneProg.exec s

/-- Bits of a mask, below `n`. -/
def bitsOf (mask n : Nat) : List Nat := (List.range n).filter fun k => nbit mask k

/-- WAY_OFF_REQUEST: a Keeper write of OFF_REQ; one that would leave no way on is discarded (R376). -/
def wayOffProg (m : Master) (mask : Nat) : Prog := .ask fun s =>
  if s.get BMU_WAY_PWR.OFF_REQ 0 = mask then .skip
  else keeperOnly m .BMU_WAY_PWR 0 (when (s.get BMU_WAY_PWR.ON 0 &&& (65535 - mask) != 0) (.seq
    (setF BMU_WAY_PWR.OFF_REQ 0 mask)
    (.upd (.bmu fun b => { b with cleaning := b.cleaning ++ (bitsOf mask 16).filter fun w => nbit (s.get BMU_WAY_PWR.ON 0) w && !b.cleaning.contains w }))))
def execWayOffRequest (m : Master) (mask : BitVec 16) (s : State) := (wayOffProg m mask.toNat).exec s

/-- WAY_CLEAN_DONE: a way's dirty lines are on DRAM; it is empty, and off if it is still asked off (R376). -/
def wayCleanProg (w : Nat) : Prog := .ask fun s => when (s.bmu.cleaning.contains w) (all [
  each (s.bmu.lines.filter fun e => e.2.way == w && e.2.dirty) fun e => lineOut e.1,
  .upd (.bmu fun b => { b with cleaning := b.cleaning.filter (· != w), lines := b.lines.filter fun e => e.2.way != w }),
  when (s.bitF BMU_WAY_PWR.OFF_REQ 0 w) (setBitF BMU_WAY_PWR.ON 0 w false)])
def execWayCleanDone (w : Fin 16) (s : State) := (wayCleanProg w).exec s

/-- WAY_POWER_UP_DONE (R376). -/
def wayUpProg (w : Nat) : Prog := whenS (fun s => !s.bitF BMU_WAY_PWR.OFF_REQ 0 w && s.ccState != ccDisabled) (setBitF BMU_WAY_PWR.ON 0 w true)
def execWayPowerUpDone (w : Fin 16) (s : State) := (wayUpProg w).exec s

/-- The cache starts to be disabled (R377). -/
def cacheOff : Prog := .seq (setF BMU_CC_CTL.ENABLE 0 0)
  (whenS (fun s => s.ccState == ccEnabled || s.ccState == ccEnabling) (setF BMU_CC_CTL.STATE 0 ccCleaning))

/-- The cache starts to be enabled (R377). -/
def cacheOn : Prog := .ask fun s => .seq
  (setF BMU_WAY_PWR.ON 0 (s.get BMU_WAY_PWR.ON 0 ||| (65535 - s.get BMU_WAY_PWR.OFF_REQ 0))) (setF BMU_CC_CTL.STATE 0 ccEnabling)

/-- CACHE_DISABLE: a Keeper write of 0 to ENABLE. -/
def cacheDisableProg (m : Master) : Prog := .ask fun s => if s.on BMU_CC_CTL.ENABLE 0 then keeperOnly m .BMU_CC_CTL 0 cacheOff else .skip
def execCacheDisable (m : Master) (s : State) := (cacheDisableProg m).exec s

/-- CACHE_DISABLE_DONE: everything dirty is on DRAM, the ways are empty and off; an ENABLE written meanwhile applies now (R377). -/
def cacheDisableDoneProg : Prog := .ask fun s => when (s.ccState == ccCleaning && s.bmu.evb.isEmpty) (all [
  each (s.bmu.lines.filter fun e => e.2.dirty) fun e => lineOut e.1,
  .upd (.bmu fun b => { b with lines := [], cleaning := [] }), setF BMU_WAY_PWR.ON 0 0, setF BMU_CC_CTL.STATE 0 ccDisabled,
  when (s.on BMU_CC_CTL.ENABLE 0) cacheOn])
def execCacheDisableDone (s : State) := cacheDisableDoneProg.exec s

/-- CACHE_ENABLE: a Keeper write of 1 to ENABLE; during CLEANING it is held (R377). -/
def cacheEnableProg (m : Master) : Prog := .ask fun s => if s.on BMU_CC_CTL.ENABLE 0 then .skip
  else keeperOnly m .BMU_CC_CTL 0 (.seq (setF BMU_CC_CTL.ENABLE 0 1) (when (s.ccState == ccDisabled) cacheOn))
def execCacheEnable (m : Master) (s : State) := (cacheEnableProg m).exec s

/-- CACHE_ENABLE_DONE. -/
def execCacheEnableDone (s : State) := (whenS (fun t => t.ccState == ccEnabling) (setF BMU_CC_CTL.STATE 0 ccEnabled)).exec s

/-- CCC_AGE: 2^AGE s after the last one, every counter is halved in one tick (R388). -/
def cccAgeProg : Prog := .ask fun s => when (decide (s.bmu.agedAt + tickSec * 2 ^ s.get BMU_CCC_CFG.AGE 0 ≤ s.time))
  (.upd (.bmu fun b => { b with pop := (b.pop.map fun e => (e.1, e.2 / 2)).filter fun e => e.2 != 0, agedAt := s.time }))
def execCccAge (s : State) := cccAgeProg.exec s

/-- SELF_REFRESH_ENTRY: on PTM's request, the cache being disabled where DRAM is to be kept (R360). -/
def selfRefreshProg : Prog := .seq checkFlush (setF BMU_STAT.SR 0 1)
def execSelfRefreshEntry (s : State) := selfRefreshProg.exec s

end Sys2Proof.Machine
end

