-- ==== Sys2Proof/Machine/Fcu.lean ====
section
/-! DEFINITION. Commands of the fault collector (chapter 20). -/
namespace Sys2Proof.Machine

/-- FAULT_EVENT: one sample of a source's rails (R532): `t` the true rail, `c` the complement. A change to asserted is one event;
rails that agree at two consecutive samples raise the wire-fault event. -/
def faultEventProg (i : Nat) (t c : Bool) (cap : FCap) : Prog := .ask fun s =>
  if sourceReserved i then .skip
  else if t == c then
    let n := Sparse.get 0 s.fcu.equal i
    .seq (.upd (.fcu fun x => { x with equal := Sparse.put 0 x.equal i (min 2 (n + 1)) }))
      (when (n == 1) (.seq (setF FCU_SRC_STAT.WIRE i 1) (raise i (detail cap.addr))))
  else
    let was := s.fcu.asserted.contains i
    .seq (.upd (.fcu fun x => { x with equal := Sparse.put 0 x.equal i 0
                                       asserted := if t then (if was then x.asserted else i :: x.asserted)
                                                   else x.asserted.filter (· != i) }))
      (when (t && !was) (raise i cap))

def execFaultEvent (src : Fin 384) (t c : Bool) (m : Option Master) (typ size : Fin 16) (addr : PAddr) (s : State) :=
  (faultEventProg src t c (eventCap m typ size addr.toNat)).exec s

/-- ESCALATION_STEP: the escalation timer of a source expires (R536). -/
def escalationStepProg (i : Nat) : Prog := .ask fun s =>
  when (s.timerOver i && s.normalService && !s.on FCU_SELF.SELF_FLT 0)
    (arrive i (nextStep i (s.get FCU_SRC_STAT.STEP i)))
def execEscalationStep (src : Fin 384) (s : State) := (escalationStepProg src).exec s

/-- WCNT to 0 and SEVERE cleared (R535). -/
def windowClear (i : Nat) : Prog := .seq (setF FCU_SRC_STAT.WCNT i 0) (setF FCU_SRC_STAT.SEVERE i 0)

/-- FCU_WINDOW_END: a window of 2^WIN ms ends; with WIN = 31 it never does (R535). -/
def windowEndProg (i : Nat) : Prog := whenS (fun s => s.windowOver i) (windowClear i)
def execFcuWindowEnd (src : Fin 384) (s : State) := (windowEndProg src).exec s

/-- An accepted acknowledgement (R537, R539): AGAIN starts a new ladder in the next tick, in normal service only. -/
def ackAccepted (i : Nat) : Prog := .ask fun s => all [
  setF FCU_SRC_STAT.STEP i 0, setTimer i false, setPend i false,
  when (s.on FCU_SRC_STAT.AGAIN i) (.seq (setF FCU_SRC_STAT.AGAIN i 0)
    (.upd (.fcu fun x => { x with again := x.again.filter (· != i) ++ [i] })))]

/-- The new ladders that acknowledgements of the last tick start (R537). -/
def againTick : Prog := .ask fun s => .seq (.upd (.fcu fun x => { x with again := [] }))
  (each s.fcu.again fun i => whenS (fun t => t.normalService && !t.on FCU_SELF.SELF_FLT 0 && t.get FCU_SRC_STAT.STEP i == 0) (arrive i 1))

/-- The owner's masters may acknowledge at step 1, or after a direct reaction; a source at rest is no violation (R537). -/
def State.ownerMayAck (s : State) (m : Master) (i : Nat) : Bool :=
  m.isApp && s.appOwned i && decide (s.get FCU_SRC_STAT.STEP i ≤ 1)

/-- FCU_ACK: a write of a source number (R537). -/
def fcuAckProg (m : Master) (i : Nat) : Prog := .ask fun s =>
  if sourceReserved i then .skip
  else if m == .keeper || s.ownerMayAck m i then
    when (s.on FCU_SRC_STAT.PEND i || s.get FCU_SRC_STAT.STEP i != 0) (ackAccepted i)
  else deny m .FCU_ACK 0
def execFcuAck (m : Master) (src : Fin 512) (s : State) := (fcuAckProg m src).exec s

/-- FCU_RAISE: a software source is raised by the Keeper or an application core (R540). -/
def fcuRaiseProg (m : Master) (i : Nat) : Prog := when (m.isCore && decide (320 ≤ i ∧ i ≤ 383)) (raise i (detail 0))
def execFcuRaise (m : Master) (src : Fin 512) (s : State) := (fcuRaiseProg m src).exec s

/-- CLR_CNT: a Keeper write of CLR_CNT (R535). -/
def clrCntProg (m : Master) (i : Nat) : Prog := keeperOnly m .FCU_SRC_STAT i (windowClear i)
def execClrCnt (m : Master) (src : Fin 384) (s : State) := (clrCntProg m src).exec s

/-- CAPTURE_CLEAR: a write of 1 to VALID, MULTI or both, by the Keeper or by application firmware that owns SRC (R534). -/
def captureClearProg (m : Master) (valid multi : Bool) : Prog := .ask fun s =>
  if m == .keeper || (m.isApp && s.appOwned (s.get FCU_FEC_INFO.SRC 0)) then
    .seq (when valid (setF FCU_FEC_INFO.VALID 0 0)) (when multi (setF FCU_FEC_INFO.MULTI 0 0))
  else when (valid || multi) (deny m .FCU_FEC_INFO 0)
def execCaptureClear (m : Master) (valid multi : Bool) (s : State) := (captureClearProg m valid multi).exec s

/-- FCU_SELF_FAULT: FCU's copies disagree, in the configuration registers `regs` (source numbers, 384 for FCU_CFG) or in ladder
state; `persistent` if a rewrite does not mend it (R541). -/
def selfFaultProg (regs : List Nat) (persistent : Bool) : Prog := whenS (fun s => s.islandOn 2) (all [
  setF FCU_SELF.SELF_FLT 0 1, setF FCU_SELF.RELOADED 0 0, incF FCU_SELF.SELF_CNT 0,
  .upd (.fcu fun x => { x with timers := [], disagree := regs ++ x.disagree, persistent := x.persistent || persistent }),
  enterSafe 2, nmi])
def execFcuSelfFault (regs : List (Fin 385)) (persistent : Bool) (s : State) :=
  (selfFaultProg (regs.map (·.val)) persistent).exec s

/-- FCU_RELOAD: a Keeper write of DONE re-seeds the second copy of ladder and count state and compares the copies again (R541). -/
def fcuReloadProg (m : Master) : Prog := keeperOnly m .FCU_RELOAD 0 (.ask fun s =>
  if !s.on FCU_SELF.SELF_FLT 0 then .skip
  else if s.fcu.disagree.isEmpty && !s.fcu.persistent then all [
    setF FCU_SELF.SELF_FLT 0 0, setF FCU_SELF.RELOADED 0 1,
    each ((List.range 384).filter fun i => s.on FCU_SRC_STAT.PEND i) fun i => .ask fun t =>
      if t.normalService then arrive i 1 else direct i]
  else incF FCU_SELF.SELF_CNT 0)
def execFcuReload (m : Master) (s : State) := (fcuReloadProg m).exec s

end Sys2Proof.Machine
end

