-- ==== Sys2Proof/Machine/FerryOps.lean ====
section
/-! DEFINITION. Ferry's channels in hardware, the relay agent, and how the Keeper serves a request (R441 to R461). -/
namespace Sys2Proof.Machine

/-- Channel states (Table 16.6). -/
def fyEmpty : Nat := 0
def fyPosted : Nat := 1
def fyTaken : Nat := 2
def fyDone : Nat := 3

/-- Outcomes (Table 16.8). -/
def eOk : Nat := 0
def eUnsupported : Nat := 1
def eVersion : Nat := 2
def eDenied : Nat := 3
def eArg : Nat := 4
def eCancelled : Nat := 5
def eState : Nat := 6
def eBusy : Nat := 7
def eAuth : Nat := 8
def eNoSpace : Nat := 9
def eHw : Nat := 10
def eTimeout : Nat := 11
def eRollback : Nat := 12

/-- The requester of a channel (Table 16.2, R442). -/
def State.ferryRequester (s : State) (m : Master) (n : Nat) : Bool :=
  match m with
  | .app c => decide (n < 4) && !s.follower n && s.actsFor n == some c.val
  | .hif => n == 4
  | .debug => n == 5
  | .keeper => n == 6
  | _ => false

/-- Who may read a channel's registers (R443). -/
def State.ferryReader (s : State) (m : Master) (n : Nat) : Bool := n != 7 && (m == .keeper || s.ferryRequester m n)

/-- A channel's state, its request words, its version's major. -/
def State.fySt (s : State) (n : Nat) : Nat := s.get PCX_FRY_STAT.STATE n
def State.req (s : State) (n i : Nat) : Nat := s.get PCX_FRY_REQ.W (64 * n + i)
def State.fyMajor (s : State) (n : Nat) : Nat := s.get PCX_FRY_STAT.VER n / 16

/-- Word `i` of a result slot. -/
def setRes (n i v : Nat) : Prog := setF PCX_FRY_RES.W (64 * n + i) v

/-- A channel's state, in PCX_FRY_STAT and in word 0 of its result slot (R447). -/
def setFy (n st err : Nat) : Prog := .ask fun s => .seq (setF PCX_FRY_STAT.STATE n st)
  (setRes n 0 (st <<< 30 ||| err <<< 16 ||| s.get PCX_FRY_STAT.LAST_SEQ n))

/-- The SEQ that a POST must carry (R448). -/
def State.nextSeq (s : State) (n : Nat) : Nat := if s.get PCX_FRY_STAT.LAST_SEQ n = 255 then 1 else s.get PCX_FRY_STAT.LAST_SEQ n + 1

/-- The change that a channel has made in this tick. Each event of a tick is judged by the state at its start, so after a change the tick's further
events are discarded, save a TAKE, which goes before a CANCEL (R449). -/
def State.fyMove (s : State) (n : Nat) : Option FerryMove := s.kpr.moves.find? fun e => e.chan == n && e.tick == s.ptm.ticks
def State.fyStill (s : State) (n : Nat) : Bool := (s.fyMove n).isNone

/-- A channel has changed: its request's entry and, after DONE or CANCEL, its end. -/
def KprState.unpost (k : KprState) (n : Nat) : KprState :=
  { k with posted := k.posted.filter fun e => e.chan != n, taken := k.taken.filter (· != n), waiting := k.waiting.filter fun w => w.1 != n }
def KprState.moved (k : KprState) (e : FerryMove) : KprState := { k with moves := (k.moves.filter fun x => x.chan != e.chan) ++ [e] }

/-- POST (Table 16.6). -/
def ferryPost (n seq : Nat) : Prog := .ask fun s =>
  if (s.fySt n = fyEmpty ∨ s.fySt n = fyDone) ∧ s.fyStill n ∧ seq = s.nextSeq n then
    all [setF PCX_FRY_STAT.LAST_SEQ n seq, setFy n fyPosted 0, .upd (.kpr fun k =>
      let k' := (k.unpost n).moved { chan := n, tick := s.ptm.ticks }
      { k' with posted := k'.posted ++ [{ chan := n, tick := s.ptm.ticks, lost := k.restartTicks }] })]
  else setF PCX_FRY_STAT.DB_ERR n 1

/-- CANCEL: only a POSTED request; in any other state it is discarded (Table 16.6). -/
def ferryCancel (n : Nat) : Prog := .ask fun s =>
  if s.fySt n = fyPosted ∧ s.fyStill n then all [
    setF PCX_FRY_STAT.ERR n eCancelled, setFy n fyDone eCancelled, setRes n 1 (s.get PCX_FRY_RES.W (64 * n + 1) / 256 * 256),
    .upd (.kpr fun k => (k.unpost n).moved { chan := n, tick := s.ptm.ticks, undo := (k.posted.find? fun e => e.chan == n).map fun e => (s.get PCX_FRY_STAT.ERR n, e) })]
  else setF PCX_FRY_STAT.DB_ERR n 1

/-- A write of a doorbell: CANCEL acts alone; by another master than the requester it is discarded and reported (R443); channel 7 discards it. -/
def doorbell (m : Master) (n : Nat) (post cancel : Bool) (seq : Nat) : Prog := .ask fun s =>
  if n = 7 then .skip
  else if !s.ferryRequester m n then raise 16 (accessCap m 1 2 (regAddr .PCX_FRY_DB n))
  else if cancel then ferryCancel n
  else when post (ferryPost n seq)
def execFerryPost (m : Master) (n : Fin 8) (seq : BitVec 8) (s : State) := (doorbell m n true false seq.toNat).exec s
def execFerryCancel (m : Master) (n : Fin 8) (s : State) := (doorbell m n false true 0).exec s

/-- The channel's request is TAKEN. -/
def fyTake (n : Nat) : Prog := .ask fun s => .seq (setFy n fyTaken 0)
  (.upd (.kpr fun k => { k.moved { chan := n, tick := s.ptm.ticks } with taken := (k.taken.filter (· != n)) ++ [n] }))

/-- TAKE (Table 16.6); in the tick of a CANCEL the TAKE applies and the CANCEL is discarded (R449). -/
def ferryTake (n : Nat) : Prog := .ask fun s =>
  if s.fySt n = fyPosted ∧ s.fyStill n then fyTake n
  else match (s.fyMove n).bind (·.undo) with
    | some (e, p) => all [setF PCX_FRY_STAT.ERR n e, .upd (.kpr fun k => { k with posted := k.posted ++ [p] }), fyTake n, setF PCX_FRY_STAT.DB_ERR n 1]
    | none => setF PCX_FRY_STAT.DB_ERR n 1

/-- The Keeper's next TAKE: no request POSTED before it, and none of a lower channel in its tick (R453). -/
def State.takeTurn (s : State) (n : Nat) : Bool := match s.kpr.posted.find? fun e => e.chan == n with
  | some p => s.kpr.posted.all fun e => e.chan == n || s.fySt e.chan != fyPosted || decide (p.tick < e.tick ∨ p.tick = e.tick ∧ n < e.chan)
  | none => true
def takeProg (m : Master) (n : Nat) : Prog := when (n != 7) (keeperOnly m .PCX_FRY_KCTL n (whenS (·.takeTurn n) (ferryTake n)))
def execFerryTake (m : Master) (n : Fin 8) (s : State) := (takeProg m n).exec s

/-- Bytes of words, lowest first. -/
def wordsBytes (ws : List Nat) : List Nat := ws.flatMap fun w => (leBytes 4 w).map BitVec.toNat
def bytesWords (bs : List Nat) (i : Nat) : Nat := ofLeBytes ((List.range 4).map fun k => BitVec.ofNat 8 (bs.getD (4 * i + k) 0))

/-- A message of up to 224 bytes in fragments of 44 (R461): KIND, exchange identifier, index and count, 0. -/
def relayFragments (kind xid : Nat) (msg : List Nat) : List (List Nat) :=
  let c := max 1 ((msg.length + 43) / 44)
  (List.range c).map fun i => [kind, xid, i <<< 4 ||| c, 0] ++ (msg.drop (44 * i)).take 44
def relayQueue (dest : Nat) (fs : List (List Nat)) : Prog := .upd (.kpr fun k => { k with relayTx := k.relayTx ++ fs.map fun f => (dest, f) })

/-- The message that fragments spell. -/
def RelayCall.message (c : RelayCall) : List Nat :=
  (List.range c.total).flatMap fun i => ((c.chunks.find? fun e => e.1 == i).map (·.2)).getD []
def RelayCall.complete (c : RelayCall) : Bool := c.chunks.length == c.total

/-- The agent posts the oldest whole request on channel 6 once that channel is free (R461). -/
def relayPost : Prog := .ask fun s =>
  when (s.kpr.relayNow.isNone && s.fyStill 6 && (s.fySt 6 == fyEmpty || s.fySt 6 == fyDone)) (
    match s.kpr.relayIn.find? RelayCall.complete with
    | some c => all [
        each (List.range 56) fun i => setF PCX_FRY_REQ.W (64 * 6 + i) (if i = 0 then bytesWords c.message 0 / 256 * 256 + s.nextSeq 6 else bytesWords c.message i),
        .upd (.kpr fun k => { k with relayNow := some (c.peer, c.xid), relayIn := k.relayIn.filter fun e => !(e.peer == c.peer && e.xid == c.xid) }),
        ferryPost 6 (s.nextSeq 6)]
    | none => .skip)

/-- The completion is signalled (Table 16.2, R452): the requesting hart's software interrupt, the endpoint, or frames to the relay's origin. -/
def ferrySignal (n : Nat) : Prog := .ask fun s =>
  if n < 4 then when (s.on PCX_FRY_CFG.NOTIFY n) (match s.actsFor n with
    | some c => setF PCX_MSIP.MSIP (1 + c) 1
    | none => .skip)
  else if n = 4 then emit (.event "Ferry completion to MGMT" [s.get PCX_FRY_RES.W (64 * 4)])
  else if n = 6 then (match s.kpr.relayNow with
    | some (o, x) => .seq (relayQueue o (relayFragments 1 x ((wordsBytes ((List.range 56).map fun i => s.get PCX_FRY_RES.W (64 * 6 + i))).take
        (min 224 (16 + s.get PCX_FRY_RES.W (64 * 6 + 1) % 256)))))
        (.upd (.kpr fun k => { k with relayNow := none }))
    | none => .skip)
  else .skip

/-- DONE: ERR comes from PCX_FRY_KCTL (Table 16.6). -/
def ferryDone (n : Nat) : Prog := .ask fun s =>
  if s.fySt n = fyTaken ∧ s.fyStill n then
    let e := s.get PCX_FRY_KCTL.ERR n
    all [setF PCX_FRY_STAT.ERR n e, setFy n fyDone e, .upd (.kpr fun k => (k.unpost n).moved { chan := n, tick := s.ptm.ticks }), ferrySignal n]
  else setF PCX_FRY_STAT.DB_ERR n 1

/-- FERRY_DONE: a write of PCX_FRY_KCTL with DONE and ERR (R597). -/
def ferryDoneProg (m : Master) (n err : Nat) : Prog := when (n != 7) (keeperOnly m .PCX_FRY_KCTL n (.seq (setF PCX_FRY_KCTL.ERR n err) (ferryDone n)))
def execFerryDone (m : Master) (n : Fin 8) (err : BitVec 8) (s : State) := (ferryDoneProg m n err.toNat).exec s

/-- A channel's post, and whether `ms` milliseconds have counted since it: time counts while the Keeper does not restart (R454). -/
def State.postOf (s : State) (n : Nat) : Option FerryPosted := s.kpr.posted.find? fun e => e.chan == n
def State.postOver (s : State) (n ms : Nat) : Bool := match s.postOf n with
  | some p => decide (p.tick + (s.kpr.restartTicks - p.lost) + max 1 ms * tickMs ≤ s.ptm.ticks)
  | none => false

/-- FERRY_TAKE_TIMEOUT, FERRY_DONE_TIMEOUT: a request stays POSTED for TAKE_TMO, or undone for DONE_TMO from its post, once each (R454). -/
def ferryTimeout (n : Nat) (due : State → Bool) (mark : FerryPosted → FerryPosted) : Prog := whenS (fun s => !s.on PCX_KPR_STAT.RESTART 0 && due s) (all [
  .upd (.kpr fun k => { k with posted := k.posted.map fun e => if e.chan == n then mark e else e }), setF PCX_FRY_STAT.TMO n 1, raise (288 + n) (detail n)])
def State.takeLate (s : State) (n : Nat) : Bool :=
  s.fySt n == fyPosted && s.postOver n (s.get PCX_FRY_CFG.TAKE_TMO n) && (s.postOf n).any fun e => !e.takeTmo
def State.doneLate (s : State) (n : Nat) : Bool :=
  (s.fySt n == fyPosted || s.fySt n == fyTaken) && s.postOver n (s.get PCX_FRY_CFG.DONE_TMO n) && (s.postOf n).any fun e => !e.doneTmo
def execFerryTakeTimeout (n : Fin 7) (s : State) := (ferryTimeout n (·.takeLate n) fun e => { e with takeTmo := true }).exec s
def execFerryDoneTimeout (n : Fin 7) (s : State) := (ferryTimeout n (·.doneLate n) fun e => { e with doneTmo := true }).exec s

/-- Classes that may post a command (Table 16.9). -/
def clsA : Nat := 1
def clsM : Nat := 2
def clsS : Nat := 4
def clsR : Nat := 8
def ferryClass (n : Nat) : Nat := if n < 4 then clsA else if n = 4 then clsM else if n = 5 then clsS else if n = 6 then clsR else 0

/-- The Keeper completes a request: result words from word 4, their length in bytes, TIME, ERR, DONE (Table 16.5). -/
def ferryFinish (n err : Nat) (ws : List Nat) : Prog := .ask fun s => all [
  setRes n 1 (s.req n 0 / 65536 * 65536 + 4 * ws.length), setRes n 2 (if 2 ≤ s.fyMajor n then s.timeLo else 0), setRes n 3 0,
  each (ws.mapIdx fun k w => (k, w)) fun e => setRes n (4 + e.1) e.2,
  setF PCX_FRY_KCTL.ERR n err, ferryDone n]
def ferryErr (n err : Nat) : Prog := ferryFinish n err []
def ferryOk (n : Nat) (ws : List Nat) : Prog := ferryFinish n eOk ws

/-- The exchanges that the Keeper took before channel `n`'s. -/
def State.takenBefore (s : State) (n : Nat) : List Nat := s.kpr.taken.takeWhile (· != n)

/-- Whether a channel's exchange is a TAKEN one with this code that the Keeper can serve now, after those of its group that it took before (R453); a
waiting one is under way. -/
def State.serving (s : State) (n code : Nat) : Bool :=
  decide (n < 7) && s.fySt n == fyTaken && s.fyStill n && s.req n 0 / 65536 == code && !s.on PCX_KPR_STAT.RESTART 0 &&
    (s.kpr.waiting.all fun w => w.1 != n) && (s.takenBefore n).all fun k => s.req k 0 / 2 ^ 24 != code / 256

/-- The request slot's header has the SEQ of the doorbell and an argument length in its range (Table 16.4). -/
def State.slotHeaderOk (s : State) (n : Nat) : Bool :=
  s.req n 0 % 256 == s.get PCX_FRY_STAT.LAST_SEQ n && decide (s.req n 1 % 256 ≤ 240)

/-- The Keeper serves a request (R456 to R459): UNSUPPORTED, VERSION, DENIED and a header that is not in order before the command's own checks. -/
def serve (n code classes : Nat) (f2 : Bool) (p : Prog) : Prog := .ask fun s => when (s.serving n code) (
  if f2 ∧ s.fyMajor n < 2 then ferryErr n eUnsupported
  else if 2 ≤ s.fyMajor n ∧ nbits (s.req n 0) 15 8 ≠ 0x10 then ferryFinish n eVersion [0x1000]
  else if classes &&& ferryClass n = 0 then ferryErr n eDenied
  else if !s.slotHeaderOk n then ferryErr n eArg
  else p)

/-- The codes of Table 16.9, and a TAKEN request with another one: UNSUPPORTED (Table 16.8). -/
def ferryKnown (code : Nat) : Bool := decide (1 ≤ code % 256 ∧ code % 256 ≤ ([1, 4, 7, 3, 6, 4, 2, 3, 3, 3, 9, 3] : List Nat).getD (code / 256) 0)
def unknownSweep : Prog := each (List.range 7) fun n =>
  whenS (fun s => !ferryKnown (s.req n 0 / 65536) && s.serving n (s.req n 0 / 65536)) (ferryErr n eUnsupported)

/-- The relay agent takes the frame at the head of the receive queue (R461). -/
def relayTake (f : List Nat) : Prog := .ask fun s =>
  let o := (f.getD 2 0 * 256 + f.getD 3 0) % 512
  let b (k : Nat) := f.getD (12 + k) 0
  let x := b 1
  let i := b 2 / 16
  let c := b 2 % 16
  let msg := (List.range 44).map fun k => b (4 + k)
  let add (r : RelayCall) : RelayCall := if r.peer = o ∧ r.xid = x ∧ r.chunks.all (·.1 != i) then { r with chunks := r.chunks ++ [(i, msg)] } else r
  let known (l : List RelayCall) : Bool := l.any fun r => r.peer == o && r.xid == x
  if c = 0 ∨ 6 < c ∨ c ≤ i then .skip
  else if b 0 = 0 then .seq (.upd (.kpr fun k => { k with
      relayIn := (if known k.relayIn then k.relayIn else k.relayIn ++ [{ peer := o, xid := x, total := c, time := s.ptm.ticks }]).map add })) relayPost
  else if b 0 = 1 then .upd (.kpr fun k => { k with relayOut := k.relayOut.map fun r => add (if r.peer = o ∧ r.xid = x then { r with total := c } else r) })
  else when (b 0 == 2) (emit (.event "Almanac push" (o :: msg)))

/-- RELAY_POP: the Keeper takes and removes the head of the receive queue (R271, R461). -/
def relayPopTaken : Prog := .ask fun s => match s.spl.rx with
  | f :: _ => .seq relayPop (relayTake f)
  | [] => relayPop
def execRelayPop (m : Master) (s : State) := (keeperOnly m .SPL_RLY_CTL 0 relayPopTaken).exec s

/-- A queued frame is sent when SPL accepts it (R271, R461). -/
def relayPump : Prog := .ask fun s => match s.kpr.relayTx with
  | (d, f) :: l => when (!s.on SPL_RLY_CTL.TX_BUSY 0) (all [
      setF SPL_RLY_CTL.BCAST 0 0, setF SPL_RLY_CTL.DEST 0 d,
      each (List.range 12) fun i => setF SPL_RLY_TX.W i ((List.range 4).foldl (fun w k => w * 256 + f.getD (4 * i + k) 0 % 256) 0),
      .upd (.kpr fun k => { k with relayTx := l }), relaySend])
  | [] => .skip

/-- RELAY_REASSEMBLY_TIMEOUT: a request not whole within 100 ms is discarded (R461). -/
def relayTimeoutProg (o x : Nat) : Prog := .ask fun s => .upd (.kpr fun k => { k with
  relayIn := k.relayIn.filter fun r => !(r.peer == o && r.xid == x && !r.complete && decide (r.time + 100 * tickMs ≤ s.ptm.ticks)) })
def execRelayReassemblyTimeout (origin : Fin 512) (x : BitVec 8) (s : State) := (relayTimeoutProg origin x.toNat).exec s

/-- A part of a firmware slot becomes active, and the minimum SVN of its component rises to its own (R465, R466). -/
def State.fwPart (s : State) (slot part : Nat) : Option FwPart := s.kpr.parts.find? fun f => f.slot == slot && f.part == part
def State.minSvnOf (s : State) (part : Nat) : Nat := ((s.kpr.minSvn.find? fun e => e.1 == part).map (·.2)).getD 0
def fwActivate (part slot : Nat) : Prog := .ask fun s => .upd (.kpr fun k => { k with
  parts := k.parts.map fun f => if f.part == part then { f with active := f.slot == slot } else f
  fwNext := k.fwNext.filter fun e => e.1 != part
  minSvn := (k.minSvn.filter fun e => e.1 != part) ++ [(part, max (s.minSvnOf part) (((s.fwPart slot part).map (·.svn)).getD 0))] })

/-- What a TAKEN command may wait for: a mode transition, the end of a namespace's deletion, of an activation, a relayed result, the end of an
Almanac clear. -/
def wtMode : Nat := 0
def wtDelete : Nat := 1
def wtActivate : Nat := 2
def wtRelay : Nat := 3
def wtClear : Nat := 4
def ferryWait (n kind data : Nat) : Prog := .upd (.kpr fun k => { k with waiting := k.waiting ++ [(n, kind, data)] })

/-- A waiting command ends (R459, R352, R466, R461, R556). -/
def waitEnd (n kind data : Nat) : Prog := .ask fun s =>
  if kind = wtMode then when (!s.on PTM_MODE_STAT.TRANS 0) (if s.mermode % 32 = data then ferryOk n [s.mermode] else ferryErr n eState)
  else if kind = wtDelete then when (s.get CQE_NS_CFG.STATE data == 0) (ferryOk n [])
  else if kind = wtActivate then when (!s.cqe.activating) (.seq (fwActivate 1 data) (ferryOk n []))
  else if kind = wtClear then when (!s.on ALM_STAT.CLEARING 0) (ferryOk n [])
  else match s.kpr.relayOut.find? fun r => r.chan == n && r.xid == data with
    | some r =>
      let m := r.message
      let gone : Prog := .upd (.kpr fun k => { k with relayOut := k.relayOut.filter fun e => !(e.chan == n && e.xid == data) })
      if r.total ≠ 0 ∧ r.complete then .seq gone (ferryOk n ((List.range ((min 224 (16 + bytesWords m 1 % 256) + 3) / 4)).map (bytesWords m)))
      else when (decide (r.time + 2000000 ≤ s.ptm.ticks)) (.seq gone (ferryErr n eTimeout))
    | none => .skip
def waitSweep : Prog := .ask fun s => when (!s.on PCX_KPR_STAT.RESTART 0) (each s.kpr.waiting fun w => waitEnd w.1 w.2.1 w.2.2)

end Sys2Proof.Machine
end

