-- ==== Sys2Proof/Machine/Spl.lean ====
section
/-! DEFINITION. Commands of the Archipelago and its Strait links (chapter 9). -/
namespace Sys2Proof.Machine

/-- TRAIN or HELLO begins on a side, and has lasted `n` ticks (Table 9.4). -/
def linkBegins (d st : Nat) : Prog := .ask fun s => .seq (setF SPL_SIDE_STAT.LINK d st)
  (.upd (.spl fun x => { x with linkAt := Sparse.put 0 x.linkAt d s.ptm.ticks }))
def State.linkLasts (s : State) (d n : Nat) : Bool := decide (Sparse.get 0 s.spl.linkAt d + n ≤ s.ptm.ticks)

/-- SPL_ENABLE: EN is set; the lanes begin training and both sides are wrapped until they reach UP (R257, Table 9.7). -/
def splEnableProg (m : Master) : Prog := keeperSets m .SPL_CFG 0 (fun s => !s.on SPL_CFG.EN 0) (.ask fun s =>
  when (!s.on SPL_CFG.EN 0) (all [when (s.spl.leaveFrames != 0) lanesIdle, setF SPL_CFG.EN 0 1, setF SPL_STAT.REF_LOCK 0 0, setSplState mbLinking,
    setF SPL_STAT.WRAP_P 0 1, setF SPL_STAT.WRAP_N 0 1, .upd (.spl fun x => { x with leaveFrames := 0 }), refLockFixed]))
def execSplEnable (m : Master) (s : State) := (splEnableProg m).exec s

/-- SPL_DISABLE: EN is cleared; an orderly leave (R259). -/
def splDisableProg (m : Master) : Prog := keeperSets m .SPL_CFG 0 (fun s => s.on SPL_CFG.EN 0) (all [splLeave, setF SPL_CFG.EN 0 0, refLockFixed])
def execSplDisable (m : Master) (s : State) := (splDisableProg m).exec s

/-- HOP_SIGNAL_DETECT: signal on a side's receive lane after its idle time starts training (Table 9.4). -/
def execHopSignalDetect (d : Fin 2) (s : State) :=
  (whenS (fun s => s.on SPL_CFG.EN 0 && s.link d == lkDown) (.seq (linkBegins d lkTrain)
    (send "SL" "train" [d]))).exec s

/-- HOP_TRAIN_DONE: block lock and equalisation complete; HELLO frames begin (Table 9.4). -/
def execHopTrainDone (d : Fin 2) (s : State) :=
  (whenS (fun s => s.link d == lkTrain) (.seq (linkBegins d lkHello) (sendHello d))).exec s

/-- HOP_TRAIN_TIMEOUT: training not complete within 20 ms (Table 9.4). -/
def execHopTrainTimeout (d : Fin 2) (s : State) :=
  (whenS (fun s => s.link d == lkTrain && s.linkLasts d (20 * tickMs)) (sideIdle d)).exec s

/-- HELLO: fixes the hop version, the lower of the two offered, and takes the side UP (R249). -/
def helloProg (d ver peer : Nat) : Prog := whenS (fun s => s.link d == lkHello) (.ask fun s => all [
  setF SPL_SIDE_STAT.VER d (if min ver s.ownVer < 0x20 then 1 else 2), setF SPL_SIDE_STAT.PEER_ID d peer, sideUp d])
def execHello (d : Fin 2) (ver : BitVec 8) (peer : Fin 512) (s : State) := (helloProg d ver.toNat peer).exec s

/-- HELLO_TIMEOUT: no HELLO within 100 µs (Table 9.4). -/
def execHelloTimeout (d : Fin 2) (s : State) :=
  (whenS (fun s => s.link d == lkHello && s.linkLasts d 800) (sideIdle d)).exec s

/-- STRAIT_SIDE_LOSS: a side in UP is lost (R250). -/
def sideLossProg (d : Nat) : Prog := whenS (fun s => s.link d == lkUp) (all [
  sideDown d, incF SPL_SIDE_STAT.DOWN_CNT d, raise (256 + d) (detail d), almEvent bSPL kFault "side lost" [d]])
def execStraitSideLoss (d : Fin 2) (s : State) := (sideLossProg d).exec s

/-- HOP_MARKER: the neighbour's member ID and LINK state; it keeps the side from being lost (R247, R250). -/
def execHopMarker (d : Fin 2) (peer : Fin 512) (link : Fin 4) (s : State) :=
  (Prog.upd (.spl fun x => { x with marker := (d.val, peer.val, link.val) :: x.marker.filter fun e => e.1 != d.val })).exec s

/-- STRAIT_UNKNOWN_FRAME: a frame with a CRC error is discarded and counted; a flooded frame of unknown TYPE is forwarded; a
hop-scoped one and one of an invalid TYPE are discarded (R248). -/
def unknownFrameProg (h : StraitHdr) (typ : Nat) (crcBad : Bool) (payload : List Byte) : Prog :=
  if crcBad then incF SPL_SIDE_STAT.CRC_ERR h.side
  else whenS (fun s => decide (0x10 ≤ typ ∧ typ ≤ 0x7F) && s.link h.side == lkUp) (splForward h typ payload)
def execStraitUnknownFrame (h : StraitHdr) (typ : BitVec 8) (crcBad : Bool) (payload : List (BitVec 8)) (s : State) :=
  (unknownFrameProg h typ.toNat crcBad payload).exec s

/-- BEACON: its member is present and what it carries is held (R258, R260, R270); one with this member's own ID and another
INSTANCE is a duplicate (R257). -/
def beaconProg (h : StraitHdr) (inst : Nat) (healthy elig refLock : Bool) (master level ver : Nat) : Prog :=
  .seq (splDuplicate h.origin inst) (splReceive h tBeacon
    (beaconBytes inst healthy elig refLock master level ver)
    (.seq (setMember h.origin { since := 0, healthy, elig, inst, level, s2v := h.s2v, hops := h.hops }) membersShow))
def execBeacon (h : StraitHdr) (inst : BitVec 32) (healthy elig refLock : Bool) (master : Fin 512) (level : BitVec 8)
    (ver : BitVec 16) (s : State) :=
  (beaconProg h inst.toNat healthy elig refLock master level.toNat ver.toNat).exec s

/-- BEACON_SEND: a member in JOINING or MEMBER floods its BEACON (R258). -/
def execBeaconSend (s : State) := (whenS State.beacons (.ask fun s => splFlood tBeacon s.beaconPayload)).exec s

/-- JOIN: every LAST of the origin resets to 0 before it is acted on, the member is added, and the master floods its plan again in
the next frame (R253, R258, R266). -/
def joinProg (h : StraitHdr) (inst : Nat) : Prog := all [
  splDuplicate h.origin inst,
  .upd (.spl fun x => { x with last := x.last.filter fun e => e.1 / 256 != h.origin.val }),
  splReceive h tJoin (beBytes 4 inst) (all [
    setMember h.origin { inst }, .upd (.spl fun x => { x with reflood := true }),
    setF SPL_STAT.MEMB_EVT 0 1, membersShow])]
def execJoin (h : StraitHdr) (inst : BitVec 32) (s : State) := (joinProg h inst.toNat).exec s

/-- LEAVE: the member is removed; a neighbour at HOPS = 1 wraps toward the leaver at once (R258, R259). -/
def execLeave (h : StraitHdr) (s : State) :=
  (splReceive h tLeave [] (.seq (splRemove h.origin)
    (when (h.hops == 1) (if h.side = 0 then setF SPL_STAT.WRAP_P 0 1 else setF SPL_STAT.WRAP_N 0 1)))).exec s

/-- DLY_REQ: answered with DLY_RSP carrying t1 as received, the time of receipt and the time of transmission (R261). -/
def execDlyReq (d : Fin 2) (t1 t2 t3 : Stamp) (s : State) :=
  (whenS (fun s => s.link d == lkUp) (.ask fun s => splHop d tDlyRsp (s.verByte d)
    ([t1, t2, t3].flatMap fun t => stampBytes (s.hopS2 d) t.ticks.toNat t.fine))).exec s

/-- DLY_RSP: the link delay d = ((t4 − t1) − (t3 − t2)) / 2 of the side, in 1/16 ns (R261). -/
def execDlyRsp (d : Fin 2) (t1 t2 t3 t4 : Stamp) (s : State) :=
  (whenS (fun s => s.link d == lkUp) (.upd (.spl fun x => { x with
    delay := Sparse.put 0 x.delay d (((t4.units - t1.units) - (t3.units - t2.units)) / 2) }))).exec s

/-- TIME: a frame of the master followed; of its two copies the one with the lower HOPS is used, on a tie the one on SL0. The copy used disciplines the time
at the frame boundary. A forwarded copy has the receiving side's delay and this member's residence time, which it measures (free), added to CORR (R260, R261). -/
def timeProg (h : StraitHdr) (tf corr : Nat) (rx : Int) : Prog := .ask fun s =>
  let d := Sparse.get 0 s.spl.delay h.side
  let theta : Int := ((tf * tickUnits + corr : Nat) : Int) + d - rx
  let mine := s.spl.hasMaster && h.origin.val == s.get SPL_STAT.MASTER_ID 0 && h.origin.val != s.ownId
  let better := match s.spl.timeCopy with
    | some (k, _, q, o) => if q = h.seq.val ∧ o = h.origin.val then decide (h.hops.val < k) || (h.hops.val == k && h.side == 0) else s.accepts h tTime
    | none => s.accepts h tTime
  .seq (when (s.link h.side == lkUp && mine && better)
      (.upd (.spl fun x => { x with timeCopy := some (h.hops, theta, h.seq, h.origin) })))
    (fresh fun stay => splReceive h tTime (timeBytes tf (((corr : Int) + d + (stay % 65536 : Nat)) % 2 ^ 32).toNat) .skip)
def execTime (h : StraitHdr) (tf : BitVec 64) (corr : BitVec 32) (rx : Stamp) (s : State) :=
  (timeProg h tf.toNat corr.toNat rx.units).exec s

/-- PLAN: a part is collected; a complete newer plan is adopted at the next frame boundary (R266). -/
def planProg (h : StraitHdr) (ver part : Nat) (es : List Nat) : Prog := splReceive h tPlan (planBytes ver part es) (.ask fun s =>
  let same := fun (p : PlanSet) => p.ver == ver && p.origin == h.origin.val
  let old := (s.spl.plans.find? same).getD { ver, origin := h.origin, parts := [], since := s.ptm.ticks }
  let ps := (part, es) :: old.parts.filter fun e => e.1 != part
  let set : PlanSet := { old with parts := ps }
  let cur := (s.spl.adopt.map fun p => (p.ver, p.origin)).getD (s.get SPL_PLAN_CTL.VER 0, s.get SPL_PLAN_CTL.PLAN_ORIGIN 0)
  if ps.length = 11 then
    .upd (.spl fun x => { x with plans := x.plans.filter (!same ·)
                                 adopt := if set.beats cur.1 cur.2 then some set else x.adopt })
  else .upd (.spl fun x => { x with plans := set :: x.plans.filter (!same ·) }))
def execPlan (h : StraitHdr) (ver : BitVec 16) (part : Fin 11) (entries : List (BitVec 8)) (s : State) :=
  (planProg h ver.toNat part (entries.map BitVec.toNat)).exec s

/-- PLAN_TIMEOUT: parts still incomplete after 10 ms are discarded with PLAN_ERR (R266). -/
def execPlanTimeout (origin : Fin 512) (ver : BitVec 16) (s : State) :=
  (whenS (fun s => s.spl.plans.any fun p => p.origin == origin.val && p.ver == ver.toNat && decide (p.since + 10 * tickMs ≤ s.ptm.ticks)) (.seq
    (.upd (.spl fun x => { x with plans := x.plans.filter fun p => !(p.origin == origin.val && p.ver == ver.toNat) }))
    (setF SPL_PLAN_CTL.PLAN_ERR 0 1))).exec s

/-- SPL_PLAN_SUBMIT: the Keeper writes SUBMIT (R266). -/
def execSplPlanSubmit (m : Master) (s : State) := (keeperOnly m .SPL_PLAN_CTL 0 planSubmit).exec s

/-- FWARN: within FW_RADIUS, FOREWARN asserts and its window restarts (R268). -/
def fwarnProg (h : StraitHdr) (peak src tm : Nat) : Prog := splReceive h tFwarn (fwarnBytes peak src tm) (.ask fun s =>
  when (s.on SPL_FW_CFG.RX_EN 0 && s.get SPL_FW_CFG.FW_WIN 0 != 0 && decide (h.hops.val ≤ max 1 (s.get SPL_FW_CFG.FW_RADIUS 0)))
    (all [setForewarn true, .upd (.spl fun x => { x with fwAt := s.ptm.ticks }), setF SPL_FW_STAT.ACTIVE 0 1, setF SPL_FW_STAT.LAST_HOPS 0 h.hops,
      setF SPL_FW_STAT.LAST_ORIGIN 0 h.origin, incF SPL_FW_STAT.RX_CNT 0]))
def execFwarn (h : StraitHdr) (peak : BitVec 8) (src : Fin 8) (tm : BitVec 64) (s : State) :=
  (fwarnProg h peak.toNat src tm.toNat).exec s

/-- FOREWARN_WINDOW_END: FW_WIN after the last forewarning acted on (R268). -/
def execForewarnWindowEnd (s : State) :=
  (whenS (fun s => s.wrc.forewarn && decide (s.spl.fwAt + 800 * min 500 (s.get SPL_FW_CFG.FW_WIN 0) ≤ s.ptm.ticks)) (.seq (setForewarn false) (setF SPL_FW_STAT.ACTIVE 0 0))).exec s

/-- RELAY: a frame for this member enters the receive queue, or is lost with RX_OVF; one addressed to this member alone is not
forwarded (R252, R271). -/
def relayProg (h : StraitHdr) (bcast : Bool) (dest : Nat) (data : List Byte) : Prog := .ask fun s =>
  let body := relayPayload bcast dest data
  let frame := (straitFrame tRelay (s.verByte h.side) h.origin h.hops h.seq h.s2v body).map (·.toNat)
  let here := !bcast && dest == s.ownId
  let act : Prog := when (bcast || dest == s.ownId)
    (if s.spl.rx.length ≥ 32 then setF SPL_RLY_CTL.RX_OVF 0 1
     else .seq (.upd (.spl fun x => { x with rx := x.rx ++ [frame] })) relayShow)
  if here then when (s.link h.side == lkUp && s.accepts h tRelay && s.splState != mbOff) (.seq (setLast h tRelay) act)
  else splReceive h tRelay body act
def execRelay (h : StraitHdr) (bcast : Bool) (dest : Fin 512) (data : List (BitVec 8)) (s : State) :=
  (relayProg h bcast dest data).exec s

/-- RELAY_SEND: the Keeper writes SEND (R271). -/
def execRelaySend (m : Master) (s : State) := (keeperOnly m .SPL_RLY_CTL 0 relaySend).exec s

/-- MER_IN_PULSE: the pulse's rising edge at local time `tp` disciplines the time in PULSE mode (R262). -/
def merInPulseProg (tp : Int) : Prog := .ask fun s =>
  let t := tp - 16 * (s.get SPL_MER_CFG.MER_DLY 0 : Int)
  let frame : Int := 8000 * tickUnits
  let k := roundDiv t (8000 * tickUnits)
  let theta0 := frame * k - t
  let theta := match s.spl.timeCopy with
    | some (_, th, _, _) => theta0 + frame * roundDiv (th - theta0) (8000 * tickUnits)
    | none => theta0
  let win : Int := max 1 (s.get SPL_MER_CFG.PULSE_WIN 0) * tickUnits
  when (s.merSrc == 1 && s.on SPL_CFG.EN 0 && (!s.on SPL_STAT.REF_LOCK 0 || decide (theta0.natAbs ≤ win.natAbs)))
    (.seq (.upd (.spl fun x => { x with pulseSeen := true })) (splDiscipline theta))
def execMerInPulse (tp : Stamp) (s : State) := (merInPulseProg tp.units).exec s

end Sys2Proof.Machine
end

