-- ==== Sys2Proof/Machine/Spn.lean ====
section
/-! DEFINITION. Commands of the spindle (chapter 8), and what SPN does at a frame pulse. -/
namespace Sys2Proof.Machine

/-- One turn, in the unit in which θ_ol advances by POLES × the open-loop speed (1/4,800 rpm) in a period of 1/48,000 s. -/
def olTurn : Nat := 4800 * 60 * 48000

/-- Entry into RAMP from a sensed angle in degrees: current contexts in AUTO, speed context in MANUAL, θ_ol at the sensed angle plus 90°, open-loop speed
from 0 (R229). -/
def spnRamp (angle : Nat) : Prog := all [
  setSpn spRamp, setF SPN_CTX_CFG.MODE 0 1, setF SPN_CTX_CFG.MODE 1 1, setF SPN_CTX_CFG.MODE 2 0,
  .upd (.spn fun x => { x with angle := (angle + 90) % 360 * (olTurn / 360), olSpeed := 0, aligning := false })]

/-- An attempt fails, or the spindle is caught too slow: short brake with START pending (Table 8.5). -/
def spnToShort : Prog := all [spnShortBrake, setSpn spShort, .upd (.spn fun x => { x with startPend := true })]

/-- SPN_START and SPN_STOP, written by the Keeper or issued by the sequencer (Table 8.9). -/
def execSpnStart (m : Master) (s : State) := (keeperOnly m .SPN_STAT 0 spnStart).exec s
def execSpnStop (m : Master) (s : State) := (keeperOnly m .SPN_STAT 0 spnStop).exec s

/-- The pulse whose difference to the opposite pulse is greatest, and that difference (R228); the first on a tie. -/
def senseBest (p : List Nat) : Nat × Int :=
  (List.range 12).foldl (fun b m =>
    let d : Int := (p.getD m 0 : Int) - (p.getD ((m + 6) % 12) 0 : Int)
    if m = 0 ∨ d > b.2 then (m, d) else b) (0, 0)

/-- SENSE_PULSE_DONE: a pulse's current has decayed and its peak is recorded; after twelve the angle follows, or another set, or
after three invalid sets alignment (R228). -/
def sensePulseProg (peak : Nat) : Prog := .ask fun s => when (s.spn? == spSense && !s.spn.aligning) (
  let ps := s.spn.peaks ++ [peak]
  if ps.length < 12 then .seq (.upd (.spn fun x => { x with peaks := ps })) (spnPulse ps.length)
  else
    let b := senseBest ps
    if (1200 : Int) * b.2 ≥ 2 * (ps.sum : Int) then spnRamp (30 * b.1)
    else .seq (.upd (.spn fun x => { x with peaks := [], badSets := x.badSets + 1, aligning := decide (3 ≤ x.badSets + 1), since := s.ptm.ticks }))
      (if 3 ≤ s.spn.badSets + 1 then emit (.event "alignment" [0, s.get SPN_SU_CFG.I_OL 0]) else spnPulse 0))
def execSensePulseDone (peak : BitVec 16) (s : State) := (sensePulseProg peak.toNat).exec s

/-- ALIGN_END: after 200 ms of I_OL along 0° electrical, θ_e = 0 (R228). -/
def execAlignEnd (s : State) :=
  (whenS (fun s => s.spn? == spSense && s.spn.aligning && decide (s.spn.since + 200 * tickMs ≤ s.ptm.ticks)) (spnRamp 0)).exec s

/-- A loss of observer lock (R226). -/
def spnObsLoss : Prog := whenS
  (fun s => s.spn? == spAccel || s.spn? == spRun || s.spn? == spChange || s.spn? == spBrake)
  (all [setF SPN_STAT.OBS_LOSS 0 1, raise 248 (detail 0), spnDriveOff, setSpn spCatch])
def execObserverLoss (s : State) := spnObsLoss.exec s

/-- RAMP_TIMEOUT: 100 electrical periods after reaching HO_RPM without a hand-over (Table 8.5). -/
def execRampTimeout (s : State) :=
  (whenS (fun s => s.spn? == spRamp && decide (100 ≤ s.spn.hoPeriods)) spnToShort).exec s

/-- SHORT_END: 1 s without a zero crossing: the next attempt, a start failure, or OFF (Table 8.5). -/
def shortEndProg : Prog := .ask fun s => when (s.spn? == spShort) (.seq (.upd (.spn fun x => { x with rotor := 0 }))
  (if !s.spn.startPend then setSpn spOff
   else if s.spn.attempts < s.suTry then .seq (.upd (.spn fun x => { x with attempts := x.attempts + 1 })) spnSense
   else all [setF SPN_STAT.SU_FAIL 0 1, raise 249 (detail 0), almEvent bSPN kFault "start failure" [s.spn.attempts], setSpn spOff,
     .upd (.spn fun x => { x with startPend := false })]))
def execShortEnd (s : State) := shortEndProg.exec s

/-- CATCH_TIMEOUT: no observer lock within 200 ms (Table 8.5). -/
def execCatchTimeout (s : State) :=
  (whenS (fun s => s.spn? == spCatch && decide (s.spn.since + 200 * tickMs ≤ s.ptm.ticks)) spnToShort).exec s

/-- SPD_SET_WRITE: the Keeper writes SPD_SET (R222, R241). -/
def execSpdSetWrite (m : Master) (v : BitVec 14) (s : State) := (keeperSets m .SPN_CTL 0 (fun s => s.get SPN_CTL.SPD_SET 0 != v.toNat) (spnSpdSet v.toNat)).exec s

/-- SPN_COMMIT: bits of COMMIT written 1 copy the shadow banks of their contexts into use (R181, R224). -/
def spnCommitProg (mask : Nat) : Prog :=
  each ((List.range 3).filter (nbit mask)) fun k => .seq (setBitF SPN_COMMIT.COMMIT 0 k true) (spnCommitCtx k)
def execSpnCommit (m : Master) (mask : BitVec 3) (s : State) := (keeperSets m .SPN_COMMIT 0 (fun s => s.get SPN_COMMIT.COMMIT 0 ||| mask.toNat != s.get SPN_COMMIT.COMMIT 0) (spnCommitProg mask.toNat)).exec s

/-- The current set-points of a period: i_d*, ramping to 0 after a hand-over, and i_q*; clamped to ±6 A (R222, R229, R230). -/
def State.focSetPoints (s : State) : Int × Int :=
  let c := fun v : Int => clampI (-32767) 32767 v
  if s.spn? = spRamp then (0, c (min (ampCode (s.get SPN_SU_CFG.I_OL 0)) s.iAcc))
  else (c (roundDiv (s.spn.idStart * s.spn.idLeft) 64), c s.spn.iq)

/-- The rotor-frame currents of three phase currents: phase U's axis is at angle 0, V's and W's 120° and 240° on, amplitudes kept (R223; DEDUCED, assumption
log 6). Angles are in turns. -/
def park (i : List Int) (t : Rat) : Int × Int :=
  let sum := fun f : Rat → Rat => 2 / 3 * (((List.range 3).map fun k => (i.getD k 0 : Rat) * f (t - (k : Rat) / 3)).sum)
  (rnd (sum cosR), rnd (-sum sinR))

/-- −ω_e × LPH × i_q and ω_e × LPH × i_d + KE × n in output codes; `n` in 1/256 rpm (Tables 8.2 and 8.3). -/
def State.focX (s : State) (n : Nat) (i : Int) : Rat :=
  2 * piR * s.get SPN_MOTOR.POLES 0 * n / (256 * 60) * s.get SPN_MOTOR.LPH 0 / 100000 * i / 2
def State.focFf (s : State) (n : Nat) (d q : Int) : Int × Int :=
  (rnd (-s.focX n q), rnd (s.focX n d + s.get SPN_MOTOR.KE 0 * (n : Rat) / 256 / 100000 * 32768 / 12))

/-- The two current contexts execute at the angle `theta`, in turns, and the duties go to the power die (R223). -/
def focDrive (theta : Rat) (n : Nat) : Prog := .ask fun s =>
  let (id, iq) := park s.spn.samp theta
  let (d, q) := s.focSetPoints
  let (fd, fq) := s.focFf n id iq
  all [runSpnCtx 0 (d - id) fd none, runSpnCtx 1 (q - iq) fq none,
    .ask fun t =>
      let vd := t.sget SPN_CTX_OUT.OUT 0
      let vq := t.sget SPN_CTX_OUT.OUT 1
      all [when (Config.focShort vd vq) (.seq (setF SPN_CTX_STAT.CLAMP_O 0 1) (setF SPN_CTX_STAT.CLAMP_O 1 1)),
        cwSend "SPN_DUTY" 0x30 0 ((List.range 3).flatMap fun k => beNats 2 (Config.focDuty vd vq (rnd (theta * 65536)).toNat k % 65536))],
    .upd (.spn fun x => { x with idLeft := x.idLeft - 1 })]

/-- An angle in turns taken to −1/2 to 1/2. -/
def wrapTurn (t : Rat) : Rat := t - ⌊t + 1 / 2⌋

/-- What of a state's electrical periods counts: one more where all of it was as wanted; a period that begins before the state does not count. -/
def goodPeriods (ok pe spoiled : Bool) (n : Nat) : Nat × Bool :=
  let bad := spoiled || !ok
  (if !ok then 0 else if pe && !bad then n + 1 else n, if pe then !ok else bad)

/-- The open-loop ramp and the hand-over test of R229 and R230; `obs` is θ_obs in turns, `n` the observer's speed. -/
def focRamp (n : Nat) (obs : Rat) : Prog := .ask fun s =>
  let ho := 4800 * s.hoRpm
  let ol := min ho (s.spn.olSpeed + s.get SPN_HO_CFG.OL_ACC 0)
  let turn := s.spn.angle + s.get SPN_MOTOR.POLES 0 * ol
  let pe := decide (olTurn ≤ turn)
  let delta := wrapTurn (((turn % olTurn : Nat) : Rat) / olTurn - obs)
  let near := ol == ho && decide (100 * ((n : Int) - 256 * s.hoRpm).natAbs ≤ 2 * 256 * s.hoRpm)
  let still := !pe || s.spn.spoiled || decide (360 * |wrapTurn (delta - s.spn.lastDelta)| ≤ clampN 1 60 (s.get SPN_HO_CFG.HO_ANG 0))
  let (agree, spoiled) := goodPeriods near pe s.spn.spoiled (if still then s.spn.agree else 0)
  let agree := if still then agree else 0
  let amp : Rat := (ampCode (s.get SPN_SU_CFG.I_OL 0) : Int)
  .seq (.upd (.spn fun x => { x with olSpeed := ol, angle := turn % olTurn, agree, spoiled, lastDelta := if pe then delta else x.lastDelta
                                     hoPeriods := if pe && ol == ho then x.hoPeriods + 1 else x.hoPeriods }))
    (when (ol == ho && decide (s.hoN ≤ agree)) (spnHandOver (rnd (amp * sinR delta)) (rnd (amp * cosR delta))))

/-- FOC_PERIOD: one 48 kHz period (R223, R225): the observer's angle and speed, whether the estimated back-EMF is below half of KE × n, whether the loop's
phase error exceeds 45°, whether the observer is locked. An electrical period of CATCH ends where the observer's angle passes 0. -/
def focPeriodProg (theta n : Nat) (bemfLow phaseOut locked : Bool) : Prog := .ask fun s =>
  let obs : Rat := (theta : Rat) / 65536
  when (s.get PTM_CW_STAT.LINK 0 == 2 && s.spn? != spHanded) (all [
    .upd (.spn fun x => { x with rotor := n, lastTheta := theta }),
    if s.spn? = spRamp then .seq (focDrive ((s.spn.angle : Rat) / olTurn) n) (focRamp n obs)
    else if s.spn? = spAccel ∨ s.spn? = spRun ∨ s.spn? = spChange ∨ s.spn? = spBrake then
      let lp := if bemfLow && decide (256 * s.hoRpm ≤ n) then s.spn.lossPeriods + 1 else 0
      let lq := if phaseOut && decide (256 * s.hoRpm ≤ n) then s.spn.lossPhase + 1 else 0
      all [focDrive obs n, .upd (.spn fun x => { x with lossPeriods := lp, lossPhase := lq }),
        if decide (48 ≤ lp ∨ 48 ≤ lq) then spnObsLoss
        else when (s.spn? == spBrake && decide (n ≤ 256 * s.hoRpm)) (.seq spnShortBrake (setSpn spShort))]
    else if s.spn? = spCatch then
      if n < 256 * s.hoRpm then spnToShort
      else
        let (k, spoiled) := goodPeriods locked (decide (theta < s.spn.lastTheta)) s.spn.spoiled s.spn.catchPeriods
        .seq (.upd (.spn fun x => { x with catchPeriods := k, spoiled })) (when (decide (s.hoN ≤ k)) (spnHandOver 0 0))
    else .skip])

/-- The estimated back-EMF, in mV along the three phases, is below half of KE × n (R225); 9 |e|² = 4 (u² + v² + w² − uv − vw − wu). -/
def State.emfLow (s : State) (n : Nat) (u v w : Int) : Bool :=
  decide (16 * (u * u + v * v + w * w - u * v - v * w - w * u) * 25600 ^ 2 < 9 * ((s.get SPN_MOTOR.KE 0 * n : Nat) : Int) ^ 2)

/-- The phase error of the observer's loop, in 2^-16 electrical revolutions, exceeds 45° (R225). -/
def phaseOff (err : BitVec 16) : Bool := decide (8192 < err.toInt.natAbs)

def execFocPeriod (theta : BitVec 16) (n : BitVec 22) (eu ev ew err : BitVec 16) (locked : Bool) (s : State) :=
  (Prog.ask fun s => focPeriodProg theta.toNat n.toNat (s.emfLow n.toNat eu.toInt ev.toInt ew.toInt) (phaseOff err) locked).exec s

/-- |n* − n| within k/2 of SPD_TOL, n* and n in 1/25600 rpm (Table 8.11). -/
def State.inSpdTol (s : State) (err : Int) (half : Bool) : Bool :=
  decide (10000 * err.natAbs * (if half then 2 else 1) ≤ s.get SPN_LIM.SPD_TOL 0 * s.get SPN_CTL.SPD_SET 0 * 25600)

/-- Δω in 1/25600 rpm, to the 1/256 rpm to which it is held (R238). -/
def State.dwSet (s : State) : Int := 100 * roundDiv (s.spn.dw * 256) 100000

/-- The limits of i_q* (R230, R231). -/
def State.iqLimits (s : State) : Option (Int × Int) :=
  if s.spn? = spRun then none
  else
    let hi := s.iAcc
    some (-hi, if s.spn.limFrames = 0 then hi else s.spn.limStart + (hi - s.spn.limStart) * (100 - s.spn.limFrames : Int) / 100)

/-- What moves with the frames: in CHANGE the set-point at SC_RATE, after a hand-over the output's upper limit (R230, R241). -/
def spnRamps : Prog := .ask fun s => .upd (.spn fun x =>
  let goal := 25600 * s.get SPN_CTL.SPD_SET 0
  let d := 256 * max 1 (s.get SPN_LIM.SC_RATE 0)
  { x with limFrames := x.limFrames - 1
           setPt := if s.spn? != spChange then x.setPt else if x.setPt < goal then min goal (x.setPt + d) else max goal (x.setPt - d) })

/-- AT_SPEED and the entry into RUN after a frame with a measurement; `err` is n* − n with n* = SPD_SET + Δω (R234, R238, Table 8.5). -/
def spnJudge (err : Int) : Prog := .ask fun s =>
  if s.spn? = spAccel ∨ s.spn? = spChange then
    let k := if s.inSpdTol err false then s.spn.inTol + 1 else 0
    .seq (.upd (.spn fun x => { x with inTol := k })) (when (decide (16 ≤ k)) (setSpn spRun))
  else if s.spn? = spRun then
    if s.on SPN_STAT.AT_SPEED 0 then when (!s.inSpdTol err false) (.seq (setAtSpeed false) (.upd (.spn fun x => { x with inHalf := 0 })))
    else
      let k := if s.inSpdTol err true then s.spn.inHalf + 1 else 0
      .seq (.upd (.spn fun x => { x with inHalf := k })) (when (decide (3 ≤ k)) (setAtSpeed true))
  else .skip

/-- The speed loop at a frame pulse with measured speed `n`; a frame in which Meridian time is corrected has no measurement (R233). -/
def spnFrame (n : Nat) : Prog := .ask fun s =>
  let loop := s.spn? == spAccel || s.spn? == spRun || s.spn? == spChange || s.spn? == spBrake
  all [
    when (!s.spl.corrected) (setF SPN_STAT.SPEED 0 n),
    when (!s.spl.corrected && loop && s.get PTM_CW_STAT.LINK 0 == 2) (all [
      runSpnCtx 2 (roundDiv ((s.spn.setPt : Int) + (if s.spn? = spBrake then 0 else s.dwSet) - 100 * (n : Int)) 100) 0 s.iqLimits,
      .ask fun t => .upd (.spn fun x => { x with iq := t.sget SPN_CTX_OUT.OUT 2 }),
      spnJudge ((25600 * s.get SPN_CTL.SPD_SET 0 : Nat) + s.dwSet - 100 * (n : Int))]),
    spnRamps]

/-- The phase slot in force (R240). -/
def State.orrSlot (s : State) : Nat :=
  if s.on SPN_ORR_CFG.SLOT_SRC 0 ∧ (s.splState = mbMember ∨ s.splState = mbJoining) then
    let e := s.get SPL_PLAN.W (s.ownId / 4) / 256 ^ (s.ownId % 4) % 256
    if nbit e 7 then e % 16 else defaultSlot s.ownId
  else s.get SPN_ORR_CFG.SLOT 0

/-- e of R237 in revolutions: θ_m in 2^-32 revolution. -/
def phaseErr (tf spd slot thm : Nat) : Rat :=
  let x : Rat := (tf * spd % 480000000 : Nat) / 480000000 - (slot : Rat) / 16 - (thm : Rat) / 4294967296
  let y := x - x.floor
  if y > 1 / 2 then y - 1 else y

/-- The target offset of R238 in 1/100000 rpm: the square-root law under the smaller of DW_MAX and SPD_TOL / 4. -/
def State.orrTarget (s : State) (e : Rat) (slew : Nat) : Int :=
  let lim := min (1000 * s.get SPN_ORR_CFG.DW_MAX 0) (10 * s.get SPN_LIM.SPD_TOL 0 * s.get SPN_CTL.SPD_SET 0 / 4)
  let root := Nat.sqrt (12000000000 * slew * e.num.natAbs / e.den)
  let m : Int := (min lim root : Nat)
  if e.num < 0 then -m else m

/-- The Orrery's state at a frame pulse, from what the frames before have shown, before the frame's update (Table 8.12, Table 8.15). -/
def orrState (ref moved : Bool) : Prog := .ask fun s =>
  let o := s.get SPN_ORR_STAT.OSTATE 0
  let free : Prog := .seq (setF SPN_ORR_STAT.FREE_EVT 0 1) (setOrr orFree)
  if o = orSuspend then when (s.spn? == spRun) (if ref then setOrr orRejoin else free)
  else if o = orFree then when ref (.seq (almEvent bSPN kState "Orrery rejoin" []) (setOrr orRejoin))
  else if !ref then .seq (almEvent bSPN kState "Orrery free-run" []) free
  else if o = orRejoin then when (decide (100 ≤ s.spn.orrIn)) (setOrr orLocked)
  else if moved || s.spn.indexNew then setOrr orRejoin
  else when (decide (10 ≤ s.spn.orrOut)) (all [setF SPN_ORR_STAT.UNLOCK_EVT 0 1, almEvent bSPN kState "Orrery unlock" [], setOrr orRejoin])

/-- The Orrery's update in the state in force with phase error `e` (R237, R238). -/
def orrUpdate (e : Rat) : Prog := .ask fun s =>
  let slew : Nat := clampN 1 20 (s.get SPN_ORR_CFG.SLEW 0)
  let o := s.get SPN_ORR_STAT.OSTATE 0
  let goal : Int := if o = orRejoin ∨ o = orLocked then s.orrTarget e slew else 0
  let win := s.get SPN_ORR_CFG.LOCK_WIN 0
  let inWin := decide (36000 * e.num.natAbs ≤ win * e.den)
  let out2 := decide (36000 * e.num.natAbs > 2 * win * e.den)
  .seq (setI SPN_ORR_STAT.PH_ERR 0 (roundDiv (65536 * e.num) e.den)) (.upd (.spn fun x => { x with
    dw := if o = orRejoin ∨ o = orLocked ∨ o = orFree then x.dw + clampI (-(slew : Int)) slew (goal - x.dw) else x.dw
    orrIn := if o = orRejoin ∧ inWin then x.orrIn + 1 else 0
    orrOut := if o = orLocked ∧ out2 then x.orrOut + 1 else 0
    indexNew := false }))

/-- The Orrery at a frame pulse; `ref` is REF_LOCK, `thm` is θ_m in 2^-32 revolution (R237 to R240, Table 8.12). -/
def orrFrame (ref : Bool) (thm : Nat) : Prog := .ask fun s =>
  when (s.get SPN_ORR_STAT.OSTATE 0 != orOff) (.seq (orrState ref (s.orrSlot != s.get SPN_ORR_STAT.SLOT_USED 0))
    (.seq (setF SPN_ORR_STAT.SLOT_USED 0 s.orrSlot) (orrUpdate (phaseErr s.time (s.get SPN_CTL.SPD_SET 0) s.orrSlot thm))))

end Sys2Proof.Machine
end

