-- ==== Sys2Proof/Machine/Sve.lean ====
section
/-! DEFINITION. Commands of Transit: loops, wedges, seeks, load and unload, vibration and shock (chapters 6 and 7). -/
namespace Sys2Proof.Machine

/-- A learned set from the words of its entry (R213). -/
def rroOf (h z : Nat) (w : Nat → Nat) : RroSet :=
  { tag := some (h, z), learned := false, c := (List.range 8).map fun k => toSigned 16 (nbits (w k) 15 0)
    s := (List.range 8).map fun k => toSigned 16 (nbits (w k) 31 16) }

/-- RRO_LOAD_DONE: the load of live set `i` (0 to 15 head paths, 16 + a actuators) ends; `bad` for a bus error or an uncorrectable DRAM error (R213). A set
that learned under another tag is written back first. -/
def rroLoadProg (i : Nat) (bad : Bool) : Prog := .ask fun s => match s.sve.rroLoad.find? fun e => e.1 == i with
  | none => .skip
  | some (_, h, z) =>
    let a := s.rroAddr h z
    let r := Sparse.get {} s.sve.rro i
    all [.upd (.sve fun x => { x with rroLoad := x.rroLoad.filter fun e => e.1 != i }), if r.tag = some (h, z) then .skip else rroWriteback i,
      (match s.loadFault .sve a 64 with
        | some src => faultLine .sve atRead a 64 src
        | none => .skip),
      .ask fun s => if bad || (s.loadFault .sve a 64).isSome || s.poisoned a 64 || !s.crcOk a 15 || !nbit (s.memW (a + 32)) 31 then
        .seq (setF SVE_RRO_CTL.ERR 0 1) (when r.tag.isNone (.upd (.sve fun x => { x with rro := Sparse.put {} x.rro i { r with c := [], s := [] } })))
      else .upd (.sve fun x => { x with rro := Sparse.put {} x.rro i (rroOf h z fun k => s.memW (a + 4 * k)) })]
def execRroLoadDone (set : Fin 20) (bad : Bool) (s : State) := (rroLoadProg set bad).exec s

/-- The oldest entry leaves the drift log (R61). -/
def driftPop : Prog := .ask fun s => .seq (.upd (.sve fun x => { x with log := s.sve.log.tail })) (setF SVE_DRIFT_STAT.COUNT 0 s.sve.log.tail.length)

/-- DRIFT_LOG_READ: a read of the log's low word takes the oldest entry and latches its high word; 0 from an empty log (R61, R598). -/
def driftReadProg (m : Master) : Prog := .ask fun s =>
  match s.sve.log with
  | [] => .seq (reply m 0) (latch 0)
  | (kind, h, band, obs, mb) :: _ => all [
      reply m (1 <<< 31 ||| kind <<< 29 ||| (h % 32) <<< 24 ||| band % 65536),
      latch (ofSigned 12 mb <<< 12 ||| ofSigned 12 obs), driftPop]
where
  latch (v : Nat) : Prog := .upd (.access fun x =>
    { x with hi := (x.hi.filter fun e => !(e.1 == m.id && e.2.1 == regAddr .SVE_DRIFT_LOG 0)) ++ [(m.id, regAddr .SVE_DRIFT_LOG 0, v)] })
def execDriftLogRead (m : Master) (s : State) := (driftReadProg m).exec s

/-- The first wedge-0 mark after leaving OFF fixes the mechanical angle (R236). -/
def indexFix (w : Nat) : Prog := whenS (fun s => w == 0 && s.spinning && !s.on SPN_STAT.INDEX_VALID 0)
  (.seq (setF SPN_STAT.INDEX_VALID 0 1) (.upd (.spn fun x => { x with indexNew := true })))

/-- WEDGE_ARRIVAL: head path `p` finds a servo address mark, or none, and demodulates the wedge (R81, R184, R189 to R193, R203 to R209): `o` as lane 2p
samples it, `o'` as lane 2p + 1 does. `bits` are the channel bits of the sector that the servo gate splits (R120); the end of the gate is a boundary (R98). -/
def wedgeProg (p : Nat) (o o' : Option WedgeObs) (bits : List BitObs) : Prog := .ask fun s =>
  let a := p / 4
  let o := if s.servoLane p = 2 * p then o else o'
  if !s.demodulates p || s.sve.wedgeDone.contains p then .skip
  else if s.get SVE_SEEK_STAT.STATE a = skLoading then loadWedge p o
  else all [
    when (s.rdc.sector.contains p) (readPiece p bits),
    when (!(s.sve.wedgeDone.any fun q => q / 4 == a)) (seekAdvance a),
    rdcBoundary p,
    (match o with
      | some x => .seq (indexFix x.wedge.val) (.ask fun t => if t.wedgeOk p x then wedgeGood p x else wedgeMiss p)
      | none => wedgeMiss p),
    .ask fun t => when ((t.demodPaths a).all fun q => t.sve.wedgeDone.contains q) (evForm a)]
def execWedgeArrival (p : Fin 16) (x : WedgeIn) (s : State) := (wedgeProg p x.even x.odd x.bits).exec s

/-- MISSING_WEDGE_REMOVAL: MISS_CNT has reached MISS_N (R192). -/
def missRemovalProg (p : Nat) : Prog := whenS
  (fun s => s.sve.active.contains p && decide (max 1 (s.get SVE_SV_CFG.MISS_N 0) ≤ s.get SVE_WEDGE_STAT.MISS_CNT p))
  (removePath p)
def execMissingWedgeRemoval (p : Fin 16) (s : State) := (missRemovalProg p).exec s

/-- SERVO_LOSS: ACT_MISS wedges without a PES on any head path of the actuator (R192). -/
def servoLossProg (a : Nat) : Prog := whenS
  (fun s => s.loaded a && decide (clampN 2 15 (s.get SVE_ACT_CFG.ACT_MISS a) ≤ Sparse.get 0 s.sve.actMiss a))
  (all [setF SVE_ACT_STAT.SV_LOSS a 1, raise (216 + a) (detail a), almEvent bSVE kFault "servo loss" [a],
    each (pathsOf a) fun p => setOfftrack p true, stopLoops a, requestRetract [a],
    .upd (.sve fun x => { x with actMiss := Sparse.put 0 x.actMiss a 0
                                 pass := x.pass.map fun e => if e.1 == a then (e.1, { e.2 with ending := true }) else e })])
def execServoLoss (a : Fin 4) (s : State) := (servoLossProg a).exec s

/-- MICROACTUATOR_CLAMP_REMOVAL: eight consecutive executions at the clamp (R49, R179). -/
def clampRemovalProg (p : Nat) : Prog := whenS
  (fun s => s.sve.active.contains p && s.get SVE_SEEK_STAT.STATE (p / 4) == skTracking && decide (8 ≤ s.get SVE_CTX_STAT.CLAMP_CNT p)) (removePath p)
def execMicroactuatorClampRemoval (p : Fin 16) (s : State) := (clampRemovalProg p).exec s

/-- EV_FORMATION: SKEW_MAX after the first mark, paths still pending count as missing; their gates have ended too (R98, Table 6.12). -/
def evFormationProg (a : Nat) : Prog := .ask fun s => when (s.sve.wedgeDone.any fun q => q / 4 == a)
  (.seq (each ((s.demodPaths a).filter fun q => !s.sve.wedgeDone.contains q) fun q => .seq (rdcBoundary q) (wedgeMiss q)) (evForm a))
def execEvFormation (a : Fin 4) (s : State) := (evFormationProg a).exec s

/-- One of the eight steps of a ramp under way, from the set-point towards its end (R185). -/
def rampStep (a : Nat) (x : SveState) : SveState :=
  let left := Sparse.get 0 x.rampTick a
  let cur := Sparse.get 0 x.setPt a
  if left = 0 then x else { x with setPt := Sparse.put 0 x.setPt a (cur + roundDiv (Sparse.get 0 x.setPtOld a - cur) left), rampTick := Sparse.put 0 x.rampTick a (left - 1) }

/-- A new set-point is taken at a tick: at once, or as the end of a ramp over the eight ticks that follow (R185). -/
def setPointTaken (a : Nat) (ramp : Bool) (v : Int) (x : SveState) : SveState :=
  let y := { x with setPtNew := x.setPtNew.filter fun e => e.1 != a }
  if ramp then { y with setPtOld := Sparse.put 0 y.setPtOld a v, rampTick := Sparse.put 0 y.rampTick a 8 }
  else { y with setPt := Sparse.put 0 y.setPt a v, rampTick := Sparse.put 0 y.rampTick a 0 }

/-- The set-point of the actuator at a current tick: a ramp goes on by a step, and a new output of the position loop applies (R185). -/
def setPointTick (a m : Nat) : Prog := .ask fun s => .seq (.upd (.sve (rampStep a)))
  (match s.sve.setPtNew.find? fun e => e.1 == a with
  | some (_, v) => .seq (when (m != 0) (setF SVE_CTX_STAT.LATE (16 + a) 1)) (.upd (.sve (setPointTaken a (s.on SVE_ACT_CFG.SP_RAMP a) v)))
  | none => .skip)

/-- CURRENT_TICK: tick `m` of the actuator's wedge interval (R185, R186); while an arm is driven to the ramp its drive follows the back-EMF
velocity, by a rule the spec does not give (R210 step 3; assumption log 3). The power die samples the current. -/
def currentTickProg (a m : Nat) : Prog := .ask fun s => all [
  setPointTick a m,
  when (s.seek a).ramp (fresh fun v => setF SVE_CTX_MAN.MAN (20 + a) (v % 65536)),
  when (s.get PTM_CW_STAT.LINK 0 == 2) (cwSend "VCM_TICK" 0x20 0 [2 ^ a])]
def execCurrentTick (a : Fin 4) (tick : Fin 8) (s : State) := (currentTickProg a tick).exec s

/-- CONTEXT_TRIGGER (R178). -/
def execContextTrigger (k : Fin 24) (e : BitVec 32) (s : State) := (trigger k e.toInt).exec s

/-- CONTEXT_EXECUTION_END: the execution of context `k` under way completes; `elapsed` from its trigger in 10 ns, `busy` the unit's share of the last wedge
interval (R176, R177, Table 6.5). One that was stopped, or that the link or the Causeway no longer lets drive, has no effect; the unit goes on to the next. -/
def contextEndProg (k elapsed busy : Nat) : Prog := .ask fun s => match s.sve.running.find? (·.2.k == k) with
  | none => .skip
  | some (u, x) => all [
      .upd (.sve fun y => { y with running := y.running.filter (·.1 != u) }), when (x.live && s.ctxMay k) (ctxDone x),
      setF SVE_CLU_STAT.EXEC_MAX u (max (s.get SVE_CLU_STAT.EXEC_MAX u) (min 255 elapsed)), setF SVE_CLU_STAT.BUSY u (min 100 busy), ctxStart u]
def execContextExecutionEnd (k : Fin 24) (elapsed busy : BitVec 8) (s : State) := (contextEndProg k elapsed.toNat busy.toNat).exec s

/-- CLU_COMMIT: a Keeper write of COMMIT; the bits read 1 until applied (R181, Table 6.4). -/
def cluCommitProg (m : Master) (u mask : Nat) : Prog := keeperSets m .SVE_CLU_CTL u (fun s => s.get SVE_CLU_CTL.COMMIT u ||| mask != s.get SVE_CLU_CTL.COMMIT u) (.ask fun s =>
  setF SVE_CLU_CTL.COMMIT u (s.get SVE_CLU_CTL.COMMIT u ||| mask))
def execCluCommit (m : Master) (u : Fin 12) (mask : BitVec 4) (s : State) := (cluCommitProg m u mask.toNat).exec s

/-- CLU_COMMIT_APPLY: the unit's first moment between executions (R181). -/
def cluApplyProg (u : Nat) : Prog := whenS (fun s => (s.sve.running.find? (·.1 == u)).isNone)
  (.ask fun s => each ((List.range 4).filter fun b => s.bitF SVE_CLU_CTL.COMMIT u b) (cluApply u))
def execCluCommitApply (u : Fin 12) (s : State) := (cluApplyProg u).exec s

/-- SERVICE_WRITE: the Keeper or an application core writes SVE_SERVICE (R197, Table 6.19). -/
def serviceWriteProg (m : Master) : Prog := .ask fun s => when m.isCore (.seq (setF SVE_TRK_STAT.SINCE 0 0)
  (when (s.get SVE_TRK_STAT.STATE 0 == trkAutonomous) (setF SVE_TRK_STAT.STATE 0 trkServed)))
def execServiceWrite (m : Master) (s : State) := (serviceWriteProg m).exec s

/-- GRACE and LIMIT in force, ms (Table 6.19). -/
def State.grace (s : State) : Nat := clampN 1 100 (s.get SVE_TRK_CTL.GRACE 0)
def State.trkLimit (s : State) : Nat := clampN 10 500 (s.get SVE_TRK_CTL.LIMIT 0)

/-- LIMIT is reached (Table 6.18): EXPIRED, the source, the record, every loaded actuator unloads. -/
def trackingExpired : Prog := all [
  setF SVE_TRK_STAT.EXPIRED 0 1, raise 226 (detail 0), almEvent bSVE kFault "tracking expiry" [], setF SVE_TRK_STAT.STATE 0 trkParking, unloadAll]

/-- TRACKING_GRACE_EXPIRY: with GRACE below LIMIT, no new seek starts (R197). -/
def graceProg : Prog := whenS (fun s => s.get SVE_TRK_STAT.STATE 0 == trkServed && decide (s.grace ≤ s.get SVE_TRK_STAT.SINCE 0 ∧ s.grace < s.trkLimit))
  (setF SVE_TRK_STAT.STATE 0 trkAutonomous)
def execTrackingGraceExpiry (s : State) := graceProg.exec s

/-- TRACKING_LIMIT_EXPIRY: from AUTONOMOUS, or from SERVED where GRACE is at or above LIMIT (R197, R198). -/
def limitProg : Prog := whenS (fun s => (s.get SVE_TRK_STAT.STATE 0 == trkAutonomous || s.get SVE_TRK_STAT.STATE 0 == trkServed && decide (s.trkLimit ≤ s.grace)) &&
  decide (s.trkLimit ≤ s.get SVE_TRK_STAT.SINCE 0)) trackingExpired
def execTrackingLimitExpiry (s : State) := limitProg.exec s

/-- PARK_TIMEOUT: an unload 300 ms old ends in the power die's retract (R197, R210). -/
def parkTimeoutProg (a : Nat) : Prog := whenS (fun s => s.get SVE_SEEK_STAT.STATE a == skUnloading && !s.sve.retract.contains a &&
    decide ((s.seek a).since + 300 * tickMs ≤ s.ptm.ticks))
  (.seq (requestRetract [a]) (setBitF SVE_TRK_STAT.RETRACT 0 a true))
def execParkTimeout (a : Fin 4) (s : State) := (parkTimeoutProg a).exec s

/-- The targets of a seek of actuator `a`: slot and logical track (R201). -/
def State.seekTargets (s : State) (a mask : Nat) : List (Nat × Int) :=
  (slotsIn a mask).map fun p => (p, (s.get SVE_SEEK_TGT.TRACK a : Int) + toSigned 8 (getBits (s.reg .SVE_SEEK_DLT a) (8 * (p % 4) + 7) (8 * (p % 4))))

/-- The error of R202 that refuses a seek, 0 for none; 0x5 also where a record's CRC fails (R53) or no map is in use (Table 2.5). -/
def State.seekError (s : State) (a : Nat) (ts : List (Nat × Int)) : Nat :=
  let arm := fun p => ((s.headOf p).getD 0) % 6
  if s.get SVE_TRK_STAT.STATE 0 ≠ trkServed then 1
  else if !s.loaded a then 2
  else if s.on SVE_ACT_STAT.SV_LOSS a then 3
  else if !(ts.all fun e => s.pathUsable e.1) then 4
  else if !s.on SVE_CMAP_CFG.ENABLE 0 || !(ts.all fun e => decide (0 ≤ e.2) && s.targetValid a (arm e.1) e.2.toNat &&
      (s.targetBands a e.2.toNat).all fun b => s.recOk b a) then 5
  else if !coReachable (ts.map fun e => s.pathTarget e.1 ((s.headOf e.1).getD 0) e.2.toNat) then 6
  else 0

/-- A record that a seek's targets use fails its CRC (R53). -/
def State.seekMapErr (s : State) (a : Nat) (ts : List (Nat × Int)) : Bool :=
  s.on SVE_CMAP_CFG.ENABLE 0 && ts.any fun e => (s.targetBands a e.2.toNat).any fun b => !s.recOk b a

/-- SEEK_GO: a write of SVE_SEEK_CMD with GO (R201 to R206). -/
def seekGoProg (a slots : Nat) (wr : Bool) : Prog := .ask fun s =>
  let ts := s.seekTargets a slots
  let err := s.seekError a ts
  all [setF SVE_SEEK_CMD.SLOTS a slots, setF SVE_SEEK_CMD.WR a (b2n wr),
    if err ≠ 0 then all [setF SVE_SEEK_STAT.ERR a err, setF SVE_SEEK_STAT.DONE a 1,
      when (err == 5 && s.seekMapErr a ts) (all [raise 224 (detail a), emit (.event "MAP_ERR" [a]),
        each ((ts.flatMap fun e => s.targetBands a e.2.toNat).filter fun b => !s.recOk b a) fun b => mapReload b a])]
    else all [
      setF SVE_SEEK_STAT.ERR a 0, setF SVE_SEEK_STAT.SETTLED a 0, setF SVE_SEEK_STAT.DROP a 0, setF SVE_SEEK_STAT.WEDGES a 0,
      each ts fun e => aim e.1 (s.pathTarget e.1 ((s.headOf e.1).getD 0) e.2.toNat),
      setSeek a fun k => { k with
        track := s.get SVE_SEEK_TGT.TRACK a, slots := slots, wr := wr
        yT := if ts.isEmpty then k.yRef else roundDiv (65536 * (ts.map (·.2)).sum) ts.length
        counts := [], settleWedges := 0, first := true },
      seekFrom a, settleCheck a]]
def execSeekGo (a : Fin 4) (slots : BitVec 4) (wr : Bool) (s : State) := (seekGoProg a slots.toNat wr).exec s

/-- LOAD: accepted only from UNLOADED and with the spindle at speed (R209). -/
def loadProg (a : Nat) : Prog := .ask fun s =>
  if s.get SVE_SEEK_STAT.STATE a = skUnloaded ∧ s.on SPN_STAT.AT_SPEED 0 then all [
    setF SVE_SEEK_STAT.ERR a 0, setF SVE_SEEK_STAT.WEDGES a 0, setSeek a fun k => { k with tries := 0 }, loadDrive a]
  else .seq (setF SVE_SEEK_STAT.ERR a 9) (setF SVE_SEEK_STAT.DONE a 1)
def execLoad (a : Fin 4) (s : State) := (loadProg a).exec s

/-- LOAD_TIMEOUT: servo not detected within LD_TMO: unload and try again, or fail (R209 step 3). -/
def loadTimeoutProg (a : Nat) : Prog := .ask fun s => when (s.get SVE_SEEK_STAT.STATE a == skLoading &&
    decide ((s.seek a).since + max 1 (s.get SVE_RAMP_CFG.LD_TMO 0) * tickMs ≤ s.ptm.ticks)) (
  if (s.seek a).tries < s.get SVE_RAMP_CFG.LD_RETRY 0 then
    all [startUnload a, setSeek a fun k => { k with tries := k.tries + 1, reload := true }]
  else all [startUnload a, setF SVE_SEEK_STAT.ERR a 8, raise (220 + a) (detail a), almEvent bSVE kFault "load failure" [a]])
def execLoadTimeout (a : Fin 4) (s : State) := (loadTimeoutProg a).exec s

/-- UNLOAD: accepted from any loaded state (R210). -/
def unloadProg (a : Nat) : Prog := whenS (fun s => s.loaded a) (startUnload a)
def execUnload (a : Fin 4) (s : State) := (unloadProg a).exec s

/-- SETTLE_TIMEOUT: slots not settled SET_TMO wedges after settle began are dropped (R208, R210 step 1). -/
def settleTimeoutProg (a : Nat) : Prog := .ask fun s =>
  when (s.seekSub a == skSettle && decide (max 1 (s.get SVE_SETTLE_CFG.SET_TMO 0) ≤ (s.seek a).settleWedges))
    (.seq (each ((slotsIn a (s.seek a).slots).filter fun p => !s.bitF SVE_SEEK_STAT.SETTLED a (p % 4)) dropSlot) (settleCheck a))
def execSettleTimeout (a : Fin 4) (s : State) := (settleTimeoutProg a).exec s

/-- Vibration feedforward of actuator `a` on a conversion (R216). -/
def vffStep (a : Nat) (v : List Int) : Prog := .ask fun s =>
  let w := fun i => toSigned 32 (s.get SVE_VFF_COEF.W (32 * a + i))
  let u := sat32 (roundDiv (((List.range 6).map fun i => w (20 + i) * v.getD i 0).sum) 32768)
  let x := Sparse.get {} s.sve.vff a
  let secs := (List.range 4).map fun k => (List.range 5).map fun j => w (5 * k + j)
  let (y, s1, s2, _) := cascade secs x.s1 x.s2 u
  let m : Int := s.get SVE_VFF_CTL.VFF_MAX a
  .upd (.sve fun z => { z with vff := Sparse.put {} z.vff a { s1, s2, out := clampI (-m) m (roundDiv y (2 ^ 14)) } })

/-- VIB_CONVERSION: the six vibration inputs, signed 16-bit; the linear ones also count towards the level of the frame (R216, R270, R584). -/
def vibProg (v : List Int) : Prog := .ask fun s => .seq
  (.upd (.spl fun x => { x with vibSq := (List.range 4).map fun i => x.vibSq.getD i 0 + (v.getD i 0).natAbs ^ 2, vibN := x.vibN + 1 })) (each ((List.range 4).filter fun a => s.on SVE_VFF_CTL.EN a) fun a => vffStep a v)
def execVibConversion (v0 v1 v2 v3 v4 v5 : BitVec 16) (s : State) := (vibProg ([v0, v1, v2, v3, v4, v5].map (·.toInt))).exec s

/-- The forewarning threshold in force (R219). -/
def State.fwThr (s : State) : Nat := max (s.get SVE_SHK_CFG.FW_THR 0) (s.get SVE_SHK_CFG.SHK_THR 0)

/-- SHOCK_EVENT_START: a comparator of input `src` is sampled asserted with level `peak`: an event begins, or goes on (R218, R219). -/
def shockStartProg (src peak : Nat) : Prog := .ask fun s =>
  when (s.bitF SVE_SHK_CFG.SHK_EN 0 src && decide (s.get SVE_SHK_CFG.SHK_THR 0 ≤ peak)) (all [
    if s.wrc.shock then setF SVE_SHK_STAT.PEAK 0 (max peak (s.get SVE_SHK_STAT.PEAK 0))
    else all [setF SVE_SHK_STAT.SHOCK 0 1, incF SVE_SHK_STAT.SHK_CNT 0, setF SVE_SHK_STAT.LAST_SRC 0 src, setF SVE_SHK_STAT.PEAK 0 peak,
      setShock true, calShock],
    .upd (.sve fun x => { x with shkSeen := s.ptm.ticks }),
    when (!s.sve.fwReported && decide (s.fwThr ≤ peak)) (.seq (.upd (.sve fun x => { x with fwReported := true })) (splForewarn peak src))])
def execShockEventStart (src : Fin 4) (peak : BitVec 8) (s : State) := (shockStartProg src peak.toNat).exec s

/-- SHOCK_EVENT_END: SHK_HOLD after the last comparator assertion (R218). -/
def shockEndProg : Prog := .ask fun s => when (s.wrc.shock && decide (s.sve.shkSeen + 800 * s.get SVE_SHK_CFG.SHK_HOLD 0 ≤ s.ptm.ticks)) (all [
  setF SVE_SHK_STAT.SHOCK 0 0, setShock false, .upd (.sve fun x => { x with fwReported := false }),
  almEvent bSVE kFault "shock" [s.get SVE_SHK_STAT.LAST_SRC 0, s.get SVE_SHK_STAT.PEAK 0]])
def execShockEventEnd (s : State) := shockEndProg.exec s

/-- The vibration guard at a frame pulse with the neighbour level `nbr` (R217). -/
def guardFrame (nbr : Nat) : Prog := .ask fun s =>
  let n := max 1 (s.get SVE_VG_CFG.VG_N 0)
  let hi := if s.get SVE_VG_CFG.VG_THR 0 ≤ nbr then s.sve.vgHigh + 1 else 0
  let lo := if s.get SVE_VG_CFG.VG_THR 0 ≤ nbr then 0 else s.sve.vgLow + 1
  if !s.on SVE_VG_CFG.EN 0 then .seq (setF SVE_SHK_STAT.GUARD 0 0) (.upd (.sve fun x => { x with vgHigh := 0, vgLow := 0 }))
  else .seq (.upd (.sve fun x => { x with vgHigh := hi, vgLow := lo, nbr := nbr }))
    (if n ≤ hi then setF SVE_SHK_STAT.GUARD 0 1 else when (decide (n ≤ lo)) (setF SVE_SHK_STAT.GUARD 0 0))

/-- SLOT_MAP_WRITE: a Keeper write of SVE_SLOT_MAP: discarded whole and reported under source 227 where invalid (Table 2.2); copied to device
configuration (R604); a lane whose slot another head enters is in service again (R103). -/
def slotMapProg (m : Master) (a v : Nat) : Prog := keeperSets m .SVE_SLOT_MAP a (fun s => s.reg .SVE_SLOT_MAP a != BitVec.ofNat 64 (v % 2 ^ 20)) (.ask fun s =>
  if !slotMapValid v then raise 227 (accessCap m 1 2 (regAddr .SVE_SLOT_MAP a))
  else .seq (setR .SVE_SLOT_MAP a (v % 2 ^ 20)) (.ask fun t => .seq (deviceCopy .SVE_SLOT_MAP a)
    (each ((pathsOf a).filter fun p => s.headOf p != t.headOf p) fun p => all [
      setF RDC_LANE_STAT.LOST (2 * p) 0, setF RDC_LANE_STAT.LOST (2 * p + 1) 0, setF RDC_HP_STAT.SR_ACT p 0,
      .upd (.rdc fun x => { x with losing := x.losing.filter fun n => n / 2 != p })])))
def execSlotMapWrite (m : Master) (a : Fin 4) (v : Word) (s : State) := (slotMapProg m a v.toNat).exec s

/-- HEAD_STATE_WRITE: a Keeper write of SVE_HEAD_STATE: discarded whole and reported where STATE is invalid or the transition is none of Table 2.1's
(R605). ABSENT is left in SERVICE, or towards the state device configuration holds, as after a block reset (R199). -/
def headStateProg (m : Master) (h v : Nat) : Prog := keeperSets m .SVE_HEAD_STATE h (fun s => s.headState h != v % 8 || nbits (s.reg .SVE_HEAD_STATE h).toNat 6 4 != nbits v 6 4) (.ask fun s =>
  let o := s.headState h
  let n := v % 8
  let reload := o == hAbsent && (s.deviceValue .SVE_HEAD_STATE h).any (· % 8 == n)
  if 5 < n ∨ (n ≠ o ∧ !headLegal (s.mode == mService) o n ∧ !reload) then raise 227 (accessCap m 1 2 (regAddr .SVE_HEAD_STATE h))
  else all [
    setF SVE_HEAD_STATE.WRT_BAD h (nbits v 6 6), setF SVE_HEAD_STATE.RDR1_BAD h (nbits v 5 5), setF SVE_HEAD_STATE.RDR0_BAD h (nbits v 4 4),
    if n = o then deviceCopy .SVE_HEAD_STATE h else if reload then .seq (setF SVE_HEAD_STATE.STATE h n) (deviceCopy .SVE_HEAD_STATE h) else headTo h n])
def execHeadStateWrite (m : Master) (h : Fin 24) (v : Word) (s : State) := (headStateProg m h v.toNat).exec s

end Sys2Proof.Machine
end

