-- ==== Sys2Proof/Machine/Modes.lean ====
section
/-! DEFINITION. Commands of the mode sequencer and the safe state (chapter 18), of the Meridian frame, and the start of a pass as the mode allows it. -/
namespace Sys2Proof.Machine

/-- The mode requests: writes of PTM_MODE_CTL with GO (R496). -/
def execRequestActive (m : Master) (s : State) := (modeWrite m { mode := mActive, ilvl := 0, ret := false }).exec s
def execRequestIdleI1 (m : Master) (s : State) := (modeWrite m { mode := mIdle, ilvl := 1, ret := false }).exec s
def execRequestIdleI2 (m : Master) (s : State) := (modeWrite m { mode := mIdle, ilvl := 2, ret := false }).exec s
def execRequestIdleI3 (m : Master) (s : State) := (modeWrite m { mode := mIdle, ilvl := 3, ret := false }).exec s
def execRequestStandby (m : Master) (s : State) := (modeWrite m { mode := mStandby, ilvl := 0, ret := false }).exec s
def execRequestRetention (m : Master) (s : State) := (modeWrite m { mode := mStandby, ilvl := 0, ret := true }).exec s
def execRequestService (m : Master) (s : State) := (modeWrite m { mode := mService, ilvl := 0, ret := false }).exec s

/-- MODE_TRANSITION_DONE: the actions of a transition are complete, and it ends in its target mode (R496). -/
def transitionDoneProg : Prog := .seq transTick (.ask fun s =>
  match s.ptm.target with
  | some r => when (s.transDone r) (transFinish r)
  | none => .skip)
def execModeTransitionDone (s : State) := transitionDoneProg.exec s

/-- STATUS: the power die reports its state and PWR_STAT (Table 17.10); after RELEASE, HOLD completes the entry into RETENTION (R501). -/
def statusProg : Prog := whenS State.cwIsUp (all [
  .ask fun s => setF PTM_CW_STAT.PD_STATE 0 s.pwr.st, statSeen,
  whenS (fun s => s.ptm.seqStep == 5 && s.pwr.st == pdHold) retentionEnter])
def execStatus (s : State) := statusProg.exec s

/-- RETENTION_RELEASE_TIMEOUT: 10 µs after RELEASE a STATUS frame still reports COMMANDED (R501). -/
def releaseTimeoutProg : Prog := whenS (fun s => s.ptm.seqStep == 5 && s.pwr.st == pdCommanded && decide (s.ptm.releaseAt + 80 ≤ s.ptm.ticks)) (all [
  setF PTM_CW_STAT.PD_STATE 0 pdCommanded, .upd (.ptm fun p => { p with seqStep := 0 }), endTransition, setF PTM_MODE_CTL.ERR 0 1])
def execRetentionReleaseTimeout (s : State) := releaseTimeoutProg.exec s

/-- SAFE_EXIT: a write of EXIT (R506): into RECOVERY, or discarded with ERR. Outside the safe state there is nothing to leave. -/
def safeExitProg (m : Master) : Prog := keeperOnly m .PTM_SAFE_CTL 0 (.ask fun s =>
  if !s.safe || s.causePersists || s.inPowerLoss then setF PTM_MODE_CTL.ERR 0 1
  else all [setSafeSource false, setF PTM_MODE_STAT.SAFE 0 0, setF PTM_MODE_STAT.MEDIA_EN 0 0, setMode mRecovery 0, modePower mRecovery 0, driveNfault])
def execSafeExit (m : Master) (s : State) := (safeExitProg m).exec s

/-- The actuator's pass, if one runs. -/
def State.passOf (s : State) (a : Nat) : Option Pass := (s.sve.pass.find? fun e => e.1 == a).map (·.2)

/-- A track's rows that firmware wants registered as an internal operation find a range: of a group's 256, 80 are kept for contexts (R325). -/
def State.innerRoom (s : State) (t : Nat) : Bool := (List.range 4).all fun g => !s.rowInGroup g (s.trackRow t) || decide (s.innerUsed g < 176)

/-- What firmware registers of a pass that has started, and what ends with it (R63, R75, R278; assumption log 49). -/
def passRegister (a : Nat) (wants : List Want) : Prog := .ask fun s => match s.passOf a with
  | none => .skip
  | some x =>
    let mine := wants.filter fun w => x.paths.contains (4 * a + w.slot.val)
    let tracks := fun k : Nat => ((mine.filter fun w => w.reg.val == k).map fun w => w.track.val).dedup
    all [.upd (.cqe fun y => { y with inner := y.inner ++ (tracks 1).filter fun t => !y.inner.contains t }),
      .upd (.sve fun y => { y with pass := y.pass.map fun e => if e.1 == a then (e.1, { e.2 with release := tracks 2 }) else e }), cqeShow]

/-- Held commands of the fast path whose rows lie in a band that a pass could not use go to application firmware: MAP_ERR, UNREACH (R53, R62, Table
12.10). -/
def bandHandOff (a : Nat) (wants : List Want) : Prog := .ask fun s =>
  let hit := fun (c : Cmd) (f : Nat → Bool) => (s.cmdRows c).any fun g => f (s.rowTrack g / 256)
  let bands := fun f : Nat → Bool => ((wants.map fun w => w.track.val / 256).filter f).dedup
  let bad := bands fun b => (s.targetBands a (256 * b)).any fun x => !s.recOk x a
  let far := bands fun b => s.unreachBand a b
  each (s.cqe.cmds.filter fun c => c.io && c.want.isNone && !c.handed && (c.kind == kdRead || c.kind == kdWrite)) fun c =>
    if hit c fun b => bad.contains b then cmdHandOff c.ctag 2 else when (hit c fun b => far.contains b) (cmdHandOff c.ctag 3)

/-- PASS_START: media work of an issuer (R495): in IDLE and STANDBY it wakes the drive and waits. Internal operations of firmware that find no range
wait (R325). -/
def passRequestProg (a : Nat) (firmware : Bool) (wants : List Want) (waiting : Option Nat) : Prog := .ask fun s =>
  let now := wants.filter fun w => w.reg.val != 1 || s.cqe.inner.contains w.track.val || s.innerRoom w.track.val
  if s.mode = mIdle ∨ s.mode = mStandby then mediaWake
  else when (s.mediaMode && s.mayPass a firmware) (all [
    when (!firmware) (bandHandOff a now), passStartProg a firmware now waiting, when firmware (passRegister a now)])
def execPassStart (a : Fin 4) (firmware : Bool) (wants : List Want) (waiting : Option Nat) (s : State) := (passRequestProg a firmware wants waiting).exec s

/-- PASS_END; registrations that end with the pass are released (R325). -/
def execPassEnd (a : Fin 4) (waiting : Option Nat) (s : State) := (Prog.seq
  (.upd (.cqe fun x => { x with inner := x.inner.filter fun t => !((s.passOf a).elim [] (·.release)).contains t }))
  (.seq (passEndProg a waiting) cqeShow)).exec s

/-- n in 1/256 rpm (R233): the electrical angle advanced over the frame, in 2^-32 revolutions, over POLES and the frame's `len` ticks. -/
def State.speedOf (s : State) (turned len : Nat) : Nat :=
  min (2 ^ SPN_STAT.SPEED.width - 1) (roundDiv (256 * 480000000 * turned : Nat) (2 ^ 32 * max 1 (s.get SPN_MOTOR.POLES 0) * max 1 len : Nat)).toNat

/-- FRAME_PULSE: the pulse of a Meridian frame, with the speed measured and the mechanical angle (R217, R233, R238, R247, R260, R345). The Orrery acts on
REF_LOCK as it stood before this tick (R239). -/
def framePulseProg (speed thetaM : Nat) : Prog := .ask fun s => all [
  splFrame, spnFrame speed, .ask fun t => guardFrame (t.get SPL_VIB.NBR 0), orrFrame (s.on SPL_STAT.REF_LOCK 0) thetaM, cqeFrame]
def execFramePulse (turned : BitVec 34) (len : BitVec 16) (thetaM : BitVec 32) (s : State) :=
  (Prog.ask fun s => framePulseProg (s.speedOf turned.toNat len.toNat) thetaM.toNat).exec s

end Sys2Proof.Machine
end

