-- ==== Sys2Proof/Machine/Svc.lean ====
section
/-! DEFINITION. Commands of memory integrity and Survey (chapter 19). -/
namespace Sys2Proof.Machine

/-- LEAK ms of ticks since the instance's last leak (R517, Table 19.2). -/
def State.leakDue (s : State) (i : Nat) : Bool :=
  decide (Sparse.get s.ptm.bootAt s.svc.leakAt i + clampN 1 3600000 (s.get SVC_LB_CFG.LEAK i) * tickMs ≤ s.ptm.ticks)

/-- BUCKET_LEAK: LEAK ms have passed (R517). -/
def bucketLeakProg (i : Nat) : Prog := .ask fun s =>
  when (s.on SVC_LB_CFG.EN i && s.leakDue i) (.seq (.upd (.svc fun x => { x with leakAt := Sparse.put s.ptm.bootAt x.leakAt i s.ptm.ticks }))
    (setF SVC_LB_STAT.COUNT i (s.get SVC_LB_STAT.COUNT i - 1)))
def execBucketLeak (inst : Fin 256) (s : State) := (bucketLeakProg inst).exec s

/-- An uncorrectable byte, word or half that patrol finds. -/
def patrolUe (src : Nat) (c : FCap) : Prog := .seq (incF SVC_PTL_STAT.UE_CNT 0) (raise src c)

/-- An SRAM byte as FCU captures it: the instance and the byte offset; SVC's master ID where it is the one that reads (R515, R534). -/
def sramCap (i off : Nat) : FCap := { mid := Master.svc.id, typ := 15, size := 15, addr := i <<< 24 ||| off }

/-- PATROL_DRAM_READ: the line under the cursor; one that fails in both halves, as with a poisoned check line, is reported once (R519). -/
def patrolDramProg (o0 o1 : Half) : Prog := .ask fun s =>
  let base := s.get SVC_PTL_BASE.LINE 0
  let l := base + s.svc.drCursor
  when (s.svcRuns && s.on SVC_PTL_CFG.DR_EN 0 && decide (l ≤ s.get SVC_PTL_LIMIT.LINE 0)) (all [
    when (s.dramOk (64 * l) 64 && !((s.cline l).any (·.dirty)) && !s.inEvb l)
      (.seq (checkRead l) (each [(2 * l, o0), (2 * l + 1, o1)] fun (h, o) => .ask fun t => match t.halfOf h o with
        | .clean => .skip
        | .corrected => .seq (halfCorrected h) (when ((t.cline l).isNone) (lineOut l))
        | .uncorrectable => .seq (poisonHalf h) (if h % 2 = 1 ∧ t.bmu.poison.contains (h - 1) then incF SVC_PTL_STAT.UE_CNT 0
            else patrolUe 28 (accessCap .svc 0 6 (64 * l))))),
    if l = s.get SVC_PTL_LIMIT.LINE 0 then .seq (.upd (.svc fun x => { x with drCursor := 0 })) (incF SVC_PTL_STAT.DR_PASS 0)
    else .upd (.svc fun x => { x with drCursor := x.drCursor + 1 })])
def execPatrolDramRead (o0 o1 : Half) (s : State) := (patrolDramProg o0 o1).exec s

/-- An uncorrectable SRAM byte by where it lies (R515); a dirty L2 line is written to DRAM with the half's poison. -/
def sramUe (i off : Nat) : SramUe → Prog
  | .cleanLine => bucketCorrect i none
  | .dirtyCacheLine h => all [when (decide (0x15 ≤ i ∧ i ≤ 0x1C)) (cmoClean (h / 2) 1), poisonHalf h, patrolUe 25 (sramCap i off)]
  | .elsewhere => patrolUe 25 (sramCap i off)

/-- The SRAM sweep's next place: 64 bytes on, or the next powered instance; a pass ends after the last (R520). -/
def srAdvance : Prog := .ask fun s =>
  if s.svc.srRow + 1 < 4 * instRows s.svc.srInst then .upd (.svc fun x => { x with srRow := x.srRow + 1 })
  else match (List.range sramInstances).find? fun k => decide (s.svc.srInst < k) && s.instOn k with
    | some k => .upd (.svc fun x => { x with srInst := k, srRow := 0 })
    | none => .seq (.upd (.svc fun x => { x with srInst := 0, srRow := 0 })) (incF SVC_PTL_STAT.SR_PASS 0)

/-- PATROL_SRAM_READ: 64 bytes; the bytes corrected, and an uncorrectable one (R520). A row under a slice is skipped. -/
def patrolSramProg (corrected : Nat) (ue : Option (Nat × SramUe)) : Prog := .ask fun s =>
  let i := s.svc.srInst
  let r := s.svc.srRow / 4
  when (s.svcRuns && s.on SVC_PTL_CFG.SR_EN 0) (.seq
    (when (s.instOn i && !(s.svc.locked && s.svyRow == (i, r))) (.seq
      (each (List.range corrected) fun _ => bucketCorrect i (some r))
      (match ue with
        | some (b, w) => sramUe i (64 * s.svc.srRow + b) w
        | none => .skip)))
    srAdvance)
def execPatrolSramRead (corrected : Fin 65) (ue : Option (Fin 64 × SramUe)) (s : State) :=
  (patrolSramProg corrected (ue.map fun e => (e.1.val, e.2))).exec s

/-- Words of the eMRAM. -/
def emramWords : Nat := 0x400000

/-- PATROL_EMRAM_READ: one word; a corrected word is rewritten with the same data (R521). -/
def patrolEmramProg (o : Half) : Prog := .ask fun s => when (s.svcRuns && s.on SVC_PTL_CFG.MR_EN 0) (.seq
  (match o with
    | .clean => .skip
    | .corrected => .seq (bucketCorrect emramInst none) (emit (.event "eMRAM word rewritten" [0x40000000 + 8 * s.svc.mrCursor]))
    | .uncorrectable => patrolUe 26 (accessCap .svc 0 3 (0x40000000 + 8 * s.svc.mrCursor)))
  (if s.svc.mrCursor + 1 < emramWords then .upd (.svc fun x => { x with mrCursor := x.mrCursor + 1 })
   else .seq (.upd (.svc fun x => { x with mrCursor := 0 })) (incF SVC_PTL_STAT.MR_PASS 0)))
def execPatrolEmramRead (o : Half) (s : State) := (patrolEmramProg o).exec s

/-- SLICE_INT after the last slice ended (R522, Table 19.4). -/
def State.sliceDue (s : State) : Bool := decide (s.svc.sliceEnd + 80 * max 1 (s.get SVC_SVY_CFG.SLICE_INT 0) ≤ s.ptm.ticks)

/-- A slice is over: its window is unlocked. -/
def sliceOver : Prog := .ask fun s => .upd (.svc fun x => { x with locked := false, sliceEnd := s.ptm.ticks })

/-- SURVEY_SLICE_START: the next row is locked and saved; an uncorrectable byte met while saving ends the slice without a test (R522, R525). -/
def sliceStartProg (bad : Option Nat) : Prog := .ask fun s =>
  let (i0, r0) := s.svyRow
  when (!s.svc.locked && s.svcRuns && !s.safe && (s.svc.full || (s.on SVC_SVY_CFG.EN 0 && s.sliceDue))) (match s.svyNext i0 r0 with
    | none => .skip
    | some (i, r) => all [
      .upd (.svc fun x => if s.svc.full then { x with fInst := i, fRow := r } else { x with svyInst := i, svyRow := r }),
      setF SVC_SVY_STAT.INST 0 i, when (!s.svc.full) (setF SVC_SVY_STAT.STATE 0 1),
      match bad with
      | some b => .seq (raise 25 (sramCap i (256 * r + b))) (.seq sliceOver svyAdvance)
      | none => .upd (.svc fun x => { x with locked := true, sliceAt := s.ptm.ticks })])
def execSurveySliceStart (bad : Option (Fin 256)) (s : State) := (sliceStartProg (bad.map (·.val))).exec s

/-- SURVEY_SLICE_END: the window is restored and unlocked; a row that failed its march leaves a record (R522, R526). -/
def sliceEndProg (f : Option RowFail) : Prog := .ask fun s => when s.svc.locked (all [
  sliceOver, svyAdvance,
  match f with
  | some f => svyRecord s.svyRow.1 s.svyRow.2 f
  | none => .skip, svyStopped])
def execSurveySliceEnd (f : Option RowFail) (s : State) := (sliceEndProg f).exec s

/-- A slice abandons itself; a row abandoned ABANDON_MAX times in succession is skipped for the pass (R523). -/
def sliceAbandon : Prog := .ask fun s => when s.svc.locked (all [
  sliceOver, .upd (.svc fun x => { x with abandons := x.abandons + 1 }),
  when (decide (max 1 (s.get SVC_SVY_CFG.ABANDON_MAX 0) ≤ s.svc.abandons + 1)) (.seq (incF SVC_SVY_STAT.SKIP_CNT 0) svyAdvance), svyStopped])

/-- SURVEY_SLICE_ABANDON: a request inside the locked window (R523). -/
def execSurveySliceAbandon (s : State) := sliceAbandon.exec s
/-- SURVEY_BUDGET_EXPIRY: the slice has run BUDGET (R523). -/
def State.budgetOver (s : State) : Bool := decide (s.svc.sliceAt + 2 * clampN 2 40 (s.get SVC_SVY_CFG.BUDGET 0) ≤ s.ptm.ticks)
def execSurveyBudgetExpiry (s : State) := (whenS State.budgetOver sliceAbandon).exec s

/-- REPAIR_GO: a Keeper write of SVC_REPAIR with GO maps the row onto the next free spare row (R528). -/
def repairProg (m : Master) (i r : Nat) : Prog := keeperOnly m .SVC_REPAIR 0 (.ask fun s =>
  let free := s.get SVC_INST_STAT.SPARE_FREE i
  let left := s.svc.failedRows.filter (· != (i, r))
  let n := (left.filter fun e => e.1 == i).length
  all [setF SVC_REPAIR.INST 0 i, setF SVC_REPAIR.ROW 0 r,
    if free = 0 then setF SVC_REPAIR.ERR 0 1
    else all [
      setF SVC_INST_STAT.SPARE_FREE i (free - 1), incF SVC_INST_STAT.REPAIRED i, setF SVC_INST_STAT.FAILED_ROWS i (min 255 n),
      setF SVC_INST_STAT.HEALTH i (if n = 0 then 1 else 2),
      .upd (.svc fun x => { x with failedRows := left, repairs := (i, r) :: x.repairs }),
      .upd (.bmu fun b => { b with excluded := b.excluded.filter fun e => !(e.1 + 0x1D == i && e.2 == r)
                                   checkOff := if i = 0x2D then b.checkOff.filter (· != r) else b.checkOff })]])
def execRepairGo (m : Master) (inst : Fin 256) (row : BitVec 16) (s : State) := (repairProg m inst row.toNat).exec s

end Sys2Proof.Machine
end

