-- ==== Sys2Proof/Machine/Wrc.lean ====
section
/-! DEFINITION. Commands of the write channel and energy assist (chapter 5). -/
namespace Sys2Proof.Machine

/-- WTAB_LOAD_DONE: the load of writer `w`'s parameter entry ends; `bad` for a bus error or an uncorrectable DRAM error. A failed load keeps the
live set; with an empty tag the writer writes nothing in the pass (R154, R157). A trim not yet written back stays in use (R173). -/
def wtabLoadProg (w : Nat) (bad : Bool) : Prog := .ask fun s => when (s.writer w).loading (
  let x := s.writer w
  let a := s.wtabAddr x.head x.zone
  all [
    setWriter w fun y => { y with loading := false },
    (match s.loadFault .wrc a 64 with
      | some src => faultLine .wrc atRead a 64 src
      | none => .skip),
    if bad || (s.loadFault .wrc a 64).isSome || s.poisoned a 64 || !s.crcOk a 15 || !nbit (s.memW (a + 32)) 31 then
      .seq (setF WRC_WR_STAT.WT_ERR w 1) (when x.liveSet.isSome (writerFrames w))
    else all [
      setWriter w fun y => { y with liveSet := some (x.head, x.zone), params := s.memWs a 16, drvInit := nbits (s.memW (a + 28)) 9 0 },
      (match s.wrc.trim.find? fun e => e.1 == 128 * x.head + x.zone with
        | some e => setTrim w e.2
        | none => .skip),
      writerFrames w]])
def execWtabLoadDone (w : Fin 8) (bad : Bool) (s : State) := (wtabLoadProg w bad).exec s

/-- AST_ID: the assist type of each arm position (R159). -/
def astIdProg (a payload : Nat) : Prog := each (List.range 6) fun k =>
  setF WRC_HEAD_CFG.ATYPE (6 * a + k) (nbits payload (2 * k + 1) (2 * k))
def execAstId (a : Fin 4) (payload : BitVec 12) (s : State) := (astIdProg a payload.toNat).exec s

/-- A head has energy assist (R162). -/
def State.hasAssist (s : State) (h : Nat) : Bool := s.get WRC_HEAD_CFG.ATYPE h == 1 || s.get WRC_HEAD_CFG.ATYPE h == 2

/-- One monitor sample of writer `w` (R162, R163). -/
def monSample (w m : Nat) : Prog := .ask fun s =>
  let x := s.writer w
  let pSp := s.wSetPoint w
  let tol := s.get WRC_CFG.MON_TOL 0
  let dMax := nbits (s.wParam w 5) 25 16
  let d := assistDrive (s.get WRC_WR_STAT.DRV w) pSp m (clampN 1 8 (s.get WRC_CFG.KA 0)) dMax
  let hi := if pSp + pSp / 4 < m then x.monHigh + 1 else 0
  let lo := if s.get WRC_WR_STAT.DRV w = dMax ∧ m + tol < pSp then x.monLow + 1 else 0
  all [setF WRC_WR_STAT.MON w m, setF WRC_WR_STAT.DRV w d, astSet (w / 2) (s.wArm w) d,
    setWriter w fun y => { y with monHigh := hi, monLow := lo },
    if 2 ≤ hi then assistFault w true else when (decide (8 ≤ lo)) (assistFault w false)]

/-- AST_MON: an assist monitor sample of an arm; ignored over a servo gate (R162). -/
def astMonProg (a arm m : Nat) (gate : Bool) : Prog := .ask fun s =>
  each (writersOfAct a) fun w => when (!gate && (s.writer w).pass && s.wArm w == arm && s.hasAssist (s.writer w).head && s.on WRC_WR_STAT.AST_ON w)
    (monSample w m)
def execAstMon (a : Fin 4) (arm : Fin 6) (m : BitVec 10) (gate : Bool) (s : State) := (astMonProg a arm m.toNat gate).exec s

/-- On assist heads the last monitor sample lies within MON_TOL of the set-point, and AST_ON has been acknowledged (Table 5.2). -/
def State.assistReady (s : State) (w : Nat) : Bool :=
  let m := s.get WRC_WR_STAT.MON w
  let tol := s.get WRC_CFG.MON_TOL 0
  !s.hasAssist (s.writer w).head || s.on WRC_WR_STAT.AST_ON w && decide (m ≤ s.wSetPoint w + tol ∧ s.wSetPoint w ≤ m + tol) &&
    !(s.rdc.cmds.any fun c => c.act == w / 2 && c.typ == 0x24 && palArm 0x24 c.payload == s.wArm w)

/-- The gate of writer `w` may open at this preamble (R152 to R154, R164, R169, R170): its clock has its rate, its frames are acknowledged, the sector's bytes
are held; the fast path writes no member of a row that has an entry in the ring. -/
def State.mayOpen (s : State) (w row j tag : Nat) : Bool :=
  let x := s.writer w
  x.pass && !s.passEnding (w / 2) && x.ready && x.rate != 0 && s.domainOn (48 + w) && (s.wrc.buffer.any fun h => h.row == row && h.j == j && h.tag == tag && h.bytes.length == 4108) &&
    s.sve.active.contains x.path && s.settled x.path && s.gateAllowed w && s.assistReady w && !(s.fastPass (w / 2) && s.ringHas row)

/-- The PCOMP of a class, in 1/64 bit period (R156, Table 5.5). -/
def State.pcomp (s : State) (w c : Nat) : Int := toSigned 6 (nbits (s.wParam w (c / 4)) (8 * (c % 4) + 5) (8 * (c % 4)))

/-- Transitions of a sector's bits in 1/64 bit period, moved by their class up to the splice gap (R156): `k` the position, `d` the bit before, `rb` its run. -/
def transitionsFrom (pcomp : Nat → Int) : Nat → Bool → Nat → List Bool → List Nat
  | _, _, _, [] => []
  | k, d, rb, b :: l =>
    if b = d then transitionsFrom pcomp (k + 1) b (min 4 (rb + 1)) l
    else
      let ra := 1 + ((l.take 3).takeWhile (· == b)).length
      ((64 * k : Int) + if k < 37296 then pcomp (4 * (rb - 1) + (ra - 1)) else 0).toNat :: transitionsFrom pcomp (k + 1) b 1 l
def transitions (pcomp : Nat → Int) : List Bool → List Nat
  | [] => []
  | b :: l => transitionsFrom pcomp 1 b 1 l

/-- What WRO carries while the gate is open: the writer, row and member, the rate of the write clock, and the transitions of the recorded sector (R116 to R118,
R152, R156). -/
def State.writeData (s : State) (w row j : Nat) : List Nat :=
  match s.wrc.buffer.find? fun h => h.row == row && h.j == j with
  | some h => [w, row, j, (s.writer w).rate] ++ transitions (s.pcomp w) (sectorChannelBits (sectorBytes row j h.bytes))
  | none => []

/-- WRITE_SECTOR_START: a write sector's preamble; the gate opens if it may, else the sector stays queued. -/
def writeStartProg (w row j tag : Nat) : Prog := .seq (wrcBoundary w) (.ask fun s =>
  let x := s.writer w
  let info : SecInfo := { row, j, path := x.path, head := x.head, tag, track := ((s.tgt x.path).target + (s.tgt x.path).trkOfs).toNat }
  if s.mayOpen w row j tag then all [
    setF WRC_WR_STAT.GATE w 1, setF WRC_WR_STAT.PWR w wpActive,
    setWriter w fun y => { y with sector := some info, queue := y.queue.filter (· != info) }, send "WRO" "data" (s.writeData w row j)]
  else when x.pass (setWriter w fun y => { y with queue := if y.queue.contains info then y.queue else y.queue ++ [info] }))
def execWriteSectorStart (a : Fin 4) (i : Fin 2) (row : Fin (2 ^ 40)) (j : Fin 16) (tag : Word) (s : State) :=
  (writeStartProg (2 * a + i) row j tag.toNat).exec s

/-- A completed member enters its row's progress; its rewrite settles its NEIGHBOUR entry (R171). -/
def rowDone (row j : Nat) : Prog := .ask fun s => .upd (.wrc fun z => { z with
  rows := if z.rows.any fun r => r.row == row then
      z.rows.map fun r => if r.row = row then { r with
          done := if r.done.contains j then r.done else r.done ++ [j]
          lastEnd := s.time, neighbour := r.neighbour.filter (· != j) } else r
    else z.rows ++ [{ row, done := [j], lastEnd := s.time, neighbour := [] }] })

/-- WRITE_SECTOR_END: a written sector's postamble ends (R158, R165, R171). -/
def writeEndProg (w : Nat) : Prog := .ask fun s =>
  match (s.writer w).sector with
  | none => .skip
  | some x => all [
      setF WRC_WR_STAT.GATE w 0, setF WRC_WR_STAT.PWR w wpReady, send "WRO" "squelch" [w],
      setWriter w fun y => { y with sector := none, last := some (x, s.time), completed := true, drvInit := s.get WRC_WR_STAT.DRV w },
      bufferDrop x.row x.j, rowDone x.row x.j, powerLossAfter w]
def execWriteSectorEnd (w : Fin 8) (s : State) := (writeEndProg w).exec s

/-- INHIBIT_SET: applies in the tick in which it is sampled; an open gate closes with cause INHIBIT (R155). -/
def inhibitSetProg (w : Nat) : Prog := .seq (setF WRC_WR_CTL.INHIBIT w 1) (closeGates [w] cInhibit)
def execInhibitSet (w : Fin 8) (s : State) := (inhibitSetProg w).exec s

/-- INHIBIT_CLEAR: applies at once; the gate may open at a later preamble (R155, R164). -/
def inhibitClearProg (w : Nat) : Prog := .seq (setF WRC_WR_CTL.INHIBIT w 0) (noteCleared (kWriter w))
def execInhibitClear (w : Fin 8) (s : State) := (inhibitClearProg w).exec s

end Sys2Proof.Machine
end

