-- ==== Sys2Proof/Machine/RegAccess.lean ====
section
/-! DEFINITION. Register accesses: where a register lies, what a read returns and clears, what a write does, 64-bit accesses, and accesses over the
Causeway (R9 to R16, R23 to R26, R469, R476, R589 to R603). -/
namespace Sys2Proof.Machine

/-- The element and the remainder that a byte offset from element 0 names; none beyond the array (R10, R591). -/
def elemAt : List (Nat × Nat) → Nat → Option (Nat × Nat)
  | [], o => some (0, o)
  | (st, n) :: ds, o => if o / st < n then (elemAt ds (o % st)).map fun e => (o / st * dimSize ds + e.1, e.2) else none

/-- The word of register `r` at an offset in its block: its element, and whether it is the high word of a 64-bit register. -/
def wordOf (r : RegName) (off : Nat) : Option (RegName × Nat × Bool) :=
  let g := regInfo r
  if off < g.offset then none
  else match elemAt g.dims (off - g.offset) with
    | some (i, 0) => some (r, i, false)
    | some (i, 4) => if g.wide then some (r, i, true) else none
    | _ => none

/-- The register word at an offset in register space (R9, R589, Table 23.3); none where no register is defined. -/
def regWordAt (a : Nat) : Option (RegName × Nat × Bool) :=
  let b := a / 0x100000
  let off := a % 0x100000
  if off = 0xFFF00 then some (.BLK_ID, b, false)
  else if off = 0xFFF04 then some (.BLK_VER, b, false)
  else if off = 0xFFF08 then some (.BLK_IRQ, b, false)
  else if off = 0xFFF0C then some (.BLK_LOCK, b, false)
  else (regsOfBlock b).findSome? fun r => wordOf r off

/-- A common register (R593). -/
def commonReg (r : RegName) : Bool := r == .BLK_ID || r == .BLK_VER || r == .BLK_IRQ || r == .BLK_LOCK

/-- The FCU source of an access that its register does not answer: its island or sample-clock domain is powered down (R24, R603), or the Causeway is
down (R25). -/
def State.regDown (s : State) (r : RegName) (i : Nat) : Option Nat :=
  let b := (regInfo r).block
  if commonReg r then none
  else if b = 14 then (if s.cwIsUp then none else some 19)
  else if b = 10 then
    if [RegName.RDC_LANE_AFE, .RDC_LANE_SKEW, .RDC_LANE_STAT].contains r && !s.domainOn (32 + i / 2) then some 18 else none
  else if b = 11 then none
  else match blockIsland b with
    | some d => if s.islandOn d then none else some 18
    | none => none

/-- Interrupt sources of a block (Table 23.1). -/
def blockSources (b : Nat) : List Nat :=
  let span (lo n : Nat) := (List.range n).map (lo + ·)
  match b with
  | 0 => [45] | 1 => [43, 44] | 2 => [46] | 4 => span 48 13 | 5 => [32, 33] | 6 => [34] | 8 => span 37 6 | 9 => [35] | 10 => span 1 16 | 11 => span 17 9
  | 12 => span 26 5 | 13 => [31] | 15 => [36] | _ => []

/-- BLK_IRQ (Table 23.4, R595); in PCX the hardware timer and software interrupts count for ANY. -/
def State.blkIrq (s : State) (b : Nat) : Nat :=
  let down := match blockIsland b with
    | some d => !s.islandOn d
    | none => false
  if down then 0
  else
    let lines := ((blockSources b).zipIdx.filter fun e => s.irqLine e.1).foldl (fun w e => w ||| 2 ^ e.2) 0
    let any := lines != 0 || (b == 4 && (List.range 5).any fun h => s.on PCX_MSIP.MSIP h || s.timerPending h)
    b2n any <<< 31 ||| lines

/-- The lock bit of a block (R594). -/
def State.lockBit (s : State) (b : Nat) : Bool :=
  if b = 5 then s.on HIF_CFG.LOCK 0 else if b = 4 then s.on PCX_CFG.LOCK 0 else s.on BLK_LOCK.LOCK b

/-- The head of a log that reads as a FIFO: the handshake log, the drift log, MPC's event log (R61, R289, R482). -/
def State.hswHead (s : State) : Nat := match s.ptm.hsw with
  | (t, b, a) :: _ => (t % 2 ^ 32) <<< 32 ||| 1 <<< 31 ||| (b % 64) <<< 8 ||| a % 64
  | [] => 0
def State.driftHead (s : State) : Nat := match s.sve.log with
  | (kind, h, band, obs, mb) :: _ => (ofSigned 12 mb <<< 12 ||| ofSigned 12 obs) <<< 32 ||| 1 <<< 31 ||| kind <<< 29 ||| (h % 32) <<< 24 ||| band % 65536
  | [] => 0

/-- The write-only fields of a value read as 0 (Table 0.3). -/
def hideWo (r : RegName) (v : DWord) : Nat :=
  ((regFields r).foldl (fun w f => if f.acc = .wo ∨ f.acc = .wok then setBits w f.hi f.lo 0 else w) v).toNat

/-- What a channel's register shows a master (R442, R443). -/
def State.ferryValue (s : State) (m : Master) (n : Nat) (v : Nat) : Nat := if s.ferryReader m n then v else 0

/-- A word of a result slot: before DONE, words 1 to 63 are free (R451). -/
def State.resultWord (s : State) (i v : Nat) : Nat := if i % 64 = 0 ∨ s.fySt (i / 64) = fyDone then v else Config.freeValue s.freeCtr % 2 ^ 32

/-- The value of a register as master `m` reads it. -/
def State.regValue (s : State) (m : Master) (r : RegName) (i : Nat) : Nat :=
  let v := hideWo r (s.reg r i)
  match r with
  | .BLK_IRQ => s.blkIrq i
  | .BLK_VER => if i = 14 then 0x84160000 ||| (s.get PTM_CW_STAT.PD_VER 0 / 16) <<< 8 ||| s.get PTM_CW_STAT.PD_VER 0 % 16 else v
  | .BLK_LOCK => s.get BLK_LOCK.RWK_DENY i <<< 8 ||| b2n (s.lockBit i)
  | .PTM_GPIO_DIR => if s.on HIF_CFG.PERST_EN 0 then v / 4 * 4 else v
  | .PTM_GPIO_IN => s.gpioIn
  | .PTM_HSW_LOG => s.hswHead
  | .ALM_CURSOR => ((s.almReaderOf m).map fun k => (s.almReader k).cursor).getD 0
  | .ALM_WIN => ((s.almReaderOf m).map fun k => s.almWord k i).getD 0
  | .ALM_STAT => setNBit v 29 ((s.almReaderOf m).any fun k => (s.almReader k).skip)
  | .PCX_CMO_ADDR => if m.isCore then (s.cmo m).addr else 0
  | .PCX_CMO_CTL => if m.isCore then
        let c := s.cmo m
        b2n c.busy <<< 30 ||| c.op <<< 28 ||| b2n c.err <<< 27 ||| c.lines
      else 0
  | .PCX_IRQ_SRC => setNBit v 30 (s.irqPending i)
  | .PCX_IRQ_THR => if m = targetMaster i then v else 0
  | .PCX_IRQ_CLAIM => if m = targetMaster i then s.irqBest i else 0
  | .PCX_FRY_REQ => s.ferryValue m (i / 64) v
  | .PCX_FRY_RES => s.ferryValue m (i / 64) (s.resultWord i v)
  | .PCX_FRY_DB | .PCX_FRY_STAT | .PCX_FRY_KCTL | .PCX_FRY_CFG => s.ferryValue m i v
  | .DMF_CH_CFG => if s.fastChan i then (setBits (BitVec.ofNat 64 v) 31 29 5).toNat else v
  | .MPC_EVT_LOG => s.mpc.log.headD 0
  | .RDC_NP_DATA => s.npShown
  | .SVE_DRIFT_LOG => s.driftHead
  | .SVE_WEDGE_STAT => setNBit v 30 (s.demodulates i)
  | _ => v

/-- What a read of a word does, beside clearing RC fields: logs that pop, the Almanac window, a claim, the noise-predictor address. -/
def regReadFx (m : Master) (r : RegName) (i : Nat) : Prog := .ask fun s =>
  match r with
  | .PTM_GPIO_IN | .PCX_FRY_RES => .upd .free
  | .PTM_HSW_LOG => .upd (.ptm fun p => { p with hsw := p.hsw.tail })
  | .ALM_WIN => (match s.almReaderOf m with
      | some k => if i = 0 then windowLatch k else if i = 7 then windowAdvance k else .skip
      | none => .skip)
  | .PCX_IRQ_CLAIM => when (m == targetMaster i && s.irqBest i != 0) (setF PCX_IRQ_SRC.CLAIMED (s.irqBest i) 1)
  | .MPC_EVT_LOG => .upd (.mpc fun x => { x with log := x.log.tail })
  | .RDC_NP_DATA => npAdvance
  | .SVE_DRIFT_LOG => driftPop
  | _ => each ((regFields r).filter fun f => f.acc == .rc) fun f => setF f i 0

/-- A field after a write of `v` by a master: `k` the Keeper's, `locked` the block's lock bit (Table 0.3). -/
def writtenField (acc : Acc) (k locked : Bool) (old v : Nat) : Nat :=
  match acc with
  | .rw => v
  | .rwk => if k then v else old
  | .rwl => if locked then old else v
  | .w1c => old - (old &&& v)
  | .w1s => old ||| v
  | .ro | .wo | .wok | .rc => old

/-- A register after a write. -/
def written (r : RegName) (k locked : Bool) (old : DWord) (v : Nat) : DWord :=
  (regFields r).foldl (fun w f => setBits w f.hi f.lo (writtenField f.acc k locked (getBits old f.hi f.lo) (nbits v f.hi f.lo))) old

/-- Bits that act when written 1 and read back what is pending: a 0 changes nothing (Tables 6.4, 8.4, 8.9). -/
def actsOnOne (f : Fld) : Bool := f == SVE_CLU_CTL.COMMIT || f == SPN_COMMIT.COMMIT || f == SPN_STAT.STOP || f == SPN_STAT.START

/-- A write by another master than the Keeper is reported: in a register that is the Keeper's alone always (R14), in another where it would change a field
that only the Keeper may (R596). -/
def State.writeDenied (s : State) (m : Master) (r : RegName) (i v : Nat) : Bool := m != .keeper && (allKeeper r || (regFields r).any fun f =>
  let old := nbits (s.regValue m r i) f.hi f.lo
  let new := nbits v f.hi f.lo
  match f.acc with
  | .rwk => if actsOnOne f then new - (new &&& old) != 0 else new != old
  | .wok => decide (1 < f.width) || new == 1
  | _ => false)

/-- A write field by field (R14), reported where R596 says so. -/
def plainWrite (m : Master) (r : RegName) (i v : Nat) : Prog := .ask fun s => .seq (when (s.writeDenied m r i v) (deny m r i))
  (.ask fun t => .upd (.reg r i (written r (m == .keeper) (t.lockBit (regInfo r).block) (t.reg r i) v)))

/-- A write and then, if it is the Keeper's, a command of it (R597). -/
def plainThen (m : Master) (r : RegName) (i v : Nat) (p : Prog) : Prog := .seq (plainWrite m r i v) (when (m == .keeper) p)

/-- A write that must be the Keeper's to have any effect. -/
def deniedOr (m : Master) (r : RegName) (i v : Nat) (p : Prog) : Prog := .ask fun s => if m = .keeper then p else when (s.writeDenied m r i v) (deny m r i)

/-- A value with some fields as the register has them. -/
def State.keepF (s : State) (fs : List Fld) (i v : Nat) : Nat := (fs.foldl (fun w f => setBits w f.hi f.lo (s.get f i)) (BitVec.ofNat 64 v)).toNat

/-- A field of a written value. -/
def wf (f : Fld) (v : Nat) : Nat := nbits v f.hi f.lo
def wbit (f : Fld) (v : Nat) : Bool := nbit v f.lo

/-- FCU's configuration registers as R541 numbers them: a Keeper's rewrite brings the two copies together, but for a persistent fault. -/
def fcuRewritten (k : Nat) : Prog := .ask fun s => .seq
  (when (!s.fcu.persistent) (.upd (.fcu fun x => { x with disagree := x.disagree.filter (· != k) }))) driveNfault

/-- A write to a block of always-on and power management (PTM). -/
def writePtm (m : Master) (r : RegName) (i v : Nat) : Prog := .ask fun s =>
  match r with
  | .PTM_MODE_CTL => plainThen m r i v (when (wbit PTM_MODE_CTL.GO v)
      (modeRequest { mode := wf PTM_MODE_CTL.REQ_MODE v, ilvl := wf PTM_MODE_CTL.REQ_ILVL v, ret := wbit PTM_MODE_CTL.RET v }))
  | .PTM_SAFE_CTL => plainThen m r i v (all [driveNfault, if wbit PTM_SAFE_CTL.ENTER v then enterSafe 7 else when (wbit PTM_SAFE_CTL.EXIT v) (safeExitProg m)])
  | .PTM_CAP_CFG => plainThen m r i v concurrencyChange
  | .PTM_AVS_CFG => plainThen m r i v (.seq avsCfgWritten concurrencyChange)
  | .PTM_THERM => plainThen m r i v throttleCheck
  | .PTM_CW_CTL => plainThen m r i (if s.mode = mService then v else s.keepF [PTM_CW_CTL.HB_STOP] 0 v) (when (wbit PTM_CW_CTL.RESUME v) resumeSend)
  | .PTM_GPIO_DIR => plainWrite m r i (if s.on HIF_CFG.PERST_EN 0 then v / 4 * 4 + s.get PTM_GPIO_DIR.DIR 0 % 4 else v)
  | _ => plainWrite m r i v

/-- A write to FCU. -/
def writeFcu (m : Master) (r : RegName) (i v : Nat) : Prog :=
  match r with
  | .FCU_SRC_CFG => when (!sourceReserved i) (plainThen m r i v (fcuRewritten i))
  | .FCU_CFG => plainThen m r i v (fcuRewritten 384)
  | .FCU_SRC_STAT => plainThen m r i v (when (wbit FCU_SRC_STAT.CLR_CNT v) (clrCntProg m i))
  | .FCU_ACK => fcuAckProg m (wf FCU_ACK.SRC v)
  | .FCU_RAISE => fcuRaiseProg m (wf FCU_RAISE.SRC v)
  | .FCU_RELOAD => when (wbit FCU_RELOAD.DONE v) (fcuReloadProg m)
  | .FCU_FEC_INFO => captureClearProg m (wbit FCU_FEC_INFO.VALID v) (wbit FCU_FEC_INFO.MULTI v)
  | _ => plainWrite m r i v

/-- A write to ALM: SKIP is the reader's own; the Keeper's clearing of WRAP records the lap (R549, R553). -/
def writeAlm (m : Master) (r : RegName) (i v : Nat) : Prog := .ask fun s =>
  match r with
  | .ALM_STAT => all [plainWrite m r i v,
      (match s.almReaderOf m with
        | some k => when (wbit ALM_STAT.SKIP v) (setReader k fun x => { x with skip := false })
        | none => .skip),
      when (m == .keeper && wbit ALM_STAT.WRAP v) (.upd (.kpr fun k => { k with lap := s.almLast / almSlots }))]
  | .ALM_CURSOR => cursorProg m v
  | .ALM_CTL => plainThen m r i v (.seq (when (wbit ALM_CTL.POST v) almPost) (when (wbit ALM_CTL.CLEAR v) almClear))
  | _ => plainWrite m r i v

/-- A write to SVC: a new patrol range starts its sweep; OVF is cleared with its pending bit (R517, R519). -/
def writeSvc (m : Master) (r : RegName) (i v : Nat) : Prog := .ask fun s =>
  match r with
  | .SVC_PTL_BASE => plainThen m r i v (.upd (.svc fun x => { x with drCursor := 0 }))
  | .SVC_PTL_LIMIT => plainThen m r i v (.upd (.svc fun x => { x with drCursor := 0 }))
  | .SVC_SVY_CFG => plainThen m r i v svyStopped
  | .SVC_LB_CFG => when (instKnown i) (plainWrite m r i v)
  | .SVC_REPAIR => plainThen m r i v (when (wbit SVC_REPAIR.GO v) (repairProg m (wf SVC_REPAIR.INST v) (wf SVC_REPAIR.ROW v)))
  | .SVC_LB_STAT => .seq (plainWrite m r i v) (when (wbit SVC_LB_STAT.OVF v) (setBitF SVC_LB_PEND.PEND (i / 32) (i % 32) false))
  | .SVC_CAL_CTL => deniedOr m r i v (if wbit SVC_CAL_CTL.GO v then calStart (wf SVC_CAL_CTL.CLASS v) (wf SVC_CAL_CTL.ITEM v) (wf SVC_CAL_CTL.HEAD v)
      else plainWrite m r i v)
  | .SVC_CAL_REF => deniedOr m r i v (when (s.mode == mService) (plainWrite m r i v))
  | _ => plainWrite m r i v

/-- The window of a Ferry channel: request slots and doorbells are the requester's, the rest the Keeper's (R443, R450). -/
def writeFerry (m : Master) (r : RegName) (i n v : Nat) : Prog := .ask fun s =>
  let foreign := raise 16 (accessCap m 1 2 (regAddr r i))
  if n = 7 then .skip
  else match r with
    | .PCX_FRY_DB => doorbell m n (wbit PCX_FRY_DB.POST v) (wbit PCX_FRY_DB.CANCEL v) (wf PCX_FRY_DB.SEQ v)
    | .PCX_FRY_REQ => if !s.ferryRequester m n then foreign
        else if s.fySt n = fyPosted ∨ s.fySt n = fyTaken then setF PCX_FRY_STAT.SLOT_REJ n 1 else plainWrite m r i v
    | .PCX_FRY_RES => if !s.ferryReader m n then foreign
        else if m = .keeper then when (s.fySt n == fyTaken && i % 64 != 0) (plainWrite m r i v) else when (s.writeDenied m r i v) (deny m r i)
    | .PCX_FRY_KCTL => if !s.ferryReader m n then foreign
        else plainThen m r i v (.seq (when (wbit PCX_FRY_KCTL.TAKE v) (takeProg m n))
          (when (wbit PCX_FRY_KCTL.DONE v) (ferryDoneProg m n (wf PCX_FRY_KCTL.ERR v))))
    | _ => if !s.ferryReader m n then foreign else plainWrite m r i v

/-- A write to PCX. -/
def writePcx (m : Master) (r : RegName) (i v : Nat) : Prog :=
  match r with
  | .PCX_CORE_CTL => coreControl m i (wbit PCX_CORE_CTL.RUN v) (wf PCX_CORE_CTL.HEIR v)
  | .PCX_KPR_CTL => when (wbit PCX_KPR_CTL.RESUMED v) (resumedProg m)
  | .PCX_WDT_KICK => kickProg m i v
  | .PCX_MTIMECMP => when (hartMayWrite m i) (plainWrite m r i v)
  | .PCX_MSIP => msipProg m i (wbit PCX_MSIP.MSIP v)
  | .PCX_CMO_ADDR => when m.isCore (setCmo m fun c => { c with addr := wf PCX_CMO_ADDR.ADDR v * 64 })
  | .PCX_CMO_CTL => when m.isCore (.seq
      (setCmo m fun c => { c with op := wf PCX_CMO_CTL.OP v, lines := wf PCX_CMO_CTL.LINES v, err := c.err && !wbit PCX_CMO_CTL.ERR v })
      (when (wbit PCX_CMO_CTL.GO v) (cmoGo m (wf PCX_CMO_CTL.OP v) (wf PCX_CMO_CTL.LINES v))))
  | .PCX_IRQ_SRC => plainWrite m r i (if i = 36 ∨ i = 37 ∨ i = 43 ∨ i = 45 ∨ i = 46 then v / 16 * 16
      else if 56 ≤ i ∧ i ≤ 60 then v / 16 * 16 + (i - 56) else v)
  | .PCX_IRQ_THR => when (m == targetMaster i) (plainWrite m r i v)
  | .PCX_IRQ_CLAIM => irqCompleteProg m i (wf PCX_IRQ_CLAIM.ID v)
  | .PCX_PROT_COMMIT => keeperOnly m r i (protCommit v)
  | .PCX_FRY_REQ | .PCX_FRY_RES => writeFerry m r i (i / 64) v
  | .PCX_FRY_DB | .PCX_FRY_STAT | .PCX_FRY_KCTL | .PCX_FRY_CFG => writeFerry m r i i v
  | _ => plainWrite m r i v

/-- A write to HIF. -/
def writeHif (m : Master) (r : RegName) (i v : Nat) : Prog := .ask fun s =>
  match r with
  | .HIF_PORT_CTL => all [plainWrite m r i v,
      when (wbit HIF_PORT_CTL.DISABLE v && !s.on HIF_PORT_CTL.DISABLE i) (portDisable i), when (wbit HIF_PORT_CTL.RETRAIN v) (portRetrain i)]
  | _ => plainWrite m r i v

/-- A write to an entry of the namespace table: to a VALID one only ATT, FP, and 2 to STATE apply; the Keeper copies each change (chapter 12,
Namespaces). -/
def writeNs (m : Master) (r : RegName) (i v : Nat) : Prog := .ask fun s =>
  let valid := s.get CQE_NS_CFG.STATE i == 1
  let v' := if !valid then v
    else if r = .CQE_NS_CFG then s.keepF ([CQE_NS_CFG.PLVL, CQE_NS_CFG.ZONED, CQE_NS_CFG.LBAF, CQE_NS_CFG.PIT, CQE_NS_CFG.PIL, CQE_NS_CFG.EXT,
        CQE_NS_CFG.GROUP, CQE_NS_CFG.KSLOT] ++ (if wf CQE_NS_CFG.STATE v = 2 then [] else [CQE_NS_CFG.STATE])) i v
    else (s.reg r i).toNat
  deniedOr m r i v (.seq (plainWrite m r i v') (deviceCopy r i))

/-- A write to CQE. -/
def writeCqe (m : Master) (r : RegName) (i v : Nat) : Prog := .ask fun s =>
  match r with
  | .CQE_CFG => .seq (plainWrite m r i v) cqeState
  | .CQE_OVL_CFG => if wbit CQE_OVL_CFG.ENABLE v || s.mode == mService then plainWrite m r i v else when (s.writeDenied m r i v) (deny m r i)
  | .CQE_CLAIM => .seq (plainWrite m r i (s.keepF [CQE_CLAIM.CLAIM] i v))
      (each ((List.range 4).filter fun a => nbit v a != s.bitF CQE_CLAIM.CLAIM 0 a) fun a => claimProg a (nbit v a))
  | .CQE_HQ_BASE | .CQE_HQ_CTL | .CQE_HQ_PTR => .seq (plainWrite m r i v) hqShow
  | .CQE_DONE_DW0 => doneDw0 m v
  | .CQE_DONE => doneProg m (wf CQE_DONE.CTAG v) (wf CQE_DONE.SCT v) (wf CQE_DONE.SC v) (wbit CQE_DONE.DNR v)
  | .CQE_NS_CFG | .CQE_NS_BASE | .CQE_NS_ROWS => writeNs m r i v
  | _ => plainWrite m r i v

/-- A write to BMU: discards while trained, enabled or in use (R357, R379, Table 13.10). -/
def writeBmu (m : Master) (r : RegName) (i v : Nat) : Prog := .ask fun s =>
  match r with
  | .BMU_CFG => deniedOr m r i v (when (s.get BMU_STAT.TRAINED 0 == 0) (plainWrite m r i v))
  | .BMU_CC_CTL => if wbit BMU_CC_CTL.ENABLE v then cacheEnableProg m else cacheDisableProg m
  | .BMU_WAY_PWR => wayOffProg m (wf BMU_WAY_PWR.OFF_REQ v)
  | .BMU_MNT_CTL => .seq (plainWrite m r i v) (when (wbit BMU_MNT_CTL.GO v) (mntGo m (wf BMU_MNT_CTL.OP v) (wf BMU_MNT_CTL.LINES v)))
  | .BMU_SLOT_BASE => deniedOr m r i v (when (!s.on BMU_SLOT_CFG.ENABLE 0) (plainWrite m r i v))
  | .BMU_SLOT_CFG => .seq (plainWrite m r i (if s.on BMU_SLOT_CFG.ENABLE 0 then s.keepF [BMU_SLOT_CFG.COUNT] 0 v else v)) slotsShow
  | .BMU_DISCARD => plainThen m r i (if s.on BMU_DISCARD.BUSY 0 then s.keepF [BMU_DISCARD.NS] 0 v else v)
      (when (wbit BMU_DISCARD.GO v) (discardGo (wf BMU_DISCARD.NS v)))
  | .BMU_CCC_BASE => deniedOr m r i v (when (!s.on BMU_CCC_CFG.EN 0) (plainWrite m r i v))
  | .BMU_CCC_CFG => .seq (plainWrite m r i (if s.on BMU_CCC_CFG.EN 0 then s.keepF [BMU_CCC_CFG.FRAMES] 0 v else v))
      (whenS (fun t => s.on BMU_CCC_CFG.EN 0 && !t.on BMU_CCC_CFG.EN 0) (cccDrop fun _ => true))
  | .BMU_CCC_NS => plainThen m r i v (cccDrop fun n => n / 32 == i && !nbit v (n % 32))
  | _ => plainWrite m r i v

/-- A write to DMF (R395, R404, R406). -/
def writeDmf (m : Master) (r : RegName) (i v : Nat) : Prog := .ask fun s =>
  let still (n : Nat) : Bool := s.chSt n == chIdle || s.chSt n == chHalted
  let own (n : Nat) (p : Prog) : Prog := if s.dmaMay m n then p else raise 16 (accessCap m 1 2 (regAddr r i))
  match r with
  | .DMF_CH_CTL => own i (chControl i (wbit DMF_CH_CTL.COMMIT v) (wbit DMF_CH_CTL.RESUME v) (wbit DMF_CH_CTL.ABORT v) (wbit DMF_CH_CTL.CLEAR v))
  | .DMF_CH_STAT => own i (.seq (plainWrite m r i v) (dmaIrq i))
  | .DMF_CH_CFG => own i (when (still i) (.seq (plainWrite m r i (if s.fastChan i then s.keepF [DMF_CH_CFG.OWNER] i v else v)) (dmaIrq i)))
  | .DMF_CH_ATP => own i (when (still i) (plainWrite m r i v))
  | .DMF_CH_SHD => own (i / 8) (if s.on DMF_CH_STAT.PEND (i / 8) then setF DMF_CH_STAT.SHADOW_REJ (i / 8) 1 else plainWrite m r i v)
  | .DMF_CH_FAULT_VA | .DMF_CH_PROG => own i .skip
  | .DMF_CH_ACT => own (i / 8) .skip
  | .DMF_FP_MASK => plainWrite m r i ((List.range 64).foldl (fun w n => if still n then w else setNBit w n (s.fastChan n)) v)
  | .DMF_INV => if wbit DMF_INV.GO v then invalidateProg m (wf DMF_INV.SCOPE v) (wf DMF_INV.ASID v) else when m.isCore (plainWrite m r i v)
  | _ => plainWrite m r i v

/-- A write to MPC (R279, R295, Table 10.10). -/
def writeMpc (m : Master) (r : RegName) (i v : Nat) : Prog := .ask fun s =>
  match r with
  | .MPC_VSN => deniedOr m r i v (when (s.get MPC_STAT.ENC 0 == 0) (.seq (plainWrite m r i (if wf MPC_VSN.NEXT v = 0 then 1 else v)) vsnMarked))
  | .MPC_KEY_CTL => plainThen m r i v (when (wbit MPC_KEY_CTL.GO v)
      (keyOp m (wf MPC_KEY_CTL.OP v) (wf MPC_KEY_CTL.SLOT v) (wf MPC_KEY_CTL.KGEN v) (wbit MPC_KEY_CTL.HOST_EN v)
        (keyOperate (wf MPC_KEY_CTL.OP v) (wf MPC_KEY_CTL.SLOT v) (wf MPC_KEY_CTL.KGEN v) (wbit MPC_KEY_CTL.HOST_EN v))))
  | .MPC_KEY_DATA => keeperOnly m r i (setF MPC_KEY_DATA.KEY i v)
  | _ => plainWrite m r i v

/-- A write to RDC: to a head path's fields it is held while the path is ACTIVE (R98, R127). -/
def writeRdc (m : Master) (r : RegName) (i v : Nat) : Prog := .ask fun s =>
  match r with
  | .RDC_NP_DATA => .seq (npPut (v % 65536)) npAdvance
  | .RDC_RETRY_ORDER => retryOrderProg i v
  | .RDC_HST_CTL => .seq (when (wbit RDC_HST_CTL.SNAP v) hstSnapProg) (when (wbit RDC_HST_CTL.CLR v) hstClrProg)
  | _ => match s.rdcPath r i with
    | some p => .seq (when (s.writeDenied m r i v) (deny m r i)) (rdcWrite p r i (written r (m == .keeper) false (s.rdcBase r i) v).toNat)
    | none => plainWrite m r i v

/-- A write to WRC: held while a writer that uses the field is in a pass, but for INHIBIT (R155, R171). -/
def writeWrc (m : Master) (r : RegName) (i v : Nat) : Prog := .ask fun s =>
  let held (x : Nat) : Prog := .seq (when (s.writeDenied m r i x) (deny m r i)) (wrcWrite r i (written r (m == .keeper) false (s.wrcBase r i) x).toNat)
  match r with
  | .WRC_WR_CTL => .seq
      (when (wbit WRC_WR_CTL.INHIBIT v != s.on WRC_WR_CTL.INHIBIT i) (if wbit WRC_WR_CTL.INHIBIT v then inhibitSetProg i else inhibitClearProg i)) (held v)
  | .WRC_HEAD_CFG | .WRC_CFG => held v
  | .WRC_RWL_BASE | .WRC_RWL_CTL | .WRC_RWL_PTR => .seq (plainWrite m r i v) wusShow
  | _ => plainWrite m r i v

/-- A write to SVE. -/
def writeSve (m : Master) (r : RegName) (i v : Nat) : Prog := .ask fun s =>
  match r with
  | .SVE_CLU_CTL => plainWrite m r i (v ||| s.get SVE_CLU_CTL.COMMIT i)
  | .SVE_COEF => plainWrite m r i (coefHeld (i % 128) v)
  | .SVE_VFF_COEF => plainWrite m r i (vffHeld (i % 32) v)
  | .SVE_CTX_CFG => deniedOr m r i v (when (decide (wf SVE_CTX_CFG.CLU v < 12)) (.seq (plainWrite m r i v) (ctxStart (wf SVE_CTX_CFG.CLU v))))
  | .SVE_SERVICE => serviceWriteProg m
  | .SVE_SEEK_CMD => .seq (plainWrite m r i v) (if wbit SVE_SEEK_CMD.UNLOAD v then unloadProg i
      else if wbit SVE_SEEK_CMD.LOAD v then loadProg i
      else when (wbit SVE_SEEK_CMD.GO v) (seekGoProg i (wf SVE_SEEK_CMD.SLOTS v) (wbit SVE_SEEK_CMD.WR v)))
  | .SVE_SLOT_MAP => deniedOr m r i v (slotMapProg m i v)
  | .SVE_HEAD_STATE => deniedOr m r i v (headStateProg m i v)
  | .SVE_REBUILD => plainThen m r i v (deviceCopy r i)
  | _ => plainWrite m r i v

/-- A write to SPN: START, STOP and COMMIT act when written 1; of START and STOP together STOP acts (Table 8.9). -/
def writeSpn (m : Master) (r : RegName) (i v : Nat) : Prog :=
  match r with
  | .SPN_COEF => plainWrite m r i (coefHeld (i % 128) v)
  | .SPN_CTL => deniedOr m r i v (spnSpdSet (wf SPN_CTL.SPD_SET v))
  | .SPN_STAT => plainThen m r i v (all [setF SPN_STAT.STOP 0 0, setF SPN_STAT.START 0 0,
      if wbit SPN_STAT.STOP v then spnStop else when (wbit SPN_STAT.START v) spnStart])
  | .SPN_COMMIT => plainThen m r i v (spnCommitProg (wf SPN_COMMIT.COMMIT v))
  | .SPN_ORR_CFG => plainThen m r i v orrCfgWritten
  | _ => plainWrite m r i v

/-- A write to PWR, at the power die: PWR_SNS_CFG with a LOSS threshold at or above its WARN threshold is discarded (R473); the retract and hold-up settings
go to its non-volatile copy too (Table 17.8). -/
def writePwr (m : Master) (r : RegName) (i v : Nat) : Prog :=
  match r with
  | .PWR_SNS_CFG => deniedOr m r i v (when (decide (wf PWR_SNS_CFG.LOSS12 v < wf PWR_SNS_CFG.WARN12 v ∧ wf PWR_SNS_CFG.LOSS5 v < wf PWR_SNS_CFG.WARN5 v))
      (plainWrite m r i v))
  | .PWR_RET_CFG => .seq (plainWrite m r i v) (.ask fun s => setPd fun x => { x with nvRet := (s.reg r i).toNat })
  | .PWR_HU_CFG => .seq (plainWrite m r i v) (.ask fun s => setPd fun x => { x with nvHu := (s.reg r i).toNat })
  | _ => plainWrite m r i v

/-- A write to SPL: MEMBER_ID, SRC and VER_CAP stand while EN is 1 (R272). -/
def writeSpl (m : Master) (r : RegName) (i v : Nat) : Prog := .ask fun s =>
  match r with
  | .SPL_CFG => deniedOr m r i v (.seq
      (plainWrite m r i (s.keepF (SPL_CFG.EN :: if s.on SPL_CFG.EN 0 then [SPL_CFG.MEMBER_ID, SPL_CFG.SRC, SPL_CFG.VER_CAP] else []) 0 v))
      (if wbit SPL_CFG.EN v then splEnableProg m else when (s.on SPL_CFG.EN 0) (splDisableProg m)))
  | .SPL_PLAN_CTL => plainThen m r i v (when (wbit SPL_PLAN_CTL.SUBMIT v) planSubmit)
  | .SPL_RLY_CTL => if m ≠ .keeper then when (s.writeDenied m r i v) (deny m r i)
      else .seq (plainWrite m r i v) (.seq (when (wbit SPL_RLY_CTL.SEND v) relaySend) (when (wbit SPL_RLY_CTL.POP v) relayPopTaken))
  | _ => plainWrite m r i v

/-- A write of a whole register. The lock bit of a block's BLK_LOCK is that of its CFG in HIF and PCX (R594). -/
def regWrite (m : Master) (r : RegName) (i v : Nat) : Prog :=
  if r = .BLK_LOCK then when (nbit v 0) (if i = 5 then setF HIF_CFG.LOCK 0 1 else if i = 4 then setF PCX_CFG.LOCK 0 1 else setF BLK_LOCK.LOCK i 1)
  else if commonReg r then .skip
  else match (regInfo r).block with
    | 0 => writePtm m r i v
    | 1 => writeFcu m r i v
    | 2 => writeAlm m r i v
    | 3 => writeSvc m r i v
    | 4 => writePcx m r i v
    | 5 => writeHif m r i v
    | 6 => writeCqe m r i v
    | 7 => writeBmu m r i v
    | 8 => writeDmf m r i v
    | 9 => writeMpc m r i v
    | 10 => writeRdc m r i v
    | 11 => writeWrc m r i v
    | 12 => writeSve m r i v
    | 13 => writeSpn m r i v
    | 14 => writePwr m r i v
    | _ => writeSpl m r i v

/-- A master's latched high word, and held low word, of a 64-bit register (R598, R599). -/
def AccessState.find (l : List (Nat × Nat × Nat)) (m : Master) (a : Nat) : Option Nat := (l.find? fun e => e.1 == m.id && e.2.1 == a).map (·.2.2)
def AccessState.drop (l : List (Nat × Nat × Nat)) (m : Master) (a : Nat) : List (Nat × Nat × Nat) := l.filter fun e => !(e.1 == m.id && e.2.1 == a)

/-- One word of an access, once the fabric has admitted it: what it returns, and its effect. -/
def State.wordValue (s : State) (m : Master) (w : RegName × Nat × Bool) : Nat :=
  let (r, i, high) := w
  if high then (AccessState.find s.access.hi m (regAddr r i)).getD (s.regValue m r i / 2 ^ 32) else s.regValue m r i % 2 ^ 32
def wordReadFx (m : Master) (w : RegName × Nat × Bool) : Prog := .ask fun s =>
  let (r, i, high) := w
  let a := regAddr r i
  if high then .upd (.access fun x => { x with hi := AccessState.drop x.hi m a })
  else .seq (when (regInfo r).wide (.upd (.access fun x => { x with hi := AccessState.drop x.hi m a ++ [(m.id, a, s.regValue m r i / 2 ^ 32)] })))
    (regReadFx m r i)
def wordWrite (m : Master) (w : RegName × Nat × Bool) (v : Nat) : Prog := .ask fun s =>
  let (r, i, high) := w
  let a := regAddr r i
  if high then .seq (.upd (.access fun x => { x with lo := AccessState.drop x.lo m a }))
    (regWrite m r i (v * 2 ^ 32 + (AccessState.find s.access.lo m a).getD (s.regValue m r i % 2 ^ 32)))
  else if (regInfo r).wide then .upd (.access fun x => { x with lo := AccessState.drop x.lo m a ++ [(m.id, a, v)] })
  else regWrite m r i v

/-- Ferry channel 5's window and PCX_DBG_STAT, which the checker always lets the debug master reach (R443). -/
def debugWindow (a : Nat) : Bool :=
  match regWordAt a with
  | some (r, i, _) => r == .PCX_DBG_STAT || ((r == .PCX_FRY_REQ || r == .PCX_FRY_RES) && i / 64 == 5) ||
      ([RegName.PCX_FRY_DB, .PCX_FRY_STAT, .PCX_FRY_KCTL, .PCX_FRY_CFG].contains r && i == 5)
  | none => false

/-- The masters whose register accesses are fabric transactions, which the checker judges; subsystems use their own control paths (R429). -/
def checkedMaster (m : Master) : Bool :=
  match m with
  | .keeper | .app _ | .debug | .dma _ => true
  | _ => false

/-- The source that reports an access to offset `a` of register space that ends with a bus error: denied, then not an aligned access of 4 or 8 bytes
(R11, R36). -/
def State.regFault (s : State) (m : Master) (typ a n : Nat) : Option Nat :=
  if checkedMaster m && !s.permits m typ ((regBase + a) / 4096) && !(m == .keeper && protRegister (regBase + a)) && !(m == .debug && debugWindow a) then some 16
  else if (n = 4 ∨ n = 8) ∧ a % n = 0 then none else some 17

/-- The words of an access: their offsets and the register words there (R23, R602). -/
def accessWords (a n : Nat) : List (Nat × Option (RegName × Nat × Bool)) := (List.range (n / 4)).map fun k => (a + 4 * k, regWordAt (a + 4 * k))

/-- The source of a word that does not answer. -/
def State.wordDown (s : State) (w : Option (RegName × Nat × Bool)) (a : Nat) : Option Nat :=
  match w with
  | some (r, i, _) => s.regDown r i
  | none => if a / 0x100000 = 14 ∧ !s.cwIsUp then some 19 else none

/-- A register frame (Table 17.6). -/
def cwReg (tag : Nat) (write : Bool) (offset value : Nat) : Prog :=
  if write then cwSend "REG_WR" 0x11 tag (beNats 3 offset ++ beNats 4 value) else cwSend "REG_RD" 0x10 tag (beNats 3 offset)

/-- What an access does to a word; one of block 0xE crosses the Causeway in a frame of its own, and the power die answers with the value read, or the value
after the write (R25, R476, Table 17.6). -/
def cwWord (m : Master) (w : RegName × Nat × Bool) (write : Bool) (a v : Nat) (p : Prog) : Prog := .ask fun s =>
  if !commonReg w.1 && a / 0x100000 == 14 then all [
    cwReg s.pwr.nextTag write (a % 0x100000) v, p,
    .ask fun t => setPd fun x => { x with
      nextTag := (x.nextTag + 1) % 256, tags := ((x.nextTag, if write then t.wordValue m w else s.wordValue m w, 0) :: x.tags).take 16 }]
  else p

/-- A read of register space that the fabric has judged: its words in order, then the reply or the bus error (R24, R598, R602). -/
def regReadProg (m : Master) (a n : Nat) : Prog := .ask fun s =>
  match s.regFault m atRead a n with
  | some src => .seq (busErr m) (accessReport m atRead (regBase + a) n src)
  | none => (accessWords a n).foldr (fun w k acc => .ask fun t =>
      match t.wordDown w.2 w.1 with
      | some src => .seq (accessReport m atRead (regBase + w.1) 4 src) (k none)
      | none => match w.2 with
        | some x => .seq (cwWord m x false w.1 0 (wordReadFx m x)) (k (acc.map fun l => l ++ [t.wordValue m x]))
        | none => k (acc.map fun l => l ++ [0]))
      (fun acc => match acc with
        | some l => reply m (l.foldr (fun w t => w + 2 ^ 32 * t) 0)
        | none => busErr m) (some [])

/-- A write of register space; an aligned 64-bit one of a 64-bit register applies both words at once (R599). -/
def regWriteProg (m : Master) (a n v : Nat) : Prog := .ask fun s =>
  match s.regFault m atWrite a n with
  | some src => .seq (busErr m) (accessReport m atWrite (regBase + a) n src)
  | none => .seq
      (each (accessWords a n).zipIdx fun e => .ask fun t =>
        match t.wordDown e.1.2 e.1.1 with
        | some src => accessReport m atWrite (regBase + e.1.1) 4 src
        | none => match e.1.2 with
          | some x => cwWord m x true e.1.1 (v / 2 ^ (32 * e.2) % 2 ^ 32) (wordWrite m x (v / 2 ^ (32 * e.2) % 2 ^ 32))
          | none => .skip)
      (when ((accessWords a n).any fun w => (s.wordDown w.2 w.1).isSome) (busErr m))

/-- REGISTER_WRITE: a write of 2^size bytes at an offset in register space (R14). -/
def execRegisterWrite (m : Master) (offset : BitVec 24) (size : Fin 4) (v : BitVec 64) (s : State) :=
  (regWriteProg m offset.toNat (2 ^ size.val) (v.toNat % 2 ^ (8 * 2 ^ size.val))).exec s

/-- READ_CLEAR: a read of 2^size bytes at an offset in register space (R598). -/
def execReadClear (m : Master) (offset : BitVec 24) (size : Fin 4) (s : State) := (regReadProg m offset.toNat (2 ^ size.val)).exec s

/-- LOW_WORD_WRITE: a 32-bit write at an offset in register space, held where the low word of a 64-bit register lies there (R599). -/
def execLowWordWrite (m : Master) (offset : BitVec 24) (v : Word) (s : State) := (regWriteProg m offset.toNat 4 v.toNat).exec s

/-- The masters (Table 1.10), and the one of an ID. -/
def allMasters : List Master := [.keeper, .cqe, .hif, .bmu, .mpc, .rdc, .wrc, .sve, .svc, .alm, .debug] ++
  (List.range 4).map (fun c => .app (Fin.ofNat 4 c)) ++ (List.range 64).map fun n => .dma (Fin.ofNat 64 n)
def masterOf (k : Nat) : Option Master := allMasters.find? fun m => m.id == k

/-- The power die answers a register frame, or answers a repeated tag from its store without executing it again (R476). -/
def pdAnswer (c : CwAccess) : Prog := .ask fun s =>
  if s.pwr.tags.any fun t => t.1 == c.tag then .skip
  else
    let x := regWordAt (0xE00000 + c.offset)
    all [
      (match x with
        | some w => if c.write then (match masterOf c.master with
            | some m => wordWrite m w c.value
            | none => .skip) else .skip
        | none => .skip),
      .ask fun t =>
        let v := match x with
          | some (r, i, _) => t.regValue .keeper r i
          | none => 0
        setPd fun p => { p with tags := ((c.tag, v, b2n x.isNone) :: p.tags).take 16 }]

/-- The answer reaches PTM: the access completes. -/
def cwComplete (c : CwAccess) : Prog := .ask fun s => .seq
  (setPd fun p => { p with open_ := p.open_.filter fun e => e.tag != c.tag })
  (match masterOf c.master with
    | some m => when (!c.write) (reply m (((s.pwr.tags.find? fun t => t.1 == c.tag).map (·.2.1)).getD 0))
    | none => .skip)

/-- A register frame crosses the Causeway; `reqLost` and `rspLost`, the frame or its answer is discarded for a CRC error, which PTM counts of an answer
(R474, R476). -/
def cwFrame (c : CwAccess) (reqLost rspLost : Bool) : Prog := all [
  cwReg c.tag c.write c.offset c.value,
  when (!reqLost) (pdAnswer c), when (!reqLost) (if rspLost then incF PTM_CW_STAT.CRC_CNT 0 else cwComplete c)]

/-- CAUSEWAY_REGISTER_ACCESS (R25, R476): judged as it enters the fabric, as every access. -/
def cwAccessProg (m : Master) (write : Bool) (offset value : Nat) (reqLost rspLost : Bool) : Prog := .ask fun s =>
  let typ := if write then atWrite else atRead
  let a := 0xE00000 + offset
  match s.regFault m typ a 4 with
  | some src => .seq (busErr m) (accessReport m typ (regBase + a) 4 src)
  | none =>
    if !s.cwIsUp then .seq (busErr m) (accessReport m typ (regBase + a) 4 19)
    else
      let c : CwAccess := { tag := s.pwr.nextTag, master := m.id, write, offset, value, since := s.ptm.ticks }
      .seq (setPd fun p => { p with nextTag := (p.nextTag + 1) % 256, open_ := p.open_ ++ [c] })
        (cwFrame c reqLost rspLost)
def execCausewayRegisterAccess (m : Master) (write : Bool) (offset : BitVec 20) (value : Word) (reqLost rspLost : Bool) (s : State) :=
  (cwAccessProg m write offset.toNat value.toNat reqLost rspLost).exec s

/-- CAUSEWAY_REGISTER_RESEND: 1 µs without an answer, the frame is sent once more with the same tag (R476). -/
def cwResendProg (tag : Nat) (reqLost rspLost : Bool) : Prog := .ask fun s =>
  match s.pwr.open_.find? fun c => c.tag == tag with
  | some c => when (!c.resent && s.cwIsUp && decide (c.since + 8 ≤ s.ptm.ticks)) (all [
      incF PTM_CW_STAT.RESEND 0, setPd fun p => { p with open_ := p.open_.map fun e => if e.tag == tag then { e with resent := true } else e },
      cwFrame c reqLost rspLost])
  | none => .skip
def execCausewayRegisterResend (tag : BitVec 8) (reqLost rspLost : Bool) (s : State) := (cwResendProg tag.toNat reqLost rspLost).exec s

/-- CAUSEWAY_REGISTER_TIMEOUT: 2 µs after its first frame, an access without an answer completes with a bus error (R25, R476). -/
def cwTimeoutProg (tag : Nat) : Prog := .ask fun s =>
  match s.pwr.open_.find? fun c => c.tag == tag with
  | some c => when (decide (c.since + 16 ≤ s.ptm.ticks)) (.seq (setPd fun p => { p with open_ := p.open_.filter fun e => e.tag != tag })
      (match masterOf c.master with
        | some m => .seq (busErr m) (accessReport m (if c.write then atWrite else atRead) (regBase + 0xE00000 + c.offset) 4 19)
        | none => .skip))
  | none => .skip
def execCausewayRegisterTimeout (tag : BitVec 8) (s : State) := (cwTimeoutProg tag.toNat).exec s

end Sys2Proof.Machine
end

