-- ==== Sys2Proof/Machine/Ferry.lean ====
section
/-! DEFINITION. What the Keeper does on Ferry's commands of groups 0x00 to 0x06: protocol, modes, heads and the concurrency map, Transit, spindle and phase
plan, Archipelago, calibration (Table 16.9, R54 to R58, R63, R64, R73, R456 to R461, R557, R560). Each acts on the request TAKEN on channel `n`. -/
namespace Sys2Proof.Machine

def clsAll : Nat := clsA ||| clsM ||| clsS ||| clsR

/-- Values of registers as the Keeper reads them one after another, with what each read does. -/
def keeperReads : List (RegName × Nat) → (List Nat → Prog) → Prog
  | [], k => k []
  | (r, i) :: l, k => .ask fun s => .seq (regReadFx .keeper r i) (keeperReads l fun vs => k (s.regValue .keeper r i % 2 ^ 32 :: vs))

/-- Free 32-bit words. -/
def freshWords : Nat → (List Nat → Prog) → Prog
  | 0, k => k []
  | n + 1, k => fresh fun v => freshWords n fun l => k (v % 2 ^ 32 :: l)

/-- The highest minor that the Keeper implements of a major (R456). -/
def keeperMinor (k : Nat) : Nat := if k = 1 then 4 else 1

/-- The requester's minor of major `k`, if its FERRY_HELLO names that major (R456). -/
def State.helloMinor (s : State) (n k : Nat) : Option Nat :=
  let w4 := s.req n 4
  if k = w4 / 2 ^ 28 then some (nbits w4 27 24)
  else if s.req n 1 % 256 = 12 ∧ nbit (s.req n 6) k then some (nbits (s.req n 5) (4 * k - 1) (4 * k - 4))
  else none

/-- FERRY_HELLO (R456): the version agreed applies from the next post; the Keeper's build is free. -/
def helloCmd (n : Nat) : Prog := .ask fun s =>
  match ([2, 1] : List Nat).find? fun k => (s.helloMinor n k).isSome with
  | none => ferryFinish n eVersion [0x21000000]
  | some k =>
    let v := k <<< 4 ||| min (keeperMinor k) ((s.helloMinor n k).getD 0)
    fresh fun b => .seq (ferryOk n [v <<< 24, b % 2 ^ 32]) (setF PCX_FRY_STAT.VER n v)
def execFerryHello (n : Fin 8) (s : State) := (serve n 0x0001 clsAll false (helloCmd n)).exec s

/-- MODE_SET (R496): SERVICE only from class S, or from class A while FACTORY is set; done once the mode is entered. -/
def modeSetCmd (n : Nat) : Prog := .ask fun s =>
  let w := s.req n 4
  let r : ModeReq := { mode := nbits w 2 0, ilvl := if nbits w 2 0 = mIdle then nbits w 4 3 else 0, ret := nbits w 2 0 == mStandby && nbit w 5 }
  if r.mode = mService ∧ n ≠ 5 ∧ !(decide (n < 4) && s.kpr.factory) then ferryErr n eState
  else .seq (modeWrite .keeper r) (if s.transOk r then ferryWait n wtMode (r.ilvl <<< 3 ||| r.mode) else ferryErr n eState)
def execModeSet (n : Fin 8) (s : State) := (serve n 0x0101 (clsA ||| clsM ||| clsS) false (modeSetCmd n)).exec s

/-- CAP_SET (R487). -/
def capSetCmd (n : Nat) : Prog := .ask fun s =>
  let w := s.req n 4 % 256
  if w < 12 ∨ 40 < w then ferryErr n eArg
  else all [setF PTM_CAP_CFG.CAP 0 w, concurrencyChange, .ask fun t => ferryOk n [t.mermode]]
def execCapSet (n : Fin 8) (s : State) := (serve n 0x0102 (clsA ||| clsM ||| clsS) false (capSetCmd n)).exec s

/-- MODE_GET. -/
def execModeGet (n : Fin 8) (s : State) := (serve n 0x0103 clsAll false (.ask fun t => ferryOk n [t.mermode, t.timeLo])).exec s

/-- HP_PWR_SET (R113): in SERVICE firmware sets the head paths' states. -/
def hpPwrCmd (n : Nat) : Prog := .ask fun s =>
  let p := nbits (s.req n 4) 3 0
  let st := nbits (s.req n 4) 17 16
  if s.mode ≠ mService ∨ s.inPass p then ferryErr n eState
  else if st = pwActive then ferryErr n eArg
  else .seq (if st = s.hpPwr p then .skip else if st = pwReady then enterReady p else setPwr p st) (ferryOk n [])
def execHpPwrSet (n : Fin 8) (s : State) := (serve n 0x0104 (clsA ||| clsS) false (hpPwrCmd n)).exec s

/-- The address in two request words. -/
def State.reqAddr (s : State) (n i : Nat) : Nat := s.req n i + 2 ^ 32 * s.req n (i + 1)

/-- Where copy `k` of the map lies in the Ephemeris, and the bytes the map and the zone table take (R50, R58, Tables 1.9 and 21.4). -/
def mapCopyAddr (k : Nat) : Nat := 0x41E00000 + 0x40000 * k
def State.mapLen (s : State) : Nat := (s.get SVE_CMAP_CFG.LAST_BAND 0 + 1) * 128 + 16 * s.zones

/-- After a change the Keeper writes a copy of the map, the two places in turn, sealed with a sequence number and a CRC-32 (R58): the seal stands in the
copy's first two words (assumption log 16). -/
def mapSaved : Prog := .ask fun s =>
  let n := s.kpr.mapSeq + 1
  let bs := s.bytes s.mapBase s.mapLen
  let c : MapCopy := { place := n % 2, seq := n, crc := (crc32 (leBytes 4 n ++ bs)).toNat, bytes := bs }
  .seq (.upd (.kpr fun k => { k with mapSeq := n, mapCopies := (k.mapCopies.filter fun e => e.place != c.place) ++ [c] }))
    (fabricWords .keeper (mapCopyAddr c.place) [BitVec.ofNat 32 c.seq, BitVec.ofNat 32 c.crc])

/-- A change of the map that does not compress into 256 KiB is rejected (R58); `size` is what it compresses into. -/
def mapChange (n size : Nat) (p : Prog) : Prog := if 262144 < size then ferryErr n eNoSpace else all [p, mapSaved, ferryOk n []]

/-- The protection region of the map (R54): every master but the Keeper may read it and none may write it; the regions of DRAM that gave more follow it
(assumption log 16). -/
def mapRegion (a len : Nat) : Prog := .upd (.pcx fun p =>
  let page := a / 4096
  let g : Region := { base := page, limit := (a + len - 1) / 4096, en := true, dbgg := false, x := false, w := false, r := true, midLo := 0x02, midHi := 0xFF }
  { p with regions := (p.regions.filter fun e => !([16, 17, 18] : List Nat).contains e.1) ++ [(16, g), (17, defaultRegion 16), (18, defaultRegion 17)] })
def mapRegionShown : Prog := .ask fun s => each ([16, 17, 18] : List Nat) fun r =>
  let g := s.regionUsed r
  all [setF PCX_PROT_BASE.PAGE r g.base, setF PCX_PROT_LIMIT.PAGE r g.limit, setF PCX_PROT_ATTR.EN r (b2n g.en), setF PCX_PROT_ATTR.DBGG r (b2n g.dbgg),
    setF PCX_PROT_ATTR.X r (b2n g.x), setF PCX_PROT_ATTR.W r (b2n g.w), setF PCX_PROT_ATTR.R r (b2n g.r), setF PCX_PROT_ATTR.MID_HI r g.midHi,
    setF PCX_PROT_ATTR.MID_LO r g.midLo]
def mapProtect (a len : Nat) : Prog := .seq (mapRegion a len) mapRegionShown

/-- The Keeper writes a band record as one transaction, with its CRC (R54); one that fails its CRC is reloaded first (R53). -/
def recWrite (b a : Nat) (f : List Word → List Word) : Prog := .seq (whenS (fun s => !s.recOk b a) (mapReload b a)) (.ask fun s =>
  let ws := f (s.memWs (s.recAddr b a) 7)
  fabricStore .keeper (s.recAddr b a) ((ws ++ [crcWords ws]).flatMap fun w => leBytes 4 w.toNat))

/-- A word of a record with some bits replaced. -/
def setWord (k hi lo v : Nat) (ws : List Word) : List Word := ws.mapIdx fun i w =>
  if i = k then BitVec.ofNat 32 (setBits (BitVec.ofNat 64 w.toNat) hi lo v).toNat else w

/-- The staged map of a MAP_COMMIT at `x` with CFG value `cfg`: its bands and zones, and the check of R57. -/
def State.stagedWord (s : State) (x b a k : Nat) : Nat := s.memW (x + (4 * b + a) * 32 + 4 * k)
def State.stagedZone (s : State) (x last z : Nat) : Nat × Nat :=
  let e := x + (last + 1) * 128 + 16 * z
  (nbits (s.memW e) 23 0, nbits (s.memW (e + 4)) 23 0)
def State.stagedOk (s : State) (x last zones : Nat) : Bool := (List.range zones).all fun z =>
  let (first, tracks) := s.stagedZone x last z
  (List.range ((first + tracks + 255) / 256 - first / 256)).all fun k =>
    let b := first / 256 + k
    decide (b ≤ last) && allActs.all fun a => hdrValid (s.stagedWord x b a 0) && !nbit (s.stagedWord x b a 0) 28 &&
      ((List.range 4).all fun sl => !slotEn (s.slotMap a) sl || entValid (s.stagedWord x b a (1 + slotArm (s.slotMap a) sl)))

/-- Where the Keeper keeps the map in DRAM: where SVE_CMAP_BASE points, at first where the worked example of chapter 16 shows it. -/
def State.mapHome (s : State) : Nat := if s.mapBase = 0 then 0x104000000 else s.mapBase

/-- The bytes of the map that the staged one becomes: each record with its CRC, then the zone table. -/
def State.stagedBytes (s : State) (x last zones : Nat) : List Byte :=
  ((List.range (4 * (last + 1))).flatMap fun i =>
    let ws := s.memWs (x + 32 * i) 7
    (ws ++ [crcWords ws]).flatMap fun w => leBytes 4 w.toNat) ++ s.bytes (x + (last + 1) * 128) (16 * zones)

/-- Rows that the zone table gives. -/
def State.totalRows (s : State) : Nat := (List.range s.zones).foldl (fun m z => max m (s.zoneRow z + s.zoneTracks z * s.zoneSpt z)) 0

/-- Before the first namespace every row is free (assumption log 34). -/
def firstExtents : Prog := .ask fun s =>
  when (s.cqe.extents.isEmpty && (List.range 128).all fun n => s.get CQE_NS_CFG.STATE n == 0) (.upd (.cqe fun x =>
    { x with extents := [(0, s.totalRows / 256, 0, 0)] }))

/-- MAP_COMMIT (R54, R57, R58); `size` is what the map compresses into. -/
def mapCommitCmd (n size : Nat) : Prog := .ask fun s =>
  let x := s.reqAddr n 4
  let cfg := s.req n 6
  let last := wf SVE_CMAP_CFG.LAST_BAND cfg
  let zones := wf SVE_CMAP_CFG.ZONES_M1 cfg + 1
  if s.mode ≠ mService then ferryErr n eState
  else if !s.dramOk x ((last + 1) * 128 + 16 * zones) || !s.stagedOk x last zones then ferryErr n eArg
  else if 262144 < size then ferryErr n eNoSpace
  else all [
    fabricStore .keeper s.mapHome (s.stagedBytes x last zones), setF SVE_CMAP_BASE.ADDR 0 (s.mapHome / 4096), setR .SVE_CMAP_CFG 0 (fieldBits .SVE_CMAP_CFG cfg),
    deviceCopy .SVE_CMAP_BASE 0, deviceCopy .SVE_CMAP_CFG 0, .ask fun t => mapProtect t.mapBase t.mapLen, mapSaved, firstExtents, ferryOk n [size]]
def execMapCommit (n : Fin 8) (size : Word) (s : State) := (serve n 0x0201 (clsA ||| clsS) false (mapCommitCmd n size.toNat)).exec s

/-- BAND_UPDATE (R54, R58): a head's BIAS, and DRIFT where asked; TRK_OFS stays (R55). -/
def bandUpdateCmd (n size : Nat) : Prog := .ask fun s =>
  let b := nbits (s.req n 4) 15 0
  let a := nbits (s.req n 4) 17 16
  let arm := nbits (s.req n 5) 2 0
  if s.get SVE_CMAP_CFG.LAST_BAND 0 < b ∨ 5 < arm ∨ !entValid (s.recEntry b a arm) then ferryErr n eArg
  else mapChange n size (recWrite b a fun ws =>
    setWord (1 + arm) 11 0 (nbits (s.req n 6) 11 0) (if nbit (s.req n 5) 8 then setWord (1 + arm) 30 30 1 ws else ws))
def execBandUpdate (r : BandReq) (s : State) := (serve r.n 0x0202 clsA false (bandUpdateCmd r.n r.size.toNat)).exec s

/-- The band's UNREACH event is answered: its header says from here on what holds (R62). -/
def unreachDone (a b : Nat) : Prog := .upd (.sve fun x => { x with unreach := x.unreach.filter fun e => e != (a, b) })

/-- BAND_UNREACH (R58, R62). -/
def bandUnreachCmd (n size : Nat) : Prog := .ask fun s =>
  let b := nbits (s.req n 4) 15 0
  let a := nbits (s.req n 4) 17 16
  if s.get SVE_CMAP_CFG.LAST_BAND 0 < b ∨ !hdrValid (s.recHdr b a) then ferryErr n eArg
  else mapChange n size (.seq (recWrite b a (setWord 0 30 30 (b2n (nbit (s.req n 5) 0)))) (unreachDone a b))
def execBandUnreach (r : BandReq) (s : State) := (serve r.n 0x0203 clsA false (bandUnreachCmd r.n r.size.toNat)).exec s

/-- BAND_RELOCATE (R58, R63, R64): the records of (b, a) and of its zone's spare band. -/
def bandRelocateCmd (n size : Nat) : Prog := .ask fun s =>
  let b := nbits (s.req n 4) 15 0
  let a := nbits (s.req n 4) 17 16
  let b' := nbits (s.req n 5) 15 0
  let last := s.get SVE_CMAP_CFG.LAST_BAND 0
  if last < b ∨ last < b' ∨ b = b' ∨ !hdrValid (s.recHdr b a) ∨ !nbit (s.recHdr b' a) 28 ∨ s.spareBand b ≠ b' then ferryErr n eArg
  else if nbit (s.recHdr b' a) 27 then ferryErr n eState
  else mapChange n size (all [
    recWrite b' a fun ws => setWord 0 27 27 1 (setWord 0 15 0 b (ws.take 1 ++ (List.range 6).map fun k => BitVec.ofNat 32 (s.req n (6 + k)))),
    recWrite b a fun ws => setWord 0 29 29 1 (setWord 0 15 0 b' ws), unreachDone a b])
def execBandRelocate (r : BandReq) (s : State) := (serve r.n 0x0204 clsA false (bandRelocateCmd r.n r.size.toNat)).exec s

/-- Bands of the zone table. -/
def State.tableBands (s : State) : List Nat := (List.range s.zones).flatMap fun z =>
  (List.range ((s.zoneFirst z + s.zoneTracks z + 255) / 256 - s.zoneFirst z / 256)).map (s.zoneFirst z / 256 + ·)

/-- The spare that step 2 of Table 2.16 finds fit for actuator `a`. -/
def State.fitSpare (s : State) (a : Nat) : Option Nat :=
  let w := s.slotMap a
  let arm := nbits w 18 16
  if nbit w 19 ∧ s.headState (6 * a + arm) = hSpare ∧ (s.tableBands.all fun b => entValid (s.recEntry b a arm)) then some arm else none

/-- Retirement of head `h` from slot `sl` (Table 2.16, steps 1 to 4): `bad` ends it where a check of step 2 fails, `done` follows with the arm position
now in the slot. -/
def retire (h sl : Nat) (bad : Prog) (done : Nat → Prog) : Prog := .seq
  (whenS (fun s => s.headState h != hFailed) (headTo h hFailed))
  (.ask fun s =>
    let a := h / 6
    match s.fitSpare a with
    | none => bad
    | some arm => all [
        setR .SVE_REBUILD a (2 ^ 31 + sl <<< 28 + (h % 6) <<< 24), deviceCopy .SVE_REBUILD a,
        slotMapProg .keeper a (setBits (setBits (BitVec.ofNat 64 (s.slotMap a)) (4 * sl + 2) (4 * sl) arm) 19 16 0).toNat,
        headTo h hRetired, headTo (6 * a + arm) hInSlot, .upd (.kpr fun k => { k with failedSince := k.failedSince.filter fun e => e.1 != h }), done arm])

/-- HEAD_RETIRE (R73). -/
def headRetireCmd (n : Nat) : Prog := .ask fun s =>
  let h := nbits (s.req n 4) 4 0
  match s.pathOfHead h with
  | some p => if ([hInSlot, hDegraded, hFailed] : List Nat).contains (s.headState h) then retire h (p % 4) (ferryErr n eState) fun arm => ferryOk n [arm]
      else ferryErr n eArg
  | none => ferryErr n eArg
def execHeadRetire (n : Fin 8) (s : State) := (serve n 0x0205 (clsA ||| clsS) false (headRetireCmd n)).exec s

/-- KEEPER_AUTO_RETIRE: no request within 10 s of the head's failure (R73). -/
def autoRetireProg (h : Nat) : Prog := .ask fun s =>
  match s.pathOfHead h with
  | some p => when (s.headState h == hFailed && (s.kpr.failedSince.any fun e => e.1 == h && decide (e.2 + 10 * tickSec ≤ s.ptm.ticks)) && !s.on PCX_KPR_STAT.RESTART 0) (retire h (p % 4) .skip fun _ => .skip)
  | none => .skip
def execKeeperAutoRetire (h : Fin 24) (s : State) := (autoRetireProg h).exec s

/-- REBUILD_ADVANCE (Table 2.16, steps 5 and 6). -/
def rebuildAdvanceCmd (n : Nat) : Prog := .ask fun s =>
  let a := nbits (s.req n 4) 1 0
  let w := nbits (s.req n 5) 15 0
  if !s.on SVE_REBUILD.ACTIVE a then ferryErr n eState
  else if w < s.get SVE_REBUILD.WMARK a ∨ s.get SVE_CMAP_CFG.LAST_BAND 0 + 1 < w then ferryErr n eArg
  else all [
    setF SVE_REBUILD.WMARK a w,
    when (s.tableBands.all fun b => decide (b < w)) (.seq (setF SVE_REBUILD.ACTIVE a 0) (almEvent bSVE kRecovery "rebuild complete" [a, s.get SVE_REBUILD.SLOT a])),
    deviceCopy .SVE_REBUILD a, ferryOk n []]
def execRebuildAdvance (n : Fin 8) (s : State) := (serve n 0x0206 clsA false (rebuildAdvanceCmd n)).exec s

/-- HEAD_GET. -/
def headGetCmd (n : Nat) : Prog := .ask fun s =>
  let h := nbits (s.req n 4) 4 0
  if 23 < h then ferryErr n eArg else keeperReads [(.SVE_HEAD_STATE, h), (.SVE_SLOT_MAP, h / 6), (.SVE_REBUILD, h / 6)] (ferryOk n)
def execHeadGet (n : Fin 8) (s : State) := (serve n 0x0207 clsAll false (headGetCmd n)).exec s

/-- BANK_WRITE (R181). -/
def bankWriteCmd (n : Nat) : Prog := .ask fun s =>
  let u := nbits (s.req n 4) 27 24
  let b := nbits (s.req n 4) 21 20
  let i := nbits (s.req n 4) 6 0
  let k := nbits (s.req n 5) 5 0
  if 11 < u ∨ k = 0 ∨ 56 < k ∨ 87 < i + k then ferryErr n eArg
  else .seq (each (List.range k) fun j => setF SVE_COEF.W ((u * 4 + b) * 128 + i + j) (coefHeld (i + j) (s.req n (6 + j)))) (ferryOk n [])
def execBankWrite (n : Fin 8) (s : State) := (serve n 0x0301 (clsA ||| clsS) false (bankWriteCmd n)).exec s

/-- BANK_COMMIT (R181). -/
def bankCommitCmd (n : Nat) : Prog := .ask fun s =>
  let u := nbits (s.req n 4) 27 24
  if 11 < u then ferryErr n eArg
  else all [cluCommitProg .keeper u (nbits (s.req n 4) 3 0), cluApplyProg u,
    .ask fun t => if t.on SVE_CLU_CTL.BANK_ERR u then ferryErr n eHw else ferryOk n [t.regValue .keeper .SVE_CLU_CTL u]]
def execBankCommit (n : Fin 8) (s : State) := (serve n 0x0302 (clsA ||| clsS) false (bankCommitCmd n)).exec s

/-- "Offset, value, mask" in words 4 to 6 (R459): a register word of block `blk` that `ok` admits is written and read back. -/
def maskedWrite (n blk : Nat) (ok : RegName → Bool) : Prog := .ask fun s =>
  match if s.req n 4 < 0x100000 then regWordAt (blk * 0x100000 + s.req n 4) else none with
  | none => ferryErr n eArg
  | some w =>
    if !ok w.1 then ferryErr n eArg
    else if (s.regDown w.1 w.2.1).isSome then ferryErr n eHw
    else
      let mask := s.req n 6
      let old := s.wordValue .keeper w
      all [wordReadFx .keeper w, wordWrite .keeper w ((s.req n 5 &&& mask) ||| (old - (old &&& mask))),
        .ask fun t => .seq (wordReadFx .keeper w) (ferryOk n [t.wordValue .keeper w])]

/-- Registers that SVE_WRITE may write: RWK ones outside group 0x02. -/
def sveWritable (r : RegName) : Bool :=
  (regFields r).any (fun f => f.acc == .rwk) && !([.SVE_SLOT_MAP, .SVE_HEAD_STATE, .SVE_REBUILD, .SVE_CMAP_BASE, .SVE_CMAP_CFG] : List RegName).contains r
def execSveWrite (n : Fin 8) (s : State) := (serve n 0x0303 (clsA ||| clsS) false (maskedWrite n bSVE sveWritable)).exec s

/-- SPIN: START or STOP, an event of the state (Table 8.5); STOP acts where both are asked for. -/
def State.spinMay (s : State) (start stop : Bool) : Bool :=
  if stop then ([spAccel, spRun, spChange, spSense, spRamp, spCatch, spShort] : List Nat).contains s.spn?
  else !start || ([spOff, spBrake, spShort] : List Nat).contains s.spn?
def spinCmd (n : Nat) : Prog := .ask fun s =>
  let start := nbit (s.req n 4) 0
  let stop := nbit (s.req n 4) 1
  if !s.spinMay start stop then ferryErr n eState
  else .seq (if stop then spnStop else when start spnStart) (.ask fun t => ferryOk n [t.regValue .keeper .SPN_STAT 0])
def execSpin (n : Fin 8) (s : State) := (serve n 0x0401 (clsA ||| clsM ||| clsS) false (spinCmd n)).exec s

def execSpnWrite (n : Fin 8) (s : State) := (serve n 0x0402 (clsA ||| clsS) false (maskedWrite n bSPN fun _ => true)).exec s

/-- ORR_SET (R240). -/
def execOrrSet (n : Fin 8) (s : State) :=
  (serve n 0x0403 (clsA ||| clsM ||| clsS) false (.ask fun t => .seq (regWrite .keeper .SPN_ORR_CFG 0 (t.req n 4)) (ferryOk n []))).exec s

/-- Entries of the staged plan from member `m` on. -/
def stagePlan (m : Nat) (es : List Nat) : Prog := each es.zipIdx fun e => .ask fun s =>
  let i := m + e.2
  setF SPL_PLAN_TX.W (i / 4) (setBits (BitVec.ofNat 64 (s.get SPL_PLAN_TX.W (i / 4))) (8 * (i % 4) + 7) (8 * (i % 4)) (e.1 % 256)).toNat

/-- A range of plan entries that a request names. -/
def planRange (w : Nat) : Option (Nat × Nat) :=
  let m := nbits w 8 0
  let k := nbits w 23 16
  if k = 0 ∨ 224 < k ∨ 512 < m + k then none else some (m, k)

/-- PLAN_STAGE (R266). -/
def planStageCmd (n : Nat) : Prog := .ask fun s => match planRange (s.req n 4) with
  | some (m, k) => .seq (stagePlan m ((wordsBytes ((List.range 56).map fun i => s.req n (5 + i))).take k)) (ferryOk n [])
  | none => ferryErr n eArg
def execPlanStage (n : Fin 8) (s : State) := (serve n 0x0404 (clsA ||| clsM ||| clsS) false (planStageCmd n)).exec s

/-- PLAN_SUBMIT (R266). -/
def planSubmitCmd (n : Nat) : Prog := .ask fun s => if s.splState ≠ mbMember then ferryErr n eState
  else .seq planSubmit (.ask fun t => ferryOk n [t.get SPL_PLAN_CTL.VER 0])
def execPlanSubmit (n : Fin 8) (s : State) := (serve n 0x0405 (clsA ||| clsM ||| clsS) false (planSubmitCmd n)).exec s

/-- The adopted plan's entries. -/
def State.planEntries (s : State) : List Nat := wordsBytes ((List.range 128).map fun i => s.get SPL_PLAN.W i)

/-- PLAN_GET. -/
def planGetCmd (n : Nat) : Prog := .ask fun s => match planRange (s.req n 4) with
  | some (m, k) =>
    let es := (s.planEntries.drop m).take k
    ferryOk n ([s.get SPL_PLAN_CTL.VER 0, s.get SPL_PLAN_CTL.PLAN_ORIGIN 0] ++ (List.range ((k + 3) / 4)).map (bytesWords es))
  | none => ferryErr n eArg
def execPlanGet (n : Fin 8) (s : State) := (serve n 0x0406 clsAll false (planGetCmd n)).exec s

def execSplWrite (n : Fin 8) (s : State) := (serve n 0x0501 (clsA ||| clsM ||| clsS) false (maskedWrite n bSPL fun _ => true)).exec s

/-- The registers of ARCH_STATUS, in the order of its result. -/
def archRegs : List (RegName × Nat) := [(.SPL_STAT, 0), (.SPL_SIDE_STAT, 0), (.SPL_SIDE_STAT, 1), (.SPL_MER_STAT, 0), (.SPL_FW_STAT, 0)] ++
  (List.range 16).map fun i => (.SPL_MEMBERS, i)
def execArchStatus (n : Fin 8) (s : State) := (serve n 0x0502 clsAll false (keeperReads archRegs (ferryOk n))).exec s

/-- RELAY_REQ (R461): the request goes out in fragments; it ends with the remote result, or after 250 ms with TIMEOUT. -/
def relayReqCmd (n : Nat) : Prog := .ask fun s =>
  let d := nbits (s.req n 4) 8 0
  let x := s.kpr.relaySeq % 256
  let msg := (wordsBytes ((List.range 56).map fun i => s.req n (5 + i))).take (min 224 (s.req n 1 % 256 - 4))
  if s.splState ≠ mbMember then ferryErr n eState
  else all [
    .upd (.kpr fun k => { k with
      relaySeq := k.relaySeq + 1, relayOut := k.relayOut ++ [{ peer := d, xid := x, total := 0, chan := n, time := s.ptm.ticks }] }),
    relayQueue d (relayFragments 0 x msg), ferryWait n wtRelay x, relayPump]
def execRelayReq (n : Fin 8) (s : State) := (serve n 0x0503 (clsM ||| clsS) true (relayReqCmd n)).exec s

/-- RELAY_CFG (R461). -/
def execRelayCfg (n : Fin 8) (s : State) :=
  (serve n 0x0504 (clsM ||| clsS) true (.ask fun t => .seq (.upd (.kpr fun k => { k with relayCfg := t.req n 4 })) (ferryOk n []))).exec s

/-- CAL_RUN (R557). -/
def calRunCmd (n : Nat) : Prog := .ask fun s =>
  let cls := nbits (s.req n 4) 8 8
  let item := nbits (s.req n 4) 7 0
  let head := if cls = 1 then nbits (s.req n 5) 4 0 else 0
  if !calItemExists cls item ∨ 23 < head then ferryErr n eArg
  else if !s.calCond cls item head ∨ (cls = 1 ∧ item ≠ 0 ∧ s.calLastOf (8 + 4 * head) ≠ 2) then ferryErr n eState
  else if s.svc.calActive then ferryErr n eBusy
  else .seq (calStart cls item head) (ferryOk n [])
def execCalRun (n : Fin 8) (s : State) := (serve n 0x0601 (clsA ||| clsS) false (calRunCmd n)).exec s

/-- CAL_STATUS (R560). -/
def calStatusCmd (n : Nat) : Prog := .ask fun s =>
  let cls := nbits (s.req n 4) 8 8
  let item := nbits (s.req n 4) 7 0
  let head := if cls = 1 then nbits (s.req n 5) 4 0 else 0
  let e := calIndex cls item head
  let st := if s.svc.calActive ∧ s.svc.calClass = cls ∧ s.svc.calItem = item ∧ s.svc.calHead = head then 1 else s.calLastOf e
  if !calItemExists cls item ∨ 23 < head then ferryErr n eArg
  else ferryOk n (st :: if n = 5 then [s.calWord e 4 % 65536, s.calWord e 5 % 2 ^ 24, s.calWord e 6 % 2 ^ 24] else [])
def execCalStatus (n : Fin 8) (s : State) := (serve n 0x0602 (clsA ||| clsS) false (calStatusCmd n)).exec s

end Sys2Proof.Machine
end

