-- ==== Sys2Proof/Machine/Keeper.lean ====
section
/-! DEFINITION. What the Keeper does on Ferry's commands of groups 0x07 to 0x0B: Survey, Almanac, firmware images, namespaces and security, registers and
vendor log pages (Table 16.9, R297, R350 to R352, R460 to R468, R526, R529, R530, R553, R556). -/
namespace Sys2Proof.Machine

def execSvcWrite (n : Fin 8) (s : State) := (serve n 0x0701 (clsA ||| clsS) false (maskedWrite n bSVC fun _ => true)).exec s

/-- SVY_RESULT (R526): the record counts as read. -/
def svyResultCmd (n : Nat) : Prog := .ask fun s =>
  let k := s.req n 4
  if 63 < k then ferryErr n eArg
  else .seq (.upd (.svc fun x => { x with unread := x.unread.filter (· != k) })) (ferryOk n ((List.range 4).map fun w => s.get SVC_SVY_RES.W (4 * k + w)))
def execSvyResult (n : Fin 8) (s : State) := (serve n 0x0702 (clsA ||| clsS ||| clsR) false (svyResultCmd n)).exec s

/-- SVY_FULL (R529, R530). -/
def svyFullCmd (n : Nat) : Prog := .ask fun s =>
  if nbit (s.req n 4) 0 then .seq (setF SVC_SVY_STAT.SHUT_ARM 0 1) (ferryOk n [])
  else if s.mode ≠ mService then ferryErr n eState
  else .seq svyFullStart (ferryOk n [])
def execSvyFull (n : Fin 8) (s : State) := (serve n 0x0703 (clsA ||| clsS) false (svyFullCmd n)).exec s

/-- ALM_GRANT (R553). -/
def execAlmGrant (n : Fin 8) (s : State) :=
  (serve n 0x0801 (clsM ||| clsS) false (.ask fun t => .seq (setF ALM_CFG.APP_GRANT 0 (t.req n 4 % 2)) (ferryOk n []))).exec s

/-- The life of a nonce in ticks: 60 s (R460). -/
def nonceLife : Nat := 60 * tickSec

/-- A signed command (R460): it uses up its channel's nonce; without a live one, or with a signature that does not verify, it ends with AUTH. -/
def signed (n : Nat) (sigOk : Bool) (p : Prog) : Prog := .ask fun s =>
  let live := s.kpr.nonces.any fun e => e.1 == n && decide (s.ptm.ticks ≤ e.2.1 + nonceLife)
  .seq (.upd (.kpr fun k => { k with nonces := k.nonces.filter fun e => e.1 != n })) (if live && sigOk then p else ferryErr n eAuth)

/-- ALM_CLEAR (R556): done once the ring is zeroed. -/
def execAlmClear (n : Fin 8) (sigOk : Bool) (s : State) := (serve n 0x0802 clsS false (signed n sigOk (.seq almClear (ferryWait n wtClear 0)))).exec s

/-- The records of the ring at or above a severity, of one subsystem. -/
def State.almOf (s : State) (sev sub : Nat) : Nat := (List.range s.almCount).countP fun k =>
  let w := s.memW (almAddr (s.get ALM_OLDEST.N 0 + k))
  decide (sev ≤ nbits w 15 12) && nbits w 11 8 == sub

/-- ALM_SUMMARY: counts saturate at 16 bits (assumption log 35). -/
def State.almSummary (s : State) (sev : Nat) : List Nat :=
  ((List.range 8).map fun i => min 65535 (s.almOf sev (2 * i)) + 65536 * min 65535 (s.almOf sev (2 * i + 1))) ++ [s.get ALM_NEWEST.N 0]
def execAlmSummary (n : Fin 8) (s : State) := (serve n 0x0803 clsAll false (.ask fun t => ferryOk n (t.almSummary (t.req n 4 % 16)))).exec s

/-- The header at `a` (Table 16.11) is one of the component's. -/
def State.headerOk (s : State) (a part : Nat) : Bool :=
  s.memW a == 0x4F4E5649 && nbits (s.memW (a + 4)) 31 24 == partType part && decide (s.memW (a + 12) ≤ partSize part - 256)
def State.headerSvn (s : State) (a : Nat) : Nat := s.memW (a + 4) % 65536

/-- The slot that FW_LOAD writes: the one that is not active for the component. -/
def State.idleSlot (s : State) (part : Nat) : Nat := if (s.fwPart 0 part).any (·.active) then 1 else 0

/-- What the Keeper records of a part. -/
def setPart (f : FwPart) : Prog := .upd (.kpr fun k => { k with parts := (k.parts.filter fun e => !(e.slot == f.slot && e.part == f.part)) ++ [f] })

/-- FW_LOAD (R464, R465); `verified` is the outcome of DIGEST and SIG over the part as read back. -/
def fwLoadCmd (n : Nat) (verified : Bool) : Prog := .ask fun s =>
  let part := s.req n 4 % 2
  let a := s.reqAddr n 5
  let len := s.req n 7
  let slot := s.idleSlot part
  if !s.dramOk a len || decide (len < 256 ∨ partSize part < len) then ferryErr n eArg
  else if s.headerSvn a < s.minSvnOf part then ferryErr n eRollback
  else
    let ok := verified && s.headerOk a part
    all [
      fabricStore .keeper (partAddr slot part) (s.bytes a len),
      setPart { slot, part, valid := ok, active := false, svn := s.headerSvn a, ver := s.memW (a + 8) },
      if ok then ferryOk n [slot, s.headerSvn a, s.memW (a + 8)] else ferryErr n eAuth]
def execFwLoad (n : Fin 8) (verified : Bool) (s : State) := (serve n 0x0901 (clsA ||| clsS) false (fwLoadCmd n verified)).exec s

/-- FW_COMMIT (R466). -/
def fwCommitCmd (n : Nat) : Prog := .ask fun s =>
  let part := s.req n 4 % 2
  let slot := nbits (s.req n 4) 8 8
  let now := nbit (s.req n 4) 16
  if s.cqe.activating then ferryErr n eBusy
  else if !((s.fwPart slot part).any (·.valid)) || (now && part == 0) then ferryErr n eState
  else .seq (.upd (.kpr fun k => { k with fwNext := (k.fwNext.filter fun e => e.1 != part) ++ [(part, slot)] }))
    (if now then .seq activationStart (ferryWait n wtActivate slot) else ferryOk n [])
def execFwCommit (n : Fin 8) (s : State) := (serve n 0x0902 (clsA ||| clsS) false (fwCommitCmd n)).exec s

/-- FW_INFO: per slot and component validity, activity, SVN, then VERSION. -/
def State.fwInfo (s : State) : List Nat := ([(0, 0), (0, 1), (1, 0), (1, 1)] : List (Nat × Nat)).flatMap fun e =>
  match s.fwPart e.1 e.2 with
  | some f => [b2n f.valid <<< 31 ||| b2n f.active <<< 30 ||| f.svn, f.ver]
  | none => [0, 0]
def execFwInfo (n : Fin 8) (s : State) := (serve n 0x0903 clsAll false (.ask fun t => ferryOk n t.fwInfo)).exec s

/-- The protection level of byte 3,072 (R350). -/
def levelOf (b : Nat) : Option Nat := ([1, 0, 1, 2, 3] : List Nat)[b]?

/-- Free extents that may be allocated, by base (R351). -/
def State.openExtents (s : State) : List (Nat × Nat × Nat × Nat) :=
  (s.cqe.extents.filter fun e => decide (e.2.2.2 < 63)).mergeSort fun a b => decide (a.1 ≤ b.1)

/-- The end of the run of extents that starts at `base`. -/
def runEnd : List (Nat × Nat × Nat × Nat) → Nat → Nat
  | [], e => e
  | x :: l, e => runEnd l (if x.1 = e then e + x.2.1 else e)

/-- The lowest base that leaves `units` contiguous free units (R350 step 3). -/
def State.extentFor (s : State) (units : Nat) : Option Nat :=
  (s.openExtents.find? fun x => decide (x.1 + units ≤ runEnd (s.openExtents.filter fun y => decide (x.1 ≤ y.1)) x.1)).map (·.1)

/-- What is left of an extent when the units from `lo` to `hi` are taken. -/
def extentCut (lo hi : Nat) (x : Nat × Nat × Nat × Nat) : List (Nat × Nat × Nat × Nat) :=
  let e := x.1 + x.2.1
  if hi ≤ x.1 ∨ e ≤ lo then [x]
  else (if x.1 < lo then [(x.1, lo - x.1, x.2.2)] else []) ++ if hi < e then [(hi, e - hi, x.2.2)] else []

/-- Table entry and key slot of a new namespace, and the arguments of NS_CREATE that R350 allows. -/
def State.freeEntry (s : State) : Option Nat := (List.range 128).find? fun k => s.get CQE_NS_CFG.STATE k == 0 || s.get CQE_NS_CFG.STATE k == 3
def State.freeKeySlot (s : State) : Option Nat := (List.range 128).find? fun k =>
  s.keyState k == 0 && !((List.range 128).any fun n => (s.get CQE_NS_CFG.STATE n == 1 || s.get CQE_NS_CFG.STATE n == 2) && s.get CQE_NS_CFG.KSLOT n == k)
def formatOk (lbaf pit pil ext : Nat) : Bool := lbaf == 1 || (pit == 0 && pil == 0 && ext == 0)

/-- The words that a generated key consists of: K1 and K2 differ (R295). -/
def keyWords (l : List Nat) : List Nat := if l.take 8 = l.drop 8 then ((l.headD 0) ^^^ 1) :: l.tail else l

/-- A generated key is loaded into a slot and kept in the key vault for namespace `k` (R295, R297). -/
def keyFresh (k slot kgen : Nat) (hostEn : Bool) : Prog := freshWords 16 fun l => all [
  each (keyWords l).zipIdx fun e => setF MPC_KEY_DATA.KEY e.2 e.1,
  .ask fun s => .upd (.kpr fun x => { x with vault := (x.vault.filter fun e => e.1 != k) ++ [(k, s.keyData)] }),
  setF MPC_KEY_CTL.SLOT 0 slot, .ask (keyOperate 0 slot kgen hostEn)]

/-- What the Keeper records of a namespace's generations: KGEN, GEN_CNT, erasures. -/
def State.gensOf (s : State) (k : Nat) : Nat × Nat × Nat := ((s.cqe.gens.find? fun e => e.1 == k).map (·.2)).getD (s.get MPC_KEY_STAT.KGEN (s.get CQE_NS_CFG.KSLOT k), 0, 0)
def setGens (k kgen cnt erasures : Nat) : Prog := .upd (.cqe fun x => { x with gens := (x.gens.filter fun e => e.1 != k) ++ [(k, kgen, cnt, erasures)] })

/-- A table entry is copied to device configuration. -/
def nsCopy (k : Nat) : Prog := all [deviceCopy .CQE_NS_CFG k, deviceCopy .CQE_NS_BASE k, deviceCopy .CQE_NS_ROWS k]

/-- NS_CREATE (R350, R351). -/
def nsCreateCmd (n : Nat) : Prog := .ask fun s =>
  let size := s.reqAddr n 4
  let w := s.req n 6
  let csi := nbits w 15 8
  match levelOf (nbits w 7 0) with
  | none => ferryErr n eArg
  | some l =>
    if size = 0 ∨ (csi ≠ 0 ∧ csi ≠ 2) ∨ !formatOk (nbits w 16 16) (nbits w 18 17) (nbits w 19 19) (nbits w 20 20) then ferryErr n eArg
    else
      let d := levelD l
      let zu := if csi = 2 then 16 else 1
      let units := ((size + d - 1) / d + 256 * zu - 1) / (256 * zu) * zu
      match s.extentFor units with
      | none => ferryErr n eNoSpace
      | some base => match s.freeEntry, s.freeKeySlot with
        | some k, some slot =>
          let used := s.openExtents.filter fun x => decide (x.1 < base + units ∧ base < x.1 + x.2.1)
          let kgen := (used.foldl (fun g x => max g x.2.2.1) 0 + 1) % 64
          let cnt := used.foldl (fun g x => max g x.2.2.2) 0 + 1
          all [
            .upd (.cqe fun x => { x with
              extents := x.extents.flatMap fun e => if used.contains e then extentCut base (base + units) e else [e]
              zones := x.zones.filter fun z => z.1.1 != k }),
            keyFresh k slot kgen true, setGens k kgen cnt 0,
            setF CQE_NS_BASE.UNIT k base, setF CQE_NS_ROWS.UNITS k units,
            setR .CQE_NS_CFG k (1 <<< 30 ||| nbits (s.req n 7) 1 0 <<< 28 ||| l <<< 26 ||| b2n (csi == 2) <<< 25 ||| nbits w 16 16 <<< 24 |||
              nbits w 18 17 <<< 22 ||| nbits w 19 19 <<< 21 ||| nbits w 20 20 <<< 20 ||| (k % 4) <<< 18 ||| 1 <<< 17 ||| slot),
            nsCopy k, ferryOk n [k + 1, 256 * units * d % 2 ^ 32, 256 * units * d / 2 ^ 32]]
        | _, _ => ferryErr n eBusy
def execNsCreate (n : Fin 8) (s : State) := (serve n 0x0A01 clsA false (nsCreateCmd n)).exec s

/-- A VALID namespace that an NSID names. -/
def State.nsValid (s : State) (nsid : Nat) : Option Nat := if nsid ≠ 0 ∧ nsid ≤ 128 ∧ s.get CQE_NS_CFG.STATE (nsid - 1) = 1 then some (nsid - 1) else none

/-- NS_DELETE (R352): from this tick the namespace is not VALID; the rest follows once it holds no command. -/
def nsDeleteCmd (n : Nat) : Prog := .ask fun s => match s.nsValid (s.req n 4) with
  | some k => all [setF CQE_NS_CFG.STATE k 2, nsCopy k, ferryWait n wtDelete k]
  | none => ferryErr n eArg
def execNsDelete (n : Fin 8) (s : State) := (serve n 0x0A02 clsA false (nsDeleteCmd n)).exec s

/-- Rows return to the free-extent list, joined to equal neighbours (R351). -/
def extentAdd (x : Nat × Nat × Nat × Nat) (l : List (Nat × Nat × Nat × Nat)) : List (Nat × Nat × Nat × Nat) :=
  let below := l.find? fun e => e.1 + e.2.1 == x.1 && e.2.2 == x.2.2
  let above := l.find? fun e => e.1 == x.1 + x.2.1 && e.2.2 == x.2.2
  (l.filter fun e => some e != below && some e != above) ++
    [((below.map (·.1)).getD x.1, (below.map (·.2.1)).getD 0 + x.2.1 + (above.map (·.2.1)).getD 0, x.2.2)]

/-- NAMESPACE_DELETE_FINISH: entry `k` is being deleted and no command of it is held (R352, steps 3 and 4). -/
def deleteFinishProg (k : Nat) : Prog := .ask fun s =>
  when (s.get CQE_NS_CFG.STATE k == 2 && !(s.cqe.cmds.any fun c => c.ns == some k) && !s.on PCX_KPR_STAT.RESTART 0) (all [
    nsDiscard k, .ask (keyOperate 3 (s.get CQE_NS_CFG.KSLOT k) 0 false),
    .upd (.kpr fun x => { x with vault := x.vault.filter fun e => e.1 != k }),
    .upd (.cqe fun x => { x with
      extents := extentAdd (s.get CQE_NS_BASE.UNIT k, s.get CQE_NS_ROWS.UNITS k, (s.gensOf k).1, (s.gensOf k).2.1) x.extents
      gens := x.gens.filter (fun e => e.1 != k), zones := x.zones.filter fun z => z.1.1 != k }),
    setF CQE_NS_CFG.STATE k 0, nsCopy k, waitSweep])
def execNamespaceDeleteFinish (k : Fin 128) (s : State) := (deleteFinishProg k).exec s

/-- NS_ATTACH (R352). -/
def nsAttachCmd (n : Nat) : Prog := .ask fun s => match s.nsValid (s.req n 4) with
  | some k => all [setF CQE_NS_CFG.ATT k (nbits (s.req n 5) 1 0), nsCopy k, ferryOk n []]
  | none => ferryErr n eArg
def execNsAttach (n : Fin 8) (s : State) := (serve n 0x0A03 clsA false (nsAttachCmd n)).exec s

/-- A cryptographic erase of namespace `k` (R297, R351): LOCK, discard, LOAD with KGEN + 1; the slot is then as it was towards the host. -/
def cryptoErase (k : Nat) : Prog := .ask fun s =>
  let slot := s.get CQE_NS_CFG.KSLOT k
  let g := s.gensOf k
  all [.ask (keyOperate 1 slot 0 false), nsDiscard k, keyFresh k slot ((g.1 + 1) % 64) (s.keyState slot == 2),
    setGens k ((g.1 + 1) % 64) (min 63 (g.2.1 + 1)) (g.2.2 + 1)]

/-- NS_FORMAT (R297): in SERVICE it formats the rows, so that their generations count anew. -/
def nsFormatCmd (n : Nat) : Prog := .ask fun s => match s.nsValid (s.req n 4) with
  | none => ferryErr n eArg
  | some k =>
    let w := s.req n 5
    let service := s.mode == mService
    if !formatOk (nbits w 1 1) (nbits w 3 2) (nbits w 4 4) (nbits w 5 5) then ferryErr n eArg
    else if nbit w 0 && !service && decide (63 ≤ (s.gensOf k).2.2) then ferryErr n eState
    else all [
      when service (setGens k (s.gensOf k).1 0 0), when (nbit w 0) (cryptoErase k),
      setF CQE_NS_CFG.LBAF k (nbits w 1 1), setF CQE_NS_CFG.PIT k (nbits w 3 2), setF CQE_NS_CFG.PIL k (nbits w 4 4), setF CQE_NS_CFG.EXT k (nbits w 5 5),
      nsCopy k, ferryOk n []]
def execNsFormat (n : Fin 8) (s : State) := (serve n 0x0A04 clsA false (nsFormatCmd n)).exec s

/-- What a TCG payload asks of key slots (R296, R297): a 64th erasure is refused. -/
def tcgDo (t : TcgAct) : Prog := .ask fun s =>
  let on (k : Nat) (p : Prog) : Prog := when (s.get CQE_NS_CFG.STATE k == 1) p
  match t with
  | .lock k => on k (.ask (keyOperate 1 (s.get CQE_NS_CFG.KSLOT k) 0 false))
  | .unlock k => on k (.ask (keyOperate 2 (s.get CQE_NS_CFG.KSLOT k) 0 false))
  | .genKey k => on k (when (decide ((s.gensOf k).2.2 < 63)) (cryptoErase k))

/-- The buffer of a TCG payload or a log page: in DRAM, of at most `most` bytes. -/
def State.bufferOk (s : State) (n most : Nat) : Bool := decide (s.req n 7 ≤ most) && s.dramOk (s.reqAddr n 5) (s.req n 7)

/-- TCG_SEND: the payload goes to the Keeper's TCG service, whose status is free (assumption log 36); `acts` is what it asks of key slots. -/
def tcgSendCmd (n : Nat) (acts : List TcgAct) : Prog := .ask fun s =>
  if !s.bufferOk n 65536 then ferryErr n eArg else .seq (each acts tcgDo) (fresh fun v => ferryOk n [v % 2 ^ 32])
def execTcgSend (n : Fin 8) (acts : List TcgAct) (s : State) := (serve n 0x0A05 clsA false (tcgSendCmd n acts)).exec s

/-- TCG_RECV: what the service answers (assumption log 36), as much as the buffer takes. -/
def tcgRecvCmd (n : Nat) (data : List Byte) : Prog := .ask fun s =>
  let d := data.take (s.req n 7)
  if !s.bufferOk n 65536 then ferryErr n eArg else .seq (fabricStore .keeper (s.reqAddr n 5) d) (ferryOk n [d.length])
def execTcgRecv (n : Fin 8) (data : List Byte) (s : State) := (serve n 0x0A06 clsA false (tcgRecvCmd n data)).exec s

/-- CHALLENGE (R460): the nonce is free. -/
def challengeCmd (n : Nat) : Prog := freshWords 8 fun l => .seq
  (.ask fun s => .upd (.kpr fun k => { k with nonces := (k.nonces.filter fun e => e.1 != n) ++ [(n, s.ptm.ticks, l)] }))
  (ferryOk n (l ++ [Config.splInstance % 2 ^ 32]))
def execChallenge (n : Fin 8) (s : State) := (serve n 0x0A07 (clsM ||| clsS) false (challengeCmd n)).exec s

/-- DEBUG_UNLOCK, DEBUG_LOCK (R468). -/
def execDebugUnlock (n : Fin 8) (sigOk : Bool) (s : State) :=
  (serve n 0x0A08 clsS false (signed n sigOk (.seq (setF PCX_DBG_STAT.UNLOCKED 0 1) (ferryOk n [])))).exec s
def execDebugLock (n : Fin 8) (s : State) := (serve n 0x0A09 (clsA ||| clsS) false (.seq (setF PCX_DBG_STAT.UNLOCKED 0 0) (ferryOk n []))).exec s

/-- A word that REG_READ reads: ALM's reader registers as the service reader's on channel 5, and as no reader's on channel 4 (R553); others as the
Keeper reads them. -/
def State.serviceWord (s : State) (n : Nat) (w : RegName × Nat × Bool) : Nat :=
  let reader := n == 5
  match w.1 with
  | .ALM_CURSOR => if reader then (s.almReader 1).cursor else 0
  | .ALM_WIN => if reader then s.almWord 1 w.2.1 else 0
  | _ => s.wordValue .keeper w
def serviceFx (n : Nat) (w : RegName × Nat × Bool) : Prog :=
  match w.1 with
  | .ALM_CURSOR => .skip
  | .ALM_WIN => when (n == 5) (if w.2.1 = 0 then windowLatch 1 else when (w.2.1 == 7) (windowAdvance 1))
  | _ => wordReadFx .keeper w

/-- REG_READ: words one after another; one that does not answer ends it with HW. -/
def regReadCmd (n : Nat) : Prog := .ask fun s =>
  let a := s.reqAddr n 4
  let k := nbits (s.req n 6) 5 0
  if a < regBase ∨ regBase + 0x1000000 < a + 4 * k ∨ a % 4 ≠ 0 ∨ k = 0 ∨ 56 < k then ferryErr n eArg
  else (accessWords (a - regBase) (4 * k)).foldr (fun w go acc => .ask fun t =>
      match t.wordDown w.2 w.1 with
      | some src => .seq (accessReport .keeper atRead (regBase + w.1) 4 src) (ferryErr n eHw)
      | none => match w.2 with
        | some x => .seq (serviceFx n x) (go (acc ++ [t.serviceWord n x]))
        | none => go (acc ++ [0]))
    (ferryOk n) []
def execRegRead (n : Fin 8) (s : State) := (serve n 0x0B01 (clsM ||| clsS) false (regReadCmd n)).exec s

/-- The vendor log pages whose layout the spec gives (Table 16.10); the others' bytes are `page`, whose layout is the Keeper's (assumption log 37). -/
def State.logPage (s : State) (page : Nat) (other : List Byte) : List Byte :=
  let words (l : List Nat) : List Byte := l.flatMap (leBytes 4)
  if page = 0xC3 then leBytes 2 (s.get SPL_PLAN_CTL.VER 0) ++ leBytes 2 (s.get SPL_PLAN_CTL.PLAN_ORIGIN 0) ++ s.planEntries.map (BitVec.ofNat 8)
  else if page = 0xC4 then words (archRegs.map fun r => s.regValue .keeper r.1 r.2)
  else if page = 0xC5 then words (s.almSummary 0)
  else if page = 0xC7 then words ((List.range 256).map fun i => s.get SVC_SVY_RES.W i)
  else if page = 0xC8 then words s.fwInfo
  else if page = 0xC9 then words [s.regValue .keeper .SPN_STAT 0, s.regValue .keeper .SPN_ORR_STAT 0]
  else other

/-- VLOG_GET (R462): page 0xC5 only while granted. -/
def vlogGetCmd (n : Nat) (other : List Byte) : Prog := .ask fun s =>
  let page := s.req n 4 % 256
  if page < 0xC0 ∨ 0xC9 < page ∨ !s.bufferOk n (2 ^ 32) ∨ (page = 0xC5 ∧ !s.on ALM_CFG.APP_GRANT 0) then ferryErr n eArg
  else
    let d := ((s.logPage page other).drop (s.req n 8)).take (s.req n 7)
    .seq (fabricStore .keeper (s.reqAddr n 5) d) (ferryOk n [d.length])
def execVlogGet (n : Fin 8) (other : List Byte) (s : State) := (serve n 0x0B02 (clsA ||| clsM) false (vlogGetCmd n other)).exec s

/-- VLOG_PUT (R462): the page's entries are staged and submitted as a plan. -/
def vlogPutCmd (n : Nat) : Prog := .ask fun s =>
  if s.req n 4 % 256 ≠ 0xC3 ∨ !s.bufferOk n 516 ∨ s.req n 7 < 4 then ferryErr n eArg
  else if s.splState ≠ mbMember then ferryErr n eState
  else all [stagePlan 0 ((s.bytes (s.reqAddr n 5 + 4) (s.req n 7 - 4)).map BitVec.toNat), planSubmit, ferryOk n []]
def execVlogPut (n : Fin 8) (s : State) := (serve n 0x0B03 (clsA ||| clsM) false (vlogPutCmd n)).exec s

/-- MI_VENDOR_COMMAND: the endpoint writes a vendor command's request into channel 4's slot and posts it (R316, Table 16.2); a channel that is not free
answers so. -/
def miVendorProg (words : List Nat) : Prog := mgmt (.ask fun s => 
  if s.fySt 4 = fyPosted ∨ s.fySt 4 = fyTaken then mgmtAnswer "busy" []
  else .seq
    (each (List.range 64) fun i => regWrite .hif .PCX_FRY_REQ (64 * 4 + i)
      (if i = 0 then words.headD 0 / 256 * 256 + s.nextSeq 4 else words.getD i 0))
    (doorbell .hif 4 true false (s.nextSeq 4)))
def execMiVendorCommand (words : List Word) (s : State) := (miVendorProg (words.map BitVec.toNat)).exec s

end Sys2Proof.Machine
end

