-- ==== Sys2Proof/Machine/Dmf.lean ====
section
/-! DEFINITION. DMF's bursts and descriptor fetches (R398 to R405), and what the fast path does with a sector that has landed in its slot (R327, R390). -/
namespace Sys2Proof.Machine

def dmaOf (n : Nat) : Master := .dma (Fin.ofNat 64 n)

/-- Source index of destination byte `k` (R401). -/
def swapIdx (swap k : Nat) : Nat := if swap = 1 then k ^^^ 1 else if swap = 2 then k ^^^ 3 else if swap = 3 then k ^^^ 2 else k

/-- The bytes to the end of the line and of the page at an address (R402). -/
def toLineEnd (a : Nat) : Nat := min (64 - a % 64) (4096 - a % 4096)

/-- SRC_DONE and DST_DONE; the holding register keeps source bytes from the SWAP unit of DST_DONE on, since a unit may be written in parts. -/
def State.srcDone (s : State) (n : Nat) : Nat := s.get DMF_CH_PROG.SRC_DONE n
def State.dstDone (s : State) (n : Nat) : Nat := s.get DMF_CH_PROG.DST_DONE n
def unitOf (swap k : Nat) : Nat := k / swapUnit swap * swapUnit swap

/-- Sizes of the next destination and source bursts (R402). -/
def State.dstSize (s : State) (n : Nat) : Nat :=
  let d := s.desc n
  min (if d.dkind = 0 then toLineEnd (d.dst + s.dstDone n) else 64) (d.len - s.dstDone n)
def State.srcSize (s : State) (n : Nat) : Nat :=
  let d := s.desc n
  min (if d.skind = 0 then toLineEnd (d.src + s.srcDone n) else 64) (min (d.len - s.srcDone n) (128 - (s.srcDone n - s.dstDone n)))

/-- The holding register holds all the bytes that a destination burst needs (R402). -/
def State.dstReady (s : State) (n : Nat) : Bool :=
  let d := s.desc n
  let last := s.dstDone n + s.dstSize n
  decide (0 < s.dstSize n ∧ unitOf d.swap (last + swapUnit d.swap - 1) ≤ s.srcDone n)

/-- Counts after a burst that has succeeded (R403, R411). -/
def chCounts (n src dst : Nat) : Prog := all [
  setF DMF_CH_PROG.SRC_DONE n src, setF DMF_CH_PROG.DST_DONE n dst, setF DMF_CH_PROG.HOLD n (src - dst), setF DMF_CH_STAT.RETRIES n 0,
  .ask fun s => setChan n fun c => { c with mark := s.time }]

/-- Register words that a burst in register space touches, in elements of `w` bytes, and the first source that ends it with a bus error. -/
def regSpan (a len : Nat) : List (Nat × Option (RegName × Nat × Bool)) := accessWords (a - regBase) len
def State.spanFault (s : State) (n typ a len w : Nat) : Option Nat :=
  match (List.range (len / w)).findSome? fun k => s.regFault (dmaOf n) typ (a - regBase + w * k) w with
  | some src => some src
  | none => (regSpan a len).findSome? fun e => s.wordDown e.2 e.1

/-- A channel reads `len` bytes at a physical address. -/
def chRead (n a len w : Nat) (p : List Byte → Prog) : Prog := .ask fun s =>
  if s.region a len = some .regs then
    match s.spanFault n atRead a len w with
    | some src => .seq (accessReport (dmaOf n) atRead a len src) (chBusError n)
    | none => (regSpan a len).foldr (fun e go acc => .ask fun t => match e.2 with
        | some x => .seq (wordReadFx (dmaOf n) x) (go (acc ++ leBytes 4 (t.wordValue (dmaOf n) x)))
        | none => go (acc ++ leBytes 4 0)) p []
  else chAccess n atRead a len (.seq (when (s.region a len == some .dram) (dramTouch (dmaOf n) a len)) (p (s.bytes a len)))

/-- A channel writes bytes at a physical address. -/
def chWrite (n a w : Nat) (bs : List Byte) (p : Prog) : Prog := .ask fun s =>
  let len := bs.length
  if s.region a len = some .regs then
    match s.spanFault n atWrite a len w with
    | some src => .seq (accessReport (dmaOf n) atWrite a len src) (chBusError n)
    | none => .seq (each (regSpan a len).zipIdx fun e => match e.1.2 with
        | some x => wordWrite (dmaOf n) x (ofLeBytes ((bs.drop (4 * e.2)).take 4))
        | none => .skip) p
  else chAccess n atWrite a len (.seq (if s.region a len = some .dram then dramStore (dmaOf n) a bs else memBytes a bs) p)

/-- Every byte of slot `k` that a read of namespace entry `n` sends has been placed there: the sector, and its protection information (R30, R379). -/
def State.slotLanded (s : State) (n k : Nat) : Bool :=
  rangeHas (s.slotAddr k) (s.slotAddr k + 4096) s.dmf.landed && (!s.nsHasPi n || rangeHas (s.slotMeta k) (s.slotMeta k + 8) s.dmf.landed)

/-- LBAs of held reads whose sector has landed: command, LBA and slot. -/
def State.landed (s : State) : List (Nat × Nat × Nat) := s.cqe.cmds.flatMap fun c =>
  match c.ns with
  | none => []
  | some n => c.lbas.zipIdx.filterMap fun e =>
      match e.1.slot with
      | some k => if c.kind == kdRead && e.1.st == 1 && s.slotLanded n k then some (c.ctag, e.2, k) else none
      | none => none

/-- A landed LBA goes to the host, and into the content cache unless a newer version has entered (R327, R389, R390). -/
def landOne (t i k : Nat) : Prog := .ask fun s =>
  match s.cmd t with
  | none => .skip
  | some c => match c.ns, c.lbas[i]? with
    | some n, some e =>
      let lba := c.lba + i
      all [
        .upd (.dmf fun x => { x with landed := rangeDrop (s.slotMeta k) (s.slotMeta k + 8) (rangeDrop (s.slotAddr k) (s.slotAddr k + 4096) x.landed) }),
        cccAdmit n (lba / 256),
        .ask fun x => (match x.frameOf n (lba / 256) with
          | some (f, _) => when (!e.stale && x.cccOn n) (.upd (.bmu fun b => { b with fills := b.fills ++ [(f, n, lba, k)] }))
          | none => .skip),
        sendLba t i (s.bytes (s.slotAddr k) 4096) (s.bytes (s.slotMeta k) 8) (!e.unw), readFinish t, slotsSweep]
    | _, _ => .skip

/-- The last destination byte of a descriptor is accepted (R400). -/
def descLanded (n : Nat) : Prog := .ask fun s =>
  let d := s.desc n
  when (d.skind == 1 && d.dkind == 0) (each s.landed fun e => landOne e.1 e.2.1 e.2.2)

/-- After the last destination byte: the write-back, or the end of the descriptor. -/
def descOver (n : Nat) (late : Bool) : Prog := .ask fun s => .seq (descLanded n) (
  if (s.desc n).wb ∧ (s.chan n).descAddr.isSome then setChan n fun c => { c with writeback := true }
  else .seq (descEnd 3 n late) (chBoundary n true))

/-- A destination burst succeeds: `m` bytes more. -/
def dstOver (n m : Nat) (late : Bool) : Prog := .ask fun s =>
  let d := s.desc n
  let dst := s.dstDone n + m
  all [
    chCounts n (s.srcDone n) dst,
    setChan n fun c => { c with held := c.held.drop (unitOf d.swap dst - unitOf d.swap (s.dstDone n)) },
    when (dst == d.len) (descOver n late)]

/-- A destination burst (R401, R402). Port 0 takes bytes while an encode slot is free. -/
def dstBurst (n : Nat) (late : Bool) : Prog := .ask fun s =>
  let d := s.desc n
  let m := s.dstSize n
  let base := unitOf d.swap (s.dstDone n)
  let bs := (List.range m).map fun k => ((s.chan n).held)[swapIdx d.swap (s.dstDone n + k) - base]?.getD 0
  if d.dkind = 1 then when (decide (s.mpc.enc.length < 64 ∨ s.dmf.port0.length < 4104)) (.seq (.upd (.dmf fun x => { x with port0 := x.port0 ++ bs })) (dstOver n m late))
  else translated n (d.dst + s.dstDone n) true 2 fun pa => chWrite n pa (2 ^ d.dw) bs (.seq
    (when (d.skind == 1) (.upd (.dmf fun x => { x with landed := rangeAdd pa (pa + m) x.landed }))) (dstOver n m late))

/-- A source burst succeeds. -/
def srcOver (n : Nat) (bs : List Byte) : Prog := .ask fun s => .seq
  (chCounts n (s.srcDone n + bs.length) (s.dstDone n)) (setChan n fun c => { c with held := c.held ++ bs })

/-- A source burst (R402): port 1 gives the bytes that wait on it. -/
def srcBurst (n : Nat) : Prog := .ask fun s =>
  let d := s.desc n
  let m := s.srcSize n
  if d.skind = 1 then when (!s.dmf.port1.isEmpty) (.seq
    (.upd (.dmf fun x => { x with port1 := x.port1.drop m })) (srcOver n (s.dmf.port1.take m)))
  else translated n (d.src + s.srcDone n) false 1 fun pa => chRead n pa m (2 ^ d.sw) (srcOver n)

/-- The write-back of DONE (R400). -/
def wbBurst (n : Nat) (late : Bool) : Prog := .ask fun s =>
  translated n ((s.chan n).descAddr.getD 0 + 20) true 3 fun pa =>
    chWrite n pa 4 (leBytes 4 (s.get DMF_CH_ACT.W (8 * n + 5) ||| 2 ^ 31)) (all [setF DMF_CH_STAT.RETRIES n 0, descEnd 3 n late, chBoundary n true])

/-- A channel holds an engine of a powered domain, and its access to come is, or is not, a descriptor fetch. -/
def State.engineRuns (s : State) (n : Nat) (fetch : Bool) : Bool := s.chSt n == chRunning && s.islandOn (18 + n / 32) && (s.chan n).fetching == fetch

/-- DMA_BURST_DONE: a running channel's burst ends; `fail` if with a bus error, `commit` if a COMMIT of its owner is sampled in this arbitration step
(R396, R402 to R405, R411). -/
def burstProg (n : Nat) (fail commit : Bool) : Prog := .ask fun s => when (s.engineRuns n false) (
  let late := commit && !s.on DMF_CH_STAT.PEND n
  all [
    if fail then chBusError n
    else if (s.chan n).writeback then wbBurst n late
    else if s.dstReady n then dstBurst n late
    else srcBurst n,
    chBoundary n false, arbitrate (n / 32), when commit (chCommit n)])
def execDmaBurstDone (n : Fin 64) (fail commit : Bool) (s : State) := (burstProg n fail commit).exec s

/-- DMA_DESCRIPTOR_FETCH_DONE: the descriptor at NEXT becomes active and is checked (R398, R400, R411, R412). -/
def fetchProg (n : Nat) (fail : Bool) : Prog := .ask fun s => when (s.engineRuns n true) (
  let a := (s.desc n).next
  all [
    if fail then chBusError n
    else translated n a false 3 fun pa => .ask fun t =>
      if t.region pa 32 = some .regs then .seq (accessReport (dmaOf n) atRead pa 32 17) (chBusError n)
      else chAccess n atRead pa 32 (.seq (loadDesc n (fun i => t.memW (pa + 4 * i)) (some a)) (checkDesc n (descEnd 3 n false))),
    chBoundary n false, arbitrate (n / 32)])
def execDmaDescriptorFetchDone (n : Fin 64) (fail : Bool) (s : State) := (fetchProg n fail).exec s

end Sys2Proof.Machine
end

