-- ==== Sys2Proof/Machine/Boot.lean ====
section
/-! DEFINITION. BOOT (Table 18.5), chip resets, wakes from RETENTION, the journal's copy and replay, the scan of the Almanac's ring (R498 to R502, R508 to
R512, R552). -/
namespace Sys2Proof.Machine

/-- A step of BOOT is reached, unless BOOT has stopped. -/
def bootStep (n : Nat) (p : Prog) : Prog := whenS (fun s => !s.ptm.bootStopped) (.seq (setF PTM_BOOT_STAT.STEP 0 n) p)

/-- Journal blocks; the commit records (Table 18.11): where slot `k` lies, whether it is valid, its epoch; the valid one with the newer epoch (R511). -/
def journalBase : Nat := 0x41000000
def journalBlocks : Nat := 3040
def commitMagic : Nat := 0x4A524E4C
def commitAddr (k : Nat) : Nat := journalBase + 0xBFF000 + 64 * k
def State.commitOk (s : State) (k : Nat) : Bool := s.memW (commitAddr k) == commitMagic && s.crcOk (commitAddr k) 15
def State.commitEpoch (s : State) (k : Nat) : Nat := s.memW (commitAddr k + 4) % 65536
def State.commitSlot (s : State) : Option Nat :=
  match s.commitOk 0, s.commitOk 1 with
  | true, true => some (if newer 65536 (s.commitEpoch 1) (s.commitEpoch 0) then 1 else 0)
  | true, false => some 0
  | false, true => some 1
  | false, false => none

/-- A descriptor's fields (Table 18.10); descriptors with VALID set; validity against the sealed epoch (R511). -/
def State.descEpoch (s : State) (k : Nat) : Nat := s.memW (journalDesc k) % 65536
def State.descNs (s : State) (k : Nat) : Nat := nbits (s.memW (journalDesc k)) 22 16
def State.descLba (s : State) (k : Nat) : Nat := s.memW (journalDesc k + 4) + 2 ^ 32 * s.memW (journalDesc k + 8)
def State.descSeq (s : State) (k : Nat) : Nat := s.memW (journalDesc k + 12)
def State.descsSet (s : State) : List Nat := (List.range journalBlocks).filter fun k => nbit (s.memW (journalDesc k)) 31
def State.descOk (s : State) (e k : Nat) : Bool :=
  nbit (s.memW (journalDesc k)) 31 && s.crcOk (journalDesc k) 7 && decide ((e + 65536 - s.descEpoch k) % 65536 ≤ 32767)

/-- Descriptor `d` is kept rather than `k`, both naming one LBA (R511); equal ones go by block number. -/
def State.descBeats (s : State) (d k : Nat) : Bool :=
  s.descNs d == s.descNs k && s.descLba d == s.descLba k &&
    (newer 65536 (s.descEpoch d) (s.descEpoch k) ||
      s.descEpoch d == s.descEpoch k && (decide (s.descSeq k < s.descSeq d) || s.descSeq d == s.descSeq k && decide (d < k)))

/-- Valid descriptors of VALID namespaces under the sealed epoch. -/
def State.descsLive (s : State) (e : Nat) : List Nat := s.descsSet.filter fun k => s.descOk e k && s.get CQE_NS_CFG.STATE (s.descNs k) == 1

/-- Descriptors of the epoch after the sealed one: a loss that ended before its commit record (R512). -/
def State.descsUnsealed (s : State) (e : Nat) : List Nat := s.descsSet.filter fun k => s.descEpoch k == (e + 1) % 65536 && s.crcOk (journalDesc k) 7

/-- Domain 0's counters and staging when VAON was lost (R545): the counters from their copy, SEALED as the journal tells. -/
def vaonRestore : Prog := .ask fun s => all [
  .upd (.regsReset fun r _ => [RegName.PTM_BOOT_STAT, .PTM_WAKE_CFG, .PTM_JNL_STAT, .ALM_NEWEST, .ALM_OLDEST, .ALM_STAT].contains r),
  .upd (.alm fun _ => { hours := s.kpr.hoursCopy, secs := s.kpr.secsCopy, cycles := s.kpr.cyclesCopy }),
  .upd (.ptm fun p => { p with dramTraining := 0 }),
  setF PTM_BOOT_STAT.STEP 0 1,
  setF PTM_JNL_STAT.SEALED 0 (match s.commitSlot with
    | some c => b2n (s.descsUnsealed (s.commitEpoch c)).isEmpty
    | none => 0)]

/-- Step 1, cold: the power-cycle count advances (R545). -/
def bootCold (b : BootIn) : Prog := whenS (fun s => !s.on PTM_BOOT_STAT.WARM 0) (all [
  when b.vaonLost vaonRestore, .upd (.alm fun a => { a with cycles := min 16777215 (a.cycles + 1) }), countersCopied])

/-- The part of a component that BOOT starts (R467): the active one, or the other if it is valid and not below the minimum SVN. -/
def State.partSvn (s : State) (slot part : Nat) : Nat :=
  match s.fwPart slot part with
  | some f => f.svn
  | none => s.headerSvn (partAddr slot part)
def State.partActive (s : State) (part : Nat) : Nat := if (s.fwPart 1 part).any (·.active) then 1 else 0
def State.bootPart (s : State) (part : Nat) (ok : Nat → Bool) : Option Nat :=
  let a := s.partActive part
  if ok a then some a else if ok (1 - a) && decide (s.minSvnOf part ≤ s.partSvn (1 - a) part) then some (1 - a) else none

/-- What the Keeper records of a component's parts once `slot` runs; a fallback is recorded in the Almanac. -/
def partStarted (part slot : Nat) (ok : Nat → Bool) : Prog := .ask fun s => .seq
  (each ([0, 1] : List Nat) fun k => setPart { slot := k, part, valid := ok k, active := k == slot, svn := s.partSvn k part, ver := s.memW (partAddr k part + 8) })
  (when (slot != s.partActive part) (almEvent bPCX kFirmware "fallback" [part, slot]))

/-- Step 3: the boot ROM's repairs (R528), commits that waited for a chip reset act (R466), and the boot ROM starts a Keeper part, or the image in BOOT_SPI (R575). -/
def bootKeeper (b : BootIn) : Prog := .seq (.ask fun s => .seq (each (s.kpr.repairTable.filter fun e => decide (e.1 ≤ 8)) fun e => repairProg .keeper e.1 e.2)
  (each (s.kpr.fwNext.filter fun e => (s.fwPart e.2 e.1).any (·.valid)) fun e => fwActivate e.1 e.2)) (.ask fun s =>
  let ok (k : Nat) := if k = 0 then b.keeperA else b.keeperB
  match s.bootPart 0 ok with
  | some k => all [partStarted 0 k ok, imageLoad k 0, .upd (.pcx fun p => { p with keeperPc := s.imageEntry k 0 }),
      emit (.event "Keeper start" [k, s.imageEntry k 0])]
  | none => if b.spi then emit (.event "Keeper start from BOOT_SPI" []) else bootFailure 2)

/-- The shadow registers of the default regions (R433); the regions in use stay. -/
def bootRegions : Prog := each (List.range 18) fun r =>
  let g := defaultRegion r
  all [setF PCX_PROT_BASE.PAGE r g.base, setF PCX_PROT_LIMIT.PAGE r g.limit, setF PCX_PROT_ATTR.EN r (b2n g.en), setF PCX_PROT_ATTR.DBGG r (b2n g.dbgg),
    setF PCX_PROT_ATTR.X r (b2n g.x), setF PCX_PROT_ATTR.W r (b2n g.w), setF PCX_PROT_ATTR.R r (b2n g.r), setF PCX_PROT_ATTR.MID_HI r g.midHi,
    setF PCX_PROT_ATTR.MID_LO r g.midLo]

/-- Registers that device configuration holds: those of one step of BOOT. -/
def bootRegs (sel : RegName → Bool) : Prog := .ask fun s =>
  each (s.kpr.bootRegs.filter fun e => sel (RegName.ofNat (e.1 % 512))) fun e => setR (RegName.ofNat (e.1 % 512)) (e.1 / 512) e.2

/-- Registers that later steps set: the map's and the namespace table's. -/
def mapReg (r : RegName) : Bool := [RegName.SVE_CMAP_BASE, .SVE_CMAP_CFG].contains r
def nsReg (r : RegName) : Bool := [RegName.CQE_NS_CFG, .CQE_NS_BASE, .CQE_NS_ROWS].contains r

/-- Stored calibration results of a class, those with a valid entry (R561, R562). -/
def bootCal (cls : Nat) : Prog := .ask fun s =>
  each (s.kpr.calVals.filter fun e => (cls == 0) == decide (e.1 < 8) && (s.calCopy e.1).isSome) fun e =>
    if cls = 0 then calWrite 0 e.1 0 e.2 else calWrite 1 ((e.1 - 8) % 4) ((e.1 - 8) / 4) e.2

/-- The time stamp and LAP of a slot of the ring; slots that something has written; the slot of the newest record (R552). -/
def State.almStamp (s : State) (k : Nat) : Nat := nbits (s.memW (almAddr k + 8)) 31 8 * 2 ^ 32 + s.memW (almAddr k + 4)
def State.almLap (s : State) (k : Nat) : Nat := nbits (s.memW (almAddr k)) 6 6
def State.almValid (s : State) : List Nat :=
  (((s.mem.filter fun e => decide (almBase ≤ e.1 ∧ e.1 < almBase + 32 * almSlots)).map fun e => (e.1 - almBase) / 32).dedup).filter fun k => s.crcOk (almAddr k) 7
def State.almNewestSlot (s : State) (valid : List Nat) : Option Nat :=
  match valid.filter fun k => !valid.contains ((k + 1) % almSlots) ||
      s.almLap ((k + 1) % almSlots) != s.almLap k && decide (s.almStamp ((k + 1) % almSlots) < s.almStamp k) with
  | [k] => some k
  | _ => valid.foldl (fun b k => match b with
      | some x => some (if s.almStamp x < s.almStamp k ∨ (s.almStamp x = s.almStamp k ∧ x < k) then k else x)
      | none => some k) none

/-- The lowest number from which every record up to `n` is valid, `fuel` records back at most. -/
def almBack (ok : Nat → Bool) : Nat → Nat → Nat
  | 0, n => n
  | f + 1, n => if ok ((n + 2 ^ 32 - 1) % 2 ^ 32) then almBack ok f ((n + 2 ^ 32 - 1) % 2 ^ 32) else n

/-- The scan of the ring at cold BOOT (R552). -/
def almScan : Prog := .ask fun s =>
  let valid := s.almValid
  let done (newest oldest : Nat) : Prog := all [
    setF ALM_NEWEST.N 0 newest, setF ALM_OLDEST.N 0 oldest, .upd (.alm fun a => { a with scanned := true }), almRenumber ((newest + 1) % 2 ^ 32)]
  match s.almNewestSlot valid with
  | none =>
    let n := (almSlots * s.kpr.lap + 2 ^ 32 - 1) % 2 ^ 32
    done n ((n + 1) % 2 ^ 32)
  | some k =>
    let n := (almSlots * (if s.kpr.lap % 2 = s.almLap k then s.kpr.lap else s.kpr.lap + 1) + k) % 2 ^ 32
    done n (almBack (fun m => valid.contains (m % almSlots)) (almSlots - 1) n)

/-- Step 4: device configuration, the regions, the repair table, class M results, and at cold BOOT the scan of the ring. A check that fails leaves the
Keeper serving SERVICE (R499). -/
def bootConfig (b : BootIn) : Prog :=
  if !b.config then .seq (setMode mService 0) (bootFailure 3)
  else all [
    .upd (.kpr fun k => { k with svcBoot := b.svcBoot, factory := b.factory }),
    bootRegs (fun r => !mapReg r && !nsReg r), bootRegions,
    each b.device fun e => regWriteProg .keeper e.1.toNat 4 e.2.toNat,
    .ask fun s => each (s.kpr.repairTable.filter fun e => decide (8 < e.1)) fun e => repairProg .keeper e.1 e.2,
    bootCal 0, splTrimStart, whenS (fun s => !s.on PTM_BOOT_STAT.WARM 0) almScan]

/-- Step 5: DRAM is trained, or with its content kept the results in domain 0 are reloaded (R359, R498). -/
def bootDram (b : BootIn) : Prog := .ask fun s =>
  if s.on PTM_BOOT_STAT.DRAM_KEPT 0 then .seq (setF BMU_STAT.TRAINED 0 (s.ptm.dramTraining % 16)) (setF BMU_STAT.CH_FAIL 0 (s.ptm.dramTraining / 16))
  else
    let all1 := 2 ^ s.channels - 1
    let bad := b.chFail.toNat &&& all1
    all [setF BMU_STAT.TRAINED 0 (all1 - bad), setF BMU_STAT.CH_FAIL 0 bad, .upd (.ptm fun p => { p with dramTraining := (all1 - bad) + 16 * bad }),
      when (bad != 0) (.seq (bootFailure 4) (each ([0, 1] : List Nat) fun q => setPort q fun p => { p with cfs := true }))]

/-- A namespace's key goes from the key vault into its slot, with its recorded KGEN (R297). -/
def keyRestore (n : Nat) (hostEn : Bool) : Prog := .ask fun s =>
  match s.kpr.vault.find? fun e => e.1 == n with
  | some e => all [
      each (List.range 16) fun i => setF MPC_KEY_DATA.KEY i (ofBeBytes ((e.2.drop (4 * i)).take 4)),
      setF MPC_KEY_CTL.SLOT 0 (s.get CQE_NS_CFG.KSLOT n), .ask (keyOperate 0 (s.get CQE_NS_CFG.KSLOT n) (s.gensOf n).1 hostEn)]
  | none => .skip

/-- Namespaces that the journal touches. -/
def State.journalNs (s : State) : List Nat := match s.commitSlot with
  | some c => ((s.descsLive (s.commitEpoch c)).map s.descNs).dedup
  | none => []

/-- MPC_VSN.NEXT: VSN_NEXT of the newest valid commit record or VSN_MARK, whichever is newer (R510). -/
def bootVsn : Prog := .ask fun s =>
  let c := match s.commitSlot with
    | some k => s.memW (commitAddr k + 12) % 2 ^ 24
    | none => s.kpr.vsnMark
  let v := if newer (2 ^ 24) c s.kpr.vsnMark then c else s.kpr.vsnMark
  .seq (setF MPC_VSN.NEXT 0 (if v = 0 then 1 else v)) vsnMarked

/-- A copy of the map is valid: its seal matches, in its record and where it lies, and so does the CRC of every band record in it (R58). -/
def recBytesOk : Nat → List Byte → Bool
  | 0, _ => true
  | n + 1, bs => crc32 (bs.take 28) == BitVec.ofNat 32 (ofLeBytes ((bs.drop 28).take 4)) && recBytesOk n (bs.drop 32)
def State.copyValid (s : State) (c : MapCopy) : Bool :=
  s.memW (mapCopyAddr c.place) == c.seq % 2 ^ 32 && s.memW (mapCopyAddr c.place + 4) == c.crc && (crc32 (leBytes 4 c.seq ++ c.bytes)).toNat == c.crc &&
    recBytesOk (4 * (s.get SVE_CMAP_CFG.LAST_BAND 0 + 1)) c.bytes

/-- The newer valid copy of the map is expanded into DRAM (R58), in its protection region (R54); with none, ENABLE stays 0. `newOk` and `oldOk`: the
copies' compressed bytes read back as written. -/
def mapExpand (newOk oldOk : Bool) : Prog := .seq (bootRegs mapReg) (.ask fun s =>
  let new := s.mapNewest
  let kept := s.kpr.mapCopies.filter fun c => s.copyValid c && if some c = new then newOk else oldOk
  .seq (.upd (.kpr fun k => { k with mapCopies := kept })) (.ask fun s => match s.mapNewest with
    | some c => all [fabricStore .keeper s.mapHome c.bytes, setF SVE_CMAP_BASE.ADDR 0 (s.mapHome / 4096), .ask fun t => mapProtect t.mapBase c.bytes.length,
        setF SVE_CMAP_CFG.ENABLE 0 1]
    | none => .seq (setF SVE_CMAP_CFG.ENABLE 0 0) (bootFailure 6)))

/-- Step 6. -/
def bootTables (b : BootIn) : Prog := all [
  bootRegs nsReg, .ask fun s => each s.journalNs fun n => keyRestore n false, bootVsn, mapExpand b.mapNew b.mapOld]

/-- This BOOT follows RETENTION: the wake left its source (R502). -/
def State.afterRetention (s : State) : Bool := s.get PTM_MODE_STAT.LAST_WAKE 0 != 0

/-- Step 7: RESUME; then the spindle, VPRE and class H results, but for a BOOT after RETENTION. -/
def bootMotors : Prog := .seq resumeSend (whenS (fun s => !s.afterRetention) (all [
  spnStart, setVpre true, bootCal 1, .ask fun s => .upd (.ptm fun p => { p with loads := s.usableActs })]))

/-- Step 8: a valid application part is started on the application cores (R467). -/
def bootApp (b : BootIn) : Prog := .ask fun s =>
  let ok (k : Nat) := if k = 0 then b.appA else b.appB
  match s.bootPart 1 ok with
  | some k => all [
      partStarted 1 k ok, imageLoad k 1, emit (.event "application start" [k, s.imageEntry k 1]),
      each ((List.range 4).filter fun c => !s.follower c) fun c => .seq (setF PCX_CORE_CTL.RUN c 1) (startCore c)]
  | none => .seq (bootFailure 5) (each ([0, 1] : List Nat) fun q => setPort q fun p => { p with cfs := true })

/-- Steps 1 to 8, from a chip reset on. -/
def bootSteps (b : BootIn) : Prog := whenS (fun s => s.get PTM_BOOT_STAT.STEP 0 == 1 && !s.ptm.bootStopped) (all [
  bootStep 1 (bootCold b),
  bootStep 2 (cwHelloProg b.major b.minor),
  bootStep 3 (bootKeeper b),
  bootStep 4 (bootConfig b),
  bootStep 5 (bootDram b),
  bootStep 6 (bootTables b),
  bootStep 7 bootMotors,
  bootStep 8 (bootApp b)])

/-- The sequence of a replayed version: older than every fetched command's (R511, R337). -/
def lowestSeq : Nat := 2 ^ 32 - 1

/-- One version is replayed by the journal engine (R27, R511): into a free slot, which one being left open. -/
def replayOne (e k : Nat) : Prog := fresh fun v => .ask fun s =>
  let free := (List.range s.slotCount).filter fun x => !s.bmu.used.contains x
  let x := free.getD (v % free.length) 0
  let n := s.descNs k
  let ws := (s.memWs (journalDesc k) 7).tail
  when (!free.isEmpty) (all [
    slotsTake [x],
    fabricStore .bmu (s.slotAddr x) (xtsDecrypt (s.keyBytes (s.get CQE_NS_CFG.KSLOT n)) (s.descLba k) (s.bytes (journalBase + 4096 * k) 4096)),
    fabricStore .bmu (s.slotMeta x) (s.bytes (journalDesc k + 16) 8),
    .upd (.cqe fun y => { y with overlay := y.overlay ++ [{ ns := n, lba := s.descLba k, seq := lowestSeq, slot := x, inBudget := true, block := some k }] }),
    fabricSealed .bmu (journalDesc k) (BitVec.ofNat 32 (s.memW (journalDesc k) / 65536 * 65536 + e) :: ws)])

/-- The journal's replay (R511, R512). -/
def replay : Prog := .ask fun s =>
  let set := s.descsSet
  match s.commitSlot with
  | none => when (set.any fun k => s.crcOk (journalDesc k) 7) (bootFailure 7)
  | some c =>
    let e := s.commitEpoch c
    let bad := set.filter fun k => !s.descOk e k
    let live := s.descsLive e
    let dropped := set.filter fun k => s.descOk e k && !live.contains k
    let kept := live.filter fun k => !(live.any fun d => s.descBeats d k)
    let lost := (s.descsUnsealed e).length
    all [
      descClear (set.filter fun k => !kept.contains k), each kept (replayOne e), budgetShow,
      setF PTM_JNL_STAT.EPOCH 0 e, .ask fun t => setF PTM_JNL_STAT.UNITS 0 t.budgetUsed,
      when (lost != 0) (almEvent bPTM kFault "epoch not sealed" [lost]),
      almEvent bPTM kRecovery "journal replay" [bad.length, dropped.length]]

/-- The slots of VALID namespaces before FETCH_EN sets: the other keys are loaded, and each is READY or LOCKED as its namespace is (R297). -/
def bootKeys (locked : List Nat) : Prog := .ask fun s => each ((List.range 128).filter fun n => s.get CQE_NS_CFG.STATE n == 1) fun n => .ask fun t =>
  let k := t.get CQE_NS_CFG.KSLOT n
  .seq (when (t.keyState k == 0) (keyRestore n false)) (when (!locked.contains n) (.ask (keyOperate 2 k 0 false)))

/-- JOURNAL_REPLAY_DONE: step 9 (Table 18.5), after the steps before it if a reset left them undone. After RETENTION BOOT ends here in STANDBY, and
without a map in RECOVERY. -/
def replayDoneProg (b : BootIn) : Prog := .seq (bootSteps b)
  (whenS (fun s => s.get PTM_BOOT_STAT.STEP 0 == 8 && s.mode == mBoot && !s.ptm.bootStopped && !s.inPowerLoss && !s.safe) (all [
    setF PTM_BOOT_STAT.STEP 0 9, setF PTM_JNL_STAT.UNITS 0 0, replay, bootKeys (b.locked.map (·.val)),
    setF PTM_JNL_STAT.REPLAYED 0 1, setF PTM_JNL_STAT.ARMED 0 1, setF PTM_BOOT_STAT.FETCH_EN 0 1,
    .ask fun s => setF PTM_BOOT_STAT.BOOT_MS 0 (min 65535 ((s.ptm.ticks - s.ptm.bootAt) / tickMs)),
    each ([0, 1] : List Nat) fun q => .ask fun s => if s.isSas then when (s.portUp q) (setF HIF_PORT_STAT.CTRL_RDY q 1) else rdyFollows q,
    .ask fun s => if s.afterRetention then setMode mStandby 0 else when (!s.on SVE_CMAP_CFG.ENABLE 0) (setMode mRecovery 0),
    cqeShow]))
def execJournalReplayDone (b : BootIn) (s : State) := (replayDoneProg b).exec s

/-- BOOT_COMPLETE: step 10: at speed with every actuator that has a usable slot loaded, BOOT ends in ACTIVE, or in SERVICE with SVC_BOOT (Table 18.3). -/
def bootCompleteProg : Prog := whenS (fun s => s.get PTM_BOOT_STAT.STEP 0 == 9 && s.mode == mBoot && !s.safe && !s.inPowerLoss &&
    s.on SPN_STAT.AT_SPEED 0 && s.usableActs.all s.loaded)
  (.seq (setF PTM_BOOT_STAT.STEP 0 10) (.ask fun s => setMode (if s.kpr.svcBoot then mService else mActive) 0))
def execBootComplete (s : State) := bootCompleteProg.exec s

/-- The power die as power-on leaves it: HOLD, its registers at reset but for those that it takes from its non-volatile copy (Table 17.8), its rails up; an arm stays where it lies (Table 17.7, R470). -/
def powerDieOn : Prog := .ask fun s => all [
  .upd (.regsReset fun r _ => (regsOfBlock bPWR).contains r), setPd (fun x => { nvRet := x.nvRet, nvHu := x.nvHu }),
  setR .PWR_RET_CFG 0 s.pwr.nvRet, setR .PWR_HU_CFG 0 s.pwr.nvHu, setF PWR_STAT.RAIL_OK 0 63, setF PWR_STAT.LATCHED 0 (s.get PWR_STAT.LATCHED 0)]

/-- A cold BOOT. -/
def coldReset : Prog := .seq (chipReset false false) (.upd (.ptm fun p => { p with powered := true }))

/-- POWER_ON (R587): where the part is off, or at the very beginning. -/
def powerOnProg (b : BootIn) : Prog := whenS (fun s => (!s.ptm.powered || s.get PTM_BOOT_STAT.STEP 0 == 1) && !s.inPowerLoss)
  (all [powerDieOn, coldReset, pwrgdShow, bootSteps b])
def execPowerOn (b : BootIn) (s : State) := (powerOnProg b).exec s

/-- NRESET (R571): held during the power-loss sequence; else a chip reset and a cold BOOT in every mode. The heartbeat falls silent (R22). -/
def nresetProg (b : BootIn) : Prog := .ask fun s => when s.ptm.powered (
  if s.inPowerLoss then .upd (.ptm fun p => { p with nresetHeld := true })
  else all [pdAlone, when s.ptm.retention coreRailsUp, coldReset, pwrgdShow, bootSteps b])
def execNreset (b : BootIn) (s : State) := (nresetProg b).exec s

/-- A chip reset that the Keeper requests: an orderly leave first (R259), warm (R498); with DRAM kept the cache is cleaned before, so that memory holds
every line (R360). -/
def keeperReset (keepDram : Bool) : Prog := .seq splLeave (chipReset true keepDram)

/-- KEEPER_CHIP_RESET: an armed shutdown test runs before it (R530). -/
def keeperResetProg (keepDram : Bool) (b : BootIn) : Prog := .ask fun s =>
  when (!s.inPowerLoss && !s.ptm.retention && s.ptm.powered && !s.on PCX_KPR_STAT.RESTART 0) (
    if s.on SVC_SVY_STAT.SHUT_ARM 0 then .seq svyFullStart (.upd (.ptm fun p => { p with resetPend := some keepDram }))
    else .seq (keeperReset keepDram) (bootSteps b))
def execKeeperChipReset (keepDram : Bool) (b : BootIn) (s : State) := (keeperResetProg keepDram b).exec s

/-- The reset that waited for the shutdown test. -/
def resetTick : Prog := .ask fun s => match s.ptm.resetPend with
  | some k => when (!s.on SVC_SVY_STAT.SHUT_ARM 0 && !s.inPowerLoss) (keeperReset k)
  | none => .skip

/-- A wake source is enabled (R502): 0 and 1 a deassertion of PERST#, 2 a packet on MGMT, 3 an edge on GPIO02. -/
def State.wakeEnabled (s : State) (src : Nat) (rising : Bool) : Bool :=
  if src < 2 then s.bitF PTM_WAKE_CFG.PERST_EN 0 src
  else if src = 2 then s.on PTM_WAKE_CFG.MGMT_EN 0
  else s.on PTM_WAKE_CFG.GPIO_EN 0 && s.on PTM_WAKE_CFG.WAKE_POL 0 == rising

/-- RETENTION_WAKE: in RETENTION a warm BOOT with DRAM kept; during the steps into it the wake waits for their end (R501, R502). -/
def retentionWakeProg (src : Nat) (rising : Bool) (b : BootIn) : Prog := .ask fun s => when (s.wakeEnabled src rising) (
  if s.ptm.retention then .seq (wakeReset (src + 1)) (bootSteps b)
  else when (s.ptm.target.any (·.ret) && s.ptm.wakePend == 0) (.upd (.ptm fun p => { p with wakePend := src + 1 })))
def execRetentionWake (src : Fin 4) (rising : Bool) (b : BootIn) (s : State) := (retentionWakeProg src rising b).exec s

/-- A version in the budget goes to its journal block, its descriptor behind it (R509). -/
def journalCopy (e : Nat) (v : Ver) : Prog := .ask fun s =>
  match v.block with
  | none => .skip
  | some k =>
    let slot := s.get CQE_NS_CFG.KSLOT v.ns
    let pi := s.memWs (s.slotMeta v.slot) 2
    .seq (fabricStore .bmu (journalBase + 4096 * k) (xtsEncrypt (s.keyBytes slot) v.lba (s.bytes (s.slotAddr v.slot) 4096)))
      (fabricSealed .bmu (journalDesc k) ([BitVec.ofNat 32 (2 ^ 31 + v.ns % 128 * 65536 + e), BitVec.ofNat 32 v.lba, BitVec.ofNat 32 (v.lba / 2 ^ 32),
        BitVec.ofNat 32 v.seq] ++ pi ++ [BitVec.ofNat 32 (s.get MPC_KEY_STAT.KGEN slot)]))

/-- The commit record of epoch `e` (Table 18.11). -/
def commitWrite (e : Nat) : Prog := .ask fun s => fabricSealed .bmu (commitAddr (e % 2)) (([commitMagic, e, s.ptm.plUnits, s.get MPC_VSN.NEXT 0,
  s.alm.hours % 2 ^ 20 * 4096 + s.alm.secs, s.alm.cycles * 256, 0, 0, 0, 0, 0, 0, 0, 0, 0] : List Nat).map (BitVec.ofNat 32))

/-- Steps 5 and 6 of Table 18.9: the budget's versions, then the staged records (R551), then the commit record; a disarmed engine copies nothing and
seals nothing (R512). Every island but domain 0 goes down. -/
def journalSeal : Prog := .ask fun s =>
  let e := (s.get PTM_JNL_STAT.EPOCH 0 + 1) % 65536
  all [
    when s.ptm.plArmed (each (s.cqe.overlay.filter (·.inBudget)) (journalCopy e)),
    when (s.alm.scanned && !s.on ALM_STAT.CLEARING 0) (each s.alm.staged almStore),
    setF PTM_JNL_STAT.SEALED 0 (b2n s.ptm.plArmed),
    when s.ptm.plArmed (.seq (commitWrite e) (setF PTM_JNL_STAT.EPOCH 0 e)),
    setF PTM_ISL_PWR.ON 0 1, setF PTM_DOM_PWR.ON 0 0, .upd (.ptm fun p => { p with plStep := 0 })]

/-- JOURNAL_COPY_DONE: the sequence's end on the logic die (Table 18.9). What follows: a cold BOOT where inputs returned or nRESET was held (R508, R571),
a warm one after FCU's DIRECT 3 (R539), or the part is off. -/
def journalDoneProg : Prog := .ask fun s => when (s.ptm.plStep == 5) (.seq journalSeal (
  if s.ptm.plReturn ∨ s.ptm.nresetHeld then coldReset
  else if s.ptm.plReset ∧ s.pwr.st ≠ pdLoss then chipReset true false
  else .seq (.upd (.ptm fun p => { p with powered := false })) pwrgdShow))
def execJournalCopyDone (s : State) := journalDoneProg.exec s

/-- LOSS_RECOVERY: the power die leaves LOSS for HOLD (Table 17.7), and a cold BOOT follows at once, or after the sequence (R508); in RETENTION nothing else
changes (R502). -/
def lossRecoveryProg : Prog := .ask fun s => when (s.pwr.st == pdLoss) (all [
  stagesOff, setPd (fun x => { x with st := pdHold, isolated := false, braking := false, retracting := [] }),
  setF PWR_STAT.LOSS 0 0, setF PWR_STAT.WARN 0 0,
  if s.inPowerLoss then .upd (.ptm fun p => { p with plReturn := true }) else when (!s.ptm.powered) coldReset,
  pwrgdShow])
def execLossRecovery (s : State) := lossRecoveryProg.exec s

end Sys2Proof.Machine
end

