-- ==== Sys2Proof/Machine/CoreAccess.lean ====
section
/-! DEFINITION. An access of a core that ends with a trap (R11, R24, R34, R36, R421, R431). -/
namespace Sys2Proof.Machine

/-- The FCU source that reports a core's access that ends with a bus error; in register space also a word that does not answer (R24, R25). -/
def State.coreFault (s : State) (m : Master) (typ a n : Nat) : Option Nat :=
  match s.accessFault m typ a n with
  | some src => some src
  | none => if s.region a n = some .regs then (accessWords (a - regBase) n).findSome? fun w => s.wordDown w.2 w.1 else none

/-- CORE_ACCESS_FAULT: an access of a hart ends with a bus error, a denial or poison, or stores to a line filled without W (R421, R431): a precise
trap, and UE_TRAP of the core on poison. -/
def coreAccessProg (h typ a n : Nat) : Prog := .ask fun s => when (s.hartRuns h) (
  match s.coreFault (hartMaster h) typ a n with
  | some src => .seq (accessReport (hartMaster h) typ a n src) (trap h (accessCause typ) a)
  | none =>
    if (typ = atWrite ∨ typ = atAtomic) ∧ h ≠ 0 ∧ s.pcx.l2.any (fun l => l.line == a / 64 && !l.w) then trap h 7 a
    else when (s.poisoned a n) (all [when (s.region a n == some .dram) (ueReport (hartMaster h) typ (sizeLog n) a), trap h (accessCause typ) a, when (h != 0) (setF PCX_CORE_STAT.UE_TRAP (h - 1) 1)]))
def execCoreAccessFault (h : Fin 5) (typ : Fin 4) (size : Fin 7) (a : PAddr) (s : State) := (coreAccessProg h typ a.toNat (2 ^ size.val)).exec s

end Sys2Proof.Machine
end

