-- ==== Sys2Proof/Machine/Dispatch.lean ====
section
/-! DEFINITION. The meaning of each command: one arm per constructor, each one call. -/
namespace Sys2Proof.Machine

/-- A command's effect on everything but the queue. -/
def exec (i : Instr) (s : State) : Host.Outcome State Fault Refusal :=
  match i with
  | .registerWrite m offset size v => Sys2Proof.Machine.execRegisterWrite m offset size v s
  | .readClear m offset size => Sys2Proof.Machine.execReadClear m offset size s
  | .lowWordWrite m offset v => Sys2Proof.Machine.execLowWordWrite m offset v s
  | .fabricTransactionTimeout m typ size addr => Sys2Proof.Machine.execFabricTransactionTimeout m typ size addr s
  | .causewayRegisterAccess m write offset value reqLost rspLost => Sys2Proof.Machine.execCausewayRegisterAccess m write offset value reqLost rspLost s
  | .causewayRegisterResend tag reqLost rspLost => Sys2Proof.Machine.execCausewayRegisterResend tag reqLost rspLost s
  | .causewayRegisterTimeout tag => Sys2Proof.Machine.execCausewayRegisterTimeout tag s
  | .powerOn b => Sys2Proof.Machine.execPowerOn b s
  | .nreset b => Sys2Proof.Machine.execNreset b s
  | .keeperChipReset keepDram b => Sys2Proof.Machine.execKeeperChipReset keepDram b s
  | .journalReplayDone b => Sys2Proof.Machine.execJournalReplayDone b s
  | .bootComplete => Sys2Proof.Machine.execBootComplete s
  | .causewayHello major minor => Sys2Proof.Machine.execCausewayHello major minor s
  | .heartbeatSend => Sys2Proof.Machine.execHeartbeatSend s
  | .heartbeatTimeout => Sys2Proof.Machine.execHeartbeatTimeout s
  | .causewayDown => Sys2Proof.Machine.execCausewayDown s
  | .resume m => Sys2Proof.Machine.execResume m s
  | .release => Sys2Proof.Machine.execRelease s
  | .status => Sys2Proof.Machine.execStatus s
  | .evt loss warn railOk latched => Sys2Proof.Machine.execEvt loss warn railOk latched s
  | .vcmTick mask => Sys2Proof.Machine.execVcmTick mask s
  | .vcmCmd a v => Sys2Proof.Machine.execVcmCmd a v s
  | .vcmSamp a cur bemf => Sys2Proof.Machine.execVcmSamp a cur bemf s
  | .spnDuty u v w => Sys2Proof.Machine.execSpnDuty u v w s
  | .spnSamp iu iv iw bemf => Sys2Proof.Machine.execSpnSamp iu iv iw bemf s
  | .retract mask => Sys2Proof.Machine.execRetract mask s
  | .railFault k => Sys2Proof.Machine.execRailFault k s
  | .supplyWarning => Sys2Proof.Machine.execSupplyWarning s
  | .supplyWarningClear => Sys2Proof.Machine.execSupplyWarningClear s
  | .supplyLoss => Sys2Proof.Machine.execSupplyLoss s
  | .powerlossWriterAssert w => Sys2Proof.Machine.execPowerlossWriterAssert w s
  | .journalCopyDone => Sys2Proof.Machine.execJournalCopyDone s
  | .lossRecovery => Sys2Proof.Machine.execLossRecovery s
  | .armLatch a => Sys2Proof.Machine.execArmLatch a s
  | .retractTimeout a => Sys2Proof.Machine.execRetractTimeout a s
  | .spindleBrakeEnd => Sys2Proof.Machine.execSpindleBrakeEnd s
  | .handshakeTimeout a b k => Sys2Proof.Machine.execHandshakeTimeout a b k s
  | .avsPeriod margin isl => Sys2Proof.Machine.execAvsPeriod margin isl s
  | .avsEmergencyStep margin isl => Sys2Proof.Machine.execAvsEmergencyStep margin isl s
  | .avsUnderrun margin isl => Sys2Proof.Machine.execAvsUnderrun margin isl s
  | .demandRiseGrant granted => Sys2Proof.Machine.execDemandRiseGrant granted s
  | .thermalWarning tl tp => Sys2Proof.Machine.execThermalWarning tl tp s
  | .throttleClear tl tp => Sys2Proof.Machine.execThrottleClear tl tp s
  | .thermalShutdown tl tp => Sys2Proof.Machine.execThermalShutdown tl tp s
  | .requestActive m => Sys2Proof.Machine.execRequestActive m s
  | .requestIdleI1 m => Sys2Proof.Machine.execRequestIdleI1 m s
  | .requestIdleI2 m => Sys2Proof.Machine.execRequestIdleI2 m s
  | .requestIdleI3 m => Sys2Proof.Machine.execRequestIdleI3 m s
  | .requestStandby m => Sys2Proof.Machine.execRequestStandby m s
  | .requestRetention m => Sys2Proof.Machine.execRequestRetention m s
  | .requestService m => Sys2Proof.Machine.execRequestService m s
  | .modeTransitionDone => Sys2Proof.Machine.execModeTransitionDone s
  | .retentionReleaseTimeout => Sys2Proof.Machine.execRetentionReleaseTimeout s
  | .retentionWake src rising b => Sys2Proof.Machine.execRetentionWake src rising b s
  | .selfRefreshEntry => Sys2Proof.Machine.execSelfRefreshEntry s
  | .safeEnter m => Sys2Proof.Machine.execSafeEnter m s
  | .safeExit m => Sys2Proof.Machine.execSafeExit m s
  | .faultEvent src t c m typ size addr => Sys2Proof.Machine.execFaultEvent src t c m typ size addr s
  | .escalationStep src => Sys2Proof.Machine.execEscalationStep src s
  | .fcuWindowEnd src => Sys2Proof.Machine.execFcuWindowEnd src s
  | .fcuAck m src => Sys2Proof.Machine.execFcuAck m src s
  | .fcuRaise m src => Sys2Proof.Machine.execFcuRaise m src s
  | .clrCnt m src => Sys2Proof.Machine.execClrCnt m src s
  | .captureClear m valid multi => Sys2Proof.Machine.execCaptureClear m valid multi s
  | .fcuSelfFault regs persistent => Sys2Proof.Machine.execFcuSelfFault regs persistent s
  | .fcuReload m => Sys2Proof.Machine.execFcuReload m s
  | .cmoClean m lines => Sys2Proof.Machine.execCmoClean m lines s
  | .cmoInvalidate m lines => Sys2Proof.Machine.execCmoInvalidate m lines s
  | .cmoCleanInvalidate m lines => Sys2Proof.Machine.execCmoCleanInvalidate m lines s
  | .cmoDone m => Sys2Proof.Machine.execCmoDone m s
  | .irqClaim m t => Sys2Proof.Machine.execIrqClaim m t s
  | .irqComplete m t src => Sys2Proof.Machine.execIrqComplete m t src s
  | .machineTimer h => Sys2Proof.Machine.execMachineTimer h s
  | .msipWrite m h v => Sys2Proof.Machine.execMsipWrite m h v s
  | .protCommit c => Sys2Proof.Machine.execProtCommit c s
  | .watchdogKick m h v => Sys2Proof.Machine.execWatchdogKick m h v s
  | .watchdogStage1 h => Sys2Proof.Machine.execWatchdogStage1 h s
  | .watchdogStage2 h => Sys2Proof.Machine.execWatchdogStage2 h s
  | .pairMiscompare pair => Sys2Proof.Machine.execPairMiscompare pair s
  | .coreRun m c run heir => Sys2Proof.Machine.execCoreRun m c run heir s
  | .keeperMiscompare => Sys2Proof.Machine.execKeeperMiscompare s
  | .keeperRestartEntry => Sys2Proof.Machine.execKeeperRestartEntry s
  | .resumed m => Sys2Proof.Machine.execResumed m s
  | .keeperRestartTimeout => Sys2Proof.Machine.execKeeperRestartTimeout s
  | .coreAccessFault h typ size a => Sys2Proof.Machine.execCoreAccessFault h typ size a s
  | .atomicRegisterFault h fetch a => Sys2Proof.Machine.execAtomicRegisterFault h fetch a s
  | .timeCsrRead h priv mTM sTM write => Sys2Proof.Machine.execTimeCsrRead h priv mTM sTM write s
  | .merframeRead h priv mTM sTM write => Sys2Proof.Machine.execMerframeRead h priv mTM sTM write s
  | .mermodeRead h priv mTM sTM write => Sys2Proof.Machine.execMermodeRead h priv mTM sTM write s
  | .ferryPost m n seq => Sys2Proof.Machine.execFerryPost m n seq s
  | .ferryCancel m n => Sys2Proof.Machine.execFerryCancel m n s
  | .ferryTake m n => Sys2Proof.Machine.execFerryTake m n s
  | .ferryDone m n err => Sys2Proof.Machine.execFerryDone m n err s
  | .ferryTakeTimeout n => Sys2Proof.Machine.execFerryTakeTimeout n s
  | .ferryDoneTimeout n => Sys2Proof.Machine.execFerryDoneTimeout n s
  | .ferryHello n => Sys2Proof.Machine.execFerryHello n s
  | .modeSet n => Sys2Proof.Machine.execModeSet n s
  | .capSet n => Sys2Proof.Machine.execCapSet n s
  | .modeGet n => Sys2Proof.Machine.execModeGet n s
  | .hpPwrSet n => Sys2Proof.Machine.execHpPwrSet n s
  | .mapCommit n size => Sys2Proof.Machine.execMapCommit n size s
  | .bandUpdate r => Sys2Proof.Machine.execBandUpdate r s
  | .bandUnreach r => Sys2Proof.Machine.execBandUnreach r s
  | .bandRelocate r => Sys2Proof.Machine.execBandRelocate r s
  | .headRetire n => Sys2Proof.Machine.execHeadRetire n s
  | .keeperAutoRetire h => Sys2Proof.Machine.execKeeperAutoRetire h s
  | .rebuildAdvance n => Sys2Proof.Machine.execRebuildAdvance n s
  | .headGet n => Sys2Proof.Machine.execHeadGet n s
  | .bankWrite n => Sys2Proof.Machine.execBankWrite n s
  | .bankCommit n => Sys2Proof.Machine.execBankCommit n s
  | .sveWrite n => Sys2Proof.Machine.execSveWrite n s
  | .spin n => Sys2Proof.Machine.execSpin n s
  | .spnWrite n => Sys2Proof.Machine.execSpnWrite n s
  | .orrSet n => Sys2Proof.Machine.execOrrSet n s
  | .planStage n => Sys2Proof.Machine.execPlanStage n s
  | .planSubmit n => Sys2Proof.Machine.execPlanSubmit n s
  | .planGet n => Sys2Proof.Machine.execPlanGet n s
  | .splWrite n => Sys2Proof.Machine.execSplWrite n s
  | .archStatus n => Sys2Proof.Machine.execArchStatus n s
  | .relayReq n => Sys2Proof.Machine.execRelayReq n s
  | .relayCfg n => Sys2Proof.Machine.execRelayCfg n s
  | .relayReassemblyTimeout origin x => Sys2Proof.Machine.execRelayReassemblyTimeout origin x s
  | .calRun n => Sys2Proof.Machine.execCalRun n s
  | .calStatus n => Sys2Proof.Machine.execCalStatus n s
  | .svcWrite n => Sys2Proof.Machine.execSvcWrite n s
  | .svyResult n => Sys2Proof.Machine.execSvyResult n s
  | .svyFull n => Sys2Proof.Machine.execSvyFull n s
  | .almGrant n => Sys2Proof.Machine.execAlmGrant n s
  | .almClear n sigOk => Sys2Proof.Machine.execAlmClear n sigOk s
  | .almSummary n => Sys2Proof.Machine.execAlmSummary n s
  | .fwLoad n verified => Sys2Proof.Machine.execFwLoad n verified s
  | .fwCommit n => Sys2Proof.Machine.execFwCommit n s
  | .fwInfo n => Sys2Proof.Machine.execFwInfo n s
  | .nsCreate n => Sys2Proof.Machine.execNsCreate n s
  | .nsDelete n => Sys2Proof.Machine.execNsDelete n s
  | .namespaceDeleteFinish k => Sys2Proof.Machine.execNamespaceDeleteFinish k s
  | .nsAttach n => Sys2Proof.Machine.execNsAttach n s
  | .nsFormat n => Sys2Proof.Machine.execNsFormat n s
  | .tcgSend n acts => Sys2Proof.Machine.execTcgSend n acts s
  | .tcgRecv n data => Sys2Proof.Machine.execTcgRecv n data s
  | .challenge n => Sys2Proof.Machine.execChallenge n s
  | .debugUnlock n sigOk => Sys2Proof.Machine.execDebugUnlock n sigOk s
  | .debugLock n => Sys2Proof.Machine.execDebugLock n s
  | .regRead n => Sys2Proof.Machine.execRegRead n s
  | .vlogGet n other => Sys2Proof.Machine.execVlogGet n other s
  | .vlogPut n => Sys2Proof.Machine.execVlogPut n s
  | .almRecordCommit => Sys2Proof.Machine.execAlmRecordCommit s
  | .almPost m => Sys2Proof.Machine.execAlmPost m s
  | .almCtlClear m => Sys2Proof.Machine.execAlmCtlClear m s
  | .almClearDone => Sys2Proof.Machine.execAlmClearDone s
  | .almCursorWrite m v => Sys2Proof.Machine.execAlmCursorWrite m v s
  | .almWindowLatch m => Sys2Proof.Machine.execAlmWindowLatch m s
  | .almWindowAdvance m => Sys2Proof.Machine.execAlmWindowAdvance m s
  | .calGo m cls item head => Sys2Proof.Machine.execCalGo m cls item head s
  | .calIterationEnd vals q inTol => Sys2Proof.Machine.execCalIterationEnd vals q inTol s
  | .calLimitExpiry => Sys2Proof.Machine.execCalLimitExpiry s
  | .bucketLeak inst => Sys2Proof.Machine.execBucketLeak inst s
  | .patrolDramRead o0 o1 => Sys2Proof.Machine.execPatrolDramRead o0 o1 s
  | .patrolSramRead corrected ue => Sys2Proof.Machine.execPatrolSramRead corrected ue s
  | .patrolEmramRead o => Sys2Proof.Machine.execPatrolEmramRead o s
  | .surveySliceStart bad => Sys2Proof.Machine.execSurveySliceStart bad s
  | .surveySliceEnd f => Sys2Proof.Machine.execSurveySliceEnd f s
  | .surveySliceAbandon => Sys2Proof.Machine.execSurveySliceAbandon s
  | .surveyBudgetExpiry => Sys2Proof.Machine.execSurveyBudgetExpiry s
  | .repairGo m inst row => Sys2Proof.Machine.execRepairGo m inst row s
  | .missFillDone m a o0 o1 pre lecc => Sys2Proof.Machine.execMissFillDone m a o0 o1 pre lecc s
  | .evictionWriteDone line => Sys2Proof.Machine.execEvictionWriteDone line s
  | .partialStoreMerge m a bs => Sys2Proof.Machine.execPartialStoreMerge m a bs s
  | .mntClean m lines => Sys2Proof.Machine.execMntClean m lines s
  | .mntInvalidate m lines => Sys2Proof.Machine.execMntInvalidate m lines s
  | .mntCleanInvalidate m lines => Sys2Proof.Machine.execMntCleanInvalidate m lines s
  | .mntDone => Sys2Proof.Machine.execMntDone s
  | .wayOffRequest m mask => Sys2Proof.Machine.execWayOffRequest m mask s
  | .wayCleanDone w => Sys2Proof.Machine.execWayCleanDone w s
  | .wayPowerUpDone w => Sys2Proof.Machine.execWayPowerUpDone w s
  | .cacheDisable m => Sys2Proof.Machine.execCacheDisable m s
  | .cacheDisableDone => Sys2Proof.Machine.execCacheDisableDone s
  | .cacheEnable m => Sys2Proof.Machine.execCacheEnable m s
  | .cacheEnableDone => Sys2Proof.Machine.execCacheEnableDone s
  | .slotAssign t slots => Sys2Proof.Machine.execSlotAssign t slots s
  | .budgetEntry blocks => Sys2Proof.Machine.execBudgetEntry blocks s
  | .discardGo m n => Sys2Proof.Machine.execDiscardGo m n s
  | .discardExecute => Sys2Proof.Machine.execDiscardExecute s
  | .cccAge => Sys2Proof.Machine.execCccAge s
  | .cccFrameFill f k => Sys2Proof.Machine.execCccFrameFill f k s
  | .dmaCommit m n => Sys2Proof.Machine.execDmaCommit m n s
  | .dmaResume m n => Sys2Proof.Machine.execDmaResume m n s
  | .dmaAbort m n => Sys2Proof.Machine.execDmaAbort m n s
  | .dmaClear m n => Sys2Proof.Machine.execDmaClear m n s
  | .dmaBurstDone n fail commit => Sys2Proof.Machine.execDmaBurstDone n fail commit s
  | .dmaDescriptorFetchDone n fail => Sys2Proof.Machine.execDmaDescriptorFetchDone n fail s
  | .dmaProgressTimeout n => Sys2Proof.Machine.execDmaProgressTimeout n s
  | .dmaPageRequestTimeout n => Sys2Proof.Machine.execDmaPageRequestTimeout n s
  | .iotlbInvalidate m scope asid => Sys2Proof.Machine.execIotlbInvalidate m scope asid s
  | .iotlbInvalidateDone => Sys2Proof.Machine.execIotlbInvalidateDone s
  | .sqTailDoorbell q cur tail => Sys2Proof.Machine.execSqTailDoorbell q cur tail s
  | .cqHeadDoorbell q cur head => Sys2Proof.Machine.execCqHeadDoorbell q cur head s
  | .controllerEnable q aq wrr => Sys2Proof.Machine.execControllerEnable q aq wrr s
  | .controllerReset q => Sys2Proof.Machine.execControllerReset q s
  | .shutdownNormal q => Sys2Proof.Machine.execShutdownNormal q s
  | .shutdownComplete q => Sys2Proof.Machine.execShutdownComplete q s
  | .shutdownAbrupt q => Sys2Proof.Machine.execShutdownAbrupt q s
  | .writeDataComplete t bytes => Sys2Proof.Machine.execWriteDataComplete t bytes s
  | .writeAdmission t slots => Sys2Proof.Machine.execWriteAdmission t slots s
  | .commandAgeLimit t => Sys2Proof.Machine.execCommandAgeLimit t s
  | .handoffEntryWrite row => Sys2Proof.Machine.execHandoffEntryWrite row s
  | .cqeDoneDw0 m v => Sys2Proof.Machine.execCqeDoneDw0 m v s
  | .cqeDone m t sct sc dnr => Sys2Proof.Machine.execCqeDone m t sct sc dnr s
  | .actuatorClaim a on => Sys2Proof.Machine.execActuatorClaim a on s
  | .claimLeaseExpiry a => Sys2Proof.Machine.execClaimLeaseExpiry a s
  | .activationTimeout => Sys2Proof.Machine.execActivationTimeout s
  | .activationResume => Sys2Proof.Machine.execActivationResume s
  | .nvmeRead q cur x => Sys2Proof.Machine.execNvmeRead q cur x s
  | .nvmeWrite q cur x => Sys2Proof.Machine.execNvmeWrite q cur x s
  | .nvmeFlush q cur x => Sys2Proof.Machine.execNvmeFlush q cur x s
  | .writeZeroes q cur x => Sys2Proof.Machine.execWriteZeroes q cur x s
  | .zoneOpen q cur x => Sys2Proof.Machine.execZoneOpen q cur x s
  | .zoneClose q cur x => Sys2Proof.Machine.execZoneClose q cur x s
  | .zoneFinish q cur x => Sys2Proof.Machine.execZoneFinish q cur x s
  | .zoneReset q cur x => Sys2Proof.Machine.execZoneReset q cur x s
  | .zoneOffline q cur x => Sys2Proof.Machine.execZoneOffline q cur x s
  | .zoneManagementReceive q cur x => Sys2Proof.Machine.execZoneManagementReceive q cur x s
  | .zoneAppend q cur x => Sys2Proof.Machine.execZoneAppend q cur x s
  | .identify q x => Sys2Proof.Machine.execIdentify q x s
  | .getLogPage q x => Sys2Proof.Machine.execGetLogPage q x s
  | .setFeatures q x => Sys2Proof.Machine.execSetFeatures q x s
  | .getFeatures q x => Sys2Proof.Machine.execGetFeatures q x s
  | .createIoSubmissionQueue q x => Sys2Proof.Machine.execCreateIoSubmissionQueue q x s
  | .createIoCompletionQueue q x => Sys2Proof.Machine.execCreateIoCompletionQueue q x s
  | .deleteIoSubmissionQueue q x => Sys2Proof.Machine.execDeleteIoSubmissionQueue q x s
  | .deleteIoCompletionQueue q x => Sys2Proof.Machine.execDeleteIoCompletionQueue q x s
  | .abort q x => Sys2Proof.Machine.execAbort q x s
  | .asynchronousEventRequest q x => Sys2Proof.Machine.execAsynchronousEventRequest q x s
  | .namespaceManagement q x => Sys2Proof.Machine.execNamespaceManagement q x s
  | .namespaceAttachment q x => Sys2Proof.Machine.execNamespaceAttachment q x s
  | .formatNvm q x => Sys2Proof.Machine.execFormatNvm q x s
  | .firmwareImageDownload q x => Sys2Proof.Machine.execFirmwareImageDownload q x s
  | .firmwareCommit q x => Sys2Proof.Machine.execFirmwareCommit q x s
  | .securitySend q x => Sys2Proof.Machine.execSecuritySend q x s
  | .securityReceive q x => Sys2Proof.Machine.execSecurityReceive q x s
  | .vendorAdminCommand q op x => Sys2Proof.Machine.execVendorAdminCommand q op x s
  | .sasRead16 f lba n => Sys2Proof.Machine.execSasRead16 f lba n s
  | .sasWrite16 f lba n fua => Sys2Proof.Machine.execSasWrite16 f lba n fua s
  | .synchronizeCache16 f => Sys2Proof.Machine.execSynchronizeCache16 f s
  | .reportZones f lba cdb => Sys2Proof.Machine.execReportZones f lba cdb s
  | .openZone f lba every cdb => Sys2Proof.Machine.execOpenZone f lba every cdb s
  | .closeZone f lba every cdb => Sys2Proof.Machine.execCloseZone f lba every cdb s
  | .finishZone f lba every cdb => Sys2Proof.Machine.execFinishZone f lba every cdb s
  | .resetWritePointer f lba every cdb => Sys2Proof.Machine.execResetWritePointer f lba every cdb s
  | .inquiry f cdb => Sys2Proof.Machine.execInquiry f cdb s
  | .readCapacity16 f cdb => Sys2Proof.Machine.execReadCapacity16 f cdb s
  | .reportLuns f cdb => Sys2Proof.Machine.execReportLuns f cdb s
  | .testUnitReady f cdb => Sys2Proof.Machine.execTestUnitReady f cdb s
  | .requestSense f cdb => Sys2Proof.Machine.execRequestSense f cdb s
  | .startStopUnit f start cdb => Sys2Proof.Machine.execStartStopUnit f start cdb s
  | .modeSense10 f cdb => Sys2Proof.Machine.execModeSense10 f cdb s
  | .modeSelect10 f page bytes cdb => Sys2Proof.Machine.execModeSelect10 f page bytes cdb s
  | .writeBuffer f cdb => Sys2Proof.Machine.execWriteBuffer f cdb s
  | .readBuffer f cdb => Sys2Proof.Machine.execReadBuffer f cdb s
  | .abortTask q nexus tag => Sys2Proof.Machine.execAbortTask q nexus tag s
  | .logicalUnitReset q nexus tag lun => Sys2Proof.Machine.execLogicalUnitReset q nexus tag lun s
  | .iTNexusReset q nexus tag => Sys2Proof.Machine.execITNexusReset q nexus tag s
  | .queryTask q nexus tag => Sys2Proof.Machine.execQueryTask q nexus tag s
  | .mctpPacket payload => Sys2Proof.Machine.execMctpPacket payload s
  | .nvmeMiBasicManagement => Sys2Proof.Machine.execNvmeMiBasicManagement s
  | .readNvmeMiDataStructure kind port => Sys2Proof.Machine.execReadNvmeMiDataStructure kind port s
  | .subsystemHealthStatusPoll => Sys2Proof.Machine.execSubsystemHealthStatusPoll s
  | .controllerHealthStatusPoll q => Sys2Proof.Machine.execControllerHealthStatusPoll q s
  | .configurationSet item value => Sys2Proof.Machine.execConfigurationSet item value s
  | .configurationGet item => Sys2Proof.Machine.execConfigurationGet item s
  | .vpdRead off len => Sys2Proof.Machine.execVpdRead off len s
  | .vpdWrite off bytes => Sys2Proof.Machine.execVpdWrite off bytes s
  | .miTunnelledAdmin op x => Sys2Proof.Machine.execMiTunnelledAdmin op x s
  | .miVendorCommand words => Sys2Proof.Machine.execMiVendorCommand words s
  | .hostLinkUp q rate width => Sys2Proof.Machine.execHostLinkUp q rate width s
  | .dlDown q => Sys2Proof.Machine.execDlDown q s
  | .hostRecoveryTimeout q => Sys2Proof.Machine.execHostRecoveryTimeout q s
  | .perstAssert q => Sys2Proof.Machine.execPerstAssert q s
  | .hotReset q => Sys2Proof.Machine.execHotReset q s
  | .functionLevelReset q => Sys2Proof.Machine.execFunctionLevelReset q s
  | .linkDisable q => Sys2Proof.Machine.execLinkDisable q s
  | .sasHardReset q => Sys2Proof.Machine.execSasHardReset q s
  | .portDisable q => Sys2Proof.Machine.execPortDisable q s
  | .retrain q => Sys2Proof.Machine.execRetrain q s
  | .passStart a firmware wants waiting => Sys2Proof.Machine.execPassStart a firmware wants waiting s
  | .passEnd a waiting => Sys2Proof.Machine.execPassEnd a waiting s
  | .ztabLoadDone p bad => Sys2Proof.Machine.execZtabLoadDone p bad s
  | .wtabLoadDone w bad => Sys2Proof.Machine.execWtabLoadDone w bad s
  | .rroLoadDone set bad => Sys2Proof.Machine.execRroLoadDone set bad s
  | .hpPowerUpDone p ready => Sys2Proof.Machine.execHpPowerUpDone p ready s
  | .hpIdleOff p => Sys2Proof.Machine.execHpIdleOff p s
  | .sectorPreambleStart x => Sys2Proof.Machine.execSectorPreambleStart x s
  | .preambleEnd p track amps0 amps1 a1 a3 => Sys2Proof.Machine.execPreambleEnd p track amps0 amps1 a1 a3 s
  | .clearanceDelivery p => Sys2Proof.Machine.execClearanceDelivery p s
  | .sectorReadEnd p row j tag verify sampled timing sm1 sm2 d bits => Sys2Proof.Machine.execSectorReadEnd p row j tag verify sampled timing sm1 sm2 d bits s
  | .decodeCutoff p row j x c => Sys2Proof.Machine.execDecodeCutoff p row j x c s
  | .ladderLevelBoundary p slot needed sampled r bits => Sys2Proof.Machine.execLadderLevelBoundary p slot needed sampled r bits s
  | .l1JobDone p slot d => Sys2Proof.Machine.execL1JobDone p slot d s
  | .readerLoss n => Sys2Proof.Machine.execReaderLoss n s
  | .bothReadersLoss p => Sys2Proof.Machine.execBothReadersLoss p s
  | .srForce p on sel => Sys2Proof.Machine.execSrForce p on sel s
  | .retryOrderWrite q v => Sys2Proof.Machine.execRetryOrderWrite q v s
  | .hstSnap => Sys2Proof.Machine.execHstSnap s
  | .hstClr => Sys2Proof.Machine.execHstClr s
  | .npDataAccess m w => Sys2Proof.Machine.execNpDataAccess m w s
  | .driftLogRead m => Sys2Proof.Machine.execDriftLogRead m s
  | .palHello a ver => Sys2Proof.Machine.execPalHello a ver s
  | .preampLinkUpStart a => Sys2Proof.Machine.execPreampLinkUpStart a s
  | .palStatus a payload => Sys2Proof.Machine.execPalStatus a payload s
  | .palAck a typ crc => Sys2Proof.Machine.execPalAck a typ crc s
  | .palResend a typ crc => Sys2Proof.Machine.execPalResend a typ crc s
  | .palErrorBurst a crcErrors => Sys2Proof.Machine.execPalErrorBurst a crcErrors s
  | .palLinkLoss a => Sys2Proof.Machine.execPalLinkLoss a s
  | .astId a payload => Sys2Proof.Machine.execAstId a payload s
  | .astMon a arm m gate => Sys2Proof.Machine.execAstMon a arm m gate s
  | .writeSectorStart a k row j tag => Sys2Proof.Machine.execWriteSectorStart a k row j tag s
  | .writeSectorEnd w => Sys2Proof.Machine.execWriteSectorEnd w s
  | .inhibitSet w => Sys2Proof.Machine.execInhibitSet w s
  | .inhibitClear w => Sys2Proof.Machine.execInhibitClear w s
  | .rowWritten row => Sys2Proof.Machine.execRowWritten row s
  | .wedgeArrival p x => Sys2Proof.Machine.execWedgeArrival p x s
  | .missingWedgeRemoval p => Sys2Proof.Machine.execMissingWedgeRemoval p s
  | .servoLoss a => Sys2Proof.Machine.execServoLoss a s
  | .microactuatorClampRemoval p => Sys2Proof.Machine.execMicroactuatorClampRemoval p s
  | .evFormation a => Sys2Proof.Machine.execEvFormation a s
  | .currentTick a tick => Sys2Proof.Machine.execCurrentTick a tick s
  | .contextTrigger k e => Sys2Proof.Machine.execContextTrigger k e s
  | .contextExecutionEnd k elapsed busy => Sys2Proof.Machine.execContextExecutionEnd k elapsed busy s
  | .cluCommit m u mask => Sys2Proof.Machine.execCluCommit m u mask s
  | .cluCommitApply u => Sys2Proof.Machine.execCluCommitApply u s
  | .serviceWrite m => Sys2Proof.Machine.execServiceWrite m s
  | .trackingGraceExpiry => Sys2Proof.Machine.execTrackingGraceExpiry s
  | .trackingLimitExpiry => Sys2Proof.Machine.execTrackingLimitExpiry s
  | .parkTimeout a => Sys2Proof.Machine.execParkTimeout a s
  | .seekGo a slots wr => Sys2Proof.Machine.execSeekGo a slots wr s
  | .load a => Sys2Proof.Machine.execLoad a s
  | .loadTimeout a => Sys2Proof.Machine.execLoadTimeout a s
  | .unload a => Sys2Proof.Machine.execUnload a s
  | .settleTimeout a => Sys2Proof.Machine.execSettleTimeout a s
  | .vibConversion v0 v1 v2 v3 v4 v5 => Sys2Proof.Machine.execVibConversion v0 v1 v2 v3 v4 v5 s
  | .shockEventStart src peak => Sys2Proof.Machine.execShockEventStart src peak s
  | .shockEventEnd => Sys2Proof.Machine.execShockEventEnd s
  | .framePulse turned len thetaM => Sys2Proof.Machine.execFramePulse turned len thetaM s
  | .focPeriod theta n eu ev ew err locked => Sys2Proof.Machine.execFocPeriod theta n eu ev ew err locked s
  | .spnStart m => Sys2Proof.Machine.execSpnStart m s
  | .spnStop m => Sys2Proof.Machine.execSpnStop m s
  | .sensePulseDone peak => Sys2Proof.Machine.execSensePulseDone peak s
  | .alignEnd => Sys2Proof.Machine.execAlignEnd s
  | .observerLoss => Sys2Proof.Machine.execObserverLoss s
  | .rampTimeout => Sys2Proof.Machine.execRampTimeout s
  | .shortEnd => Sys2Proof.Machine.execShortEnd s
  | .catchTimeout => Sys2Proof.Machine.execCatchTimeout s
  | .spdSetWrite m v => Sys2Proof.Machine.execSpdSetWrite m v s
  | .spnCommit m mask => Sys2Proof.Machine.execSpnCommit m mask s
  | .splEnable m => Sys2Proof.Machine.execSplEnable m s
  | .splDisable m => Sys2Proof.Machine.execSplDisable m s
  | .hopSignalDetect d => Sys2Proof.Machine.execHopSignalDetect d s
  | .hopTrainDone d => Sys2Proof.Machine.execHopTrainDone d s
  | .hopTrainTimeout d => Sys2Proof.Machine.execHopTrainTimeout d s
  | .hello d ver peer => Sys2Proof.Machine.execHello d ver peer s
  | .helloTimeout d => Sys2Proof.Machine.execHelloTimeout d s
  | .straitSideLoss d => Sys2Proof.Machine.execStraitSideLoss d s
  | .hopMarker d peer link => Sys2Proof.Machine.execHopMarker d peer link s
  | .straitUnknownFrame h typ crcBad payload => Sys2Proof.Machine.execStraitUnknownFrame h typ crcBad payload s
  | .beacon h inst healthy elig refLock master level ver => Sys2Proof.Machine.execBeacon h inst healthy elig refLock master level ver s
  | .beaconSend => Sys2Proof.Machine.execBeaconSend s
  | .join h inst => Sys2Proof.Machine.execJoin h inst s
  | .leave h => Sys2Proof.Machine.execLeave h s
  | .dlyReq d t1 t2 t3 => Sys2Proof.Machine.execDlyReq d t1 t2 t3 s
  | .dlyRsp d t1 t2 t3 t4 => Sys2Proof.Machine.execDlyRsp d t1 t2 t3 t4 s
  | .time h tf corr rx => Sys2Proof.Machine.execTime h tf corr rx s
  | .plan h ver part entries => Sys2Proof.Machine.execPlan h ver part entries s
  | .planTimeout origin ver => Sys2Proof.Machine.execPlanTimeout origin ver s
  | .splPlanSubmit m => Sys2Proof.Machine.execSplPlanSubmit m s
  | .fwarn h peak src tm => Sys2Proof.Machine.execFwarn h peak src tm s
  | .forewarnWindowEnd => Sys2Proof.Machine.execForewarnWindowEnd s
  | .relay h bcast dest data => Sys2Proof.Machine.execRelay h bcast dest data s
  | .relaySend m => Sys2Proof.Machine.execRelaySend m s
  | .relayPop m => Sys2Proof.Machine.execRelayPop m s
  | .merInPulse tp => Sys2Proof.Machine.execMerInPulse tp s
  | .memberArrival row j status kind bytes rel crcs => Sys2Proof.Machine.execMemberArrival row j status kind bytes rel crcs s
  | .encodeMember row j recorded lost => Sys2Proof.Machine.execEncodeMember row j recorded lost s
  | .parityReady row => Sys2Proof.Machine.execParityReady row s
  | .keyLoad m slot kgen hostEn => Sys2Proof.Machine.execKeyLoad m slot kgen hostEn s
  | .keyLock m slot => Sys2Proof.Machine.execKeyLock m slot s
  | .keyUnlock m slot => Sys2Proof.Machine.execKeyUnlock m slot s
  | .keyZeroise m slot => Sys2Proof.Machine.execKeyZeroise m slot s
  | .slotMapWrite m a v => Sys2Proof.Machine.execSlotMapWrite m a v s
  | .headStateWrite m h v => Sys2Proof.Machine.execHeadStateWrite m h v s
  | .ledStretchEnd => Sys2Proof.Machine.execLedStretchEnd s
  | .perstDeassert q => Sys2Proof.Machine.execPerstDeassert q s
  | .controllerResetComplete q => Sys2Proof.Machine.execControllerResetComplete q s
  | .interruptCoalescingTimeout q cur => Sys2Proof.Machine.execInterruptCoalescingTimeout q cur s
  | .operatingHourElapsed => Sys2Proof.Machine.execOperatingHourElapsed s
  | .refclkHLoss => Sys2Proof.Machine.execRefclkHLoss s
  | .refclkHReturn => Sys2Proof.Machine.execRefclkHReturn s
  | .linkL1Entry q => Sys2Proof.Machine.execLinkL1Entry q s
  | .linkL1Exit q => Sys2Proof.Machine.execLinkL1Exit q s
  | .pmeTurnOff q => Sys2Proof.Machine.execPmeTurnOff q s

end Sys2Proof.Machine
end

