-- ==== Sys2Proof/Machine/Tick.lean ====
section
/-! DEFINITION. What a tick of Meridian time does of itself: the step of an empty queue (R490; assumption log 4). -/
namespace Sys2Proof.Machine

/-- Ticks in the interval between HELLO frames (R477); core clock cycles in a tick (R428). -/
def tickHello : Nat := 80
def tickCycles : Nat := 250

/-- A millisecond has passed: the watchdogs' SINCE, with the stage it brings (R434), and the tracking watchdog's (R197). -/
def msTick : Prog := .seq
  (each (List.range 5) fun h => whenS (fun s => s.wdtRuns h && !s.on PCX_KPR_STAT.RESTART 0) (.seq (incF PCX_WDT_STAT.SINCE h) (.ask fun s =>
    when (decide (s.wdtTimeout h ≤ s.get PCX_WDT_STAT.SINCE h)) (.seq (stage1Prog h)
      (when (decide (2 * s.wdtTimeout h ≤ s.get PCX_WDT_STAT.SINCE h)) (stage2Prog h))))))
  (whenS (fun s => s.get SVE_TRK_STAT.STATE 0 == trkServed || s.get SVE_TRK_STAT.STATE 0 == trkAutonomous)
    (all [incF SVE_TRK_STAT.SINCE 0, graceProg, limitProg]))

/-- A second of operating time (R545). -/
def secTick : Prog := .seq (.upd (.alm fun a => { a with secs := a.secs + 1 })) (whenS (fun s => decide (3600 ≤ s.alm.secs)) hourProg)

/-- HELLO goes out every 10 µs until the power die answers (R477). -/
def helloTick : Prog := whenS (fun s => !s.cwIsUp && s.ptm.ticks % tickHello == 0)
  (.seq (setF PTM_CW_STAT.LINK 0 cwHello) (cwSend "HELLO" 0x01 0 [0x10, Config.dieIdentity % 256]))

/-- FCU samples the lines that failed accesses of subsystems raised: of each source one event, in ascending source number (R532, R533). -/
def lateTick : Prog := .ask fun s => .seq (.upd (.fcu fun x => { x with late := [] }))
  (each ((s.fcu.late.map (·.1)).dedup.mergeSort) fun i => match s.fcu.late.find? fun e => e.1 == i with
    | some e => raise i e.2
    | none => .skip)

/-- What hardware and the Keeper do at a tick without a command: FCU's lines, the sequencer, BOOT's loads, a reset that waited, members that ended, a calibration whose
condition lapsed, Ferry's waiting exchanges and the relay, DMF's arbitration. -/
def sweepTick : Prog := all [
  againTick, lateTick, transTick, whenS (fun s => s.mode == mBoot && !s.ptm.bootStopped) seqLoads, resetTick, lostSweep, memberSweep, calSweep, waitSweep, unknownSweep, relayPump, relayPost,
  arbitrate 0, arbitrate 1]

/-- One tick. Operating time runs in every mode; Meridian time and all else stop in RETENTION (R500) and while the part is off. -/
def tickProg : Prog := .seq (.upd (.ptm fun p => { p with ticks := p.ticks + 1 })) (.seq
  (whenS (fun s => s.ptm.ticks % tickSec == 0) secTick)
  (whenS (fun s => s.ptm.powered && !s.ptm.retention) (all [
    .ask fun s => setF PTM_MER_TIME.TIME 0 ((s.time + 1) % 2 ^ 64),
    .upd (.pcx fun p => { p with mcycle := p.mcycle + tickCycles }),
    whenS (·.on PCX_KPR_STAT.RESTART 0) (.upd (.kpr fun k => { k with restartTicks := k.restartTicks + 1 })),
    whenS (fun s => s.ptm.ticks % tickMs == 0) msTick,
    helloTick, splTick, sweepTick])))

end Sys2Proof.Machine
end

