-- ==== Sys2Proof/Safety.lean ====
section
/-! DEFINITION. The form that every state of a run has: the canonical form of its sparse tables; what a safe step is. -/
namespace Sys2Proof.Machine

/-- Memory is in its one form: addresses strictly rise, and no byte equals what an unlisted one reads as. -/
def Memory.wf (l : List Host.Cell) : Bool := Sparse.wf (fun _ => memDefault) l

/-- What the register that key `k` names resets to. -/
def resetOfKey (k : Nat) : DWord := regReset (RegName.ofNat (k % 512)) (k / 512)

/-- The register file is in its one form: keys strictly rise, and no register at its reset value is listed. -/
def Registers.wf (l : List (Nat × DWord)) : Bool := Sparse.wf resetOfKey l

/-- The invariant of every run. -/
def State.wf (s : State) : Bool := Registers.wf s.regs && Memory.wf s.mem

/-- A step is safe: it answers a next state that is well-formed. -/
def safeStep (s : State) : Prop := ∃ t, step s = .next t ∧ t.wf = true

/-- Command `c` completes in state `s`, and the next state is as `Q` says. -/
def Completes (c : Instr) (s : State) (Q : State → Prop) : Prop := ∃ t, exec c s = .next t ∧ Q t

/-- The components of the state beside registers and memory: the hidden state of each block, what has left the part, the count of free values. -/
inductive Part where
  | access | ptm | fcu | alm | svc | pcx | kpr | hif | cqe | bmu | dmf | mpc | rdc | wrc | sve | spn | pwr | spl | out | free
  deriving DecidableEq, Repr

/-- A component is the same in two states. -/
def Part.same (p : Part) (s t : State) : Prop :=
  match p with
  | .access => t.access = s.access
  | .ptm => t.ptm = s.ptm
  | .fcu => t.fcu = s.fcu
  | .alm => t.alm = s.alm
  | .svc => t.svc = s.svc
  | .pcx => t.pcx = s.pcx
  | .kpr => t.kpr = s.kpr
  | .hif => t.hif = s.hif
  | .cqe => t.cqe = s.cqe
  | .bmu => t.bmu = s.bmu
  | .dmf => t.dmf = s.dmf
  | .mpc => t.mpc = s.mpc
  | .rdc => t.rdc = s.rdc
  | .wrc => t.wrc = s.wrc
  | .sve => t.sve = s.sve
  | .spn => t.spn = s.spn
  | .pwr => t.pwr = s.pwr
  | .spl => t.spl = s.spl
  | .out => t.out = s.out
  | .free => t.freeCtr = s.freeCtr

/-- Nothing changes between two states but the registers `rs`, the components `ps` and the bytes of memory in the ranges `ms` (base and length); the
commands waiting are the same. -/
def Unchanged (rs : List (RegName × Nat)) (ps : List Part) (ms : List (Nat × Nat)) (s t : State) : Prop :=
  (∀ r i, (r, i) ∉ rs → t.reg r i = s.reg r i) ∧ (∀ p, p ∉ ps → p.same s t) ∧
    (∀ a, (∀ e ∈ ms, ¬(e.1 ≤ a ∧ a < e.1 + e.2)) → t.byte a = s.byte a) ∧ t.pending = s.pending

/-- Nothing changes between two states but registers named in `rs`, components `ps` and, where `m` says so, memory; the commands waiting are the same. -/
def ChangesOnly (rs : List RegName) (ps : List Part) (m : Bool) (s t : State) : Prop :=
  (∀ r i, r ∉ rs → t.reg r i = s.reg r i) ∧ (∀ p, p ∉ ps → p.same s t) ∧ (m = false → ∀ a, t.byte a = s.byte a) ∧ t.pending = s.pending

/-- An event of source `i` would be counted and go no further: the source is no reserved one, it is enabled, FCU is powered, and the event is not severe
(R532, R535). -/
def State.quiet (s : State) (i : Nat) : Prop :=
  sourceReserved i = false ∧ s.on FCU_SRC_CFG.EN i = true ∧ s.islandOn 2 = true ∧ s.severeNext i = false

/-- The registers that counting and capturing an event of source `i` writes. -/
def countRegs (i : Nat) : List (RegName × Nat) := [(.FCU_SRC_STAT, i), (.FCU_FEC_INFO, 0), (.FCU_FEC_ADDR, 0), (.FCU_FEC_TIME, 0)]

/-- One event of source `i` was counted (R535), and captured, or marked as a further one where a capture is held (R534). -/
def Counted (i : Nat) (c : FCap) (s t : State) : Prop :=
  t.get FCU_SRC_STAT.WCNT i = satAdd (s.get FCU_SRC_STAT.WCNT i) 1 255 ∧ t.get FCU_SRC_STAT.TOTAL i = satAdd (s.get FCU_SRC_STAT.TOTAL i) 1 255 ∧
  t.get FCU_FEC_INFO.VALID 0 = 1 ∧
  if s.on FCU_FEC_INFO.VALID 0 then t.get FCU_FEC_INFO.MULTI 0 = 1 ∧ t.get FCU_FEC_INFO.SRC 0 = s.get FCU_FEC_INFO.SRC 0
  else t.get FCU_FEC_INFO.SRC 0 = i % 512 ∧ t.get FCU_FEC_INFO.MID 0 = c.mid % 256 ∧ t.get FCU_FEC_INFO.TYPE 0 = c.typ % 16 ∧
    t.get FCU_FEC_INFO.SIZE 0 = c.size % 16

/-- A write by `m` of the Keeper's fields in element `i` of register `r` was turned away: one event of source 16 with the access's address, one more in the
block's RWK_DENY (R596). -/
def Denied (m : Master) (r : RegName) (i : Nat) (s t : State) : Prop :=
  Counted 16 (accessCap m 1 2 (regAddr r i)) s t ∧
  t.get BLK_LOCK.RWK_DENY (regInfo r).block = satAdd (s.get BLK_LOCK.RWK_DENY (regInfo r).block) 1 255

/-- Channel `n` holds a request TAKEN that carries command `code`, and the Keeper's checks before the command's own pass: it runs, the version allows the
command, the slot has the form of that version and its header is in order, and the channel's class may post it (R445, R453, R456 to R458). `f2`: a command of version 2. -/
def State.mayServe (s : State) (n code classes : Nat) (f2 : Bool) : Prop :=
  s.serving n code = true ∧ (f2 = true → 2 ≤ s.fyMajor n) ∧ (2 ≤ s.fyMajor n → nbits (s.req n 0) 15 8 = 0x10) ∧ classes &&& ferryClass n ≠ 0 ∧
  s.slotHeaderOk n = true ∧ (n = 6 → s.kpr.relayIn = [])

/-- The exchange on channel `n` is DONE with outcome `err` and result words `ws` (R446, R447, R451). -/
def Answered (n err : Nat) (ws : List Nat) (s t : State) : Prop :=
  t.fySt n = fyDone ∧ t.get PCX_FRY_STAT.ERR n = err ∧ t.get PCX_FRY_RES.W (64 * n) = (fyDone <<< 30 ||| err <<< 16 ||| s.get PCX_FRY_STAT.LAST_SEQ n) ∧
  t.get PCX_FRY_RES.W (64 * n + 1) = s.req n 0 / 65536 * 65536 + 4 * ws.length ∧
  (∀ k < ws.length, t.get PCX_FRY_RES.W (64 * n + 4 + k) = ws.getD k 0 % 2 ^ 32) ∧ (∀ e ∈ t.kpr.posted, e.chan ≠ n)

/-- The tag that the next command fetched is held under (R322; which tag is free, assumption log 31). -/
def State.newTag (s : State) : Nat := s.freeTag (Config.freeValue s.freeCtr)

/-- Some tag is free: there are 4,096 of them (R322). -/
def State.tagFree (s : State) : Bool := (List.range 4096).any fun k => !(s.cqe.cmds.any fun c => c.ctag == k)

/-- A command is held as `c` has it, fetched now: under the new tag, with the next fetch sequence number (R322, R324). -/
def Fetched (c : Cmd) (s t : State) : Prop :=
  { c with ctag := s.newTag, seq := s.cqe.nextSeq, time := s.time } ∈ t.cqe.cmds ∧ t.cqe.nextSeq = (s.cqe.nextSeq + 1) % 2 ^ 32

/-- The entry at the head of submission queue `i` of controller `q` is taken (R322). -/
def TookEntry (q i : Nat) (s t : State) : Prop :=
  ∀ y ∈ (s.port q).sq i, ((t.port q).sq i).map (·.head) = some ((y.head + 1) % max 1 y.size)

/-- What the read of a sector on path `p` leaves: what the sender has, or what detector and decoder make of its channel bits (R119, R121, R129). -/
def State.readLeft (s : State) (p iter : Nat) (o : SectorObs) : ReadOut :=
  match o with
  | .result r => r
  | .samples bits =>
    let t := (readPiece p bits).run s
    (flushRun (t.loopCfg p) (t.loopStart p, t.run p)).2.out (t.get RDC_HP_DET.LLR_SCALE p) iter (t.get RDC_HP_DEC.NORM p)

/-- The member descriptor that RDC sends to MPC, with its payload (Table 4.10). -/
def memberFrame (time g j p h level status cause unsat iter : Nat) (payload : List Byte) : Out :=
  .frame "SECTOR" "MEMBER" ([g % 2 ^ 32, 2 ^ 27 * level + 2 ^ 24 * status + 2 ^ 16 * h + 2 ^ 12 * p + 2 ^ 8 * j + g / 2 ^ 32,
    2 ^ 20 * cause + 2 ^ 8 * (unsat % 4096) + iter, time] ++ payload.map (·.toNat))

/-- A read of sector (row, j) on path `p` would be used: no burst or removed path erased it, its member is not known lost (R139, R142). -/
def State.readCounts (s : State) (p row j : Nat) : Bool := !(s.rdc.erased.any fun e => e.1 == p) && !s.readLost p row j

end Sys2Proof.Machine
end

