-- ==== Sys2Proof/Certificates/Slice0/Obligations.lean ====
section
/-! DEFINITION. The statements for the provers. `Completes c s Q` says that command `c` answers a next state and that `Q` holds of it; `Unchanged rs ps ms s t`
that nothing else changes: registers `rs`, components `ps` and memory ranges `ms` apart. -/
open Sys2Proof Sys2Proof.Machine

/-- A HELLO of major 1 brings the link up, clears VER_ERR and reports the arms that timed out; another major sets VER_ERR and leaves the link in HELLO; a
heartbeat is sent when one is due, with Meridian time and its count; RESUME makes a power die in HOLD or AUTONOMOUS take motor commands, from HOLD with its
stages on, and ends braking; 50 µs without a heartbeat retract every actuator and take the die to AUTONOMOUS, where it brakes a spindle that turns once
every arm is latched, or to HOLD with the spindle at rest; RELEASE with every arm latched and the spindle stopped turns the stages off. Nothing else
changes. -/
def Obligations.CausewayLink : Prop :=
  (∀ (s : State) (minor : Fin 16), s.cwIsUp = false → Completes (.causewayHello 1 minor) s fun t => Unchanged [(.PTM_CW_STAT, 0)] [.pwr, .out] [] s t ∧ t.get
    PTM_CW_STAT.LINK 0 = cwUp ∧ t.get PTM_CW_STAT.VER_ERR 0 = 0 ∧ t.get PTM_CW_STAT.PD_VER 0 = 16 + minor ∧ t.pwr = { s.pwr with timedOut := [] } ∧ t.out =
    (s.pwr.timedOut.map fun a => Out.event "retract not latched" [a]).reverse ++ s.out) ∧
  (∀ (s : State) (major minor : Fin 16), s.cwIsUp = false → major.val ≠ 1 → s.mode ≠ mBoot → Completes (.causewayHello major minor) s fun t => Unchanged
    [(.PTM_CW_STAT, 0)] [] [] s t ∧ t.get PTM_CW_STAT.LINK 0 = cwHello ∧ t.get PTM_CW_STAT.VER_ERR 0 = 1 ∧ t.get PTM_CW_STAT.PD_VER 0 = 16 * major + minor) ∧
  (∀ (s : State), s.beats = true → Completes (.heartbeatSend) s fun t => Unchanged [] [.ptm, .pwr, .out] [] s t ∧ t.out = .frame "CW" "HB" (cwBytes 2 0
    (beNats 8 s.time ++ beNats 2 s.ptm.hbCount)) :: s.out ∧ t.ptm = { s.ptm with hbCount := (s.ptm.hbCount + 1) % 65536, hbNext := s.ptm.ticks + 16 } ∧
    t.pwr = { s.pwr with hbSeen := s.ptm.ticks }) ∧
  (∀ (s : State), s.pwr.st = pdCommanded → s.pwr.hbSeen + 400 ≤ s.ptm.ticks → Completes (.heartbeatTimeout) s fun t => Unchanged [(.PWR_STAT, 0)] [.pwr] [] s
    t ∧ t.get PWR_STAT.RETRACTED 0 = 15 ∧ t.pwr.duty = [] ∧ t.pwr.retracting = s.pwr.retracting ++ allActs.filter (fun a => !s.pwr.retracting.contains a &&
    !s.bitF PWR_STAT.LATCHED 0 a) ∧ t.pwr.st = (if t.pwr.retracting.isEmpty && !s.turning then pdHold else pdAutonomous) ∧ (t.pwr.retracting = [] →
    s.turning = true → t.pwr.braking = true)) ∧
  (∀ (s : State) (m : Master), m = .keeper → s.cwIsUp = true → s.pwr.st = pdHold ∨ s.pwr.st = pdAutonomous → Completes (.resume m) s fun t => Unchanged []
    [.pwr, .out] [] s t ∧ t.out = .frame "CW" "RESUME" (cwBytes 3 0 []) :: s.out ∧ t.pwr = { s.pwr with st := pdCommanded, stages := s.pwr.st == pdHold, braking := false, hbSeen := s.ptm.ticks }) ∧
  (∀ (s : State), s.pwr.st = pdCommanded → s.get PWR_STAT.LATCHED 0 = 15 → s.turning = false → Completes (.release) s fun t => Unchanged [] [.pwr] [] s t ∧
    t.pwr = { s.pwr with st := pdHold, stages := false, vcm := [], duty := [], sampled := [] })

/-- STATUS shows the power die's state and PWR_STAT to PTM, and EVT carries the supply and arm levels, a warning asserting the supply source; an arm that
either reports latched and whose unload or retract waits for it counts as parked; VCM_TICK, VCM_CMD, SPN_DUTY and RETRACT act while the power die is
COMMANDED: the currents named are sampled, the bridge of an actuator that is not retracted takes the voltage and leaves its latch, the phases take the
duties, the named actuators retract; a returned current triggers the current context with the set-point, and the vibration feedforward where it is on,
minus the current; returned phase currents reach the spindle's loops. Nothing else changes, but where an arm parks. Clauses without a frame state their
effects under the conditions of normal execution alone, whatever else follows in the same step. -/
def Obligations.MotorFrames : Prop :=
  (∀ (s : State), s.cwIsUp = true → s.ptm.seqStep ≠ 5 → Completes (.status) s fun t => t.get PTM_CW_STAT.PD_STATE 0 = s.pwr.st % 4 ∧ t.pwr = { s.pwr with seen := s.pwrStat }
    ∧ ∀ a < 4, s.bitF PWR_STAT.LATCHED 0 a = true → a ∈ s.sve.retract → t.bitF SVE_TRK_STAT.LOADED 0 a = false) ∧
  (∀ (s : State), s.cwIsUp = true → s.ptm.seqStep ≠ 5 → s.get PWR_STAT.LATCHED 0 = 0 → Completes (.status) s fun t => Unchanged [(.PTM_CW_STAT, 0)] [.pwr] []
    s t ∧ t.get PTM_CW_STAT.PD_STATE 0 = s.pwr.st % 4 ∧ t.pwr = { s.pwr with seen := s.pwrStat }) ∧
  (∀ (s : State) (loss warn : Bool) (railOk : Fin 64) (latched : Fin 16), Completes (.evt loss warn railOk latched) s fun t => ChangesOnly [.BMU_EVB_STAT,
    .BMU_STAT, .PCX_PROT_STAT, .PWR_STAT, .SPN_CTL, .SPN_ORR_STAT, .SPN_STAT, .SVE_CTX_CFG, .SVE_CTX_MAN, .SVE_SEEK_STAT, .SVE_TRK_STAT, .WRC_RWL_CTL,
    .WRC_RWL_PTR, .WRC_WR_STAT, .WRC_WUS_STAT] [.bmu, .fcu, .out, .ptm, .pwr, .rdc, .spn, .sve, .wrc] true s t ∧ t.get PWR_STAT.LOSS 0 = b2n loss ∧ t.get
    PWR_STAT.WARN 0 = b2n warn ∧ t.get PWR_STAT.RAIL_OK 0 = railOk ∧ t.get PWR_STAT.LATCHED 0 = latched ∧ t.pwr = { s.pwr with seen := t.pwrStat } ∧ (warn
    = true → t.wrc.supply = true) ∧ ∀ a < 4, nbit latched a = true → a ∈ s.sve.retract → t.bitF SVE_TRK_STAT.LOADED 0 a = false) ∧
  (∀ (s : State) (mask : Fin 16), s.pwr.st = pdCommanded → Completes (.vcmTick mask) s fun t => Unchanged [] [.pwr] [] s t ∧ t.pwr = { s.pwr with sampled := allActs.filter fun a => s.pwr.sampled.contains a || nbit mask a }) ∧
  (∀ (s : State) (a : Fin 4) (v : BitVec 16), s.pwr.st = pdCommanded → s.bitF PWR_STAT.RETRACTED 0 a = false → Completes (.vcmCmd a v) s fun t => Unchanged
    [(.PWR_STAT, 0)] [.pwr] [] s t ∧ Sparse.get 0 t.pwr.vcm a = v.toInt ∧ t.pwr.stages = true ∧ t.get PWR_STAT.LATCHED 0 = (if v = 0 then s.get
    PWR_STAT.LATCHED 0 else setNBit (s.get PWR_STAT.LATCHED 0) a false % 16)) ∧
  (∀ (s : State) (a : Fin 4) (i bemf : BitVec 16), s.cwIsUp = true → s.on SVE_CTX_CFG.ENABLE (20 + a) = true → (s.ctx (20 + a)).trig = none → Completes
    (.vcmSamp a i bemf) s fun t => ChangesOnly [.FCU_FEC_ADDR, .FCU_FEC_INFO, .FCU_FEC_TIME, .FCU_SRC_STAT, .PWR_VCM_CFG, .SVE_CLU_CTL, .SVE_CLU_STAT,
    .SVE_CTX_STAT] [.fcu, .out, .pwr, .sve] false s t ∧ (let e := Sparse.get 0 s.sve.setPt a + (if s.on SVE_VFF_CTL.EN a then (Sparse.get {} s.sve.vff a :
    Vff).out else 0) - i.toInt; (t.ctx (20 + a)).trig = some e ∨ ∃ r ∈ t.sve.running, r.2.k = 20 + a ∧ r.2.e = e)) ∧
  (∀ (s : State) (a : Fin 4) (i bemf : BitVec 16), Completes (.vcmSamp a i bemf) s fun t => t.pwr.sampled = s.pwr.sampled.filter (· != a.val) ∧ .event "VCM
    back-EMF" [a, bemf.toNat] ∈ t.out ∧ (Sparse.get [] t.pwr.currents a).head? = some (s.ptm.ticks, i.toInt) ∧ t.get PWR_VCM_CFG.ILIM_ACT a = b2n
    (s.overIcont a (Sparse.get [] t.pwr.currents a))) ∧
  (∀ (s : State) (u v w : BitVec 16), s.pwr.st = pdCommanded → Completes (.spnDuty u v w) s fun t => Unchanged [] [.pwr] [] s t ∧ t.pwr = { s.pwr with stages := true, duty := [u.toNat, v.toNat, w.toNat] }) ∧
  (∀ (s : State) (iu iv iw bemf : BitVec 16), Completes (.spnSamp iu iv iw bemf) s fun t => Unchanged [] [.spn, .out] [] s t ∧ t.spn = { s.spn with samp := [iu.toInt, iv.toInt, iw.toInt] }
    ∧ t.out = .event "SPCT back-EMF" [bemf.toNat] :: s.out) ∧
  (∀ (s : State) (mask : Fin 16), s.pwr.st = pdCommanded → Completes (.retract mask) s fun t => Unchanged [(.PWR_STAT, 0)] [.pwr] [] s t ∧ t.get
    PWR_STAT.RETRACTED 0 = s.get PWR_STAT.RETRACTED 0 ||| mask ∧ t.pwr.retracting = s.pwr.retracting ++ (allActs.filter fun a => nbit mask a).filter fun a
    => !s.pwr.retracting.contains a && !s.bitF PWR_STAT.LATCHED 0 a)

/-- A rail fault clears its RAIL_OK bit, closes every write gate, asserts the supply source and counts an event of the rail's FCU source, and takes PWRGD low
where the rail is one of the four; a supply warning closes every gate; the source deasserts 1 ms after every cause has cleared; a supply loss isolates VHU,
sets LOSS, takes PWRGD low and retracts every actuator, and outside RETENTION the power-loss sequence begins; a writer's power-loss source closes its gate;
a latched arm sets LATCHED and its bridge turns off; an arm that has not latched after RET_TMO has its bridge off with LATCHED unchanged; the end of
braking stops the spindle, and in AUTONOMOUS the stages turn off. Clauses without a frame state their effects under the conditions of normal execution
alone, whatever else follows in the same step. -/
def Obligations.SupplyEvents : Prop :=
  (∀ (s : State) (k : Fin 6), s.quiet k → Completes (.railFault k) s fun t => ChangesOnly [.FCU_SRC_STAT, .FCU_FEC_INFO, .FCU_FEC_ADDR, .FCU_FEC_TIME,
    .PWR_STAT, .WRC_WR_STAT, .WRC_WUS_STAT, .WRC_RWL_PTR, .WRC_RWL_CTL] [.ptm, .wrc, .bmu, .out, .fcu] true s t ∧ Counted (k) (detail k) s t ∧ t.wrc.supply
    = true ∧ t.get PWR_STAT.RAIL_OK 0 = setNBit (s.get PWR_STAT.RAIL_OK 0) k false % 64 ∧ (k.val < 4 → t.pwrgd = false) ∧ ∀ w < 8, t.get WRC_WR_STAT.GATE w
    = 0) ∧
  (∀ (s : State), Completes (.supplyWarning) s fun t => ChangesOnly [.BMU_EVB_STAT, .BMU_STAT, .PCX_PROT_STAT, .PWR_STAT, .WRC_RWL_CTL, .WRC_RWL_PTR,
    .WRC_WR_STAT, .WRC_WUS_STAT] [.bmu, .fcu, .out, .ptm, .wrc] true s t ∧ t.get PWR_STAT.WARN 0 = 1 ∧ t.wrc.supply = true ∧ ∀ w < 8, t.get
    WRC_WR_STAT.GATE w = 0) ∧
  (∀ (s : State), s.wrc.supply = true → s.get PWR_STAT.WARN 0 = 0 → s.get PWR_STAT.RAIL_OK 0 = 63 → s.ptm.causeAt + tickMs ≤ s.ptm.ticks → Completes
    (.supplyWarningClear) s fun t => Unchanged [(.WRC_WUS_STAT, 0), (.WRC_RWL_CTL, 0)] [.wrc] [] s t ∧ t.wrc.supply = false) ∧
  (∀ (s : State), s.ptm.retention = true → Completes (.supplyLoss) s fun t => Unchanged [(.PWR_STAT, 0)] [.pwr, .out] [] s t ∧ t.get PWR_STAT.LOSS 0 = 1 ∧
    t.pwr.st = pdLoss ∧ t.pwr.isolated = true ∧ t.pwr.duty = [] ∧ t.get PWR_STAT.RETRACTED 0 = 15 ∧ t.pwrgd = false) ∧
  (∀ (s : State), s.ptm.retention = false → s.ptm.plStep = 0 → Completes (.supplyLoss) s fun t => t.get PWR_STAT.LOSS 0 = 1 ∧ t.pwr.st = pdLoss ∧
    t.pwr.isolated = true ∧ t.get PWR_STAT.RETRACTED 0 = 15 ∧ t.pwrgd = false ∧ t.ptm.plStep ≠ 0 ∧ t.ptm.plArmed = s.on PTM_JNL_STAT.ARMED 0) ∧
  (∀ (s : State) (w : Fin 8), s.ptm.plStep = 2 → (s.writer w).powerLoss = false → (∃ v < 8, v ≠ w.val ∧ (s.writer v).powerLoss = false) → (s.writer w).sector
    = none ∨ s.ptm.plAt + 160 ≤ s.ptm.ticks → Completes (.powerlossWriterAssert w) s fun t => ChangesOnly [.WRC_WR_STAT, .WRC_WUS_STAT, .WRC_RWL_PTR,
    .WRC_RWL_CTL] [.wrc, .bmu, .out] true s t ∧ (t.writer w).powerLoss = true ∧ t.get WRC_WR_STAT.GATE w = 0 ∧ t.ptm = s.ptm) ∧
  (∀ (s : State) (a : Fin 4), s.pwr.retracting.contains a.val = true → s.cwIsUp = false → Completes (.armLatch a) s fun t => Unchanged [(.PWR_STAT, 0)] [.pwr]
    [] s t ∧ t.get PWR_STAT.LATCHED 0 = setNBit (s.get PWR_STAT.LATCHED 0) a true % 16 ∧ t.pwr.retracting = s.pwr.retracting.filter (· != a.val) ∧
    Sparse.get 0 t.pwr.vcm a = 0) ∧
  (∀ (s : State) (a : Fin 4), s.pwr.retracting.contains a.val = true → s.retractOver a = true → Completes (.retractTimeout a) s fun t => ChangesOnly
    [.BMU_EVB_STAT, .BMU_STAT, .PCX_PROT_STAT, .SPN_CTL, .SPN_ORR_STAT, .SPN_STAT, .SVE_CTX_CFG, .SVE_CTX_MAN, .SVE_SEEK_STAT, .SVE_TRK_STAT, .WRC_RWL_CTL,
    .WRC_RWL_PTR, .WRC_WR_STAT, .WRC_WUS_STAT] [.bmu, .fcu, .out, .pwr, .rdc, .spn, .sve, .wrc] true s t ∧ t.pwr.retracting = s.pwr.retracting.filter (· !=
    a.val) ∧ t.pwr.timedOut = a.val :: s.pwr.timedOut ∧ t.get PWR_STAT.LATCHED 0 = s.get PWR_STAT.LATCHED 0 ∧ (a.val ∈ s.sve.retract → t.bitF
    SVE_TRK_STAT.LOADED 0 a = false)) ∧
  (∀ (s : State), s.pwr.braking = true → s.pwr.st = pdAutonomous → s.pwr.retracting = [] → Completes (.spindleBrakeEnd) s fun t => Unchanged [] [.pwr, .spn]
    [] s t ∧ t.pwr.st = pdHold ∧ t.pwr.stages = false ∧ t.pwr.braking = false ∧ t.spn.rotor = 0)

/-- Where FIXED is 0, a measured margin below the target raises VSET by one step and one above the target by 4 % for the 100th period lowers it by one, within
VMIN and VMAX; a margin below the emergency target raises it by five, once a period, and is counted; an underrun at VMAX counts an event of source 8. A
granted rise in demand sets U, HP_ALLOW and WR_ALLOW; a refused one sets AVS_LIM. A junction at TWARN sets THROTTLE; 1 s after both were last less than 5
degrees below it, it clears; a junction at TSHUT brings the safe state with cause 4, and a Keeper write of ENTER with cause 7: every write gate is closed,
a transition and a calibration run end and the mode stays (outside RETENTION and the power-loss sequence). A fabric transaction that times out ends with a
bus error and an event of source 20; a handshake that its watchdog abandons is logged with its pair of domains while the log has room and counts an event
of source 7, a fabric one ending with a bus error; a Causeway that goes down takes LINK to DOWN, sets DOWN_EVT, counts an event of source 6 and brings the
safe state with cause 3. Clauses without a frame state their effects under the conditions of normal execution alone, whatever else follows in the same
step. -/
def Obligations.VoltageAndHeat : Prop :=
  (∀ (s : State) (m : Int) (isl : Fin 32), s.on PTM_AVS_CFG.FIXED 0 = false → m < s.marginTarget → Completes (.avsPeriod m isl) s fun t => Unchanged
    [(.PTM_AVS_STAT, 0)] [.ptm] [] s t ∧ t.get PTM_AVS_STAT.VSET 0 = clampN s.vmin s.vmax (s.get PTM_AVS_STAT.VSET 0 + 1) ∧ t.get PTM_AVS_STAT.MIN_ISL 0 =
    isl ∧ t.ptm = { s.ptm with marginHigh := 0, emerUsed := false }) ∧
  (∀ (s : State) (m : Int) (isl : Fin 32), s.on PTM_AVS_CFG.FIXED 0 = false → s.marginTarget ≤ m → Completes (.avsPeriod m isl) s fun t => Unchanged
    [(.PTM_AVS_STAT, 0)] [.ptm] [] s t ∧ t.get PTM_AVS_STAT.VSET 0 = (if s.marginTarget + 400 < m ∧ s.ptm.marginHigh = 99 then clampN s.vmin s.vmax (s.get
    PTM_AVS_STAT.VSET 0 - 1) else s.get PTM_AVS_STAT.VSET 0) ∧ t.ptm.marginHigh = (if s.marginTarget + 400 < m then (if s.ptm.marginHigh = 99 then 0 else
    s.ptm.marginHigh + 1) else 0)) ∧
  (∀ (s : State) (m : Int) (isl : Fin 32), s.on PTM_AVS_CFG.FIXED 0 = false → m < s.emerTarget → s.ptm.emerUsed = false → Completes (.avsEmergencyStep m isl)
    s fun t => Unchanged [(.PTM_AVS_STAT, 0)] [.ptm] [] s t ∧ t.get PTM_AVS_STAT.VSET 0 = clampN s.vmin s.vmax (s.get PTM_AVS_STAT.VSET 0 + 5) ∧ t.get
    PTM_AVS_STAT.EMER_CNT 0 = satAdd (s.get PTM_AVS_STAT.EMER_CNT 0) 1 255 ∧ t.ptm = { s.ptm with emerUsed := true }) ∧
  (∀ (s : State) (m : Int) (isl : Fin 32), m < 0 → s.get PTM_AVS_STAT.VSET 0 = s.vmax → s.quiet 8 → Completes (.avsUnderrun m isl) s fun t => Unchanged
    (countRegs (8) ++ [(.PTM_AVS_STAT, 0)]) [.fcu] [] s t ∧ Counted (8) (detail isl) s t ∧ t.get PTM_AVS_STAT.MIN_ISL 0 = isl) ∧
  (∀ (s : State), s.get PTM_CAP_STAT.U 0 ≠ s.wantU → Completes (.demandRiseGrant true) s fun t => ChangesOnly [.PTM_AVS_STAT, .PTM_CAP_STAT, .PTM_DOM_PWR,
    .RDC_HP_CLR, .RDC_HP_STAT, .WRC_WR_STAT] [.out, .rdc, .svc, .wrc] false s t ∧ t.get PTM_CAP_STAT.U 0 = s.wantU % 16 ∧ t.get PTM_CAP_STAT.HP_ALLOW 0 = 2
    * s.wantU % 32 ∧ t.get PTM_CAP_STAT.WR_ALLOW 0 = s.wantU % 16 ∧ t.get PTM_CAP_STAT.CAP_EVT 0 = 1 ∧ t.get PTM_AVS_STAT.AVS_LIM 0 = 0) ∧
  (∀ (s : State), s.get PTM_AVS_STAT.VSET 0 = s.vmax → s.on PTM_AVS_CFG.FIXED 0 = false → Completes (.demandRiseGrant false) s fun t => ChangesOnly
    [.PTM_AVS_STAT, .PTM_CAP_STAT, .PTM_DOM_PWR, .RDC_HP_CLR, .RDC_HP_STAT, .WRC_WR_STAT] [.out, .rdc, .svc, .wrc] false s t ∧ t.get PTM_AVS_STAT.AVS_LIM 0
    = 1 ∧ t.get PTM_CAP_STAT.U 0 = s.get PTM_CAP_STAT.U 0) ∧
  (∀ (s : State) (tl tp : BitVec 8), s.twarn ≤ max tl.toInt tp.toInt → Completes (.thermalWarning tl tp) s fun t => ChangesOnly [.PTM_AVS_STAT, .PTM_CAP_STAT,
    .PTM_DOM_PWR, .PTM_THERM, .RDC_HP_CLR, .RDC_HP_STAT, .WRC_WR_STAT] [.out, .ptm, .rdc, .svc] false s t ∧ t.get PTM_CAP_STAT.THROTTLE 0 = 1 ∧ t.sget
    PTM_THERM.TJ_LOGIC 0 = tl.toInt ∧ t.sget PTM_THERM.TJ_POWER 0 = tp.toInt ∧ t.ptm.hotAt = s.ptm.ticks) ∧
  (∀ (s : State) (tl tp : BitVec 8), s.on PTM_CAP_STAT.THROTTLE 0 = true → max tl.toInt tp.toInt ≤ s.twarn - 5 → s.ptm.hotAt + tickSec ≤ s.ptm.ticks →
    Completes (.throttleClear tl tp) s fun t => ChangesOnly [.PTM_AVS_STAT, .PTM_CAP_STAT, .PTM_DOM_PWR, .PTM_THERM, .RDC_HP_CLR, .RDC_HP_STAT,
    .WRC_WR_STAT] [.out, .ptm, .rdc, .svc] false s t ∧ t.get PTM_CAP_STAT.THROTTLE 0 = 0 ∧ t.sget PTM_THERM.TJ_LOGIC 0 = tl.toInt ∧ t.sget
    PTM_THERM.TJ_POWER 0 = tp.toInt) ∧
  (∀ (s : State) (tl tp : BitVec 8), s.ptm.retention = false → s.safe = false → s.ptm.plStep = 0 → s.tshut ≤ max tl.toInt tp.toInt → Completes
    (.thermalShutdown tl tp) s fun t => ChangesOnly [.ALM_STAT, .BMU_EVB_STAT, .BMU_STAT, .FCU_CFG, .PCX_PROT_STAT, .PTM_AVS_STAT, .PTM_CAP_STAT,
    .PTM_DOM_PWR, .PTM_MODE_STAT, .PTM_THERM, .RDC_HEAD_CFG, .RDC_HP_CLR, .RDC_HP_STAT, .RDC_LANE_AFE, .RDC_PAL_STAT, .SPN_ORR_STAT, .SPN_STAT,
    .SVC_CAL_CTL, .SVC_CAL_STAT, .SVE_CTX_CFG, .SVE_CTX_MAN, .SVE_CTX_STAT, .SVE_SEEK_STAT, .WRC_HEAD_CFG, .WRC_RWL_CTL, .WRC_RWL_PTR, .WRC_WR_STAT,
    .WRC_WUS_STAT] [.alm, .bmu, .fcu, .out, .ptm, .rdc, .spn, .svc, .sve, .wrc] true s t ∧ t.get PTM_MODE_STAT.SAFE 0 = 1 ∧ t.get PTM_MODE_STAT.SAFE_CAUSE
    0 = 4 ∧ t.get PTM_MODE_STAT.TRANS 0 = 0 ∧ t.ptm.target = none ∧ t.wrc.safe = true ∧ (∀ w < 8, t.get WRC_WR_STAT.GATE w = 0) ∧ t.svc.calActive = false ∧
    t.get PTM_MODE_STAT.MODE 0 = s.get PTM_MODE_STAT.MODE 0) ∧
  (∀ (s : State) (m : Master), s.ptm.retention = false → s.safe = false → s.ptm.plStep = 0 → m = .keeper → Completes (.safeEnter m) s fun t => ChangesOnly
    [.ALM_STAT, .BMU_EVB_STAT, .BMU_STAT, .FCU_CFG, .PCX_PROT_STAT, .PTM_MODE_STAT, .RDC_HEAD_CFG, .RDC_LANE_AFE, .RDC_PAL_STAT, .SPN_ORR_STAT, .SPN_STAT,
    .SVC_CAL_CTL, .SVC_CAL_STAT, .SVE_CTX_CFG, .SVE_CTX_MAN, .SVE_CTX_STAT, .SVE_SEEK_STAT, .WRC_HEAD_CFG, .WRC_RWL_CTL, .WRC_RWL_PTR, .WRC_WR_STAT,
    .WRC_WUS_STAT] [.alm, .bmu, .fcu, .out, .ptm, .rdc, .spn, .svc, .sve, .wrc] true s t ∧ t.get PTM_MODE_STAT.SAFE 0 = 1 ∧ t.get PTM_MODE_STAT.SAFE_CAUSE
    0 = 7 ∧ t.get PTM_MODE_STAT.TRANS 0 = 0 ∧ t.ptm.target = none ∧ t.wrc.safe = true ∧ (∀ w < 8, t.get WRC_WR_STAT.GATE w = 0) ∧ t.svc.calActive = false ∧
    t.get PTM_MODE_STAT.MODE 0 = s.get PTM_MODE_STAT.MODE 0) ∧
  (∀ (s : State) (m : Master) (typ size : Fin 16) (addr : PAddr), s.quiet 20 → Completes (.fabricTransactionTimeout m typ size addr) s fun t => Unchanged
    (countRegs (20) ++ []) [.out, .fcu] [] s t ∧ Counted (20) (accessCap m typ size addr.toNat) s t ∧ t.out = .busError m.id :: s.out) ∧
  (∀ (s : State) (a b : Fin 60) (m : Master), s.quiet 7 → Completes (.handshakeTimeout a b (.fabric m)) s fun t => Unchanged (countRegs 7) [.ptm, .out, .fcu]
    [] s t ∧ t.out = .busError m.id :: s.out ∧ t.ptm.hsw = (if s.ptm.hsw.length < hswDepth then s.ptm.hsw ++ [(s.timeLo, b.val, a.val)] else s.ptm.hsw) ∧
    Counted 7 (detail (64 * b + a)) s t) ∧
  (∀ (s : State) (a b : Fin 60) (k : Handshake), s.quiet 7 → Completes (.handshakeTimeout a b k) s fun t => Counted 7 (detail (64 * b + a)) s t ∧ (∀ p, k =
    .read p → t.get RDC_HP_STAT.PAL_ERR p = 1) ∧ (∀ w, k = .write w → t.get WRC_WR_STAT.GATE w = 0)) ∧
  (∀ (s : State), s.cwIsUp = true → s.ptm.retention = false → s.safe = false → s.ptm.plStep = 0 → s.quiet 6 → Completes (.causewayDown) s fun t => ChangesOnly
    [.ALM_STAT, .BMU_EVB_STAT, .BMU_STAT, .FCU_CFG, .FCU_FEC_ADDR, .FCU_FEC_INFO, .FCU_FEC_TIME, .FCU_SRC_STAT, .PCX_PROT_STAT, .PTM_CW_STAT,
    .PTM_MODE_STAT, .RDC_HEAD_CFG, .RDC_LANE_AFE, .RDC_PAL_STAT, .SPN_ORR_STAT, .SPN_STAT, .SVC_CAL_CTL, .SVC_CAL_STAT, .SVE_CTX_CFG, .SVE_CTX_MAN,
    .SVE_CTX_STAT, .SVE_SEEK_STAT, .WRC_HEAD_CFG, .WRC_RWL_CTL, .WRC_RWL_PTR, .WRC_WR_STAT, .WRC_WUS_STAT] [.alm, .bmu, .fcu, .out, .ptm, .rdc, .spn, .svc,
    .sve, .wrc] true s t ∧ t.get PTM_CW_STAT.LINK 0 = cwDown ∧ t.get PTM_CW_STAT.DOWN_EVT 0 = 1 ∧ t.get FCU_SRC_STAT.TOTAL 6 = satAdd (s.get
    FCU_SRC_STAT.TOTAL 6) 1 255 ∧ t.get PTM_MODE_STAT.SAFE 0 = 1 ∧ t.get PTM_MODE_STAT.SAFE_CAUSE 0 = 3 ∧ t.get PTM_MODE_STAT.TRANS 0 = 0 ∧ t.ptm.target =
    none ∧ t.wrc.safe = true ∧ (∀ w < 8, t.get WRC_WR_STAT.GATE w = 0) ∧ t.svc.calActive = false ∧ t.get PTM_MODE_STAT.MODE 0 = s.get PTM_MODE_STAT.MODE 0)

/-- A read or write that the fabric admits, to a register outside the power die, has exactly the effect that the register gives it: a 32-bit write acts on a
32-bit register, or on a 64-bit one with the low word that the master held, a write of a low word is held, a 64-bit write applies both words; a read
returns the value, the high word as the low word's read latched it; an offset with no register reads 0 and keeps nothing. A register whose write does
nothing of its own gives every field what its access code says and nothing else changes; a read clears the fields that clear on a read. An access to a
register of the power die goes in a tagged frame and completes with the power die's answer: a read with the register's value, a write with its effect
there; a frame without an answer is sent once more with the same tag, executed only where it had not been, and 2 µs after the first the access ends with a
bus error and an event of source 19. -/
def Obligations.RegisterAccess : Prop :=
  (∀ (s : State) (m : Master) (off : BitVec 24) (v : BitVec 64) (r : RegName) (i : Nat), (regInfo r).block ≠ 14 → regWordAt off.toNat = some (r, i, false) →
    s.regFault m atWrite off.toNat 4 = none → s.regDown r i = none → (regInfo r).wide = false → Completes (.registerWrite m off 2 v) s fun t => t =
    (regWrite m r i (v.toNat % 2 ^ 32)).run s) ∧
  (∀ (s : State) (m : Master) (off : BitVec 24) (v : BitVec 64) (r : RegName) (i : Nat), ([RegName.ALM_CTL, .ALM_CURSOR, .ALM_STAT, .BMU_CCC_BASE,
    .BMU_CCC_CFG, .BMU_CCC_NS, .BMU_CC_CTL, .BMU_CFG, .BMU_DISCARD, .BMU_MNT_CTL, .BMU_SLOT_BASE, .BMU_SLOT_CFG, .BMU_WAY_PWR, .CQE_CFG, .CQE_CLAIM,
    .CQE_DONE, .CQE_DONE_DW0, .CQE_HQ_BASE, .CQE_HQ_CTL, .CQE_HQ_PTR, .CQE_NS_BASE, .CQE_NS_CFG, .CQE_NS_ROWS, .CQE_OVL_CFG, .DMF_CH_ACT, .DMF_CH_ATP,
    .DMF_CH_CFG, .DMF_CH_CTL, .DMF_CH_FAULT_VA, .DMF_CH_PROG, .DMF_CH_SHD, .DMF_CH_STAT, .DMF_FP_MASK, .DMF_INV, .FCU_ACK, .FCU_CFG, .FCU_FEC_INFO,
    .FCU_RAISE, .FCU_RELOAD, .FCU_SRC_CFG, .FCU_SRC_STAT, .HIF_PORT_CTL, .MPC_KEY_CTL, .MPC_KEY_DATA, .MPC_VSN, .PCX_CMO_ADDR, .PCX_CMO_CTL, .PCX_CORE_CTL,
    .PCX_FRY_CFG, .PCX_FRY_DB, .PCX_FRY_KCTL, .PCX_FRY_REQ, .PCX_FRY_RES, .PCX_FRY_STAT, .PCX_IRQ_CLAIM, .PCX_IRQ_SRC, .PCX_IRQ_THR, .PCX_KPR_CTL,
    .PCX_MSIP, .PCX_MTIMECMP, .PCX_PROT_COMMIT, .PCX_WDT_KICK, .PTM_AVS_CFG, .PTM_CAP_CFG, .PTM_CW_CTL, .PTM_GPIO_DIR, .PTM_MODE_CTL, .PTM_SAFE_CTL,
    .PTM_THERM, .RDC_HST_CTL, .RDC_NP_DATA, .RDC_RETRY_ORDER, .SPL_CFG, .SPL_PLAN_CTL, .SPL_RLY_CTL, .SPN_COEF, .SPN_COMMIT, .SPN_CTL, .SPN_ORR_CFG,
    .SPN_STAT, .SVC_CAL_CTL, .SVC_CAL_REF, .SVC_LB_CFG, .SVC_LB_STAT, .SVC_PTL_BASE, .SVC_PTL_LIMIT, .SVC_REPAIR, .SVC_SVY_CFG, .SVE_CLU_CTL, .SVE_COEF,
    .SVE_CTX_CFG, .SVE_HEAD_STATE, .SVE_REBUILD, .SVE_SEEK_CMD, .SVE_SERVICE, .SVE_SLOT_MAP, .SVE_VFF_COEF, .WRC_CFG, .WRC_HEAD_CFG, .WRC_RWL_BASE,
    .WRC_RWL_CTL, .WRC_RWL_PTR, .WRC_WR_CTL]).contains r = false → s.rdcPath r i = none → (regInfo r).block ≠ 14 → regWordAt off.toNat = some (r, i, false)
    → s.regFault m atWrite off.toNat 4 = none → s.regDown r i = none → (regInfo r).wide = false → commonReg r = false → s.writeDenied m r i (v.toNat % 2 ^
    32) = false → Completes (.registerWrite m off 2 v) s fun t => Unchanged [(r, i)] [] [] s t ∧ t.reg r i = written r (m == .keeper) (s.lockBit (regInfo
    r).block) (s.reg r i) (v.toNat % 2 ^ 32)) ∧
  (∀ (s : State) (m : Master) (off : BitVec 24) (v : BitVec 64) (r : RegName) (i : Nat), (regInfo r).block ≠ 14 → regWordAt off.toNat = some (r, i, false) →
    s.regFault m atWrite off.toNat 8 = none → s.regDown r i = none → (regInfo r).wide = true → off.toNat % 8 = 0 → Completes (.registerWrite m off 3 v) s
    fun t => t = (regWrite m r i v.toNat).run { s with access := { s.access with lo := AccessState.drop s.access.lo m (regAddr r i) } }) ∧
  (∀ (s : State) (m : Master) (off : BitVec 24) (v : BitVec 64) (r : RegName) (i : Nat), (regInfo r).block ≠ 14 → regWordAt off.toNat = some (r, i, true) →
    s.regFault m atWrite off.toNat 4 = none → s.regDown r i = none → Completes (.registerWrite m off 2 v) s fun t => t = (regWrite m r i (v.toNat % 2 ^ 32
    * 2 ^ 32 + (AccessState.find s.access.lo m (regAddr r i)).getD (s.regValue m r i % 2 ^ 32))).run { s with access := { s.access with lo := AccessState.drop s.access.lo m (regAddr r i) } }) ∧
  (∀ (s : State) (m : Master) (off : BitVec 24) (size : Fin 4) (v : BitVec 64), size.val = 2 → regWordAt off.toNat = none → off.toNat / 0x100000 ≠ 14 →
    s.regFault m atWrite off.toNat 4 = none → Completes (.registerWrite m off size v) s fun t => Unchanged [] [] [] s t) ∧
  (∀ (s : State) (m : Master) (off : BitVec 24) (v : Word) (r : RegName) (i : Nat), (regInfo r).block ≠ 14 → regWordAt off.toNat = some (r, i, false) →
    s.regFault m atWrite off.toNat 4 = none → s.regDown r i = none → (regInfo r).wide = true → Completes (.lowWordWrite m off v) s fun t => Unchanged []
    [.access] [] s t ∧ t.access = { s.access with lo := AccessState.drop s.access.lo m (regAddr r i) ++ [(m.id, regAddr r i, v.toNat)] }) ∧
  (∀ (s : State) (m : Master) (off : BitVec 24) (v : Word) (r : RegName) (i : Nat), (regInfo r).block ≠ 14 → regWordAt off.toNat = some (r, i, false) →
    s.regFault m atWrite off.toNat 4 = none → s.regDown r i = none → (regInfo r).wide = false → Completes (.lowWordWrite m off v) s fun t => t = (regWrite
    m r i v.toNat).run s) ∧
  (∀ (s : State) (m : Master) (off : BitVec 24) (r : RegName) (i : Nat), (regInfo r).block ≠ 14 → regWordAt off.toNat = some (r, i, false) → s.regFault m
    atRead off.toNat 4 = none → s.regDown r i = none → (regInfo r).wide = false → Completes (.readClear m off 2) s fun t => t = (reply m (s.regValue m r i
    % 2 ^ 32)).run ((regReadFx m r i).run s)) ∧
  (∀ (s : State) (m : Master) (off : BitVec 24) (r : RegName) (i : Nat), r ∉ [RegName.PTM_GPIO_IN, .PTM_HSW_LOG, .ALM_WIN, .PCX_IRQ_CLAIM, .MPC_EVT_LOG,
    .RDC_NP_DATA, .SVE_DRIFT_LOG, .PCX_FRY_RES] → (regInfo r).block ≠ 14 → regWordAt off.toNat = some (r, i, false) → s.regFault m atRead off.toNat 4 =
    none → s.regDown r i = none → (regInfo r).wide = false → Completes (.readClear m off 2) s fun t => Unchanged (if (regFields r).any (fun f => f.acc ==
    .rc) then [(r, i)] else []) [.out] [] s t ∧ t.out = .data m.id (s.regValue m r i % 2 ^ 32) :: s.out ∧ ∀ f ∈ regFields r, f.acc = .rc → t.get { f with reg := r }
    i = 0) ∧
  (∀ (s : State) (m : Master) (off : BitVec 24) (r : RegName) (i : Nat), r ∉ [RegName.PTM_HSW_LOG, .SVE_DRIFT_LOG] → (regInfo r).block ≠ 14 → regWordAt
    off.toNat = some (r, i, false) → s.regFault m atRead off.toNat 4 = none → s.regDown r i = none → (regInfo r).wide = true → ((regFields r).all (fun f =>
    f.acc != .rc) = true) → Completes (.readClear m off 2) s fun t => Unchanged [] [.access, .out] [] s t ∧ t.out = .data m.id (s.regValue m r i % 2 ^ 32)
    :: s.out ∧ t.access.lo = s.access.lo ∧ AccessState.find t.access.hi m (regAddr r i) = some (s.regValue m r i / 2 ^ 32)) ∧
  (∀ (s : State) (m : Master) (off : BitVec 24) (r : RegName) (i : Nat), (regInfo r).block ≠ 14 → regWordAt off.toNat = some (r, i, true) → s.regFault m
    atRead off.toNat 4 = none → s.regDown r i = none → Completes (.readClear m off 2) s fun t => Unchanged [] [.access, .out] [] s t ∧ t.out = .data m.id
    ((AccessState.find s.access.hi m (regAddr r i)).getD (s.regValue m r i / 2 ^ 32)) :: s.out ∧ t.access = { s.access with hi := AccessState.drop s.access.hi m (regAddr r i) }) ∧
  (∀ (s : State) (m : Master) (off : BitVec 24) (r : RegName) (i : Nat), r ∉ [RegName.PTM_HSW_LOG, .SVE_DRIFT_LOG] → (regInfo r).block ≠ 14 → regWordAt
    off.toNat = some (r, i, false) → s.regFault m atRead off.toNat 8 = none → s.regDown r i = none → (regInfo r).wide = true → off.toNat % 8 = 0 →
    ((regFields r).all (fun f => f.acc != .rc) = true) → Completes (.readClear m off 3) s fun t => Unchanged [] [.access, .out] [] s t ∧ t.out = .data m.id
    (s.regValue m r i % 2 ^ 64) :: s.out) ∧
  (∀ (s : State) (m : Master) (off : BitVec 24) (size : Fin 4), size.val = 2 → regWordAt off.toNat = none → off.toNat / 0x100000 ≠ 14 → s.regFault m atRead
    off.toNat 4 = none → Completes (.readClear m off size) s fun t => Unchanged [] [.out] [] s t ∧ t.out = .data m.id 0 :: s.out) ∧
  (∀ (s : State) (m : Master) (off : BitVec 20) (r : RegName) (i : Nat) (v : Word), s.cwIsUp = true → regWordAt (0xE00000 + off.toNat) = some (r, i, false) →
    commonReg r = false → (s.pwr.tags.all (fun e => e.1 != s.pwr.nextTag) = true) → (s.pwr.open_.all (fun e => e.tag != s.pwr.nextTag) = true) →
    ((regFields r).all (fun f => f.acc != .rc) = true) → s.regFault m atRead (0xE00000 + off.toNat) 4 = none → Completes (.causewayRegisterAccess m false
    off v false false) s fun t => Unchanged [] [.pwr, .out] [] s t ∧ t.out = .data m.id (s.regValue .keeper r i) :: .frame "CW" "REG_RD" (cwBytes 0x10
    s.pwr.nextTag (beNats 3 off.toNat)) :: s.out ∧ t.pwr = { s.pwr with nextTag := (s.pwr.nextTag + 1) % 256, tags := ((s.pwr.nextTag, s.regValue .keeper r i, 0) :: s.pwr.tags).take 16 }) ∧
  (∀ (s : State) (m : Master) (off : BitVec 20) (r : RegName) (i : Nat) (v : Word), s.cwIsUp = true → regWordAt (0xE00000 + off.toNat) = some (r, i, false) →
    commonReg r = false → (s.pwr.tags.all (fun e => e.1 != s.pwr.nextTag) = true) → (s.pwr.open_.all (fun e => e.tag != s.pwr.nextTag) = true) → (regInfo
    r).wide = false → masterOf m.id = some m → r ∉ [RegName.PWR_SNS_CFG, .PWR_RET_CFG, .PWR_HU_CFG] → s.regFault m atWrite (0xE00000 + off.toNat) 4 = none
    → s.writeDenied m r i v.toNat = false → Completes (.causewayRegisterAccess m true off v false false) s fun t => Unchanged [(r, i)] [.pwr, .out] [] s t
    ∧ t.reg r i = written r (m == .keeper) (s.lockBit 14) (s.reg r i) v.toNat ∧ t.out = .frame "CW" "REG_WR" (cwBytes 0x11 s.pwr.nextTag (beNats 3
    off.toNat ++ beNats 4 v.toNat)) :: s.out ∧ t.pwr.open_ = s.pwr.open_ ∧ t.pwr.nextTag = (s.pwr.nextTag + 1) % 256) ∧
  (∀ (s : State) (m : Master) (write : Bool) (off : BitVec 20) (v : Word) (rspLost : Bool), s.cwIsUp = true → s.regFault m (if write then atWrite else atRead)
    (0xE00000 + off.toNat) 4 = none → Completes (.causewayRegisterAccess m write off v true rspLost) s fun t => Unchanged [] [.pwr, .out] [] s t ∧ t.out =
    .frame "CW" (if write then "REG_WR" else "REG_RD") (if write then cwBytes 0x11 s.pwr.nextTag (beNats 3 off.toNat ++ beNats 4 v.toNat) else cwBytes 0x10
    s.pwr.nextTag (beNats 3 off.toNat)) :: s.out ∧ t.pwr = { s.pwr with nextTag := (s.pwr.nextTag + 1) % 256, open_ := s.pwr.open_ ++ [{ tag := s.pwr.nextTag, master := m.id, write := write, offset := off.toNat, value := v.toNat, since := s.ptm.ticks }] }) ∧
  (∀ (s : State) (tag : BitVec 8) (c : CwAccess) (rspLost : Bool), (s.pwr.open_.find? (fun c => c.tag == tag.toNat) = some c) → c.resent = false → s.cwIsUp =
    true → c.since + 8 ≤ s.ptm.ticks → Completes (.causewayRegisterResend tag true rspLost) s fun t => Unchanged [(.PTM_CW_STAT, 0)] [.pwr, .out] [] s t ∧
    t.get PTM_CW_STAT.RESEND 0 = satAdd (s.get PTM_CW_STAT.RESEND 0) 1 255 ∧ t.out = .frame "CW" (if c.write then "REG_WR" else "REG_RD") (if c.write then
    cwBytes 0x11 c.tag (beNats 3 c.offset ++ beNats 4 c.value) else cwBytes 0x10 c.tag (beNats 3 c.offset)) :: s.out ∧ t.pwr.open_.find? (fun c => c.tag ==
    tag.toNat) = some { c with resent := true }) ∧
  (∀ (s : State) (tag : BitVec 8) (c : CwAccess) (m : Master) (v e : Nat), (s.pwr.open_.find? (fun c => c.tag == tag.toNat) = some c) → c.resent = false →
    s.cwIsUp = true → masterOf c.master = some m → (s.pwr.tags.find? (fun t => t.1 == c.tag) = some (c.tag, v, e)) → c.since + 8 ≤ s.ptm.ticks → Completes
    (.causewayRegisterResend tag false false) s fun t => Unchanged [(.PTM_CW_STAT, 0)] [.pwr, .out] [] s t ∧ t.get PTM_CW_STAT.RESEND 0 = satAdd (s.get
    PTM_CW_STAT.RESEND 0) 1 255 ∧ (c.write = false → t.out.head? = some (.data m.id v)) ∧ t.pwr.open_.find? (fun c => c.tag == tag.toNat) = none) ∧
  (∀ (s : State) (tag : BitVec 8) (c : CwAccess) (m : Master), (s.pwr.open_.find? (fun c => c.tag == tag.toNat) = some c) → masterOf c.master = some m →
    s.quiet 19 → c.since + 16 ≤ s.ptm.ticks → Completes (.causewayRegisterTimeout tag) s fun t => Unchanged (countRegs 19) [.pwr, .out, .fcu] [] s t ∧
    t.out = .busError m.id :: s.out ∧ t.pwr.open_ = s.pwr.open_.filter (fun e => e.tag != tag.toNat) ∧ Counted 19 (accessCap m (if c.write then atWrite
    else atRead) 2 (regBase + 0xE00000 + c.offset)) s t)

/-- Power-on of a part that is off, nRESET, a chip reset by the Keeper, a wake from RETENTION and steps 1 to 8 that a reset left undone: with both images of
each component valid, its device configuration valid and empty and every DRAM channel trained, BOOT reaches step 8, cold or warm, DRAM kept or not, and
with JOURNAL_REPLAY_DONE step 9, fetch enabled. BOOT_COMPLETE ends BOOT in ACTIVE, or SERVICE with SVC_BOOT. The journal copy seals the epoch, powers every
island but domain 0 down and ends the sequence; a loss that ends lets the power die leave LOSS, with a cold BOOT where the part is off. Each ends with the
BOOT it begins (WARM, DRAM_KEPT, the first step) and with the waiting commands as they were. Clauses without a frame state their effects under the
conditions of normal execution alone, whatever else follows in the same step. -/
def Obligations.ResetAndBoot : Prop :=
  (∀ (s : State) (b : BootIn), s.ptm.powered = false → s.ptm.plStep = 0 → Completes (.powerOn b) s fun t => t.ptm.powered = true ∧ t.get PTM_BOOT_STAT.WARM 0
    = 0 ∧ t.get PTM_BOOT_STAT.DRAM_KEPT 0 = 0 ∧ t.pending = s.pending) ∧
  (∀ (s : State) (b : BootIn), s.ptm.powered = true → s.ptm.plStep = 0 → Completes (.nreset b) s fun t => t.get PTM_BOOT_STAT.WARM 0 = 0 ∧ t.get
    PTM_BOOT_STAT.DRAM_KEPT 0 = 0 ∧ t.pending = s.pending) ∧
  (∀ (s : State) (b : BootIn) (keep : Bool), s.ptm.powered = true → s.ptm.plStep = 0 → s.ptm.retention = false → s.get SVC_SVY_STAT.SHUT_ARM 0 = 0 → Completes
    (.keeperChipReset keep b) s fun t => t.get PTM_BOOT_STAT.WARM 0 = 1 ∧ t.pending = s.pending) ∧
  (∀ (s : State) (b : BootIn) (src : Fin 4) (rising : Bool), s.ptm.retention = true → s.wakeEnabled src rising = true → Completes (.retentionWake src rising
    b) s fun t => t.get PTM_MODE_STAT.LAST_WAKE 0 = src + 1 ∧ t.get PTM_BOOT_STAT.WARM 0 = 1 ∧ t.ptm.retention = false ∧ t.pending = s.pending) ∧
  (∀ (s : State) (b : BootIn), s.ptm.powered = false → s.ptm.plStep = 0 → b.major = 1 → b.keeperA = true → b.keeperB = true → b.config = true → b.chFail = 0 →
    b.appA = true → b.appB = true → b.vaonLost = false → b.device = [] → (s.kpr.bootRegs.all (fun e => (regInfo (RegName.ofNat (e.1 % 512))).block != 0) =
    true) → s.kpr.repairTable = [] → s.kpr.fwNext = [] → Completes (.powerOn b) s fun t => t.ptm.powered = true ∧ t.get PTM_BOOT_STAT.STEP 0 = 8 ∧ t.get
    PTM_BOOT_STAT.WARM 0 = 0 ∧ t.get PTM_BOOT_STAT.DRAM_KEPT 0 = 0 ∧ t.mode = mBoot ∧ t.pwr.st = pdCommanded ∧ t.pending = s.pending) ∧
  (∀ (s : State) (b : BootIn), s.ptm.powered = true → s.ptm.plStep = 0 → s.pwr.st = pdAutonomous → b.major = 1 → b.keeperA = true → b.keeperB = true →
    b.config = true → b.chFail = 0 → b.appA = true → b.appB = true → b.vaonLost = false → b.device = [] → (s.kpr.bootRegs.all (fun e => (regInfo
    (RegName.ofNat (e.1 % 512))).block != 0) = true) → s.kpr.repairTable = [] → s.kpr.fwNext = [] → Completes (.nreset b) s fun t => t.get
    PTM_BOOT_STAT.STEP 0 = 8 ∧ t.get PTM_BOOT_STAT.WARM 0 = 0 ∧ t.get PTM_BOOT_STAT.DRAM_KEPT 0 = 0 ∧ t.mode = mBoot ∧ t.pwr.st = pdCommanded ∧ t.pending =
    s.pending) ∧
  (∀ (s : State) (b : BootIn) (keep : Bool), s.ptm.powered = true → s.ptm.plStep = 0 → s.ptm.retention = false → s.get PCX_KPR_STAT.RESTART 0 = 0 → s.get
    SVC_SVY_STAT.SHUT_ARM 0 = 0 → b.major = 1 → b.keeperA = true → b.keeperB = true → b.config = true → b.chFail = 0 → b.appA = true → b.appB = true →
    b.vaonLost = false → b.device = [] → (s.kpr.bootRegs.all (fun e => (regInfo (RegName.ofNat (e.1 % 512))).block != 0) = true) → s.kpr.repairTable = [] →
    s.kpr.fwNext = [] → Completes (.keeperChipReset keep b) s fun t => t.get PTM_BOOT_STAT.STEP 0 = 8 ∧ t.get PTM_BOOT_STAT.WARM 0 = 1 ∧ t.get
    PTM_BOOT_STAT.DRAM_KEPT 0 = b2n keep ∧ t.mode = mBoot ∧ t.get FCU_SRC_STAT.TOTAL 0 = 0 ∧ t.pending = s.pending) ∧
  (∀ (s : State) (b : BootIn) (src : Fin 4) (rising : Bool), s.ptm.retention = true → s.wakeEnabled src rising = true → b.major = 1 → b.keeperA = true →
    b.keeperB = true → b.config = true → b.chFail = 0 → b.appA = true → b.appB = true → b.vaonLost = false → b.device = [] → (s.kpr.bootRegs.all (fun e =>
    (regInfo (RegName.ofNat (e.1 % 512))).block != 0) = true) → s.kpr.repairTable = [] → s.kpr.fwNext = [] → Completes (.retentionWake src rising b) s fun
    t => t.get PTM_MODE_STAT.LAST_WAKE 0 = src + 1 ∧ t.get PTM_BOOT_STAT.STEP 0 = 8 ∧ t.get PTM_BOOT_STAT.WARM 0 = 1 ∧ t.get PTM_BOOT_STAT.DRAM_KEPT 0 = 1
    ∧ t.ptm.retention = false ∧ t.mode = mBoot ∧ t.pending = s.pending) ∧
  (∀ (s : State) (b : BootIn), s.get PTM_BOOT_STAT.STEP 0 = 8 → s.mode = mBoot → s.ptm.bootStopped = false → s.ptm.plStep = 0 → s.safe = false → s.get
    SVE_CMAP_CFG.ENABLE 0 = 1 → s.get PTM_MODE_STAT.LAST_WAKE 0 = 0 → Completes (.journalReplayDone b) s fun t => t.get PTM_BOOT_STAT.STEP 0 = 9 ∧ t.get
    PTM_JNL_STAT.REPLAYED 0 = 1 ∧ t.get PTM_JNL_STAT.ARMED 0 = 1 ∧ t.get PTM_BOOT_STAT.FETCH_EN 0 = 1 ∧ t.mode = mBoot ∧ t.pending = s.pending) ∧
  (∀ (s : State), s.get PTM_BOOT_STAT.STEP 0 = 9 → s.mode = mBoot → s.safe = false → s.ptm.plStep = 0 → s.get SPN_STAT.AT_SPEED 0 = 1 → s.usableActs.all
    s.loaded = true → Completes (.bootComplete) s fun t => ChangesOnly [.PTM_BOOT_STAT, .PTM_MODE_STAT] [.fcu, .ptm] false s t ∧ t.mode = (if s.kpr.svcBoot
    then mService else mActive) ∧ t.get PTM_BOOT_STAT.STEP 0 = 10) ∧
  (∀ (s : State), s.ptm.plStep = 5 → s.ptm.plReturn = false → s.ptm.nresetHeld = false → s.pwr.st = pdLoss → Completes (.journalCopyDone) s fun t =>
    t.ptm.powered = false ∧ t.ptm.plStep = 0 ∧ t.get PTM_JNL_STAT.SEALED 0 = b2n s.ptm.plArmed ∧ t.get PTM_JNL_STAT.EPOCH 0 = (if s.ptm.plArmed then (s.get
    PTM_JNL_STAT.EPOCH 0 + 1) % 65536 else s.get PTM_JNL_STAT.EPOCH 0) ∧ t.get PTM_ISL_PWR.ON 0 = 1 ∧ t.get PTM_DOM_PWR.ON 0 = 0 ∧ (s.ptm.plArmed = true →
    s.permits .bmu atWrite (commitAddr (t.get PTM_JNL_STAT.EPOCH 0 % 2) / 4096) = true → s.islandOn 11 = true → t.commitOk (t.get PTM_JNL_STAT.EPOCH 0 % 2)
    = true)) ∧
  (∀ (s : State), s.ptm.plStep = 5 → s.ptm.plReturn = true ∨ s.ptm.nresetHeld = true → Completes (.journalCopyDone) s fun t => t.ptm.plStep = 0 ∧ t.mode =
    mBoot ∧ t.get PTM_BOOT_STAT.WARM 0 = 0 ∧ t.get PTM_BOOT_STAT.STEP 0 = 1 ∧ t.pending = s.pending) ∧
  (∀ (s : State), s.ptm.plStep = 5 → s.ptm.plReturn = false → s.ptm.nresetHeld = false → s.ptm.plReset = true → s.pwr.st ≠ pdLoss → Completes
    (.journalCopyDone) s fun t => t.ptm.plStep = 0 ∧ t.mode = mBoot ∧ t.get PTM_BOOT_STAT.WARM 0 = 1 ∧ t.get PTM_BOOT_STAT.STEP 0 = 1 ∧ t.pending =
    s.pending) ∧
  (∀ (s : State), s.pwr.st = pdLoss → s.ptm.plStep = 5 → Completes (.lossRecovery) s fun t => Unchanged [(.PWR_STAT, 0)] [.pwr, .ptm, .out] [] s t ∧ t.pwr.st
    = pdHold ∧ t.pwr.isolated = false ∧ t.pwr.stages = false ∧ t.get PWR_STAT.LOSS 0 = 0 ∧ t.get PWR_STAT.WARN 0 = 0 ∧ t.ptm = { s.ptm with plReturn := true }) ∧
  (∀ (s : State), s.pwr.st = pdLoss → s.ptm.plStep = 0 → s.ptm.powered = false → Completes (.lossRecovery) s fun t => t.pwr.st = pdHold ∧ t.ptm.powered = true
    ∧ t.get PTM_BOOT_STAT.STEP 0 = 1 ∧ t.get PTM_BOOT_STAT.WARM 0 = 0 ∧ t.mode = mBoot ∧ t.pending = s.pending)

/-- A request by the Keeper for a transition that Table 18.3 lists, with no transition in progress, outside the safe state and the power-loss sequence, starts
it: TRANS sets, the target is the one named, and the mode stays until the transition ends. A request that is not listed is discarded with ERR and starts
nothing. -/
def Obligations.ModeRequests : Prop :=
  (∀ (s : State), s.transOk { mode := mActive, ilvl := 0, ret := false } = true → Completes (.requestActive .keeper) s fun t => ChangesOnly [.BMU_EVB_STAT,
    .BMU_STAT, .PCX_PROT_STAT, .PTM_MODE_CTL, .PTM_MODE_STAT, .RDC_PAL_STAT, .SPL_MEMBERS, .SPL_STAT, .SPN_CTL, .SPN_ORR_STAT, .SPN_STAT, .SVE_CTX_CFG,
    .SVE_CTX_MAN, .SVE_CTX_STAT, .SVE_SEEK_STAT, .WRC_RWL_CTL, .WRC_RWL_PTR, .WRC_WR_STAT, .WRC_WUS_STAT] [.bmu, .fcu, .out, .ptm, .rdc, .spl, .spn, .sve,
    .wrc] true s t ∧ t.get PTM_MODE_STAT.TRANS 0 = 1 ∧ t.ptm.target = some { mode := mActive, ilvl := 0, ret := false } ∧ t.mode = s.mode ∧ t.get
    PTM_MODE_CTL.REQ_MODE 0 = mActive ∧ t.get PTM_MODE_CTL.REQ_ILVL 0 = 0 ∧ t.get PTM_MODE_CTL.RET 0 = b2n false) ∧
  (∀ (s : State), s.transOk { mode := mIdle, ilvl := 1, ret := false } = true → Completes (.requestIdleI1 .keeper) s fun t => ChangesOnly [.BMU_EVB_STAT,
    .BMU_STAT, .PCX_PROT_STAT, .PTM_MODE_CTL, .PTM_MODE_STAT, .RDC_PAL_STAT, .SPL_MEMBERS, .SPL_STAT, .SPN_CTL, .SPN_ORR_STAT, .SPN_STAT, .SVE_CTX_CFG,
    .SVE_CTX_MAN, .SVE_CTX_STAT, .SVE_SEEK_STAT, .WRC_RWL_CTL, .WRC_RWL_PTR, .WRC_WR_STAT, .WRC_WUS_STAT] [.bmu, .fcu, .out, .ptm, .rdc, .spl, .spn, .sve,
    .wrc] true s t ∧ t.get PTM_MODE_STAT.TRANS 0 = 1 ∧ t.ptm.target = some { mode := mIdle, ilvl := 1, ret := false } ∧ t.mode = s.mode ∧ t.get
    PTM_MODE_CTL.REQ_MODE 0 = mIdle ∧ t.get PTM_MODE_CTL.REQ_ILVL 0 = 1 ∧ t.get PTM_MODE_CTL.RET 0 = b2n false) ∧
  (∀ (s : State), s.transOk { mode := mIdle, ilvl := 2, ret := false } = true → Completes (.requestIdleI2 .keeper) s fun t => ChangesOnly [.BMU_EVB_STAT,
    .BMU_STAT, .PCX_PROT_STAT, .PTM_MODE_CTL, .PTM_MODE_STAT, .RDC_PAL_STAT, .SPL_MEMBERS, .SPL_STAT, .SPN_CTL, .SPN_ORR_STAT, .SPN_STAT, .SVE_CTX_CFG,
    .SVE_CTX_MAN, .SVE_CTX_STAT, .SVE_SEEK_STAT, .WRC_RWL_CTL, .WRC_RWL_PTR, .WRC_WR_STAT, .WRC_WUS_STAT] [.bmu, .fcu, .out, .ptm, .rdc, .spl, .spn, .sve,
    .wrc] true s t ∧ t.get PTM_MODE_STAT.TRANS 0 = 1 ∧ t.ptm.target = some { mode := mIdle, ilvl := 2, ret := false } ∧ t.mode = s.mode ∧ t.get
    PTM_MODE_CTL.REQ_MODE 0 = mIdle ∧ t.get PTM_MODE_CTL.REQ_ILVL 0 = 2 ∧ t.get PTM_MODE_CTL.RET 0 = b2n false) ∧
  (∀ (s : State), s.transOk { mode := mIdle, ilvl := 3, ret := false } = true → Completes (.requestIdleI3 .keeper) s fun t => ChangesOnly [.BMU_EVB_STAT,
    .BMU_STAT, .PCX_PROT_STAT, .PTM_MODE_CTL, .PTM_MODE_STAT, .RDC_PAL_STAT, .SPL_MEMBERS, .SPL_STAT, .SPN_CTL, .SPN_ORR_STAT, .SPN_STAT, .SVE_CTX_CFG,
    .SVE_CTX_MAN, .SVE_CTX_STAT, .SVE_SEEK_STAT, .WRC_RWL_CTL, .WRC_RWL_PTR, .WRC_WR_STAT, .WRC_WUS_STAT] [.bmu, .fcu, .out, .ptm, .rdc, .spl, .spn, .sve,
    .wrc] true s t ∧ t.get PTM_MODE_STAT.TRANS 0 = 1 ∧ t.ptm.target = some { mode := mIdle, ilvl := 3, ret := false } ∧ t.mode = s.mode ∧ t.get
    PTM_MODE_CTL.REQ_MODE 0 = mIdle ∧ t.get PTM_MODE_CTL.REQ_ILVL 0 = 3 ∧ t.get PTM_MODE_CTL.RET 0 = b2n false) ∧
  (∀ (s : State), s.transOk { mode := mStandby, ilvl := 0, ret := false } = true → Completes (.requestStandby .keeper) s fun t => ChangesOnly [.BMU_EVB_STAT,
    .BMU_STAT, .PCX_PROT_STAT, .PTM_MODE_CTL, .PTM_MODE_STAT, .RDC_PAL_STAT, .SPL_MEMBERS, .SPL_STAT, .SPN_CTL, .SPN_ORR_STAT, .SPN_STAT, .SVE_CTX_CFG,
    .SVE_CTX_MAN, .SVE_CTX_STAT, .SVE_SEEK_STAT, .WRC_RWL_CTL, .WRC_RWL_PTR, .WRC_WR_STAT, .WRC_WUS_STAT] [.bmu, .fcu, .out, .ptm, .rdc, .spl, .spn, .sve,
    .wrc] true s t ∧ t.get PTM_MODE_STAT.TRANS 0 = 1 ∧ t.ptm.target = some { mode := mStandby, ilvl := 0, ret := false } ∧ t.mode = s.mode ∧ t.get
    PTM_MODE_CTL.REQ_MODE 0 = mStandby ∧ t.get PTM_MODE_CTL.REQ_ILVL 0 = 0 ∧ t.get PTM_MODE_CTL.RET 0 = b2n false) ∧
  (∀ (s : State), s.transOk { mode := mStandby, ilvl := 0, ret := true } = true → Completes (.requestRetention .keeper) s fun t => ChangesOnly [.BMU_EVB_STAT,
    .BMU_STAT, .PCX_PROT_STAT, .PTM_MODE_CTL, .PTM_MODE_STAT, .RDC_PAL_STAT, .SPL_MEMBERS, .SPL_STAT, .SPN_CTL, .SPN_ORR_STAT, .SPN_STAT, .SVE_CTX_CFG,
    .SVE_CTX_MAN, .SVE_CTX_STAT, .SVE_SEEK_STAT, .WRC_RWL_CTL, .WRC_RWL_PTR, .WRC_WR_STAT, .WRC_WUS_STAT] [.bmu, .fcu, .out, .ptm, .rdc, .spl, .spn, .sve,
    .wrc] true s t ∧ t.get PTM_MODE_STAT.TRANS 0 = 1 ∧ t.ptm.target = some { mode := mStandby, ilvl := 0, ret := true } ∧ t.mode = s.mode ∧ t.get
    PTM_MODE_CTL.REQ_MODE 0 = mStandby ∧ t.get PTM_MODE_CTL.REQ_ILVL 0 = 0 ∧ t.get PTM_MODE_CTL.RET 0 = b2n true) ∧
  (∀ (s : State), s.transOk { mode := mService, ilvl := 0, ret := false } = true → Completes (.requestService .keeper) s fun t => ChangesOnly [.BMU_EVB_STAT,
    .BMU_STAT, .PCX_PROT_STAT, .PTM_MODE_CTL, .PTM_MODE_STAT, .RDC_PAL_STAT, .SPL_MEMBERS, .SPL_STAT, .SPN_CTL, .SPN_ORR_STAT, .SPN_STAT, .SVE_CTX_CFG,
    .SVE_CTX_MAN, .SVE_CTX_STAT, .SVE_SEEK_STAT, .WRC_RWL_CTL, .WRC_RWL_PTR, .WRC_WR_STAT, .WRC_WUS_STAT] [.bmu, .fcu, .out, .ptm, .rdc, .spl, .spn, .sve,
    .wrc] true s t ∧ t.get PTM_MODE_STAT.TRANS 0 = 1 ∧ t.ptm.target = some { mode := mService, ilvl := 0, ret := false } ∧ t.mode = s.mode ∧ t.get
    PTM_MODE_CTL.REQ_MODE 0 = mService ∧ t.get PTM_MODE_CTL.REQ_ILVL 0 = 0 ∧ t.get PTM_MODE_CTL.RET 0 = b2n false) ∧
  (∀ (s : State), s.transOk { mode := mService, ilvl := 0, ret := false } = false → Completes (.requestService .keeper) s fun t => Unchanged [(.PTM_MODE_CTL,
    0)] [] [] s t ∧ t.get PTM_MODE_CTL.ERR 0 = 1 ∧ t.get PTM_MODE_CTL.REQ_MODE 0 = mService)

/-- A transition ends in its target mode once its actions are complete: to SERVICE once every command held is administrative, to ACTIVE and IDLE I1 once the
spindle is at speed and the loads are over, to IDLE I2 and I3 and STANDBY once every arm is parked and VPRE is off, to STANDBY with the budget empty and
the spindle stopped; a part that is still COMMANDED after RELEASE ends the entry into RETENTION with ERR; the exit from the safe state leads to RECOVERY
unless its cause persists, which gives ERR and keeps the safe state; media work in IDLE or STANDBY sets WAKE and starts a transition to ACTIVE; in ACTIVE
and SERVICE the pass starts with the members that R70 selects, in its order, their targets held, their writers assigned and powered, or waiting for the
grant of their demand (bands whose records are good and not UNREACH). -/
def Obligations.ModeChanges : Prop :=
  (∀ (s : State), s.ptm.target = some { mode := mService, ilvl := 0, ret := false } → s.safe = false → s.ptm.plStep = 0 → s.ptm.loads = [] → (s.cqe.cmds.any
    (fun c => !c.adm) = false) → Completes (.modeTransitionDone) s fun t => ChangesOnly [.BMU_CC_CTL, .BMU_EVB_STAT, .BMU_STAT, .PCX_PROT_STAT,
    .PTM_DOM_PWR, .PTM_MODE_STAT, .RDC_HP_CLR, .RDC_HP_STAT, .RDC_PAL_STAT, .SPL_MEMBERS, .SPL_STAT, .SPN_CTL, .SPN_ORR_STAT, .SPN_STAT, .SVC_SVY_STAT,
    .SVE_CTX_CFG, .SVE_CTX_MAN, .SVE_CTX_STAT, .SVE_SEEK_STAT, .WRC_RWL_CTL, .WRC_RWL_PTR, .WRC_WR_STAT, .WRC_WUS_STAT] [.bmu, .fcu, .out, .ptm, .rdc,
    .spl, .spn, .svc, .sve, .wrc] true s t ∧ t.mode = mService ∧ t.get PTM_MODE_STAT.TRANS 0 = 0 ∧ t.ptm.target = none) ∧
  (∀ (s : State), s.ptm.target = some { mode := mActive, ilvl := 0, ret := false } → s.safe = false → s.ptm.plStep = 0 → s.ptm.loads = [] → s.mode ≠ mIdle ∧
    s.mode ≠ mStandby ∨ s.get SPN_STAT.AT_SPEED 0 = 1 ∧ s.loadsOver = true → Completes (.modeTransitionDone) s fun t => ChangesOnly [.BMU_CC_CTL,
    .BMU_EVB_STAT, .BMU_STAT, .PCX_PROT_STAT, .PTM_DOM_PWR, .PTM_MODE_STAT, .RDC_HP_CLR, .RDC_HP_STAT, .RDC_PAL_STAT, .SPL_MEMBERS, .SPL_STAT, .SPN_CTL,
    .SPN_ORR_STAT, .SPN_STAT, .SVC_SVY_STAT, .SVE_CTX_CFG, .SVE_CTX_MAN, .SVE_CTX_STAT, .SVE_SEEK_STAT, .WRC_RWL_CTL, .WRC_RWL_PTR, .WRC_WR_STAT,
    .WRC_WUS_STAT] [.bmu, .fcu, .out, .ptm, .rdc, .spl, .spn, .svc, .sve, .wrc] true s t ∧ t.mode = mActive ∧ t.get PTM_MODE_STAT.TRANS 0 = 0 ∧
    t.ptm.target = none) ∧
  (∀ (s : State), s.ptm.target = some { mode := mIdle, ilvl := 1, ret := false } → s.safe = false → s.ptm.plStep = 0 → s.ptm.loads = [] → s.sve.pass = [] →
    s.get SPN_STAT.AT_SPEED 0 = 1 → s.loadsOver = true → Completes (.modeTransitionDone) s fun t => ChangesOnly [.BMU_CC_CTL, .BMU_EVB_STAT, .BMU_STAT,
    .PCX_PROT_STAT, .PTM_DOM_PWR, .PTM_MODE_STAT, .RDC_HP_CLR, .RDC_HP_STAT, .RDC_PAL_STAT, .SPL_MEMBERS, .SPL_STAT, .SPN_CTL, .SPN_ORR_STAT, .SPN_STAT,
    .SVC_SVY_STAT, .SVE_CTX_CFG, .SVE_CTX_MAN, .SVE_CTX_STAT, .SVE_SEEK_STAT, .WRC_RWL_CTL, .WRC_RWL_PTR, .WRC_WR_STAT, .WRC_WUS_STAT] [.bmu, .fcu, .out,
    .ptm, .rdc, .spl, .spn, .svc, .sve, .wrc] true s t ∧ t.mode = mIdle ∧ t.get PTM_MODE_STAT.ILVL 0 = 1 ∧ (s.ptm.wakeDue = false → s.mediaWaiting = false
    → t.get PTM_MODE_STAT.TRANS 0 = 0 ∧ t.ptm.target = none)) ∧
  (∀ (s : State) (n : Nat), n = 2 ∨ n = 3 → s.ptm.target = some { mode := mIdle, ilvl := n, ret := false } → s.safe = false → s.ptm.plStep = 0 → s.get
    SVE_TRK_STAT.LOADED 0 = 0 → s.ptm.vpre = false → s.get SPN_STAT.AT_SPEED 0 = 1 → Completes (.modeTransitionDone) s fun t => ChangesOnly [.BMU_CC_CTL,
    .BMU_EVB_STAT, .BMU_STAT, .PCX_PROT_STAT, .PTM_DOM_PWR, .PTM_MODE_STAT, .RDC_HP_CLR, .RDC_HP_STAT, .RDC_PAL_STAT, .SPL_MEMBERS, .SPL_STAT, .SPN_CTL,
    .SPN_ORR_STAT, .SPN_STAT, .SVC_SVY_STAT, .SVE_CTX_CFG, .SVE_CTX_MAN, .SVE_CTX_STAT, .SVE_SEEK_STAT, .WRC_RWL_CTL, .WRC_RWL_PTR, .WRC_WR_STAT,
    .WRC_WUS_STAT] [.bmu, .fcu, .out, .ptm, .rdc, .spl, .spn, .svc, .sve, .wrc] true s t ∧ t.mode = mIdle ∧ t.get PTM_MODE_STAT.ILVL 0 = n ∧ (s.ptm.wakeDue
    = false → s.mediaWaiting = false → t.get PTM_MODE_STAT.TRANS 0 = 0 ∧ t.ptm.target = none)) ∧
  (∀ (s : State), s.ptm.target = some { mode := mStandby, ilvl := 0, ret := false } → s.safe = false → s.ptm.plStep = 0 → s.budgetUsed = 0 → s.get
    SVE_TRK_STAT.LOADED 0 = 0 → s.ptm.vpre = false → s.spn? = spOff → s.get SVC_SVY_STAT.SHUT_ARM 0 = 0 → s.spindleUp = false → Completes
    (.modeTransitionDone) s fun t => ChangesOnly [.BMU_CC_CTL, .BMU_EVB_STAT, .BMU_STAT, .PCX_PROT_STAT, .PTM_DOM_PWR, .PTM_MODE_STAT, .RDC_HP_CLR,
    .RDC_HP_STAT, .RDC_PAL_STAT, .SPL_MEMBERS, .SPL_STAT, .SPN_CTL, .SPN_ORR_STAT, .SPN_STAT, .SVC_SVY_STAT, .SVE_CTX_CFG, .SVE_CTX_MAN, .SVE_CTX_STAT,
    .SVE_SEEK_STAT, .WRC_RWL_CTL, .WRC_RWL_PTR, .WRC_WR_STAT, .WRC_WUS_STAT] [.bmu, .fcu, .out, .ptm, .rdc, .spl, .spn, .svc, .sve, .wrc] true s t ∧ t.mode
    = mStandby ∧ (s.ptm.wakeDue = false → s.mediaWaiting = false → t.get PTM_MODE_STAT.TRANS 0 = 0 ∧ t.ptm.target = none)) ∧
  (∀ (s : State), s.ptm.seqStep = 5 → s.pwr.st = pdCommanded → s.ptm.releaseAt + 80 ≤ s.ptm.ticks → Completes (.retentionReleaseTimeout) s fun t => Unchanged
    [(.PTM_CW_STAT, 0), (.PTM_MODE_STAT, 0), (.PTM_MODE_CTL, 0)] [.ptm] [] s t ∧ t.get PTM_CW_STAT.PD_STATE 0 = pdCommanded ∧ t.ptm = { s.ptm with seqStep := 0, target := none }
    ∧ t.get PTM_MODE_STAT.TRANS 0 = 0 ∧ t.get PTM_MODE_CTL.ERR 0 = 1 ∧ t.mode = s.mode) ∧
  (∀ (s : State), s.safe = true → s.causePersists = false → s.ptm.plStep = 0 → Completes (.safeExit .keeper) s fun t => ChangesOnly [.BMU_EVB_STAT, .BMU_STAT,
    .FCU_CFG, .PCX_PROT_STAT, .PTM_DOM_PWR, .PTM_MODE_CTL, .PTM_MODE_STAT, .RDC_HP_CLR, .RDC_HP_STAT, .WRC_RWL_CTL, .WRC_RWL_PTR, .WRC_WR_STAT,
    .WRC_WUS_STAT] [.bmu, .fcu, .out, .ptm, .rdc, .svc, .wrc] true s t ∧ t.safe = false ∧ t.mode = mRecovery ∧ t.get PTM_MODE_STAT.MEDIA_EN 0 = 0 ∧
    t.wrc.safe = false) ∧
  (∀ (s : State), s.safe = false ∨ s.causePersists = true ∨ s.ptm.plStep ≠ 0 → Completes (.safeExit .keeper) s fun t => Unchanged [(.PTM_MODE_CTL, 0)] [] [] s
    t ∧ t.get PTM_MODE_CTL.ERR 0 = 1 ∧ t.safe = s.safe ∧ t.mode = s.mode) ∧
  (∀ (s : State) (a : Fin 4) (fw : Bool) (wants : List Want) (waiting : Option Nat), s.mode = mIdle ∨ s.mode = mStandby → s.ptm.retention = false → s.transOk
    { mode := mActive, ilvl := 0, ret := false } = true → Completes (.passStart a fw wants waiting) s fun t => ChangesOnly [.BMU_EVB_STAT, .BMU_STAT,
    .CQE_OVL_STAT, .CQE_STAT, .PCX_PROT_STAT, .PTM_MODE_STAT, .RDC_PAL_STAT, .SPL_MEMBERS, .SPL_STAT, .SPN_CTL, .SPN_ORR_STAT, .SPN_STAT, .SVE_CTX_CFG,
    .SVE_CTX_MAN, .SVE_CTX_STAT, .SVE_SEEK_STAT, .WRC_RWL_CTL, .WRC_RWL_PTR, .WRC_WR_STAT, .WRC_WUS_STAT] [.bmu, .cqe, .fcu, .out, .ptm, .rdc, .spl, .spn,
    .sve, .wrc] true s t ∧ t.get PTM_MODE_STAT.WAKE 0 = 1 ∧ t.get PTM_MODE_STAT.TRANS 0 = 1 ∧ t.ptm.target = some { mode := mActive, ilvl := 0, ret := false }
    ∧ t.mode = s.mode ∧ t.sve.pass = s.sve.pass) ∧
  (∀ (s : State) (a : Fin 4) (fw : Bool) (wants : List Want) (waiting : Option Nat), s.mediaMode = true → s.mayPass a fw = true → s.rereadWants a = [] → fw =
    true ∨ s.readsOnly a = false → ((grantWriters a waiting false).run s).select a wants ≠ [] → (∀ w ∈ wants, (s.targetBands a w.track).all (fun b =>
    s.recOk b a && !s.unreachBand a b) = true ∧ w.reg.val ≠ 1) → Completes (.passStart a fw wants waiting) s fun t => ChangesOnly [.ALM_STAT,
    .BMU_EVB_STAT, .BMU_STAT, .CQE_OVL_STAT, .CQE_STAT, .FCU_FEC_ADDR, .FCU_FEC_INFO, .FCU_FEC_TIME, .FCU_SRC_STAT, .PCX_PROT_STAT, .PTM_DOM_PWR,
    .PTM_MODE_STAT, .RDC_HP_ADAPT, .RDC_HP_CTL, .RDC_HP_DEC, .RDC_HP_DET, .RDC_HP_LOOP, .RDC_HP_RATE, .RDC_HP_SYNC, .RDC_HP_TAP, .RDC_HP_TARGET,
    .RDC_HP_TR, .RDC_LANE_AFE, .RDC_LANE_SKEW, .RDC_PAL_STAT, .SPL_MEMBERS, .SPL_STAT, .SPN_CTL, .SPN_ORR_STAT, .SPN_STAT, .SVE_CTX_CFG, .SVE_CTX_MAN,
    .SVE_CTX_STAT, .SVE_SEEK_STAT, .WRC_RWL_CTL, .WRC_RWL_PTR, .WRC_WR_CTL, .WRC_WR_STAT, .WRC_WUS_STAT] [.alm, .bmu, .cqe, .fcu, .out, .ptm, .rdc, .spl,
    .spn, .sve, .wrc] true s t ∧ t.sve.pass.any (fun e => e.1 == a.val && e.2.paths == (((grantWriters a waiting false).run s).select a wants).map (·.1) &&
    e.2.issuer == b2n fw && !e.2.ending) = true ∧ (∀ e ∈ ((grantWriters a waiting false).run s).select a wants, t.tgt e.1 = e.2.1) ∧ (∀ e ∈ ((grantWriters
    a waiting false).run s).select a wants, e.2.2.all (fun w => t.get WRC_WR_CTL.ASSIGNED w == 1 && t.get WRC_WR_CTL.SLOT w == e.1 % 4 && (t.writer w).path
    == e.1 && (t.get PTM_AVS_CFG.FIXED 0 == 0 || t.get WRC_WR_STAT.PWR w == wpReady || s.domainOn (48 + w))) = true) ∧ a.val ∉ t.wrc.preamp)

/-- An assertion of a source's rails is one event, counted and captured, and so are rails that agree a second time, with WIRE set; the escalation timer takes a
source from step 1 to step 2, which posts a record and raises the NMI; an acknowledgement by the Keeper, or at step 1 by the owner, ends the ladder; a
window's end, or the Keeper, clears the count and SEVERE; a software source is raised by a core; the Keeper clears the capture; a disagreement of FCU's
copies sets SELF_FLT and brings the safe state with cause 2, and a reload with equal copies clears it. An event that is severe sets SEVERE and starts the
ladder. A step of the timer in normal service takes a source to its next step; a self fault keeps no timer running; rails that agree once are counted.
Clauses without a frame state their effects under the conditions of normal execution alone, whatever else follows in the same step. -/
def Obligations.FaultEvents : Prop :=
  (∀ (s : State) (i : Fin 384) (m : Option Master) (typ size : Fin 16) (addr : PAddr), s.fcu.asserted.contains i.val = false → s.quiet i → Completes
    (.faultEvent i true false m typ size addr) s fun t => Unchanged (countRegs i) [.fcu] [] s t ∧ i.val ∈ t.fcu.asserted ∧ Counted i (eventCap m typ size
    addr.toNat) s t) ∧
  (∀ (s : State) (i : Fin 384) (m : Option Master) (typ size : Fin 16) (addr : PAddr), Sparse.get 0 s.fcu.equal i = 1 → s.quiet i → Completes (.faultEvent i
    true true m typ size addr) s fun t => Unchanged (countRegs i) [.fcu] [] s t ∧ t.get FCU_SRC_STAT.WIRE i = 1 ∧ t.fcu.asserted = s.fcu.asserted ∧ Counted
    i (detail addr.toNat) s t) ∧
  (∀ (s : State) (i : Fin 384) (m : Option Master) (typ size : Fin 16) (addr : PAddr), s.fcu.asserted.contains i.val = false → sourceReserved i = false →
    s.get FCU_SRC_CFG.EN i = 1 → s.islandOn 2 = true → s.severeNext i = true → s.normalService = true → s.get FCU_SELF.SELF_FLT 0 = 0 → Completes
    (.faultEvent i true false m typ size addr) s fun t => ChangesOnly [.FCU_SRC_STAT, .FCU_PEND, .FCU_CFG, .FCU_FEC_INFO, .FCU_FEC_ADDR, .FCU_FEC_TIME]
    [.fcu] false s t ∧ i.val ∈ t.fcu.asserted ∧ t.get FCU_SRC_STAT.SEVERE i = 1 ∧ t.get FCU_SRC_STAT.TOTAL i = satAdd (s.get FCU_SRC_STAT.TOTAL i) 1 255 ∧
    (s.get FCU_SRC_STAT.STEP i = 0 → t.get FCU_SRC_STAT.STEP i = 1 ∧ t.get FCU_SRC_STAT.PEND i = 1) ∧ (s.get FCU_SRC_STAT.STEP i ≠ 0 → t.get
    FCU_SRC_STAT.STEP i = s.get FCU_SRC_STAT.STEP i ∧ t.get FCU_SRC_STAT.AGAIN i = 1)) ∧
  (∀ (s : State) (i : Fin 384) (t0 : Bool) (m : Option Master) (typ size : Fin 16) (addr : PAddr), sourceReserved i = false → Sparse.get 0 s.fcu.equal i ≠ 1 →
    Completes (.faultEvent i t0 t0 m typ size addr) s fun t => Unchanged [] [.fcu] [] s t ∧ t.fcu = { s.fcu with equal := Sparse.put 0 s.fcu.equal i (min 2 (Sparse.get 0 s.fcu.equal i + 1)) }) ∧
  (∀ (s : State) (i : Fin 384) (m : Option Master) (typ size : Fin 16) (addr : PAddr), sourceReserved i = false → Completes (.faultEvent i false true m typ
    size addr) s fun t => Unchanged [] [.fcu] [] s t ∧ t.fcu = { s.fcu with equal := Sparse.put 0 s.fcu.equal i 0, asserted := s.fcu.asserted.filter (· != i.val) }) ∧
  (∀ (s : State) (i : Fin 384), s.timerOver i = true → s.normalService = true → s.get FCU_SELF.SELF_FLT 0 = 0 → s.get FCU_SRC_STAT.STEP i = 1 → s.get
    PCX_KPR_STAT.RESTART 0 = 0 → Completes (.escalationStep i) s fun t => ChangesOnly [.FCU_SRC_STAT, .FCU_PEND, .FCU_CFG, .ALM_STAT] [.fcu, .alm, .pcx,
    .out] false s t ∧ t.get FCU_SRC_STAT.STEP i = 2 ∧ t.get FCU_SRC_STAT.PEND i = 1 ∧ t.pcx.keeperPc = s.get PCX_NMI_VEC.VEC 0) ∧
  (∀ (s : State) (i : Fin 384), s.timerOver i = true → s.normalService = true → s.get FCU_SELF.SELF_FLT 0 = 0 → s.get FCU_SRC_STAT.STEP i < 4 → Completes
    (.escalationStep i) s fun t => t.get FCU_SRC_STAT.STEP i = nextStep i (s.get FCU_SRC_STAT.STEP i) ∧ t.get FCU_SRC_STAT.PEND i = 1 ∧ (nextStep i (s.get
    FCU_SRC_STAT.STEP i) = 4 → s.ptm.retention = false → t.safe = true)) ∧
  (∀ (s : State) (i : Fin 384), s.windowOver i = true → Completes (.fcuWindowEnd i) s fun t => Unchanged [(.FCU_SRC_STAT, i)] [.fcu] [] s t ∧ t.get
    FCU_SRC_STAT.WCNT i = 0 ∧ t.get FCU_SRC_STAT.SEVERE i = 0) ∧
  (∀ (s : State) (i : Fin 512) (m : Master), sourceReserved i = false → m = .keeper ∨ s.ownerMayAck m i = true → s.get FCU_SRC_STAT.PEND i = 1 ∨ s.get
    FCU_SRC_STAT.STEP i ≠ 0 → Completes (.fcuAck m i) s fun t => ChangesOnly [.FCU_SRC_STAT, .FCU_PEND, .FCU_CFG] [.fcu] false s t ∧ t.get
    FCU_SRC_STAT.STEP i = 0 ∧ t.get FCU_SRC_STAT.PEND i = 0 ∧ t.fcu.timers.any (fun e => e.1 == i.val) = false ∧ t.get FCU_SRC_STAT.AGAIN i = 0 ∧ (s.get
    FCU_SRC_STAT.AGAIN i = 1 → i.val ∈ t.fcu.again)) ∧
  (∀ (s : State) (i : Fin 512) (m : Master), m.isCore = true → 320 ≤ i.val ∧ i.val ≤ 383 → s.quiet i → Completes (.fcuRaise m i) s fun t => Unchanged
    (countRegs i) [.fcu] [] s t ∧ Counted i (detail 0) s t) ∧
  (∀ (s : State) (i : Fin 384), Completes (.clrCnt .keeper i) s fun t => Unchanged [(.FCU_SRC_STAT, i)] [.fcu] [] s t ∧ t.get FCU_SRC_STAT.WCNT i = 0 ∧ t.get
    FCU_SRC_STAT.SEVERE i = 0) ∧
  (∀ (s : State) (valid multi : Bool) (m : Master), m = .keeper ∨ m.isApp = true ∧ s.appOwned (s.get FCU_FEC_INFO.SRC 0) = true → Completes (.captureClear m
    valid multi) s fun t => Unchanged [(.FCU_FEC_INFO, 0)] [] [] s t ∧ t.get FCU_FEC_INFO.VALID 0 = (if valid then 0 else s.get FCU_FEC_INFO.VALID 0) ∧
    t.get FCU_FEC_INFO.MULTI 0 = (if multi then 0 else s.get FCU_FEC_INFO.MULTI 0)) ∧
  (∀ (s : State) (regs : List (Fin 385)) (p : Bool), s.islandOn 2 = true → Completes (.fcuSelfFault regs p) s fun t => t.get FCU_SELF.SELF_FLT 0 = 1 ∧ t.get
    FCU_SELF.RELOADED 0 = 0 ∧ t.get FCU_SELF.SELF_CNT 0 = satAdd (s.get FCU_SELF.SELF_CNT 0) 1 255 ∧ t.fcu.timers = [] ∧ (s.ptm.retention = false → t.safe
    = true) ∧ t.fcu.disagree = regs.map (·.val) ++ s.fcu.disagree) ∧
  (∀ (s : State) (regs : List (Fin 385)) (p : Bool), s.islandOn 2 = true → s.ptm.retention = false → s.safe = false → s.ptm.plStep = 0 → s.svc.calActive =
    false → s.get PCX_KPR_STAT.RESTART 0 = 0 → Completes (.fcuSelfFault regs p) s fun t => ChangesOnly [.ALM_STAT, .BMU_EVB_STAT, .BMU_STAT, .FCU_CFG,
    .FCU_SELF, .PCX_PROT_STAT, .PTM_MODE_STAT, .RDC_PAL_STAT, .SPN_ORR_STAT, .SPN_STAT, .SVE_CTX_CFG, .SVE_CTX_MAN, .SVE_CTX_STAT, .SVE_SEEK_STAT,
    .WRC_RWL_CTL, .WRC_RWL_PTR, .WRC_WR_STAT, .WRC_WUS_STAT] [.alm, .bmu, .fcu, .out, .pcx, .ptm, .rdc, .spn, .sve, .wrc] true s t ∧ t.get
    FCU_SELF.SELF_FLT 0 = 1 ∧ t.get FCU_SELF.RELOADED 0 = 0 ∧ t.get FCU_SELF.SELF_CNT 0 = satAdd (s.get FCU_SELF.SELF_CNT 0) 1 255 ∧ t.fcu.timers = [] ∧
    t.safe = true ∧ t.get PTM_MODE_STAT.SAFE_CAUSE 0 = 2 ∧ t.pcx.keeperPc = s.get PCX_NMI_VEC.VEC 0) ∧
  (∀ (s : State), s.get FCU_SELF.SELF_FLT 0 = 1 → s.fcu.disagree = [] → s.fcu.persistent = false → Completes (.fcuReload .keeper) s fun t => t.get
    FCU_SELF.SELF_FLT 0 = 0 ∧ t.get FCU_SELF.RELOADED 0 = 1 ∧ (s.normalService = true → ∀ i < 384, s.get FCU_SRC_STAT.PEND i = 1 → t.get FCU_SRC_STAT.STEP
    i = 1)) ∧
  (∀ (s : State), s.get FCU_SELF.SELF_FLT 0 = 1 → s.fcu.disagree ≠ [] ∨ s.fcu.persistent = true → Completes (.fcuReload .keeper) s fun t => Unchanged
    [(.FCU_SELF, 0)] [] [] s t ∧ t.get FCU_SELF.SELF_CNT 0 = satAdd (s.get FCU_SELF.SELF_CNT 0) 1 255 ∧ t.get FCU_SELF.SELF_FLT 0 = 1) ∧
  (∀ (s : State), s.get FCU_SELF.SELF_FLT 0 = 1 → s.fcu.disagree = [] → s.fcu.persistent = false → (∀ i < 384, s.get FCU_SRC_STAT.PEND i = 0) → Completes
    (.fcuReload .keeper) s fun t => Unchanged [(.FCU_SELF, 0)] [] [] s t ∧ t.get FCU_SELF.SELF_FLT 0 = 0 ∧ t.get FCU_SELF.RELOADED 0 = 1)

/-- The oldest staged record goes to its slot of the ring, and NEWEST takes its number; a Keeper write of POST enters the record its words give; CLEAR takes
OLDEST past the newest record and its end leaves the clear's own record alone in the ring; a reader's cursor is held within the ring, a read of the
window's first word latches the record under the cursor and a read of its last word advances the cursor; a completed hour of operating time is counted and
copied. A Keeper write of GO with no run in progress, for an item that exists and whose condition holds, starts a run: BUSY sets, RESULT is RUNNING, the
targets' values are saved. An iteration within the limit is counted; the fourth in tolerance in a row ends it PASS with its entry written and valid. At its
limit it ends FAILED, the targets as they were before it. Clauses without a frame state their effects under the conditions of normal execution alone,
whatever else follows in the same step. -/
def Obligations.AlmanacCommands : Prop :=
  (∀ (s : State) (r : AlmRec), s.alm.staged.head? = some r → s.islandOn bALM = true → s.get ALM_STAT.CLEARING 0 = 0 → s.alm.scanned = true → s.accessFault
    .alm atWrite (almAddr r.n) 32 = none → r.n < 2 ^ 32 → Completes (.almRecordCommit) s fun t => ChangesOnly [.ALM_NEWEST, .ALM_OLDEST, .ALM_STAT] [.alm,
    .bmu, .kpr] true s t ∧ t.get ALM_NEWEST.N 0 = r.n ∧ t.memWs (almAddr r.n) 8 = almWords r ∧ t.alm.staged = s.alm.staged.tail ∧ t.get ALM_STAT.STAGED 0 =
    t.alm.staged.length % 512) ∧
  (∀ (s : State), s.alm.staged.length < stagingSize → Completes (.almPost .keeper) s fun t => Unchanged [(.ALM_STAT, 0)] [.alm] [] s t ∧
    (t.alm.staged.getLast?).map (fun r => (r.code, r.sev, r.subsys, r.keeper, r.p)) = some (nbits (s.get ALM_POST.W 0) 31 16, nbits (s.get ALM_POST.W 0) 15
    12, nbits (s.get ALM_POST.W 0) 11 8, true, (List.range 4).map fun k => s.get ALM_POST.W (1 + k)) ∧ t.alm.staged.length = s.alm.staged.length + 1 ∧
    t.alm.lostPending = false) ∧
  (∀ (s : State), s.get ALM_STAT.CLEARING 0 = 0 → Completes (.almCtlClear .keeper) s fun t => Unchanged [(.ALM_STAT, 0), (.ALM_OLDEST, 0)] [.alm] [] s t ∧
    t.get ALM_STAT.CLEARING 0 = 1 ∧ t.get ALM_OLDEST.N 0 = s.almNext ∧ t.alm = { s.alm with clearRemoved := s.almCount }) ∧
  (∀ (s : State), s.get ALM_STAT.CLEARING 0 = 1 → Completes (.almClearDone) s fun t => ChangesOnly [.ALM_NEWEST, .ALM_OLDEST, .ALM_STAT] [.alm, .bmu, .kpr]
    true s t ∧ t.get ALM_STAT.CLEARING 0 = 0 ∧ t.get ALM_NEWEST.N 0 = s.almNext ∧ t.get ALM_OLDEST.N 0 = s.almNext ∧ t.alm.keeper.cursor = s.almNext ∧
    t.crcOk (almAddr s.almNext) 7 = true ∧ t.memW (almAddr s.almNext + 12) = s.alm.clearRemoved % 2 ^ 32) ∧
  (∀ (s : State) (m : Master) (k : Nat) (v : Word), s.almReaderOf m = some k → newer (2 ^ 32) (s.get ALM_OLDEST.N 0) v.toNat = false → newer (2 ^ 32) v.toNat
    s.almNext = false → Completes (.almCursorWrite m v) s fun t => Unchanged [] [.alm] [] s t ∧ (t.almReader k).cursor = v.toNat) ∧
  (∀ (s : State) (m : Master) (k : Nat), s.almReaderOf m = some k → Completes (.almWindowLatch m) s fun t => Unchanged [] [.alm, .out] [] s t ∧ t.out = .data
    m.id ((s.almRecord k).getD 0 0) :: s.out ∧ (t.almReader k).cursor = s.almAt k ∧ (t.almReader k).window = s.almRecord k) ∧
  (∀ (s : State) (m : Master) (k : Nat), s.almReaderOf m = some k → (s.almReader k).cursor ≠ s.almNext → Completes (.almWindowAdvance m) s fun t => Unchanged
    [] [.alm, .out] [] s t ∧ t.out = .data m.id (s.almWord k 7) :: s.out ∧ (t.almReader k).cursor = ((s.almReader k).cursor + 1) % 2 ^ 32 ∧ (t.almReader
    k).window = (s.almReader k).window) ∧
  (∀ (s : State), Completes (.operatingHourElapsed) s fun t => ChangesOnly [.ALM_STAT] [.alm, .kpr, .sve] false s t ∧ t.alm.hours = min 16777215 (s.alm.hours
    + 1) ∧ t.alm.secs = 0 ∧ t.kpr = { s.kpr with hoursCopy := t.alm.hours, secsCopy := 0, cyclesCopy := s.alm.cycles } ∧ t.sve = { s.sve with extraLogged := [] }) ∧
  (∀ (s : State), s.get CQE_STAT.IO_OUT 0 = 0 → s.stretched = false → Completes (.ledStretchEnd) s fun t => Unchanged [] [.ptm] [] s t ∧ t.ptm = { s.ptm with led0 := false }
    ∧ (s.get PTM_LED_CFG.LED0_SW 0 = 0 → t.led0Low = false)) ∧
  (∀ (s : State) (cls : Fin 2) (item : BitVec 8) (head : Fin 32), s.svc.calActive = false → calItemExists cls item.toNat = true → head.val < 24 → s.calCond
    cls item.toNat (if cls.val = 1 then head.val else 0) = true → Completes (.calGo .keeper cls item head) s fun t => Unchanged [(.SVC_CAL_CTL, 0),
    (.SVC_CAL_STAT, 0)] [.svc] [] s t ∧ t.get SVC_CAL_CTL.BUSY 0 = 1 ∧ t.get SVC_CAL_STAT.RESULT 0 = 1 ∧ t.get SVC_CAL_STAT.ITER 0 = 0 ∧ t.svc.calActive =
    true ∧ t.svc.calClass = cls ∧ t.svc.calItem = item.toNat ∧ t.svc.calSaved = (calTargets cls item.toNat head).map (fun e => (regKey e.1 e.2, (s.reg e.1
    e.2).toNat))) ∧
  (∀ (s : State) (vals : List Word) (q : Word) (inTol : Bool), s.svc.calActive = true → s.calCond s.svc.calClass s.svc.calItem s.svc.calHead = true →
    s.ptm.ticks ≤ s.calEnd → inTol = false ∨ s.svc.calInTol < 3 → Completes (.calIterationEnd vals q inTol) s fun t => ChangesOnly [.ALM_STAT,
    .BMU_EVB_STAT, .BMU_STAT, .PCX_PROT_STAT, .RDC_HEAD_CFG, .RDC_HP_ADAPT, .RDC_HP_CTL, .RDC_HP_DEC, .RDC_HP_DET, .RDC_HP_LOOP, .RDC_HP_RATE,
    .RDC_HP_SYNC, .RDC_HP_TAP, .RDC_HP_TARGET, .RDC_HP_TR, .RDC_LANE_AFE, .RDC_LANE_SKEW, .SVC_CAL_CTL, .SVC_CAL_STAT, .WRC_HEAD_CFG] [.alm, .bmu, .fcu,
    .kpr, .out, .rdc, .svc, .wrc] true s t ∧ t.svc.calActive = true ∧ t.get SVC_CAL_STAT.ITER 0 = satAdd (s.get SVC_CAL_STAT.ITER 0) 1 65535 ∧
    t.svc.calLast = q.toNat ∧ t.svc.calInTol = (if inTol then s.svc.calInTol + 1 else 0)) ∧
  (∀ (s : State) (vals : List Word) (q : Word), s.svc.calActive = true → s.calCond s.svc.calClass s.svc.calItem s.svc.calHead = true → s.ptm.ticks ≤ s.calEnd
    → 3 ≤ s.svc.calInTol → Completes (.calIterationEnd vals q true) s fun t => ChangesOnly [.ALM_STAT, .BMU_EVB_STAT, .BMU_STAT, .FCU_FEC_ADDR,
    .FCU_FEC_INFO, .FCU_FEC_TIME, .FCU_SRC_STAT, .PCX_PROT_STAT, .RDC_HEAD_CFG, .RDC_HP_ADAPT, .RDC_HP_CTL, .RDC_HP_DEC, .RDC_HP_DET, .RDC_HP_LOOP,
    .RDC_HP_RATE, .RDC_HP_SYNC, .RDC_HP_TAP, .RDC_HP_TARGET, .RDC_HP_TR, .RDC_LANE_AFE, .RDC_LANE_SKEW, .SVC_CAL_CTL, .SVC_CAL_STAT, .WRC_HEAD_CFG] [.alm,
    .bmu, .fcu, .kpr, .out, .rdc, .svc, .wrc] true s t ∧ t.svc.calActive = false ∧ t.get SVC_CAL_CTL.BUSY 0 = 0 ∧ t.get SVC_CAL_STAT.RESULT 0 = 2 ∧
    (¬(s.svc.calClass = 0 ∧ s.svc.calItem = 1) → t.kpr.calVals = (s.kpr.calVals.filter fun c => c.1 != calIndex s.svc.calClass s.svc.calItem s.svc.calHead)
    ++ [(calIndex s.svc.calClass s.svc.calItem s.svc.calHead, vals.map BitVec.toNat)])) ∧
  (∀ (s : State), s.svc.calActive = true → s.calEnd ≤ s.ptm.ticks → Completes (.calLimitExpiry) s fun t => t.svc.calActive = false ∧ t.get SVC_CAL_CTL.BUSY 0
    = 0 ∧ t.get SVC_CAL_STAT.RESULT 0 = 3 ∧ t.get SVC_CAL_STAT.CAUSE 0 = 1 ∧ t.kpr = s.kpr) ∧
  (∀ (s : State) (s0 : State), s.svc.calActive = true → s.calEnd ≤ s.ptm.ticks → (s.svc.calSaved = (calTargets s.svc.calClass s.svc.calItem s.svc.calHead).map
    fun e => (regKey e.1 e.2, (s0.reg e.1 e.2).toNat)) → (∀ p < 16, s.hpPwr p ≠ pwActive) → (∀ e ∈ calTargets s.svc.calClass s.svc.calItem s.svc.calHead,
    e.1 = .WRC_HEAD_CFG → s.wrcUsers e.1 e.2 = []) → Completes (.calLimitExpiry) s fun t => ChangesOnly [.ALM_STAT, .BMU_EVB_STAT, .BMU_STAT,
    .PCX_PROT_STAT, .RDC_HEAD_CFG, .RDC_LANE_AFE, .SVC_CAL_CTL, .SVC_CAL_STAT, .WRC_HEAD_CFG] [.alm, .bmu, .fcu, .kpr, .out, .rdc, .svc, .wrc] true s t ∧
    t.svc.calActive = false ∧ ∀ e ∈ calTargets s.svc.calClass s.svc.calItem s.svc.calHead, t.reg e.1 e.2 = s0.reg e.1 e.2)

/-- A bucket leaks one count, down to 0; patrol reads one line, 64 bytes or one word and moves its cursor on, counting a pass at the end of its range; a clean
line changes nothing else; a slice locks the next row, and its end, an abandon or its budget's expiry unlocks it and counts the abandon; a repair takes the
next free spare row of its instance, or sets ERR with none. A slice that finds a row bad begins or ends with its record; a row of an instance with no spare
only sets ERR. Clauses without a frame state their effects under the conditions of normal execution alone, whatever else follows in the same step. -/
def Obligations.MemoryIntegrity : Prop :=
  (∀ (s : State) (i : Fin 256), s.get SVC_LB_CFG.EN i = 1 → s.leakDue i = true → Completes (.bucketLeak i) s fun t => Unchanged [(.SVC_LB_STAT, i)] [.svc] []
    s t ∧ t.get SVC_LB_STAT.COUNT i = s.get SVC_LB_STAT.COUNT i - 1 ∧ t.svc = { s.svc with leakAt := Sparse.put s.ptm.bootAt s.svc.leakAt i s.ptm.ticks }) ∧
  (∀ (s : State), s.svcRuns = true → s.get SVC_PTL_CFG.DR_EN 0 = 1 → s.get SVC_PTL_BASE.LINE 0 + s.svc.drCursor < s.get SVC_PTL_LIMIT.LINE 0 → s.bmu.poison =
    [] → Completes (.patrolDramRead .clean .clean) s fun t => Unchanged [] [.svc] [] s t ∧ t.svc = { s.svc with drCursor := s.svc.drCursor + 1 }) ∧
  (∀ (s : State) (l : Nat), s.svcRuns = true → s.get SVC_PTL_CFG.DR_EN 0 = 1 → s.get SVC_PTL_BASE.LINE 0 + s.svc.drCursor = l → l = s.get SVC_PTL_LIMIT.LINE 0
    → s.dramOk (64 * l) 64 = true → s.bmu.lines = [] → s.bmu.evb = [] → s.quiet 28 → Completes (.patrolDramRead .uncorrectable .clean) s fun t => Unchanged
    ((.SVC_PTL_STAT, 0) :: countRegs 28) [.svc, .bmu, .fcu] [] s t ∧ t.svc = { s.svc with drCursor := 0 } ∧ t.get SVC_PTL_STAT.DR_PASS 0 = satAdd (s.get
    SVC_PTL_STAT.DR_PASS 0) 1 255 ∧ 2 * l ∈ t.bmu.poison ∧ t.get SVC_PTL_STAT.UE_CNT 0 ≤ satAdd (satAdd (s.get SVC_PTL_STAT.UE_CNT 0) 1 255) 1 255) ∧
  (∀ (s : State) (o0 o1 : Half), s.svcRuns = true → s.normalService = true → s.get SVC_PTL_CFG.DR_EN 0 = 1 → s.get SVC_PTL_BASE.LINE 0 + s.svc.drCursor ≤
    s.get SVC_PTL_LIMIT.LINE 0 → Completes (.patrolDramRead o0 o1) s fun t => t.svc.drCursor = (if s.get SVC_PTL_BASE.LINE 0 + s.svc.drCursor = s.get
    SVC_PTL_LIMIT.LINE 0 then 0 else s.svc.drCursor + 1) ∧ t.get SVC_PTL_STAT.DR_PASS 0 = (if s.get SVC_PTL_BASE.LINE 0 + s.svc.drCursor = s.get
    SVC_PTL_LIMIT.LINE 0 then satAdd (s.get SVC_PTL_STAT.DR_PASS 0) 1 255 else s.get SVC_PTL_STAT.DR_PASS 0)) ∧
  (∀ (s : State) (c : Fin 65) (ue : Option (Fin 64 × SramUe)), s.svcRuns = true → s.normalService = true → s.get SVC_PTL_CFG.SR_EN 0 = 1 → Completes
    (.patrolSramRead c ue) s fun t => (s.svc.srRow + 1 < 4 * instRows s.svc.srInst → t.svc.srInst = s.svc.srInst ∧ t.svc.srRow = s.svc.srRow + 1) ∧ (4 *
    instRows s.svc.srInst ≤ s.svc.srRow + 1 → t.svc.srRow = 0 ∧ t.svc.srInst = (((List.range sramInstances).find? fun k => decide (s.svc.srInst < k) &&
    s.instOn k).getD 0))) ∧
  (∀ (s : State), s.svcRuns = true → s.get SVC_PTL_CFG.SR_EN 0 = 1 → s.svc.srRow + 1 < 4 * instRows s.svc.srInst → Completes (.patrolSramRead 0 none) s fun t
    => Unchanged [] [.svc] [] s t ∧ t.svc = { s.svc with srRow := s.svc.srRow + 1 }) ∧
  (∀ (s : State) (o : Half), s.svcRuns = true → s.normalService = true → s.get SVC_PTL_CFG.MR_EN 0 = 1 → Completes (.patrolEmramRead o) s fun t =>
    t.svc.mrCursor = (if s.svc.mrCursor + 1 < emramWords then s.svc.mrCursor + 1 else 0) ∧ t.get SVC_PTL_STAT.MR_PASS 0 = (if s.svc.mrCursor + 1 <
    emramWords then s.get SVC_PTL_STAT.MR_PASS 0 else satAdd (s.get SVC_PTL_STAT.MR_PASS 0) 1 255) ∧ (o = .corrected → .event "eMRAM word rewritten"
    [0x40000000 + 8 * s.svc.mrCursor] ∈ t.out)) ∧
  (∀ (s : State) (o : Half), s.svcRuns = true → s.get SVC_PTL_CFG.MR_EN 0 = 1 → s.svc.mrCursor + 1 < emramWords → o = .clean ∨ o = .corrected ∧ s.get
    SVC_LB_CFG.EN emramInst = 0 → Completes (.patrolEmramRead o) s fun t => Unchanged [] [.svc, .out] [] s t ∧ t.svc = { s.svc with mrCursor := s.svc.mrCursor + 1 }
    ∧ t.out = (if o = .corrected then [.event "eMRAM word rewritten" [0x40000000 + 8 * s.svc.mrCursor]] else []) ++ s.out) ∧
  (∀ (s : State) (i r : Nat), s.svcRuns = true → s.svc.locked = false → s.safe = false → s.svc.full = true ∨ s.get SVC_SVY_CFG.EN 0 = 1 ∧ s.sliceDue = true →
    s.svyNext s.svyRow.1 s.svyRow.2 = some (i, r) → Completes (.surveySliceStart none) s fun t => Unchanged [(.SVC_SVY_STAT, 0)] [.svc] [] s t ∧ t.svc = { s.svc with svyInst := if s.svc.full then s.svc.svyInst else i, svyRow := if s.svc.full then s.svc.svyRow else r, fInst := if s.svc.full then i else s.svc.fInst, fRow := if s.svc.full then r else s.svc.fRow, locked := true, sliceAt := s.ptm.ticks }
    ∧ t.get SVC_SVY_STAT.INST 0 = i % 256 ∧ (s.svc.full = false → t.get SVC_SVY_STAT.STATE 0 = 1)) ∧
  (∀ (s : State) (b : Fin 256) (i r : Nat), s.svcRuns = true → s.svc.locked = false → s.safe = false → s.svc.full = true ∨ s.get SVC_SVY_CFG.EN 0 = 1 ∧
    s.sliceDue = true → s.normalService = true → s.svyNext s.svyRow.1 s.svyRow.2 = some (i, r) → s.svc.full = false → Completes (.surveySliceStart (some
    b)) s fun t => t.svc = { s.svc with svyInst := i, svyRow := r + 1, abandons := 0, locked := false, sliceEnd := s.ptm.ticks } ∧ t.get SVC_SVY_STAT.INST
    0 = i % 256 ∧ (s.quiet 25 → Counted 25 (sramCap i (256 * r + b)) s t)) ∧
  (∀ (s : State), s.svc.locked = true → s.svc.full = false → Completes (.surveySliceEnd none) s fun t => Unchanged [(.SVC_SVY_STAT, 0)] [.svc] [] s t ∧ t.svc
    = { s.svc with locked := false, sliceEnd := s.ptm.ticks, svyRow := s.svc.svyRow + 1, abandons := 0 } ∧ t.get SVC_SVY_STAT.STATE 0 = (if s.on
    SVC_SVY_CFG.EN 0 then s.get SVC_SVY_STAT.STATE 0 else 0)) ∧
  (∀ (s : State), s.svc.locked = true → s.svc.full = true → s.svyLast s.svc.fInst s.svc.fRow = true → Completes (.surveySliceEnd none) s fun t => Unchanged
    [(.SVC_SVY_STAT, 0)] [.svc] [] s t ∧ t.svc.locked = false ∧ t.svc.full = false ∧ t.get SVC_SVY_STAT.FULL_DONE 0 = 1 ∧ t.get SVC_SVY_STAT.SHUT_ARM 0 = 0) ∧
  (∀ (s : State) (f : RowFail), s.svc.locked = true → s.normalService = true → Completes (.surveySliceEnd (some f)) s fun t => t.svc.locked = false ∧ s.svyRow
    ∈ t.svc.failedRows ∧ t.get SVC_SVY_STAT.RES_WR 0 = (s.get SVC_SVY_STAT.RES_WR 0 + 1) % 64 ∧ t.get SVC_SVY_RES.W (4 * s.get SVC_SVY_STAT.RES_WR 0) =
    (s.svyRow.1 <<< 24 ||| (256 * s.svyRow.2 + f.off)) % 2 ^ 32 ∧ t.get SVC_INST_STAT.FAILED_ROWS s.svyRow.1 = (if s.svyRow ∈ s.svc.failedRows then s.get
    SVC_INST_STAT.FAILED_ROWS s.svyRow.1 else satAdd (s.get SVC_INST_STAT.FAILED_ROWS s.svyRow.1) 1 255)) ∧
  (∀ (s : State), s.svc.locked = true → s.svc.abandons + 1 < s.get SVC_SVY_CFG.ABANDON_MAX 0 → Completes (.surveySliceAbandon) s fun t => Unchanged
    [(.SVC_SVY_STAT, 0)] [.svc] [] s t ∧ t.svc = { s.svc with locked := false, sliceEnd := s.ptm.ticks, abandons := s.svc.abandons + 1 }) ∧
  (∀ (s : State), s.svc.locked = true → s.svc.full = false → s.get SVC_SVY_CFG.ABANDON_MAX 0 ≤ s.svc.abandons + 1 → Completes (.surveySliceAbandon) s fun t =>
    Unchanged [(.SVC_SVY_STAT, 0)] [.svc] [] s t ∧ t.svc = { s.svc with locked := false, sliceEnd := s.ptm.ticks, svyRow := s.svc.svyRow + 1, abandons := 0 }
    ∧ t.get SVC_SVY_STAT.SKIP_CNT 0 = satAdd (s.get SVC_SVY_STAT.SKIP_CNT 0) 1 255) ∧
  (∀ (s : State), s.svc.locked = true → s.budgetOver = true → s.svc.abandons + 1 < s.get SVC_SVY_CFG.ABANDON_MAX 0 → Completes (.surveyBudgetExpiry) s fun t
    => Unchanged [(.SVC_SVY_STAT, 0)] [.svc] [] s t ∧ t.svc = { s.svc with locked := false, sliceEnd := s.ptm.ticks, abandons := s.svc.abandons + 1 }) ∧
  (∀ (s : State), s.svc.locked = true → s.budgetOver = true → s.svc.full = false → s.get SVC_SVY_CFG.ABANDON_MAX 0 ≤ s.svc.abandons + 1 → Completes
    (.surveyBudgetExpiry) s fun t => Unchanged [(.SVC_SVY_STAT, 0)] [.svc] [] s t ∧ t.svc = { s.svc with locked := false, sliceEnd := s.ptm.ticks, svyRow := s.svc.svyRow + 1, abandons := 0 }
    ∧ t.get SVC_SVY_STAT.SKIP_CNT 0 = satAdd (s.get SVC_SVY_STAT.SKIP_CNT 0) 1 255) ∧
  (∀ (s : State) (i : Fin 256) (r : BitVec 16), 0 < s.get SVC_INST_STAT.SPARE_FREE i → Completes (.repairGo .keeper i r) s fun t => Unchanged [(.SVC_REPAIR,
    0), (.SVC_INST_STAT, i)] [.svc, .bmu] [] s t ∧ t.get SVC_INST_STAT.SPARE_FREE i = s.get SVC_INST_STAT.SPARE_FREE i - 1 ∧ t.get SVC_INST_STAT.REPAIRED i
    = satAdd (s.get SVC_INST_STAT.REPAIRED i) 1 255 ∧ t.svc.repairs = (i.val, r.toNat) :: s.svc.repairs ∧ (i.val, r.toNat) ∉ t.svc.failedRows) ∧
  (∀ (s : State) (i : Fin 256) (r : BitVec 16), s.get SVC_INST_STAT.SPARE_FREE i = 0 → Completes (.repairGo .keeper i r) s fun t => Unchanged [(.SVC_REPAIR,
    0)] [] [] s t ∧ t.get SVC_REPAIR.ERR 0 = 1 ∧ t.get SVC_REPAIR.INST 0 = i ∧ t.get SVC_REPAIR.ROW 0 = r.toNat)

/-- POST with the next SEQ takes an EMPTY or DONE channel to POSTED; CANCEL takes a POSTED one to DONE with CANCELLED; TAKE takes a POSTED one to TAKEN; DONE
takes a TAKEN one to DONE with ERR; a channel POSTED for TAKE_TMO or undone for DONE_TMO sets TMO and counts an event of its source; FERRY_HELLO agrees on
a version for the next post; the Keeper takes the head of the relay's receive queue, and a relayed request not whole within 100 ms is discarded. A queue
that is empty gives the Keeper nothing; a POST, CANCEL or DONE changes what the channel shows and what the Keeper holds of the exchange. -/
def Obligations.FerryChannels : Prop :=
  (∀ (s : State) (m : Master) (n : Fin 8) (q : BitVec 8), n.val ≠ 7 → s.ferryRequester m n = true → s.fySt n = fyEmpty ∨ s.fySt n = fyDone → q.toNat =
    s.nextSeq n → Completes (.ferryPost m n q) s fun t => Unchanged [(.PCX_FRY_STAT, n), (.PCX_FRY_RES, 64 * n)] [.kpr] [] s t ∧ t.fySt n = fyPosted ∧
    t.get PCX_FRY_STAT.LAST_SEQ n = q.toNat ∧ t.get PCX_FRY_RES.W (64 * n) = (fyPosted <<< 30 ||| q.toNat) ∧ t.kpr.posted.any (fun e => e.chan == n.val &&
    e.tick == s.ptm.ticks && !e.takeTmo && !e.doneTmo) = true) ∧
  (∀ (s : State) (m : Master) (n : Fin 8), n.val ≠ 7 → s.ferryRequester m n = true → s.fySt n = fyPosted → Completes (.ferryCancel m n) s fun t => Unchanged
    [(.PCX_FRY_STAT, n), (.PCX_FRY_RES, 64 * n), (.PCX_FRY_RES, 64 * n + 1)] [.kpr] [] s t ∧ t.fySt n = fyDone ∧ t.get PCX_FRY_STAT.ERR n = eCancelled ∧ ∀
    e ∈ t.kpr.posted, e.chan ≠ n.val) ∧
  (∀ (s : State) (n : Fin 8), n.val ≠ 7 → s.fySt n = fyPosted → s.fyStill n = true → s.takeTurn n = true → Completes (.ferryTake .keeper n) s fun t =>
    Unchanged [(.PCX_FRY_STAT, n), (.PCX_FRY_RES, 64 * n)] [.kpr] [] s t ∧ t.fySt n = fyTaken ∧ t.get PCX_FRY_STAT.LAST_SEQ n = s.get PCX_FRY_STAT.LAST_SEQ
    n) ∧
  (∀ (s : State) (n : Fin 8) (e : BitVec 8), n.val ≠ 7 → s.fySt n = fyTaken → s.fyStill n = true → Completes (.ferryDone .keeper n e) s fun t => ChangesOnly
    [.PCX_FRY_KCTL, .PCX_FRY_RES, .PCX_FRY_STAT, .PCX_MSIP] [.kpr, .out] false s t ∧ t.fySt n = fyDone ∧ t.get PCX_FRY_STAT.ERR n = e.toNat ∧ ∀ e ∈
    t.kpr.posted, e.chan ≠ n.val) ∧
  (∀ (s : State) (n : Fin 7), s.get PCX_KPR_STAT.RESTART 0 = 0 → s.takeLate n = true → s.quiet (288 + n) → Completes (.ferryTakeTimeout n) s fun t =>
    Unchanged (countRegs (288 + n) ++ [(.PCX_FRY_STAT, n.val)]) [.kpr, .fcu] [] s t ∧ t.get PCX_FRY_STAT.TMO n = 1 ∧ t.fySt n = fyPosted ∧ t.takeLate n =
    false ∧ Counted (288 + n) (detail n) s t) ∧
  (∀ (s : State) (n : Fin 7), s.get PCX_KPR_STAT.RESTART 0 = 0 → s.doneLate n = true → s.quiet (288 + n) → Completes (.ferryDoneTimeout n) s fun t =>
    Unchanged (countRegs (288 + n) ++ [(.PCX_FRY_STAT, n.val)]) [.kpr, .fcu] [] s t ∧ t.get PCX_FRY_STAT.TMO n = 1 ∧ t.fySt n = s.fySt n ∧ t.doneLate n =
    false ∧ Counted (288 + n) (detail n) s t) ∧
  (∀ (s : State) (n : Fin 8) (k j : Nat), s.mayServe n 0x0001 clsAll false → (([2, 1] : List Nat).find? (fun k => (s.helloMinor n k).isSome) = some k) → j =
    min (keeperMinor k) ((s.helloMinor n k).getD 0) → Completes (.ferryHello n) s fun t => ChangesOnly [.PCX_FRY_KCTL, .PCX_FRY_RES, .PCX_FRY_STAT,
    .PCX_MSIP] [.free, .kpr, .out] false s t ∧ t.fySt n = fyDone ∧ t.get PCX_FRY_STAT.ERR n = eOk ∧ t.get PCX_FRY_STAT.VER n = (16 * k ||| j) % 256 ∧ t.get
    PCX_FRY_RES.W (64 * n + 4) = ((16 * k ||| j) <<< 24) % 2 ^ 32 ∧ t.freeCtr = s.freeCtr + 1) ∧
  (∀ (s : State) (n : Fin 8), s.mayServe n 0x0001 clsAll false → s.helloMinor n 1 = none → s.helloMinor n 2 = none → Completes (.ferryHello n) s fun t =>
    ChangesOnly [.PCX_FRY_KCTL, .PCX_FRY_RES, .PCX_FRY_STAT, .PCX_MSIP] [.free, .kpr, .out] false s t ∧ Answered n eVersion [0x21000000] s t) ∧
  (∀ (s : State), s.spl.rx = [] → Completes (.relayPop .keeper) s fun t => t = relayPop.run s) ∧
  (∀ (s : State) (f : List Nat) (l : List (List Nat)) (o x : Nat), s.spl.rx = f :: l → o = (f.getD 2 0 * 256 + f.getD 3 0) % 512 → x = f.getD 13 0 → f.getD 12
    0 = 0 → f.getD 14 0 / 16 < f.getD 14 0 % 16 → f.getD 14 0 % 16 ≤ 6 → (s.kpr.relayIn.any (fun r => r.peer == o && r.xid == x) = false) → f.getD 14 0 %
    16 ≠ 1 → Completes (.relayPop .keeper) s fun t => t.spl.rx = l ∧ t.kpr.relayIn = s.kpr.relayIn ++ [{ peer := o, xid := x, total := f.getD 14 0 % 16, time := s.ptm.ticks, chunks := [(f.getD 14 0 / 16, (List.range 44).map fun k => f.getD (16 + k) 0)] }]) ∧
  (∀ (s : State) (f : List Nat) (l : List (List Nat)) (o x : Nat), s.spl.rx = f :: l → o = (f.getD 2 0 * 256 + f.getD 3 0) % 512 → x = f.getD 13 0 → f.getD 12
    0 = 1 → f.getD 14 0 / 16 < f.getD 14 0 % 16 → f.getD 14 0 % 16 ≤ 6 → Completes (.relayPop .keeper) s fun t => ChangesOnly [.PCX_FRY_REQ, .PCX_FRY_RES,
    .PCX_FRY_STAT, .SPL_RLY_CTL, .SPL_RLY_RX] [.kpr, .out, .spl] false s t ∧ t.spl.rx = l ∧ t.kpr = { s.kpr with relayOut := s.kpr.relayOut.map fun r => if r.peer = o ∧ r.xid = x then { r with total := f.getD 14 0 % 16, chunks := if r.chunks.all (·.1 != f.getD 14 0 / 16) then r.chunks ++ [(f.getD 14 0 / 16, (List.range 44).map fun k => f.getD (16 + k) 0)] else r.chunks } else r }) ∧
  (∀ (s : State) (f : List Nat) (l : List (List Nat)), s.spl.rx = f :: l → f.getD 12 0 = 2 → f.getD 14 0 / 16 < f.getD 14 0 % 16 → f.getD 14 0 % 16 ≤ 6 →
    Completes (.relayPop .keeper) s fun t => ChangesOnly [.PCX_FRY_REQ, .PCX_FRY_RES, .PCX_FRY_STAT, .SPL_RLY_CTL, .SPL_RLY_RX] [.kpr, .out, .spl] false s
    t ∧ t.spl = { s.spl with rx := l } ∧ t.out = .event "Almanac push" (((f.getD 2 0 * 256 + f.getD 3 0) % 512) :: (List.range 44).map fun k => f.getD (16
    + k) 0) :: s.out) ∧
  (∀ (s : State) (o : Fin 512) (x : BitVec 8), Completes (.relayReassemblyTimeout o x) s fun t => Unchanged [] [.kpr] [] s t ∧ t.kpr.relayIn =
    s.kpr.relayIn.filter (fun r => !(r.peer == o.val && r.xid == x.toNat && !r.complete && decide (r.time + 100 * tickMs ≤ s.ptm.ticks))))

/-- MODE_SET starts the transition it names and waits for its end; CAP_SET sets the cap and answers MERMODE; MODE_GET answers MERMODE and the time; HP_PWR_SET,
in SERVICE, sets a head path's power state. An argument that is not allowed ends with ARG, a mode that does not allow the command with STATE, and nothing
else happens. -/
def Obligations.FerryModes : Prop :=
  (∀ (s : State) (n : Fin 8), s.mayServe n 0x0101 (clsA ||| clsM ||| clsS) false → nbits (s.req n 4) 2 0 = mActive → s.transOk { mode := mActive, ilvl := 0, ret := false }
    = true → Completes (.modeSet n) s fun t => ChangesOnly [.BMU_EVB_STAT, .BMU_STAT, .PCX_FRY_KCTL, .PCX_FRY_RES, .PCX_FRY_STAT, .PCX_MSIP,
    .PCX_PROT_STAT, .PTM_MODE_CTL, .PTM_MODE_STAT, .RDC_PAL_STAT, .SPL_MEMBERS, .SPL_STAT, .SPN_CTL, .SPN_ORR_STAT, .SPN_STAT, .SVE_CTX_CFG, .SVE_CTX_MAN,
    .SVE_CTX_STAT, .SVE_SEEK_STAT, .WRC_RWL_CTL, .WRC_RWL_PTR, .WRC_WR_STAT, .WRC_WUS_STAT] [.bmu, .fcu, .kpr, .out, .ptm, .rdc, .spl, .spn, .sve, .wrc]
    true s t ∧ t.ptm.target = some { mode := mActive, ilvl := 0, ret := false } ∧ t.get PTM_MODE_STAT.TRANS 0 = 1 ∧ t.fySt n = fyTaken ∧ (n.val, wtMode,
    mActive) ∈ t.kpr.waiting) ∧
  (∀ (s : State) (n : Fin 8) (r : ModeReq), s.mayServe n 0x0101 (clsA ||| clsM ||| clsS) false → r = { mode := nbits (s.req n 4) 2 0, ilvl := if nbits (s.req n 4) 2 0 = mIdle then nbits (s.req n 4) 4 3 else 0, ret := nbits (s.req n 4) 2 0 == mStandby && nbit (s.req n 4) 5 }
    → s.transOk r = true → r.mode ≠ mService ∨ n.val = 5 → Completes (.modeSet n) s fun t => ChangesOnly [.BMU_EVB_STAT, .BMU_STAT, .PCX_FRY_KCTL,
    .PCX_FRY_RES, .PCX_FRY_STAT, .PCX_MSIP, .PCX_PROT_STAT, .PTM_MODE_CTL, .PTM_MODE_STAT, .RDC_PAL_STAT, .SPL_MEMBERS, .SPL_STAT, .SPN_CTL, .SPN_ORR_STAT,
    .SPN_STAT, .SVE_CTX_CFG, .SVE_CTX_MAN, .SVE_CTX_STAT, .SVE_SEEK_STAT, .WRC_RWL_CTL, .WRC_RWL_PTR, .WRC_WR_STAT, .WRC_WUS_STAT] [.bmu, .fcu, .kpr, .out,
    .ptm, .rdc, .spl, .spn, .sve, .wrc] true s t ∧ t.ptm.target = some r ∧ t.get PTM_MODE_STAT.TRANS 0 = 1 ∧ t.fySt n = fyTaken ∧ (n.val, wtMode, r.ilvl
    <<< 3 ||| r.mode) ∈ t.kpr.waiting) ∧
  (∀ (s : State) (n : Fin 8), s.mayServe n 0x0101 (clsA ||| clsM ||| clsS) false → nbits (s.req n 4) 2 0 = mService → n.val = 4 → Completes (.modeSet n) s fun
    t => ChangesOnly [.PCX_FRY_RES, .PCX_FRY_KCTL, .PCX_FRY_STAT, .PCX_MSIP] [.kpr, .out] false s t ∧ Answered n eState [] s t) ∧
  (∀ (s : State) (n : Fin 8), s.mayServe n 0x0102 (clsA ||| clsM ||| clsS) false → 12 ≤ s.req n 4 % 256 → s.req n 4 % 256 ≤ 40 → Completes (.capSet n) s fun t
    => ChangesOnly [.PCX_FRY_KCTL, .PCX_FRY_RES, .PCX_FRY_STAT, .PCX_MSIP, .PTM_AVS_STAT, .PTM_CAP_CFG, .PTM_CAP_STAT, .PTM_DOM_PWR, .RDC_HP_CLR,
    .RDC_HP_STAT, .WRC_WR_STAT] [.kpr, .out, .rdc, .svc] false s t ∧ Answered n eOk [t.mermode] s t ∧ t.get PTM_CAP_CFG.CAP 0 = s.req n 4 % 256) ∧
  (∀ (s : State) (n : Fin 8), s.mayServe n 0x0102 (clsA ||| clsM ||| clsS) false → s.req n 4 % 256 < 12 ∨ 40 < s.req n 4 % 256 → Completes (.capSet n) s fun t
    => ChangesOnly [.PCX_FRY_RES, .PCX_FRY_KCTL, .PCX_FRY_STAT, .PCX_MSIP] [.kpr, .out] false s t ∧ Answered n eArg [] s t) ∧
  (∀ (s : State) (n : Fin 8), s.mayServe n 0x0103 clsAll false → Completes (.modeGet n) s fun t => ChangesOnly [.PCX_FRY_KCTL, .PCX_FRY_RES, .PCX_FRY_STAT,
    .PCX_MSIP] [.kpr, .out] false s t ∧ Answered n eOk [s.mermode, s.timeLo] s t) ∧
  (∀ (s : State) (n : Fin 8), s.mayServe n 0x0104 (clsA ||| clsS) false → s.mode = mService → s.inPass (nbits (s.req n 4) 3 0) = false → nbits (s.req n 4) 17
    16 ≠ pwActive → Completes (.hpPwrSet n) s fun t => ChangesOnly [.PCX_FRY_KCTL, .PCX_FRY_RES, .PCX_FRY_STAT, .PCX_MSIP, .PTM_DOM_PWR, .RDC_HP_CLR,
    .RDC_HP_STAT] [.kpr, .out, .rdc, .svc] false s t ∧ Answered n eOk [] s t ∧ t.hpPwr (nbits (s.req n 4) 3 0) = nbits (s.req n 4) 17 16) ∧
  (∀ (s : State) (n : Fin 8), s.mayServe n 0x0104 (clsA ||| clsS) false → s.mode = mService → s.inPass (nbits (s.req n 4) 3 0) = false → nbits (s.req n 4) 17
    16 = pwActive → Completes (.hpPwrSet n) s fun t => ChangesOnly [.PCX_FRY_RES, .PCX_FRY_KCTL, .PCX_FRY_STAT, .PCX_MSIP] [.kpr, .out] false s t ∧
    Answered n eArg [] s t) ∧
  (∀ (s : State) (n : Fin 8), s.mayServe n 0x0104 (clsA ||| clsS) false → s.mode ≠ mService → Completes (.hpPwrSet n) s fun t => ChangesOnly [.PCX_FRY_RES,
    .PCX_FRY_KCTL, .PCX_FRY_STAT, .PCX_MSIP] [.kpr, .out] false s t ∧ Answered n eState [] s t)

/-- MAP_COMMIT, in SERVICE with a staged map that passes its check and fits, writes the map, enables it and keeps a copy; BAND_UPDATE, BAND_UNREACH and
BAND_RELOCATE rewrite a band record with its CRC and copy the map; HEAD_RETIRE puts the fit spare into the slot of a failed head, as the Keeper does by
itself; REBUILD_ADVANCE moves the watermark; HEAD_GET answers a head's state. (The band commands are stated for records that pass their CRC; HEAD_RETIRE
for a head already FAILED.) A watermark past the last band ends the rebuild. -/
def Obligations.FerryMap : Prop :=
  (∀ (s : State) (n : Fin 8) (size : Word), s.mayServe n 0x0201 (clsA ||| clsS) false → s.mode = mService → s.dramOk (s.reqAddr n 4) ((wf
    SVE_CMAP_CFG.LAST_BAND (s.req n 6) + 1) * 128 + 16 * (wf SVE_CMAP_CFG.ZONES_M1 (s.req n 6) + 1)) = true → s.stagedOk (s.reqAddr n 4) (wf
    SVE_CMAP_CFG.LAST_BAND (s.req n 6)) (wf SVE_CMAP_CFG.ZONES_M1 (s.req n 6) + 1) = true → size.toNat ≤ 262144 → Completes (.mapCommit n size) s fun t =>
    ChangesOnly [.BMU_EVB_STAT, .BMU_STAT, .PCX_FRY_KCTL, .PCX_FRY_RES, .PCX_FRY_STAT, .PCX_MSIP, .PCX_PROT_ATTR, .PCX_PROT_BASE, .PCX_PROT_LIMIT,
    .PCX_PROT_STAT, .SVE_CMAP_BASE, .SVE_CMAP_CFG] [.bmu, .cqe, .fcu, .kpr, .out, .pcx] true s t ∧ Answered n eOk [size.toNat] s t ∧ t.reg .SVE_CMAP_CFG 0
    = BitVec.ofNat 64 (s.req n 6) ∧ t.get SVE_CMAP_BASE.ADDR 0 = s.mapHome / 4096 % 2 ^ 28 ∧ t.kpr.mapSeq = s.kpr.mapSeq + 1) ∧
  (∀ (s : State) (n : Fin 8) (size : Word), s.mayServe n 0x0202 clsA false → nbits (s.req n 4) 15 0 ≤ s.get SVE_CMAP_CFG.LAST_BAND 0 → nbits (s.req n 5) 2 0 ≤
    5 → entValid (s.recEntry (nbits (s.req n 4) 15 0) (nbits (s.req n 4) 17 16) (nbits (s.req n 5) 2 0)) = true → s.recOk (nbits (s.req n 4) 15 0) (nbits
    (s.req n 4) 17 16) = true → s.accessFault .keeper atWrite (s.recAddr (nbits (s.req n 4) 15 0) (nbits (s.req n 4) 17 16)) 32 = none → size.toNat ≤
    262144 → Completes (.bandUpdate ⟨n, size⟩) s fun t => ChangesOnly [.BMU_EVB_STAT, .BMU_STAT, .PCX_FRY_KCTL, .PCX_FRY_RES, .PCX_FRY_STAT, .PCX_MSIP,
    .PCX_PROT_STAT] [.bmu, .fcu, .kpr, .out] true s t ∧ Answered n eOk [] s t ∧ nbits (t.recEntry (nbits (s.req n 4) 15 0) (nbits (s.req n 4) 17 16) (nbits
    (s.req n 5) 2 0)) 11 0 = nbits (s.req n 6) 11 0 ∧ t.recOk (nbits (s.req n 4) 15 0) (nbits (s.req n 4) 17 16) = true ∧ t.kpr.mapSeq = s.kpr.mapSeq + 1) ∧
  (∀ (s : State) (n : Fin 8) (size : Word), s.mayServe n 0x0203 clsA false → nbits (s.req n 4) 15 0 ≤ s.get SVE_CMAP_CFG.LAST_BAND 0 → hdrValid (s.recHdr
    (nbits (s.req n 4) 15 0) (nbits (s.req n 4) 17 16)) = true → s.recOk (nbits (s.req n 4) 15 0) (nbits (s.req n 4) 17 16) = true → s.accessFault .keeper
    atWrite (s.recAddr (nbits (s.req n 4) 15 0) (nbits (s.req n 4) 17 16)) 32 = none → size.toNat ≤ 262144 → Completes (.bandUnreach ⟨n, size⟩) s fun t =>
    ChangesOnly [.BMU_EVB_STAT, .BMU_STAT, .PCX_FRY_KCTL, .PCX_FRY_RES, .PCX_FRY_STAT, .PCX_MSIP, .PCX_PROT_STAT] [.bmu, .fcu, .kpr, .out, .sve] true s t ∧
    Answered n eOk [] s t ∧ nbit (t.recHdr (nbits (s.req n 4) 15 0) (nbits (s.req n 4) 17 16)) 30 = nbit (s.req n 5) 0 ∧ t.recOk (nbits (s.req n 4) 15 0)
    (nbits (s.req n 4) 17 16) = true) ∧
  (∀ (s : State) (n : Fin 8) (b a c : Nat) (size : Word), s.mayServe n 0x0204 clsA false → b = nbits (s.req n 4) 15 0 → a = nbits (s.req n 4) 17 16 → c =
    nbits (s.req n 5) 15 0 → b ≤ s.get SVE_CMAP_CFG.LAST_BAND 0 → c ≤ s.get SVE_CMAP_CFG.LAST_BAND 0 → b ≠ c → hdrValid (s.recHdr b a) = true → nbit
    (s.recHdr c a) 28 = true → s.spareBand b = c → nbit (s.recHdr c a) 27 = false → s.recOk b a = true → s.recOk c a = true → s.accessFault .keeper atWrite
    (s.recAddr b a) 32 = none → s.accessFault .keeper atWrite (s.recAddr c a) 32 = none → size.toNat ≤ 262144 → Completes (.bandRelocate ⟨n, size⟩) s fun t
    => ChangesOnly [.BMU_EVB_STAT, .BMU_STAT, .PCX_FRY_KCTL, .PCX_FRY_RES, .PCX_FRY_STAT, .PCX_MSIP, .PCX_PROT_STAT] [.bmu, .fcu, .kpr, .out, .sve] true s
    t ∧ Answered n eOk [] s t ∧ nbit (t.recHdr b a) 29 = true ∧ nbits (t.recHdr b a) 15 0 = c ∧ nbit (t.recHdr c a) 27 = true ∧ nbits (t.recHdr c a) 15 0 =
    b ∧ t.recOk b a = true ∧ t.recOk c a = true) ∧
  (∀ (s : State) (n : Fin 8) (h p arm : Nat), s.mayServe n 0x0205 (clsA ||| clsS) false → h = nbits (s.req n 4) 4 0 → s.pathOfHead h = some p → s.headState h
    = hFailed → s.fitSpare (h / 6) = some arm → arm < 6 → Completes (.headRetire n) s fun t => ChangesOnly [.PCX_FRY_RES, .PCX_FRY_KCTL, .PCX_FRY_STAT,
    .PCX_MSIP, .SVE_SLOT_MAP, .SVE_HEAD_STATE, .SVE_REBUILD, .RDC_LANE_STAT, .RDC_HP_STAT] [.kpr, .rdc, .out] false s t ∧ Answered n eOk [arm] s t ∧
    t.headState h = hRetired ∧ t.headState (6 * (h / 6) + arm) = hInSlot ∧ t.get SVE_REBUILD.ACTIVE (h / 6) = 1 ∧ t.pathOfHead (6 * (h / 6) + arm) = some p) ∧
  (∀ (s : State) (n : Fin 8) (h p arm : Nat), s.mayServe n 0x0205 (clsA ||| clsS) false → h = nbits (s.req n 4) 4 0 → s.pathOfHead h = some p → s.headState h
    = hInSlot ∨ s.headState h = hDegraded → s.fitSpare (h / 6) = some arm → arm < 6 → s.normalService = true → Completes (.headRetire n) s fun t =>
    Answered n eOk [arm] s t ∧ t.headState h = hRetired ∧ t.headState (6 * (h / 6) + arm) = hInSlot ∧ t.get SVE_REBUILD.ACTIVE (h / 6) = 1 ∧ t.pathOfHead
    (6 * (h / 6) + arm) = some p) ∧
  (∀ (s : State) (n : Fin 8) (a w : Nat), s.mayServe n 0x0206 clsA false → a = nbits (s.req n 4) 1 0 → w = nbits (s.req n 5) 15 0 → s.get SVE_REBUILD.ACTIVE a
    = 1 → s.get SVE_REBUILD.WMARK a ≤ w → w ≤ s.get SVE_CMAP_CFG.LAST_BAND 0 + 1 → (s.tableBands.all (fun b => decide (b < w)) = true) → Completes
    (.rebuildAdvance n) s fun t => ChangesOnly [.ALM_STAT, .PCX_FRY_KCTL, .PCX_FRY_RES, .PCX_FRY_STAT, .PCX_MSIP, .SVE_REBUILD] [.alm, .kpr, .out] false s
    t ∧ Answered n eOk [] s t ∧ t.get SVE_REBUILD.WMARK a = w % 65536 ∧ t.get SVE_REBUILD.ACTIVE a = 0) ∧
  (∀ (s : State) (n : Fin 8) (a w : Nat), s.mayServe n 0x0206 clsA false → a = nbits (s.req n 4) 1 0 → w = nbits (s.req n 5) 15 0 → s.get SVE_REBUILD.ACTIVE a
    = 1 → s.get SVE_REBUILD.WMARK a ≤ w → w ≤ s.get SVE_CMAP_CFG.LAST_BAND 0 + 1 → (∃ b ∈ s.tableBands, w ≤ b) → Completes (.rebuildAdvance n) s fun t =>
    ChangesOnly [.ALM_STAT, .PCX_FRY_KCTL, .PCX_FRY_RES, .PCX_FRY_STAT, .PCX_MSIP, .SVE_REBUILD] [.alm, .kpr, .out] false s t ∧ Answered n eOk [] s t ∧
    t.get SVE_REBUILD.WMARK a = w ∧ t.get SVE_REBUILD.ACTIVE a = 1) ∧
  (∀ (s : State) (n : Fin 8), s.mayServe n 0x0207 clsAll false → nbits (s.req n 4) 4 0 < 24 → Completes (.headGet n) s fun t => ChangesOnly [.PCX_FRY_RES,
    .PCX_FRY_KCTL, .PCX_FRY_STAT, .PCX_MSIP] [.kpr, .out] false s t ∧ Answered n eOk [s.regValue .keeper .SVE_HEAD_STATE (nbits (s.req n 4) 4 0) % 2 ^ 32,
    s.regValue .keeper .SVE_SLOT_MAP (nbits (s.req n 4) 4 0 / 6) % 2 ^ 32, s.regValue .keeper .SVE_REBUILD (nbits (s.req n 4) 4 0 / 6) % 2 ^ 32] s t) ∧
  (∀ (s : State) (h : Fin 24) (p arm : Nat), s.pathOfHead h = some p → s.headState h = hFailed → (s.kpr.failedSince.any (fun e => e.1 == h.val && decide (e.2
    + 10 * tickSec ≤ s.ptm.ticks)) = true) → s.get PCX_KPR_STAT.RESTART 0 = 0 → s.fitSpare (h / 6) = some arm → arm < 6 → Completes (.keeperAutoRetire h) s
    fun t => ChangesOnly [.SVE_SLOT_MAP, .SVE_HEAD_STATE, .SVE_REBUILD, .RDC_LANE_STAT, .RDC_HP_STAT] [.kpr, .rdc] false s t ∧ t.headState h = hRetired ∧
    t.headState (6 * (h / 6) + arm) = hInSlot ∧ t.get SVE_REBUILD.ACTIVE (h / 6) = 1 ∧ t.kpr.failedSince.any (fun e => e.1 == h.val) = false)

/-- BANK_WRITE writes coefficient words of an inactive or active bank, BANK_COMMIT commits a bank; SVE_WRITE, SPN_WRITE, SPL_WRITE and SVC_WRITE write a
register under a mask and answer what it then reads; SPIN starts or stops the spindle; ORR_SET writes the Orrery's configuration; PLAN_STAGE stages plan
entries, PLAN_SUBMIT adopts the staged plan under a new version, PLAN_GET answers the adopted plan. Whatever a register does on a write or a read, the
command does both, in that order, and answers what it then reads. -/
def Obligations.FerryTransit : Prop :=
  (∀ (s : State) (n : Fin 8) (u b i k : Nat), s.mayServe n 0x0301 (clsA ||| clsS) false → u = nbits (s.req n 4) 27 24 → b = nbits (s.req n 4) 21 20 → i =
    nbits (s.req n 4) 6 0 → k = nbits (s.req n 5) 5 0 → u ≤ 11 → 0 < k → k ≤ 56 → i + k ≤ 87 → Completes (.bankWrite n) s fun t => ChangesOnly
    [.PCX_FRY_KCTL, .PCX_FRY_RES, .PCX_FRY_STAT, .PCX_MSIP, .SVE_COEF] [.kpr, .out] false s t ∧ Answered n eOk [] s t ∧ ∀ j < k, t.get SVE_COEF.W ((u * 4 +
    b) * 128 + i + j) = s.req n (6 + j)) ∧
  (∀ (s : State) (n : Fin 8) (u : Nat), s.mayServe n 0x0302 (clsA ||| clsS) false → u = nbits (s.req n 4) 27 24 → 12 ≤ u → Completes (.bankCommit n) s fun t
    => ChangesOnly [.PCX_FRY_RES, .PCX_FRY_KCTL, .PCX_FRY_STAT, .PCX_MSIP] [.kpr, .out] false s t ∧ Answered n eArg [] s t) ∧
  (∀ (s : State) (n : Fin 8) (u : Nat) (b : Fin 4), s.mayServe n 0x0302 (clsA ||| clsS) false → u = nbits (s.req n 4) 27 24 → u ≤ 11 → nbits (s.req n 4) 3 0 =
    2 ^ b.val → s.get SVE_CLU_CTL.COMMIT u = 0 → s.get SVE_CLU_CTL.BANK_ERR u = 0 → ((bankOf fun i => s.get SVE_COEF.W ((u * 4 + b) * 128 + i)).inverted =
    false) → (∀ i < 16, s.on SVE_NOTCH_CTL.EN i = false) → Completes (.bankCommit n) s fun t => ChangesOnly [.PCX_FRY_RES, .PCX_FRY_KCTL, .PCX_FRY_STAT,
    .PCX_MSIP, .SVE_CLU_CTL] [.kpr, .out, .sve] false s t ∧ Answered n eOk [s.regValue .keeper .SVE_CLU_CTL u] s t ∧ ∀ i < 128, t.bankWord u b i = s.get
    SVE_COEF.W ((u * 4 + b) * 128 + i)) ∧
  (∀ (s : State) (n : Fin 8) (r : RegName) (i old : Nat) (hi : Bool) (t0 : State), s.mayServe n 0x0303 (clsA ||| clsS) false → s.req n 4 < 0x100000 →
    regWordAt (12 * 0x100000 + s.req n 4) = some (r, i, hi) → sveWritable r = true → s.regDown r i = none → old = s.wordValue .keeper (r, i, hi) → t0 =
    (all [wordReadFx .keeper (r, i, hi), wordWrite .keeper (r, i, hi) ((s.req n 5 &&& s.req n 6) ||| (old - (old &&& s.req n 6)))] : Prog).run s →
    Completes (.sveWrite n) s fun t => t = (Prog.seq (wordReadFx .keeper (r, i, hi)) (ferryOk n [t0.wordValue .keeper (r, i, hi)])).run t0) ∧
  (∀ (s : State) (n : Fin 8) (r : RegName) (i old : Nat) (hi : Bool) (t0 : State), s.mayServe n 0x0402 (clsA ||| clsS) false → s.req n 4 < 0x100000 →
    regWordAt (13 * 0x100000 + s.req n 4) = some (r, i, hi) → s.regDown r i = none → old = s.wordValue .keeper (r, i, hi) → t0 = (all [wordReadFx .keeper
    (r, i, hi), wordWrite .keeper (r, i, hi) ((s.req n 5 &&& s.req n 6) ||| (old - (old &&& s.req n 6)))] : Prog).run s → Completes (.spnWrite n) s fun t
    => t = (Prog.seq (wordReadFx .keeper (r, i, hi)) (ferryOk n [t0.wordValue .keeper (r, i, hi)])).run t0) ∧
  (∀ (s : State) (n : Fin 8) (r : RegName) (i old : Nat) (hi : Bool) (t0 : State), s.mayServe n 0x0501 (clsA ||| clsM ||| clsS) false → s.req n 4 < 0x100000 →
    regWordAt (15 * 0x100000 + s.req n 4) = some (r, i, hi) → s.regDown r i = none → old = s.wordValue .keeper (r, i, hi) → t0 = (all [wordReadFx .keeper
    (r, i, hi), wordWrite .keeper (r, i, hi) ((s.req n 5 &&& s.req n 6) ||| (old - (old &&& s.req n 6)))] : Prog).run s → Completes (.splWrite n) s fun t
    => t = (Prog.seq (wordReadFx .keeper (r, i, hi)) (ferryOk n [t0.wordValue .keeper (r, i, hi)])).run t0) ∧
  (∀ (s : State) (n : Fin 8) (r : RegName) (i old : Nat) (hi : Bool) (t0 : State), s.mayServe n 0x0701 (clsA ||| clsS) false → s.req n 4 < 0x100000 →
    regWordAt (3 * 0x100000 + s.req n 4) = some (r, i, hi) → s.regDown r i = none → old = s.wordValue .keeper (r, i, hi) → t0 = (all [wordReadFx .keeper
    (r, i, hi), wordWrite .keeper (r, i, hi) ((s.req n 5 &&& s.req n 6) ||| (old - (old &&& s.req n 6)))] : Prog).run s → Completes (.svcWrite n) s fun t
    => t = (Prog.seq (wordReadFx .keeper (r, i, hi)) (ferryOk n [t0.wordValue .keeper (r, i, hi)])).run t0) ∧
  (∀ (s : State) (n : Fin 8) (r : RegName) (i m old : Nat), s.mayServe n 0x0303 (clsA ||| clsS) false → s.req n 4 < 0x100000 → regWordAt (12 * 0x100000 +
    s.req n 4) = some (r, i, false) → r ∈ [RegName.SVE_RAMP_CFG, .SVE_SETTLE_CFG] → s.regDown r i = none → m = s.req n 6 → old = s.regValue .keeper r i % 2
    ^ 32 → Completes (.sveWrite n) s fun t => ChangesOnly [.PCX_FRY_RES, .PCX_FRY_KCTL, .PCX_FRY_STAT, .PCX_MSIP, .SVE_RAMP_CFG, .SVE_SETTLE_CFG] [.kpr,
    .out] false s t ∧ Answered n eOk [t.regValue .keeper r i % 2 ^ 32] s t ∧ t.reg r i = written r true (s.lockBit 12) (s.reg r i) ((s.req n 5 &&& m) |||
    (old - (old &&& m)))) ∧
  (∀ (s : State) (n : Fin 8) (r : RegName) (i m old : Nat), s.mayServe n 0x0402 (clsA ||| clsS) false → s.req n 4 < 0x100000 → regWordAt (13 * 0x100000 +
    s.req n 4) = some (r, i, false) → r ∈ [RegName.SPN_LIM, .SPN_SU_CFG] → s.regDown r i = none → m = s.req n 6 → old = s.regValue .keeper r i % 2 ^ 32 →
    Completes (.spnWrite n) s fun t => ChangesOnly [.PCX_FRY_RES, .PCX_FRY_KCTL, .PCX_FRY_STAT, .PCX_MSIP, .SPN_LIM, .SPN_SU_CFG] [.kpr, .out] false s t ∧
    Answered n eOk [t.regValue .keeper r i % 2 ^ 32] s t ∧ t.reg r i = written r true (s.lockBit 13) (s.reg r i) ((s.req n 5 &&& m) ||| (old - (old &&&
    m)))) ∧
  (∀ (s : State) (n : Fin 8) (r : RegName) (i m old : Nat), s.mayServe n 0x0501 (clsA ||| clsM ||| clsS) false → s.req n 4 < 0x100000 → regWordAt (15 *
    0x100000 + s.req n 4) = some (r, i, false) → r ∈ [RegName.SPL_MER_CFG, .SPL_FW_CFG] → s.regDown r i = none → m = s.req n 6 → old = s.regValue .keeper r
    i % 2 ^ 32 → Completes (.splWrite n) s fun t => ChangesOnly [.PCX_FRY_RES, .PCX_FRY_KCTL, .PCX_FRY_STAT, .PCX_MSIP, .SPL_MER_CFG, .SPL_FW_CFG] [.kpr,
    .out] false s t ∧ Answered n eOk [t.regValue .keeper r i % 2 ^ 32] s t ∧ t.reg r i = written r true (s.lockBit 15) (s.reg r i) ((s.req n 5 &&& m) |||
    (old - (old &&& m)))) ∧
  (∀ (s : State) (n : Fin 8) (r : RegName) (i m old : Nat), s.mayServe n 0x0701 (clsA ||| clsS) false → s.req n 4 < 0x100000 → regWordAt (3 * 0x100000 + s.req
    n 4) = some (r, i, false) → r ∈ [RegName.SVC_SVY_CFG, .SVC_PTL_CFG] → s.regDown r i = none → m = s.req n 6 → old = s.regValue .keeper r i % 2 ^ 32 →
    Completes (.svcWrite n) s fun t => ChangesOnly [.PCX_FRY_RES, .PCX_FRY_KCTL, .PCX_FRY_STAT, .PCX_MSIP, .SVC_SVY_CFG, .SVC_PTL_CFG] [.kpr, .out] false s
    t ∧ Answered n eOk [t.regValue .keeper r i % 2 ^ 32] s t ∧ t.reg r i = written r true (s.lockBit 3) (s.reg r i) ((s.req n 5 &&& m) ||| (old - (old &&&
    m)))) ∧
  (∀ (s : State) (n : Fin 8), s.mayServe n 0x0401 (clsA ||| clsM ||| clsS) false → nbit (s.req n 4) 1 = true → s.spinMay (nbit (s.req n 4) 0) true = true →
    Completes (.spin n) s fun t => ChangesOnly [.BMU_EVB_STAT, .BMU_STAT, .PCX_FRY_KCTL, .PCX_FRY_RES, .PCX_FRY_STAT, .PCX_MSIP, .PCX_PROT_STAT,
    .SPN_ORR_STAT, .SPN_STAT, .WRC_RWL_CTL, .WRC_RWL_PTR, .WRC_WR_STAT, .WRC_WUS_STAT] [.bmu, .fcu, .kpr, .out, .spn, .wrc] true s t ∧ Answered n eOk
    [t.regValue .keeper .SPN_STAT 0] s t ∧ s.spn? = spAccel ∨ s.spn? = spRun ∨ s.spn? = spChange → t.spn? = spBrake) ∧
  (∀ (s : State) (n : Fin 8), s.mayServe n 0x0401 (clsA ||| clsM ||| clsS) false → nbit (s.req n 4) 1 = false → nbit (s.req n 4) 0 = true → s.spn? = spOff ∨
    s.spn? = spBrake ∨ s.spn? = spShort → Completes (.spin n) s fun t => ChangesOnly [.BMU_EVB_STAT, .BMU_STAT, .PCX_FRY_KCTL, .PCX_FRY_RES, .PCX_FRY_STAT,
    .PCX_MSIP, .PCX_PROT_STAT, .SPN_ORR_STAT, .SPN_STAT, .WRC_RWL_CTL, .WRC_RWL_PTR, .WRC_WR_STAT, .WRC_WUS_STAT] [.bmu, .fcu, .kpr, .out, .spn, .wrc] true
    s t ∧ Answered n eOk [t.regValue .keeper .SPN_STAT 0] s t ∧ (s.spn? = spBrake → t.spn? = spAccel) ∧ (s.spn? = spShort → t.spn.startPend = true) ∧
    (s.spn? = spOff → s.spn.rotor = 0 → s.get SPN_MOTOR.POLES 0 ≠ 0 → t.spn? = spSense)) ∧
  (∀ (s : State) (n : Fin 8), s.mayServe n 0x0403 (clsA ||| clsM ||| clsS) false → Completes (.orrSet n) s fun t => ChangesOnly [.PCX_FRY_RES, .PCX_FRY_KCTL,
    .PCX_FRY_STAT, .PCX_MSIP, .SPN_ORR_CFG, .SPN_ORR_STAT] [.spn, .kpr, .out] false s t ∧ Answered n eOk [] s t ∧ t.get SPN_ORR_CFG.EN 0 = getBits
    (BitVec.ofNat 64 (s.req n 4)) SPN_ORR_CFG.EN.hi SPN_ORR_CFG.EN.lo) ∧
  (∀ (s : State) (n : Fin 8) (m k : Nat) (es : List Nat), s.mayServe n 0x0404 (clsA ||| clsM ||| clsS) false → planRange (s.req n 4) = some (m, k) → (es =
    (wordsBytes ((List.range 56).map fun i => s.req n (5 + i))).take k) → Completes (.planStage n) s fun t => ChangesOnly [.PCX_FRY_KCTL, .PCX_FRY_RES,
    .PCX_FRY_STAT, .PCX_MSIP, .SPL_PLAN_TX] [.kpr, .out] false s t ∧ Answered n eOk [] s t ∧ (∀ j < k, t.get SPL_PLAN_TX.W ((m + j) / 4) / 2 ^ (8 * ((m +
    j) % 4)) % 256 = es.getD j 0 % 256) ∧ ∀ j < 512, (j < m ∨ m + k ≤ j) → t.get SPL_PLAN_TX.W (j / 4) / 2 ^ (8 * (j % 4)) % 256 = s.get SPL_PLAN_TX.W (j /
    4) / 2 ^ (8 * (j % 4)) % 256) ∧
  (∀ (s : State) (n : Fin 8), s.mayServe n 0x0405 (clsA ||| clsM ||| clsS) false → s.splState = mbMember → Completes (.planSubmit n) s fun t => ChangesOnly
    [.PCX_FRY_KCTL, .PCX_FRY_RES, .PCX_FRY_STAT, .PCX_MSIP, .SPL_PLAN, .SPL_PLAN_CTL] [.kpr, .out, .spl] false s t ∧ Answered n eOk [t.get SPL_PLAN_CTL.VER
    0] s t ∧ t.get SPL_PLAN_CTL.VER 0 = (if s.get SPL_PLAN_CTL.VER 0 = 65535 then 1 else s.get SPL_PLAN_CTL.VER 0 + 1) ∧ ∀ i < 128, t.get SPL_PLAN.W i =
    s.get SPL_PLAN_TX.W i) ∧
  (∀ (s : State) (n : Fin 8) (m k : Nat), s.mayServe n 0x0406 clsAll false → planRange (s.req n 4) = some (m, k) → Completes (.planGet n) s fun t =>
    ChangesOnly [.PCX_FRY_KCTL, .PCX_FRY_RES, .PCX_FRY_STAT, .PCX_MSIP] [.kpr, .out] false s t ∧ Answered n eOk ([s.get SPL_PLAN_CTL.VER 0, s.get
    SPL_PLAN_CTL.PLAN_ORIGIN 0] ++ (List.range ((k + 3) / 4)).map (bytesWords ((s.planEntries.drop m).take k))) s t)

/-- ARCH_STATUS answers the member's registers; RELAY_REQ queues a request of version 2 and waits for its result; RELAY_CFG sets the agent's configuration;
CAL_RUN starts a run that Table 21.3 allows; CAL_STATUS answers an item's state; SVY_RESULT answers a record and counts it as read; SVY_FULL arms or starts
a full test; ALM_GRANT, ALM_CLEAR and ALM_SUMMARY act on the Almanac. -/
def Obligations.FerryArchipelago : Prop :=
  (∀ (s : State) (n : Fin 8), s.mayServe n 0x0502 clsAll false → Completes (.archStatus n) s fun t => ChangesOnly [.PCX_FRY_RES, .PCX_FRY_KCTL, .PCX_FRY_STAT,
    .PCX_MSIP, .SPL_SIDE_STAT, .SPL_STAT, .SPL_MER_STAT, .SPL_FW_STAT, .SPL_MEMBERS] [.kpr, .out] false s t ∧ Answered n eOk (archRegs.map fun r =>
    s.regValue .keeper r.1 r.2 % 2 ^ 32) s t) ∧
  (∀ (s : State) (n : Fin 8), s.mayServe n 0x0503 (clsM ||| clsS) true → s.splState = mbMember → Completes (.relayReq n) s fun t => ChangesOnly
    [.PCX_FRY_KCTL, .PCX_FRY_RES, .PCX_FRY_STAT, .PCX_MSIP, .SPL_RLY_CTL, .SPL_RLY_TX] [.kpr, .out, .spl] false s t ∧ t.fySt n = fyTaken ∧ t.kpr.relaySeq =
    s.kpr.relaySeq + 1 ∧ t.kpr.relayOut = s.kpr.relayOut ++ [{ peer := nbits (s.req n 4) 8 0, xid := s.kpr.relaySeq % 256, total := 0, chan := n, time := s.ptm.ticks }]
    ∧ (n.val, wtRelay, s.kpr.relaySeq % 256) ∈ t.kpr.waiting ∧ (s.get SPL_RLY_CTL.TX_BUSY 0 = 1 → t.kpr.relayTx = s.kpr.relayTx ++ (relayFragments 0
    (s.kpr.relaySeq % 256) ((wordsBytes ((List.range 56).map fun i => s.req n (5 + i))).take (min 224 (s.req n 1 % 256 - 4)))).map (fun f => (nbits (s.req
    n 4) 8 0, f)))) ∧
  (∀ (s : State) (n : Fin 8), s.mayServe n 0x0504 (clsM ||| clsS) true → Completes (.relayCfg n) s fun t => ChangesOnly [.PCX_FRY_KCTL, .PCX_FRY_RES,
    .PCX_FRY_STAT, .PCX_MSIP] [.kpr, .out] false s t ∧ Answered n eOk [] s t ∧ t.kpr.relayCfg = s.req n 4) ∧
  (∀ (s : State) (n : Fin 8) (c i h : Nat), s.mayServe n 0x0601 (clsA ||| clsS) false → c = nbits (s.req n 4) 8 8 → i = nbits (s.req n 4) 7 0 → h = (if c = 1
    then nbits (s.req n 5) 4 0 else 0) → calItemExists c i = true → h ≤ 23 → s.calCond c i h = true → c = 0 ∨ i = 0 ∨ s.calLastOf (8 + 4 * h) = 2 →
    s.svc.calActive = false → Completes (.calRun n) s fun t => ChangesOnly [.PCX_FRY_RES, .PCX_FRY_KCTL, .PCX_FRY_STAT, .PCX_MSIP, .SVC_CAL_CTL,
    .SVC_CAL_STAT] [.kpr, .svc, .out] false s t ∧ Answered n eOk [] s t ∧ t.svc.calActive = true ∧ t.svc.calClass = c ∧ t.svc.calItem = i ∧ t.svc.calHead =
    h ∧ t.get SVC_CAL_CTL.BUSY 0 = 1) ∧
  (∀ (s : State) (n : Fin 8) (c i h : Nat), s.mayServe n 0x0602 (clsA ||| clsS) false → c = nbits (s.req n 4) 8 8 → i = nbits (s.req n 4) 7 0 → h = (if c = 1
    then nbits (s.req n 5) 4 0 else 0) → calItemExists c i = true → h ≤ 23 → Completes (.calStatus n) s fun t => ChangesOnly [.PCX_FRY_KCTL, .PCX_FRY_RES,
    .PCX_FRY_STAT, .PCX_MSIP] [.kpr, .out] false s t ∧ Answered n eOk ((if s.svc.calActive ∧ s.svc.calClass = c ∧ s.svc.calItem = i ∧ s.svc.calHead = h
    then 1 else s.calLastOf (calIndex c i h)) :: if n.val = 5 then [s.calWord (calIndex c i h) 4 % 65536, s.calWord (calIndex c i h) 5 % 2 ^ 24, s.calWord
    (calIndex c i h) 6 % 2 ^ 24] else []) s t) ∧
  (∀ (s : State) (n : Fin 8) (k : Nat), s.mayServe n 0x0702 (clsA ||| clsS ||| clsR) false → k = s.req n 4 → k ≤ 63 → Completes (.svyResult n) s fun t =>
    ChangesOnly [.PCX_FRY_KCTL, .PCX_FRY_RES, .PCX_FRY_STAT, .PCX_MSIP] [.kpr, .out, .svc] false s t ∧ Answered n eOk ((List.range 4).map fun w => s.get
    SVC_SVY_RES.W (4 * k + w)) s t ∧ t.svc = { s.svc with unread := s.svc.unread.filter (· != k) }) ∧
  (∀ (s : State) (n : Fin 8), s.mayServe n 0x0703 (clsA ||| clsS) false → nbit (s.req n 4) 0 = true → Completes (.svyFull n) s fun t => ChangesOnly
    [.PCX_FRY_KCTL, .PCX_FRY_RES, .PCX_FRY_STAT, .PCX_MSIP, .SVC_SVY_STAT] [.kpr, .out, .svc] false s t ∧ Answered n eOk [] s t ∧ t.get
    SVC_SVY_STAT.SHUT_ARM 0 = 1) ∧
  (∀ (s : State) (n : Fin 8), s.mayServe n 0x0703 (clsA ||| clsS) false → nbit (s.req n 4) 0 = false → s.mode = mService → s.svc.full = false → Completes
    (.svyFull n) s fun t => ChangesOnly [.PCX_FRY_KCTL, .PCX_FRY_RES, .PCX_FRY_STAT, .PCX_MSIP, .SVC_SVY_STAT] [.kpr, .out, .svc] false s t ∧ Answered n
    eOk [] s t ∧ t.svc.full = true ∧ t.svc.fInst = 0 ∧ t.svc.fRow = 0 ∧ t.get SVC_SVY_STAT.STATE 0 = 2) ∧
  (∀ (s : State) (n : Fin 8), s.mayServe n 0x0801 (clsM ||| clsS) false → Completes (.almGrant n) s fun t => ChangesOnly [.ALM_CFG, .PCX_FRY_KCTL,
    .PCX_FRY_RES, .PCX_FRY_STAT, .PCX_MSIP] [.kpr, .out] false s t ∧ Answered n eOk [] s t ∧ t.get ALM_CFG.APP_GRANT 0 = s.req n 4 % 2) ∧
  (∀ (s : State) (n : Fin 8), s.mayServe n 0x0802 clsS false → (s.kpr.nonces.any (fun e => e.1 == n.val && decide (s.ptm.ticks ≤ e.2.1 + nonceLife)) = true) →
    s.get ALM_STAT.CLEARING 0 = 0 → Completes (.almClear n true) s fun t => ChangesOnly [.ALM_OLDEST, .ALM_STAT] [.alm, .kpr] false s t ∧ t.get
    ALM_STAT.CLEARING 0 = 1 ∧ t.get ALM_OLDEST.N 0 = s.almNext ∧ (n.val, wtClear, 0) ∈ t.kpr.waiting ∧ t.fySt n = fyTaken ∧ ∀ e ∈ t.kpr.nonces, e.1 ≠ n) ∧
  (∀ (s : State) (n : Fin 8), s.mayServe n 0x0803 clsAll false → Completes (.almSummary n) s fun t => ChangesOnly [.PCX_FRY_RES, .PCX_FRY_KCTL, .PCX_FRY_STAT,
    .PCX_MSIP] [.kpr, .out] false s t ∧ Answered n eOk (s.almSummary (s.req n 4 % 16)) s t)

/-- FW_LOAD writes an image to the slot that is not active and answers what it holds, or AUTH where it does not verify, or ROLLBACK below the minimum SVN;
FW_COMMIT makes a valid part active at the next chip reset; FW_INFO answers the parts; CHALLENGE gives a fresh nonce; a signed command without a live nonce
or a good signature ends with AUTH; DEBUG_UNLOCK and DEBUG_LOCK open and close debug access; REG_READ, VLOG_GET and VLOG_PUT answer registers and log pages
and take a plan; a vendor command of NVMe-MI is posted on channel 4. A REG_READ of any registers that are up answers their words. -/
def Obligations.FerryImages : Prop :=
  (∀ (s : State) (n : Fin 8) (a l p : Nat), s.mayServe n 0x0901 (clsA ||| clsS) false → a = s.reqAddr n 5 → l = s.req n 7 → p = s.req n 4 % 2 → s.dramOk a l =
    true → 256 ≤ l → l ≤ partSize p → s.minSvnOf p ≤ s.headerSvn a → s.headerOk a p = true → Completes (.fwLoad n true) s fun t => ChangesOnly
    [.BMU_EVB_STAT, .BMU_STAT, .PCX_FRY_KCTL, .PCX_FRY_RES, .PCX_FRY_STAT, .PCX_MSIP, .PCX_PROT_STAT] [.bmu, .fcu, .kpr, .out] true s t ∧ Answered n eOk
    [s.idleSlot p, s.headerSvn a, s.memW (a + 8)] s t ∧ (t.fwPart (s.idleSlot p) p).map (fun f => (f.valid, f.active, f.svn)) = some (true, false,
    s.headerSvn a) ∧ t.memW (partAddr (s.idleSlot p) p) = s.memW a) ∧
  (∀ (s : State) (n : Fin 8) (a l p : Nat) (v : Bool), s.mayServe n 0x0901 (clsA ||| clsS) false → a = s.reqAddr n 5 → l = s.req n 7 → p = s.req n 4 % 2 →
    s.dramOk a l = true → 256 ≤ l → l ≤ partSize p → s.headerSvn a < s.minSvnOf p → Completes (.fwLoad n v) s fun t => ChangesOnly [.PCX_FRY_RES,
    .PCX_FRY_KCTL, .PCX_FRY_STAT, .PCX_MSIP] [.kpr, .out] false s t ∧ Answered n eRollback [] s t) ∧
  (∀ (s : State) (n : Fin 8) (p k : Nat), s.mayServe n 0x0902 (clsA ||| clsS) false → p = s.req n 4 % 2 → k = nbits (s.req n 4) 8 8 → nbit (s.req n 4) 16 =
    false → s.cqe.activating = false → (s.fwPart k p).any (·.valid) = true → Completes (.fwCommit n) s fun t => ChangesOnly [.PCX_FRY_RES, .PCX_FRY_KCTL,
    .PCX_FRY_STAT, .PCX_MSIP] [.kpr, .out] false s t ∧ Answered n eOk [] s t ∧ (p, k) ∈ t.kpr.fwNext) ∧
  (∀ (s : State) (n : Fin 8) (k : Nat), s.mayServe n 0x0902 (clsA ||| clsS) false → s.req n 4 % 2 = 1 → k = nbits (s.req n 4) 8 8 → nbit (s.req n 4) 16 = true
    → s.cqe.activating = false → (s.fwPart k 1).any (·.valid) = true → Completes (.fwCommit n) s fun t => ChangesOnly [.CQE_STAT, .PCX_FRY_KCTL,
    .PCX_FRY_RES, .PCX_FRY_STAT, .PCX_MSIP] [.cqe, .hif, .kpr, .out] false s t ∧ (1, k) ∈ t.kpr.fwNext ∧ t.fySt n = fyTaken ∧ (n.val, wtActivate, k) ∈
    t.kpr.waiting ∧ t.cqe.activating = true ∧ (t.port 0).pp = true ∧ (t.port 1).pp = true) ∧
  (∀ (s : State) (n : Fin 8), s.mayServe n 0x0903 clsAll false → Completes (.fwInfo n) s fun t => ChangesOnly [.PCX_FRY_KCTL, .PCX_FRY_RES, .PCX_FRY_STAT,
    .PCX_MSIP] [.kpr, .out] false s t ∧ Answered n eOk s.fwInfo s t) ∧
  (∀ (s : State) (n : Fin 8), s.mayServe n 0x0A07 (clsM ||| clsS) false → Completes (.challenge n) s fun t => ChangesOnly [.PCX_FRY_RES, .PCX_FRY_KCTL,
    .PCX_FRY_STAT, .PCX_MSIP] [.kpr, .out, .free] false s t ∧ t.fySt n = fyDone ∧ t.get PCX_FRY_STAT.ERR n = eOk ∧ (t.kpr.nonces.filter (fun e => e.1 ==
    n.val)).map (fun e => (e.2.1, e.2.2.length)) = [(s.ptm.ticks, 8)] ∧ t.freeCtr = s.freeCtr + 8) ∧
  (∀ (s : State) (n : Fin 8), s.mayServe n 0x0A08 clsS false → (s.kpr.nonces.any (fun e => e.1 == n.val && decide (s.ptm.ticks ≤ e.2.1 + nonceLife)) = true) →
    Completes (.debugUnlock n true) s fun t => ChangesOnly [.PCX_FRY_RES, .PCX_FRY_KCTL, .PCX_FRY_STAT, .PCX_MSIP, .PCX_DBG_STAT] [.kpr, .out] false s t ∧
    Answered n eOk [] s t ∧ t.get PCX_DBG_STAT.UNLOCKED 0 = 1 ∧ ∀ e ∈ t.kpr.nonces, e.1 ≠ n) ∧
  (∀ (s : State) (n : Fin 8) (ok : Bool), s.mayServe n 0x0A08 clsS false → (ok = false ∨ s.kpr.nonces.any (fun e => e.1 == n.val && decide (s.ptm.ticks ≤
    e.2.1 + nonceLife)) = false) → Completes (.debugUnlock n ok) s fun t => ChangesOnly [.PCX_FRY_RES, .PCX_FRY_KCTL, .PCX_FRY_STAT, .PCX_MSIP] [.kpr,
    .out] false s t ∧ Answered n eAuth [] s t ∧ ∀ e ∈ t.kpr.nonces, e.1 ≠ n) ∧
  (∀ (s : State) (n : Fin 8), s.mayServe n 0x0A09 (clsA ||| clsS) false → Completes (.debugLock n) s fun t => ChangesOnly [.PCX_FRY_RES, .PCX_FRY_KCTL,
    .PCX_FRY_STAT, .PCX_MSIP, .PCX_DBG_STAT] [.kpr, .out] false s t ∧ Answered n eOk [] s t ∧ t.get PCX_DBG_STAT.UNLOCKED 0 = 0) ∧
  (∀ (s : State) (n : Fin 8) (off i : Nat) (r : RegName), s.mayServe n 0x0B01 (clsM ||| clsS) false → s.reqAddr n 4 = regBase + off → off % 4 = 0 → off + 4 ≤
    0x1000000 → nbits (s.req n 6) 5 0 = 1 → regWordAt off = some (r, i, false) → s.regDown r i = none → (regInfo r).wide = false → r ∉
    [RegName.PTM_GPIO_IN, .PTM_HSW_LOG, .ALM_WIN, .ALM_CURSOR, .PCX_IRQ_CLAIM, .MPC_EVT_LOG, .RDC_NP_DATA, .SVE_DRIFT_LOG] → Completes (.regRead n) s fun t
    => Unchanged ((r, i) :: (List.range 64).map (fun k => (.PCX_FRY_RES, 64 * n.val + k)) ++ (List.range 8).flatMap fun k => [(.PCX_FRY_KCTL, k),
    (.PCX_FRY_STAT, k), (.PCX_MSIP, k)]) [.kpr, .out] [] s t ∧ Answered n eOk [s.regValue .keeper r i] s t) ∧
  (∀ (s : State) (n : Fin 8) (off k : Nat), s.mayServe n 0x0B01 (clsM ||| clsS) false → s.reqAddr n 4 = regBase + off → off % 4 = 0 → off + 4 * k ≤ 0x1000000
    → nbits (s.req n 6) 5 0 = k → 0 < k → k ≤ 56 → ((accessWords off (4 * k)).all (fun w => (s.wordDown w.2 w.1).isNone && w.2.all fun x => (regFields
    x.1).all (fun f => f.acc != .rc) && !(regInfo x.1).wide && !([RegName.PTM_GPIO_IN, .PTM_HSW_LOG, .ALM_WIN, .ALM_CURSOR, .PCX_IRQ_CLAIM, .MPC_EVT_LOG,
    .RDC_NP_DATA, .SVE_DRIFT_LOG, .PCX_FRY_RES].contains x.1)) = true) → Completes (.regRead n) s fun t => Answered n eOk ((accessWords off (4 * k)).map
    fun w => (w.2.map fun x => s.serviceWord n x).getD 0) s t) ∧
  (∀ (s : State) (n : Fin 8) (other d : List Byte), s.mayServe n 0x0B02 (clsA ||| clsM) false → 0xC0 ≤ s.req n 4 % 256 → s.req n 4 % 256 ≤ 0xC9 → (s.req n 4 %
    256 = 0xC5 → s.on ALM_CFG.APP_GRANT 0 = true) → d = ((s.logPage (s.req n 4 % 256) other).drop (s.req n 8)).take (s.req n 7) → s.bufferOk n (2 ^ 32) =
    true → Completes (.vlogGet n other) s fun t => ChangesOnly [.BMU_EVB_STAT, .BMU_STAT, .PCX_FRY_KCTL, .PCX_FRY_RES, .PCX_FRY_STAT, .PCX_MSIP,
    .PCX_PROT_STAT] [.bmu, .fcu, .kpr, .out] true s t ∧ Answered n eOk [d.length] s t ∧ (∀ a < d.length, s.accessFault .keeper atWrite (s.reqAddr n 5 + a)
    1 = none) → t.bytes (s.reqAddr n 5) d.length = d) ∧
  (∀ (s : State) (n : Fin 8), s.mayServe n 0x0B03 (clsA ||| clsM) false → s.req n 4 % 256 = 0xC3 → s.bufferOk n 516 = true → 4 ≤ s.req n 7 → s.splState =
    mbMember → Completes (.vlogPut n) s fun t => ChangesOnly [.PCX_FRY_KCTL, .PCX_FRY_RES, .PCX_FRY_STAT, .PCX_MSIP, .SPL_PLAN, .SPL_PLAN_CTL,
    .SPL_PLAN_TX] [.kpr, .out, .spl] false s t ∧ Answered n eOk [] s t) ∧
  (∀ (s : State) (ws : List Word), s.ptm.retention = false → s.fySt 4 = fyEmpty ∨ s.fySt 4 = fyDone → Completes (.miVendorCommand ws) s fun t => ChangesOnly
    [.PCX_FRY_STAT, .PCX_FRY_REQ, .PCX_FRY_RES] [.kpr] false s t ∧ t.fySt 4 = fyPosted ∧ t.get PCX_FRY_STAT.LAST_SEQ 4 = s.nextSeq 4 ∧ t.get PCX_FRY_REQ.W
    257 = (ws.map BitVec.toNat).getD 1 0 ∧ t.get PCX_FRY_REQ.W 256 = (ws.map BitVec.toNat).headD 0 / 256 * 256 + s.nextSeq 4)

/-- NS_CREATE takes the first free entry, a free key slot and the lowest free run of units, generates a key and answers the NSID and the size; NS_DELETE ends
VALID and waits, and the deletion's end frees the key slot, the units and the entry; NS_ATTACH sets the ports; NS_FORMAT sets the format; TCG_SEND locks
key slots on the service's behalf; TCG_RECV writes the service's answer to the buffer. A format that crosses generations ends with the new generation; a
TCG command whose effect the service decides takes a free value. -/
def Obligations.FerryNamespaces : Prop :=
  (∀ (s : State) (n : Fin 8) (base k slot : Nat), s.mayServe n 0x0A01 clsA false → s.reqAddr n 4 = 1 → s.req n 6 = 0x10002 → s.extentFor 1 = some base →
    s.freeEntry = some k → s.freeKeySlot = some slot → s.get MPC_KEY_STAT.DIRTY slot = 0 → Completes (.nsCreate n) s fun t => ChangesOnly [.PCX_FRY_RES,
    .PCX_FRY_KCTL, .PCX_FRY_STAT, .PCX_MSIP, .CQE_NS_CFG, .CQE_NS_BASE, .CQE_NS_ROWS, .MPC_KEY_STAT, .MPC_KEY_DATA, .MPC_KEY_CTL] [.kpr, .cqe, .mpc, .free,
    .out] false s t ∧ t.fySt n = fyDone ∧ t.get PCX_FRY_STAT.ERR n = eOk ∧ t.get PCX_FRY_RES.W (64 * n + 4) = k + 1 ∧ t.get CQE_NS_CFG.STATE k = 1 ∧ t.get
    CQE_NS_CFG.KSLOT k = slot ∧ t.get CQE_NS_BASE.UNIT k = base % 2 ^ 24 ∧ t.get CQE_NS_ROWS.UNITS k = 1 ∧ t.keyState slot = 2 ∧ t.freeCtr = s.freeCtr + 16) ∧
  (∀ (s : State) (n : Fin 8) (z w l u base k slot : Nat), s.mayServe n 0x0A01 clsA false → z = s.reqAddr n 4 → w = s.req n 6 → levelOf (nbits w 7 0) = some l
    → z ≠ 0 → nbits w 15 8 = 0 ∨ nbits w 15 8 = 2 → formatOk (nbits w 16 16) (nbits w 18 17) (nbits w 19 19) (nbits w 20 20) = true → u = ((z + levelD l -
    1) / levelD l + 256 * (if nbits w 15 8 = 2 then 16 else 1) - 1) / (256 * (if nbits w 15 8 = 2 then 16 else 1)) * (if nbits w 15 8 = 2 then 16 else 1) →
    s.extentFor u = some base → s.freeEntry = some k → s.freeKeySlot = some slot → Completes (.nsCreate n) s fun t => ChangesOnly [.PCX_FRY_RES,
    .PCX_FRY_KCTL, .PCX_FRY_STAT, .PCX_MSIP, .CQE_NS_CFG, .CQE_NS_BASE, .CQE_NS_ROWS, .MPC_KEY_STAT, .MPC_KEY_DATA, .MPC_KEY_CTL] [.kpr, .cqe, .mpc, .free,
    .out] false s t ∧ Answered n eOk [k + 1, 256 * u * levelD l % 2 ^ 32, 256 * u * levelD l / 2 ^ 32] s t ∧ t.get CQE_NS_CFG.STATE k = 1 ∧ t.get
    CQE_NS_CFG.KSLOT k = slot ∧ t.get CQE_NS_BASE.UNIT k = base % 2 ^ 24 ∧ t.get CQE_NS_ROWS.UNITS k = u % 2 ^ 24 ∧ t.get CQE_NS_CFG.LBAF k = nbits w 16 16
    ∧ t.get CQE_NS_CFG.ATT k = nbits (s.req n 7) 1 0 ∧ t.freeCtr = s.freeCtr + 16) ∧
  (∀ (s : State) (n : Fin 8) (k : Nat), s.mayServe n 0x0A02 clsA false → k = s.req n 4 - 1 → 0 < s.req n 4 → k < 128 → s.get CQE_NS_CFG.STATE k = 1 →
    Completes (.nsDelete n) s fun t => ChangesOnly [.CQE_NS_CFG] [.kpr] false s t ∧ t.get CQE_NS_CFG.STATE k = 2 ∧ t.fySt n = fyTaken ∧ (n.val, wtDelete,
    k) ∈ t.kpr.waiting) ∧
  (∀ (s : State) (k : Fin 128), s.get CQE_NS_CFG.STATE k = 2 → (s.cqe.cmds.any (fun c => c.ns == some k.val) = false) → s.get PCX_KPR_STAT.RESTART 0 = 0 →
    Completes (.namespaceDeleteFinish k) s fun t => t.get CQE_NS_CFG.STATE k = 0 ∧ t.keyState (s.get CQE_NS_CFG.KSLOT k) = 0 ∧ ∀ e ∈ t.kpr.vault, e.1 ≠ k) ∧
  (∀ (s : State) (k : Fin 128), s.get CQE_NS_CFG.STATE k = 2 → s.cqe.cmds = [] → s.kpr.waiting = [] → s.get PCX_KPR_STAT.RESTART 0 = 0 → Completes
    (.namespaceDeleteFinish k) s fun t => ChangesOnly [.BMU_BUDGET, .BMU_SLOT_STAT, .CQE_NS_CFG, .CQE_OVL_STAT, .CQE_STAT, .CQE_THROT, .MPC_KEY_CTL,
    .MPC_KEY_DATA, .MPC_KEY_STAT, .MPC_STAT] [.bmu, .cqe, .hif, .kpr, .mpc, .out] true s t ∧ t.get CQE_NS_CFG.STATE k = 0 ∧ t.keyState (s.get
    CQE_NS_CFG.KSLOT k) = 0 ∧ ∀ e ∈ t.kpr.vault, e.1 ≠ k) ∧
  (∀ (s : State) (n : Fin 8) (k : Nat), s.mayServe n 0x0A03 clsA false → k = s.req n 4 - 1 → 0 < s.req n 4 → k < 128 → s.get CQE_NS_CFG.STATE k = 1 →
    Completes (.nsAttach n) s fun t => ChangesOnly [.PCX_FRY_RES, .PCX_FRY_KCTL, .PCX_FRY_STAT, .PCX_MSIP, .CQE_NS_CFG] [.kpr, .out] false s t ∧ Answered n
    eOk [] s t ∧ t.get CQE_NS_CFG.ATT k = nbits (s.req n 5) 1 0) ∧
  (∀ (s : State) (n : Fin 8) (k w : Nat), s.mayServe n 0x0A04 clsA false → k = s.req n 4 - 1 → 0 < s.req n 4 → k < 128 → s.get CQE_NS_CFG.STATE k = 1 → w =
    s.req n 5 → nbit w 0 = false → formatOk (nbits w 1 1) (nbits w 3 2) (nbits w 4 4) (nbits w 5 5) = true → Completes (.nsFormat n) s fun t => ChangesOnly
    [.PCX_FRY_RES, .PCX_FRY_KCTL, .PCX_FRY_STAT, .PCX_MSIP, .CQE_NS_CFG] [.kpr, .cqe, .out] false s t ∧ Answered n eOk [] s t ∧ t.get CQE_NS_CFG.LBAF k =
    nbits w 1 1 ∧ t.get CQE_NS_CFG.PIT k = nbits w 3 2 ∧ t.get CQE_NS_CFG.PIL k = nbits w 4 4 ∧ t.get CQE_NS_CFG.EXT k = nbits w 5 5 ∧ (s.mode = mService →
    t.gensOf k = ((s.gensOf k).1, 0, 0))) ∧
  (∀ (s : State) (n : Fin 8) (k w : Nat), s.mayServe n 0x0A04 clsA false → k = s.req n 4 - 1 → 0 < s.req n 4 → k < 128 → s.get CQE_NS_CFG.STATE k = 1 → w =
    s.req n 5 → nbit w 0 = true → s.mode = mService ∨ (s.gensOf k).2.2 < 63 → formatOk (nbits w 1 1) (nbits w 3 2) (nbits w 4 4) (nbits w 5 5) = true →
    Completes (.nsFormat n) s fun t => Answered n eOk [] s t ∧ t.get CQE_NS_CFG.LBAF k = nbits w 1 1 ∧ t.get CQE_NS_CFG.PIT k = nbits w 3 2 ∧ t.gensOf k =
    (((s.gensOf k).1 + 1) % 64, min 63 ((if s.mode = mService then 0 else (s.gensOf k).2.1) + 1), (if s.mode = mService then 0 else (s.gensOf k).2.2) + 1)
    ∧ t.freeCtr = s.freeCtr + 16) ∧
  (∀ (s : State) (n : Fin 8) (acts : List TcgAct), s.mayServe n 0x0A05 clsA false → s.bufferOk n 65536 = true → Completes (.tcgSend n acts) s fun t => t.fySt
    n = fyDone ∧ t.get PCX_FRY_STAT.ERR n = eOk ∧ s.freeCtr < t.freeCtr) ∧
  (∀ (s : State) (n : Fin 8) (k : Fin 128), s.mayServe n 0x0A05 clsA false → s.bufferOk n 65536 = true → s.get CQE_NS_CFG.STATE k = 1 → s.keyState (s.get
    CQE_NS_CFG.KSLOT k) ≠ 0 → Completes (.tcgSend n [.lock k]) s fun t => ChangesOnly [.PCX_FRY_RES, .PCX_FRY_KCTL, .PCX_FRY_STAT, .PCX_MSIP, .MPC_KEY_CTL,
    .MPC_KEY_DATA, .MPC_KEY_STAT] [.kpr, .mpc, .free, .out] false s t ∧ t.fySt n = fyDone ∧ t.get PCX_FRY_STAT.ERR n = eOk ∧ t.keyState (s.get
    CQE_NS_CFG.KSLOT k) = 1 ∧ t.freeCtr = s.freeCtr + 1) ∧
  (∀ (s : State) (n : Fin 8) (k : Fin 128), s.mayServe n 0x0A05 clsA false → s.bufferOk n 65536 = true → s.get CQE_NS_CFG.STATE k = 1 → s.keyState (s.get
    CQE_NS_CFG.KSLOT k) ≠ 0 → Completes (.tcgSend n [.unlock k]) s fun t => ChangesOnly [.PCX_FRY_RES, .PCX_FRY_KCTL, .PCX_FRY_STAT, .PCX_MSIP,
    .MPC_KEY_CTL, .MPC_KEY_DATA, .MPC_KEY_STAT] [.kpr, .mpc, .free, .out] false s t ∧ t.fySt n = fyDone ∧ t.get PCX_FRY_STAT.ERR n = eOk ∧ t.keyState
    (s.get CQE_NS_CFG.KSLOT k) = 2 ∧ t.freeCtr = s.freeCtr + 1) ∧
  (∀ (s : State) (n : Fin 8) (data : List Byte), s.mayServe n 0x0A06 clsA false → s.bufferOk n 65536 = true → Completes (.tcgRecv n data) s fun t =>
    ChangesOnly [.BMU_EVB_STAT, .BMU_STAT, .PCX_FRY_KCTL, .PCX_FRY_RES, .PCX_FRY_STAT, .PCX_MSIP, .PCX_PROT_STAT] [.bmu, .fcu, .kpr, .out] true s t ∧
    Answered n eOk [(data.take (s.req n 7)).length] s t ∧ (∀ a < (data.take (s.req n 7)).length, s.accessFault .keeper atWrite (s.reqAddr n 5 + a) 1 =
    none) → t.bytes (s.reqAddr n 5) (data.take (s.req n 7)).length = data.take (s.req n 7))

/-- A cache maintenance operation of a core on a range of DRAM becomes busy with its line count: a clean leaves no dirty line in the range, an invalidate
leaves none at all, a clean and invalidate writes the dirty ones first; its end clears busy. A claim by the target's hart returns the source of highest
priority and marks it claimed; a completion unmarks it; a timer at or past its compare value interrupts; PCX_MSIP takes what the Keeper or the hart writes;
a commit by the Keeper takes the named regions' shadows into use, one by another master is denied. A read of TIME, MERFRAME or MERMODE without the right,
or a write, is an illegal instruction: the hart traps with cause 2 and nothing is returned; what mtval then holds is a free value (the model's reading,
assumption log 3). -/
def Obligations.CoreCaches : Prop :=
  (∀ (s : State) (m : Master) (n : BitVec 16), m.isCore = true → (s.cmo m).busy = false → s.dramOk (s.cmo m).addr (64 * (n.toNat + 1)) = true → Completes
    (.cmoClean m n) s fun t => ChangesOnly [] [.pcx, .bmu] true s t ∧ (t.cmo m).busy = true ∧ (t.cmo m).op = 0 ∧ (t.cmo m).lines = n.toNat ∧ (∀ l ∈
    t.pcx.l2, (s.cmo m).addr / 64 ≤ l.line ∧ l.line < (s.cmo m).addr / 64 + (n.toNat + 1) → l.dirty = false) ∧ t.pcx.l2.map (·.line) = s.pcx.l2.map
    (·.line)) ∧
  (∀ (s : State) (m : Master) (n : BitVec 16), m.isCore = true → (s.cmo m).busy = false → s.dramOk (s.cmo m).addr (64 * (n.toNat + 1)) = true → Completes
    (.cmoInvalidate m n) s fun t => Unchanged [] [.pcx] [] s t ∧ (t.cmo m).busy = true ∧ (t.cmo m).op = 1 ∧ (t.cmo m).lines = n.toNat ∧ (∀ l ∈ t.pcx.l2,
    ¬((s.cmo m).addr / 64 ≤ l.line ∧ l.line < (s.cmo m).addr / 64 + (n.toNat + 1)))) ∧
  (∀ (s : State) (m : Master) (n : BitVec 16), m.isCore = true → (s.cmo m).busy = false → s.dramOk (s.cmo m).addr (64 * (n.toNat + 1)) = true → Completes
    (.cmoCleanInvalidate m n) s fun t => ChangesOnly [] [.pcx, .bmu] true s t ∧ (t.cmo m).busy = true ∧ (t.cmo m).op = 2 ∧ (t.cmo m).lines = n.toNat ∧ (∀ l
    ∈ t.pcx.l2, ¬((s.cmo m).addr / 64 ≤ l.line ∧ l.line < (s.cmo m).addr / 64 + (n.toNat + 1)))) ∧
  (∀ (s : State) (m : Master), Completes (.cmoDone m) s fun t => Unchanged [] [.pcx] [] s t ∧ (t.cmo m) = { s.cmo m with busy := false }) ∧
  (∀ (s : State) (m : Master) (k : Fin 9), m = targetMaster k → Completes (.irqClaim m k) s fun t => Unchanged ([(.PCX_IRQ_SRC, s.irqBest k)]) [.out] [] s t ∧
    t.out = .data m.id (s.irqBest k) :: s.out ∧ (s.irqBest k ≠ 0 → t.get PCX_IRQ_SRC.CLAIMED (s.irqBest k) = 1)) ∧
  (∀ (s : State) (m : Master) (k : Fin 9), m ≠ targetMaster k → Completes (.irqClaim m k) s fun t => Unchanged [] [.out] [] s t ∧ t.out = .data m.id 0 ::
    s.out) ∧
  (∀ (s : State) (m : Master) (k : Fin 9) (i : Fin 128), m = targetMaster k → Completes (.irqComplete m k i) s fun t => Unchanged [(.PCX_IRQ_SRC, i)] [] [] s
    t ∧ t.get PCX_IRQ_SRC.CLAIMED i = 0) ∧
  (∀ (s : State) (h : Fin 5), s.get PCX_MTIMECMP.CMP h ≤ s.time → Completes (.machineTimer h) s fun t => Unchanged [] [.out] [] s t ∧ t.out = .event "machine
    timer interrupt" [h.val] :: s.out) ∧
  (∀ (s : State) (m : Master) (h : Fin 5) (v : Bool), m = .keeper ∨ masterHart m = some h.val → Completes (.msipWrite m h v) s fun t => Unchanged [(.PCX_MSIP,
    h)] [] [] s t ∧ t.get PCX_MSIP.MSIP h = b2n v) ∧
  (∀ (s : State) (mask : BitVec 64), Completes (.protCommit ⟨.keeper, mask⟩) s fun t => Unchanged [] [.pcx] [] s t ∧ ∀ r < 64, t.regionUsed r = if nbit
    mask.toNat r then s.regionShadow r else s.regionUsed r) ∧
  (∀ (s : State) (m : Master) (mask : BitVec 64), m ≠ .keeper → s.quiet 16 → Completes (.protCommit ⟨m, mask⟩) s fun t => Unchanged ((.BLK_LOCK, 4) ::
    countRegs 16) [.fcu] [] s t ∧ Denied m .PCX_PROT_COMMIT 0 s t) ∧
  (∀ (s : State) (h : Fin 5) (p : Fin 4) (mT sT w : Bool), csrAllowed p mT sT w = false → Completes (.timeCsrRead h p mT sT w) s fun t => Unchanged [] [.pcx,
    .free] [] s t ∧ (h.val, 2, Config.freeValue s.freeCtr) ∈ t.pcx.trap ∧ t.freeCtr = s.freeCtr + 1) ∧
  (∀ (s : State) (h : Fin 5) (p : Fin 4) (mT sT w : Bool), csrAllowed p mT sT w = false → Completes (.merframeRead h p mT sT w) s fun t => Unchanged [] [.pcx,
    .free] [] s t ∧ (h.val, 2, Config.freeValue s.freeCtr) ∈ t.pcx.trap ∧ t.freeCtr = s.freeCtr + 1) ∧
  (∀ (s : State) (h : Fin 5) (p : Fin 4) (mT sT w : Bool), csrAllowed p mT sT w = false → Completes (.mermodeRead h p mT sT w) s fun t => Unchanged [] [.pcx,
    .free] [] s t ∧ (h.val, 2, Config.freeValue s.freeCtr) ∈ t.pcx.trap ∧ t.freeCtr = s.freeCtr + 1)

/-- A kick with the key clears a watchdog, another value is counted; the first stage sets STAGE 1, the second, of an application core that leaves another
running, halts the core and counts its source; a pair whose cores differ halts; a Keeper write of RUN starts a core; a Keeper that fails begins a restart
and counts its source; the restart resumes from a valid checkpoint, RESUMED ends it, and one that does not end brings the safe state with cause 6. Accesses
that fail and atomics to registers trap; a hart reads TIME, MERFRAME and MERMODE where its mode may. A halt by the Keeper, by the watchdog or by a
miscompare leaves the core halted with its cause; a Keeper that fails in its restart brings the safe state with cause 6, and with no valid checkpoint
begins a warm BOOT; a core access that fails traps, as one that is poisoned does. Clauses without a frame state their effects under the conditions of
normal execution alone, whatever else follows in the same step. -/
def Obligations.CoreRunning : Prop :=
  (∀ (s : State) (m : Master) (h : Fin 5), masterHart m = some h.val → Completes (.watchdogKick m h 0xD1A5) s fun t => Unchanged [(.PCX_WDT_STAT, h)] [] [] s
    t ∧ t.get PCX_WDT_STAT.SINCE h = 0 ∧ t.get PCX_WDT_STAT.STAGE h = 0) ∧
  (∀ (s : State) (m : Master) (h : Fin 5) (v : Word), v.toNat ≠ 0xD1A5 ∨ masterHart m ≠ some h.val → Completes (.watchdogKick m h v) s fun t => Unchanged
    [(.PCX_WDT_STAT, h)] [] [] s t ∧ t.get PCX_WDT_STAT.BADKICK h = satAdd (s.get PCX_WDT_STAT.BADKICK h) 1 255 ∧ t.get PCX_WDT_STAT.SINCE h = s.get
    PCX_WDT_STAT.SINCE h) ∧
  (∀ (s : State) (h : Fin 5), s.wdtRuns h = true → s.get PCX_WDT_STAT.STAGE h = 0 → Completes (.watchdogStage1 h) s fun t => Unchanged [(.PCX_WDT_STAT, h)] []
    [] s t ∧ t.get PCX_WDT_STAT.STAGE h = 1 ∧ s.wdtTimeout h ≤ t.get PCX_WDT_STAT.SINCE h) ∧
  (∀ (s : State) (c : Fin 4), s.wdtRuns (1 + c) = true → s.get PCX_WDT_STAT.STAGE (1 + c) = 1 → s.split = false → (∃ k < 4, k ≠ c.val ∧ s.running k = true) →
    s.quiet (12 + c) → Completes (.watchdogStage2 c.succ) s fun t => Unchanged (countRegs (12 + c) ++ [(.PCX_WDT_STAT, 1 + c.val), (.PCX_CORE_STAT,
    c.val)]) [.pcx, .fcu] [] s t ∧ t.get PCX_WDT_STAT.STAGE (1 + c) = 2 ∧ t.get PCX_CORE_STAT.STATE c = 2 ∧ t.get PCX_CORE_STAT.CAUSE c = coreWatchdog ∧
    Counted (12 + c) (detail coreWatchdog) s t) ∧
  (∀ (s : State) (c : Fin 4), s.wdtRuns (1 + c) = true → s.get PCX_WDT_STAT.STAGE (1 + c) = 1 → s.quiet (12 + c) → Completes (.watchdogStage2 c.succ) s fun t
    => t.get PCX_WDT_STAT.STAGE (1 + c) = 2 ∧ t.get PCX_CORE_STAT.STATE c = 2 ∧ t.get PCX_CORE_STAT.CAUSE c = coreWatchdog ∧ t.get FCU_SRC_STAT.TOTAL (12 +
    c) = satAdd (s.get FCU_SRC_STAT.TOTAL (12 + c)) 1 255 ∧ ((∀ k < 4, t.running k = false) → s.ptm.retention = false → t.safe = true)) ∧
  (∀ (s : State), s.wdtRuns 0 = true → s.get PCX_WDT_STAT.STAGE 0 = 1 → s.quiet 11 → Completes (.watchdogStage2 0) s fun t => Unchanged ((.PCX_WDT_STAT, 0) ::
    (.PCX_KPR_STAT, 0) :: (.PCX_DBG_STAT, 0) :: countRegs 11) [.pcx, .fcu] [] s t ∧ t.get PCX_WDT_STAT.STAGE 0 = 2 ∧ t.get PCX_KPR_STAT.RESTART 0 = 1 ∧
    t.get PCX_KPR_STAT.RESTARTS 0 = satAdd (s.get PCX_KPR_STAT.RESTARTS 0) 1 255 ∧ t.pcx.kprStart = s.ptm.ticks ∧ Counted 11 { mid := 1, typ := 15, size := 15, addr := 0 }
    s t) ∧
  (∀ (s : State) (p : Fin 2), s.split = true → s.running (2 * p) = true → (∃ k < 4, k / 2 ≠ p.val ∧ s.running k = true) → s.quiet (12 + 2 * p) → Completes
    (.pairMiscompare p) s fun t => Unchanged (countRegs (12 + 2 * p) ++ [(.PCX_CORE_STAT, 2 * p.val), (.PCX_CORE_STAT, 2 * p.val + 1)]) [.pcx, .fcu] [] s t
    ∧ t.get PCX_CORE_STAT.STATE (2 * p) = 2 ∧ t.get PCX_CORE_STAT.STATE (2 * p + 1) = 2 ∧ t.get PCX_CORE_STAT.CAUSE (2 * p) = coreMiscompare ∧ Counted (12
    + 2 * p) (detail coreMiscompare) s t) ∧
  (∀ (s : State) (p : Fin 2), s.split = true → s.running (2 * p) = true → s.quiet (12 + 2 * p) → Completes (.pairMiscompare p) s fun t => t.get
    PCX_CORE_STAT.STATE (2 * p) = 2 ∧ t.get PCX_CORE_STAT.STATE (2 * p + 1) = 2 ∧ t.get PCX_CORE_STAT.CAUSE (2 * p) = coreMiscompare ∧ t.get
    FCU_SRC_STAT.TOTAL (12 + 2 * p) = satAdd (s.get FCU_SRC_STAT.TOTAL (12 + 2 * p)) 1 255 ∧ ((∀ k < 4, t.running k = false) → s.ptm.retention = false →
    t.safe = true)) ∧
  (∀ (s : State) (c heir : Fin 4), s.follower c = false → s.running c = true → Completes (.coreRun .keeper c false heir) s fun t => t.get PCX_CORE_STAT.STATE
    c = 2 ∧ t.get PCX_CORE_STAT.CAUSE c = coreKeeper ∧ t.get PCX_CORE_CTL.RUN c = 0 ∧ t.get PCX_CORE_CTL.HEIR c = heir) ∧
  (∀ (s : State) (c heir : Fin 4), s.follower c = false → Completes (.coreRun .keeper c true heir) s fun t => t.get PCX_CORE_STAT.STATE c = 1 ∧ t.get
    PCX_CORE_CTL.RUN c = 1 ∧ t.get PCX_CORE_CTL.HEIR c = heir) ∧
  (∀ (s : State) (c heir : Fin 4), s.follower c = false → s.split = false → s.running c = false → Completes (.coreRun .keeper c true heir) s fun t =>
    Unchanged [(.PCX_CORE_CTL, c), (.PCX_CORE_STAT, c)] [.pcx, .out] [] s t ∧ t.get PCX_CORE_STAT.STATE c = 1 ∧ t.get PCX_CORE_CTL.RUN c = 1 ∧ t.get
    PCX_CORE_CTL.HEIR c = heir ∧ t.out = .event "core start" [c.val, s.get PCX_RST_VEC.VEC c] :: s.out) ∧
  (∀ (s : State), s.get PCX_KPR_STAT.RESTART 0 = 0 → s.quiet 10 → Completes (.keeperMiscompare) s fun t => Unchanged ((.PCX_KPR_STAT, 0) :: (.PCX_DBG_STAT, 0)
    :: countRegs 10) [.pcx, .fcu] [] s t ∧ t.get PCX_KPR_STAT.RESTART 0 = 1 ∧ t.get PCX_KPR_STAT.RESTARTS 0 = satAdd (s.get PCX_KPR_STAT.RESTARTS 0) 1 255
    ∧ t.get PCX_DBG_STAT.UNLOCKED 0 = 0 ∧ Counted 10 { mid := 1, typ := 15, size := 15, addr := 0 } s t) ∧
  (∀ (s : State), s.get PCX_KPR_STAT.RESTART 0 = 1 → s.ptm.retention = false → s.safe = false → s.ptm.plStep = 0 → Completes (.keeperMiscompare) s fun t =>
    t.get PTM_MODE_STAT.SAFE 0 = 1 ∧ t.get PTM_MODE_STAT.SAFE_CAUSE 0 = 6 ∧ t.get PTM_MODE_STAT.TRANS 0 = 0 ∧ t.ptm.target = none ∧ t.wrc.safe = true ∧ (∀
    w < 8, t.get WRC_WR_STAT.GATE w = 0) ∧ t.svc.calActive = false ∧ t.get PTM_MODE_STAT.MODE 0 = s.get PTM_MODE_STAT.MODE 0) ∧
  (∀ (s : State), s.get PCX_KPR_STAT.RESTART 0 = 1 → s.ckptTaken = none → Completes (.keeperRestartEntry) s fun t => t.mode = mBoot ∧ t.get PTM_BOOT_STAT.WARM
    0 = 1 ∧ t.get PTM_BOOT_STAT.STEP 0 = 1 ∧ t.get PCX_KPR_STAT.RESTART 0 = 0 ∧ t.pending = s.pending) ∧
  (∀ (s : State) (i : Nat), s.get PCX_KPR_STAT.RESTART 0 = 1 → s.ckptTaken = some i → Completes (.keeperRestartEntry) s fun t => Unchanged [] [.pcx, .free] []
    s t ∧ t.pcx = { s.pcx with keeperPc := Config.freeValue s.freeCtr % 2 ^ 40 } ∧ t.freeCtr = s.freeCtr + 1) ∧
  (∀ (s : State), s.get PCX_KPR_STAT.RESTART 0 = 1 → Completes (.resumed .keeper) s fun t => Unchanged [(.PCX_KPR_STAT, 0), (.PCX_WDT_STAT, 0)] [.pcx, .out]
    [] s t ∧ t.get PCX_KPR_STAT.RESTART 0 = 0 ∧ t.get PCX_KPR_STAT.LAST_MS 0 = min 65535 ((s.ptm.ticks - s.pcx.kprStart) / 8000) ∧ t.get PCX_WDT_STAT.SINCE
    0 = 0 ∧ t.get PCX_WDT_STAT.STAGE 0 = 0 ∧ (s.pcx.nmiHeld = true → t.pcx.nmiHeld = false ∧ t.pcx.keeperPc = s.get PCX_NMI_VEC.VEC 0)) ∧
  (∀ (s : State), s.get PCX_KPR_STAT.RESTART 0 = 1 → s.pcx.kprStart + 100 * tickMs ≤ s.ptm.ticks → s.ptm.retention = false → s.safe = false → s.ptm.plStep = 0
    → Completes (.keeperRestartTimeout) s fun t => ChangesOnly [.ALM_STAT, .BMU_EVB_STAT, .BMU_STAT, .FCU_CFG, .PCX_PROT_STAT, .PTM_MODE_STAT,
    .RDC_HEAD_CFG, .RDC_LANE_AFE, .RDC_PAL_STAT, .SPN_ORR_STAT, .SPN_STAT, .SVC_CAL_CTL, .SVC_CAL_STAT, .SVE_CTX_CFG, .SVE_CTX_MAN, .SVE_CTX_STAT,
    .SVE_SEEK_STAT, .WRC_HEAD_CFG, .WRC_RWL_CTL, .WRC_RWL_PTR, .WRC_WR_STAT, .WRC_WUS_STAT] [.alm, .bmu, .fcu, .out, .ptm, .rdc, .spn, .svc, .sve, .wrc]
    true s t ∧ t.get PTM_MODE_STAT.SAFE 0 = 1 ∧ t.get PTM_MODE_STAT.SAFE_CAUSE 0 = 6 ∧ t.get PTM_MODE_STAT.TRANS 0 = 0 ∧ t.ptm.target = none ∧ t.wrc.safe =
    true ∧ (∀ w < 8, t.get WRC_WR_STAT.GATE w = 0) ∧ t.svc.calActive = false ∧ t.get PTM_MODE_STAT.MODE 0 = s.get PTM_MODE_STAT.MODE 0) ∧
  (∀ (s : State) (h : Fin 5) (typ : Fin 4) (size : Fin 7) (a : PAddr) (src : Nat), s.hartRuns h = true → s.coreFault (hartMaster h) typ a.toNat (2 ^ size.val)
    = some src → s.quiet src → Completes (.coreAccessFault h typ size a) s fun t => Unchanged ((.PCX_PROT_STAT, 0) :: countRegs src) [.pcx, .fcu] [] s t ∧
    (h.val, accessCause typ, a.toNat) ∈ t.pcx.trap ∧ t.get PCX_PROT_STAT.DENY_CNT 0 = (if src = 16 then satAdd (s.get PCX_PROT_STAT.DENY_CNT 0) 1 255 else
    s.get PCX_PROT_STAT.DENY_CNT 0) ∧ Counted src (accessCap (hartMaster h) typ (sizeLog (2 ^ size.val)) a.toNat) s t) ∧
  (∀ (s : State) (h : Fin 5) (typ : Fin 4) (size : Fin 7) (a : PAddr), s.hartRuns h = true → s.coreFault (hartMaster h) typ a.toNat (2 ^ size.val) = none →
    ((typ = 1 ∨ typ = 3) ∧ h ≠ 0 ∧ s.pcx.l2.any (fun l => l.line == a.toNat / 64 && !l.w) = true) → Completes (.coreAccessFault h typ size a) s fun t =>
    Unchanged [] [.pcx] [] s t ∧ (h.val, 7, a.toNat) ∈ t.pcx.trap) ∧
  (∀ (s : State) (h : Fin 5) (typ : Fin 4) (size : Fin 7) (a : PAddr), s.hartRuns h = true → s.coreFault (hartMaster h) typ a.toNat (2 ^ size.val) = none →
    s.pcx.l2 = [] → s.poisoned a.toNat (2 ^ size.val) = true → s.normalService = true → Completes (.coreAccessFault h typ size a) s fun t => (h.val,
    accessCause typ, a.toNat) ∈ t.pcx.trap ∧ (h ≠ 0 → t.get PCX_CORE_STAT.UE_TRAP (h - 1) = 1) ∧ (s.region a.toNat (2 ^ size.val) = some .dram → t.get
    BMU_STAT.UE 0 = 1)) ∧
  (∀ (s : State) (h : Fin 5) (f : Bool) (a : PAddr), s.hartRuns h = true → s.region a.toNat 4 = some .regs → Completes (.atomicRegisterFault h f a) s fun t =>
    Unchanged [] [.pcx] [] s t ∧ (h.val, (if f then 1 else 7), a.toNat) ∈ t.pcx.trap) ∧
  (∀ (s : State) (h : Fin 5) (p : Fin 4) (mT sT : Bool), csrAllowed p mT sT false = true → Completes (.timeCsrRead h p mT sT false) s fun t => Unchanged []
    [.out] [] s t ∧ t.out = .data (hartMaster h).id s.time :: s.out) ∧
  (∀ (s : State) (h : Fin 5) (p : Fin 4) (mT sT : Bool), csrAllowed p mT sT false = true → Completes (.merframeRead h p mT sT false) s fun t => Unchanged []
    [.out] [] s t ∧ t.out = .data (hartMaster h).id s.merframe :: s.out) ∧
  (∀ (s : State) (h : Fin 5) (p : Fin 4) (mT sT : Bool), csrAllowed p mT sT false = true → Completes (.mermodeRead h p mT sT false) s fun t => Unchanged []
    [.out] [] s t ∧ t.out = .data (hartMaster h).id s.mermode :: s.out)

/-- A clean miss returns the word asked for and places the line where its class may allocate; an eviction's write frees its entry; a partial store in DISABLED
is merged into memory; a maintenance operation on installed DRAM becomes busy with its range: a clean leaves no dirty line in it, the invalidating ones
leave no line; its end clears BUSY. A miss in any state of service, corrected or prefetched, leaves self-refresh and returns the word unless it is
uncorrectable. Clauses without a frame state their effects under the conditions of normal execution alone, whatever else follows in the same step. -/
def Obligations.BufferCache : Prop :=
  (∀ (s : State) (m : Master) (a : PAddr) (n : Fin 256), s.accessFault m atRead a.toNat (8 - a.toNat % 8) = none → s.region a.toNat (8 - a.toNat % 8) = some
    .dram → s.cline (a.toNat / 64) = none → s.inEvb (a.toNat / 64) = false → s.bmu.poison = [] → s.get BMU_CLASS_CFG.PF_EN m.cls = 0 → Completes
    (.missFillDone m a .clean .clean .clean n) s fun t => Unchanged [(.BMU_STAT, 0), (.BMU_EVB_STAT, 0)] [.bmu, .out] [] s t ∧ t.out.head? = some (.data
    m.id (s.memW (a.toNat / 4 * 4))) ∧ t.get BMU_STAT.SR 0 = 0 ∧ (s.ccState = ccEnabled ∧ s.get BMU_CLASS_CFG.NOALLOC m.cls = 0 ∧ s.effMask m.cls (a.toNat
    / 64) ≠ 0 → ∃ c ∈ t.bmu.lines, c.1 = a.toNat / 64 ∧ c.2.dirty = false)) ∧
  (∀ (s : State) (m : Master) (a : PAddr) (o0 o1 pre : Half) (n : Fin 256), s.accessFault m atRead a.toNat (8 - a.toNat % 8) = none → s.region a.toNat (8 -
    a.toNat % 8) = some .dram → s.cline (a.toNat / 64) = none → s.inEvb (a.toNat / 64) = false → s.normalService = true → Completes (.missFillDone m a o0
    o1 pre n) s fun t => t.get BMU_STAT.SR 0 = 0 ∧ (s.halfOf (a.toNat / 32) (if a.toNat / 32 % 2 = 0 then o0 else o1) ≠ .uncorrectable → .data m.id (s.memW
    (a.toNat / 4 * 4)) ∈ t.out) ∧ (s.halfOf (a.toNat / 32) (if a.toNat / 32 % 2 = 0 then o0 else o1) = .uncorrectable → .event "poison" [m.id, a.toNat] ∈
    t.out) ∧ (s.ccState = ccEnabled ∧ s.get BMU_CLASS_CFG.NOALLOC m.cls = 0 ∧ s.effMask m.cls (a.toNat / 64) ≠ 0 → ∃ c ∈ t.bmu.lines, c.1 = a.toNat / 64)) ∧
  (∀ (s : State) (l : BitVec 34), s.inEvb l.toNat = true → Completes (.evictionWriteDone l) s fun t => Unchanged [(.BMU_EVB_STAT, 0)] [.bmu, .out] [] s t ∧
    t.inEvb l.toNat = false ∧ t.bmu.lines = s.bmu.lines ∧ t.out = .event "DRAM line write" [64 * l.toNat] :: s.out) ∧
  (∀ (s : State) (m : Master) (a : PAddr) (bs : List Byte), s.accessFault m atWrite a.toNat bs.length = none → s.region a.toNat bs.length = some .dram →
    s.ccState = ccDisabled ∨ s.ccState = ccCleaning ∧ s.cline (a.toNat / 64) = none → a.toNat % 64 + bs.length ≤ 64 → bs.length < 64 → Completes
    (.partialStoreMerge m a bs) s fun t => Unchanged [(.BMU_STAT, 0)] [.bmu] [(a.toNat, bs.length)] s t ∧ t.bytes a.toNat bs.length = bs ∧ t.get
    BMU_STAT.SR 0 = 0) ∧
  (∀ (s : State) (n : BitVec 20) (lo : Nat), lo = s.get BMU_MNT_ADDR.ADDR 0 → s.get BMU_MNT_CTL.BUSY 0 = 0 → s.dramOk (64 * lo) (64 * (n.toNat + 1)) = true →
    Completes (.mntClean .keeper n) s fun t => Unchanged [(.BMU_MNT_CTL, 0)] [.bmu] [] s t ∧ t.get BMU_MNT_CTL.BUSY 0 = 1 ∧ t.get BMU_MNT_CTL.OP 0 = 0 ∧
    t.get BMU_MNT_CTL.LINES 0 = n.toNat ∧ t.bmu.mnt = some (0, lo, n.toNat + 1) ∧ ∀ e ∈ t.bmu.lines, inLines lo (n.toNat + 1) e.1 = true → e.2.dirty =
    false) ∧
  (∀ (s : State) (n : BitVec 20) (lo : Nat), lo = s.get BMU_MNT_ADDR.ADDR 0 → s.get BMU_MNT_CTL.BUSY 0 = 0 → s.dramOk (64 * lo) (64 * (n.toNat + 1)) = true →
    Completes (.mntInvalidate .keeper n) s fun t => ChangesOnly [.BMU_MNT_CTL, .BMU_EVB_STAT] [.bmu] true s t ∧ t.get BMU_MNT_CTL.BUSY 0 = 1 ∧ t.get
    BMU_MNT_CTL.OP 0 = 1 ∧ t.get BMU_MNT_CTL.LINES 0 = n.toNat ∧ t.bmu.mnt = some (1, lo, n.toNat + 1) ∧ ∀ e ∈ t.bmu.lines, inLines lo (n.toNat + 1) e.1 =
    false) ∧
  (∀ (s : State) (n : BitVec 20) (lo : Nat), lo = s.get BMU_MNT_ADDR.ADDR 0 → s.get BMU_MNT_CTL.BUSY 0 = 0 → s.dramOk (64 * lo) (64 * (n.toNat + 1)) = true →
    Completes (.mntCleanInvalidate .keeper n) s fun t => Unchanged [(.BMU_MNT_CTL, 0), (.BMU_EVB_STAT, 0)] [.bmu] [] s t ∧ t.get BMU_MNT_CTL.BUSY 0 = 1 ∧
    t.get BMU_MNT_CTL.OP 0 = 2 ∧ t.get BMU_MNT_CTL.LINES 0 = n.toNat ∧ t.bmu.mnt = some (2, lo, n.toNat + 1) ∧ ∀ e ∈ t.bmu.lines, inLines lo (n.toNat + 1)
    e.1 = false) ∧
  (∀ (s : State) (o lo n : Nat), s.bmu.mnt = some (o, lo, n) → (o = 1 ∨ s.bmu.evb.any (fun e => inLines lo n e.line) = false) → Completes (.mntDone) s fun t
    => Unchanged [(.BMU_MNT_CTL, 0)] [.bmu] [] s t ∧ t.get BMU_MNT_CTL.BUSY 0 = 0 ∧ t.bmu = { s.bmu with mnt := none })

/-- A request to power ways off is held and the ways are cleaned, unless no way would stay on; a cleaned way is empty, and off while still asked off; a way not
asked off powers up; disabling goes through CLEANING to DISABLED with every way empty and off; enabling goes through ENABLING to ENABLED; ageing halves
every popularity counter; self-refresh sets SR. ENABLE written while the cache is going through a state changes ENABLE alone. -/
def Obligations.CacheWays : Prop :=
  (∀ (s : State) (mask : BitVec 16), s.get BMU_WAY_PWR.OFF_REQ 0 ≠ mask.toNat → s.get BMU_WAY_PWR.ON 0 &&& (65535 - mask.toNat) ≠ 0 → Completes
    (.wayOffRequest .keeper mask) s fun t => Unchanged [(.BMU_WAY_PWR, 0)] [.bmu] [] s t ∧ t.get BMU_WAY_PWR.OFF_REQ 0 = mask.toNat ∧ t.get BMU_WAY_PWR.ON
    0 = s.get BMU_WAY_PWR.ON 0 ∧ ∀ w < 16, nbit mask.toNat w = true → nbit (s.get BMU_WAY_PWR.ON 0) w = true → w ∈ t.bmu.cleaning) ∧
  (∀ (s : State) (w : Fin 16), w.val ∈ s.bmu.cleaning → Completes (.wayCleanDone w) s fun t => Unchanged [(.BMU_WAY_PWR, 0)] [.bmu] [] s t ∧ t.bitF
    BMU_WAY_PWR.ON 0 w = (s.bitF BMU_WAY_PWR.ON 0 w && !s.bitF BMU_WAY_PWR.OFF_REQ 0 w) ∧ (∀ e ∈ t.bmu.lines, e.2.way ≠ w.val) ∧ w.val ∉ t.bmu.cleaning) ∧
  (∀ (s : State) (w : Fin 16), s.bitF BMU_WAY_PWR.OFF_REQ 0 w = false → s.ccState ≠ ccDisabled → Completes (.wayPowerUpDone w) s fun t => Unchanged
    [(.BMU_WAY_PWR, 0)] [] [] s t ∧ t.bitF BMU_WAY_PWR.ON 0 w = true) ∧
  (∀ (s : State), s.get BMU_CC_CTL.ENABLE 0 = 1 → Completes (.cacheDisable .keeper) s fun t => Unchanged [(.BMU_CC_CTL, 0)] [] [] s t ∧ t.get
    BMU_CC_CTL.ENABLE 0 = 0 ∧ t.ccState = (if s.ccState = ccEnabled ∨ s.ccState = ccEnabling then ccCleaning else s.ccState)) ∧
  (∀ (s : State), s.ccState = ccCleaning → s.bmu.evb = [] → s.get BMU_CC_CTL.ENABLE 0 = 1 → Completes (.cacheDisableDone) s fun t => Unchanged [(.BMU_CC_CTL,
    0), (.BMU_WAY_PWR, 0)] [.bmu] [] s t ∧ t.ccState = ccEnabling ∧ t.get BMU_WAY_PWR.ON 0 = 65535 - s.get BMU_WAY_PWR.OFF_REQ 0 ∧ t.bmu.lines = [] ∧
    t.bmu.cleaning = []) ∧
  (∀ (s : State), s.ccState = ccCleaning → s.bmu.evb = [] → s.get BMU_CC_CTL.ENABLE 0 = 0 → Completes (.cacheDisableDone) s fun t => Unchanged [(.BMU_CC_CTL,
    0), (.BMU_WAY_PWR, 0)] [.bmu] [] s t ∧ t.ccState = ccDisabled ∧ t.get BMU_WAY_PWR.ON 0 = 0 ∧ t.bmu = { s.bmu with lines := [], cleaning := [] }) ∧
  (∀ (s : State), s.get BMU_CC_CTL.ENABLE 0 = 0 → Completes (.cacheEnable .keeper) s fun t => Unchanged [(.BMU_CC_CTL, 0), (.BMU_WAY_PWR, 0)] [] [] s t ∧
    t.get BMU_CC_CTL.ENABLE 0 = 1 ∧ t.ccState = (if s.ccState = ccDisabled then ccEnabling else s.ccState)) ∧
  (∀ (s : State), s.ccState = ccEnabling → Completes (.cacheEnableDone) s fun t => Unchanged [(.BMU_CC_CTL, 0)] [] [] s t ∧ t.ccState = ccEnabled ∧ t.get
    BMU_CC_CTL.ENABLE 0 = s.get BMU_CC_CTL.ENABLE 0) ∧
  (∀ (s : State), s.bmu.agedAt + tickSec * 2 ^ s.get BMU_CCC_CFG.AGE 0 ≤ s.time → Completes (.cccAge) s fun t => Unchanged [] [.bmu] [] s t ∧ t.bmu = { s.bmu with pop := (s.bmu.pop.map fun e => (e.1, e.2 / 2)).filter (fun e => e.2 != 0), agedAt := s.time }) ∧
  (∀ (s : State), Completes (.selfRefreshEntry) s fun t => ChangesOnly [.BMU_STAT] [.bmu] false s t ∧ t.get BMU_STAT.SR 0 = 1 ∧ t.bmu.checks = [])

/-- By its owner or the Keeper: a COMMIT on a channel that is not IDLE sets PEND, or SHADOW_REJ where a set is pending; on an IDLE channel a valid shadow set
becomes active as a whole and the channel is READY or RUNNING; RESUME of a SUSPENDED channel makes it READY or RUNNING; ABORT marks a RUNNING channel and
halts a READY or SUSPENDED one with cause ABORTED, which its source reports; CLEAR of a HALTED channel returns it to IDLE. By another master the write only
raises source 16. With no other channel of the domain waiting: a burst that fails below the retry limit is counted and tried again, at the limit the
channel halts with cause BUS; a source burst from DRAM in Bare mode puts the bytes read behind those held; a destination burst to DRAM stores the held
bytes in order; a descriptor fetched from DRAM becomes active with its counts at zero; a channel that makes no progress halts with cause TIMEOUT; one that
stays suspended raises its source once. A COMMIT of an invalid set, an ABORT, a burst or a fetch that fails at the limit and a channel without progress
halt with their cause and the channel's source counts; the channel's own effects are stated also with other channels waiting. Clauses without a frame state
their effects under the conditions of normal execution alone, whatever else follows in the same step. -/
def Obligations.DmaControl : Prop :=
  (∀ (s : State) (m : Master) (n : Fin 64), s.dmaMay m n = true → s.chSt n ≠ chIdle → s.on DMF_CH_STAT.PEND n = false → (∀ k < 64, k ≠ n.val → s.on
    DMF_CH_STAT.PEND k = false) → Completes (.dmaCommit m n) s fun t => ChangesOnly [.DMF_CH_STAT, .DMF_CH_ACT, .DMF_CH_PROG, .DMF_IRQ_PEND] [.dmf] false s
    t ∧ t.get DMF_CH_STAT.PEND n = 1 ∧ t.get DMF_CH_STAT.SHADOW_REJ n = s.get DMF_CH_STAT.SHADOW_REJ n) ∧
  (∀ (s : State) (m : Master) (n : Fin 64), s.dmaMay m n = true → s.chSt n ≠ chIdle → s.on DMF_CH_STAT.PEND n = true → (∀ k < 64, k ≠ n.val → s.on
    DMF_CH_STAT.PEND k = false) → Completes (.dmaCommit m n) s fun t => ChangesOnly [.DMF_CH_STAT, .DMF_CH_ACT, .DMF_CH_PROG, .DMF_IRQ_PEND] [.dmf] false s
    t ∧ t.get DMF_CH_STAT.PEND n = 1 ∧ t.get DMF_CH_STAT.SHADOW_REJ n = 1 ∧ ∀ i < 8, t.get DMF_CH_ACT.W (8 * n + i) = s.get DMF_CH_ACT.W (8 * n + i)) ∧
  (∀ (s : State) (m : Master) (n : Fin 64), s.dmaMay m n = true → s.chSt n = chIdle → s.on DMF_CH_STAT.PEND n = false → (∀ k < 64, k ≠ n.val → s.on
    DMF_CH_STAT.PEND k = false) → ((descOf fun i => s.get DMF_CH_SHD.W (8 * n.val + i)).valid = true) → ((descOf fun i => s.get DMF_CH_SHD.W (8 * n.val +
    i)).len ≠ 0) → s.atpMode n = 0 ∨ s.atpMode n = 9 → Completes (.dmaCommit m n) s fun t => ChangesOnly [.DMF_CH_STAT, .DMF_CH_ACT, .DMF_CH_PROG,
    .DMF_IRQ_PEND] [.dmf] false s t ∧ t.get DMF_CH_STAT.PEND n = 0 ∧ (∀ i < 8, t.get DMF_CH_ACT.W (8 * n + i) = s.get DMF_CH_SHD.W (8 * n + i)) ∧ t.get
    DMF_CH_PROG.SRC_DONE n = 0 ∧ t.get DMF_CH_PROG.DST_DONE n = 0 ∧ (t.chSt n = chReady ∨ t.chSt n = chRunning)) ∧
  (∀ (s : State) (m : Master) (n : Fin 64), s.dmaMay m n = true → s.chSt n = chSuspended → (∀ k < 64, s.on DMF_CH_STAT.PEND k = false) → Completes (.dmaResume
    m n) s fun t => ChangesOnly [.DMF_CH_STAT, .DMF_CH_ACT, .DMF_CH_PROG, .DMF_IRQ_PEND] [.dmf] false s t ∧ (t.chSt n = chReady ∨ t.chSt n = chRunning) ∧
    t.get DMF_CH_STAT.PRQ n = 0 ∧ t.get DMF_CH_STAT.FCAUSE n = 0 ∧ (t.chan n).prqRaised = false) ∧
  (∀ (s : State) (m : Master) (n : Fin 64), s.dmaMay m n = true → s.chSt n = chRunning → (∀ k < 64, s.on DMF_CH_STAT.PEND k = false) → Completes (.dmaAbort m
    n) s fun t => ChangesOnly [.DMF_CH_STAT, .DMF_CH_ACT, .DMF_CH_PROG, .DMF_IRQ_PEND] [.dmf] false s t ∧ t.chSt n = chRunning ∧ (t.chan n).aborting = true) ∧
  (∀ (s : State) (m : Master) (n : Fin 64), s.dmaMay m n = true → s.chSt n = chReady ∨ s.chSt n = chSuspended → (∀ k < 64, s.on DMF_CH_STAT.PEND k = false) →
    s.quiet (128 + n) → Completes (.dmaAbort m n) s fun t => ChangesOnly [.FCU_SRC_STAT, .FCU_FEC_INFO, .FCU_FEC_ADDR, .FCU_FEC_TIME, .DMF_CH_STAT,
    .DMF_CH_ACT, .DMF_CH_PROG, .DMF_IRQ_PEND] [.dmf, .fcu] false s t ∧ t.chSt n = chHalted ∧ t.get DMF_CH_STAT.CAUSE n = haltAborted ∧ t.get
    DMF_CH_STAT.PEND n = 0 ∧ Counted (128 + n) (detail n) s t) ∧
  (∀ (s : State) (m : Master) (n : Fin 64), s.dmaMay m n = true → s.chSt n = chHalted → (∀ k < 64, s.on DMF_CH_STAT.PEND k = false) → Completes (.dmaClear m
    n) s fun t => ChangesOnly [.DMF_CH_STAT, .DMF_CH_ACT, .DMF_CH_PROG, .DMF_IRQ_PEND] [.dmf] false s t ∧ t.chSt n = chIdle ∧ t.get DMF_CH_STAT.CAUSE n = 0
    ∧ t.get DMF_CH_PROG.SRC_DONE n = 0 ∧ t.get DMF_CH_PROG.DST_DONE n = 0 ∧ t.chan n = {}) ∧
  (∀ (s : State) (m : Master) (n : Fin 64), s.dmaMay m n = true → s.chSt n ≠ chIdle → Completes (.dmaCommit m n) s fun t => t.get DMF_CH_STAT.PEND n = 1 ∧
    t.get DMF_CH_STAT.SHADOW_REJ n = (if s.on DMF_CH_STAT.PEND n then 1 else s.get DMF_CH_STAT.SHADOW_REJ n)) ∧
  (∀ (s : State) (m : Master) (n : Fin 64), s.dmaMay m n = true → s.chSt n = chIdle → ((descOf fun i => s.get DMF_CH_SHD.W (8 * n.val + i)).valid = true) →
    ((descOf fun i => s.get DMF_CH_SHD.W (8 * n.val + i)).len ≠ 0) → s.atpMode n = 0 ∨ s.atpMode n = 9 → Completes (.dmaCommit m n) s fun t => t.get
    DMF_CH_STAT.PEND n = 0 ∧ (∀ i < 8, t.get DMF_CH_ACT.W (8 * n + i) = s.get DMF_CH_SHD.W (8 * n + i)) ∧ t.get DMF_CH_PROG.SRC_DONE n = 0 ∧ t.get
    DMF_CH_PROG.DST_DONE n = 0 ∧ (t.chSt n = chReady ∨ t.chSt n = chRunning)) ∧
  (∀ (s : State) (m : Master) (n : Fin 64), s.dmaMay m n = true → s.chSt n = chIdle → ((descOf fun i => s.get DMF_CH_SHD.W (8 * n.val + i)).valid = false ∨
    s.atpMode n ≠ 0 ∧ s.atpMode n ≠ 9) → s.quiet (128 + n) → Completes (.dmaCommit m n) s fun t => t.chSt n = chHalted ∧ t.get DMF_CH_STAT.CAUSE n =
    haltConfig ∧ t.get DMF_CH_STAT.PEND n = 0 ∧ t.get FCU_SRC_STAT.TOTAL (128 + n) = satAdd (s.get FCU_SRC_STAT.TOTAL (128 + n)) 1 255) ∧
  (∀ (s : State) (m : Master) (n : Fin 64), s.dmaMay m n = true → s.chSt n = chSuspended → Completes (.dmaResume m n) s fun t => (t.chSt n = chReady ∨ t.chSt
    n = chRunning) ∧ t.get DMF_CH_STAT.PRQ n = 0 ∧ t.get DMF_CH_STAT.FCAUSE n = 0 ∧ (t.chan n).prqRaised = false) ∧
  (∀ (s : State) (m : Master) (n : Fin 64), s.dmaMay m n = true → s.chSt n = chRunning → Completes (.dmaAbort m n) s fun t => t.chSt n = chRunning ∧ (t.chan
    n).aborting = true) ∧
  (∀ (s : State) (m : Master) (n : Fin 64), s.dmaMay m n = true → s.chSt n = chIdle → Completes (.dmaAbort m n) s fun t => t.chSt n = chIdle ∧ t.get
    DMF_CH_STAT.PEND n = 0) ∧
  (∀ (s : State) (m : Master) (n : Fin 64), s.dmaMay m n = true → s.chSt n = chReady ∨ s.chSt n = chSuspended → s.quiet (128 + n) → Completes (.dmaAbort m n)
    s fun t => t.chSt n = chHalted ∧ t.get DMF_CH_STAT.CAUSE n = haltAborted ∧ t.get DMF_CH_STAT.PEND n = 0 ∧ t.get FCU_SRC_STAT.TOTAL (128 + n) = satAdd
    (s.get FCU_SRC_STAT.TOTAL (128 + n)) 1 255) ∧
  (∀ (s : State) (m : Master) (n : Fin 64), s.dmaMay m n = true → s.chSt n = chHalted → s.get DMF_CH_STAT.PEND n = 0 → Completes (.dmaClear m n) s fun t =>
    t.chSt n = chIdle ∧ t.get DMF_CH_STAT.CAUSE n = 0 ∧ t.get DMF_CH_PROG.SRC_DONE n = 0 ∧ t.get DMF_CH_PROG.DST_DONE n = 0 ∧ (t.chan n).held = []) ∧
  (∀ (s : State) (m : Master) (n : Fin 64), s.dmaMay m n = false → s.quiet 16 → Completes (.dmaCommit m n) s fun t => ChangesOnly [.FCU_SRC_STAT,
    .FCU_FEC_INFO, .FCU_FEC_ADDR, .FCU_FEC_TIME] [.fcu] false s t ∧ Counted 16 (accessCap m 1 2 (regAddr .DMF_CH_CTL n)) s t) ∧
  (∀ (s : State), s.get DMF_INV.BUSY 0 = 1 → Completes (.iotlbInvalidateDone) s fun t => Unchanged [(.DMF_INV, 0)] [] [] s t ∧ t.get DMF_INV.BUSY 0 = 0) ∧
  (∀ (s : State) (m : Master) (scope : Fin 4) (asid : BitVec 16), m.isCore = true → s.on DMF_INV.BUSY 0 = false → Completes (.iotlbInvalidate m scope asid) s
    fun t => Unchanged [(.DMF_INV, 0)] [.dmf] [] s t ∧ t.get DMF_INV.BUSY 0 = 1 ∧ t.get DMF_INV.SCOPE 0 = scope ∧ t.get DMF_INV.ASID 0 = asid.toNat ∧
    t.dmf.iotlb = s.dmf.iotlb.filter fun e => !e.inScope scope asid.toNat (s.get DMF_INV_VA.VA 0)) ∧
  (∀ (s : State) (n : Fin 64), s.engineRuns n false = true → (s.chan n).aborting = false → (s.chan n).writeback = false → s.chansAt (n / 32) chReady = [] → (∀
    k < 64, s.on DMF_CH_STAT.PEND k = false) → s.get DMF_CH_STAT.RETRIES n < s.get DMF_CH_CFG.RETRY n → Completes (.dmaBurstDone n true false) s fun t =>
    Unchanged [(.DMF_CH_STAT, n.val)] [] [] s t ∧ t.get DMF_CH_STAT.RETRIES n = s.get DMF_CH_STAT.RETRIES n + 1 ∧ t.chSt n = chRunning) ∧
  (∀ (s : State) (n : Fin 64), s.engineRuns n false = true → (s.chan n).aborting = false → (s.chan n).writeback = false → s.chansAt (n / 32) chReady = [] → (∀
    k < 64, s.on DMF_CH_STAT.PEND k = false) → s.get DMF_CH_CFG.RETRY n ≤ s.get DMF_CH_STAT.RETRIES n → s.quiet (128 + n) → Completes (.dmaBurstDone n true
    false) s fun t => Unchanged (countRegs (128 + n) ++ [(.DMF_CH_STAT, n.val), (.DMF_IRQ_PEND, 0)]) [.dmf, .fcu] [] s t ∧ t.chSt n = chHalted ∧ t.get
    DMF_CH_STAT.CAUSE n = haltBus ∧ Counted (128 + n) (detail n) s t) ∧
  (∀ (s : State) (n : Fin 64), s.engineRuns n false = true → (s.chan n).aborting = false → (s.chan n).writeback = false → s.chansAt (n / 32) chReady = [] → (∀
    k < 64, s.on DMF_CH_STAT.PEND k = false) → s.dstReady n = false → (s.desc n).skind = 0 → s.atpMode n = 0 → 0 < s.srcSize n → s.dramOk ((s.desc n).src +
    s.srcDone n) (s.srcSize n) = true → s.poisoned ((s.desc n).src + s.srcDone n) (s.srcSize n) = false → s.accessFault (dmaOf n) atRead ((s.desc n).src +
    s.srcDone n) (s.srcSize n) = none → s.srcDone n + s.srcSize n < 2 ^ 24 → s.srcDone n + s.srcSize n - s.dstDone n < 256 → Completes (.dmaBurstDone n
    false false) s fun t => ChangesOnly [.DMF_CH_PROG, .DMF_CH_STAT, .DMF_IRQ_PEND, .BMU_STAT] [.dmf, .bmu] false s t ∧ t.srcDone n = s.srcDone n +
    s.srcSize n ∧ t.dstDone n = s.dstDone n ∧ (t.chan n).held = (s.chan n).held ++ s.bytes ((s.desc n).src + s.srcDone n) (s.srcSize n) ∧ t.get
    DMF_CH_STAT.RETRIES n = 0 ∧ t.chSt n = chRunning) ∧
  (∀ (s : State) (n : Fin 64), s.engineRuns n false = true → (s.chan n).aborting = false → (s.chan n).writeback = false → s.chansAt (n / 32) chReady = [] → (∀
    k < 64, s.on DMF_CH_STAT.PEND k = false) → s.dstReady n = true → (s.desc n).dkind = 0 → (s.desc n).swap = 0 → s.atpMode n = 0 → s.dramOk ((s.desc
    n).dst + s.dstDone n) (s.dstSize n) = true → s.accessFault (dmaOf n) atWrite ((s.desc n).dst + s.dstDone n) (s.dstSize n) = none → s.dstDone n +
    s.dstSize n < (s.desc n).len → s.srcDone n < s.dstDone n + s.dstSize n + 256 → (s.chan n).held.length = s.srcDone n - s.dstDone n → Completes
    (.dmaBurstDone n false false) s fun t => Unchanged ([(.DMF_CH_PROG, n.val), (.DMF_CH_STAT, n.val), (.BMU_STAT, 0)]) [.bmu, .dmf] [((s.desc n).dst +
    s.dstDone n, s.dstSize n)] s t ∧ t.dstDone n = s.dstDone n + s.dstSize n ∧ t.srcDone n = s.srcDone n ∧ t.bytes ((s.desc n).dst + s.dstDone n)
    (s.dstSize n) = (s.chan n).held.take (s.dstSize n) ∧ (t.chan n).held = (s.chan n).held.drop (s.dstSize n) ∧ t.chSt n = chRunning) ∧
  (∀ (s : State) (n : Fin 64), s.engineRuns n true = true → (s.chan n).aborting = false → s.chansAt (n / 32) chReady = [] → (∀ k < 64, s.on DMF_CH_STAT.PEND k
    = false) → s.atpMode n = 0 → s.dramOk (s.desc n).next 32 = true → s.poisoned (s.desc n).next 32 = false → s.accessFault (dmaOf n) atRead (s.desc
    n).next 32 = none → ((descOf fun i => s.memW ((s.desc n).next + 4 * i)).valid = true) → ((descOf fun i => s.memW ((s.desc n).next + 4 * i)).len ≠ 0) →
    Completes (.dmaDescriptorFetchDone n false) s fun t => ChangesOnly [.DMF_CH_PROG, .DMF_CH_STAT, .DMF_CH_ACT, .DMF_IRQ_PEND, .BMU_STAT] [.dmf, .bmu]
    false s t ∧ (∀ i < 8, t.get DMF_CH_ACT.W (8 * n + i) = s.memW ((s.desc n).next + 4 * i)) ∧ t.srcDone n = 0 ∧ t.dstDone n = 0 ∧ (t.chan n).descAddr =
    some (s.desc n).next ∧ (t.chan n).fetching = false ∧ t.get DMF_CH_STAT.TAG n = (descOf fun i => s.memW ((s.desc n).next + 4 * i)).tag ∧ t.chSt n =
    chRunning) ∧
  (∀ (s : State) (n : Fin 64) (c : Bool), s.engineRuns n false = true → (s.chan n).aborting = false → (s.chan n).writeback = false → s.get DMF_CH_STAT.RETRIES
    n < s.get DMF_CH_CFG.RETRY n → Completes (.dmaBurstDone n true c) s fun t => t.get DMF_CH_STAT.RETRIES n = s.get DMF_CH_STAT.RETRIES n + 1 ∧ (t.chSt n
    = chReady ∨ t.chSt n = chRunning)) ∧
  (∀ (s : State) (n : Fin 64) (c : Bool), s.engineRuns n false = true → (s.chan n).aborting = true ∨ s.get DMF_CH_CFG.RETRY n ≤ s.get DMF_CH_STAT.RETRIES n →
    s.quiet (128 + n) → Completes (.dmaBurstDone n true c) s fun t => t.chSt n = chHalted ∧ t.get DMF_CH_STAT.CAUSE n = (if (s.chan n).aborting then
    haltAborted else haltBus) ∧ t.get FCU_SRC_STAT.TOTAL (128 + n) = satAdd (s.get FCU_SRC_STAT.TOTAL (128 + n)) 1 255) ∧
  (∀ (s : State) (n : Fin 64) (c : Bool) (pa : Nat) (fill : Option Iotlb), s.engineRuns n false = true → (s.chan n).aborting = false → (s.chan n).writeback =
    false → s.dstReady n = false → (s.desc n).skind = 0 → s.translate n ((s.desc n).src + s.srcDone n) false 1 = .ok pa fill → s.region pa (s.srcSize n) ≠
    some .regs → s.poisoned pa (s.srcSize n) = false → s.accessFault (dmaOf n) atRead pa (s.srcSize n) = none → s.srcDone n + s.srcSize n < 2 ^ 24 →
    Completes (.dmaBurstDone n false c) s fun t => t.srcDone n = s.srcDone n + s.srcSize n ∧ t.dstDone n = s.dstDone n ∧ (t.chan n).held = (s.chan n).held
    ++ s.bytes pa (s.srcSize n) ∧ (t.chSt n = chReady ∨ t.chSt n = chRunning)) ∧
  (∀ (s : State) (n : Fin 64) (c : Bool), s.engineRuns n false = true → (s.chan n).aborting = false → (s.chan n).writeback = false → s.dstReady n = false →
    (s.desc n).skind = 1 → s.dmf.port1 ≠ [] → s.srcDone n + s.srcSize n < 2 ^ 24 → s.srcSize n ≤ s.dmf.port1.length → Completes (.dmaBurstDone n false c) s
    fun t => t.srcDone n = s.srcDone n + s.srcSize n ∧ (t.chan n).held = (s.chan n).held ++ s.dmf.port1.take (s.srcSize n) ∧ t.dmf.port1 = s.dmf.port1.drop
    (s.srcSize n)) ∧
  (∀ (s : State) (n : Fin 64) (c : Bool) (pa : Nat) (fill : Option Iotlb), s.engineRuns n false = true → (s.chan n).aborting = false → (s.chan n).writeback =
    false → s.dstReady n = true → (s.desc n).dkind = 0 → (s.desc n).swap = 0 → s.translate n ((s.desc n).dst + s.dstDone n) true 2 = .ok pa fill → s.region
    pa (s.dstSize n) ≠ some .regs → s.accessFault (dmaOf n) atWrite pa (s.dstSize n) = none → s.dstDone n + s.dstSize n < (s.desc n).len → s.dstDone n +
    s.dstSize n < 2 ^ 24 → (s.chan n).held.length = s.srcDone n - s.dstDone n → Completes (.dmaBurstDone n false c) s fun t => t.dstDone n = s.dstDone n +
    s.dstSize n ∧ t.srcDone n = s.srcDone n ∧ t.bytes pa (s.dstSize n) = (s.chan n).held.take (s.dstSize n) ∧ (t.chan n).held = (s.chan n).held.drop
    (s.dstSize n) ∧ (t.chSt n = chReady ∨ t.chSt n = chRunning)) ∧
  (∀ (s : State) (n : Fin 64) (pa : Nat) (fill : Option Iotlb), s.engineRuns n false = true → (s.chan n).aborting = false → (s.chan n).writeback = false →
    s.dstReady n = true → (s.desc n).dkind = 0 → (s.desc n).swap = 0 → s.translate n ((s.desc n).dst + s.dstDone n) true 2 = .ok pa fill → s.region pa
    (s.dstSize n) ≠ some .regs → s.accessFault (dmaOf n) atWrite pa (s.dstSize n) = none → s.dstDone n + s.dstSize n = (s.desc n).len → (s.chan
    n).held.length = s.srcDone n - s.dstDone n → (s.desc n).wb = false → (s.desc n).last = true → s.get DMF_CH_STAT.PEND n = 0 → Completes (.dmaBurstDone n
    false false) s fun t => t.chSt n = chIdle ∧ t.bytes pa (s.dstSize n) = (s.chan n).held.take (s.dstSize n) ∧ t.get DMF_CH_STAT.DONE_EVT n = (if (s.desc
    n).irq then 1 else s.get DMF_CH_STAT.DONE_EVT n)) ∧
  (∀ (s : State) (n : Fin 64) (pa : Nat) (fill : Option Iotlb), s.engineRuns n true = true → (s.chan n).aborting = false → s.translate n (s.desc n).next false
    3 = .ok pa fill → s.region pa 32 ≠ some .regs → s.poisoned pa 32 = false → s.accessFault (dmaOf n) atRead pa 32 = none → ((descOf fun i => s.memW (pa +
    4 * i)).valid = true) → ((descOf fun i => s.memW (pa + 4 * i)).len ≠ 0) → Completes (.dmaDescriptorFetchDone n false) s fun t => (∀ i < 8, t.get
    DMF_CH_ACT.W (8 * n + i) = s.memW (pa + 4 * i)) ∧ t.srcDone n = 0 ∧ t.dstDone n = 0 ∧ (t.chan n).descAddr = some (s.desc n).next ∧ (t.chan n).fetching
    = false ∧ t.get DMF_CH_STAT.TAG n = (descOf fun i => s.memW (pa + 4 * i)).tag ∧ (t.chSt n = chReady ∨ t.chSt n = chRunning)) ∧
  (∀ (s : State) (n : Fin 64), s.engineRuns n true = true → (s.chan n).aborting = false → s.get DMF_CH_STAT.RETRIES n < s.get DMF_CH_CFG.RETRY n → Completes
    (.dmaDescriptorFetchDone n true) s fun t => t.get DMF_CH_STAT.RETRIES n = s.get DMF_CH_STAT.RETRIES n + 1 ∧ (t.chan n).fetching = true ∧ (t.chSt n =
    chReady ∨ t.chSt n = chRunning)) ∧
  (∀ (s : State) (n : Fin 64), s.chSt n = chRunning → s.chOver n (s.get DMF_CFG.NOPROG 0) = true → s.quiet (128 + n) → Completes (.dmaProgressTimeout n) s fun
    t => t.chSt n = chHalted ∧ t.get DMF_CH_STAT.CAUSE n = haltTimeout ∧ t.bitF DMF_IRQ_PEND.PEND 0 n = true ∧ t.get FCU_SRC_STAT.TOTAL (128 + n) = satAdd
    (s.get FCU_SRC_STAT.TOTAL (128 + n)) 1 255) ∧
  (∀ (s : State) (n : Fin 64), s.chSt n = chRunning → s.chOver n (s.get DMF_CFG.NOPROG 0) = true → (∀ k < 64, s.on DMF_CH_STAT.PEND k = false) → s.quiet (128
    + n) → Completes (.dmaProgressTimeout n) s fun t => ChangesOnly [.FCU_SRC_STAT, .FCU_FEC_INFO, .FCU_FEC_ADDR, .FCU_FEC_TIME, .DMF_CH_STAT,
    .DMF_IRQ_PEND] [.dmf, .fcu] false s t ∧ t.chSt n = chHalted ∧ t.get DMF_CH_STAT.CAUSE n = haltTimeout ∧ t.get DMF_IRQ_PEND.PEND 0 ≠ 0 ∧ Counted (128 +
    n) (detail n) s t) ∧
  (∀ (s : State) (n : Fin 64), s.chSt n = chSuspended → (s.chan n).prqRaised = false → s.chOver n (s.get DMF_CFG.PRQ 0) = true → s.quiet (128 + n) → Completes
    (.dmaPageRequestTimeout n) s fun t => Unchanged (countRegs (128 + n)) [.dmf, .fcu] [] s t ∧ t.chSt n = chSuspended ∧ (t.chan n).prqRaised = true ∧
    Counted (128 + n) (detail n) s t)

/-- A waiting write that fits below L starts into the slots it is given, a read's media work takes its slots; above L a transfer starts within what the frame
admits; the data of a write without FUA enters the index and its slots as one version per LBA and queues for the budget; the first write waiting that fits
enters the budget whole, each of its units with its journal block, and its completion is posted. The index, the slots in use and the FREE count follow. Any
number of units of a write enters the index; what the slot holds is the unit encoded. Clauses without a frame state their effects under the conditions of
normal execution alone, whatever else follows in the same step. -/
def Obligations.BufferSlots : Prop :=
  (∀ (s : State) (k : BitVec 12) (slots : List (Fin 1048576)) (d : Cmd), s.cmd k.toNat = some d → s.writeReady d (slots.map (·.val)) = true → d.zero = false →
    s.budgetUsed ≤ s.throtLo → Completes (.slotAssign k slots) s fun t => Unchanged [(.BMU_SLOT_STAT, 0)] [.cqe, .bmu, .dmf] [] s t ∧ t.cmd k.toNat = some
    { d with started := true, slots := slots.map (·.val) } ∧ t.bmu.used = s.bmu.used ++ slots.map (·.val) ∧ t.get BMU_SLOT_STAT.FREE 0 = t.freeSlots) ∧
  (∀ (s : State) (k : BitVec 12) (slots : List (Fin 1048576)) (d : Cmd), s.cmd k.toNat = some d → d.kind = kdRead → d.mediaLbas ≠ [] → s.slotsFit (slots.map
    (·.val)) d.mediaLbas.length = true → Completes (.slotAssign k slots) s fun t => Unchanged [(.BMU_SLOT_STAT, 0)] [.cqe, .bmu, .dmf] [] s t ∧ t.bmu.used
    = s.bmu.used ++ slots.map (·.val) ∧ t.get BMU_SLOT_STAT.FREE 0 = t.freeSlots ∧ (∀ i < d.mediaLbas.length, ∃ e ∈ t.cmd k.toNat, (e.lbas.getD
    (d.mediaLbas.getD i 0) default).slot = some (slots.getD i 0).val)) ∧
  (∀ (s : State) (k : BitVec 12) (slots : List (Fin 1048576)) (d : Cmd), s.cmd k.toNat = some d → s.writeReady d (slots.map (·.val)) = true → d.zero = false →
    s.throtLo < s.budgetUsed → s.cqe.admitted + 4096 * d.n ≤ s.admissible → Completes (.writeAdmission k slots) s fun t => Unchanged [(.BMU_SLOT_STAT, 0)]
    [.cqe, .bmu, .dmf] [] s t ∧ t.cmd k.toNat = some { d with started := true, slots := slots.map (·.val) } ∧ t.bmu.used = s.bmu.used ++ slots.map (·.val)
    ∧ t.cqe.admitted = s.cqe.admitted + 4096 * d.n) ∧
  (∀ (s : State) (k : BitVec 12) (bytes : List Byte) (d : Cmd) (n : Nat), s.cmd k.toNat = some d → d.kind = kdWrite → d.started = true → d.arrived = false →
    d.fua = false → d.zero = false → d.ns = some n → s.nsHasPi n = false → s.on CQE_NS_CFG.ZONED n = false → s.cqe.overlay = [] → s.cqe.cmds = [d] → (∀ i <
    d.n, s.accessFault .hif atWrite (s.slotAddr (d.slots.getD i 0)) 4096 = none ∧ s.accessFault .hif atWrite (s.slotMeta (d.slots.getD i 0)) 8 = none) →
    Completes (.writeDataComplete k bytes) s fun t => ChangesOnly [.BMU_EVB_STAT, .BMU_SLOT_STAT, .BMU_STAT, .BMU_BUDGET, .CQE_THROT, .MPC_KEY_STAT] [.cqe,
    .bmu] true s t ∧ (∀ i < d.n, { ns := n, lba := d.lba + i, seq := d.seq, slot := d.slots.getD i 0 } ∈ t.cqe.overlay) ∧ t.cqe.overlay.length = d.n ∧
    t.cqe.cmds = [{ d with arrived := true }] ∧ t.bmu.budgetQ = s.bmu.budgetQ ++ [k.toNat]) ∧
  (∀ (s : State) (k : BitVec 12) (bytes : List Byte) (d : Cmd) (n : Nat), s.cmd k.toNat = some d → d.writes = true → d.started = true → d.arrived = false →
    d.ns = some n → (d.zero = true ∨ nbit d.prinfo 3 = true ∨ (List.range d.n).all (fun i => (s.piCheck d n i (s.writeUnit d n i bytes).1 (s.writeUnit d n
    i bytes).2).isNone) = true) → ((List.range d.n).all (fun i => !s.zoneOvertakes n (d.lba + i) d.seq && !s.verNewer { ns := n, lba := d.lba + i, seq := d.seq, slot := 0 }
    Ver.safe) = true) → (∀ i < d.n, s.accessFault .hif atWrite (s.slotAddr (d.slots.getD i 0)) 4096 = none ∧ s.accessFault .hif atWrite (s.slotMeta
    (d.slots.getD i 0)) 8 = none) → Completes (.writeDataComplete k bytes) s fun t => (∀ i < d.n, t.cqe.overlay.any (fun v => v.ns == n && v.lba == d.lba +
    i && v.seq == d.seq && v.slot == d.slots.getD i 0) = true) ∧ (d.fua = false → k.toNat ∈ t.bmu.budgetQ) ∧ (t.cmd k.toNat).map (·.arrived) = some true) ∧
  (∀ (s : State) (k : BitVec 12) (bytes : List Byte) (d : Cmd) (n : Nat), s.cmd k.toNat = some d → d.writes = true → d.started = true → d.arrived = false →
    d.ns = some n → d.n = 1 → d.zero = true ∨ nbit d.prinfo 3 = true ∨ (s.piCheck d n 0 (s.writeUnit d n 0 bytes).1 (s.writeUnit d n 0 bytes).2).isNone =
    true → s.zoneOvertakes n d.lba d.seq = false → s.slotMeta (d.slots.getD 0 0) + 8 ≤ s.slotAddr (d.slots.getD 0 0) ∨ s.slotAddr (d.slots.getD 0 0) + 4096
    ≤ s.slotMeta (d.slots.getD 0 0) → (∀ i < d.n, s.accessFault .hif atWrite (s.slotAddr (d.slots.getD i 0)) 4096 = none ∧ s.accessFault .hif atWrite
    (s.slotMeta (d.slots.getD i 0)) 8 = none) → Completes (.writeDataComplete k bytes) s fun t => (∀ j < (s.writeUnit d n 0 bytes).1.length, j < 4096 →
    t.byte (s.slotAddr (d.slots.getD 0 0) + j) = (s.writeUnit d n 0 bytes).1[j]?)) ∧
  (∀ (s : State) (d : Cmd) (blocks : List (Fin 3040)) (x : SubQ) (y : ComQ), s.bmu.budgetQ.head?.bind s.cmd = some d → s.inPowerLoss = false → s.budgetFits d
    (blocks.map (·.val)) = true → d.silent = false → d.want = none → d.fua = false → s.isSas = false → s.cqe.cmds = [d] → s.cqe.overlay.length = 1 ∧
    s.unitsOf d = s.cqe.overlay → (s.port d.port).sq d.sqid = some x → (s.port d.port).cq x.cq = some y → y.full = false → y.ien = false → Completes
    (.budgetEntry blocks) s fun t => ChangesOnly [.BMU_BUDGET, .CQE_THROT, .MPC_KEY_STAT, .CQE_STAT, .CQE_OVL_STAT, .BMU_SLOT_STAT] [.cqe, .bmu, .hif,
    .out] true s t ∧ t.cqe.cmds = [] ∧ t.out = .completion d.port d.sqid d.cid 0 0 false 0 :: s.out ∧ (∀ v ∈ s.cqe.overlay, { v with inBudget := true, block := blocks.head?.map (·.val) }
    ∈ t.cqe.overlay) ∧ t.get BMU_BUDGET.USED 0 = 1) ∧
  (∀ (s : State) (d : Cmd) (blocks : List (Fin 3040)), s.bmu.budgetQ.head?.bind s.cmd = some d → s.inPowerLoss = false → s.budgetFits d (blocks.map (·.val)) =
    true → Completes (.budgetEntry blocks) s fun t => (∀ e ∈ (s.unitsOf d).zip blocks, t.cqe.overlay.any (fun v => v.ns == e.1.ns && v.lba == e.1.lba &&
    v.seq == e.1.seq && v.inBudget && v.block == some e.2.val) = true) ∧ t.bmu.budgetQ.head? ≠ some d.ctag ∧ (d.silent = false → d.want = none → ∀ c ∈
    t.cqe.cmds, c.ctag ≠ d.ctag)) ∧
  (∀ (s : State) (n : Fin 128), s.on BMU_DISCARD.BUSY 0 = false → Completes (.discardGo .keeper n) s fun t => Unchanged [(.BMU_DISCARD, 0)] [] [] s t ∧ t.get
    BMU_DISCARD.BUSY 0 = 1 ∧ t.get BMU_DISCARD.NS 0 = n) ∧
  (∀ (s : State) (n : Nat), s.on BMU_DISCARD.BUSY 0 = true → n = s.get BMU_DISCARD.NS 0 → (s.cqe.cmds.any (fun c => c.ns == some n) = false) → Completes
    (.discardExecute) s fun t => ChangesOnly [.BMU_BUDGET, .BMU_DISCARD, .BMU_EVB_STAT, .BMU_SLOT_STAT, .BMU_STAT, .CQE_OVL_STAT, .CQE_STAT, .CQE_THROT,
    .MPC_KEY_STAT, .MPC_STAT, .PCX_PROT_STAT] [.bmu, .cqe, .fcu, .hif, .mpc, .out, .ptm] true s t ∧ t.get BMU_DISCARD.BUSY 0 = 0 ∧ (∀ v ∈ t.cqe.overlay,
    v.ns ≠ n ∨ s.nsLbas n ≤ v.lba) ∧ (∀ e ∈ t.bmu.frames, e.2.ns ≠ n)) ∧
  (∀ (s : State) (f : Fin 8192) (k : Fin 256) (ns lba slot : Nat), (s.bmu.fills.find? (fun e => e.1 == f.val && e.2.2.1 % 256 == k.val) = some (f.val, ns,
    lba, slot)) → (s.frameOf ns (lba / 256)).map (·.1) = some f.val → s.frameAddr f + 4096 * k + 4096 ≤ s.slotAddr slot ∨ s.slotAddr slot + 4096 ≤
    s.frameAddr f + 4096 * k → s.accessFault .bmu atWrite (s.frameAddr f + 4096 * k) 4096 = none → s.region (s.frameAddr f + 4096 * k) 4096 = some .dram →
    Completes (.cccFrameFill f k) s fun t => Unchanged [(.BMU_SLOT_STAT, 0), (.BMU_EVB_STAT, 0), (.BMU_STAT, 0)] [.bmu] [(s.frameAddr f + 4096 * k, 4096)]
    s t ∧ t.bytes (s.frameAddr f + 4096 * k) 4096 = s.bytes (s.slotAddr slot) 4096 ∧ (f.val, ns, lba, slot) ∉ t.bmu.fills ∧ (t.frameOf ns (lba / 256)).any
    (fun e => e.2.valid.contains k.val) = true)

/-- The first command waiting, or the destage of a partial row, is written at WR of the ring, which advances; a completion by firmware of a command handed off
is posted with its status and the latched DW0, any other only sets DONE_ERR and raises source 273; a command beyond its age raises 272 with its tag; a
claim is granted at once where no pass of the fast path runs, and withdrawn at once; an expired lease raises 274; an activation past its time swaps the
image, and fetch resumes once swapped. Clauses without a frame state their effects under the conditions of normal execution alone, whatever else follows in
the same step. -/
def Obligations.HandOff : Prop :=
  (∀ (s : State) (d : Cmd), s.on CQE_HQ_CTL.ENABLE 0 = true → s.hqFull = false → s.cqe.handQ.head?.bind s.cmd = some d → s.accessFault .cqe atWrite (s.get
    CQE_HQ_BASE.ADDR 0 * 4096 + 128 * (s.get CQE_HQ_PTR.WR 0 % s.hqSize)) 128 = none → s.region (s.get CQE_HQ_BASE.ADDR 0 * 4096 + 128 * (s.get
    CQE_HQ_PTR.WR 0 % s.hqSize)) 128 = some .dram → Completes (.handoffEntryWrite none) s fun t => Unchanged [(.CQE_HQ_PTR, 0), (.CQE_HQ_CTL, 0),
    (.BMU_EVB_STAT, 0), (.BMU_STAT, 0)] [.cqe, .bmu, .free] [(s.get CQE_HQ_BASE.ADDR 0 * 4096 + 128 * (s.get CQE_HQ_PTR.WR 0 % s.hqSize), 128)] s t ∧ t.get
    CQE_HQ_PTR.WR 0 = (s.get CQE_HQ_PTR.WR 0 % s.hqSize + 1) % s.hqSize ∧ d.ctag ∉ t.cqe.handQ ∧ (∃ e ∈ t.cmd d.ctag, e.handed = true ∧ e.hq = s.get
    CQE_HQ_PTR.WR 0 % s.hqSize) ∧ t.bytes (s.get CQE_HQ_BASE.ADDR 0 * 4096 + 128 * (s.get CQE_HQ_PTR.WR 0 % s.hqSize)) 128 = (hqWords d (d.want.getD 0)
    (Config.freeValue s.freeCtr % 2 ^ 40)).flatMap fun w => leBytes 4 w.toNat) ∧
  (∀ (s : State) (g : BitVec 40) (n : Nat), s.on CQE_HQ_CTL.ENABLE 0 = true → s.hqFull = false → s.partialRow g.toNat = some n → s.accessFault .cqe atWrite
    (s.get CQE_HQ_BASE.ADDR 0 * 4096 + 128 * (s.get CQE_HQ_PTR.WR 0 % s.hqSize)) 128 = none → s.region (s.get CQE_HQ_BASE.ADDR 0 * 4096 + 128 * (s.get
    CQE_HQ_PTR.WR 0 % s.hqSize)) 128 = some .dram → Completes (.handoffEntryWrite (some g)) s fun t => Unchanged [(.CQE_HQ_PTR, 0), (.CQE_HQ_CTL, 0),
    (.BMU_EVB_STAT, 0), (.BMU_STAT, 0)] [.cqe, .bmu, .free] [(s.get CQE_HQ_BASE.ADDR 0 * 4096 + 128 * (s.get CQE_HQ_PTR.WR 0 % s.hqSize), 128)] s t ∧ t.get
    CQE_HQ_PTR.WR 0 = (s.get CQE_HQ_PTR.WR 0 % s.hqSize + 1) % s.hqSize ∧ ∃ c ∈ t.cqe.cmds, c.kind = kdDestage ∧ c.ns = some n ∧ c.lba = s.rowLba n g.toNat
    0 ∧ c.n = s.nsD n) ∧
  (∀ (s : State) (m : Master) (v : Word), Completes (.cqeDoneDw0 m v) s fun t => Unchanged [] [.cqe] [] s t ∧ (m.id, v.toNat) ∈ t.cqe.dw0) ∧
  (∀ (s : State) (m : Master) (k : BitVec 12) (sct : Fin 8) (sc : Byte) (dnr : Bool) (d : Cmd) (x : SubQ) (y : ComQ), s.cmd k.toNat = some d → d.handed = true
    → d.silent = false → s.isSas = false → s.cqe.cmds = [d] → (s.port d.port).sq d.sqid = some x → (s.port d.port).cq x.cq = some y → y.full = false →
    y.ien = false → Completes (.cqeDone m k sct sc dnr) s fun t => ChangesOnly [.CQE_STAT, .CQE_OVL_STAT, .BMU_SLOT_STAT] [.cqe, .bmu, .hif, .out] false s
    t ∧ t.cqe.cmds = [] ∧ t.out = .completion d.port d.sqid d.cid sct sc.toNat dnr (((s.cqe.dw0.find? fun e => e.1 == m.id).map (·.2)).getD 0) :: s.out) ∧
  (∀ (s : State) (m : Master) (k : BitVec 12) (sct : Fin 8) (sc : Byte) (dnr : Bool) (d : Cmd) (x : SubQ) (y : ComQ), s.cmd k.toNat = some d → d.handed = true
    → d.silent = false → s.isSas = false → (s.port d.port).sq d.sqid = some x → (s.port d.port).cq x.cq = some y → y.full = false → Completes (.cqeDone m k
    sct sc dnr) s fun t => (∀ c ∈ t.cqe.cmds, c.ctag ≠ k.toNat) ∧ .completion d.port d.sqid d.cid sct sc.toNat dnr (((s.cqe.dw0.find? fun e => e.1 ==
    m.id).map (·.2)).getD 0) ∈ t.out) ∧
  (∀ (s : State) (m : Master) (k : BitVec 12) (sct : Fin 8) (sc : Byte) (dnr : Bool) (d : Cmd), s.cmd k.toNat = some d → d.handed = true → d.silent = false →
    s.isSas = true → Completes (.cqeDone m k sct sc dnr) s fun t => (∀ c ∈ t.cqe.cmds, c.ctag ≠ k.toNat) ∧ .frame "SAS" "response" ([d.port, d.nexus,
    d.cid] ++ sasStatus sct sc.toNat) ∈ t.out) ∧
  (∀ (s : State) (m : Master) (k : BitVec 12) (sct : Fin 8) (sc : Byte) (dnr : Bool), (∀ d ∈ s.cmd k.toNat, d.handed = false) → s.quiet 273 → Completes
    (.cqeDone m k sct sc dnr) s fun t => Unchanged ((.CQE_STAT, 0) :: countRegs 273) [.fcu] [] s t ∧ t.get CQE_STAT.DONE_ERR 0 = 1 ∧ Counted 273 (detail 0)
    s t) ∧
  (∀ (s : State) (k : BitVec 12) (d : Cmd), s.cmd k.toNat = some d → d.time + 100 * tickMs * max 1 (s.get CQE_AGE.AGE_LIM 0) ≤ s.time → s.quiet 272 →
    Completes (.commandAgeLimit k) s fun t => Unchanged ((.CQE_AGE, 0) :: countRegs 272) [.fcu] [] s t ∧ t.get CQE_AGE.AGE_EVT 0 = 1 ∧ t.get
    CQE_AGE.AGE_TAG 0 = k.toNat ∧ Counted 272 (detail 0) s t) ∧
  (∀ (s : State) (a : Fin 4), (∀ e ∈ s.sve.pass, e.1 ≠ a.val ∨ e.2.issuer ≠ 0) → s.bitF CQE_CLAIM.GRANT 0 a = false → Completes (.actuatorClaim a true) s fun
    t => Unchanged [(.CQE_CLAIM, 0)] [.cqe, .out] [] s t ∧ t.bitF CQE_CLAIM.CLAIM 0 a = true ∧ t.bitF CQE_CLAIM.GRANT 0 a = true ∧ t.out = .event "claim
    granted" [a.val] :: s.out ∧ t.cqe = { s.cqe with grantAt := s.cqe.grantAt.filter (fun e => e.1 != a.val) ++ [(a.val, s.time)] }) ∧
  (∀ (s : State) (a : Fin 4), (∃ e ∈ s.sve.pass, e.1 = a.val ∧ e.2.issuer = 0) → Completes (.actuatorClaim a true) s fun t => Unchanged [(.CQE_CLAIM, 0)] []
    [] s t ∧ t.bitF CQE_CLAIM.CLAIM 0 a = true ∧ t.bitF CQE_CLAIM.GRANT 0 a = s.bitF CQE_CLAIM.GRANT 0 a) ∧
  (∀ (s : State) (a : Fin 4), Completes (.actuatorClaim a false) s fun t => Unchanged [(.CQE_CLAIM, 0)] [] [] s t ∧ t.bitF CQE_CLAIM.CLAIM 0 a = false ∧
    t.bitF CQE_CLAIM.GRANT 0 a = false ∧ ∀ b < 4, b ≠ a.val → t.bitF CQE_CLAIM.GRANT 0 b = s.bitF CQE_CLAIM.GRANT 0 b) ∧
  (∀ (s : State) (a : Fin 4), s.bitF CQE_CLAIM.GRANT 0 a = true → (((s.cqe.grantAt.find? fun e => e.1 == a.val).map (·.2)).getD 0 + tickMs * max 1 (s.get
    CQE_CLAIM.LEASE 0) < s.time) → s.quiet 274 → Completes (.claimLeaseExpiry a) s fun t => Unchanged ((.CQE_CLAIM, 0) :: countRegs 274) [.fcu] [] s t ∧
    t.get CQE_CLAIM.LEASE_EVT 0 = 1 ∧ t.bitF CQE_CLAIM.GRANT 0 a = true ∧ Counted 274 (detail a) s t) ∧
  (∀ (s : State), s.cqe.activating = true → s.cqe.swapped = false → s.cqe.actAt + 2 * tickSec ≤ s.ptm.ticks → Completes (.activationTimeout) s fun t =>
    ChangesOnly [.BMU_EVB_STAT, .BMU_STAT, .PCX_PROT_STAT] [.bmu, .cqe, .fcu, .out, .pcx] true s t ∧ t.cqe.swapped = true ∧ t.cqe.activating = true ∧
    .event "application image swapped" [] ∈ t.out ∧ ∀ c ∈ s.cqe.cmds, s.consumed c = true → c.ctag ∈ t.cqe.handQ) ∧
  (∀ (s : State), s.cqe.activating = true → s.cqe.swapped = true ∨ s.cqe.cmds.all s.isAer = true → Completes (.activationResume) s fun t => ChangesOnly
    [.BMU_EVB_STAT, .BMU_STAT, .CQE_STAT, .HIF_PORT_STAT, .PCX_PROT_STAT] [.bmu, .cqe, .fcu, .hif, .out, .pcx] true s t ∧ t.cqe.activating = false ∧
    t.cqe.swapped = false ∧ (t.port 0).pp = false ∧ (t.port 1).pp = false ∧ t.get CQE_STAT.STATE 0 = b2n (s.on CQE_CFG.FETCH_HOLD 0))

/-- A submission doorbell of an enabled controller sets the queue's tail; a completion doorbell sets the head, and completions held go out; an enable makes the
admin queues and, once BOOT lets fetch run, RDY; a reset discards the controller's queues and requests, leaving only writes whose data arrived, silent,
among its commands; its end clears RDY; a normal shutdown stops fetch with SHST 1, and is complete with SHST 2 when nothing is held and every version is
power-safe; an abrupt one is a reset with SHST 1, complete at its end; a coalescing time sends the interrupt held. -/
def Obligations.DoorbellsAndControllers : Prop :=
  (∀ (s : State) (q : Fin 2) (i : Fin 65) (tail : Fin 4096) (x : SubQ), (s.port q).en = true → (s.port q).sq i = some x → tail.val < x.size → Completes
    (.sqTailDoorbell q i tail) s fun t => Unchanged [] [.hif] [] s t ∧ (t.port q).sq i = some { x with tail := tail } ∧ (t.port q).cqs = (s.port q).cqs) ∧
  (∀ (s : State) (q : Fin 2) (i : Fin 65) (head : Fin 4096) (x : ComQ), (s.port q).en = true → (s.port q).cq i = some x → head.val < x.size → x.held = [] →
    Completes (.cqHeadDoorbell q i head) s fun t => Unchanged [] [.hif] [] s t ∧ (t.port q).cq i = some { x with head := head }) ∧
  (∀ (s : State) (q : Fin 2) (i : Fin 65) (head : Fin 4096) (x : ComQ) (o : Out), (s.port q).en = true → (s.port q).cq i = some x → head.val < x.size → x.held
    = [o] → x.ien = false → ({ x with head := head } : ComQ).used + 1 < x.size → Completes (.cqHeadDoorbell q i head) s fun t => Unchanged [] [.hif, .out]
    [] s t ∧ t.out = o :: s.out ∧ ∃ y ∈ (t.port q).cq i, y.held = [] ∧ y.tail = (x.tail + 1) % x.size ∧ y.head = head.val) ∧
  (∀ (s : State) (q : Fin 2) (i : Fin 65) (head : Fin 4096) (x : ComQ), (s.port q).en = true → (s.port q).cq i = some x → head.val < x.size → Completes
    (.cqHeadDoorbell q i head) s fun t => Unchanged [] [.hif, .out] [] s t ∧ ∃ y ∈ (t.port q).cq i, y.head = head.val ∧ y.size = x.size ∧ y.held <:+ x.held
    ∧ (y.held = [] ∨ y.full = true)) ∧
  (∀ (s : State) (q : Fin 2) (asqs acqs : Fin 256) (wrr : Bool), s.isSas = false → s.portExists q = true → s.portUp q = true → (s.port q).en = false →
    Completes (.controllerEnable q ⟨asqs, acqs⟩ wrr) s fun t => Unchanged [(.HIF_PORT_STAT, q.val)] [.hif] [] s t ∧ (t.port q).en = true ∧ (t.port q).wrr =
    wrr ∧ (t.port q).sqs = [{ id := 0, size := asqs + 1, cq := 0 }] ∧ (t.port q).cqs = [{ id := 0, size := acqs + 1 }] ∧ (t.port q).shn = none ∧ (t.port
    q).shst = 0 ∧ ((s.port q).resetting = false → s.on PTM_BOOT_STAT.FETCH_EN 0 = true → (t.port q).rdy = true ∧ t.get HIF_PORT_STAT.CTRL_RDY q = 1)) ∧
  (∀ (s : State) (q : Fin 2), (s.port q).en = true → Completes (.controllerReset q) s fun t => ChangesOnly [.BMU_CCC_STAT, .BMU_EVB_STAT, .BMU_SLOT_STAT,
    .BMU_STAT, .CQE_OVL_STAT, .CQE_STAT, .PCX_PROT_STAT, .PTM_MODE_STAT, .RDC_PAL_STAT, .SPL_MEMBERS, .SPL_STAT, .SPN_CTL, .SPN_ORR_STAT, .SPN_STAT,
    .SVE_CTX_CFG, .SVE_CTX_MAN, .SVE_CTX_STAT, .SVE_SEEK_STAT, .WRC_RWL_CTL, .WRC_RWL_PTR, .WRC_WR_STAT, .WRC_WUS_STAT] [.bmu, .cqe, .fcu, .hif, .out,
    .ptm, .rdc, .spl, .spn, .sve, .wrc] true s t ∧ (t.port q).en = false ∧ (t.port q).sqs = [] ∧ (t.port q).cqs = [] ∧ (t.port q).aers = [] ∧ (t.port
    q).resetting = (s.port q).rdy ∧ ∀ c ∈ t.cqe.cmds, c.port = q.val → c.silent = true ∧ c.writes = true ∧ c.arrived = true) ∧
  (∀ (s : State) (q : Fin 2), (s.port q).resetting = true → Completes (.controllerResetComplete q) s fun t => Unchanged [(.HIF_PORT_STAT, q.val)] [.hif] [] s
    t ∧ (t.port q).resetting = false ∧ ((s.port q).en = false ∨ s.on PTM_BOOT_STAT.FETCH_EN 0 = false → (t.port q).rdy = false ∧ t.get
    HIF_PORT_STAT.CTRL_RDY q = 0 ∧ (t.port q).shst = if (s.port q).abrupt then 2 else (s.port q).shst) ∧ ((s.port q).en = true → s.on
    PTM_BOOT_STAT.FETCH_EN 0 = true → (t.port q).rdy = true ∧ t.get HIF_PORT_STAT.CTRL_RDY q = 1)) ∧
  (∀ (s : State) (q : Fin 2), (s.port q).en = true → (s.port q).shn = none → Completes (.shutdownNormal q) s fun t => Unchanged [] [.hif] [] s t ∧ (t.port
    q).shst = 1 ∧ (t.port q).shn = some s.cqe.nextSeq ∧ (s.isSas = false → t.portFetches q = false)) ∧
  (∀ (s : State) (q : Fin 2) (n : Nat), (s.port q).shn = some n → (s.cqe.cmds.any (fun c => c.port == q.val && !s.isAer c || c.writes && !c.arrived && older
    c.seq n) = false) → (s.cqe.overlay.all (fun v => !older v.seq n || s.verSafe v) = true) → Completes (.shutdownComplete q) s fun t => Unchanged []
    [.hif] [] s t ∧ (t.port q).shst = 2 ∧ (t.port q).en = (s.port q).en) ∧
  (∀ (s : State) (q : Fin 2), (s.port q).en = true → Completes (.shutdownAbrupt q) s fun t => ChangesOnly [.BMU_CCC_STAT, .BMU_EVB_STAT, .BMU_SLOT_STAT,
    .BMU_STAT, .CQE_OVL_STAT, .CQE_STAT, .PCX_PROT_STAT, .PTM_MODE_STAT, .RDC_PAL_STAT, .SPL_MEMBERS, .SPL_STAT, .SPN_CTL, .SPN_ORR_STAT, .SPN_STAT,
    .SVE_CTX_CFG, .SVE_CTX_MAN, .SVE_CTX_STAT, .SVE_SEEK_STAT, .WRC_RWL_CTL, .WRC_RWL_PTR, .WRC_WR_STAT, .WRC_WUS_STAT] [.bmu, .cqe, .fcu, .hif, .out,
    .ptm, .rdc, .spl, .spn, .sve, .wrc] true s t ∧ (t.port q).shst = 1 ∧ (t.port q).abrupt = true ∧ (t.port q).en = false ∧ (t.port q).sqs = [] ∧ (t.port
    q).resetting = true) ∧
  (∀ (s : State) (q : Fin 2) (i : Fin 65) (x : ComQ), (s.port q).cq i = some x → i.val ≠ 0 → x.coalesced ≠ 0 → x.ien = true → x.heldAt + (s.port
    q).coalesceTime ≤ s.ptm.ticks → Completes (.interruptCoalescingTimeout q i) s fun t => Unchanged [] [.hif, .out] [] s t ∧ t.out = .frame "HL"
    "interrupt" [q, x.vector] :: s.out ∧ (t.port q).cq i = some { x with coalesced := 0 })

/-- A port that may train comes up at the lower of the rates, and at a width within the limits; a link that goes down, an in-band reset, a SAS hard reset,
DISABLE of a port that is up, an assertion of PERST# are a loss of the port: LINK 0, LOST set, the loss counted, its controller reset, its source counted
and a record staged; RETRAIN trains again; the reference clock marks the ports on it; L1 and L2 are entered and left, PME_Turn_Off being no loss. Clauses
without a frame state their effects under the conditions of normal execution alone, whatever else follows in the same step. -/
def Obligations.HostPorts : Prop :=
  (∀ (s : State) (q : Fin 2) (rate : Fin 8) (width : Fin 5), s.mayTrain q = true → s.portUp q = false → s.isSas = false → 1 ≤ rate.val ∧ rate.val ≤ 5 ∧ 1 ≤
    width.val → Completes (.hostLinkUp q rate width) s fun t => Unchanged [(.HIF_PORT_STAT, q.val)] [.hif] [] s t ∧ t.get HIF_PORT_STAT.LINK q = 2 ∧ t.get
    HIF_PORT_STAT.RATE q = min rate.val (s.maxRate q) ∧ t.get HIF_PORT_STAT.WIDTH q ≤ min width.val (s.maxWidth q) ∧ (t.port q).l2 = false) ∧
  (∀ (s : State) (q : Fin 2) (rate : Fin 8) (width : Fin 5), s.mayTrain q = true → s.portUp q = false → s.isSas = true → rate.val = 6 ∨ rate.val = 7 →
    Completes (.hostLinkUp q rate width) s fun t => Unchanged [(.HIF_PORT_STAT, q.val)] [] [] s t ∧ t.get HIF_PORT_STAT.LINK q = 2 ∧ t.get
    HIF_PORT_STAT.WIDTH q = 1) ∧
  (∀ (s : State) (q : Fin 2), s.isSas = false → s.portUp q = true → s.quiet (264 + q) → s.alm.staged.length < stagingSize → Completes (.dlDown q) s fun t =>
    ChangesOnly [.ALM_STAT, .BMU_CCC_STAT, .BMU_EVB_STAT, .BMU_SLOT_STAT, .BMU_STAT, .CQE_OVL_STAT, .CQE_STAT, .FCU_FEC_ADDR, .FCU_FEC_INFO, .FCU_FEC_TIME,
    .FCU_SRC_STAT, .HIF_PORT_STAT, .PCX_PROT_STAT, .PTM_MODE_STAT, .RDC_PAL_STAT, .SPL_MEMBERS, .SPL_STAT, .SPN_CTL, .SPN_ORR_STAT, .SPN_STAT,
    .SVE_CTX_CFG, .SVE_CTX_MAN, .SVE_CTX_STAT, .SVE_SEEK_STAT, .WRC_RWL_CTL, .WRC_RWL_PTR, .WRC_WR_STAT, .WRC_WUS_STAT] [.alm, .bmu, .cqe, .fcu, .hif,
    .out, .ptm, .rdc, .spl, .spn, .sve, .wrc] true s t ∧ t.get HIF_PORT_STAT.LINK q = 0 ∧ t.get HIF_PORT_STAT.LOST q = 1 ∧ t.get HIF_PORT_STAT.WIDTH q = 0
    ∧ t.get HIF_PORT_STAT.CTRL_RDY q = 0 ∧ t.get HIF_PORT_STAT.DOWN_CNT q = satAdd (s.get HIF_PORT_STAT.DOWN_CNT q) 1 255 ∧ (t.port q).en = false ∧ (t.port
    q).sqs = [] ∧ t.alm.staged.length = s.alm.staged.length + 1 ∧ Counted (264 + q) (detail q) s t) ∧
  (∀ (s : State) (q : Fin 2), s.portUp q = true → s.quiet (264 + q) → s.alm.staged.length < stagingSize → Completes (.hostRecoveryTimeout q) s fun t =>
    ChangesOnly [.ALM_STAT, .BMU_CCC_STAT, .BMU_EVB_STAT, .BMU_SLOT_STAT, .BMU_STAT, .CQE_OVL_STAT, .CQE_STAT, .FCU_FEC_ADDR, .FCU_FEC_INFO, .FCU_FEC_TIME,
    .FCU_SRC_STAT, .HIF_PORT_STAT, .PCX_PROT_STAT, .PTM_MODE_STAT, .RDC_PAL_STAT, .SPL_MEMBERS, .SPL_STAT, .SPN_CTL, .SPN_ORR_STAT, .SPN_STAT,
    .SVE_CTX_CFG, .SVE_CTX_MAN, .SVE_CTX_STAT, .SVE_SEEK_STAT, .WRC_RWL_CTL, .WRC_RWL_PTR, .WRC_WR_STAT, .WRC_WUS_STAT] [.alm, .bmu, .cqe, .fcu, .hif,
    .out, .ptm, .rdc, .spl, .spn, .sve, .wrc] true s t ∧ t.get HIF_PORT_STAT.LINK q = 0 ∧ t.get HIF_PORT_STAT.LOST q = 1 ∧ t.get HIF_PORT_STAT.WIDTH q = 0
    ∧ t.get HIF_PORT_STAT.CTRL_RDY q = 0 ∧ t.get HIF_PORT_STAT.DOWN_CNT q = satAdd (s.get HIF_PORT_STAT.DOWN_CNT q) 1 255 ∧ (t.port q).en = false ∧ (t.port
    q).sqs = [] ∧ t.alm.staged.length = s.alm.staged.length + 1 ∧ Counted (264 + q) (detail q) s t) ∧
  (∀ (s : State) (q : Fin 2), s.isSas = false → s.portUp q = true → s.quiet (264 + q) → s.alm.staged.length < stagingSize → Completes (.hotReset q) s fun t =>
    ChangesOnly [.ALM_STAT, .BMU_CCC_STAT, .BMU_EVB_STAT, .BMU_SLOT_STAT, .BMU_STAT, .CQE_OVL_STAT, .CQE_STAT, .FCU_FEC_ADDR, .FCU_FEC_INFO, .FCU_FEC_TIME,
    .FCU_SRC_STAT, .HIF_PORT_STAT, .PCX_PROT_STAT, .PTM_MODE_STAT, .RDC_PAL_STAT, .SPL_MEMBERS, .SPL_STAT, .SPN_CTL, .SPN_ORR_STAT, .SPN_STAT,
    .SVE_CTX_CFG, .SVE_CTX_MAN, .SVE_CTX_STAT, .SVE_SEEK_STAT, .WRC_RWL_CTL, .WRC_RWL_PTR, .WRC_WR_STAT, .WRC_WUS_STAT] [.alm, .bmu, .cqe, .fcu, .hif,
    .out, .ptm, .rdc, .spl, .spn, .sve, .wrc] true s t ∧ t.get HIF_PORT_STAT.LINK q = 0 ∧ t.get HIF_PORT_STAT.LOST q = 1 ∧ t.get HIF_PORT_STAT.WIDTH q = 0
    ∧ t.get HIF_PORT_STAT.CTRL_RDY q = 0 ∧ t.get HIF_PORT_STAT.DOWN_CNT q = satAdd (s.get HIF_PORT_STAT.DOWN_CNT q) 1 255 ∧ (t.port q).en = false ∧ (t.port
    q).sqs = [] ∧ t.alm.staged.length = s.alm.staged.length + 1 ∧ Counted (264 + q) (detail q) s t) ∧
  (∀ (s : State) (q : Fin 2), s.isSas = false → s.portUp q = true → s.quiet (264 + q) → s.alm.staged.length < stagingSize → Completes (.functionLevelReset q)
    s fun t => ChangesOnly [.ALM_STAT, .BMU_CCC_STAT, .BMU_EVB_STAT, .BMU_SLOT_STAT, .BMU_STAT, .CQE_OVL_STAT, .CQE_STAT, .FCU_FEC_ADDR, .FCU_FEC_INFO,
    .FCU_FEC_TIME, .FCU_SRC_STAT, .HIF_PORT_STAT, .PCX_PROT_STAT, .PTM_MODE_STAT, .RDC_PAL_STAT, .SPL_MEMBERS, .SPL_STAT, .SPN_CTL, .SPN_ORR_STAT,
    .SPN_STAT, .SVE_CTX_CFG, .SVE_CTX_MAN, .SVE_CTX_STAT, .SVE_SEEK_STAT, .WRC_RWL_CTL, .WRC_RWL_PTR, .WRC_WR_STAT, .WRC_WUS_STAT] [.alm, .bmu, .cqe, .fcu,
    .hif, .out, .ptm, .rdc, .spl, .spn, .sve, .wrc] true s t ∧ t.get HIF_PORT_STAT.LINK q = 0 ∧ t.get HIF_PORT_STAT.LOST q = 1 ∧ t.get HIF_PORT_STAT.WIDTH
    q = 0 ∧ t.get HIF_PORT_STAT.CTRL_RDY q = 0 ∧ t.get HIF_PORT_STAT.DOWN_CNT q = satAdd (s.get HIF_PORT_STAT.DOWN_CNT q) 1 255 ∧ (t.port q).en = false ∧
    (t.port q).sqs = [] ∧ t.alm.staged.length = s.alm.staged.length + 1 ∧ Counted (264 + q) (detail q) s t) ∧
  (∀ (s : State) (q : Fin 2), s.isSas = false → s.portUp q = true → s.quiet (264 + q) → s.alm.staged.length < stagingSize → Completes (.linkDisable q) s fun t
    => ChangesOnly [.ALM_STAT, .BMU_CCC_STAT, .BMU_EVB_STAT, .BMU_SLOT_STAT, .BMU_STAT, .CQE_OVL_STAT, .CQE_STAT, .FCU_FEC_ADDR, .FCU_FEC_INFO,
    .FCU_FEC_TIME, .FCU_SRC_STAT, .HIF_PORT_STAT, .PCX_PROT_STAT, .PTM_MODE_STAT, .RDC_PAL_STAT, .SPL_MEMBERS, .SPL_STAT, .SPN_CTL, .SPN_ORR_STAT,
    .SPN_STAT, .SVE_CTX_CFG, .SVE_CTX_MAN, .SVE_CTX_STAT, .SVE_SEEK_STAT, .WRC_RWL_CTL, .WRC_RWL_PTR, .WRC_WR_STAT, .WRC_WUS_STAT] [.alm, .bmu, .cqe, .fcu,
    .hif, .out, .ptm, .rdc, .spl, .spn, .sve, .wrc] true s t ∧ t.get HIF_PORT_STAT.LINK q = 0 ∧ t.get HIF_PORT_STAT.LOST q = 1 ∧ t.get HIF_PORT_STAT.WIDTH
    q = 0 ∧ t.get HIF_PORT_STAT.CTRL_RDY q = 0 ∧ t.get HIF_PORT_STAT.DOWN_CNT q = satAdd (s.get HIF_PORT_STAT.DOWN_CNT q) 1 255 ∧ (t.port q).en = false ∧
    (t.port q).sqs = [] ∧ t.alm.staged.length = s.alm.staged.length + 1 ∧ Counted (264 + q) (detail q) s t) ∧
  (∀ (s : State) (q : Fin 2), s.isSas = true → s.portUp q = true → s.quiet (264 + q) → s.alm.staged.length < stagingSize → Completes (.sasHardReset q) s fun t
    => ChangesOnly [.ALM_STAT, .BMU_CCC_STAT, .BMU_EVB_STAT, .BMU_SLOT_STAT, .BMU_STAT, .CQE_OVL_STAT, .CQE_STAT, .FCU_FEC_ADDR, .FCU_FEC_INFO,
    .FCU_FEC_TIME, .FCU_SRC_STAT, .HIF_PORT_STAT, .PCX_PROT_STAT, .PTM_MODE_STAT, .RDC_PAL_STAT, .SPL_MEMBERS, .SPL_STAT, .SPN_CTL, .SPN_ORR_STAT,
    .SPN_STAT, .SVE_CTX_CFG, .SVE_CTX_MAN, .SVE_CTX_STAT, .SVE_SEEK_STAT, .WRC_RWL_CTL, .WRC_RWL_PTR, .WRC_WR_STAT, .WRC_WUS_STAT] [.alm, .bmu, .cqe, .fcu,
    .hif, .out, .ptm, .rdc, .spl, .spn, .sve, .wrc] true s t ∧ t.get HIF_PORT_STAT.LINK q = 0 ∧ t.get HIF_PORT_STAT.LOST q = 1 ∧ t.get HIF_PORT_STAT.WIDTH
    q = 0 ∧ t.get HIF_PORT_STAT.CTRL_RDY q = 0 ∧ t.get HIF_PORT_STAT.DOWN_CNT q = satAdd (s.get HIF_PORT_STAT.DOWN_CNT q) 1 255 ∧ (t.port q).en = false ∧
    (t.port q).sqs = [] ∧ t.alm.staged.length = s.alm.staged.length + 1 ∧ Counted (264 + q) (detail q) s t) ∧
  (∀ (s : State) (q : Fin 2), s.portUp q = true → s.quiet (264 + q) → s.alm.staged.length < stagingSize → Completes (.portDisable q) s fun t => ChangesOnly
    [.ALM_STAT, .BMU_CCC_STAT, .BMU_EVB_STAT, .BMU_SLOT_STAT, .BMU_STAT, .CQE_OVL_STAT, .CQE_STAT, .FCU_FEC_ADDR, .FCU_FEC_INFO, .FCU_FEC_TIME,
    .FCU_SRC_STAT, .HIF_PORT_CTL, .HIF_PORT_STAT, .PCX_PROT_STAT, .PTM_MODE_STAT, .RDC_PAL_STAT, .SPL_MEMBERS, .SPL_STAT, .SPN_CTL, .SPN_ORR_STAT,
    .SPN_STAT, .SVE_CTX_CFG, .SVE_CTX_MAN, .SVE_CTX_STAT, .SVE_SEEK_STAT, .WRC_RWL_CTL, .WRC_RWL_PTR, .WRC_WR_STAT, .WRC_WUS_STAT] [.alm, .bmu, .cqe, .fcu,
    .hif, .out, .ptm, .rdc, .spl, .spn, .sve, .wrc] true s t ∧ t.get HIF_PORT_STAT.LINK q = 0 ∧ t.get HIF_PORT_STAT.LOST q = 1 ∧ t.get HIF_PORT_STAT.WIDTH
    q = 0 ∧ t.get HIF_PORT_STAT.CTRL_RDY q = 0 ∧ t.get HIF_PORT_STAT.DOWN_CNT q = satAdd (s.get HIF_PORT_STAT.DOWN_CNT q) 1 255 ∧ (t.port q).en = false ∧
    (t.port q).sqs = [] ∧ t.alm.staged.length = s.alm.staged.length + 1 ∧ Counted (264 + q) (detail q) s t ∧ t.get HIF_PORT_CTL.DISABLE q = 1) ∧
  (∀ (s : State) (q : Fin 2), s.on HIF_CFG.PERST_EN 0 = true → s.isSas = false → s.portExists q = true → (s.port q).perst = false → s.quiet (264 + q) →
    s.alm.staged.length < stagingSize → Completes (.perstAssert q) s fun t => ChangesOnly [.ALM_STAT, .BMU_CCC_STAT, .BMU_EVB_STAT, .BMU_SLOT_STAT,
    .BMU_STAT, .CQE_OVL_STAT, .CQE_STAT, .FCU_FEC_ADDR, .FCU_FEC_INFO, .FCU_FEC_TIME, .FCU_SRC_STAT, .HIF_PORT_STAT, .PCX_PROT_STAT, .PTM_GPIO_IN,
    .PTM_MODE_STAT, .RDC_PAL_STAT, .SPL_MEMBERS, .SPL_STAT, .SPN_CTL, .SPN_ORR_STAT, .SPN_STAT, .SVE_CTX_CFG, .SVE_CTX_MAN, .SVE_CTX_STAT, .SVE_SEEK_STAT,
    .WRC_RWL_CTL, .WRC_RWL_PTR, .WRC_WR_STAT, .WRC_WUS_STAT] [.alm, .bmu, .cqe, .fcu, .hif, .out, .ptm, .rdc, .spl, .spn, .sve, .wrc] true s t ∧ t.get
    HIF_PORT_STAT.LINK q = 0 ∧ t.get HIF_PORT_STAT.LOST q = 1 ∧ t.get HIF_PORT_STAT.WIDTH q = 0 ∧ t.get HIF_PORT_STAT.CTRL_RDY q = 0 ∧ t.get
    HIF_PORT_STAT.DOWN_CNT q = satAdd (s.get HIF_PORT_STAT.DOWN_CNT q) 1 255 ∧ (t.port q).en = false ∧ (t.port q).sqs = [] ∧ t.alm.staged.length =
    s.alm.staged.length + 1 ∧ Counted (264 + q) (detail q) s t ∧ (t.port q).perst = true ∧ t.bitF PTM_GPIO_IN.IN 0 q = false) ∧
  (∀ (s : State) (q : Fin 2), s.isSas = false → s.portUp q = true → Completes (.dlDown q) s fun t => t.get HIF_PORT_STAT.LINK q = 0 ∧ t.get HIF_PORT_STAT.LOST
    q = 1 ∧ t.get HIF_PORT_STAT.WIDTH q = 0 ∧ t.get HIF_PORT_STAT.CTRL_RDY q = 0 ∧ t.get HIF_PORT_STAT.DOWN_CNT q = satAdd (s.get HIF_PORT_STAT.DOWN_CNT q)
    1 255 ∧ (t.port q).en = false ∧ (t.port q).sqs = []) ∧
  (∀ (s : State) (q : Fin 2), s.portUp q = true → Completes (.hostRecoveryTimeout q) s fun t => t.get HIF_PORT_STAT.LINK q = 0 ∧ t.get HIF_PORT_STAT.LOST q =
    1 ∧ t.get HIF_PORT_STAT.WIDTH q = 0 ∧ t.get HIF_PORT_STAT.CTRL_RDY q = 0 ∧ t.get HIF_PORT_STAT.DOWN_CNT q = satAdd (s.get HIF_PORT_STAT.DOWN_CNT q) 1
    255 ∧ (t.port q).en = false ∧ (t.port q).sqs = []) ∧
  (∀ (s : State) (q : Fin 2), s.isSas = false → s.portUp q = true → Completes (.hotReset q) s fun t => t.get HIF_PORT_STAT.LINK q = 0 ∧ t.get
    HIF_PORT_STAT.LOST q = 1 ∧ t.get HIF_PORT_STAT.WIDTH q = 0 ∧ t.get HIF_PORT_STAT.CTRL_RDY q = 0 ∧ t.get HIF_PORT_STAT.DOWN_CNT q = satAdd (s.get
    HIF_PORT_STAT.DOWN_CNT q) 1 255 ∧ (t.port q).en = false ∧ (t.port q).sqs = []) ∧
  (∀ (s : State) (q : Fin 2), s.isSas = false → s.portUp q = true → Completes (.functionLevelReset q) s fun t => t.get HIF_PORT_STAT.LINK q = 0 ∧ t.get
    HIF_PORT_STAT.LOST q = 1 ∧ t.get HIF_PORT_STAT.WIDTH q = 0 ∧ t.get HIF_PORT_STAT.CTRL_RDY q = 0 ∧ t.get HIF_PORT_STAT.DOWN_CNT q = satAdd (s.get
    HIF_PORT_STAT.DOWN_CNT q) 1 255 ∧ (t.port q).en = false ∧ (t.port q).sqs = []) ∧
  (∀ (s : State) (q : Fin 2), s.isSas = false → s.portUp q = true → Completes (.linkDisable q) s fun t => t.get HIF_PORT_STAT.LINK q = 0 ∧ t.get
    HIF_PORT_STAT.LOST q = 1 ∧ t.get HIF_PORT_STAT.WIDTH q = 0 ∧ t.get HIF_PORT_STAT.CTRL_RDY q = 0 ∧ t.get HIF_PORT_STAT.DOWN_CNT q = satAdd (s.get
    HIF_PORT_STAT.DOWN_CNT q) 1 255 ∧ (t.port q).en = false ∧ (t.port q).sqs = []) ∧
  (∀ (s : State) (q : Fin 2), s.isSas = true → s.portUp q = true → Completes (.sasHardReset q) s fun t => t.get HIF_PORT_STAT.LINK q = 0 ∧ t.get
    HIF_PORT_STAT.LOST q = 1 ∧ t.get HIF_PORT_STAT.WIDTH q = 0 ∧ t.get HIF_PORT_STAT.CTRL_RDY q = 0 ∧ t.get HIF_PORT_STAT.DOWN_CNT q = satAdd (s.get
    HIF_PORT_STAT.DOWN_CNT q) 1 255 ∧ (t.port q).en = false ∧ (t.port q).sqs = []) ∧
  (∀ (s : State) (q : Fin 2), s.portUp q = true → Completes (.portDisable q) s fun t => t.get HIF_PORT_STAT.LINK q = 0 ∧ t.get HIF_PORT_STAT.LOST q = 1 ∧
    t.get HIF_PORT_STAT.WIDTH q = 0 ∧ t.get HIF_PORT_STAT.CTRL_RDY q = 0 ∧ t.get HIF_PORT_STAT.DOWN_CNT q = satAdd (s.get HIF_PORT_STAT.DOWN_CNT q) 1 255 ∧
    (t.port q).en = false ∧ (t.port q).sqs = [] ∧ t.get HIF_PORT_CTL.DISABLE q = 1) ∧
  (∀ (s : State) (q : Fin 2), s.on HIF_CFG.PERST_EN 0 = true → s.isSas = false → s.portExists q = true → (s.port q).perst = false → Completes (.perstAssert q)
    s fun t => t.get HIF_PORT_STAT.LINK q = 0 ∧ t.get HIF_PORT_STAT.LOST q = 1 ∧ t.get HIF_PORT_STAT.WIDTH q = 0 ∧ t.get HIF_PORT_STAT.CTRL_RDY q = 0 ∧
    t.get HIF_PORT_STAT.DOWN_CNT q = satAdd (s.get HIF_PORT_STAT.DOWN_CNT q) 1 255 ∧ (t.port q).en = false ∧ (t.port q).sqs = [] ∧ (t.port q).perst = true
    ∧ t.bitF PTM_GPIO_IN.IN 0 q = false) ∧
  (∀ (s : State) (q : Fin 2), s.portUp q = false → Completes (.portDisable q) s fun t => Unchanged [(.HIF_PORT_STAT, q.val), (.HIF_PORT_CTL, q.val)] [] [] s t
    ∧ t.get HIF_PORT_CTL.DISABLE q = 1 ∧ t.get HIF_PORT_STAT.LINK q = 0) ∧
  (∀ (s : State) (q : Fin 2), s.on HIF_CFG.PERST_EN 0 = false → Completes (.perstAssert q) s fun t => Unchanged [(.PTM_GPIO_IN, 0)] [] [] s t ∧ t.bitF
    PTM_GPIO_IN.IN 0 q = false) ∧
  (∀ (s : State) (q : Fin 2), Completes (.perstDeassert q) s fun t => Unchanged [(.PTM_GPIO_IN, 0), (.HIF_PORT_STAT, q.val)] [.hif] [] s t ∧ (t.port q).perst
    = false ∧ t.bitF PTM_GPIO_IN.IN 0 q = true ∧ (t.mayTrain q = true → s.isSas = false → s.portUp q = false → t.get HIF_PORT_STAT.LINK q = 1)) ∧
  (∀ (s : State) (q : Fin 2), s.portUp q = true → Completes (.retrain q) s fun t => Unchanged [(.HIF_PORT_STAT, q.val)] [] [] s t ∧ t.get HIF_PORT_STAT.LINK q
    = 1 ∧ t.get HIF_PORT_STAT.DOWN_CNT q = s.get HIF_PORT_STAT.DOWN_CNT q) ∧
  (∀ (s : State) (q : Fin 2), s.onRefclk q = true → Completes (.refclkHLoss) s fun t => Unchanged [(.HIF_PORT_STAT, 0), (.HIF_PORT_STAT, 1)] [] [] s t ∧ t.get
    HIF_PORT_STAT.REFCLK_BAD q = 1 ∧ (s.get HIF_PORT_STAT.LINK q = 1 → t.get HIF_PORT_STAT.LINK q = 0)) ∧
  (∀ (s : State) (q : Fin 2), s.onRefclk q = true → Completes (.refclkHReturn) s fun t => Unchanged [(.HIF_PORT_STAT, 0), (.HIF_PORT_STAT, 1)] [] [] s t ∧
    t.get HIF_PORT_STAT.REFCLK_BAD q = 0) ∧
  (∀ (s : State) (q : Fin 2), s.isSas = false → s.get HIF_PORT_STAT.LINK q = 2 → Completes (.linkL1Entry q) s fun t => Unchanged [(.HIF_PORT_STAT, q.val)] []
    [] s t ∧ t.get HIF_PORT_STAT.LINK q = 3 ∧ t.get HIF_PORT_STAT.RATE q = s.get HIF_PORT_STAT.RATE q) ∧
  (∀ (s : State) (q : Fin 2), s.get HIF_PORT_STAT.LINK q = 3 → Completes (.linkL1Exit q) s fun t => Unchanged [(.HIF_PORT_STAT, q.val)] [] [] s t ∧ t.get
    HIF_PORT_STAT.LINK q = 2) ∧
  (∀ (s : State) (q : Fin 2), s.isSas = false → s.portUp q = true → Completes (.pmeTurnOff q) s fun t => Unchanged [(.HIF_PORT_STAT, q.val)] [.hif] [] s t ∧
    t.get HIF_PORT_STAT.LINK q = 0 ∧ (t.port q).l2 = true ∧ t.get HIF_PORT_STAT.LOST q = s.get HIF_PORT_STAT.LOST q ∧ t.get HIF_PORT_STAT.DOWN_CNT q =
    s.get HIF_PORT_STAT.DOWN_CNT q)

/-- Outside RETENTION every request on MGMT is answered with one frame; what NVMe-MI puts into it and the spec does not give is a free value (assumption log
3). A configuration that was set is what a get returns; bytes written into the VPD are what a read returns; the admin commands that may be tunnelled reach
firmware, others are answered unsupported. -/
def Obligations.ManagementInterface : Prop :=
  (∀ (s : State) (p : BitVec 64), s.ptm.retention = false → Completes (.mctpPacket p) s fun t => Unchanged [] [.out, .free] [] s t ∧ t.out = .frame "MGMT"
    "MCTP" ([p.toNat] ++ [Config.freeValue s.freeCtr]) :: s.out) ∧
  (∀ (s : State), s.ptm.retention = false → Completes (.nvmeMiBasicManagement) s fun t => Unchanged [] [.out, .free] [] s t ∧ t.out = .frame "MGMT" "basic
    management" ([] ++ [Config.freeValue s.freeCtr]) :: s.out) ∧
  (∀ (s : State) (kind port : BitVec 8), s.ptm.retention = false → Completes (.readNvmeMiDataStructure kind port) s fun t => Unchanged [] [.out, .free] [] s t
    ∧ t.out = .frame "MGMT" "data structure" ([kind.toNat, port.toNat] ++ [Config.freeValue s.freeCtr]) :: s.out) ∧
  (∀ (s : State), s.ptm.retention = false → Completes (.subsystemHealthStatusPoll) s fun t => Unchanged [] [.out, .free] [] s t ∧ t.out = .frame "MGMT"
    "subsystem health" ([s.get HIF_PORT_STAT.LINK 0, s.get HIF_PORT_STAT.LINK 1, s.get HIF_PORT_STAT.CTRL_RDY 0, s.get HIF_PORT_STAT.CTRL_RDY 1] ++
    [Config.freeValue s.freeCtr]) :: s.out) ∧
  (∀ (s : State) (q : Fin 2), s.ptm.retention = false → Completes (.controllerHealthStatusPoll q) s fun t => Unchanged [] [.out, .free] [] s t ∧ t.out =
    .frame "MGMT" "controller health" ([q.val, b2n (s.port q).rdy, b2n (s.port q).cfs, (s.port q).shst, b2n (s.port q).pp] ++ [Config.freeValue s.freeCtr])
    :: s.out) ∧
  (∀ (s : State) (item : Byte) (v : Word), s.ptm.retention = false → Completes (.configurationSet item v) s fun t => Unchanged [] [.hif, .out, .free] [] s t ∧
    t.hif.miConfig.find? (fun e => e.1 == item.toNat) = some (item.toNat, v.toNat) ∧ t.out = .frame "MGMT" "configuration set" ([item.toNat] ++
    [Config.freeValue s.freeCtr]) :: s.out) ∧
  (∀ (s : State) (item : Byte) (v : Nat), s.ptm.retention = false → (s.hif.miConfig.find? (fun e => e.1 == item.toNat) = some (item.toNat, v)) → Completes
    (.configurationGet item) s fun t => Unchanged [] [.out] [] s t ∧ t.out = .frame "MGMT" "configuration" [item.toNat, v] :: s.out) ∧
  (∀ (s : State) (item : Byte), s.ptm.retention = false → (s.hif.miConfig.find? (fun e => e.1 == item.toNat) = none) → Completes (.configurationGet item) s
    fun t => Unchanged [] [.out, .free] [] s t ∧ t.out = .frame "MGMT" "configuration" ([item.toNat] ++ [Config.freeValue s.freeCtr]) :: s.out) ∧
  (∀ (s : State) (off len : BitVec 16), s.ptm.retention = false → Completes (.vpdRead off len) s fun t => Unchanged [] [.out] [] s t ∧ t.out = .frame "MGMT"
    "VPD" (off.toNat :: (List.range len.toNat).map fun k => ((s.kpr.vpd.find? fun e => e.1 == off.toNat + k).map (·.2)).getD (Config.vpdByte (off.toNat +
    k) % 256)) :: s.out) ∧
  (∀ (s : State) (off : BitVec 16) (bytes : List Byte), s.ptm.retention = false → Completes (.vpdWrite off bytes) s fun t => Unchanged [] [.kpr, .out, .free]
    [] s t ∧ ∀ k < bytes.length, (off.toNat + k, (bytes.getD k 0).toNat) ∈ t.kpr.vpd) ∧
  (∀ (s : State) (op : Byte) (x : Sqe), s.ptm.retention = false → op = 0x06 ∨ op = 0x02 ∨ op = 0x0A → Completes (.miTunnelledAdmin op x) s fun t => Unchanged
    [] [.out] [] s t ∧ t.out = .event "tunnelled admin" (x.words op.toNat) :: s.out) ∧
  (∀ (s : State) (op : Byte) (x : Sqe), s.ptm.retention = false → op ≠ 0x06 ∧ op ≠ 0x02 ∧ op ≠ 0x0A → Completes (.miTunnelledAdmin op x) s fun t => Unchanged
    [] [.out, .free] [] s t ∧ t.out = .frame "MGMT" "unsupported opcode" ([op.toNat] ++ [Config.freeValue s.freeCtr]) :: s.out)

/-- While the part may fetch it, an admin command is fetched: held under a free tag with the next fetch sequence number and the words of its entry, its queue's
head moves on, and it waits in the hand-off queue for firmware. Beside that a supported feature takes its value, a queue creation makes its queue, a
deletion of a completion queue that none uses removes it, a deletion of a submission queue marks it, an Asynchronous Event Request is held. An Abort of a
command not held completes with DW0 1; of a write whose data has not arrived it completes that with status 07h, then itself with DW0 0. (Opcodes and places
of fields: assumption log 30.) An Abort, whatever it names, is fetched and answered. Clauses without a frame state their effects under the conditions of
normal execution alone, whatever else follows in the same step. -/
def Obligations.AdminCommands : Prop :=
  (∀ (s : State) (q : Fin 2) (x : Sqe), s.nvmeFetch q 0 = true → Completes (.identify q x) s fun t => ChangesOnly [.CQE_STAT, .CQE_OVL_STAT] [.ptm, .cqe,
    .hif, .free] false s t ∧ Fetched { sqeCmd q 0 x 0x06 kdAdmin with n := 0, lba := 0, fua := false, want := some 0 } s t ∧ s.newTag ∈ t.cqe.handQ ∧
    TookEntry q 0 s t) ∧
  (∀ (s : State) (q : Fin 2) (x : Sqe), s.nvmeFetch q 0 = true → Completes (.getLogPage q x) s fun t => ChangesOnly [.CQE_STAT, .CQE_OVL_STAT] [.ptm, .cqe,
    .hif, .free] false s t ∧ Fetched { sqeCmd q 0 x 0x02 kdAdmin with n := 0, lba := 0, fua := false, want := some 0 } s t ∧ s.newTag ∈ t.cqe.handQ ∧
    TookEntry q 0 s t) ∧
  (∀ (s : State) (q : Fin 2) (x : Sqe), s.nvmeFetch q 0 = true → Completes (.getFeatures q x) s fun t => ChangesOnly [.CQE_STAT, .CQE_OVL_STAT] [.ptm, .cqe,
    .hif, .free] false s t ∧ Fetched { sqeCmd q 0 x 0x0A kdAdmin with n := 0, lba := 0, fua := false, want := some 0 } s t ∧ s.newTag ∈ t.cqe.handQ ∧
    TookEntry q 0 s t) ∧
  (∀ (s : State) (q : Fin 2) (x : Sqe), s.nvmeFetch q 0 = true → Completes (.namespaceManagement q x) s fun t => ChangesOnly [.CQE_STAT, .CQE_OVL_STAT] [.ptm,
    .cqe, .hif, .free] false s t ∧ Fetched { sqeCmd q 0 x 0x0D kdAdmin with n := 0, lba := 0, fua := false, want := some 0 } s t ∧ s.newTag ∈ t.cqe.handQ ∧
    TookEntry q 0 s t) ∧
  (∀ (s : State) (q : Fin 2) (x : Sqe), s.nvmeFetch q 0 = true → Completes (.namespaceAttachment q x) s fun t => ChangesOnly [.CQE_STAT, .CQE_OVL_STAT] [.ptm,
    .cqe, .hif, .free] false s t ∧ Fetched { sqeCmd q 0 x 0x15 kdAdmin with n := 0, lba := 0, fua := false, want := some 0 } s t ∧ s.newTag ∈ t.cqe.handQ ∧
    TookEntry q 0 s t) ∧
  (∀ (s : State) (q : Fin 2) (x : Sqe), s.nvmeFetch q 0 = true → Completes (.formatNvm q x) s fun t => ChangesOnly [.CQE_STAT, .CQE_OVL_STAT] [.ptm, .cqe,
    .hif, .free] false s t ∧ Fetched { sqeCmd q 0 x 0x80 kdAdmin with n := 0, lba := 0, fua := false, want := some 0 } s t ∧ s.newTag ∈ t.cqe.handQ ∧
    TookEntry q 0 s t) ∧
  (∀ (s : State) (q : Fin 2) (x : Sqe), s.nvmeFetch q 0 = true → Completes (.firmwareImageDownload q x) s fun t => ChangesOnly [.CQE_STAT, .CQE_OVL_STAT]
    [.ptm, .cqe, .hif, .free] false s t ∧ Fetched { sqeCmd q 0 x 0x11 kdAdmin with n := 0, lba := 0, fua := false, want := some 0 } s t ∧ s.newTag ∈
    t.cqe.handQ ∧ TookEntry q 0 s t) ∧
  (∀ (s : State) (q : Fin 2) (x : Sqe), s.nvmeFetch q 0 = true → Completes (.firmwareCommit q x) s fun t => ChangesOnly [.CQE_STAT, .CQE_OVL_STAT] [.ptm,
    .cqe, .hif, .free] false s t ∧ Fetched { sqeCmd q 0 x 0x10 kdAdmin with n := 0, lba := 0, fua := false, want := some 0 } s t ∧ s.newTag ∈ t.cqe.handQ ∧
    TookEntry q 0 s t) ∧
  (∀ (s : State) (q : Fin 2) (x : Sqe), s.nvmeFetch q 0 = true → Completes (.securitySend q x) s fun t => ChangesOnly [.CQE_STAT, .CQE_OVL_STAT] [.ptm, .cqe,
    .hif, .free] false s t ∧ Fetched { sqeCmd q 0 x 0x81 kdAdmin with n := 0, lba := 0, fua := false, want := some 0 } s t ∧ s.newTag ∈ t.cqe.handQ ∧
    TookEntry q 0 s t) ∧
  (∀ (s : State) (q : Fin 2) (x : Sqe), s.nvmeFetch q 0 = true → Completes (.securityReceive q x) s fun t => ChangesOnly [.CQE_STAT, .CQE_OVL_STAT] [.ptm,
    .cqe, .hif, .free] false s t ∧ Fetched { sqeCmd q 0 x 0x82 kdAdmin with n := 0, lba := 0, fua := false, want := some 0 } s t ∧ s.newTag ∈ t.cqe.handQ ∧
    TookEntry q 0 s t) ∧
  (∀ (s : State) (q : Fin 2) (op : Fin 64) (x : Sqe), s.nvmeFetch q 0 = true → Completes (.vendorAdminCommand q op x) s fun t => ChangesOnly [.CQE_STAT,
    .CQE_OVL_STAT] [.ptm, .cqe, .hif, .free] false s t ∧ Fetched { sqeCmd q 0 x (0xC0 + op) kdVendor with n := 0, lba := 0, fua := false, want := some 0 }
    s t ∧ s.newTag ∈ t.cqe.handQ ∧ TookEntry q 0 s t) ∧
  (∀ (s : State) (q : Fin 2) (x : Sqe), s.nvmeFetch q 0 = true → featureSupported (x.d10.toNat % 256) = true → x.d10.toNat % 256 ≠ 0x06 ∨ x.d11.toNat % 2 = 1
    → Completes (.setFeatures q x) s fun t => ChangesOnly [.CQE_STAT, .CQE_OVL_STAT, .PTM_MODE_STAT] [.ptm, .cqe, .hif, .free] false s t ∧ Fetched { sqeCmd q 0 x 0x09 kdAdmin with n := 0, lba := 0, fua := false, want := some 0 }
    s t ∧ s.newTag ∈ t.cqe.handQ ∧ TookEntry q 0 s t ∧ (t.port q).feature (if x.d10.toNat % 256 = 0x09 then 0x10000 * (x.d11.toNat % 65536) + 0x09 else
    x.d10.toNat % 256) 0 = x.d11.toNat) ∧
  (∀ (s : State) (q : Fin 2) (x : Sqe), s.nvmeFetch q 0 = true → queueOk (x.d10.toNat % 65536) (x.d10.toNat / 65536 + 1) (x.d11.toNat % 2) = true →
    x.d11.toNat / 65536 ≤ 128 → (s.port q).cq (x.d10.toNat % 65536) = none → Completes (.createIoCompletionQueue q x) s fun t => ChangesOnly [.CQE_STAT,
    .CQE_OVL_STAT] [.ptm, .cqe, .hif, .free] false s t ∧ Fetched { sqeCmd q 0 x 0x05 kdAdmin with n := 0, lba := 0, fua := false, want := some 0 } s t ∧
    s.newTag ∈ t.cqe.handQ ∧ TookEntry q 0 s t ∧ (t.port q).cq (x.d10.toNat % 65536) = some { id := x.d10.toNat % 65536, size := x.d10.toNat / 65536 + 1, vector := x.d11.toNat / 65536, ien := x.d11.getLsbD 1 }) ∧
  (∀ (s : State) (q : Fin 2) (x : Sqe), s.nvmeFetch q 0 = true → queueOk (x.d10.toNat % 65536) (x.d10.toNat / 65536 + 1) (x.d11.toNat % 2) = true →
    x.d11.toNat / 65536 ≠ 0 → ((s.port q).cq (x.d11.toNat / 65536)).isSome = true → (s.port q).sq (x.d10.toNat % 65536) = none → Completes
    (.createIoSubmissionQueue q x) s fun t => ChangesOnly [.CQE_STAT, .CQE_OVL_STAT] [.ptm, .cqe, .hif, .free] false s t ∧ Fetched { sqeCmd q 0 x 0x01 kdAdmin with n := 0, lba := 0, fua := false, want := some 0 }
    s t ∧ s.newTag ∈ t.cqe.handQ ∧ TookEntry q 0 s t ∧ (t.port q).sq (x.d10.toNat % 65536) = some { id := x.d10.toNat % 65536, size := x.d10.toNat / 65536 + 1, cq := x.d11.toNat / 65536, prio := x.d11.toNat / 2 % 4 }) ∧
  (∀ (s : State) (q : Fin 2) (x : Sqe), s.nvmeFetch q 0 = true → x.d10.toNat % 65536 ≠ 0 → (∀ y ∈ (s.port q).sqs, y.cq ≠ x.d10.toNat % 65536) → Completes
    (.deleteIoCompletionQueue q x) s fun t => ChangesOnly [.CQE_STAT, .CQE_OVL_STAT] [.ptm, .cqe, .hif, .free] false s t ∧ Fetched { sqeCmd q 0 x 0x04 kdAdmin with n := 0, lba := 0, fua := false, want := some 0 }
    s t ∧ s.newTag ∈ t.cqe.handQ ∧ TookEntry q 0 s t ∧ (t.port q).cq (x.d10.toNat % 65536) = none) ∧
  (∀ (s : State) (q : Fin 2) (x : Sqe), s.nvmeFetch q 0 = true → x.d10.toNat % 65536 ≠ 0 → s.cqe.cmds = [] → Completes (.deleteIoSubmissionQueue q x) s fun t
    => ChangesOnly [.CQE_STAT, .CQE_OVL_STAT] [.ptm, .cqe, .hif, .free] false s t ∧ Fetched { sqeCmd q 0 x 0x00 kdAdmin with n := 0, lba := 0, fua := false, want := some 0 }
    s t ∧ s.newTag ∈ t.cqe.handQ ∧ TookEntry q 0 s t ∧ ((t.port q).sq (x.d10.toNat % 65536)).map (fun y => (y.deleting, y.deleter)) = ((s.port q).sq
    (x.d10.toNat % 65536)).map fun _ => (true, s.newTag)) ∧
  (∀ (s : State) (q : Fin 2) (x : Sqe), s.nvmeFetch q 0 = true → x.d10.toNat % 65536 ≠ 0 → ((s.port q).sq (x.d10.toNat % 65536)).map (·.deleting) = some false
    → s.tagFree = true → Completes (.deleteIoSubmissionQueue q x) s fun t => ((t.port q).sq (x.d10.toNat % 65536)).map (fun y => (y.deleting, y.deleter)) =
    some (true, s.newTag) ∧ s.newTag ∈ t.cqe.handQ ∧ Fetched { sqeCmd q 0 x 0x00 kdAdmin with n := 0, lba := 0, fua := false, want := some 0 } s t ∧
    TookEntry q 0 s t) ∧
  (∀ (s : State) (q : Fin 2) (x : Sqe), s.nvmeFetch q 0 = true → Completes (.asynchronousEventRequest q x) s fun t => ChangesOnly [.CQE_STAT, .CQE_OVL_STAT]
    [.ptm, .cqe, .hif, .free] false s t ∧ Fetched { sqeCmd q 0 x 0x0C kdAdmin with n := 0, lba := 0, fua := false, want := some 0 } s t ∧ s.newTag ∈
    t.cqe.handQ ∧ TookEntry q 0 s t ∧ (t.port q).aers = (s.port q).aers ++ [(s.newTag, x.cid.toNat)]) ∧
  (∀ (s : State) (q : Fin 2) (x : Sqe) (y : ComQ), s.nvmeFetch q 0 = true → s.tagFree = true → ((s.port q).sq 0).map (·.cq) = some 0 → (s.port q).cq 0 = some
    y → y.full = false → (∀ c ∈ s.cqe.cmds, c.port = q.val → c.sqid = x.d10.toNat % 65536 → c.cid ≠ x.d10.toNat / 65536) → Completes (.abort q x) s fun t
    => .completion q 0 x.cid.toNat 0 0 false 1 ∈ t.out ∧ t.cqe.cmds = s.cqe.cmds ∧ t.cqe.nextSeq = (s.cqe.nextSeq + 1) % 2 ^ 32 ∧ TookEntry q 0 s t) ∧
  (∀ (s : State) (q : Fin 2) (x : Sqe), s.nvmeFetch q 0 = true → Completes (.abort q x) s fun t => t.cqe.nextSeq = (s.cqe.nextSeq + 1) % 2 ^ 32 ∧ TookEntry q
    0 s t) ∧
  (∀ (s : State) (q : Fin 2) (x : Sqe) (y : ComQ), s.nvmeFetch q 0 = true → s.cqe.cmds = [] → (s.port q).cq 0 = some y → ((s.port q).sq 0).map (·.cq) = some 0
    → y.ien = false → Completes (.abort q x) s fun t => ChangesOnly [.CQE_STAT, .CQE_OVL_STAT, .BMU_SLOT_STAT] [.ptm, .cqe, .hif, .bmu, .out, .free] false
    s t ∧ t.out = .completion q 0 x.cid.toNat 0 0 false 1 :: s.out ∧ t.cqe.cmds = [] ∧ TookEntry q 0 s t) ∧
  (∀ (s : State) (q : Fin 2) (x : Sqe) (y z : ComQ) (d : Cmd), s.nvmeFetch q 0 = true → s.cqe.cmds = [d] → d.writes = true ∧ d.arrived = false ∧ d.silent =
    false ∧ d.adm = false ∧ d.port = q.val ∧ d.sqid = x.d10.toNat % 65536 ∧ d.cid = x.d10.toNat / 65536 → ((s.port q).sq 0).map (·.cq) = some 0 → ((s.port
    q).sq d.sqid).map (·.cq) = some 1 → (s.port q).cq 0 = some y → (s.port q).cq 1 = some z → y.ien = false ∧ z.ien = false ∧ z.full = false → Completes
    (.abort q x) s fun t => ChangesOnly [.CQE_STAT, .CQE_OVL_STAT, .BMU_SLOT_STAT] [.ptm, .cqe, .hif, .bmu, .out, .free] false s t ∧ t.out = .completion q
    0 x.cid.toNat 0 0 false 0 :: .completion q d.sqid d.cid 0 0x07 false 0 :: s.out ∧ t.cqe.cmds = [] ∧ TookEntry q 0 s t)

/-- A read, write, Write Zeroes or Zone Append of at most 512 LBAs in an attached namespace whose key is READY is fetched and held; a read whose LBAs are on
the medium waits for media work, one whose LBA is in the buffer sends it and completes; what is not eligible for the fast path waits for hand-off with its
reason. More LBAs, a namespace not served, or a range beyond it complete with their status and hold nothing. A write at a zone's write pointer and an
append advance the pointer and open the zone. A flush with nothing unsafe before it completes. A zone action sets the zone's state as it is fetched and
goes to firmware, as does a zone report. (Opcodes, places of fields and zone states: assumption log 30 and 32.) Clauses without a frame state their effects
under the conditions of normal execution alone, whatever else follows in the same step. -/
def Obligations.IoCommands : Prop :=
  (∀ (s : State) (q : Fin 2) (i : Fin 65) (x : Sqe) (n : Nat), i.val ≠ 0 → s.nvmeFetch q i = true → s.tagFree = true → x.d12.toNat % 65536 + 1 ≤ 512 →
    x.nsid.toNat = n + 1 → s.nsServes n q = true → x.d10.toNat + 2 ^ 32 * x.d11.toNat + (x.d12.toNat % 65536 + 1) ≤ s.nsLbas n → s.keyState (s.get
    CQE_NS_CFG.KSLOT n) = 2 → Completes (.nvmeRead q i x) s fun t => t.cqe.nextSeq = (s.cqe.nextSeq + 1) % 2 ^ 32 ∧ TookEntry q i s t) ∧
  (∀ (s : State) (q : Fin 2) (i : Fin 65) (x : Sqe) (n : Nat), i.val ≠ 0 → s.nvmeFetch q i = true → s.tagFree = true → x.d12.toNat % 65536 + 1 ≤ 512 →
    x.nsid.toNat = n + 1 → s.nsServes n q = true → x.d10.toNat + 2 ^ 32 * x.d11.toNat + (x.d12.toNat % 65536 + 1) ≤ s.nsLbas n → s.keyState (s.get
    CQE_NS_CFG.KSLOT n) = 2 → (∀ k < x.d12.toNat % 65536 + 1, s.lbaSrc n ((x.d10.toNat + 2 ^ 32 * x.d11.toNat) + k) s.cqe.nextSeq = .medium) → Completes
    (.nvmeRead q i x) s fun t => (∃ c ∈ t.cqe.cmds, c.ctag = s.newTag ∧ c.kind = kdRead ∧ c.ns = some n ∧ c.lba = (x.d10.toNat + 2 ^ 32 * x.d11.toNat) ∧
    c.lbas = List.replicate (x.d12.toNat % 65536 + 1) { st := 1 }) ∧ TookEntry q i s t) ∧
  (∀ (s : State) (q : Fin 2) (i : Fin 65) (x : Sqe) (n : Nat), i.val ≠ 0 → s.nvmeFetch q i = true → s.tagFree = true → x.d12.toNat % 65536 + 1 ≤ 512 →
    x.nsid.toNat = n + 1 → s.nsServes n q = true → x.d10.toNat + 2 ^ 32 * x.d11.toNat + (x.d12.toNat % 65536 + 1) ≤ s.nsLbas n → s.keyState (s.get
    CQE_NS_CFG.KSLOT n) = 2 → (∀ k < x.d12.toNat % 65536 + 1, s.lbaSrc n ((x.d10.toNat + 2 ^ 32 * x.d11.toNat) + k) s.cqe.nextSeq = .medium) → s.mode ≠
    mIdle ∧ s.mode ≠ mStandby → Completes (.nvmeRead q i x) s fun t => ChangesOnly [.CQE_STAT, .CQE_OVL_STAT] [.ptm, .cqe, .hif, .bmu, .free] false s t ∧
    Fetched { { sqeCmd q i x 0x02 kdRead with ns := some n } with want := s.notFast { sqeCmd q i x 0x02 kdRead with ns := some n } (((List.range (x.d12.toNat % 65536 + 1)).map fun k => s.lbaRow n ((x.d10.toNat + 2 ^ 32 * x.d11.toNat) + k)).dedup), lbas := List.replicate (x.d12.toNat % 65536 + 1) { st := 1 } }
    s t ∧ ((s.notFast { sqeCmd q i x 0x02 kdRead with ns := some n } (((List.range (x.d12.toNat % 65536 + 1)).map fun k => s.lbaRow n ((x.d10.toNat + 2 ^
    32 * x.d11.toNat) + k)).dedup)).isSome = true → s.newTag ∈ t.cqe.handQ) ∧ TookEntry q i s t) ∧
  (∀ (s : State) (q : Fin 2) (i : Fin 65) (x : Sqe) (n : Nat), i.val ≠ 0 → s.nvmeFetch q i = true → s.tagFree = true → x.d12.toNat % 65536 + 1 ≤ 512 →
    x.nsid.toNat = n + 1 → s.nsServes n q = true → x.d10.toNat + 2 ^ 32 * x.d11.toNat + (x.d12.toNat % 65536 + 1) ≤ s.nsLbas n → s.keyState (s.get
    CQE_NS_CFG.KSLOT n) = 2 → (∀ k < x.d12.toNat % 65536 + 1, s.lbaSrc n ((x.d10.toNat + 2 ^ 32 * x.d11.toNat) + k) s.cqe.nextSeq = .medium) → s.mode =
    mIdle ∨ s.mode = mStandby → s.transOk { mode := mActive, ilvl := 0, ret := false } = true → s.ptm.retention = false → Completes (.nvmeRead q i x) s fun
    t => t.get PTM_MODE_STAT.WAKE 0 = 1 ∧ t.get PTM_MODE_STAT.TRANS 0 = 1 ∧ t.ptm.target = some { mode := mActive, ilvl := 0, ret := false } ∧ (∃ c ∈
    t.cqe.cmds, c.ctag = s.newTag ∧ c.lbas = List.replicate (x.d12.toNat % 65536 + 1) { st := 1 }) ∧ TookEntry q i s t) ∧
  (∀ (s : State) (q : Fin 2) (i : Fin 65) (x : Sqe) (n k : Nat) (y : SubQ) (z : ComQ), i.val ≠ 0 → s.nvmeFetch q i = true → s.tagFree = true → x.d12.toNat %
    65536 + 1 ≤ 512 → x.nsid.toNat = n + 1 → s.nsServes n q = true → x.d10.toNat + 2 ^ 32 * x.d11.toNat + (x.d12.toNat % 65536 + 1) ≤ s.nsLbas n →
    s.keyState (s.get CQE_NS_CFG.KSLOT n) = 2 → x.d12.toNat % 65536 = 0 → s.lbaSrc n (x.d10.toNat + 2 ^ 32 * x.d11.toNat) s.cqe.nextSeq = .slot k →
    s.nsHasPi n = false → (s.port q).sq i = some y → (s.port q).cq y.cq = some z → z.ien = false → s.cqe.cmds = [] → s.on CQE_CFG.FP_EN 0 = true ∧ s.on
    CQE_NS_CFG.FP n = true ∧ s.on CQE_NS_CFG.ZONED n = false → Completes (.nvmeRead q i x) s fun t => ChangesOnly [.CQE_STAT, .CQE_OVL_STAT,
    .BMU_SLOT_STAT, .BMU_STAT] [.ptm, .cqe, .hif, .bmu, .out, .free] false s t ∧ t.out = .completion q i x.cid.toNat 0 0 false 0 :: .frame "HL" "read data"
    ([q.val, i.val, x.cid.toNat, (x.d10.toNat + 2 ^ 32 * x.d11.toNat)] ++ (s.bytes (s.slotAddr k) 4096).map (·.toNat)) :: s.out ∧ t.cqe.cmds = [] ∧
    TookEntry q i s t) ∧
  (∀ (s : State) (q : Fin 2) (i : Fin 65) (x : Sqe) (n : Nat), i.val ≠ 0 → s.nvmeFetch q i = true → s.tagFree = true → x.d12.toNat % 65536 + 1 ≤ 512 →
    x.nsid.toNat = n + 1 → s.nsServes n q = true → x.d10.toNat + 2 ^ 32 * x.d11.toNat + (x.d12.toNat % 65536 + 1) ≤ s.nsLbas n → s.keyState (s.get
    CQE_NS_CFG.KSLOT n) = 2 → s.on CQE_NS_CFG.ZONED n = false → Completes (.nvmeWrite q i x) s fun t => ChangesOnly [.CQE_STAT, .CQE_OVL_STAT] [.ptm, .cqe,
    .hif, .free] false s t ∧ Fetched { { sqeCmd q i x 0x01 kdWrite with ns := some n } with want := s.notFast { sqeCmd q i x 0x01 kdWrite with ns := some n } (s.cmdRows { sqeCmd q i x 0x01 kdWrite with ns := some n }) }
    s t ∧ ((s.notFast { sqeCmd q i x 0x01 kdWrite with ns := some n } (s.cmdRows { sqeCmd q i x 0x01 kdWrite with ns := some n })).isSome = true → s.newTag
    ∈ t.cqe.handQ) ∧ TookEntry q i s t) ∧
  (∀ (s : State) (q : Fin 2) (i : Fin 65) (x : Sqe) (n : Nat), i.val ≠ 0 → s.nvmeFetch q i = true → s.tagFree = true → x.d12.toNat % 65536 + 1 ≤ 512 →
    x.nsid.toNat = n + 1 → s.nsServes n q = true → x.d10.toNat + 2 ^ 32 * x.d11.toNat + (x.d12.toNat % 65536 + 1) ≤ s.nsLbas n → s.keyState (s.get
    CQE_NS_CFG.KSLOT n) = 2 → s.on CQE_NS_CFG.ZONED n = false → Completes (.writeZeroes q i x) s fun t => ChangesOnly [.CQE_STAT, .CQE_OVL_STAT] [.ptm,
    .cqe, .hif, .free] false s t ∧ Fetched { { sqeCmd q i x 0x08 kdZeroes with ns := some n, zero := true, prinfo := 8 } with want := s.notFast { sqeCmd q i x 0x08 kdZeroes with ns := some n, zero := true, prinfo := 8 } (s.cmdRows { sqeCmd q i x 0x08 kdZeroes with ns := some n, zero := true, prinfo := 8 }) }
    s t ∧ ((s.notFast { sqeCmd q i x 0x08 kdZeroes with ns := some n, zero := true, prinfo := 8 } (s.cmdRows { sqeCmd q i x 0x08 kdZeroes with ns := some n, zero := true, prinfo := 8 })).isSome
    = true → s.newTag ∈ t.cqe.handQ) ∧ TookEntry q i s t) ∧
  (∀ (s : State) (q : Fin 2) (i : Fin 65) (x : Sqe) (n : Nat), i.val ≠ 0 → s.nvmeFetch q i = true → s.tagFree = true → x.d12.toNat % 65536 + 1 ≤ 512 →
    x.nsid.toNat = n + 1 → s.nsServes n q = true → x.d10.toNat + 2 ^ 32 * x.d11.toNat + (x.d12.toNat % 65536 + 1) ≤ s.nsLbas n → s.keyState (s.get
    CQE_NS_CFG.KSLOT n) = 2 → s.on CQE_NS_CFG.ZONED n = true → (x.d10.toNat + 2 ^ 32 * x.d11.toNat) % s.zoneLbas n = 0 → s.zoneRefuses n ((x.d10.toNat + 2
    ^ 32 * x.d11.toNat) / s.zoneLbas n) none (x.d12.toNat % 65536 + 1) = none → Completes (.zoneAppend q i x) s fun t => ChangesOnly [.CQE_STAT,
    .CQE_OVL_STAT] [.ptm, .cqe, .hif, .out, .free] false s t ∧ t.out = .event "zone append" [s.newTag, (x.d10.toNat + 2 ^ 32 * x.d11.toNat) + (s.zone n
    ((x.d10.toNat + 2 ^ 32 * x.d11.toNat) / s.zoneLbas n)).wp] :: s.out ∧ (t.zone n ((x.d10.toNat + 2 ^ 32 * x.d11.toNat) / s.zoneLbas n)).wp = (s.zone n
    ((x.d10.toNat + 2 ^ 32 * x.d11.toNat) / s.zoneLbas n)).wp + (x.d12.toNat % 65536 + 1) ∧ (∃ c ∈ t.cqe.cmds, c.ctag = s.newTag ∧ c.lba = (x.d10.toNat + 2
    ^ 32 * x.d11.toNat) + (s.zone n ((x.d10.toNat + 2 ^ 32 * x.d11.toNat) / s.zoneLbas n)).wp ∧ c.kind = kdAppend) ∧ TookEntry q i s t) ∧
  (∀ (s : State) (q : Fin 2) (i : Fin 65) (x : Sqe) (n : Nat), i.val ≠ 0 → s.nvmeFetch q i = true → s.tagFree = true → x.d12.toNat % 65536 + 1 ≤ 512 →
    x.nsid.toNat = n + 1 → s.nsServes n q = true → x.d10.toNat + 2 ^ 32 * x.d11.toNat + (x.d12.toNat % 65536 + 1) ≤ s.nsLbas n → s.keyState (s.get
    CQE_NS_CFG.KSLOT n) = 2 → s.on CQE_NS_CFG.ZONED n = true → s.zoneRefuses n ((x.d10.toNat + 2 ^ 32 * x.d11.toNat) / s.zoneLbas n) (some ((x.d10.toNat +
    2 ^ 32 * x.d11.toNat) % s.zoneLbas n)) (x.d12.toNat % 65536 + 1) = none → Completes (.nvmeWrite q i x) s fun t => ChangesOnly [.CQE_STAT,
    .CQE_OVL_STAT] [.ptm, .cqe, .hif, .free] false s t ∧ (t.zone n ((x.d10.toNat + 2 ^ 32 * x.d11.toNat) / s.zoneLbas n)).wp = (x.d10.toNat + 2 ^ 32 *
    x.d11.toNat) % s.zoneLbas n + (x.d12.toNat % 65536 + 1) ∧ (t.zone n ((x.d10.toNat + 2 ^ 32 * x.d11.toNat) / s.zoneLbas n)).st = (if s.zoneLbas n ≤
    (x.d10.toNat + 2 ^ 32 * x.d11.toNat) % s.zoneLbas n + (x.d12.toNat % 65536 + 1) then 14 else 2) ∧ (∃ c ∈ t.cqe.cmds, c.ctag = s.newTag ∧ c.lba =
    (x.d10.toNat + 2 ^ 32 * x.d11.toNat) ∧ c.kind = kdWrite) ∧ TookEntry q i s t) ∧
  (∀ (s : State) (q : Fin 2) (i : Fin 65) (x : Sqe) (y : SubQ) (z : ComQ), i.val ≠ 0 → s.nvmeFetch q i = true → s.tagFree = true → (s.port q).sq i = some y →
    (s.port q).cq y.cq = some z → z.ien = false → 512 < x.d12.toNat % 65536 + 1 → Completes (.nvmeRead q i x) s fun t => ChangesOnly [.CQE_STAT,
    .CQE_OVL_STAT, .BMU_SLOT_STAT] [.ptm, .cqe, .hif, .bmu, .out, .free] false s t ∧ t.out = .completion q i x.cid.toNat 0 0x02 false 0 :: s.out ∧
    t.cqe.cmds = s.cqe.cmds ∧ TookEntry q i s t) ∧
  (∀ (s : State) (q : Fin 2) (i : Fin 65) (x : Sqe) (y : SubQ) (z : ComQ), i.val ≠ 0 → s.nvmeFetch q i = true → s.tagFree = true → (s.port q).sq i = some y →
    (s.port q).cq y.cq = some z → z.ien = false → x.d12.toNat % 65536 + 1 ≤ 512 → x.nsid.toNat = 0 ∨ s.nsServes (x.nsid.toNat - 1) q = false → Completes
    (.nvmeWrite q i x) s fun t => ChangesOnly [.CQE_STAT, .CQE_OVL_STAT, .BMU_SLOT_STAT] [.ptm, .cqe, .hif, .bmu, .out, .free] false s t ∧ t.out =
    .completion q i x.cid.toNat 0 0x0B false 0 :: s.out ∧ t.cqe.cmds = s.cqe.cmds ∧ TookEntry q i s t) ∧
  (∀ (s : State) (q : Fin 2) (i : Fin 65) (x : Sqe) (y : SubQ) (z : ComQ), i.val ≠ 0 → s.nvmeFetch q i = true → s.tagFree = true → (s.port q).sq i = some y →
    (s.port q).cq y.cq = some z → z.ien = false → x.d12.toNat % 65536 + 1 ≤ 512 → x.nsid.toNat ≠ 0 → s.nsServes (x.nsid.toNat - 1) q = true → s.nsLbas
    (x.nsid.toNat - 1) < (x.d10.toNat + 2 ^ 32 * x.d11.toNat) + (x.d12.toNat % 65536 + 1) → Completes (.writeZeroes q i x) s fun t => ChangesOnly
    [.CQE_STAT, .CQE_OVL_STAT, .BMU_SLOT_STAT] [.ptm, .cqe, .hif, .bmu, .out, .free] false s t ∧ t.out = .completion q i x.cid.toNat 0 0x80 false 0 ::
    s.out ∧ t.cqe.cmds = s.cqe.cmds ∧ TookEntry q i s t) ∧
  (∀ (s : State) (q : Fin 2) (i : Fin 65) (x : Sqe) (n : Nat), i.val ≠ 0 → s.nvmeFetch q i = true → s.tagFree = true → x.nsid.toNat = n + 1 → x.nsid.toNat ≠
    0xFFFFFFFF → s.nsServes n q = true → Completes (.nvmeFlush q i x) s fun t => t.cqe.nextSeq = (s.cqe.nextSeq + 1) % 2 ^ 32 ∧ ((s.notFast { sqeCmd q i x 0x00 kdFlush with ns := some n }
    []).isSome = true → s.newTag ∈ t.cqe.handQ) ∧ TookEntry q i s t) ∧
  (∀ (s : State) (q : Fin 2) (i : Fin 65) (x : Sqe), i.val ≠ 0 → s.nvmeFetch q i = true → s.tagFree = true → x.nsid.toNat = 0xFFFFFFFF → Completes (.nvmeFlush
    q i x) s fun t => t.cqe.nextSeq = (s.cqe.nextSeq + 1) % 2 ^ 32 ∧ TookEntry q i s t) ∧
  (∀ (s : State) (q : Fin 2) (i : Fin 65) (x : Sqe) (n : Nat) (y : SubQ) (z : ComQ), i.val ≠ 0 → s.nvmeFetch q i = true → s.tagFree = true → x.nsid.toNat = n
    + 1 → x.nsid.toNat ≠ 0xFFFFFFFF → s.nsServes n q = true → s.cqe.cmds = [] → s.cqe.overlay = [] → s.on CQE_CFG.FP_EN 0 = true ∧ s.on CQE_NS_CFG.FP n =
    true ∧ s.on CQE_NS_CFG.ZONED n = false → (s.port q).sq i = some y → (s.port q).cq y.cq = some z → z.ien = false → Completes (.nvmeFlush q i x) s fun t
    => ChangesOnly [.CQE_STAT, .CQE_OVL_STAT, .BMU_SLOT_STAT] [.ptm, .cqe, .hif, .bmu, .out, .free] false s t ∧ t.out = .completion q i x.cid.toNat 0 0
    false 0 :: s.out ∧ t.cqe.cmds = [] ∧ TookEntry q i s t) ∧
  (∀ (s : State) (q : Fin 2) (i : Fin 65) (x : Sqe) (n z : Nat), i.val ≠ 0 → s.nvmeFetch q i = true → s.tagFree = true → x.nsid.toNat = n + 1 → s.nsServes n q
    = true → s.on CQE_NS_CFG.ZONED n = true → x.d13.getLsbD 8 = false → (x.d10.toNat + 2 ^ 32 * x.d11.toNat) < s.nsLbas n → (x.d10.toNat + 2 ^ 32 *
    x.d11.toNat) = z * s.zoneLbas n → (s.zone n z).st ∈ [1, 2, 3, 4] → s.zoneRoom n (s.zone n z).st = none → Completes (.zoneOpen q i x) s fun t => (t.zone
    n z).st = 3 ∧ (t.zone n z).wp = (s.zone n z).wp ∧ (∃ c ∈ t.cqe.cmds, c.ctag = s.newTag ∧ c.kind = kdZone ∧ c.ns = some n ∧ c.want.isSome = true) ∧
    s.newTag ∈ t.cqe.handQ ∧ TookEntry q i s t) ∧
  (∀ (s : State) (q : Fin 2) (i : Fin 65) (x : Sqe) (n z : Nat), i.val ≠ 0 → s.nvmeFetch q i = true → s.tagFree = true → x.nsid.toNat = n + 1 → s.nsServes n q
    = true → s.on CQE_NS_CFG.ZONED n = true → x.d13.getLsbD 8 = false → (x.d10.toNat + 2 ^ 32 * x.d11.toNat) < s.nsLbas n → (x.d10.toNat + 2 ^ 32 *
    x.d11.toNat) = z * s.zoneLbas n → (s.zone n z).st ∈ [2, 3, 4] → Completes (.zoneClose q i x) s fun t => (t.zone n z).st = 4 ∧ (t.zone n z).wp = (s.zone
    n z).wp ∧ (∃ c ∈ t.cqe.cmds, c.ctag = s.newTag ∧ c.kind = kdZone ∧ c.ns = some n ∧ c.want.isSome = true) ∧ s.newTag ∈ t.cqe.handQ ∧ TookEntry q i s t) ∧
  (∀ (s : State) (q : Fin 2) (i : Fin 65) (x : Sqe) (n z : Nat), i.val ≠ 0 → s.nvmeFetch q i = true → s.tagFree = true → x.nsid.toNat = n + 1 → s.nsServes n q
    = true → s.on CQE_NS_CFG.ZONED n = true → x.d13.getLsbD 8 = false → (x.d10.toNat + 2 ^ 32 * x.d11.toNat) < s.nsLbas n → (x.d10.toNat + 2 ^ 32 *
    x.d11.toNat) = z * s.zoneLbas n → (s.zone n z).st ∈ [1, 2, 3, 4, 14] → Completes (.zoneFinish q i x) s fun t => (t.zone n z).st = 14 ∧ (t.zone n z).wp
    = s.zoneLbas n ∧ (∃ c ∈ t.cqe.cmds, c.ctag = s.newTag ∧ c.kind = kdZone ∧ c.ns = some n ∧ c.want.isSome = true) ∧ s.newTag ∈ t.cqe.handQ ∧ TookEntry q
    i s t) ∧
  (∀ (s : State) (q : Fin 2) (i : Fin 65) (x : Sqe) (n z : Nat), i.val ≠ 0 → s.nvmeFetch q i = true → s.tagFree = true → x.nsid.toNat = n + 1 → s.nsServes n q
    = true → s.on CQE_NS_CFG.ZONED n = true → x.d13.getLsbD 8 = false → (x.d10.toNat + 2 ^ 32 * x.d11.toNat) < s.nsLbas n → (x.d10.toNat + 2 ^ 32 *
    x.d11.toNat) = z * s.zoneLbas n → (s.zone n z).st ∈ [1, 2, 3, 4, 14] → Completes (.zoneReset q i x) s fun t => (t.zone n z).st = 1 ∧ (t.zone n z).wp =
    0 ∧ (∃ c ∈ t.cqe.cmds, c.ctag = s.newTag ∧ c.kind = kdZone ∧ c.ns = some n ∧ c.want.isSome = true) ∧ s.newTag ∈ t.cqe.handQ ∧ TookEntry q i s t) ∧
  (∀ (s : State) (q : Fin 2) (i : Fin 65) (x : Sqe) (n z : Nat), i.val ≠ 0 → s.nvmeFetch q i = true → s.tagFree = true → x.nsid.toNat = n + 1 → s.nsServes n q
    = true → s.on CQE_NS_CFG.ZONED n = true → x.d13.getLsbD 8 = false → (x.d10.toNat + 2 ^ 32 * x.d11.toNat) < s.nsLbas n → (x.d10.toNat + 2 ^ 32 *
    x.d11.toNat) = z * s.zoneLbas n → (s.zone n z).st ∈ [13, 15] → Completes (.zoneOffline q i x) s fun t => (t.zone n z).st = 15 ∧ (∃ c ∈ t.cqe.cmds,
    c.ctag = s.newTag ∧ c.kind = kdZone ∧ c.ns = some n ∧ c.want.isSome = true) ∧ s.newTag ∈ t.cqe.handQ ∧ TookEntry q i s t) ∧
  (∀ (s : State) (q : Fin 2) (i : Fin 65) (x : Sqe) (n z : Nat), i.val ≠ 0 → s.nvmeFetch q i = true → s.tagFree = true → x.nsid.toNat = n + 1 → s.nsServes n q
    = true → s.on CQE_NS_CFG.ZONED n = true → x.d13.getLsbD 8 = false → (x.d10.toNat + 2 ^ 32 * x.d11.toNat) < s.nsLbas n → (x.d10.toNat + 2 ^ 32 *
    x.d11.toNat) = z * s.zoneLbas n → (s.zone n z).st ∈ [1, 2, 3, 4] → s.zoneRoom n (s.zone n z).st = none → s.cqe.overlay = [] ∧ s.cqe.cmds = [] →
    Completes (.zoneOpen q i x) s fun t => ChangesOnly [.CQE_STAT, .CQE_OVL_STAT] [.ptm, .cqe, .hif, .free] false s t ∧ (t.zone n z).st = 3 ∧ (t.zone n
    z).wp = (s.zone n z).wp ∧ (∃ c ∈ t.cqe.cmds, c.ctag = s.newTag ∧ c.kind = kdZone ∧ c.ns = some n ∧ c.want.isSome = true) ∧ s.newTag ∈ t.cqe.handQ ∧
    TookEntry q i s t) ∧
  (∀ (s : State) (q : Fin 2) (i : Fin 65) (x : Sqe) (n z : Nat), i.val ≠ 0 → s.nvmeFetch q i = true → s.tagFree = true → x.nsid.toNat = n + 1 → s.nsServes n q
    = true → s.on CQE_NS_CFG.ZONED n = true → x.d13.getLsbD 8 = false → (x.d10.toNat + 2 ^ 32 * x.d11.toNat) < s.nsLbas n → (x.d10.toNat + 2 ^ 32 *
    x.d11.toNat) = z * s.zoneLbas n → (s.zone n z).st ∈ [2, 3, 4] → s.cqe.overlay = [] ∧ s.cqe.cmds = [] → Completes (.zoneClose q i x) s fun t =>
    ChangesOnly [.CQE_STAT, .CQE_OVL_STAT] [.ptm, .cqe, .hif, .free] false s t ∧ (t.zone n z).st = 4 ∧ (t.zone n z).wp = (s.zone n z).wp ∧ (∃ c ∈
    t.cqe.cmds, c.ctag = s.newTag ∧ c.kind = kdZone ∧ c.ns = some n ∧ c.want.isSome = true) ∧ s.newTag ∈ t.cqe.handQ ∧ TookEntry q i s t) ∧
  (∀ (s : State) (q : Fin 2) (i : Fin 65) (x : Sqe) (n z : Nat), i.val ≠ 0 → s.nvmeFetch q i = true → s.tagFree = true → x.nsid.toNat = n + 1 → s.nsServes n q
    = true → s.on CQE_NS_CFG.ZONED n = true → x.d13.getLsbD 8 = false → (x.d10.toNat + 2 ^ 32 * x.d11.toNat) < s.nsLbas n → (x.d10.toNat + 2 ^ 32 *
    x.d11.toNat) = z * s.zoneLbas n → (s.zone n z).st ∈ [1, 2, 3, 4, 14] → s.cqe.overlay = [] ∧ s.cqe.cmds = [] → Completes (.zoneFinish q i x) s fun t =>
    ChangesOnly [.CQE_STAT, .CQE_OVL_STAT] [.ptm, .cqe, .hif, .free] false s t ∧ (t.zone n z).st = 14 ∧ (t.zone n z).wp = s.zoneLbas n ∧ (∃ c ∈ t.cqe.cmds,
    c.ctag = s.newTag ∧ c.kind = kdZone ∧ c.ns = some n ∧ c.want.isSome = true) ∧ s.newTag ∈ t.cqe.handQ ∧ TookEntry q i s t) ∧
  (∀ (s : State) (q : Fin 2) (i : Fin 65) (x : Sqe) (n z : Nat), i.val ≠ 0 → s.nvmeFetch q i = true → s.tagFree = true → x.nsid.toNat = n + 1 → s.nsServes n q
    = true → s.on CQE_NS_CFG.ZONED n = true → x.d13.getLsbD 8 = false → (x.d10.toNat + 2 ^ 32 * x.d11.toNat) < s.nsLbas n → (x.d10.toNat + 2 ^ 32 *
    x.d11.toNat) = z * s.zoneLbas n → (s.zone n z).st ∈ [1, 2, 3, 4, 14] → s.cqe.overlay = [] ∧ s.cqe.cmds = [] → Completes (.zoneReset q i x) s fun t =>
    ChangesOnly [.CQE_STAT, .CQE_OVL_STAT, .MPC_KEY_STAT, .BMU_SLOT_STAT, .BMU_BUDGET, .CQE_THROT] [.ptm, .cqe, .hif, .free, .bmu] false s t ∧ (t.zone n
    z).st = 1 ∧ (t.zone n z).wp = 0 ∧ (∃ c ∈ t.cqe.cmds, c.ctag = s.newTag ∧ c.kind = kdZone ∧ c.ns = some n ∧ c.want.isSome = true) ∧ s.newTag ∈
    t.cqe.handQ ∧ TookEntry q i s t) ∧
  (∀ (s : State) (q : Fin 2) (i : Fin 65) (x : Sqe) (n z : Nat), i.val ≠ 0 → s.nvmeFetch q i = true → s.tagFree = true → x.nsid.toNat = n + 1 → s.nsServes n q
    = true → s.on CQE_NS_CFG.ZONED n = true → x.d13.getLsbD 8 = false → (x.d10.toNat + 2 ^ 32 * x.d11.toNat) < s.nsLbas n → (x.d10.toNat + 2 ^ 32 *
    x.d11.toNat) = z * s.zoneLbas n → (s.zone n z).st ∈ [13, 15] → s.cqe.overlay = [] ∧ s.cqe.cmds = [] → Completes (.zoneOffline q i x) s fun t =>
    ChangesOnly [.CQE_STAT, .CQE_OVL_STAT] [.ptm, .cqe, .hif, .free] false s t ∧ (t.zone n z).st = 15 ∧ (∃ c ∈ t.cqe.cmds, c.ctag = s.newTag ∧ c.kind =
    kdZone ∧ c.ns = some n ∧ c.want.isSome = true) ∧ s.newTag ∈ t.cqe.handQ ∧ TookEntry q i s t) ∧
  (∀ (s : State) (q : Fin 2) (i : Fin 65) (x : Sqe) (n : Nat), i.val ≠ 0 → s.nvmeFetch q i = true → s.tagFree = true → x.nsid.toNat = n + 1 → s.nsServes n q =
    true → s.on CQE_NS_CFG.ZONED n = true → (x.d10.toNat + 2 ^ 32 * x.d11.toNat) < s.nsLbas n → Completes (.zoneManagementReceive q i x) s fun t =>
    ChangesOnly [.CQE_STAT, .CQE_OVL_STAT] [.ptm, .cqe, .hif, .free] false s t ∧ (∃ c ∈ t.cqe.cmds, c.ctag = s.newTag ∧ c.kind = kdZone ∧ c.sqe = x.words
    0x7A ∧ c.want.isSome = true) ∧ s.newTag ∈ t.cqe.handQ ∧ TookEntry q i s t)

/-- While the part may fetch, a SAS command is held under a free tag with the words of its CDB and waits for firmware; READ, WRITE and SYNCHRONIZE CACHE act as
Read, Write and Flush; zone commands set the zone's state; START STOP UNIT and MODE SELECT leave their value; beyond 1,024 commands of a nexus the answer
is TASK SET FULL. An ABORT TASK of a write whose data has not arrived ends it with TASK ABORTED, and is answered complete; a reset of a logical unit or of
a nexus leaves, of the commands in its scope, only writes whose data arrived, silent; QUERY TASK says whether the task is held. A command of no blocks
completes at once; an ABORT TASK, whatever it names, is answered. Clauses without a frame state their effects under the conditions of normal execution
alone, whatever else follows in the same step. -/
def Obligations.SasCommands : Prop :=
  (∀ (s : State) (f : SasFrom) (cdb : Cdb), s.tagFree = true → s.sasFetch f.q f.lun f.ordered = true → (s.cqe.cmds.countP (fun d => d.port == f.q.val &&
    d.nexus == f.nexus.toNat) < 1024) → Completes (.inquiry f cdb) s fun t => ChangesOnly [.CQE_STAT, .CQE_OVL_STAT] [.ptm, .cqe, .free] false s t ∧
    Fetched { sasCmd f kdSas (cdbWords f cdb) with want := some 0 } s t ∧ s.newTag ∈ t.cqe.handQ) ∧
  (∀ (s : State) (f : SasFrom) (cdb : Cdb), s.tagFree = true → s.sasFetch f.q f.lun f.ordered = true → (s.cqe.cmds.countP (fun d => d.port == f.q.val &&
    d.nexus == f.nexus.toNat) < 1024) → Completes (.readCapacity16 f cdb) s fun t => ChangesOnly [.CQE_STAT, .CQE_OVL_STAT] [.ptm, .cqe, .free] false s t ∧
    Fetched { sasCmd f kdSas (cdbWords f cdb) with want := some 0 } s t ∧ s.newTag ∈ t.cqe.handQ) ∧
  (∀ (s : State) (f : SasFrom) (cdb : Cdb), s.tagFree = true → s.sasFetch f.q f.lun f.ordered = true → (s.cqe.cmds.countP (fun d => d.port == f.q.val &&
    d.nexus == f.nexus.toNat) < 1024) → Completes (.reportLuns f cdb) s fun t => ChangesOnly [.CQE_STAT, .CQE_OVL_STAT] [.ptm, .cqe, .free] false s t ∧
    Fetched { sasCmd f kdSas (cdbWords f cdb) with want := some 0 } s t ∧ s.newTag ∈ t.cqe.handQ) ∧
  (∀ (s : State) (f : SasFrom) (cdb : Cdb), s.tagFree = true → s.sasFetch f.q f.lun f.ordered = true → (s.cqe.cmds.countP (fun d => d.port == f.q.val &&
    d.nexus == f.nexus.toNat) < 1024) → Completes (.testUnitReady f cdb) s fun t => ChangesOnly [.CQE_STAT, .CQE_OVL_STAT] [.ptm, .cqe, .free] false s t ∧
    Fetched { sasCmd f kdSas (cdbWords f cdb) with want := some 0 } s t ∧ s.newTag ∈ t.cqe.handQ) ∧
  (∀ (s : State) (f : SasFrom) (cdb : Cdb), s.tagFree = true → s.sasFetch f.q f.lun f.ordered = true → (s.cqe.cmds.countP (fun d => d.port == f.q.val &&
    d.nexus == f.nexus.toNat) < 1024) → Completes (.requestSense f cdb) s fun t => ChangesOnly [.CQE_STAT, .CQE_OVL_STAT] [.ptm, .cqe, .free] false s t ∧
    Fetched { sasCmd f kdSas (cdbWords f cdb) with want := some 0 } s t ∧ s.newTag ∈ t.cqe.handQ) ∧
  (∀ (s : State) (f : SasFrom) (cdb : Cdb), s.tagFree = true → s.sasFetch f.q f.lun f.ordered = true → (s.cqe.cmds.countP (fun d => d.port == f.q.val &&
    d.nexus == f.nexus.toNat) < 1024) → Completes (.modeSense10 f cdb) s fun t => ChangesOnly [.CQE_STAT, .CQE_OVL_STAT] [.ptm, .cqe, .free] false s t ∧
    Fetched { sasCmd f kdSas (cdbWords f cdb) with want := some 0 } s t ∧ s.newTag ∈ t.cqe.handQ) ∧
  (∀ (s : State) (f : SasFrom) (cdb : Cdb), s.tagFree = true → s.sasFetch f.q f.lun f.ordered = true → (s.cqe.cmds.countP (fun d => d.port == f.q.val &&
    d.nexus == f.nexus.toNat) < 1024) → Completes (.writeBuffer f cdb) s fun t => ChangesOnly [.CQE_STAT, .CQE_OVL_STAT] [.ptm, .cqe, .free] false s t ∧
    Fetched { sasCmd f kdSas (cdbWords f cdb) with want := some 0 } s t ∧ s.newTag ∈ t.cqe.handQ) ∧
  (∀ (s : State) (f : SasFrom) (cdb : Cdb), s.tagFree = true → s.sasFetch f.q f.lun f.ordered = true → (s.cqe.cmds.countP (fun d => d.port == f.q.val &&
    d.nexus == f.nexus.toNat) < 1024) → Completes (.readBuffer f cdb) s fun t => ChangesOnly [.CQE_STAT, .CQE_OVL_STAT] [.ptm, .cqe, .free] false s t ∧
    Fetched { sasCmd f kdSas (cdbWords f cdb) with want := some 0 } s t ∧ s.newTag ∈ t.cqe.handQ) ∧
  (∀ (s : State) (f : SasFrom) (start : Bool) (cdb : Cdb), s.tagFree = true → s.sasFetch f.q f.lun f.ordered = true → (s.cqe.cmds.countP (fun d => d.port ==
    f.q.val && d.nexus == f.nexus.toNat) < 1024) → Completes (.startStopUnit f start cdb) s fun t => ChangesOnly [.CQE_STAT, .CQE_OVL_STAT, .PTM_MODE_STAT]
    [.ptm, .cqe, .hif, .free] false s t ∧ Fetched { sasCmd f kdSas (cdbWords f cdb) with want := some 0 } s t ∧ s.newTag ∈ t.cqe.handQ ∧ (t.port
    f.q).feature 0x02 0 = if start then 0 else 4) ∧
  (∀ (s : State) (f : SasFrom) (page : Fin 64) (bytes : List Byte) (cdb : Cdb), s.tagFree = true → s.sasFetch f.q f.lun f.ordered = true → (s.cqe.cmds.countP
    (fun d => d.port == f.q.val && d.nexus == f.nexus.toNat) < 1024) → page = 0x08 ∨ page = 0x0A → Completes (.modeSelect10 f page bytes cdb) s fun t =>
    ChangesOnly [.CQE_STAT, .CQE_OVL_STAT] [.ptm, .cqe, .hif, .free] false s t ∧ Fetched { sasCmd f kdSas (cdbWords f cdb) with want := some 0 } s t ∧
    s.newTag ∈ t.cqe.handQ ∧ t.hif.modePages.find? (fun e => e.1 == page.val) = some (page.val, ofLeBytes bytes)) ∧
  (∀ (s : State) (f : SasFrom) (page : Fin 64) (bytes : List Byte) (cdb : Cdb), s.tagFree = true → s.sasFetch f.q f.lun f.ordered = true → (s.cqe.cmds.countP
    (fun d => d.port == f.q.val && d.nexus == f.nexus.toNat) < 1024) → Completes (.modeSelect10 f page bytes cdb) s fun t => ChangesOnly [.CQE_STAT,
    .CQE_OVL_STAT] [.ptm, .cqe, .free] false s t ∧ Fetched { sasCmd f kdSas (cdbWords f cdb) with want := some 0 } s t ∧ s.newTag ∈ t.cqe.handQ) ∧
  (∀ (s : State) (f : SasFrom) (lba : BitVec 64) (n : BitVec 32), s.tagFree = true → s.sasFetch f.q f.lun f.ordered = true → (s.cqe.cmds.countP (fun d =>
    d.port == f.q.val && d.nexus == f.nexus.toNat) < 1024) → n.toNat ≠ 0 → s.nsServes f.lun f.q = true → lba.toNat + n.toNat ≤ s.nsLbas f.lun → s.keyState
    (s.get CQE_NS_CFG.KSLOT f.lun) = 2 → Completes (.sasRead16 f lba n) s fun t => t.cqe.nextSeq = (s.cqe.nextSeq + 1) % 2 ^ 32 ∧ ((∀ k < n.toNat, s.lbaSrc
    f.lun (lba.toNat + k) s.cqe.nextSeq = .medium) → ∃ c ∈ t.cqe.cmds, c.ctag = s.newTag ∧ c.kind = kdRead ∧ c.ns = some f.lun.val ∧ c.lba = lba.toNat ∧
    c.lbas = List.replicate n.toNat { st := 1 })) ∧
  (∀ (s : State) (f : SasFrom) (lba : BitVec 64) (n : BitVec 32), s.tagFree = true → s.sasFetch f.q f.lun f.ordered = true → (s.cqe.cmds.countP (fun d =>
    d.port == f.q.val && d.nexus == f.nexus.toNat) < 1024) → n = 0 → Completes (.sasRead16 f lba n) s fun t => t.out.head? = some (.frame "SAS" "response"
    [f.q, f.nexus.toNat, f.tag.toNat, 0, 0, 0]) ∧ t.cqe.cmds = s.cqe.cmds) ∧
  (∀ (s : State) (f : SasFrom) (lba : BitVec 64) (n : BitVec 32) (fua : Bool), s.tagFree = true → s.sasFetch f.q f.lun f.ordered = true → (s.cqe.cmds.countP
    (fun d => d.port == f.q.val && d.nexus == f.nexus.toNat) < 1024) → n = 0 → Completes (.sasWrite16 f lba n fua) s fun t => t.out.head? = some (.frame
    "SAS" "response" [f.q, f.nexus.toNat, f.tag.toNat, 0, 0, 0]) ∧ t.cqe.cmds = s.cqe.cmds) ∧
  (∀ (s : State) (f : SasFrom) (lba : BitVec 64) (n : BitVec 32) (fua : Bool), s.tagFree = true → s.sasFetch f.q f.lun f.ordered = true → (s.cqe.cmds.countP
    (fun d => d.port == f.q.val && d.nexus == f.nexus.toNat) < 1024) → n.toNat ≠ 0 → s.nsServes f.lun f.q = true → lba.toNat + n.toNat ≤ s.nsLbas f.lun →
    s.keyState (s.get CQE_NS_CFG.KSLOT f.lun) = 2 → Completes (.sasWrite16 f lba n fua) s fun t => t.cqe.nextSeq = (s.cqe.nextSeq + 1) % 2 ^ 32) ∧
  (∀ (s : State) (f : SasFrom), s.tagFree = true → s.sasFetch f.q f.lun f.ordered = true → (s.cqe.cmds.countP (fun d => d.port == f.q.val && d.nexus ==
    f.nexus.toNat) < 1024) → s.nsServes f.lun f.q = true → Completes (.synchronizeCache16 f) s fun t => t.cqe.nextSeq = (s.cqe.nextSeq + 1) % 2 ^ 32 ∧
    ((s.notFast { sasCmd f kdFlush (sasWords f 0x00 0 1 false) with ns := some f.lun.val } []).isSome = true → s.newTag ∈ t.cqe.handQ)) ∧
  (∀ (s : State) (f : SasFrom) (lba : BitVec 64) (n : BitVec 32), s.tagFree = true → s.sasFetch f.q f.lun f.ordered = true → (s.cqe.cmds.countP (fun d =>
    d.port == f.q.val && d.nexus == f.nexus.toNat) < 1024) → n.toNat ≠ 0 → s.nsServes f.lun f.q = true → lba.toNat + n.toNat ≤ s.nsLbas f.lun → s.keyState
    (s.get CQE_NS_CFG.KSLOT f.lun) = 2 → (∀ k < min n.toNat 700, s.lbaSrc f.lun (lba.toNat + k) s.cqe.nextSeq = .medium) → n.toNat ≤ 700 → s.mode ≠ mIdle ∧
    s.mode ≠ mStandby → Completes (.sasRead16 f lba n) s fun t => ChangesOnly [.CQE_STAT, .CQE_OVL_STAT] [.ptm, .cqe, .bmu, .free] false s t ∧ ∃ c ∈
    t.cqe.cmds, c.ctag = s.newTag ∧ c.kind = kdRead ∧ c.ns = some f.lun.val ∧ c.lba = lba.toNat ∧ c.lbas = List.replicate n.toNat { st := 1 }) ∧
  (∀ (s : State) (f : SasFrom) (lba : BitVec 64) (n : BitVec 32) (fua : Bool), s.tagFree = true → s.sasFetch f.q f.lun f.ordered = true → (s.cqe.cmds.countP
    (fun d => d.port == f.q.val && d.nexus == f.nexus.toNat) < 1024) → n.toNat ≠ 0 → s.nsServes f.lun f.q = true → lba.toNat + n.toNat ≤ s.nsLbas f.lun →
    s.keyState (s.get CQE_NS_CFG.KSLOT f.lun) = 2 → s.on CQE_NS_CFG.ZONED f.lun = false → Completes (.sasWrite16 f lba n fua) s fun t => ChangesOnly
    [.CQE_STAT, .CQE_OVL_STAT] [.ptm, .cqe, .free] false s t ∧ ∃ c ∈ t.cqe.cmds, c.ctag = s.newTag ∧ c.kind = kdWrite ∧ c.ns = some f.lun.val ∧ c.lba =
    lba.toNat ∧ c.n = n.toNat ∧ c.fua = fua ∧ c.started = false) ∧
  (∀ (s : State) (f : SasFrom), s.tagFree = true → s.sasFetch f.q f.lun f.ordered = true → (s.cqe.cmds.countP (fun d => d.port == f.q.val && d.nexus ==
    f.nexus.toNat) < 1024) → s.nsServes f.lun f.q = true → s.cqe.overlay = [] ∧ s.cqe.cmds = [] → s.on CQE_CFG.FP_EN 0 = true ∧ s.on CQE_NS_CFG.FP f.lun =
    true ∧ s.on CQE_NS_CFG.ZONED f.lun = false → Completes (.synchronizeCache16 f) s fun t => ChangesOnly [.CQE_STAT, .CQE_OVL_STAT, .BMU_SLOT_STAT] [.ptm,
    .cqe, .bmu, .out, .free] false s t ∧ t.out = .frame "SAS" "response" [f.q, f.nexus.toNat, f.tag.toNat, 0, 0, 0] :: s.out ∧ t.cqe.cmds = []) ∧
  (∀ (s : State) (f : SasFrom) (lba : BitVec 64) (cdb : Cdb) (z : Nat), s.tagFree = true → s.sasFetch f.q f.lun f.ordered = true → (s.cqe.cmds.countP (fun d
    => d.port == f.q.val && d.nexus == f.nexus.toNat) < 1024) → s.nsServes f.lun f.q = true → s.on CQE_NS_CFG.ZONED f.lun = true → lba.toNat < s.nsLbas
    f.lun → lba.toNat = z * s.zoneLbas f.lun → (s.zone f.lun z).st ∈ [1, 2, 3, 4] → s.zoneRoom f.lun (s.zone f.lun z).st = none → Completes (.openZone f
    lba false cdb) s fun t => (t.zone f.lun z).st = 3 ∧ (t.zone f.lun z).wp = (s.zone f.lun z).wp ∧ (∃ c ∈ t.cqe.cmds, c.ctag = s.newTag ∧ c.kind = kdZone
    ∧ c.want.isSome = true) ∧ s.newTag ∈ t.cqe.handQ) ∧
  (∀ (s : State) (f : SasFrom) (lba : BitVec 64) (cdb : Cdb) (z : Nat), s.tagFree = true → s.sasFetch f.q f.lun f.ordered = true → (s.cqe.cmds.countP (fun d
    => d.port == f.q.val && d.nexus == f.nexus.toNat) < 1024) → s.nsServes f.lun f.q = true → s.on CQE_NS_CFG.ZONED f.lun = true → lba.toNat < s.nsLbas
    f.lun → lba.toNat = z * s.zoneLbas f.lun → (s.zone f.lun z).st ∈ [2, 3, 4] → Completes (.closeZone f lba false cdb) s fun t => (t.zone f.lun z).st = 4
    ∧ (t.zone f.lun z).wp = (s.zone f.lun z).wp ∧ (∃ c ∈ t.cqe.cmds, c.ctag = s.newTag ∧ c.kind = kdZone ∧ c.want.isSome = true) ∧ s.newTag ∈ t.cqe.handQ) ∧
  (∀ (s : State) (f : SasFrom) (lba : BitVec 64) (cdb : Cdb) (z : Nat), s.tagFree = true → s.sasFetch f.q f.lun f.ordered = true → (s.cqe.cmds.countP (fun d
    => d.port == f.q.val && d.nexus == f.nexus.toNat) < 1024) → s.nsServes f.lun f.q = true → s.on CQE_NS_CFG.ZONED f.lun = true → lba.toNat < s.nsLbas
    f.lun → lba.toNat = z * s.zoneLbas f.lun → (s.zone f.lun z).st ∈ [1, 2, 3, 4, 14] → Completes (.finishZone f lba false cdb) s fun t => (t.zone f.lun
    z).st = 14 ∧ (t.zone f.lun z).wp = s.zoneLbas f.lun ∧ (∃ c ∈ t.cqe.cmds, c.ctag = s.newTag ∧ c.kind = kdZone ∧ c.want.isSome = true) ∧ s.newTag ∈
    t.cqe.handQ) ∧
  (∀ (s : State) (f : SasFrom) (lba : BitVec 64) (cdb : Cdb) (z : Nat), s.tagFree = true → s.sasFetch f.q f.lun f.ordered = true → (s.cqe.cmds.countP (fun d
    => d.port == f.q.val && d.nexus == f.nexus.toNat) < 1024) → s.nsServes f.lun f.q = true → s.on CQE_NS_CFG.ZONED f.lun = true → lba.toNat < s.nsLbas
    f.lun → lba.toNat = z * s.zoneLbas f.lun → (s.zone f.lun z).st ∈ [1, 2, 3, 4, 14] → Completes (.resetWritePointer f lba false cdb) s fun t => (t.zone
    f.lun z).st = 1 ∧ (t.zone f.lun z).wp = 0 ∧ (∃ c ∈ t.cqe.cmds, c.ctag = s.newTag ∧ c.kind = kdZone ∧ c.want.isSome = true) ∧ s.newTag ∈ t.cqe.handQ) ∧
  (∀ (s : State) (f : SasFrom) (lba : BitVec 64) (cdb : Cdb), s.tagFree = true → s.sasFetch f.q f.lun f.ordered = true → (s.cqe.cmds.countP (fun d => d.port
    == f.q.val && d.nexus == f.nexus.toNat) < 1024) → s.nsServes f.lun f.q = true → s.on CQE_NS_CFG.ZONED f.lun = true → Completes (.closeZone f lba true
    cdb) s fun t => s.newTag ∈ t.cqe.handQ ∧ (∃ c ∈ t.cqe.cmds, c.ctag = s.newTag ∧ c.kind = kdZone ∧ c.want.isSome = true) ∧ ∀ z < s.nsLbas f.lun /
    s.zoneLbas f.lun, (s.zone f.lun z).st ∈ [2, 3] → (t.zone f.lun z).st = 4) ∧
  (∀ (s : State) (f : SasFrom) (lba : BitVec 64) (cdb : Cdb), s.tagFree = true → s.sasFetch f.q f.lun f.ordered = true → (s.cqe.cmds.countP (fun d => d.port
    == f.q.val && d.nexus == f.nexus.toNat) < 1024) → s.nsServes f.lun f.q = true → s.on CQE_NS_CFG.ZONED f.lun = true → Completes (.finishZone f lba true
    cdb) s fun t => s.newTag ∈ t.cqe.handQ ∧ (∃ c ∈ t.cqe.cmds, c.ctag = s.newTag ∧ c.kind = kdZone ∧ c.want.isSome = true) ∧ ∀ z < s.nsLbas f.lun /
    s.zoneLbas f.lun, (s.zone f.lun z).st ∈ [2, 3, 4] → (t.zone f.lun z).st = 14) ∧
  (∀ (s : State) (f : SasFrom) (lba : BitVec 64) (cdb : Cdb), s.tagFree = true → s.sasFetch f.q f.lun f.ordered = true → (s.cqe.cmds.countP (fun d => d.port
    == f.q.val && d.nexus == f.nexus.toNat) < 1024) → s.nsServes f.lun f.q = true → s.on CQE_NS_CFG.ZONED f.lun = true → Completes (.resetWritePointer f
    lba true cdb) s fun t => s.newTag ∈ t.cqe.handQ ∧ (∃ c ∈ t.cqe.cmds, c.ctag = s.newTag ∧ c.kind = kdZone ∧ c.want.isSome = true) ∧ ∀ z < s.nsLbas f.lun
    / s.zoneLbas f.lun, (s.zone f.lun z).st ∈ [2, 3, 4, 14] → (t.zone f.lun z).st = 1) ∧
  (∀ (s : State) (f : SasFrom) (lba : BitVec 64) (cdb : Cdb) (z : Nat), s.tagFree = true → s.sasFetch f.q f.lun f.ordered = true → (s.cqe.cmds.countP (fun d
    => d.port == f.q.val && d.nexus == f.nexus.toNat) < 1024) → s.nsServes f.lun f.q = true → s.on CQE_NS_CFG.ZONED f.lun = true → lba.toNat < s.nsLbas
    f.lun → lba.toNat = z * s.zoneLbas f.lun → (s.zone f.lun z).st ∈ [1, 2, 3, 4] → s.zoneRoom f.lun (s.zone f.lun z).st = none → s.cqe.overlay = [] ∧
    s.cqe.cmds = [] → Completes (.openZone f lba false cdb) s fun t => ChangesOnly [.CQE_STAT, .CQE_OVL_STAT] [.ptm, .cqe, .free] false s t ∧ (t.zone f.lun
    z).st = 3 ∧ (t.zone f.lun z).wp = (s.zone f.lun z).wp ∧ (∃ c ∈ t.cqe.cmds, c.ctag = s.newTag ∧ c.kind = kdZone ∧ c.want.isSome = true) ∧ s.newTag ∈
    t.cqe.handQ) ∧
  (∀ (s : State) (f : SasFrom) (lba : BitVec 64) (cdb : Cdb) (z : Nat), s.tagFree = true → s.sasFetch f.q f.lun f.ordered = true → (s.cqe.cmds.countP (fun d
    => d.port == f.q.val && d.nexus == f.nexus.toNat) < 1024) → s.nsServes f.lun f.q = true → s.on CQE_NS_CFG.ZONED f.lun = true → lba.toNat < s.nsLbas
    f.lun → lba.toNat = z * s.zoneLbas f.lun → (s.zone f.lun z).st ∈ [2, 3, 4] → s.cqe.overlay = [] ∧ s.cqe.cmds = [] → Completes (.closeZone f lba false
    cdb) s fun t => ChangesOnly [.CQE_STAT, .CQE_OVL_STAT] [.ptm, .cqe, .free] false s t ∧ (t.zone f.lun z).st = 4 ∧ (t.zone f.lun z).wp = (s.zone f.lun
    z).wp ∧ (∃ c ∈ t.cqe.cmds, c.ctag = s.newTag ∧ c.kind = kdZone ∧ c.want.isSome = true) ∧ s.newTag ∈ t.cqe.handQ) ∧
  (∀ (s : State) (f : SasFrom) (lba : BitVec 64) (cdb : Cdb) (z : Nat), s.tagFree = true → s.sasFetch f.q f.lun f.ordered = true → (s.cqe.cmds.countP (fun d
    => d.port == f.q.val && d.nexus == f.nexus.toNat) < 1024) → s.nsServes f.lun f.q = true → s.on CQE_NS_CFG.ZONED f.lun = true → lba.toNat < s.nsLbas
    f.lun → lba.toNat = z * s.zoneLbas f.lun → (s.zone f.lun z).st ∈ [1, 2, 3, 4, 14] → s.cqe.overlay = [] ∧ s.cqe.cmds = [] → Completes (.finishZone f lba
    false cdb) s fun t => ChangesOnly [.CQE_STAT, .CQE_OVL_STAT] [.ptm, .cqe, .free] false s t ∧ (t.zone f.lun z).st = 14 ∧ (t.zone f.lun z).wp =
    s.zoneLbas f.lun ∧ (∃ c ∈ t.cqe.cmds, c.ctag = s.newTag ∧ c.kind = kdZone ∧ c.want.isSome = true) ∧ s.newTag ∈ t.cqe.handQ) ∧
  (∀ (s : State) (f : SasFrom) (lba : BitVec 64) (cdb : Cdb) (z : Nat), s.tagFree = true → s.sasFetch f.q f.lun f.ordered = true → (s.cqe.cmds.countP (fun d
    => d.port == f.q.val && d.nexus == f.nexus.toNat) < 1024) → s.nsServes f.lun f.q = true → s.on CQE_NS_CFG.ZONED f.lun = true → lba.toNat < s.nsLbas
    f.lun → lba.toNat = z * s.zoneLbas f.lun → (s.zone f.lun z).st ∈ [1, 2, 3, 4, 14] → s.cqe.overlay = [] ∧ s.cqe.cmds = [] → Completes
    (.resetWritePointer f lba false cdb) s fun t => ChangesOnly [.CQE_STAT, .CQE_OVL_STAT, .MPC_KEY_STAT, .BMU_SLOT_STAT, .BMU_BUDGET, .CQE_THROT] [.ptm,
    .cqe, .free, .bmu] false s t ∧ (t.zone f.lun z).st = 1 ∧ (t.zone f.lun z).wp = 0 ∧ (∃ c ∈ t.cqe.cmds, c.ctag = s.newTag ∧ c.kind = kdZone ∧
    c.want.isSome = true) ∧ s.newTag ∈ t.cqe.handQ) ∧
  (∀ (s : State) (f : SasFrom) (lba : BitVec 64) (cdb : Cdb), s.tagFree = true → s.sasFetch f.q f.lun f.ordered = true → (s.cqe.cmds.countP (fun d => d.port
    == f.q.val && d.nexus == f.nexus.toNat) < 1024) → s.nsServes f.lun f.q = true → s.on CQE_NS_CFG.ZONED f.lun = true → lba.toNat < s.nsLbas f.lun →
    Completes (.reportZones f lba cdb) s fun t => ChangesOnly [.CQE_STAT, .CQE_OVL_STAT] [.ptm, .cqe, .free] false s t ∧ (∃ c ∈ t.cqe.cmds, c.ctag =
    s.newTag ∧ c.kind = kdZone ∧ c.sqe = cdbWords f cdb ∧ c.want.isSome = true) ∧ s.newTag ∈ t.cqe.handQ) ∧
  (∀ (s : State) (f : SasFrom) (cdb : Cdb), s.isSas = true → s.portUp f.q = true → (1024 ≤ s.cqe.cmds.countP fun d => d.port == f.q.val && d.nexus ==
    f.nexus.toNat) → Completes (.testUnitReady f cdb) s fun t => Unchanged [] [.out] [] s t ∧ t.out = .frame "SAS" "response" [f.q, f.nexus.toNat,
    f.tag.toNat, 0x28, 0, 0] :: s.out) ∧
  (∀ (s : State) (q : Fin 2) (nexus tag : BitVec 16), s.isSas = true → s.portUp q = true → Completes (.abortTask q nexus tag) s fun t => t.out.head? = some
    (.frame "SAS" "task response" [q, nexus.toNat, tag.toNat, 0]) ∧ ((s.cqe.cmds.find? fun c => c.port == q.val && c.nexus == nexus.toNat && c.cid ==
    tag.toNat) = none → t.cqe.cmds = s.cqe.cmds)) ∧
  (∀ (s : State) (q : Fin 2) (nexus tag : BitVec 16) (d : Cmd), s.isSas = true → s.portUp q = true → ((s.cqe.cmds.find? fun c => c.port == q.val && c.nexus ==
    nexus.toNat && c.cid == tag.toNat) = some d) → d.catchable false = true → Completes (.abortTask q nexus tag) s fun t => .frame "SAS" "response" [q,
    nexus.toNat, tag.toNat, 0x40, 0, 0] ∈ t.out ∧ (∀ c ∈ t.cqe.cmds, c.ctag ≠ d.ctag)) ∧
  (∀ (s : State) (q : Fin 2) (nexus tag : BitVec 16) (d : Cmd), s.isSas = true → s.portUp q = true → s.cqe.cmds = [d] → d.writes = true ∧ d.arrived = false ∧
    d.silent = false ∧ d.adm = false ∧ d.port = q.val ∧ d.nexus = nexus.toNat ∧ d.cid = tag.toNat → Completes (.abortTask q nexus tag) s fun t =>
    ChangesOnly [.CQE_STAT, .CQE_OVL_STAT, .BMU_SLOT_STAT] [.cqe, .bmu, .out] false s t ∧ t.out = .frame "SAS" "task response" [q, nexus.toNat, tag.toNat,
    0] :: .frame "SAS" "response" [q, nexus.toNat, tag.toNat, 0x40, 0, 0] :: s.out ∧ t.cqe.cmds = []) ∧
  (∀ (s : State) (q : Fin 2) (nexus tag : BitVec 16) (lun : Fin 128), s.isSas = true → s.portUp q = true → Completes (.logicalUnitReset q nexus tag lun) s fun
    t => ChangesOnly [.BMU_CCC_STAT, .BMU_EVB_STAT, .BMU_SLOT_STAT, .BMU_STAT, .CQE_OVL_STAT, .CQE_STAT, .PCX_PROT_STAT, .PTM_MODE_STAT, .RDC_PAL_STAT,
    .SPL_MEMBERS, .SPL_STAT, .SPN_CTL, .SPN_ORR_STAT, .SPN_STAT, .SVE_CTX_CFG, .SVE_CTX_MAN, .SVE_CTX_STAT, .SVE_SEEK_STAT, .WRC_RWL_CTL, .WRC_RWL_PTR,
    .WRC_WR_STAT, .WRC_WUS_STAT] [.bmu, .cqe, .fcu, .hif, .out, .ptm, .rdc, .spl, .spn, .sve, .wrc] true s t ∧ (∀ c ∈ t.cqe.cmds, c.lun = lun.val →
    c.silent = true ∧ c.writes = true ∧ c.arrived = true) ∧ t.out.head? = some (.frame "SAS" "task response" [q, nexus.toNat, tag.toNat, 0])) ∧
  (∀ (s : State) (q : Fin 2) (nexus tag : BitVec 16), s.isSas = true → s.portUp q = true → Completes (.iTNexusReset q nexus tag) s fun t => ChangesOnly
    [.BMU_CCC_STAT, .BMU_EVB_STAT, .BMU_SLOT_STAT, .BMU_STAT, .CQE_OVL_STAT, .CQE_STAT, .PCX_PROT_STAT, .PTM_MODE_STAT, .RDC_PAL_STAT, .SPL_MEMBERS,
    .SPL_STAT, .SPN_CTL, .SPN_ORR_STAT, .SPN_STAT, .SVE_CTX_CFG, .SVE_CTX_MAN, .SVE_CTX_STAT, .SVE_SEEK_STAT, .WRC_RWL_CTL, .WRC_RWL_PTR, .WRC_WR_STAT,
    .WRC_WUS_STAT] [.bmu, .cqe, .fcu, .hif, .out, .ptm, .rdc, .spl, .spn, .sve, .wrc] true s t ∧ (∀ c ∈ t.cqe.cmds, c.port = q.val → c.nexus = nexus.toNat
    → c.silent = true ∧ c.writes = true ∧ c.arrived = true) ∧ t.out.head? = some (.frame "SAS" "task response" [q, nexus.toNat, tag.toNat, 0])) ∧
  (∀ (s : State) (q : Fin 2) (nexus tag : BitVec 16), s.isSas = true → s.portUp q = true → Completes (.queryTask q nexus tag) s fun t => Unchanged [] [.out]
    [] s t ∧ t.out = .frame "SAS" "task response" [q, nexus.toNat, tag.toNat, if s.cqe.cmds.any fun c => c.port == q.val && c.nexus == nexus.toNat && c.cid
    == tag.toNat && !c.silent then 8 else 0] :: s.out)

/-- A pass that ends takes its paths out of the active set and its writers back; a sound coefficient entry becomes the live set and its tag, a bad one only
sets ZT_ERR; likewise a writer's parameters and a runout set; a powered-up path is READY or in SERVO, an unused one beyond the allowed number goes OFF; a
preamble makes a READY path ACTIVE and is counted, and leaves its last amplitude; a delivered clearance reaches WRC; a reported reader loss marks the head
and waits for the next boundary. A re-read's preamble of a ladder is noted and changes no ladder; a head whose second reader is lost is FAILED and its
source counted. Clauses without a frame state their effects under the conditions of normal execution alone, whatever else follows in the same step. -/
def Obligations.HeadPaths : Prop :=
  (∀ (s : State) (a : Fin 4) (waiting : Option Nat) (x : Pass), (s.sve.pass.find? (fun e => e.1 == a.val) = some (a.val, x)) → Completes (.passEnd a waiting)
    s fun t => ChangesOnly [.BMU_EVB_STAT, .BMU_STAT, .CQE_CLAIM, .CQE_OVL_STAT, .CQE_STAT, .PCX_PROT_STAT, .PTM_DOM_PWR, .RDC_HP_CLR, .RDC_HP_STAT,
    .WRC_RWL_CTL, .WRC_RWL_PTR, .WRC_WR_CTL, .WRC_WR_STAT, .WRC_WUS_STAT] [.bmu, .cqe, .fcu, .mpc, .out, .ptm, .rdc, .svc, .sve, .wrc] true s t ∧ (∀ e ∈
    t.sve.pass, e.1 ≠ a.val) ∧ (∀ p ∈ x.paths, p ∉ t.sve.active ∧ t.hpPwr p ≠ pwActive) ∧ (∀ w ∈ writersOfAct a, (t.writer w).pass = false)) ∧
  (∀ (s : State) (p : Fin 16) (a : Nat), p.val ∈ s.rdc.loading → a = s.ztabAddr (s.tgt p).head (s.tgt p).zone → s.loadFault .rdc a 128 = none → s.ztabOk a =
    true → (∀ e ∈ s.rdc.pend ++ s.rdc.early, e.1 ≠ p.val) → Completes (.ztabLoadDone p false) s fun t => ChangesOnly [.RDC_HP_TAP, .RDC_LANE_AFE,
    .RDC_LANE_SKEW, .RDC_HP_RATE, .RDC_HP_TARGET, .RDC_HP_LOOP] [.rdc, .wrc, .out] false s t ∧ (∀ k < 24, s.on RDC_LANE_STAT.LOST (2 * p + k / 12) = false
    → t.get RDC_HP_TAP.COEF (48 * p + 2 * k) = nbits (s.memW (a + 4 * k)) 11 0 ∧ t.get RDC_HP_TAP.COEF (48 * p + 2 * k + 1) = nbits (s.memW (a + 4 * k)) 27
    16) ∧ t.get RDC_HP_RATE.RATE p = nbits (s.memW (a + 104)) 18 0 ∧ (p.val, (s.tgt p).head, (s.tgt p).zone) ∈ t.rdc.tag ∧ p.val ∉ t.rdc.loading ∧ t.get
    RDC_HP_STAT.ZT_ERR p = s.get RDC_HP_STAT.ZT_ERR p) ∧
  (∀ (s : State) (p : Fin 16) (a : Nat), p.val ∈ s.rdc.loading → a = s.ztabAddr (s.tgt p).head (s.tgt p).zone → s.loadFault .rdc a 128 = none → s.ztabOk a =
    true → Completes (.ztabLoadDone p false) s fun t => (p.val, (s.tgt p).head, (s.tgt p).zone) ∈ t.rdc.tag ∧ p.val ∉ t.rdc.loading ∧ (∀ e ∈ t.rdc.pend ++
    t.rdc.early, e.1 ≠ p.val) ∧ t.get RDC_HP_STAT.ZT_ERR p = s.get RDC_HP_STAT.ZT_ERR p) ∧
  (∀ (s : State) (p : Fin 16) (bad : Bool) (a : Nat), p.val ∈ s.rdc.loading → a = s.ztabAddr (s.tgt p).head (s.tgt p).zone → s.loadFault .rdc a 128 = none →
    bad = true ∨ s.ztabOk a = false → Completes (.ztabLoadDone p bad) s fun t => t.get RDC_HP_STAT.ZT_ERR p = 1 ∧ t.rdc.tag = s.rdc.tag ∧ p.val ∉
    t.rdc.loading) ∧
  (∀ (s : State) (w : Fin 8) (a : Nat), (s.writer w).loading = true → a = s.wtabAddr (s.writer w).head (s.writer w).zone → s.loadFault .wrc a 64 = none →
    s.poisoned a 64 = false → s.crcOk a 15 = true → nbit (s.memW (a + 32)) 31 = true → Completes (.wtabLoadDone w false) s fun t => Unchanged [] [.wrc,
    .rdc, .out] [] s t ∧ (t.writer w).liveSet = some ((s.writer w).head, (s.writer w).zone) ∧ ((∀ e ∈ s.wrc.trim, e.1 ≠ 128 * (s.writer w).head + (s.writer
    w).zone) → (t.writer w).params = s.memWs a 16) ∧ (t.writer w).loading = false ∧ (t.writer w).waitAck = true) ∧
  (∀ (s : State) (w : Fin 8) (bad : Bool) (a : Nat), (s.writer w).loading = true → a = s.wtabAddr (s.writer w).head (s.writer w).zone → s.loadFault .wrc a 64
    = none → bad = true ∨ s.crcOk a 15 = false ∨ nbit (s.memW (a + 32)) 31 = false → Completes (.wtabLoadDone w bad) s fun t => Unchanged [(.WRC_WR_STAT,
    w.val)] [.wrc, .rdc, .out] [] s t ∧ t.get WRC_WR_STAT.WT_ERR w = 1 ∧ (t.writer w).liveSet = (s.writer w).liveSet ∧ (t.writer w).params = (s.writer
    w).params ∧ (t.writer w).loading = false) ∧
  (∀ (s : State) (i : Fin 20) (h z a : Nat), (s.sve.rroLoad.find? (fun e => e.1 == i.val) = some (i.val, h, z)) → a = s.rroAddr h z → s.loadFault .sve a 64 =
    none → s.poisoned a 64 = false → s.crcOk a 15 = true → nbit (s.memW (a + 32)) 31 = true → (Sparse.get {} s.sve.rro i).learned = false → Completes
    (.rroLoadDone i false) s fun t => Unchanged [] [.sve] [] s t ∧ Sparse.get {} t.sve.rro i = rroOf h z (fun k => s.memW (a + 4 * k)) ∧ (∀ e ∈
    t.sve.rroLoad, e.1 ≠ i.val) ∧ t.get SVE_RRO_CTL.ERR 0 = s.get SVE_RRO_CTL.ERR 0) ∧
  (∀ (s : State) (i : Fin 20) (h z : Nat) (bad : Bool), (s.sve.rroLoad.find? (fun e => e.1 == i.val) = some (i.val, h, z)) → s.loadFault .sve (s.rroAddr h z)
    64 = none → Completes (.rroLoadDone i bad) s fun t => (∀ e ∈ t.sve.rroLoad, e.1 ≠ i.val) ∧ (bad = true → t.get SVE_RRO_CTL.ERR 0 = 1)) ∧
  (∀ (s : State) (p : Fin 16), s.hpPwr p = pwOff ∨ s.hpPwr p = pwServo → s.mayReady p = true → Completes (.hpPowerUpDone p true) s fun t => Unchanged
    [(.RDC_HP_STAT, p.val), (.PTM_DOM_PWR, 0)] [.rdc, .out, .wrc] [] s t ∧ t.hpPwr p = pwReady ∧ t.domainOn (32 + p) = true) ∧
  (∀ (s : State) (p : Fin 16), s.hpPwr p = pwOff → s.mayServo p = true → Completes (.hpPowerUpDone p false) s fun t => Unchanged [(.RDC_HP_STAT, p.val),
    (.PTM_DOM_PWR, 0)] [] [] s t ∧ t.hpPwr p = pwServo ∧ t.domainOn (32 + p) = true) ∧
  (∀ (s : State) (p : Fin 16), s.manyPaths = true → s.inPass p = false → pwReady ≤ s.hpPwr p → s.get PTM_CAP_STAT.HP_ALLOW 0 < s.readyPaths.length →
    s.leastUsed p = true → Completes (.hpIdleOff p) s fun t => Unchanged [(.RDC_HP_STAT, p.val), (.RDC_HP_CLR, p.val), (.PTM_DOM_PWR, 0)] [.rdc, .out,
    .svc] [] s t ∧ t.hpPwr p = (if s.tracksAlone p then pwServo else pwOff) ∧ t.domainOn (32 + p) = s.tracksAlone p) ∧
  (∀ (s : State) (p : Fin 16), s.mode ≠ mService → s.inPass p = false → s.hpPwr p ≠ pwOff → s.manyPaths = false ∧ s.keepsServo p = false ∨ s.manyPaths = true
    ∧ s.hpPwr p = pwServo ∧ s.tracksAlone p = false → Completes (.hpIdleOff p) s fun t => Unchanged [(.RDC_HP_STAT, p.val), (.RDC_HP_CLR, p.val),
    (.PTM_DOM_PWR, 0)] [.rdc, .out, .svc] [] s t ∧ t.hpPwr p = pwOff ∧ t.domainOn (32 + p) = false) ∧
  (∀ (s : State) (p : Fin 16), s.inPass p = true → s.passEnding (p / 4) = false → p.val ∈ s.sve.active → s.settled p = true → pwReady ≤ s.hpPwr p → p.val ∉
    s.rdc.loading → s.headState (s.tgt p).head ≠ hRetired → Completes (.sectorPreambleStart ⟨p, none⟩) s fun t => ChangesOnly [.ALM_STAT, .PTM_DOM_PWR,
    .RDC_HP_ADAPT, .RDC_HP_CLR, .RDC_HP_CTL, .RDC_HP_DEC, .RDC_HP_DET, .RDC_HP_LOOP, .RDC_HP_RATE, .RDC_HP_STAT, .RDC_HP_SYNC, .RDC_HP_TAP, .RDC_HP_TARGET,
    .RDC_HP_TR, .RDC_LANE_AFE, .RDC_LANE_SKEW, .RDC_LANE_STAT, .RDC_RETRY_STAT] [.alm, .out, .rdc, .svc] false s t ∧ t.hpPwr p = (if s.hpPwr p = pwReady
    then pwActive else s.hpPwr p) ∧ p.val ∈ t.rdc.readAny ∧ p.val ∈ t.rdc.sector ∧ Sparse.get 0 t.rdc.hst (hstKey (s.tgt p).head 0) = satAdd (Sparse.get 0
    s.rdc.hst (hstKey (s.tgt p).head 0)) 1 (2 ^ 64 - 1) ∧ (∀ e ∈ t.rdc.pend, e.1 ≠ p.val)) ∧
  (∀ (s : State) (p : Fin 16) (k : Fin 4) (l : Ladder), s.inPass p = true → s.passEnding (p / 4) = false → p.val ∈ s.sve.active → s.settled p = true → pwReady
    ≤ s.hpPwr p → p.val ∉ s.rdc.loading → s.ladder p k = some l → l.waits = true → s.onRow p l.row = true → l.level ≠ 3 ∨ s.l3Made p l = true → Completes
    (.sectorPreambleStart ⟨p, some k⟩) s fun t => (p.val, k.val) ∈ t.rdc.reread ∧ p.val ∈ t.rdc.sector ∧ t.ladder p k = some l) ∧
  (∀ (s : State) (p : Fin 16) (track : Fin 16777216) (amps0 amps1 : List Byte) (a1 a3 : BitVec 16), p.val ∈ s.rdc.sector → s.on RDC_LANE_STAT.LOST (2 * p) =
    false → s.on RDC_HP_ADAPT.AGC_FRZ p = true → Completes (.preambleEnd p track amps0 amps1 a1 a3) s fun t => Unchanged [(.RDC_LANE_STAT, 2 * p.val),
    (.RDC_LANE_STAT, 2 * p.val + 1), (.RDC_HP_CLR, p.val)] [.rdc] [] s t ∧ t.get RDC_LANE_STAT.AMP (2 * p) = (amps0.map (·.toNat)).getLastD 0 ∧ t.get
    RDC_LANE_AFE.GAIN (2 * p) = s.get RDC_LANE_AFE.GAIN (2 * p) ∧ (((amps0.map (·.toNat)).getLastD 0 < s.get RDC_HP_CTL.LOSS_THR p ∧ 120 ≤ s.get
    RDC_LANE_AFE.GAIN (2 * p)) → t.get RDC_LANE_STAT.WEAK_CNT (2 * p) = satAdd (s.get RDC_LANE_STAT.WEAK_CNT (2 * p)) 1 255)) ∧
  (∀ (s : State) (p : Fin 16) (track : Fin 16777216) (amps0 amps1 : List Byte) (a1 a3 : BitVec 16) (r : Fin 2), p.val ∈ s.rdc.sector → s.on RDC_LANE_STAT.LOST
    (2 * p + r) = false → Completes (.preambleEnd p track amps0 amps1 a1 a3) s fun t => Unchanged [(.RDC_LANE_STAT, 2 * p.val), (.RDC_LANE_STAT, 2 * p.val
    + 1), (.RDC_LANE_AFE, 2 * p.val), (.RDC_LANE_AFE, 2 * p.val + 1), (.RDC_HP_CLR, p.val)] [.rdc, .out] [] s t ∧ t.get RDC_LANE_STAT.AMP (2 * p + r) =
    ((if r = 0 then amps0 else amps1).map (·.toNat)).getLastD 0 ∧ (s.on RDC_HP_ADAPT.AGC_FRZ p = false → (s.rereadOf p).isNone = true → (t.get
    RDC_LANE_AFE.GAIN (2 * p + r) : Int) = preambleGain (clampN 16 120 (s.get RDC_HP_LOOP.AMP_TGT p)) (clampN 4 12 (s.get RDC_HP_ADAPT.MU_AGC p)) (min 120
    (s.get RDC_LANE_AFE.GAIN (2 * p + r)) : Nat) ((if r = 0 then amps0 else amps1).map (·.toNat)))) ∧
  (∀ (s : State) (p : Fin 16), s.hpPwr p = pwActive → s.get RDC_HEAD_CFG.CREF (s.tgt p).head ≠ 0 → Completes (.clearanceDelivery p) s fun t => Unchanged
    [(.RDC_HP_CLR, p.val)] [.wrc, .rdc, .out] [] s t ∧ t.get RDC_HP_CLR.VALID p = 1 ∧ ((s.tgt p).head, (s.get RDC_HP_CLR.CLR p : Int), s.time) ∈
    t.wrc.clearance) ∧
  (∀ (s : State) (n : Fin 32) (h : Nat), s.on RDC_LANE_STAT.LOST n = false → n.val ∉ s.rdc.losing → s.on RDC_LANE_STAT.BIAS_FLT n = true ∨ max 1 (s.get
    RDC_HP_CTL.LOSS_N (n / 2)) ≤ s.get RDC_LANE_STAT.WEAK_CNT n ∧ (s.on RDC_LANE_STAT.LOST (if n.val % 2 = 0 then n.val + 1 else n.val - 1) = true ∨ s.get
    RDC_LANE_STAT.WEAK_CNT (if n.val % 2 = 0 then n.val + 1 else n.val - 1) < max 1 (s.get RDC_HP_CTL.LOSS_N (n / 2))) → s.headOf (n / 2) = some h →
    s.headState h = hDegraded → s.get SVE_HEAD_STATE.RDR0_BAD h = 0 ∧ s.get SVE_HEAD_STATE.RDR1_BAD h = 0 → Completes (.readerLoss n) s fun t => Unchanged
    [(.SVE_HEAD_STATE, h)] [.rdc, .kpr] [] s t ∧ t.get SVE_HEAD_STATE.RDR0_BAD h + t.get SVE_HEAD_STATE.RDR1_BAD h = 1 ∧ n.val ∈ t.rdc.losing ∧ t.headState
    h = hDegraded) ∧
  (∀ (s : State) (n : Fin 32) (h : Nat), s.on RDC_LANE_STAT.LOST n = false → n.val ∉ s.rdc.losing → s.on RDC_LANE_STAT.BIAS_FLT n = true ∨ max 1 (s.get
    RDC_HP_CTL.LOSS_N (n / 2)) ≤ s.get RDC_LANE_STAT.WEAK_CNT n ∧ (s.on RDC_LANE_STAT.LOST (if n.val % 2 = 0 then n.val + 1 else n.val - 1) = true ∨ s.get
    RDC_LANE_STAT.WEAK_CNT (if n.val % 2 = 0 then n.val + 1 else n.val - 1) < max 1 (s.get RDC_HP_CTL.LOSS_N (n / 2))) → s.headOf (n / 2) = some h →
    s.headState h = hInSlot → s.get SVE_HEAD_STATE.RDR0_BAD h = 0 ∧ s.get SVE_HEAD_STATE.RDR1_BAD h = 0 → s.normalService = true → Completes (.readerLoss
    n) s fun t => t.get SVE_HEAD_STATE.RDR0_BAD h = (if n.val % 2 = 0 then 1 else 0) ∧ t.get SVE_HEAD_STATE.RDR1_BAD h = n.val % 2 ∧ n.val ∈ t.rdc.losing ∧
    t.headState h = hDegraded) ∧
  (∀ (s : State) (p : Fin 16) (h : Nat), p.val ∈ s.rdc.bothReady → s.headOf p = some h → s.pathUsable p = true → s.normalService = true → Completes
    (.bothReadersLoss p) s fun t => t.headState h = hFailed ∧ t.get SVE_HEAD_STATE.RDR0_BAD h = 1 ∧ t.get SVE_HEAD_STATE.RDR1_BAD h = 1 ∧ 2 * p.val ∈
    t.rdc.losing ∧ 2 * p.val + 1 ∈ t.rdc.losing ∧ p.val ∉ t.rdc.bothReady) ∧
  (∀ (s : State) (p : Fin 16) (h : Nat), p.val ∈ s.rdc.bothReady → s.headOf p = some h → s.headState h = hInSlot → s.inPass p = false → s.alm.staged.length <
    stagingSize → s.quiet (192 + h) → Completes (.bothReadersLoss p) s fun t => ChangesOnly [.FCU_SRC_STAT, .FCU_FEC_INFO, .FCU_FEC_ADDR, .FCU_FEC_TIME,
    .SVE_HEAD_STATE, .ALM_STAT, .WRC_WR_CTL, .WRC_WR_STAT, .WRC_WUS_STAT, .WRC_RWL_CTL] [.fcu, .alm, .kpr, .rdc, .sve, .wrc, .out] false s t ∧ t.headState
    h = hFailed ∧ Counted (192 + h) (detail h) s t)

/-- SR_FORCE and SR_SEL are written at once; a valid retry order is written and an invalid one only sets ORD_ERR; a snapshot shows every live counter and a
clear zeroes both; a read of NP_DATA returns the word in use, a write sets it where the path is not ACTIVE and waits where it is, and the word number
advances with AUTOINC. -/
def Obligations.ReadRegisters : Prop :=
  (∀ (s : State) (p : Fin 16) (on sel : Bool), Completes (.srForce p on sel) s fun t => Unchanged [(.RDC_HP_CTL, p.val)] [] [] s t ∧ t.get RDC_HP_CTL.SR_FORCE
    p = b2n on ∧ t.get RDC_HP_CTL.SR_SEL p = b2n sel) ∧
  (∀ (s : State) (q : Fin 2) (v : Word), orderValid q v.toNat = true → Completes (.retryOrderWrite q v) s fun t => Unchanged [(.RDC_RETRY_ORDER, q.val)] [] []
    s t ∧ t.get RDC_RETRY_ORDER.ORDER q = v.toNat ∧ t.get RDC_RETRY_CFG.ORD_ERR 0 = s.get RDC_RETRY_CFG.ORD_ERR 0) ∧
  (∀ (s : State) (q : Fin 2) (v : Word), orderValid q v.toNat = false → Completes (.retryOrderWrite q v) s fun t => Unchanged [(.RDC_RETRY_CFG, 0)] [] [] s t
    ∧ t.get RDC_RETRY_CFG.ORD_ERR 0 = 1 ∧ t.get RDC_RETRY_ORDER.ORDER q = s.get RDC_RETRY_ORDER.ORDER q) ∧
  (∀ (s : State) (h : Fin 24) (l : Fin 8), Sparse.get 0 s.rdc.hst (hstKey h 0) < 2 ^ 64 ∧ Sparse.get 0 s.rdc.hst (hstKey h 1) < 2 ^ 32 ∧ Sparse.get 0
    s.rdc.hst (hstKey h (8 + l)) < 2 ^ 32 → Completes (.hstSnap) s fun t => ChangesOnly [.RDC_HST_FAIL, .RDC_HST_FLIP, .RDC_HST_HOFF, .RDC_HST_REC,
    .RDC_HST_SECT, .RDC_HST_SYNC, .RDC_HST_UNREC] [] false s t ∧ t.get RDC_HST_SECT.COUNT h = Sparse.get 0 s.rdc.hst (hstKey h 0) ∧ t.get
    RDC_HST_SYNC.COUNT h = Sparse.get 0 s.rdc.hst (hstKey h 1) ∧ t.get RDC_HST_REC.COUNT (8 * h + l) = Sparse.get 0 s.rdc.hst (hstKey h (8 + l))) ∧
  (∀ (s : State) (h : Fin 24) (l : Fin 8), Completes (.hstClr) s fun t => ChangesOnly [.RDC_HST_FAIL, .RDC_HST_FLIP, .RDC_HST_HOFF, .RDC_HST_REC,
    .RDC_HST_SECT, .RDC_HST_SYNC, .RDC_HST_UNREC] [.rdc] false s t ∧ t.get RDC_HST_SECT.COUNT h = 0 ∧ t.get RDC_HST_FLIP.COUNT h = 0 ∧ t.get
    RDC_HST_UNREC.COUNT h = 0 ∧ t.get RDC_HST_REC.COUNT (8 * h + l) = 0 ∧ t.rdc.hst = []) ∧
  (∀ (s : State) (m : Master) (v : BitVec 16), Completes (.npDataAccess m (some v)) s fun t => Unchanged [(.RDC_NP_ADDR, 0)] [.rdc] [] s t ∧ t.get
    RDC_NP_ADDR.WORD 0 = (if s.on RDC_NP_ADDR.AUTOINC 0 then (s.get RDC_NP_ADDR.WORD 0 + 1) % 256 else s.get RDC_NP_ADDR.WORD 0) ∧ (npReserved s.npAddr =
    false → s.hpPwr (s.npAddr / 2048) ≠ pwActive → t.npWord s.npAddr = if s.npAddr % 8 = 5 then max 16 v.toNat else v.toNat)) ∧
  (∀ (s : State) (m : Master), Completes (.npDataAccess m none) s fun t => Unchanged [(.RDC_NP_ADDR, 0)] [.out] [] s t ∧ t.out = .data m.id s.npShown :: s.out
    ∧ t.get RDC_NP_ADDR.WORD 0 = if s.on RDC_NP_ADDR.AUTOINC 0 then (s.get RDC_NP_ADDR.WORD 0 + 1) % 256 else s.get RDC_NP_ADDR.WORD 0) ∧
  (∀ (s : State) (m : Master) (v : BitVec 16), npReserved s.npAddr = false → s.hpPwr (s.npAddr / 2048) ≠ pwActive → s.npAddr % 8 ≠ 5 → Completes
    (.npDataAccess m (some v)) s fun t => Unchanged [(.RDC_NP_ADDR, 0)] [.rdc] [] s t ∧ t.npWord s.npAddr = v.toNat ∧ t.get RDC_NP_ADDR.WORD 0 = if s.on
    RDC_NP_ADDR.AUTOINC 0 then (s.get RDC_NP_ADDR.WORD 0 + 1) % 256 else s.get RDC_NP_ADDR.WORD 0) ∧
  (∀ (s : State) (m : Master) (v : BitVec 16), npReserved s.npAddr = false → s.hpPwr (s.npAddr / 2048) = pwActive → Completes (.npDataAccess m (some v)) s fun
    t => Unchanged [(.RDC_NP_ADDR, 0)] [.rdc] [] s t ∧ t.npWord s.npAddr = s.npWord s.npAddr ∧ (s.npAddr, if s.npAddr % 8 = 5 then max 16 v.toNat else
    v.toNat) ∈ t.rdc.npPend)

/-- A sector whose sync is found and whose decode is good goes to MPC as GOOD, its flips counted, or passes verification; one that fails is counted and takes a
free ladder slot, or, where all four are held, counts CAP_MISS and is to be read again; a cut-off decode fails so too. At a boundary a ladder that nothing
needs is freed, one whose member MPC rebuilt is freed and counted; a good re-read frees it and sends the member as RECOVERED with its level, a failed one
goes on; a good extended decode frees its ladder. Clauses without a frame state their effects under the conditions of normal execution alone, whatever else
follows in the same step. -/
def Obligations.SectorReads : Prop :=
  (∀ (s : State) (p : Fin 16) (row : Fin (2 ^ 40)) (j : Fin 16) (tag : Word) (m ti : Bool) (a b : Option MarkObs) (d0 : Option Decode) (bits : List BitObs) (o
    : SectorObs) (r : ReadOut) (d : Decode), s.readCounts p row j = true → o = readSeen m { sync := s.syncSeen p a b, timing := ti, d := d0 } bits →
    s.normalService = true → s.readLeft p ((iterMaxOf (s.get RDC_HP_DEC.ITER_MAX p)).min 20) o = r → r.sync.isSome = true ∧ r.timing = false ∧ r.d = some d
    → decodeGood d row j = true → s.headState (s.tgt p).head ≠ hRetired → Completes (.sectorReadEnd p row j tag false m ti a b d0 bits) s fun t => t.get
    RDC_HP_STAT.LOCKED p = 1 ∧ t.get RDC_HP_DEC.LAST_ITER p = d.iter ∧ Sparse.get 0 t.rdc.hst (hstKey (s.tgt p).head 3) = satAdd (Sparse.get 0 s.rdc.hst
    (hstKey (s.tgt p).head 3)) d.flips (hstMax 3) ∧ memberFrame s.timeLo row j p ((s.tgt p).head % 32) 0 msGood 0 d.unsat d.iter d.bytes ∈ t.out ∧ p.val ∉
    t.rdc.sector) ∧
  (∀ (s : State) (p : Fin 16) (row : Fin (2 ^ 40)) (j : Fin 16) (tag : Word) (m ti : Bool) (a b : Option MarkObs) (d0 : Option Decode) (bits : List BitObs) (o
    : SectorObs) (r : ReadOut) (verify : Bool), s.readCounts p row j = true → o = readSeen m { sync := s.syncSeen p a b, timing := ti, d := d0 } bits →
    s.normalService = true → s.readLeft p ((iterMaxOf (s.get RDC_HP_DEC.ITER_MAX p)).min 20) o = r → (r.sync.isNone = true ∨ r.timing = true ∨ ∀ d ∈ r.d,
    decodeGood d row j = false) → s.headState (s.tgt p).head ≠ hRetired → Completes (.sectorReadEnd p row j tag verify m ti a b d0 bits) s fun t =>
    (r.sync.isNone = true → Sparse.get 0 t.rdc.hst (hstKey (s.tgt p).head 1) = satAdd (Sparse.get 0 s.rdc.hst (hstKey (s.tgt p).head 1)) 1 (hstMax 1)) ∧
    (r.sync.isSome = true → Sparse.get 0 t.rdc.hst (hstKey (s.tgt p).head 2) = satAdd (Sparse.get 0 s.rdc.hst (hstKey (s.tgt p).head 2)) 1 (hstMax 2)) ∧
    t.get RDC_HP_STAT.LOCKED p = (if r.timing then 0 else 1) ∧ p.val ∉ t.rdc.sector) ∧
  (∀ (s : State) (p : Fin 16) (row : Fin (2 ^ 40)) (j : Fin 16) (tag : Word) (m ti : Bool) (a b : Option MarkObs) (d0 : Option Decode) (bits : List BitObs) (o
    : SectorObs) (c : Nat), o = readSeen m { sync := s.syncSeen p a b, timing := ti, d := d0 } bits → (s.rdc.erased.find? (fun e => e.1 == p.val) = some
    (p.val, c)) → c ≠ fcRetake → s.rowP0 row = false → Completes (.sectorReadEnd p row j tag false m ti a b d0 bits) s fun t => memberFrame s.timeLo row j
    p ((s.tgt p).head % 32) 4 msErased (c % 16) 0 0 [] ∈ t.out ∧ p.val ∉ t.rdc.sector) ∧
  (∀ (s : State) (p : Fin 16) (row : Fin (2 ^ 40)) (j : Fin 16) (tag : Word) (m ti : Bool) (a b : Option MarkObs) (d0 : Option Decode) (bits : List BitObs) (o
    : SectorObs) (r : ReadOut) (d : Decode), s.readCounts p row j = true → o = readSeen m { sync := s.syncSeen p a b, timing := ti, d := d0 } bits →
    s.normalService = true → s.readLeft p ((iterMaxOf (s.get RDC_HP_DEC.ITER_MAX p)).min 20) o = r → r.sync.isSome = true ∧ r.timing = false ∧ r.d = some d
    → decodeGood d row j = true → d.iter.val ≤ clampN 1 20 (s.get WRC_VFY_CFG.VFY_ITER 0) → newer (2 ^ 24) (Sparse.get tag.toNat s.wrc.tags (16 * row + j)
    / 256) (tag.toNat / 256) = false → Completes (.sectorReadEnd p row j tag true m ti a b d0 bits) s fun t => Out.event "verify pass" [row, j.val] ∈ t.out
    ∧ (row.val, j.val) ∉ t.wrc.due) ∧
  (∀ (s : State) (p : Fin 16) (row : Fin (2 ^ 40)) (j : Fin 16) (tag : Word) (m ti : Bool) (a b : Option MarkObs) (d0 : Option Decode) (bits : List BitObs) (o
    : SectorObs) (r : ReadOut), s.readCounts p row j = true → o = readSeen m { sync := s.syncSeen p a b, timing := ti, d := d0 } bits → s.normalService =
    true → s.mpc.ctxs = [] → s.rdc.unrec = [] → s.readLeft p ((iterMaxOf (s.get RDC_HP_DEC.ITER_MAX p)).min 20) o = r → (r.sync.isNone = true ∨ r.timing =
    true ∨ ∀ d ∈ r.d, decodeGood d row j = false) → (∀ k < 4, (s.ladder p k).isSome = true) → s.on RDC_RETRY_CFG.HW_EN 0 = true → Completes (.sectorReadEnd
    p row j tag false m ti a b d0 bits) s fun t => t.get RDC_RETRY_STAT.CAP_MISS p = satAdd (s.get RDC_RETRY_STAT.CAP_MISS p) 1 (2 ^
    RDC_RETRY_STAT.CAP_MISS.width - 1) ∧ t.out.head? = some (Out.event "read again" [row, j.val])) ∧
  (∀ (s : State) (p : Fin 16) (row : Fin (2 ^ 40)) (j : Fin 16) (tag : Word) (ti : Bool) (a b : Option MarkObs) (d0 : Option Decode) (bits : List BitObs) (r :
    ReadOut) (d : Decode), s.readCounts p row j = true → r = { sync := s.syncSeen p a b, timing := ti, d := d0 } → s.mpc.ctxs = [] → s.rdc.unrec = [] →
    (r.sync.isSome = true ∧ r.timing = false) ∧ r.d = some d → decodeGood d row j = true → Completes (.sectorReadEnd p row j tag false false ti a b d0
    bits) s fun t => Unchanged [(.RDC_HP_SYNC, p.val), (.RDC_HP_STAT, p.val), (.RDC_HP_DEC, p.val)] [.rdc, .out] [] s t ∧ t.out = memberFrame s.timeLo row
    j p ((s.tgt p).head % 32) 0 msGood 0 d.unsat d.iter d.bytes :: s.out ∧ t.rdc.ladders = s.rdc.ladders) ∧
  (∀ (s : State) (p : Fin 16) (row : Fin (2 ^ 40)) (j : Fin 16) (tag : Word) (verify : Bool) (iter : Fin 21) (o : SectorObs) (r : ReadOut), s.readCounts p row
    j = true → s.normalService = true → s.readLeft p ((iterMaxOf (s.get RDC_HP_DEC.ITER_MAX p)).min iter) o = r → s.headState (s.tgt p).head ≠ hRetired →
    Completes (.decodeCutoff p row j ⟨tag, verify⟩ ⟨iter, o⟩) s fun t => (r.sync.isNone = true → Sparse.get 0 t.rdc.hst (hstKey (s.tgt p).head 1) = satAdd
    (Sparse.get 0 s.rdc.hst (hstKey (s.tgt p).head 1)) 1 (hstMax 1)) ∧ (r.sync.isSome = true → Sparse.get 0 t.rdc.hst (hstKey (s.tgt p).head 2) = satAdd
    (Sparse.get 0 s.rdc.hst (hstKey (s.tgt p).head 2)) 1 (hstMax 2)) ∧ (∀ d ∈ r.d, r.sync.isSome = true → t.get RDC_HP_DEC.LAST_ITER p = d.iter) ∧ p.val ∉
    t.rdc.sector) ∧
  (∀ (s : State) (p : Fin 16) (row : Fin (2 ^ 40)) (j : Fin 16) (tag : Word) (iter : Fin 21) (r : ReadOut) (d : Decode) (k : Nat), s.readCounts p row j = true
    → s.mpc.ctxs = [] → s.rdc.unrec = [] → (r.sync.isSome = true ∧ r.timing = false) ∧ r.d = some d → ((List.range 4).find? (fun k => (s.ladder p
    k).isNone) = some k) → s.on RDC_CAP_BASE.EN 0 = false → s.on RDC_RETRY_CFG.HW_EN 0 = true → nbits (s.get RDC_RETRY_ORDER.ORDER (if s.rowP0 row then 0
    else 1)) 3 0 ∈ [0, 2, 3, 6, 7] → s.headState (s.tgt p).head ≠ hFailed → Completes (.decodeCutoff p row j ⟨tag, false⟩ ⟨iter, .result r⟩) s fun t =>
    Unchanged [(.RDC_HP_DEC, p.val), (.RDC_RETRY_STAT, p.val), (.RDC_HP_SYNC, p.val), (.RDC_HP_STAT, p.val)] [.rdc] [] s t ∧ t.get RDC_HP_DEC.LAST_ITER p =
    d.iter ∧ (∃ l ∈ t.ladder p k, l.row = row.val ∧ l.j = j.val ∧ l.cause = fcDecode ∧ l.pos = 0 ∧ l.best = some (d.unsat.val, d.iter.val))) ∧
  (∀ (s : State) (p : Fin 16) (k : Fin 4) (m : Bool) (r0 : ReadOut) (bits : List BitObs) (o : SectorObs) (l : Ladder), o = readSeen m r0 bits → s.ladder p k =
    some l → Completes (.ladderLevelBoundary p k false m r0 bits) s fun t => ChangesOnly [.ALM_STAT, .BMU_SLOT_STAT, .CQE_OVL_STAT, .CQE_STAT, .MPC_STAT,
    .RDC_HP_DEC, .RDC_HP_STAT, .RDC_HP_SYNC, .RDC_HP_TAP, .RDC_HP_TR, .RDC_LANE_AFE, .RDC_LANE_STAT, .RDC_RETRY_STAT] [.alm, .bmu, .cqe, .hif, .mpc, .out,
    .ptm, .rdc] false s t ∧ t.ladder p k = none) ∧
  (∀ (s : State) (p : Fin 16) (k : Fin 4) (m : Bool) (r0 : ReadOut) (bits : List BitObs) (o : SectorObs) (l : Ladder), o = readSeen m r0 bits → s.ladder p k =
    some l → l.rebuilt = true → (p.val, k.val) ∉ s.rdc.reread → s.headState l.head ≠ hRetired → Completes (.ladderLevelBoundary p k true m r0 bits) s fun t
    => t.ladder p k = none ∧ Sparse.get 0 t.rdc.hst (hstKey l.head 12) = satAdd (Sparse.get 0 s.rdc.hst (hstKey l.head 12)) 1 (hstMax 12)) ∧
  (∀ (s : State) (p : Fin 16) (k : Fin 4) (bits : List BitObs) (l : Ladder) (r : ReadOut) (d : Decode), s.ladder p k = some l → (p.val, k.val) ∈ s.rdc.reread
    → l.rebuilt = false ∧ l.handed = false → l.level ∈ [0, 2, 3, 5, 6, 7] → (∀ e ∈ s.rdc.erased, e.1 ≠ p.val) → s.headState l.head ≠ hFailed ∧ s.headState
    l.head ≠ hRetired → (r.sync.isSome = true ∧ r.timing = false) ∧ r.d = some d → decodeGood d l.row l.j = true → Completes (.ladderLevelBoundary p k true
    false r bits) s fun t => t.ladder p k = none ∧ Sparse.get 0 t.rdc.hst (hstKey l.head (8 + l.level)) = satAdd (Sparse.get 0 s.rdc.hst (hstKey l.head (8
    + l.level))) 1 (hstMax (8 + l.level)) ∧ memberFrame s.timeLo l.row l.j p (l.head % 32) l.level msRecovered (l.cause % 16) d.unsat d.iter d.bytes ∈
    t.out) ∧
  (∀ (s : State) (p : Fin 16) (k : Fin 4) (m : Bool) (r0 : ReadOut) (bits : List BitObs) (o : SectorObs) (l : Ladder) (r : ReadOut), o = readSeen m r0 bits →
    s.ladder p k = some l → (p.val, k.val) ∈ s.rdc.reread → l.rebuilt = false ∧ l.handed = false → l.level ∈ [2, 3, 6, 7] → (∀ e ∈ s.rdc.erased, e.1 ≠
    p.val) → s.on RDC_RETRY_CFG.HW_EN 0 = true → s.headState l.head ≠ hFailed ∧ s.headState l.head ≠ hRetired → s.readLeft p (if l.level = 7 then 4 *
    l.l1Iter else (iterMaxOf (s.get RDC_HP_DEC.ITER_MAX p))) o = r → r.sync.isNone = true ∧ r.d.isNone = true → l.sub + 1 < l.reads → Completes
    (.ladderLevelBoundary p k true m r0 bits) s fun t => t.ladder p k = some { l with sub := l.sub + 1 } ∧ Sparse.get 0 t.rdc.hst (hstKey l.head 1) =
    satAdd (Sparse.get 0 s.rdc.hst (hstKey l.head 1)) 1 (hstMax 1)) ∧
  (∀ (s : State) (p : Fin 16) (k : Fin 4) (d : Decode) (l : Ladder), s.ladder p k = some l → l.l1 = true → 4 * p.val + k.val ∈ s.rdc.l1q.take 4 → l.rebuilt =
    false → l.handed = false ∨ l.begun = false → decodeGood d l.row l.j = true → s.headState l.head ≠ hRetired → Completes (.l1JobDone p k (some d)) s fun
    t => ChangesOnly [.ALM_STAT, .BMU_SLOT_STAT, .CQE_OVL_STAT, .CQE_STAT, .MPC_STAT, .RDC_RETRY_STAT] [.alm, .bmu, .cqe, .hif, .mpc, .out, .ptm, .rdc]
    false s t ∧ t.ladder p k = none ∧ Sparse.get 0 t.rdc.hst (hstKey l.head 9) = satAdd (Sparse.get 0 s.rdc.hst (hstKey l.head 9)) 1 (hstMax 9) ∧
    memberFrame l.time l.row l.j p (l.head % 32) 1 msRecovered (l.cause % 16) d.unsat d.iter d.bytes ∈ t.out) ∧
  (∀ (s : State) (p : Fin 16) (k : Fin 4) (d : Decode) (l : Ladder), s.ladder p k = some l → l.l1 = true → 4 * p.val + k.val ∈ s.rdc.l1q.take 4 → decodeGood d
    l.row l.j = false → Completes (.l1JobDone p k (some d)) s fun t => 4 * p.val + k.val ∉ t.rdc.l1q ∧ ∀ y ∈ t.ladder p k, y.l1 = false)

/-- A HELLO of version 1 or more brings a link that is down up at the lower version; link-up starts with a HELLO frame of the part; a STATUS frame sets the
lanes' bias faults; an ACK ends the command frame it names; a frame without an ACK is sent again, at most three times, then it is a burst; four upstream
errors in a wedge interval are a burst: PAL_ERR on the active paths, their sectors erased, the preamp source asserted, the event counted; a loss takes the
link down, ends the actuator's pass and counts its source. A third re-send without an ACK is a burst. Clauses without a frame state their effects under the
conditions of normal execution alone, whatever else follows in the same step. -/
def Obligations.PreampLinks : Prop :=
  (∀ (s : State) (a : Fin 4) (ver : Fin 256), s.ptm.vpre = true → s.palUp a = false → 1 ≤ ver.val → (∀ p ∈ pathsOf a, s.hpPwr p < pwReady) → Completes
    (.palHello a ver) s fun t => ChangesOnly [.BMU_EVB_STAT, .BMU_STAT, .PCX_PROT_STAT, .PTM_DOM_PWR, .RDC_HP_CLR, .RDC_HP_STAT, .RDC_PAL_STAT,
    .SVE_CTX_CFG, .SVE_CTX_MAN, .SVE_CTX_STAT, .WRC_RWL_CTL, .WRC_RWL_PTR, .WRC_WR_STAT, .WRC_WUS_STAT] [.bmu, .fcu, .out, .rdc, .svc, .sve, .wrc] true s t
    ∧ t.palUp a = true ∧ t.get RDC_PAL_STAT.VER a = min 2 ver.val ∧ a.val ∉ t.wrc.preamp) ∧
  (∀ (s : State) (a : Fin 4), s.ptm.vpre = true → s.palUp a = false → Completes (.preampLinkUpStart a) s fun t => Unchanged [] [.out] [] s t ∧ t.out = .frame
    "PAL" "FRAME" [a.val, 0x01, 0x02, palCrc 0x01 0x02] :: s.out) ∧
  (∀ (s : State) (a : Fin 4) (ver : Fin 256), s.ptm.vpre = true → s.palUp a = false → 1 ≤ ver.val → Completes (.palHello a ver) s fun t => t.palUp a = true ∧
    t.get RDC_PAL_STAT.VER a = min 2 ver.val ∧ a.val ∉ t.wrc.preamp) ∧
  (∀ (s : State) (a : Fin 4) (payload : BitVec 24) (p h : Nat), s.palUp a = true → p / 4 = a.val → s.headOf p = some h → s.normalService = true → Completes
    (.palStatus a payload) s fun t => t.get RDC_LANE_STAT.BIAS_FLT (2 * p) = b2n (nbit payload.toNat (2 * (h % 6))) ∧ t.get RDC_LANE_STAT.BIAS_FLT (2 * p +
    1) = b2n (nbit payload.toNat (2 * (h % 6) + 1)) ∧ ∀ k < 6, nbit payload.toNat (12 + 2 * k) = true → t.get SVE_HEAD_STATE.WRT_BAD (6 * a + k) = 1) ∧
  (∀ (s : State) (a : Fin 4) (payload : BitVec 24) (p h : Nat), s.palUp a = true → payload.toNat < 4096 → p / 4 = a.val → s.headOf p = some h → Completes
    (.palStatus a payload) s fun t => Unchanged ((pathsOf a).flatMap fun p => [(.RDC_LANE_STAT, 2 * p), (.RDC_LANE_STAT, 2 * p + 1)]) [] [] s t ∧ t.get
    RDC_LANE_STAT.BIAS_FLT (2 * p) = b2n (nbit payload.toNat (2 * (h % 6))) ∧ t.get RDC_LANE_STAT.BIAS_FLT (2 * p + 1) = b2n (nbit payload.toNat (2 * (h %
    6) + 1))) ∧
  (∀ (s : State) (a : Fin 4) (typ crc : Byte) (c : PalCmd), s.palFind a typ.toNat crc.toNat = some c → typ ≠ 0x30 → Completes (.palAck a typ crc) s fun t =>
    Unchanged [] [.rdc] [] s t ∧ t.rdc.cmds = s.rdc.cmds.erase c) ∧
  (∀ (s : State) (a : Fin 4) (typ crc : Byte) (c : PalCmd), s.palFind a typ.toNat crc.toNat = some c → Completes (.palAck a typ crc) s fun t => t.rdc.cmds =
    s.rdc.cmds.erase c ∧ (typ = 0x30 → ∀ p, s.pathOfArm a (palArm 0x30 c.payload) = some p → Sparse.get 0 t.sve.uAck p = toSigned 16 (c.payload % 65536))) ∧
  (∀ (s : State) (a : Fin 4) (typ crc : Byte) (c : PalCmd), s.palFind a typ.toNat crc.toNat = some c → typ ≠ 0x30 → c.since + 16 ≤ s.ptm.ticks → 3 ≤ c.resends
    → s.normalService = true → Completes (.palResend a typ crc) s fun t => (∀ p ∈ pathsOf a, p ∈ s.sve.active → t.get RDC_HP_STAT.PAL_ERR p = 1) ∧ a.val ∈
    t.wrc.preamp ∧ (∀ w ∈ writersOfAct a, t.get WRC_WR_STAT.GATE w = 0) ∧ c ∉ t.rdc.cmds) ∧
  (∀ (s : State) (a : Fin 4) (typ crc : Byte) (c : PalCmd), s.palFind a typ.toNat crc.toNat = some c → typ ≠ 0x30 → c.since + 16 ≤ s.ptm.ticks → c.resends < 3
    → Completes (.palResend a typ crc) s fun t => Unchanged [(.RDC_PAL_STAT, a.val)] [.rdc, .out] [] s t ∧ t.out = .frame "PAL" "FRAME" [a.val, c.typ,
    c.payload, palCrc c.typ c.payload] :: s.out ∧ t.get RDC_PAL_STAT.RESEND a = satAdd (s.get RDC_PAL_STAT.RESEND a) 1 (2 ^ RDC_PAL_STAT.RESEND.width - 1)
    ∧ { c with resends := c.resends + 1, since := s.ptm.ticks } ∈ t.rdc.cmds) ∧
  (∀ (s : State) (a : Fin 4) (n : Fin 256), n.val < 4 → Completes (.palErrorBurst a n) s fun t => Unchanged [(.RDC_PAL_STAT, a.val)] [] [] s t ∧ t.get
    RDC_PAL_STAT.CRC_ERR a = satAdd (s.get RDC_PAL_STAT.CRC_ERR a) n 255) ∧
  (∀ (s : State) (a : Fin 4) (n : Fin 256), 4 ≤ n.val → s.quiet (232 + a) → Completes (.palErrorBurst a n) s fun t => ChangesOnly [.BMU_EVB_STAT, .BMU_STAT,
    .FCU_FEC_ADDR, .FCU_FEC_INFO, .FCU_FEC_TIME, .FCU_SRC_STAT, .PCX_PROT_STAT, .RDC_HP_STAT, .RDC_PAL_STAT, .WRC_RWL_CTL, .WRC_RWL_PTR, .WRC_WR_STAT,
    .WRC_WUS_STAT] [.bmu, .fcu, .out, .rdc, .wrc] true s t ∧ t.get RDC_PAL_STAT.CRC_ERR a = satAdd (s.get RDC_PAL_STAT.CRC_ERR a) n 255 ∧ (∀ p ∈ pathsOf a,
    p ∈ s.sve.active → t.get RDC_HP_STAT.PAL_ERR p = 1) ∧ a.val ∈ t.wrc.preamp ∧ (∀ w ∈ writersOfAct a, t.get WRC_WR_STAT.GATE w = 0) ∧ Counted (232 + a)
    (detail a) s t) ∧
  (∀ (s : State) (a : Fin 4) (n : Fin 256), 4 ≤ n.val → s.normalService = true → Completes (.palErrorBurst a n) s fun t => t.get RDC_PAL_STAT.CRC_ERR a =
    satAdd (s.get RDC_PAL_STAT.CRC_ERR a) n 255 ∧ (∀ p ∈ pathsOf a, p ∈ s.sve.active → t.get RDC_HP_STAT.PAL_ERR p = 1) ∧ a.val ∈ t.wrc.preamp ∧ (∀ w ∈
    writersOfAct a, t.get WRC_WR_STAT.GATE w = 0)) ∧
  (∀ (s : State) (a : Fin 4), s.ptm.vpre = true → s.palUp a = true → s.normalService = true → Completes (.palLinkLoss a) s fun t => t.palUp a = false ∧ (∀ p ∈
    pathsOf a, p ∉ t.sve.active) ∧ (∀ e ∈ t.sve.pass, e.1 = a.val → e.2.ending = true) ∧ a.val ∈ t.wrc.preamp ∧ (∀ w ∈ writersOfAct a, t.get
    WRC_WR_STAT.GATE w = 0)) ∧
  (∀ (s : State) (a : Fin 4), s.ptm.vpre = true → s.palUp a = true → s.quiet (236 + a) → Completes (.palLinkLoss a) s fun t => ChangesOnly [.BMU_EVB_STAT,
    .BMU_STAT, .FCU_FEC_ADDR, .FCU_FEC_INFO, .FCU_FEC_TIME, .FCU_SRC_STAT, .PCX_PROT_STAT, .RDC_PAL_STAT, .WRC_RWL_CTL, .WRC_RWL_PTR, .WRC_WR_STAT,
    .WRC_WUS_STAT] [.bmu, .fcu, .out, .rdc, .sve, .wrc] true s t ∧ t.palUp a = false ∧ (∀ p ∈ pathsOf a, p ∉ t.sve.active) ∧ (∀ e ∈ t.sve.pass, e.1 = a.val
    → e.2.ending = true) ∧ a.val ∈ t.wrc.preamp ∧ (∀ w ∈ writersOfAct a, t.get WRC_WR_STAT.GATE w = 0) ∧ Counted (236 + a) (detail a) s t)

/-- AST_ID sets the assist types of an actuator's arms; a monitor sample off a servo gate sets MON and moves the drive by the assist rule; a write sector whose
gate may open opens it and becomes ACTIVE, else it stays queued; its end closes the gate, and enters the member in its row; INHIBIT closes an open gate at
once, with its cause and a rewrite entry, and its clearing lets the gate open again; a row whose members are all complete, with no neighbour entry, has its
versions on the medium one wedge interval after the last postamble, and its encode slot is free. A gate that may not open leaves the sector queued; pending
register writes apply first. Clauses without a frame state their effects under the conditions of normal execution alone, whatever else follows in the same
step. -/
def Obligations.WritePath : Prop :=
  (∀ (s : State) (a : Fin 4) (payload : BitVec 12), Completes (.astId a payload) s fun t => Unchanged ((List.range 6).map fun k => (.WRC_HEAD_CFG, 6 * a.val +
    k)) [] [] s t ∧ ∀ k < 6, t.get WRC_HEAD_CFG.ATYPE (6 * a + k) = nbits payload.toNat (2 * k + 1) (2 * k)) ∧
  (∀ (s : State) (a : Fin 4) (arm : Fin 6) (m : BitVec 10) (w : Nat), w = 2 * a.val → (s.writer w).pass = true → (s.writer (w + 1)).pass = false → s.wArm w =
    arm.val → s.hasAssist (s.writer w).head = true → s.on WRC_WR_STAT.AST_ON w = true → m.toNat ≤ s.wSetPoint w + s.wSetPoint w / 4 → s.wSetPoint w ≤
    m.toNat + s.get WRC_CFG.MON_TOL 0 → Completes (.astMon a arm m false) s fun t => Unchanged ([(.WRC_WR_STAT, w)]) [.wrc, .rdc, .out] [] s t ∧ t.get
    WRC_WR_STAT.MON w = m.toNat ∧ t.get WRC_WR_STAT.DRV w = assistDrive (s.get WRC_WR_STAT.DRV w) (s.wSetPoint w) m.toNat (clampN 1 8 (s.get WRC_CFG.KA 0))
    (nbits (s.wParam w 5) 25 16) ∧ (t.writer w).monHigh = 0 ∧ (t.writer w).monLow = 0 ∧ t.get WRC_WR_STAT.AST_FLT w = s.get WRC_WR_STAT.AST_FLT w) ∧
  (∀ (s : State) (a : Fin 4) (arm : Fin 6) (m : BitVec 10) (w : Nat), w / 2 = a.val → (s.writer w).pass = true → s.wArm w = arm.val → s.hasAssist (s.writer
    w).head = true → s.on WRC_WR_STAT.AST_ON w = true → s.normalService = true → Completes (.astMon a arm m false) s fun t => t.get WRC_WR_STAT.MON w =
    m.toNat ∧ (s.wSetPoint w + s.wSetPoint w / 4 < m.toNat → 1 ≤ (s.writer w).monHigh → t.get WRC_WR_STAT.AST_FLT w = 1 ∧ t.get WRC_WR_STAT.AST_ON w = 0 ∧
    t.get WRC_WR_STAT.GATE w = 0)) ∧
  (∀ (s : State) (a : Fin 4) (arm : Fin 6) (m : BitVec 10), Completes (.astMon a arm m true) s fun t => Unchanged [] [] [] s t ∧ t.wrc = s.wrc) ∧
  (∀ (s : State) (a : Fin 4) (i : Fin 2) (w : Nat) (row : Fin (2 ^ 40)) (j : Fin 16) (tag : Word), w = 2 * a.val + i.val → s.wrc.pend = [] → s.mayOpen w row j
    tag.toNat = true → Completes (.writeSectorStart a i row j tag) s fun t => Unchanged [(.WRC_WR_STAT, w)] [.wrc, .out] [] s t ∧ t.get WRC_WR_STAT.GATE w
    = 1 ∧ t.get WRC_WR_STAT.PWR w = wpActive ∧ (∃ x ∈ (t.writer w).sector, x.row = row.val ∧ x.j = j.val ∧ x.tag = tag.toNat ∧ x.head = (s.writer w).head)
    ∧ t.out = .frame "WRO" "data" (s.writeData w row j) :: s.out) ∧
  (∀ (s : State) (a : Fin 4) (i : Fin 2) (w : Nat) (row : Fin (2 ^ 40)) (j : Fin 16) (tag : Word), w = 2 * a.val + i.val → ((wrcBoundary w).run s).mayOpen w
    row j tag.toNat = true → Completes (.writeSectorStart a i row j tag) s fun t => t.get WRC_WR_STAT.GATE w = 1 ∧ t.get WRC_WR_STAT.PWR w = wpActive ∧ (∃
    x ∈ (t.writer w).sector, x.row = row.val ∧ x.j = j.val ∧ x.tag = tag.toNat ∧ x.head = (s.writer w).head) ∧ t.out = .frame "WRO" "data" (((wrcBoundary
    w).run s).writeData w row j) :: s.out) ∧
  (∀ (s : State) (a : Fin 4) (i : Fin 2) (w : Nat) (row : Fin (2 ^ 40)) (j : Fin 16) (tag : Word), w = 2 * a.val + i.val → (s.writer w).pass = true →
    ((wrcBoundary w).run s).mayOpen w row j tag.toNat = false → Completes (.writeSectorStart a i row j tag) s fun t => (∃ x ∈ (t.writer w).queue, x.row =
    row.val ∧ x.j = j.val ∧ x.tag = tag.toNat) ∧ t.get WRC_WR_STAT.GATE w = s.get WRC_WR_STAT.GATE w ∧ t.out = s.out) ∧
  (∀ (s : State) (a : Fin 4) (i : Fin 2) (w : Nat) (row : Fin (2 ^ 40)) (j : Fin 16) (tag : Word), w = 2 * a.val + i.val → s.wrc.pend = [] → (s.writer w).pass
    = true → s.mayOpen w row j tag.toNat = false → Completes (.writeSectorStart a i row j tag) s fun t => Unchanged [] [.wrc] [] s t ∧ ∃ x ∈ (t.writer
    w).queue, x.row = row.val ∧ x.j = j.val ∧ x.tag = tag.toNat) ∧
  (∀ (s : State) (w : Fin 8) (x : SecInfo), (s.writer w).sector = some x → Completes (.writeSectorEnd w) s fun t => t.get WRC_WR_STAT.GATE w = 0 ∧ (t.writer
    w).sector = none ∧ (∀ h ∈ t.wrc.buffer, h.row = x.row → h.j ≠ x.j) ∧ ∃ r ∈ t.wrc.rows, r.row = x.row ∧ x.j ∈ r.done ∧ r.lastEnd = s.time) ∧
  (∀ (s : State) (w : Fin 8) (x : SecInfo), (s.writer w).sector = some x → s.ptm.plStep ≠ 2 → Completes (.writeSectorEnd w) s fun t => Unchanged
    [(.WRC_WR_STAT, w.val)] [.wrc, .out] [] s t ∧ t.get WRC_WR_STAT.GATE w = 0 ∧ t.get WRC_WR_STAT.PWR w = wpReady ∧ (t.writer w).sector = none ∧ (t.writer
    w).last = some (x, s.time) ∧ (t.writer w).completed = true ∧ t.out = .frame "WRO" "squelch" [w.val] :: s.out ∧ ∃ r ∈ t.wrc.rows, r.row = x.row ∧ x.j ∈
    r.done ∧ r.lastEnd = s.time) ∧
  (∀ (s : State) (w : Fin 8) (x : SecInfo), s.on WRC_WR_STAT.GATE w = true → (s.writer w).sector = some x → s.storeFault .wrc (s.get WRC_RWL_BASE.ADDR 0 *
    4096 + 16 * (s.get WRC_RWL_PTR.WR 0 % s.rwlSize)) 16 = none → Completes (.inhibitSet w) s fun t => Unchanged [(.WRC_WR_CTL, w.val), (.WRC_WR_STAT,
    w.val), (.WRC_RWL_PTR, 0), (.WRC_RWL_CTL, 0), (.WRC_WUS_STAT, 0), (.BMU_CCC_STAT, 0)] [.wrc, .bmu, .out] [(s.get WRC_RWL_BASE.ADDR 0 * 4096 + 16 *
    (s.get WRC_RWL_PTR.WR 0 % s.rwlSize), 16)] s t ∧ t.get WRC_WR_CTL.INHIBIT w = 1 ∧ t.get WRC_WR_STAT.GATE w = 0 ∧ t.get WRC_WR_STAT.CAUSE w = cInhibit ∧
    (t.writer w).sector = none ∧ t.get WRC_RWL_PTR.WR 0 = (s.get WRC_RWL_PTR.WR 0 % s.rwlSize + 1) % s.rwlSize ∧ t.memW (s.get WRC_RWL_BASE.ADDR 0 * 4096 +
    16 * (s.get WRC_RWL_PTR.WR 0 % s.rwlSize)) = x.row % 2 ^ 32) ∧
  (∀ (s : State) (w : Fin 8), s.normalService = true → Completes (.inhibitSet w) s fun t => t.get WRC_WR_CTL.INHIBIT w = 1 ∧ t.get WRC_WR_STAT.GATE w = 0 ∧
    (s.on WRC_WR_STAT.GATE w = true → (t.writer w).sector = none)) ∧
  (∀ (s : State) (w : Fin 8), Completes (.inhibitClear w) s fun t => Unchanged [(.WRC_WR_CTL, w.val)] [.wrc] [] s t ∧ t.get WRC_WR_CTL.INHIBIT w = 0 ∧ t.get
    WRC_WR_STAT.GATE w = s.get WRC_WR_STAT.GATE w ∧ Sparse.get 0 t.wrc.cleared (kWriter w) = s.ptm.ticks + 1) ∧
  (∀ (s : State) (row : Fin (2 ^ 40)) (r : RowProgress), (s.wrc.rows.find? (fun x => x.row == row.val) = some r) → s.rowComplete r = true → r.neighbour = [] →
    r.lastEnd + wedgeTicks < s.time → Completes (.rowWritten row) s fun t => ChangesOnly [.BMU_BUDGET, .BMU_EVB_STAT, .BMU_SLOT_STAT, .BMU_STAT,
    .CQE_OVL_STAT, .CQE_STAT, .CQE_THROT, .MPC_KEY_STAT, .MPC_STAT, .PCX_PROT_STAT] [.bmu, .cqe, .fcu, .hif, .mpc, .out, .ptm, .wrc] true s t ∧ (∀ x ∈
    t.wrc.rows, x.row ≠ row.val) ∧ t.encOf row = none ∧ (∀ v ∈ t.cqe.overlay, (v.ns, v.lba, v.seq) ∈ (s.encOf row).elim [] (·.vers) → (r.done.any fun j =>
    s.rowLba v.ns row j == v.lba) = true → v.medium = true) ∧ t.cqe.destaged = s.cqe.destaged + 4096 * (((s.encOf row).elim [] (·.vers)).filter fun v =>
    r.done.any fun j => s.rowLba v.1 row j == v.2.1).length)

/-- A head path that finds no mark, or a wedge that fails a check of R191, has no valid PES, counts a miss in MISS_CNT and MISS_TOT, and is off-track where it
is active; a good wedge sets VALID, clears MISS_CNT, shows the wedge number and the PES of R190. MISS_N misses, or eight executions at the clamp, take the
path out of the active set; ACT_MISS intervals without a PES lose servo: SV_LOSS, the event counted, the position and current loops stopped, the retract
requested, passes ending. A read of the drift log takes its oldest entry and latches the high word. The same holds with others of the actuator's paths
still to come, and while LOADING a wedge that finds no mark starts the count of finds again; at e_V formation the wedges of the interval are done and N_PES
shows how many gave a PES. Clauses without a frame state their effects under the conditions of normal execution alone, whatever else follows in the same
step. -/
def Obligations.ServoWedges : Prop :=
  (∀ (s : State) (p : Fin 16), s.demodulates p = true → p.val ∉ s.sve.wedgeDone → s.get SVE_SEEK_STAT.STATE (p / 4) ≠ skLoading → (∀ q ∈ s.sve.wedgeDone, q /
    4 ≠ p.val / 4) → s.seekSub (p / 4) = skTracking → s.rdc.pend = [] → s.rdc.npPend = [] → s.rdc.losing = [] → s.demodPaths (p / 4) ≠ [p.val] → p.val ∉
    s.rdc.sector → (∀ w ∈ s.writersOfPath p, s.on WRC_WR_STAT.GATE w = false) → Completes (.wedgeArrival p ⟨none, none, []⟩) s fun t => ChangesOnly
    [.SVE_WEDGE_STAT, .SVE_SEEK_STAT, .RDC_HP_STAT, .WRC_WUS_STAT, .WRC_RWL_CTL] [.sve, .wrc, .rdc, .fcu] false s t ∧ t.get SVE_WEDGE_STAT.VALID p = 0 ∧
    t.get SVE_WEDGE_STAT.MISS_CNT p = satAdd (s.get SVE_WEDGE_STAT.MISS_CNT p) 1 (2 ^ SVE_WEDGE_STAT.MISS_CNT.width - 1) ∧ t.get SVE_WEDGE_STAT.MISS_TOT p
    = satAdd (s.get SVE_WEDGE_STAT.MISS_TOT p) 1 (2 ^ SVE_WEDGE_STAT.MISS_TOT.width - 1) ∧ (p.val ∈ s.sve.active → p.val ∈ t.wrc.offtrack) ∧ p.val ∈
    t.sve.wedgeDone ∧ t.get SVE_PES.PES p = s.get SVE_PES.PES p) ∧
  (∀ (s : State) (p : Fin 16) (o o2 : Option WedgeObs) (bits : List BitObs), s.demodulates p = true → p.val ∉ s.sve.wedgeDone → s.get SVE_SEEK_STAT.STATE (p /
    4) ≠ skLoading → (if s.servoLane p = 2 * p.val then o else o2) = none → s.normalService = true → Completes (.wedgeArrival p ⟨o, o2, bits⟩) s fun t =>
    t.get SVE_WEDGE_STAT.MISS_CNT p = satAdd (s.get SVE_WEDGE_STAT.MISS_CNT p) 1 (2 ^ SVE_WEDGE_STAT.MISS_CNT.width - 1) ∧ t.get SVE_WEDGE_STAT.MISS_TOT p
    = satAdd (s.get SVE_WEDGE_STAT.MISS_TOT p) 1 (2 ^ SVE_WEDGE_STAT.MISS_TOT.width - 1) ∧ t.get SVE_WEDGE_STAT.VALID p = 0 ∧ t.get SVE_PES.PES p = s.get
    SVE_PES.PES p) ∧
  (∀ (s : State) (p : Fin 16) (o o2 : Option WedgeObs) (bits : List BitObs) (x : WedgeObs), s.demodulates p = true → p.val ∉ s.sve.wedgeDone → s.get
    SVE_SEEK_STAT.STATE (p / 4) ≠ skLoading → (if s.servoLane p = 2 * p.val then o else o2) = some x → s.normalService = true → (((all [when
    (s.rdc.sector.contains p) (readPiece p bits), when (!(s.sve.wedgeDone.any fun q => q / 4 == p.val / 4)) (seekAdvance (p / 4)), rdcBoundary p, indexFix
    x.wedge.val]).run s).wedgeOk p x = true) → Completes (.wedgeArrival p ⟨o, o2, bits⟩) s fun t => t.get SVE_WEDGE_STAT.MISS_CNT p = 0 ∧ t.get
    SVE_WEDGE_STAT.WEDGE p = x.wedge ∧ (t.get SVE_WEDGE_STAT.VALID p = if ((all [when (s.rdc.sector.contains p) (readPiece p bits), when
    (!(s.sve.wedgeDone.any fun q => q / 4 == p.val / 4)) (seekAdvance (p / 4)), rdcBoundary p, indexFix x.wedge.val]).run s).seekSub (p / 4) = skMove then
    0 else 1) ∧ t.get SVE_WEDGE_STAT.MISS_TOT p = s.get SVE_WEDGE_STAT.MISS_TOT p) ∧
  (∀ (s : State) (p : Fin 16) (o o2 : Option WedgeObs) (bits : List BitObs), s.demodulates p = true → p.val ∉ s.sve.wedgeDone → s.get SVE_SEEK_STAT.STATE (p /
    4) = skLoading → (if s.servoLane p = 2 * p.val then o else o2) = none → Completes (.wedgeArrival p ⟨o, o2, bits⟩) s fun t => (t.seek (p / 4)).detect =
    0 ∧ t.get SVE_SEEK_STAT.STATE (p / 4) = skLoading) ∧
  (∀ (s : State) (p : Fin 16) (o : WedgeObs), s.demodulates p = true → p.val ∉ s.sve.wedgeDone → s.get SVE_SEEK_STAT.STATE (p / 4) ≠ skLoading → (∀ q ∈
    s.sve.wedgeDone, q / 4 ≠ p.val / 4) → s.seekSub (p / 4) = skTracking → s.rdc.pend = [] → s.rdc.npPend = [] → s.rdc.losing = [] → s.demodPaths (p / 4) ≠
    [p.val] → p.val ∉ s.rdc.sector → s.wedgeOk p o = true → o.wedge.val ≠ 0 → s.on SVE_CTX_CFG.ENABLE p = false → (∀ w ∈ s.writersOfPath p, s.on
    WRC_WR_STAT.GATE w = false) → Completes (.wedgeArrival p ⟨some o, some o, []⟩) s fun t => ChangesOnly [.SVE_WEDGE_STAT, .SVE_PES, .SVE_SEEK_STAT,
    .RDC_HP_STAT, .WRC_WUS_STAT, .WRC_RWL_CTL] [.sve, .wrc, .rdc, .fcu] false s t ∧ t.get SVE_WEDGE_STAT.VALID p = 1 ∧ t.get SVE_WEDGE_STAT.MISS_CNT p = 0
    ∧ t.get SVE_WEDGE_STAT.WEDGE p = o.wedge ∧ t.get SVE_PES.PES p = ofSigned SVE_PES.PES.width (wedgePes (wedgePosition o (s.on SVE_SV_CFG.RRO_EN 0))
    (s.physTarget p) (s.tgt p).tp) ∧ t.get SVE_WEDGE_STAT.MISS_TOT p = s.get SVE_WEDGE_STAT.MISS_TOT p ∧ p.val ∈ t.sve.wedgeDone) ∧
  (∀ (s : State) (p : Fin 16), p.val ∈ s.sve.active → max 1 (s.get SVE_SV_CFG.MISS_N 0) ≤ s.get SVE_WEDGE_STAT.MISS_CNT p → s.normalService = true → Completes
    (.missingWedgeRemoval p) s fun t => p.val ∉ t.sve.active ∧ p.val ∈ t.wrc.offtrack ∧ (t.ctx p).trig = none ∧ ∀ w ∈ s.writersOfPath p, t.get
    WRC_WR_STAT.GATE w = 0) ∧
  (∀ (s : State) (p : Fin 16), p.val ∈ s.sve.active → max 1 (s.get SVE_SV_CFG.MISS_N 0) ≤ s.get SVE_WEDGE_STAT.MISS_CNT p → s.writersOfPath p = [] → Completes
    (.missingWedgeRemoval p) s fun t => ChangesOnly [.BMU_EVB_STAT, .BMU_STAT, .PCX_PROT_STAT, .WRC_RWL_CTL, .WRC_RWL_PTR, .WRC_WR_STAT, .WRC_WUS_STAT]
    [.bmu, .fcu, .out, .rdc, .sve, .wrc] true s t ∧ p.val ∉ t.sve.active ∧ p.val ∈ t.wrc.offtrack ∧ (t.ctx p).trig = none) ∧
  (∀ (s : State) (p : Fin 16), p.val ∈ s.sve.active → 8 ≤ s.get SVE_CTX_STAT.CLAMP_CNT p → s.get SVE_SEEK_STAT.STATE (p / 4) = skTracking → s.normalService =
    true → Completes (.microactuatorClampRemoval p) s fun t => ChangesOnly [.BMU_EVB_STAT, .BMU_STAT, .PCX_PROT_STAT, .WRC_RWL_CTL, .WRC_RWL_PTR,
    .WRC_WR_STAT, .WRC_WUS_STAT] [.bmu, .fcu, .out, .rdc, .sve, .wrc] true s t ∧ p.val ∉ t.sve.active ∧ p.val ∈ t.wrc.offtrack ∧ (t.ctx p).trig = none ∧ ∀
    w ∈ s.writersOfPath p, t.get WRC_WR_STAT.GATE w = 0) ∧
  (∀ (s : State) (a : Fin 4), s.loaded a = true → clampN 2 15 (s.get SVE_ACT_CFG.ACT_MISS a) ≤ Sparse.get 0 s.sve.actMiss a → s.normalService = true →
    Completes (.servoLoss a) s fun t => t.get SVE_ACT_STAT.SV_LOSS a = 1 ∧ t.get SVE_CTX_CFG.ENABLE (16 + a) = 0 ∧ t.get SVE_CTX_CFG.ENABLE (20 + a) = 0 ∧
    a.val ∈ t.sve.retract ∧ (∀ p ∈ pathsOf a, p ∈ t.wrc.offtrack) ∧ (∀ e ∈ t.sve.pass, e.1 = a.val → e.2.ending = true)) ∧
  (∀ (s : State) (a : Fin 4), s.loaded a = true → clampN 2 15 (s.get SVE_ACT_CFG.ACT_MISS a) ≤ Sparse.get 0 s.sve.actMiss a → s.quiet (216 + a) → Completes
    (.servoLoss a) s fun t => ChangesOnly [.ALM_STAT, .BMU_EVB_STAT, .BMU_STAT, .FCU_FEC_ADDR, .FCU_FEC_INFO, .FCU_FEC_TIME, .FCU_SRC_STAT, .PCX_PROT_STAT,
    .SVE_ACT_STAT, .SVE_CTX_CFG, .WRC_RWL_CTL, .WRC_RWL_PTR, .WRC_WR_STAT, .WRC_WUS_STAT] [.alm, .bmu, .fcu, .out, .sve, .wrc] true s t ∧ t.get
    SVE_ACT_STAT.SV_LOSS a = 1 ∧ t.get SVE_CTX_CFG.ENABLE (16 + a) = 0 ∧ t.get SVE_CTX_CFG.ENABLE (20 + a) = 0 ∧ a.val ∈ t.sve.retract ∧ (∀ p ∈ pathsOf a,
    p ∈ t.wrc.offtrack) ∧ (∀ e ∈ t.sve.pass, e.1 = a.val → e.2.ending = true) ∧ Counted (216 + a) (detail a) s t) ∧
  (∀ (s : State) (a : Fin 4), (s.sve.wedgeDone.any (fun q => q / 4 == a) = true) → Completes (.evFormation a) s fun t => (∀ q ∈ t.sve.wedgeDone, q / 4 ≠
    a.val) ∧ (∀ e ∈ t.sve.wedgeGot, e.1 / 4 ≠ a.val) ∧ (s.normalService = true → t.get SVE_ACT_STAT.N_PES a = (s.sve.wedgeGot.filter fun e => e.1 / 4 ==
    a.val).length % 2 ^ SVE_ACT_STAT.N_PES.width)) ∧
  (∀ (s : State) (a : Fin 4) (p : Nat), s.demodPaths a = [p] → (s.sve.wedgeDone.any (fun q => q / 4 == a) = true) → p ∉ s.sve.wedgeDone → p ∉ s.sve.active →
    s.seekSub a = skTracking → s.on SVE_CTX_CFG.ENABLE (16 + a) = false → s.rdc.pend = [] → s.rdc.npPend = [] → s.rdc.losing = [] → Completes (.evFormation
    a) s fun t => ChangesOnly [.SVE_WEDGE_STAT, .SVE_ACT_STAT, .SVE_NOTCH_STAT, .SVE_SEEK_STAT, .RDC_HP_STAT] [.sve, .rdc] false s t ∧ t.get
    SVE_WEDGE_STAT.VALID p = 0 ∧ t.get SVE_WEDGE_STAT.MISS_TOT p = satAdd (s.get SVE_WEDGE_STAT.MISS_TOT p) 1 (2 ^ SVE_WEDGE_STAT.MISS_TOT.width - 1)) ∧
  (∀ (s : State) (m : Master) (kind h band : Nat) (obs mb : Int) (l : List (Nat × Nat × Nat × Int × Int)), s.sve.log = (kind, h, band, obs, mb) :: l →
    l.length < 64 → Completes (.driftLogRead m) s fun t => ChangesOnly [.SVE_DRIFT_STAT] [.access, .out, .sve] false s t ∧ t.out = .data m.id (1 <<< 31 |||
    kind <<< 29 ||| (h % 32) <<< 24 ||| band % 65536) :: s.out ∧ t.sve.log = l ∧ t.get SVE_DRIFT_STAT.COUNT 0 = l.length ∧ (m.id, regAddr .SVE_DRIFT_LOG 0,
    ofSigned 12 mb <<< 12 ||| ofSigned 12 obs) ∈ t.access.hi) ∧
  (∀ (s : State) (m : Master), s.sve.log = [] → Completes (.driftLogRead m) s fun t => Unchanged [] [.access, .out] [] s t ∧ t.out = .data m.id 0 :: s.out ∧
    (m.id, regAddr .SVE_DRIFT_LOG 0, 0) ∈ t.access.hi)

/-- At a current tick a new set-point of an actuator without SP_RAMP is in force at once, late where the tick is not 0; a trigger puts its input before an
enabled context; an execution of a current context gives the output of the control law, consumes the trigger and goes to the power die; a commit sets its
bits, and at the unit's next moment a bank with ordered limits becomes active, one with inverted limits sets BANK_ERR; any write by a core to SERVICE makes
the watchdog SERVED with SINCE 0; from SERVED with the grace over the state is AUTONOMOUS; at the limit EXPIRED sets, the source is counted and every arm
unloads; a park that takes too long asks the power die for a retract. An execution starts with its output computed and is shown at its end; a trigger of a
unit that runs waits, with OVR where one waited; a commit waits for the unit to be idle. Clauses without a frame state their effects under the conditions
of normal execution alone, whatever else follows in the same step. -/
def Obligations.ControlLoops : Prop :=
  (∀ (s : State) (a : Fin 4) (m : Fin 8), Completes (.currentTick a m) s fun t => Unchanged [(.SVE_CTX_STAT, 16 + a.val), (.SVE_CTX_MAN, 20 + a.val)] [.sve,
    .out, .free] [] s t ∧ (∀ e ∈ t.sve.setPtNew, e.1 ≠ a.val) ∧ (s.get PTM_CW_STAT.LINK 0 = 2 → t.out.head? = some (.frame "CW" "VCM_TICK" (cwBytes 0x20 0
    [2 ^ a.val])))) ∧
  (∀ (s : State) (a : Fin 4) (m : Fin 8) (v : Int), s.sve.setPtNew = [(a.val, v)] → s.on SVE_ACT_CFG.SP_RAMP a = false → (s.seek a).ramp = false → Completes
    (.currentTick a m) s fun t => Unchanged [(.SVE_CTX_STAT, 16 + a.val)] [.sve, .out] [] s t ∧ Sparse.get 0 t.sve.setPt a = v ∧ t.sve.setPtNew = [] ∧
    t.get SVE_CTX_STAT.LATE (16 + a) = (if m.val = 0 then s.get SVE_CTX_STAT.LATE (16 + a) else 1)) ∧
  (∀ (s : State) (k : Fin 24) (e : BitVec 32), s.on SVE_CTX_CFG.ENABLE k = true → s.ctxMay k = true → (s.ctx k).trig = none → s.sve.running.find? (·.1 ==
    s.get SVE_CTX_CFG.CLU k) = none → s.sve.waiting = [] → s.get SVE_CLU_CTL.COMMIT (s.get SVE_CTX_CFG.CLU k) = 0 → Completes (.contextTrigger k e) s fun t
    => Unchanged [] [.sve] [] s t ∧ (∃ x ∈ t.sve.running, x.1 = s.get SVE_CTX_CFG.CLU k ∧ x.2.k = k.val ∧ x.2.e = e.toInt ∧ x.2.auto = s.on
    SVE_CTX_CFG.MODE k ∧ (16 ≤ k.val → x.2.res = execCtx (s.ctxBank k) e.toInt (s.ctxFf k) (s.sget SVE_CTX_MAN.MAN k) (toSigned 32 (s.get SVE_CTX_INTEG.I
    k)) (s.on SVE_CTX_CFG.MODE k) (s.on SVE_CTX_CFG.MODE k && !(s.ctx k).wasAuto) (s.ctx k).s1 (s.ctx k).s2 none)) ∧ (t.ctx k).trig = none) ∧
  (∀ (s : State) (k : Fin 24) (e : BitVec 32) (x : Nat × CtxRun), s.on SVE_CTX_CFG.ENABLE k = true → s.ctxMay k = true → s.sve.running.find? (·.1 == s.get
    SVE_CTX_CFG.CLU k) = some x → s.normalService = true → Completes (.contextTrigger k e) s fun t => (t.ctx k).trig = some e.toInt ∧ k.val ∈ t.sve.waiting
    ∧ t.sve.running = s.sve.running ∧ t.get SVE_CTX_STAT.OVR k = if (s.ctx k).trig.isSome then 1 else s.get SVE_CTX_STAT.OVR k) ∧
  (∀ (s : State) (k : Fin 24) (e : BitVec 32) (x : Int) (y : Nat × CtxRun), s.on SVE_CTX_CFG.ENABLE k = true → s.ctxMay k = true → (s.ctx k).trig = some x →
    s.sve.running.find? (·.1 == s.get SVE_CTX_CFG.CLU k) = some y → s.quiet 225 → Completes (.contextTrigger k e) s fun t => Unchanged (countRegs 225 ++
    [(.SVE_CTX_STAT, k.val), (.SVE_CLU_STAT, s.get SVE_CTX_CFG.CLU k)]) [.sve, .fcu] [] s t ∧ t.get SVE_CTX_STAT.OVR k = 1 ∧ t.get SVE_CLU_STAT.OVR (s.get
    SVE_CTX_CFG.CLU k) = satAdd (s.get SVE_CLU_STAT.OVR (s.get SVE_CTX_CFG.CLU k)) 1 (2 ^ SVE_CLU_STAT.OVR.width - 1) ∧ Counted 225 (detail k) s t ∧ t.ctx
    k = { s.ctx k with trig := some e.toInt }) ∧
  (∀ (s : State) (k : Fin 24) (el busy : BitVec 8) (u : Nat) (x : CtxRun), s.sve.running.find? (·.2.k == k.val) = some (u, x) → Completes
    (.contextExecutionEnd k el busy) s fun t => t.get SVE_CLU_STAT.EXEC_MAX u = max (s.get SVE_CLU_STAT.EXEC_MAX u) el.toNat ∧ t.get SVE_CLU_STAT.BUSY u =
    min 100 busy.toNat ∧ (∀ y ∈ t.sve.running, y.1 = u → y.2.k ∈ s.sve.waiting) ∧ (x.k = k.val → x.live = true → s.ctxMay k = true → t.get SVE_CTX_OUT.OUT
    k = ofSigned 16 x.res.out ∧ t.get SVE_CTX_STAT.MODE_ACT k = b2n x.auto)) ∧
  (∀ (s : State) (k : Fin 24) (el busy : BitVec 8) (u : Nat) (x : CtxRun), 20 ≤ k.val → s.sve.running.find? (·.2.k == k.val) = some (u, x) → x.k = k.val ∧
    x.live = true ∧ x.auto = true → s.get PTM_CW_STAT.LINK 0 = 2 → s.sve.waiting = [] → Completes (.contextExecutionEnd k el busy) s fun t => ChangesOnly
    [.SVE_CTX_MAN, .SVE_CTX_OUT, .SVE_CTX_INTEG, .SVE_CTX_STAT, .SVE_CLU_STAT] [.sve, .out] false s t ∧ t.get SVE_CTX_OUT.OUT k = ofSigned 16 x.res.out ∧
    t.get SVE_CTX_INTEG.I k = ofSigned 32 x.res.i ∧ t.get SVE_CTX_STAT.MODE_ACT k = 1 ∧ (t.ctx k).s1 = x.res.s1 ∧ (t.ctx k).s2 = x.res.s2 ∧ (∀ y ∈
    t.sve.running, y ∈ s.sve.running) ∧ t.out = .frame "CW" "VCM_CMD" (cwBytes 0x21 0 ((k - 20) :: beNats 2 (ofSigned 16 x.res.out))) :: s.out) ∧
  (∀ (s : State) (u : Fin 12) (mask : BitVec 4), Completes (.cluCommit .keeper u mask) s fun t => Unchanged [(.SVE_CLU_CTL, u.val)] [] [] s t ∧ t.get
    SVE_CLU_CTL.COMMIT u = s.get SVE_CLU_CTL.COMMIT u ||| mask.toNat) ∧
  (∀ (s : State) (u : Fin 12), s.sve.running.find? (·.1 == u.val) = none → Completes (.cluCommitApply u) s fun t => Unchanged [(.SVE_CLU_CTL, u.val)] [.sve]
    [] s t ∧ t.get SVE_CLU_CTL.COMMIT u = 0 ∧ t.get SVE_CLU_CTL.BANK_ERR u = (if (List.range 4).any (fun b => s.bitF SVE_CLU_CTL.COMMIT u b && (bankOf fun
    i => s.get SVE_COEF.W ((u.val * 4 + b) * 128 + i)).inverted) then 1 else s.get SVE_CLU_CTL.BANK_ERR u)) ∧
  (∀ (s : State) (u : Fin 12) (b : Fin 4), s.sve.running.find? (·.1 == u.val) = none → s.get SVE_CLU_CTL.COMMIT u = 2 ^ b.val → ((bankOf fun i => s.get
    SVE_COEF.W ((u.val * 4 + b) * 128 + i)).inverted = false) → (∀ i < 16, s.on SVE_NOTCH_CTL.EN i = false) → Completes (.cluCommitApply u) s fun t =>
    Unchanged [(.SVE_CLU_CTL, u.val)] [.sve] [] s t ∧ t.get SVE_CLU_CTL.COMMIT u = 0 ∧ (∀ i < 128, t.bankWord u b i = s.get SVE_COEF.W ((u.val * 4 + b) *
    128 + i)) ∧ t.get SVE_CLU_CTL.BANK_ERR u = s.get SVE_CLU_CTL.BANK_ERR u) ∧
  (∀ (s : State) (u : Fin 12) (b : Fin 4), s.sve.running.find? (·.1 == u.val) = none → s.get SVE_CLU_CTL.COMMIT u = 2 ^ b.val → ((bankOf fun i => s.get
    SVE_COEF.W ((u.val * 4 + b) * 128 + i)).inverted = true) → Completes (.cluCommitApply u) s fun t => Unchanged [(.SVE_CLU_CTL, u.val)] [] [] s t ∧ t.get
    SVE_CLU_CTL.COMMIT u = 0 ∧ t.get SVE_CLU_CTL.BANK_ERR u = 1 ∧ t.sve = s.sve) ∧
  (∀ (s : State) (m : Master), m.isCore = true → Completes (.serviceWrite m) s fun t => Unchanged [(.SVE_TRK_STAT, 0)] [] [] s t ∧ t.get SVE_TRK_STAT.SINCE 0
    = 0 ∧ t.get SVE_TRK_STAT.STATE 0 = (if s.get SVE_TRK_STAT.STATE 0 = trkAutonomous then trkServed else s.get SVE_TRK_STAT.STATE 0)) ∧
  (∀ (s : State), s.get SVE_TRK_STAT.STATE 0 = trkServed → s.grace ≤ s.get SVE_TRK_STAT.SINCE 0 → s.grace < s.trkLimit → Completes (.trackingGraceExpiry) s
    fun t => Unchanged [(.SVE_TRK_STAT, 0)] [] [] s t ∧ t.get SVE_TRK_STAT.STATE 0 = trkAutonomous ∧ t.get SVE_TRK_STAT.SINCE 0 = s.get SVE_TRK_STAT.SINCE
    0) ∧
  (∀ (s : State), s.get SVE_TRK_STAT.STATE 0 = trkAutonomous ∨ s.get SVE_TRK_STAT.STATE 0 = trkServed ∧ s.trkLimit ≤ s.grace → s.trkLimit ≤ s.get
    SVE_TRK_STAT.SINCE 0 → s.normalService = true → Completes (.trackingLimitExpiry) s fun t => t.get SVE_TRK_STAT.EXPIRED 0 = 1 ∧ (t.get
    SVE_TRK_STAT.STATE 0 = trkParking ∨ t.get SVE_TRK_STAT.STATE 0 = trkUnloaded) ∧ (∀ a < 4, s.loaded a = true → s.get SVE_SEEK_STAT.STATE a ≤ skLoading →
    t.get SVE_SEEK_STAT.STATE a = skUnloading)) ∧
  (∀ (s : State), s.get SVE_TRK_STAT.STATE 0 = trkAutonomous → s.trkLimit ≤ s.get SVE_TRK_STAT.SINCE 0 → s.quiet 226 → Completes (.trackingLimitExpiry) s fun
    t => ChangesOnly [.ALM_STAT, .BMU_EVB_STAT, .BMU_STAT, .FCU_FEC_ADDR, .FCU_FEC_INFO, .FCU_FEC_TIME, .FCU_SRC_STAT, .PCX_PROT_STAT, .SVE_CTX_CFG,
    .SVE_CTX_MAN, .SVE_CTX_STAT, .SVE_SEEK_STAT, .SVE_TRK_STAT] [.alm, .bmu, .fcu, .out, .rdc, .sve] true s t ∧ t.get SVE_TRK_STAT.EXPIRED 0 = 1 ∧ t.get
    SVE_TRK_STAT.STATE 0 = trkParking ∧ Counted 226 (detail 0) s t ∧ (∀ a < 4, s.loaded a = true → s.get SVE_SEEK_STAT.STATE a ≤ skLoading → t.get
    SVE_SEEK_STAT.STATE a = skUnloading)) ∧
  (∀ (s : State) (a : Fin 4), s.get SVE_SEEK_STAT.STATE a = skUnloading → a.val ∉ s.sve.retract → (s.seek a).since + 300 * tickMs ≤ s.ptm.ticks → Completes
    (.parkTimeout a) s fun t => Unchanged [(.SVE_TRK_STAT, 0)] [.sve, .out] [] s t ∧ t.bitF SVE_TRK_STAT.RETRACT 0 a = true ∧ a.val ∈ t.sve.retract ∧ t.out
    = .frame "CW" "RETRACT" (cwBytes 0x40 0 [2 ^ a.val]) :: s.out)

/-- A seek that R202 refuses changes nothing but ERR and DONE; one that it accepts clears ERR, SETTLED, DROP and WEDGES and holds the targets of its slots from
the map, and its state is MOVE, TRACK_IN or SETTLE by the distance to go. A load with the spindle at speed drives an unloaded arm off the ramp; otherwise
ERR is 9. A load that finds no servo unloads to try again, or fails with ERR 8 and its source counted. An unload makes the state UNLOADING and its passes
end. At the settle limit the slots that have not settled are dropped. Clauses without a frame state their effects under the conditions of normal execution
alone, whatever else follows in the same step. -/
def Obligations.Seeks : Prop :=
  (∀ (s : State) (a : Fin 4) (m : BitVec 4) (wr : Bool) (e : Nat), e = s.seekError a (s.seekTargets a m.toNat) → e ≠ 0 → e ≠ 5 → Completes (.seekGo a m wr) s
    fun t => Unchanged [(.SVE_SEEK_CMD, a.val), (.SVE_SEEK_STAT, a.val)] [] [] s t ∧ t.get SVE_SEEK_STAT.ERR a = e ∧ t.get SVE_SEEK_STAT.DONE a = 1 ∧ t.get
    SVE_SEEK_STAT.STATE a = s.get SVE_SEEK_STAT.STATE a ∧ t.sve = s.sve) ∧
  (∀ (s : State) (a : Fin 4) (m : BitVec 4) (wr : Bool), s.seekError a (s.seekTargets a m.toNat) = 5 → s.seekMapErr a (s.seekTargets a m.toNat) = false →
    Completes (.seekGo a m wr) s fun t => Unchanged [(.SVE_SEEK_CMD, a.val), (.SVE_SEEK_STAT, a.val)] [] [] s t ∧ t.get SVE_SEEK_STAT.ERR a = 5 ∧ t.get
    SVE_SEEK_STAT.DONE a = 1 ∧ t.sve = s.sve) ∧
  (∀ (s : State) (a : Fin 4) (m : BitVec 4) (wr : Bool), s.seekError a (s.seekTargets a m.toNat) = 5 → s.normalService = true → Completes (.seekGo a m wr) s
    fun t => t.get SVE_SEEK_STAT.ERR a = 5 ∧ t.get SVE_SEEK_STAT.DONE a = 1 ∧ t.get SVE_SEEK_STAT.STATE a = s.get SVE_SEEK_STAT.STATE a ∧ (s.seekMapErr a
    (s.seekTargets a m.toNat) = true → Out.event "MAP_ERR" [a.val] ∈ t.out)) ∧
  (∀ (s : State) (a : Fin 4) (m : BitVec 4) (wr : Bool), s.seekError a (s.seekTargets a m.toNat) = 0 → Completes (.seekGo a m wr) s fun t => t.get
    SVE_SEEK_STAT.SETTLED a = 0 ∧ t.get SVE_SEEK_STAT.WEDGES a = 0 ∧ (∀ e ∈ s.seekTargets a m.toNat, t.tgt e.1 = s.pathTarget e.1 ((s.headOf e.1).getD 0)
    e.2.toNat) ∧ (t.seek a).slots = m.toNat ∧ (t.seek a).wr = wr ∧ t.get SVE_SEEK_STAT.STATE a ≤ skSettle) ∧
  (∀ (s : State) (a : Fin 4) (m : BitVec 4) (wr : Bool), s.seekError a (s.seekTargets a m.toNat) = 0 → (s.seek a).unloading = false → (s.seek a).yRef = 0 → m
    ≠ 0 → (∀ p ∈ pathsOf a, p ∉ s.sve.active) → Completes (.seekGo a m wr) s fun t => ChangesOnly [.SVE_SEEK_STAT, .SVE_CTX_CFG, .SVE_CTX_MAN,
    .SVE_SEEK_CMD] [.sve] false s t ∧ t.get SVE_SEEK_STAT.ERR a = 0 ∧ t.get SVE_SEEK_STAT.SETTLED a = 0 ∧ t.get SVE_SEEK_STAT.DROP a = 0 ∧ t.get
    SVE_SEEK_STAT.WEDGES a = 0 ∧ (∀ e ∈ s.seekTargets a m.toNat, t.tgt e.1 = s.pathTarget e.1 ((s.headOf e.1).getD 0) e.2.toNat) ∧ (t.seek a).slots =
    m.toNat ∧ (t.seek a).wr = wr ∧ t.get SVE_SEEK_STAT.STATE a = (if (s.hoTrk a) < (t.seek a).yT then skMove else if (t.seek a).yT = 0 then skSettle else
    skTrackIn)) ∧
  (∀ (s : State) (a : Fin 4), s.get SVE_SEEK_STAT.STATE a = skUnloaded → s.on SPN_STAT.AT_SPEED 0 = true → Completes (.load a) s fun t => Unchanged
    [(.SVE_SEEK_STAT, a.val), (.SVE_CTX_CFG, 20 + a.val), (.SVE_CTX_MAN, 20 + a.val)] [.sve] [] s t ∧ t.get SVE_SEEK_STAT.STATE a = skLoading ∧ (t.seek
    a).since = s.ptm.ticks ∧ t.get SVE_SEEK_STAT.ERR a = 0 ∧ t.get SVE_CTX_CFG.ENABLE (20 + a) = 1 ∧ t.get SVE_CTX_CFG.MODE (20 + a) = 0 ∧ t.get
    SVE_CTX_MAN.MAN (20 + a) = ofSigned 16 s.loadMan ∧ (t.seek a).tries = 0) ∧
  (∀ (s : State) (a : Fin 4), s.get SVE_SEEK_STAT.STATE a ≠ skUnloaded ∨ s.on SPN_STAT.AT_SPEED 0 = false → Completes (.load a) s fun t => Unchanged
    [(.SVE_SEEK_STAT, a.val)] [] [] s t ∧ t.get SVE_SEEK_STAT.ERR a = 9 ∧ t.get SVE_SEEK_STAT.DONE a = 1) ∧
  (∀ (s : State) (a : Fin 4), s.get SVE_SEEK_STAT.STATE a = skLoading → (s.seek a).tries < s.get SVE_RAMP_CFG.LD_RETRY 0 → (s.seek a).since + max 1 (s.get
    SVE_RAMP_CFG.LD_TMO 0) * tickMs ≤ s.ptm.ticks → Completes (.loadTimeout a) s fun t => ChangesOnly [.BMU_EVB_STAT, .BMU_STAT, .PCX_PROT_STAT,
    .SVE_CTX_CFG, .SVE_CTX_MAN, .SVE_CTX_STAT, .SVE_SEEK_STAT] [.bmu, .fcu, .out, .rdc, .sve] true s t ∧ t.get SVE_SEEK_STAT.STATE a = skUnloading ∧
    (t.seek a).tries = (s.seek a).tries + 1 ∧ (t.seek a).reload = true ∧ (t.seek a).ramp = true) ∧
  (∀ (s : State) (a : Fin 4), s.get SVE_SEEK_STAT.STATE a = skLoading → s.get SVE_RAMP_CFG.LD_RETRY 0 ≤ (s.seek a).tries → s.quiet (220 + a) → (s.seek
    a).since + max 1 (s.get SVE_RAMP_CFG.LD_TMO 0) * tickMs ≤ s.ptm.ticks → Completes (.loadTimeout a) s fun t => ChangesOnly [.ALM_STAT, .BMU_EVB_STAT,
    .BMU_STAT, .FCU_FEC_ADDR, .FCU_FEC_INFO, .FCU_FEC_TIME, .FCU_SRC_STAT, .PCX_PROT_STAT, .SVE_CTX_CFG, .SVE_CTX_MAN, .SVE_CTX_STAT, .SVE_SEEK_STAT]
    [.alm, .bmu, .fcu, .out, .rdc, .sve] true s t ∧ t.get SVE_SEEK_STAT.STATE a = skUnloading ∧ t.get SVE_SEEK_STAT.ERR a = 8 ∧ (t.seek a).ramp = true ∧
    (t.seek a).reload = false ∧ Counted (220 + a) (detail a) s t) ∧
  (∀ (s : State) (a : Fin 4), s.loaded a = true → s.get SVE_SEEK_STAT.STATE a < skUnloading → Completes (.unload a) s fun t => ChangesOnly [.BMU_EVB_STAT,
    .BMU_STAT, .PCX_PROT_STAT, .SVE_CTX_CFG, .SVE_CTX_MAN, .SVE_CTX_STAT, .SVE_SEEK_STAT] [.bmu, .fcu, .out, .rdc, .sve] true s t ∧ t.get
    SVE_SEEK_STAT.STATE a = skUnloading ∧ (t.seek a).since = s.ptm.ticks ∧ t.get SVE_SEEK_STAT.ERR a = 0 ∧ (t.seek a).unloading = true ∧ (∀ e ∈ t.sve.pass,
    e.1 = a.val → e.2.ending = true)) ∧
  (∀ (s : State) (a : Fin 4) (p : Nat), s.seekSub a = skSettle → max 1 (s.get SVE_SETTLE_CFG.SET_TMO 0) ≤ (s.seek a).settleWedges → p ∈ pathsOf a → nbit
    (s.seek a).slots (p % 4) = true → s.bitF SVE_SEEK_STAT.SETTLED a (p % 4) = false → Completes (.settleTimeout a) s fun t => ChangesOnly [.SVE_CTX_CFG,
    .SVE_SEEK_STAT] [.out, .rdc, .sve] false s t ∧ t.bitF SVE_SEEK_STAT.DROP a (p % 4) = true ∧ p ∉ t.sve.active ∧ ((s.seek a).unloading = false → (s.seek
    a).slots < 16 → t.get SVE_SEEK_STAT.STATE a = skTracking ∧ t.get SVE_SEEK_STAT.DONE a = 1))

/-- A vibration conversion gives each enabled actuator a feedforward within VFF_MAX; a shock above its threshold on an enabled input sets SHOCK, its level and
input, counts, and closes every gate; the end of a shock clears SHOCK and its write-unsafe source; a frame pulse with the Archipelago off and no step
waiting shows the speed and the own vibration level, and starts a budget frame; a valid slot map is taken and copied, an invalid one only raises source
227; a legal change of a head state is taken, an illegal one only raises source 227. A shock while one lasts only raises PEAK; a frame pulse is counted
whatever the member does. Clauses without a frame state their effects under the conditions of normal execution alone, whatever else follows in the same
step. -/
def Obligations.VibrationAndShock : Prop :=
  (∀ (s : State) (v0 v1 v2 v3 v4 v5 : BitVec 16) (a : Fin 4), s.on SVE_VFF_CTL.EN a = true → Completes (.vibConversion v0 v1 v2 v3 v4 v5) s fun t => Unchanged
    [] [.sve, .spl] [] s t ∧ t.spl.vibN = s.spl.vibN + 1 ∧ (Sparse.get {} t.sve.vff a).out.natAbs ≤ s.get SVE_VFF_CTL.VFF_MAX a ∧ t.sve.seek = s.sve.seek ∧
    t.sve.active = s.sve.active) ∧
  (∀ (s : State) (src : Fin 4) (peak : BitVec 8), s.bitF SVE_SHK_CFG.SHK_EN 0 src = true → s.get SVE_SHK_CFG.SHK_THR 0 ≤ peak.toNat → s.wrc.shock = false →
    s.normalService = true → Completes (.shockEventStart src peak) s fun t => t.get SVE_SHK_STAT.SHOCK 0 = 1 ∧ t.get SVE_SHK_STAT.PEAK 0 = peak.toNat ∧
    t.get SVE_SHK_STAT.LAST_SRC 0 = src ∧ t.wrc.shock = true ∧ (∀ w < 8, t.get WRC_WR_STAT.GATE w = 0) ∧ t.sve.shkSeen = s.ptm.ticks) ∧
  (∀ (s : State) (src : Fin 4) (peak : BitVec 8), s.bitF SVE_SHK_CFG.SHK_EN 0 src = true → s.get SVE_SHK_CFG.SHK_THR 0 ≤ peak.toNat → s.wrc.shock = true →
    Completes (.shockEventStart src peak) s fun t => Unchanged [(.SVE_SHK_STAT, 0)] [.sve, .spl, .out] [] s t ∧ t.get SVE_SHK_STAT.PEAK 0 = max peak.toNat
    (s.get SVE_SHK_STAT.PEAK 0) ∧ t.sve.shkSeen = s.ptm.ticks ∧ t.get SVE_SHK_STAT.SHK_CNT 0 = s.get SVE_SHK_STAT.SHK_CNT 0) ∧
  (∀ (s : State) (src : Fin 4) (peak : BitVec 8), s.bitF SVE_SHK_CFG.SHK_EN 0 src = true → s.get SVE_SHK_CFG.SHK_THR 0 ≤ peak.toNat → s.wrc.shock = false →
    s.svc.calClass ≠ 1 → s.svc.calItem ≠ 7 → Completes (.shockEventStart src peak) s fun t => ChangesOnly [.BMU_EVB_STAT, .BMU_STAT, .PCX_PROT_STAT,
    .SVE_SHK_STAT, .WRC_RWL_CTL, .WRC_RWL_PTR, .WRC_WR_STAT, .WRC_WUS_STAT] [.bmu, .fcu, .out, .spl, .sve, .wrc] true s t ∧ t.get SVE_SHK_STAT.SHOCK 0 = 1
    ∧ t.get SVE_SHK_STAT.PEAK 0 = peak.toNat ∧ t.get SVE_SHK_STAT.LAST_SRC 0 = src ∧ t.get SVE_SHK_STAT.SHK_CNT 0 = satAdd (s.get SVE_SHK_STAT.SHK_CNT 0) 1
    (2 ^ SVE_SHK_STAT.SHK_CNT.width - 1) ∧ t.wrc.shock = true ∧ (∀ w < 8, t.get WRC_WR_STAT.GATE w = 0)) ∧
  (∀ (s : State) (src : Fin 4) (peak : BitVec 8), s.bitF SVE_SHK_CFG.SHK_EN 0 src = false ∨ peak.toNat < s.get SVE_SHK_CFG.SHK_THR 0 → Completes
    (.shockEventStart src peak) s fun t => Unchanged [] [] [] s t ∧ t.wrc = s.wrc) ∧
  (∀ (s : State), s.wrc.shock = true → s.sve.shkSeen + 800 * s.get SVE_SHK_CFG.SHK_HOLD 0 ≤ s.ptm.ticks → s.alm.staged.length < stagingSize → Completes
    (.shockEventEnd) s fun t => ChangesOnly [.ALM_STAT, .BMU_EVB_STAT, .BMU_STAT, .PCX_PROT_STAT, .SVE_SHK_STAT, .WRC_RWL_CTL, .WRC_RWL_PTR, .WRC_WR_STAT,
    .WRC_WUS_STAT] [.alm, .bmu, .fcu, .out, .sve, .wrc] true s t ∧ t.get SVE_SHK_STAT.SHOCK 0 = 0 ∧ t.wrc.shock = false ∧ t.sve.fwReported = false ∧
    t.alm.staged.length = s.alm.staged.length + 1) ∧
  (∀ (s : State), s.wrc.shock = true → s.sve.shkSeen + 800 * s.get SVE_SHK_CFG.SHK_HOLD 0 ≤ s.ptm.ticks → Completes (.shockEventEnd) s fun t => t.get
    SVE_SHK_STAT.SHOCK 0 = 0 ∧ t.wrc.shock = false) ∧
  (∀ (s : State) (v : BitVec 34) (len : BitVec 16) (th : BitVec 32), s.on SPL_CFG.EN 0 = false → s.splState = mbOff → s.spl.leaveFrames = 0 → s.spl.stepPend =
    none → s.spl.adopt = none → Completes (.framePulse v len th) s fun t => ChangesOnly [.ALM_STAT, .BMU_EVB_STAT, .BMU_STAT, .PCX_PROT_STAT,
    .PTM_MER_TIME, .SPL_MEMBERS, .SPL_MER_STAT, .SPL_RLY_CTL, .SPL_SIDE_STAT, .SPL_STAT, .SPL_VIB, .SPN_CTX_MAN, .SPN_CTX_OUT, .SPN_CTX_INTEG,
    .SPN_CTX_STAT, .SPN_ORR_STAT, .SPN_STAT, .SVE_SHK_STAT, .WRC_RWL_CTL, .WRC_RWL_PTR, .WRC_WR_STAT, .WRC_WUS_STAT] [.alm, .bmu, .cqe, .fcu, .free, .out,
    .spl, .spn, .sve, .wrc] true s t ∧ t.get SPN_STAT.SPEED 0 = s.speedOf v.toNat len.toNat ∧ t.get SPL_VIB.OWN 0 = s.ownLevel ∧ t.get SPL_VIB.NBR 0 = 0 ∧
    t.spl.frames = s.spl.frames + 1 ∧ t.cqe.lastFrame = s.cqe.destaged ∧ t.cqe.destaged = 0 ∧ t.get SPL_RLY_CTL.TX_BUSY 0 = 0 ∧ (s.on SVE_VG_CFG.EN 0 =
    false → t.get SVE_SHK_STAT.GUARD 0 = 0)) ∧
  (∀ (s : State) (v : BitVec 34) (len : BitVec 16) (th : BitVec 32), s.normalService = true → Completes (.framePulse v len th) s fun t => t.spl.frames =
    s.spl.frames + 1 ∧ t.cqe.lastFrame = s.cqe.destaged ∧ t.cqe.destaged = 0 ∧ t.get SPL_RLY_CTL.TX_BUSY 0 = 0) ∧
  (∀ (s : State) (a : Fin 4) (v : Word), slotMapValid v.toNat = true → Completes (.slotMapWrite .keeper a v) s fun t => Unchanged ([(.SVE_SLOT_MAP, a.val)] ++
    (pathsOf a).flatMap fun p => [(.RDC_LANE_STAT, 2 * p), (.RDC_LANE_STAT, 2 * p + 1), (.RDC_HP_STAT, p)]) [.kpr, .rdc] [] s t ∧ t.slotMap a = v.toNat % 2
    ^ 20 ∧ t.deviceValue .SVE_SLOT_MAP a = some (v.toNat % 2 ^ 20)) ∧
  (∀ (s : State) (a : Fin 4) (v : Word), slotMapValid v.toNat = false → s.quiet 227 → Completes (.slotMapWrite .keeper a v) s fun t => Unchanged (countRegs
    227) [.fcu] [] s t ∧ Counted 227 (accessCap .keeper 1 2 (regAddr .SVE_SLOT_MAP a)) s t) ∧
  (∀ (s : State) (h : Fin 24) (v : Word), v.toNat % 8 = s.headState h → v.toNat % 8 ≤ 5 → Completes (.headStateWrite .keeper h v) s fun t => Unchanged
    [(.SVE_HEAD_STATE, h.val)] [.kpr] [] s t ∧ t.headState h = s.headState h ∧ t.get SVE_HEAD_STATE.WRT_BAD h = nbits v.toNat 6 6 ∧ t.get
    SVE_HEAD_STATE.RDR1_BAD h = nbits v.toNat 5 5 ∧ t.get SVE_HEAD_STATE.RDR0_BAD h = nbits v.toNat 4 4 ∧ t.deviceValue .SVE_HEAD_STATE h = some (t.reg
    .SVE_HEAD_STATE h).toNat) ∧
  (∀ (s : State) (h : Fin 24) (v : Word), headLegal (s.mode == mService) (s.headState h) (v.toNat % 8) = true → v.toNat % 8 ≤ 5 → s.normalService = true ∨
    v.toNat % 8 ≠ hDegraded ∧ v.toNat % 8 ≠ hFailed → Completes (.headStateWrite .keeper h v) s fun t => t.headState h = v.toNat % 8) ∧
  (∀ (s : State) (h : Fin 24) (v : Word), s.headState h = hFailed → v.toNat % 8 = hRetired → Completes (.headStateWrite .keeper h v) s fun t => Unchanged
    [(.SVE_HEAD_STATE, h.val)] [.kpr] [] s t ∧ t.headState h = hRetired ∧ t.deviceValue .SVE_HEAD_STATE h = some (t.reg .SVE_HEAD_STATE h).toNat) ∧
  (∀ (s : State) (h : Fin 24) (v : Word), s.headState h ≠ hAbsent → 5 < v.toNat % 8 ∨ (v.toNat % 8 ≠ s.headState h ∧ headLegal false (s.headState h) (v.toNat
    % 8) = false) → s.quiet 227 → Completes (.headStateWrite .keeper h v) s fun t => Unchanged (countRegs 227) [.fcu] [] s t ∧ Counted 227 (accessCap
    .keeper 1 2 (regAddr .SVE_HEAD_STATE h)) s t)

/-- START from OFF at rest begins sensing, a turning spindle is caught at HO_RPM or above and braked below it, and a START while braking goes back to ACCEL;
STOP from ACCEL, RUN or SPEED CHANGE brakes, from the start-up states shorts the windings. A sensing pulse is recorded; the twelfth gives the angle and
RAMP, or with no valid set begins another, and after three of them alignment, whose end begins RAMP at 0. A ramp that is not handed over, and a catch
without lock, short the windings with the start pending; the end of a short begins the next attempt, or fails, or is OFF. Clauses without a frame state
their effects under the conditions of normal execution alone, whatever else follows in the same step. -/
def Obligations.SpindleStart : Prop :=
  (∀ (s : State), s.spn? = spOff → s.get SPN_MOTOR.POLES 0 ≠ 0 → s.spn.rotor = 0 → Completes (.spnStart .keeper) s fun t => Unchanged [(.SPN_STAT, 0)] [.spn,
    .out] [] s t ∧ t.spn? = spSense ∧ t.spn.attempts = 1 ∧ t.spn.peaks = [] ∧ t.spn.badSets = 0 ∧ t.spn.aligning = false) ∧
  (∀ (s : State), s.spn? = spOff → s.get SPN_MOTOR.POLES 0 = 0 → Completes (.spnStart .keeper) s fun t => Unchanged [(.SPN_STAT, 0)] [.spn] [] s t ∧ t.get
    SPN_STAT.SU_FAIL 0 = 1 ∧ t.spn? = spOff) ∧
  (∀ (s : State), s.spn? = spOff → s.get SPN_MOTOR.POLES 0 ≠ 0 → 256 * s.hoRpm ≤ s.spn.rotor → Completes (.spnStart .keeper) s fun t => Unchanged [(.SPN_STAT,
    0)] [.spn, .out] [] s t ∧ t.spn? = spCatch ∧ t.out = .frame "PD" "SPN_OFF" [] :: s.out) ∧
  (∀ (s : State), s.spn? = spOff → s.get SPN_MOTOR.POLES 0 ≠ 0 → 0 < s.spn.rotor → s.spn.rotor < 256 * s.hoRpm → Completes (.spnStart .keeper) s fun t =>
    Unchanged [(.SPN_STAT, 0)] [.spn, .out] [] s t ∧ t.spn? = spShort ∧ t.out = .frame "PD" "SPN_SHORT" [] :: s.out ∧ t.spn.startPend = true) ∧
  (∀ (s : State), s.spn? = spBrake → Completes (.spnStart .keeper) s fun t => Unchanged [(.SPN_STAT, 0)] [.spn] [] s t ∧ t.spn? = spAccel ∧ t.spn.setPt =
    25600 * s.get SPN_CTL.SPD_SET 0) ∧
  (∀ (s : State), s.spn? = spShort → Completes (.spnStart .keeper) s fun t => Unchanged [] [.spn] [] s t ∧ t.spn = { s.spn with startPend := true }) ∧
  (∀ (s : State), s.spn? = spAccel ∨ s.spn? = spRun ∨ s.spn? = spChange → Completes (.spnStop .keeper) s fun t => t.spn? = spBrake ∧ t.spn.setPt = 0) ∧
  (∀ (s : State), s.spn? = spAccel ∨ s.spn? = spRun ∨ s.spn? = spChange → Completes (.spnStop .keeper) s fun t => ChangesOnly [.SPN_STAT, .SPN_ORR_STAT,
    .WRC_WR_STAT, .WRC_WUS_STAT, .WRC_RWL_PTR, .WRC_RWL_CTL] [.spn, .wrc, .bmu, .out] true s t ∧ t.spn? = spBrake ∧ t.spn.setPt = 0 ∧ (s.spn? = spRun →
    t.get SPN_STAT.AT_SPEED 0 = 0 ∧ ∀ w < 8, t.get WRC_WR_STAT.GATE w = 0)) ∧
  (∀ (s : State), s.spn? = spSense ∨ s.spn? = spRamp ∨ s.spn? = spCatch ∨ s.spn? = spShort → Completes (.spnStop .keeper) s fun t => Unchanged [(.SPN_STAT,
    0)] [.spn, .out] [] s t ∧ t.spn? = spShort ∧ t.out = .frame "PD" "SPN_SHORT" [] :: s.out ∧ t.spn.startPend = false) ∧
  (∀ (s : State) (pk : BitVec 16), s.spn? = spSense → s.spn.aligning = false → s.spn.peaks.length < 11 → Completes (.sensePulseDone pk) s fun t => Unchanged
    [] [.spn, .out] [] s t ∧ t.spn = { s.spn with peaks := s.spn.peaks ++ [pk.toNat] } ∧ t.out = .event "sensing pulse" [30 * (s.spn.peaks.length + 1),
    s.get SPN_SU_CFG.VPULSE 0, max 1 (s.get SPN_SU_CFG.TPULSE 0)] :: s.out) ∧
  (∀ (s : State) (pk : BitVec 16) (b : Nat × Int), s.spn? = spSense → s.spn.aligning = false → s.spn.peaks.length = 11 → b = senseBest (s.spn.peaks ++
    [pk.toNat]) → 2 * ((s.spn.peaks ++ [pk.toNat]).sum : Int) ≤ 1200 * b.2 → Completes (.sensePulseDone pk) s fun t => Unchanged [(.SPN_STAT, 0),
    (.SPN_CTX_CFG, 0), (.SPN_CTX_CFG, 1), (.SPN_CTX_CFG, 2)] [.spn] [] s t ∧ t.spn? = spRamp ∧ t.spn.angle = (30 * b.1 + 90) % 360 * (olTurn / 360) ∧
    t.spn.olSpeed = 0 ∧ t.get SPN_CTX_CFG.MODE 0 = 1 ∧ t.get SPN_CTX_CFG.MODE 1 = 1 ∧ t.get SPN_CTX_CFG.MODE 2 = 0) ∧
  (∀ (s : State) (pk : BitVec 16), s.spn? = spSense → s.spn.aligning = false → s.spn.peaks.length = 11 → 1200 * (senseBest (s.spn.peaks ++ [pk.toNat])).2 < 2
    * ((s.spn.peaks ++ [pk.toNat]).sum : Int) → Completes (.sensePulseDone pk) s fun t => Unchanged [] [.spn, .out] [] s t ∧ t.spn = { s.spn with peaks := [], badSets := s.spn.badSets + 1, aligning := decide (3 ≤ s.spn.badSets + 1), since := s.ptm.ticks }) ∧
  (∀ (s : State), s.spn? = spSense → s.spn.aligning = true → s.spn.since + 200 * tickMs ≤ s.ptm.ticks → Completes (.alignEnd) s fun t => Unchanged
    [(.SPN_STAT, 0), (.SPN_CTX_CFG, 0), (.SPN_CTX_CFG, 1), (.SPN_CTX_CFG, 2)] [.spn] [] s t ∧ t.spn? = spRamp ∧ t.spn.angle = 90 * (olTurn / 360) ∧
    t.spn.olSpeed = 0 ∧ t.spn.aligning = false) ∧
  (∀ (s : State), s.spn? = spRamp → 100 ≤ s.spn.hoPeriods → Completes (.rampTimeout) s fun t => Unchanged [(.SPN_STAT, 0)] [.spn, .out] [] s t ∧ t.spn? =
    spShort ∧ t.spn.startPend = true ∧ t.out = .frame "PD" "SPN_SHORT" [] :: s.out) ∧
  (∀ (s : State), s.spn? = spCatch → s.spn.since + 200 * tickMs ≤ s.ptm.ticks → Completes (.catchTimeout) s fun t => Unchanged [(.SPN_STAT, 0)] [.spn, .out]
    [] s t ∧ t.spn? = spShort ∧ t.spn.startPend = true ∧ t.out = .frame "PD" "SPN_SHORT" [] :: s.out) ∧
  (∀ (s : State), s.spn? = spShort → s.spn.startPend = false → Completes (.shortEnd) s fun t => Unchanged [(.SPN_STAT, 0)] [.spn] [] s t ∧ t.spn? = spOff ∧
    t.get SPN_STAT.INDEX_VALID 0 = 0 ∧ t.spn.rotor = 0) ∧
  (∀ (s : State), s.spn? = spShort → s.spn.startPend = true → s.spn.attempts < s.suTry → Completes (.shortEnd) s fun t => Unchanged [(.SPN_STAT, 0)] [.spn,
    .out] [] s t ∧ t.spn? = spSense ∧ t.spn.attempts = s.spn.attempts + 1) ∧
  (∀ (s : State), s.spn? = spShort → s.spn.startPend = true → s.suTry ≤ s.spn.attempts → s.normalService = true → Completes (.shortEnd) s fun t => t.spn? =
    spOff ∧ t.get SPN_STAT.SU_FAIL 0 = 1 ∧ t.spn.startPend = false) ∧
  (∀ (s : State), s.spn? = spShort → s.spn.startPend = true → s.suTry ≤ s.spn.attempts → s.quiet 249 → Completes (.shortEnd) s fun t => ChangesOnly
    [.ALM_STAT, .BMU_EVB_STAT, .BMU_STAT, .FCU_FEC_ADDR, .FCU_FEC_INFO, .FCU_FEC_TIME, .FCU_SRC_STAT, .PCX_PROT_STAT, .SPN_ORR_STAT, .SPN_STAT,
    .WRC_RWL_CTL, .WRC_RWL_PTR, .WRC_WR_STAT, .WRC_WUS_STAT] [.alm, .bmu, .fcu, .out, .spn, .wrc] true s t ∧ t.spn? = spOff ∧ t.get SPN_STAT.SU_FAIL 0 = 1
    ∧ Counted 249 (detail 0) s t ∧ t.spn.startPend = false)

/-- A control period while CATCH has no lock yet counts nothing, below HO_RPM it gives the catch up; a period in OFF only takes the speed. A loss of observer
lock while the loop runs switches the drive off, is counted, and catches the spindle. SPD_SET is clamped to 5,400 to 10,000 rpm: in OFF it is in force at
once, in RUN with a loaded actuator it waits, with none it ramps. A commit copies each named shadow bank whose limits are ordered, else it sets BANK_ERR. A
control period takes the speed; in BRAKE at or below HO_RPM it shorts the windings, in RAMP it advances the angle; 48 periods of loss with a speed that
still carries are an observer loss. Clauses without a frame state their effects under the conditions of normal execution alone, whatever else follows in
the same step. -/
def Obligations.SpindleControl : Prop :=
  (∀ (s : State) (th : BitVec 16) (n : BitVec 22) (eu ev ew er : BitVec 16), s.get PTM_CW_STAT.LINK 0 = 2 → s.spn? = spCatch → 256 * s.hoRpm ≤ n.toNat →
    Completes (.focPeriod th n eu ev ew er false) s fun t => Unchanged [] [.spn] [] s t ∧ t.spn = { s.spn with rotor := n.toNat, lastTheta := th.toNat, catchPeriods := 0, spoiled := true }) ∧
  (∀ (s : State) (th : BitVec 16) (n : BitVec 22) (eu ev ew er : BitVec 16) (l : Bool), s.get PTM_CW_STAT.LINK 0 = 2 → s.spn? = spCatch → 256 * s.hoRpm ≤
    n.toNat → Completes (.focPeriod th n eu ev ew er l) s fun t => t.spn.rotor = n.toNat ∧ t.spn? = (if s.hoN ≤ (goodPeriods l (decide (th.toNat <
    s.spn.lastTheta)) s.spn.spoiled s.spn.catchPeriods).1 then spAccel else spCatch)) ∧
  (∀ (s : State) (th : BitVec 16) (n : BitVec 22) (eu ev ew er : BitVec 16) (l : Bool), s.get PTM_CW_STAT.LINK 0 = 2 → s.spn? = spCatch → n.toNat < 256 *
    s.hoRpm → Completes (.focPeriod th n eu ev ew er l) s fun t => Unchanged [(.SPN_STAT, 0)] [.spn, .out] [] s t ∧ t.spn? = spShort ∧ t.spn.rotor =
    n.toNat ∧ t.spn.startPend = true ∧ t.out = .frame "PD" "SPN_SHORT" [] :: s.out) ∧
  (∀ (s : State) (th : BitVec 16) (n : BitVec 22) (eu ev ew er : BitVec 16) (l : Bool), s.get PTM_CW_STAT.LINK 0 = 2 → s.spn? = spOff ∨ s.spn? = spSense ∨
    s.spn? = spShort → Completes (.focPeriod th n eu ev ew er l) s fun t => Unchanged [] [.spn] [] s t ∧ t.spn = { s.spn with rotor := n.toNat, lastTheta := th.toNat }) ∧
  (∀ (s : State) (th : BitVec 16) (n : BitVec 22) (eu ev ew er : BitVec 16) (l : Bool), s.get PTM_CW_STAT.LINK 0 = 2 → s.spn? = spRun → s.emfLow n.toNat
    eu.toInt ev.toInt ew.toInt = false ∧ phaseOff er = false → Completes (.focPeriod th n eu ev ew er l) s fun t => ChangesOnly [.SPN_CTX_MAN,
    .SPN_CTX_OUT, .SPN_CTX_INTEG, .SPN_CTX_STAT] [.spn, .out] false s t ∧ t.spn? = spRun ∧ t.spn.rotor = n.toNat ∧ t.spn.lossPeriods = 0 ∧ t.spn.lossPhase
    = 0 ∧ t.out.length = s.out.length + 1) ∧
  (∀ (s : State) (th : BitVec 16) (n : BitVec 22) (eu ev ew er : BitVec 16) (l : Bool), s.get PTM_CW_STAT.LINK 0 = 2 → s.spn? = spAccel ∨ s.spn? = spRun ∨
    s.spn? = spChange → 47 ≤ s.spn.lossPeriods → s.emfLow n.toNat eu.toInt ev.toInt ew.toInt = true ∧ 256 * s.hoRpm ≤ n.toNat → s.normalService = true →
    Completes (.focPeriod th n eu ev ew er l) s fun t => t.spn? = spCatch ∧ t.get SPN_STAT.OBS_LOSS 0 = 1 ∧ t.spn.rotor = n.toNat) ∧
  (∀ (s : State) (th : BitVec 16) (n : BitVec 22) (eu ev ew er : BitVec 16) (l : Bool), s.get PTM_CW_STAT.LINK 0 = 2 → s.spn? = spBrake → s.emfLow n.toNat
    eu.toInt ev.toInt ew.toInt = false ∧ phaseOff er = false → Completes (.focPeriod th n eu ev ew er l) s fun t => t.spn? = (if n.toNat ≤ 256 * s.hoRpm
    then spShort else spBrake) ∧ t.spn.rotor = n.toNat) ∧
  (∀ (s : State) (th : BitVec 16) (n : BitVec 22) (eu ev ew er : BitVec 16) (l : Bool), s.get PTM_CW_STAT.LINK 0 = 2 → s.spn? = spRamp → Completes (.focPeriod
    th n eu ev ew er l) s fun t => t.spn.rotor = n.toNat ∧ t.spn.olSpeed = min (4800 * s.hoRpm) (s.spn.olSpeed + s.get SPN_HO_CFG.OL_ACC 0) ∧ t.spn.angle =
    (s.spn.angle + s.get SPN_MOTOR.POLES 0 * t.spn.olSpeed) % olTurn ∧ (t.spn? = spRamp ∨ t.spn? = spAccel ∧ t.spn.olSpeed = 4800 * s.hoRpm)) ∧
  (∀ (s : State), s.spn? = spAccel ∨ s.spn? = spRun ∨ s.spn? = spChange ∨ s.spn? = spBrake → s.normalService = true → Completes (.observerLoss) s fun t =>
    t.spn? = spCatch ∧ t.get SPN_STAT.OBS_LOSS 0 = 1 ∧ (s.spn? = spRun → t.get SPN_STAT.AT_SPEED 0 = 0)) ∧
  (∀ (s : State), s.spn? = spAccel ∨ s.spn? = spRun ∨ s.spn? = spChange ∨ s.spn? = spBrake → s.quiet 248 → Completes (.observerLoss) s fun t => ChangesOnly
    [.BMU_EVB_STAT, .BMU_STAT, .FCU_FEC_ADDR, .FCU_FEC_INFO, .FCU_FEC_TIME, .FCU_SRC_STAT, .PCX_PROT_STAT, .SPN_ORR_STAT, .SPN_STAT, .WRC_RWL_CTL,
    .WRC_RWL_PTR, .WRC_WR_STAT, .WRC_WUS_STAT] [.bmu, .fcu, .out, .spn, .wrc] true s t ∧ t.spn? = spCatch ∧ t.get SPN_STAT.OBS_LOSS 0 = 1 ∧ Counted 248
    (detail 0) s t ∧ (s.spn? = spRun → t.get SPN_STAT.AT_SPEED 0 = 0 ∧ ∀ w < 8, t.get WRC_WR_STAT.GATE w = 0)) ∧
  (∀ (s : State) (v : BitVec 14), s.spn? = spOff ∨ s.spn? = spShort ∨ s.spn? = spHanded → Completes (.spdSetWrite .keeper v) s fun t => Unchanged [(.SPN_CTL,
    0)] [] [] s t ∧ t.get SPN_CTL.SPD_SET 0 = clampN 5400 10000 v.toNat ∧ t.spn = s.spn) ∧
  (∀ (s : State) (v : BitVec 14), s.spn? = spRun ∨ s.spn? = spChange → s.get SVE_TRK_STAT.LOADED 0 ≠ 0 → Completes (.spdSetWrite .keeper v) s fun t =>
    Unchanged [] [.spn] [] s t ∧ t.spn = { s.spn with spdPend := some (clampN 5400 10000 v.toNat) } ∧ t.spn? = s.spn?) ∧
  (∀ (s : State) (v : BitVec 14), s.spn? = spRun → s.get SVE_TRK_STAT.LOADED 0 = 0 → s.get SPN_CTL.SPD_SET 0 ≠ clampN 5400 10000 v.toNat → Completes
    (.spdSetWrite .keeper v) s fun t => ChangesOnly [.SPN_STAT, .SPN_CTL, .SPN_ORR_STAT, .WRC_WR_STAT, .WRC_WUS_STAT, .WRC_RWL_PTR, .WRC_RWL_CTL] [.spn,
    .wrc, .bmu, .out] true s t ∧ t.get SPN_CTL.SPD_SET 0 = clampN 5400 10000 v.toNat ∧ t.spn? = spChange ∧ t.get SPN_STAT.AT_SPEED 0 = 0) ∧
  (∀ (s : State) (v : BitVec 14), s.spn? = spAccel ∨ s.spn? = spBrake → Completes (.spdSetWrite .keeper v) s fun t => Unchanged [(.SPN_CTL, 0)] [.spn] [] s t
    ∧ t.get SPN_CTL.SPD_SET 0 = clampN 5400 10000 v.toNat ∧ t.spn.setPt = (if s.spn? = spAccel then 25600 * clampN 5400 10000 v.toNat else s.spn.setPt)) ∧
  (∀ (s : State) (v : BitVec 14), s.spn? = spSense ∨ s.spn? = spRamp ∨ s.spn? = spCatch → Completes (.spdSetWrite .keeper v) s fun t => Unchanged [] [.spn] []
    s t ∧ t.spn = { s.spn with spdPend := some (clampN 5400 10000 v.toNat) }) ∧
  (∀ (s : State) (mask : BitVec 3), Completes (.spnCommit .keeper mask) s fun t => Unchanged [(.SPN_COMMIT, 0)] [.spn] [] s t ∧ t.get SPN_COMMIT.BANK_ERR 0 =
    (if (List.range 3).any (fun k => nbit mask.toNat k && (bankOf fun i => s.get SPN_COEF.W (k * 128 + i)).inverted) then 1 else s.get SPN_COMMIT.BANK_ERR
    0) ∧ ∀ k < 3, nbit mask.toNat k = true → t.bitF SPN_COMMIT.COMMIT 0 k = false) ∧
  (∀ (s : State) (k : Fin 3), ((bankOf fun i => s.get SPN_COEF.W (k.val * 128 + i)).inverted = false) → Completes (.spnCommit .keeper (1#3 <<< k.val)) s fun t
    => Unchanged [(.SPN_COMMIT, 0)] [.spn] [] s t ∧ (∀ i < 128, Sparse.get 0 t.spn.bank (k.val * 128 + i) = s.get SPN_COEF.W (k.val * 128 + i)) ∧ t.bitF
    SPN_COMMIT.COMMIT 0 k = false ∧ t.get SPN_COMMIT.BANK_ERR 0 = s.get SPN_COMMIT.BANK_ERR 0) ∧
  (∀ (s : State) (k : Fin 3), ((bankOf fun i => s.get SPN_COEF.W (k.val * 128 + i)).inverted = true) → Completes (.spnCommit .keeper (1#3 <<< k.val)) s fun t
    => Unchanged [(.SPN_COMMIT, 0)] [] [] s t ∧ t.spn = s.spn ∧ t.bitF SPN_COMMIT.COMMIT 0 k = false ∧ t.get SPN_COMMIT.BANK_ERR 0 = 1)

/-- EN set by the Keeper takes the member to LINKING with both sides wrapped; cleared, the member leaves in order. Signal starts training, its end HELLO frames
at the version the part offers; the lower of the two versions is the hop's; a timeout of either takes the side down. A HELLO takes the side UP, unwraps it,
and a member in LINKING joins. A side that is lost goes down and wraps, is counted, and its source is counted. A marker is held. A frame with a CRC error
is only counted, one of an unknown flooded type is forwarded. Clauses without a frame state their effects under the conditions of normal execution alone,
whatever else follows in the same step. -/
def Obligations.StraitSides : Prop :=
  (∀ (s : State), s.on SPL_CFG.EN 0 = false → Completes (.splEnable .keeper) s fun t => ChangesOnly [.SPL_CFG, .SPL_STAT, .SPL_MEMBERS, .SPL_SIDE_STAT] [.spl,
    .out] false s t ∧ t.get SPL_CFG.EN 0 = 1 ∧ t.splState = mbLinking ∧ t.get SPL_STAT.WRAP_P 0 = 1 ∧ t.get SPL_STAT.WRAP_N 0 = 1 ∧ (s.spl.leaveFrames = 0
    → t.out = s.out ∧ ∀ d, t.reg .SPL_SIDE_STAT d = s.reg .SPL_SIDE_STAT d) ∧ (s.spl.leaveFrames ≠ 0 → t.link 0 = lkDown ∧ t.link 1 = lkDown)) ∧
  (∀ (s : State), s.splState ≠ mbOff → Completes (.splDisable .keeper) s fun t => ChangesOnly [.SPL_CFG, .SPL_STAT, .SPL_MEMBERS] [.spl, .out] false s t ∧
    t.get SPL_CFG.EN 0 = 0 ∧ t.splState = mbOff ∧ t.get SPL_STAT.IS_MASTER 0 = 0 ∧ t.get SPL_STAT.REF_LOCK 0 = 1 ∧ t.spl.leaveFrames = 2) ∧
  (∀ (s : State), s.splState ≠ mbOff → s.link 0 = lkUp ∧ s.link 1 = lkUp → Completes (.splDisable .keeper) s fun t => ChangesOnly [.SPL_CFG, .SPL_STAT,
    .SPL_MEMBERS] [.spl, .out] false s t ∧ t.out.length = s.out.length + 2 ∧ Sparse.get 0 t.spl.seq tLeave = (Sparse.get 0 s.spl.seq tLeave + 1) % 256) ∧
  (∀ (s : State), s.splState = mbOff → Completes (.splDisable .keeper) s fun t => ChangesOnly [.SPL_CFG, .SPL_STAT] [.spl] false s t ∧ t.get SPL_CFG.EN 0 = 0
    ∧ t.spl = s.spl ∧ t.out = s.out) ∧
  (∀ (s : State) (d : Fin 2), s.on SPL_CFG.EN 0 = true → s.link d = lkDown → Completes (.hopSignalDetect d) s fun t => Unchanged [(.SPL_SIDE_STAT, d.val)]
    [.spl, .out] [] s t ∧ t.link d = lkTrain ∧ Sparse.get 0 t.spl.linkAt d = s.ptm.ticks) ∧
  (∀ (s : State) (d : Fin 2), s.link d = lkTrain → Completes (.hopTrainDone d) s fun t => Unchanged [(.SPL_SIDE_STAT, d.val)] [.spl, .out] [] s t ∧ t.link d =
    lkHello ∧ Sparse.get 0 t.spl.linkAt d = s.ptm.ticks ∧ t.out = .frame "SL" "frame" ((if d = 0 then 3 else 1) :: (straitFrame tHello s.ownVer s.ownId 1
    (Sparse.get 0 t.spl.seq tHello) (decide (0x20 ≤ s.ownVer)) ([BitVec.ofNat 8 s.ownVer] ++ beBytes 2 s.ownId ++ [BitVec.ofNat 8 (s.get SPL_CFG.EN
    0)])).map (·.toNat)) :: s.out) ∧
  (∀ (s : State) (d : Fin 2), s.link d = lkTrain → Sparse.get 0 s.spl.linkAt d + 20 * tickMs ≤ s.ptm.ticks → Completes (.hopTrainTimeout d) s fun t =>
    ChangesOnly [.SPL_SIDE_STAT, .SPL_STAT, .SPL_MEMBERS] [.spl, .out] false s t ∧ t.link d = lkDown ∧ t.out = .frame "SL" "idle" [d] :: s.out) ∧
  (∀ (s : State) (d : Fin 2) (ver : BitVec 8) (peer : Fin 512), s.link d = lkHello → Completes (.hello d ver peer) s fun t => ChangesOnly [.SPL_MEMBERS,
    .SPL_SIDE_STAT, .SPL_STAT] [.free, .out, .spl] false s t ∧ t.link d = lkUp ∧ t.get SPL_SIDE_STAT.PEER_ID d = peer ∧ t.get SPL_SIDE_STAT.VER d = (if
    s.on SPL_CFG.VER_CAP 0 ∨ ver.toNat < 0x20 then 1 else 2) ∧ t.get (if d = 0 then SPL_STAT.WRAP_P else SPL_STAT.WRAP_N) 0 = 0 ∧ (s.splState = mbLinking →
    t.splState = mbJoining)) ∧
  (∀ (s : State) (d : Fin 2), s.link d = lkHello → Sparse.get 0 s.spl.linkAt d + 800 ≤ s.ptm.ticks → Completes (.helloTimeout d) s fun t => ChangesOnly
    [.SPL_SIDE_STAT, .SPL_STAT, .SPL_MEMBERS] [.spl, .out] false s t ∧ t.link d = lkDown ∧ t.out = .frame "SL" "idle" [d] :: s.out) ∧
  (∀ (s : State) (d : Fin 2), s.link d = lkUp → s.normalService = true → Completes (.straitSideLoss d) s fun t => t.link d = lkDown ∧ t.get (if d = 0 then
    SPL_STAT.WRAP_P else SPL_STAT.WRAP_N) 0 = 1 ∧ t.get SPL_SIDE_STAT.DOWN_CNT d = satAdd (s.get SPL_SIDE_STAT.DOWN_CNT d) 1 (2 ^
    SPL_SIDE_STAT.DOWN_CNT.width - 1)) ∧
  (∀ (s : State) (d : Fin 2), s.link d = lkUp → s.quiet (256 + d) → Completes (.straitSideLoss d) s fun t => ChangesOnly [.ALM_STAT, .FCU_FEC_ADDR,
    .FCU_FEC_INFO, .FCU_FEC_TIME, .FCU_SRC_STAT, .SPL_MEMBERS, .SPL_SIDE_STAT, .SPL_STAT] [.alm, .fcu, .out] false s t ∧ t.link d = lkDown ∧ t.get (if d =
    0 then SPL_STAT.WRAP_P else SPL_STAT.WRAP_N) 0 = 1 ∧ t.get SPL_SIDE_STAT.DOWN_CNT d = satAdd (s.get SPL_SIDE_STAT.DOWN_CNT d) 1 (2 ^
    SPL_SIDE_STAT.DOWN_CNT.width - 1) ∧ Counted (256 + d) (detail d) s t) ∧
  (∀ (s : State) (d : Fin 2) (peer : Fin 512) (lk : Fin 4), Completes (.hopMarker d peer lk) s fun t => Unchanged [] [.spl] [] s t ∧ (d.val, peer.val, lk.val)
    ∈ t.spl.marker) ∧
  (∀ (s : State) (h : StraitHdr) (typ : BitVec 8) (pl : List (BitVec 8)), Completes (.straitUnknownFrame h typ true pl) s fun t => Unchanged [(.SPL_SIDE_STAT,
    h.side.val)] [] [] s t ∧ t.get SPL_SIDE_STAT.CRC_ERR h.side = satAdd (s.get SPL_SIDE_STAT.CRC_ERR h.side) 1 (2 ^ SPL_SIDE_STAT.CRC_ERR.width - 1)) ∧
  (∀ (s : State) (h : StraitHdr) (typ : BitVec 8) (pl : List (BitVec 8)), s.link h.side = lkUp → h.origin.val ≠ s.ownId → h.hops.val + 1 < 1023 → s.link 0 =
    lkUp ∧ s.link 1 = lkUp → 0x10 ≤ typ.toNat ∧ typ.toNat ≤ 0x7F → Completes (.straitUnknownFrame h typ false pl) s fun t => Unchanged [] [.out] [] s t ∧
    t.out = .frame "SL" "frame" (s.outLane (h.side == 0) :: (straitFrame typ.toNat (s.verByte (laneSide (s.outLane (h.side == 0)))) h.origin (h.hops + 1)
    h.seq (h.s2v && s.hopS2 h.side && s.hopS2 (laneSide (s.outLane (h.side == 0)))) (hopPayload typ.toNat (s.hopS2 (laneSide (s.outLane (h.side == 0))))
    (h.s2v && s.hopS2 h.side && s.hopS2 (laneSide (s.outLane (h.side == 0)))) pl)).map (·.toNat)) :: s.out) ∧
  (∀ (s : State) (h : StraitHdr) (typ : BitVec 8) (pl : List (BitVec 8)), typ.toNat < 0x10 ∨ 0x7F < typ.toNat → Completes (.straitUnknownFrame h typ false pl)
    s fun t => Unchanged [] [] [] s t ∧ t.out = s.out)

/-- On a side that is up, a flooded frame that the acceptance test takes is acted on once and forwarded unless it is the member's own or at its last hop: a
BEACON makes its member present with what it carries, a JOIN adds it, forgets its sequence numbers and has the plan flooded again, a LEAVE removes it and
wraps the side of a neighbour that leaves, a RELAY for this member enters the queue of 32 or sets RX_OVF. A member in JOINING or MEMBER floods its own
BEACON on both rings. SEND floods a RELAY, the second one in a frame sets TX_BUSY. -/
def Obligations.ArchipelagoMembers : Prop :=
  (∀ (s : State) (h : StraitHdr) (inst : BitVec 32) (he el rl : Bool) (ma : Fin 512) (lv : BitVec 8) (ver : BitVec 16), s.link h.side = lkUp → h.origin.val ≠
    s.ownId → s.accepts h tBeacon = true → s.splState ≠ mbOff → Completes (.beacon h inst he el rl ma lv ver) s fun t => ChangesOnly [.SPL_STAT,
    .SPL_MEMBERS] [.spl, .out] false s t ∧ (h.origin.val, ({ since := 0, healthy := he, elig := el, inst := inst.toNat, level := lv.toNat, s2v := h.s2v, hops := h.hops }
    : Member)) ∈ t.spl.members ∧ (∀ e ∈ t.spl.members, e.1 = h.origin.val → e.2.inst = inst.toNat) ∧ t.accepts h tBeacon = false ∧ nbit (t.get
    SPL_MEMBERS.W (h.origin / 32)) (h.origin % 32) = true) ∧
  (∀ (s : State) (h : StraitHdr) (inst : BitVec 32) (he el rl : Bool) (ma : Fin 512) (lv : BitVec 8) (ver : BitVec 16), h.origin.val = s.ownId → inst.toNat ≠
    Config.splInstance % 2 ^ 32 → s.splState = mbJoining → s.quiet 258 → Completes (.beacon h inst he el rl ma lv ver) s fun t => ChangesOnly
    [.FCU_SRC_STAT, .FCU_FEC_INFO, .FCU_FEC_ADDR, .FCU_FEC_TIME, .ALM_STAT, .SPL_STAT, .SPL_MEMBERS] [.alm, .spl, .out, .fcu] false s t ∧ t.splState =
    mbDup ∧ Counted 258 (detail 0) s t) ∧
  (∀ (s : State), s.splState = mbMember ∨ s.splState = mbJoining → s.link 0 = lkUp ∧ s.link 1 = lkUp → Completes (.beaconSend) s fun t => Unchanged [] [.spl,
    .out] [] s t ∧ t.out.length = s.out.length + 2 ∧ Sparse.get 0 t.spl.seq tBeacon = (Sparse.get 0 s.spl.seq tBeacon + 1) % 256) ∧
  (∀ (s : State), s.splState = mbMember ∨ s.splState = mbJoining → Completes (.beaconSend) s fun t => Unchanged [] [.spl, .out] [] s t ∧ Sparse.get 0
    t.spl.seq tBeacon = (Sparse.get 0 s.spl.seq tBeacon + 1) % 256) ∧
  (∀ (s : State), s.splState ≠ mbMember ∧ s.splState ≠ mbJoining → Completes (.beaconSend) s fun t => Unchanged [] [] [] s t ∧ t.out = s.out) ∧
  (∀ (s : State) (h : StraitHdr) (inst : BitVec 32), s.link h.side = lkUp → h.origin.val ≠ s.ownId → s.splState ≠ mbOff → 1 ≤ h.seq.val ∧ h.seq.val ≤ 127 →
    Completes (.join h inst) s fun t => ChangesOnly [.SPL_STAT, .SPL_MEMBERS] [.spl, .out] false s t ∧ (h.origin.val, ({ inst := inst.toNat } : Member)) ∈
    t.spl.members ∧ t.spl.reflood = true ∧ t.get SPL_STAT.MEMB_EVT 0 = 1 ∧ Sparse.get 0 t.spl.last (h.origin * 256 + tBeacon) = 0 ∧ t.accepts h tJoin =
    false) ∧
  (∀ (s : State) (h : StraitHdr), s.link h.side = lkUp → h.origin.val ≠ s.ownId → s.accepts h tLeave = true → s.splState ≠ mbOff → Completes (.leave h) s fun
    t => ChangesOnly [.SPL_STAT, .SPL_MEMBERS] [.spl, .out] false s t ∧ (∀ e ∈ t.spl.members, e.1 ≠ h.origin.val) ∧ t.get SPL_STAT.MEMB_EVT 0 = 1 ∧ (h.hops
    = 1 → t.get (if h.side = 0 then SPL_STAT.WRAP_P else SPL_STAT.WRAP_N) 0 = 1)) ∧
  (∀ (s : State) (h : StraitHdr) (bc : Bool) (dest : Fin 512) (data : List (BitVec 8)), s.link h.side = lkUp → h.origin.val ≠ s.ownId → s.accepts h tRelay =
    true → s.splState ≠ mbOff → bc = true ∨ dest.val = s.ownId → s.spl.rx.length < 32 → Completes (.relay h bc dest data) s fun t => ChangesOnly
    [.SPL_RLY_CTL, .SPL_RLY_RX] [.spl, .out] false s t ∧ t.spl.rx = s.spl.rx ++ [(straitFrame tRelay (s.verByte h.side) h.origin h.hops h.seq h.s2v
    (relayPayload bc dest data)).map (·.toNat)] ∧ t.get SPL_RLY_CTL.RX_COUNT 0 = s.spl.rx.length + 1 ∧ t.get SPL_RLY_CTL.RX_OVF 0 = s.get
    SPL_RLY_CTL.RX_OVF 0 ∧ (bc = false → t.out = s.out)) ∧
  (∀ (s : State) (h : StraitHdr) (bc : Bool) (dest : Fin 512) (data : List (BitVec 8)), s.link h.side = lkUp → h.origin.val ≠ s.ownId → s.accepts h tRelay =
    true → s.splState ≠ mbOff → bc = true ∨ dest.val = s.ownId → 32 ≤ s.spl.rx.length → Completes (.relay h bc dest data) s fun t => Unchanged
    [(.SPL_RLY_CTL, 0)] [.spl, .out] [] s t ∧ t.spl.rx = s.spl.rx ∧ t.get SPL_RLY_CTL.RX_OVF 0 = 1) ∧
  (∀ (s : State), s.on SPL_RLY_CTL.TX_BUSY 0 = false → s.link 0 = lkUp ∧ s.link 1 = lkUp → Completes (.relaySend .keeper) s fun t => Unchanged [(.SPL_RLY_CTL,
    0)] [.spl, .out] [] s t ∧ t.out.length = s.out.length + 2) ∧
  (∀ (s : State), s.on SPL_RLY_CTL.TX_BUSY 0 = false → Completes (.relaySend .keeper) s fun t => Unchanged [(.SPL_RLY_CTL, 0)] [.spl, .out] [] s t ∧
    t.spl.txCount = s.spl.txCount + 1 ∧ (1 ≤ s.spl.txCount → t.get SPL_RLY_CTL.TX_BUSY 0 = 1)) ∧
  (∀ (s : State), s.on SPL_RLY_CTL.TX_BUSY 0 = true → Completes (.relaySend .keeper) s fun t => Unchanged [] [] [] s t ∧ t.out = s.out)

/-- A DLY_REQ on a side that is up is answered with its three stamps; a DLY_RSP sets the side's delay; a TIME frame of the master followed is kept for the
frame boundary; parts of a plan are collected and a complete newer plan waits for the boundary, an incomplete one is discarded with PLAN_ERR; SUBMIT takes
the next version, 0 skipped, and is adopted at once; a forewarning within the radius closes every gate until its window ends; a reference pulse in PULSE
mode inside the window is seen, and shows the offset. A TIME frame of another member than the master followed leaves the kept one; a forewarning is
accepted once. Clauses without a frame state their effects under the conditions of normal execution alone, whatever else follows in the same step. -/
def Obligations.ArchipelagoTime : Prop :=
  (∀ (s : State) (d : Fin 2) (t1 t2 t3 : Stamp), s.link d = lkUp → Completes (.dlyReq d t1 t2 t3) s fun t => Unchanged [] [.spl, .out] [] s t ∧ t.out = .frame
    "SL" "frame" ((if d = 0 then 3 else 1) :: (straitFrame tDlyRsp (s.verByte d) s.ownId 1 (Sparse.get 0 t.spl.seq tDlyRsp) (decide (0x20 ≤ s.verByte d))
    ([t1, t2, t3].flatMap fun x => stampBytes (s.hopS2 d) x.ticks.toNat x.fine)).map (·.toNat)) :: s.out) ∧
  (∀ (s : State) (d : Fin 2) (t1 t2 t3 t4 : Stamp), s.link d = lkUp → Completes (.dlyRsp d t1 t2 t3 t4) s fun t => Unchanged [] [.spl] [] s t ∧ Sparse.get 0
    t.spl.delay d = ((t4.units - t1.units) - (t3.units - t2.units)) / 2) ∧
  (∀ (s : State) (h : StraitHdr) (tf : BitVec 64) (corr : BitVec 32) (rx : Stamp), s.link h.side = lkUp → s.accepts h tTime = true → s.splState ≠ mbOff →
    Completes (.time h tf corr rx) s fun t => Unchanged [] [.spl, .free, .out] [] s t ∧ t.accepts h tTime = false ∧ (h.origin.val ≠ s.get
    SPL_STAT.MASTER_ID 0 → t.spl.timeCopy = s.spl.timeCopy)) ∧
  (∀ (s : State) (h : StraitHdr) (tf : BitVec 64) (corr : BitVec 32) (rx : Stamp), s.link h.side = lkUp → h.origin.val ≠ s.ownId → s.spl.hasMaster = true →
    h.origin.val = s.get SPL_STAT.MASTER_ID 0 → s.spl.timeCopy = none → s.accepts h tTime = true → Completes (.time h tf corr rx) s fun t => Unchanged []
    [.spl, .free, .out] [] s t ∧ t.spl.timeCopy = some (h.hops.val, ((tf.toNat * tickUnits + corr.toNat : Nat) : Int) + Sparse.get 0 s.spl.delay h.side -
    rx.units, h.seq.val, h.origin.val)) ∧
  (∀ (s : State) (h : StraitHdr) (ver : BitVec 16) (part : Fin 11) (es : List (BitVec 8)) (ps : PlanSet), s.link h.side = lkUp → h.origin.val ≠ s.ownId →
    s.accepts h tPlan = true → s.splState ≠ mbOff → s.spl.plans = [ps] → ps.ver = ver.toNat ∧ ps.origin = h.origin.val → ps.parts.length = 10 → (∀ e ∈
    ps.parts, e.1 ≠ part.val) → newer 65536 ver.toNat (s.get SPL_PLAN_CTL.VER 0) = true → Completes (.plan h ver part es) s fun t => Unchanged [] [.spl,
    .out] [] s t ∧ t.spl.adopt = some { ver := ver.toNat, origin := h.origin, parts := (part.val, es.map BitVec.toNat) :: ps.parts, since := ps.since } ∧
    t.spl.plans = []) ∧
  (∀ (s : State) (h : StraitHdr) (ver : BitVec 16) (part : Fin 11) (es : List (BitVec 8)), s.link h.side = lkUp → h.origin.val ≠ s.ownId → s.accepts h tPlan =
    true → s.splState ≠ mbOff → Completes (.plan h ver part es) s fun t => Unchanged [] [.spl, .out] [] s t ∧ t.accepts h tPlan = false ∧ (∀ p ∈
    s.spl.plans, p.ver ≠ ver.toNat ∨ p.origin ≠ h.origin.val → p ∈ t.spl.plans)) ∧
  (∀ (s : State) (h : StraitHdr) (ver : BitVec 16) (part : Fin 11) (es : List (BitVec 8)), s.link h.side = lkUp → h.origin.val ≠ s.ownId → s.accepts h tPlan =
    true → s.splState ≠ mbOff → s.spl.plans = [] → Completes (.plan h ver part es) s fun t => Unchanged [] [.spl, .out] [] s t ∧ t.spl.plans = [{ ver := ver.toNat, origin := h.origin, parts := [(part.val, es.map BitVec.toNat)], since := s.ptm.ticks }]
    ∧ t.spl.adopt = s.spl.adopt) ∧
  (∀ (s : State) (o : Fin 512) (ver : BitVec 16), (s.spl.plans.any (fun p => p.origin == o.val && p.ver == ver.toNat && decide (p.since + 10 * tickMs ≤
    s.ptm.ticks)) = true) → Completes (.planTimeout o ver) s fun t => Unchanged [(.SPL_PLAN_CTL, 0)] [.spl] [] s t ∧ t.get SPL_PLAN_CTL.PLAN_ERR 0 = 1 ∧ (∀
    p ∈ t.spl.plans, p.origin ≠ o.val ∨ p.ver ≠ ver.toNat)) ∧
  (∀ (s : State) (v : Nat), v = (if (s.get SPL_PLAN_CTL.VER 0 + 1) % 65536 = 0 then 1 else s.get SPL_PLAN_CTL.VER 0 + 1) → s.splState = mbOff → Completes
    (.splPlanSubmit .keeper) s fun t => ChangesOnly [.SPL_PLAN, .SPL_PLAN_CTL] [] false s t ∧ t.get SPL_PLAN_CTL.VER 0 = v ∧ t.get SPL_PLAN_CTL.PLAN_ORIGIN
    0 = s.ownId ∧ t.get SPL_PLAN.W 0 = s.get SPL_PLAN_TX.W 0 ∧ t.get SPL_PLAN.W 127 = s.get SPL_PLAN_TX.W 127) ∧
  (∀ (s : State), s.splState ≠ mbOff → Completes (.splPlanSubmit .keeper) s fun t => ChangesOnly [.SPL_PLAN, .SPL_PLAN_CTL] [.spl, .out] false s t ∧ t.get
    SPL_PLAN_CTL.VER 0 ≠ 0 ∧ t.get SPL_PLAN_CTL.PLAN_ORIGIN 0 = s.ownId ∧ t.get SPL_PLAN.W 0 = s.get SPL_PLAN_TX.W 0 ∧ (s.link 0 = lkUp → s.link 1 = lkUp →
    t.out.length = s.out.length + 22)) ∧
  (∀ (s : State) (h : StraitHdr) (pk : BitVec 8) (src : Fin 8) (tm : BitVec 64), s.link h.side = lkUp → h.origin.val ≠ s.ownId → s.accepts h tFwarn = true →
    s.splState ≠ mbOff → s.normalService = true → Completes (.fwarn h pk src tm) s fun t => t.accepts h tFwarn = false ∧ (t.wrc.forewarn = true ∨
    t.wrc.forewarn = s.wrc.forewarn)) ∧
  (∀ (s : State) (h : StraitHdr) (pk : BitVec 8) (src : Fin 8) (tm : BitVec 64), s.link h.side = lkUp → h.origin.val ≠ s.ownId → s.accepts h tFwarn = true →
    s.splState ≠ mbOff → s.on SPL_FW_CFG.RX_EN 0 = true → s.get SPL_FW_CFG.FW_WIN 0 ≠ 0 → h.hops.val ≤ max 1 (s.get SPL_FW_CFG.FW_RADIUS 0) → Completes
    (.fwarn h pk src tm) s fun t => ChangesOnly [.SPL_FW_STAT, .WRC_RWL_CTL, .WRC_RWL_PTR, .WRC_WR_STAT, .WRC_WUS_STAT] [.bmu, .out, .spl, .wrc] true s t ∧
    t.wrc.forewarn = true ∧ t.get SPL_FW_STAT.ACTIVE 0 = 1 ∧ t.get SPL_FW_STAT.LAST_HOPS 0 = h.hops ∧ t.get SPL_FW_STAT.LAST_ORIGIN 0 = h.origin ∧ (∀ w <
    8, t.get WRC_WR_STAT.GATE w = 0)) ∧
  (∀ (s : State), s.wrc.forewarn = true → s.spl.fwAt + 800 * min 500 (s.get SPL_FW_CFG.FW_WIN 0) ≤ s.ptm.ticks → Completes (.forewarnWindowEnd) s fun t =>
    ChangesOnly [.BMU_EVB_STAT, .BMU_STAT, .PCX_PROT_STAT, .SPL_FW_STAT, .WRC_RWL_CTL, .WRC_RWL_PTR, .WRC_WR_STAT, .WRC_WUS_STAT] [.bmu, .fcu, .out, .wrc]
    true s t ∧ t.wrc.forewarn = false ∧ t.get SPL_FW_STAT.ACTIVE 0 = 0) ∧
  (∀ (s : State) (tp : Stamp), s.merSrc = 1 → s.on SPL_CFG.EN 0 = true → s.on SPL_STAT.REF_LOCK 0 = false ∨ (let u := tp.units - 16 * (s.get
    SPL_MER_CFG.MER_DLY 0 : Int); (8000 * tickUnits * roundDiv u (8000 * tickUnits) - u).natAbs ≤ ((max 1 (s.get SPL_MER_CFG.PULSE_WIN 0) : Nat) :
    Int).natAbs * tickUnits) → Completes (.merInPulse tp) s fun t => ChangesOnly [.SPL_MER_STAT, .SPL_STAT] [.spl] false s t ∧ t.spl.pulseSeen = true)

/-- With no operation in progress: LOAD of a slot with no row held dirty and two different keys takes the key material, the generation and READY or LOCKED;
with rows held dirty it ends with DIRTY, with K1 = K2 with KEYS_EQUAL; LOCK and UNLOCK change the state of a slot that is not EMPTY, else they end with
EMPTY; ZEROISE of a slot with no row dirty empties it. Every one of them clears the key words. While one is in progress nothing is done. -/
def Obligations.KeySlots : Prop :=
  (∀ (s : State) (k : Fin 128) (g : Fin 64) (he : Bool), s.on MPC_KEY_CTL.BUSY 0 = false → s.get MPC_KEY_STAT.DIRTY k = 0 → s.keyData.take 32 ≠ s.keyData.drop
    32 → Completes (.keyLoad .keeper k g he) s fun t => ChangesOnly [.MPC_KEY_CTL, .MPC_KEY_DATA, .MPC_KEY_STAT] [.mpc, .bmu] false s t ∧ t.get
    MPC_KEY_STAT.STATE k = (if he then 2 else 1) ∧ t.get MPC_KEY_STAT.KGEN k = g ∧ t.keyBytes k = s.keyData ∧ t.get MPC_KEY_CTL.ERR 0 = 0 ∧ (∀ i < 16,
    t.get MPC_KEY_DATA.KEY i = 0)) ∧
  (∀ (s : State) (k : Fin 128) (g : Fin 64) (he : Bool), s.on MPC_KEY_CTL.BUSY 0 = false → s.get MPC_KEY_STAT.DIRTY k = 0 → s.keyData.take 32 = s.keyData.drop
    32 → Completes (.keyLoad .keeper k g he) s fun t => ChangesOnly [.MPC_KEY_CTL, .MPC_KEY_DATA] [] false s t ∧ t.get MPC_KEY_CTL.ERR 0 = 3 ∧ (∀ i < 16,
    t.get MPC_KEY_DATA.KEY i = 0)) ∧
  (∀ (s : State) (k : Fin 128) (g : Fin 64) (he : Bool), s.on MPC_KEY_CTL.BUSY 0 = false → s.get MPC_KEY_STAT.DIRTY k ≠ 0 → Completes (.keyLoad .keeper k g
    he) s fun t => ChangesOnly [.MPC_KEY_CTL, .MPC_KEY_DATA] [] false s t ∧ t.get MPC_KEY_CTL.ERR 0 = 1 ∧ (∀ i < 16, t.get MPC_KEY_DATA.KEY i = 0)) ∧
  (∀ (s : State) (k : Fin 128) (g : Fin 64) (he : Bool), s.on MPC_KEY_CTL.BUSY 0 = true → Completes (.keyLoad .keeper k g he) s fun t => Unchanged
    [(.MPC_KEY_CTL, 0)] [] [] s t ∧ t.keyState k = s.keyState k ∧ t.get MPC_KEY_CTL.ERR 0 = s.get MPC_KEY_CTL.ERR 0) ∧
  (∀ (s : State) (k : Fin 128), s.on MPC_KEY_CTL.BUSY 0 = false → s.keyState k ≠ 0 → Completes (.keyLock .keeper k) s fun t => Unchanged ((.MPC_KEY_CTL, 0) ::
    (.MPC_KEY_STAT, k.val) :: (List.range 16).map fun i => (.MPC_KEY_DATA, i)) [] [] s t ∧ t.keyState k = 1 ∧ t.keyBytes k = s.keyBytes k ∧ t.get
    MPC_KEY_CTL.ERR 0 = 0 ∧ (∀ i < 16, t.get MPC_KEY_DATA.KEY i = 0)) ∧
  (∀ (s : State) (k : Fin 128), s.on MPC_KEY_CTL.BUSY 0 = false → s.keyState k ≠ 0 → Completes (.keyUnlock .keeper k) s fun t => Unchanged ((.MPC_KEY_CTL, 0)
    :: (.MPC_KEY_STAT, k.val) :: (List.range 16).map fun i => (.MPC_KEY_DATA, i)) [] [] s t ∧ t.keyState k = 2 ∧ t.keyBytes k = s.keyBytes k ∧ t.get
    MPC_KEY_CTL.ERR 0 = 0 ∧ (∀ i < 16, t.get MPC_KEY_DATA.KEY i = 0)) ∧
  (∀ (s : State) (k : Fin 128), s.on MPC_KEY_CTL.BUSY 0 = false → s.keyState k = 0 → Completes (.keyUnlock .keeper k) s fun t => ChangesOnly [.MPC_KEY_CTL,
    .MPC_KEY_DATA] [] false s t ∧ t.keyState k = 0 ∧ t.get MPC_KEY_CTL.ERR 0 = 2 ∧ (∀ i < 16, t.get MPC_KEY_DATA.KEY i = 0)) ∧
  (∀ (s : State) (k : Fin 128), s.on MPC_KEY_CTL.BUSY 0 = false → s.get MPC_KEY_STAT.DIRTY k = 0 → Completes (.keyZeroise .keeper k) s fun t => ChangesOnly
    [.MPC_KEY_CTL, .MPC_KEY_DATA, .MPC_KEY_STAT] [.mpc, .bmu] false s t ∧ t.keyState k = 0 ∧ t.keyBytes k = [] ∧ t.get MPC_KEY_CTL.ERR 0 = 0 ∧ (∀ i < 16,
    t.get MPC_KEY_DATA.KEY i = 0)) ∧
  (∀ (s : State) (k : Fin 128), s.on MPC_KEY_CTL.BUSY 0 = false → s.get MPC_KEY_STAT.DIRTY k ≠ 0 → Completes (.keyZeroise .keeper k) s fun t => ChangesOnly
    [.MPC_KEY_CTL, .MPC_KEY_DATA] [] false s t ∧ t.get MPC_KEY_CTL.ERR 0 = 1 ∧ t.keyState k = s.keyState k ∧ t.keyBytes k = s.keyBytes k)

/-- With no reconstruction context open and no read waiting: a usable member of a row is held for the checks of its pass while they are on, a hand-off of a row
with parity opens a context that holds the member as erased or soft, one without parity ends unrecovered. A data member of a row that has its encode slot
is sent to WRC again as it was, a new one from port 0 is encrypted into the slot; a row's first one opens the slot and takes the next version number. When
every data member is encoded the parity members go to WRC, once. In general: a usable member opens no context, and where one is open joins it as usable; a
hand-off with no room for a context is to be read again; a data member is encrypted into its row's slot, from port 0 with its metadata or as recorded, a
lost one entering the list of unreadable LBAs; parity goes to WRC, and to the working area from slot 16 on. Clauses without a frame state their effects
under the conditions of normal execution alone, whatever else follows in the same step. -/
def Obligations.MembersAndEncoding : Prop :=
  (∀ (s : State) (row : Fin (2 ^ 40)) (j : Fin 16) (stt : Fin 4) (kd : Fin 4) (bs : List Byte) (rel : List (Fin 16)) (crcs : List (Fin 16 × Word)) (n : Nat),
    s.mpc.ctxs = [] → s.rdc.unrec = [] → s.cqe.cmds = [] → s.nsOfRow row = some n → stt.val < 2 → s.on MPC_CFG.CHK_EN 0 = true → s.nsM n ≠ 0 →
    (((Sparse.get [] s.mpc.gather row).filter (fun e => e.1 != j.val)).length < 15) → Completes (.memberArrival row j stt kd bs rel crcs) s fun t =>
    Unchanged [] [.mpc] [] s t ∧ (j.val, bs) ∈ Sparse.get [] t.mpc.gather row ∧ t.mpc.ctxs = []) ∧
  (∀ (s : State) (row : Fin (2 ^ 40)) (j : Fin 16) (stt : Fin 4) (bs : List Byte) (rel : List (Fin 16)) (crcs : List (Fin 16 × Word)) (n : Nat), s.mpc.ctxs =
    [] → s.rdc.unrec = [] → s.cqe.cmds = [] → s.nsOfRow row = some n → 2 ≤ stt.val → s.nsM n ≠ 0 → s.ctxRoom 1 = true → s.rdc.erased = [] → ((List.range
    16).all (fun i => !s.memberLost row i) = true) → s.accessFault .mpc atWrite (s.get MPC_WORK_BASE.ADDR 0 * 65536) 65536 = none → s.region (s.get
    MPC_WORK_BASE.ADDR 0 * 65536) 65536 = some .dram → s.poisoned (s.get MPC_WORK_BASE.ADDR 0 * 65536) 65536 = false → Completes (.memberArrival row j stt
    1 bs rel crcs) s fun t => ChangesOnly [.MPC_STAT, .CQE_STAT, .CQE_OVL_STAT] [.mpc, .out] false s t ∧ t.mpc.ctxs.map (fun e => (e.1, e.2.row,
    e.2.handed, e.2.members.map (fun m => (m.j, m.st)))) = [(0, row.val, [(j.val, 1)], [(j.val, if stt = 2 ∧ s.on MPC_CFG.SOFT_EN 0 then 2 else 3)])] ∧
    t.get MPC_STAT.CTX 0 = 1 ∧ t.out = .event "members wanted" (row.val :: (List.range 16).filter fun i => i != j.val) :: s.out) ∧
  (∀ (s : State) (row : Fin (2 ^ 40)) (j : Fin 16) (n : Nat) (x : EncSlot) (y : Nat × List Byte), s.nsOfRow row = some n → s.encOf row = some x →
    (x.members.find? (fun e => e.1 == j.val) = some y) → j.val < s.nsD n → s.keyState (s.get CQE_NS_CFG.KSLOT n) ≠ 0 → s.rowLocked row = false → Completes
    (.encodeMember row j (some []) false) s fun t => Unchanged [] [.wrc, .out] [] s t ∧ t.out = .frame "SECTOR" "write member" ([row.val, j.val, x.tag] ++
    y.2.map (·.toNat)) :: s.out ∧ t.wrc.buffer = (s.wrc.buffer.filter fun h => !(h.row == row.val && h.j == j.val)) ++ [{ row := row.val, j := j.val, tag := x.tag, bytes := y.2 ++ beBytes 4 x.tag }]) ∧
  (∀ (s : State) (row : Fin (2 ^ 40)) (j : Fin 16) (n : Nat) (x : EncSlot), s.nsOfRow row = some n → s.encOf row = some x → x.k < 16 → (x.members.find? (fun e
    => e.1 == j.val) = none) → j.val < s.nsD n → s.keyState (s.get CQE_NS_CFG.KSLOT n) ≠ 0 → s.rowLocked row = false → s.nsHasPi n = false → 4096 ≤
    s.dmf.port0.length → s.destageVer n (s.rowLba n row j) = none → s.encFails x.k = false → Completes (.encodeMember row j none false) s fun t =>
    Unchanged [] [.mpc, .dmf] [] s t ∧ t.encOf row = some { x with members := x.members ++ [(j.val, s.memberCoded n (s.rowLba n row j) (s.dmf.port0.take 4096) [])] }
    ∧ t.dmf.port0 = s.dmf.port0.drop 4096) ∧
  (∀ (s : State) (row : Fin (2 ^ 40)) (j : Fin 16) (n : Nat) (bs : List Byte), s.nsOfRow row = some n → s.mpc.enc = [] → j.val < s.nsD n → s.keyState (s.get
    CQE_NS_CFG.KSLOT n) ≠ 0 → s.rowLocked row = false → Completes (.encodeMember row j (some bs) false) s fun t => ChangesOnly [.MPC_VSN, .MPC_STAT] [.wrc,
    .mpc, .kpr] false s t ∧ t.mpc.enc.map (fun e => (e.k, e.row, e.tag)) = [(0, row.val, tagOf (s.get MPC_VSN.NEXT 0) (s.get MPC_KEY_STAT.KGEN (s.get
    CQE_NS_CFG.KSLOT n)))] ∧ t.mpc.enc.map (·.members) = [[(j.val, s.recordedCoded n (s.rowLba n row j) bs)]] ∧ t.get MPC_VSN.NEXT 0 = vsnNext (s.get
    MPC_VSN.NEXT 0) ∧ t.get MPC_STAT.ENC 0 = 1 ∧ t.wrc = { s.wrc with rows := s.wrc.rows.filter fun r => r.row != row.val }) ∧
  (∀ (s : State) (row : Fin (2 ^ 40)) (j : Fin 16) (n : Nat) (x : EncSlot) (y : Nat × List Byte) (r : Option (List Byte)) (lost : Bool), s.nsOfRow row = some
    n → s.encOf row = some x → (x.members.find? (fun e => e.1 == j.val) = some y) → j.val < s.nsD n → s.keyState (s.get CQE_NS_CFG.KSLOT n) ≠ 0 →
    s.rowLocked row = false → r ≠ none ∨ 4104 ≤ s.dmf.port0.length → Completes (.encodeMember row j r lost) s fun t => Unchanged [] [.wrc, .out, .dmf] [] s
    t ∧ t.out = .frame "SECTOR" "write member" ([row.val, j.val, x.tag] ++ y.2.map (·.toNat)) :: s.out ∧ t.dmf.port0 = (if r = none then s.dmf.port0.drop
    (if s.nsHasPi n then 4104 else 4096) else s.dmf.port0) ∧ t.encOf row = some x) ∧
  (∀ (s : State) (row : Fin (2 ^ 40)) (j : Fin 16) (n : Nat) (x : EncSlot), s.nsOfRow row = some n → s.encOf row = some x → s.encFails x.k = false →
    (x.members.find? (fun e => e.1 == j.val) = none) → j.val < s.nsD n → s.keyState (s.get CQE_NS_CFG.KSLOT n) ≠ 0 → s.rowLocked row = false → (if
    s.nsHasPi n then 4104 else 4096) ≤ s.dmf.port0.length → Completes (.encodeMember row j none false) s fun t => Unchanged [] [.mpc, .dmf] [] s t ∧
    (t.encOf row).map (·.members) = some (x.members ++ [(j.val, s.memberCoded n (s.rowLba n row j) (s.dmf.port0.take 4096) ((s.dmf.port0.take (if s.nsHasPi
    n then 4104 else 4096)).drop 4096))]) ∧ t.dmf.port0 = s.dmf.port0.drop (if s.nsHasPi n then 4104 else 4096)) ∧
  (∀ (s : State) (row : Fin (2 ^ 40)) (j : Fin 16) (n : Nat) (x : EncSlot) (bs : List Byte) (lost : Bool), s.nsOfRow row = some n → s.encOf row = some x →
    s.encFails x.k = false → (x.members.find? (fun e => e.1 == j.val) = none) → j.val < s.nsD n → s.keyState (s.get CQE_NS_CFG.KSLOT n) ≠ 0 → s.rowLocked
    row = false → lost = false ∨ s.cqe.unreadable.length < unreadableMax → Completes (.encodeMember row j (some bs) lost) s fun t => Unchanged [] [.mpc,
    .cqe] [] s t ∧ (t.encOf row).map (·.members) = some (x.members ++ [(j.val, s.recordedCoded n (s.rowLba n row j) bs)]) ∧ (lost = true → (n, s.rowLba n
    row j) ∈ t.cqe.unreadable)) ∧
  (∀ (s : State) (row : Fin (2 ^ 40)) (j : Fin 16) (n : Nat) (bs : List Byte) (lost : Bool), s.nsOfRow row = some n → s.encOf row = none → s.mpc.enc.length <
    16 → ((List.range 64).find? (fun k => !(s.mpc.enc.any fun e => e.k == k)) = some s.mpc.enc.length) → j.val < s.nsD n → s.keyState (s.get
    CQE_NS_CFG.KSLOT n) ≠ 0 → s.rowLocked row = false → lost = false ∨ s.cqe.unreadable.length < unreadableMax → Completes (.encodeMember row j (some bs)
    lost) s fun t => ChangesOnly [.MPC_VSN, .MPC_STAT] [.wrc, .mpc, .kpr, .cqe] false s t ∧ t.mpc.enc.length = s.mpc.enc.length + 1 ∧ (t.encOf row).map
    (fun e => (e.k, e.members)) = some (s.mpc.enc.length, [(j.val, s.recordedCoded n (s.rowLba n row j) bs)]) ∧ t.get MPC_VSN.NEXT 0 = vsnNext (s.get
    MPC_VSN.NEXT 0)) ∧
  (∀ (s : State) (row : Fin (2 ^ 40)) (n : Nat) (x : EncSlot), s.nsOfRow row = some n → s.encOf row = some x → x.k < 16 → x.ready = false → ((List.range
    (s.nsD n)).all (fun j => x.members.any fun y => y.1 == j) = true) → Completes (.parityReady row) s fun t => Unchanged [] [.mpc, .wrc, .out] [] s t ∧
    (t.encOf row).map (·.ready) = some true ∧ t.out.length = s.out.length + s.nsM n ∧ t.wrc.buffer.countP (fun h => h.row == row.val && decide (s.nsD n ≤
    h.j)) = s.nsM n) ∧
  (∀ (s : State) (row : Fin (2 ^ 40)) (n : Nat) (x : EncSlot), s.nsOfRow row = some n → s.encOf row = some x → 16 ≤ x.k → s.encFails x.k = false → x.ready =
    false → ((List.range (s.nsD n)).all (fun j => x.members.any fun y => y.1 == j) = true) → s.nsM n = 0 ∨ s.storeFault .mpc (s.get MPC_WORK_BASE.ADDR 0 *
    65536 + 0x500000 + (x.k - 16) * 20480) 16416 = none → Completes (.parityReady row) s fun t => (t.encOf row).map (·.ready) = some true ∧ t.out.length =
    s.out.length + s.nsM n) ∧
  (∀ (s : State) (row : Fin (2 ^ 40)) (j : Fin 16) (stt : Fin 4) (kd : Fin 4) (bs : List Byte) (rel : List (Fin 16)) (crcs : List (Fin 16 × Word)) (n : Nat),
    s.nsOfRow row = some n → s.normalService = true → Completes (.memberArrival row j stt kd bs rel crcs) s fun t => t.rdc.unrec = [] ∧ (stt.val < 2 →
    s.ctxOf row = none → t.ctxOf row = none) ∧ (2 ≤ stt.val → s.nsM n ≠ 0 → s.ctxOf row = none → s.ctxRoom kd = false → Out.event "read again" [row.val,
    j.val] ∈ t.out ∧ t.mpc.ctxs.length ≤ s.mpc.ctxs.length)) ∧
  (∀ (s : State) (row : Fin (2 ^ 40)) (j : Fin 16) (stt : Fin 4) (kd : Fin 4) (bs : List Byte) (rel : List (Fin 16)) (crcs : List (Fin 16 × Word)) (n : Nat)
    (k : Nat) (x : RCtx), s.nsOfRow row = some n → s.normalService = true → stt.val < 2 → s.ctxOf row = some (k, x) → (x.members.any (fun y => y.j == j.val
    && y.st == 1) = false) → (x.handed.any (fun e => e.1 == j.val) = false) → s.recordFails k (s.nsM n) x = false → x.failed = false → (s.solved { x with members := x.members.filter (fun e => e.j != j.val) ++ [{ j := j.val, st := 1, bytes := bs }] }
    (s.nsD n) (s.nsM n) 0 = none) → Completes (.memberArrival row j stt kd bs rel crcs) s fun t => t.rdc.unrec = [] ∧ (∀ c ∈ t.mpc.ctxs, c.2.row = row.val
    → (c.2.members.find? fun m => m.j == j.val).map (·.st) = some 1)) ∧
  (∀ (s : State) (row : Fin (2 ^ 40)) (n : Nat) (x : EncSlot), s.nsOfRow row = some n → s.mpc.enc = [x] → x.row = row.val → x.ready = false → s.encFails x.k =
    false → ((List.range (s.nsD n)).all (fun j => x.members.any fun y => y.1 == j) = true) → Completes (.parityReady row) s fun t => Unchanged [] [.mpc,
    .wrc, .out] [] s t ∧ t.mpc.enc.map (·.ready) = [true] ∧ t.mpc.enc.map (·.members) = [x.members] ∧ t.mpc.enc.map (fun e => e.parity.map (·.1)) =
    [(List.range 16).filter fun j => decide (s.nsD n ≤ j)] ∧ t.out.length = s.out.length + s.nsM n)

/-- A command that writes a field of the Keeper's is turned away where another master sends it and it would change the field or act: it raises source 16 with
the register's address, counts in the block's RWK_DENY, and does nothing else. (Stated for an event that is not severe.) -/
def Obligations.KeeperOnlyCommands : Prop :=
  (∀ (s : State) (m : Master), m ≠ .keeper → s.quiet 16 → Completes (.resume m) s fun t => Unchanged ((.BLK_LOCK, 0) :: countRegs 16) [.fcu] [] s t ∧ Denied m
    .PTM_CW_CTL 0 s t) ∧
  (∀ (s : State) (m : Master), m ≠ .keeper → s.quiet 16 → Completes (.requestActive m) s fun t => Unchanged ((.BLK_LOCK, 0) :: countRegs 16) [.fcu] [] s t ∧
    Denied m .PTM_MODE_CTL 0 s t) ∧
  (∀ (s : State) (m : Master), m ≠ .keeper → s.quiet 16 → Completes (.requestIdleI1 m) s fun t => Unchanged ((.BLK_LOCK, 0) :: countRegs 16) [.fcu] [] s t ∧
    Denied m .PTM_MODE_CTL 0 s t) ∧
  (∀ (s : State) (m : Master), m ≠ .keeper → s.quiet 16 → Completes (.requestIdleI2 m) s fun t => Unchanged ((.BLK_LOCK, 0) :: countRegs 16) [.fcu] [] s t ∧
    Denied m .PTM_MODE_CTL 0 s t) ∧
  (∀ (s : State) (m : Master), m ≠ .keeper → s.quiet 16 → Completes (.requestIdleI3 m) s fun t => Unchanged ((.BLK_LOCK, 0) :: countRegs 16) [.fcu] [] s t ∧
    Denied m .PTM_MODE_CTL 0 s t) ∧
  (∀ (s : State) (m : Master), m ≠ .keeper → s.quiet 16 → Completes (.requestStandby m) s fun t => Unchanged ((.BLK_LOCK, 0) :: countRegs 16) [.fcu] [] s t ∧
    Denied m .PTM_MODE_CTL 0 s t) ∧
  (∀ (s : State) (m : Master), m ≠ .keeper → s.quiet 16 → Completes (.requestRetention m) s fun t => Unchanged ((.BLK_LOCK, 0) :: countRegs 16) [.fcu] [] s t
    ∧ Denied m .PTM_MODE_CTL 0 s t) ∧
  (∀ (s : State) (m : Master), m ≠ .keeper → s.quiet 16 → Completes (.requestService m) s fun t => Unchanged ((.BLK_LOCK, 0) :: countRegs 16) [.fcu] [] s t ∧
    Denied m .PTM_MODE_CTL 0 s t) ∧
  (∀ (s : State) (m : Master), m ≠ .keeper → s.quiet 16 → Completes (.safeEnter m) s fun t => Unchanged ((.BLK_LOCK, 0) :: countRegs 16) [.fcu] [] s t ∧
    Denied m .PTM_SAFE_CTL 0 s t) ∧
  (∀ (s : State) (m : Master), m ≠ .keeper → s.quiet 16 → Completes (.safeExit m) s fun t => Unchanged ((.BLK_LOCK, 0) :: countRegs 16) [.fcu] [] s t ∧ Denied
    m .PTM_SAFE_CTL 0 s t) ∧
  (∀ (s : State) (m : Master), m ≠ .keeper → s.quiet 16 → Completes (.fcuReload m) s fun t => Unchanged ((.BLK_LOCK, 1) :: countRegs 16) [.fcu] [] s t ∧
    Denied m .FCU_RELOAD 0 s t) ∧
  (∀ (s : State) (m : Master), m ≠ .keeper → s.quiet 16 → Completes (.resumed m) s fun t => Unchanged ((.BLK_LOCK, 4) :: countRegs 16) [.fcu] [] s t ∧ Denied
    m .PCX_KPR_CTL 0 s t) ∧
  (∀ (s : State) (m : Master), m ≠ .keeper → s.quiet 16 → Completes (.almPost m) s fun t => Unchanged ((.BLK_LOCK, 2) :: countRegs 16) [.fcu] [] s t ∧ Denied
    m .ALM_CTL 0 s t) ∧
  (∀ (s : State) (m : Master), m ≠ .keeper → s.quiet 16 → Completes (.almCtlClear m) s fun t => Unchanged ((.BLK_LOCK, 2) :: countRegs 16) [.fcu] [] s t ∧
    Denied m .ALM_CTL 0 s t) ∧
  (∀ (s : State) (m : Master), m ≠ .keeper → s.quiet 16 → Completes (.spnStart m) s fun t => Unchanged ((.BLK_LOCK, 13) :: countRegs 16) [.fcu] [] s t ∧
    Denied m .SPN_STAT 0 s t) ∧
  (∀ (s : State) (m : Master), m ≠ .keeper → s.quiet 16 → Completes (.spnStop m) s fun t => Unchanged ((.BLK_LOCK, 13) :: countRegs 16) [.fcu] [] s t ∧ Denied
    m .SPN_STAT 0 s t) ∧
  (∀ (s : State) (m : Master), m ≠ .keeper → s.quiet 16 → Completes (.splPlanSubmit m) s fun t => Unchanged ((.BLK_LOCK, 15) :: countRegs 16) [.fcu] [] s t ∧
    Denied m .SPL_PLAN_CTL 0 s t) ∧
  (∀ (s : State) (m : Master), m ≠ .keeper → s.quiet 16 → Completes (.relaySend m) s fun t => Unchanged ((.BLK_LOCK, 15) :: countRegs 16) [.fcu] [] s t ∧
    Denied m .SPL_RLY_CTL 0 s t) ∧
  (∀ (s : State) (m : Master), m ≠ .keeper → s.quiet 16 → Completes (.relayPop m) s fun t => Unchanged ((.BLK_LOCK, 15) :: countRegs 16) [.fcu] [] s t ∧
    Denied m .SPL_RLY_CTL 0 s t) ∧
  (∀ (s : State) (m : Master) (i : Fin 384), m ≠ .keeper → s.quiet 16 → Completes (.clrCnt m i) s fun t => Unchanged ((.BLK_LOCK, 1) :: countRegs 16) [.fcu]
    [] s t ∧ Denied m .FCU_SRC_STAT i s t) ∧
  (∀ (s : State) (m : Master) (n : Fin 8), m ≠ .keeper → s.quiet 16 → n.val ≠ 7 → Completes (.ferryTake m n) s fun t => Unchanged ((.BLK_LOCK, 4) :: countRegs
    16) [.fcu] [] s t ∧ Denied m .PCX_FRY_KCTL n s t) ∧
  (∀ (s : State) (m : Master) (n : Fin 8) (e : BitVec 8), m ≠ .keeper → s.quiet 16 → n.val ≠ 7 → Completes (.ferryDone m n e) s fun t => Unchanged
    ((.BLK_LOCK, 4) :: countRegs 16) [.fcu] [] s t ∧ Denied m .PCX_FRY_KCTL n s t) ∧
  (∀ (s : State) (m : Master) (cls : Fin 2) (item : BitVec 8) (head : Fin 32), m ≠ .keeper → s.quiet 16 → Completes (.calGo m cls item head) s fun t =>
    Unchanged ((.BLK_LOCK, 3) :: countRegs 16) [.fcu] [] s t ∧ Denied m .SVC_CAL_CTL 0 s t) ∧
  (∀ (s : State) (m : Master) (i : Fin 256) (r : BitVec 16), m ≠ .keeper → s.quiet 16 → Completes (.repairGo m i r) s fun t => Unchanged ((.BLK_LOCK, 3) ::
    countRegs 16) [.fcu] [] s t ∧ Denied m .SVC_REPAIR 0 s t) ∧
  (∀ (s : State) (m : Master) (n : BitVec 20), m ≠ .keeper → s.quiet 16 → Completes (.mntClean m n) s fun t => Unchanged ((.BLK_LOCK, 7) :: countRegs 16)
    [.fcu] [] s t ∧ Denied m .BMU_MNT_CTL 0 s t) ∧
  (∀ (s : State) (m : Master) (n : BitVec 20), m ≠ .keeper → s.quiet 16 → Completes (.mntInvalidate m n) s fun t => Unchanged ((.BLK_LOCK, 7) :: countRegs 16)
    [.fcu] [] s t ∧ Denied m .BMU_MNT_CTL 0 s t) ∧
  (∀ (s : State) (m : Master) (n : BitVec 20), m ≠ .keeper → s.quiet 16 → Completes (.mntCleanInvalidate m n) s fun t => Unchanged ((.BLK_LOCK, 7) ::
    countRegs 16) [.fcu] [] s t ∧ Denied m .BMU_MNT_CTL 0 s t) ∧
  (∀ (s : State) (m : Master) (k : BitVec 16), m ≠ .keeper → s.quiet 16 → s.get BMU_WAY_PWR.OFF_REQ 0 ≠ k.toNat → Completes (.wayOffRequest m k) s fun t =>
    Unchanged ((.BLK_LOCK, 7) :: countRegs 16) [.fcu] [] s t ∧ Denied m .BMU_WAY_PWR 0 s t) ∧
  (∀ (s : State) (m : Master), m ≠ .keeper → s.quiet 16 → s.on BMU_CC_CTL.ENABLE 0 = true → Completes (.cacheDisable m) s fun t => Unchanged ((.BLK_LOCK, 7)
    :: countRegs 16) [.fcu] [] s t ∧ Denied m .BMU_CC_CTL 0 s t) ∧
  (∀ (s : State) (m : Master), m ≠ .keeper → s.quiet 16 → s.on BMU_CC_CTL.ENABLE 0 = false → Completes (.cacheEnable m) s fun t => Unchanged ((.BLK_LOCK, 7)
    :: countRegs 16) [.fcu] [] s t ∧ Denied m .BMU_CC_CTL 0 s t) ∧
  (∀ (s : State) (m : Master) (n : Fin 128), m ≠ .keeper → s.quiet 16 → Completes (.discardGo m n) s fun t => Unchanged ((.BLK_LOCK, 7) :: countRegs 16)
    [.fcu] [] s t ∧ Denied m .BMU_DISCARD 0 s t) ∧
  (∀ (s : State) (m : Master) (k : Fin 128) (g : Fin 64) (he : Bool), m ≠ .keeper → s.quiet 16 → Completes (.keyLoad m k g he) s fun t => Unchanged
    ((.BLK_LOCK, 9) :: countRegs 16) [.fcu] [] s t ∧ Denied m .MPC_KEY_CTL 0 s t) ∧
  (∀ (s : State) (m : Master) (k : Fin 128), m ≠ .keeper → s.quiet 16 → Completes (.keyLock m k) s fun t => Unchanged ((.BLK_LOCK, 9) :: countRegs 16) [.fcu]
    [] s t ∧ Denied m .MPC_KEY_CTL 0 s t) ∧
  (∀ (s : State) (m : Master) (k : Fin 128), m ≠ .keeper → s.quiet 16 → Completes (.keyUnlock m k) s fun t => Unchanged ((.BLK_LOCK, 9) :: countRegs 16)
    [.fcu] [] s t ∧ Denied m .MPC_KEY_CTL 0 s t) ∧
  (∀ (s : State) (m : Master) (k : Fin 128), m ≠ .keeper → s.quiet 16 → Completes (.keyZeroise m k) s fun t => Unchanged ((.BLK_LOCK, 9) :: countRegs 16)
    [.fcu] [] s t ∧ Denied m .MPC_KEY_CTL 0 s t) ∧
  (∀ (s : State) (m : Master) (u : Fin 12) (k : BitVec 4), m ≠ .keeper → s.quiet 16 → s.get SVE_CLU_CTL.COMMIT u ||| k.toNat ≠ s.get SVE_CLU_CTL.COMMIT u →
    Completes (.cluCommit m u k) s fun t => Unchanged ((.BLK_LOCK, 12) :: countRegs 16) [.fcu] [] s t ∧ Denied m .SVE_CLU_CTL u s t) ∧
  (∀ (s : State) (m : Master) (v : BitVec 14), m ≠ .keeper → s.quiet 16 → s.get SPN_CTL.SPD_SET 0 ≠ v.toNat → Completes (.spdSetWrite m v) s fun t =>
    Unchanged ((.BLK_LOCK, 13) :: countRegs 16) [.fcu] [] s t ∧ Denied m .SPN_CTL 0 s t) ∧
  (∀ (s : State) (m : Master) (k : BitVec 3), m ≠ .keeper → s.quiet 16 → s.get SPN_COMMIT.COMMIT 0 ||| k.toNat ≠ s.get SPN_COMMIT.COMMIT 0 → Completes
    (.spnCommit m k) s fun t => Unchanged ((.BLK_LOCK, 13) :: countRegs 16) [.fcu] [] s t ∧ Denied m .SPN_COMMIT 0 s t) ∧
  (∀ (s : State) (m : Master), m ≠ .keeper → s.quiet 16 → s.on SPL_CFG.EN 0 = false → Completes (.splEnable m) s fun t => Unchanged ((.BLK_LOCK, 15) ::
    countRegs 16) [.fcu] [] s t ∧ Denied m .SPL_CFG 0 s t) ∧
  (∀ (s : State) (m : Master), m ≠ .keeper → s.quiet 16 → s.on SPL_CFG.EN 0 = true → Completes (.splDisable m) s fun t => Unchanged ((.BLK_LOCK, 15) ::
    countRegs 16) [.fcu] [] s t ∧ Denied m .SPL_CFG 0 s t) ∧
  (∀ (s : State) (m : Master) (a : Fin 4) (v : Word), m ≠ .keeper → s.quiet 16 → s.reg .SVE_SLOT_MAP a ≠ BitVec.ofNat 64 (v.toNat % 2 ^ 20) → Completes
    (.slotMapWrite m a v) s fun t => Unchanged ((.BLK_LOCK, 12) :: countRegs 16) [.fcu] [] s t ∧ Denied m .SVE_SLOT_MAP a s t) ∧
  (∀ (s : State) (m : Master) (h : Fin 24) (v : Word), m ≠ .keeper → s.quiet 16 → s.get SVE_HEAD_STATE.STATE h ≠ v.toNat % 8 → Completes (.headStateWrite m h
    v) s fun t => Unchanged ((.BLK_LOCK, 12) :: countRegs 16) [.fcu] [] s t ∧ Denied m .SVE_HEAD_STATE h s t) ∧
  (∀ (s : State) (m : Master) (c : Fin 4) (run : Bool) (e : Fin 4), m ≠ .keeper → s.quiet 16 → s.on PCX_CORE_CTL.RUN c ≠ run ∨ s.get PCX_CORE_CTL.HEIR c ≠
    e.val → Completes (.coreRun m c run e) s fun t => Unchanged ((.BLK_LOCK, 4) :: countRegs 16) [.fcu] [] s t ∧ Denied m .PCX_CORE_CTL c s t) ∧
  (∀ (s : State) (m : Master) (i : Fin 512), m ≠ .keeper → s.quiet 16 → sourceReserved i = false → s.ownerMayAck m i = false → Completes (.fcuAck m i) s fun t
    => Unchanged ((.BLK_LOCK, 1) :: countRegs 16) [.fcu] [] s t ∧ Denied m .FCU_ACK 0 s t) ∧
  (∀ (s : State) (m : Master) (v k : Bool), m ≠ .keeper → s.quiet 16 → v = true ∨ k = true → m.isApp = false ∨ s.appOwned (s.get FCU_FEC_INFO.SRC 0) = false →
    Completes (.captureClear m v k) s fun t => Unchanged ((.BLK_LOCK, 1) :: countRegs 16) [.fcu] [] s t ∧ Denied m .FCU_FEC_INFO 0 s t)

/-- After reset no command waits, the state is well-formed, and registers of every group read as the Reset columns give: the mode is BOOT with no transition
and no safe state, Meridian time is 0, no source has counted, namespaces are FREE and key slots EMPTY, the ways are on, the actuators UNLOADED, the heads
as SLOT_MAP leaves them ABSENT, the spindle OFF at 7,200 rpm, the member OFF, Ferry's channels EMPTY. -/
def Obligations.ResetState : Prop :=
  (State.reset.pending = []) ∧
  (State.reset.wf = true) ∧
  (State.reset.get PTM_MODE_STAT.MODE 0 = mBoot) ∧
  (State.reset.get PTM_MODE_STAT.TRANS 0 = 0) ∧
  (State.reset.get PTM_MODE_STAT.SAFE 0 = 0) ∧
  (State.reset.get PTM_MER_TIME.TIME 0 = 0) ∧
  ((∀ i < 384, State.reset.get FCU_SRC_STAT.WCNT i = 0)) ∧
  (State.reset.get FCU_SELF.RELOADED 0 = 1) ∧
  (State.reset.get CQE_AGE.AGE_LIM 0 = 100) ∧
  ((∀ i < 128, State.reset.get CQE_NS_CFG.STATE i = 0)) ∧
  (State.reset.get BMU_WAY_PWR.ON 0 = 0xFFFF) ∧
  (State.reset.get DMF_CFG.NOPROG 0 = 10) ∧
  (State.reset.get MPC_VSN.NEXT 0 = 1) ∧
  ((∀ i < 128, State.reset.get MPC_KEY_STAT.STATE i = 0)) ∧
  ((∀ i < 32, State.reset.get RDC_LANE_AFE.GAIN i = 0x28)) ∧
  ((∀ i < 16, State.reset.get RDC_HP_DEC.ITER_MAX i = 0x14)) ∧
  (State.reset.get WRC_CFG.OT_PCT 0 = 0x0C) ∧
  (State.reset.get SVE_SV_CFG.MISS_N 0 = 4) ∧
  ((∀ i < 4, State.reset.get SVE_SEEK_STAT.STATE i = 6)) ∧
  (State.reset.get SVE_TRK_STAT.STATE 0 = 3) ∧
  ((∀ i < 24, State.reset.get SVE_HEAD_STATE.STATE i = 0)) ∧
  (State.reset.get SPN_CTL.SPD_SET 0 = 7200) ∧
  (State.reset.get SPN_STAT.STATE 0 = spOff) ∧
  (State.reset.get SPL_MER_STAT.HOPS 0 = 0x3FF) ∧
  (State.reset.get SPL_STAT.STATE 0 = 0) ∧
  ((∀ i < 8, State.reset.get PCX_FRY_STAT.STATE i = fyEmpty))

/-- A step of a state with command c at the front of its queue is exec of c on the state with the queue's rest (the model's queue: assumption log 4). -/
def Obligations.StepRunsCommand : Prop :=
  ∀ (c : Instr) (rest : List Instr) (s : State), step { s with pending := c :: rest } = exec c { s with pending := rest }

/-- With no command waiting a step goes on to a next state with none waiting; in RETENTION, and while the part is off, Meridian time stands; outside BOOT, with
the part on and no reset waiting, it advances by one, modulo 2^64. (The tick as the step of an empty queue is the model's choice: assumption log 4.) -/
def Obligations.IdleTick : Prop :=
  (∀ s : State, s.pending = [] → ∃ t, step s = .next t ∧ t.pending = []) ∧
  (∀ s : State, s.pending = [] → (s.ptm.powered = false ∨ s.ptm.retention = true) → ∃ t, step s = .next t ∧ t.ptm.ticks = s.ptm.ticks + 1 ∧ t.time = s.time) ∧
  (∀ s : State, s.pending = [] → s.ptm.powered = true → s.ptm.retention = false → s.mode ≠ mBoot → s.ptm.resetPend = none → s.ptm.target = none →
    s.ptm.seqStep = 0 → s.ptm.plStep = 0 → ∃ t, step s = .next t ∧ t.time = (s.time + 1) % 2 ^ 64)

/-- In every state whose register file and memory are in their one form (addresses strictly rising, nothing listed that reads as it would unlisted), a step
answers a next state, and that state is in the form again. -/
def Obligations.StepKeepsForm : Prop :=
  ∀ s : State, s.wf = true → safeStep s

/-- Every command in every state answers a next state; the commands waiting are the same, what has left the part stays in order with anything new before it,
and free values once given are not given again. -/
def Obligations.CommandsGoOn : Prop :=
  ∀ (c : Instr) (s : State), ∃ t, exec c s = .next t ∧ t.pending = s.pending ∧ s.out <:+ t.out ∧ s.freeCtr ≤ t.freeCtr

/-- After a store of bytes, memory reads as stored in its range and as before elsewhere; no register changes, and of the hidden state only the buffer cache's
lines and poison marks. -/
def Obligations.StoreReadsBack : Prop :=
  ∀ (a : Nat) (bs : List Byte) (s : State), ((memBytes a bs).run s).bytes a bs.length = bs ∧ (∀ x, ¬(a ≤ x ∧ x < a + bs.length) → ((memBytes a bs).run
    s).byte x = s.byte x) ∧ ((memBytes a bs).run s).regs = s.regs ∧ ∀ p : Part, p ≠ .bmu → p.same s ((memBytes a bs).run s)

/-- Every element of every register of a block lies in that block, its low word is what its address names, and its high word what the address four above names
where it is a 64-bit register; an address of a block names at most the register word that lies there; the common registers of the sixteen blocks lie at
their place. -/
def Obligations.RegisterAddresses : Prop :=
  (∀ b < 16, ∀ r ∈ regsOfBlock b, ∀ i < dimSize (regInfo r).dims, (regInfo r).block = b ∧ regBase ≤ regAddr r i ∧ regWordAt (regAddr r i - regBase) = some (r,
    i, false) ∧ ((regInfo r).wide = true → regWordAt (regAddr r i - regBase + 4) = some (r, i, true))) ∧
  (∀ (o : Nat) (r : RegName) (i : Nat) (h : Bool), o < 0x1000000 → 4 ∣ o → regWordAt o = some (r, i, h) → regAddr r i + (if h then 4 else 0) = regBase + o) ∧
  (∀ r ∈ [RegName.BLK_ID, .BLK_VER, .BLK_IRQ, .BLK_LOCK], ∀ i < 16, regWordAt (regAddr r i - regBase) = some (r, i, false))

/-- Every element of every 64-bit register lies at an offset in its block that is a multiple of 8. -/
def Obligations.WideRegisters : Prop :=
  ∀ (r : RegName) (i : Nat), (regInfo r).wide = true → i < dimSize (regInfo r).dims → (regAddr r i - regBase) % 0x100000 % 8 = 0

/-- A write of a source number from 320 to 383 to FCU_RAISE, by the Keeper or an application core, raises one event of that source; a write naming any other
source is discarded. An event that is not severe is counted and captured as of a software source and has no further effect. -/
def Obligations.SoftwareFaults : Prop :=
  (∀ (m : Master) (i : Fin 512) (s : State), m.isCore = true → 320 ≤ i.val → i.val ≤ 383 → exec (.fcuRaise m i) s = .next ((raise i (detail 0)).run s)) ∧
  (∀ (s : State) (m : Master) (i : Fin 512), m.isCore = true → 320 ≤ i.val ∧ i.val ≤ 383 → s.quiet i → Completes (.fcuRaise m i) s fun t => Unchanged
    (countRegs i) [.fcu] [] s t ∧ Counted i (detail 0) s t) ∧
  (∀ (m : Master) (i : Fin 512) (s : State), ¬(320 ≤ i.val ∧ i.val ≤ 383) → exec (.fcuRaise m i) s = .next s)

/-- Member j of row g lies on head path (j + g) mod 16, and each path of a row holds one member; the D data members and the m parity members of a row are
sixteen, data member d of namespace row r holds LBA r × D + d, and that LBA is found there and nowhere else; from row to row a member moves to the next
path, so each member lies on every path once in sixteen rows. -/
def Obligations.RowLayout : Prop :=
  (∀ g j, j < 16 → memberPath g j = (j + g) % 16 ∧ pathMember g (memberPath g j) = j) ∧
  (∀ g p, p < 16 → pathMember g p < 16 ∧ memberPath g (pathMember g p) = p) ∧
  (∀ g j, memberPath (g + 1) j = (memberPath g j + 1) % 16) ∧
  (∀ g j p, j < 16 → p < 16 → ∃ k < 16, memberPath (g + k) j = p ∧ ∀ k' < 16, memberPath (g + k') j = p → k' = k) ∧
  (∀ (s : State) (n : Nat), 12 ≤ s.nsD n ∧ s.nsD n ≤ 16 ∧ s.nsD n + s.nsM n = 16) ∧
  (∀ (s : State) (n r d : Nat), d < s.nsD n → s.rowLba n (s.nsRow0 n + r) d = r * s.nsD n + d) ∧
  (∀ (s : State) (n g d l : Nat), s.nsRow0 n ≤ g → d < s.nsD n → (s.rowLba n g d = l ↔ s.lbaRow n l = g ∧ s.lbaMember n l = d))

/-- The next SEQ is LAST_SEQ + 1, and 255 is followed by 1; it runs from 1 to 255. A POST that carries it is taken on an EMPTY or DONE channel, and the result
header then holds it; a POST that carries another, 0 among them, is not taken in any state, so that no exchange has SEQ 0. -/
def Obligations.PostedSequence : Prop :=
  (∀ (s : State) (n : Nat), (s.get PCX_FRY_STAT.LAST_SEQ n ≠ 255 → s.nextSeq n = s.get PCX_FRY_STAT.LAST_SEQ n + 1) ∧ (s.get PCX_FRY_STAT.LAST_SEQ n = 255 →
    s.nextSeq n = 1) ∧ 1 ≤ s.nextSeq n ∧ s.nextSeq n ≤ 255) ∧
  (∀ (s : State) (m : Master) (n : Fin 8) (q : BitVec 8), n.val ≠ 7 → s.ferryRequester m n = true → s.fySt n = fyEmpty ∨ s.fySt n = fyDone → q.toNat =
    s.nextSeq n → Completes (.ferryPost m n q) s fun t => Unchanged [(.PCX_FRY_STAT, n.val), (.PCX_FRY_RES, 64 * n.val)] [.kpr] [] s t ∧ t.fySt n =
    fyPosted ∧ t.get PCX_FRY_STAT.LAST_SEQ n = q.toNat ∧ nbits (t.get PCX_FRY_RES.W (64 * n)) 7 0 = q.toNat ∧ q.toNat ≠ 0) ∧
  (∀ (s : State) (m : Master) (n : Fin 8) (q : BitVec 8), n.val ≠ 7 → s.ferryRequester m n = true → q.toNat ≠ s.nextSeq n → Completes (.ferryPost m n q) s fun
    t => Unchanged [(.PCX_FRY_STAT, n.val)] [] [] s t ∧ t.get PCX_FRY_STAT.DB_ERR n = 1 ∧ t.fySt n = s.fySt n ∧ t.get PCX_FRY_STAT.LAST_SEQ n = s.get
    PCX_FRY_STAT.LAST_SEQ n)

/-- For 1, 2 and 4 parity members: whatever bytes the data members of a column hold, with the parity bytes that the encoder finds for the last m members the
first m sums of the column over all sixteen members are 0. -/
def Obligations.ParityEncodes : Prop :=
  ∀ m ∈ [1, 2, 4], ∀ xs : List Byte, xs.length = 16 - m → ∀ i < m, syndrome i (((List.range (16 - m)).zip xs) ++ ((List.range m).map (16 - m + ·)).map fun a
    => (a, eraseByte ((List.range m).map (16 - m + ·)) (eraseCoeffs ((List.range m).map (16 - m + ·)) a) ((List.range (16 - m)).zip xs))) = 0
end

