-- ==== Sys2Proof/Laws/Bits.lean ====
section
/-! SUPPORT. Bit fields: a read after a write of the same field, and of a field that does not overlap it. -/
namespace Sys2Proof.Machine

theorem getBits_eq (v : DWord) (hi lo k : Nat) : (getBits v hi lo).testBit k = (decide (k < hi + 1 - lo) && v.getLsbD (lo + k)) := by
  simp [getBits, Nat.testBit_mod_two_pow, Nat.testBit_shiftRight, BitVec.getLsbD]

theorem setBits_bit (v : DWord) (hi lo x k : Nat) (hk : k < 64) :
    (setBits v hi lo x).getLsbD k = if lo ≤ k ∧ k ≤ hi then x.testBit (k - lo) else v.getLsbD k := by
  have h1 : ∀ j, (BitVec.ofNat 64 (2 ^ (hi + 1 - lo) - 1)).getLsbD j = (decide (j < 64) && decide (j < hi + 1 - lo)) := by
    intro j
    simp [BitVec.getLsbD_ofNat, Nat.testBit_two_pow_sub_one]
  simp only [setBits, BitVec.getLsbD_or, BitVec.getLsbD_and, BitVec.getLsbD_not, BitVec.getLsbD_shiftLeft, h1, BitVec.getLsbD_ofNat, hk, decide_true,
    Bool.true_and]
  by_cases h2 : lo ≤ k
  · by_cases h3 : k ≤ hi
    · have e1 : decide (k < lo) = false := by simp; omega
      have e2 : decide (k - lo < hi + 1 - lo) = true := by simp; omega
      have e3 : decide (k - lo < 64) = true := by simp; omega
      simp [h2, h3, e1, e2, e3]
    · have e2 : decide (k - lo < hi + 1 - lo) = false := by simp; omega
      simp [h3, e2]
  · have e1 : decide (k < lo) = true := by simp; omega
    simp [h2, e1]

/-- A field reads as what was last written to it, within its width. -/
theorem getBits_setBits_self (v : DWord) (hi lo x : Nat) (h : hi < 64) : getBits (setBits v hi lo x) hi lo = x % 2 ^ (hi + 1 - lo) := by
  apply Nat.eq_of_testBit_eq
  intro k
  rw [getBits_eq, Nat.testBit_mod_two_pow]
  by_cases hk : k < hi + 1 - lo
  · rw [setBits_bit v hi lo x (lo + k) (by omega)]
    have : lo ≤ lo + k ∧ lo + k ≤ hi := by omega
    simp [hk, this]
  · simp [hk]

/-- A field keeps its value when one that does not overlap it is written. -/
theorem getBits_setBits_disj (v : DWord) (hi lo hi' lo' x : Nat) (h' : hi' < 64) (hd : hi < lo' ∨ hi' < lo) :
    getBits (setBits v hi lo x) hi' lo' = getBits v hi' lo' := by
  apply Nat.eq_of_testBit_eq
  intro k
  rw [getBits_eq, getBits_eq]
  by_cases hk : k < hi' + 1 - lo'
  · rw [setBits_bit v hi lo x (lo' + k) (by omega)]
    have : ¬(lo ≤ lo' + k ∧ lo' + k ≤ hi) := by omega
    simp [this]
  · simp [hk]

/-- A field lies within its width. -/
theorem getBits_lt (v : DWord) (hi lo : Nat) : getBits v hi lo < 2 ^ (hi + 1 - lo) := Nat.mod_lt _ (by positivity)

end Sys2Proof.Machine
end

