-- ==== Sys2Proof/Laws/Bytes.lean ====
section
/-! SUPPORT. Numbers as bytes, and the sector CRC of R118: what is written with its CRC reads as matching. -/
namespace Sys2Proof.Machine

@[simp] theorem leBytes_length (n v : Nat) : (leBytes n v).length = n := by
  induction n generalizing v with
  | zero => rfl
  | succ n ih => simp [leBytes, ih]

theorem ofLeBytes_leBytes (n v : Nat) (h : v < 256 ^ n) : ofLeBytes (leBytes n v) = v := by
  induction n generalizing v with
  | zero => simp at h; subst h; rfl
  | succ n ih =>
    rw [pow_succ] at h
    have e := ih (v / 256) (by omega)
    simp only [leBytes, ofLeBytes, e, BitVec.toNat_ofNat]
    omega

theorem sectorCrcBytes_append (g j : Nat) (l r : List Byte) (h : l.length = 4108) : sectorCrcBytes g j (l ++ r) = sectorCrcBytes g j l := by
  simp only [sectorCrcBytes, ← h, List.take_left', List.take_length]

theorem sectorCrcOk_append (g j : Nat) (l : List Byte) (h : l.length = 4108) :
    sectorCrcOk g j (l ++ leBytes 4 (crc32 (sectorCrcBytes g j l)).toNat) = true := by
  have hl : (crc32 (sectorCrcBytes g j l)).toNat < 256 ^ 4 := (crc32 (sectorCrcBytes g j l)).isLt
  have hd : (l ++ leBytes 4 (crc32 (sectorCrcBytes g j l)).toNat).drop 4108 = leBytes 4 (crc32 (sectorCrcBytes g j l)).toNat := by
    rw [← h, List.drop_left']; rfl
  have hn : (l ++ leBytes 4 (crc32 (sectorCrcBytes g j l)).toNat).length = 4112 := by
    rw [List.length_append, leBytes_length, h]
  simp only [sectorCrcOk, hd, hn, ofLeBytes_leBytes 4 _ hl, sectorCrcBytes_append g j l _ h, decide_true, beq_self_eq_true, Bool.and_self]

theorem decodeGood_of (d : Decode) (g j : Nat) (l : List Byte) (h : l.length = 4108) (hu : d.unsat.val = 0)
    (hb : d.bytes = l ++ leBytes 4 (crc32 (sectorCrcBytes g j l)).toNat) : decodeGood d g j = true := by
  rw [decodeGood, hb, sectorCrcOk_append g j l h, hu]; rfl

end Sys2Proof.Machine
end

