-- ==== Sys2Proof/Laws/Sparse.lean ====
section
/-! SUPPORT. The sparse tables of registers and memory: a read after a write, and the one form that every write keeps. -/
namespace Sys2Proof.Machine

@[simp] theorem Sparse.get_nil {α : Type} (d : α) (a : Nat) : Sparse.get d [] a = d := rfl

theorem Sparse.get_filter_ne {α : Type} (d : α) (l : List (Nat × α)) (a b : Nat) (h : b ≠ a) :
    Sparse.get d (l.filter fun e => e.1 != a) b = Sparse.get d l b := by
  induction l with
  | nil => rfl
  | cons e l ih =>
    obtain ⟨k, v⟩ := e
    by_cases hk : k = a
    · subst hk; simp [Sparse.get, ih, Ne.symm h]
    · simp [hk, Sparse.get, ih]

/-- A table keeps what a filter that keeps key `a` leaves there. -/
theorem Sparse.get_filter {α : Type} (d : α) (l : List (Nat × α)) (q : Nat × α → Bool) (a : Nat) (h : ∀ v, q (a, v) = true) :
    Sparse.get d (l.filter q) a = Sparse.get d l a := by
  induction l with
  | nil => rfl
  | cons e l ih =>
    obtain ⟨k, v⟩ := e
    by_cases hk : k = a
    · subst hk; simp [Sparse.get, h]
    · by_cases hq : q (k, v) = true
      · simp [Sparse.get, hq, hk, ih]
      · simp [Sparse.get, hq, hk, ih]

theorem Sparse.get_filter_self {α : Type} (d : α) (l : List (Nat × α)) (a : Nat) :
    Sparse.get d (l.filter fun e => e.1 != a) a = d := by
  induction l with
  | nil => rfl
  | cons e l ih =>
    obtain ⟨k, v⟩ := e
    by_cases hk : k = a
    · subst hk; simp [ih]
    · simp [hk, Sparse.get, ih]

theorem Sparse.get_insert_ne {α : Type} (d : α) (l : List (Nat × α)) (a b : Nat) (v : α) (h : b ≠ a) :
    Sparse.get d (Sparse.insert a v l) b = Sparse.get d l b := by
  induction l with
  | nil => simp [Sparse.insert, Sparse.get, Ne.symm h]
  | cons e l ih =>
    obtain ⟨k, w⟩ := e
    simp only [Sparse.insert]
    split
    · simp [Sparse.get, Ne.symm h]
    · simp [Sparse.get, ih]

theorem Sparse.get_insert_self {α : Type} (d : α) (l : List (Nat × α)) (a : Nat) (v : α) (h : ∀ e ∈ l, e.1 ≠ a) :
    Sparse.get d (Sparse.insert a v l) a = v := by
  induction l with
  | nil => simp [Sparse.insert, Sparse.get]
  | cons e l ih =>
    obtain ⟨k, w⟩ := e
    simp only [Sparse.insert]
    split
    · simp [Sparse.get]
    · have := h (k, w) (by simp)
      simp only at this
      simp [Sparse.get, this, ih fun x hx => h x (List.mem_cons_of_mem _ hx)]

/-- A read after a write of the same key answers the value written. -/
@[simp] theorem Sparse.get_put_self {α : Type} [DecidableEq α] (d : α) (l : List (Nat × α)) (a : Nat) (v : α) :
    Sparse.get d (Sparse.put d l a v) a = v := by
  unfold Sparse.put
  split
  · next h => rw [h]; exact Sparse.get_filter_self d l a
  · exact Sparse.get_insert_self d _ a v (by simp)

/-- A write leaves every other key alone. -/
theorem Sparse.get_put_ne {α : Type} [DecidableEq α] (d d' : α) (l : List (Nat × α)) (a b : Nat) (v : α) (h : b ≠ a) :
    Sparse.get d' (Sparse.put d l a v) b = Sparse.get d' l b := by
  unfold Sparse.put
  simp only
  split
  · exact Sparse.get_filter_ne d' l a b h
  · rw [Sparse.get_insert_ne d' _ a b v h, Sparse.get_filter_ne d' l a b h]

/-- The one form of a table, entry by entry. -/
theorem Sparse.wf_iff {α : Type} [DecidableEq α] (d : Nat → α) (l : List (Nat × α)) :
    Sparse.wf d l = true ↔ l.Pairwise (fun x y => x.1 < y.1) ∧ ∀ e ∈ l, e.2 ≠ d e.1 := by
  induction l with
  | nil => simp [Sparse.wf]
  | cons e l ih =>
    obtain ⟨k, v⟩ := e
    simp only [Sparse.wf, Bool.and_eq_true, decide_eq_true_eq, ih, List.pairwise_cons, List.forall_mem_cons]
    constructor
    · rintro ⟨⟨hv, hk⟩, hp, ha⟩
      refine ⟨⟨fun x hx => ?_, hp⟩, hv, ha⟩
      cases l with
      | nil => cases hx
      | cons y l =>
        obtain ⟨k', w⟩ := y
        simp only [decide_eq_true_eq] at hk
        rcases List.mem_cons.1 hx with rfl | hx
        · exact hk
        · exact lt_trans hk ((List.pairwise_cons.1 hp).1 x hx)
    · rintro ⟨⟨hk, hp⟩, hv, ha⟩
      refine ⟨⟨hv, ?_⟩, hp, ha⟩
      cases l with
      | nil => rfl
      | cons y l => simpa using hk y (by simp)

theorem Sparse.mem_insert {α : Type} (a : Nat) (v : α) (l : List (Nat × α)) (e : Nat × α) :
    e ∈ Sparse.insert a v l ↔ e = (a, v) ∨ e ∈ l := by
  induction l with
  | nil => simp [Sparse.insert]
  | cons x l ih =>
    obtain ⟨k, w⟩ := x
    simp only [Sparse.insert]
    split
    · simp
    · simp only [List.mem_cons, ih]; tauto

theorem Sparse.insert_pairwise {α : Type} (a : Nat) (v : α) (l : List (Nat × α)) (h : l.Pairwise (fun x y => x.1 < y.1)) (ha : ∀ e ∈ l, e.1 ≠ a) :
    (Sparse.insert a v l).Pairwise (fun x y => x.1 < y.1) := by
  induction l with
  | nil => simp [Sparse.insert]
  | cons x l ih =>
    obtain ⟨k, w⟩ := x
    obtain ⟨h1, h2⟩ := List.pairwise_cons.1 h
    simp only [Sparse.insert]
    split
    · next hk =>
      refine List.pairwise_cons.2 ⟨fun y hy => ?_, h⟩
      rcases List.mem_cons.1 hy with rfl | hy
      · exact hk
      · exact lt_trans hk (h1 y hy)
    · next hk =>
      have hne : k ≠ a := ha (k, w) (by simp)
      refine List.pairwise_cons.2 ⟨fun y hy => ?_, ih h2 fun e he => ha e (List.mem_cons_of_mem _ he)⟩
      rcases (Sparse.mem_insert a v l y).1 hy with rfl | hy
      · simp only; omega
      · exact h1 y hy

/-- Dropping entries keeps the form. -/
theorem Sparse.wf_filter {α : Type} [DecidableEq α] (d : Nat → α) (l : List (Nat × α)) (p : Nat × α → Bool) (h : Sparse.wf d l = true) :
    Sparse.wf d (l.filter p) = true := by
  rw [Sparse.wf_iff] at *
  exact ⟨h.1.filter p, fun e he => h.2 e (List.mem_filter.1 he).1⟩

/-- A write keeps the form. -/
theorem Sparse.wf_put {α : Type} [DecidableEq α] (d : Nat → α) (l : List (Nat × α)) (a : Nat) (v : α) (h : Sparse.wf d l = true) :
    Sparse.wf d (Sparse.put (d a) l a v) = true := by
  unfold Sparse.put
  simp only
  split
  · exact Sparse.wf_filter d l _ h
  · next hv =>
    have hf := (Sparse.wf_iff d _).1 (Sparse.wf_filter d l (fun e => e.1 != a) h)
    refine (Sparse.wf_iff d _).2 ⟨Sparse.insert_pairwise a v _ hf.1 (by simp), fun e he => ?_⟩
    rcases (Sparse.mem_insert a v _ e).1 he with rfl | he
    · exact hv
    · exact hf.2 e he

/-- A listed entry is what its key reads as. -/
theorem Sparse.get_of_mem {α : Type} [DecidableEq α] (d : Nat → α) (l : List (Nat × α)) (h : Sparse.wf d l = true) (e : Nat × α) (he : e ∈ l)
    (x : α) : Sparse.get x l e.1 = e.2 := by
  rw [Sparse.wf_iff] at h
  induction l with
  | nil => cases he
  | cons y l ih =>
    obtain ⟨k, v⟩ := y
    obtain ⟨h1, h2⟩ := List.pairwise_cons.1 h.1
    rcases List.mem_cons.1 he with rfl | he
    · simp [Sparse.get]
    · have : k ≠ e.1 := Nat.ne_of_lt (h1 e he)
      simp [Sparse.get, this, ih ⟨h2, fun z hz => h.2 z (List.mem_cons_of_mem _ hz)⟩ he]

end Sys2Proof.Machine
end

