-- ==== Sys2Proof/Laws/State.lean ====
section
/-! SUPPORT. What a primitive update does to each component of the state, to a register, to a field and to a byte of memory. Proofs cite these and never
unfold an update. -/
namespace Sys2Proof.Machine

theorem RegName.idx_lt (r : RegName) : r.ctorIdx < 512 := by cases r <;> decide
theorem RegName.ofNat_idx (r : RegName) : RegName.ofNat r.ctorIdx = r := by cases r <;> rfl

theorem regKey_idx (r : RegName) (i : Nat) : regKey r i % 512 = r.ctorIdx ∧ regKey r i / 512 = i := by
  have := RegName.idx_lt r
  unfold regKey
  omega

/-- A key names one element of one register. -/
theorem regKey_inj (r r' : RegName) (i i' : Nat) : regKey r i = regKey r' i' ↔ r = r' ∧ i = i' := by
  constructor
  · intro h
    have h1 := regKey_idx r i
    have h2 := regKey_idx r' i'
    rw [h] at h1
    exact ⟨by rw [← RegName.ofNat_idx r, ← RegName.ofNat_idx r', ← h1.1, ← h2.1], h1.2.symm.trans h2.2⟩
  · rintro ⟨rfl, rfl⟩; rfl

theorem resetOfKey_regKey (r : RegName) (i : Nat) : resetOfKey (regKey r i) = regReset r i := by
  have h := regKey_idx r i
  simp only [resetOfKey, h.1, h.2, RegName.ofNat_idx]

@[simp] theorem State.reg_setReg_self (s : State) (r : RegName) (i : Nat) (v : DWord) : (s.setReg r i v).reg r i = v :=
  Sparse.get_put_self _ _ _ _

theorem State.reg_setReg_ne (s : State) (r r' : RegName) (i i' : Nat) (v : DWord) (h : r ≠ r' ∨ i ≠ i') : (s.setReg r i v).reg r' i' = s.reg r' i' :=
  Sparse.get_put_ne _ _ _ _ _ _ (fun e => by
    have := (regKey_inj r' r i' i).1 e
    rcases h with h | h
    · exact h this.1.symm
    · exact h this.2.symm)

/-- An update of registers. -/
def Upd.onRegs : Upd → Bool
  | .fld .. | .reg .. | .regsReset .. => true
  | _ => false

/-- An update of memory. -/
def Upd.onMem : Upd → Bool
  | .mem .. | .memForget .. => true
  | _ => false

/-! What each form of update is. -/
@[simp] theorem Upd.onRegs_access (f : AccessState → AccessState) : (Upd.access f).onRegs = false := (rfl)
@[simp] theorem Upd.onRegs_ptm (f : PtmState → PtmState) : (Upd.ptm f).onRegs = false := (rfl)
@[simp] theorem Upd.onRegs_fcu (f : FcuState → FcuState) : (Upd.fcu f).onRegs = false := (rfl)
@[simp] theorem Upd.onRegs_alm (f : AlmState → AlmState) : (Upd.alm f).onRegs = false := (rfl)
@[simp] theorem Upd.onRegs_svc (f : SvcState → SvcState) : (Upd.svc f).onRegs = false := (rfl)
@[simp] theorem Upd.onRegs_pcx (f : PcxState → PcxState) : (Upd.pcx f).onRegs = false := (rfl)
@[simp] theorem Upd.onRegs_kpr (f : KprState → KprState) : (Upd.kpr f).onRegs = false := (rfl)
@[simp] theorem Upd.onRegs_hif (f : HifState → HifState) : (Upd.hif f).onRegs = false := (rfl)
@[simp] theorem Upd.onRegs_cqe (f : CqeState → CqeState) : (Upd.cqe f).onRegs = false := (rfl)
@[simp] theorem Upd.onRegs_bmu (f : BmuState → BmuState) : (Upd.bmu f).onRegs = false := (rfl)
@[simp] theorem Upd.onRegs_dmf (f : DmfState → DmfState) : (Upd.dmf f).onRegs = false := (rfl)
@[simp] theorem Upd.onRegs_mpc (f : MpcState → MpcState) : (Upd.mpc f).onRegs = false := (rfl)
@[simp] theorem Upd.onRegs_rdc (f : RdcState → RdcState) : (Upd.rdc f).onRegs = false := (rfl)
@[simp] theorem Upd.onRegs_wrc (f : WrcState → WrcState) : (Upd.wrc f).onRegs = false := (rfl)
@[simp] theorem Upd.onRegs_sve (f : SveState → SveState) : (Upd.sve f).onRegs = false := (rfl)
@[simp] theorem Upd.onRegs_spn (f : SpnState → SpnState) : (Upd.spn f).onRegs = false := (rfl)
@[simp] theorem Upd.onRegs_pwr (f : PwrState → PwrState) : (Upd.pwr f).onRegs = false := (rfl)
@[simp] theorem Upd.onRegs_spl (f : SplState → SplState) : (Upd.spl f).onRegs = false := (rfl)
@[simp] theorem Upd.onMem_access (f : AccessState → AccessState) : (Upd.access f).onMem = false := (rfl)
@[simp] theorem Upd.onMem_ptm (f : PtmState → PtmState) : (Upd.ptm f).onMem = false := (rfl)
@[simp] theorem Upd.onMem_fcu (f : FcuState → FcuState) : (Upd.fcu f).onMem = false := (rfl)
@[simp] theorem Upd.onMem_alm (f : AlmState → AlmState) : (Upd.alm f).onMem = false := (rfl)
@[simp] theorem Upd.onMem_svc (f : SvcState → SvcState) : (Upd.svc f).onMem = false := (rfl)
@[simp] theorem Upd.onMem_pcx (f : PcxState → PcxState) : (Upd.pcx f).onMem = false := (rfl)
@[simp] theorem Upd.onMem_kpr (f : KprState → KprState) : (Upd.kpr f).onMem = false := (rfl)
@[simp] theorem Upd.onMem_hif (f : HifState → HifState) : (Upd.hif f).onMem = false := (rfl)
@[simp] theorem Upd.onMem_cqe (f : CqeState → CqeState) : (Upd.cqe f).onMem = false := (rfl)
@[simp] theorem Upd.onMem_bmu (f : BmuState → BmuState) : (Upd.bmu f).onMem = false := (rfl)
@[simp] theorem Upd.onMem_dmf (f : DmfState → DmfState) : (Upd.dmf f).onMem = false := (rfl)
@[simp] theorem Upd.onMem_mpc (f : MpcState → MpcState) : (Upd.mpc f).onMem = false := (rfl)
@[simp] theorem Upd.onMem_rdc (f : RdcState → RdcState) : (Upd.rdc f).onMem = false := (rfl)
@[simp] theorem Upd.onMem_wrc (f : WrcState → WrcState) : (Upd.wrc f).onMem = false := (rfl)
@[simp] theorem Upd.onMem_sve (f : SveState → SveState) : (Upd.sve f).onMem = false := (rfl)
@[simp] theorem Upd.onMem_spn (f : SpnState → SpnState) : (Upd.spn f).onMem = false := (rfl)
@[simp] theorem Upd.onMem_pwr (f : PwrState → PwrState) : (Upd.pwr f).onMem = false := (rfl)
@[simp] theorem Upd.onMem_spl (f : SplState → SplState) : (Upd.spl f).onMem = false := (rfl)
@[simp] theorem Upd.onRegs_emit (o : Out) : (Upd.emit o).onRegs = false := (rfl)
@[simp] theorem Upd.onMem_emit (o : Out) : (Upd.emit o).onMem = false := (rfl)
@[simp] theorem Upd.onRegs_free : Upd.free.onRegs = false := (rfl)
@[simp] theorem Upd.onMem_free : Upd.free.onMem = false := (rfl)
@[simp] theorem Upd.onRegs_mem (a : Nat) (b : Byte) : (Upd.mem a b).onRegs = false := (rfl)
@[simp] theorem Upd.onRegs_memForget (a n : Nat) : (Upd.memForget a n).onRegs = false := (rfl)
@[simp] theorem Upd.onMem_fld (f : Fld) (i v : Nat) : (Upd.fld f i v).onMem = false := (rfl)
@[simp] theorem Upd.onMem_reg (r : RegName) (i : Nat) (v : DWord) : (Upd.reg r i v).onMem = false := (rfl)
@[simp] theorem Upd.onMem_regsReset (p : RegName → Nat → Bool) : (Upd.regsReset p).onMem = false := (rfl)

theorem Upd.apply_regs (u : Upd) (s : State) (h : u.onRegs = false) : (u.apply s).regs = s.regs := by
  cases u <;> first | rfl | cases h

/-- A register keeps its value under an update of anything else. -/
@[simp] theorem Upd.apply_reg (u : Upd) (s : State) (h : u.onRegs = false) (r : RegName) (i : Nat) : (u.apply s).reg r i = s.reg r i := by
  simp only [State.reg, Upd.apply_regs u s h]

@[simp] theorem Upd.apply_get (u : Upd) (s : State) (h : u.onRegs = false) (f : Fld) (i : Nat) : (u.apply s).get f i = s.get f i := by
  simp only [State.get, Upd.apply_reg u s h]

/-- A field lies within its width. -/
theorem State.get_lt (s : State) (f : Fld) (i : Nat) : s.get f i < 2 ^ (f.hi + 1 - f.lo) := getBits_lt _ _ _

/-- A one-bit field that is set reads 1. -/
theorem State.get_of_on (s : State) (f : Fld) (i : Nat) (hw : f.hi + 1 - f.lo = 1) (h : s.on f i = true) : s.get f i = 1 := by
  have h1 := State.get_lt s f i
  rw [hw] at h1
  have h2 : s.get f i ≠ 0 := by simpa [State.on] using h
  omega

/-- A field reads as what was last written to it. -/
@[simp] theorem State.get_fld_self (s : State) (f : Fld) (i v : Nat) (h : f.hi < 64) : ((Upd.fld f i v).apply s).get f i = v % 2 ^ (f.hi + 1 - f.lo) := by
  simp only [Upd.apply, State.setFld, State.get, State.reg_setReg_self, getBits_setBits_self _ _ _ _ h]

/-- A field keeps its value when another register, another element or other bits are written. -/
@[simp] theorem State.get_fld_ne (s : State) (f g : Fld) (i j v : Nat) (h : f.reg ≠ g.reg ∨ i ≠ j ∨ (f.hi < 64 ∧ g.hi < 64 ∧ (f.hi < g.lo ∨ g.hi < f.lo))) :
    ((Upd.fld f i v).apply s).get g j = s.get g j := by
  by_cases hk : f.reg ≠ g.reg ∨ i ≠ j
  · simp only [Upd.apply, State.setFld, State.get, State.reg_setReg_ne _ _ _ _ _ _ hk]
  · obtain ⟨h1, h2⟩ := not_or.1 hk
    have h1 := not_not.1 h1
    have h2 := not_not.1 h2
    subst h2
    rcases h with h | h | ⟨_, hb, hc⟩
    · exact absurd h1 h
    · exact absurd rfl h
    · simp only [Upd.apply, State.setFld, State.get, ← h1, State.reg_setReg_self, getBits_setBits_disj _ _ _ _ _ _ hb hc]

/-- A field keeps its value when another register is written. -/
theorem State.get_fld_reg (s : State) (f g : Fld) (i j v : Nat) (h : f.reg ≠ g.reg) : ((Upd.fld f i v).apply s).get g j = s.get g j :=
  State.get_fld_ne s f g i j v (.inl h)

/-- A field keeps its value when other bits are written. -/
theorem State.get_fld_bits (s : State) (f g : Fld) (i j v : Nat) (h : f.hi < 64 ∧ g.hi < 64 ∧ (f.hi < g.lo ∨ g.hi < f.lo)) :
    ((Upd.fld f i v).apply s).get g j = s.get g j :=
  State.get_fld_ne s f g i j v (.inr (.inr h))

@[simp] theorem State.get_reg_self (s : State) (f : Fld) (i : Nat) (v : DWord) : ((Upd.reg f.reg i v).apply s).get f i = getBits v f.hi f.lo := by
  simp only [Upd.apply, State.get, State.reg_setReg_self]

@[simp] theorem State.get_reg_ne (s : State) (r : RegName) (g : Fld) (i j : Nat) (v : DWord) (h : r ≠ g.reg ∨ i ≠ j) :
    ((Upd.reg r i v).apply s).get g j = s.get g j := by
  simp only [Upd.apply, State.get, State.reg_setReg_ne _ _ _ _ _ _ h]

@[simp] theorem State.reg_fld_ne (s : State) (f : Fld) (r : RegName) (i j v : Nat) (h : f.reg ≠ r ∨ i ≠ j) : ((Upd.fld f i v).apply s).reg r j = s.reg r j := by
  simp only [Upd.apply, State.setFld, State.reg_setReg_ne _ _ _ _ _ _ h]

@[simp] theorem State.reg_reg_self (s : State) (r : RegName) (i : Nat) (v : DWord) : ((Upd.reg r i v).apply s).reg r i = v := by
  simp only [Upd.apply, State.reg_setReg_self]

@[simp] theorem State.reg_reg_ne (s : State) (r r' : RegName) (i j : Nat) (v : DWord) (h : r ≠ r' ∨ i ≠ j) : ((Upd.reg r i v).apply s).reg r' j = s.reg r' j := by
  simp only [Upd.apply, State.reg_setReg_ne _ _ _ _ _ _ h]

/-- Memory keeps every byte under an update of anything else. -/
@[simp] theorem Upd.apply_byte (u : Upd) (s : State) (h : u.onMem = false) (a : Nat) : (u.apply s).byte a = s.byte a := by
  cases u <;> first | rfl | cases h

/-- A byte reads as what was last stored; every other byte is unchanged. -/
@[simp] theorem State.byte_mem_self (s : State) (a : Nat) (b : Byte) : ((Upd.mem a b).apply s).byte a = b := Sparse.get_put_self _ _ _ _

@[simp] theorem State.byte_mem_ne (s : State) (a a' : Nat) (b : Byte) (h : a' ≠ a) : ((Upd.mem a b).apply s).byte a' = s.byte a' :=
  Sparse.get_put_ne _ _ _ _ _ _ h

/-! Each component under each update: changed by its own update, unchanged by every other. -/
@[simp] theorem Upd.apply_access (u : Upd) (s : State) : (u.apply s).access = (match u with | .access g => g s.access | _ => s.access) := by cases u <;> rfl
@[simp] theorem Upd.apply_ptm (u : Upd) (s : State) : (u.apply s).ptm = (match u with | .ptm g => g s.ptm | _ => s.ptm) := by cases u <;> rfl
@[simp] theorem Upd.apply_fcu (u : Upd) (s : State) : (u.apply s).fcu = (match u with | .fcu g => g s.fcu | _ => s.fcu) := by cases u <;> rfl
@[simp] theorem Upd.apply_alm (u : Upd) (s : State) : (u.apply s).alm = (match u with | .alm g => g s.alm | _ => s.alm) := by cases u <;> rfl
@[simp] theorem Upd.apply_svc (u : Upd) (s : State) : (u.apply s).svc = (match u with | .svc g => g s.svc | _ => s.svc) := by cases u <;> rfl
@[simp] theorem Upd.apply_pcx (u : Upd) (s : State) : (u.apply s).pcx = (match u with | .pcx g => g s.pcx | _ => s.pcx) := by cases u <;> rfl
@[simp] theorem Upd.apply_kpr (u : Upd) (s : State) : (u.apply s).kpr = (match u with | .kpr g => g s.kpr | _ => s.kpr) := by cases u <;> rfl
@[simp] theorem Upd.apply_hif (u : Upd) (s : State) : (u.apply s).hif = (match u with | .hif g => g s.hif | _ => s.hif) := by cases u <;> rfl
@[simp] theorem Upd.apply_cqe (u : Upd) (s : State) : (u.apply s).cqe = (match u with | .cqe g => g s.cqe | _ => s.cqe) := by cases u <;> rfl
@[simp] theorem Upd.apply_bmu (u : Upd) (s : State) : (u.apply s).bmu = (match u with | .bmu g => g s.bmu | _ => s.bmu) := by cases u <;> rfl
@[simp] theorem Upd.apply_dmf (u : Upd) (s : State) : (u.apply s).dmf = (match u with | .dmf g => g s.dmf | _ => s.dmf) := by cases u <;> rfl
@[simp] theorem Upd.apply_mpc (u : Upd) (s : State) : (u.apply s).mpc = (match u with | .mpc g => g s.mpc | _ => s.mpc) := by cases u <;> rfl
@[simp] theorem Upd.apply_rdc (u : Upd) (s : State) : (u.apply s).rdc = (match u with | .rdc g => g s.rdc | _ => s.rdc) := by cases u <;> rfl
@[simp] theorem Upd.apply_wrc (u : Upd) (s : State) : (u.apply s).wrc = (match u with | .wrc g => g s.wrc | _ => s.wrc) := by cases u <;> rfl
@[simp] theorem Upd.apply_sve (u : Upd) (s : State) : (u.apply s).sve = (match u with | .sve g => g s.sve | _ => s.sve) := by cases u <;> rfl
@[simp] theorem Upd.apply_spn (u : Upd) (s : State) : (u.apply s).spn = (match u with | .spn g => g s.spn | _ => s.spn) := by cases u <;> rfl
@[simp] theorem Upd.apply_pwr (u : Upd) (s : State) : (u.apply s).pwr = (match u with | .pwr g => g s.pwr | _ => s.pwr) := by cases u <;> rfl
@[simp] theorem Upd.apply_spl (u : Upd) (s : State) : (u.apply s).spl = (match u with | .spl g => g s.spl | _ => s.spl) := by cases u <;> rfl
@[simp] theorem Upd.apply_out (u : Upd) (s : State) : (u.apply s).out = (match u with | .emit o => o :: s.out | _ => s.out) := by cases u <;> rfl
@[simp] theorem Upd.apply_freeCtr (u : Upd) (s : State) : (u.apply s).freeCtr = (match u with | .free => s.freeCtr + 1 | _ => s.freeCtr) := by cases u <;> rfl
@[simp] theorem Upd.apply_pending (u : Upd) (s : State) : (u.apply s).pending = s.pending := by cases u <;> rfl

/-- A register written by a field update, read whole. -/
theorem State.reg_fld_self (s : State) (f : Fld) (i v : Nat) : ((Upd.fld f i v).apply s).reg f.reg i = setBits (s.reg f.reg i) f.hi f.lo v := by
  simp only [Upd.apply, State.setFld, State.reg_setReg_self]

/-- Every primitive update keeps the one form of registers and memory. -/
theorem Upd.apply_wf (u : Upd) (s : State) (h : s.wf = true) : (u.apply s).wf = true := by
  simp only [State.wf, Bool.and_eq_true, Registers.wf, Memory.wf] at *
  obtain ⟨h1, h2⟩ := h
  have put : ∀ r i v, Sparse.wf resetOfKey (Sparse.put (regReset r i) s.regs (regKey r i) v) = true := by
    intro r i v
    rw [← resetOfKey_regKey]
    exact Sparse.wf_put _ _ _ _ h1
  cases u with
  | fld f i v => exact ⟨put _ _ _, h2⟩
  | reg r i v => exact ⟨put _ _ _, h2⟩
  | regsReset p => exact ⟨Sparse.wf_filter _ _ _ h1, h2⟩
  | mem a b => exact ⟨h1, Sparse.wf_put _ _ _ _ h2⟩
  | memForget lo len => exact ⟨h1, Sparse.wf_filter _ _ _ h2⟩
  | _ => exact ⟨h1, h2⟩

end Sys2Proof.Machine
end

