-- ==== Sys2Proof/Laws/Prog.lean ====
section
/-! SUPPORT. Running programs: one equation per form, what every update keeps every program keeps, and that every command is a program. -/
namespace Sys2Proof.Machine

@[simp] theorem Prog.run_skip (s : State) : Prog.skip.run s = s := rfl
@[simp] theorem Prog.run_upd (u : Upd) (s : State) : (Prog.upd u).run s = u.apply s := rfl
@[simp] theorem Prog.run_seq (p q : Prog) (s : State) : (Prog.seq p q).run s = q.run (p.run s) := rfl
@[simp] theorem Prog.run_ask (k : State → Prog) (s : State) : (Prog.ask k).run s = (k s).run s := rfl
@[simp] theorem Prog.run_all_nil (s : State) : (all []).run s = s := rfl
@[simp] theorem Prog.run_all_cons (p : Prog) (ps : List Prog) (s : State) : (all (p :: ps)).run s = (all ps).run (p.run s) := rfl
@[simp] theorem Prog.run_each_nil {α : Type} (f : α → Prog) (s : State) : (each [] f).run s = s := rfl
@[simp] theorem Prog.run_each_cons {α : Type} (x : α) (l : List α) (f : α → Prog) (s : State) : (each (x :: l) f).run s = (each l f).run ((f x).run s) := rfl
@[simp] theorem Prog.run_when (c : Bool) (p : Prog) (s : State) : (when c p).run s = if c then p.run s else s := by cases c <;> rfl
@[simp] theorem Prog.run_whenS (c : State → Bool) (p : Prog) (s : State) : (whenS c p).run s = if c s then p.run s else s := by
  rw [whenS, Prog.run_ask]
  cases c s <;> rfl
@[simp] theorem Prog.run_ite (c : Prop) [Decidable c] (p q : Prog) (s : State) : (if c then p else q).run s = if c then p.run s else q.run s := by
  split <;> rfl
@[simp] theorem Prog.run_setF (f : Fld) (i v : Nat) (s : State) : (setF f i v).run s = (Upd.fld f i v).apply s := rfl
@[simp] theorem Prog.run_setR (r : RegName) (i v : Nat) (s : State) : (setR r i v).run s = (Upd.reg r i (BitVec.ofNat 64 v)).apply s := rfl
@[simp] theorem Prog.run_emit (o : Out) (s : State) : (emit o).run s = (Upd.emit o).apply s := rfl
@[simp] theorem Prog.run_send (port kind : String) (args : List Nat) (s : State) : (send port kind args).run s = (Upd.emit (.frame port kind args)).apply s := rfl
@[simp] theorem Prog.run_reply (m : Master) (v : Nat) (s : State) : (reply m v).run s = (Upd.emit (.data m.id v)).apply s := rfl
@[simp] theorem Prog.run_busErr (m : Master) (s : State) : (busErr m).run s = (Upd.emit (.busError m.id)).apply s := rfl
@[simp] theorem Prog.run_setPd (f : PwrState → PwrState) (s : State) : (setPd f).run s = (Upd.pwr f).apply s := rfl
@[simp] theorem Prog.run_setI (f : Fld) (i : Nat) (x : Int) (s : State) : (setI f i x).run s = (Upd.fld f i (ofSigned f.width x)).apply s := rfl
@[simp] theorem Prog.run_incF (f : Fld) (i : Nat) (s : State) :
    (incF f i).run s = (Upd.fld f i (satAdd (s.get f i) 1 (2 ^ f.width - 1))).apply s := rfl
@[simp] theorem Prog.run_setBitF (f : Fld) (i k : Nat) (b : Bool) (s : State) :
    (setBitF f i k b).run s = (Upd.fld f i (setNBit (s.get f i) k b)).apply s := rfl
@[simp] theorem Prog.run_fresh (k : Nat → Prog) (s : State) : (fresh k).run s = (k (Config.freeValue s.freeCtr)).run (Upd.free.apply s) := rfl

/-- What every update keeps, every program keeps. -/
theorem Prog.run_keeps (I : State → Prop) (h : ∀ u s, I s → I (Upd.apply u s)) (p : Prog) (s : State) (hs : I s) : I (p.run s) := by
  induction p generalizing s with
  | skip => exact hs
  | upd u => exact h u s hs
  | seq p q hp hq => exact hq _ (hp _ hs)
  | ask k hk => exact hk s s hs

/-- A relation that holds across every update, and is transitive, holds across every program. -/
theorem Prog.run_rel (R : State → State → Prop) (refl : ∀ s, R s s) (trans : ∀ a b c, R a b → R b c → R a c) (h : ∀ u s, R s (Upd.apply u s))
    (p : Prog) (s : State) : R s (p.run s) := by
  induction p generalizing s with
  | skip => exact refl s
  | upd u => exact h u s
  | seq p q hp hq => exact trans _ _ _ (hp s) (hq _)
  | ask k hk => exact hk s s

/-- A program never touches the queue. -/
@[simp] theorem Prog.run_pending (p : Prog) (s : State) : (p.run s).pending = s.pending :=
  Prog.run_rel (fun s t => t.pending = s.pending) (fun _ => rfl) (fun _ _ _ h h' => h'.trans h) Upd.apply_pending p s

/-- What has left the part stays as it left. -/
theorem Prog.run_out (p : Prog) (s : State) : s.out <:+ (p.run s).out :=
  Prog.run_rel (fun s t => s.out <:+ t.out) (fun s => List.suffix_refl _) (fun _ _ _ h h' => h.trans h')
    (fun u s => by cases u <;> first | exact List.suffix_refl _ | exact List.suffix_cons _ _) p s

/-- Registers and memory keep their one form. -/
theorem Prog.run_wf (p : Prog) (s : State) (h : s.wf = true) : (p.run s).wf = true := Prog.run_keeps (fun s => s.wf = true) Upd.apply_wf p s h

/-- Every command is a program. -/
theorem exec_runs (c : Instr) (s : State) : ∃ p : Prog, exec c s = .next (p.run s) := by
  cases c <;> exact ⟨_, rfl⟩

end Sys2Proof.Machine
end

