-- ==== Sys2Proof/Laws/Memory.lean ====
section
/-! SUPPORT. Memory: what a store of bytes leaves, byte by byte. -/
namespace Sys2Proof.Machine

theorem putBytes_byte (a : Nat) (bs : List Byte) (s : State) (x : Nat) :
    ((putBytes a bs).run s).byte x = if a ≤ x ∧ x < a + bs.length then bs.getD (x - a) 0 else s.byte x := by
  induction bs generalizing a s with
  | nil => simp [putBytes]
  | cons b l ih =>
    simp only [putBytes, Prog.run_seq, Prog.run_upd, ih]
    by_cases h : x = a
    · subst h; simp
    · by_cases h1 : a + 1 ≤ x ∧ x < a + 1 + l.length
      · have h2 : a ≤ x ∧ x < a + (b :: l).length := by simp only [List.length_cons]; omega
        have h3 : x - a = (x - (a + 1)) + 1 := by omega
        rw [if_pos h1, if_pos h2, h3, List.getD_cons_succ]
      · have h2 : ¬(a ≤ x ∧ x < a + (b :: l).length) := by simp only [List.length_cons]; omega
        rw [if_neg h1, if_neg h2, State.byte_mem_ne _ _ _ _ h]

@[simp] theorem storeMarks_byte (a n : Nat) (s : State) (x : Nat) : ((storeMarks a n).run s).byte x = s.byte x := by
  simp only [storeMarks, Prog.run_ask, Prog.run_when, Prog.run_upd]
  split
  · exact Upd.apply_byte _ _ rfl _
  · rfl

/-- A store as every master sees it: the stored bytes read back, every other byte is unchanged. -/
theorem memBytes_byte (a : Nat) (bs : List Byte) (s : State) (x : Nat) :
    ((memBytes a bs).run s).byte x = if a ≤ x ∧ x < a + bs.length then bs.getD (x - a) 0 else s.byte x := by
  simp only [memBytes, Prog.run_seq, putBytes_byte, storeMarks_byte]

end Sys2Proof.Machine
end

