-- ==== Sys2Proof/Laws/Unchanged.lean ====
section
/-! SUPPORT. Frames: what a program cannot have changed, read off the updates in it. `Prog.Only ok p` says that every update of `p` is `ok`, whatever the states it
meets; it unfolds form by form, so that `simp +decide` settles it, and each theorem below turns it into what the program leaves alone. -/
namespace Sys2Proof.Machine

/-- Every update of a program is of a kind. -/
def Prog.Only (ok : Upd → Prop) : Prog → Prop
  | .skip => True
  | .upd u => ok u
  | .seq p q => p.Only ok ∧ q.Only ok
  | .ask k => ∀ s, (k s).Only ok

section
variable (ok : Upd → Prop)
@[simp] theorem Only.skip : Prog.skip.Only ok := trivial
@[simp] theorem Only.upd (u : Upd) : (Prog.upd u).Only ok ↔ ok u := Iff.rfl
@[simp] theorem Only.seq (p q : Prog) : (Prog.seq p q).Only ok ↔ p.Only ok ∧ q.Only ok := Iff.rfl
@[simp] theorem Only.ask (k : State → Prog) : (Prog.ask k).Only ok ↔ ∀ s, (k s).Only ok := Iff.rfl
@[simp] theorem Only.nil : (all []).Only ok := trivial
@[simp] theorem Only.cons (p : Prog) (l : List Prog) : (all (p :: l)).Only ok ↔ p.Only ok ∧ (all l).Only ok := Iff.rfl
@[simp] theorem Only.ite (c : Prop) [Decidable c] (p q : Prog) : (if c then p else q).Only ok ↔ (c → p.Only ok) ∧ (¬c → q.Only ok) := by
  split <;> simp_all
@[simp] theorem Only.when (c : Bool) (p : Prog) : (when c p).Only ok ↔ (c = true → p.Only ok) := by cases c <;> simp [Machine.when]
@[simp] theorem Only.whenS (c : State → Bool) (p : Prog) : (whenS c p).Only ok ↔ ∀ s, c s = true → p.Only ok := by simp [Machine.whenS]
@[simp] theorem Only.each {α : Type} (l : List α) (f : α → Prog) : (each l f).Only ok ↔ ∀ x ∈ l, (f x).Only ok := by
  induction l with
  | nil => simp [Machine.each]
  | cons a l ih => simp only [Machine.each, List.map_cons, Only.cons, List.mem_cons, forall_eq_or_imp] at *; rw [ih]
@[simp] theorem Only.setF (f : Fld) (i v : Nat) : (setF f i v).Only ok ↔ ok (.fld f i v) := Iff.rfl
@[simp] theorem Only.setI (f : Fld) (i : Nat) (x : Int) : (setI f i x).Only ok ↔ ok (.fld f i (ofSigned f.width x)) := Iff.rfl
@[simp] theorem Only.setR (r : RegName) (i v : Nat) : (setR r i v).Only ok ↔ ok (.reg r i (BitVec.ofNat 64 v)) := Iff.rfl
@[simp] theorem Only.incF (f : Fld) (i : Nat) : (incF f i).Only ok ↔ ∀ s : State, ok (.fld f i (satAdd (s.get f i) 1 (2 ^ f.width - 1))) := Iff.rfl
@[simp] theorem Only.setBitF (f : Fld) (i k : Nat) (b : Bool) : (setBitF f i k b).Only ok ↔ ∀ s : State, ok (.fld f i (setNBit (s.get f i) k b)) := Iff.rfl
@[simp] theorem Only.emit (o : Out) : (emit o).Only ok ↔ ok (.emit o) := Iff.rfl
@[simp] theorem Only.fresh (k : Nat → Prog) : (fresh k).Only ok ↔ ∀ s : State, ok .free ∧ (k (Config.freeValue s.freeCtr)).Only ok := Iff.rfl
end

/-- What a program of such updates does is what such updates can do. -/
theorem Prog.Only.rel {ok : Upd → Prop} (R : State → State → Prop) (refl : ∀ s, R s s) (trans : ∀ a b c, R a b → R b c → R a c)
    (h : ∀ u s, ok u → R s (Upd.apply u s)) {p : Prog} (hp : p.Only ok) (s : State) : R s (p.run s) := by
  induction p generalizing s with
  | skip => exact refl s
  | upd u => exact h u s hp
  | seq p q ih1 ih2 => exact trans _ _ _ (ih1 hp.1 s) (ih2 hp.2 _)
  | ask k ih => exact ih s (hp s) s

/-- A weaker kind. -/
theorem Prog.Only.mono {ok ok' : Upd → Prop} (h : ∀ u, ok u → ok' u) {p : Prog} (hp : p.Only ok) : p.Only ok' := by
  induction p with
  | skip => trivial
  | upd u => exact h u hp
  | seq p q ih1 ih2 => exact ⟨ih1 hp.1, ih2 hp.2⟩
  | ask k ih => exact fun s => ih s (hp s)

/-- The component an update changes; none for registers and memory. -/
def Upd.part : Upd → Option Part
  | .fld .. | .reg .. | .regsReset .. | .mem .. | .memForget .. => none
  | .emit .. => some .out
  | .free => some .free
  | .access .. => some .access
  | .ptm .. => some .ptm
  | .fcu .. => some .fcu
  | .alm .. => some .alm
  | .svc .. => some .svc
  | .pcx .. => some .pcx
  | .kpr .. => some .kpr
  | .hif .. => some .hif
  | .cqe .. => some .cqe
  | .bmu .. => some .bmu
  | .dmf .. => some .dmf
  | .mpc .. => some .mpc
  | .rdc .. => some .rdc
  | .wrc .. => some .wrc
  | .sve .. => some .sve
  | .spn .. => some .spn
  | .pwr .. => some .pwr
  | .spl .. => some .spl

@[simp] theorem Upd.part_access (f : AccessState → AccessState) : (Upd.access f).part = some .access := (rfl)
@[simp] theorem Upd.part_ptm (f : PtmState → PtmState) : (Upd.ptm f).part = some .ptm := (rfl)
@[simp] theorem Upd.part_fcu (f : FcuState → FcuState) : (Upd.fcu f).part = some .fcu := (rfl)
@[simp] theorem Upd.part_alm (f : AlmState → AlmState) : (Upd.alm f).part = some .alm := (rfl)
@[simp] theorem Upd.part_svc (f : SvcState → SvcState) : (Upd.svc f).part = some .svc := (rfl)
@[simp] theorem Upd.part_pcx (f : PcxState → PcxState) : (Upd.pcx f).part = some .pcx := (rfl)
@[simp] theorem Upd.part_kpr (f : KprState → KprState) : (Upd.kpr f).part = some .kpr := (rfl)
@[simp] theorem Upd.part_hif (f : HifState → HifState) : (Upd.hif f).part = some .hif := (rfl)
@[simp] theorem Upd.part_cqe (f : CqeState → CqeState) : (Upd.cqe f).part = some .cqe := (rfl)
@[simp] theorem Upd.part_bmu (f : BmuState → BmuState) : (Upd.bmu f).part = some .bmu := (rfl)
@[simp] theorem Upd.part_dmf (f : DmfState → DmfState) : (Upd.dmf f).part = some .dmf := (rfl)
@[simp] theorem Upd.part_mpc (f : MpcState → MpcState) : (Upd.mpc f).part = some .mpc := (rfl)
@[simp] theorem Upd.part_rdc (f : RdcState → RdcState) : (Upd.rdc f).part = some .rdc := (rfl)
@[simp] theorem Upd.part_wrc (f : WrcState → WrcState) : (Upd.wrc f).part = some .wrc := (rfl)
@[simp] theorem Upd.part_sve (f : SveState → SveState) : (Upd.sve f).part = some .sve := (rfl)
@[simp] theorem Upd.part_spn (f : SpnState → SpnState) : (Upd.spn f).part = some .spn := (rfl)
@[simp] theorem Upd.part_pwr (f : PwrState → PwrState) : (Upd.pwr f).part = some .pwr := (rfl)
@[simp] theorem Upd.part_spl (f : SplState → SplState) : (Upd.spl f).part = some .spl := (rfl)
@[simp] theorem Upd.part_emit (o : Out) : (Upd.emit o).part = some .out := (rfl)
@[simp] theorem Upd.part_free : Upd.free.part = some .free := (rfl)
@[simp] theorem Upd.part_mem (a : Nat) (b : Byte) : (Upd.mem a b).part = none := (rfl)
@[simp] theorem Upd.part_memForget (a n : Nat) : (Upd.memForget a n).part = none := (rfl)
@[simp] theorem Upd.part_fld (f : Fld) (i v : Nat) : (Upd.fld f i v).part = none := (rfl)
@[simp] theorem Upd.part_reg (r : RegName) (i : Nat) (v : DWord) : (Upd.reg r i v).part = none := (rfl)
@[simp] theorem Upd.part_regsReset (p : RegName → Nat → Bool) : (Upd.regsReset p).part = none := (rfl)

/-- An update within registers `rs`, components `ps` and memory ranges `ms`. -/
def Upd.within (rs : List (RegName × Nat)) (ps : List Part) (ms : List (Nat × Nat)) (u : Upd) : Prop :=
  match u with
  | .fld f i _ => (f.reg, i) ∈ rs
  | .reg r i _ => (r, i) ∈ rs
  | .regsReset p => ∀ r i, p r i = true → (r, i) ∈ rs
  | .mem a _ => ∃ e ∈ ms, e.1 ≤ a ∧ a < e.1 + e.2
  | .memForget lo len => ∀ a, lo ≤ a → a < lo + len → ∃ e ∈ ms, e.1 ≤ a ∧ a < e.1 + e.2
  | .emit _ => .out ∈ ps
  | .access _ => .access ∈ ps
  | .ptm _ => .ptm ∈ ps
  | .fcu _ => .fcu ∈ ps
  | .alm _ => .alm ∈ ps
  | .svc _ => .svc ∈ ps
  | .pcx _ => .pcx ∈ ps
  | .kpr _ => .kpr ∈ ps
  | .hif _ => .hif ∈ ps
  | .cqe _ => .cqe ∈ ps
  | .bmu _ => .bmu ∈ ps
  | .dmf _ => .dmf ∈ ps
  | .mpc _ => .mpc ∈ ps
  | .rdc _ => .rdc ∈ ps
  | .wrc _ => .wrc ∈ ps
  | .sve _ => .sve ∈ ps
  | .spn _ => .spn ∈ ps
  | .pwr _ => .pwr ∈ ps
  | .spl _ => .spl ∈ ps
  | .free => .free ∈ ps

section
variable {rs rs' : List (RegName × Nat)} {ps ps' : List Part} {ms ms' : List (Nat × Nat)} {s t : State}

theorem Unchanged.refl (s : State) : Unchanged rs ps ms s s :=
  ⟨fun _ _ _ => rfl, fun p _ => by cases p <;> rfl, fun _ _ => rfl, rfl⟩

theorem Part.same_trans {p : Part} {a b c : State} (h : p.same a b) (k : p.same b c) : p.same a c := by
  cases p <;> exact Eq.trans k h

theorem Unchanged.trans {a b c : State} (h : Unchanged rs ps ms a b) (k : Unchanged rs ps ms b c) : Unchanged rs ps ms a c :=
  ⟨fun r i hi => (k.1 r i hi).trans (h.1 r i hi), fun p hp => Part.same_trans (h.2.1 p hp) (k.2.1 p hp),
    fun x hx => (k.2.2.1 x hx).trans (h.2.2.1 x hx), k.2.2.2.trans h.2.2.2⟩

/-- A larger list leaves less unchanged. -/
theorem Unchanged.mono (hr : ∀ x ∈ rs, x ∈ rs') (hp : ∀ x ∈ ps, x ∈ ps') (hm : ∀ x ∈ ms, x ∈ ms') (h : Unchanged rs ps ms s t) : Unchanged rs' ps' ms' s t :=
  ⟨fun r i hi => h.1 r i (fun c => hi (hr _ c)), fun p q => h.2.1 p (fun c => q (hp _ c)), fun a ha => h.2.2.1 a (fun e he => ha e (hm e he)), h.2.2.2⟩

theorem Unchanged.get (h : Unchanged rs ps ms s t) (f : Fld) (i : Nat) (hf : (f.reg, i) ∉ rs) : t.get f i = s.get f i := by
  simp only [State.get, h.1 f.reg i hf]
end

/-- A component keeps its value under an update of anything else. -/
theorem Upd.apply_same (u : Upd) (s : State) (p : Part) (h : u.part ≠ some p) : p.same s (u.apply s) := by
  cases u <;> first | (cases p <;> first | rfl | exact absurd rfl h)

theorem reg_regsReset (p : RegName → Nat → Bool) (s : State) (r : RegName) (i : Nat) (h : p r i = false) :
    ((Upd.regsReset p).apply s).reg r i = s.reg r i := by
  have hk := regKey_idx r i
  simp only [Upd.apply, State.reg]
  exact Sparse.get_filter _ _ _ _ (fun _ => by simp only [hk.1, hk.2, RegName.ofNat_idx, h, Bool.not_false])

theorem byte_memForget (lo len : Nat) (s : State) (a : Nat) (h : ¬(lo ≤ a ∧ a < lo + len)) : ((Upd.memForget lo len).apply s).byte a = s.byte a := by
  simp only [Upd.apply, State.byte]
  exact Sparse.get_filter _ _ _ _ (fun _ => by simp only [h, decide_false, Bool.not_false])

/-- A program within bounds leaves the rest. -/
theorem Prog.Only.unchanged {rs : List (RegName × Nat)} {ps : List Part} {ms : List (Nat × Nat)} {p : Prog} (hp : p.Only (Upd.within rs ps ms)) (s : State) :
    Unchanged rs ps ms s (p.run s) := by
  refine Prog.Only.rel (Unchanged rs ps ms) Unchanged.refl (fun _ _ _ => Unchanged.trans) ?_ hp s
  intro u s hu
  refine ⟨fun r i hi => ?_, fun q hq => Upd.apply_same u s q ?_, fun a ha => ?_, Upd.apply_pending u s⟩
  · cases u with
    | fld f j v =>
      refine State.reg_fld_ne s f r j i v ?_
      by_contra hc
      obtain ⟨h1, h2⟩ := not_or.1 hc
      exact hi (by rw [← not_not.1 h1, ← not_not.1 h2]; exact hu)
    | reg r' j v =>
      refine State.reg_reg_ne s r' r j i v ?_
      by_contra hc
      obtain ⟨h1, h2⟩ := not_or.1 hc
      exact hi (by rw [← not_not.1 h1, ← not_not.1 h2]; exact hu)
    | regsReset f => exact reg_regsReset f s r i (by
        cases hf : f r i with
        | false => rfl
        | true => exact absurd (hu r i hf) hi)
    | _ => rfl
  · intro e
    cases u <;> cases e <;> exact hq hu
  · cases u with
    | mem b v =>
      refine State.byte_mem_ne s b a v ?_
      rintro rfl
      obtain ⟨e, he, h1⟩ := hu
      exact ha e he h1
    | memForget lo len =>
      refine byte_memForget lo len s a ?_
      rintro ⟨h1, h2⟩
      obtain ⟨e, he, h3⟩ := hu a h1 h2
      exact ha e he h3
    | _ => rfl

/-- An update of registers that `R` allows, components that `P` allows and, where `M` holds, memory. -/
def Upd.among (R : RegName → Prop) (P : Part → Prop) (M : Prop) (u : Upd) : Prop :=
  match u with
  | .fld f _ _ => R f.reg
  | .reg r _ _ => R r
  | .regsReset p => ∀ r i, p r i = true → R r
  | .mem _ _ => M
  | .memForget _ _ => M
  | .emit _ => P .out
  | .access _ => P .access
  | .ptm _ => P .ptm
  | .fcu _ => P .fcu
  | .alm _ => P .alm
  | .svc _ => P .svc
  | .pcx _ => P .pcx
  | .kpr _ => P .kpr
  | .hif _ => P .hif
  | .cqe _ => P .cqe
  | .bmu _ => P .bmu
  | .dmf _ => P .dmf
  | .mpc _ => P .mpc
  | .rdc _ => P .rdc
  | .wrc _ => P .wrc
  | .sve _ => P .sve
  | .spn _ => P .spn
  | .pwr _ => P .pwr
  | .spl _ => P .spl
  | .free => P .free

/-- An update that leaves register `r`, component `q`, memory. -/
abbrev Upd.spares (r : RegName) : Upd → Prop := Upd.among (· ≠ r) (fun _ => True) True
abbrev Upd.sparesPart (q : Part) : Upd → Prop := Upd.among (fun _ => True) (· ≠ q) True
abbrev Upd.sparesMem : Upd → Prop := Upd.among (fun _ => True) (fun _ => True) False

theorem Prog.Only.reg {r : RegName} {p : Prog} (hp : p.Only (Upd.spares r)) (s : State) (i : Nat) : (p.run s).reg r i = s.reg r i := by
  refine Prog.Only.rel (fun s t => t.reg r i = s.reg r i) (fun _ => rfl) (fun _ _ _ h k => k.trans h) ?_ hp s
  intro u s hu
  cases u with
  | fld f j v => exact State.reg_fld_ne s f r j i v (.inl hu)
  | reg r' j v => exact State.reg_reg_ne s r' r j i v (.inl hu)
  | regsReset f =>
    refine reg_regsReset f s r i ?_
    cases hf : f r i with
    | false => rfl
    | true => exact absurd rfl (hu r i hf)
  | _ => rfl

theorem Prog.Only.get {f : Fld} {p : Prog} (hp : p.Only (Upd.spares f.reg)) (s : State) (i : Nat) : (p.run s).get f i = s.get f i := by
  simp only [State.get, hp.reg s i]

theorem Prog.Only.same {q : Part} {p : Prog} (hp : p.Only (Upd.sparesPart q)) (s : State) : q.same s (p.run s) := by
  refine Prog.Only.rel (fun s t => q.same s t) (fun _ => by cases q <;> rfl) (fun _ _ _ h k => Part.same_trans h k) (fun u s hu => Upd.apply_same u s q ?_) hp s
  intro e
  cases u <;> cases e <;> exact hu rfl

theorem Prog.Only.byte {p : Prog} (hp : p.Only Upd.sparesMem) (s : State) (a : Nat) : (p.run s).byte a = s.byte a := by
  refine Prog.Only.rel (fun s t => t.byte a = s.byte a) (fun _ => rfl) (fun _ _ _ h k => k.trans h) (fun u s hu => Upd.apply_byte u s ?_ a) hp s
  cases u <;> first | rfl | exact hu.elim

section
variable {rs : List (RegName × Nat)} {ps : List Part} {ms : List (Nat × Nat)} {s t : State}

/-- One more update within bounds. -/
theorem Unchanged.app {u : Upd} (hu : u.within rs ps ms) (h : Unchanged rs ps ms s t) : Unchanged rs ps ms s (u.apply t) :=
  h.trans (Prog.Only.unchanged (p := .upd u) hu t)

/-- One more program within bounds. -/
theorem Unchanged.prog {p : Prog} (hp : p.Only (Upd.within rs ps ms)) (h : Unchanged rs ps ms s t) : Unchanged rs ps ms s (p.run t) :=
  h.trans (hp.unchanged t)
end

/-! Each component over a program that leaves it. -/
theorem Prog.Only.access {p : Prog} (hp : p.Only (Upd.sparesPart .access)) (s : State) : (p.run s).access = s.access := hp.same (q := .access) s
theorem Prog.Only.ptm {p : Prog} (hp : p.Only (Upd.sparesPart .ptm)) (s : State) : (p.run s).ptm = s.ptm := hp.same (q := .ptm) s
theorem Prog.Only.fcu {p : Prog} (hp : p.Only (Upd.sparesPart .fcu)) (s : State) : (p.run s).fcu = s.fcu := hp.same (q := .fcu) s
theorem Prog.Only.alm {p : Prog} (hp : p.Only (Upd.sparesPart .alm)) (s : State) : (p.run s).alm = s.alm := hp.same (q := .alm) s
theorem Prog.Only.svc {p : Prog} (hp : p.Only (Upd.sparesPart .svc)) (s : State) : (p.run s).svc = s.svc := hp.same (q := .svc) s
theorem Prog.Only.pcx {p : Prog} (hp : p.Only (Upd.sparesPart .pcx)) (s : State) : (p.run s).pcx = s.pcx := hp.same (q := .pcx) s
theorem Prog.Only.kpr {p : Prog} (hp : p.Only (Upd.sparesPart .kpr)) (s : State) : (p.run s).kpr = s.kpr := hp.same (q := .kpr) s
theorem Prog.Only.hif {p : Prog} (hp : p.Only (Upd.sparesPart .hif)) (s : State) : (p.run s).hif = s.hif := hp.same (q := .hif) s
theorem Prog.Only.cqe {p : Prog} (hp : p.Only (Upd.sparesPart .cqe)) (s : State) : (p.run s).cqe = s.cqe := hp.same (q := .cqe) s
theorem Prog.Only.bmu {p : Prog} (hp : p.Only (Upd.sparesPart .bmu)) (s : State) : (p.run s).bmu = s.bmu := hp.same (q := .bmu) s
theorem Prog.Only.dmf {p : Prog} (hp : p.Only (Upd.sparesPart .dmf)) (s : State) : (p.run s).dmf = s.dmf := hp.same (q := .dmf) s
theorem Prog.Only.mpc {p : Prog} (hp : p.Only (Upd.sparesPart .mpc)) (s : State) : (p.run s).mpc = s.mpc := hp.same (q := .mpc) s
theorem Prog.Only.rdc {p : Prog} (hp : p.Only (Upd.sparesPart .rdc)) (s : State) : (p.run s).rdc = s.rdc := hp.same (q := .rdc) s
theorem Prog.Only.wrc {p : Prog} (hp : p.Only (Upd.sparesPart .wrc)) (s : State) : (p.run s).wrc = s.wrc := hp.same (q := .wrc) s
theorem Prog.Only.sve {p : Prog} (hp : p.Only (Upd.sparesPart .sve)) (s : State) : (p.run s).sve = s.sve := hp.same (q := .sve) s
theorem Prog.Only.spn {p : Prog} (hp : p.Only (Upd.sparesPart .spn)) (s : State) : (p.run s).spn = s.spn := hp.same (q := .spn) s
theorem Prog.Only.pwr {p : Prog} (hp : p.Only (Upd.sparesPart .pwr)) (s : State) : (p.run s).pwr = s.pwr := hp.same (q := .pwr) s
theorem Prog.Only.spl {p : Prog} (hp : p.Only (Upd.sparesPart .spl)) (s : State) : (p.run s).spl = s.spl := hp.same (q := .spl) s
theorem Prog.Only.out {p : Prog} (hp : p.Only (Upd.sparesPart .out)) (s : State) : (p.run s).out = s.out := hp.same (q := .out) s
theorem Prog.Only.freeCtr {p : Prog} (hp : p.Only (Upd.sparesPart .free)) (s : State) : (p.run s).freeCtr = s.freeCtr := hp.same (q := .free) s

/-- A program among listed things leaves the rest. -/
theorem Prog.Only.changesOnly {rs : List RegName} {ps : List Part} {m : Bool} {p : Prog} (hp : p.Only (Upd.among (· ∈ rs) (· ∈ ps) (m = true))) (s : State) :
    ChangesOnly rs ps m s (p.run s) := by
  have h : ∀ (u : Upd), u.among (· ∈ rs) (· ∈ ps) (m = true) → (∀ r, r ∉ rs → u.spares r) ∧ (∀ q, q ∉ ps → u.sparesPart q) ∧ (m = false → u.sparesMem) := by
    intro u hu
    refine ⟨fun r hr => ?_, fun q hq => ?_, fun hm => ?_⟩
    · cases u with
      | fld f i v => exact fun e => hr (e ▸ hu)
      | reg f i v => exact fun e => hr (e ▸ hu)
      | regsReset f => exact fun r' i hf e => hr (e ▸ hu r' i hf)
      | _ => trivial
    · cases u <;> first | trivial | (exact fun e => hq (e ▸ hu)) | (exact fun _ _ _ => trivial)
    · cases u <;> first | trivial | (exact fun _ _ _ => trivial) | (exact absurd hu (by simp [Upd.among, hm]))
  exact ⟨fun r i hr => (hp.mono fun u hu => (h u hu).1 r hr).reg s i, fun q hq => (hp.mono fun u hu => (h u hu).2.1 q hq).same s,
    fun hm a => (hp.mono fun u hu => (h u hu).2.2 hm).byte s a, Prog.run_pending p s⟩

section
variable {rs : List RegName} {ps : List Part} {m : Bool} {s t : State}

theorem ChangesOnly.refl (s : State) : ChangesOnly rs ps m s s := ⟨fun _ _ _ => rfl, fun p _ => by cases p <;> rfl, fun _ _ => rfl, rfl⟩
theorem ChangesOnly.trans {a b c : State} (h : ChangesOnly rs ps m a b) (k : ChangesOnly rs ps m b c) : ChangesOnly rs ps m a c :=
  ⟨fun r i hi => (k.1 r i hi).trans (h.1 r i hi), fun p hp => Part.same_trans (h.2.1 p hp) (k.2.1 p hp),
    fun hm x => (k.2.2.1 hm x).trans (h.2.2.1 hm x), k.2.2.2.trans h.2.2.2⟩
theorem ChangesOnly.app {u : Upd} (hu : u.among (· ∈ rs) (· ∈ ps) (m = true)) (h : ChangesOnly rs ps m s t) : ChangesOnly rs ps m s (u.apply t) :=
  h.trans (Prog.Only.changesOnly (p := .upd u) hu t)
theorem ChangesOnly.prog {p : Prog} (hp : p.Only (Upd.among (· ∈ rs) (· ∈ ps) (m = true))) (h : ChangesOnly rs ps m s t) : ChangesOnly rs ps m s (p.run t) :=
  h.trans (hp.changesOnly t)
end

/-- Storing bytes changes memory, and what the cache notes of it. -/
theorem putBytes_only {R : RegName → Prop} {P : Part → Prop} {M : Prop} (hm : M) (a : Nat) (bs : List Byte) : (putBytes a bs).Only (Upd.among R P M) := by
  induction bs generalizing a with
  | nil => trivial
  | cons b l ih => exact ⟨hm, ih _⟩

end Sys2Proof.Machine
end

