-- ==== Sys2Proof/Laws/Fabric.lean ====
section
/-! SUPPORT. What a store over the memory fabric (R34 to R36) can touch: memory, the buffer cache, the count of denials, and the lines that FCU samples. -/
namespace Sys2Proof.Machine

/-- Registers that a store over the fabric writes. -/
def storeRegs : List RegName := [.PCX_PROT_STAT, .BMU_STAT, .BMU_EVB_STAT]
/-- Components that it writes. -/
def storeComps : List Part := [.fcu, .out, .bmu]

section
variable {R : RegName → Prop} {P : Part → Prop} {M : Prop}

theorem faultLine_among (m : Master) (typ a n src : Nat) (hr : R .PCX_PROT_STAT) (hp : P .fcu) : (faultLine m typ a n src).Only (Upd.among R P M) := by
  simp only [faultLine, lateLine, Only.seq, Only.when, Only.incF, Only.upd]
  exact ⟨fun _ _ => hr, hp⟩

theorem memBytes_among (a : Nat) (bs : List Byte) (hp : P .bmu) (hm : M) : (memBytes a bs).Only (Upd.among R P M) := by
  simp only [memBytes, storeMarks, Only.seq, Only.ask, Only.when, Only.upd]
  exact ⟨fun _ _ => hp, putBytes_only hm _ _⟩

theorem evbShow_among (hr : R .BMU_EVB_STAT) : evbShow.Only (Upd.among R P M) := fun _ => ⟨hr, hr⟩

theorem allocLine_among (l mask : Nat) (d : Bool) (old : List Byte) (pf : Bool) (hr : R .BMU_EVB_STAT) (hp : P .bmu) (ho : P .out) :
    (allocLine l mask d old pf).Only (Upd.among R P M) := by
  simp only [allocLine, Only.ask, Only.cons, Only.nil, Only.upd, touchWay, and_true]
  refine fun s => ⟨?_, hp, hp, evbShow_among hr⟩
  split
  · simp only [Only.when, evbWritten, Only.cons, Only.nil, Only.upd, emit]
    repeat' first | exact hp | exact ho | exact evbShow_among hr | trivial | intro _ | constructor
  · trivial

theorem lineStore_among (c a n : Nat) (hr : R .BMU_EVB_STAT) (hp : P .bmu) (ho : P .out) : (lineStore c a n).Only (Upd.among R P M) := by
  simp only [lineStore, Only.ask, Only.seq, Only.when, trackStore]
  refine fun s => ⟨?_, fun _ _ => hp⟩
  split
  · exact hp
  · simp only [Only.ite, Only.skip, Only.seq, Only.upd, implies_true, true_and]
    exact fun _ => ⟨fun _ => ⟨hp, evbShow_among hr⟩, fun _ => allocLine_among _ _ _ _ _ hr hp ho⟩

theorem linesOut_among (a n : Nat) (hp : P .bmu) : (linesOut a n).Only (Upd.among R P M) := by
  simp only [linesOut, Only.each, Only.ask, Only.when, Only.seq, checkRead, lineOut, Only.upd]
  exact fun _ _ _ _ => ⟨fun _ _ => hp, fun _ => hp⟩

theorem dramStore_among (m : Master) (a : Nat) (bs : List Byte) (hr : ∀ r ∈ storeRegs, R r) (hp : ∀ p ∈ storeComps, P p) (hm : M) :
    (dramStore m a bs).Only (Upd.among R P M) := by
  have hb := hp _ (show Part.bmu ∈ storeComps by decide)
  simp only [dramStore, dramAwake, Only.cons, Only.nil, Only.whenS, Only.setF, Only.each, and_true]
  exact ⟨fun _ _ => hr _ (by decide), fun _ _ => lineStore_among _ _ _ (hr _ (by decide)) hb (hp _ (by decide)), memBytes_among _ _ hb hm, linesOut_among _ _ hb⟩

/-- A store over the fabric touches nothing but these. -/
theorem fabricStore_among (m : Master) (a : Nat) (bs : List Byte) (hr : ∀ r ∈ storeRegs, R r) (hp : ∀ p ∈ storeComps, P p) (hm : M) :
    (fabricStore m a bs).Only (Upd.among R P M) := by
  simp only [fabricStore, Only.each, Only.ask]
  intro x _ s
  split
  · exact faultLine_among _ _ _ _ _ (hr _ (by decide)) (hp _ (by decide))
  · rw [Only.ite]
    exact ⟨fun _ => dramStore_among _ _ _ hr hp hm, fun _ => memBytes_among _ _ (hp _ (by decide)) hm⟩
end

/-- It leaves every other register and component. -/
theorem fabricStore_changes (m : Master) (a : Nat) (bs : List Byte) (s : State) : ChangesOnly storeRegs storeComps true s ((fabricStore m a bs).run s) :=
  (fabricStore_among m a bs (fun _ h => h) (fun _ h => h) rfl).changesOnly s

end Sys2Proof.Machine
end

