-- ==== Sys2Proof/Laws/Ops.lean ====
section
/-! SUPPORT. Shared operations, said once: a command of the Keeper, an event that is counted and goes no further. -/
namespace Sys2Proof.Machine

@[simp] theorem keeperOnly_keeper (r : RegName) (i : Nat) (p : Prog) : keeperOnly .keeper r i p = p := rfl
theorem keeperOnly_other (m : Master) (r : RegName) (i : Nat) (p : Prog) (h : m ≠ .keeper) : keeperOnly m r i p = deny m r i := if_neg h

/-- Whether an event would be quiet depends on its source's registers and FCU's island alone. -/
@[simp] theorem Upd.apply_quiet (u : Upd) (s : State) (h : u.onRegs = false) (i : Nat) : (u.apply s).quiet i ↔ s.quiet i := by
  simp only [State.quiet, State.on, State.islandOn, State.bitF, State.severeNext, Upd.apply_get u s h]

@[simp] theorem quiet_fld (s : State) (f : Fld) (j v i : Nat) (h : f.reg ≠ .FCU_SRC_CFG ∧ f.reg ≠ .FCU_SRC_STAT ∧ f.reg ≠ .PTM_ISL_PWR) :
    ((Upd.fld f j v).apply s).quiet i ↔ s.quiet i := by
  simp only [State.quiet, State.on, State.islandOn, State.bitF, State.severeNext, State.get, State.reg_fld_ne s f .FCU_SRC_CFG j i v (.inl h.1),
    State.reg_fld_ne s f .FCU_SRC_STAT j i v (.inl h.2.1), State.reg_fld_ne s f .PTM_ISL_PWR j 0 v (.inl h.2.2), FCU_SRC_CFG.EN, FCU_SRC_CFG.N,
    FCU_SRC_STAT.SEVERE, FCU_SRC_STAT.WCNT, PTM_ISL_PWR.ON]
  exact Iff.rfl

/-- What an event's capture keeps of its detail whatever the source. -/
theorem eventDetail_parts (i : Nat) (c : FCap) :
    (eventDetail i c).mid % 256 = c.mid % 256 ∧ (eventDetail i c).typ % 16 = c.typ % 16 ∧ (eventDetail i c).size % 16 = c.size % 16 := by
  unfold eventDetail
  split <;> exact ⟨rfl, rfl, rfl⟩

/-- A quiet event is captured and counted, and nothing else. -/
theorem raise_quiet {s : State} {i : Nat} (c : FCap) (h : s.quiet i) : (raise i c).run s = (count i).run ((capture i (eventDetail i c)).run s) := by
  obtain ⟨h1, h2, h3, h4⟩ := h
  simp only [raise, Prog.run_ask, h1, h2, h3, h4, Bool.false_eq_true, Bool.not_true, or_self, if_false, Prog.run_all_cons, Prog.run_all_nil, Prog.run_when]

theorem capture_only (i j : Nat) (c : FCap) : (capture j c).Only (Upd.within (countRegs i) [] []) := by
  simp +decide [Machine.capture, Upd.within, countRegs]

theorem count_only (i : Nat) : (count i).Only (Upd.within (countRegs i) [.fcu] []) := by
  simp +decide [Machine.count, windowNote, Upd.within, countRegs]

/-- A quiet event changes the capture registers, its source's counts and the start of its window alone. -/
theorem raise_unchanged {s : State} {i : Nat} (c : FCap) (h : s.quiet i) : Unchanged (countRegs i) [.fcu] [] s ((raise i c).run s) := by
  rw [raise_quiet c h]
  exact (((capture_only i i _).unchanged s).mono (fun _ h => h) (by simp) (by simp)).trans ((count_only i).unchanged _)

/-- An event that is not severe is counted. -/
theorem count_quiet {s : State} {i : Nat} (h : s.severeNext i = false) :
    (count i).run s = (incF FCU_SRC_STAT.TOTAL i).run ((incF FCU_SRC_STAT.WCNT i).run ((windowNote i).run s)) := by
  simp only [Machine.count, Prog.run_ask, Prog.run_all_cons, Prog.run_all_nil, Prog.run_when, h, Bool.false_eq_true, if_false]

/-- The start of a window is no field of a register. -/
theorem windowNote_get (s : State) (i j : Nat) (f : Fld) : ((windowNote i).run s).get f j = s.get f j := by
  simp only [windowNote, Prog.run_ask, Prog.run_upd]
  exact Upd.apply_get _ _ rfl _ _

/-- Capture leaves what judges an event. -/
theorem capture_get (s : State) (i j : Nat) (c : FCap) (f : Fld) (h : f.reg ≠ .FCU_FEC_INFO ∧ f.reg ≠ .FCU_FEC_ADDR ∧ f.reg ≠ .FCU_FEC_TIME) :
    ((capture i c).run s).get f j = s.get f j := by
  obtain ⟨h1, h2, h3⟩ := h
  have a1 : ∀ (t : State) (v : Nat) (g : Fld), g.reg = .FCU_FEC_INFO → ((Upd.fld g 0 v).apply t).get f j = t.get f j :=
    fun t v g e => State.get_fld_reg t g f 0 j v (by rw [e]; exact h1.symm)
  simp only [Machine.capture, Prog.run_ask, Prog.run_ite]
  split
  · exact a1 _ _ _ rfl
  · simp only [Prog.run_all_cons, Prog.run_all_nil, Prog.run_setF]
    rw [State.get_fld_reg _ FCU_FEC_TIME.TIME f 0 j _ h3.symm, State.get_fld_reg _ FCU_FEC_ADDR.ADDR f 0 j _ h2.symm, a1 _ _ _ rfl, a1 _ _ _ rfl,
      a1 _ _ _ rfl, a1 _ _ _ rfl, a1 _ _ _ rfl]

/-- Counting leaves every field of another register. -/
theorem count_get {s : State} {i : Nat} (hq : s.severeNext i = false) (f : Fld) (j : Nat) (h : f.reg ≠ .FCU_SRC_STAT) : ((count i).run s).get f j = s.get f j := by
  rw [count_quiet hq]
  simp only [Prog.run_incF]
  rw [State.get_fld_reg _ FCU_SRC_STAT.TOTAL f i j _ h.symm, State.get_fld_reg _ FCU_SRC_STAT.WCNT f i j _ h.symm, windowNote_get]

/-- A quiet event is counted, and captured or marked. -/
theorem raise_counted {s : State} {i : Nat} (c : FCap) (h : s.quiet i) : Counted i c s ((raise i c).run s) := by
  have hw := State.get_lt s FCU_SRC_STAT.WCNT i
  have ht := State.get_lt s FCU_SRC_STAT.TOTAL i
  have e1 : satAdd (s.get FCU_SRC_STAT.WCNT i) 1 255 % 2 ^ 8 = satAdd (s.get FCU_SRC_STAT.WCNT i) 1 255 := Nat.mod_eq_of_lt (by simp only [satAdd]; omega)
  have e2 : satAdd (s.get FCU_SRC_STAT.TOTAL i) 1 255 % 2 ^ 8 = satAdd (s.get FCU_SRC_STAT.TOTAL i) 1 255 := Nat.mod_eq_of_lt (by simp only [satAdd]; omega)
  have hq : ((capture i (eventDetail i c)).run s).severeNext i = false := by
    have := h.2.2.2
    simp only [State.severeNext, State.on, capture_get s i i _ FCU_SRC_STAT.SEVERE (by decide), capture_get s i i _ FCU_SRC_CFG.N (by decide),
      capture_get s i i _ FCU_SRC_STAT.WCNT (by decide)] at *
    exact this
  rw [raise_quiet c h]
  refine ⟨?_, ?_, ?_⟩
  · rw [count_quiet hq]
    simp only [Prog.run_incF]
    rw [State.get_fld_bits _ FCU_SRC_STAT.TOTAL FCU_SRC_STAT.WCNT i i _ (by decide), State.get_fld_self _ _ _ _ (by decide),
      windowNote_get, capture_get s i i _ FCU_SRC_STAT.WCNT (by decide)]
    exact e1
  · rw [count_quiet hq]
    simp only [Prog.run_incF]
    rw [State.get_fld_self _ _ _ _ (by decide), State.get_fld_bits _ FCU_SRC_STAT.WCNT FCU_SRC_STAT.TOTAL i i _ (by decide),
      windowNote_get, capture_get s i i _ FCU_SRC_STAT.TOTAL (by decide)]
    exact e2
  · simp only [count_get hq FCU_FEC_INFO.VALID 0 (by decide), count_get hq FCU_FEC_INFO.MULTI 0 (by decide), count_get hq FCU_FEC_INFO.SRC 0 (by decide),
      count_get hq FCU_FEC_INFO.MID 0 (by decide), count_get hq FCU_FEC_INFO.TYPE 0 (by decide), count_get hq FCU_FEC_INFO.SIZE 0 (by decide)]
    by_cases hv : s.on FCU_FEC_INFO.VALID 0
    · simp (disch := decide) [Machine.capture, hv, State.get_of_on s FCU_FEC_INFO.VALID 0 rfl hv]
    · simp (disch := decide) [Machine.capture, hv]
      exact ⟨rfl, eventDetail_parts i c⟩

/-- Registers that judge an event of source `i`, or show what it did, are none of `rs`. -/
def apart (rs : List (RegName × Nat)) (i : Nat) : Bool :=
  !rs.contains (.FCU_SRC_CFG, i) && !rs.contains (.FCU_SRC_STAT, i) && !rs.contains (.PTM_ISL_PWR, 0) && !rs.contains (.FCU_FEC_INFO, 0)

/-- What is apart from an event leaves it quiet. -/
theorem quiet_after {rs : List (RegName × Nat)} {ps : List Part} {ms : List (Nat × Nat)} {p : Prog} (hp : p.Only (Upd.within rs ps ms)) {s : State} {i : Nat}
    (ha : apart rs i = true) (h : s.quiet i) : (p.run s).quiet i := by
  simp only [apart, Bool.and_eq_true, Bool.not_eq_true', List.contains_eq_mem, decide_eq_false_iff_not] at ha
  obtain ⟨⟨⟨a1, a2⟩, a3⟩, a4⟩ := ha
  have u1 := hp.unchanged s
  simp only [State.quiet, State.on, State.islandOn, State.bitF, State.severeNext, u1.get FCU_SRC_CFG.EN i a1, u1.get FCU_SRC_CFG.N i a1,
    u1.get FCU_SRC_STAT.SEVERE i a2, u1.get FCU_SRC_STAT.WCNT i a2, u1.get PTM_ISL_PWR.ON 0 a3] at *
  exact h

/-- Before and after an event that is counted, other things happen. -/
theorem reported {rs : List (RegName × Nat)} {ps : List Part} {ms : List (Nat × Nat)} {p q : Prog} (hp : p.Only (Upd.within rs ps ms)) (hq : q.Only (Upd.within rs ps ms))
    {s : State} {i : Nat} (c : FCap) (ha' : apart rs i = true) (h : s.quiet i) :
    Unchanged (countRegs i ++ rs) (.fcu :: ps) ms s (q.run ((raise i c).run (p.run s))) ∧ Counted i c s (q.run ((raise i c).run (p.run s))) := by
  have ha := ha'
  simp only [apart, Bool.and_eq_true, Bool.not_eq_true', List.contains_eq_mem, decide_eq_false_iff_not] at ha
  obtain ⟨⟨⟨a1, a2⟩, a3⟩, a4⟩ := ha
  have k1 : ∀ x ∈ rs, x ∈ countRegs i ++ rs := fun _ h => List.mem_append_right _ h
  have u1 := hp.unchanged s
  have h1 : (p.run s).quiet i := quiet_after hp ha' h
  have u2 := raise_unchanged c h1
  have u3 := hq.unchanged ((raise i c).run (p.run s))
  have k2 : ∀ x ∈ ps, x ∈ .fcu :: ps := fun _ h => List.mem_cons_of_mem _ h
  refine ⟨(u1.mono k1 k2 (fun _ h => h)).trans
    ((u2.mono (fun _ h => List.mem_append_left _ h) (by simp) (by simp)).trans (u3.mono k1 k2 (fun _ h => h))), ?_⟩
  · have k := raise_counted c h1
    simp only [Counted, State.on, u1.get FCU_SRC_STAT.WCNT i a2, u1.get FCU_SRC_STAT.TOTAL i a2, u1.get FCU_FEC_INFO.VALID 0 a4, u1.get FCU_FEC_INFO.SRC 0 a4,
      u3.get FCU_SRC_STAT.WCNT i a2, u3.get FCU_SRC_STAT.TOTAL i a2, u3.get FCU_FEC_INFO.VALID 0 a4, u3.get FCU_FEC_INFO.SRC 0 a4,
      u3.get FCU_FEC_INFO.MULTI 0 a4, u3.get FCU_FEC_INFO.MID 0 a4, u3.get FCU_FEC_INFO.TYPE 0 a4, u3.get FCU_FEC_INFO.SIZE 0 a4] at *
    exact k

/-- A quiet event leaves every component but FCU's. -/
theorem raise_same {s : State} {i : Nat} (c : FCap) (h : s.quiet i) (p : Part) (hp : p ≠ .fcu) : p.same s ((raise i c).run s) :=
  (raise_unchanged c h).2.1 p (by simpa using hp)

/-- A quiet event leaves the registers of every other block. -/
theorem raise_get {s : State} {i : Nat} (c : FCap) (h : s.quiet i) (f : Fld) (j : Nat)
    (hf : f.reg ≠ .FCU_SRC_STAT ∧ f.reg ≠ .FCU_FEC_INFO ∧ f.reg ≠ .FCU_FEC_ADDR ∧ f.reg ≠ .FCU_FEC_TIME) : ((raise i c).run s).get f j = s.get f j :=
  (raise_unchanged c h).get f j (by simp [countRegs, hf])

/-- The same, by names of registers: what is apart from an event, then the event. -/
theorem reportedOnly {rs : List RegName} {ps : List Part} {m : Bool} {p : Prog} (hp : p.Only (Upd.among (· ∈ rs) (· ∈ ps) (m = true)))
    (ha : .FCU_SRC_CFG ∉ rs ∧ .FCU_SRC_STAT ∉ rs ∧ .PTM_ISL_PWR ∉ rs ∧ .FCU_FEC_INFO ∉ rs) {s : State} {i : Nat} (c : FCap) (h : s.quiet i) :
    (p.run s).quiet i ∧ Counted i c s ((raise i c).run (p.run s)) ∧
      ChangesOnly ([.FCU_SRC_STAT, .FCU_FEC_INFO, .FCU_FEC_ADDR, .FCU_FEC_TIME] ++ rs) (.fcu :: ps) m s ((raise i c).run (p.run s)) := by
  obtain ⟨a1, a2, a3, a4⟩ := ha
  have u := hp.changesOnly s
  have g : ∀ (f : Fld) (j : Nat), f.reg ∉ rs → (p.run s).get f j = s.get f j := fun f j hf => by simp only [State.get, u.1 f.reg j hf]
  have h1 : (p.run s).quiet i := by
    simp only [State.quiet, State.on, State.islandOn, State.bitF, State.severeNext, g FCU_SRC_CFG.EN i a1, g FCU_SRC_CFG.N i a1,
      g FCU_SRC_STAT.SEVERE i a2, g FCU_SRC_STAT.WCNT i a2, g PTM_ISL_PWR.ON 0 a3] at *
    exact h
  refine ⟨h1, ?_, ?_⟩
  · have k := raise_counted c h1
    simp only [Counted, State.on, g FCU_SRC_STAT.WCNT i a2, g FCU_SRC_STAT.TOTAL i a2, g FCU_FEC_INFO.VALID 0 a4, g FCU_FEC_INFO.SRC 0 a4] at *
    exact k
  · have k := raise_unchanged c h1
    refine ⟨fun r j hr => ?_, fun q hq => Part.same_trans (u.2.1 q fun h => hq (List.mem_cons_of_mem _ h)) (k.2.1 q fun h => hq (by simpa using Or.inl (List.mem_singleton.1 h))), fun hm a => ?_, k.2.2.2.trans u.2.2.2⟩
    · simp only [List.mem_append, not_or] at hr
      refine (k.1 r j ?_).trans (u.1 r j hr.2)
      intro e
      apply hr.1
      simp only [countRegs, List.mem_cons, Prod.mk.injEq, List.not_mem_nil, or_false] at *
      tauto
    · exact (k.2.2.1 a (by simp)).trans (u.2.2.1 hm a)

end Sys2Proof.Machine
end

