-- ==== Sys2Proof/Laws/Gates.lean ====
section
/-! SUPPORT. What closing write gates does (R166 to R168) and what it can touch. -/
namespace Sys2Proof.Machine

/-- Registers that closing gates writes. -/
def gateRegs : List RegName := [.WRC_WR_STAT, .WRC_WUS_STAT, .WRC_RWL_PTR, .WRC_RWL_CTL] ++ storeRegs

section
variable {R : RegName → Prop} {P : Part → Prop}

theorem rewriteEntry_among (x : SecInfo) (c : Nat) (adj : Bool) (hr : R .WRC_RWL_PTR) (hs : ∀ r ∈ storeRegs, R r) (hp : ∀ p ∈ storeComps, P p) (hw : P .wrc) :
    (rewriteEntry x c adj).Only (Upd.among R P True) := by
  simp only [rewriteEntry, fabricWords, Only.ask, Only.cons, Only.nil, Only.setF, Only.upd, and_true]
  exact fun _ => ⟨fabricStore_among _ _ _ hs hp trivial, hr, hw⟩

theorem rewriteInterrupted_among (w c : Nat) (hr : R .WRC_RWL_PTR) (hs : ∀ r ∈ storeRegs, R r) (hp : ∀ p ∈ storeComps, P p) (hw : P .wrc) :
    (rewriteInterrupted w c).Only (Upd.among R P True) := by
  have h : ∀ x adj c, (rewriteEntry x c adj).Only (Upd.among R P True) := fun x adj c => rewriteEntry_among x c adj hr hs hp hw
  simp only [rewriteInterrupted, Only.ask]
  intro s
  split
  · trivial
  · simp only [Only.cons, Only.nil, Only.when, h, true_and, and_true]
    intro _
    split
    · rw [Only.ite]
      exact ⟨fun _ => ⟨h _ _ _, hw⟩, fun _ => trivial⟩
    · trivial

theorem wusShow_among {M : Prop} (h1 : R .WRC_WUS_STAT) (h2 : R .WRC_RWL_CTL) (hw : P .wrc) : wusShow.Only (Upd.among R P M) := by
  simp only [wusShow, noteCleared, Only.ask, Only.cons, Only.nil, Only.setF, Only.when, Only.upd, and_true]
  exact fun _ => ⟨h1, h1, fun _ _ => hw, h2⟩

theorem closeGate_among (w c : Nat) (f : Bool) (hr : ∀ r ∈ gateRegs, R r) (hp : ∀ p ∈ storeComps, P p) (hw : P .wrc) :
    (closeGate w c f).Only (Upd.among R P True) := by
  have hs : R .WRC_WR_STAT := hr _ (by simp [gateRegs])
  have h := rewriteInterrupted_among w c (hr _ (by simp [gateRegs])) (fun r m => hr r (by simp [gateRegs, m])) hp hw
  simp only [closeGate, Only.ask, Only.ite, Only.cons, Only.nil, Only.when, Only.skip, send, setWriter, Only.emit, Only.upd, Only.setF, h, and_true, implies_true]
  refine fun _ _ => ⟨hs, fun _ => hs, hp .out (by decide), fun _ => hs, fun _ => hs, ?_, trivial, hw⟩
  split
  · exact hw
  · trivial

theorem closeGates_among (ws : List Nat) (c : Nat) (hr : ∀ r ∈ gateRegs, R r) (hp : ∀ p ∈ storeComps, P p) (hw : P .wrc) :
    (closeGates ws c).Only (Upd.among R P True) :=
  ⟨(Only.each _ _ _).2 fun w _ => closeGate_among w c false hr hp hw, wusShow_among (hr _ (by simp [gateRegs])) (hr _ (by simp [gateRegs])) hw⟩
end

/-- A gate that closes is closed. -/
theorem closeGate_closed (w c : Nat) (f : Bool) (s : State) : ((closeGate w c f).run s).get WRC_WR_STAT.GATE w = 0 := by
  have hr : ∀ t : State, ((rewriteInterrupted w c).run t).get WRC_WR_STAT.GATE w = t.get WRC_WR_STAT.GATE w :=
    fun t => (rewriteInterrupted_among w c (by decide) (by decide) (fun _ _ => trivial) trivial).get (f := WRC_WR_STAT.GATE) t w
  simp only [closeGate, Prog.run_ask, Prog.run_ite]
  split
  · simp only [Prog.run_all_cons, Prog.run_all_nil, setWriter, Prog.run_upd, Prog.run_when, Prog.run_setF, Prog.run_send]
    rw [Upd.apply_get _ _ rfl]
    cases (s.writer w).sector <;> simp only [bufferDrop, Prog.run_upd, Prog.run_skip] <;> split_ifs <;> simp +decide [hr]
  · rename_i h
    simpa [State.on] using h

/-- The other gates stay. -/
theorem closeGate_other (w c : Nat) (f : Bool) (v : Nat) (hv : w ≠ v) (s : State) : ((closeGate w c f).run s).get WRC_WR_STAT.GATE v = s.get WRC_WR_STAT.GATE v := by
  have hr : ∀ t : State, ((rewriteInterrupted w c).run t).get WRC_WR_STAT.GATE v = t.get WRC_WR_STAT.GATE v :=
    fun t => (rewriteInterrupted_among w c (by decide) (by decide) (fun _ _ => trivial) trivial).get (f := WRC_WR_STAT.GATE) t v
  have hf : ∀ (t : State) (g : Fld) (x : Nat), ((Upd.fld g w x).apply t).get WRC_WR_STAT.GATE v = t.get WRC_WR_STAT.GATE v :=
    fun t g x => State.get_fld_ne t g _ w v x (.inr (.inl hv))
  simp only [closeGate, Prog.run_ask, Prog.run_ite]
  split
  · simp only [Prog.run_all_cons, Prog.run_all_nil, setWriter, Prog.run_upd, Prog.run_when, Prog.run_setF, Prog.run_send]
    rw [Upd.apply_get _ _ rfl]
    cases (s.writer w).sector <;> simp only [bufferDrop, Prog.run_upd, Prog.run_skip] <;> split_ifs <;>
      simp only [hr, hf, Upd.apply_get _ _ (Upd.onRegs_emit _), Upd.apply_get _ _ (Upd.onRegs_wrc _)]
  · rfl

/-- Every gate named is closed. -/
theorem closeGates_closed (ws : List Nat) (c w : Nat) (h : w ∈ ws) (s : State) : ((closeGates ws c).run s).get WRC_WR_STAT.GATE w = 0 := by
  have hk : ∀ (l : List Nat) (t : State), t.get WRC_WR_STAT.GATE w = 0 → ((each l fun w => closeGate w c false).run t).get WRC_WR_STAT.GATE w = 0 := by
    intro l
    induction l with
    | nil => exact fun _ h => h
    | cons a l ih =>
      intro t ht
      rw [Prog.run_each_cons]
      apply ih
      by_cases ha : a = w
      · subst ha; exact closeGate_closed a c false t
      · rw [closeGate_other a c false w ha, ht]
  have hc : ∀ (l : List Nat) (t : State), w ∈ l → ((each l fun w => closeGate w c false).run t).get WRC_WR_STAT.GATE w = 0 := by
    intro l
    induction l with
    | nil => exact fun _ h => absurd h (by simp)
    | cons a l ih =>
      intro t ht
      rw [Prog.run_each_cons]
      by_cases ha : w ∈ l
      · exact ih _ ha
      · have e : w = a := by simpa [ha] using ht
        subst e
        exact hk l _ (closeGate_closed w c false t)
  rw [closeGates, Prog.run_seq, Prog.Only.get (f := WRC_WR_STAT.GATE) (wusShow_among (by decide) (by decide) trivial)]
  exact hc ws s h

/-- What closing gates leaves of WRC: all but its writers, the rows under way, the sectors to be written again, what its buffers hold and the times of sources'
ends, and of a writer its power-loss source. -/
def gatesOnly (s t : State) : Prop :=
  (∃ a b c d e, t.wrc = { s.wrc with writers := a, rows := b, again := c, cleared := d, buffer := e }) ∧ ∀ v, (t.writer v).powerLoss = (s.writer v).powerLoss

theorem gatesOnly_of_wrc {s t : State} (h : t.wrc = s.wrc) : gatesOnly s t := ⟨⟨_, _, _, _, _, h⟩, fun v => by simp only [State.writer, h]⟩

theorem gatesOnly_trans {a b c : State} (h : gatesOnly a b) (k : gatesOnly b c) : gatesOnly a c := by
  obtain ⟨⟨_, _, _, _, _, e⟩, p⟩ := h
  obtain ⟨⟨_, _, _, _, _, e'⟩, p'⟩ := k
  exact ⟨⟨_, _, _, _, _, by rw [e', e]⟩, fun v => (p' v).trans (p v)⟩

/-- An update that closing a gate may make. -/
def Upd.gates (u : Upd) : Prop := ∀ s, gatesOnly s (u.apply s)

theorem Upd.gates_of_spares {u : Upd} (h : u.sparesPart .wrc) : u.gates := fun s =>
  gatesOnly_of_wrc (Prog.Only.wrc (p := .upd u) h s)

theorem Prog.Only.gates {p : Prog} (hp : p.Only (Upd.sparesPart .wrc)) : p.Only Upd.gates := hp.mono fun _ => Upd.gates_of_spares

theorem rewriteEntry_gates (x : SecInfo) (c : Nat) (adj : Bool) : (rewriteEntry x c adj).Only Upd.gates := by
  simp only [rewriteEntry, fabricWords, Only.ask, Only.cons, Only.nil, Only.setF, Only.upd, and_true]
  exact fun _ => ⟨(fabricStore_among _ _ _ (fun _ _ => trivial) (by decide) trivial).gates, Upd.gates_of_spares trivial,
    fun s => ⟨⟨_, _, _, _, _, rfl⟩, fun _ => rfl⟩⟩

theorem wusShow_gates : wusShow.Only Upd.gates := by
  simp only [wusShow, noteCleared, Only.ask, Only.cons, Only.nil, Only.setF, Only.when, Only.upd, and_true]
  exact fun _ => ⟨Upd.gates_of_spares trivial, Upd.gates_of_spares trivial, fun _ _ s => ⟨⟨_, _, _, _, _, rfl⟩, fun _ => rfl⟩, Upd.gates_of_spares trivial⟩

theorem setWriter_gates (w : Nat) (f : Writer → Writer) (h : ∀ x, (f x).powerLoss = x.powerLoss) : (setWriter w f).Only Upd.gates := by
  refine fun s => ⟨⟨_, _, _, _, _, rfl⟩, fun v => ?_⟩
  simp only [State.writer, Upd.apply_wrc]
  by_cases hv : v = w
  · subst hv; simp [h]
  · rw [Sparse.get_put_ne _ _ _ _ _ _ hv]

theorem closeGate_gates (w c : Nat) (f : Bool) : (closeGate w c f).Only Upd.gates := by
  have hi : (rewriteInterrupted w c).Only Upd.gates := by
    simp only [rewriteInterrupted, Only.ask]
    intro s
    split
    · trivial
    · simp only [Only.cons, Only.nil, Only.when, rewriteEntry_gates, true_and, and_true]
      intro _
      split
      · rw [Only.ite]
        exact ⟨fun _ => ⟨rewriteEntry_gates _ _ _, fun s => ⟨⟨_, _, _, _, _, rfl⟩, fun _ => rfl⟩⟩, fun _ => trivial⟩
      · trivial
  simp only [closeGate, Only.ask, Only.ite, Only.cons, Only.nil, Only.when, Only.skip, send, Only.emit, Only.setF, hi, and_true, implies_true]
  refine fun _ _ => ⟨Upd.gates_of_spares trivial, fun _ => Upd.gates_of_spares trivial, Upd.gates_of_spares (fun h => nomatch h), fun _ => Upd.gates_of_spares trivial,
    fun _ => Upd.gates_of_spares trivial, ?_, trivial, setWriter_gates _ _ fun _ => rfl⟩
  split
  · exact fun s => ⟨⟨_, _, _, _, _, rfl⟩, fun _ => rfl⟩
  · trivial

theorem closeGates_keeps (ws : List Nat) (c : Nat) (s : State) : gatesOnly s ((closeGates ws c).run s) :=
  Prog.Only.rel gatesOnly (fun _ => gatesOnly_of_wrc rfl) (fun _ _ _ => gatesOnly_trans) (fun _ s h => h s)
    (show (closeGates ws c).Only Upd.gates from ⟨(Only.each _ _ _).2 fun w _ => closeGate_gates w c false, wusShow_gates⟩) s

section
variable (ws : List Nat) (c : Nat) (s : State)
@[simp] theorem closeGates_offtrack : ((closeGates ws c).run s).wrc.offtrack = s.wrc.offtrack := by
  obtain ⟨⟨_, _, _, _, _, h⟩, _⟩ := closeGates_keeps ws c s
  rw [h]
@[simp] theorem closeGates_preamp : ((closeGates ws c).run s).wrc.preamp = s.wrc.preamp := by
  obtain ⟨⟨_, _, _, _, _, h⟩, _⟩ := closeGates_keeps ws c s
  rw [h]
@[simp] theorem closeGates_shock : ((closeGates ws c).run s).wrc.shock = s.wrc.shock := by
  obtain ⟨⟨_, _, _, _, _, h⟩, _⟩ := closeGates_keeps ws c s
  rw [h]
@[simp] theorem closeGates_forewarn : ((closeGates ws c).run s).wrc.forewarn = s.wrc.forewarn := by
  obtain ⟨⟨_, _, _, _, _, h⟩, _⟩ := closeGates_keeps ws c s
  rw [h]
@[simp] theorem closeGates_supply : ((closeGates ws c).run s).wrc.supply = s.wrc.supply := by
  obtain ⟨⟨_, _, _, _, _, h⟩, _⟩ := closeGates_keeps ws c s
  rw [h]
@[simp] theorem closeGates_safe : ((closeGates ws c).run s).wrc.safe = s.wrc.safe := by
  obtain ⟨⟨_, _, _, _, _, h⟩, _⟩ := closeGates_keeps ws c s
  rw [h]
@[simp] theorem closeGates_heater : ((closeGates ws c).run s).wrc.heater = s.wrc.heater := by
  obtain ⟨⟨_, _, _, _, _, h⟩, _⟩ := closeGates_keeps ws c s
  rw [h]
@[simp] theorem closeGates_pend : ((closeGates ws c).run s).wrc.pend = s.wrc.pend := by
  obtain ⟨⟨_, _, _, _, _, h⟩, _⟩ := closeGates_keeps ws c s
  rw [h]
@[simp] theorem closeGates_tags : ((closeGates ws c).run s).wrc.tags = s.wrc.tags := by
  obtain ⟨⟨_, _, _, _, _, h⟩, _⟩ := closeGates_keeps ws c s
  rw [h]
@[simp] theorem closeGates_waiting : ((closeGates ws c).run s).wrc.waiting = s.wrc.waiting := by
  obtain ⟨⟨_, _, _, _, _, h⟩, _⟩ := closeGates_keeps ws c s
  rw [h]
@[simp] theorem closeGates_powerLoss (v : Nat) : (((closeGates ws c).run s).writer v).powerLoss = (s.writer v).powerLoss := (closeGates_keeps ws c s).2 v
end

end Sys2Proof.Machine
end

