-- ==== Sys2Proof/WellFormed.lean ====
section
/-! DEFINITION. The commands that the spec's formats allow, beyond what the operand types already bound: lengths of payloads, lists that name nothing twice,
stores that stay within a line. -/
namespace Sys2Proof

/-- What a decode hands on has a sector's size (Table 4.3, R129): 4,112 bytes. -/
def Decode.wf (d : Decode) : Bool := d.bytes.length == 4112
def SectorObs.wf : SectorObs → Bool
  | .samples bits => decide (bits.length ≤ 37552)
  | .result r => r.d.all Decode.wf

/-- A command is well-formed. -/
def Instr.wf : Instr → Bool
  | .fcuSelfFault regs _ => decide regs.Nodup
  | .tcgRecv _ data => decide (data.length ≤ 65536)
  | .calIterationEnd vals _ _ => decide (vals.length ≤ 32)
  | .partialStoreMerge _ a bs => decide (1 ≤ bs.length ∧ a.toNat % 64 + bs.length ≤ 64 ∧ bs.length < 64)
  | .slotAssign _ slots => decide slots.Nodup
  | .budgetEntry blocks => decide blocks.Nodup
  | .writeAdmission _ slots => decide slots.Nodup
  | .vpdWrite off bytes => decide (off.toNat + bytes.length ≤ 65536)
  | .miVendorCommand words => decide (1 ≤ words.length ∧ words.length ≤ 64)
  | .passStart _ _ wants _ => decide (wants.map (·.slot)).Nodup
  | .sectorReadEnd _ _ _ _ _ _ _ _ _ d bits => d.all Decode.wf && decide (bits.length ≤ 37552)
  | .decodeCutoff _ _ _ _ c => c.o.wf
  | .ladderLevelBoundary _ _ _ _ r bits => r.d.all Decode.wf && decide (bits.length ≤ 37552)
  | .l1JobDone _ _ d => d.all Decode.wf
  | .relay _ _ _ data => data.length == 48
  | .memberArrival _ _ _ _ bytes _ _ => decide (bytes.length ≤ 4112)
  | .encodeMember _ _ recorded _ => match recorded with
    | some l => decide (l.length ≤ 4112)
    | none => true
  | .registerWrite .. | .readClear .. | .lowWordWrite .. | .fabricTransactionTimeout .. | .causewayRegisterAccess .. | .causewayRegisterResend .. |
    .causewayRegisterTimeout .. | .powerOn .. | .nreset .. | .keeperChipReset .. | .journalReplayDone .. | .bootComplete | .causewayHello .. |
    .heartbeatSend | .heartbeatTimeout | .causewayDown | .resume .. | .release | .status | .evt .. | .vcmTick .. | .vcmCmd .. | .vcmSamp .. | .spnDuty
    .. | .spnSamp .. | .retract .. | .railFault .. | .supplyWarning | .supplyWarningClear | .supplyLoss | .powerlossWriterAssert .. | .journalCopyDone |
    .lossRecovery | .armLatch .. | .retractTimeout .. | .spindleBrakeEnd | .handshakeTimeout .. | .avsPeriod .. | .avsEmergencyStep .. | .avsUnderrun ..
    | .demandRiseGrant .. | .thermalWarning .. | .throttleClear .. | .thermalShutdown .. | .requestActive .. | .requestIdleI1 .. | .requestIdleI2 .. |
    .requestIdleI3 .. | .requestStandby .. | .requestRetention .. | .requestService .. | .modeTransitionDone | .retentionReleaseTimeout | .retentionWake
    .. | .selfRefreshEntry | .safeEnter .. | .safeExit .. | .faultEvent .. | .escalationStep .. | .fcuWindowEnd .. | .fcuAck .. | .fcuRaise .. | .clrCnt
    .. | .captureClear .. | .fcuReload .. | .cmoClean .. | .cmoInvalidate .. | .cmoCleanInvalidate .. | .cmoDone .. | .irqClaim .. | .irqComplete .. |
    .machineTimer .. | .msipWrite .. | .protCommit .. | .watchdogKick .. | .watchdogStage1 .. | .watchdogStage2 .. | .pairMiscompare .. | .coreRun .. |
    .keeperMiscompare | .keeperRestartEntry | .resumed .. | .keeperRestartTimeout | .coreAccessFault .. | .atomicRegisterFault .. | .timeCsrRead .. |
    .merframeRead .. | .mermodeRead .. | .ferryPost .. | .ferryCancel .. | .ferryTake .. | .ferryDone .. | .ferryTakeTimeout .. | .ferryDoneTimeout .. |
    .ferryHello .. | .modeSet .. | .capSet .. | .modeGet .. | .hpPwrSet .. | .mapCommit .. | .bandUpdate .. | .bandUnreach .. | .bandRelocate .. |
    .headRetire .. | .keeperAutoRetire .. | .rebuildAdvance .. | .headGet .. | .bankWrite .. | .bankCommit .. | .sveWrite .. | .spin .. | .spnWrite .. |
    .orrSet .. | .planStage .. | .planSubmit .. | .planGet .. | .splWrite .. | .archStatus .. | .relayReq .. | .relayCfg .. | .relayReassemblyTimeout ..
    | .calRun .. | .calStatus .. | .svcWrite .. | .svyResult .. | .svyFull .. | .almGrant .. | .almClear .. | .almSummary .. | .fwLoad .. | .fwCommit ..
    | .fwInfo .. | .nsCreate .. | .nsDelete .. | .namespaceDeleteFinish .. | .nsAttach .. | .nsFormat .. | .tcgSend .. | .challenge .. | .debugUnlock ..
    | .debugLock .. | .regRead .. | .vlogGet .. | .vlogPut .. | .almRecordCommit | .almPost .. | .almCtlClear .. | .almClearDone | .almCursorWrite .. |
    .almWindowLatch .. | .almWindowAdvance .. | .calGo .. | .calLimitExpiry | .bucketLeak .. | .patrolDramRead .. | .patrolSramRead .. |
    .patrolEmramRead .. | .surveySliceStart .. | .surveySliceEnd .. | .surveySliceAbandon | .surveyBudgetExpiry | .repairGo .. | .missFillDone .. |
    .evictionWriteDone .. | .mntClean .. | .mntInvalidate .. | .mntCleanInvalidate .. | .mntDone | .wayOffRequest .. | .wayCleanDone .. |
    .wayPowerUpDone .. | .cacheDisable .. | .cacheDisableDone | .cacheEnable .. | .cacheEnableDone | .discardGo .. | .discardExecute | .cccAge |
    .cccFrameFill .. | .dmaCommit .. | .dmaResume .. | .dmaAbort .. | .dmaClear .. | .dmaBurstDone .. | .dmaDescriptorFetchDone .. | .dmaProgressTimeout
    .. | .dmaPageRequestTimeout .. | .iotlbInvalidate .. | .iotlbInvalidateDone | .sqTailDoorbell .. | .cqHeadDoorbell .. | .controllerEnable .. |
    .controllerReset .. | .shutdownNormal .. | .shutdownComplete .. | .shutdownAbrupt .. | .writeDataComplete .. | .commandAgeLimit .. |
    .handoffEntryWrite .. | .cqeDoneDw0 .. | .cqeDone .. | .actuatorClaim .. | .claimLeaseExpiry .. | .activationTimeout | .activationResume | .nvmeRead
    .. | .nvmeWrite .. | .nvmeFlush .. | .writeZeroes .. | .zoneOpen .. | .zoneClose .. | .zoneFinish .. | .zoneReset .. | .zoneOffline .. |
    .zoneManagementReceive .. | .zoneAppend .. | .identify .. | .getLogPage .. | .setFeatures .. | .getFeatures .. | .createIoSubmissionQueue .. |
    .createIoCompletionQueue .. | .deleteIoSubmissionQueue .. | .deleteIoCompletionQueue .. | .abort .. | .asynchronousEventRequest .. |
    .namespaceManagement .. | .namespaceAttachment .. | .formatNvm .. | .firmwareImageDownload .. | .firmwareCommit .. | .securitySend .. |
    .securityReceive .. | .vendorAdminCommand .. | .sasRead16 .. | .sasWrite16 .. | .synchronizeCache16 .. | .reportZones .. | .openZone .. | .closeZone
    .. | .finishZone .. | .resetWritePointer .. | .inquiry .. | .readCapacity16 .. | .reportLuns .. | .testUnitReady .. | .requestSense .. |
    .startStopUnit .. | .modeSense10 .. | .modeSelect10 .. | .writeBuffer .. | .readBuffer .. | .abortTask .. | .logicalUnitReset .. | .iTNexusReset ..
    | .queryTask .. | .mctpPacket .. | .nvmeMiBasicManagement | .readNvmeMiDataStructure .. | .subsystemHealthStatusPoll | .controllerHealthStatusPoll
    .. | .configurationSet .. | .configurationGet .. | .vpdRead .. | .miTunnelledAdmin .. | .hostLinkUp .. | .dlDown .. | .hostRecoveryTimeout .. |
    .perstAssert .. | .hotReset .. | .functionLevelReset .. | .linkDisable .. | .sasHardReset .. | .portDisable .. | .retrain .. | .passEnd .. |
    .ztabLoadDone .. | .wtabLoadDone .. | .rroLoadDone .. | .hpPowerUpDone .. | .hpIdleOff .. | .sectorPreambleStart .. | .preambleEnd .. |
    .clearanceDelivery .. | .readerLoss .. | .bothReadersLoss .. | .srForce .. | .retryOrderWrite .. | .hstSnap | .hstClr | .npDataAccess .. |
    .driftLogRead .. | .palHello .. | .preampLinkUpStart .. | .palStatus .. | .palAck .. | .palResend .. | .palErrorBurst .. | .palLinkLoss .. | .astId
    .. | .astMon .. | .writeSectorStart .. | .writeSectorEnd .. | .inhibitSet .. | .inhibitClear .. | .rowWritten .. | .wedgeArrival .. |
    .missingWedgeRemoval .. | .servoLoss .. | .microactuatorClampRemoval .. | .evFormation .. | .currentTick .. | .contextTrigger .. |
    .contextExecutionEnd .. | .cluCommit .. | .cluCommitApply .. | .serviceWrite .. | .trackingGraceExpiry | .trackingLimitExpiry | .parkTimeout .. |
    .seekGo .. | .load .. | .loadTimeout .. | .unload .. | .settleTimeout .. | .vibConversion .. | .shockEventStart .. | .shockEventEnd | .framePulse ..
    | .focPeriod .. | .spnStart .. | .spnStop .. | .sensePulseDone .. | .alignEnd | .observerLoss | .rampTimeout | .shortEnd | .catchTimeout |
    .spdSetWrite .. | .spnCommit .. | .splEnable .. | .splDisable .. | .hopSignalDetect .. | .hopTrainDone .. | .hopTrainTimeout .. | .hello .. |
    .helloTimeout .. | .straitSideLoss .. | .hopMarker .. | .straitUnknownFrame .. | .beacon .. | .beaconSend | .join .. | .leave .. | .dlyReq .. |
    .dlyRsp .. | .time .. | .plan .. | .planTimeout .. | .splPlanSubmit .. | .fwarn .. | .forewarnWindowEnd | .relaySend .. | .relayPop .. | .merInPulse
    .. | .parityReady .. | .keyLoad .. | .keyLock .. | .keyUnlock .. | .keyZeroise .. | .slotMapWrite .. | .headStateWrite .. | .ledStretchEnd |
    .perstDeassert .. | .controllerResetComplete .. | .interruptCoalescingTimeout .. | .operatingHourElapsed | .refclkHLoss | .refclkHReturn |
    .linkL1Entry .. | .linkL1Exit .. | .pmeTurnOff .. => true

end Sys2Proof
end

