-- ==== Sys2Proof/Tests/Slice0.lean ====
section
/-! SUPPORT. The model's own tests: an ill-formed term for each check of WellFormed, values of the spec's worked examples, and a state and operands that meet
the hypotheses of each statement. -/
namespace Sys2Proof.Machine
set_option maxRecDepth 100000
set_option Elab.async false

theorem test_ill_formed_fcuSelfFault : Instr.wf (.fcuSelfFault [3, 3] true) = false := by decide
theorem test_ill_formed_tcgRecv (l : List Byte) (h : 65536 < l.length) : Instr.wf (.tcgRecv 0 l) = false :=
  show decide (l.length ≤ 65536) = false from decide_eq_false (by omega)
theorem test_ill_formed_calIterationEnd : Instr.wf (.calIterationEnd (List.replicate 33 0) 0 true) = false := by decide
theorem test_ill_formed_partialStoreMerge : Instr.wf (.partialStoreMerge .keeper 60 [1, 2, 3, 4, 5]) = false := by decide
theorem test_ill_formed_slotAssign : Instr.wf (.slotAssign 0 [3, 3]) = false := by decide
theorem test_ill_formed_budgetEntry : Instr.wf (.budgetEntry [3, 3]) = false := by decide
theorem test_ill_formed_writeAdmission : Instr.wf (.writeAdmission 0 [3, 3]) = false := by decide
theorem test_ill_formed_vpdWrite : Instr.wf (.vpdWrite 0xFFFF [1, 2]) = false := by decide
theorem test_ill_formed_miVendorCommand : Instr.wf (.miVendorCommand []) = false := by decide
theorem test_ill_formed_passStart : Instr.wf (.passStart 0 false [{ slot := 1, track := 5, writer := none }, { slot := 1, track := 6, writer := none }] none) = false := by
  decide
theorem test_ill_formed_relay : Instr.wf (.relay ⟨0, 5, 0, 1, true⟩ true 0 [1]) = false := by decide

/-- A decode that hands on no bytes. -/
def noDecode : Decode := { iter := 3, unsat := 0, bytes := [], flips := 0, rel := [], llrs := [] }
theorem test_ill_formed_sectorReadEnd : Instr.wf (.sectorReadEnd 1 5 2 0 false false false none none (some noDecode) []) = false := by decide
theorem test_ill_formed_decodeCutoff : Instr.wf (.decodeCutoff 1 5 2 ⟨0, true⟩ ⟨3, .result ⟨none, false, some noDecode⟩⟩) = false := by decide
theorem test_ill_formed_ladderLevelBoundary : Instr.wf (.ladderLevelBoundary 1 0 true false ⟨none, false, some noDecode⟩ []) = false := by decide
theorem test_ill_formed_samples (l : List BitObs) (h : 37552 < l.length) : Instr.wf (.sectorReadEnd 1 5 2 0 false true false none none none l) = false :=
  show decide (l.length ≤ 37552) = false from decide_eq_false (by omega)
theorem test_ill_formed_l1JobDone : Instr.wf (.l1JobDone 1 0 (some noDecode)) = false := by decide
theorem test_ill_formed_memberArrival (l : List Byte) (h : 4112 < l.length) : Instr.wf (.memberArrival 5 0 0 0 l [] []) = false :=
  show decide (l.length ≤ 4112) = false from decide_eq_false (by omega)
theorem test_ill_formed_encodeMember (l : List Byte) (h : 4112 < l.length) : Instr.wf (.encodeMember 5 0 (some l) false) = false :=
  show decide (l.length ≤ 4112) = false from decide_eq_false (by omega)

/-- Chapter 23's worked example: SVE's BLK_ID, its address, and where RDC_LANE_AFE[28] lies. -/
theorem test_blk_id : State.reset.reg .BLK_ID 12 = 0x5356450C ∧ regAddr .BLK_ID 12 = 0x80CFFF00 ∧
    regWordAt 0xA00700 = some (.RDC_LANE_AFE, 28, false) := by decide +kernel

/-- Chapter 23's worked example: a mixed write by application core 1. -/
theorem test_mixed_write :
    let t := (regWrite (.app 1) .RDC_LANE_AFE 28 0x30060209).run ((all [setR .RDC_LANE_AFE 28 0x40040106, setF FCU_SRC_CFG.N 16 5]).run .reset)
    t.reg .RDC_LANE_AFE 28 = 0x30060206 ∧ t.reg .FCU_FEC_INFO 0 = 0x80100312 ∧ t.get FCU_FEC_ADDR.ADDR 0 = 0x80A00700 ∧
      t.reg .BLK_LOCK 10 = 0x100 := by decide +kernel

/-- Table 10.13: members 1 and 2 of a column are erased. -/
theorem test_column_100 :
    let known := ((List.range 16).filter fun j => j != 1 && j != 2).map fun j => (j, if j = 0 then (2 : Byte) else 0)
    eraseByte [1, 2] (eraseCoeffs [1, 2] 2) known = 1 ∧ eraseByte [1, 2] (eraseCoeffs [1, 2] 1) known = 3 := by decide +kernel

/-- Chapter 2's worked example: data member 5 and the parity member of row 33,333,333. -/
theorem test_row_paths : memberPath 33333333 5 = 10 ∧ memberPath 33333333 15 = 4 := by decide

/-- Table 21.9's record. -/
theorem test_alm_words : (almWords ⟨0x30A2C, 0x3900, 2, 3, false, false, 31207, 1805, 1412, [0x1000E, 0xFF, 0xFA, 0x7D0]⟩).take 7 =
    [0x39002340, 0x079E770D, 0x0005842C, 0x0001000E, 0x000000FF, 0x000000FA, 0x000007D0] := by decide +kernel

/-- Table 5.18: writer 6's entry for the sector that the shock cut, first in the ring. -/
theorem test_rewrite_entry :
    let s := (all [setF WRC_RWL_BASE.ADDR 0 0x105000, setF BMU_CFG.CHANNELS 0 2, setF BMU_CFG.SIZE 0 32]).run .reset
    let t := (rewriteEntry ⟨33333340, 2, 14, 20, 7, 37132⟩ cShock true).run s
    ofLeBytes ((List.range 8).map fun k => t.byte (0x105000000 + k)) = 0x9114E20001FCA05C := by decide +kernel

/-- Chapter 16's worked example: channel 2's registers, and the result header after the POST. -/
theorem test_ferry_addresses : regAddr .PCX_FRY_REQ 128 = 0x80410800 ∧ regAddr .PCX_FRY_RES 128 = 0x80410900 ∧ regAddr .PCX_FRY_DB 2 = 0x80410A00 ∧
    regAddr .PCX_FRY_STAT 2 = 0x80410A04 := by decide +kernel
theorem test_ferry_post : ∃ t, exec (.ferryPost (.app 2) 2 1) .reset = .next t ∧ t.reg .PCX_FRY_RES 128 = 0x40000001 := ⟨_, rfl, by decide +kernel⟩

/-- Table 15.10's examples: the shadows that BOOT writes. -/
theorem test_prot_attr : (bootRegions.run .reset).reg .PCX_PROT_ATTR 16 = 0x87050200 ∧ (bootRegions.run .reset).reg .PCX_PROT_ATTR 2 = 0xC33F3F00 := by
  decide +kernel

/-- The table gives no row any bits. -/
theorem test_no_word (n w : Nat) : decodeTableWord n w = none := rfl

/-- A decode that is good for member 2 of row 5. -/
def goodDecode : Decode := { iter := 3, unsat := 0, bytes := List.replicate 4108 0 ++ leBytes 4 (crc32 (sectorCrcBytes 5 2 (List.replicate 4108 0))).toNat, flips := 4, rel := [], llrs := [] }
theorem goodDecode_unsat : goodDecode.unsat.val = 0 := rfl
theorem goodDecode_bytes : goodDecode.bytes =
    List.replicate 4108 0 ++ leBytes 4 (crc32 (sectorCrcBytes 5 2 (List.replicate 4108 0))).toNat := rfl
theorem goodDecode_good : decodeGood goodDecode 5 2 = true :=
  decodeGood_of goodDecode 5 2 (List.replicate 4108 0) List.length_replicate goodDecode_unsat goodDecode_bytes

theorem witness_CausewayLink :
    (∃ (s : State) (_minor : Fin 16), (s.cwIsUp = false)) ∧
    (∃ (s : State) (major _minor : Fin 16), (s.cwIsUp = false) ∧ (major.val ≠ 1) ∧ (s.mode ≠ mBoot)) ∧
    (∃ (s : State), (s.beats = true)) ∧
    (∃ (s : State), (s.pwr.st = pdCommanded) ∧ (s.pwr.hbSeen + 400 ≤ s.ptm.ticks)) ∧
    (∃ (s : State) (m : Master), (m = .keeper) ∧ (s.cwIsUp = true) ∧ (s.pwr.st = pdHold ∨ s.pwr.st = pdAutonomous)) ∧
    (∃ (s : State), (s.pwr.st = pdCommanded) ∧ (s.get PWR_STAT.LATCHED 0 = 15) ∧ (s.turning = false)) :=
  ⟨⟨.reset, 15, by decide +kernel⟩,
    ⟨(all [setF PTM_MODE_STAT.MODE 0 1]).run .reset, 0, 0, by decide +kernel⟩,
    ⟨(all [setF PTM_CW_STAT.LINK 0 2, setF PWR_STAT.RAIL_OK 0 63, setF PTM_ISL_PWR.ON 0 0xFFFFFFFF, setF PTM_DOM_PWR.ON 0 0xFFFFFFFF]).run .reset, by decide +kernel⟩,
    ⟨(all [setPd fun x => { x with st := 1 }, .upd (.ptm fun p => { p with ticks := 400 }), .upd (.spn fun x => { x with rotor := 5 })]).run .reset, by decide +kernel⟩,
    ⟨(all [setF PTM_CW_STAT.LINK 0 2]).run .reset, .keeper, by decide +kernel⟩,
    ⟨(all [setPd fun x => { x with st := 1 }, setF PWR_STAT.LATCHED 0 15]).run .reset, by decide +kernel⟩⟩

theorem witness_MotorFrames :
    (∃ (s : State), (s.cwIsUp = true) ∧ (s.ptm.seqStep ≠ 5)) ∧
    (∃ (s : State), (s.cwIsUp = true) ∧ (s.ptm.seqStep ≠ 5) ∧ (s.get PWR_STAT.LATCHED 0 = 0)) ∧
    (∃ (s : State) (_mask : Fin 16), (s.pwr.st = pdCommanded)) ∧
    (∃ (s : State) (a : Fin 4) (_v : BitVec 16), (s.pwr.st = pdCommanded) ∧ (s.bitF PWR_STAT.RETRACTED 0 a = false)) ∧
    (∃ (s : State) (a : Fin 4) (_i _bemf : BitVec 16), (s.cwIsUp = true) ∧ (s.on SVE_CTX_CFG.ENABLE (20 + a) = true) ∧ ((s.ctx (20 + a)).trig = none)) ∧
    (∃ (s : State) (_u _v _w : BitVec 16), (s.pwr.st = pdCommanded)) ∧
    (∃ (s : State) (_mask : Fin 16), (s.pwr.st = pdCommanded)) :=
  ⟨⟨(all [setF PTM_CW_STAT.LINK 0 2]).run .reset, by decide +kernel⟩,
    ⟨(all [setF PTM_CW_STAT.LINK 0 2]).run .reset, by decide +kernel⟩,
    ⟨(all [setPd fun x => { x with st := 1 }]).run .reset, 15, by decide +kernel⟩,
    ⟨(all [setPd fun x => { x with st := 1 }]).run .reset, 3, 0x8000#16, by decide +kernel⟩,
    ⟨(all [setF PTM_CW_STAT.LINK 0 2, setF SVE_CTX_CFG.ENABLE 23 1]).run .reset, 3, 0x7FFF#16, 0, by decide +kernel⟩,
    ⟨(all [setPd fun x => { x with st := 1 }]).run .reset, 0xFFFF#16, 0, 0, by decide +kernel⟩,
    ⟨(all [setPd fun x => { x with st := 1 }]).run .reset, 15, by decide +kernel⟩⟩

theorem witness_SupplyEvents :
    (∃ (s : State) (k : Fin 6), (s.quiet k)) ∧
    (∃ (s : State), (s.wrc.supply = true) ∧ (s.get PWR_STAT.WARN 0 = 0) ∧ (s.get PWR_STAT.RAIL_OK 0 = 63) ∧ (s.ptm.causeAt + tickMs ≤ s.ptm.ticks)) ∧
    (∃ (s : State), (s.ptm.retention = true)) ∧
    (∃ (s : State), (s.ptm.retention = false) ∧ (s.ptm.plStep = 0)) ∧
    (∃ (s : State) (w : Fin 8), (s.ptm.plStep = 2) ∧ ((s.writer w).powerLoss = false) ∧ (∃ v < 8, v ≠ w.val ∧ (s.writer v).powerLoss = false) ∧ ((s.writer
      w).sector = none ∨ s.ptm.plAt + 160 ≤ s.ptm.ticks)) ∧
    (∃ (s : State) (a : Fin 4), (s.pwr.retracting.contains a.val = true) ∧ (s.cwIsUp = false)) ∧
    (∃ (s : State) (a : Fin 4), (s.pwr.retracting.contains a.val = true) ∧ (s.retractOver a = true)) ∧
    (∃ (s : State), (s.pwr.braking = true) ∧ (s.pwr.st = pdAutonomous) ∧ (s.pwr.retracting = [])) :=
  ⟨⟨(all [setF FCU_SRC_CFG.N 5 5]).run .reset, 5, by unfold State.quiet; decide +kernel⟩,
    ⟨(all [.upd (.wrc fun x => { x with supply := true }), setF PWR_STAT.RAIL_OK 0 63, .upd (.ptm fun p => { p with ticks := 8000 })]).run .reset, by decide +kernel⟩,
    ⟨(all [.upd (.ptm fun x => { x with retention := true })]).run .reset, by decide +kernel⟩,
    ⟨.reset, by decide +kernel⟩,
    ⟨(all [.upd (.ptm fun p => { p with plStep := 2 })]).run .reset, 7, by decide +kernel⟩,
    ⟨(all [setPd fun x => { x with st := 1, retracting := [3] }]).run .reset, 3, by decide +kernel⟩,
    ⟨(all [setPd fun x => { x with st := 1, retracting := [0] }, .upd (.ptm fun p => { p with ticks := 8000000 })]).run .reset, 0, by decide +kernel⟩,
    ⟨(all [setPd fun x => { x with st := 2, braking := true }]).run .reset, by decide +kernel⟩⟩

theorem witness_VoltageAndHeat :
    (∃ (s : State) (m : Int) (_isl : Fin 32), (s.on PTM_AVS_CFG.FIXED 0 = false) ∧ (m < s.marginTarget)) ∧
    (∃ (s : State) (m : Int) (_isl : Fin 32), (s.on PTM_AVS_CFG.FIXED 0 = false) ∧ (s.marginTarget ≤ m)) ∧
    (∃ (s : State) (m : Int) (_isl : Fin 32), (s.on PTM_AVS_CFG.FIXED 0 = false) ∧ (m < s.emerTarget) ∧ (s.ptm.emerUsed = false)) ∧
    (∃ (s : State) (m : Int) (_isl : Fin 32), (m < 0) ∧ (s.get PTM_AVS_STAT.VSET 0 = s.vmax) ∧ (s.quiet 8)) ∧
    (∃ (s : State), (s.get PTM_CAP_STAT.U 0 ≠ s.wantU)) ∧
    (∃ (s : State), (s.get PTM_AVS_STAT.VSET 0 = s.vmax) ∧ (s.on PTM_AVS_CFG.FIXED 0 = false)) ∧
    (∃ (s : State) (tl tp : BitVec 8), (s.twarn ≤ max tl.toInt tp.toInt)) ∧
    (∃ (s : State) (tl tp : BitVec 8), (s.on PTM_CAP_STAT.THROTTLE 0 = true) ∧ (max tl.toInt tp.toInt ≤ s.twarn - 5) ∧ (s.ptm.hotAt + tickSec ≤ s.ptm.ticks)) ∧
    (∃ (s : State) (tl tp : BitVec 8), (s.ptm.retention = false) ∧ (s.safe = false) ∧ (s.ptm.plStep = 0) ∧ (s.tshut ≤ max tl.toInt tp.toInt)) ∧
    (∃ (s : State) (m : Master), (s.ptm.retention = false) ∧ (s.safe = false) ∧ (s.ptm.plStep = 0) ∧ (m = .keeper)) ∧
    (∃ (s : State) (_m : Master) (_typ _size : Fin 16) (_addr : PAddr), (s.quiet 20)) ∧
    (∃ (s : State) (_a _b : Fin 60) (_m : Master), (s.quiet 7)) ∧
    (∃ (s : State) (_a _b : Fin 60) (_k : Handshake), (s.quiet 7)) ∧
    (∃ (s : State), (s.cwIsUp = true) ∧ (s.ptm.retention = false) ∧ (s.safe = false) ∧ (s.ptm.plStep = 0) ∧ (s.quiet 6)) :=
  ⟨⟨.reset, 99, 0, by decide +kernel⟩,
    ⟨(all [.upd (.ptm fun x => { x with marginHigh := 99 })]).run .reset, 9000, 31, by decide +kernel⟩,
    ⟨.reset, -1, 0, by decide +kernel⟩,
    ⟨(all [setF FCU_SRC_CFG.N 8 5, setF PTM_AVS_STAT.VSET 0 0, setF PTM_AVS_CFG.VMAX 0 0]).run .reset, -1, 31, by unfold State.quiet; decide +kernel⟩,
    ⟨(all [setF PTM_CAP_STAT.U 0 0]).run .reset, by decide +kernel⟩,
    ⟨(all [setF PTM_AVS_STAT.VSET 0 0, setF PTM_AVS_CFG.VMAX 0 0]).run .reset, by decide +kernel⟩,
    ⟨.reset, 127, 127, by decide +kernel⟩,
    ⟨(all [setF PTM_CAP_STAT.THROTTLE 0 1, .upd (.ptm fun p => { p with ticks := 8000000 })]).run .reset, 0, 0, by decide +kernel⟩,
    ⟨.reset, 127, 127, by decide +kernel⟩,
    ⟨.reset, .keeper, by decide +kernel⟩,
    ⟨(all [setF FCU_SRC_CFG.N 20 5]).run .reset, .keeper, 0, 0, 0, by unfold State.quiet; decide +kernel⟩,
    ⟨(all [setF FCU_SRC_CFG.N 7 5]).run .reset, 0, 59, .keeper, by unfold State.quiet; decide +kernel⟩,
    ⟨(all [setF FCU_SRC_CFG.N 7 5]).run .reset, 0, 59, .read 3, by unfold State.quiet; decide +kernel⟩,
    ⟨(all [setF FCU_SRC_CFG.N 6 5, setF PTM_CW_STAT.LINK 0 2]).run .reset, by unfold State.quiet; decide +kernel⟩⟩

theorem witness_RegisterAccess :
    (∃ (s : State) (m : Master) (off : BitVec 24) (_v : BitVec 64) (r : RegName) (i : Nat), ((regInfo r).block ≠ 14) ∧ (regWordAt off.toNat = some (r, i,
      false)) ∧ (s.regFault m atWrite off.toNat 4 = none) ∧ (s.regDown r i = none) ∧ ((regInfo r).wide = false)) ∧
    (∃ (s : State) (m : Master) (off : BitVec 24) (v : BitVec 64) (r : RegName) (i : Nat), (([RegName.ALM_CTL, .ALM_CURSOR, .ALM_STAT, .BMU_CCC_BASE,
      .BMU_CCC_CFG, .BMU_CCC_NS, .BMU_CC_CTL, .BMU_CFG, .BMU_DISCARD, .BMU_MNT_CTL, .BMU_SLOT_BASE, .BMU_SLOT_CFG, .BMU_WAY_PWR, .CQE_CFG, .CQE_CLAIM,
      .CQE_DONE, .CQE_DONE_DW0, .CQE_HQ_BASE, .CQE_HQ_CTL, .CQE_HQ_PTR, .CQE_NS_BASE, .CQE_NS_CFG, .CQE_NS_ROWS, .CQE_OVL_CFG, .DMF_CH_ACT, .DMF_CH_ATP,
      .DMF_CH_CFG, .DMF_CH_CTL, .DMF_CH_FAULT_VA, .DMF_CH_PROG, .DMF_CH_SHD, .DMF_CH_STAT, .DMF_FP_MASK, .DMF_INV, .FCU_ACK, .FCU_CFG, .FCU_FEC_INFO,
      .FCU_RAISE, .FCU_RELOAD, .FCU_SRC_CFG, .FCU_SRC_STAT, .HIF_PORT_CTL, .MPC_KEY_CTL, .MPC_KEY_DATA, .MPC_VSN, .PCX_CMO_ADDR, .PCX_CMO_CTL,
      .PCX_CORE_CTL, .PCX_FRY_CFG, .PCX_FRY_DB, .PCX_FRY_KCTL, .PCX_FRY_REQ, .PCX_FRY_RES, .PCX_FRY_STAT, .PCX_IRQ_CLAIM, .PCX_IRQ_SRC, .PCX_IRQ_THR,
      .PCX_KPR_CTL, .PCX_MSIP, .PCX_MTIMECMP, .PCX_PROT_COMMIT, .PCX_WDT_KICK, .PTM_AVS_CFG, .PTM_CAP_CFG, .PTM_CW_CTL, .PTM_GPIO_DIR, .PTM_MODE_CTL,
      .PTM_SAFE_CTL, .PTM_THERM, .RDC_HST_CTL, .RDC_NP_DATA, .RDC_RETRY_ORDER, .SPL_CFG, .SPL_PLAN_CTL, .SPL_RLY_CTL, .SPN_COEF, .SPN_COMMIT, .SPN_CTL,
      .SPN_ORR_CFG, .SPN_STAT, .SVC_CAL_CTL, .SVC_CAL_REF, .SVC_LB_CFG, .SVC_LB_STAT, .SVC_PTL_BASE, .SVC_PTL_LIMIT, .SVC_REPAIR, .SVC_SVY_CFG,
      .SVE_CLU_CTL, .SVE_COEF, .SVE_CTX_CFG, .SVE_HEAD_STATE, .SVE_REBUILD, .SVE_SEEK_CMD, .SVE_SERVICE, .SVE_SLOT_MAP, .SVE_VFF_COEF, .WRC_CFG,
      .WRC_HEAD_CFG, .WRC_RWL_BASE, .WRC_RWL_CTL, .WRC_RWL_PTR, .WRC_WR_CTL]).contains r = false) ∧ (s.rdcPath r i = none) ∧ ((regInfo r).block ≠ 14) ∧
      (regWordAt off.toNat = some (r, i, false)) ∧ (s.regFault m atWrite off.toNat 4 = none) ∧ (s.regDown r i = none) ∧ ((regInfo r).wide = false) ∧
      (commonReg r = false) ∧ (s.writeDenied m r i (v.toNat % 2 ^ 32) = false)) ∧
    (∃ (s : State) (m : Master) (off : BitVec 24) (_v : BitVec 64) (r : RegName) (i : Nat), ((regInfo r).block ≠ 14) ∧ (regWordAt off.toNat = some (r, i,
      false)) ∧ (s.regFault m atWrite off.toNat 8 = none) ∧ (s.regDown r i = none) ∧ ((regInfo r).wide = true) ∧ (off.toNat % 8 = 0)) ∧
    (∃ (s : State) (m : Master) (off : BitVec 24) (_v : BitVec 64) (r : RegName) (i : Nat), ((regInfo r).block ≠ 14) ∧ (regWordAt off.toNat = some (r, i, true))
      ∧ (s.regFault m atWrite off.toNat 4 = none) ∧ (s.regDown r i = none)) ∧
    (∃ (s : State) (m : Master) (off : BitVec 24) (size : Fin 4) (_v : BitVec 64), (size.val = 2) ∧ (regWordAt off.toNat = none) ∧ (off.toNat / 0x100000 ≠ 14) ∧
      (s.regFault m atWrite off.toNat 4 = none)) ∧
    (∃ (s : State) (m : Master) (off : BitVec 24) (_v : Word) (r : RegName) (i : Nat), ((regInfo r).block ≠ 14) ∧ (regWordAt off.toNat = some (r, i, false)) ∧
      (s.regFault m atWrite off.toNat 4 = none) ∧ (s.regDown r i = none) ∧ ((regInfo r).wide = true)) ∧
    (∃ (s : State) (m : Master) (off : BitVec 24) (_v : Word) (r : RegName) (i : Nat), ((regInfo r).block ≠ 14) ∧ (regWordAt off.toNat = some (r, i, false)) ∧
      (s.regFault m atWrite off.toNat 4 = none) ∧ (s.regDown r i = none) ∧ ((regInfo r).wide = false)) ∧
    (∃ (s : State) (m : Master) (off : BitVec 24) (r : RegName) (i : Nat), ((regInfo r).block ≠ 14) ∧ (regWordAt off.toNat = some (r, i, false)) ∧ (s.regFault m
      atRead off.toNat 4 = none) ∧ (s.regDown r i = none) ∧ ((regInfo r).wide = false)) ∧
    (∃ (s : State) (m : Master) (off : BitVec 24) (r : RegName) (i : Nat), (r ∉ [RegName.PTM_GPIO_IN, .PTM_HSW_LOG, .ALM_WIN, .PCX_IRQ_CLAIM, .MPC_EVT_LOG,
      .RDC_NP_DATA, .SVE_DRIFT_LOG, .PCX_FRY_RES]) ∧ ((regInfo r).block ≠ 14) ∧ (regWordAt off.toNat = some (r, i, false)) ∧ (s.regFault m atRead off.toNat
      4 = none) ∧ (s.regDown r i = none) ∧ ((regInfo r).wide = false)) ∧
    (∃ (s : State) (m : Master) (off : BitVec 24) (r : RegName) (i : Nat), (r ∉ [RegName.PTM_HSW_LOG, .SVE_DRIFT_LOG]) ∧ ((regInfo r).block ≠ 14) ∧ (regWordAt
      off.toNat = some (r, i, false)) ∧ (s.regFault m atRead off.toNat 4 = none) ∧ (s.regDown r i = none) ∧ ((regInfo r).wide = true) ∧ ((regFields r).all
      (fun f => f.acc != .rc) = true)) ∧
    (∃ (s : State) (m : Master) (off : BitVec 24) (r : RegName) (i : Nat), ((regInfo r).block ≠ 14) ∧ (regWordAt off.toNat = some (r, i, true)) ∧ (s.regFault m
      atRead off.toNat 4 = none) ∧ (s.regDown r i = none)) ∧
    (∃ (s : State) (m : Master) (off : BitVec 24) (r : RegName) (i : Nat), (r ∉ [RegName.PTM_HSW_LOG, .SVE_DRIFT_LOG]) ∧ ((regInfo r).block ≠ 14) ∧ (regWordAt
      off.toNat = some (r, i, false)) ∧ (s.regFault m atRead off.toNat 8 = none) ∧ (s.regDown r i = none) ∧ ((regInfo r).wide = true) ∧ (off.toNat % 8 = 0)
      ∧ ((regFields r).all (fun f => f.acc != .rc) = true)) ∧
    (∃ (s : State) (m : Master) (off : BitVec 24) (size : Fin 4), (size.val = 2) ∧ (regWordAt off.toNat = none) ∧ (off.toNat / 0x100000 ≠ 14) ∧ (s.regFault m
      atRead off.toNat 4 = none)) ∧
    (∃ (s : State) (m : Master) (off : BitVec 20) (r : RegName) (i : Nat) (_v : Word), (s.cwIsUp = true) ∧ (regWordAt (0xE00000 + off.toNat) = some (r, i,
      false)) ∧ (commonReg r = false) ∧ (s.pwr.tags.all (fun e => e.1 != s.pwr.nextTag) = true) ∧ (s.pwr.open_.all (fun e => e.tag != s.pwr.nextTag) =
      true) ∧ ((regFields r).all (fun f => f.acc != .rc) = true) ∧ (s.regFault m atRead (0xE00000 + off.toNat) 4 = none)) ∧
    (∃ (s : State) (m : Master) (off : BitVec 20) (r : RegName) (i : Nat) (v : Word), (s.cwIsUp = true) ∧ (regWordAt (0xE00000 + off.toNat) = some (r, i,
      false)) ∧ (commonReg r = false) ∧ (s.pwr.tags.all (fun e => e.1 != s.pwr.nextTag) = true) ∧ (s.pwr.open_.all (fun e => e.tag != s.pwr.nextTag) =
      true) ∧ ((regInfo r).wide = false) ∧ (masterOf m.id = some m) ∧ (r ∉ [RegName.PWR_SNS_CFG, .PWR_RET_CFG, .PWR_HU_CFG]) ∧ (s.regFault m atWrite
      (0xE00000 + off.toNat) 4 = none) ∧ (s.writeDenied m r i v.toNat = false)) ∧
    (∃ (s : State) (m : Master) (write : Bool) (off : BitVec 20) (_v : Word) (_rspLost : Bool), (s.cwIsUp = true) ∧ (s.regFault m (if write then atWrite else
      atRead) (0xE00000 + off.toNat) 4 = none)) ∧
    (∃ (s : State) (tag : BitVec 8) (c : CwAccess) (_rspLost : Bool), (s.pwr.open_.find? (fun c => c.tag == tag.toNat) = some c) ∧ (c.resent = false) ∧
      (s.cwIsUp = true) ∧ (c.since + 8 ≤ s.ptm.ticks)) ∧
    (∃ (s : State) (tag : BitVec 8) (c : CwAccess) (m : Master) (v e : Nat), (s.pwr.open_.find? (fun c => c.tag == tag.toNat) = some c) ∧ (c.resent = false) ∧
      (s.cwIsUp = true) ∧ (masterOf c.master = some m) ∧ (s.pwr.tags.find? (fun t => t.1 == c.tag) = some (c.tag, v, e)) ∧ (c.since + 8 ≤ s.ptm.ticks)) ∧
    (∃ (s : State) (tag : BitVec 8) (c : CwAccess) (m : Master), (s.pwr.open_.find? (fun c => c.tag == tag.toNat) = some c) ∧ (masterOf c.master = some m) ∧
      (s.quiet 19) ∧ (c.since + 16 ≤ s.ptm.ticks)) :=
  ⟨⟨.reset, .keeper, (BitVec.ofNat 24 (regAddr .SVE_TRAJ_LIM 0 + 0 - regBase)), 0x12345678#64, .SVE_TRAJ_LIM, 0, by decide +kernel⟩,
    ⟨.reset, .keeper, (BitVec.ofNat 24 (regAddr .SVE_TRAJ_LIM 0 + 0 - regBase)), 0x12345678#64, .SVE_TRAJ_LIM, 0, by decide +kernel⟩,
    ⟨.reset, .keeper, (BitVec.ofNat 24 (regAddr .PCX_MTIMECMP 1 + 0 - regBase)), 0x123456789ABCDEF0#64, .PCX_MTIMECMP, 1, by decide +kernel⟩,
    ⟨.reset, .keeper, (BitVec.ofNat 24 (regAddr .PCX_MTIMECMP 1 + 4 - regBase)), 7#64, .PCX_MTIMECMP, 1, by decide +kernel⟩,
    ⟨.reset, .keeper, 0x000F00, 2, 7#64, by decide +kernel⟩,
    ⟨.reset, .keeper, (BitVec.ofNat 24 (regAddr .PCX_MTIMECMP 1 + 0 - regBase)), 0xFFFFFFFF, .PCX_MTIMECMP, 1, by decide +kernel⟩,
    ⟨.reset, .keeper, (BitVec.ofNat 24 (regAddr .SVE_TRAJ_LIM 0 + 0 - regBase)), 0x12345678, .SVE_TRAJ_LIM, 0, by decide +kernel⟩,
    ⟨.reset, .keeper, (BitVec.ofNat 24 (regAddr .PCX_PROT_STAT 0 + 0 - regBase)), .PCX_PROT_STAT, 0, by decide +kernel⟩,
    ⟨.reset, .keeper, (BitVec.ofNat 24 (regAddr .PCX_PROT_STAT 0 + 0 - regBase)), .PCX_PROT_STAT, 0, by decide +kernel⟩,
    ⟨.reset, .keeper, (BitVec.ofNat 24 (regAddr .PTM_MER_TIME 0 + 0 - regBase)), .PTM_MER_TIME, 0, by decide +kernel⟩,
    ⟨.reset, .keeper, (BitVec.ofNat 24 (regAddr .PTM_MER_TIME 0 + 4 - regBase)), .PTM_MER_TIME, 0, by decide +kernel⟩,
    ⟨.reset, .keeper, (BitVec.ofNat 24 (regAddr .PTM_MER_TIME 0 + 0 - regBase)), .PTM_MER_TIME, 0, by decide +kernel⟩,
    ⟨.reset, .keeper, 0x000F00, 2, by decide +kernel⟩,
    ⟨(all [setF PTM_CW_STAT.LINK 0 2]).run .reset, .keeper, (BitVec.ofNat 20 (regInfo .PWR_STAT).offset), .PWR_STAT, 0, 0, by decide +kernel⟩,
    ⟨(all [setF PTM_CW_STAT.LINK 0 2]).run .reset, .keeper, (BitVec.ofNat 20 (regInfo .PWR_VCM_CFG).offset), .PWR_VCM_CFG, 0, 5, by decide +kernel⟩,
    ⟨(all [setF PTM_CW_STAT.LINK 0 2]).run .reset, .keeper, true, 4, 5, false, by decide +kernel⟩,
    ⟨(all [.upd (.ptm fun p => { p with ticks := 4000000 }), setF PTM_CW_STAT.LINK 0 2, setPd fun x => { x with open_ := [{ tag := 7, master := 1, write := true, offset := 4, value := 9 }] }]).run .reset, 7, { tag := 7, master := 1, write := true, offset := 4, value := 9 }, false, by decide +kernel⟩,
    ⟨(all [.upd (.ptm fun p => { p with ticks := 4000000 }), setF PTM_CW_STAT.LINK 0 2, setPd fun x => { x with tags := [(7, 3, 0)], open_ := [{ tag := 7, master := 1, write := false, offset := 4, value := 9 }] }]).run .reset, 7, { tag := 7, master := 1, write := false, offset := 4, value := 9 }, .keeper, 3, 0, by decide +kernel⟩,
    ⟨(all [.upd (.ptm fun p => { p with ticks := 4000000 }), setF FCU_SRC_CFG.N 19 5, setPd fun x => { x with open_ := [{ tag := 7, master := 1, write := true, offset := 4, value := 9 }] }]).run .reset, 7, { tag := 7, master := 1, write := true, offset := 4, value := 9 }, .keeper, by unfold State.quiet; decide +kernel⟩⟩

theorem witness_ResetAndBoot :
    (∃ (s : State) (_b : BootIn), (s.ptm.powered = false) ∧ (s.ptm.plStep = 0)) ∧
    (∃ (s : State) (_b : BootIn), (s.ptm.powered = true) ∧ (s.ptm.plStep = 0)) ∧
    (∃ (s : State) (_b : BootIn) (_keep : Bool), (s.ptm.powered = true) ∧ (s.ptm.plStep = 0) ∧ (s.ptm.retention = false) ∧ (s.get SVC_SVY_STAT.SHUT_ARM 0 = 0)) ∧
    (∃ (s : State) (_b : BootIn) (src : Fin 4) (rising : Bool), (s.ptm.retention = true) ∧ (s.wakeEnabled src rising = true)) ∧
    (∃ (s : State) (b : BootIn), (s.ptm.powered = false) ∧ (s.ptm.plStep = 0) ∧ (b.major = 1) ∧ (b.keeperA = true) ∧ (b.keeperB = true) ∧ (b.config = true) ∧
      (b.chFail = 0) ∧ (b.appA = true) ∧ (b.appB = true) ∧ (b.vaonLost = false) ∧ (b.device = []) ∧ (s.kpr.bootRegs.all (fun e => (regInfo (RegName.ofNat
      (e.1 % 512))).block != 0) = true) ∧ (s.kpr.repairTable = []) ∧ (s.kpr.fwNext = [])) ∧
    (∃ (s : State) (b : BootIn), (s.ptm.powered = true) ∧ (s.ptm.plStep = 0) ∧ (s.pwr.st = pdAutonomous) ∧ (b.major = 1) ∧ (b.keeperA = true) ∧ (b.keeperB =
      true) ∧ (b.config = true) ∧ (b.chFail = 0) ∧ (b.appA = true) ∧ (b.appB = true) ∧ (b.vaonLost = false) ∧ (b.device = []) ∧ (s.kpr.bootRegs.all (fun e
      => (regInfo (RegName.ofNat (e.1 % 512))).block != 0) = true) ∧ (s.kpr.repairTable = []) ∧ (s.kpr.fwNext = [])) ∧
    (∃ (s : State) (b : BootIn) (_keep : Bool), (s.ptm.powered = true) ∧ (s.ptm.plStep = 0) ∧ (s.ptm.retention = false) ∧ (s.get PCX_KPR_STAT.RESTART 0 = 0) ∧
      (s.get SVC_SVY_STAT.SHUT_ARM 0 = 0) ∧ (b.major = 1) ∧ (b.keeperA = true) ∧ (b.keeperB = true) ∧ (b.config = true) ∧ (b.chFail = 0) ∧ (b.appA = true)
      ∧ (b.appB = true) ∧ (b.vaonLost = false) ∧ (b.device = []) ∧ (s.kpr.bootRegs.all (fun e => (regInfo (RegName.ofNat (e.1 % 512))).block != 0) = true)
      ∧ (s.kpr.repairTable = []) ∧ (s.kpr.fwNext = [])) ∧
    (∃ (s : State) (b : BootIn) (src : Fin 4) (rising : Bool), (s.ptm.retention = true) ∧ (s.wakeEnabled src rising = true) ∧ (b.major = 1) ∧ (b.keeperA = true)
      ∧ (b.keeperB = true) ∧ (b.config = true) ∧ (b.chFail = 0) ∧ (b.appA = true) ∧ (b.appB = true) ∧ (b.vaonLost = false) ∧ (b.device = []) ∧
      (s.kpr.bootRegs.all (fun e => (regInfo (RegName.ofNat (e.1 % 512))).block != 0) = true) ∧ (s.kpr.repairTable = []) ∧ (s.kpr.fwNext = [])) ∧
    (∃ (s : State) (_b : BootIn), (s.get PTM_BOOT_STAT.STEP 0 = 8) ∧ (s.mode = mBoot) ∧ (s.ptm.bootStopped = false) ∧ (s.ptm.plStep = 0) ∧ (s.safe = false) ∧
      (s.get SVE_CMAP_CFG.ENABLE 0 = 1) ∧ (s.get PTM_MODE_STAT.LAST_WAKE 0 = 0)) ∧
    (∃ (s : State), (s.get PTM_BOOT_STAT.STEP 0 = 9) ∧ (s.mode = mBoot) ∧ (s.safe = false) ∧ (s.ptm.plStep = 0) ∧ (s.get SPN_STAT.AT_SPEED 0 = 1) ∧
      (s.usableActs.all s.loaded = true)) ∧
    (∃ (s : State), (s.ptm.plStep = 5) ∧ (s.ptm.plReturn = false) ∧ (s.ptm.nresetHeld = false) ∧ (s.pwr.st = pdLoss)) ∧
    (∃ (s : State), (s.ptm.plStep = 5) ∧ (s.ptm.plReturn = true ∨ s.ptm.nresetHeld = true)) ∧
    (∃ (s : State), (s.ptm.plStep = 5) ∧ (s.ptm.plReturn = false) ∧ (s.ptm.nresetHeld = false) ∧ (s.ptm.plReset = true) ∧ (s.pwr.st ≠ pdLoss)) ∧
    (∃ (s : State), (s.pwr.st = pdLoss) ∧ (s.ptm.plStep = 5)) ∧
    (∃ (s : State), (s.pwr.st = pdLoss) ∧ (s.ptm.plStep = 0) ∧ (s.ptm.powered = false)) :=
  ⟨⟨(all [.upd (.ptm fun p => { p with powered := false })]).run .reset, { major := 1, minor := 0, keeperA := true, keeperB := true, spi := false, config := true, chFail := 0, mapNew := true, mapOld := true, appA := true, appB := true, vaonLost := false, locked := [], svcBoot := false, factory := false, device := [] }, by decide +kernel⟩,
    ⟨.reset, { major := 1, minor := 0, keeperA := true, keeperB := true, spi := false, config := true, chFail := 0, mapNew := true, mapOld := true, appA := true, appB := true, vaonLost := false, locked := [], svcBoot := false, factory := false, device := [] }, by decide +kernel⟩,
    ⟨.reset, { major := 1, minor := 0, keeperA := true, keeperB := true, spi := false, config := true, chFail := 0, mapNew := true, mapOld := true, appA := true, appB := true, vaonLost := false, locked := [], svcBoot := false, factory := false, device := [] }, true, by decide +kernel⟩,
    ⟨(all [.upd (.ptm fun p => { p with retention := true }), setF PTM_WAKE_CFG.MGMT_EN 0 1]).run .reset, { major := 1, minor := 0, keeperA := true, keeperB := true, spi := false, config := true, chFail := 0, mapNew := true, mapOld := true, appA := true, appB := true, vaonLost := false, locked := [], svcBoot := false, factory := false, device := [] }, 2, true, by decide +kernel⟩,
    ⟨(all [.upd (.ptm fun p => { p with powered := false })]).run .reset, { major := 1, minor := 0, keeperA := true, keeperB := true, spi := false, config := true, chFail := 0, mapNew := true, mapOld := true, appA := true, appB := true, vaonLost := false, locked := [], svcBoot := false, factory := false, device := [] }, by decide +kernel⟩,
    ⟨(all [setPd fun x => { x with st := 2 }]).run .reset, { major := 1, minor := 0, keeperA := true, keeperB := true, spi := false, config := true, chFail := 0, mapNew := true, mapOld := true, appA := true, appB := true, vaonLost := false, locked := [], svcBoot := false, factory := false, device := [] }, by decide +kernel⟩,
    ⟨.reset, { major := 1, minor := 0, keeperA := true, keeperB := true, spi := false, config := true, chFail := 0, mapNew := true, mapOld := true, appA := true, appB := true, vaonLost := false, locked := [], svcBoot := false, factory := false, device := [] }, true, by decide +kernel⟩,
    ⟨(all [.upd (.ptm fun p => { p with retention := true }), setF PTM_WAKE_CFG.MGMT_EN 0 1]).run .reset, { major := 1, minor := 0, keeperA := true, keeperB := true, spi := false, config := true, chFail := 0, mapNew := true, mapOld := true, appA := true, appB := true, vaonLost := false, locked := [], svcBoot := false, factory := false, device := [] }, 2, true, by decide +kernel⟩,
    ⟨(all [setF PTM_BOOT_STAT.STEP 0 8, setF SVE_CMAP_CFG.ENABLE 0 1]).run .reset, { major := 1, minor := 0, keeperA := true, keeperB := true, spi := false, config := true, chFail := 0, mapNew := true, mapOld := true, appA := true, appB := true, vaonLost := false, locked := [], svcBoot := false, factory := false, device := [] }, by decide +kernel⟩,
    ⟨(all [setF PTM_BOOT_STAT.STEP 0 9, setF SPN_STAT.AT_SPEED 0 1, each (List.range 32) fun h => setF SVE_HEAD_STATE.STATE h 2]).run .reset, by decide +kernel⟩,
    ⟨(all [.upd (.ptm fun p => { p with plStep := 5, plArmed := true }), setPd fun x => { x with st := 3 }]).run .reset, by decide +kernel⟩,
    ⟨(all [.upd (.ptm fun p => { p with plStep := 5, plReturn := true })]).run .reset, by decide +kernel⟩,
    ⟨(all [.upd (.ptm fun p => { p with plStep := 5, plReset := true })]).run .reset, by decide +kernel⟩,
    ⟨(all [.upd (.ptm fun p => { p with plStep := 5 }), setPd fun x => { x with st := 3 }]).run .reset, by decide +kernel⟩,
    ⟨(all [.upd (.ptm fun p => { p with powered := false }), setPd fun x => { x with st := 3 }]).run .reset, by decide +kernel⟩⟩

theorem witness_ModeRequests :
    (∃ (s : State), (s.transOk { mode := mActive, ilvl := 0, ret := false } = true)) ∧
    (∃ (s : State), (s.transOk { mode := mIdle, ilvl := 1, ret := false } = true)) ∧
    (∃ (s : State), (s.transOk { mode := mIdle, ilvl := 2, ret := false } = true)) ∧
    (∃ (s : State), (s.transOk { mode := mIdle, ilvl := 3, ret := false } = true)) ∧
    (∃ (s : State), (s.transOk { mode := mStandby, ilvl := 0, ret := false } = true)) ∧
    (∃ (s : State), (s.transOk { mode := mStandby, ilvl := 0, ret := true } = true)) ∧
    (∃ (s : State), (s.transOk { mode := mService, ilvl := 0, ret := false } = true)) ∧
    (∃ (s : State), (s.transOk { mode := mService, ilvl := 0, ret := false } = false)) :=
  ⟨⟨(all [setF PTM_MODE_STAT.MODE 0 mIdle, setF PTM_MODE_STAT.ILVL 0 2]).run .reset, by decide +kernel⟩,
    ⟨(all [setF PTM_MODE_STAT.MODE 0 mActive, setF SVE_CMAP_CFG.ENABLE 0 1]).run .reset, by decide +kernel⟩,
    ⟨(all [setF PTM_MODE_STAT.MODE 0 mActive, setF SVE_CMAP_CFG.ENABLE 0 1]).run .reset, by decide +kernel⟩,
    ⟨(all [setF PTM_MODE_STAT.MODE 0 mActive, setF SVE_CMAP_CFG.ENABLE 0 1]).run .reset, by decide +kernel⟩,
    ⟨(all [setF PTM_MODE_STAT.MODE 0 mActive, setF SVE_CMAP_CFG.ENABLE 0 1]).run .reset, by decide +kernel⟩,
    ⟨(all [setF PTM_MODE_STAT.MODE 0 mStandby, setPort 0 fun p => { p with perst := true }, setPort 1 fun p => { p with l2 := true }]).run .reset, by decide +kernel⟩,
    ⟨(all [setF PTM_MODE_STAT.MODE 0 mActive, setF SVE_CMAP_CFG.ENABLE 0 1]).run .reset, by decide +kernel⟩,
    ⟨.reset, by decide +kernel⟩⟩

theorem witness_ModeChanges :
    (∃ (s : State), (s.ptm.target = some { mode := mService, ilvl := 0, ret := false }) ∧ (s.safe = false) ∧ (s.ptm.plStep = 0) ∧ (s.ptm.loads = []) ∧
      (s.cqe.cmds.any (fun c => !c.adm) = false)) ∧
    (∃ (s : State), (s.ptm.target = some { mode := mActive, ilvl := 0, ret := false }) ∧ (s.safe = false) ∧ (s.ptm.plStep = 0) ∧ (s.ptm.loads = []) ∧ (s.mode ≠
      mIdle ∧ s.mode ≠ mStandby ∨ s.get SPN_STAT.AT_SPEED 0 = 1 ∧ s.loadsOver = true)) ∧
    (∃ (s : State), (s.ptm.target = some { mode := mIdle, ilvl := 1, ret := false }) ∧ (s.safe = false) ∧ (s.ptm.plStep = 0) ∧ (s.ptm.loads = []) ∧ (s.sve.pass
      = []) ∧ (s.get SPN_STAT.AT_SPEED 0 = 1) ∧ (s.loadsOver = true)) ∧
    (∃ (s : State) (n : Nat), (n = 2 ∨ n = 3) ∧ (s.ptm.target = some { mode := mIdle, ilvl := n, ret := false }) ∧ (s.safe = false) ∧ (s.ptm.plStep = 0) ∧
      (s.get SVE_TRK_STAT.LOADED 0 = 0) ∧ (s.ptm.vpre = false) ∧ (s.get SPN_STAT.AT_SPEED 0 = 1)) ∧
    (∃ (s : State), (s.ptm.target = some { mode := mStandby, ilvl := 0, ret := false }) ∧ (s.safe = false) ∧ (s.ptm.plStep = 0) ∧ (s.budgetUsed = 0) ∧ (s.get
      SVE_TRK_STAT.LOADED 0 = 0) ∧ (s.ptm.vpre = false) ∧ (s.spn? = spOff) ∧ (s.get SVC_SVY_STAT.SHUT_ARM 0 = 0) ∧ (s.spindleUp = false)) ∧
    (∃ (s : State), (s.ptm.seqStep = 5) ∧ (s.pwr.st = pdCommanded) ∧ (s.ptm.releaseAt + 80 ≤ s.ptm.ticks)) ∧
    (∃ (s : State), (s.safe = true) ∧ (s.causePersists = false) ∧ (s.ptm.plStep = 0)) ∧
    (∃ (s : State), (s.safe = false ∨ s.causePersists = true ∨ s.ptm.plStep ≠ 0)) ∧
    (∃ (s : State) (_a : Fin 4) (_fw : Bool) (_wants : List Want) (_waiting : Option Nat), (s.mode = mIdle ∨ s.mode = mStandby) ∧ (s.ptm.retention = false) ∧
      (s.transOk { mode := mActive, ilvl := 0, ret := false } = true)) ∧
    (∃ (s : State) (a : Fin 4) (fw : Bool) (wants : List Want) (waiting : Option Nat), (s.mediaMode = true) ∧ (s.mayPass a fw = true) ∧ (s.rereadWants a = []) ∧
      (fw = true ∨ s.readsOnly a = false) ∧ (((grantWriters a waiting false).run s).select a wants ≠ []) ∧ (∀ w ∈ wants, (s.targetBands a w.track).all (fun
      b => s.recOk b a && !s.unreachBand a b) = true ∧ w.reg.val ≠ 1)) :=
  ⟨⟨(all [setF PTM_MODE_STAT.MODE 0 mActive, setF PTM_MODE_STAT.TRANS 0 1, .upd (.ptm fun p => { p with target := some { mode := mService, ilvl := 0, ret := false } })]).run .reset, by decide +kernel⟩,
    ⟨(all [setF PTM_MODE_STAT.MODE 0 mActive, setF PTM_MODE_STAT.TRANS 0 1, .upd (.ptm fun p => { p with target := some { mode := mActive, ilvl := 0, ret := false } }), setF PTM_MODE_STAT.MODE 0 5]).run .reset, by decide +kernel⟩,
    ⟨(all [setF PTM_MODE_STAT.MODE 0 mActive, setF PTM_MODE_STAT.TRANS 0 1, .upd (.ptm fun p => { p with target := some { mode := mIdle, ilvl := 1, ret := false } }), setF SPN_STAT.AT_SPEED 0 1, each (List.range 32) fun h => setF SVE_HEAD_STATE.STATE h 2]).run .reset, by decide +kernel⟩,
    ⟨(all [setF PTM_MODE_STAT.MODE 0 mActive, setF PTM_MODE_STAT.TRANS 0 1, .upd (.ptm fun p => { p with target := some { mode := mIdle, ilvl := 3, ret := false } }), setF SPN_STAT.AT_SPEED 0 1]).run .reset, 3, by decide +kernel⟩,
    ⟨(all [setF PTM_MODE_STAT.MODE 0 mActive, setF PTM_MODE_STAT.TRANS 0 1, .upd (.ptm fun p => { p with target := some { mode := mStandby, ilvl := 0, ret := false } })]).run .reset, by decide +kernel⟩,
    ⟨(all [.upd (.ptm fun p => { p with seqStep := 5, ticks := 80 }), setPd fun x => { x with st := 1 }]).run .reset, by decide +kernel⟩,
    ⟨(all [setF PTM_MODE_STAT.SAFE 0 1, setF PTM_CW_STAT.LINK 0 2, setF PCX_CORE_STAT.STATE 0 1, setF PTM_MODE_STAT.SAFE_CAUSE 0 7, setI PTM_THERM.TJ_LOGIC 0 30]).run .reset, by decide +kernel⟩,
    ⟨.reset, by decide +kernel⟩,
    ⟨(all [setF PTM_MODE_STAT.MODE 0 mIdle, setF PTM_MODE_STAT.ILVL 0 2]).run .reset, 0, false, [], none, by decide +kernel⟩,
    ⟨(all [setF PTM_MODE_STAT.MODE 0 mActive, setF SVE_CMAP_CFG.ENABLE 0 1, setF SVE_CMAP_BASE.ADDR 0 0x110000, memSealed 0x110000000 [0x80000000, 0x80000005, 0x80000005, 0x80000005, 0x80000005, 0x80000005, 0x80000005], setR .SVE_SLOT_MAP 0 0xBA98, setF SVE_HEAD_STATE.STATE 0 2, setF SVE_HEAD_STATE.STATE 1 2, setF SVE_HEAD_STATE.STATE 2 2, setF SVE_HEAD_STATE.STATE 3 2, setF SVE_TRK_STAT.LOADED 0 1, setF SVE_SEEK_STAT.STATE 0 skTracking, setF SVE_TRK_STAT.STATE 0 0, setF RDC_PAL_STAT.UP 0 1]).run .reset, 0, false, [{ slot := 0, track := 5, writer := some 0, cls := 0, reg := 0 }], none, by decide +kernel⟩⟩

theorem witness_FaultEvents :
    (∃ (s : State) (i : Fin 384) (_m : Option Master) (_typ _size : Fin 16) (_addr : PAddr), (s.fcu.asserted.contains i.val = false) ∧ (s.quiet i)) ∧
    (∃ (s : State) (i : Fin 384) (_m : Option Master) (_typ _size : Fin 16) (_addr : PAddr), (Sparse.get 0 s.fcu.equal i = 1) ∧ (s.quiet i)) ∧
    (∃ (s : State) (i : Fin 384) (_m : Option Master) (_typ _size : Fin 16) (_addr : PAddr), (s.fcu.asserted.contains i.val = false) ∧ (sourceReserved i =
      false) ∧ (s.get FCU_SRC_CFG.EN i = 1) ∧ (s.islandOn 2 = true) ∧ (s.severeNext i = true) ∧ (s.normalService = true) ∧ (s.get FCU_SELF.SELF_FLT 0 = 0)) ∧
    (∃ (s : State) (i : Fin 384) (_t0 : Bool) (_m : Option Master) (_typ _size : Fin 16) (_addr : PAddr), (sourceReserved i = false) ∧ (Sparse.get 0 s.fcu.equal
      i ≠ 1)) ∧
    (∃ (_s : State) (i : Fin 384) (_m : Option Master) (_typ _size : Fin 16) (_addr : PAddr), (sourceReserved i = false)) ∧
    (∃ (s : State) (i : Fin 384), (s.timerOver i = true) ∧ (s.normalService = true) ∧ (s.get FCU_SELF.SELF_FLT 0 = 0) ∧ (s.get FCU_SRC_STAT.STEP i = 1) ∧ (s.get
      PCX_KPR_STAT.RESTART 0 = 0)) ∧
    (∃ (s : State) (i : Fin 384), (s.timerOver i = true) ∧ (s.normalService = true) ∧ (s.get FCU_SELF.SELF_FLT 0 = 0) ∧ (s.get FCU_SRC_STAT.STEP i < 4)) ∧
    (∃ (s : State) (i : Fin 384), (s.windowOver i = true)) ∧
    (∃ (s : State) (i : Fin 512) (m : Master), (sourceReserved i = false) ∧ (m = .keeper ∨ s.ownerMayAck m i = true) ∧ (s.get FCU_SRC_STAT.PEND i = 1 ∨ s.get
      FCU_SRC_STAT.STEP i ≠ 0)) ∧
    (∃ (s : State) (i : Fin 512) (m : Master), (m.isCore = true) ∧ (320 ≤ i.val ∧ i.val ≤ 383) ∧ (s.quiet i)) ∧
    (∃ (s : State) (_valid _multi : Bool) (m : Master), (m = .keeper ∨ m.isApp = true ∧ s.appOwned (s.get FCU_FEC_INFO.SRC 0) = true)) ∧
    (∃ (s : State) (_regs : List (Fin 385)) (_p : Bool), (s.islandOn 2 = true)) ∧
    (∃ (s : State) (_regs : List (Fin 385)) (_p : Bool), (s.islandOn 2 = true) ∧ (s.ptm.retention = false) ∧ (s.safe = false) ∧ (s.ptm.plStep = 0) ∧
      (s.svc.calActive = false) ∧ (s.get PCX_KPR_STAT.RESTART 0 = 0)) ∧
    (∃ (s : State), (s.get FCU_SELF.SELF_FLT 0 = 1) ∧ (s.fcu.disagree = []) ∧ (s.fcu.persistent = false)) ∧
    (∃ (s : State), (s.get FCU_SELF.SELF_FLT 0 = 1) ∧ (s.fcu.disagree ≠ [] ∨ s.fcu.persistent = true)) ∧
    (∃ (s : State), (s.get FCU_SELF.SELF_FLT 0 = 1) ∧ (s.fcu.disagree = []) ∧ (s.fcu.persistent = false) ∧ (∀ i < 384, s.get FCU_SRC_STAT.PEND i = 0)) :=
  ⟨⟨(all [setF FCU_SRC_CFG.N 290 5]).run .reset, 290, none, 1, 2, 77, by unfold State.quiet; decide +kernel⟩,
    ⟨(all [setF FCU_SRC_CFG.N 290 5, .upd (.fcu fun x => { x with equal := Sparse.put 0 x.equal 290 1 })]).run .reset, 290, none, 1, 2, 77, by unfold State.quiet; decide +kernel⟩,
    ⟨(all [setF PTM_MODE_STAT.MODE 0 1, setF FCU_SRC_CFG.N 130 0]).run .reset, 130, none, 1, 2, 77, by decide +kernel⟩,
    ⟨.reset, 290, true, none, 1, 2, 77, by decide +kernel⟩,
    ⟨(all [.upd (.fcu fun x => { x with asserted := [290] })]).run .reset, 290, none, 1, 2, 77, by decide +kernel⟩,
    ⟨(all [setF PTM_MODE_STAT.MODE 0 1, setF FCU_SRC_STAT.STEP 130 1, .upd (.fcu fun x => { x with timers := [(130, 0)] })]).run .reset, 130, by decide +kernel⟩,
    ⟨(all [setF PTM_MODE_STAT.MODE 0 1, setF FCU_SRC_STAT.STEP 130 2, .upd (.fcu fun x => { x with timers := [(130, 0)] })]).run .reset, 130, by decide +kernel⟩,
    ⟨(all [.upd (.ptm fun p => { p with ticks := 300000000 }), setF FCU_SRC_CFG.WIN 383 5]).run .reset, 383, by decide +kernel⟩,
    ⟨(all [setF FCU_SRC_STAT.PEND 350 1, setF FCU_SRC_STAT.STEP 350 1]).run .reset, 350, .keeper, by decide +kernel⟩,
    ⟨(all [setF FCU_SRC_CFG.N 383 5]).run .reset, 383, .app 3, by unfold State.quiet; decide +kernel⟩,
    ⟨(all [setF FCU_FEC_INFO.VALID 0 1, setF FCU_SRC_CFG.OWNER 0 0]).run .reset, true, false, .app 1, by decide +kernel⟩,
    ⟨.reset, [384, 0], true, by decide +kernel⟩,
    ⟨.reset, [384, 0], true, by decide +kernel⟩,
    ⟨(all [setF FCU_SELF.SELF_FLT 0 1, setF PTM_MODE_STAT.MODE 0 1, setF FCU_SRC_STAT.PEND 5 1]).run .reset, by decide +kernel⟩,
    ⟨(all [setF FCU_SELF.SELF_FLT 0 1, .upd (.fcu fun x => { x with persistent := true })]).run .reset, by decide +kernel⟩,
    ⟨(all [setF FCU_SELF.SELF_FLT 0 1]).run .reset, by decide +kernel⟩⟩

theorem witness_AlmanacCommands :
    (∃ (s : State) (r : AlmRec), (s.alm.staged.head? = some r) ∧ (s.islandOn bALM = true) ∧ (s.get ALM_STAT.CLEARING 0 = 0) ∧ (s.alm.scanned = true) ∧
      (s.accessFault .alm atWrite (almAddr r.n) 32 = none) ∧ (r.n < 2 ^ 32)) ∧
    (∃ (s : State), (s.alm.staged.length < stagingSize)) ∧
    (∃ (s : State), (s.get ALM_STAT.CLEARING 0 = 0)) ∧
    (∃ (s : State), (s.get ALM_STAT.CLEARING 0 = 1)) ∧
    (∃ (s : State) (m : Master) (k : Nat) (v : Word), (s.almReaderOf m = some k) ∧ (newer (2 ^ 32) (s.get ALM_OLDEST.N 0) v.toNat = false) ∧ (newer (2 ^ 32)
      v.toNat s.almNext = false)) ∧
    (∃ (s : State) (m : Master) (k : Nat), (s.almReaderOf m = some k)) ∧
    (∃ (s : State) (m : Master) (k : Nat), (s.almReaderOf m = some k) ∧ ((s.almReader k).cursor ≠ s.almNext)) ∧
    (∃ (s : State), (s.get CQE_STAT.IO_OUT 0 = 0) ∧ (s.stretched = false)) ∧
    (∃ (s : State) (cls : Fin 2) (item : BitVec 8) (head : Fin 32), (s.svc.calActive = false) ∧ (calItemExists cls item.toNat = true) ∧ (head.val < 24) ∧
      (s.calCond cls item.toNat (if cls.val = 1 then head.val else 0) = true)) ∧
    (∃ (s : State) (_vals : List Word) (_q : Word) (inTol : Bool), (s.svc.calActive = true) ∧ (s.calCond s.svc.calClass s.svc.calItem s.svc.calHead = true) ∧
      (s.ptm.ticks ≤ s.calEnd) ∧ (inTol = false ∨ s.svc.calInTol < 3)) ∧
    (∃ (s : State) (_vals : List Word) (_q : Word), (s.svc.calActive = true) ∧ (s.calCond s.svc.calClass s.svc.calItem s.svc.calHead = true) ∧ (s.ptm.ticks ≤
      s.calEnd) ∧ (3 ≤ s.svc.calInTol)) ∧
    (∃ (s : State), (s.svc.calActive = true) ∧ (s.calEnd ≤ s.ptm.ticks)) ∧
    (∃ (s : State) (s0 : State), (s.svc.calActive = true) ∧ (s.calEnd ≤ s.ptm.ticks) ∧ (s.svc.calSaved = (calTargets s.svc.calClass s.svc.calItem
      s.svc.calHead).map fun e => (regKey e.1 e.2, (s0.reg e.1 e.2).toNat)) ∧ (∀ p < 16, s.hpPwr p ≠ pwActive) ∧ (∀ e ∈ calTargets s.svc.calClass
      s.svc.calItem s.svc.calHead, e.1 = .WRC_HEAD_CFG → s.wrcUsers e.1 e.2 = [])) :=
  ⟨⟨(all [.upd (.alm fun a => { a with scanned := true }), almEnter 5 2 3 true [1, 2, 3, 4], almEnter 7 2 3 true [1, 2, 3, 4]]).run .reset, { n := 1, code := 5, sev := 2, subsys := 3, keeper := true, lost := false, hours := 0, secs := 0, cycles := 0, p := [1, 2, 3, 4] }, by decide +kernel⟩,
    ⟨.reset, by decide +kernel⟩,
    ⟨.reset, by decide +kernel⟩,
    ⟨(all [setF ALM_STAT.CLEARING 0 1]).run .reset, by decide +kernel⟩,
    ⟨(all [setF ALM_NEWEST.N 0 9]).run .reset, .keeper, 0, 5, by decide +kernel⟩,
    ⟨(all [setF ALM_NEWEST.N 0 9, memWords almBase [5, 6]]).run .reset, .keeper, 0, by decide +kernel⟩,
    ⟨(all [setF ALM_NEWEST.N 0 9]).run .reset, .keeper, 0, by decide +kernel⟩,
    ⟨(all [.upd (.ptm fun p => { p with led0 := true, ticks := 8000000 })]).run .reset, by decide +kernel⟩,
    ⟨.reset, 0, 2, 0, by decide +kernel⟩,
    ⟨(all [.upd (.svc fun x => { x with calActive := true, calClass := 0, calItem := 1, calHead := 0 }), setF PTM_MODE_STAT.MODE 0 mService]).run .reset, [1, 2, 3], 9, true, by decide +kernel⟩,
    ⟨(all [.upd (.svc fun x => { x with calActive := true, calClass := 0, calItem := 1, calHead := 0 }), .upd (.svc fun x => { x with calInTol := 3, calItem := 2 }), setF PTM_MODE_STAT.MODE 0 mService]).run .reset, [1, 2, 3], 9, by decide +kernel⟩,
    ⟨(all [.upd (.svc fun x => { x with calActive := true, calClass := 0, calItem := 1, calHead := 0 }), .upd (.ptm fun p => { p with ticks := 80000000 })]).run .reset, by decide +kernel⟩,
    ⟨(all [.upd (.svc fun x => { x with calActive := true, calClass := 0, calItem := 1, calHead := 0 }), .upd (.ptm fun p => { p with ticks := 80000000 }), .upd (.svc fun x => { x with calClass := 1, calItem := 0, calHead := 5, calSaved := (calTargets 1 0 5).map fun e => (regKey e.1 e.2, (State.reset.reg e.1 e.2).toNat) })]).run .reset, .reset, by decide +kernel⟩⟩

theorem witness_MemoryIntegrity :
    (∃ (s : State) (i : Fin 256), (s.get SVC_LB_CFG.EN i = 1) ∧ (s.leakDue i = true)) ∧
    (∃ (s : State), (s.svcRuns = true) ∧ (s.get SVC_PTL_CFG.DR_EN 0 = 1) ∧ (s.get SVC_PTL_BASE.LINE 0 + s.svc.drCursor < s.get SVC_PTL_LIMIT.LINE 0) ∧
      (s.bmu.poison = [])) ∧
    (∃ (s : State) (l : Nat), (s.svcRuns = true) ∧ (s.get SVC_PTL_CFG.DR_EN 0 = 1) ∧ (s.get SVC_PTL_BASE.LINE 0 + s.svc.drCursor = l) ∧ (l = s.get
      SVC_PTL_LIMIT.LINE 0) ∧ (s.dramOk (64 * l) 64 = true) ∧ (s.bmu.lines = []) ∧ (s.bmu.evb = []) ∧ (s.quiet 28)) ∧
    (∃ (s : State) (_o0 _o1 : Half), (s.svcRuns = true) ∧ (s.normalService = true) ∧ (s.get SVC_PTL_CFG.DR_EN 0 = 1) ∧ (s.get SVC_PTL_BASE.LINE 0 +
      s.svc.drCursor ≤ s.get SVC_PTL_LIMIT.LINE 0)) ∧
    (∃ (s : State) (_c : Fin 65) (_ue : Option (Fin 64 × SramUe)), (s.svcRuns = true) ∧ (s.normalService = true) ∧ (s.get SVC_PTL_CFG.SR_EN 0 = 1)) ∧
    (∃ (s : State), (s.svcRuns = true) ∧ (s.get SVC_PTL_CFG.SR_EN 0 = 1) ∧ (s.svc.srRow + 1 < 4 * instRows s.svc.srInst)) ∧
    (∃ (s : State) (_o : Half), (s.svcRuns = true) ∧ (s.normalService = true) ∧ (s.get SVC_PTL_CFG.MR_EN 0 = 1)) ∧
    (∃ (s : State) (o : Half), (s.svcRuns = true) ∧ (s.get SVC_PTL_CFG.MR_EN 0 = 1) ∧ (s.svc.mrCursor + 1 < emramWords) ∧ (o = .clean ∨ o = .corrected ∧ s.get
      SVC_LB_CFG.EN emramInst = 0)) ∧
    (∃ (s : State) (i r : Nat), (s.svcRuns = true) ∧ (s.svc.locked = false) ∧ (s.safe = false) ∧ (s.svc.full = true ∨ s.get SVC_SVY_CFG.EN 0 = 1 ∧ s.sliceDue =
      true) ∧ (s.svyNext s.svyRow.1 s.svyRow.2 = some (i, r))) ∧
    (∃ (s : State) (_b : Fin 256) (i r : Nat), (s.svcRuns = true) ∧ (s.svc.locked = false) ∧ (s.safe = false) ∧ (s.svc.full = true ∨ s.get SVC_SVY_CFG.EN 0 = 1
      ∧ s.sliceDue = true) ∧ (s.normalService = true) ∧ (s.svyNext s.svyRow.1 s.svyRow.2 = some (i, r)) ∧ (s.svc.full = false)) ∧
    (∃ (s : State), (s.svc.locked = true) ∧ (s.svc.full = false)) ∧
    (∃ (s : State), (s.svc.locked = true) ∧ (s.svc.full = true) ∧ (s.svyLast s.svc.fInst s.svc.fRow = true)) ∧
    (∃ (s : State) (_f : RowFail), (s.svc.locked = true) ∧ (s.normalService = true)) ∧
    (∃ (s : State), (s.svc.locked = true) ∧ (s.svc.abandons + 1 < s.get SVC_SVY_CFG.ABANDON_MAX 0)) ∧
    (∃ (s : State), (s.svc.locked = true) ∧ (s.svc.full = false) ∧ (s.get SVC_SVY_CFG.ABANDON_MAX 0 ≤ s.svc.abandons + 1)) ∧
    (∃ (s : State), (s.svc.locked = true) ∧ (s.budgetOver = true) ∧ (s.svc.abandons + 1 < s.get SVC_SVY_CFG.ABANDON_MAX 0)) ∧
    (∃ (s : State), (s.svc.locked = true) ∧ (s.budgetOver = true) ∧ (s.svc.full = false) ∧ (s.get SVC_SVY_CFG.ABANDON_MAX 0 ≤ s.svc.abandons + 1)) ∧
    (∃ (s : State) (i : Fin 256) (_r : BitVec 16), (0 < s.get SVC_INST_STAT.SPARE_FREE i)) ∧
    (∃ (s : State) (i : Fin 256) (_r : BitVec 16), (s.get SVC_INST_STAT.SPARE_FREE i = 0)) :=
  ⟨⟨(all [setF SVC_LB_CFG.EN 255 1, setF SVC_LB_STAT.COUNT 255 9, .upd (.ptm fun p => { p with ticks := 80000000000 })]).run .reset, 255, by decide +kernel⟩,
    ⟨(all [setF PTM_BOOT_STAT.FETCH_EN 0 1, setF SVC_PTL_CFG.DR_EN 0 1, setF SVC_PTL_LIMIT.LINE 0 9]).run .reset, by decide +kernel⟩,
    ⟨(all [setF PTM_BOOT_STAT.FETCH_EN 0 1, setF FCU_SRC_CFG.N 28 5, setF SVC_PTL_CFG.DR_EN 0 1, setF SVC_PTL_BASE.LINE 0 0x4000000, setF SVC_PTL_LIMIT.LINE 0 0x4000000, setF BMU_CFG.CHANNELS 0 1, setF BMU_CFG.SIZE 0 4]).run .reset, 0x4000000, by unfold State.quiet; decide +kernel⟩,
    ⟨(all [setF PTM_BOOT_STAT.FETCH_EN 0 1, setF PTM_MODE_STAT.MODE 0 mActive, setF SVC_PTL_CFG.DR_EN 0 1, setF SVC_PTL_BASE.LINE 0 0x4000000, setF SVC_PTL_LIMIT.LINE 0 0x4000009, setF BMU_CFG.CHANNELS 0 1, setF BMU_CFG.SIZE 0 4]).run .reset, .corrected, .uncorrectable, by decide +kernel⟩,
    ⟨(all [setF PTM_BOOT_STAT.FETCH_EN 0 1, setF PTM_MODE_STAT.MODE 0 mActive, setF SVC_PTL_CFG.SR_EN 0 1]).run .reset, 3, some (5, .elsewhere), by decide +kernel⟩,
    ⟨(all [setF PTM_BOOT_STAT.FETCH_EN 0 1, setF SVC_PTL_CFG.SR_EN 0 1]).run .reset, by decide +kernel⟩,
    ⟨(all [setF PTM_BOOT_STAT.FETCH_EN 0 1, setF PTM_MODE_STAT.MODE 0 mActive, setF SVC_PTL_CFG.MR_EN 0 1]).run .reset, .uncorrectable, by decide +kernel⟩,
    ⟨(all [setF PTM_BOOT_STAT.FETCH_EN 0 1, setF SVC_PTL_CFG.MR_EN 0 1, setF SVC_LB_CFG.EN 240 0]).run .reset, .corrected, by decide +kernel⟩,
    ⟨(all [setF PTM_BOOT_STAT.FETCH_EN 0 1, setF SVC_SVY_CFG.EN 0 1, setF SVC_SVY_EN.EN 0 0xFFFFFFFF, .upd (.ptm fun p => { p with ticks := 80000000000 })]).run .reset, 0, 0, by decide +kernel⟩,
    ⟨(all [setF PTM_BOOT_STAT.FETCH_EN 0 1, setF PTM_MODE_STAT.MODE 0 mActive, setF SVC_SVY_CFG.EN 0 1, setF SVC_SVY_EN.EN 0 0xFFFFFFFF, .upd (.ptm fun p => { p with ticks := 80000000000 })]).run .reset, 3, 0, 0, by decide +kernel⟩,
    ⟨(all [.upd (.svc fun x => { x with locked := true })]).run .reset, by decide +kernel⟩,
    ⟨(all [.upd (.svc fun x => { x with locked := true, full := true, fInst := 0xDF, fRow := 65535 })]).run .reset, by decide +kernel⟩,
    ⟨(all [setF PTM_MODE_STAT.MODE 0 mActive, .upd (.svc fun x => { x with locked := true })]).run .reset, { kind := 0, bit := 1, step := 2, off := 3, lines := [] }, by decide +kernel⟩,
    ⟨(all [.upd (.svc fun x => { x with locked := true }), setF SVC_SVY_CFG.ABANDON_MAX 0 5]).run .reset, by decide +kernel⟩,
    ⟨(all [.upd (.svc fun x => { x with locked := true, abandons := 7 }), setF SVC_SVY_CFG.ABANDON_MAX 0 5]).run .reset, by decide +kernel⟩,
    ⟨(all [.upd (.svc fun x => { x with locked := true }), setF SVC_SVY_CFG.ABANDON_MAX 0 5, .upd (.ptm fun p => { p with ticks := 80000 })]).run .reset, by decide +kernel⟩,
    ⟨(all [.upd (.svc fun x => { x with locked := true, abandons := 7 }), setF SVC_SVY_CFG.ABANDON_MAX 0 5, .upd (.ptm fun p => { p with ticks := 80000 })]).run .reset, by decide +kernel⟩,
    ⟨.reset, 0x2C, 5, by decide +kernel⟩,
    ⟨(all [setF SVC_INST_STAT.SPARE_FREE 0 0]).run .reset, 0, 5, by decide +kernel⟩⟩

theorem witness_FerryChannels :
    (∃ (s : State) (m : Master) (n : Fin 8) (q : BitVec 8), (n.val ≠ 7) ∧ (s.ferryRequester m n = true) ∧ (s.fySt n = fyEmpty ∨ s.fySt n = fyDone) ∧ (q.toNat =
      s.nextSeq n)) ∧
    (∃ (s : State) (m : Master) (n : Fin 8), (n.val ≠ 7) ∧ (s.ferryRequester m n = true) ∧ (s.fySt n = fyPosted)) ∧
    (∃ (s : State) (n : Fin 8), (n.val ≠ 7) ∧ (s.fySt n = fyPosted) ∧ (s.fyStill n = true) ∧ (s.takeTurn n = true)) ∧
    (∃ (s : State) (n : Fin 8) (_e : BitVec 8), (n.val ≠ 7) ∧ (s.fySt n = fyTaken) ∧ (s.fyStill n = true)) ∧
    (∃ (s : State) (n : Fin 7), (s.get PCX_KPR_STAT.RESTART 0 = 0) ∧ (s.takeLate n = true) ∧ (s.quiet (288 + n))) ∧
    (∃ (s : State) (n : Fin 7), (s.get PCX_KPR_STAT.RESTART 0 = 0) ∧ (s.doneLate n = true) ∧ (s.quiet (288 + n))) ∧
    (∃ (s : State) (n : Fin 8) (k j : Nat), (s.mayServe n 0x0001 clsAll false) ∧ (([2, 1] : List Nat).find? (fun k => (s.helloMinor n k).isSome) = some k) ∧ (j
      = min (keeperMinor k) ((s.helloMinor n k).getD 0))) ∧
    (∃ (s : State) (n : Fin 8), (s.mayServe n 0x0001 clsAll false) ∧ (s.helloMinor n 1 = none) ∧ (s.helloMinor n 2 = none)) ∧
    (∃ (s : State), (s.spl.rx = [])) ∧
    (∃ (s : State) (f : List Nat) (l : List (List Nat)) (o x : Nat), (s.spl.rx = f :: l) ∧ (o = (f.getD 2 0 * 256 + f.getD 3 0) % 512) ∧ (x = f.getD 13 0) ∧
      (f.getD 12 0 = 0) ∧ (f.getD 14 0 / 16 < f.getD 14 0 % 16) ∧ (f.getD 14 0 % 16 ≤ 6) ∧ (s.kpr.relayIn.any (fun r => r.peer == o && r.xid == x) = false)
      ∧ (f.getD 14 0 % 16 ≠ 1)) ∧
    (∃ (s : State) (f : List Nat) (l : List (List Nat)) (o x : Nat), (s.spl.rx = f :: l) ∧ (o = (f.getD 2 0 * 256 + f.getD 3 0) % 512) ∧ (x = f.getD 13 0) ∧
      (f.getD 12 0 = 1) ∧ (f.getD 14 0 / 16 < f.getD 14 0 % 16) ∧ (f.getD 14 0 % 16 ≤ 6)) ∧
    (∃ (s : State) (f : List Nat) (l : List (List Nat)), (s.spl.rx = f :: l) ∧ (f.getD 12 0 = 2) ∧ (f.getD 14 0 / 16 < f.getD 14 0 % 16) ∧ (f.getD 14 0 % 16 ≤
      6)) :=
  ⟨⟨(all [setF PCX_FRY_STAT.LAST_SEQ 5 255]).run .reset, .debug, 5, 1, by decide +kernel⟩,
    ⟨(all [setF PCX_FRY_STAT.STATE 0 1, .upd (.kpr fun k => { k with posted := [{ chan := 0, tick := 3, lost := 0 }] })]).run .reset, .app 0, 0, by decide +kernel⟩,
    ⟨(all [setF PCX_FRY_STAT.STATE 5 1]).run .reset, 5, by decide +kernel⟩,
    ⟨(all [setF PCX_FRY_STAT.STATE 5 2]).run .reset, 5, 9, by decide +kernel⟩,
    ⟨(all [setF PCX_FRY_STAT.STATE 5 1, setF FCU_SRC_CFG.N 293 5, all [.upd (.kpr fun k => { k with posted := [{ chan := 5, tick := 0, lost := 0 }] }), .upd (.ptm fun p => { p with ticks := 10 ^ 12 })]]).run .reset, 5, by unfold State.quiet; decide +kernel⟩,
    ⟨(all [setF PCX_FRY_STAT.STATE 5 2, setF FCU_SRC_CFG.N 293 5, all [.upd (.kpr fun k => { k with posted := [{ chan := 5, tick := 0, lost := 0 }] }), .upd (.ptm fun p => { p with ticks := 10 ^ 12 })]]).run .reset, 5, by unfold State.quiet; decide +kernel⟩,
    ⟨(all [setF PCX_FRY_STAT.STATE 0 2, setF PCX_FRY_STAT.LAST_SEQ 0 5, setF PCX_FRY_REQ.W 0 0x11005, setF PCX_FRY_REQ.W 4 (0x21000000)]).run .reset, 0, 2, 1, by unfold State.mayServe; decide +kernel⟩,
    ⟨(all [setF PCX_FRY_STAT.STATE 0 2, setF PCX_FRY_STAT.LAST_SEQ 0 5, setF PCX_FRY_REQ.W 0 0x11005, setF PCX_FRY_REQ.W 4 (0x71000000)]).run .reset, 0, by unfold State.mayServe; decide +kernel⟩,
    ⟨.reset, by decide +kernel⟩,
    ⟨(all [.upd (.spl fun x => { x with rx := [[0,0,1,2,0,0,0,0,0,0,0,0,0,7,0x12]] })]).run .reset, [0,0,1,2,0,0,0,0,0,0,0,0,0,7,0x12], [], 258, 7, by decide +kernel⟩,
    ⟨(all [.upd (.spl fun x => { x with rx := [[0,0,1,2,0,0,0,0,0,0,0,0,1,7,1]] }), .upd (.kpr fun k => { k with relayOut := [{ peer := 258, xid := 7, total := 0, chan := 4, time := 0 }] })]).run .reset, [0,0,1,2,0,0,0,0,0,0,0,0,1,7,1], [], 258, 7, by decide +kernel⟩,
    ⟨(all [.upd (.spl fun x => { x with rx := [[0,0,1,2,0,0,0,0,0,0,0,0,2,0,1]] })]).run .reset, [0,0,1,2,0,0,0,0,0,0,0,0,2,0,1], [], by decide +kernel⟩⟩

theorem witness_FerryModes :
    (∃ (s : State) (n : Fin 8), (s.mayServe n 0x0101 (clsA ||| clsM ||| clsS) false) ∧ (nbits (s.req n 4) 2 0 = mActive) ∧ (s.transOk { mode := mActive, ilvl := 0, ret := false }
      = true)) ∧
    (∃ (s : State) (n : Fin 8) (r : ModeReq), (s.mayServe n 0x0101 (clsA ||| clsM ||| clsS) false) ∧ (r = { mode := nbits (s.req n 4) 2 0, ilvl := if nbits (s.req n 4) 2 0 = mIdle then nbits (s.req n 4) 4 3 else 0, ret := nbits (s.req n 4) 2 0 == mStandby && nbit (s.req n 4) 5 })
      ∧ (s.transOk r = true) ∧ (r.mode ≠ mService ∨ n.val = 5)) ∧
    (∃ (s : State) (n : Fin 8), (s.mayServe n 0x0101 (clsA ||| clsM ||| clsS) false) ∧ (nbits (s.req n 4) 2 0 = mService) ∧ (n.val = 4)) ∧
    (∃ (s : State) (n : Fin 8), (s.mayServe n 0x0102 (clsA ||| clsM ||| clsS) false) ∧ (12 ≤ s.req n 4 % 256) ∧ (s.req n 4 % 256 ≤ 40)) ∧
    (∃ (s : State) (n : Fin 8), (s.mayServe n 0x0102 (clsA ||| clsM ||| clsS) false) ∧ (s.req n 4 % 256 < 12 ∨ 40 < s.req n 4 % 256)) ∧
    (∃ (s : State) (n : Fin 8), (s.mayServe n 0x0103 clsAll false)) ∧
    (∃ (s : State) (n : Fin 8), (s.mayServe n 0x0104 (clsA ||| clsS) false) ∧ (s.mode = mService) ∧ (s.inPass (nbits (s.req n 4) 3 0) = false) ∧ (nbits (s.req n
      4) 17 16 ≠ pwActive)) ∧
    (∃ (s : State) (n : Fin 8), (s.mayServe n 0x0104 (clsA ||| clsS) false) ∧ (s.mode = mService) ∧ (s.inPass (nbits (s.req n 4) 3 0) = false) ∧ (nbits (s.req n
      4) 17 16 = pwActive)) ∧
    (∃ (s : State) (n : Fin 8), (s.mayServe n 0x0104 (clsA ||| clsS) false) ∧ (s.mode ≠ mService)) :=
  ⟨⟨(all [setF PCX_FRY_STAT.STATE 0 2, setF PCX_FRY_STAT.LAST_SEQ 0 5, setF PCX_FRY_REQ.W 0 0x1011005, setF PCX_FRY_REQ.W 4 (1), setF PTM_MODE_STAT.MODE 0 mIdle]).run .reset, 0, by unfold State.mayServe; decide +kernel⟩,
    ⟨(all [setF PCX_FRY_STAT.STATE 0 2, setF PCX_FRY_STAT.LAST_SEQ 0 5, setF PCX_FRY_REQ.W 0 0x1011005, setF PCX_FRY_REQ.W 4 (0x12), setF PTM_MODE_STAT.MODE 0 mActive]).run .reset, 0, { mode := mIdle, ilvl := 2, ret := false }, by unfold State.mayServe; decide +kernel⟩,
    ⟨(all [setF PCX_FRY_STAT.STATE 4 2, setF PCX_FRY_STAT.LAST_SEQ 4 5, setF PCX_FRY_REQ.W 256 0x1011005, setF PCX_FRY_REQ.W 260 (4)]).run .reset, 4, by unfold State.mayServe; decide +kernel⟩,
    ⟨(all [setF PCX_FRY_STAT.STATE 0 2, setF PCX_FRY_STAT.LAST_SEQ 0 5, setF PCX_FRY_REQ.W 0 0x1021005, setF PCX_FRY_REQ.W 4 (20)]).run .reset, 0, by unfold State.mayServe; decide +kernel⟩,
    ⟨(all [setF PCX_FRY_STAT.STATE 0 2, setF PCX_FRY_STAT.LAST_SEQ 0 5, setF PCX_FRY_REQ.W 0 0x1021005, setF PCX_FRY_REQ.W 4 (41)]).run .reset, 0, by unfold State.mayServe; decide +kernel⟩,
    ⟨(all [setF PCX_FRY_STAT.STATE 0 2, setF PCX_FRY_STAT.LAST_SEQ 0 5, setF PCX_FRY_REQ.W 0 0x1031005]).run .reset, 0, by unfold State.mayServe; decide +kernel⟩,
    ⟨(all [setF PCX_FRY_STAT.STATE 0 2, setF PCX_FRY_STAT.LAST_SEQ 0 5, setF PCX_FRY_REQ.W 0 0x1041005, setF PCX_FRY_REQ.W 4 (0x2000F), setF PTM_MODE_STAT.MODE 0 mService]).run .reset, 0, by unfold State.mayServe; decide +kernel⟩,
    ⟨(all [setF PCX_FRY_STAT.STATE 0 2, setF PCX_FRY_STAT.LAST_SEQ 0 5, setF PCX_FRY_REQ.W 0 0x1041005, setF PCX_FRY_REQ.W 4 (0x3000F), setF PTM_MODE_STAT.MODE 0 mService]).run .reset, 0, by unfold State.mayServe; decide +kernel⟩,
    ⟨(all [setF PCX_FRY_STAT.STATE 0 2, setF PCX_FRY_STAT.LAST_SEQ 0 5, setF PCX_FRY_REQ.W 0 0x1041005]).run .reset, 0, by unfold State.mayServe; decide +kernel⟩⟩

theorem witness_FerryMap :
    (∃ (s : State) (n : Fin 8) (size : Word), (s.mayServe n 0x0201 (clsA ||| clsS) false) ∧ (s.mode = mService) ∧ (s.dramOk (s.reqAddr n 4) ((wf
      SVE_CMAP_CFG.LAST_BAND (s.req n 6) + 1) * 128 + 16 * (wf SVE_CMAP_CFG.ZONES_M1 (s.req n 6) + 1)) = true) ∧ (s.stagedOk (s.reqAddr n 4) (wf
      SVE_CMAP_CFG.LAST_BAND (s.req n 6)) (wf SVE_CMAP_CFG.ZONES_M1 (s.req n 6) + 1) = true) ∧ (size.toNat ≤ 262144)) ∧
    (∃ (s : State) (n : Fin 8) (size : Word), (s.mayServe n 0x0202 clsA false) ∧ (nbits (s.req n 4) 15 0 ≤ s.get SVE_CMAP_CFG.LAST_BAND 0) ∧ (nbits (s.req n 5)
      2 0 ≤ 5) ∧ (entValid (s.recEntry (nbits (s.req n 4) 15 0) (nbits (s.req n 4) 17 16) (nbits (s.req n 5) 2 0)) = true) ∧ (s.recOk (nbits (s.req n 4) 15
      0) (nbits (s.req n 4) 17 16) = true) ∧ (s.accessFault .keeper atWrite (s.recAddr (nbits (s.req n 4) 15 0) (nbits (s.req n 4) 17 16)) 32 = none) ∧
      (size.toNat ≤ 262144)) ∧
    (∃ (s : State) (n : Fin 8) (size : Word), (s.mayServe n 0x0203 clsA false) ∧ (nbits (s.req n 4) 15 0 ≤ s.get SVE_CMAP_CFG.LAST_BAND 0) ∧ (hdrValid (s.recHdr
      (nbits (s.req n 4) 15 0) (nbits (s.req n 4) 17 16)) = true) ∧ (s.recOk (nbits (s.req n 4) 15 0) (nbits (s.req n 4) 17 16) = true) ∧ (s.accessFault
      .keeper atWrite (s.recAddr (nbits (s.req n 4) 15 0) (nbits (s.req n 4) 17 16)) 32 = none) ∧ (size.toNat ≤ 262144)) ∧
    (∃ (s : State) (n : Fin 8) (b a c : Nat) (size : Word), (s.mayServe n 0x0204 clsA false) ∧ (b = nbits (s.req n 4) 15 0) ∧ (a = nbits (s.req n 4) 17 16) ∧ (c
      = nbits (s.req n 5) 15 0) ∧ (b ≤ s.get SVE_CMAP_CFG.LAST_BAND 0) ∧ (c ≤ s.get SVE_CMAP_CFG.LAST_BAND 0) ∧ (b ≠ c) ∧ (hdrValid (s.recHdr b a) = true)
      ∧ (nbit (s.recHdr c a) 28 = true) ∧ (s.spareBand b = c) ∧ (nbit (s.recHdr c a) 27 = false) ∧ (s.recOk b a = true) ∧ (s.recOk c a = true) ∧
      (s.accessFault .keeper atWrite (s.recAddr b a) 32 = none) ∧ (s.accessFault .keeper atWrite (s.recAddr c a) 32 = none) ∧ (size.toNat ≤ 262144)) ∧
    (∃ (s : State) (n : Fin 8) (h p arm : Nat), (s.mayServe n 0x0205 (clsA ||| clsS) false) ∧ (h = nbits (s.req n 4) 4 0) ∧ (s.pathOfHead h = some p) ∧
      (s.headState h = hFailed) ∧ (s.fitSpare (h / 6) = some arm) ∧ (arm < 6)) ∧
    (∃ (s : State) (n : Fin 8) (h p arm : Nat), (s.mayServe n 0x0205 (clsA ||| clsS) false) ∧ (h = nbits (s.req n 4) 4 0) ∧ (s.pathOfHead h = some p) ∧
      (s.headState h = hInSlot ∨ s.headState h = hDegraded) ∧ (s.fitSpare (h / 6) = some arm) ∧ (arm < 6) ∧ (s.normalService = true)) ∧
    (∃ (s : State) (n : Fin 8) (a w : Nat), (s.mayServe n 0x0206 clsA false) ∧ (a = nbits (s.req n 4) 1 0) ∧ (w = nbits (s.req n 5) 15 0) ∧ (s.get
      SVE_REBUILD.ACTIVE a = 1) ∧ (s.get SVE_REBUILD.WMARK a ≤ w) ∧ (w ≤ s.get SVE_CMAP_CFG.LAST_BAND 0 + 1) ∧ (s.tableBands.all (fun b => decide (b < w))
      = true)) ∧
    (∃ (s : State) (n : Fin 8) (a w : Nat), (s.mayServe n 0x0206 clsA false) ∧ (a = nbits (s.req n 4) 1 0) ∧ (w = nbits (s.req n 5) 15 0) ∧ (s.get
      SVE_REBUILD.ACTIVE a = 1) ∧ (s.get SVE_REBUILD.WMARK a ≤ w) ∧ (w ≤ s.get SVE_CMAP_CFG.LAST_BAND 0 + 1) ∧ (∃ b ∈ s.tableBands, w ≤ b)) ∧
    (∃ (s : State) (n : Fin 8), (s.mayServe n 0x0207 clsAll false) ∧ (nbits (s.req n 4) 4 0 < 24)) ∧
    (∃ (s : State) (h : Fin 24) (p arm : Nat), (s.pathOfHead h = some p) ∧ (s.headState h = hFailed) ∧ (s.kpr.failedSince.any (fun e => e.1 == h.val && decide
      (e.2 + 10 * tickSec ≤ s.ptm.ticks)) = true) ∧ (s.get PCX_KPR_STAT.RESTART 0 = 0) ∧ (s.fitSpare (h / 6) = some arm) ∧ (arm < 6)) :=
  ⟨⟨(all [setF PCX_FRY_STAT.STATE 0 2, setF PCX_FRY_STAT.LAST_SEQ 0 5, setF PCX_FRY_REQ.W 0 0x2011005, setF PCX_FRY_REQ.W 4 (0x08000000), setF PCX_FRY_REQ.W 5 (1), setF PCX_FRY_REQ.W 6 (0x80000000), setF BMU_CFG.CHANNELS 0 2, setF BMU_CFG.SIZE 0 32, setF SVE_CMAP_CFG.ENABLE 0 1, setF SVE_CMAP_CFG.LAST_BAND 0 1, setF SVE_CMAP_BASE.ADDR 0 0x104000, setF PTM_MODE_STAT.MODE 0 mService]).run .reset, 0, 7, by unfold State.mayServe; decide +kernel⟩,
    ⟨(all [setF PCX_FRY_STAT.STATE 0 2, setF PCX_FRY_STAT.LAST_SEQ 0 5, setF PCX_FRY_REQ.W 0 0x2021005, setF PCX_FRY_REQ.W 4 (0x20001), setF PCX_FRY_REQ.W 6 (0x7FF), setF BMU_CFG.CHANNELS 0 2, setF BMU_CFG.SIZE 0 32, setF SVE_CMAP_CFG.ENABLE 0 1, setF SVE_CMAP_CFG.LAST_BAND 0 1, setF SVE_CMAP_BASE.ADDR 0 0x104000, memSealed (0x104000000 + (4 * 1 + 2) * 32) ([0x80000000, 0x80000005, 0, 0, 0, 0, 0] : List Word)]).run .reset, 0, 7, by unfold State.mayServe; decide +kernel⟩,
    ⟨(all [setF PCX_FRY_STAT.STATE 0 2, setF PCX_FRY_STAT.LAST_SEQ 0 5, setF PCX_FRY_REQ.W 0 0x2031005, setF PCX_FRY_REQ.W 4 (0x20001), setF PCX_FRY_REQ.W 5 (1), setF BMU_CFG.CHANNELS 0 2, setF BMU_CFG.SIZE 0 32, setF SVE_CMAP_CFG.ENABLE 0 1, setF SVE_CMAP_CFG.LAST_BAND 0 1, setF SVE_CMAP_BASE.ADDR 0 0x104000, memSealed (0x104000000 + (4 * 1 + 2) * 32) ([0x80000000, 0x80000005, 0, 0, 0, 0, 0] : List Word)]).run .reset, 0, 7, by unfold State.mayServe; decide +kernel⟩,
    ⟨(all [setF PCX_FRY_STAT.STATE 0 2, setF PCX_FRY_STAT.LAST_SEQ 0 5, setF PCX_FRY_REQ.W 0 0x2041005, setF PCX_FRY_REQ.W 4 (0x20000), setF PCX_FRY_REQ.W 5 (1), setF BMU_CFG.CHANNELS 0 2, setF BMU_CFG.SIZE 0 32, setF SVE_CMAP_CFG.ENABLE 0 1, setF SVE_CMAP_CFG.LAST_BAND 0 1, setF SVE_CMAP_BASE.ADDR 0 0x104000, memSealed (0x104000000 + (4 * 0 + 2) * 32) ([0x80000000, 0x80000005, 0, 0, 0, 0, 0] : List Word), memSealed (0x104000000 + (4 * 1 + 2) * 32) ([0x90000000, 0x80000005, 0, 0, 0, 0, 0] : List Word), memWords (0x104000000 + 256) [0, 256]]).run .reset, 0, 0, 2, 1, 7, by unfold State.mayServe; decide +kernel⟩,
    ⟨(all [setF PCX_FRY_STAT.STATE 0 2, setF PCX_FRY_STAT.LAST_SEQ 0 5, setF PCX_FRY_REQ.W 0 0x2051005, setF PCX_FRY_REQ.W 4 (6), each (List.range 24) fun h => setF SVE_HEAD_STATE.STATE h (if h % 6 < 4 then hInSlot else hSpare), setR .SVE_SLOT_MAP 1 0xCBA98, setF SVE_HEAD_STATE.STATE 6 hFailed]).run .reset, 0, 6, 4, 4, by unfold State.mayServe; decide +kernel⟩,
    ⟨(all [setF PCX_FRY_STAT.STATE 0 2, setF PCX_FRY_STAT.LAST_SEQ 0 5, setF PCX_FRY_REQ.W 0 0x2051005, setF PCX_FRY_REQ.W 4 (6), setF PTM_MODE_STAT.MODE 0 mActive, each (List.range 24) fun h => setF SVE_HEAD_STATE.STATE h (if h % 6 < 4 then hInSlot else hSpare), setR .SVE_SLOT_MAP 1 0xCBA98]).run .reset, 0, 6, 4, 4, by unfold State.mayServe; decide +kernel⟩,
    ⟨(all [setF PCX_FRY_STAT.STATE 0 2, setF PCX_FRY_STAT.LAST_SEQ 0 5, setF PCX_FRY_REQ.W 0 0x2061005, setF PCX_FRY_REQ.W 4 (3), setF PCX_FRY_REQ.W 5 (2), setF BMU_CFG.CHANNELS 0 2, setF BMU_CFG.SIZE 0 32, setF SVE_CMAP_CFG.ENABLE 0 1, setF SVE_CMAP_CFG.LAST_BAND 0 1, setF SVE_CMAP_BASE.ADDR 0 0x104000, setF SVE_REBUILD.ACTIVE 3 1, memWords (0x104000000 + 256) [0, 512]]).run .reset, 0, 3, 2, by unfold State.mayServe; decide +kernel⟩,
    ⟨(all [setF PCX_FRY_STAT.STATE 0 2, setF PCX_FRY_STAT.LAST_SEQ 0 5, setF PCX_FRY_REQ.W 0 0x2061005, setF PCX_FRY_REQ.W 4 (3), setF PCX_FRY_REQ.W 5 (1), setF BMU_CFG.CHANNELS 0 2, setF BMU_CFG.SIZE 0 32, setF SVE_CMAP_CFG.ENABLE 0 1, setF SVE_CMAP_CFG.LAST_BAND 0 1, setF SVE_CMAP_BASE.ADDR 0 0x104000, setF SVE_REBUILD.ACTIVE 3 1, memWords (0x104000000 + 256) [0, 512]]).run .reset, 0, 3, 1, by unfold State.mayServe; decide +kernel⟩,
    ⟨(all [setF PCX_FRY_STAT.STATE 0 2, setF PCX_FRY_STAT.LAST_SEQ 0 5, setF PCX_FRY_REQ.W 0 0x2071005, setF PCX_FRY_REQ.W 4 (23)]).run .reset, 0, by unfold State.mayServe; decide +kernel⟩,
    ⟨(all [each (List.range 24) fun h => setF SVE_HEAD_STATE.STATE h (if h % 6 < 4 then hInSlot else hSpare), setR .SVE_SLOT_MAP 1 0xCBA98, setF SVE_HEAD_STATE.STATE 6 hFailed, .upd (.kpr fun k => { k with failedSince := [(6, 0)] }), .upd (.ptm fun p => { p with ticks := 10 ^ 9 })]).run .reset, 6, 4, 4, by decide +kernel⟩⟩

theorem witness_FerryTransit :
    (∃ (s : State) (n : Fin 8) (u b i k : Nat), (s.mayServe n 0x0301 (clsA ||| clsS) false) ∧ (u = nbits (s.req n 4) 27 24) ∧ (b = nbits (s.req n 4) 21 20) ∧ (i
      = nbits (s.req n 4) 6 0) ∧ (k = nbits (s.req n 5) 5 0) ∧ (u ≤ 11) ∧ (0 < k) ∧ (k ≤ 56) ∧ (i + k ≤ 87)) ∧
    (∃ (s : State) (n : Fin 8) (u : Nat), (s.mayServe n 0x0302 (clsA ||| clsS) false) ∧ (u = nbits (s.req n 4) 27 24) ∧ (12 ≤ u)) ∧
    (∃ (s : State) (n : Fin 8) (u : Nat) (b : Fin 4), (s.mayServe n 0x0302 (clsA ||| clsS) false) ∧ (u = nbits (s.req n 4) 27 24) ∧ (u ≤ 11) ∧ (nbits (s.req n
      4) 3 0 = 2 ^ b.val) ∧ (s.get SVE_CLU_CTL.COMMIT u = 0) ∧ (s.get SVE_CLU_CTL.BANK_ERR u = 0) ∧ ((bankOf fun i => s.get SVE_COEF.W ((u * 4 + b) * 128 +
      i)).inverted = false) ∧ (∀ i < 16, s.on SVE_NOTCH_CTL.EN i = false)) ∧
    (∃ (s : State) (n : Fin 8) (r : RegName) (i old : Nat) (hi : Bool) (t0 : State), (s.mayServe n 0x0303 (clsA ||| clsS) false) ∧ (s.req n 4 < 0x100000) ∧
      (regWordAt (12 * 0x100000 + s.req n 4) = some (r, i, hi)) ∧ (sveWritable r = true) ∧ (s.regDown r i = none) ∧ (old = s.wordValue .keeper (r, i, hi))
      ∧ (t0 = (all [wordReadFx .keeper (r, i, hi), wordWrite .keeper (r, i, hi) ((s.req n 5 &&& s.req n 6) ||| (old - (old &&& s.req n 6)))] : Prog).run s)) ∧
    (∃ (s : State) (n : Fin 8) (r : RegName) (i old : Nat) (hi : Bool) (t0 : State), (s.mayServe n 0x0402 (clsA ||| clsS) false) ∧ (s.req n 4 < 0x100000) ∧
      (regWordAt (13 * 0x100000 + s.req n 4) = some (r, i, hi)) ∧ (s.regDown r i = none) ∧ (old = s.wordValue .keeper (r, i, hi)) ∧ (t0 = (all [wordReadFx
      .keeper (r, i, hi), wordWrite .keeper (r, i, hi) ((s.req n 5 &&& s.req n 6) ||| (old - (old &&& s.req n 6)))] : Prog).run s)) ∧
    (∃ (s : State) (n : Fin 8) (r : RegName) (i old : Nat) (hi : Bool) (t0 : State), (s.mayServe n 0x0501 (clsA ||| clsM ||| clsS) false) ∧ (s.req n 4 <
      0x100000) ∧ (regWordAt (15 * 0x100000 + s.req n 4) = some (r, i, hi)) ∧ (s.regDown r i = none) ∧ (old = s.wordValue .keeper (r, i, hi)) ∧ (t0 = (all
      [wordReadFx .keeper (r, i, hi), wordWrite .keeper (r, i, hi) ((s.req n 5 &&& s.req n 6) ||| (old - (old &&& s.req n 6)))] : Prog).run s)) ∧
    (∃ (s : State) (n : Fin 8) (r : RegName) (i old : Nat) (hi : Bool) (t0 : State), (s.mayServe n 0x0701 (clsA ||| clsS) false) ∧ (s.req n 4 < 0x100000) ∧
      (regWordAt (3 * 0x100000 + s.req n 4) = some (r, i, hi)) ∧ (s.regDown r i = none) ∧ (old = s.wordValue .keeper (r, i, hi)) ∧ (t0 = (all [wordReadFx
      .keeper (r, i, hi), wordWrite .keeper (r, i, hi) ((s.req n 5 &&& s.req n 6) ||| (old - (old &&& s.req n 6)))] : Prog).run s)) ∧
    (∃ (s : State) (n : Fin 8) (r : RegName) (i m old : Nat), (s.mayServe n 0x0303 (clsA ||| clsS) false) ∧ (s.req n 4 < 0x100000) ∧ (regWordAt (12 * 0x100000 +
      s.req n 4) = some (r, i, false)) ∧ (r ∈ [RegName.SVE_RAMP_CFG, .SVE_SETTLE_CFG]) ∧ (s.regDown r i = none) ∧ (m = s.req n 6) ∧ (old = s.regValue
      .keeper r i % 2 ^ 32)) ∧
    (∃ (s : State) (n : Fin 8) (r : RegName) (i m old : Nat), (s.mayServe n 0x0402 (clsA ||| clsS) false) ∧ (s.req n 4 < 0x100000) ∧ (regWordAt (13 * 0x100000 +
      s.req n 4) = some (r, i, false)) ∧ (r ∈ [RegName.SPN_LIM, .SPN_SU_CFG]) ∧ (s.regDown r i = none) ∧ (m = s.req n 6) ∧ (old = s.regValue .keeper r i %
      2 ^ 32)) ∧
    (∃ (s : State) (n : Fin 8) (r : RegName) (i m old : Nat), (s.mayServe n 0x0501 (clsA ||| clsM ||| clsS) false) ∧ (s.req n 4 < 0x100000) ∧ (regWordAt (15 *
      0x100000 + s.req n 4) = some (r, i, false)) ∧ (r ∈ [RegName.SPL_MER_CFG, .SPL_FW_CFG]) ∧ (s.regDown r i = none) ∧ (m = s.req n 6) ∧ (old = s.regValue
      .keeper r i % 2 ^ 32)) ∧
    (∃ (s : State) (n : Fin 8) (r : RegName) (i m old : Nat), (s.mayServe n 0x0701 (clsA ||| clsS) false) ∧ (s.req n 4 < 0x100000) ∧ (regWordAt (3 * 0x100000 +
      s.req n 4) = some (r, i, false)) ∧ (r ∈ [RegName.SVC_SVY_CFG, .SVC_PTL_CFG]) ∧ (s.regDown r i = none) ∧ (m = s.req n 6) ∧ (old = s.regValue .keeper r
      i % 2 ^ 32)) ∧
    (∃ (s : State) (n : Fin 8), (s.mayServe n 0x0401 (clsA ||| clsM ||| clsS) false) ∧ (nbit (s.req n 4) 1 = true) ∧ (s.spinMay (nbit (s.req n 4) 0) true =
      true)) ∧
    (∃ (s : State) (n : Fin 8), (s.mayServe n 0x0401 (clsA ||| clsM ||| clsS) false) ∧ (nbit (s.req n 4) 1 = false) ∧ (nbit (s.req n 4) 0 = true) ∧ (s.spn? =
      spOff ∨ s.spn? = spBrake ∨ s.spn? = spShort)) ∧
    (∃ (s : State) (n : Fin 8), (s.mayServe n 0x0403 (clsA ||| clsM ||| clsS) false)) ∧
    (∃ (s : State) (n : Fin 8) (m k : Nat) (es : List Nat), (s.mayServe n 0x0404 (clsA ||| clsM ||| clsS) false) ∧ (planRange (s.req n 4) = some (m, k)) ∧ (es =
      (wordsBytes ((List.range 56).map fun i => s.req n (5 + i))).take k)) ∧
    (∃ (s : State) (n : Fin 8), (s.mayServe n 0x0405 (clsA ||| clsM ||| clsS) false) ∧ (s.splState = mbMember)) ∧
    (∃ (s : State) (n : Fin 8) (m k : Nat), (s.mayServe n 0x0406 clsAll false) ∧ (planRange (s.req n 4) = some (m, k))) :=
  ⟨⟨(all [setF PCX_FRY_STAT.STATE 0 2, setF PCX_FRY_STAT.LAST_SEQ 0 5, setF PCX_FRY_REQ.W 0 0x3011005, setF PCX_FRY_REQ.W 4 (0xB300003), setF PCX_FRY_REQ.W 5 (3), setF PCX_FRY_REQ.W 6 (7), setF PCX_FRY_REQ.W 7 (8), setF PCX_FRY_REQ.W 8 (9)]).run .reset, 0, 11, 3, 3, 3, by unfold State.mayServe; decide +kernel⟩,
    ⟨(all [setF PCX_FRY_STAT.STATE 0 2, setF PCX_FRY_STAT.LAST_SEQ 0 5, setF PCX_FRY_REQ.W 0 0x3021005, setF PCX_FRY_REQ.W 4 (0xC000000)]).run .reset, 0, 12, by unfold State.mayServe; decide +kernel⟩,
    ⟨(all [setF PCX_FRY_STAT.STATE 0 2, setF PCX_FRY_STAT.LAST_SEQ 0 5, setF PCX_FRY_REQ.W 0 0x3021005, setF PCX_FRY_REQ.W 4 (0xB000004)]).run .reset, 0, 11, 2, by unfold State.mayServe; decide +kernel⟩,
    ⟨(all [setF PCX_FRY_STAT.STATE 0 2, setF PCX_FRY_STAT.LAST_SEQ 0 5, setF PCX_FRY_REQ.W 0 0x3031005, setF PCX_FRY_REQ.W 4 (regAddr .SVE_RAMP_CFG 0 - regBase - 0xC00000), setF PCX_FRY_REQ.W 5 (0x55555555), setF PCX_FRY_REQ.W 6 (0x0F0F0F0F)]).run .reset, 0, .SVE_RAMP_CFG, 0, (all [setF PCX_FRY_STAT.STATE 0 2, setF PCX_FRY_STAT.LAST_SEQ 0 5, setF PCX_FRY_REQ.W 0 0x3031005, setF PCX_FRY_REQ.W 4 (regAddr .SVE_RAMP_CFG 0 - regBase - 0xC00000), setF PCX_FRY_REQ.W 5 (0x55555555), setF PCX_FRY_REQ.W 6 (0x0F0F0F0F)]).run .reset |>.wordValue .keeper (.SVE_RAMP_CFG, 0, false), false, (let s0 := (all [setF PCX_FRY_STAT.STATE 0 2, setF PCX_FRY_STAT.LAST_SEQ 0 5, setF PCX_FRY_REQ.W 0 0x3031005, setF PCX_FRY_REQ.W 4 (regAddr .SVE_RAMP_CFG 0 - regBase - 0xC00000), setF PCX_FRY_REQ.W 5 (0x55555555), setF PCX_FRY_REQ.W 6 (0x0F0F0F0F)]).run .reset; let old := s0.wordValue .keeper (.SVE_RAMP_CFG, 0, false); (all [wordReadFx .keeper (.SVE_RAMP_CFG, 0, false), wordWrite .keeper (.SVE_RAMP_CFG, 0, false) ((s0.req 0 5 &&& s0.req 0 6) ||| (old - (old &&& s0.req 0 6)))] : Prog).run s0), by unfold State.mayServe; decide +kernel⟩,
    ⟨(all [setF PCX_FRY_STAT.STATE 0 2, setF PCX_FRY_STAT.LAST_SEQ 0 5, setF PCX_FRY_REQ.W 0 0x4021005, setF PCX_FRY_REQ.W 4 (regAddr .SPN_LIM 0 - regBase - 0xD00000), setF PCX_FRY_REQ.W 5 (0x55555555), setF PCX_FRY_REQ.W 6 (0x0F0F0F0F)]).run .reset, 0, .SPN_LIM, 0, (all [setF PCX_FRY_STAT.STATE 0 2, setF PCX_FRY_STAT.LAST_SEQ 0 5, setF PCX_FRY_REQ.W 0 0x4021005, setF PCX_FRY_REQ.W 4 (regAddr .SPN_LIM 0 - regBase - 0xD00000), setF PCX_FRY_REQ.W 5 (0x55555555), setF PCX_FRY_REQ.W 6 (0x0F0F0F0F)]).run .reset |>.wordValue .keeper (.SPN_LIM, 0, false), false, (let s0 := (all [setF PCX_FRY_STAT.STATE 0 2, setF PCX_FRY_STAT.LAST_SEQ 0 5, setF PCX_FRY_REQ.W 0 0x4021005, setF PCX_FRY_REQ.W 4 (regAddr .SPN_LIM 0 - regBase - 0xD00000), setF PCX_FRY_REQ.W 5 (0x55555555), setF PCX_FRY_REQ.W 6 (0x0F0F0F0F)]).run .reset; let old := s0.wordValue .keeper (.SPN_LIM, 0, false); (all [wordReadFx .keeper (.SPN_LIM, 0, false), wordWrite .keeper (.SPN_LIM, 0, false) ((s0.req 0 5 &&& s0.req 0 6) ||| (old - (old &&& s0.req 0 6)))] : Prog).run s0), by unfold State.mayServe; decide +kernel⟩,
    ⟨(all [setF PCX_FRY_STAT.STATE 0 2, setF PCX_FRY_STAT.LAST_SEQ 0 5, setF PCX_FRY_REQ.W 0 0x5011005, setF PCX_FRY_REQ.W 4 (regAddr .SPL_MER_CFG 0 - regBase - 0xF00000), setF PCX_FRY_REQ.W 5 (0x55555555), setF PCX_FRY_REQ.W 6 (0x0F0F0F0F)]).run .reset, 0, .SPL_MER_CFG, 0, (all [setF PCX_FRY_STAT.STATE 0 2, setF PCX_FRY_STAT.LAST_SEQ 0 5, setF PCX_FRY_REQ.W 0 0x5011005, setF PCX_FRY_REQ.W 4 (regAddr .SPL_MER_CFG 0 - regBase - 0xF00000), setF PCX_FRY_REQ.W 5 (0x55555555), setF PCX_FRY_REQ.W 6 (0x0F0F0F0F)]).run .reset |>.wordValue .keeper (.SPL_MER_CFG, 0, false), false, (let s0 := (all [setF PCX_FRY_STAT.STATE 0 2, setF PCX_FRY_STAT.LAST_SEQ 0 5, setF PCX_FRY_REQ.W 0 0x5011005, setF PCX_FRY_REQ.W 4 (regAddr .SPL_MER_CFG 0 - regBase - 0xF00000), setF PCX_FRY_REQ.W 5 (0x55555555), setF PCX_FRY_REQ.W 6 (0x0F0F0F0F)]).run .reset; let old := s0.wordValue .keeper (.SPL_MER_CFG, 0, false); (all [wordReadFx .keeper (.SPL_MER_CFG, 0, false), wordWrite .keeper (.SPL_MER_CFG, 0, false) ((s0.req 0 5 &&& s0.req 0 6) ||| (old - (old &&& s0.req 0 6)))] : Prog).run s0), by unfold State.mayServe; decide +kernel⟩,
    ⟨(all [setF PCX_FRY_STAT.STATE 0 2, setF PCX_FRY_STAT.LAST_SEQ 0 5, setF PCX_FRY_REQ.W 0 0x7011005, setF PCX_FRY_REQ.W 4 (regAddr .SVC_SVY_CFG 0 - regBase - 0x300000), setF PCX_FRY_REQ.W 5 (0x55555555), setF PCX_FRY_REQ.W 6 (0x0F0F0F0F)]).run .reset, 0, .SVC_SVY_CFG, 0, (all [setF PCX_FRY_STAT.STATE 0 2, setF PCX_FRY_STAT.LAST_SEQ 0 5, setF PCX_FRY_REQ.W 0 0x7011005, setF PCX_FRY_REQ.W 4 (regAddr .SVC_SVY_CFG 0 - regBase - 0x300000), setF PCX_FRY_REQ.W 5 (0x55555555), setF PCX_FRY_REQ.W 6 (0x0F0F0F0F)]).run .reset |>.wordValue .keeper (.SVC_SVY_CFG, 0, false), false, (let s0 := (all [setF PCX_FRY_STAT.STATE 0 2, setF PCX_FRY_STAT.LAST_SEQ 0 5, setF PCX_FRY_REQ.W 0 0x7011005, setF PCX_FRY_REQ.W 4 (regAddr .SVC_SVY_CFG 0 - regBase - 0x300000), setF PCX_FRY_REQ.W 5 (0x55555555), setF PCX_FRY_REQ.W 6 (0x0F0F0F0F)]).run .reset; let old := s0.wordValue .keeper (.SVC_SVY_CFG, 0, false); (all [wordReadFx .keeper (.SVC_SVY_CFG, 0, false), wordWrite .keeper (.SVC_SVY_CFG, 0, false) ((s0.req 0 5 &&& s0.req 0 6) ||| (old - (old &&& s0.req 0 6)))] : Prog).run s0), by unfold State.mayServe; decide +kernel⟩,
    ⟨(all [setF PCX_FRY_STAT.STATE 0 2, setF PCX_FRY_STAT.LAST_SEQ 0 5, setF PCX_FRY_REQ.W 0 0x3031005, setF PCX_FRY_REQ.W 4 (regAddr .SVE_RAMP_CFG 0 - regBase - 0xC00000), setF PCX_FRY_REQ.W 5 (0x55555555), setF PCX_FRY_REQ.W 6 (0x0F0F0F0F)]).run .reset, 0, .SVE_RAMP_CFG, 0, 0x0F0F0F0F, (all [setF PCX_FRY_STAT.STATE 0 2, setF PCX_FRY_STAT.LAST_SEQ 0 5, setF PCX_FRY_REQ.W 0 0x3031005]).run .reset |>.regValue .keeper .SVE_RAMP_CFG 0 |> (· % 2 ^ 32), by unfold State.mayServe; decide +kernel⟩,
    ⟨(all [setF PCX_FRY_STAT.STATE 0 2, setF PCX_FRY_STAT.LAST_SEQ 0 5, setF PCX_FRY_REQ.W 0 0x4021005, setF PCX_FRY_REQ.W 4 (regAddr .SPN_LIM 0 - regBase - 0xD00000), setF PCX_FRY_REQ.W 5 (0x55555555), setF PCX_FRY_REQ.W 6 (0x0F0F0F0F)]).run .reset, 0, .SPN_LIM, 0, 0x0F0F0F0F, (all [setF PCX_FRY_STAT.STATE 0 2, setF PCX_FRY_STAT.LAST_SEQ 0 5, setF PCX_FRY_REQ.W 0 0x4021005]).run .reset |>.regValue .keeper .SPN_LIM 0 |> (· % 2 ^ 32), by unfold State.mayServe; decide +kernel⟩,
    ⟨(all [setF PCX_FRY_STAT.STATE 0 2, setF PCX_FRY_STAT.LAST_SEQ 0 5, setF PCX_FRY_REQ.W 0 0x5011005, setF PCX_FRY_REQ.W 4 (regAddr .SPL_MER_CFG 0 - regBase - 0xF00000), setF PCX_FRY_REQ.W 5 (0x55555555), setF PCX_FRY_REQ.W 6 (0x0F0F0F0F)]).run .reset, 0, .SPL_MER_CFG, 0, 0x0F0F0F0F, (all [setF PCX_FRY_STAT.STATE 0 2, setF PCX_FRY_STAT.LAST_SEQ 0 5, setF PCX_FRY_REQ.W 0 0x5011005]).run .reset |>.regValue .keeper .SPL_MER_CFG 0 |> (· % 2 ^ 32), by unfold State.mayServe; decide +kernel⟩,
    ⟨(all [setF PCX_FRY_STAT.STATE 0 2, setF PCX_FRY_STAT.LAST_SEQ 0 5, setF PCX_FRY_REQ.W 0 0x7011005, setF PCX_FRY_REQ.W 4 (regAddr .SVC_SVY_CFG 0 - regBase - 0x300000), setF PCX_FRY_REQ.W 5 (0x55555555), setF PCX_FRY_REQ.W 6 (0x0F0F0F0F)]).run .reset, 0, .SVC_SVY_CFG, 0, 0x0F0F0F0F, (all [setF PCX_FRY_STAT.STATE 0 2, setF PCX_FRY_STAT.LAST_SEQ 0 5, setF PCX_FRY_REQ.W 0 0x7011005]).run .reset |>.regValue .keeper .SVC_SVY_CFG 0 |> (· % 2 ^ 32), by unfold State.mayServe; decide +kernel⟩,
    ⟨(all [setF PCX_FRY_STAT.STATE 0 2, setF PCX_FRY_STAT.LAST_SEQ 0 5, setF PCX_FRY_REQ.W 0 0x4011005, setF PCX_FRY_REQ.W 4 (2), setF SPN_STAT.STATE 0 spRun]).run .reset, 0, by unfold State.mayServe; decide +kernel⟩,
    ⟨(all [setF PCX_FRY_STAT.STATE 0 2, setF PCX_FRY_STAT.LAST_SEQ 0 5, setF PCX_FRY_REQ.W 0 0x4011005, setF PCX_FRY_REQ.W 4 (1), setF SPN_MOTOR.POLES 0 4]).run .reset, 0, by unfold State.mayServe; decide +kernel⟩,
    ⟨(all [setF PCX_FRY_STAT.STATE 0 2, setF PCX_FRY_STAT.LAST_SEQ 0 5, setF PCX_FRY_REQ.W 0 0x4031005, setF PCX_FRY_REQ.W 4 (0xFFFFFFFF)]).run .reset, 0, by unfold State.mayServe; decide +kernel⟩,
    ⟨(all [setF PCX_FRY_STAT.STATE 0 2, setF PCX_FRY_STAT.LAST_SEQ 0 5, setF PCX_FRY_REQ.W 0 0x4041005, setF PCX_FRY_REQ.W 4 (0x0501F8), setF PCX_FRY_REQ.W 5 (0x01020304), setF PCX_FRY_REQ.W 6 (9)]).run .reset, 0, 504, 5, (wordsBytes ((List.range 56).map fun i => if i = 0 then 0x01020304 else if i = 1 then 9 else 0)).take 5, by unfold State.mayServe; decide +kernel⟩,
    ⟨(all [setF PCX_FRY_STAT.STATE 0 2, setF PCX_FRY_STAT.LAST_SEQ 0 5, setF PCX_FRY_REQ.W 0 0x4051005, setF SPL_STAT.STATE 0 mbMember]).run .reset, 0, by unfold State.mayServe; decide +kernel⟩,
    ⟨(all [setF PCX_FRY_STAT.STATE 0 2, setF PCX_FRY_STAT.LAST_SEQ 0 5, setF PCX_FRY_REQ.W 0 0x4061005, setF PCX_FRY_REQ.W 4 (0x0401FC), setF SPL_PLAN.W 127 0x01020304]).run .reset, 0, 508, 4, by unfold State.mayServe; decide +kernel⟩⟩

theorem witness_FerryArchipelago :
    (∃ (s : State) (n : Fin 8), (s.mayServe n 0x0502 clsAll false)) ∧
    (∃ (s : State) (n : Fin 8), (s.mayServe n 0x0503 (clsM ||| clsS) true) ∧ (s.splState = mbMember)) ∧
    (∃ (s : State) (n : Fin 8), (s.mayServe n 0x0504 (clsM ||| clsS) true)) ∧
    (∃ (s : State) (n : Fin 8) (c i h : Nat), (s.mayServe n 0x0601 (clsA ||| clsS) false) ∧ (c = nbits (s.req n 4) 8 8) ∧ (i = nbits (s.req n 4) 7 0) ∧ (h = (if
      c = 1 then nbits (s.req n 5) 4 0 else 0)) ∧ (calItemExists c i = true) ∧ (h ≤ 23) ∧ (s.calCond c i h = true) ∧ (c = 0 ∨ i = 0 ∨ s.calLastOf (8 + 4 *
      h) = 2) ∧ (s.svc.calActive = false)) ∧
    (∃ (s : State) (n : Fin 8) (c i h : Nat), (s.mayServe n 0x0602 (clsA ||| clsS) false) ∧ (c = nbits (s.req n 4) 8 8) ∧ (i = nbits (s.req n 4) 7 0) ∧ (h = (if
      c = 1 then nbits (s.req n 5) 4 0 else 0)) ∧ (calItemExists c i = true) ∧ (h ≤ 23)) ∧
    (∃ (s : State) (n : Fin 8) (k : Nat), (s.mayServe n 0x0702 (clsA ||| clsS ||| clsR) false) ∧ (k = s.req n 4) ∧ (k ≤ 63)) ∧
    (∃ (s : State) (n : Fin 8), (s.mayServe n 0x0703 (clsA ||| clsS) false) ∧ (nbit (s.req n 4) 0 = true)) ∧
    (∃ (s : State) (n : Fin 8), (s.mayServe n 0x0703 (clsA ||| clsS) false) ∧ (nbit (s.req n 4) 0 = false) ∧ (s.mode = mService) ∧ (s.svc.full = false)) ∧
    (∃ (s : State) (n : Fin 8), (s.mayServe n 0x0801 (clsM ||| clsS) false)) ∧
    (∃ (s : State) (n : Fin 8), (s.mayServe n 0x0802 clsS false) ∧ (s.kpr.nonces.any (fun e => e.1 == n.val && decide (s.ptm.ticks ≤ e.2.1 + nonceLife)) = true)
      ∧ (s.get ALM_STAT.CLEARING 0 = 0)) ∧
    (∃ (s : State) (n : Fin 8), (s.mayServe n 0x0803 clsAll false)) :=
  ⟨⟨(all [setF PCX_FRY_STAT.STATE 0 2, setF PCX_FRY_STAT.LAST_SEQ 0 5, setF PCX_FRY_REQ.W 0 0x5021005]).run .reset, 0, by unfold State.mayServe; decide +kernel⟩,
    ⟨(all [setF PCX_FRY_STAT.STATE 4 2, setF PCX_FRY_STAT.LAST_SEQ 4 5, setF PCX_FRY_REQ.W 256 0x5031005, setF PCX_FRY_REQ.W 257 (8), setF PCX_FRY_REQ.W 260 (5), setF PCX_FRY_STAT.VER 4 32, setF SPL_STAT.STATE 0 mbMember, setF SPL_RLY_CTL.TX_BUSY 0 1]).run .reset, 4, by unfold State.mayServe; decide +kernel⟩,
    ⟨(all [setF PCX_FRY_STAT.STATE 4 2, setF PCX_FRY_STAT.LAST_SEQ 4 5, setF PCX_FRY_REQ.W 256 0x5041005, setF PCX_FRY_REQ.W 260 (0x8003), setF PCX_FRY_STAT.VER 4 32]).run .reset, 4, by unfold State.mayServe; decide +kernel⟩,
    ⟨(all [setF PCX_FRY_STAT.STATE 0 2, setF PCX_FRY_STAT.LAST_SEQ 0 5, setF PCX_FRY_REQ.W 0 0x6011005, setF PCX_FRY_REQ.W 4 (256), setF PCX_FRY_REQ.W 5 (5), setF PTM_MODE_STAT.MODE 0 mService]).run .reset, 0, 1, 0, 5, by unfold State.mayServe; decide +kernel⟩,
    ⟨(all [setF PCX_FRY_STAT.STATE 0 2, setF PCX_FRY_STAT.LAST_SEQ 0 5, setF PCX_FRY_REQ.W 0 0x6021005, setF PCX_FRY_REQ.W 4 (1), .upd (.svc fun x => { x with calActive := true, calClass := 0, calItem := 1, calHead := 0 })]).run .reset, 0, 0, 1, 0, by unfold State.mayServe; decide +kernel⟩,
    ⟨(all [setF PCX_FRY_STAT.STATE 0 2, setF PCX_FRY_STAT.LAST_SEQ 0 5, setF PCX_FRY_REQ.W 0 0x7021005, setF PCX_FRY_REQ.W 4 (63)]).run .reset, 0, 63, by unfold State.mayServe; decide +kernel⟩,
    ⟨(all [setF PCX_FRY_STAT.STATE 0 2, setF PCX_FRY_STAT.LAST_SEQ 0 5, setF PCX_FRY_REQ.W 0 0x7031005, setF PCX_FRY_REQ.W 4 (1)]).run .reset, 0, by unfold State.mayServe; decide +kernel⟩,
    ⟨(all [setF PCX_FRY_STAT.STATE 0 2, setF PCX_FRY_STAT.LAST_SEQ 0 5, setF PCX_FRY_REQ.W 0 0x7031005, setF PTM_MODE_STAT.MODE 0 mService]).run .reset, 0, by unfold State.mayServe; decide +kernel⟩,
    ⟨(all [setF PCX_FRY_STAT.STATE 4 2, setF PCX_FRY_STAT.LAST_SEQ 4 5, setF PCX_FRY_REQ.W 256 0x8011005, setF PCX_FRY_REQ.W 260 (1)]).run .reset, 4, by unfold State.mayServe; decide +kernel⟩,
    ⟨(all [setF PCX_FRY_STAT.STATE 5 2, setF PCX_FRY_STAT.LAST_SEQ 5 5, setF PCX_FRY_REQ.W 320 0x8021005, .upd (.kpr fun k => { k with nonces := [(5, 0, [1])] })]).run .reset, 5, by unfold State.mayServe; decide +kernel⟩,
    ⟨(all [setF PCX_FRY_STAT.STATE 0 2, setF PCX_FRY_STAT.LAST_SEQ 0 5, setF PCX_FRY_REQ.W 0 0x8031005]).run .reset, 0, by unfold State.mayServe; decide +kernel⟩⟩

theorem witness_FerryImages :
    (∃ (s : State) (n : Fin 8) (a l p : Nat), (s.mayServe n 0x0901 (clsA ||| clsS) false) ∧ (a = s.reqAddr n 5) ∧ (l = s.req n 7) ∧ (p = s.req n 4 % 2) ∧
      (s.dramOk a l = true) ∧ (256 ≤ l) ∧ (l ≤ partSize p) ∧ (s.minSvnOf p ≤ s.headerSvn a) ∧ (s.headerOk a p = true)) ∧
    (∃ (s : State) (n : Fin 8) (a l p : Nat) (_v : Bool), (s.mayServe n 0x0901 (clsA ||| clsS) false) ∧ (a = s.reqAddr n 5) ∧ (l = s.req n 7) ∧ (p = s.req n 4 %
      2) ∧ (s.dramOk a l = true) ∧ (256 ≤ l) ∧ (l ≤ partSize p) ∧ (s.headerSvn a < s.minSvnOf p)) ∧
    (∃ (s : State) (n : Fin 8) (p k : Nat), (s.mayServe n 0x0902 (clsA ||| clsS) false) ∧ (p = s.req n 4 % 2) ∧ (k = nbits (s.req n 4) 8 8) ∧ (nbit (s.req n 4)
      16 = false) ∧ (s.cqe.activating = false) ∧ ((s.fwPart k p).any (·.valid) = true)) ∧
    (∃ (s : State) (n : Fin 8) (k : Nat), (s.mayServe n 0x0902 (clsA ||| clsS) false) ∧ (s.req n 4 % 2 = 1) ∧ (k = nbits (s.req n 4) 8 8) ∧ (nbit (s.req n 4) 16
      = true) ∧ (s.cqe.activating = false) ∧ ((s.fwPart k 1).any (·.valid) = true)) ∧
    (∃ (s : State) (n : Fin 8), (s.mayServe n 0x0903 clsAll false)) ∧
    (∃ (s : State) (n : Fin 8), (s.mayServe n 0x0A07 (clsM ||| clsS) false)) ∧
    (∃ (s : State) (n : Fin 8), (s.mayServe n 0x0A08 clsS false) ∧ (s.kpr.nonces.any (fun e => e.1 == n.val && decide (s.ptm.ticks ≤ e.2.1 + nonceLife)) = true)) ∧
    (∃ (s : State) (n : Fin 8) (ok : Bool), (s.mayServe n 0x0A08 clsS false) ∧ (ok = false ∨ s.kpr.nonces.any (fun e => e.1 == n.val && decide (s.ptm.ticks ≤
      e.2.1 + nonceLife)) = false)) ∧
    (∃ (s : State) (n : Fin 8), (s.mayServe n 0x0A09 (clsA ||| clsS) false)) ∧
    (∃ (s : State) (n : Fin 8) (off i : Nat) (r : RegName), (s.mayServe n 0x0B01 (clsM ||| clsS) false) ∧ (s.reqAddr n 4 = regBase + off) ∧ (off % 4 = 0) ∧ (off
      + 4 ≤ 0x1000000) ∧ (nbits (s.req n 6) 5 0 = 1) ∧ (regWordAt off = some (r, i, false)) ∧ (s.regDown r i = none) ∧ ((regInfo r).wide = false) ∧ (r ∉
      [RegName.PTM_GPIO_IN, .PTM_HSW_LOG, .ALM_WIN, .ALM_CURSOR, .PCX_IRQ_CLAIM, .MPC_EVT_LOG, .RDC_NP_DATA, .SVE_DRIFT_LOG])) ∧
    (∃ (s : State) (n : Fin 8) (off k : Nat), (s.mayServe n 0x0B01 (clsM ||| clsS) false) ∧ (s.reqAddr n 4 = regBase + off) ∧ (off % 4 = 0) ∧ (off + 4 * k ≤
      0x1000000) ∧ (nbits (s.req n 6) 5 0 = k) ∧ (0 < k) ∧ (k ≤ 56) ∧ ((accessWords off (4 * k)).all (fun w => (s.wordDown w.2 w.1).isNone && w.2.all fun x
      => (regFields x.1).all (fun f => f.acc != .rc) && !(regInfo x.1).wide && !([RegName.PTM_GPIO_IN, .PTM_HSW_LOG, .ALM_WIN, .ALM_CURSOR, .PCX_IRQ_CLAIM,
      .MPC_EVT_LOG, .RDC_NP_DATA, .SVE_DRIFT_LOG, .PCX_FRY_RES].contains x.1)) = true)) ∧
    (∃ (s : State) (n : Fin 8) (other d : List Byte), (s.mayServe n 0x0B02 (clsA ||| clsM) false) ∧ (0xC0 ≤ s.req n 4 % 256) ∧ (s.req n 4 % 256 ≤ 0xC9) ∧ (s.req
      n 4 % 256 = 0xC5 → s.on ALM_CFG.APP_GRANT 0 = true) ∧ (d = ((s.logPage (s.req n 4 % 256) other).drop (s.req n 8)).take (s.req n 7)) ∧ (s.bufferOk n
      (2 ^ 32) = true)) ∧
    (∃ (s : State) (n : Fin 8), (s.mayServe n 0x0B03 (clsA ||| clsM) false) ∧ (s.req n 4 % 256 = 0xC3) ∧ (s.bufferOk n 516 = true) ∧ (4 ≤ s.req n 7) ∧
      (s.splState = mbMember)) ∧
    (∃ (s : State) (_ws : List Word), (s.ptm.retention = false) ∧ (s.fySt 4 = fyEmpty ∨ s.fySt 4 = fyDone)) :=
  ⟨⟨(all [setF PCX_FRY_STAT.STATE 0 2, setF PCX_FRY_STAT.LAST_SEQ 0 5, setF PCX_FRY_REQ.W 0 0x9011005, setF PCX_FRY_REQ.W 4 (1), setF PCX_FRY_REQ.W 5 (0), setF PCX_FRY_REQ.W 6 (1), setF PCX_FRY_REQ.W 7 (256), setF BMU_CFG.CHANNELS 0 2, setF BMU_CFG.SIZE 0 32, memWords 0x100000000 [0x4F4E5649, 0x41000005, 0x0100, 16]]).run .reset, 0, 0x100000000, 256, 1, by unfold State.mayServe; decide +kernel⟩,
    ⟨(all [setF PCX_FRY_STAT.STATE 0 2, setF PCX_FRY_STAT.LAST_SEQ 0 5, setF PCX_FRY_REQ.W 0 0x9011005, setF PCX_FRY_REQ.W 4 (1), setF PCX_FRY_REQ.W 5 (0), setF PCX_FRY_REQ.W 6 (1), setF PCX_FRY_REQ.W 7 (256), setF BMU_CFG.CHANNELS 0 2, setF BMU_CFG.SIZE 0 32, .upd (.kpr fun k => { k with minSvn := [(1, 9)] })]).run .reset, 0, 0x100000000, 256, 1, true, by unfold State.mayServe; decide +kernel⟩,
    ⟨(all [setF PCX_FRY_STAT.STATE 0 2, setF PCX_FRY_STAT.LAST_SEQ 0 5, setF PCX_FRY_REQ.W 0 0x9021005, setF PCX_FRY_REQ.W 4 (0x101), .upd (.kpr fun x => { x with parts := [{ slot := 1, part := 1, valid := true, active := false, svn := 3, ver := 4 }] })]).run .reset, 0, 1, 1, by unfold State.mayServe; decide +kernel⟩,
    ⟨(all [setF PCX_FRY_STAT.STATE 0 2, setF PCX_FRY_STAT.LAST_SEQ 0 5, setF PCX_FRY_REQ.W 0 0x9021005, setF PCX_FRY_REQ.W 4 (0x10101), .upd (.kpr fun x => { x with parts := [{ slot := 1, part := 1, valid := true, active := false, svn := 3, ver := 4 }] })]).run .reset, 0, 1, by unfold State.mayServe; decide +kernel⟩,
    ⟨(all [setF PCX_FRY_STAT.STATE 0 2, setF PCX_FRY_STAT.LAST_SEQ 0 5, setF PCX_FRY_REQ.W 0 0x9031005]).run .reset, 0, by unfold State.mayServe; decide +kernel⟩,
    ⟨(all [setF PCX_FRY_STAT.STATE 4 2, setF PCX_FRY_STAT.LAST_SEQ 4 5, setF PCX_FRY_REQ.W 256 0xA071005]).run .reset, 4, by unfold State.mayServe; decide +kernel⟩,
    ⟨(all [setF PCX_FRY_STAT.STATE 5 2, setF PCX_FRY_STAT.LAST_SEQ 5 5, setF PCX_FRY_REQ.W 320 0xA081005, .upd (.kpr fun k => { k with nonces := [(5, 0, [1])] })]).run .reset, 5, by unfold State.mayServe; decide +kernel⟩,
    ⟨(all [setF PCX_FRY_STAT.STATE 5 2, setF PCX_FRY_STAT.LAST_SEQ 5 5, setF PCX_FRY_REQ.W 320 0xA081005]).run .reset, 5, true, by unfold State.mayServe; decide +kernel⟩,
    ⟨(all [setF PCX_FRY_STAT.STATE 0 2, setF PCX_FRY_STAT.LAST_SEQ 0 5, setF PCX_FRY_REQ.W 0 0xA091005, setF PCX_DBG_STAT.UNLOCKED 0 1]).run .reset, 0, by unfold State.mayServe; decide +kernel⟩,
    ⟨(all [setF PCX_FRY_STAT.STATE 4 2, setF PCX_FRY_STAT.LAST_SEQ 4 5, setF PCX_FRY_REQ.W 256 0xB011005, setF PCX_FRY_REQ.W 260 (regAddr .SVE_RAMP_CFG 0), setF PCX_FRY_REQ.W 262 (1)]).run .reset, 4, regAddr .SVE_RAMP_CFG 0 - regBase, 0, .SVE_RAMP_CFG, by unfold State.mayServe; decide +kernel⟩,
    ⟨(all [setF PCX_FRY_STAT.STATE 4 2, setF PCX_FRY_STAT.LAST_SEQ 4 5, setF PCX_FRY_REQ.W 256 0xB011005, setF PCX_FRY_REQ.W 260 (regAddr .SVE_RAMP_CFG 0), setF PCX_FRY_REQ.W 262 (2)]).run .reset, 4, regAddr .SVE_RAMP_CFG 0 - regBase, 2, by unfold State.mayServe; decide +kernel⟩,
    ⟨(all [setF PCX_FRY_STAT.STATE 0 2, setF PCX_FRY_STAT.LAST_SEQ 0 5, setF PCX_FRY_REQ.W 0 0xB021005, setF PCX_FRY_REQ.W 4 (0xC8), setF PCX_FRY_REQ.W 5 (0), setF PCX_FRY_REQ.W 6 (1), setF PCX_FRY_REQ.W 7 (16), setF PCX_FRY_REQ.W 8 (8), setF BMU_CFG.CHANNELS 0 2, setF BMU_CFG.SIZE 0 32]).run .reset, 0, [], (((all [setF PCX_FRY_STAT.STATE 0 2]).run .reset).logPage 0xC8 []).drop 8 |>.take 16, by unfold State.mayServe; decide +kernel⟩,
    ⟨(all [setF PCX_FRY_STAT.STATE 0 2, setF PCX_FRY_STAT.LAST_SEQ 0 5, setF PCX_FRY_REQ.W 0 0xB031005, setF PCX_FRY_REQ.W 4 (0xC3), setF PCX_FRY_REQ.W 5 (0), setF PCX_FRY_REQ.W 6 (1), setF PCX_FRY_REQ.W 7 (16), setF BMU_CFG.CHANNELS 0 2, setF BMU_CFG.SIZE 0 32, setF SPL_STAT.STATE 0 mbMember]).run .reset, 0, by unfold State.mayServe; decide +kernel⟩,
    ⟨.reset, (List.range 64).map (BitVec.ofNat 32), by decide +kernel⟩⟩

theorem witness_FerryNamespaces :
    (∃ (s : State) (n : Fin 8) (base k slot : Nat), (s.mayServe n 0x0A01 clsA false) ∧ (s.reqAddr n 4 = 1) ∧ (s.req n 6 = 0x10002) ∧ (s.extentFor 1 = some base)
      ∧ (s.freeEntry = some k) ∧ (s.freeKeySlot = some slot) ∧ (s.get MPC_KEY_STAT.DIRTY slot = 0)) ∧
    (∃ (s : State) (n : Fin 8) (z w l u base k slot : Nat), (s.mayServe n 0x0A01 clsA false) ∧ (z = s.reqAddr n 4) ∧ (w = s.req n 6) ∧ (levelOf (nbits w 7 0) =
      some l) ∧ (z ≠ 0) ∧ (nbits w 15 8 = 0 ∨ nbits w 15 8 = 2) ∧ (formatOk (nbits w 16 16) (nbits w 18 17) (nbits w 19 19) (nbits w 20 20) = true) ∧ (u =
      ((z + levelD l - 1) / levelD l + 256 * (if nbits w 15 8 = 2 then 16 else 1) - 1) / (256 * (if nbits w 15 8 = 2 then 16 else 1)) * (if nbits w 15 8 =
      2 then 16 else 1)) ∧ (s.extentFor u = some base) ∧ (s.freeEntry = some k) ∧ (s.freeKeySlot = some slot)) ∧
    (∃ (s : State) (n : Fin 8) (k : Nat), (s.mayServe n 0x0A02 clsA false) ∧ (k = s.req n 4 - 1) ∧ (0 < s.req n 4) ∧ (k < 128) ∧ (s.get CQE_NS_CFG.STATE k = 1)) ∧
    (∃ (s : State) (k : Fin 128), (s.get CQE_NS_CFG.STATE k = 2) ∧ (s.cqe.cmds.any (fun c => c.ns == some k.val) = false) ∧ (s.get PCX_KPR_STAT.RESTART 0 = 0)) ∧
    (∃ (s : State) (k : Fin 128), (s.get CQE_NS_CFG.STATE k = 2) ∧ (s.cqe.cmds = []) ∧ (s.kpr.waiting = []) ∧ (s.get PCX_KPR_STAT.RESTART 0 = 0)) ∧
    (∃ (s : State) (n : Fin 8) (k : Nat), (s.mayServe n 0x0A03 clsA false) ∧ (k = s.req n 4 - 1) ∧ (0 < s.req n 4) ∧ (k < 128) ∧ (s.get CQE_NS_CFG.STATE k = 1)) ∧
    (∃ (s : State) (n : Fin 8) (k w : Nat), (s.mayServe n 0x0A04 clsA false) ∧ (k = s.req n 4 - 1) ∧ (0 < s.req n 4) ∧ (k < 128) ∧ (s.get CQE_NS_CFG.STATE k =
      1) ∧ (w = s.req n 5) ∧ (nbit w 0 = false) ∧ (formatOk (nbits w 1 1) (nbits w 3 2) (nbits w 4 4) (nbits w 5 5) = true)) ∧
    (∃ (s : State) (n : Fin 8) (k w : Nat), (s.mayServe n 0x0A04 clsA false) ∧ (k = s.req n 4 - 1) ∧ (0 < s.req n 4) ∧ (k < 128) ∧ (s.get CQE_NS_CFG.STATE k =
      1) ∧ (w = s.req n 5) ∧ (nbit w 0 = true) ∧ (s.mode = mService ∨ (s.gensOf k).2.2 < 63) ∧ (formatOk (nbits w 1 1) (nbits w 3 2) (nbits w 4 4) (nbits w
      5 5) = true)) ∧
    (∃ (s : State) (n : Fin 8) (_acts : List TcgAct), (s.mayServe n 0x0A05 clsA false) ∧ (s.bufferOk n 65536 = true)) ∧
    (∃ (s : State) (n : Fin 8) (k : Fin 128), (s.mayServe n 0x0A05 clsA false) ∧ (s.bufferOk n 65536 = true) ∧ (s.get CQE_NS_CFG.STATE k = 1) ∧ (s.keyState
      (s.get CQE_NS_CFG.KSLOT k) ≠ 0)) ∧
    (∃ (s : State) (n : Fin 8) (k : Fin 128), (s.mayServe n 0x0A05 clsA false) ∧ (s.bufferOk n 65536 = true) ∧ (s.get CQE_NS_CFG.STATE k = 1) ∧ (s.keyState
      (s.get CQE_NS_CFG.KSLOT k) ≠ 0)) ∧
    (∃ (s : State) (n : Fin 8) (_data : List Byte), (s.mayServe n 0x0A06 clsA false) ∧ (s.bufferOk n 65536 = true)) :=
  ⟨⟨(all [setF PCX_FRY_STAT.STATE 0 2, setF PCX_FRY_STAT.LAST_SEQ 0 5, setF PCX_FRY_REQ.W 0 0xA011005, setF PCX_FRY_REQ.W 4 (1), setF PCX_FRY_REQ.W 6 (0x10002), .upd (.cqe fun x => { x with extents := [(0, 100, 0, 0)] })]).run .reset, 0, 0, 0, 0, by unfold State.mayServe; decide +kernel⟩,
    ⟨(all [setF PCX_FRY_STAT.STATE 0 2, setF PCX_FRY_STAT.LAST_SEQ 0 5, setF PCX_FRY_REQ.W 0 0xA011005, setF PCX_FRY_REQ.W 4 (5000), setF PCX_FRY_REQ.W 6 (0x10002), .upd (.cqe fun x => { x with extents := [(0, 100000, 0, 0)] })]).run .reset, 0, 5000, 0x10002, 1, 2, 0, 0, 0, by unfold State.mayServe; decide +kernel⟩,
    ⟨(all [setF PCX_FRY_STAT.STATE 0 2, setF PCX_FRY_STAT.LAST_SEQ 0 5, setF PCX_FRY_REQ.W 0 0xA021005, setF PCX_FRY_REQ.W 4 (4), setR .CQE_NS_CFG 3 (1 <<< 30 ||| 5)]).run .reset, 0, 3, by unfold State.mayServe; decide +kernel⟩,
    ⟨(all [setR .CQE_NS_CFG 3 (2 <<< 30 ||| 5)]).run .reset, 3, by decide +kernel⟩,
    ⟨(all [setR .CQE_NS_CFG 3 (2 <<< 30 ||| 5)]).run .reset, 3, by decide +kernel⟩,
    ⟨(all [setF PCX_FRY_STAT.STATE 0 2, setF PCX_FRY_STAT.LAST_SEQ 0 5, setF PCX_FRY_REQ.W 0 0xA031005, setF PCX_FRY_REQ.W 4 (4), setF PCX_FRY_REQ.W 5 (3), setR .CQE_NS_CFG 3 (1 <<< 30 ||| 5)]).run .reset, 0, 3, by unfold State.mayServe; decide +kernel⟩,
    ⟨(all [setF PCX_FRY_STAT.STATE 0 2, setF PCX_FRY_STAT.LAST_SEQ 0 5, setF PCX_FRY_REQ.W 0 0xA041005, setF PCX_FRY_REQ.W 4 (4), setF PCX_FRY_REQ.W 5 (0x3E), setR .CQE_NS_CFG 3 (1 <<< 30 ||| 5)]).run .reset, 0, 3, 0x3E, by unfold State.mayServe; decide +kernel⟩,
    ⟨(all [setF PCX_FRY_STAT.STATE 0 2, setF PCX_FRY_STAT.LAST_SEQ 0 5, setF PCX_FRY_REQ.W 0 0xA041005, setF PCX_FRY_REQ.W 4 (4), setF PCX_FRY_REQ.W 5 (0x3F), setR .CQE_NS_CFG 3 (1 <<< 30 ||| 5), setF MPC_KEY_STAT.STATE 5 2]).run .reset, 0, 3, 0x3F, by unfold State.mayServe; decide +kernel⟩,
    ⟨(all [setF PCX_FRY_STAT.STATE 0 2, setF PCX_FRY_STAT.LAST_SEQ 0 5, setF PCX_FRY_REQ.W 0 0xA051005, setF PCX_FRY_REQ.W 5 (0), setF PCX_FRY_REQ.W 6 (1), setF PCX_FRY_REQ.W 7 (16), setF BMU_CFG.CHANNELS 0 2, setF BMU_CFG.SIZE 0 32, setR .CQE_NS_CFG 3 (1 <<< 30 ||| 5), setF MPC_KEY_STAT.STATE 5 2]).run .reset, 0, [.lock 3, .unlock 3, .genKey 3], by unfold State.mayServe; decide +kernel⟩,
    ⟨(all [setF PCX_FRY_STAT.STATE 0 2, setF PCX_FRY_STAT.LAST_SEQ 0 5, setF PCX_FRY_REQ.W 0 0xA051005, setF PCX_FRY_REQ.W 5 (0), setF PCX_FRY_REQ.W 6 (1), setF PCX_FRY_REQ.W 7 (16), setF BMU_CFG.CHANNELS 0 2, setF BMU_CFG.SIZE 0 32, setR .CQE_NS_CFG 3 (1 <<< 30 ||| 5), setF MPC_KEY_STAT.STATE 5 2]).run .reset, 0, 3, by unfold State.mayServe; decide +kernel⟩,
    ⟨(all [setF PCX_FRY_STAT.STATE 0 2, setF PCX_FRY_STAT.LAST_SEQ 0 5, setF PCX_FRY_REQ.W 0 0xA051005, setF PCX_FRY_REQ.W 5 (0), setF PCX_FRY_REQ.W 6 (1), setF PCX_FRY_REQ.W 7 (16), setF BMU_CFG.CHANNELS 0 2, setF BMU_CFG.SIZE 0 32, setR .CQE_NS_CFG 3 (1 <<< 30 ||| 5), setF MPC_KEY_STAT.STATE 5 1]).run .reset, 0, 3, by unfold State.mayServe; decide +kernel⟩,
    ⟨(all [setF PCX_FRY_STAT.STATE 0 2, setF PCX_FRY_STAT.LAST_SEQ 0 5, setF PCX_FRY_REQ.W 0 0xA061005, setF PCX_FRY_REQ.W 5 (0), setF PCX_FRY_REQ.W 6 (1), setF PCX_FRY_REQ.W 7 (16), setF BMU_CFG.CHANNELS 0 2, setF BMU_CFG.SIZE 0 32]).run .reset, 0, [7, 0, 9], by unfold State.mayServe; decide +kernel⟩⟩

theorem witness_CoreCaches :
    (∃ (s : State) (m : Master) (n : BitVec 16), (m.isCore = true) ∧ ((s.cmo m).busy = false) ∧ (s.dramOk (s.cmo m).addr (64 * (n.toNat + 1)) = true)) ∧
    (∃ (s : State) (m : Master) (n : BitVec 16), (m.isCore = true) ∧ ((s.cmo m).busy = false) ∧ (s.dramOk (s.cmo m).addr (64 * (n.toNat + 1)) = true)) ∧
    (∃ (s : State) (m : Master) (n : BitVec 16), (m.isCore = true) ∧ ((s.cmo m).busy = false) ∧ (s.dramOk (s.cmo m).addr (64 * (n.toNat + 1)) = true)) ∧
    (∃ (_s : State) (m : Master) (k : Fin 9), (m = targetMaster k)) ∧
    (∃ (_s : State) (m : Master) (k : Fin 9), (m ≠ targetMaster k)) ∧
    (∃ (_s : State) (m : Master) (k : Fin 9) (_i : Fin 128), (m = targetMaster k)) ∧
    (∃ (s : State) (h : Fin 5), (s.get PCX_MTIMECMP.CMP h ≤ s.time)) ∧
    (∃ (_s : State) (m : Master) (h : Fin 5) (_v : Bool), (m = .keeper ∨ masterHart m = some h.val)) ∧
    (∃ (s : State) (m : Master) (_mask : BitVec 64), (m ≠ .keeper) ∧ (s.quiet 16)) ∧
    (∃ (_s : State) (_h : Fin 5) (p : Fin 4) (mT sT w : Bool), (csrAllowed p mT sT w = false)) ∧
    (∃ (_s : State) (_h : Fin 5) (p : Fin 4) (mT sT w : Bool), (csrAllowed p mT sT w = false)) ∧
    (∃ (_s : State) (_h : Fin 5) (p : Fin 4) (mT sT w : Bool), (csrAllowed p mT sT w = false)) :=
  ⟨⟨(all [setF BMU_CFG.CHANNELS 0 2, setF BMU_CFG.SIZE 0 32, .upd (.pcx fun p => { p with l2 := [{ line := 0x4000000, bytes := List.replicate 64 7, dirty := true }] }), .upd (.pcx fun p => { p with cmo := [{ master := 2, addr := 0x100000000, op := 0, lines := 0, busy := false, err := false }] })]).run .reset, .app 0, 0, by decide +kernel⟩,
    ⟨(all [setF BMU_CFG.CHANNELS 0 2, setF BMU_CFG.SIZE 0 32, .upd (.pcx fun p => { p with l2 := [{ line := 0x4000000, bytes := List.replicate 64 7, dirty := true }] }), .upd (.pcx fun p => { p with cmo := [{ master := 2, addr := 0x100000000, op := 0, lines := 0, busy := false, err := false }] })]).run .reset, .app 0, 0, by decide +kernel⟩,
    ⟨(all [setF BMU_CFG.CHANNELS 0 2, setF BMU_CFG.SIZE 0 32, .upd (.pcx fun p => { p with l2 := [{ line := 0x4000000, bytes := List.replicate 64 7, dirty := true }] }), .upd (.pcx fun p => { p with cmo := [{ master := 2, addr := 0x100000000, op := 0, lines := 0, busy := false, err := false }] })]).run .reset, .app 0, 0, by decide +kernel⟩,
    ⟨(all [setF PCX_IRQ_SRC.EN 45 1, setF PCX_IRQ_SRC.PRIO 45 3, setF PTM_MODE_STAT.WAKE 0 1]).run .reset, .keeper, 0, by decide +kernel⟩,
    ⟨.reset, .app 2, 0, by decide +kernel⟩,
    ⟨(all [setF PCX_IRQ_SRC.CLAIMED 5 1]).run .reset, .app 3, 8, 5, by decide +kernel⟩,
    ⟨(all [setR .PCX_MTIMECMP 4 0]).run .reset, 4, by decide +kernel⟩,
    ⟨.reset, .app 3, 4, true, by decide +kernel⟩,
    ⟨(all [setF FCU_SRC_CFG.N 16 5]).run .reset, .app 2, 5, by unfold State.quiet; decide +kernel⟩,
    ⟨.reset, 4, 0, false, true, false, by decide +kernel⟩,
    ⟨.reset, 4, 0, false, true, false, by decide +kernel⟩,
    ⟨.reset, 4, 0, false, true, false, by decide +kernel⟩⟩

theorem witness_CoreRunning :
    (∃ (_s : State) (m : Master) (h : Fin 5), (masterHart m = some h.val)) ∧
    (∃ (_s : State) (m : Master) (h : Fin 5) (v : Word), (v.toNat ≠ 0xD1A5 ∨ masterHart m ≠ some h.val)) ∧
    (∃ (s : State) (h : Fin 5), (s.wdtRuns h = true) ∧ (s.get PCX_WDT_STAT.STAGE h = 0)) ∧
    (∃ (s : State) (c : Fin 4), (s.wdtRuns (1 + c) = true) ∧ (s.get PCX_WDT_STAT.STAGE (1 + c) = 1) ∧ (s.split = false) ∧ (∃ k < 4, k ≠ c.val ∧ s.running k =
      true) ∧ (s.quiet (12 + c))) ∧
    (∃ (s : State) (c : Fin 4), (s.wdtRuns (1 + c) = true) ∧ (s.get PCX_WDT_STAT.STAGE (1 + c) = 1) ∧ (s.quiet (12 + c))) ∧
    (∃ (s : State), (s.wdtRuns 0 = true) ∧ (s.get PCX_WDT_STAT.STAGE 0 = 1) ∧ (s.quiet 11)) ∧
    (∃ (s : State) (p : Fin 2), (s.split = true) ∧ (s.running (2 * p) = true) ∧ (∃ k < 4, k / 2 ≠ p.val ∧ s.running k = true) ∧ (s.quiet (12 + 2 * p))) ∧
    (∃ (s : State) (p : Fin 2), (s.split = true) ∧ (s.running (2 * p) = true) ∧ (s.quiet (12 + 2 * p))) ∧
    (∃ (s : State) (c _heir : Fin 4), (s.follower c = false) ∧ (s.running c = true)) ∧
    (∃ (s : State) (c _heir : Fin 4), (s.follower c = false)) ∧
    (∃ (s : State) (c _heir : Fin 4), (s.follower c = false) ∧ (s.split = false) ∧ (s.running c = false)) ∧
    (∃ (s : State), (s.get PCX_KPR_STAT.RESTART 0 = 0) ∧ (s.quiet 10)) ∧
    (∃ (s : State), (s.get PCX_KPR_STAT.RESTART 0 = 1) ∧ (s.ptm.retention = false) ∧ (s.safe = false) ∧ (s.ptm.plStep = 0)) ∧
    (∃ (s : State), (s.get PCX_KPR_STAT.RESTART 0 = 1) ∧ (s.ckptTaken = none)) ∧
    (∃ (s : State) (i : Nat), (s.get PCX_KPR_STAT.RESTART 0 = 1) ∧ (s.ckptTaken = some i)) ∧
    (∃ (s : State), (s.get PCX_KPR_STAT.RESTART 0 = 1)) ∧
    (∃ (s : State), (s.get PCX_KPR_STAT.RESTART 0 = 1) ∧ (s.pcx.kprStart + 100 * tickMs ≤ s.ptm.ticks) ∧ (s.ptm.retention = false) ∧ (s.safe = false) ∧
      (s.ptm.plStep = 0)) ∧
    (∃ (s : State) (h : Fin 5) (typ : Fin 4) (size : Fin 7) (a : PAddr) (src : Nat), (s.hartRuns h = true) ∧ (s.coreFault (hartMaster h) typ a.toNat (2 ^
      size.val) = some src) ∧ (s.quiet src)) ∧
    (∃ (s : State) (h : Fin 5) (typ : Fin 4) (size : Fin 7) (a : PAddr), (s.hartRuns h = true) ∧ (s.coreFault (hartMaster h) typ a.toNat (2 ^ size.val) = none)
      ∧ ((typ = 1 ∨ typ = 3) ∧ h ≠ 0 ∧ s.pcx.l2.any (fun l => l.line == a.toNat / 64 && !l.w) = true)) ∧
    (∃ (s : State) (h : Fin 5) (typ : Fin 4) (size : Fin 7) (a : PAddr), (s.hartRuns h = true) ∧ (s.coreFault (hartMaster h) typ a.toNat (2 ^ size.val) = none)
      ∧ (s.pcx.l2 = []) ∧ (s.poisoned a.toNat (2 ^ size.val) = true) ∧ (s.normalService = true)) ∧
    (∃ (s : State) (h : Fin 5) (_f : Bool) (a : PAddr), (s.hartRuns h = true) ∧ (s.region a.toNat 4 = some .regs)) ∧
    (∃ (_s : State) (_h : Fin 5) (p : Fin 4) (mT sT : Bool), (csrAllowed p mT sT false = true)) ∧
    (∃ (_s : State) (_h : Fin 5) (p : Fin 4) (mT sT : Bool), (csrAllowed p mT sT false = true)) ∧
    (∃ (_s : State) (_h : Fin 5) (p : Fin 4) (mT sT : Bool), (csrAllowed p mT sT false = true)) :=
  ⟨⟨.reset, .app 3, 4, by decide +kernel⟩,
    ⟨.reset, .app 3, 4, 0, by decide +kernel⟩,
    ⟨(all [setF PCX_WDT_CTL.EN 0 1]).run .reset, 0, by decide +kernel⟩,
    ⟨(all [setF PCX_WDT_CTL.EN 2 1, setF PCX_WDT_STAT.STAGE 2 1, setF PCX_CORE_STAT.STATE 1 1, setF PCX_CORE_STAT.STATE 2 1, setF FCU_SRC_CFG.N 13 5]).run .reset, 1, by unfold State.quiet; decide +kernel⟩,
    ⟨(all [setF PCX_WDT_CTL.EN 2 1, setF PCX_WDT_STAT.STAGE 2 1, setF PCX_CORE_STAT.STATE 1 1, setF FCU_SRC_CFG.N 13 5]).run .reset, 1, by unfold State.quiet; decide +kernel⟩,
    ⟨(all [setF PCX_WDT_CTL.EN 0 1, setF PCX_WDT_STAT.STAGE 0 1, setF FCU_SRC_CFG.N 11 5]).run .reset, by unfold State.quiet; decide +kernel⟩,
    ⟨(all [setF PCX_CFG.SPLIT 0 1, each (List.range 4) fun c => setF PCX_CORE_STAT.STATE c 1, setF FCU_SRC_CFG.N 14 5]).run .reset, 1, by unfold State.quiet; decide +kernel⟩,
    ⟨(all [setF PCX_CFG.SPLIT 0 1, setF PCX_CORE_STAT.STATE 2 1, setF PCX_CORE_STAT.STATE 3 1, setF FCU_SRC_CFG.N 14 5]).run .reset, 1, by unfold State.quiet; decide +kernel⟩,
    ⟨(all [setF PCX_CORE_STAT.STATE 3 1]).run .reset, 3, 1, by decide +kernel⟩,
    ⟨.reset, 3, 1, by decide +kernel⟩,
    ⟨.reset, 3, 1, by decide +kernel⟩,
    ⟨(all [setF FCU_SRC_CFG.N 10 5]).run .reset, by unfold State.quiet; decide +kernel⟩,
    ⟨(all [setF PCX_KPR_STAT.RESTART 0 1, setF FCU_SRC_CFG.N 10 5]).run .reset, by decide +kernel⟩,
    ⟨(all [setF PCX_KPR_STAT.RESTART 0 1]).run .reset, by decide +kernel⟩,
    ⟨(all [setF PCX_KPR_STAT.RESTART 0 1, memWord 0x10000000 5, memWord 0x10000004 64, .ask fun s => memWord 0x10000008 (crc32 (s.bytes 0x1000000C 52)).toNat, setF PCX_CKPT.OFFSET 1 0x1FF]).run .reset, 0, by decide +kernel⟩,
    ⟨(all [setF PCX_KPR_STAT.RESTART 0 1, .upd (.pcx fun p => { p with nmiHeld := true })]).run .reset, by decide +kernel⟩,
    ⟨(all [setF PCX_KPR_STAT.RESTART 0 1, .upd (.ptm fun p => { p with ticks := 10 ^ 6 })]).run .reset, by decide +kernel⟩,
    ⟨(all [setF FCU_SRC_CFG.N 17 5]).run .reset, 0, 0, 2, 0x1000000, 17, by unfold State.quiet; decide +kernel⟩,
    ⟨(all [setF BMU_CFG.CHANNELS 0 2, setF BMU_CFG.SIZE 0 32, setF PCX_CORE_STAT.STATE 0 1, .upd (.pcx fun p => { p with l2 := [{ line := 0x4000000, bytes := [], w := false }] })]).run .reset, 1, 1, 2, 0x100000000, by decide +kernel⟩,
    ⟨(all [setF BMU_CFG.CHANNELS 0 2, setF BMU_CFG.SIZE 0 32, setF PTM_MODE_STAT.MODE 0 mActive, setF PCX_CORE_STAT.STATE 0 1, .upd (.bmu fun b => { b with poison := [0x8000000] })]).run .reset, 1, 0, 2, 0x100000000, by decide +kernel⟩,
    ⟨.reset, 0, true, 0x80000000, by decide +kernel⟩,
    ⟨.reset, 4, 0, true, true, by decide +kernel⟩,
    ⟨.reset, 4, 0, true, true, by decide +kernel⟩,
    ⟨.reset, 4, 0, true, true, by decide +kernel⟩⟩

theorem witness_BufferCache :
    (∃ (s : State) (m : Master) (a : PAddr) (_n : Fin 256), (s.accessFault m atRead a.toNat (8 - a.toNat % 8) = none) ∧ (s.region a.toNat (8 - a.toNat % 8) =
      some .dram) ∧ (s.cline (a.toNat / 64) = none) ∧ (s.inEvb (a.toNat / 64) = false) ∧ (s.bmu.poison = []) ∧ (s.get BMU_CLASS_CFG.PF_EN m.cls = 0)) ∧
    (∃ (s : State) (m : Master) (a : PAddr) (_o0 _o1 _pre : Half) (_n : Fin 256), (s.accessFault m atRead a.toNat (8 - a.toNat % 8) = none) ∧ (s.region a.toNat
      (8 - a.toNat % 8) = some .dram) ∧ (s.cline (a.toNat / 64) = none) ∧ (s.inEvb (a.toNat / 64) = false) ∧ (s.normalService = true)) ∧
    (∃ (s : State) (l : BitVec 34), (s.inEvb l.toNat = true)) ∧
    (∃ (s : State) (m : Master) (a : PAddr) (bs : List Byte), (s.accessFault m atWrite a.toNat bs.length = none) ∧ (s.region a.toNat bs.length = some .dram) ∧
      (s.ccState = ccDisabled ∨ s.ccState = ccCleaning ∧ s.cline (a.toNat / 64) = none) ∧ (a.toNat % 64 + bs.length ≤ 64) ∧ (bs.length < 64)) ∧
    (∃ (s : State) (n : BitVec 20) (lo : Nat), (lo = s.get BMU_MNT_ADDR.ADDR 0) ∧ (s.get BMU_MNT_CTL.BUSY 0 = 0) ∧ (s.dramOk (64 * lo) (64 * (n.toNat + 1)) =
      true)) ∧
    (∃ (s : State) (n : BitVec 20) (lo : Nat), (lo = s.get BMU_MNT_ADDR.ADDR 0) ∧ (s.get BMU_MNT_CTL.BUSY 0 = 0) ∧ (s.dramOk (64 * lo) (64 * (n.toNat + 1)) =
      true)) ∧
    (∃ (s : State) (n : BitVec 20) (lo : Nat), (lo = s.get BMU_MNT_ADDR.ADDR 0) ∧ (s.get BMU_MNT_CTL.BUSY 0 = 0) ∧ (s.dramOk (64 * lo) (64 * (n.toNat + 1)) =
      true)) ∧
    (∃ (s : State) (o lo n : Nat), (s.bmu.mnt = some (o, lo, n)) ∧ (o = 1 ∨ s.bmu.evb.any (fun e => inLines lo n e.line) = false)) :=
  ⟨⟨(all [setF BMU_CFG.CHANNELS 0 2, setF BMU_CFG.SIZE 0 32]).run .reset, .app 0, 0x100000004, 3, by decide +kernel⟩,
    ⟨(all [setF BMU_CFG.CHANNELS 0 2, setF BMU_CFG.SIZE 0 32, setF PTM_MODE_STAT.MODE 0 mActive]).run .reset, .app 0, 0x100000004, .corrected, .uncorrectable, .clean, 3, by decide +kernel⟩,
    ⟨(all [.upd (.bmu fun b => { b with evb := [{ line := 5, old := [] }] })]).run .reset, 5, by decide +kernel⟩,
    ⟨(all [setF BMU_CFG.CHANNELS 0 2, setF BMU_CFG.SIZE 0 32, setF BMU_CC_CTL.STATE 0 2]).run .reset, .app 0, 0x100000004, [1, 0, 3], by decide +kernel⟩,
    ⟨(all [setF BMU_CFG.CHANNELS 0 2, setF BMU_CFG.SIZE 0 32, .upd (.bmu fun b => { b with lines := [(0x4000000, { way := 3, dirty := true })] }), setF BMU_MNT_ADDR.ADDR 0 0x4000000]).run .reset, 0, 0x4000000, by decide +kernel⟩,
    ⟨(all [setF BMU_CFG.CHANNELS 0 2, setF BMU_CFG.SIZE 0 32, .upd (.bmu fun b => { b with lines := [(0x4000000, { way := 3, dirty := true })] }), setF BMU_MNT_ADDR.ADDR 0 0x4000000]).run .reset, 0, 0x4000000, by decide +kernel⟩,
    ⟨(all [setF BMU_CFG.CHANNELS 0 2, setF BMU_CFG.SIZE 0 32, .upd (.bmu fun b => { b with lines := [(0x4000000, { way := 3, dirty := true })] }), setF BMU_MNT_ADDR.ADDR 0 0x4000000]).run .reset, 0, 0x4000000, by decide +kernel⟩,
    ⟨(all [.upd (.bmu fun b => { b with mnt := some (0, 1, 2) }), setF BMU_MNT_CTL.BUSY 0 1]).run .reset, 0, 1, 2, by decide +kernel⟩⟩

theorem witness_CacheWays :
    (∃ (s : State) (mask : BitVec 16), (s.get BMU_WAY_PWR.OFF_REQ 0 ≠ mask.toNat) ∧ (s.get BMU_WAY_PWR.ON 0 &&& (65535 - mask.toNat) ≠ 0)) ∧
    (∃ (s : State) (w : Fin 16), (w.val ∈ s.bmu.cleaning)) ∧
    (∃ (s : State) (w : Fin 16), (s.bitF BMU_WAY_PWR.OFF_REQ 0 w = false) ∧ (s.ccState ≠ ccDisabled)) ∧
    (∃ (s : State), (s.get BMU_CC_CTL.ENABLE 0 = 1)) ∧
    (∃ (s : State), (s.ccState = ccCleaning) ∧ (s.bmu.evb = []) ∧ (s.get BMU_CC_CTL.ENABLE 0 = 1)) ∧
    (∃ (s : State), (s.ccState = ccCleaning) ∧ (s.bmu.evb = []) ∧ (s.get BMU_CC_CTL.ENABLE 0 = 0)) ∧
    (∃ (s : State), (s.get BMU_CC_CTL.ENABLE 0 = 0)) ∧
    (∃ (s : State), (s.ccState = ccEnabling)) ∧
    (∃ (s : State), (s.bmu.agedAt + tickSec * 2 ^ s.get BMU_CCC_CFG.AGE 0 ≤ s.time)) :=
  ⟨⟨.reset, 0xFFFE, by decide +kernel⟩,
    ⟨(all [.upd (.bmu fun b => { b with cleaning := [15] }), setF BMU_WAY_PWR.OFF_REQ 0 0x8000]).run .reset, 15, by decide +kernel⟩,
    ⟨.reset, 15, by decide +kernel⟩,
    ⟨(all [setF BMU_CC_CTL.ENABLE 0 1]).run .reset, by decide +kernel⟩,
    ⟨(all [setF BMU_CC_CTL.STATE 0 1, setF BMU_CC_CTL.ENABLE 0 1]).run .reset, by decide +kernel⟩,
    ⟨(all [setF BMU_CC_CTL.STATE 0 1, setF BMU_CC_CTL.ENABLE 0 0]).run .reset, by decide +kernel⟩,
    ⟨(all [setF BMU_CC_CTL.STATE 0 2, setF BMU_CC_CTL.ENABLE 0 0]).run .reset, by decide +kernel⟩,
    ⟨(all [setF BMU_CC_CTL.STATE 0 3]).run .reset, by decide +kernel⟩,
    ⟨(all [setR .PTM_MER_TIME 0 (10 ^ 15)]).run .reset, by decide +kernel⟩⟩

theorem witness_DmaControl :
    (∃ (s : State) (m : Master) (n : Fin 64), (s.dmaMay m n = true) ∧ (s.chSt n ≠ chIdle) ∧ (s.on DMF_CH_STAT.PEND n = false) ∧ (∀ k < 64, k ≠ n.val → s.on
      DMF_CH_STAT.PEND k = false)) ∧
    (∃ (s : State) (m : Master) (n : Fin 64), (s.dmaMay m n = true) ∧ (s.chSt n ≠ chIdle) ∧ (s.on DMF_CH_STAT.PEND n = true) ∧ (∀ k < 64, k ≠ n.val → s.on
      DMF_CH_STAT.PEND k = false)) ∧
    (∃ (s : State) (m : Master) (n : Fin 64), (s.dmaMay m n = true) ∧ (s.chSt n = chIdle) ∧ (s.on DMF_CH_STAT.PEND n = false) ∧ (∀ k < 64, k ≠ n.val → s.on
      DMF_CH_STAT.PEND k = false) ∧ ((descOf fun i => s.get DMF_CH_SHD.W (8 * n.val + i)).valid = true) ∧ ((descOf fun i => s.get DMF_CH_SHD.W (8 * n.val +
      i)).len ≠ 0) ∧ (s.atpMode n = 0 ∨ s.atpMode n = 9)) ∧
    (∃ (s : State) (m : Master) (n : Fin 64), (s.dmaMay m n = true) ∧ (s.chSt n = chSuspended) ∧ (∀ k < 64, s.on DMF_CH_STAT.PEND k = false)) ∧
    (∃ (s : State) (m : Master) (n : Fin 64), (s.dmaMay m n = true) ∧ (s.chSt n = chRunning) ∧ (∀ k < 64, s.on DMF_CH_STAT.PEND k = false)) ∧
    (∃ (s : State) (m : Master) (n : Fin 64), (s.dmaMay m n = true) ∧ (s.chSt n = chReady ∨ s.chSt n = chSuspended) ∧ (∀ k < 64, s.on DMF_CH_STAT.PEND k =
      false) ∧ (s.quiet (128 + n))) ∧
    (∃ (s : State) (m : Master) (n : Fin 64), (s.dmaMay m n = true) ∧ (s.chSt n = chHalted) ∧ (∀ k < 64, s.on DMF_CH_STAT.PEND k = false)) ∧
    (∃ (s : State) (m : Master) (n : Fin 64), (s.dmaMay m n = true) ∧ (s.chSt n ≠ chIdle)) ∧
    (∃ (s : State) (m : Master) (n : Fin 64), (s.dmaMay m n = true) ∧ (s.chSt n = chIdle) ∧ ((descOf fun i => s.get DMF_CH_SHD.W (8 * n.val + i)).valid = true)
      ∧ ((descOf fun i => s.get DMF_CH_SHD.W (8 * n.val + i)).len ≠ 0) ∧ (s.atpMode n = 0 ∨ s.atpMode n = 9)) ∧
    (∃ (s : State) (m : Master) (n : Fin 64), (s.dmaMay m n = true) ∧ (s.chSt n = chIdle) ∧ ((descOf fun i => s.get DMF_CH_SHD.W (8 * n.val + i)).valid = false
      ∨ s.atpMode n ≠ 0 ∧ s.atpMode n ≠ 9) ∧ (s.quiet (128 + n))) ∧
    (∃ (s : State) (m : Master) (n : Fin 64), (s.dmaMay m n = true) ∧ (s.chSt n = chSuspended)) ∧
    (∃ (s : State) (m : Master) (n : Fin 64), (s.dmaMay m n = true) ∧ (s.chSt n = chRunning)) ∧
    (∃ (s : State) (m : Master) (n : Fin 64), (s.dmaMay m n = true) ∧ (s.chSt n = chIdle)) ∧
    (∃ (s : State) (m : Master) (n : Fin 64), (s.dmaMay m n = true) ∧ (s.chSt n = chReady ∨ s.chSt n = chSuspended) ∧ (s.quiet (128 + n))) ∧
    (∃ (s : State) (m : Master) (n : Fin 64), (s.dmaMay m n = true) ∧ (s.chSt n = chHalted) ∧ (s.get DMF_CH_STAT.PEND n = 0)) ∧
    (∃ (s : State) (m : Master) (n : Fin 64), (s.dmaMay m n = false) ∧ (s.quiet 16)) ∧
    (∃ (s : State), (s.get DMF_INV.BUSY 0 = 1)) ∧
    (∃ (s : State) (m : Master) (_scope : Fin 4) (_asid : BitVec 16), (m.isCore = true) ∧ (s.on DMF_INV.BUSY 0 = false)) ∧
    (∃ (s : State) (n : Fin 64), (s.engineRuns n false = true) ∧ ((s.chan n).aborting = false) ∧ ((s.chan n).writeback = false) ∧ (s.chansAt (n / 32) chReady =
      []) ∧ (∀ k < 64, s.on DMF_CH_STAT.PEND k = false) ∧ (s.get DMF_CH_STAT.RETRIES n < s.get DMF_CH_CFG.RETRY n)) ∧
    (∃ (s : State) (n : Fin 64), (s.engineRuns n false = true) ∧ ((s.chan n).aborting = false) ∧ ((s.chan n).writeback = false) ∧ (s.chansAt (n / 32) chReady =
      []) ∧ (∀ k < 64, s.on DMF_CH_STAT.PEND k = false) ∧ (s.get DMF_CH_CFG.RETRY n ≤ s.get DMF_CH_STAT.RETRIES n) ∧ (s.quiet (128 + n))) ∧
    (∃ (s : State) (n : Fin 64), (s.engineRuns n false = true) ∧ ((s.chan n).aborting = false) ∧ ((s.chan n).writeback = false) ∧ (s.chansAt (n / 32) chReady =
      []) ∧ (∀ k < 64, s.on DMF_CH_STAT.PEND k = false) ∧ (s.dstReady n = false) ∧ ((s.desc n).skind = 0) ∧ (s.atpMode n = 0) ∧ (0 < s.srcSize n) ∧
      (s.dramOk ((s.desc n).src + s.srcDone n) (s.srcSize n) = true) ∧ (s.poisoned ((s.desc n).src + s.srcDone n) (s.srcSize n) = false) ∧ (s.accessFault
      (dmaOf n) atRead ((s.desc n).src + s.srcDone n) (s.srcSize n) = none) ∧ (s.srcDone n + s.srcSize n < 2 ^ 24) ∧ (s.srcDone n + s.srcSize n - s.dstDone
      n < 256)) ∧
    (∃ (s : State) (n : Fin 64), (s.engineRuns n false = true) ∧ ((s.chan n).aborting = false) ∧ ((s.chan n).writeback = false) ∧ (s.chansAt (n / 32) chReady =
      []) ∧ (∀ k < 64, s.on DMF_CH_STAT.PEND k = false) ∧ (s.dstReady n = true) ∧ ((s.desc n).dkind = 0) ∧ ((s.desc n).swap = 0) ∧ (s.atpMode n = 0) ∧
      (s.dramOk ((s.desc n).dst + s.dstDone n) (s.dstSize n) = true) ∧ (s.accessFault (dmaOf n) atWrite ((s.desc n).dst + s.dstDone n) (s.dstSize n) =
      none) ∧ (s.dstDone n + s.dstSize n < (s.desc n).len) ∧ (s.srcDone n < s.dstDone n + s.dstSize n + 256) ∧ ((s.chan n).held.length = s.srcDone n -
      s.dstDone n)) ∧
    (∃ (s : State) (n : Fin 64), (s.engineRuns n true = true) ∧ ((s.chan n).aborting = false) ∧ (s.chansAt (n / 32) chReady = []) ∧ (∀ k < 64, s.on
      DMF_CH_STAT.PEND k = false) ∧ (s.atpMode n = 0) ∧ (s.dramOk (s.desc n).next 32 = true) ∧ (s.poisoned (s.desc n).next 32 = false) ∧ (s.accessFault
      (dmaOf n) atRead (s.desc n).next 32 = none) ∧ ((descOf fun i => s.memW ((s.desc n).next + 4 * i)).valid = true) ∧ ((descOf fun i => s.memW ((s.desc
      n).next + 4 * i)).len ≠ 0)) ∧
    (∃ (s : State) (n : Fin 64) (_c : Bool), (s.engineRuns n false = true) ∧ ((s.chan n).aborting = false) ∧ ((s.chan n).writeback = false) ∧ (s.get
      DMF_CH_STAT.RETRIES n < s.get DMF_CH_CFG.RETRY n)) ∧
    (∃ (s : State) (n : Fin 64) (_c : Bool), (s.engineRuns n false = true) ∧ ((s.chan n).aborting = true ∨ s.get DMF_CH_CFG.RETRY n ≤ s.get DMF_CH_STAT.RETRIES
      n) ∧ (s.quiet (128 + n))) ∧
    (∃ (s : State) (n : Fin 64) (_c : Bool) (pa : Nat) (fill : Option Iotlb), (s.engineRuns n false = true) ∧ ((s.chan n).aborting = false) ∧ ((s.chan
      n).writeback = false) ∧ (s.dstReady n = false) ∧ ((s.desc n).skind = 0) ∧ (s.translate n ((s.desc n).src + s.srcDone n) false 1 = .ok pa fill) ∧
      (s.region pa (s.srcSize n) ≠ some .regs) ∧ (s.poisoned pa (s.srcSize n) = false) ∧ (s.accessFault (dmaOf n) atRead pa (s.srcSize n) = none) ∧
      (s.srcDone n + s.srcSize n < 2 ^ 24)) ∧
    (∃ (s : State) (n : Fin 64) (_c : Bool), (s.engineRuns n false = true) ∧ ((s.chan n).aborting = false) ∧ ((s.chan n).writeback = false) ∧ (s.dstReady n =
      false) ∧ ((s.desc n).skind = 1) ∧ (s.dmf.port1 ≠ []) ∧ (s.srcDone n + s.srcSize n < 2 ^ 24) ∧ (s.srcSize n ≤ s.dmf.port1.length)) ∧
    (∃ (s : State) (n : Fin 64) (_c : Bool) (pa : Nat) (fill : Option Iotlb), (s.engineRuns n false = true) ∧ ((s.chan n).aborting = false) ∧ ((s.chan
      n).writeback = false) ∧ (s.dstReady n = true) ∧ ((s.desc n).dkind = 0) ∧ ((s.desc n).swap = 0) ∧ (s.translate n ((s.desc n).dst + s.dstDone n) true 2
      = .ok pa fill) ∧ (s.region pa (s.dstSize n) ≠ some .regs) ∧ (s.accessFault (dmaOf n) atWrite pa (s.dstSize n) = none) ∧ (s.dstDone n + s.dstSize n <
      (s.desc n).len) ∧ (s.dstDone n + s.dstSize n < 2 ^ 24) ∧ ((s.chan n).held.length = s.srcDone n - s.dstDone n)) ∧
    (∃ (s : State) (n : Fin 64) (pa : Nat) (fill : Option Iotlb), (s.engineRuns n false = true) ∧ ((s.chan n).aborting = false) ∧ ((s.chan n).writeback = false)
      ∧ (s.dstReady n = true) ∧ ((s.desc n).dkind = 0) ∧ ((s.desc n).swap = 0) ∧ (s.translate n ((s.desc n).dst + s.dstDone n) true 2 = .ok pa fill) ∧
      (s.region pa (s.dstSize n) ≠ some .regs) ∧ (s.accessFault (dmaOf n) atWrite pa (s.dstSize n) = none) ∧ (s.dstDone n + s.dstSize n = (s.desc n).len) ∧
      ((s.chan n).held.length = s.srcDone n - s.dstDone n) ∧ ((s.desc n).wb = false) ∧ ((s.desc n).last = true) ∧ (s.get DMF_CH_STAT.PEND n = 0)) ∧
    (∃ (s : State) (n : Fin 64) (pa : Nat) (fill : Option Iotlb), (s.engineRuns n true = true) ∧ ((s.chan n).aborting = false) ∧ (s.translate n (s.desc n).next
      false 3 = .ok pa fill) ∧ (s.region pa 32 ≠ some .regs) ∧ (s.poisoned pa 32 = false) ∧ (s.accessFault (dmaOf n) atRead pa 32 = none) ∧ ((descOf fun i
      => s.memW (pa + 4 * i)).valid = true) ∧ ((descOf fun i => s.memW (pa + 4 * i)).len ≠ 0)) ∧
    (∃ (s : State) (n : Fin 64), (s.engineRuns n true = true) ∧ ((s.chan n).aborting = false) ∧ (s.get DMF_CH_STAT.RETRIES n < s.get DMF_CH_CFG.RETRY n)) ∧
    (∃ (s : State) (n : Fin 64), (s.chSt n = chRunning) ∧ (s.chOver n (s.get DMF_CFG.NOPROG 0) = true) ∧ (s.quiet (128 + n))) ∧
    (∃ (s : State) (n : Fin 64), (s.chSt n = chRunning) ∧ (s.chOver n (s.get DMF_CFG.NOPROG 0) = true) ∧ (∀ k < 64, s.on DMF_CH_STAT.PEND k = false) ∧ (s.quiet
      (128 + n))) ∧
    (∃ (s : State) (n : Fin 64), (s.chSt n = chSuspended) ∧ ((s.chan n).prqRaised = false) ∧ (s.chOver n (s.get DMF_CFG.PRQ 0) = true) ∧ (s.quiet (128 + n))) :=
  ⟨⟨(all [setF DMF_CH_STAT.STATE 0 2]).run .reset, .keeper, 0, by decide +kernel⟩,
    ⟨(all [setF DMF_CH_STAT.STATE 0 2, setF DMF_CH_STAT.PEND 0 1]).run .reset, .keeper, 0, by decide +kernel⟩,
    ⟨(all [.seq (setF DMF_CH_SHD.W 4 64) (.seq (setF DMF_CH_SHD.W 1 1) (.seq (setF DMF_CH_SHD.W 2 64) (setF DMF_CH_SHD.W 3 1)))]).run .reset, .keeper, 0, by decide +kernel⟩,
    ⟨(all [setF DMF_CH_STAT.STATE 0 3, setF DMF_CH_STAT.FCAUSE 0 2]).run .reset, .keeper, 0, by decide +kernel⟩,
    ⟨(all [setF DMF_CH_STAT.STATE 0 2]).run .reset, .keeper, 0, by decide +kernel⟩,
    ⟨(all [setF FCU_SRC_CFG.N 128 5, setF DMF_CH_STAT.STATE 0 3]).run .reset, .keeper, 0, by unfold State.quiet; decide +kernel⟩,
    ⟨(all [setF DMF_CH_STAT.STATE 0 4]).run .reset, .keeper, 0, by decide +kernel⟩,
    ⟨(all [setF DMF_CH_STAT.STATE 0 2]).run .reset, .keeper, 0, by decide +kernel⟩,
    ⟨(all [.seq (setF DMF_CH_SHD.W 4 64) (.seq (setF DMF_CH_SHD.W 1 1) (.seq (setF DMF_CH_SHD.W 2 64) (setF DMF_CH_SHD.W 3 1)))]).run .reset, .keeper, 0, by decide +kernel⟩,
    ⟨(all [setF FCU_SRC_CFG.N 128 5, setF DMF_CH_SHD.W 5 0x70000]).run .reset, .keeper, 0, by unfold State.quiet; decide +kernel⟩,
    ⟨(all [setF DMF_CH_STAT.STATE 0 3, setF DMF_CH_STAT.FCAUSE 0 2]).run .reset, .keeper, 0, by decide +kernel⟩,
    ⟨(all [setF DMF_CH_STAT.STATE 0 2]).run .reset, .keeper, 0, by decide +kernel⟩,
    ⟨(all [setF DMF_CH_STAT.PEND 0 1]).run .reset, .keeper, 0, by decide +kernel⟩,
    ⟨(all [setF FCU_SRC_CFG.N 128 5, setF DMF_CH_STAT.STATE 0 3]).run .reset, .keeper, 0, by unfold State.quiet; decide +kernel⟩,
    ⟨(all [setF DMF_CH_STAT.STATE 0 4]).run .reset, .keeper, 0, by decide +kernel⟩,
    ⟨(all [setF FCU_SRC_CFG.N 16 5]).run .reset, .app 0, 0, by unfold State.quiet; decide +kernel⟩,
    ⟨(all [setF DMF_INV.BUSY 0 1]).run .reset, by decide +kernel⟩,
    ⟨.reset, .app 0, 1, 3, by decide +kernel⟩,
    ⟨(all [setF PTM_ISL_PWR.ON 0 0xFFFFFFFF, setF DMF_CH_STAT.STATE 0 2, setF DMF_CH_CFG.RETRY 0 3]).run .reset, 0, by decide +kernel⟩,
    ⟨(all [setF PTM_ISL_PWR.ON 0 0xFFFFFFFF, setF FCU_SRC_CFG.N 128 5, setF DMF_CH_STAT.STATE 0 2, setF DMF_CH_CFG.RETRY 0 0]).run .reset, 0, by unfold State.quiet; decide +kernel⟩,
    ⟨(all [setF BMU_CFG.CHANNELS 0 2, setF BMU_CFG.SIZE 0 32, setF PTM_ISL_PWR.ON 0 0xFFFFFFFF, setF DMF_CH_STAT.STATE 0 2, setF DMF_CH_ACT.W 1 1, setF DMF_CH_ACT.W 2 64, setF DMF_CH_ACT.W 3 1, setF DMF_CH_ACT.W 4 64]).run .reset, 0, by decide +kernel⟩,
    ⟨(all [setF BMU_CFG.CHANNELS 0 2, setF BMU_CFG.SIZE 0 32, setF PTM_ISL_PWR.ON 0 0xFFFFFFFF, setF DMF_CH_STAT.STATE 0 2, setF DMF_CH_PROG.SRC_DONE 0 64, setChan 0 fun c => { c with held := List.replicate 64 9 }, setF DMF_CH_ACT.W 1 1, setF DMF_CH_ACT.W 2 64, setF DMF_CH_ACT.W 3 1, setF DMF_CH_ACT.W 4 128]).run .reset, 0, by decide +kernel⟩,
    ⟨(all [setF BMU_CFG.CHANNELS 0 2, setF BMU_CFG.SIZE 0 32, setF PTM_ISL_PWR.ON 0 0xFFFFFFFF, setF DMF_CH_STAT.STATE 0 2, setChan 0 fun c => { c with fetching := true }, memWord 0x100000044 1, memWord 0x10000004C 1, memWord 0x100000050 64, setF DMF_CH_ACT.W 6 64, setF DMF_CH_ACT.W 7 1]).run .reset, 0, by decide +kernel⟩,
    ⟨(all [setF PTM_ISL_PWR.ON 0 0xFFFFFFFF, setF DMF_CH_STAT.STATE 0 2, setF DMF_CH_CFG.RETRY 0 3]).run .reset, 0, false, by decide +kernel⟩,
    ⟨(all [setF PTM_ISL_PWR.ON 0 0xFFFFFFFF, setF FCU_SRC_CFG.N 128 5, setF DMF_CH_STAT.STATE 0 2, setF DMF_CH_CFG.RETRY 0 0]).run .reset, 0, false, by unfold State.quiet; decide +kernel⟩,
    ⟨(all [setF BMU_CFG.CHANNELS 0 2, setF BMU_CFG.SIZE 0 32, setF PTM_ISL_PWR.ON 0 0xFFFFFFFF, setF DMF_CH_STAT.STATE 0 2, setF DMF_CH_ACT.W 1 1, setF DMF_CH_ACT.W 2 64, setF DMF_CH_ACT.W 3 1, setF DMF_CH_ACT.W 4 64]).run .reset, 0, true, 0x100000000, none, by decide +kernel⟩,
    ⟨(all [setF BMU_CFG.CHANNELS 0 2, setF BMU_CFG.SIZE 0 32, setF PTM_ISL_PWR.ON 0 0xFFFFFFFF, setF DMF_CH_STAT.STATE 0 2, .upd (.dmf fun x => { x with port1 := List.replicate 64 5 }), setF DMF_CH_ACT.W 0 1, setF DMF_CH_ACT.W 3 1, setF DMF_CH_ACT.W 4 64, setF DMF_CH_ACT.W 5 67371008]).run .reset, 0, true, by decide +kernel⟩,
    ⟨(all [setF BMU_CFG.CHANNELS 0 2, setF BMU_CFG.SIZE 0 32, setF PTM_ISL_PWR.ON 0 0xFFFFFFFF, setF DMF_CH_STAT.STATE 0 2, setF DMF_CH_PROG.SRC_DONE 0 64, setChan 0 fun c => { c with held := List.replicate 64 9 }, setF DMF_CH_ACT.W 1 1, setF DMF_CH_ACT.W 2 64, setF DMF_CH_ACT.W 3 1, setF DMF_CH_ACT.W 4 128]).run .reset, 0, false, 0x100000040, none, by decide +kernel⟩,
    ⟨(all [setF BMU_CFG.CHANNELS 0 2, setF BMU_CFG.SIZE 0 32, setF PTM_ISL_PWR.ON 0 0xFFFFFFFF, setF DMF_CH_STAT.STATE 0 2, setF DMF_CH_PROG.SRC_DONE 0 64, setChan 0 fun c => { c with held := List.replicate 64 9 }, setF DMF_CH_ACT.W 1 1, setF DMF_CH_ACT.W 2 64, setF DMF_CH_ACT.W 3 1, setF DMF_CH_ACT.W 4 64, setF DMF_CH_ACT.W 5 268435456]).run .reset, 0, 0x100000040, none, by decide +kernel⟩,
    ⟨(all [setF BMU_CFG.CHANNELS 0 2, setF BMU_CFG.SIZE 0 32, setF PTM_ISL_PWR.ON 0 0xFFFFFFFF, setF DMF_CH_STAT.STATE 0 2, setChan 0 fun c => { c with fetching := true }, memWord 0x100000044 1, memWord 0x10000004C 1, memWord 0x100000050 64, setF DMF_CH_ACT.W 6 64, setF DMF_CH_ACT.W 7 1]).run .reset, 0, 0x100000040, none, by decide +kernel⟩,
    ⟨(all [setF PTM_ISL_PWR.ON 0 0xFFFFFFFF, setF DMF_CH_STAT.STATE 0 2, setF DMF_CH_CFG.RETRY 0 3, setChan 0 fun c => { c with fetching := true }]).run .reset, 0, by decide +kernel⟩,
    ⟨(all [setF PTM_ISL_PWR.ON 0 0xFFFFFFFF, setF FCU_SRC_CFG.N 128 5, setF DMF_CH_STAT.STATE 0 2, setR .PTM_MER_TIME 0 (10 ^ 12)]).run .reset, 0, by unfold State.quiet; decide +kernel⟩,
    ⟨(all [setF PTM_ISL_PWR.ON 0 0xFFFFFFFF, setF FCU_SRC_CFG.N 128 5, setF DMF_CH_STAT.STATE 0 2, setR .PTM_MER_TIME 0 (10 ^ 12)]).run .reset, 0, by unfold State.quiet; decide +kernel⟩,
    ⟨(all [setF PTM_ISL_PWR.ON 0 0xFFFFFFFF, setF FCU_SRC_CFG.N 128 5, setF DMF_CH_STAT.STATE 0 3, setR .PTM_MER_TIME 0 (10 ^ 12)]).run .reset, 0, by unfold State.quiet; decide +kernel⟩⟩

theorem witness_BufferSlots :
    (∃ (s : State) (k : BitVec 12) (slots : List (Fin 1048576)) (d : Cmd), (s.cmd k.toNat = some d) ∧ (s.writeReady d (slots.map (·.val)) = true) ∧ (d.zero =
      false) ∧ (s.budgetUsed ≤ s.throtLo)) ∧
    (∃ (s : State) (k : BitVec 12) (slots : List (Fin 1048576)) (d : Cmd), (s.cmd k.toNat = some d) ∧ (d.kind = kdRead) ∧ (d.mediaLbas ≠ []) ∧ (s.slotsFit
      (slots.map (·.val)) d.mediaLbas.length = true)) ∧
    (∃ (s : State) (k : BitVec 12) (slots : List (Fin 1048576)) (d : Cmd), (s.cmd k.toNat = some d) ∧ (s.writeReady d (slots.map (·.val)) = true) ∧ (d.zero =
      false) ∧ (s.throtLo < s.budgetUsed) ∧ (s.cqe.admitted + 4096 * d.n ≤ s.admissible)) ∧
    (∃ (s : State) (k : BitVec 12) (_bytes : List Byte) (d : Cmd) (n : Nat), (s.cmd k.toNat = some d) ∧ (d.kind = kdWrite) ∧ (d.started = true) ∧ (d.arrived =
      false) ∧ (d.fua = false) ∧ (d.zero = false) ∧ (d.ns = some n) ∧ (s.nsHasPi n = false) ∧ (s.on CQE_NS_CFG.ZONED n = false) ∧ (s.cqe.overlay = []) ∧
      (s.cqe.cmds = [d]) ∧ (∀ i < d.n, s.accessFault .hif atWrite (s.slotAddr (d.slots.getD i 0)) 4096 = none ∧ s.accessFault .hif atWrite (s.slotMeta
      (d.slots.getD i 0)) 8 = none)) ∧
    (∃ (s : State) (k : BitVec 12) (bytes : List Byte) (d : Cmd) (n : Nat), (s.cmd k.toNat = some d) ∧ (d.writes = true) ∧ (d.started = true) ∧ (d.arrived =
      false) ∧ (d.ns = some n) ∧ (d.zero = true ∨ nbit d.prinfo 3 = true ∨ (List.range d.n).all (fun i => (s.piCheck d n i (s.writeUnit d n i bytes).1
      (s.writeUnit d n i bytes).2).isNone) = true) ∧ ((List.range d.n).all (fun i => !s.zoneOvertakes n (d.lba + i) d.seq && !s.verNewer { ns := n, lba := d.lba + i, seq := d.seq, slot := 0 }
      Ver.safe) = true) ∧ (∀ i < d.n, s.accessFault .hif atWrite (s.slotAddr (d.slots.getD i 0)) 4096 = none ∧ s.accessFault .hif atWrite (s.slotMeta
      (d.slots.getD i 0)) 8 = none)) ∧
    (∃ (s : State) (k : BitVec 12) (bytes : List Byte) (d : Cmd) (n : Nat), (s.cmd k.toNat = some d) ∧ (d.writes = true) ∧ (d.started = true) ∧ (d.arrived =
      false) ∧ (d.ns = some n) ∧ (d.n = 1) ∧ (d.zero = true ∨ nbit d.prinfo 3 = true ∨ (s.piCheck d n 0 (s.writeUnit d n 0 bytes).1 (s.writeUnit d n 0
      bytes).2).isNone = true) ∧ (s.zoneOvertakes n d.lba d.seq = false) ∧ (s.slotMeta (d.slots.getD 0 0) + 8 ≤ s.slotAddr (d.slots.getD 0 0) ∨ s.slotAddr
      (d.slots.getD 0 0) + 4096 ≤ s.slotMeta (d.slots.getD 0 0)) ∧ (∀ i < d.n, s.accessFault .hif atWrite (s.slotAddr (d.slots.getD i 0)) 4096 = none ∧
      s.accessFault .hif atWrite (s.slotMeta (d.slots.getD i 0)) 8 = none)) ∧
    (∃ (s : State) (d : Cmd) (blocks : List (Fin 3040)) (x : SubQ) (y : ComQ), (s.bmu.budgetQ.head?.bind s.cmd = some d) ∧ (s.inPowerLoss = false) ∧
      (s.budgetFits d (blocks.map (·.val)) = true) ∧ (d.silent = false) ∧ (d.want = none) ∧ (d.fua = false) ∧ (s.isSas = false) ∧ (s.cqe.cmds = [d]) ∧
      (s.cqe.overlay.length = 1 ∧ s.unitsOf d = s.cqe.overlay) ∧ ((s.port d.port).sq d.sqid = some x) ∧ ((s.port d.port).cq x.cq = some y) ∧ (y.full =
      false) ∧ (y.ien = false)) ∧
    (∃ (s : State) (d : Cmd) (blocks : List (Fin 3040)), (s.bmu.budgetQ.head?.bind s.cmd = some d) ∧ (s.inPowerLoss = false) ∧ (s.budgetFits d (blocks.map
      (·.val)) = true)) ∧
    (∃ (s : State) (_n : Fin 128), (s.on BMU_DISCARD.BUSY 0 = false)) ∧
    (∃ (s : State) (n : Nat), (s.on BMU_DISCARD.BUSY 0 = true) ∧ (n = s.get BMU_DISCARD.NS 0) ∧ (s.cqe.cmds.any (fun c => c.ns == some n) = false)) ∧
    (∃ (s : State) (f : Fin 8192) (k : Fin 256) (ns lba slot : Nat), (s.bmu.fills.find? (fun e => e.1 == f.val && e.2.2.1 % 256 == k.val) = some (f.val, ns,
      lba, slot)) ∧ ((s.frameOf ns (lba / 256)).map (·.1) = some f.val) ∧ (s.frameAddr f + 4096 * k + 4096 ≤ s.slotAddr slot ∨ s.slotAddr slot + 4096 ≤
      s.frameAddr f + 4096 * k) ∧ (s.accessFault .bmu atWrite (s.frameAddr f + 4096 * k) 4096 = none) ∧ (s.region (s.frameAddr f + 4096 * k) 4096 = some
      .dram)) :=
  ⟨⟨(all [setF BMU_SLOT_CFG.ENABLE 0 1, setF BMU_SLOT_CFG.COUNT 0 8192, setF BMU_SLOT_BASE.ADDR 0 0x110000, .upd (.cqe fun x => { x with cmds := [{ ctag := 3, port := 0, sqid := 1, cid := 7, kind := 1, ns := some 0, nsid := 1, lba := 5, n := 1, seq := 9, time := 0 }], nextSeq := 20 })]).run .reset, 3, [0], { ctag := 3, port := 0, sqid := 1, cid := 7, kind := 1, ns := some 0, nsid := 1, lba := 5, n := 1, seq := 9, time := 0 }, by decide +kernel⟩,
    ⟨(all [setF BMU_SLOT_CFG.ENABLE 0 1, setF BMU_SLOT_CFG.COUNT 0 8192, setF BMU_SLOT_BASE.ADDR 0 0x110000, .upd (.cqe fun x => { x with cmds := [{ ctag := 3, port := 0, sqid := 1, cid := 7, kind := 0, ns := some 0, nsid := 1, lba := 5, n := 1, seq := 9, time := 0, lbas := [{ st := 1 }] }], nextSeq := 20 })]).run .reset, 3, [7], { ctag := 3, port := 0, sqid := 1, cid := 7, kind := 0, ns := some 0, nsid := 1, lba := 5, n := 1, seq := 9, time := 0, lbas := [{ st := 1 }] }, by decide +kernel⟩,
    ⟨(all [setF BMU_SLOT_CFG.ENABLE 0 1, setF BMU_SLOT_CFG.COUNT 0 8192, setF BMU_SLOT_BASE.ADDR 0 0x110000, .upd (.cqe fun x => { x with cmds := [{ ctag := 3, port := 0, sqid := 1, cid := 7, kind := 1, ns := some 0, nsid := 1, lba := 5, n := 1, seq := 9, time := 0 }], nextSeq := 20 }), .upd (.cqe fun x => { x with overlay := [{ ns := 0, lba := 77, seq := 9, slot := 2, inBudget := true }] }), setF CQE_THROT.THROT_LO 0 0, setF BMU_BUDGET.USED 0 1, .upd (.cqe fun x => { x with lastFrame := 90000 })]).run .reset, 3, [0], { ctag := 3, port := 0, sqid := 1, cid := 7, kind := 1, ns := some 0, nsid := 1, lba := 5, n := 1, seq := 9, time := 0 }, by decide +kernel⟩,
    ⟨(all [setF BMU_SLOT_CFG.ENABLE 0 1, setF BMU_SLOT_CFG.COUNT 0 8192, setF BMU_SLOT_BASE.ADDR 0 0x110000, setF BMU_CFG.CHANNELS 0 2, setF BMU_CFG.SIZE 0 32, .upd (.cqe fun x => { x with cmds := [{ ctag := 3, port := 0, sqid := 1, cid := 7, kind := 1, ns := some 0, nsid := 1, lba := 5, n := 1, seq := 9, time := 0, started := true, slots := [7] }], nextSeq := 20 })]).run .reset, 3, [1, 2], { ctag := 3, port := 0, sqid := 1, cid := 7, kind := 1, ns := some 0, nsid := 1, lba := 5, n := 1, seq := 9, time := 0, started := true, slots := [7] }, 0, by decide +kernel⟩,
    ⟨(all [setF BMU_SLOT_CFG.ENABLE 0 1, setF BMU_SLOT_CFG.COUNT 0 8192, setF BMU_SLOT_BASE.ADDR 0 0x110000, setF BMU_CFG.CHANNELS 0 2, setF BMU_CFG.SIZE 0 32, .upd (.cqe fun x => { x with cmds := [{ ctag := 3, port := 0, sqid := 1, cid := 7, kind := 1, ns := some 0, nsid := 1, lba := 5, n := 1, seq := 9, time := 0, started := true, slots := [7] }], nextSeq := 20 })]).run .reset, 3, [1, 2], { ctag := 3, port := 0, sqid := 1, cid := 7, kind := 1, ns := some 0, nsid := 1, lba := 5, n := 1, seq := 9, time := 0, started := true, slots := [7] }, 0, by decide +kernel⟩,
    ⟨(all [setF BMU_SLOT_CFG.ENABLE 0 1, setF BMU_SLOT_CFG.COUNT 0 8192, setF BMU_SLOT_BASE.ADDR 0 0x110000, setF BMU_CFG.CHANNELS 0 2, setF BMU_CFG.SIZE 0 32, .upd (.cqe fun x => { x with cmds := [{ ctag := 3, port := 0, sqid := 1, cid := 7, kind := 1, ns := some 0, nsid := 1, lba := 5, n := 1, seq := 9, time := 0, started := true, slots := [7] }], nextSeq := 20 })]).run .reset, 3, [1, 2], { ctag := 3, port := 0, sqid := 1, cid := 7, kind := 1, ns := some 0, nsid := 1, lba := 5, n := 1, seq := 9, time := 0, started := true, slots := [7] }, 0, by decide +kernel⟩,
    ⟨(all [setF BMU_SLOT_CFG.ENABLE 0 1, setF BMU_SLOT_CFG.COUNT 0 8192, setF BMU_SLOT_BASE.ADDR 0 0x110000, setPort 0 fun p => { p with en := true, rdy := true, sqs := [{ id := 0, size := 8, cq := 0 }, { id := 1, size := 8, cq := 1 }], cqs := [{ id := 0, size := 8 }, { id := 1, size := 8, ien := false }] }, .upd (.cqe fun x => { x with cmds := [{ ctag := 3, port := 0, sqid := 1, cid := 7, kind := 1, ns := some 0, nsid := 1, lba := 5, n := 1, seq := 9, time := 0, started := true, arrived := true, slots := [2] }], nextSeq := 20 }), .upd (.cqe fun x => { x with overlay := [{ ns := 0, lba := 5, seq := 9, slot := 2 }] }), .upd (.bmu fun b => { b with used := [2] }), .upd (.bmu fun b => { b with budgetQ := [3] })]).run .reset, { ctag := 3, port := 0, sqid := 1, cid := 7, kind := 1, ns := some 0, nsid := 1, lba := 5, n := 1, seq := 9, time := 0, started := true, arrived := true, slots := [2] }, [4], { id := 1, size := 8, cq := 1 }, { id := 1, size := 8, ien := false }, by decide +kernel⟩,
    ⟨(all [setF BMU_SLOT_CFG.ENABLE 0 1, setF BMU_SLOT_CFG.COUNT 0 8192, setF BMU_SLOT_BASE.ADDR 0 0x110000, setPort 0 fun p => { p with en := true, rdy := true, sqs := [{ id := 0, size := 8, cq := 0 }, { id := 1, size := 8, cq := 1 }], cqs := [{ id := 0, size := 8 }, { id := 1, size := 8, ien := false }] }, .upd (.cqe fun x => { x with cmds := [{ ctag := 3, port := 0, sqid := 1, cid := 7, kind := 1, ns := some 0, nsid := 1, lba := 5, n := 1, seq := 9, time := 0, started := true, arrived := true, slots := [2] }], nextSeq := 20 }), .upd (.cqe fun x => { x with overlay := [{ ns := 0, lba := 5, seq := 9, slot := 2 }] }), .upd (.bmu fun b => { b with used := [2] }), .upd (.bmu fun b => { b with budgetQ := [3] })]).run .reset, { ctag := 3, port := 0, sqid := 1, cid := 7, kind := 1, ns := some 0, nsid := 1, lba := 5, n := 1, seq := 9, time := 0, started := true, arrived := true, slots := [2] }, [4], by decide +kernel⟩,
    ⟨.reset, 127, by decide +kernel⟩,
    ⟨(all [setF BMU_DISCARD.BUSY 0 1, .upd (.cqe fun x => { x with overlay := [{ ns := 0, lba := 5, seq := 9, slot := 2 }] }), setF CQE_NS_CFG.STATE 0 1, setF CQE_NS_ROWS.UNITS 0 5]).run .reset, 0, by decide +kernel⟩,
    ⟨(all [setF BMU_SLOT_CFG.ENABLE 0 1, setF BMU_SLOT_CFG.COUNT 0 8192, setF BMU_SLOT_BASE.ADDR 0 0x110000, setF BMU_CFG.CHANNELS 0 2, setF BMU_CFG.SIZE 0 32, setF BMU_CCC_BASE.ADDR 0 0x1000, .upd (.bmu fun b => { b with fills := [(6, 0, 515, 2)], frames := [(6, { ns := 0, ext := 2 })] }), memWord 0x110002000 7]).run .reset, 6, 3, 0, 515, 2, by decide +kernel⟩⟩

theorem witness_HandOff :
    (∃ (s : State) (d : Cmd), (s.on CQE_HQ_CTL.ENABLE 0 = true) ∧ (s.hqFull = false) ∧ (s.cqe.handQ.head?.bind s.cmd = some d) ∧ (s.accessFault .cqe atWrite
      (s.get CQE_HQ_BASE.ADDR 0 * 4096 + 128 * (s.get CQE_HQ_PTR.WR 0 % s.hqSize)) 128 = none) ∧ (s.region (s.get CQE_HQ_BASE.ADDR 0 * 4096 + 128 * (s.get
      CQE_HQ_PTR.WR 0 % s.hqSize)) 128 = some .dram)) ∧
    (∃ (s : State) (g : BitVec 40) (n : Nat), (s.on CQE_HQ_CTL.ENABLE 0 = true) ∧ (s.hqFull = false) ∧ (s.partialRow g.toNat = some n) ∧ (s.accessFault .cqe
      atWrite (s.get CQE_HQ_BASE.ADDR 0 * 4096 + 128 * (s.get CQE_HQ_PTR.WR 0 % s.hqSize)) 128 = none) ∧ (s.region (s.get CQE_HQ_BASE.ADDR 0 * 4096 + 128 *
      (s.get CQE_HQ_PTR.WR 0 % s.hqSize)) 128 = some .dram)) ∧
    (∃ (s : State) (_m : Master) (k : BitVec 12) (_sct : Fin 8) (_sc : Byte) (_dnr : Bool) (d : Cmd) (x : SubQ) (y : ComQ), (s.cmd k.toNat = some d) ∧ (d.handed
      = true) ∧ (d.silent = false) ∧ (s.isSas = false) ∧ (s.cqe.cmds = [d]) ∧ ((s.port d.port).sq d.sqid = some x) ∧ ((s.port d.port).cq x.cq = some y) ∧
      (y.full = false) ∧ (y.ien = false)) ∧
    (∃ (s : State) (_m : Master) (k : BitVec 12) (_sct : Fin 8) (_sc : Byte) (_dnr : Bool) (d : Cmd) (x : SubQ) (y : ComQ), (s.cmd k.toNat = some d) ∧ (d.handed
      = true) ∧ (d.silent = false) ∧ (s.isSas = false) ∧ ((s.port d.port).sq d.sqid = some x) ∧ ((s.port d.port).cq x.cq = some y) ∧ (y.full = false)) ∧
    (∃ (s : State) (_m : Master) (k : BitVec 12) (_sct : Fin 8) (_sc : Byte) (_dnr : Bool) (d : Cmd), (s.cmd k.toNat = some d) ∧ (d.handed = true) ∧ (d.silent =
      false) ∧ (s.isSas = true)) ∧
    (∃ (s : State) (_m : Master) (k : BitVec 12) (_sct : Fin 8) (_sc : Byte) (_dnr : Bool), (∀ d ∈ s.cmd k.toNat, d.handed = false) ∧ (s.quiet 273)) ∧
    (∃ (s : State) (k : BitVec 12) (d : Cmd), (s.cmd k.toNat = some d) ∧ (d.time + 100 * tickMs * max 1 (s.get CQE_AGE.AGE_LIM 0) ≤ s.time) ∧ (s.quiet 272)) ∧
    (∃ (s : State) (a : Fin 4), (∀ e ∈ s.sve.pass, e.1 ≠ a.val ∨ e.2.issuer ≠ 0) ∧ (s.bitF CQE_CLAIM.GRANT 0 a = false)) ∧
    (∃ (s : State) (a : Fin 4), (∃ e ∈ s.sve.pass, e.1 = a.val ∧ e.2.issuer = 0)) ∧
    (∃ (s : State) (a : Fin 4), (s.bitF CQE_CLAIM.GRANT 0 a = true) ∧ (((s.cqe.grantAt.find? fun e => e.1 == a.val).map (·.2)).getD 0 + tickMs * max 1 (s.get
      CQE_CLAIM.LEASE 0) < s.time) ∧ (s.quiet 274)) ∧
    (∃ (s : State), (s.cqe.activating = true) ∧ (s.cqe.swapped = false) ∧ (s.cqe.actAt + 2 * tickSec ≤ s.ptm.ticks)) ∧
    (∃ (s : State), (s.cqe.activating = true) ∧ (s.cqe.swapped = true ∨ s.cqe.cmds.all s.isAer = true)) :=
  ⟨⟨(all [setF BMU_CFG.CHANNELS 0 2, setF BMU_CFG.SIZE 0 32, setF CQE_HQ_CTL.ENABLE 0 1, setF CQE_HQ_BASE.ADDR 0 0x100000, .upd (.cqe fun x => { x with cmds := [{ ctag := 3, port := 0, sqid := 1, cid := 7, kind := 1, ns := some 0, nsid := 1, lba := 5, n := 1, seq := 9, time := 0, want := some 4 }], nextSeq := 20 }), .upd (.cqe fun x => { x with handQ := [3] })]).run .reset, { ctag := 3, port := 0, sqid := 1, cid := 7, kind := 1, ns := some 0, nsid := 1, lba := 5, n := 1, seq := 9, time := 0, want := some 4 }, by decide +kernel⟩,
    ⟨(all [setF BMU_CFG.CHANNELS 0 2, setF BMU_CFG.SIZE 0 32, setF CQE_HQ_CTL.ENABLE 0 1, setF CQE_HQ_BASE.ADDR 0 0x100000, setF CQE_NS_CFG.STATE 0 1, setF CQE_NS_ROWS.UNITS 0 5, .upd (.cqe fun x => { x with overlay := [{ ns := 0, lba := 5, seq := 9, slot := 2 }] })]).run .reset, 0, 0, by decide +kernel⟩,
    ⟨(all [setPort 0 fun p => { p with en := true, rdy := true, sqs := [{ id := 0, size := 8, cq := 0 }, { id := 1, size := 8, cq := 1 }], cqs := [{ id := 0, size := 8 }, { id := 1, size := 8, ien := false }] }, .upd (.cqe fun x => { x with cmds := [{ ctag := 3, port := 0, sqid := 1, cid := 7, kind := 1, ns := some 0, nsid := 1, lba := 5, n := 1, seq := 9, time := 0, handed := true }], nextSeq := 20 })]).run .reset, .app 0, 3, 1, 2, true, { ctag := 3, port := 0, sqid := 1, cid := 7, kind := 1, ns := some 0, nsid := 1, lba := 5, n := 1, seq := 9, time := 0, handed := true }, { id := 1, size := 8, cq := 1 }, { id := 1, size := 8, ien := false }, by decide +kernel⟩,
    ⟨(all [setPort 0 fun p => { p with en := true, rdy := true, sqs := [{ id := 0, size := 8, cq := 0 }, { id := 1, size := 8, cq := 1 }], cqs := [{ id := 0, size := 8 }, { id := 1, size := 8 }] }, .upd (.cqe fun x => { x with cmds := [{ ctag := 3, port := 0, sqid := 1, cid := 7, kind := 1, ns := some 0, nsid := 1, lba := 5, n := 1, seq := 9, time := 0, handed := true }], nextSeq := 20 })]).run .reset, .app 0, 3, 1, 2, true, { ctag := 3, port := 0, sqid := 1, cid := 7, kind := 1, ns := some 0, nsid := 1, lba := 5, n := 1, seq := 9, time := 0, handed := true }, { id := 1, size := 8, cq := 1 }, { id := 1, size := 8 }, by decide +kernel⟩,
    ⟨(all [setF HIF_CFG.PROTO 0 2, .upd (.cqe fun x => { x with cmds := [{ ctag := 3, port := 0, sqid := 1, cid := 7, kind := 1, ns := some 0, nsid := 1, lba := 5, n := 1, seq := 9, time := 0, handed := true }], nextSeq := 20 })]).run .reset, .app 0, 3, 1, 2, true, { ctag := 3, port := 0, sqid := 1, cid := 7, kind := 1, ns := some 0, nsid := 1, lba := 5, n := 1, seq := 9, time := 0, handed := true }, by decide +kernel⟩,
    ⟨(all [setF FCU_SRC_CFG.N 273 5]).run .reset, .app 0, 3, 0, 0, false, by unfold State.quiet; decide +kernel⟩,
    ⟨(all [setF FCU_SRC_CFG.N 272 5, .upd (.cqe fun x => { x with cmds := [{ ctag := 3, port := 0, sqid := 1, cid := 7, kind := 1, ns := some 0, nsid := 1, lba := 5, n := 1, seq := 9, time := 0 }], nextSeq := 20 }), setR .PTM_MER_TIME 0 (10 ^ 12)]).run .reset, 3, { ctag := 3, port := 0, sqid := 1, cid := 7, kind := 1, ns := some 0, nsid := 1, lba := 5, n := 1, seq := 9, time := 0 }, by unfold State.quiet; decide +kernel⟩,
    ⟨.reset, 3, by decide +kernel⟩,
    ⟨(all [.upd (.sve fun x => { x with pass := [(2, { issuer := 0, track := 0, band := 0, write := false, paths := [], ending := false, release := [] })] })]).run .reset, 2, by decide +kernel⟩,
    ⟨(all [setF FCU_SRC_CFG.N 274 5, setR .PTM_MER_TIME 0 (10 ^ 12), setF CQE_CLAIM.GRANT 0 15]).run .reset, 3, by unfold State.quiet; decide +kernel⟩,
    ⟨(all [.upd (.cqe fun x => { x with activating := true }), .upd (.ptm fun p => { p with ticks := 10 ^ 9 })]).run .reset, by decide +kernel⟩,
    ⟨(all [.upd (.cqe fun x => { x with activating := true })]).run .reset, by decide +kernel⟩⟩

theorem witness_DoorbellsAndControllers :
    (∃ (s : State) (q : Fin 2) (i : Fin 65) (tail : Fin 4096) (x : SubQ), ((s.port q).en = true) ∧ ((s.port q).sq i = some x) ∧ (tail.val < x.size)) ∧
    (∃ (s : State) (q : Fin 2) (i : Fin 65) (head : Fin 4096) (x : ComQ), ((s.port q).en = true) ∧ ((s.port q).cq i = some x) ∧ (head.val < x.size) ∧ (x.held =
      [])) ∧
    (∃ (s : State) (q : Fin 2) (i : Fin 65) (head : Fin 4096) (x : ComQ) (o : Out), ((s.port q).en = true) ∧ ((s.port q).cq i = some x) ∧ (head.val < x.size) ∧
      (x.held = [o]) ∧ (x.ien = false) ∧ (({ x with head := head } : ComQ).used + 1 < x.size)) ∧
    (∃ (s : State) (q : Fin 2) (i : Fin 65) (head : Fin 4096) (x : ComQ), ((s.port q).en = true) ∧ ((s.port q).cq i = some x) ∧ (head.val < x.size)) ∧
    (∃ (s : State) (q : Fin 2) (_asqs _acqs : Fin 256) (_wrr : Bool), (s.isSas = false) ∧ (s.portExists q = true) ∧ (s.portUp q = true) ∧ ((s.port q).en =
      false)) ∧
    (∃ (s : State) (q : Fin 2), ((s.port q).en = true)) ∧
    (∃ (s : State) (q : Fin 2), ((s.port q).resetting = true)) ∧
    (∃ (s : State) (q : Fin 2), ((s.port q).en = true) ∧ ((s.port q).shn = none)) ∧
    (∃ (s : State) (q : Fin 2) (n : Nat), ((s.port q).shn = some n) ∧ (s.cqe.cmds.any (fun c => c.port == q.val && !s.isAer c || c.writes && !c.arrived && older
      c.seq n) = false) ∧ (s.cqe.overlay.all (fun v => !older v.seq n || s.verSafe v) = true)) ∧
    (∃ (s : State) (q : Fin 2), ((s.port q).en = true)) ∧
    (∃ (s : State) (q : Fin 2) (i : Fin 65) (x : ComQ), ((s.port q).cq i = some x) ∧ (i.val ≠ 0) ∧ (x.coalesced ≠ 0) ∧ (x.ien = true) ∧ (x.heldAt + (s.port
      q).coalesceTime ≤ s.ptm.ticks)) :=
  ⟨⟨(all [setPort 0 fun p => { p with en := true, rdy := true, sqs := [{ id := 0, size := 8, cq := 0 }, { id := 1, size := 8, cq := 1 }], cqs := [{ id := 0, size := 8 }, { id := 1, size := 8 }] }]).run .reset, 0, 1, 5, { id := 1, size := 8, cq := 1 }, by decide +kernel⟩,
    ⟨(all [setPort 0 fun p => { p with en := true, rdy := true, sqs := [{ id := 0, size := 8, cq := 0 }, { id := 1, size := 8, cq := 1 }], cqs := [{ id := 0, size := 8 }, { id := 1, size := 8 }] }]).run .reset, 0, 1, 5, { id := 1, size := 8 }, by decide +kernel⟩,
    ⟨(all [setPort 0 fun p => { p with en := true, cqs := [{ id := 1, size := 8, tail := 7, held := [.event "x" []], ien := false }] }]).run .reset, 0, 1, 5, { id := 1, size := 8, tail := 7, held := [.event "x" []], ien := false }, .event "x" [], by decide +kernel⟩,
    ⟨(all [setPort 0 fun p => { p with en := true, rdy := true, sqs := [{ id := 0, size := 8, cq := 0 }, { id := 1, size := 8, cq := 1 }], cqs := [{ id := 0, size := 8 }, { id := 1, size := 8 }] }]).run .reset, 0, 1, 5, { id := 1, size := 8 }, by decide +kernel⟩,
    ⟨(all [setF HIF_PORT_STAT.LINK 0 2, setF PTM_BOOT_STAT.FETCH_EN 0 1]).run .reset, 0, 255, 255, false, by decide +kernel⟩,
    ⟨(all [setPort 0 fun p => { p with en := true, rdy := true, sqs := [{ id := 0, size := 8, cq := 0 }, { id := 1, size := 8, cq := 1 }], cqs := [{ id := 0, size := 8 }, { id := 1, size := 8 }] }, .upd (.cqe fun x => { x with cmds := [{ ctag := 3, port := 0, sqid := 1, cid := 7, kind := 1, ns := some 0, nsid := 1, lba := 5, n := 1, seq := 9, time := 0 }, { ctag := 4, port := 0, sqid := 1, cid := 7, kind := 1, ns := some 0, nsid := 1, lba := 5, n := 1, seq := 9, time := 0, arrived := true }], nextSeq := 20 })]).run .reset, 0, by decide +kernel⟩,
    ⟨(all [setPort 0 fun p => { p with resetting := true }]).run .reset, 0, by decide +kernel⟩,
    ⟨(all [setPort 0 fun p => { p with en := true, rdy := true, sqs := [{ id := 0, size := 8, cq := 0 }, { id := 1, size := 8, cq := 1 }], cqs := [{ id := 0, size := 8 }, { id := 1, size := 8 }] }]).run .reset, 0, by decide +kernel⟩,
    ⟨(all [setPort 0 fun p => { p with en := true, shn := some 3, shst := 1 }]).run .reset, 0, 3, by decide +kernel⟩,
    ⟨(all [setPort 0 fun p => { p with en := true, rdy := true, sqs := [{ id := 0, size := 8, cq := 0 }, { id := 1, size := 8, cq := 1 }], cqs := [{ id := 0, size := 8 }, { id := 1, size := 8 }] }]).run .reset, 0, by decide +kernel⟩,
    ⟨(all [setPort 0 fun p => { p with cqs := [{ id := 1, size := 8, coalesced := 2 }] }]).run .reset, 0, 1, { id := 1, size := 8, coalesced := 2 }, by decide +kernel⟩⟩

theorem witness_HostPorts :
    (∃ (s : State) (q : Fin 2) (rate : Fin 8) (width : Fin 5), (s.mayTrain q = true) ∧ (s.portUp q = false) ∧ (s.isSas = false) ∧ (1 ≤ rate.val ∧ rate.val ≤ 5 ∧
      1 ≤ width.val)) ∧
    (∃ (s : State) (q : Fin 2) (rate : Fin 8) (_width : Fin 5), (s.mayTrain q = true) ∧ (s.portUp q = false) ∧ (s.isSas = true) ∧ (rate.val = 6 ∨ rate.val = 7)) ∧
    (∃ (s : State) (q : Fin 2), (s.isSas = false) ∧ (s.portUp q = true) ∧ (s.quiet (264 + q)) ∧ (s.alm.staged.length < stagingSize)) ∧
    (∃ (s : State) (q : Fin 2), (s.portUp q = true) ∧ (s.quiet (264 + q)) ∧ (s.alm.staged.length < stagingSize)) ∧
    (∃ (s : State) (q : Fin 2), (s.isSas = false) ∧ (s.portUp q = true) ∧ (s.quiet (264 + q)) ∧ (s.alm.staged.length < stagingSize)) ∧
    (∃ (s : State) (q : Fin 2), (s.isSas = false) ∧ (s.portUp q = true) ∧ (s.quiet (264 + q)) ∧ (s.alm.staged.length < stagingSize)) ∧
    (∃ (s : State) (q : Fin 2), (s.isSas = false) ∧ (s.portUp q = true) ∧ (s.quiet (264 + q)) ∧ (s.alm.staged.length < stagingSize)) ∧
    (∃ (s : State) (q : Fin 2), (s.isSas = true) ∧ (s.portUp q = true) ∧ (s.quiet (264 + q)) ∧ (s.alm.staged.length < stagingSize)) ∧
    (∃ (s : State) (q : Fin 2), (s.portUp q = true) ∧ (s.quiet (264 + q)) ∧ (s.alm.staged.length < stagingSize)) ∧
    (∃ (s : State) (q : Fin 2), (s.on HIF_CFG.PERST_EN 0 = true) ∧ (s.isSas = false) ∧ (s.portExists q = true) ∧ ((s.port q).perst = false) ∧ (s.quiet (264 +
      q)) ∧ (s.alm.staged.length < stagingSize)) ∧
    (∃ (s : State) (q : Fin 2), (s.isSas = false) ∧ (s.portUp q = true)) ∧
    (∃ (s : State) (q : Fin 2), (s.portUp q = true)) ∧
    (∃ (s : State) (q : Fin 2), (s.isSas = false) ∧ (s.portUp q = true)) ∧
    (∃ (s : State) (q : Fin 2), (s.isSas = false) ∧ (s.portUp q = true)) ∧
    (∃ (s : State) (q : Fin 2), (s.isSas = false) ∧ (s.portUp q = true)) ∧
    (∃ (s : State) (q : Fin 2), (s.isSas = true) ∧ (s.portUp q = true)) ∧
    (∃ (s : State) (q : Fin 2), (s.portUp q = true)) ∧
    (∃ (s : State) (q : Fin 2), (s.on HIF_CFG.PERST_EN 0 = true) ∧ (s.isSas = false) ∧ (s.portExists q = true) ∧ ((s.port q).perst = false)) ∧
    (∃ (s : State) (q : Fin 2), (s.portUp q = false)) ∧
    (∃ (s : State) (_q : Fin 2), (s.on HIF_CFG.PERST_EN 0 = false)) ∧
    (∃ (s : State) (q : Fin 2), (s.portUp q = true)) ∧
    (∃ (s : State) (q : Fin 2), (s.onRefclk q = true)) ∧
    (∃ (s : State) (q : Fin 2), (s.onRefclk q = true)) ∧
    (∃ (s : State) (q : Fin 2), (s.isSas = false) ∧ (s.get HIF_PORT_STAT.LINK q = 2)) ∧
    (∃ (s : State) (q : Fin 2), (s.get HIF_PORT_STAT.LINK q = 3)) ∧
    (∃ (s : State) (q : Fin 2), (s.isSas = false) ∧ (s.portUp q = true)) :=
  ⟨⟨(all [setF PTM_BOOT_STAT.STEP 0 4]).run .reset, 0, 5, 4, by decide +kernel⟩,
    ⟨(all [setF PTM_BOOT_STAT.STEP 0 4, setF HIF_CFG.PROTO 0 2]).run .reset, 0, 6, 0, by decide +kernel⟩,
    ⟨(all [setF FCU_SRC_CFG.N 264 5, setPort 0 fun p => { p with en := true, rdy := true, sqs := [{ id := 0, size := 8, cq := 0 }, { id := 1, size := 8, cq := 1 }], cqs := [{ id := 0, size := 8 }, { id := 1, size := 8 }] }, setF HIF_PORT_STAT.LINK 0 2]).run .reset, 0, by unfold State.quiet; decide +kernel⟩,
    ⟨(all [setF FCU_SRC_CFG.N 264 5, setPort 0 fun p => { p with en := true, rdy := true, sqs := [{ id := 0, size := 8, cq := 0 }, { id := 1, size := 8, cq := 1 }], cqs := [{ id := 0, size := 8 }, { id := 1, size := 8 }] }, setF HIF_PORT_STAT.LINK 0 2]).run .reset, 0, by unfold State.quiet; decide +kernel⟩,
    ⟨(all [setF FCU_SRC_CFG.N 264 5, setPort 0 fun p => { p with en := true, rdy := true, sqs := [{ id := 0, size := 8, cq := 0 }, { id := 1, size := 8, cq := 1 }], cqs := [{ id := 0, size := 8 }, { id := 1, size := 8 }] }, setF HIF_PORT_STAT.LINK 0 2]).run .reset, 0, by unfold State.quiet; decide +kernel⟩,
    ⟨(all [setF FCU_SRC_CFG.N 264 5, setPort 0 fun p => { p with en := true, rdy := true, sqs := [{ id := 0, size := 8, cq := 0 }, { id := 1, size := 8, cq := 1 }], cqs := [{ id := 0, size := 8 }, { id := 1, size := 8 }] }, setF HIF_PORT_STAT.LINK 0 2]).run .reset, 0, by unfold State.quiet; decide +kernel⟩,
    ⟨(all [setF FCU_SRC_CFG.N 264 5, setPort 0 fun p => { p with en := true, rdy := true, sqs := [{ id := 0, size := 8, cq := 0 }, { id := 1, size := 8, cq := 1 }], cqs := [{ id := 0, size := 8 }, { id := 1, size := 8 }] }, setF HIF_PORT_STAT.LINK 0 2]).run .reset, 0, by unfold State.quiet; decide +kernel⟩,
    ⟨(all [setF FCU_SRC_CFG.N 264 5, setPort 0 fun p => { p with en := true, rdy := true, sqs := [{ id := 0, size := 8, cq := 0 }, { id := 1, size := 8, cq := 1 }], cqs := [{ id := 0, size := 8 }, { id := 1, size := 8 }] }, setF HIF_PORT_STAT.LINK 0 2, setF HIF_CFG.PROTO 0 2]).run .reset, 0, by unfold State.quiet; decide +kernel⟩,
    ⟨(all [setF FCU_SRC_CFG.N 264 5, setPort 0 fun p => { p with en := true, rdy := true, sqs := [{ id := 0, size := 8, cq := 0 }, { id := 1, size := 8, cq := 1 }], cqs := [{ id := 0, size := 8 }, { id := 1, size := 8 }] }, setF HIF_PORT_STAT.LINK 0 2]).run .reset, 0, by unfold State.quiet; decide +kernel⟩,
    ⟨(all [setF FCU_SRC_CFG.N 264 5, setPort 0 fun p => { p with en := true, rdy := true, sqs := [{ id := 0, size := 8, cq := 0 }, { id := 1, size := 8, cq := 1 }], cqs := [{ id := 0, size := 8 }, { id := 1, size := 8 }] }]).run .reset, 0, by unfold State.quiet; decide +kernel⟩,
    ⟨(all [setPort 0 fun p => { p with en := true, rdy := true, sqs := [{ id := 0, size := 8, cq := 0 }, { id := 1, size := 8, cq := 1 }], cqs := [{ id := 0, size := 8 }, { id := 1, size := 8 }] }, setF HIF_PORT_STAT.LINK 0 2]).run .reset, 0, by decide +kernel⟩,
    ⟨(all [setPort 0 fun p => { p with en := true, rdy := true, sqs := [{ id := 0, size := 8, cq := 0 }, { id := 1, size := 8, cq := 1 }], cqs := [{ id := 0, size := 8 }, { id := 1, size := 8 }] }, setF HIF_PORT_STAT.LINK 0 2]).run .reset, 0, by decide +kernel⟩,
    ⟨(all [setPort 0 fun p => { p with en := true, rdy := true, sqs := [{ id := 0, size := 8, cq := 0 }, { id := 1, size := 8, cq := 1 }], cqs := [{ id := 0, size := 8 }, { id := 1, size := 8 }] }, setF HIF_PORT_STAT.LINK 0 2]).run .reset, 0, by decide +kernel⟩,
    ⟨(all [setPort 0 fun p => { p with en := true, rdy := true, sqs := [{ id := 0, size := 8, cq := 0 }, { id := 1, size := 8, cq := 1 }], cqs := [{ id := 0, size := 8 }, { id := 1, size := 8 }] }, setF HIF_PORT_STAT.LINK 0 2]).run .reset, 0, by decide +kernel⟩,
    ⟨(all [setPort 0 fun p => { p with en := true, rdy := true, sqs := [{ id := 0, size := 8, cq := 0 }, { id := 1, size := 8, cq := 1 }], cqs := [{ id := 0, size := 8 }, { id := 1, size := 8 }] }, setF HIF_PORT_STAT.LINK 0 2]).run .reset, 0, by decide +kernel⟩,
    ⟨(all [setPort 0 fun p => { p with en := true, rdy := true, sqs := [{ id := 0, size := 8, cq := 0 }, { id := 1, size := 8, cq := 1 }], cqs := [{ id := 0, size := 8 }, { id := 1, size := 8 }] }, setF HIF_PORT_STAT.LINK 0 2, setF HIF_CFG.PROTO 0 2]).run .reset, 0, by decide +kernel⟩,
    ⟨(all [setPort 0 fun p => { p with en := true, rdy := true, sqs := [{ id := 0, size := 8, cq := 0 }, { id := 1, size := 8, cq := 1 }], cqs := [{ id := 0, size := 8 }, { id := 1, size := 8 }] }, setF HIF_PORT_STAT.LINK 0 2]).run .reset, 0, by decide +kernel⟩,
    ⟨(all [setPort 0 fun p => { p with en := true, rdy := true, sqs := [{ id := 0, size := 8, cq := 0 }, { id := 1, size := 8, cq := 1 }], cqs := [{ id := 0, size := 8 }, { id := 1, size := 8 }] }]).run .reset, 0, by decide +kernel⟩,
    ⟨.reset, 1, by decide +kernel⟩,
    ⟨(all [setF HIF_CFG.PERST_EN 0 0]).run .reset, 1, by decide +kernel⟩,
    ⟨(all [setF HIF_PORT_STAT.LINK 0 2]).run .reset, 0, by decide +kernel⟩,
    ⟨.reset, 0, by decide +kernel⟩,
    ⟨.reset, 0, by decide +kernel⟩,
    ⟨(all [setF HIF_PORT_STAT.LINK 0 2]).run .reset, 0, by decide +kernel⟩,
    ⟨(all [setF HIF_PORT_STAT.LINK 1 3]).run .reset, 1, by decide +kernel⟩,
    ⟨(all [setF HIF_PORT_STAT.LINK 0 2]).run .reset, 0, by decide +kernel⟩⟩

theorem witness_ManagementInterface :
    (∃ (s : State) (_p : BitVec 64), (s.ptm.retention = false)) ∧
    (∃ (s : State), (s.ptm.retention = false)) ∧
    (∃ (s : State) (_kind _port : BitVec 8), (s.ptm.retention = false)) ∧
    (∃ (s : State), (s.ptm.retention = false)) ∧
    (∃ (s : State) (_q : Fin 2), (s.ptm.retention = false)) ∧
    (∃ (s : State) (_item : Byte) (_v : Word), (s.ptm.retention = false)) ∧
    (∃ (s : State) (item : Byte) (v : Nat), (s.ptm.retention = false) ∧ (s.hif.miConfig.find? (fun e => e.1 == item.toNat) = some (item.toNat, v))) ∧
    (∃ (s : State) (item : Byte), (s.ptm.retention = false) ∧ (s.hif.miConfig.find? (fun e => e.1 == item.toNat) = none)) ∧
    (∃ (s : State) (_off _len : BitVec 16), (s.ptm.retention = false)) ∧
    (∃ (s : State) (_off : BitVec 16) (_bytes : List Byte), (s.ptm.retention = false)) ∧
    (∃ (s : State) (op : Byte) (_x : Sqe), (s.ptm.retention = false) ∧ (op = 0x06 ∨ op = 0x02 ∨ op = 0x0A)) ∧
    (∃ (s : State) (op : Byte) (_x : Sqe), (s.ptm.retention = false) ∧ (op ≠ 0x06 ∧ op ≠ 0x02 ∧ op ≠ 0x0A)) :=
  ⟨⟨.reset, 5, by decide +kernel⟩,
    ⟨.reset, by decide +kernel⟩,
    ⟨.reset, 255, 0, by decide +kernel⟩,
    ⟨.reset, by decide +kernel⟩,
    ⟨.reset, 1, by decide +kernel⟩,
    ⟨.reset, 255, 7, by decide +kernel⟩,
    ⟨(all [.upd (.hif fun x => { x with miConfig := [(3, 9)] })]).run .reset, 3, 9, by decide +kernel⟩,
    ⟨.reset, 3, by decide +kernel⟩,
    ⟨.reset, 0, 0xFFFF, by decide +kernel⟩,
    ⟨.reset, 3, [1, 2], by decide +kernel⟩,
    ⟨.reset, 0x0A, default, by decide +kernel⟩,
    ⟨.reset, 0, default, by decide +kernel⟩⟩

theorem witness_AdminCommands :
    (∃ (s : State) (q : Fin 2) (_x : Sqe), (s.nvmeFetch q 0 = true)) ∧
    (∃ (s : State) (q : Fin 2) (_x : Sqe), (s.nvmeFetch q 0 = true)) ∧
    (∃ (s : State) (q : Fin 2) (_x : Sqe), (s.nvmeFetch q 0 = true)) ∧
    (∃ (s : State) (q : Fin 2) (_x : Sqe), (s.nvmeFetch q 0 = true)) ∧
    (∃ (s : State) (q : Fin 2) (_x : Sqe), (s.nvmeFetch q 0 = true)) ∧
    (∃ (s : State) (q : Fin 2) (_x : Sqe), (s.nvmeFetch q 0 = true)) ∧
    (∃ (s : State) (q : Fin 2) (_x : Sqe), (s.nvmeFetch q 0 = true)) ∧
    (∃ (s : State) (q : Fin 2) (_x : Sqe), (s.nvmeFetch q 0 = true)) ∧
    (∃ (s : State) (q : Fin 2) (_x : Sqe), (s.nvmeFetch q 0 = true)) ∧
    (∃ (s : State) (q : Fin 2) (_x : Sqe), (s.nvmeFetch q 0 = true)) ∧
    (∃ (s : State) (q : Fin 2) (_op : Fin 64) (_x : Sqe), (s.nvmeFetch q 0 = true)) ∧
    (∃ (s : State) (q : Fin 2) (x : Sqe), (s.nvmeFetch q 0 = true) ∧ (featureSupported (x.d10.toNat % 256) = true) ∧ (x.d10.toNat % 256 ≠ 0x06 ∨ x.d11.toNat % 2
      = 1)) ∧
    (∃ (s : State) (q : Fin 2) (x : Sqe), (s.nvmeFetch q 0 = true) ∧ (queueOk (x.d10.toNat % 65536) (x.d10.toNat / 65536 + 1) (x.d11.toNat % 2) = true) ∧
      (x.d11.toNat / 65536 ≤ 128) ∧ ((s.port q).cq (x.d10.toNat % 65536) = none)) ∧
    (∃ (s : State) (q : Fin 2) (x : Sqe), (s.nvmeFetch q 0 = true) ∧ (queueOk (x.d10.toNat % 65536) (x.d10.toNat / 65536 + 1) (x.d11.toNat % 2) = true) ∧
      (x.d11.toNat / 65536 ≠ 0) ∧ (((s.port q).cq (x.d11.toNat / 65536)).isSome = true) ∧ ((s.port q).sq (x.d10.toNat % 65536) = none)) ∧
    (∃ (s : State) (q : Fin 2) (x : Sqe), (s.nvmeFetch q 0 = true) ∧ (x.d10.toNat % 65536 ≠ 0) ∧ (∀ y ∈ (s.port q).sqs, y.cq ≠ x.d10.toNat % 65536)) ∧
    (∃ (s : State) (q : Fin 2) (x : Sqe), (s.nvmeFetch q 0 = true) ∧ (x.d10.toNat % 65536 ≠ 0) ∧ (s.cqe.cmds = [])) ∧
    (∃ (s : State) (q : Fin 2) (x : Sqe), (s.nvmeFetch q 0 = true) ∧ (x.d10.toNat % 65536 ≠ 0) ∧ (((s.port q).sq (x.d10.toNat % 65536)).map (·.deleting) = some
      false) ∧ (s.tagFree = true)) ∧
    (∃ (s : State) (q : Fin 2) (_x : Sqe), (s.nvmeFetch q 0 = true)) ∧
    (∃ (s : State) (q : Fin 2) (x : Sqe) (y : ComQ), (s.nvmeFetch q 0 = true) ∧ (s.tagFree = true) ∧ (((s.port q).sq 0).map (·.cq) = some 0) ∧ ((s.port q).cq 0
      = some y) ∧ (y.full = false) ∧ (∀ c ∈ s.cqe.cmds, c.port = q.val → c.sqid = x.d10.toNat % 65536 → c.cid ≠ x.d10.toNat / 65536)) ∧
    (∃ (s : State) (q : Fin 2) (_x : Sqe), (s.nvmeFetch q 0 = true)) ∧
    (∃ (s : State) (q : Fin 2) (_x : Sqe) (y : ComQ), (s.nvmeFetch q 0 = true) ∧ (s.cqe.cmds = []) ∧ ((s.port q).cq 0 = some y) ∧ (((s.port q).sq 0).map (·.cq)
      = some 0) ∧ (y.ien = false)) ∧
    (∃ (s : State) (q : Fin 2) (x : Sqe) (y z : ComQ) (d : Cmd), (s.nvmeFetch q 0 = true) ∧ (s.cqe.cmds = [d]) ∧ (d.writes = true ∧ d.arrived = false ∧ d.silent
      = false ∧ d.adm = false ∧ d.port = q.val ∧ d.sqid = x.d10.toNat % 65536 ∧ d.cid = x.d10.toNat / 65536) ∧ (((s.port q).sq 0).map (·.cq) = some 0) ∧
      (((s.port q).sq d.sqid).map (·.cq) = some 1) ∧ ((s.port q).cq 0 = some y) ∧ ((s.port q).cq 1 = some z) ∧ (y.ien = false ∧ z.ien = false ∧ z.full =
      false)) :=
  ⟨⟨(all [setF HIF_PORT_STAT.LINK 0 2, setF PTM_BOOT_STAT.FETCH_EN 0 1, setF PTM_MODE_STAT.MODE 0 1, setPort 0 fun p => { p with en := true, rdy := true, sqs := [{ id := 0, size := 8, cq := 0, tail := 3 }, { id := 1, size := 8, cq := 1, tail := 3 }], cqs := [{ id := 0, size := 8, ien := false }, { id := 1, size := 8, ien := false }] }]).run .reset, 0, default, by decide +kernel⟩,
    ⟨(all [setF HIF_PORT_STAT.LINK 0 2, setF PTM_BOOT_STAT.FETCH_EN 0 1, setF PTM_MODE_STAT.MODE 0 1, setPort 0 fun p => { p with en := true, rdy := true, sqs := [{ id := 0, size := 8, cq := 0, tail := 3 }, { id := 1, size := 8, cq := 1, tail := 3 }], cqs := [{ id := 0, size := 8, ien := false }, { id := 1, size := 8, ien := false }] }]).run .reset, 0, default, by decide +kernel⟩,
    ⟨(all [setF HIF_PORT_STAT.LINK 0 2, setF PTM_BOOT_STAT.FETCH_EN 0 1, setF PTM_MODE_STAT.MODE 0 1, setPort 0 fun p => { p with en := true, rdy := true, sqs := [{ id := 0, size := 8, cq := 0, tail := 3 }, { id := 1, size := 8, cq := 1, tail := 3 }], cqs := [{ id := 0, size := 8, ien := false }, { id := 1, size := 8, ien := false }] }]).run .reset, 0, default, by decide +kernel⟩,
    ⟨(all [setF HIF_PORT_STAT.LINK 0 2, setF PTM_BOOT_STAT.FETCH_EN 0 1, setF PTM_MODE_STAT.MODE 0 1, setPort 0 fun p => { p with en := true, rdy := true, sqs := [{ id := 0, size := 8, cq := 0, tail := 3 }, { id := 1, size := 8, cq := 1, tail := 3 }], cqs := [{ id := 0, size := 8, ien := false }, { id := 1, size := 8, ien := false }] }]).run .reset, 0, default, by decide +kernel⟩,
    ⟨(all [setF HIF_PORT_STAT.LINK 0 2, setF PTM_BOOT_STAT.FETCH_EN 0 1, setF PTM_MODE_STAT.MODE 0 1, setPort 0 fun p => { p with en := true, rdy := true, sqs := [{ id := 0, size := 8, cq := 0, tail := 3 }, { id := 1, size := 8, cq := 1, tail := 3 }], cqs := [{ id := 0, size := 8, ien := false }, { id := 1, size := 8, ien := false }] }]).run .reset, 0, default, by decide +kernel⟩,
    ⟨(all [setF HIF_PORT_STAT.LINK 0 2, setF PTM_BOOT_STAT.FETCH_EN 0 1, setF PTM_MODE_STAT.MODE 0 1, setPort 0 fun p => { p with en := true, rdy := true, sqs := [{ id := 0, size := 8, cq := 0, tail := 3 }, { id := 1, size := 8, cq := 1, tail := 3 }], cqs := [{ id := 0, size := 8, ien := false }, { id := 1, size := 8, ien := false }] }]).run .reset, 0, default, by decide +kernel⟩,
    ⟨(all [setF HIF_PORT_STAT.LINK 0 2, setF PTM_BOOT_STAT.FETCH_EN 0 1, setF PTM_MODE_STAT.MODE 0 1, setPort 0 fun p => { p with en := true, rdy := true, sqs := [{ id := 0, size := 8, cq := 0, tail := 3 }, { id := 1, size := 8, cq := 1, tail := 3 }], cqs := [{ id := 0, size := 8, ien := false }, { id := 1, size := 8, ien := false }] }]).run .reset, 0, default, by decide +kernel⟩,
    ⟨(all [setF HIF_PORT_STAT.LINK 0 2, setF PTM_BOOT_STAT.FETCH_EN 0 1, setF PTM_MODE_STAT.MODE 0 1, setPort 0 fun p => { p with en := true, rdy := true, sqs := [{ id := 0, size := 8, cq := 0, tail := 3 }, { id := 1, size := 8, cq := 1, tail := 3 }], cqs := [{ id := 0, size := 8, ien := false }, { id := 1, size := 8, ien := false }] }]).run .reset, 0, default, by decide +kernel⟩,
    ⟨(all [setF HIF_PORT_STAT.LINK 0 2, setF PTM_BOOT_STAT.FETCH_EN 0 1, setF PTM_MODE_STAT.MODE 0 1, setPort 0 fun p => { p with en := true, rdy := true, sqs := [{ id := 0, size := 8, cq := 0, tail := 3 }, { id := 1, size := 8, cq := 1, tail := 3 }], cqs := [{ id := 0, size := 8, ien := false }, { id := 1, size := 8, ien := false }] }]).run .reset, 0, default, by decide +kernel⟩,
    ⟨(all [setF HIF_PORT_STAT.LINK 0 2, setF PTM_BOOT_STAT.FETCH_EN 0 1, setF PTM_MODE_STAT.MODE 0 1, setPort 0 fun p => { p with en := true, rdy := true, sqs := [{ id := 0, size := 8, cq := 0, tail := 3 }, { id := 1, size := 8, cq := 1, tail := 3 }], cqs := [{ id := 0, size := 8, ien := false }, { id := 1, size := 8, ien := false }] }]).run .reset, 0, default, by decide +kernel⟩,
    ⟨(all [setF HIF_PORT_STAT.LINK 0 2, setF PTM_BOOT_STAT.FETCH_EN 0 1, setF PTM_MODE_STAT.MODE 0 1, setPort 0 fun p => { p with en := true, rdy := true, sqs := [{ id := 0, size := 8, cq := 0, tail := 3 }, { id := 1, size := 8, cq := 1, tail := 3 }], cqs := [{ id := 0, size := 8, ien := false }, { id := 1, size := 8, ien := false }] }]).run .reset, 0, 63, default, by decide +kernel⟩,
    ⟨(all [setF HIF_PORT_STAT.LINK 0 2, setF PTM_BOOT_STAT.FETCH_EN 0 1, setF PTM_MODE_STAT.MODE 0 1, setPort 0 fun p => { p with en := true, rdy := true, sqs := [{ id := 0, size := 8, cq := 0, tail := 3 }, { id := 1, size := 8, cq := 1, tail := 3 }], cqs := [{ id := 0, size := 8, ien := false }, { id := 1, size := 8, ien := false }] }]).run .reset, 0, { (default : Sqe) with nsid := 1, cid := 7, d10 := 4, d11 := 320 }, by decide +kernel⟩,
    ⟨(all [setF HIF_PORT_STAT.LINK 0 2, setF PTM_BOOT_STAT.FETCH_EN 0 1, setF PTM_MODE_STAT.MODE 0 1, setPort 0 fun p => { p with en := true, rdy := true, sqs := [{ id := 0, size := 8, cq := 0, tail := 3 }, { id := 1, size := 8, cq := 1, tail := 3 }], cqs := [{ id := 0, size := 8, ien := false }, { id := 1, size := 8, ien := false }] }]).run .reset, 0, { (default : Sqe) with nsid := 1, cid := 7, d10 := 0xF0002, d11 := 0x800003 }, by decide +kernel⟩,
    ⟨(all [setF HIF_PORT_STAT.LINK 0 2, setF PTM_BOOT_STAT.FETCH_EN 0 1, setF PTM_MODE_STAT.MODE 0 1, setPort 0 fun p => { p with en := true, rdy := true, sqs := [{ id := 0, size := 8, cq := 0, tail := 3 }, { id := 1, size := 8, cq := 1, tail := 3 }], cqs := [{ id := 0, size := 8, ien := false }, { id := 1, size := 8, ien := false }] }]).run .reset, 0, { (default : Sqe) with nsid := 1, cid := 7, d10 := 0xF0002, d11 := 0x10003 }, by decide +kernel⟩,
    ⟨(all [setF HIF_PORT_STAT.LINK 0 2, setF PTM_BOOT_STAT.FETCH_EN 0 1, setF PTM_MODE_STAT.MODE 0 1, setPort 0 fun p => { p with en := true, rdy := true, sqs := [{ id := 0, size := 8, cq := 0, tail := 3 }, { id := 1, size := 8, cq := 1, tail := 3 }], cqs := [{ id := 0, size := 8, ien := false }, { id := 1, size := 8, ien := false }] }]).run .reset, 0, { (default : Sqe) with nsid := 1, cid := 7, d10 := 9 }, by decide +kernel⟩,
    ⟨(all [setF HIF_PORT_STAT.LINK 0 2, setF PTM_BOOT_STAT.FETCH_EN 0 1, setF PTM_MODE_STAT.MODE 0 1, setPort 0 fun p => { p with en := true, rdy := true, sqs := [{ id := 0, size := 8, cq := 0, tail := 3 }, { id := 1, size := 8, cq := 1, tail := 3 }], cqs := [{ id := 0, size := 8, ien := false }, { id := 1, size := 8, ien := false }] }]).run .reset, 0, { (default : Sqe) with nsid := 1, cid := 7, d10 := 1 }, by decide +kernel⟩,
    ⟨(all [setF HIF_PORT_STAT.LINK 0 2, setF PTM_BOOT_STAT.FETCH_EN 0 1, setF PTM_MODE_STAT.MODE 0 1, setPort 0 fun p => { p with en := true, rdy := true, sqs := [{ id := 0, size := 8, cq := 0, tail := 3 }, { id := 1, size := 8, cq := 1, tail := 3 }], cqs := [{ id := 0, size := 8, ien := false }, { id := 1, size := 8, ien := false }] }]).run .reset, 0, { (default : Sqe) with nsid := 1, cid := 7, d10 := 1 }, by decide +kernel⟩,
    ⟨(all [setF HIF_PORT_STAT.LINK 0 2, setF PTM_BOOT_STAT.FETCH_EN 0 1, setF PTM_MODE_STAT.MODE 0 1, setPort 0 fun p => { p with en := true, rdy := true, sqs := [{ id := 0, size := 8, cq := 0, tail := 3 }, { id := 1, size := 8, cq := 1, tail := 3 }], cqs := [{ id := 0, size := 8, ien := false }, { id := 1, size := 8, ien := false }] }]).run .reset, 0, { (default : Sqe) with nsid := 1, cid := 7 }, by decide +kernel⟩,
    ⟨(all [setF HIF_PORT_STAT.LINK 0 2, setF PTM_BOOT_STAT.FETCH_EN 0 1, setF PTM_MODE_STAT.MODE 0 1, setPort 0 fun p => { p with en := true, rdy := true, sqs := [{ id := 0, size := 8, cq := 0, tail := 3 }, { id := 1, size := 8, cq := 1, tail := 3 }], cqs := [{ id := 0, size := 8, ien := false }, { id := 1, size := 8, ien := false }] }]).run .reset, 0, { (default : Sqe) with nsid := 1, cid := 7, d10 := 0x70001 }, { id := 0, size := 8, ien := false }, by decide +kernel⟩,
    ⟨(all [setF HIF_PORT_STAT.LINK 0 2, setF PTM_BOOT_STAT.FETCH_EN 0 1, setF PTM_MODE_STAT.MODE 0 1, setPort 0 fun p => { p with en := true, rdy := true, sqs := [{ id := 0, size := 8, cq := 0, tail := 3 }, { id := 1, size := 8, cq := 1, tail := 3 }], cqs := [{ id := 0, size := 8, ien := false }, { id := 1, size := 8, ien := false }] }]).run .reset, 0, { (default : Sqe) with nsid := 1, cid := 7, d10 := 0x70001 }, by decide +kernel⟩,
    ⟨(all [setF HIF_PORT_STAT.LINK 0 2, setF PTM_BOOT_STAT.FETCH_EN 0 1, setF PTM_MODE_STAT.MODE 0 1, setPort 0 fun p => { p with en := true, rdy := true, sqs := [{ id := 0, size := 8, cq := 0, tail := 3 }, { id := 1, size := 8, cq := 1, tail := 3 }], cqs := [{ id := 0, size := 8, ien := false }, { id := 1, size := 8, ien := false }] }]).run .reset, 0, { (default : Sqe) with nsid := 1, cid := 7, d10 := 0x70001 }, { id := 0, size := 8, ien := false }, by decide +kernel⟩,
    ⟨(all [setF HIF_PORT_STAT.LINK 0 2, setF PTM_BOOT_STAT.FETCH_EN 0 1, setF PTM_MODE_STAT.MODE 0 1, setPort 0 fun p => { p with en := true, rdy := true, sqs := [{ id := 0, size := 8, cq := 0, tail := 3 }, { id := 1, size := 8, cq := 1, tail := 3 }], cqs := [{ id := 0, size := 8, ien := false }, { id := 1, size := 8, ien := false }] }, .upd (.cqe fun x => { x with cmds := [{ ctag := 3, port := 0, sqid := 1, cid := 7, kind := 1, ns := some 0, nsid := 1, lba := 5, n := 1, seq := 9, time := 0 }], nextSeq := 20 })]).run .reset, 0, { (default : Sqe) with nsid := 1, cid := 7, d10 := 0x70001 }, { id := 0, size := 8, ien := false }, { id := 1, size := 8, ien := false }, { ctag := 3, port := 0, sqid := 1, cid := 7, kind := 1, ns := some 0, nsid := 1, lba := 5, n := 1, seq := 9, time := 0 }, by decide +kernel⟩⟩

theorem witness_IoCommands :
    (∃ (s : State) (q : Fin 2) (i : Fin 65) (x : Sqe) (n : Nat), (i.val ≠ 0) ∧ (s.nvmeFetch q i = true) ∧ (s.tagFree = true) ∧ (x.d12.toNat % 65536 + 1 ≤ 512) ∧
      (x.nsid.toNat = n + 1) ∧ (s.nsServes n q = true) ∧ (x.d10.toNat + 2 ^ 32 * x.d11.toNat + (x.d12.toNat % 65536 + 1) ≤ s.nsLbas n) ∧ (s.keyState (s.get
      CQE_NS_CFG.KSLOT n) = 2)) ∧
    (∃ (s : State) (q : Fin 2) (i : Fin 65) (x : Sqe) (n : Nat), (i.val ≠ 0) ∧ (s.nvmeFetch q i = true) ∧ (s.tagFree = true) ∧ (x.d12.toNat % 65536 + 1 ≤ 512) ∧
      (x.nsid.toNat = n + 1) ∧ (s.nsServes n q = true) ∧ (x.d10.toNat + 2 ^ 32 * x.d11.toNat + (x.d12.toNat % 65536 + 1) ≤ s.nsLbas n) ∧ (s.keyState (s.get
      CQE_NS_CFG.KSLOT n) = 2) ∧ (∀ k < x.d12.toNat % 65536 + 1, s.lbaSrc n ((x.d10.toNat + 2 ^ 32 * x.d11.toNat) + k) s.cqe.nextSeq = .medium)) ∧
    (∃ (s : State) (q : Fin 2) (i : Fin 65) (x : Sqe) (n : Nat), (i.val ≠ 0) ∧ (s.nvmeFetch q i = true) ∧ (s.tagFree = true) ∧ (x.d12.toNat % 65536 + 1 ≤ 512) ∧
      (x.nsid.toNat = n + 1) ∧ (s.nsServes n q = true) ∧ (x.d10.toNat + 2 ^ 32 * x.d11.toNat + (x.d12.toNat % 65536 + 1) ≤ s.nsLbas n) ∧ (s.keyState (s.get
      CQE_NS_CFG.KSLOT n) = 2) ∧ (∀ k < x.d12.toNat % 65536 + 1, s.lbaSrc n ((x.d10.toNat + 2 ^ 32 * x.d11.toNat) + k) s.cqe.nextSeq = .medium) ∧ (s.mode ≠
      mIdle ∧ s.mode ≠ mStandby)) ∧
    (∃ (s : State) (q : Fin 2) (i : Fin 65) (x : Sqe) (n : Nat), (i.val ≠ 0) ∧ (s.nvmeFetch q i = true) ∧ (s.tagFree = true) ∧ (x.d12.toNat % 65536 + 1 ≤ 512) ∧
      (x.nsid.toNat = n + 1) ∧ (s.nsServes n q = true) ∧ (x.d10.toNat + 2 ^ 32 * x.d11.toNat + (x.d12.toNat % 65536 + 1) ≤ s.nsLbas n) ∧ (s.keyState (s.get
      CQE_NS_CFG.KSLOT n) = 2) ∧ (∀ k < x.d12.toNat % 65536 + 1, s.lbaSrc n ((x.d10.toNat + 2 ^ 32 * x.d11.toNat) + k) s.cqe.nextSeq = .medium) ∧ (s.mode =
      mIdle ∨ s.mode = mStandby) ∧ (s.transOk { mode := mActive, ilvl := 0, ret := false } = true) ∧ (s.ptm.retention = false)) ∧
    (∃ (s : State) (q : Fin 2) (i : Fin 65) (x : Sqe) (n k : Nat) (y : SubQ) (z : ComQ), (i.val ≠ 0) ∧ (s.nvmeFetch q i = true) ∧ (s.tagFree = true) ∧
      (x.d12.toNat % 65536 + 1 ≤ 512) ∧ (x.nsid.toNat = n + 1) ∧ (s.nsServes n q = true) ∧ (x.d10.toNat + 2 ^ 32 * x.d11.toNat + (x.d12.toNat % 65536 + 1)
      ≤ s.nsLbas n) ∧ (s.keyState (s.get CQE_NS_CFG.KSLOT n) = 2) ∧ (x.d12.toNat % 65536 = 0) ∧ (s.lbaSrc n (x.d10.toNat + 2 ^ 32 * x.d11.toNat)
      s.cqe.nextSeq = .slot k) ∧ (s.nsHasPi n = false) ∧ ((s.port q).sq i = some y) ∧ ((s.port q).cq y.cq = some z) ∧ (z.ien = false) ∧ (s.cqe.cmds = []) ∧
      (s.on CQE_CFG.FP_EN 0 = true ∧ s.on CQE_NS_CFG.FP n = true ∧ s.on CQE_NS_CFG.ZONED n = false)) ∧
    (∃ (s : State) (q : Fin 2) (i : Fin 65) (x : Sqe) (n : Nat), (i.val ≠ 0) ∧ (s.nvmeFetch q i = true) ∧ (s.tagFree = true) ∧ (x.d12.toNat % 65536 + 1 ≤ 512) ∧
      (x.nsid.toNat = n + 1) ∧ (s.nsServes n q = true) ∧ (x.d10.toNat + 2 ^ 32 * x.d11.toNat + (x.d12.toNat % 65536 + 1) ≤ s.nsLbas n) ∧ (s.keyState (s.get
      CQE_NS_CFG.KSLOT n) = 2) ∧ (s.on CQE_NS_CFG.ZONED n = false)) ∧
    (∃ (s : State) (q : Fin 2) (i : Fin 65) (x : Sqe) (n : Nat), (i.val ≠ 0) ∧ (s.nvmeFetch q i = true) ∧ (s.tagFree = true) ∧ (x.d12.toNat % 65536 + 1 ≤ 512) ∧
      (x.nsid.toNat = n + 1) ∧ (s.nsServes n q = true) ∧ (x.d10.toNat + 2 ^ 32 * x.d11.toNat + (x.d12.toNat % 65536 + 1) ≤ s.nsLbas n) ∧ (s.keyState (s.get
      CQE_NS_CFG.KSLOT n) = 2) ∧ (s.on CQE_NS_CFG.ZONED n = false)) ∧
    (∃ (s : State) (q : Fin 2) (i : Fin 65) (x : Sqe) (n : Nat), (i.val ≠ 0) ∧ (s.nvmeFetch q i = true) ∧ (s.tagFree = true) ∧ (x.d12.toNat % 65536 + 1 ≤ 512) ∧
      (x.nsid.toNat = n + 1) ∧ (s.nsServes n q = true) ∧ (x.d10.toNat + 2 ^ 32 * x.d11.toNat + (x.d12.toNat % 65536 + 1) ≤ s.nsLbas n) ∧ (s.keyState (s.get
      CQE_NS_CFG.KSLOT n) = 2) ∧ (s.on CQE_NS_CFG.ZONED n = true) ∧ ((x.d10.toNat + 2 ^ 32 * x.d11.toNat) % s.zoneLbas n = 0) ∧ (s.zoneRefuses n
      ((x.d10.toNat + 2 ^ 32 * x.d11.toNat) / s.zoneLbas n) none (x.d12.toNat % 65536 + 1) = none)) ∧
    (∃ (s : State) (q : Fin 2) (i : Fin 65) (x : Sqe) (n : Nat), (i.val ≠ 0) ∧ (s.nvmeFetch q i = true) ∧ (s.tagFree = true) ∧ (x.d12.toNat % 65536 + 1 ≤ 512) ∧
      (x.nsid.toNat = n + 1) ∧ (s.nsServes n q = true) ∧ (x.d10.toNat + 2 ^ 32 * x.d11.toNat + (x.d12.toNat % 65536 + 1) ≤ s.nsLbas n) ∧ (s.keyState (s.get
      CQE_NS_CFG.KSLOT n) = 2) ∧ (s.on CQE_NS_CFG.ZONED n = true) ∧ (s.zoneRefuses n ((x.d10.toNat + 2 ^ 32 * x.d11.toNat) / s.zoneLbas n) (some
      ((x.d10.toNat + 2 ^ 32 * x.d11.toNat) % s.zoneLbas n)) (x.d12.toNat % 65536 + 1) = none)) ∧
    (∃ (s : State) (q : Fin 2) (i : Fin 65) (x : Sqe) (y : SubQ) (z : ComQ), (i.val ≠ 0) ∧ (s.nvmeFetch q i = true) ∧ (s.tagFree = true) ∧ ((s.port q).sq i =
      some y) ∧ ((s.port q).cq y.cq = some z) ∧ (z.ien = false) ∧ (512 < x.d12.toNat % 65536 + 1)) ∧
    (∃ (s : State) (q : Fin 2) (i : Fin 65) (x : Sqe) (y : SubQ) (z : ComQ), (i.val ≠ 0) ∧ (s.nvmeFetch q i = true) ∧ (s.tagFree = true) ∧ ((s.port q).sq i =
      some y) ∧ ((s.port q).cq y.cq = some z) ∧ (z.ien = false) ∧ (x.d12.toNat % 65536 + 1 ≤ 512) ∧ (x.nsid.toNat = 0 ∨ s.nsServes (x.nsid.toNat - 1) q =
      false)) ∧
    (∃ (s : State) (q : Fin 2) (i : Fin 65) (x : Sqe) (y : SubQ) (z : ComQ), (i.val ≠ 0) ∧ (s.nvmeFetch q i = true) ∧ (s.tagFree = true) ∧ ((s.port q).sq i =
      some y) ∧ ((s.port q).cq y.cq = some z) ∧ (z.ien = false) ∧ (x.d12.toNat % 65536 + 1 ≤ 512) ∧ (x.nsid.toNat ≠ 0) ∧ (s.nsServes (x.nsid.toNat - 1) q =
      true) ∧ (s.nsLbas (x.nsid.toNat - 1) < (x.d10.toNat + 2 ^ 32 * x.d11.toNat) + (x.d12.toNat % 65536 + 1))) ∧
    (∃ (s : State) (q : Fin 2) (i : Fin 65) (x : Sqe) (n : Nat), (i.val ≠ 0) ∧ (s.nvmeFetch q i = true) ∧ (s.tagFree = true) ∧ (x.nsid.toNat = n + 1) ∧
      (x.nsid.toNat ≠ 0xFFFFFFFF) ∧ (s.nsServes n q = true)) ∧
    (∃ (s : State) (q : Fin 2) (i : Fin 65) (x : Sqe), (i.val ≠ 0) ∧ (s.nvmeFetch q i = true) ∧ (s.tagFree = true) ∧ (x.nsid.toNat = 0xFFFFFFFF)) ∧
    (∃ (s : State) (q : Fin 2) (i : Fin 65) (x : Sqe) (n : Nat) (y : SubQ) (z : ComQ), (i.val ≠ 0) ∧ (s.nvmeFetch q i = true) ∧ (s.tagFree = true) ∧
      (x.nsid.toNat = n + 1) ∧ (x.nsid.toNat ≠ 0xFFFFFFFF) ∧ (s.nsServes n q = true) ∧ (s.cqe.cmds = []) ∧ (s.cqe.overlay = []) ∧ (s.on CQE_CFG.FP_EN 0 =
      true ∧ s.on CQE_NS_CFG.FP n = true ∧ s.on CQE_NS_CFG.ZONED n = false) ∧ ((s.port q).sq i = some y) ∧ ((s.port q).cq y.cq = some z) ∧ (z.ien = false)) ∧
    (∃ (s : State) (q : Fin 2) (i : Fin 65) (x : Sqe) (n z : Nat), (i.val ≠ 0) ∧ (s.nvmeFetch q i = true) ∧ (s.tagFree = true) ∧ (x.nsid.toNat = n + 1) ∧
      (s.nsServes n q = true) ∧ (s.on CQE_NS_CFG.ZONED n = true) ∧ (x.d13.getLsbD 8 = false) ∧ ((x.d10.toNat + 2 ^ 32 * x.d11.toNat) < s.nsLbas n) ∧
      ((x.d10.toNat + 2 ^ 32 * x.d11.toNat) = z * s.zoneLbas n) ∧ ((s.zone n z).st ∈ [1, 2, 3, 4]) ∧ (s.zoneRoom n (s.zone n z).st = none)) ∧
    (∃ (s : State) (q : Fin 2) (i : Fin 65) (x : Sqe) (n z : Nat), (i.val ≠ 0) ∧ (s.nvmeFetch q i = true) ∧ (s.tagFree = true) ∧ (x.nsid.toNat = n + 1) ∧
      (s.nsServes n q = true) ∧ (s.on CQE_NS_CFG.ZONED n = true) ∧ (x.d13.getLsbD 8 = false) ∧ ((x.d10.toNat + 2 ^ 32 * x.d11.toNat) < s.nsLbas n) ∧
      ((x.d10.toNat + 2 ^ 32 * x.d11.toNat) = z * s.zoneLbas n) ∧ ((s.zone n z).st ∈ [2, 3, 4])) ∧
    (∃ (s : State) (q : Fin 2) (i : Fin 65) (x : Sqe) (n z : Nat), (i.val ≠ 0) ∧ (s.nvmeFetch q i = true) ∧ (s.tagFree = true) ∧ (x.nsid.toNat = n + 1) ∧
      (s.nsServes n q = true) ∧ (s.on CQE_NS_CFG.ZONED n = true) ∧ (x.d13.getLsbD 8 = false) ∧ ((x.d10.toNat + 2 ^ 32 * x.d11.toNat) < s.nsLbas n) ∧
      ((x.d10.toNat + 2 ^ 32 * x.d11.toNat) = z * s.zoneLbas n) ∧ ((s.zone n z).st ∈ [1, 2, 3, 4, 14])) ∧
    (∃ (s : State) (q : Fin 2) (i : Fin 65) (x : Sqe) (n z : Nat), (i.val ≠ 0) ∧ (s.nvmeFetch q i = true) ∧ (s.tagFree = true) ∧ (x.nsid.toNat = n + 1) ∧
      (s.nsServes n q = true) ∧ (s.on CQE_NS_CFG.ZONED n = true) ∧ (x.d13.getLsbD 8 = false) ∧ ((x.d10.toNat + 2 ^ 32 * x.d11.toNat) < s.nsLbas n) ∧
      ((x.d10.toNat + 2 ^ 32 * x.d11.toNat) = z * s.zoneLbas n) ∧ ((s.zone n z).st ∈ [1, 2, 3, 4, 14])) ∧
    (∃ (s : State) (q : Fin 2) (i : Fin 65) (x : Sqe) (n z : Nat), (i.val ≠ 0) ∧ (s.nvmeFetch q i = true) ∧ (s.tagFree = true) ∧ (x.nsid.toNat = n + 1) ∧
      (s.nsServes n q = true) ∧ (s.on CQE_NS_CFG.ZONED n = true) ∧ (x.d13.getLsbD 8 = false) ∧ ((x.d10.toNat + 2 ^ 32 * x.d11.toNat) < s.nsLbas n) ∧
      ((x.d10.toNat + 2 ^ 32 * x.d11.toNat) = z * s.zoneLbas n) ∧ ((s.zone n z).st ∈ [13, 15])) ∧
    (∃ (s : State) (q : Fin 2) (i : Fin 65) (x : Sqe) (n z : Nat), (i.val ≠ 0) ∧ (s.nvmeFetch q i = true) ∧ (s.tagFree = true) ∧ (x.nsid.toNat = n + 1) ∧
      (s.nsServes n q = true) ∧ (s.on CQE_NS_CFG.ZONED n = true) ∧ (x.d13.getLsbD 8 = false) ∧ ((x.d10.toNat + 2 ^ 32 * x.d11.toNat) < s.nsLbas n) ∧
      ((x.d10.toNat + 2 ^ 32 * x.d11.toNat) = z * s.zoneLbas n) ∧ ((s.zone n z).st ∈ [1, 2, 3, 4]) ∧ (s.zoneRoom n (s.zone n z).st = none) ∧ (s.cqe.overlay
      = [] ∧ s.cqe.cmds = [])) ∧
    (∃ (s : State) (q : Fin 2) (i : Fin 65) (x : Sqe) (n z : Nat), (i.val ≠ 0) ∧ (s.nvmeFetch q i = true) ∧ (s.tagFree = true) ∧ (x.nsid.toNat = n + 1) ∧
      (s.nsServes n q = true) ∧ (s.on CQE_NS_CFG.ZONED n = true) ∧ (x.d13.getLsbD 8 = false) ∧ ((x.d10.toNat + 2 ^ 32 * x.d11.toNat) < s.nsLbas n) ∧
      ((x.d10.toNat + 2 ^ 32 * x.d11.toNat) = z * s.zoneLbas n) ∧ ((s.zone n z).st ∈ [2, 3, 4]) ∧ (s.cqe.overlay = [] ∧ s.cqe.cmds = [])) ∧
    (∃ (s : State) (q : Fin 2) (i : Fin 65) (x : Sqe) (n z : Nat), (i.val ≠ 0) ∧ (s.nvmeFetch q i = true) ∧ (s.tagFree = true) ∧ (x.nsid.toNat = n + 1) ∧
      (s.nsServes n q = true) ∧ (s.on CQE_NS_CFG.ZONED n = true) ∧ (x.d13.getLsbD 8 = false) ∧ ((x.d10.toNat + 2 ^ 32 * x.d11.toNat) < s.nsLbas n) ∧
      ((x.d10.toNat + 2 ^ 32 * x.d11.toNat) = z * s.zoneLbas n) ∧ ((s.zone n z).st ∈ [1, 2, 3, 4, 14]) ∧ (s.cqe.overlay = [] ∧ s.cqe.cmds = [])) ∧
    (∃ (s : State) (q : Fin 2) (i : Fin 65) (x : Sqe) (n z : Nat), (i.val ≠ 0) ∧ (s.nvmeFetch q i = true) ∧ (s.tagFree = true) ∧ (x.nsid.toNat = n + 1) ∧
      (s.nsServes n q = true) ∧ (s.on CQE_NS_CFG.ZONED n = true) ∧ (x.d13.getLsbD 8 = false) ∧ ((x.d10.toNat + 2 ^ 32 * x.d11.toNat) < s.nsLbas n) ∧
      ((x.d10.toNat + 2 ^ 32 * x.d11.toNat) = z * s.zoneLbas n) ∧ ((s.zone n z).st ∈ [1, 2, 3, 4, 14]) ∧ (s.cqe.overlay = [] ∧ s.cqe.cmds = [])) ∧
    (∃ (s : State) (q : Fin 2) (i : Fin 65) (x : Sqe) (n z : Nat), (i.val ≠ 0) ∧ (s.nvmeFetch q i = true) ∧ (s.tagFree = true) ∧ (x.nsid.toNat = n + 1) ∧
      (s.nsServes n q = true) ∧ (s.on CQE_NS_CFG.ZONED n = true) ∧ (x.d13.getLsbD 8 = false) ∧ ((x.d10.toNat + 2 ^ 32 * x.d11.toNat) < s.nsLbas n) ∧
      ((x.d10.toNat + 2 ^ 32 * x.d11.toNat) = z * s.zoneLbas n) ∧ ((s.zone n z).st ∈ [13, 15]) ∧ (s.cqe.overlay = [] ∧ s.cqe.cmds = [])) ∧
    (∃ (s : State) (q : Fin 2) (i : Fin 65) (x : Sqe) (n : Nat), (i.val ≠ 0) ∧ (s.nvmeFetch q i = true) ∧ (s.tagFree = true) ∧ (x.nsid.toNat = n + 1) ∧
      (s.nsServes n q = true) ∧ (s.on CQE_NS_CFG.ZONED n = true) ∧ ((x.d10.toNat + 2 ^ 32 * x.d11.toNat) < s.nsLbas n)) :=
  ⟨⟨(all [setF HIF_PORT_STAT.LINK 0 2, setF PTM_BOOT_STAT.FETCH_EN 0 1, setF PTM_MODE_STAT.MODE 0 1, setPort 0 fun p => { p with en := true, rdy := true, sqs := [{ id := 0, size := 8, cq := 0, tail := 0 }, { id := 1, size := 8, cq := 1, tail := 3 }], cqs := [{ id := 0, size := 8, ien := false }, { id := 1, size := 8, ien := false }] }, setF CQE_NS_CFG.STATE 0 1, setF CQE_NS_CFG.ATT 0 3, setF CQE_NS_ROWS.UNITS 0 160, setF MPC_KEY_STAT.STATE 0 2]).run .reset, 0, 1, { (default : Sqe) with nsid := 1, cid := 7, d10 := 5, d12 := 1 }, 0, by decide +kernel⟩,
    ⟨(all [setF HIF_PORT_STAT.LINK 0 2, setF PTM_BOOT_STAT.FETCH_EN 0 1, setF PTM_MODE_STAT.MODE 0 1, setPort 0 fun p => { p with en := true, rdy := true, sqs := [{ id := 0, size := 8, cq := 0, tail := 0 }, { id := 1, size := 8, cq := 1, tail := 3 }], cqs := [{ id := 0, size := 8, ien := false }, { id := 1, size := 8, ien := false }] }, setF CQE_NS_CFG.STATE 0 1, setF CQE_NS_CFG.ATT 0 3, setF CQE_NS_ROWS.UNITS 0 160, setF MPC_KEY_STAT.STATE 0 2]).run .reset, 0, 1, { (default : Sqe) with nsid := 1, cid := 7, d10 := 5, d12 := 1 }, 0, by decide +kernel⟩,
    ⟨(all [setF HIF_PORT_STAT.LINK 0 2, setF PTM_BOOT_STAT.FETCH_EN 0 1, setF PTM_MODE_STAT.MODE 0 1, setPort 0 fun p => { p with en := true, rdy := true, sqs := [{ id := 0, size := 8, cq := 0, tail := 0 }, { id := 1, size := 8, cq := 1, tail := 3 }], cqs := [{ id := 0, size := 8, ien := false }, { id := 1, size := 8, ien := false }] }, setF CQE_NS_CFG.STATE 0 1, setF CQE_NS_CFG.ATT 0 3, setF CQE_NS_ROWS.UNITS 0 160, setF MPC_KEY_STAT.STATE 0 2]).run .reset, 0, 1, { (default : Sqe) with nsid := 1, cid := 7, d10 := 5, d12 := 1 }, 0, by decide +kernel⟩,
    ⟨(all [setF HIF_PORT_STAT.LINK 0 2, setF PTM_BOOT_STAT.FETCH_EN 0 1, setF PTM_MODE_STAT.MODE 0 1, setPort 0 fun p => { p with en := true, rdy := true, sqs := [{ id := 0, size := 8, cq := 0, tail := 0 }, { id := 1, size := 8, cq := 1, tail := 3 }], cqs := [{ id := 0, size := 8, ien := false }, { id := 1, size := 8, ien := false }] }, setF CQE_NS_CFG.STATE 0 1, setF CQE_NS_CFG.ATT 0 3, setF CQE_NS_ROWS.UNITS 0 160, setF MPC_KEY_STAT.STATE 0 2, setF PTM_MODE_STAT.MODE 0 2]).run .reset, 0, 1, { (default : Sqe) with nsid := 1, cid := 7, d10 := 5, d12 := 1 }, 0, by decide +kernel⟩,
    ⟨(all [setF HIF_PORT_STAT.LINK 0 2, setF PTM_BOOT_STAT.FETCH_EN 0 1, setF PTM_MODE_STAT.MODE 0 1, setPort 0 fun p => { p with en := true, rdy := true, sqs := [{ id := 0, size := 8, cq := 0, tail := 0 }, { id := 1, size := 8, cq := 1, tail := 3 }], cqs := [{ id := 0, size := 8, ien := false }, { id := 1, size := 8, ien := false }] }, setF CQE_NS_CFG.STATE 0 1, setF CQE_NS_CFG.ATT 0 3, setF CQE_NS_ROWS.UNITS 0 160, setF MPC_KEY_STAT.STATE 0 2, setF BMU_SLOT_CFG.ENABLE 0 1, setF BMU_SLOT_CFG.COUNT 0 8192, setF BMU_SLOT_BASE.ADDR 0 0x110000, setF CQE_CFG.FP_EN 0 1, setF CQE_NS_CFG.FP 0 1, .upd (.cqe fun x => { x with overlay := [{ ns := 0, lba := 5, seq := 9, slot := 2 }] }), .upd (.cqe fun x => { x with nextSeq := 20 })]).run .reset, 0, 1, { (default : Sqe) with nsid := 1, cid := 7, d10 := 5 }, 0, 2, { id := 1, size := 8, cq := 1, tail := 3 }, { id := 1, size := 8, ien := false }, by decide +kernel⟩,
    ⟨(all [setF HIF_PORT_STAT.LINK 0 2, setF PTM_BOOT_STAT.FETCH_EN 0 1, setF PTM_MODE_STAT.MODE 0 1, setPort 0 fun p => { p with en := true, rdy := true, sqs := [{ id := 0, size := 8, cq := 0, tail := 0 }, { id := 1, size := 8, cq := 1, tail := 3 }], cqs := [{ id := 0, size := 8, ien := false }, { id := 1, size := 8, ien := false }] }, setF CQE_NS_CFG.STATE 0 1, setF CQE_NS_CFG.ATT 0 3, setF CQE_NS_ROWS.UNITS 0 160, setF MPC_KEY_STAT.STATE 0 2]).run .reset, 0, 1, { (default : Sqe) with nsid := 1, cid := 7, d10 := 5, d12 := 511 }, 0, by decide +kernel⟩,
    ⟨(all [setF HIF_PORT_STAT.LINK 0 2, setF PTM_BOOT_STAT.FETCH_EN 0 1, setF PTM_MODE_STAT.MODE 0 1, setPort 0 fun p => { p with en := true, rdy := true, sqs := [{ id := 0, size := 8, cq := 0, tail := 0 }, { id := 1, size := 8, cq := 1, tail := 3 }], cqs := [{ id := 0, size := 8, ien := false }, { id := 1, size := 8, ien := false }] }, setF CQE_NS_CFG.STATE 0 1, setF CQE_NS_CFG.ATT 0 3, setF CQE_NS_ROWS.UNITS 0 160, setF MPC_KEY_STAT.STATE 0 2]).run .reset, 0, 1, { (default : Sqe) with nsid := 1, cid := 7, d10 := 5, d12 := 511 }, 0, by decide +kernel⟩,
    ⟨(all [setF HIF_PORT_STAT.LINK 0 2, setF PTM_BOOT_STAT.FETCH_EN 0 1, setF PTM_MODE_STAT.MODE 0 1, setPort 0 fun p => { p with en := true, rdy := true, sqs := [{ id := 0, size := 8, cq := 0, tail := 0 }, { id := 1, size := 8, cq := 1, tail := 3 }], cqs := [{ id := 0, size := 8, ien := false }, { id := 1, size := 8, ien := false }] }, setF CQE_NS_CFG.STATE 0 1, setF CQE_NS_CFG.ATT 0 3, setF CQE_NS_ROWS.UNITS 0 160, setF MPC_KEY_STAT.STATE 0 2, setF CQE_NS_CFG.ZONED 0 1]).run .reset, 0, 1, { (default : Sqe) with nsid := 1, cid := 7, d12 := 7 }, 0, by decide +kernel⟩,
    ⟨(all [setF HIF_PORT_STAT.LINK 0 2, setF PTM_BOOT_STAT.FETCH_EN 0 1, setF PTM_MODE_STAT.MODE 0 1, setPort 0 fun p => { p with en := true, rdy := true, sqs := [{ id := 0, size := 8, cq := 0, tail := 0 }, { id := 1, size := 8, cq := 1, tail := 3 }], cqs := [{ id := 0, size := 8, ien := false }, { id := 1, size := 8, ien := false }] }, setF CQE_NS_CFG.STATE 0 1, setF CQE_NS_CFG.ATT 0 3, setF CQE_NS_ROWS.UNITS 0 160, setF MPC_KEY_STAT.STATE 0 2, setF CQE_NS_CFG.ZONED 0 1]).run .reset, 0, 1, { (default : Sqe) with nsid := 1, cid := 7, d12 := 7 }, 0, by decide +kernel⟩,
    ⟨(all [setF HIF_PORT_STAT.LINK 0 2, setF PTM_BOOT_STAT.FETCH_EN 0 1, setF PTM_MODE_STAT.MODE 0 1, setPort 0 fun p => { p with en := true, rdy := true, sqs := [{ id := 0, size := 8, cq := 0, tail := 0 }, { id := 1, size := 8, cq := 1, tail := 3 }], cqs := [{ id := 0, size := 8, ien := false }, { id := 1, size := 8, ien := false }] }, setF CQE_NS_CFG.STATE 0 1, setF CQE_NS_CFG.ATT 0 3, setF CQE_NS_ROWS.UNITS 0 160, setF MPC_KEY_STAT.STATE 0 2]).run .reset, 0, 1, { (default : Sqe) with nsid := 1, cid := 7, d12 := 512 }, { id := 1, size := 8, cq := 1, tail := 3 }, { id := 1, size := 8, ien := false }, by decide +kernel⟩,
    ⟨(all [setF HIF_PORT_STAT.LINK 0 2, setF PTM_BOOT_STAT.FETCH_EN 0 1, setF PTM_MODE_STAT.MODE 0 1, setPort 0 fun p => { p with en := true, rdy := true, sqs := [{ id := 0, size := 8, cq := 0, tail := 0 }, { id := 1, size := 8, cq := 1, tail := 3 }], cqs := [{ id := 0, size := 8, ien := false }, { id := 1, size := 8, ien := false }] }, setF CQE_NS_CFG.STATE 0 1, setF CQE_NS_CFG.ATT 0 3, setF CQE_NS_ROWS.UNITS 0 160, setF MPC_KEY_STAT.STATE 0 2]).run .reset, 0, 1, { (default : Sqe) with nsid := 0, cid := 7 }, { id := 1, size := 8, cq := 1, tail := 3 }, { id := 1, size := 8, ien := false }, by decide +kernel⟩,
    ⟨(all [setF HIF_PORT_STAT.LINK 0 2, setF PTM_BOOT_STAT.FETCH_EN 0 1, setF PTM_MODE_STAT.MODE 0 1, setPort 0 fun p => { p with en := true, rdy := true, sqs := [{ id := 0, size := 8, cq := 0, tail := 0 }, { id := 1, size := 8, cq := 1, tail := 3 }], cqs := [{ id := 0, size := 8, ien := false }, { id := 1, size := 8, ien := false }] }, setF CQE_NS_CFG.STATE 0 1, setF CQE_NS_CFG.ATT 0 3, setF CQE_NS_ROWS.UNITS 0 160, setF MPC_KEY_STAT.STATE 0 2]).run .reset, 0, 1, { (default : Sqe) with nsid := 1, cid := 7, d11 := 1 }, { id := 1, size := 8, cq := 1, tail := 3 }, { id := 1, size := 8, ien := false }, by decide +kernel⟩,
    ⟨(all [setF HIF_PORT_STAT.LINK 0 2, setF PTM_BOOT_STAT.FETCH_EN 0 1, setF PTM_MODE_STAT.MODE 0 1, setPort 0 fun p => { p with en := true, rdy := true, sqs := [{ id := 0, size := 8, cq := 0, tail := 0 }, { id := 1, size := 8, cq := 1, tail := 3 }], cqs := [{ id := 0, size := 8, ien := false }, { id := 1, size := 8, ien := false }] }, setF CQE_NS_CFG.STATE 0 1, setF CQE_NS_CFG.ATT 0 3, setF CQE_NS_ROWS.UNITS 0 160, setF MPC_KEY_STAT.STATE 0 2]).run .reset, 0, 1, { (default : Sqe) with nsid := 1, cid := 7 }, 0, by decide +kernel⟩,
    ⟨(all [setF HIF_PORT_STAT.LINK 0 2, setF PTM_BOOT_STAT.FETCH_EN 0 1, setF PTM_MODE_STAT.MODE 0 1, setPort 0 fun p => { p with en := true, rdy := true, sqs := [{ id := 0, size := 8, cq := 0, tail := 0 }, { id := 1, size := 8, cq := 1, tail := 3 }], cqs := [{ id := 0, size := 8, ien := false }, { id := 1, size := 8, ien := false }] }, setF CQE_NS_CFG.STATE 0 1, setF CQE_NS_CFG.ATT 0 3, setF CQE_NS_ROWS.UNITS 0 160, setF MPC_KEY_STAT.STATE 0 2]).run .reset, 0, 1, { (default : Sqe) with nsid := 0xFFFFFFFF, cid := 7 }, by decide +kernel⟩,
    ⟨(all [setF HIF_PORT_STAT.LINK 0 2, setF PTM_BOOT_STAT.FETCH_EN 0 1, setF PTM_MODE_STAT.MODE 0 1, setPort 0 fun p => { p with en := true, rdy := true, sqs := [{ id := 0, size := 8, cq := 0, tail := 0 }, { id := 1, size := 8, cq := 1, tail := 3 }], cqs := [{ id := 0, size := 8, ien := false }, { id := 1, size := 8, ien := false }] }, setF CQE_NS_CFG.STATE 0 1, setF CQE_NS_CFG.ATT 0 3, setF CQE_NS_ROWS.UNITS 0 160, setF MPC_KEY_STAT.STATE 0 2, setF CQE_CFG.FP_EN 0 1, setF CQE_NS_CFG.FP 0 1]).run .reset, 0, 1, { (default : Sqe) with nsid := 1, cid := 7 }, 0, { id := 1, size := 8, cq := 1, tail := 3 }, { id := 1, size := 8, ien := false }, by decide +kernel⟩,
    ⟨(all [setF HIF_PORT_STAT.LINK 0 2, setF PTM_BOOT_STAT.FETCH_EN 0 1, setF PTM_MODE_STAT.MODE 0 1, setPort 0 fun p => { p with en := true, rdy := true, sqs := [{ id := 0, size := 8, cq := 0, tail := 0 }, { id := 1, size := 8, cq := 1, tail := 3 }], cqs := [{ id := 0, size := 8, ien := false }, { id := 1, size := 8, ien := false }] }, setF CQE_NS_CFG.STATE 0 1, setF CQE_NS_CFG.ATT 0 3, setF CQE_NS_ROWS.UNITS 0 160, setF MPC_KEY_STAT.STATE 0 2, setF CQE_NS_CFG.ZONED 0 1]).run .reset, 0, 1, { (default : Sqe) with nsid := 1, cid := 7 }, 0, 0, by decide +kernel⟩,
    ⟨(all [setF HIF_PORT_STAT.LINK 0 2, setF PTM_BOOT_STAT.FETCH_EN 0 1, setF PTM_MODE_STAT.MODE 0 1, setPort 0 fun p => { p with en := true, rdy := true, sqs := [{ id := 0, size := 8, cq := 0, tail := 0 }, { id := 1, size := 8, cq := 1, tail := 3 }], cqs := [{ id := 0, size := 8, ien := false }, { id := 1, size := 8, ien := false }] }, setF CQE_NS_CFG.STATE 0 1, setF CQE_NS_CFG.ATT 0 3, setF CQE_NS_ROWS.UNITS 0 160, setF MPC_KEY_STAT.STATE 0 2, setF CQE_NS_CFG.ZONED 0 1, setZone 0 0 { st := 2, wp := 8 }]).run .reset, 0, 1, { (default : Sqe) with nsid := 1, cid := 7 }, 0, 0, by decide +kernel⟩,
    ⟨(all [setF HIF_PORT_STAT.LINK 0 2, setF PTM_BOOT_STAT.FETCH_EN 0 1, setF PTM_MODE_STAT.MODE 0 1, setPort 0 fun p => { p with en := true, rdy := true, sqs := [{ id := 0, size := 8, cq := 0, tail := 0 }, { id := 1, size := 8, cq := 1, tail := 3 }], cqs := [{ id := 0, size := 8, ien := false }, { id := 1, size := 8, ien := false }] }, setF CQE_NS_CFG.STATE 0 1, setF CQE_NS_CFG.ATT 0 3, setF CQE_NS_ROWS.UNITS 0 160, setF MPC_KEY_STAT.STATE 0 2, setF CQE_NS_CFG.ZONED 0 1]).run .reset, 0, 1, { (default : Sqe) with nsid := 1, cid := 7 }, 0, 0, by decide +kernel⟩,
    ⟨(all [setF HIF_PORT_STAT.LINK 0 2, setF PTM_BOOT_STAT.FETCH_EN 0 1, setF PTM_MODE_STAT.MODE 0 1, setPort 0 fun p => { p with en := true, rdy := true, sqs := [{ id := 0, size := 8, cq := 0, tail := 0 }, { id := 1, size := 8, cq := 1, tail := 3 }], cqs := [{ id := 0, size := 8, ien := false }, { id := 1, size := 8, ien := false }] }, setF CQE_NS_CFG.STATE 0 1, setF CQE_NS_CFG.ATT 0 3, setF CQE_NS_ROWS.UNITS 0 160, setF MPC_KEY_STAT.STATE 0 2, setF CQE_NS_CFG.ZONED 0 1, setZone 0 0 { st := 14, wp := 8 }]).run .reset, 0, 1, { (default : Sqe) with nsid := 1, cid := 7 }, 0, 0, by decide +kernel⟩,
    ⟨(all [setF HIF_PORT_STAT.LINK 0 2, setF PTM_BOOT_STAT.FETCH_EN 0 1, setF PTM_MODE_STAT.MODE 0 1, setPort 0 fun p => { p with en := true, rdy := true, sqs := [{ id := 0, size := 8, cq := 0, tail := 0 }, { id := 1, size := 8, cq := 1, tail := 3 }], cqs := [{ id := 0, size := 8, ien := false }, { id := 1, size := 8, ien := false }] }, setF CQE_NS_CFG.STATE 0 1, setF CQE_NS_CFG.ATT 0 3, setF CQE_NS_ROWS.UNITS 0 160, setF MPC_KEY_STAT.STATE 0 2, setF CQE_NS_CFG.ZONED 0 1, setZone 0 0 { st := 13, wp := 8 }]).run .reset, 0, 1, { (default : Sqe) with nsid := 1, cid := 7 }, 0, 0, by decide +kernel⟩,
    ⟨(all [setF HIF_PORT_STAT.LINK 0 2, setF PTM_BOOT_STAT.FETCH_EN 0 1, setF PTM_MODE_STAT.MODE 0 1, setPort 0 fun p => { p with en := true, rdy := true, sqs := [{ id := 0, size := 8, cq := 0, tail := 0 }, { id := 1, size := 8, cq := 1, tail := 3 }], cqs := [{ id := 0, size := 8, ien := false }, { id := 1, size := 8, ien := false }] }, setF CQE_NS_CFG.STATE 0 1, setF CQE_NS_CFG.ATT 0 3, setF CQE_NS_ROWS.UNITS 0 160, setF MPC_KEY_STAT.STATE 0 2, setF CQE_NS_CFG.ZONED 0 1]).run .reset, 0, 1, { (default : Sqe) with nsid := 1, cid := 7 }, 0, 0, by decide +kernel⟩,
    ⟨(all [setF HIF_PORT_STAT.LINK 0 2, setF PTM_BOOT_STAT.FETCH_EN 0 1, setF PTM_MODE_STAT.MODE 0 1, setPort 0 fun p => { p with en := true, rdy := true, sqs := [{ id := 0, size := 8, cq := 0, tail := 0 }, { id := 1, size := 8, cq := 1, tail := 3 }], cqs := [{ id := 0, size := 8, ien := false }, { id := 1, size := 8, ien := false }] }, setF CQE_NS_CFG.STATE 0 1, setF CQE_NS_CFG.ATT 0 3, setF CQE_NS_ROWS.UNITS 0 160, setF MPC_KEY_STAT.STATE 0 2, setF CQE_NS_CFG.ZONED 0 1, setZone 0 0 { st := 2, wp := 8 }]).run .reset, 0, 1, { (default : Sqe) with nsid := 1, cid := 7 }, 0, 0, by decide +kernel⟩,
    ⟨(all [setF HIF_PORT_STAT.LINK 0 2, setF PTM_BOOT_STAT.FETCH_EN 0 1, setF PTM_MODE_STAT.MODE 0 1, setPort 0 fun p => { p with en := true, rdy := true, sqs := [{ id := 0, size := 8, cq := 0, tail := 0 }, { id := 1, size := 8, cq := 1, tail := 3 }], cqs := [{ id := 0, size := 8, ien := false }, { id := 1, size := 8, ien := false }] }, setF CQE_NS_CFG.STATE 0 1, setF CQE_NS_CFG.ATT 0 3, setF CQE_NS_ROWS.UNITS 0 160, setF MPC_KEY_STAT.STATE 0 2, setF CQE_NS_CFG.ZONED 0 1]).run .reset, 0, 1, { (default : Sqe) with nsid := 1, cid := 7 }, 0, 0, by decide +kernel⟩,
    ⟨(all [setF HIF_PORT_STAT.LINK 0 2, setF PTM_BOOT_STAT.FETCH_EN 0 1, setF PTM_MODE_STAT.MODE 0 1, setPort 0 fun p => { p with en := true, rdy := true, sqs := [{ id := 0, size := 8, cq := 0, tail := 0 }, { id := 1, size := 8, cq := 1, tail := 3 }], cqs := [{ id := 0, size := 8, ien := false }, { id := 1, size := 8, ien := false }] }, setF CQE_NS_CFG.STATE 0 1, setF CQE_NS_CFG.ATT 0 3, setF CQE_NS_ROWS.UNITS 0 160, setF MPC_KEY_STAT.STATE 0 2, setF CQE_NS_CFG.ZONED 0 1, setZone 0 0 { st := 14, wp := 8 }]).run .reset, 0, 1, { (default : Sqe) with nsid := 1, cid := 7 }, 0, 0, by decide +kernel⟩,
    ⟨(all [setF HIF_PORT_STAT.LINK 0 2, setF PTM_BOOT_STAT.FETCH_EN 0 1, setF PTM_MODE_STAT.MODE 0 1, setPort 0 fun p => { p with en := true, rdy := true, sqs := [{ id := 0, size := 8, cq := 0, tail := 0 }, { id := 1, size := 8, cq := 1, tail := 3 }], cqs := [{ id := 0, size := 8, ien := false }, { id := 1, size := 8, ien := false }] }, setF CQE_NS_CFG.STATE 0 1, setF CQE_NS_CFG.ATT 0 3, setF CQE_NS_ROWS.UNITS 0 160, setF MPC_KEY_STAT.STATE 0 2, setF CQE_NS_CFG.ZONED 0 1, setZone 0 0 { st := 13, wp := 8 }]).run .reset, 0, 1, { (default : Sqe) with nsid := 1, cid := 7 }, 0, 0, by decide +kernel⟩,
    ⟨(all [setF HIF_PORT_STAT.LINK 0 2, setF PTM_BOOT_STAT.FETCH_EN 0 1, setF PTM_MODE_STAT.MODE 0 1, setPort 0 fun p => { p with en := true, rdy := true, sqs := [{ id := 0, size := 8, cq := 0, tail := 0 }, { id := 1, size := 8, cq := 1, tail := 3 }], cqs := [{ id := 0, size := 8, ien := false }, { id := 1, size := 8, ien := false }] }, setF CQE_NS_CFG.STATE 0 1, setF CQE_NS_CFG.ATT 0 3, setF CQE_NS_ROWS.UNITS 0 160, setF MPC_KEY_STAT.STATE 0 2, setF CQE_NS_CFG.ZONED 0 1]).run .reset, 0, 1, { (default : Sqe) with nsid := 1, cid := 7 }, 0, by decide +kernel⟩⟩

theorem witness_SasCommands :
    (∃ (s : State) (f : SasFrom) (_cdb : Cdb), (s.tagFree = true) ∧ (s.sasFetch f.q f.lun f.ordered = true) ∧ (s.cqe.cmds.countP (fun d => d.port == f.q.val &&
      d.nexus == f.nexus.toNat) < 1024)) ∧
    (∃ (s : State) (f : SasFrom) (_cdb : Cdb), (s.tagFree = true) ∧ (s.sasFetch f.q f.lun f.ordered = true) ∧ (s.cqe.cmds.countP (fun d => d.port == f.q.val &&
      d.nexus == f.nexus.toNat) < 1024)) ∧
    (∃ (s : State) (f : SasFrom) (_cdb : Cdb), (s.tagFree = true) ∧ (s.sasFetch f.q f.lun f.ordered = true) ∧ (s.cqe.cmds.countP (fun d => d.port == f.q.val &&
      d.nexus == f.nexus.toNat) < 1024)) ∧
    (∃ (s : State) (f : SasFrom) (_cdb : Cdb), (s.tagFree = true) ∧ (s.sasFetch f.q f.lun f.ordered = true) ∧ (s.cqe.cmds.countP (fun d => d.port == f.q.val &&
      d.nexus == f.nexus.toNat) < 1024)) ∧
    (∃ (s : State) (f : SasFrom) (_cdb : Cdb), (s.tagFree = true) ∧ (s.sasFetch f.q f.lun f.ordered = true) ∧ (s.cqe.cmds.countP (fun d => d.port == f.q.val &&
      d.nexus == f.nexus.toNat) < 1024)) ∧
    (∃ (s : State) (f : SasFrom) (_cdb : Cdb), (s.tagFree = true) ∧ (s.sasFetch f.q f.lun f.ordered = true) ∧ (s.cqe.cmds.countP (fun d => d.port == f.q.val &&
      d.nexus == f.nexus.toNat) < 1024)) ∧
    (∃ (s : State) (f : SasFrom) (_cdb : Cdb), (s.tagFree = true) ∧ (s.sasFetch f.q f.lun f.ordered = true) ∧ (s.cqe.cmds.countP (fun d => d.port == f.q.val &&
      d.nexus == f.nexus.toNat) < 1024)) ∧
    (∃ (s : State) (f : SasFrom) (_cdb : Cdb), (s.tagFree = true) ∧ (s.sasFetch f.q f.lun f.ordered = true) ∧ (s.cqe.cmds.countP (fun d => d.port == f.q.val &&
      d.nexus == f.nexus.toNat) < 1024)) ∧
    (∃ (s : State) (f : SasFrom) (_start : Bool) (_cdb : Cdb), (s.tagFree = true) ∧ (s.sasFetch f.q f.lun f.ordered = true) ∧ (s.cqe.cmds.countP (fun d =>
      d.port == f.q.val && d.nexus == f.nexus.toNat) < 1024)) ∧
    (∃ (s : State) (f : SasFrom) (page : Fin 64) (_bytes : List Byte) (_cdb : Cdb), (s.tagFree = true) ∧ (s.sasFetch f.q f.lun f.ordered = true) ∧
      (s.cqe.cmds.countP (fun d => d.port == f.q.val && d.nexus == f.nexus.toNat) < 1024) ∧ (page = 0x08 ∨ page = 0x0A)) ∧
    (∃ (s : State) (f : SasFrom) (_page : Fin 64) (_bytes : List Byte) (_cdb : Cdb), (s.tagFree = true) ∧ (s.sasFetch f.q f.lun f.ordered = true) ∧
      (s.cqe.cmds.countP (fun d => d.port == f.q.val && d.nexus == f.nexus.toNat) < 1024)) ∧
    (∃ (s : State) (f : SasFrom) (lba : BitVec 64) (n : BitVec 32), (s.tagFree = true) ∧ (s.sasFetch f.q f.lun f.ordered = true) ∧ (s.cqe.cmds.countP (fun d =>
      d.port == f.q.val && d.nexus == f.nexus.toNat) < 1024) ∧ (n.toNat ≠ 0) ∧ (s.nsServes f.lun f.q = true) ∧ (lba.toNat + n.toNat ≤ s.nsLbas f.lun) ∧
      (s.keyState (s.get CQE_NS_CFG.KSLOT f.lun) = 2)) ∧
    (∃ (s : State) (f : SasFrom) (_lba : BitVec 64) (n : BitVec 32), (s.tagFree = true) ∧ (s.sasFetch f.q f.lun f.ordered = true) ∧ (s.cqe.cmds.countP (fun d =>
      d.port == f.q.val && d.nexus == f.nexus.toNat) < 1024) ∧ (n = 0)) ∧
    (∃ (s : State) (f : SasFrom) (_lba : BitVec 64) (n : BitVec 32) (_fua : Bool), (s.tagFree = true) ∧ (s.sasFetch f.q f.lun f.ordered = true) ∧
      (s.cqe.cmds.countP (fun d => d.port == f.q.val && d.nexus == f.nexus.toNat) < 1024) ∧ (n = 0)) ∧
    (∃ (s : State) (f : SasFrom) (lba : BitVec 64) (n : BitVec 32) (_fua : Bool), (s.tagFree = true) ∧ (s.sasFetch f.q f.lun f.ordered = true) ∧
      (s.cqe.cmds.countP (fun d => d.port == f.q.val && d.nexus == f.nexus.toNat) < 1024) ∧ (n.toNat ≠ 0) ∧ (s.nsServes f.lun f.q = true) ∧ (lba.toNat +
      n.toNat ≤ s.nsLbas f.lun) ∧ (s.keyState (s.get CQE_NS_CFG.KSLOT f.lun) = 2)) ∧
    (∃ (s : State) (f : SasFrom), (s.tagFree = true) ∧ (s.sasFetch f.q f.lun f.ordered = true) ∧ (s.cqe.cmds.countP (fun d => d.port == f.q.val && d.nexus ==
      f.nexus.toNat) < 1024) ∧ (s.nsServes f.lun f.q = true)) ∧
    (∃ (s : State) (f : SasFrom) (lba : BitVec 64) (n : BitVec 32), (s.tagFree = true) ∧ (s.sasFetch f.q f.lun f.ordered = true) ∧ (s.cqe.cmds.countP (fun d =>
      d.port == f.q.val && d.nexus == f.nexus.toNat) < 1024) ∧ (n.toNat ≠ 0) ∧ (s.nsServes f.lun f.q = true) ∧ (lba.toNat + n.toNat ≤ s.nsLbas f.lun) ∧
      (s.keyState (s.get CQE_NS_CFG.KSLOT f.lun) = 2) ∧ (∀ k < min n.toNat 700, s.lbaSrc f.lun (lba.toNat + k) s.cqe.nextSeq = .medium) ∧ (n.toNat ≤ 700) ∧
      (s.mode ≠ mIdle ∧ s.mode ≠ mStandby)) ∧
    (∃ (s : State) (f : SasFrom) (lba : BitVec 64) (n : BitVec 32) (_fua : Bool), (s.tagFree = true) ∧ (s.sasFetch f.q f.lun f.ordered = true) ∧
      (s.cqe.cmds.countP (fun d => d.port == f.q.val && d.nexus == f.nexus.toNat) < 1024) ∧ (n.toNat ≠ 0) ∧ (s.nsServes f.lun f.q = true) ∧ (lba.toNat +
      n.toNat ≤ s.nsLbas f.lun) ∧ (s.keyState (s.get CQE_NS_CFG.KSLOT f.lun) = 2) ∧ (s.on CQE_NS_CFG.ZONED f.lun = false)) ∧
    (∃ (s : State) (f : SasFrom), (s.tagFree = true) ∧ (s.sasFetch f.q f.lun f.ordered = true) ∧ (s.cqe.cmds.countP (fun d => d.port == f.q.val && d.nexus ==
      f.nexus.toNat) < 1024) ∧ (s.nsServes f.lun f.q = true) ∧ (s.cqe.overlay = [] ∧ s.cqe.cmds = []) ∧ (s.on CQE_CFG.FP_EN 0 = true ∧ s.on CQE_NS_CFG.FP
      f.lun = true ∧ s.on CQE_NS_CFG.ZONED f.lun = false)) ∧
    (∃ (s : State) (f : SasFrom) (lba : BitVec 64) (_cdb : Cdb) (z : Nat), (s.tagFree = true) ∧ (s.sasFetch f.q f.lun f.ordered = true) ∧ (s.cqe.cmds.countP
      (fun d => d.port == f.q.val && d.nexus == f.nexus.toNat) < 1024) ∧ (s.nsServes f.lun f.q = true) ∧ (s.on CQE_NS_CFG.ZONED f.lun = true) ∧ (lba.toNat
      < s.nsLbas f.lun) ∧ (lba.toNat = z * s.zoneLbas f.lun) ∧ ((s.zone f.lun z).st ∈ [1, 2, 3, 4]) ∧ (s.zoneRoom f.lun (s.zone f.lun z).st = none)) ∧
    (∃ (s : State) (f : SasFrom) (lba : BitVec 64) (_cdb : Cdb) (z : Nat), (s.tagFree = true) ∧ (s.sasFetch f.q f.lun f.ordered = true) ∧ (s.cqe.cmds.countP
      (fun d => d.port == f.q.val && d.nexus == f.nexus.toNat) < 1024) ∧ (s.nsServes f.lun f.q = true) ∧ (s.on CQE_NS_CFG.ZONED f.lun = true) ∧ (lba.toNat
      < s.nsLbas f.lun) ∧ (lba.toNat = z * s.zoneLbas f.lun) ∧ ((s.zone f.lun z).st ∈ [2, 3, 4])) ∧
    (∃ (s : State) (f : SasFrom) (lba : BitVec 64) (_cdb : Cdb) (z : Nat), (s.tagFree = true) ∧ (s.sasFetch f.q f.lun f.ordered = true) ∧ (s.cqe.cmds.countP
      (fun d => d.port == f.q.val && d.nexus == f.nexus.toNat) < 1024) ∧ (s.nsServes f.lun f.q = true) ∧ (s.on CQE_NS_CFG.ZONED f.lun = true) ∧ (lba.toNat
      < s.nsLbas f.lun) ∧ (lba.toNat = z * s.zoneLbas f.lun) ∧ ((s.zone f.lun z).st ∈ [1, 2, 3, 4, 14])) ∧
    (∃ (s : State) (f : SasFrom) (lba : BitVec 64) (_cdb : Cdb) (z : Nat), (s.tagFree = true) ∧ (s.sasFetch f.q f.lun f.ordered = true) ∧ (s.cqe.cmds.countP
      (fun d => d.port == f.q.val && d.nexus == f.nexus.toNat) < 1024) ∧ (s.nsServes f.lun f.q = true) ∧ (s.on CQE_NS_CFG.ZONED f.lun = true) ∧ (lba.toNat
      < s.nsLbas f.lun) ∧ (lba.toNat = z * s.zoneLbas f.lun) ∧ ((s.zone f.lun z).st ∈ [1, 2, 3, 4, 14])) ∧
    (∃ (s : State) (f : SasFrom) (_lba : BitVec 64) (_cdb : Cdb), (s.tagFree = true) ∧ (s.sasFetch f.q f.lun f.ordered = true) ∧ (s.cqe.cmds.countP (fun d =>
      d.port == f.q.val && d.nexus == f.nexus.toNat) < 1024) ∧ (s.nsServes f.lun f.q = true) ∧ (s.on CQE_NS_CFG.ZONED f.lun = true)) ∧
    (∃ (s : State) (f : SasFrom) (_lba : BitVec 64) (_cdb : Cdb), (s.tagFree = true) ∧ (s.sasFetch f.q f.lun f.ordered = true) ∧ (s.cqe.cmds.countP (fun d =>
      d.port == f.q.val && d.nexus == f.nexus.toNat) < 1024) ∧ (s.nsServes f.lun f.q = true) ∧ (s.on CQE_NS_CFG.ZONED f.lun = true)) ∧
    (∃ (s : State) (f : SasFrom) (_lba : BitVec 64) (_cdb : Cdb), (s.tagFree = true) ∧ (s.sasFetch f.q f.lun f.ordered = true) ∧ (s.cqe.cmds.countP (fun d =>
      d.port == f.q.val && d.nexus == f.nexus.toNat) < 1024) ∧ (s.nsServes f.lun f.q = true) ∧ (s.on CQE_NS_CFG.ZONED f.lun = true)) ∧
    (∃ (s : State) (f : SasFrom) (lba : BitVec 64) (_cdb : Cdb) (z : Nat), (s.tagFree = true) ∧ (s.sasFetch f.q f.lun f.ordered = true) ∧ (s.cqe.cmds.countP
      (fun d => d.port == f.q.val && d.nexus == f.nexus.toNat) < 1024) ∧ (s.nsServes f.lun f.q = true) ∧ (s.on CQE_NS_CFG.ZONED f.lun = true) ∧ (lba.toNat
      < s.nsLbas f.lun) ∧ (lba.toNat = z * s.zoneLbas f.lun) ∧ ((s.zone f.lun z).st ∈ [1, 2, 3, 4]) ∧ (s.zoneRoom f.lun (s.zone f.lun z).st = none) ∧
      (s.cqe.overlay = [] ∧ s.cqe.cmds = [])) ∧
    (∃ (s : State) (f : SasFrom) (lba : BitVec 64) (_cdb : Cdb) (z : Nat), (s.tagFree = true) ∧ (s.sasFetch f.q f.lun f.ordered = true) ∧ (s.cqe.cmds.countP
      (fun d => d.port == f.q.val && d.nexus == f.nexus.toNat) < 1024) ∧ (s.nsServes f.lun f.q = true) ∧ (s.on CQE_NS_CFG.ZONED f.lun = true) ∧ (lba.toNat
      < s.nsLbas f.lun) ∧ (lba.toNat = z * s.zoneLbas f.lun) ∧ ((s.zone f.lun z).st ∈ [2, 3, 4]) ∧ (s.cqe.overlay = [] ∧ s.cqe.cmds = [])) ∧
    (∃ (s : State) (f : SasFrom) (lba : BitVec 64) (_cdb : Cdb) (z : Nat), (s.tagFree = true) ∧ (s.sasFetch f.q f.lun f.ordered = true) ∧ (s.cqe.cmds.countP
      (fun d => d.port == f.q.val && d.nexus == f.nexus.toNat) < 1024) ∧ (s.nsServes f.lun f.q = true) ∧ (s.on CQE_NS_CFG.ZONED f.lun = true) ∧ (lba.toNat
      < s.nsLbas f.lun) ∧ (lba.toNat = z * s.zoneLbas f.lun) ∧ ((s.zone f.lun z).st ∈ [1, 2, 3, 4, 14]) ∧ (s.cqe.overlay = [] ∧ s.cqe.cmds = [])) ∧
    (∃ (s : State) (f : SasFrom) (lba : BitVec 64) (_cdb : Cdb) (z : Nat), (s.tagFree = true) ∧ (s.sasFetch f.q f.lun f.ordered = true) ∧ (s.cqe.cmds.countP
      (fun d => d.port == f.q.val && d.nexus == f.nexus.toNat) < 1024) ∧ (s.nsServes f.lun f.q = true) ∧ (s.on CQE_NS_CFG.ZONED f.lun = true) ∧ (lba.toNat
      < s.nsLbas f.lun) ∧ (lba.toNat = z * s.zoneLbas f.lun) ∧ ((s.zone f.lun z).st ∈ [1, 2, 3, 4, 14]) ∧ (s.cqe.overlay = [] ∧ s.cqe.cmds = [])) ∧
    (∃ (s : State) (f : SasFrom) (lba : BitVec 64) (_cdb : Cdb), (s.tagFree = true) ∧ (s.sasFetch f.q f.lun f.ordered = true) ∧ (s.cqe.cmds.countP (fun d =>
      d.port == f.q.val && d.nexus == f.nexus.toNat) < 1024) ∧ (s.nsServes f.lun f.q = true) ∧ (s.on CQE_NS_CFG.ZONED f.lun = true) ∧ (lba.toNat < s.nsLbas
      f.lun)) ∧
    (∃ (s : State) (f : SasFrom) (_cdb : Cdb), (s.isSas = true) ∧ (s.portUp f.q = true) ∧ (1024 ≤ s.cqe.cmds.countP fun d => d.port == f.q.val && d.nexus ==
      f.nexus.toNat)) ∧
    (∃ (s : State) (q : Fin 2) (_nexus _tag : BitVec 16), (s.isSas = true) ∧ (s.portUp q = true)) ∧
    (∃ (s : State) (q : Fin 2) (nexus tag : BitVec 16) (d : Cmd), (s.isSas = true) ∧ (s.portUp q = true) ∧ ((s.cqe.cmds.find? fun c => c.port == q.val &&
      c.nexus == nexus.toNat && c.cid == tag.toNat) = some d) ∧ (d.catchable false = true)) ∧
    (∃ (s : State) (q : Fin 2) (nexus tag : BitVec 16) (d : Cmd), (s.isSas = true) ∧ (s.portUp q = true) ∧ (s.cqe.cmds = [d]) ∧ (d.writes = true ∧ d.arrived =
      false ∧ d.silent = false ∧ d.adm = false ∧ d.port = q.val ∧ d.nexus = nexus.toNat ∧ d.cid = tag.toNat)) ∧
    (∃ (s : State) (q : Fin 2) (_nexus _tag : BitVec 16) (_lun : Fin 128), (s.isSas = true) ∧ (s.portUp q = true)) ∧
    (∃ (s : State) (q : Fin 2) (_nexus _tag : BitVec 16), (s.isSas = true) ∧ (s.portUp q = true)) ∧
    (∃ (s : State) (q : Fin 2) (_nexus _tag : BitVec 16), (s.isSas = true) ∧ (s.portUp q = true)) :=
  ⟨⟨(all [setF HIF_PORT_STAT.LINK 0 2, setF PTM_BOOT_STAT.FETCH_EN 0 1, setF PTM_MODE_STAT.MODE 0 1, setF HIF_CFG.PROTO 0 2]).run .reset, { (default : SasFrom) with nexus := 5, tag := 9 }, 0x12, by decide +kernel⟩,
    ⟨(all [setF HIF_PORT_STAT.LINK 0 2, setF PTM_BOOT_STAT.FETCH_EN 0 1, setF PTM_MODE_STAT.MODE 0 1, setF HIF_CFG.PROTO 0 2]).run .reset, { (default : SasFrom) with nexus := 5, tag := 9 }, 0x12, by decide +kernel⟩,
    ⟨(all [setF HIF_PORT_STAT.LINK 0 2, setF PTM_BOOT_STAT.FETCH_EN 0 1, setF PTM_MODE_STAT.MODE 0 1, setF HIF_CFG.PROTO 0 2]).run .reset, { (default : SasFrom) with nexus := 5, tag := 9 }, 0x12, by decide +kernel⟩,
    ⟨(all [setF HIF_PORT_STAT.LINK 0 2, setF PTM_BOOT_STAT.FETCH_EN 0 1, setF PTM_MODE_STAT.MODE 0 1, setF HIF_CFG.PROTO 0 2]).run .reset, { (default : SasFrom) with nexus := 5, tag := 9 }, 0x12, by decide +kernel⟩,
    ⟨(all [setF HIF_PORT_STAT.LINK 0 2, setF PTM_BOOT_STAT.FETCH_EN 0 1, setF PTM_MODE_STAT.MODE 0 1, setF HIF_CFG.PROTO 0 2]).run .reset, { (default : SasFrom) with nexus := 5, tag := 9 }, 0x12, by decide +kernel⟩,
    ⟨(all [setF HIF_PORT_STAT.LINK 0 2, setF PTM_BOOT_STAT.FETCH_EN 0 1, setF PTM_MODE_STAT.MODE 0 1, setF HIF_CFG.PROTO 0 2]).run .reset, { (default : SasFrom) with nexus := 5, tag := 9 }, 0x12, by decide +kernel⟩,
    ⟨(all [setF HIF_PORT_STAT.LINK 0 2, setF PTM_BOOT_STAT.FETCH_EN 0 1, setF PTM_MODE_STAT.MODE 0 1, setF HIF_CFG.PROTO 0 2]).run .reset, { (default : SasFrom) with nexus := 5, tag := 9 }, 0x12, by decide +kernel⟩,
    ⟨(all [setF HIF_PORT_STAT.LINK 0 2, setF PTM_BOOT_STAT.FETCH_EN 0 1, setF PTM_MODE_STAT.MODE 0 1, setF HIF_CFG.PROTO 0 2]).run .reset, { (default : SasFrom) with nexus := 5, tag := 9 }, 0x12, by decide +kernel⟩,
    ⟨(all [setF HIF_PORT_STAT.LINK 0 2, setF PTM_BOOT_STAT.FETCH_EN 0 1, setF PTM_MODE_STAT.MODE 0 1, setF HIF_CFG.PROTO 0 2]).run .reset, { (default : SasFrom) with nexus := 5, tag := 9 }, true, 0x12, by decide +kernel⟩,
    ⟨(all [setF HIF_PORT_STAT.LINK 0 2, setF PTM_BOOT_STAT.FETCH_EN 0 1, setF PTM_MODE_STAT.MODE 0 1, setF HIF_CFG.PROTO 0 2]).run .reset, { (default : SasFrom) with nexus := 5, tag := 9 }, 8, [1, 2], 0x12, by decide +kernel⟩,
    ⟨(all [setF HIF_PORT_STAT.LINK 0 2, setF PTM_BOOT_STAT.FETCH_EN 0 1, setF PTM_MODE_STAT.MODE 0 1, setF HIF_CFG.PROTO 0 2]).run .reset, { (default : SasFrom) with nexus := 5, tag := 9 }, 9, [1, 2], 0x12, by decide +kernel⟩,
    ⟨(all [setF HIF_PORT_STAT.LINK 0 2, setF PTM_BOOT_STAT.FETCH_EN 0 1, setF PTM_MODE_STAT.MODE 0 1, setF HIF_CFG.PROTO 0 2, setF CQE_NS_CFG.STATE 0 1, setF CQE_NS_CFG.ATT 0 3, setF CQE_NS_ROWS.UNITS 0 160, setF MPC_KEY_STAT.STATE 0 2]).run .reset, { (default : SasFrom) with nexus := 5, tag := 9 }, 5, 2, by decide +kernel⟩,
    ⟨(all [setF HIF_PORT_STAT.LINK 0 2, setF PTM_BOOT_STAT.FETCH_EN 0 1, setF PTM_MODE_STAT.MODE 0 1, setF HIF_CFG.PROTO 0 2, setF CQE_NS_CFG.STATE 0 1, setF CQE_NS_CFG.ATT 0 3, setF CQE_NS_ROWS.UNITS 0 160, setF MPC_KEY_STAT.STATE 0 2]).run .reset, { (default : SasFrom) with nexus := 5, tag := 9 }, 5, 0, by decide +kernel⟩,
    ⟨(all [setF HIF_PORT_STAT.LINK 0 2, setF PTM_BOOT_STAT.FETCH_EN 0 1, setF PTM_MODE_STAT.MODE 0 1, setF HIF_CFG.PROTO 0 2, setF CQE_NS_CFG.STATE 0 1, setF CQE_NS_CFG.ATT 0 3, setF CQE_NS_ROWS.UNITS 0 160, setF MPC_KEY_STAT.STATE 0 2]).run .reset, { (default : SasFrom) with nexus := 5, tag := 9 }, 5, 0, true, by decide +kernel⟩,
    ⟨(all [setF HIF_PORT_STAT.LINK 0 2, setF PTM_BOOT_STAT.FETCH_EN 0 1, setF PTM_MODE_STAT.MODE 0 1, setF HIF_CFG.PROTO 0 2, setF CQE_NS_CFG.STATE 0 1, setF CQE_NS_CFG.ATT 0 3, setF CQE_NS_ROWS.UNITS 0 160, setF MPC_KEY_STAT.STATE 0 2]).run .reset, { (default : SasFrom) with nexus := 5, tag := 9 }, 5, 600, true, by decide +kernel⟩,
    ⟨(all [setF HIF_PORT_STAT.LINK 0 2, setF PTM_BOOT_STAT.FETCH_EN 0 1, setF PTM_MODE_STAT.MODE 0 1, setF HIF_CFG.PROTO 0 2, setF CQE_NS_CFG.STATE 0 1, setF CQE_NS_CFG.ATT 0 3, setF CQE_NS_ROWS.UNITS 0 160, setF MPC_KEY_STAT.STATE 0 2]).run .reset, { (default : SasFrom) with nexus := 5, tag := 9 }, by decide +kernel⟩,
    ⟨(all [setF HIF_PORT_STAT.LINK 0 2, setF PTM_BOOT_STAT.FETCH_EN 0 1, setF PTM_MODE_STAT.MODE 0 1, setF HIF_CFG.PROTO 0 2, setF CQE_NS_CFG.STATE 0 1, setF CQE_NS_CFG.ATT 0 3, setF CQE_NS_ROWS.UNITS 0 160, setF MPC_KEY_STAT.STATE 0 2]).run .reset, { (default : SasFrom) with nexus := 5, tag := 9 }, 5, 2, by decide +kernel⟩,
    ⟨(all [setF HIF_PORT_STAT.LINK 0 2, setF PTM_BOOT_STAT.FETCH_EN 0 1, setF PTM_MODE_STAT.MODE 0 1, setF HIF_CFG.PROTO 0 2, setF CQE_NS_CFG.STATE 0 1, setF CQE_NS_CFG.ATT 0 3, setF CQE_NS_ROWS.UNITS 0 160, setF MPC_KEY_STAT.STATE 0 2]).run .reset, { (default : SasFrom) with nexus := 5, tag := 9 }, 5, 600, true, by decide +kernel⟩,
    ⟨(all [setF HIF_PORT_STAT.LINK 0 2, setF PTM_BOOT_STAT.FETCH_EN 0 1, setF PTM_MODE_STAT.MODE 0 1, setF HIF_CFG.PROTO 0 2, setF CQE_NS_CFG.STATE 0 1, setF CQE_NS_CFG.ATT 0 3, setF CQE_NS_ROWS.UNITS 0 160, setF MPC_KEY_STAT.STATE 0 2, setF CQE_CFG.FP_EN 0 1, setF CQE_NS_CFG.FP 0 1]).run .reset, { (default : SasFrom) with nexus := 5, tag := 9 }, by decide +kernel⟩,
    ⟨(all [setF HIF_PORT_STAT.LINK 0 2, setF PTM_BOOT_STAT.FETCH_EN 0 1, setF PTM_MODE_STAT.MODE 0 1, setF HIF_CFG.PROTO 0 2, setF CQE_NS_CFG.STATE 0 1, setF CQE_NS_CFG.ATT 0 3, setF CQE_NS_ROWS.UNITS 0 160, setF MPC_KEY_STAT.STATE 0 2, setF CQE_NS_CFG.ZONED 0 1]).run .reset, { (default : SasFrom) with nexus := 5, tag := 9 }, 0, 0, 0, by decide +kernel⟩,
    ⟨(all [setF HIF_PORT_STAT.LINK 0 2, setF PTM_BOOT_STAT.FETCH_EN 0 1, setF PTM_MODE_STAT.MODE 0 1, setF HIF_CFG.PROTO 0 2, setF CQE_NS_CFG.STATE 0 1, setF CQE_NS_CFG.ATT 0 3, setF CQE_NS_ROWS.UNITS 0 160, setF MPC_KEY_STAT.STATE 0 2, setF CQE_NS_CFG.ZONED 0 1, setZone 0 0 { st := 2, wp := 8 }]).run .reset, { (default : SasFrom) with nexus := 5, tag := 9 }, 0, 0, 0, by decide +kernel⟩,
    ⟨(all [setF HIF_PORT_STAT.LINK 0 2, setF PTM_BOOT_STAT.FETCH_EN 0 1, setF PTM_MODE_STAT.MODE 0 1, setF HIF_CFG.PROTO 0 2, setF CQE_NS_CFG.STATE 0 1, setF CQE_NS_CFG.ATT 0 3, setF CQE_NS_ROWS.UNITS 0 160, setF MPC_KEY_STAT.STATE 0 2, setF CQE_NS_CFG.ZONED 0 1]).run .reset, { (default : SasFrom) with nexus := 5, tag := 9 }, 0, 0, 0, by decide +kernel⟩,
    ⟨(all [setF HIF_PORT_STAT.LINK 0 2, setF PTM_BOOT_STAT.FETCH_EN 0 1, setF PTM_MODE_STAT.MODE 0 1, setF HIF_CFG.PROTO 0 2, setF CQE_NS_CFG.STATE 0 1, setF CQE_NS_CFG.ATT 0 3, setF CQE_NS_ROWS.UNITS 0 160, setF MPC_KEY_STAT.STATE 0 2, setF CQE_NS_CFG.ZONED 0 1, setZone 0 0 { st := 14, wp := 8 }]).run .reset, { (default : SasFrom) with nexus := 5, tag := 9 }, 0, 0, 0, by decide +kernel⟩,
    ⟨(all [setF HIF_PORT_STAT.LINK 0 2, setF PTM_BOOT_STAT.FETCH_EN 0 1, setF PTM_MODE_STAT.MODE 0 1, setF HIF_CFG.PROTO 0 2, setF CQE_NS_CFG.STATE 0 1, setF CQE_NS_CFG.ATT 0 3, setF CQE_NS_ROWS.UNITS 0 160, setF MPC_KEY_STAT.STATE 0 2, setF CQE_NS_CFG.ZONED 0 1, setZone 0 0 { st := 2, wp := 8 }]).run .reset, { (default : SasFrom) with nexus := 5, tag := 9 }, 0, 0, by decide +kernel⟩,
    ⟨(all [setF HIF_PORT_STAT.LINK 0 2, setF PTM_BOOT_STAT.FETCH_EN 0 1, setF PTM_MODE_STAT.MODE 0 1, setF HIF_CFG.PROTO 0 2, setF CQE_NS_CFG.STATE 0 1, setF CQE_NS_CFG.ATT 0 3, setF CQE_NS_ROWS.UNITS 0 160, setF MPC_KEY_STAT.STATE 0 2, setF CQE_NS_CFG.ZONED 0 1, setZone 0 0 { st := 3, wp := 8 }]).run .reset, { (default : SasFrom) with nexus := 5, tag := 9 }, 0, 0, by decide +kernel⟩,
    ⟨(all [setF HIF_PORT_STAT.LINK 0 2, setF PTM_BOOT_STAT.FETCH_EN 0 1, setF PTM_MODE_STAT.MODE 0 1, setF HIF_CFG.PROTO 0 2, setF CQE_NS_CFG.STATE 0 1, setF CQE_NS_CFG.ATT 0 3, setF CQE_NS_ROWS.UNITS 0 160, setF MPC_KEY_STAT.STATE 0 2, setF CQE_NS_CFG.ZONED 0 1, setZone 0 0 { st := 14, wp := 8 }]).run .reset, { (default : SasFrom) with nexus := 5, tag := 9 }, 0, 0, by decide +kernel⟩,
    ⟨(all [setF HIF_PORT_STAT.LINK 0 2, setF PTM_BOOT_STAT.FETCH_EN 0 1, setF PTM_MODE_STAT.MODE 0 1, setF HIF_CFG.PROTO 0 2, setF CQE_NS_CFG.STATE 0 1, setF CQE_NS_CFG.ATT 0 3, setF CQE_NS_ROWS.UNITS 0 160, setF MPC_KEY_STAT.STATE 0 2, setF CQE_NS_CFG.ZONED 0 1]).run .reset, { (default : SasFrom) with nexus := 5, tag := 9 }, 0, 0, 0, by decide +kernel⟩,
    ⟨(all [setF HIF_PORT_STAT.LINK 0 2, setF PTM_BOOT_STAT.FETCH_EN 0 1, setF PTM_MODE_STAT.MODE 0 1, setF HIF_CFG.PROTO 0 2, setF CQE_NS_CFG.STATE 0 1, setF CQE_NS_CFG.ATT 0 3, setF CQE_NS_ROWS.UNITS 0 160, setF MPC_KEY_STAT.STATE 0 2, setF CQE_NS_CFG.ZONED 0 1, setZone 0 0 { st := 2, wp := 8 }]).run .reset, { (default : SasFrom) with nexus := 5, tag := 9 }, 0, 0, 0, by decide +kernel⟩,
    ⟨(all [setF HIF_PORT_STAT.LINK 0 2, setF PTM_BOOT_STAT.FETCH_EN 0 1, setF PTM_MODE_STAT.MODE 0 1, setF HIF_CFG.PROTO 0 2, setF CQE_NS_CFG.STATE 0 1, setF CQE_NS_CFG.ATT 0 3, setF CQE_NS_ROWS.UNITS 0 160, setF MPC_KEY_STAT.STATE 0 2, setF CQE_NS_CFG.ZONED 0 1]).run .reset, { (default : SasFrom) with nexus := 5, tag := 9 }, 0, 0, 0, by decide +kernel⟩,
    ⟨(all [setF HIF_PORT_STAT.LINK 0 2, setF PTM_BOOT_STAT.FETCH_EN 0 1, setF PTM_MODE_STAT.MODE 0 1, setF HIF_CFG.PROTO 0 2, setF CQE_NS_CFG.STATE 0 1, setF CQE_NS_CFG.ATT 0 3, setF CQE_NS_ROWS.UNITS 0 160, setF MPC_KEY_STAT.STATE 0 2, setF CQE_NS_CFG.ZONED 0 1, setZone 0 0 { st := 14, wp := 8 }]).run .reset, { (default : SasFrom) with nexus := 5, tag := 9 }, 0, 0, 0, by decide +kernel⟩,
    ⟨(all [setF HIF_PORT_STAT.LINK 0 2, setF PTM_BOOT_STAT.FETCH_EN 0 1, setF PTM_MODE_STAT.MODE 0 1, setF HIF_CFG.PROTO 0 2, setF CQE_NS_CFG.STATE 0 1, setF CQE_NS_CFG.ATT 0 3, setF CQE_NS_ROWS.UNITS 0 160, setF MPC_KEY_STAT.STATE 0 2, setF CQE_NS_CFG.ZONED 0 1]).run .reset, { (default : SasFrom) with nexus := 5, tag := 9 }, 5, 7, by decide +kernel⟩,
    ⟨(all [setF HIF_PORT_STAT.LINK 0 2, setF PTM_BOOT_STAT.FETCH_EN 0 1, setF PTM_MODE_STAT.MODE 0 1, setF HIF_CFG.PROTO 0 2, .upd (.cqe fun x => { x with cmds := List.replicate 1024 { ctag := 3, port := 0, sqid := 1, cid := 7, kind := 1, ns := some 0, nsid := 1, lba := 5, n := 1, seq := 9, time := 0, nexus := 5 } })]).run .reset, { (default : SasFrom) with nexus := 5, tag := 9 }, 0, by decide +kernel⟩,
    ⟨(all [setF HIF_PORT_STAT.LINK 0 2, setF PTM_BOOT_STAT.FETCH_EN 0 1, setF PTM_MODE_STAT.MODE 0 1, setF HIF_CFG.PROTO 0 2, .upd (.cqe fun x => { x with cmds := [{ ctag := 3, port := 0, sqid := 1, cid := 7, kind := 1, ns := some 0, nsid := 1, lba := 5, n := 1, seq := 9, time := 0, nexus := 5 }], nextSeq := 20 })]).run .reset, 0, 5, 7, by decide +kernel⟩,
    ⟨(all [setF HIF_PORT_STAT.LINK 0 2, setF PTM_BOOT_STAT.FETCH_EN 0 1, setF PTM_MODE_STAT.MODE 0 1, setF HIF_CFG.PROTO 0 2, .upd (.cqe fun x => { x with cmds := [{ ctag := 3, port := 0, sqid := 1, cid := 7, kind := 1, ns := some 0, nsid := 1, lba := 5, n := 1, seq := 9, time := 0, nexus := 5 }], nextSeq := 20 })]).run .reset, 0, 5, 7, { ctag := 3, port := 0, sqid := 1, cid := 7, kind := 1, ns := some 0, nsid := 1, lba := 5, n := 1, seq := 9, time := 0, nexus := 5 }, by decide +kernel⟩,
    ⟨(all [setF HIF_PORT_STAT.LINK 0 2, setF PTM_BOOT_STAT.FETCH_EN 0 1, setF PTM_MODE_STAT.MODE 0 1, setF HIF_CFG.PROTO 0 2, .upd (.cqe fun x => { x with cmds := [{ ctag := 3, port := 0, sqid := 1, cid := 7, kind := 1, ns := some 0, nsid := 1, lba := 5, n := 1, seq := 9, time := 0, nexus := 5 }], nextSeq := 20 })]).run .reset, 0, 5, 7, { ctag := 3, port := 0, sqid := 1, cid := 7, kind := 1, ns := some 0, nsid := 1, lba := 5, n := 1, seq := 9, time := 0, nexus := 5 }, by decide +kernel⟩,
    ⟨(all [setF HIF_PORT_STAT.LINK 0 2, setF PTM_BOOT_STAT.FETCH_EN 0 1, setF PTM_MODE_STAT.MODE 0 1, setF HIF_CFG.PROTO 0 2, .upd (.cqe fun x => { x with cmds := [{ ctag := 3, port := 0, sqid := 1, cid := 7, kind := 1, ns := some 0, nsid := 1, lba := 5, n := 1, seq := 9, time := 0, nexus := 5 }, { ctag := 4, port := 0, sqid := 1, cid := 7, kind := 1, ns := some 0, nsid := 1, lba := 5, n := 1, seq := 9, time := 0, arrived := true }], nextSeq := 20 })]).run .reset, 0, 5, 7, 0, by decide +kernel⟩,
    ⟨(all [setF HIF_PORT_STAT.LINK 0 2, setF PTM_BOOT_STAT.FETCH_EN 0 1, setF PTM_MODE_STAT.MODE 0 1, setF HIF_CFG.PROTO 0 2, .upd (.cqe fun x => { x with cmds := [{ ctag := 3, port := 0, sqid := 1, cid := 7, kind := 1, ns := some 0, nsid := 1, lba := 5, n := 1, seq := 9, time := 0, nexus := 5 }, { ctag := 4, port := 0, sqid := 1, cid := 7, kind := 1, ns := some 0, nsid := 1, lba := 5, n := 1, seq := 9, time := 0, arrived := true, nexus := 5 }], nextSeq := 20 })]).run .reset, 0, 5, 7, by decide +kernel⟩,
    ⟨(all [setF HIF_PORT_STAT.LINK 0 2, setF PTM_BOOT_STAT.FETCH_EN 0 1, setF PTM_MODE_STAT.MODE 0 1, setF HIF_CFG.PROTO 0 2, .upd (.cqe fun x => { x with cmds := [{ ctag := 3, port := 0, sqid := 1, cid := 7, kind := 1, ns := some 0, nsid := 1, lba := 5, n := 1, seq := 9, time := 0, nexus := 5 }], nextSeq := 20 })]).run .reset, 0, 5, 7, by decide +kernel⟩⟩

theorem witness_HeadPaths :
    (∃ (s : State) (a : Fin 4) (_waiting : Option Nat) (x : Pass), (s.sve.pass.find? (fun e => e.1 == a.val) = some (a.val, x))) ∧
    (∃ (s : State) (p : Fin 16) (a : Nat), (p.val ∈ s.rdc.loading) ∧ (a = s.ztabAddr (s.tgt p).head (s.tgt p).zone) ∧ (s.loadFault .rdc a 128 = none) ∧
      (s.ztabOk a = true) ∧ (∀ e ∈ s.rdc.pend ++ s.rdc.early, e.1 ≠ p.val)) ∧
    (∃ (s : State) (p : Fin 16) (a : Nat), (p.val ∈ s.rdc.loading) ∧ (a = s.ztabAddr (s.tgt p).head (s.tgt p).zone) ∧ (s.loadFault .rdc a 128 = none) ∧
      (s.ztabOk a = true)) ∧
    (∃ (s : State) (p : Fin 16) (bad : Bool) (a : Nat), (p.val ∈ s.rdc.loading) ∧ (a = s.ztabAddr (s.tgt p).head (s.tgt p).zone) ∧ (s.loadFault .rdc a 128 =
      none) ∧ (bad = true ∨ s.ztabOk a = false)) ∧
    (∃ (s : State) (w : Fin 8) (a : Nat), ((s.writer w).loading = true) ∧ (a = s.wtabAddr (s.writer w).head (s.writer w).zone) ∧ (s.loadFault .wrc a 64 = none)
      ∧ (s.poisoned a 64 = false) ∧ (s.crcOk a 15 = true) ∧ (nbit (s.memW (a + 32)) 31 = true)) ∧
    (∃ (s : State) (w : Fin 8) (bad : Bool) (a : Nat), ((s.writer w).loading = true) ∧ (a = s.wtabAddr (s.writer w).head (s.writer w).zone) ∧ (s.loadFault .wrc
      a 64 = none) ∧ (bad = true ∨ s.crcOk a 15 = false ∨ nbit (s.memW (a + 32)) 31 = false)) ∧
    (∃ (s : State) (i : Fin 20) (h z a : Nat), (s.sve.rroLoad.find? (fun e => e.1 == i.val) = some (i.val, h, z)) ∧ (a = s.rroAddr h z) ∧ (s.loadFault .sve a 64
      = none) ∧ (s.poisoned a 64 = false) ∧ (s.crcOk a 15 = true) ∧ (nbit (s.memW (a + 32)) 31 = true) ∧ ((Sparse.get {} s.sve.rro i).learned = false)) ∧
    (∃ (s : State) (i : Fin 20) (h z : Nat) (_bad : Bool), (s.sve.rroLoad.find? (fun e => e.1 == i.val) = some (i.val, h, z)) ∧ (s.loadFault .sve (s.rroAddr h
      z) 64 = none)) ∧
    (∃ (s : State) (p : Fin 16), (s.hpPwr p = pwOff ∨ s.hpPwr p = pwServo) ∧ (s.mayReady p = true)) ∧
    (∃ (s : State) (p : Fin 16), (s.hpPwr p = pwOff) ∧ (s.mayServo p = true)) ∧
    (∃ (s : State) (p : Fin 16), (s.manyPaths = true) ∧ (s.inPass p = false) ∧ (pwReady ≤ s.hpPwr p) ∧ (s.get PTM_CAP_STAT.HP_ALLOW 0 < s.readyPaths.length) ∧
      (s.leastUsed p = true)) ∧
    (∃ (s : State) (p : Fin 16), (s.mode ≠ mService) ∧ (s.inPass p = false) ∧ (s.hpPwr p ≠ pwOff) ∧ (s.manyPaths = false ∧ s.keepsServo p = false ∨ s.manyPaths
      = true ∧ s.hpPwr p = pwServo ∧ s.tracksAlone p = false)) ∧
    (∃ (s : State) (p : Fin 16), (s.inPass p = true) ∧ (s.passEnding (p / 4) = false) ∧ (p.val ∈ s.sve.active) ∧ (s.settled p = true) ∧ (pwReady ≤ s.hpPwr p) ∧
      (p.val ∉ s.rdc.loading) ∧ (s.headState (s.tgt p).head ≠ hRetired)) ∧
    (∃ (s : State) (p : Fin 16) (k : Fin 4) (l : Ladder), (s.inPass p = true) ∧ (s.passEnding (p / 4) = false) ∧ (p.val ∈ s.sve.active) ∧ (s.settled p = true) ∧
      (pwReady ≤ s.hpPwr p) ∧ (p.val ∉ s.rdc.loading) ∧ (s.ladder p k = some l) ∧ (l.waits = true) ∧ (s.onRow p l.row = true) ∧ (l.level ≠ 3 ∨ s.l3Made p l
      = true)) ∧
    (∃ (s : State) (p : Fin 16) (_track : Fin 16777216) (_amps0 _amps1 : List Byte) (_a1 _a3 : BitVec 16), (p.val ∈ s.rdc.sector) ∧ (s.on RDC_LANE_STAT.LOST (2
      * p) = false) ∧ (s.on RDC_HP_ADAPT.AGC_FRZ p = true)) ∧
    (∃ (s : State) (p : Fin 16) (_track : Fin 16777216) (_amps0 _amps1 : List Byte) (_a1 _a3 : BitVec 16) (r : Fin 2), (p.val ∈ s.rdc.sector) ∧ (s.on
      RDC_LANE_STAT.LOST (2 * p + r) = false)) ∧
    (∃ (s : State) (p : Fin 16), (s.hpPwr p = pwActive) ∧ (s.get RDC_HEAD_CFG.CREF (s.tgt p).head ≠ 0)) ∧
    (∃ (s : State) (n : Fin 32) (h : Nat), (s.on RDC_LANE_STAT.LOST n = false) ∧ (n.val ∉ s.rdc.losing) ∧ (s.on RDC_LANE_STAT.BIAS_FLT n = true ∨ max 1 (s.get
      RDC_HP_CTL.LOSS_N (n / 2)) ≤ s.get RDC_LANE_STAT.WEAK_CNT n ∧ (s.on RDC_LANE_STAT.LOST (if n.val % 2 = 0 then n.val + 1 else n.val - 1) = true ∨
      s.get RDC_LANE_STAT.WEAK_CNT (if n.val % 2 = 0 then n.val + 1 else n.val - 1) < max 1 (s.get RDC_HP_CTL.LOSS_N (n / 2)))) ∧ (s.headOf (n / 2) = some
      h) ∧ (s.headState h = hDegraded) ∧ (s.get SVE_HEAD_STATE.RDR0_BAD h = 0 ∧ s.get SVE_HEAD_STATE.RDR1_BAD h = 0)) ∧
    (∃ (s : State) (n : Fin 32) (h : Nat), (s.on RDC_LANE_STAT.LOST n = false) ∧ (n.val ∉ s.rdc.losing) ∧ (s.on RDC_LANE_STAT.BIAS_FLT n = true ∨ max 1 (s.get
      RDC_HP_CTL.LOSS_N (n / 2)) ≤ s.get RDC_LANE_STAT.WEAK_CNT n ∧ (s.on RDC_LANE_STAT.LOST (if n.val % 2 = 0 then n.val + 1 else n.val - 1) = true ∨
      s.get RDC_LANE_STAT.WEAK_CNT (if n.val % 2 = 0 then n.val + 1 else n.val - 1) < max 1 (s.get RDC_HP_CTL.LOSS_N (n / 2)))) ∧ (s.headOf (n / 2) = some
      h) ∧ (s.headState h = hInSlot) ∧ (s.get SVE_HEAD_STATE.RDR0_BAD h = 0 ∧ s.get SVE_HEAD_STATE.RDR1_BAD h = 0) ∧ (s.normalService = true)) ∧
    (∃ (s : State) (p : Fin 16) (h : Nat), (p.val ∈ s.rdc.bothReady) ∧ (s.headOf p = some h) ∧ (s.pathUsable p = true) ∧ (s.normalService = true)) ∧
    (∃ (s : State) (p : Fin 16) (h : Nat), (p.val ∈ s.rdc.bothReady) ∧ (s.headOf p = some h) ∧ (s.headState h = hInSlot) ∧ (s.inPass p = false) ∧
      (s.alm.staged.length < stagingSize) ∧ (s.quiet (192 + h))) :=
  ⟨⟨(all [.upd (.sve fun x => { x with pass := [(0, { issuer := 0, track := 0, band := 0, write := true, paths := [0, 1], ending := false, release := [] })], active := [0, 1] }), setWriter 0 fun x => { x with pass := true }, setF RDC_HP_STAT.PWR 0 3]).run .reset, 0, none, { issuer := 0, track := 0, band := 0, write := true, paths := [0, 1], ending := false, release := [] }, by decide +kernel⟩,
    ⟨(all [setF BMU_CFG.CHANNELS 0 2, setF BMU_CFG.SIZE 0 32, .upd (.rdc fun x => { x with loading := [1] }), setF RDC_ZTAB_BASE.ADDR 0 0x110000, memSealed 0x110000000 (List.replicate 24 (0x00010002 : Word) ++ [0x100, 0x100, 7, 8, 9, 10, 0x80000000])]).run .reset, 1, 0x110000000, by decide +kernel⟩,
    ⟨(all [setF BMU_CFG.CHANNELS 0 2, setF BMU_CFG.SIZE 0 32, .upd (.rdc fun x => { x with loading := [1] }), setF RDC_ZTAB_BASE.ADDR 0 0x110000, memSealed 0x110000000 (List.replicate 24 (0x00010002 : Word) ++ [0x100, 0x100, 7, 8, 9, 10, 0x80000000])]).run .reset, 1, 0x110000000, by decide +kernel⟩,
    ⟨(all [setF BMU_CFG.CHANNELS 0 2, setF BMU_CFG.SIZE 0 32, .upd (.rdc fun x => { x with loading := [1] }), setF RDC_ZTAB_BASE.ADDR 0 0x110000]).run .reset, 1, true, 0x110000000, by decide +kernel⟩,
    ⟨(all [setF BMU_CFG.CHANNELS 0 2, setF BMU_CFG.SIZE 0 32, setWriter 2 fun x => { x with pass := true, loading := true }, setF WRC_WTAB_BASE.ADDR 0 0x110000, memSealed 0x110000000 (List.replicate 8 (7 : Word) ++ [0x80000000] ++ List.replicate 6 (0 : Word))]).run .reset, 2, 0x110000000, by decide +kernel⟩,
    ⟨(all [setF BMU_CFG.CHANNELS 0 2, setF BMU_CFG.SIZE 0 32, setWriter 2 fun x => { x with pass := true, loading := true }, setF WRC_WTAB_BASE.ADDR 0 0x110000]).run .reset, 2, true, 0x110000000, by decide +kernel⟩,
    ⟨(all [setF BMU_CFG.CHANNELS 0 2, setF BMU_CFG.SIZE 0 32, .upd (.sve fun x => { x with rroLoad := [(1, 0, 0)] }), setF SVE_RRO_BASE.ADDR 0 0x110000, memSealed 0x110000000 (List.replicate 8 (7 : Word) ++ [0x80000000] ++ List.replicate 6 (0 : Word))]).run .reset, 1, 0, 0, 0x110000000, by decide +kernel⟩,
    ⟨(all [setF BMU_CFG.CHANNELS 0 2, setF BMU_CFG.SIZE 0 32, .upd (.sve fun x => { x with rroLoad := [(19, 27, 0)] }), setF SVE_RRO_BASE.ADDR 0 0x110000]).run .reset, 19, 27, 0, true, by decide +kernel⟩,
    ⟨(all [setF PTM_MODE_STAT.MODE 0 4]).run .reset, 15, by decide +kernel⟩,
    ⟨(all [setF PTM_MODE_STAT.MODE 0 4]).run .reset, 15, by decide +kernel⟩,
    ⟨(all [setF PTM_MODE_STAT.MODE 0 1, setF RDC_HP_STAT.PWR 3 2, setF PTM_CAP_STAT.HP_ALLOW 0 0, .upd (.ptm fun x => { x with ticks := 2 ^ 40 })]).run .reset, 3, by decide +kernel⟩,
    ⟨(all [setF PTM_MODE_STAT.MODE 0 2, setF RDC_HP_STAT.PWR 3 2]).run .reset, 3, by decide +kernel⟩,
    ⟨(all [.upd (.sve fun x => { x with pass := [(0, { issuer := 0, track := 0, band := 0, write := true, paths := [0, 1], ending := false, release := [] })], active := [0, 1] }), setF SVE_SEEK_STAT.STATE 0 0, setF RDC_HP_STAT.PWR 1 2]).run .reset, 1, by decide +kernel⟩,
    ⟨(all [.upd (.sve fun x => { x with pass := [(0, { issuer := 0, track := 0, band := 0, write := true, paths := [0, 1], ending := false, release := [] })], active := [0, 1] }), setF SVE_SEEK_STAT.STATE 0 0, setF RDC_HP_STAT.PWR 1 2, .upd (.rdc fun x => { x with ladders := [(4, { slot := 0, row := 5, j := 2, head := 0, track := 0, p0 := true, order := 0xFFFFFF20, l1Iter := 1, ofs := 0, l6n := 0, captured := false, time := 9, bestTime := 9 })] }), .upd (.sve fun x => { x with tgt := Sparse.put {} x.tgt 1 { (default : PathTgt) with band := 0, target := 0 } })]).run .reset, 1, 0, { slot := 0, row := 5, j := 2, head := 0, track := 0, p0 := true, order := 0xFFFFFF20, l1Iter := 1, ofs := 0, l6n := 0, captured := false, time := 9, bestTime := 9 }, by decide +kernel⟩,
    ⟨(all [setF RDC_HP_ADAPT.AGC_FRZ 1 1, .upd (.rdc fun x => { x with sector := [1] })]).run .reset, 1, 5, [7], [9], 1, 2, by decide +kernel⟩,
    ⟨(all [.upd (.rdc fun x => { x with sector := [1] })]).run .reset, 1, 5, [7], [9], 1, 2, 1, by decide +kernel⟩,
    ⟨(all [setF RDC_HP_STAT.PWR 3 3, setF RDC_HEAD_CFG.CREF 0 9]).run .reset, 3, by decide +kernel⟩,
    ⟨(all [setR .SVE_SLOT_MAP 0 0xBA98, setF SVE_HEAD_STATE.STATE 2 3, setF RDC_LANE_STAT.BIAS_FLT 5 1]).run .reset, 5, 2, by decide +kernel⟩,
    ⟨(all [setF PTM_MODE_STAT.MODE 0 1, setR .SVE_SLOT_MAP 0 0xBA98, setF SVE_HEAD_STATE.STATE 2 2, setF RDC_LANE_STAT.BIAS_FLT 5 1]).run .reset, 5, 2, by decide +kernel⟩,
    ⟨(all [setF PTM_MODE_STAT.MODE 0 1, setR .SVE_SLOT_MAP 0 0xBA98, setF SVE_HEAD_STATE.STATE 2 2, .upd (.rdc fun x => { x with bothReady := [2] })]).run .reset, 2, 2, by decide +kernel⟩,
    ⟨(all [setR .SVE_SLOT_MAP 0 0xBA98, setF SVE_HEAD_STATE.STATE 2 2, setF FCU_SRC_CFG.N 194 5, .upd (.rdc fun x => { x with bothReady := [2] })]).run .reset, 2, 2, by unfold State.quiet; decide +kernel⟩⟩

theorem witness_ReadRegisters :
    (∃ (_s : State) (q : Fin 2) (v : Word), (orderValid q v.toNat = true)) ∧
    (∃ (_s : State) (q : Fin 2) (v : Word), (orderValid q v.toNat = false)) ∧
    (∃ (s : State) (h : Fin 24) (l : Fin 8), (Sparse.get 0 s.rdc.hst (hstKey h 0) < 2 ^ 64 ∧ Sparse.get 0 s.rdc.hst (hstKey h 1) < 2 ^ 32 ∧ Sparse.get 0
      s.rdc.hst (hstKey h (8 + l)) < 2 ^ 32)) ∧
    (∃ (s : State) (_m : Master) (_v : BitVec 16), (npReserved s.npAddr = false) ∧ (s.hpPwr (s.npAddr / 2048) ≠ pwActive) ∧ (s.npAddr % 8 ≠ 5)) ∧
    (∃ (s : State) (_m : Master) (_v : BitVec 16), (npReserved s.npAddr = false) ∧ (s.hpPwr (s.npAddr / 2048) = pwActive)) :=
  ⟨⟨.reset, 0, 0xFFFF7653#32, by decide +kernel⟩,
    ⟨.reset, 0, 0x11111111, by decide +kernel⟩,
    ⟨(all [hstAdd 3 8 5, hstAdd 3 0 5]).run .reset, 3, 0, by decide +kernel⟩,
    ⟨(all [setF RDC_NP_ADDR.AUTOINC 0 1]).run .reset, .keeper, 0x8000, by decide +kernel⟩,
    ⟨(all [setF RDC_HP_STAT.PWR 0 3]).run .reset, .keeper, 0x8000, by decide +kernel⟩⟩

theorem witness_SectorReads :
    (∃ (s : State) (p : Fin 16) (row : Fin (2 ^ 40)) (j : Fin 16) (_tag : Word) (m ti : Bool) (a b : Option MarkObs) (d0 : Option Decode) (bits : List BitObs)
      (o : SectorObs) (r : ReadOut) (d : Decode), (s.readCounts p row j = true) ∧ (o = readSeen m { sync := s.syncSeen p a b, timing := ti, d := d0 } bits)
      ∧ (s.normalService = true) ∧ (s.readLeft p ((iterMaxOf (s.get RDC_HP_DEC.ITER_MAX p)).min 20) o = r) ∧ (r.sync.isSome = true ∧ r.timing = false ∧ r.d
      = some d) ∧ (decodeGood d row j = true) ∧ (s.headState (s.tgt p).head ≠ hRetired)) ∧
    (∃ (s : State) (p : Fin 16) (row : Fin (2 ^ 40)) (j : Fin 16) (_tag : Word) (m ti : Bool) (a b : Option MarkObs) (d0 : Option Decode) (bits : List BitObs)
      (o : SectorObs) (r : ReadOut) (_verify : Bool), (s.readCounts p row j = true) ∧ (o = readSeen m { sync := s.syncSeen p a b, timing := ti, d := d0 }
      bits) ∧ (s.normalService = true) ∧ (s.readLeft p ((iterMaxOf (s.get RDC_HP_DEC.ITER_MAX p)).min 20) o = r) ∧ (r.sync.isNone = true ∨ r.timing = true
      ∨ ∀ d ∈ r.d, decodeGood d row j = false) ∧ (s.headState (s.tgt p).head ≠ hRetired)) ∧
    (∃ (s : State) (p : Fin 16) (row : Fin (2 ^ 40)) (_j : Fin 16) (_tag : Word) (m ti : Bool) (a b : Option MarkObs) (d0 : Option Decode) (bits : List BitObs)
      (o : SectorObs) (c : Nat), (o = readSeen m { sync := s.syncSeen p a b, timing := ti, d := d0 } bits) ∧ (s.rdc.erased.find? (fun e => e.1 == p.val) =
      some (p.val, c)) ∧ (c ≠ fcRetake) ∧ (s.rowP0 row = false)) ∧
    (∃ (s : State) (p : Fin 16) (row : Fin (2 ^ 40)) (j : Fin 16) (tag : Word) (m ti : Bool) (a b : Option MarkObs) (d0 : Option Decode) (bits : List BitObs) (o
      : SectorObs) (r : ReadOut) (d : Decode), (s.readCounts p row j = true) ∧ (o = readSeen m { sync := s.syncSeen p a b, timing := ti, d := d0 } bits) ∧
      (s.normalService = true) ∧ (s.readLeft p ((iterMaxOf (s.get RDC_HP_DEC.ITER_MAX p)).min 20) o = r) ∧ (r.sync.isSome = true ∧ r.timing = false ∧ r.d =
      some d) ∧ (decodeGood d row j = true) ∧ (d.iter.val ≤ clampN 1 20 (s.get WRC_VFY_CFG.VFY_ITER 0)) ∧ (newer (2 ^ 24) (Sparse.get tag.toNat s.wrc.tags
      (16 * row + j) / 256) (tag.toNat / 256) = false)) ∧
    (∃ (s : State) (p : Fin 16) (row : Fin (2 ^ 40)) (j : Fin 16) (_tag : Word) (m ti : Bool) (a b : Option MarkObs) (d0 : Option Decode) (bits : List BitObs)
      (o : SectorObs) (r : ReadOut), (s.readCounts p row j = true) ∧ (o = readSeen m { sync := s.syncSeen p a b, timing := ti, d := d0 } bits) ∧
      (s.normalService = true) ∧ (s.mpc.ctxs = []) ∧ (s.rdc.unrec = []) ∧ (s.readLeft p ((iterMaxOf (s.get RDC_HP_DEC.ITER_MAX p)).min 20) o = r) ∧
      (r.sync.isNone = true ∨ r.timing = true ∨ ∀ d ∈ r.d, decodeGood d row j = false) ∧ (∀ k < 4, (s.ladder p k).isSome = true) ∧ (s.on
      RDC_RETRY_CFG.HW_EN 0 = true)) ∧
    (∃ (s : State) (p : Fin 16) (row : Fin (2 ^ 40)) (j : Fin 16) (_tag : Word) (ti : Bool) (a b : Option MarkObs) (d0 : Option Decode) (_bits : List BitObs) (r
      : ReadOut) (d : Decode), (s.readCounts p row j = true) ∧ (r = { sync := s.syncSeen p a b, timing := ti, d := d0 }) ∧ (s.mpc.ctxs = []) ∧ (s.rdc.unrec
      = []) ∧ ((r.sync.isSome = true ∧ r.timing = false) ∧ r.d = some d) ∧ (decodeGood d row j = true)) ∧
    (∃ (s : State) (p : Fin 16) (row : Fin (2 ^ 40)) (j : Fin 16) (_tag : Word) (_verify : Bool) (iter : Fin 21) (o : SectorObs) (r : ReadOut), (s.readCounts p
      row j = true) ∧ (s.normalService = true) ∧ (s.readLeft p ((iterMaxOf (s.get RDC_HP_DEC.ITER_MAX p)).min iter) o = r) ∧ (s.headState (s.tgt p).head ≠
      hRetired)) ∧
    (∃ (s : State) (p : Fin 16) (row : Fin (2 ^ 40)) (j : Fin 16) (_tag : Word) (_iter : Fin 21) (r : ReadOut) (d : Decode) (k : Nat), (s.readCounts p row j =
      true) ∧ (s.mpc.ctxs = []) ∧ (s.rdc.unrec = []) ∧ ((r.sync.isSome = true ∧ r.timing = false) ∧ r.d = some d) ∧ ((List.range 4).find? (fun k =>
      (s.ladder p k).isNone) = some k) ∧ (s.on RDC_CAP_BASE.EN 0 = false) ∧ (s.on RDC_RETRY_CFG.HW_EN 0 = true) ∧ (nbits (s.get RDC_RETRY_ORDER.ORDER (if
      s.rowP0 row then 0 else 1)) 3 0 ∈ [0, 2, 3, 6, 7]) ∧ (s.headState (s.tgt p).head ≠ hFailed)) ∧
    (∃ (s : State) (p : Fin 16) (k : Fin 4) (m : Bool) (r0 : ReadOut) (bits : List BitObs) (o : SectorObs) (l : Ladder), (o = readSeen m r0 bits) ∧ (s.ladder p
      k = some l)) ∧
    (∃ (s : State) (p : Fin 16) (k : Fin 4) (m : Bool) (r0 : ReadOut) (bits : List BitObs) (o : SectorObs) (l : Ladder), (o = readSeen m r0 bits) ∧ (s.ladder p
      k = some l) ∧ (l.rebuilt = true) ∧ ((p.val, k.val) ∉ s.rdc.reread) ∧ (s.headState l.head ≠ hRetired)) ∧
    (∃ (s : State) (p : Fin 16) (k : Fin 4) (_bits : List BitObs) (l : Ladder) (r : ReadOut) (d : Decode), (s.ladder p k = some l) ∧ ((p.val, k.val) ∈
      s.rdc.reread) ∧ (l.rebuilt = false ∧ l.handed = false) ∧ (l.level ∈ [0, 2, 3, 5, 6, 7]) ∧ (∀ e ∈ s.rdc.erased, e.1 ≠ p.val) ∧ (s.headState l.head ≠
      hFailed ∧ s.headState l.head ≠ hRetired) ∧ ((r.sync.isSome = true ∧ r.timing = false) ∧ r.d = some d) ∧ (decodeGood d l.row l.j = true)) ∧
    (∃ (s : State) (p : Fin 16) (k : Fin 4) (m : Bool) (r0 : ReadOut) (bits : List BitObs) (o : SectorObs) (l : Ladder) (r : ReadOut), (o = readSeen m r0 bits)
      ∧ (s.ladder p k = some l) ∧ ((p.val, k.val) ∈ s.rdc.reread) ∧ (l.rebuilt = false ∧ l.handed = false) ∧ (l.level ∈ [2, 3, 6, 7]) ∧ (∀ e ∈
      s.rdc.erased, e.1 ≠ p.val) ∧ (s.on RDC_RETRY_CFG.HW_EN 0 = true) ∧ (s.headState l.head ≠ hFailed ∧ s.headState l.head ≠ hRetired) ∧ (s.readLeft p (if
      l.level = 7 then 4 * l.l1Iter else (iterMaxOf (s.get RDC_HP_DEC.ITER_MAX p))) o = r) ∧ (r.sync.isNone = true ∧ r.d.isNone = true) ∧ (l.sub + 1 <
      l.reads)) ∧
    (∃ (s : State) (p : Fin 16) (k : Fin 4) (d : Decode) (l : Ladder), (s.ladder p k = some l) ∧ (l.l1 = true) ∧ (4 * p.val + k.val ∈ s.rdc.l1q.take 4) ∧
      (l.rebuilt = false) ∧ (l.handed = false ∨ l.begun = false) ∧ (decodeGood d l.row l.j = true) ∧ (s.headState l.head ≠ hRetired)) ∧
    (∃ (s : State) (p : Fin 16) (k : Fin 4) (d : Decode) (l : Ladder), (s.ladder p k = some l) ∧ (l.l1 = true) ∧ (4 * p.val + k.val ∈ s.rdc.l1q.take 4) ∧
      (decodeGood d l.row l.j = false)) :=
  ⟨⟨(all [setR .SVE_SLOT_MAP 1 0xBA98, setF SVE_HEAD_STATE.STATE 9 2, setF PTM_MODE_STAT.MODE 0 1]).run .reset, 1, 5, 2, 0, false, false, some ⟨16, 0⟩, none, some goodDecode, [], .result { sync := some (0, true), timing := false, d := some goodDecode }, { sync := some (0, true), timing := false, d := some goodDecode }, goodDecode, by decide +kernel, rfl, by decide +kernel, rfl, ⟨rfl, rfl, rfl⟩, goodDecode_good, by decide +kernel⟩,
    ⟨(all [setR .SVE_SLOT_MAP 1 0xBA98, setF SVE_HEAD_STATE.STATE 9 2, setF PTM_MODE_STAT.MODE 0 1]).run .reset, 1, 5, 2, 0, false, false, none, none, none, [], .result { sync := none, timing := false, d := none }, { sync := none, timing := false, d := none }, true, by decide +kernel⟩,
    ⟨(all [.upd (.rdc fun x => { x with erased := [(1, 5)] })]).run .reset, 1, 5, 2, 0, false, false, none, none, none, [], .result { sync := none, timing := false, d := none }, 5, by decide +kernel⟩,
    ⟨(all [setR .SVE_SLOT_MAP 1 0xBA98, setF SVE_HEAD_STATE.STATE 9 2, setF PTM_MODE_STAT.MODE 0 1]).run .reset, 1, 5, 2, 0, false, false, some ⟨16, 0⟩, none, some goodDecode, [], .result { sync := some (0, true), timing := false, d := some goodDecode }, { sync := some (0, true), timing := false, d := some goodDecode }, goodDecode, by decide +kernel, rfl, by decide +kernel, rfl, ⟨rfl, rfl, rfl⟩, goodDecode_good, by decide +kernel, by decide +kernel⟩,
    ⟨(all [setR .SVE_SLOT_MAP 1 0xBA98, setF SVE_HEAD_STATE.STATE 9 2, setF PTM_MODE_STAT.MODE 0 1, setF RDC_RETRY_CFG.HW_EN 0 1, .upd (.rdc fun x => { x with ladders := [(4, { slot := 0, row := 5, j := 2, head := 0, track := 0, p0 := true, order := 0xFFFFFF20, l1Iter := 1, ofs := 0, l6n := 0, captured := false, time := 9, bestTime := 9 }), (5, { slot := 0, row := 5, j := 2, head := 0, track := 0, p0 := true, order := 0xFFFFFF20, l1Iter := 1, ofs := 0, l6n := 0, captured := false, time := 9, bestTime := 9 }), (6, { slot := 0, row := 5, j := 2, head := 0, track := 0, p0 := true, order := 0xFFFFFF20, l1Iter := 1, ofs := 0, l6n := 0, captured := false, time := 9, bestTime := 9 }), (7, { slot := 0, row := 5, j := 2, head := 0, track := 0, p0 := true, order := 0xFFFFFF20, l1Iter := 1, ofs := 0, l6n := 0, captured := false, time := 9, bestTime := 9 })] })]).run .reset, 1, 5, 2, 0, false, false, none, none, none, [], .result { sync := none, timing := false, d := none }, { sync := none, timing := false, d := none }, by decide +kernel⟩,
    ⟨(all [setR .SVE_SLOT_MAP 1 0xBA98, setF SVE_HEAD_STATE.STATE 9 2]).run .reset, 1, 5, 2, 0, false, some ⟨16, 0⟩, none, some goodDecode, [], { sync := some (0, true), timing := false, d := some goodDecode }, goodDecode, by decide +kernel, rfl, by decide +kernel, by decide +kernel, ⟨⟨rfl, rfl⟩, rfl⟩, goodDecode_good⟩,
    ⟨(all [setR .SVE_SLOT_MAP 1 0xBA98, setF SVE_HEAD_STATE.STATE 9 2, setF PTM_MODE_STAT.MODE 0 1]).run .reset, 1, 5, 2, 0, false, 3, .result { sync := some (0, true), timing := false, d := some { iter := 3, unsat := 9, bytes := [], flips := 0, rel := [], llrs := [] } }, { sync := some (0, true), timing := false, d := some { iter := 3, unsat := 9, bytes := [], flips := 0, rel := [], llrs := [] } }, by decide +kernel⟩,
    ⟨(all [setR .SVE_SLOT_MAP 1 0xBA98, setF SVE_HEAD_STATE.STATE 9 2, setF RDC_RETRY_CFG.HW_EN 0 1, setR .RDC_RETRY_ORDER 0 0xFFFFFF20, setR .RDC_RETRY_ORDER 1 0xFFFFFF20]).run .reset, 1, 5, 2, 0, 3, { sync := some (0, true), timing := false, d := some { iter := 3, unsat := 9, bytes := [], flips := 0, rel := [], llrs := [] } }, { iter := 3, unsat := 9, bytes := [], flips := 0, rel := [], llrs := [] }, 0, by decide +kernel⟩,
    ⟨(all [.upd (.rdc fun x => { x with ladders := [(4, { slot := 0, row := 5, j := 2, head := 0, track := 0, p0 := true, order := 0xFFFFFF20, l1Iter := 1, ofs := 0, l6n := 0, captured := false, time := 9, bestTime := 9 })] })]).run .reset, 1, 0, false, { sync := none, timing := false, d := none }, [], .result { sync := none, timing := false, d := none }, { slot := 0, row := 5, j := 2, head := 0, track := 0, p0 := true, order := 0xFFFFFF20, l1Iter := 1, ofs := 0, l6n := 0, captured := false, time := 9, bestTime := 9 }, by decide +kernel⟩,
    ⟨(all [.upd (.rdc fun x => { x with ladders := [(4, { slot := 0, row := 5, j := 2, head := 0, track := 0, p0 := true, order := 0xFFFFFF20, l1Iter := 1, ofs := 0, l6n := 0, rebuilt := true, captured := false, time := 9, bestTime := 9 })] })]).run .reset, 1, 0, false, { sync := none, timing := false, d := none }, [], .result { sync := none, timing := false, d := none }, { slot := 0, row := 5, j := 2, head := 0, track := 0, p0 := true, order := 0xFFFFFF20, l1Iter := 1, ofs := 0, l6n := 0, rebuilt := true, captured := false, time := 9, bestTime := 9 }, by decide +kernel⟩,
    ⟨(all [.upd (.rdc fun x => { x with ladders := [(4, { slot := 0, row := 5, j := 2, head := 0, track := 0, p0 := true, order := 0xFFFFFF20, l1Iter := 1, ofs := 0, l6n := 0, captured := false, time := 9, bestTime := 9 })], reread := [(1, 0)] })]).run .reset, 1, 0, [], { slot := 0, row := 5, j := 2, head := 0, track := 0, p0 := true, order := 0xFFFFFF20, l1Iter := 1, ofs := 0, l6n := 0, captured := false, time := 9, bestTime := 9 }, { sync := some (0, true), timing := false, d := some goodDecode }, goodDecode, by decide +kernel, by decide +kernel, by decide +kernel, by decide +kernel, by decide +kernel, by decide +kernel, ⟨⟨rfl, rfl⟩, rfl⟩, goodDecode_good⟩,
    ⟨(all [setF RDC_RETRY_CFG.HW_EN 0 1, .upd (.rdc fun x => { x with ladders := [(4, { slot := 0, row := 5, j := 2, head := 0, track := 0, p0 := true, order := 0xFFFFFFF6, l1Iter := 1, ofs := 0, l6n := 0, captured := false, time := 9, bestTime := 9 })], reread := [(1, 0)] })]).run .reset, 1, 0, false, { sync := none, timing := false, d := none }, [], .result { sync := none, timing := false, d := none }, { slot := 0, row := 5, j := 2, head := 0, track := 0, p0 := true, order := 0xFFFFFFF6, l1Iter := 1, ofs := 0, l6n := 0, captured := false, time := 9, bestTime := 9 }, { sync := none, timing := false, d := none }, by decide +kernel⟩,
    ⟨(all [.upd (.rdc fun x => { x with ladders := [(4, { slot := 0, row := 5, j := 2, head := 0, track := 0, p0 := true, order := 0xFFFFFF20, l1Iter := 1, ofs := 0, l6n := 0, captured := true, l1 := true, time := 9, bestTime := 9 })], l1q := [4] })]).run .reset, 1, 0, goodDecode, { slot := 0, row := 5, j := 2, head := 0, track := 0, p0 := true, order := 0xFFFFFF20, l1Iter := 1, ofs := 0, l6n := 0, captured := true, l1 := true, time := 9, bestTime := 9 }, by decide +kernel, by decide +kernel, by decide +kernel, by decide +kernel, by decide +kernel, goodDecode_good, by decide +kernel⟩,
    ⟨(all [.upd (.rdc fun x => { x with ladders := [(4, { slot := 0, row := 5, j := 2, head := 0, track := 0, p0 := true, order := 0xFFFFFF20, l1Iter := 1, ofs := 0, l6n := 0, captured := true, l1 := true, time := 9, bestTime := 9 })], l1q := [4] })]).run .reset, 1, 0, { iter := 3, unsat := 9, bytes := [], flips := 0, rel := [], llrs := [] }, { slot := 0, row := 5, j := 2, head := 0, track := 0, p0 := true, order := 0xFFFFFF20, l1Iter := 1, ofs := 0, l6n := 0, captured := true, l1 := true, time := 9, bestTime := 9 }, by decide +kernel⟩⟩

theorem witness_PreampLinks :
    (∃ (s : State) (a : Fin 4) (ver : Fin 256), (s.ptm.vpre = true) ∧ (s.palUp a = false) ∧ (1 ≤ ver.val) ∧ (∀ p ∈ pathsOf a, s.hpPwr p < pwReady)) ∧
    (∃ (s : State) (a : Fin 4), (s.ptm.vpre = true) ∧ (s.palUp a = false)) ∧
    (∃ (s : State) (a : Fin 4) (ver : Fin 256), (s.ptm.vpre = true) ∧ (s.palUp a = false) ∧ (1 ≤ ver.val)) ∧
    (∃ (s : State) (a : Fin 4) (_payload : BitVec 24) (p h : Nat), (s.palUp a = true) ∧ (p / 4 = a.val) ∧ (s.headOf p = some h) ∧ (s.normalService = true)) ∧
    (∃ (s : State) (a : Fin 4) (payload : BitVec 24) (p h : Nat), (s.palUp a = true) ∧ (payload.toNat < 4096) ∧ (p / 4 = a.val) ∧ (s.headOf p = some h)) ∧
    (∃ (s : State) (a : Fin 4) (typ crc : Byte) (c : PalCmd), (s.palFind a typ.toNat crc.toNat = some c) ∧ (typ ≠ 0x30)) ∧
    (∃ (s : State) (a : Fin 4) (typ crc : Byte) (c : PalCmd), (s.palFind a typ.toNat crc.toNat = some c)) ∧
    (∃ (s : State) (a : Fin 4) (typ crc : Byte) (c : PalCmd), (s.palFind a typ.toNat crc.toNat = some c) ∧ (typ ≠ 0x30) ∧ (c.since + 16 ≤ s.ptm.ticks) ∧ (3 ≤
      c.resends) ∧ (s.normalService = true)) ∧
    (∃ (s : State) (a : Fin 4) (typ crc : Byte) (c : PalCmd), (s.palFind a typ.toNat crc.toNat = some c) ∧ (typ ≠ 0x30) ∧ (c.since + 16 ≤ s.ptm.ticks) ∧
      (c.resends < 3)) ∧
    (∃ (_s : State) (_a : Fin 4) (n : Fin 256), (n.val < 4)) ∧
    (∃ (s : State) (a : Fin 4) (n : Fin 256), (4 ≤ n.val) ∧ (s.quiet (232 + a))) ∧
    (∃ (s : State) (_a : Fin 4) (n : Fin 256), (4 ≤ n.val) ∧ (s.normalService = true)) ∧
    (∃ (s : State) (a : Fin 4), (s.ptm.vpre = true) ∧ (s.palUp a = true) ∧ (s.normalService = true)) ∧
    (∃ (s : State) (a : Fin 4), (s.ptm.vpre = true) ∧ (s.palUp a = true) ∧ (s.quiet (236 + a))) :=
  ⟨⟨(all [.upd (.ptm fun x => { x with vpre := true })]).run .reset, 3, 255, by decide +kernel⟩,
    ⟨(all [.upd (.ptm fun x => { x with vpre := true })]).run .reset, 3, by decide +kernel⟩,
    ⟨(all [.upd (.ptm fun x => { x with vpre := true }), setF RDC_HP_STAT.PWR 12 2]).run .reset, 3, 255, by decide +kernel⟩,
    ⟨(all [setF RDC_PAL_STAT.UP 0 1, setF PTM_MODE_STAT.MODE 0 1, setR .SVE_SLOT_MAP 0 0xBA98]).run .reset, 0, 0x4020, 2, 2, by decide +kernel⟩,
    ⟨(all [setF RDC_PAL_STAT.UP 0 1, setR .SVE_SLOT_MAP 0 0xBA98]).run .reset, 0, 0x20, 2, 2, by decide +kernel⟩,
    ⟨(all [.upd (.rdc fun x => { x with cmds := [{ act := 0, typ := 0x10, payload := 0x100 }] })]).run .reset, 0, 0x10, BitVec.ofNat 8 (palCrc 0x10 0x100), { act := 0, typ := 0x10, payload := 0x100 }, by decide +kernel⟩,
    ⟨(all [.upd (.rdc fun x => { x with cmds := [{ act := 0, typ := 0x10, payload := 0x100 }] })]).run .reset, 0, 0x10, BitVec.ofNat 8 (palCrc 0x10 0x100), { act := 0, typ := 0x10, payload := 0x100 }, by decide +kernel⟩,
    ⟨(all [.upd (.ptm fun p => { p with ticks := 4000000 }), setF PTM_MODE_STAT.MODE 0 1, .upd (.rdc fun x => { x with cmds := [{ act := 0, typ := 0x10, payload := 0x100, resends := 3 }] })]).run .reset, 0, 0x10, BitVec.ofNat 8 (palCrc 0x10 0x100), { act := 0, typ := 0x10, payload := 0x100, resends := 3 }, by decide +kernel⟩,
    ⟨(all [.upd (.ptm fun p => { p with ticks := 4000000 }), .upd (.rdc fun x => { x with cmds := [{ act := 0, typ := 0x10, payload := 0x100 }] })]).run .reset, 0, 0x10, BitVec.ofNat 8 (palCrc 0x10 0x100), { act := 0, typ := 0x10, payload := 0x100 }, by decide +kernel⟩,
    ⟨.reset, 3, 3, by decide +kernel⟩,
    ⟨(all [setF FCU_SRC_CFG.N 235 5, .upd (.sve fun x => { x with active := [13] })]).run .reset, 3, 4, by unfold State.quiet; decide +kernel⟩,
    ⟨(all [setF PTM_MODE_STAT.MODE 0 1, .upd (.sve fun x => { x with active := [13] })]).run .reset, 3, 4, by decide +kernel⟩,
    ⟨(all [setF PTM_MODE_STAT.MODE 0 1, setF RDC_PAL_STAT.UP 0 1, .upd (.sve fun x => { x with pass := [(0, { issuer := 0, track := 0, band := 0, write := true, paths := [0, 1], ending := false, release := [] })], active := [0, 1] }), .upd (.ptm fun x => { x with vpre := true })]).run .reset, 0, by decide +kernel⟩,
    ⟨(all [setF FCU_SRC_CFG.N 236 5, setF RDC_PAL_STAT.UP 0 1, .upd (.sve fun x => { x with pass := [(0, { issuer := 0, track := 0, band := 0, write := true, paths := [0, 1], ending := false, release := [] })], active := [0, 1] }), .upd (.ptm fun x => { x with vpre := true })]).run .reset, 0, by unfold State.quiet; decide +kernel⟩⟩

theorem witness_WritePath :
    (∃ (s : State) (a : Fin 4) (arm : Fin 6) (m : BitVec 10) (w : Nat), (w = 2 * a.val) ∧ ((s.writer w).pass = true) ∧ ((s.writer (w + 1)).pass = false) ∧
      (s.wArm w = arm.val) ∧ (s.hasAssist (s.writer w).head = true) ∧ (s.on WRC_WR_STAT.AST_ON w = true) ∧ (m.toNat ≤ s.wSetPoint w + s.wSetPoint w / 4) ∧
      (s.wSetPoint w ≤ m.toNat + s.get WRC_CFG.MON_TOL 0)) ∧
    (∃ (s : State) (a : Fin 4) (arm : Fin 6) (_m : BitVec 10) (w : Nat), (w / 2 = a.val) ∧ ((s.writer w).pass = true) ∧ (s.wArm w = arm.val) ∧ (s.hasAssist
      (s.writer w).head = true) ∧ (s.on WRC_WR_STAT.AST_ON w = true) ∧ (s.normalService = true)) ∧
    (∃ (s : State) (a : Fin 4) (i : Fin 2) (w : Nat) (row : Fin (2 ^ 40)) (j : Fin 16) (tag : Word), (w = 2 * a.val + i.val) ∧ (s.wrc.pend = []) ∧ (s.mayOpen w
      row j tag.toNat = true)) ∧
    (∃ (s : State) (a : Fin 4) (i : Fin 2) (w : Nat) (row : Fin (2 ^ 40)) (j : Fin 16) (tag : Word), (w = 2 * a.val + i.val) ∧ (((wrcBoundary w).run s).mayOpen
      w row j tag.toNat = true)) ∧
    (∃ (s : State) (a : Fin 4) (i : Fin 2) (w : Nat) (row : Fin (2 ^ 40)) (j : Fin 16) (tag : Word), (w = 2 * a.val + i.val) ∧ ((s.writer w).pass = true) ∧
      (((wrcBoundary w).run s).mayOpen w row j tag.toNat = false)) ∧
    (∃ (s : State) (a : Fin 4) (i : Fin 2) (w : Nat) (row : Fin (2 ^ 40)) (j : Fin 16) (tag : Word), (w = 2 * a.val + i.val) ∧ (s.wrc.pend = []) ∧ ((s.writer
      w).pass = true) ∧ (s.mayOpen w row j tag.toNat = false)) ∧
    (∃ (s : State) (w : Fin 8) (x : SecInfo), ((s.writer w).sector = some x)) ∧
    (∃ (s : State) (w : Fin 8) (x : SecInfo), ((s.writer w).sector = some x) ∧ (s.ptm.plStep ≠ 2)) ∧
    (∃ (s : State) (w : Fin 8) (x : SecInfo), (s.on WRC_WR_STAT.GATE w = true) ∧ ((s.writer w).sector = some x) ∧ (s.storeFault .wrc (s.get WRC_RWL_BASE.ADDR 0
      * 4096 + 16 * (s.get WRC_RWL_PTR.WR 0 % s.rwlSize)) 16 = none)) ∧
    (∃ (s : State) (_w : Fin 8), (s.normalService = true)) ∧
    (∃ (s : State) (row : Fin (2 ^ 40)) (r : RowProgress), (s.wrc.rows.find? (fun x => x.row == row.val) = some r) ∧ (s.rowComplete r = true) ∧ (r.neighbour =
      []) ∧ (r.lastEnd + wedgeTicks < s.time)) :=
  ⟨⟨(all [setWriter 6 fun x => { x with pass := true, params := [0, 0, 0, 0, 0, 0x0200040, 0] }, setF WRC_HEAD_CFG.ATYPE 0 1, setF WRC_WR_STAT.AST_ON 6 1, setF WRC_CFG.MON_TOL 0 9]).run .reset, 3, 0, 65, 6, by decide +kernel⟩,
    ⟨(all [setWriter 6 fun x => { x with pass := true, params := [0, 0, 0, 0, 0, 0x0200040, 0], monHigh := 1 }, setF PTM_MODE_STAT.MODE 0 1, setF WRC_HEAD_CFG.ATYPE 0 1, setF WRC_WR_STAT.AST_ON 6 1, setF WRC_CFG.MON_TOL 0 9]).run .reset, 3, 0, 1000, 6, by decide +kernel⟩,
    ⟨(all [setWriter 2 fun x => { x with pass := true, ready := true, rate := 6 }, setBitF PTM_DOM_PWR.ON 0 18 true, .upd (.wrc fun z => { z with buffer := [{ row := 5, j := 2, tag := 9, bytes := List.replicate 4108 0 }] }), .upd (.sve fun x => { x with active := [0] }), setF SPN_STAT.AT_SPEED 0 1, setF WRC_RWL_CTL.ENABLE 0 1, setF SVE_SEEK_STAT.STATE 0 0]).run .reset, 1, 0, 2, 5, 2, 9, by decide +kernel⟩,
    ⟨(all [setWriter 2 fun x => { x with pass := true, ready := true, rate := 6 }, setBitF PTM_DOM_PWR.ON 0 18 true, .upd (.wrc fun z => { z with buffer := [{ row := 5, j := 2, tag := 9, bytes := List.replicate 4108 0 }] }), .upd (.sve fun x => { x with active := [0] }), setF SPN_STAT.AT_SPEED 0 1, setF WRC_RWL_CTL.ENABLE 0 1, setF SVE_SEEK_STAT.STATE 0 0]).run .reset, 1, 0, 2, 5, 2, 9, by decide +kernel⟩,
    ⟨(all [setWriter 2 fun x => { x with pass := true }]).run .reset, 1, 0, 2, 5, 2, 9, by decide +kernel⟩,
    ⟨(all [setWriter 2 fun x => { x with pass := true }]).run .reset, 1, 0, 2, 5, 2, 9, by decide +kernel⟩,
    ⟨(all [setWriter 2 fun x => { x with pass := true, sector := some { row := 5, j := 2, path := 0, head := 0, tag := 9, track := 0 } }, .upd (.ptm fun x => { x with plStep := 2 })]).run .reset, 2, { row := 5, j := 2, path := 0, head := 0, tag := 9, track := 0 }, by decide +kernel⟩,
    ⟨(all [setWriter 2 fun x => { x with pass := true, sector := some { row := 5, j := 2, path := 0, head := 0, tag := 9, track := 0 } }]).run .reset, 2, { row := 5, j := 2, path := 0, head := 0, tag := 9, track := 0 }, by decide +kernel⟩,
    ⟨(all [setF BMU_CFG.CHANNELS 0 2, setF BMU_CFG.SIZE 0 32, setWriter 2 fun x => { x with pass := true, sector := some { row := 5, j := 2, path := 0, head := 0, tag := 9, track := 0 } }, setF WRC_WR_STAT.GATE 2 1, setF WRC_RWL_BASE.ADDR 0 0x110000]).run .reset, 2, { row := 5, j := 2, path := 0, head := 0, tag := 9, track := 0 }, by decide +kernel⟩,
    ⟨(all [setF PTM_MODE_STAT.MODE 0 1, setWriter 2 fun x => { x with pass := true, sector := some { row := 5, j := 2, path := 0, head := 0, tag := 9, track := 0 } }, setF WRC_WR_STAT.GATE 2 1]).run .reset, 2, by decide +kernel⟩,
    ⟨(all [.upd (.wrc fun z => { z with rows := [{ row := 5, done := List.range 16, lastEnd := 0, neighbour := [] }] }), .upd (.cqe fun x => { x with overlay := [{ ns := 0, lba := 5, seq := 9, slot := 2 }, { ns := 0, lba := 6, seq := 10, slot := 2 }] }), .upd (.mpc fun x => { x with enc := [{ k := 0, row := 5, tag := 1, vers := [(0, 5, 9)] }] }), setF PTM_MER_TIME.TIME 0 1000]).run .reset, 5, { row := 5, done := List.range 16, lastEnd := 0, neighbour := [] }, by decide +kernel⟩⟩

theorem witness_ServoWedges :
    (∃ (s : State) (p : Fin 16), (s.demodulates p = true) ∧ (p.val ∉ s.sve.wedgeDone) ∧ (s.get SVE_SEEK_STAT.STATE (p / 4) ≠ skLoading) ∧ (∀ q ∈
      s.sve.wedgeDone, q / 4 ≠ p.val / 4) ∧ (s.seekSub (p / 4) = skTracking) ∧ (s.rdc.pend = []) ∧ (s.rdc.npPend = []) ∧ (s.rdc.losing = []) ∧
      (s.demodPaths (p / 4) ≠ [p.val]) ∧ (p.val ∉ s.rdc.sector) ∧ (∀ w ∈ s.writersOfPath p, s.on WRC_WR_STAT.GATE w = false)) ∧
    (∃ (s : State) (p : Fin 16) (o o2 : Option WedgeObs) (_bits : List BitObs), (s.demodulates p = true) ∧ (p.val ∉ s.sve.wedgeDone) ∧ (s.get
      SVE_SEEK_STAT.STATE (p / 4) ≠ skLoading) ∧ ((if s.servoLane p = 2 * p.val then o else o2) = none) ∧ (s.normalService = true)) ∧
    (∃ (s : State) (p : Fin 16) (o o2 : Option WedgeObs) (bits : List BitObs) (x : WedgeObs), (s.demodulates p = true) ∧ (p.val ∉ s.sve.wedgeDone) ∧ (s.get
      SVE_SEEK_STAT.STATE (p / 4) ≠ skLoading) ∧ ((if s.servoLane p = 2 * p.val then o else o2) = some x) ∧ (s.normalService = true) ∧ (((all [when
      (s.rdc.sector.contains p) (readPiece p bits), when (!(s.sve.wedgeDone.any fun q => q / 4 == p.val / 4)) (seekAdvance (p / 4)), rdcBoundary p,
      indexFix x.wedge.val]).run s).wedgeOk p x = true)) ∧
    (∃ (s : State) (p : Fin 16) (o o2 : Option WedgeObs) (_bits : List BitObs), (s.demodulates p = true) ∧ (p.val ∉ s.sve.wedgeDone) ∧ (s.get
      SVE_SEEK_STAT.STATE (p / 4) = skLoading) ∧ ((if s.servoLane p = 2 * p.val then o else o2) = none)) ∧
    (∃ (s : State) (p : Fin 16) (o : WedgeObs), (s.demodulates p = true) ∧ (p.val ∉ s.sve.wedgeDone) ∧ (s.get SVE_SEEK_STAT.STATE (p / 4) ≠ skLoading) ∧ (∀ q ∈
      s.sve.wedgeDone, q / 4 ≠ p.val / 4) ∧ (s.seekSub (p / 4) = skTracking) ∧ (s.rdc.pend = []) ∧ (s.rdc.npPend = []) ∧ (s.rdc.losing = []) ∧
      (s.demodPaths (p / 4) ≠ [p.val]) ∧ (p.val ∉ s.rdc.sector) ∧ (s.wedgeOk p o = true) ∧ (o.wedge.val ≠ 0) ∧ (s.on SVE_CTX_CFG.ENABLE p = false) ∧ (∀ w ∈
      s.writersOfPath p, s.on WRC_WR_STAT.GATE w = false)) ∧
    (∃ (s : State) (p : Fin 16), (p.val ∈ s.sve.active) ∧ (max 1 (s.get SVE_SV_CFG.MISS_N 0) ≤ s.get SVE_WEDGE_STAT.MISS_CNT p) ∧ (s.normalService = true)) ∧
    (∃ (s : State) (p : Fin 16), (p.val ∈ s.sve.active) ∧ (max 1 (s.get SVE_SV_CFG.MISS_N 0) ≤ s.get SVE_WEDGE_STAT.MISS_CNT p) ∧ (s.writersOfPath p = [])) ∧
    (∃ (s : State) (p : Fin 16), (p.val ∈ s.sve.active) ∧ (8 ≤ s.get SVE_CTX_STAT.CLAMP_CNT p) ∧ (s.get SVE_SEEK_STAT.STATE (p / 4) = skTracking) ∧
      (s.normalService = true)) ∧
    (∃ (s : State) (a : Fin 4), (s.loaded a = true) ∧ (clampN 2 15 (s.get SVE_ACT_CFG.ACT_MISS a) ≤ Sparse.get 0 s.sve.actMiss a) ∧ (s.normalService = true)) ∧
    (∃ (s : State) (a : Fin 4), (s.loaded a = true) ∧ (clampN 2 15 (s.get SVE_ACT_CFG.ACT_MISS a) ≤ Sparse.get 0 s.sve.actMiss a) ∧ (s.quiet (216 + a))) ∧
    (∃ (s : State) (a : Fin 4), (s.sve.wedgeDone.any (fun q => q / 4 == a) = true)) ∧
    (∃ (s : State) (a : Fin 4) (p : Nat), (s.demodPaths a = [p]) ∧ (s.sve.wedgeDone.any (fun q => q / 4 == a) = true) ∧ (p ∉ s.sve.wedgeDone) ∧ (p ∉
      s.sve.active) ∧ (s.seekSub a = skTracking) ∧ (s.on SVE_CTX_CFG.ENABLE (16 + a) = false) ∧ (s.rdc.pend = []) ∧ (s.rdc.npPend = []) ∧ (s.rdc.losing =
      [])) ∧
    (∃ (s : State) (_m : Master) (kind h band : Nat) (obs mb : Int) (l : List (Nat × Nat × Nat × Int × Int)), (s.sve.log = (kind, h, band, obs, mb) :: l) ∧
      (l.length < 64)) ∧
    (∃ (s : State) (_m : Master), (s.sve.log = [])) :=
  ⟨⟨(all [.upd (.sve fun x => { x with active := [1, 2], tgt := [(1, { head := 0, band := 3, target := 1000, tp := 130 })] }), setF RDC_HP_STAT.PWR 1 2, setF RDC_HP_STAT.PWR 2 2, setF SVE_SEEK_STAT.STATE 0 skTracking]).run .reset, 1, by decide +kernel⟩,
    ⟨(all [setF PTM_MODE_STAT.MODE 0 1, .upd (.sve fun x => { x with active := [1, 2], tgt := [(1, { head := 0, band := 3, target := 1000, tp := 130 })] }), setF RDC_HP_STAT.PWR 1 2, setF RDC_HP_STAT.PWR 2 2, setF SVE_SEEK_STAT.STATE 0 skTracking]).run .reset, 1, none, none, [], by decide +kernel⟩,
    ⟨(all [setF PTM_MODE_STAT.MODE 0 1, .upd (.sve fun x => { x with active := [1, 2], tgt := [(1, { head := 0, band := 3, target := 1000, tp := 130 })] }), setF RDC_HP_STAT.PWR 1 2, setF RDC_HP_STAT.PWR 2 2, setF SVE_SEEK_STAT.STATE 0 skTracking]).run .reset, 1, some { sam := 1, wedge := 7, gray := 1000, a := 3000, b := 1000, rro := 0 }, some { sam := 1, wedge := 7, gray := 1000, a := 3000, b := 1000, rro := 0 }, [], { sam := 1, wedge := 7, gray := 1000, a := 3000, b := 1000, rro := 0 }, by decide +kernel⟩,
    ⟨(all [.upd (.sve fun x => { x with active := [1, 2], tgt := [(1, { head := 0, band := 3, target := 1000, tp := 130 })] }), setF RDC_HP_STAT.PWR 1 2, setF SVE_SEEK_STAT.STATE 0 skLoading]).run .reset, 1, none, none, [], by decide +kernel⟩,
    ⟨(all [.upd (.sve fun x => { x with active := [1, 2], tgt := [(1, { head := 0, band := 3, target := 1000, tp := 130 })] }), setF RDC_HP_STAT.PWR 1 2, setF RDC_HP_STAT.PWR 2 2, setF SVE_SEEK_STAT.STATE 0 skTracking]).run .reset, 1, { sam := 1, wedge := 7, gray := 1000, a := 3000, b := 1000, rro := 0 }, by decide +kernel⟩,
    ⟨(all [setF PTM_MODE_STAT.MODE 0 1, .upd (.sve fun x => { x with active := [1], tgt := [(1, { head := 0, band := 3, target := 1000, tp := 130 })] }), setF SVE_WEDGE_STAT.MISS_CNT 1 15]).run .reset, 1, by decide +kernel⟩,
    ⟨(all [.upd (.sve fun x => { x with active := [1], tgt := [(1, { head := 0, band := 3, target := 1000, tp := 130 })] }), setF SVE_WEDGE_STAT.MISS_CNT 1 15]).run .reset, 1, by decide +kernel⟩,
    ⟨(all [setF PTM_MODE_STAT.MODE 0 1, .upd (.sve fun x => { x with active := [1], tgt := [(1, { head := 0, band := 3, target := 1000, tp := 130 })] }), setF SVE_SEEK_STAT.STATE 0 skTracking, setF SVE_CTX_STAT.CLAMP_CNT 1 8]).run .reset, 1, by decide +kernel⟩,
    ⟨(all [setF PTM_MODE_STAT.MODE 0 1, setF SVE_TRK_STAT.LOADED 0 1, .upd (.sve fun x => { x with actMiss := [(0, 15)] })]).run .reset, 0, by decide +kernel⟩,
    ⟨(all [setF FCU_SRC_CFG.N 216 5, setF SVE_TRK_STAT.LOADED 0 1, .upd (.sve fun x => { x with actMiss := [(0, 15)] })]).run .reset, 0, by unfold State.quiet; decide +kernel⟩,
    ⟨(all [.upd (.sve fun x => { x with wedgeDone := [2] }), setR .SVE_SLOT_MAP 0 0xBA98, setF SVE_HEAD_STATE.STATE 0 2, setF RDC_HP_STAT.PWR 1 2, setF RDC_HP_STAT.PWR 0 2, setF SVE_TRK_STAT.LOADED 0 1, setF SVE_SEEK_STAT.STATE 0 skTracking]).run .reset, 0, by decide +kernel⟩,
    ⟨(all [.upd (.sve fun x => { x with wedgeDone := [2] }), setR .SVE_SLOT_MAP 0 0xBA98, setF SVE_HEAD_STATE.STATE 0 2, setF RDC_HP_STAT.PWR 1 2, setF RDC_HP_STAT.PWR 0 2, setF SVE_TRK_STAT.LOADED 0 1, setF SVE_SEEK_STAT.STATE 0 skTracking]).run .reset, 0, 0, by decide +kernel⟩,
    ⟨(all [.upd (.sve fun x => { x with log := [(1, 2, 3, 4, 5)] })]).run .reset, .keeper, 1, 2, 3, 4, 5, [], by decide +kernel⟩,
    ⟨.reset, .keeper, by decide +kernel⟩⟩

theorem witness_ControlLoops :
    (∃ (s : State) (a : Fin 4) (_m : Fin 8) (v : Int), (s.sve.setPtNew = [(a.val, v)]) ∧ (s.on SVE_ACT_CFG.SP_RAMP a = false) ∧ ((s.seek a).ramp = false)) ∧
    (∃ (s : State) (k : Fin 24) (_e : BitVec 32), (s.on SVE_CTX_CFG.ENABLE k = true) ∧ (s.ctxMay k = true) ∧ ((s.ctx k).trig = none) ∧ (s.sve.running.find? (·.1
      == s.get SVE_CTX_CFG.CLU k) = none) ∧ (s.sve.waiting = []) ∧ (s.get SVE_CLU_CTL.COMMIT (s.get SVE_CTX_CFG.CLU k) = 0)) ∧
    (∃ (s : State) (k : Fin 24) (_e : BitVec 32) (x : Nat × CtxRun), (s.on SVE_CTX_CFG.ENABLE k = true) ∧ (s.ctxMay k = true) ∧ (s.sve.running.find? (·.1 ==
      s.get SVE_CTX_CFG.CLU k) = some x) ∧ (s.normalService = true)) ∧
    (∃ (s : State) (k : Fin 24) (_e : BitVec 32) (x : Int) (y : Nat × CtxRun), (s.on SVE_CTX_CFG.ENABLE k = true) ∧ (s.ctxMay k = true) ∧ ((s.ctx k).trig = some
      x) ∧ (s.sve.running.find? (·.1 == s.get SVE_CTX_CFG.CLU k) = some y) ∧ (s.quiet 225)) ∧
    (∃ (s : State) (k : Fin 24) (_el _busy : BitVec 8) (u : Nat) (x : CtxRun), (s.sve.running.find? (·.2.k == k.val) = some (u, x))) ∧
    (∃ (s : State) (k : Fin 24) (_el _busy : BitVec 8) (u : Nat) (x : CtxRun), (20 ≤ k.val) ∧ (s.sve.running.find? (·.2.k == k.val) = some (u, x)) ∧ (x.k =
      k.val ∧ x.live = true ∧ x.auto = true) ∧ (s.get PTM_CW_STAT.LINK 0 = 2) ∧ (s.sve.waiting = [])) ∧
    (∃ (s : State) (u : Fin 12), (s.sve.running.find? (·.1 == u.val) = none)) ∧
    (∃ (s : State) (u : Fin 12) (b : Fin 4), (s.sve.running.find? (·.1 == u.val) = none) ∧ (s.get SVE_CLU_CTL.COMMIT u = 2 ^ b.val) ∧ ((bankOf fun i => s.get
      SVE_COEF.W ((u.val * 4 + b) * 128 + i)).inverted = false) ∧ (∀ i < 16, s.on SVE_NOTCH_CTL.EN i = false)) ∧
    (∃ (s : State) (u : Fin 12) (b : Fin 4), (s.sve.running.find? (·.1 == u.val) = none) ∧ (s.get SVE_CLU_CTL.COMMIT u = 2 ^ b.val) ∧ ((bankOf fun i => s.get
      SVE_COEF.W ((u.val * 4 + b) * 128 + i)).inverted = true)) ∧
    (∃ (_s : State) (m : Master), (m.isCore = true)) ∧
    (∃ (s : State), (s.get SVE_TRK_STAT.STATE 0 = trkServed) ∧ (s.grace ≤ s.get SVE_TRK_STAT.SINCE 0) ∧ (s.grace < s.trkLimit)) ∧
    (∃ (s : State), (s.get SVE_TRK_STAT.STATE 0 = trkAutonomous ∨ s.get SVE_TRK_STAT.STATE 0 = trkServed ∧ s.trkLimit ≤ s.grace) ∧ (s.trkLimit ≤ s.get
      SVE_TRK_STAT.SINCE 0) ∧ (s.normalService = true)) ∧
    (∃ (s : State), (s.get SVE_TRK_STAT.STATE 0 = trkAutonomous) ∧ (s.trkLimit ≤ s.get SVE_TRK_STAT.SINCE 0) ∧ (s.quiet 226)) ∧
    (∃ (s : State) (a : Fin 4), (s.get SVE_SEEK_STAT.STATE a = skUnloading) ∧ (a.val ∉ s.sve.retract) ∧ ((s.seek a).since + 300 * tickMs ≤ s.ptm.ticks)) :=
  ⟨⟨(all [.upd (.sve fun x => { x with setPtNew := [(2, -5)] })]).run .reset, 2, 3, -5, by decide +kernel⟩,
    ⟨(all [setF SVE_CTX_CFG.ENABLE 17 1]).run .reset, 17, 0xFFFFFFFF, by decide +kernel⟩,
    ⟨(all [setF PTM_MODE_STAT.MODE 0 1, setF SVE_CTX_CFG.ENABLE 17 1, .upd (.sve fun x => { x with running := [(0, { k := 16 })] })]).run .reset, 17, 0xFFFFFFFF, (0, { k := 16 }), by decide +kernel⟩,
    ⟨(all [setF FCU_SRC_CFG.N 225 5, setF SVE_CTX_CFG.ENABLE 17 1, setCtx 17 fun _ => { trig := some 5 }, .upd (.sve fun x => { x with running := [(0, { k := 16 })] })]).run .reset, 17, 7, 5, (0, { k := 16 }), by unfold State.quiet; decide +kernel⟩,
    ⟨(all [.upd (.sve fun x => { x with running := [(0, { k := 20, auto := true })] })]).run .reset, 20, 3, 4, 0, { k := 20, auto := true }, by decide +kernel⟩,
    ⟨(all [setF PTM_CW_STAT.LINK 0 2, .upd (.sve fun x => { x with running := [(0, { k := 20, auto := true })] })]).run .reset, 20, 3, 4, 0, { k := 20, auto := true }, by decide +kernel⟩,
    ⟨(all [setF SVE_CLU_CTL.COMMIT 3 4]).run .reset, 3, by decide +kernel⟩,
    ⟨(all [setF SVE_CLU_CTL.COMMIT 3 4]).run .reset, 3, 2, by decide +kernel⟩,
    ⟨(all [setF SVE_CLU_CTL.COMMIT 3 4, setF SVE_COEF.W 1875 9]).run .reset, 3, 2, by decide +kernel⟩,
    ⟨.reset, .app 3, by decide +kernel⟩,
    ⟨(all [setF SVE_TRK_STAT.STATE 0 trkServed, setF SVE_TRK_STAT.SINCE 0 100, setF SVE_TRK_CTL.LIMIT 0 500]).run .reset, by decide +kernel⟩,
    ⟨(all [setF PTM_MODE_STAT.MODE 0 1, setF SVE_TRK_STAT.STATE 0 trkAutonomous, setF SVE_TRK_STAT.SINCE 0 1023]).run .reset, by decide +kernel⟩,
    ⟨(all [setF FCU_SRC_CFG.N 226 5, setF SVE_TRK_STAT.STATE 0 trkAutonomous, setF SVE_TRK_STAT.SINCE 0 1023]).run .reset, by unfold State.quiet; decide +kernel⟩,
    ⟨(all [setF SVE_SEEK_STAT.STATE 2 skUnloading, .upd (.ptm fun p => { p with ticks := 4000000 })]).run .reset, 2, by decide +kernel⟩⟩

theorem witness_Seeks :
    (∃ (s : State) (a : Fin 4) (m : BitVec 4) (_wr : Bool) (e : Nat), (e = s.seekError a (s.seekTargets a m.toNat)) ∧ (e ≠ 0) ∧ (e ≠ 5)) ∧
    (∃ (s : State) (a : Fin 4) (m : BitVec 4) (_wr : Bool), (s.seekError a (s.seekTargets a m.toNat) = 5) ∧ (s.seekMapErr a (s.seekTargets a m.toNat) = false)) ∧
    (∃ (s : State) (a : Fin 4) (m : BitVec 4) (_wr : Bool), (s.seekError a (s.seekTargets a m.toNat) = 5) ∧ (s.normalService = true)) ∧
    (∃ (s : State) (a : Fin 4) (m : BitVec 4) (_wr : Bool), (s.seekError a (s.seekTargets a m.toNat) = 0)) ∧
    (∃ (s : State) (a : Fin 4) (m : BitVec 4) (_wr : Bool), (s.seekError a (s.seekTargets a m.toNat) = 0) ∧ ((s.seek a).unloading = false) ∧ ((s.seek a).yRef =
      0) ∧ (m ≠ 0) ∧ (∀ p ∈ pathsOf a, p ∉ s.sve.active)) ∧
    (∃ (s : State) (a : Fin 4), (s.get SVE_SEEK_STAT.STATE a = skUnloaded) ∧ (s.on SPN_STAT.AT_SPEED 0 = true)) ∧
    (∃ (s : State) (a : Fin 4), (s.get SVE_SEEK_STAT.STATE a ≠ skUnloaded ∨ s.on SPN_STAT.AT_SPEED 0 = false)) ∧
    (∃ (s : State) (a : Fin 4), (s.get SVE_SEEK_STAT.STATE a = skLoading) ∧ ((s.seek a).tries < s.get SVE_RAMP_CFG.LD_RETRY 0) ∧ ((s.seek a).since + max 1
      (s.get SVE_RAMP_CFG.LD_TMO 0) * tickMs ≤ s.ptm.ticks)) ∧
    (∃ (s : State) (a : Fin 4), (s.get SVE_SEEK_STAT.STATE a = skLoading) ∧ (s.get SVE_RAMP_CFG.LD_RETRY 0 ≤ (s.seek a).tries) ∧ (s.quiet (220 + a)) ∧ ((s.seek
      a).since + max 1 (s.get SVE_RAMP_CFG.LD_TMO 0) * tickMs ≤ s.ptm.ticks)) ∧
    (∃ (s : State) (a : Fin 4), (s.loaded a = true) ∧ (s.get SVE_SEEK_STAT.STATE a < skUnloading)) ∧
    (∃ (s : State) (a : Fin 4) (p : Nat), (s.seekSub a = skSettle) ∧ (max 1 (s.get SVE_SETTLE_CFG.SET_TMO 0) ≤ (s.seek a).settleWedges) ∧ (p ∈ pathsOf a) ∧
      (nbit (s.seek a).slots (p % 4) = true) ∧ (s.bitF SVE_SEEK_STAT.SETTLED a (p % 4) = false)) :=
  ⟨⟨(all [setF SVE_TRK_STAT.STATE 0 3]).run .reset, 1, 3, true, 1, by decide +kernel⟩,
    ⟨(all [setR .SVE_SLOT_MAP 0 0xBA98, setF SVE_HEAD_STATE.STATE 0 2, setF SVE_HEAD_STATE.STATE 1 2, setF SVE_HEAD_STATE.STATE 2 2, setF SVE_HEAD_STATE.STATE 3 2, setF SVE_TRK_STAT.LOADED 0 1, setF SVE_SEEK_STAT.STATE 0 skTracking, setF SVE_TRK_STAT.STATE 0 0, setF SVE_TRK_STAT.STATE 0 0]).run .reset, 0, 3, true, by decide +kernel⟩,
    ⟨(all [setF PTM_MODE_STAT.MODE 0 1, setR .SVE_SLOT_MAP 0 0xBA98, setF SVE_HEAD_STATE.STATE 0 2, setF SVE_HEAD_STATE.STATE 1 2, setF SVE_HEAD_STATE.STATE 2 2, setF SVE_HEAD_STATE.STATE 3 2, setF SVE_TRK_STAT.LOADED 0 1, setF SVE_SEEK_STAT.STATE 0 skTracking, setF SVE_TRK_STAT.STATE 0 0, setF SVE_TRK_STAT.STATE 0 0]).run .reset, 0, 3, true, by decide +kernel⟩,
    ⟨(all [setF SVE_CMAP_CFG.ENABLE 0 1, setF SVE_CMAP_BASE.ADDR 0 0x110000, memSealed 0x110000000 [0x80000000, 0x80000005, 0x80000005, 0x80000005, 0x80000005, 0x80000005, 0x80000005], setR .SVE_SLOT_MAP 0 0xBA98, setF SVE_HEAD_STATE.STATE 0 2, setF SVE_HEAD_STATE.STATE 1 2, setF SVE_HEAD_STATE.STATE 2 2, setF SVE_HEAD_STATE.STATE 3 2, setF SVE_TRK_STAT.LOADED 0 1, setF SVE_SEEK_STAT.STATE 0 skTracking, setF SVE_TRK_STAT.STATE 0 0]).run .reset, 0, 1, false, by decide +kernel⟩,
    ⟨(all [setF SVE_CMAP_CFG.ENABLE 0 1, setF SVE_CMAP_BASE.ADDR 0 0x110000, memSealed 0x110000000 [0x80000000, 0x80000005, 0x80000005, 0x80000005, 0x80000005, 0x80000005, 0x80000005], setR .SVE_SLOT_MAP 0 0xBA98, setF SVE_HEAD_STATE.STATE 0 2, setF SVE_HEAD_STATE.STATE 1 2, setF SVE_HEAD_STATE.STATE 2 2, setF SVE_HEAD_STATE.STATE 3 2, setF SVE_TRK_STAT.LOADED 0 1, setF SVE_SEEK_STAT.STATE 0 skTracking, setF SVE_TRK_STAT.STATE 0 0]).run .reset, 0, 1, false, by decide +kernel⟩,
    ⟨(all [setF SPN_STAT.AT_SPEED 0 1]).run .reset, 2, by decide +kernel⟩,
    ⟨.reset, 2, by decide +kernel⟩,
    ⟨(all [setF SVE_SEEK_STAT.STATE 2 skLoading, setF SVE_RAMP_CFG.LD_RETRY 0 1, .upd (.ptm fun p => { p with ticks := 4000000 })]).run .reset, 2, by decide +kernel⟩,
    ⟨(all [setF FCU_SRC_CFG.N 222 5, setF SVE_SEEK_STAT.STATE 2 skLoading, setF SVE_RAMP_CFG.LD_RETRY 0 0, .upd (.ptm fun p => { p with ticks := 4000000 })]).run .reset, 2, by unfold State.quiet; decide +kernel⟩,
    ⟨(all [setF SVE_TRK_STAT.LOADED 0 1, setF SVE_SEEK_STAT.STATE 0 skTracking]).run .reset, 0, by decide +kernel⟩,
    ⟨(all [setF SVE_SEEK_STAT.STATE 0 skSettle, setSeek 0 fun k => { k with slots := 2, settleWedges := 9999 }]).run .reset, 0, 1, by decide +kernel⟩⟩

theorem witness_VibrationAndShock :
    (∃ (s : State) (_v0 _v1 _v2 _v3 _v4 _v5 : BitVec 16) (a : Fin 4), (s.on SVE_VFF_CTL.EN a = true)) ∧
    (∃ (s : State) (src : Fin 4) (peak : BitVec 8), (s.bitF SVE_SHK_CFG.SHK_EN 0 src = true) ∧ (s.get SVE_SHK_CFG.SHK_THR 0 ≤ peak.toNat) ∧ (s.wrc.shock =
      false) ∧ (s.normalService = true)) ∧
    (∃ (s : State) (src : Fin 4) (peak : BitVec 8), (s.bitF SVE_SHK_CFG.SHK_EN 0 src = true) ∧ (s.get SVE_SHK_CFG.SHK_THR 0 ≤ peak.toNat) ∧ (s.wrc.shock = true)) ∧
    (∃ (s : State) (src : Fin 4) (peak : BitVec 8), (s.bitF SVE_SHK_CFG.SHK_EN 0 src = true) ∧ (s.get SVE_SHK_CFG.SHK_THR 0 ≤ peak.toNat) ∧ (s.wrc.shock =
      false) ∧ (s.svc.calClass ≠ 1) ∧ (s.svc.calItem ≠ 7)) ∧
    (∃ (s : State) (src : Fin 4) (peak : BitVec 8), (s.bitF SVE_SHK_CFG.SHK_EN 0 src = false ∨ peak.toNat < s.get SVE_SHK_CFG.SHK_THR 0)) ∧
    (∃ (s : State), (s.wrc.shock = true) ∧ (s.sve.shkSeen + 800 * s.get SVE_SHK_CFG.SHK_HOLD 0 ≤ s.ptm.ticks) ∧ (s.alm.staged.length < stagingSize)) ∧
    (∃ (s : State), (s.wrc.shock = true) ∧ (s.sve.shkSeen + 800 * s.get SVE_SHK_CFG.SHK_HOLD 0 ≤ s.ptm.ticks)) ∧
    (∃ (s : State) (_v : BitVec 34) (_len : BitVec 16) (_th : BitVec 32), (s.on SPL_CFG.EN 0 = false) ∧ (s.splState = mbOff) ∧ (s.spl.leaveFrames = 0) ∧
      (s.spl.stepPend = none) ∧ (s.spl.adopt = none)) ∧
    (∃ (s : State) (_v : BitVec 34) (_len : BitVec 16) (_th : BitVec 32), (s.normalService = true)) ∧
    (∃ (_s : State) (_a : Fin 4) (v : Word), (slotMapValid v.toNat = true)) ∧
    (∃ (s : State) (_a : Fin 4) (v : Word), (slotMapValid v.toNat = false) ∧ (s.quiet 227)) ∧
    (∃ (s : State) (h : Fin 24) (v : Word), (v.toNat % 8 = s.headState h) ∧ (v.toNat % 8 ≤ 5)) ∧
    (∃ (s : State) (h : Fin 24) (v : Word), (headLegal (s.mode == mService) (s.headState h) (v.toNat % 8) = true) ∧ (v.toNat % 8 ≤ 5) ∧ (s.normalService = true
      ∨ v.toNat % 8 ≠ hDegraded ∧ v.toNat % 8 ≠ hFailed)) ∧
    (∃ (s : State) (h : Fin 24) (v : Word), (s.headState h = hFailed) ∧ (v.toNat % 8 = hRetired)) ∧
    (∃ (s : State) (h : Fin 24) (v : Word), (s.headState h ≠ hAbsent) ∧ (5 < v.toNat % 8 ∨ (v.toNat % 8 ≠ s.headState h ∧ headLegal false (s.headState h)
      (v.toNat % 8) = false)) ∧ (s.quiet 227)) :=
  ⟨⟨(all [setF SVE_VFF_CTL.EN 3 1]).run .reset, 1, 2, 3, 4, 5, 6, 3, by decide +kernel⟩,
    ⟨(all [setF PTM_MODE_STAT.MODE 0 1, setF SVE_SHK_CFG.SHK_EN 0 8, setF WRC_WR_STAT.GATE 2 1]).run .reset, 3, 200, by decide +kernel⟩,
    ⟨(all [.upd (.wrc fun x => { x with shock := true }), setF SVE_SHK_CFG.SHK_EN 0 8]).run .reset, 3, 200, by decide +kernel⟩,
    ⟨(all [setF SVE_SHK_CFG.SHK_EN 0 8, setF WRC_WR_STAT.GATE 2 1]).run .reset, 3, 200, by decide +kernel⟩,
    ⟨.reset, 3, 0, by decide +kernel⟩,
    ⟨(all [.upd (.ptm fun x => { x with ticks := 2 ^ 40 }), .upd (.wrc fun x => { x with shock := true })]).run .reset, by decide +kernel⟩,
    ⟨(all [.upd (.ptm fun x => { x with ticks := 2 ^ 40 }), .upd (.wrc fun x => { x with shock := true })]).run .reset, by decide +kernel⟩,
    ⟨.reset, 5, 8000, 6, by decide +kernel⟩,
    ⟨(all [setF PTM_MODE_STAT.MODE 0 1]).run .reset, 5, 8000, 6, by decide +kernel⟩,
    ⟨.reset, 3, 0xBA98, by decide +kernel⟩,
    ⟨(all [setF FCU_SRC_CFG.N 227 5]).run .reset, 3, 7, by unfold State.quiet; decide +kernel⟩,
    ⟨.reset, 3, 0x50, by decide +kernel⟩,
    ⟨(all [setF SVE_HEAD_STATE.STATE 3 4]).run .reset, 3, 5, by decide +kernel⟩,
    ⟨(all [setF SVE_HEAD_STATE.STATE 3 4]).run .reset, 3, 5, by decide +kernel⟩,
    ⟨(all [setF FCU_SRC_CFG.N 227 5, setF SVE_HEAD_STATE.STATE 3 4]).run .reset, 3, 1, by unfold State.quiet; decide +kernel⟩⟩

theorem witness_SpindleStart :
    (∃ (s : State), (s.spn? = spOff) ∧ (s.get SPN_MOTOR.POLES 0 ≠ 0) ∧ (s.spn.rotor = 0)) ∧
    (∃ (s : State), (s.spn? = spOff) ∧ (s.get SPN_MOTOR.POLES 0 = 0)) ∧
    (∃ (s : State), (s.spn? = spOff) ∧ (s.get SPN_MOTOR.POLES 0 ≠ 0) ∧ (256 * s.hoRpm ≤ s.spn.rotor)) ∧
    (∃ (s : State), (s.spn? = spOff) ∧ (s.get SPN_MOTOR.POLES 0 ≠ 0) ∧ (0 < s.spn.rotor) ∧ (s.spn.rotor < 256 * s.hoRpm)) ∧
    (∃ (s : State), (s.spn? = spBrake)) ∧
    (∃ (s : State), (s.spn? = spShort)) ∧
    (∃ (s : State), (s.spn? = spAccel ∨ s.spn? = spRun ∨ s.spn? = spChange)) ∧
    (∃ (s : State), (s.spn? = spAccel ∨ s.spn? = spRun ∨ s.spn? = spChange)) ∧
    (∃ (s : State), (s.spn? = spSense ∨ s.spn? = spRamp ∨ s.spn? = spCatch ∨ s.spn? = spShort)) ∧
    (∃ (s : State) (_pk : BitVec 16), (s.spn? = spSense) ∧ (s.spn.aligning = false) ∧ (s.spn.peaks.length < 11)) ∧
    (∃ (s : State) (pk : BitVec 16) (b : Nat × Int), (s.spn? = spSense) ∧ (s.spn.aligning = false) ∧ (s.spn.peaks.length = 11) ∧ (b = senseBest (s.spn.peaks ++
      [pk.toNat])) ∧ (2 * ((s.spn.peaks ++ [pk.toNat]).sum : Int) ≤ 1200 * b.2)) ∧
    (∃ (s : State) (pk : BitVec 16), (s.spn? = spSense) ∧ (s.spn.aligning = false) ∧ (s.spn.peaks.length = 11) ∧ (1200 * (senseBest (s.spn.peaks ++
      [pk.toNat])).2 < 2 * ((s.spn.peaks ++ [pk.toNat]).sum : Int))) ∧
    (∃ (s : State), (s.spn? = spSense) ∧ (s.spn.aligning = true) ∧ (s.spn.since + 200 * tickMs ≤ s.ptm.ticks)) ∧
    (∃ (s : State), (s.spn? = spRamp) ∧ (100 ≤ s.spn.hoPeriods)) ∧
    (∃ (s : State), (s.spn? = spCatch) ∧ (s.spn.since + 200 * tickMs ≤ s.ptm.ticks)) ∧
    (∃ (s : State), (s.spn? = spShort) ∧ (s.spn.startPend = false)) ∧
    (∃ (s : State), (s.spn? = spShort) ∧ (s.spn.startPend = true) ∧ (s.spn.attempts < s.suTry)) ∧
    (∃ (s : State), (s.spn? = spShort) ∧ (s.spn.startPend = true) ∧ (s.suTry ≤ s.spn.attempts) ∧ (s.normalService = true)) ∧
    (∃ (s : State), (s.spn? = spShort) ∧ (s.spn.startPend = true) ∧ (s.suTry ≤ s.spn.attempts) ∧ (s.quiet 249)) :=
  ⟨⟨(all [setF SPN_MOTOR.POLES 0 6]).run .reset, by decide +kernel⟩,
    ⟨(all [setF SPN_MOTOR.POLES 0 0]).run .reset, by decide +kernel⟩,
    ⟨(all [setF SPN_MOTOR.POLES 0 6, .upd (.spn fun x => { x with rotor := 999999 })]).run .reset, by decide +kernel⟩,
    ⟨(all [setF SPN_MOTOR.POLES 0 6, .upd (.spn fun x => { x with rotor := 9 })]).run .reset, by decide +kernel⟩,
    ⟨(all [setF SPN_STAT.STATE 0 6]).run .reset, by decide +kernel⟩,
    ⟨(all [setF SPN_STAT.STATE 0 7]).run .reset, by decide +kernel⟩,
    ⟨(all [setF SPN_STAT.STATE 0 4, setF WRC_WR_STAT.GATE 1 1]).run .reset, by decide +kernel⟩,
    ⟨(all [setF SPN_STAT.STATE 0 4, setF WRC_WR_STAT.GATE 1 1]).run .reset, by decide +kernel⟩,
    ⟨(all [setF SPN_STAT.STATE 0 2]).run .reset, by decide +kernel⟩,
    ⟨(all [setF SPN_STAT.STATE 0 1]).run .reset, 7, by decide +kernel⟩,
    ⟨(all [setF SPN_STAT.STATE 0 1, .upd (.spn fun x => { x with peaks := [9, 100, 9, 9, 9, 9, 9, 9, 9, 9, 9] })]).run .reset, 9, (1, 91), by decide +kernel⟩,
    ⟨(all [setF SPN_STAT.STATE 0 1, .upd (.spn fun x => { x with peaks := [9, 9, 9, 9, 9, 9, 9, 9, 9, 9, 9] })]).run .reset, 9, by decide +kernel⟩,
    ⟨(all [setF SPN_STAT.STATE 0 1, .upd (.ptm fun p => { p with ticks := 4000000 }), .upd (.spn fun x => { x with aligning := true })]).run .reset, by decide +kernel⟩,
    ⟨(all [setF SPN_STAT.STATE 0 2, .upd (.spn fun x => { x with hoPeriods := 100 })]).run .reset, by decide +kernel⟩,
    ⟨(all [setF SPN_STAT.STATE 0 8, .upd (.ptm fun p => { p with ticks := 4000000 })]).run .reset, by decide +kernel⟩,
    ⟨(all [setF SPN_STAT.STATE 0 7]).run .reset, by decide +kernel⟩,
    ⟨(all [setF SPN_STAT.STATE 0 7, .upd (.spn fun x => { x with startPend := true })]).run .reset, by decide +kernel⟩,
    ⟨(all [setF PTM_MODE_STAT.MODE 0 1, setF SPN_STAT.STATE 0 7, .upd (.spn fun x => { x with startPend := true, attempts := 99 })]).run .reset, by decide +kernel⟩,
    ⟨(all [setF FCU_SRC_CFG.N 249 5, setF SPN_STAT.STATE 0 7, .upd (.spn fun x => { x with startPend := true, attempts := 99 })]).run .reset, by unfold State.quiet; decide +kernel⟩⟩

theorem witness_SpindleControl :
    (∃ (s : State) (_th : BitVec 16) (n : BitVec 22) (_eu _ev _ew _er : BitVec 16), (s.get PTM_CW_STAT.LINK 0 = 2) ∧ (s.spn? = spCatch) ∧ (256 * s.hoRpm ≤
      n.toNat)) ∧
    (∃ (s : State) (_th : BitVec 16) (n : BitVec 22) (_eu _ev _ew _er : BitVec 16) (_l : Bool), (s.get PTM_CW_STAT.LINK 0 = 2) ∧ (s.spn? = spCatch) ∧ (256 *
      s.hoRpm ≤ n.toNat)) ∧
    (∃ (s : State) (_th : BitVec 16) (n : BitVec 22) (_eu _ev _ew _er : BitVec 16) (_l : Bool), (s.get PTM_CW_STAT.LINK 0 = 2) ∧ (s.spn? = spCatch) ∧ (n.toNat <
      256 * s.hoRpm)) ∧
    (∃ (s : State) (_th : BitVec 16) (_n : BitVec 22) (_eu _ev _ew _er : BitVec 16) (_l : Bool), (s.get PTM_CW_STAT.LINK 0 = 2) ∧ (s.spn? = spOff ∨ s.spn? =
      spSense ∨ s.spn? = spShort)) ∧
    (∃ (s : State) (_th : BitVec 16) (n : BitVec 22) (eu ev ew er : BitVec 16) (_l : Bool), (s.get PTM_CW_STAT.LINK 0 = 2) ∧ (s.spn? = spRun) ∧ (s.emfLow
      n.toNat eu.toInt ev.toInt ew.toInt = false ∧ phaseOff er = false)) ∧
    (∃ (s : State) (_th : BitVec 16) (n : BitVec 22) (eu ev ew _er : BitVec 16) (_l : Bool), (s.get PTM_CW_STAT.LINK 0 = 2) ∧ (s.spn? = spAccel ∨ s.spn? = spRun
      ∨ s.spn? = spChange) ∧ (47 ≤ s.spn.lossPeriods) ∧ (s.emfLow n.toNat eu.toInt ev.toInt ew.toInt = true ∧ 256 * s.hoRpm ≤ n.toNat) ∧ (s.normalService =
      true)) ∧
    (∃ (s : State) (_th : BitVec 16) (n : BitVec 22) (eu ev ew er : BitVec 16) (_l : Bool), (s.get PTM_CW_STAT.LINK 0 = 2) ∧ (s.spn? = spBrake) ∧ (s.emfLow
      n.toNat eu.toInt ev.toInt ew.toInt = false ∧ phaseOff er = false)) ∧
    (∃ (s : State) (_th : BitVec 16) (_n : BitVec 22) (_eu _ev _ew _er : BitVec 16) (_l : Bool), (s.get PTM_CW_STAT.LINK 0 = 2) ∧ (s.spn? = spRamp)) ∧
    (∃ (s : State), (s.spn? = spAccel ∨ s.spn? = spRun ∨ s.spn? = spChange ∨ s.spn? = spBrake) ∧ (s.normalService = true)) ∧
    (∃ (s : State), (s.spn? = spAccel ∨ s.spn? = spRun ∨ s.spn? = spChange ∨ s.spn? = spBrake) ∧ (s.quiet 248)) ∧
    (∃ (s : State) (_v : BitVec 14), (s.spn? = spOff ∨ s.spn? = spShort ∨ s.spn? = spHanded)) ∧
    (∃ (s : State) (_v : BitVec 14), (s.spn? = spRun ∨ s.spn? = spChange) ∧ (s.get SVE_TRK_STAT.LOADED 0 ≠ 0)) ∧
    (∃ (s : State) (v : BitVec 14), (s.spn? = spRun) ∧ (s.get SVE_TRK_STAT.LOADED 0 = 0) ∧ (s.get SPN_CTL.SPD_SET 0 ≠ clampN 5400 10000 v.toNat)) ∧
    (∃ (s : State) (_v : BitVec 14), (s.spn? = spAccel ∨ s.spn? = spBrake)) ∧
    (∃ (s : State) (_v : BitVec 14), (s.spn? = spSense ∨ s.spn? = spRamp ∨ s.spn? = spCatch)) ∧
    (∃ (s : State) (k : Fin 3), ((bankOf fun i => s.get SPN_COEF.W (k.val * 128 + i)).inverted = false)) ∧
    (∃ (s : State) (k : Fin 3), ((bankOf fun i => s.get SPN_COEF.W (k.val * 128 + i)).inverted = true)) :=
  ⟨⟨(all [setF SPN_STAT.STATE 0 8, setF PTM_CW_STAT.LINK 0 2]).run .reset, 0, 0x3FFFFF, 0, 0, 0, 0, by decide +kernel⟩,
    ⟨(all [setF SPN_STAT.STATE 0 8, setF PTM_CW_STAT.LINK 0 2]).run .reset, 0, 0x3FFFFF, 0, 0, 0, 0, true, by decide +kernel⟩,
    ⟨(all [setF SPN_STAT.STATE 0 8, setF PTM_CW_STAT.LINK 0 2]).run .reset, 0, 5, 0, 0, 0, 0, true, by decide +kernel⟩,
    ⟨(all [setF PTM_CW_STAT.LINK 0 2]).run .reset, 0, 5, 0, 0, 0, 0, true, by decide +kernel⟩,
    ⟨(all [setF SPN_STAT.STATE 0 4, setF PTM_CW_STAT.LINK 0 2]).run .reset, 0, 5, 0, 0, 0, 0, true, by decide +kernel⟩,
    ⟨(all [setF PTM_MODE_STAT.MODE 0 1, setF SPN_MOTOR.KE 0 105, setF SPN_STAT.STATE 0 4, setF PTM_CW_STAT.LINK 0 2, .upd (.spn fun x => { x with lossPeriods := 47 })]).run .reset, 0, 0x3FFFFF, 0, 0, 0, 0, true, by decide +kernel⟩,
    ⟨(all [setF SPN_STAT.STATE 0 6, setF PTM_CW_STAT.LINK 0 2]).run .reset, 0, 5, 0, 0, 0, 0, true, by decide +kernel⟩,
    ⟨(all [setF SPN_STAT.STATE 0 2, setF PTM_CW_STAT.LINK 0 2]).run .reset, 0, 5, 0, 0, 0, 0, true, by decide +kernel⟩,
    ⟨(all [setF PTM_MODE_STAT.MODE 0 1, setF SPN_STAT.STATE 0 4]).run .reset, by decide +kernel⟩,
    ⟨(all [setF FCU_SRC_CFG.N 248 5, setF SPN_STAT.STATE 0 4]).run .reset, by unfold State.quiet; decide +kernel⟩,
    ⟨.reset, 0, by decide +kernel⟩,
    ⟨(all [setF SPN_STAT.STATE 0 4, setF SVE_TRK_STAT.LOADED 0 1]).run .reset, 0x3FFF, by decide +kernel⟩,
    ⟨(all [setF SPN_STAT.STATE 0 4]).run .reset, 6000, by decide +kernel⟩,
    ⟨(all [setF SPN_STAT.STATE 0 3]).run .reset, 0x3FFF, by decide +kernel⟩,
    ⟨(all [setF SPN_STAT.STATE 0 2]).run .reset, 0x3FFF, by decide +kernel⟩,
    ⟨(all [setF SPN_COEF.W 300 9]).run .reset, 2, by decide +kernel⟩,
    ⟨(all [setF SPN_COEF.W 339 9]).run .reset, 2, by decide +kernel⟩⟩

theorem witness_StraitSides :
    (∃ (s : State), (s.on SPL_CFG.EN 0 = false)) ∧
    (∃ (s : State), (s.splState ≠ mbOff)) ∧
    (∃ (s : State), (s.splState ≠ mbOff) ∧ (s.link 0 = lkUp ∧ s.link 1 = lkUp)) ∧
    (∃ (s : State), (s.splState = mbOff)) ∧
    (∃ (s : State) (d : Fin 2), (s.on SPL_CFG.EN 0 = true) ∧ (s.link d = lkDown)) ∧
    (∃ (s : State) (d : Fin 2), (s.link d = lkTrain)) ∧
    (∃ (s : State) (d : Fin 2), (s.link d = lkTrain) ∧ (Sparse.get 0 s.spl.linkAt d + 20 * tickMs ≤ s.ptm.ticks)) ∧
    (∃ (s : State) (d : Fin 2) (_ver : BitVec 8) (_peer : Fin 512), (s.link d = lkHello)) ∧
    (∃ (s : State) (d : Fin 2), (s.link d = lkHello) ∧ (Sparse.get 0 s.spl.linkAt d + 800 ≤ s.ptm.ticks)) ∧
    (∃ (s : State) (d : Fin 2), (s.link d = lkUp) ∧ (s.normalService = true)) ∧
    (∃ (s : State) (d : Fin 2), (s.link d = lkUp) ∧ (s.quiet (256 + d))) ∧
    (∃ (s : State) (h : StraitHdr) (typ : BitVec 8) (_pl : List (BitVec 8)), (s.link h.side = lkUp) ∧ (h.origin.val ≠ s.ownId) ∧ (h.hops.val + 1 < 1023) ∧
      (s.link 0 = lkUp ∧ s.link 1 = lkUp) ∧ (0x10 ≤ typ.toNat ∧ typ.toNat ≤ 0x7F)) ∧
    (∃ (_s : State) (_h : StraitHdr) (typ : BitVec 8) (_pl : List (BitVec 8)), (typ.toNat < 0x10 ∨ 0x7F < typ.toNat)) :=
  ⟨⟨.reset, by decide +kernel⟩,
    ⟨(all [setF SPL_CFG.EN 0 1, setF SPL_STAT.STATE 0 mbMember]).run .reset, by decide +kernel⟩,
    ⟨(all [setF SPL_CFG.EN 0 1, setF SPL_STAT.STATE 0 mbMember, setF SPL_SIDE_STAT.LINK 0 3, setF SPL_SIDE_STAT.LINK 1 3]).run .reset, by decide +kernel⟩,
    ⟨.reset, by decide +kernel⟩,
    ⟨(all [setF SPL_CFG.EN 0 1]).run .reset, 1, by decide +kernel⟩,
    ⟨(all [setF SPL_SIDE_STAT.LINK 1 1]).run .reset, 1, by decide +kernel⟩,
    ⟨(all [setF SPL_SIDE_STAT.LINK 1 1, .upd (.ptm fun p => { p with ticks := 4000000 })]).run .reset, 1, by decide +kernel⟩,
    ⟨(all [setF SPL_CFG.EN 0 1, setF SPL_SIDE_STAT.LINK 1 2, setF SPL_STAT.STATE 0 1]).run .reset, 1, 0x20, 7, by decide +kernel⟩,
    ⟨(all [setF SPL_SIDE_STAT.LINK 1 2, .upd (.ptm fun p => { p with ticks := 4000000 })]).run .reset, 1, by decide +kernel⟩,
    ⟨(all [setF PTM_MODE_STAT.MODE 0 1, setF SPL_SIDE_STAT.LINK 1 3]).run .reset, 1, by decide +kernel⟩,
    ⟨(all [setF FCU_SRC_CFG.N 257 5, setF SPL_SIDE_STAT.LINK 1 3]).run .reset, 1, by unfold State.quiet; decide +kernel⟩,
    ⟨(all [setF SPL_SIDE_STAT.LINK 0 3, setF SPL_SIDE_STAT.LINK 1 3]).run .reset, { side := 0, origin := 5, hops := 1, seq := 9, s2v := true }, 0x55, [1, 2], by decide +kernel⟩,
    ⟨.reset, { side := 0, origin := 5, hops := 1, seq := 9, s2v := true }, 5, [], by decide +kernel⟩⟩

theorem witness_ArchipelagoMembers :
    (∃ (s : State) (h : StraitHdr) (_inst : BitVec 32) (_he _el _rl : Bool) (_ma : Fin 512) (_lv : BitVec 8) (_ver : BitVec 16), (s.link h.side = lkUp) ∧
      (h.origin.val ≠ s.ownId) ∧ (s.accepts h tBeacon = true) ∧ (s.splState ≠ mbOff)) ∧
    (∃ (s : State) (h : StraitHdr) (inst : BitVec 32) (_he _el _rl : Bool) (_ma : Fin 512) (_lv : BitVec 8) (_ver : BitVec 16), (h.origin.val = s.ownId) ∧
      (inst.toNat ≠ Config.splInstance % 2 ^ 32) ∧ (s.splState = mbJoining) ∧ (s.quiet 258)) ∧
    (∃ (s : State), (s.splState = mbMember ∨ s.splState = mbJoining) ∧ (s.link 0 = lkUp ∧ s.link 1 = lkUp)) ∧
    (∃ (s : State), (s.splState = mbMember ∨ s.splState = mbJoining)) ∧
    (∃ (s : State), (s.splState ≠ mbMember ∧ s.splState ≠ mbJoining)) ∧
    (∃ (s : State) (h : StraitHdr) (_inst : BitVec 32), (s.link h.side = lkUp) ∧ (h.origin.val ≠ s.ownId) ∧ (s.splState ≠ mbOff) ∧ (1 ≤ h.seq.val ∧ h.seq.val ≤
      127)) ∧
    (∃ (s : State) (h : StraitHdr), (s.link h.side = lkUp) ∧ (h.origin.val ≠ s.ownId) ∧ (s.accepts h tLeave = true) ∧ (s.splState ≠ mbOff)) ∧
    (∃ (s : State) (h : StraitHdr) (bc : Bool) (dest : Fin 512) (_data : List (BitVec 8)), (s.link h.side = lkUp) ∧ (h.origin.val ≠ s.ownId) ∧ (s.accepts h
      tRelay = true) ∧ (s.splState ≠ mbOff) ∧ (bc = true ∨ dest.val = s.ownId) ∧ (s.spl.rx.length < 32)) ∧
    (∃ (s : State) (h : StraitHdr) (bc : Bool) (dest : Fin 512) (_data : List (BitVec 8)), (s.link h.side = lkUp) ∧ (h.origin.val ≠ s.ownId) ∧ (s.accepts h
      tRelay = true) ∧ (s.splState ≠ mbOff) ∧ (bc = true ∨ dest.val = s.ownId) ∧ (32 ≤ s.spl.rx.length)) ∧
    (∃ (s : State), (s.on SPL_RLY_CTL.TX_BUSY 0 = false) ∧ (s.link 0 = lkUp ∧ s.link 1 = lkUp)) ∧
    (∃ (s : State), (s.on SPL_RLY_CTL.TX_BUSY 0 = false)) ∧
    (∃ (s : State), (s.on SPL_RLY_CTL.TX_BUSY 0 = true)) :=
  ⟨⟨(all [setF SPL_SIDE_STAT.LINK 0 3, setF SPL_STAT.STATE 0 mbMember]).run .reset, { side := 0, origin := 5, hops := 1, seq := 9, s2v := true }, 7, true, true, true, 3, 9, 1, by decide +kernel⟩,
    ⟨(all [setF FCU_SRC_CFG.N 258 5, setF SPL_STAT.STATE 0 2]).run .reset, { side := 0, origin := 0, hops := 1, seq := 9, s2v := true }, BitVec.ofNat 32 (Config.splInstance + 1), true, true, true, 3, 9, 1, by decide, by simp; omega, by decide, by unfold State.quiet; decide⟩,
    ⟨(all [setF SPL_STAT.STATE 0 mbMember, setF SPL_SIDE_STAT.LINK 0 3, setF SPL_SIDE_STAT.LINK 1 3]).run .reset, by decide +kernel⟩,
    ⟨(all [setF SPL_STAT.STATE 0 mbMember]).run .reset, by decide +kernel⟩,
    ⟨.reset, by decide +kernel⟩,
    ⟨(all [setF SPL_SIDE_STAT.LINK 0 3, setF SPL_STAT.STATE 0 mbMember]).run .reset, { side := 0, origin := 5, hops := 1, seq := 9, s2v := true }, 7, by decide +kernel⟩,
    ⟨(all [setF SPL_SIDE_STAT.LINK 0 3, setF SPL_STAT.STATE 0 mbMember, .upd (.spl fun x => { x with members := [(5, {})] })]).run .reset, { side := 0, origin := 5, hops := 1, seq := 9, s2v := true }, by decide +kernel⟩,
    ⟨(all [setF SPL_SIDE_STAT.LINK 0 3, setF SPL_STAT.STATE 0 mbMember]).run .reset, { side := 0, origin := 5, hops := 1, seq := 9, s2v := true }, true, 0, [1, 2], by decide +kernel⟩,
    ⟨(all [setF SPL_SIDE_STAT.LINK 0 3, setF SPL_STAT.STATE 0 mbMember, .upd (.spl fun x => { x with rx := List.replicate 32 [] })]).run .reset, { side := 0, origin := 5, hops := 1, seq := 9, s2v := true }, true, 0, [1, 2], by decide +kernel⟩,
    ⟨(all [setF SPL_STAT.STATE 0 mbMember, setF SPL_SIDE_STAT.LINK 0 3, setF SPL_SIDE_STAT.LINK 1 3]).run .reset, by decide +kernel⟩,
    ⟨(all [setF SPL_STAT.STATE 0 mbMember]).run .reset, by decide +kernel⟩,
    ⟨(all [setF SPL_RLY_CTL.TX_BUSY 0 1]).run .reset, by decide +kernel⟩⟩

theorem witness_ArchipelagoTime :
    (∃ (s : State) (d : Fin 2) (_t1 _t2 _t3 : Stamp), (s.link d = lkUp)) ∧
    (∃ (s : State) (d : Fin 2) (_t1 _t2 _t3 _t4 : Stamp), (s.link d = lkUp)) ∧
    (∃ (s : State) (h : StraitHdr) (_tf : BitVec 64) (_corr : BitVec 32) (_rx : Stamp), (s.link h.side = lkUp) ∧ (s.accepts h tTime = true) ∧ (s.splState ≠
      mbOff)) ∧
    (∃ (s : State) (h : StraitHdr) (_tf : BitVec 64) (_corr : BitVec 32) (_rx : Stamp), (s.link h.side = lkUp) ∧ (h.origin.val ≠ s.ownId) ∧ (s.spl.hasMaster =
      true) ∧ (h.origin.val = s.get SPL_STAT.MASTER_ID 0) ∧ (s.spl.timeCopy = none) ∧ (s.accepts h tTime = true)) ∧
    (∃ (s : State) (h : StraitHdr) (ver : BitVec 16) (part : Fin 11) (_es : List (BitVec 8)) (ps : PlanSet), (s.link h.side = lkUp) ∧ (h.origin.val ≠ s.ownId) ∧
      (s.accepts h tPlan = true) ∧ (s.splState ≠ mbOff) ∧ (s.spl.plans = [ps]) ∧ (ps.ver = ver.toNat ∧ ps.origin = h.origin.val) ∧ (ps.parts.length = 10) ∧
      (∀ e ∈ ps.parts, e.1 ≠ part.val) ∧ (newer 65536 ver.toNat (s.get SPL_PLAN_CTL.VER 0) = true)) ∧
    (∃ (s : State) (h : StraitHdr) (_ver : BitVec 16) (_part : Fin 11) (_es : List (BitVec 8)), (s.link h.side = lkUp) ∧ (h.origin.val ≠ s.ownId) ∧ (s.accepts h
      tPlan = true) ∧ (s.splState ≠ mbOff)) ∧
    (∃ (s : State) (h : StraitHdr) (_ver : BitVec 16) (_part : Fin 11) (_es : List (BitVec 8)), (s.link h.side = lkUp) ∧ (h.origin.val ≠ s.ownId) ∧ (s.accepts h
      tPlan = true) ∧ (s.splState ≠ mbOff) ∧ (s.spl.plans = [])) ∧
    (∃ (s : State) (o : Fin 512) (ver : BitVec 16), (s.spl.plans.any (fun p => p.origin == o.val && p.ver == ver.toNat && decide (p.since + 10 * tickMs ≤
      s.ptm.ticks)) = true)) ∧
    (∃ (s : State) (v : Nat), (v = (if (s.get SPL_PLAN_CTL.VER 0 + 1) % 65536 = 0 then 1 else s.get SPL_PLAN_CTL.VER 0 + 1)) ∧ (s.splState = mbOff)) ∧
    (∃ (s : State), (s.splState ≠ mbOff)) ∧
    (∃ (s : State) (h : StraitHdr) (_pk : BitVec 8) (_src : Fin 8) (_tm : BitVec 64), (s.link h.side = lkUp) ∧ (h.origin.val ≠ s.ownId) ∧ (s.accepts h tFwarn =
      true) ∧ (s.splState ≠ mbOff) ∧ (s.normalService = true)) ∧
    (∃ (s : State) (h : StraitHdr) (_pk : BitVec 8) (_src : Fin 8) (_tm : BitVec 64), (s.link h.side = lkUp) ∧ (h.origin.val ≠ s.ownId) ∧ (s.accepts h tFwarn =
      true) ∧ (s.splState ≠ mbOff) ∧ (s.on SPL_FW_CFG.RX_EN 0 = true) ∧ (s.get SPL_FW_CFG.FW_WIN 0 ≠ 0) ∧ (h.hops.val ≤ max 1 (s.get SPL_FW_CFG.FW_RADIUS
      0))) ∧
    (∃ (s : State), (s.wrc.forewarn = true) ∧ (s.spl.fwAt + 800 * min 500 (s.get SPL_FW_CFG.FW_WIN 0) ≤ s.ptm.ticks)) ∧
    (∃ (s : State) (tp : Stamp), (s.merSrc = 1) ∧ (s.on SPL_CFG.EN 0 = true) ∧ (s.on SPL_STAT.REF_LOCK 0 = false ∨ (let u := tp.units - 16 * (s.get
      SPL_MER_CFG.MER_DLY 0 : Int); (8000 * tickUnits * roundDiv u (8000 * tickUnits) - u).natAbs ≤ ((max 1 (s.get SPL_MER_CFG.PULSE_WIN 0) : Nat) :
      Int).natAbs * tickUnits))) :=
  ⟨⟨(all [setF SPL_SIDE_STAT.LINK 1 3]).run .reset, 1, ⟨1, 2⟩, ⟨3, 4⟩, ⟨5, 6⟩, by decide +kernel⟩,
    ⟨(all [setF SPL_SIDE_STAT.LINK 1 3]).run .reset, 1, ⟨1, 2⟩, ⟨3, 4⟩, ⟨5, 6⟩, ⟨9, 1⟩, by decide +kernel⟩,
    ⟨(all [setF SPL_SIDE_STAT.LINK 0 3, setF SPL_STAT.STATE 0 mbMember]).run .reset, { side := 0, origin := 5, hops := 1, seq := 9, s2v := true }, 1, 2, ⟨3, 4⟩, by decide +kernel⟩,
    ⟨(all [setF SPL_SIDE_STAT.LINK 0 3, setF SPL_STAT.STATE 0 mbMember, .upd (.spl fun x => { x with hasMaster := true }), setF SPL_STAT.MASTER_ID 0 5]).run .reset, { side := 0, origin := 5, hops := 1, seq := 9, s2v := true }, 1, 2, ⟨3, 4⟩, by decide +kernel⟩,
    ⟨(all [setF SPL_SIDE_STAT.LINK 0 3, setF SPL_STAT.STATE 0 mbMember, .upd (.spl fun x => { x with plans := [{ ver := 2, origin := 5, parts := (List.range 10).map fun k => (k, [k]) }] })]).run .reset, { side := 0, origin := 5, hops := 1, seq := 9, s2v := true }, 2, 10, [1, 2], { ver := 2, origin := 5, parts := (List.range 10).map fun k => (k, [k]) }, by decide +kernel⟩,
    ⟨(all [setF SPL_SIDE_STAT.LINK 0 3, setF SPL_STAT.STATE 0 mbMember]).run .reset, { side := 0, origin := 5, hops := 1, seq := 9, s2v := true }, 2, 10, [1, 2], by decide +kernel⟩,
    ⟨(all [setF SPL_SIDE_STAT.LINK 0 3, setF SPL_STAT.STATE 0 mbMember]).run .reset, { side := 0, origin := 5, hops := 1, seq := 9, s2v := true }, 2, 10, [1, 2], by decide +kernel⟩,
    ⟨(all [.upd (.spl fun x => { x with plans := [{ ver := 2, origin := 5, parts := (List.range 10).map fun k => (k, [k]) }] }), .upd (.ptm fun p => { p with ticks := 4000000 })]).run .reset, 5, 2, by decide +kernel⟩,
    ⟨(all [setF SPL_PLAN_TX.W 127 0x8F, setF SPL_PLAN_CTL.VER 0 65535]).run .reset, 1, by decide +kernel⟩,
    ⟨(all [setF SPL_STAT.STATE 0 mbMember, setF SPL_SIDE_STAT.LINK 0 3, setF SPL_SIDE_STAT.LINK 1 3]).run .reset, by decide +kernel⟩,
    ⟨(all [setF PTM_MODE_STAT.MODE 0 1, setF SPL_SIDE_STAT.LINK 0 3, setF SPL_STAT.STATE 0 mbMember]).run .reset, { side := 0, origin := 5, hops := 1, seq := 9, s2v := true }, 9, 1, 5, by decide +kernel⟩,
    ⟨(all [setF SPL_SIDE_STAT.LINK 0 3, setF SPL_STAT.STATE 0 mbMember, setF SPL_FW_CFG.RX_EN 0 1, setF SPL_FW_CFG.FW_WIN 0 3, setF WRC_WR_STAT.GATE 4 1]).run .reset, { side := 0, origin := 5, hops := 1, seq := 9, s2v := true }, 9, 1, 5, by decide +kernel⟩,
    ⟨(all [.upd (.wrc fun x => { x with forewarn := true }), .upd (.ptm fun p => { p with ticks := 2 ^ 40 })]).run .reset, by decide +kernel⟩,
    ⟨(all [setF SPL_CFG.EN 0 1, setF SPL_CFG.SRC 0 1, setF SPL_STAT.REF_LOCK 0 0]).run .reset, ⟨5, 6⟩, by decide +kernel⟩⟩

theorem witness_KeySlots :
    (∃ (s : State) (k : Fin 128) (_g : Fin 64) (_he : Bool), (s.on MPC_KEY_CTL.BUSY 0 = false) ∧ (s.get MPC_KEY_STAT.DIRTY k = 0) ∧ (s.keyData.take 32 ≠
      s.keyData.drop 32)) ∧
    (∃ (s : State) (k : Fin 128) (_g : Fin 64) (_he : Bool), (s.on MPC_KEY_CTL.BUSY 0 = false) ∧ (s.get MPC_KEY_STAT.DIRTY k = 0) ∧ (s.keyData.take 32 =
      s.keyData.drop 32)) ∧
    (∃ (s : State) (k : Fin 128) (_g : Fin 64) (_he : Bool), (s.on MPC_KEY_CTL.BUSY 0 = false) ∧ (s.get MPC_KEY_STAT.DIRTY k ≠ 0)) ∧
    (∃ (s : State) (_k : Fin 128) (_g : Fin 64) (_he : Bool), (s.on MPC_KEY_CTL.BUSY 0 = true)) ∧
    (∃ (s : State) (k : Fin 128), (s.on MPC_KEY_CTL.BUSY 0 = false) ∧ (s.keyState k ≠ 0)) ∧
    (∃ (s : State) (k : Fin 128), (s.on MPC_KEY_CTL.BUSY 0 = false) ∧ (s.keyState k ≠ 0)) ∧
    (∃ (s : State) (k : Fin 128), (s.on MPC_KEY_CTL.BUSY 0 = false) ∧ (s.keyState k = 0)) ∧
    (∃ (s : State) (k : Fin 128), (s.on MPC_KEY_CTL.BUSY 0 = false) ∧ (s.get MPC_KEY_STAT.DIRTY k = 0)) ∧
    (∃ (s : State) (k : Fin 128), (s.on MPC_KEY_CTL.BUSY 0 = false) ∧ (s.get MPC_KEY_STAT.DIRTY k ≠ 0)) :=
  ⟨⟨(all [(all ((List.range 16).map fun i => setF MPC_KEY_DATA.KEY i (i + 1)))]).run .reset, 3, 7, true, by decide +kernel⟩,
    ⟨.reset, 3, 7, true, by decide +kernel⟩,
    ⟨(all [setF MPC_KEY_STAT.DIRTY 3 1]).run .reset, 3, 7, true, by decide +kernel⟩,
    ⟨(all [setF MPC_KEY_CTL.BUSY 0 1]).run .reset, 3, 7, true, by decide +kernel⟩,
    ⟨(all [setF MPC_KEY_STAT.STATE 3 2]).run .reset, 3, by decide +kernel⟩,
    ⟨(all [setF MPC_KEY_STAT.STATE 3 1]).run .reset, 3, by decide +kernel⟩,
    ⟨.reset, 3, by decide +kernel⟩,
    ⟨(all [setF MPC_KEY_STAT.STATE 3 1, .upd (.mpc fun x => { x with keys := [(3, [1])] })]).run .reset, 3, by decide +kernel⟩,
    ⟨(all [setF MPC_KEY_STAT.DIRTY 3 1]).run .reset, 3, by decide +kernel⟩⟩

theorem witness_MembersAndEncoding :
    (∃ (s : State) (row : Fin (2 ^ 40)) (j : Fin 16) (stt : Fin 4) (_kd : Fin 4) (_bs : List Byte) (_rel : List (Fin 16)) (_crcs : List (Fin 16 × Word)) (n :
      Nat), (s.mpc.ctxs = []) ∧ (s.rdc.unrec = []) ∧ (s.cqe.cmds = []) ∧ (s.nsOfRow row = some n) ∧ (stt.val < 2) ∧ (s.on MPC_CFG.CHK_EN 0 = true) ∧ (s.nsM
      n ≠ 0) ∧ (((Sparse.get [] s.mpc.gather row).filter (fun e => e.1 != j.val)).length < 15)) ∧
    (∃ (s : State) (row : Fin (2 ^ 40)) (_j : Fin 16) (stt : Fin 4) (_bs : List Byte) (_rel : List (Fin 16)) (_crcs : List (Fin 16 × Word)) (n : Nat),
      (s.mpc.ctxs = []) ∧ (s.rdc.unrec = []) ∧ (s.cqe.cmds = []) ∧ (s.nsOfRow row = some n) ∧ (2 ≤ stt.val) ∧ (s.nsM n ≠ 0) ∧ (s.ctxRoom 1 = true) ∧
      (s.rdc.erased = []) ∧ ((List.range 16).all (fun i => !s.memberLost row i) = true) ∧ (s.accessFault .mpc atWrite (s.get MPC_WORK_BASE.ADDR 0 * 65536)
      65536 = none) ∧ (s.region (s.get MPC_WORK_BASE.ADDR 0 * 65536) 65536 = some .dram) ∧ (s.poisoned (s.get MPC_WORK_BASE.ADDR 0 * 65536) 65536 = false)) ∧
    (∃ (s : State) (row : Fin (2 ^ 40)) (j : Fin 16) (n : Nat) (x : EncSlot) (y : Nat × List Byte), (s.nsOfRow row = some n) ∧ (s.encOf row = some x) ∧
      (x.members.find? (fun e => e.1 == j.val) = some y) ∧ (j.val < s.nsD n) ∧ (s.keyState (s.get CQE_NS_CFG.KSLOT n) ≠ 0) ∧ (s.rowLocked row = false)) ∧
    (∃ (s : State) (row : Fin (2 ^ 40)) (j : Fin 16) (n : Nat) (x : EncSlot), (s.nsOfRow row = some n) ∧ (s.encOf row = some x) ∧ (x.k < 16) ∧ (x.members.find?
      (fun e => e.1 == j.val) = none) ∧ (j.val < s.nsD n) ∧ (s.keyState (s.get CQE_NS_CFG.KSLOT n) ≠ 0) ∧ (s.rowLocked row = false) ∧ (s.nsHasPi n = false)
      ∧ (4096 ≤ s.dmf.port0.length) ∧ (s.destageVer n (s.rowLba n row j) = none) ∧ (s.encFails x.k = false)) ∧
    (∃ (s : State) (row : Fin (2 ^ 40)) (j : Fin 16) (n : Nat) (_bs : List Byte), (s.nsOfRow row = some n) ∧ (s.mpc.enc = []) ∧ (j.val < s.nsD n) ∧ (s.keyState
      (s.get CQE_NS_CFG.KSLOT n) ≠ 0) ∧ (s.rowLocked row = false)) ∧
    (∃ (s : State) (row : Fin (2 ^ 40)) (j : Fin 16) (n : Nat) (x : EncSlot) (y : Nat × List Byte) (r : Option (List Byte)) (_lost : Bool), (s.nsOfRow row =
      some n) ∧ (s.encOf row = some x) ∧ (x.members.find? (fun e => e.1 == j.val) = some y) ∧ (j.val < s.nsD n) ∧ (s.keyState (s.get CQE_NS_CFG.KSLOT n) ≠
      0) ∧ (s.rowLocked row = false) ∧ (r ≠ none ∨ 4104 ≤ s.dmf.port0.length)) ∧
    (∃ (s : State) (row : Fin (2 ^ 40)) (j : Fin 16) (n : Nat) (x : EncSlot), (s.nsOfRow row = some n) ∧ (s.encOf row = some x) ∧ (s.encFails x.k = false) ∧
      (x.members.find? (fun e => e.1 == j.val) = none) ∧ (j.val < s.nsD n) ∧ (s.keyState (s.get CQE_NS_CFG.KSLOT n) ≠ 0) ∧ (s.rowLocked row = false) ∧ ((if
      s.nsHasPi n then 4104 else 4096) ≤ s.dmf.port0.length)) ∧
    (∃ (s : State) (row : Fin (2 ^ 40)) (j : Fin 16) (n : Nat) (x : EncSlot) (_bs : List Byte) (lost : Bool), (s.nsOfRow row = some n) ∧ (s.encOf row = some x)
      ∧ (s.encFails x.k = false) ∧ (x.members.find? (fun e => e.1 == j.val) = none) ∧ (j.val < s.nsD n) ∧ (s.keyState (s.get CQE_NS_CFG.KSLOT n) ≠ 0) ∧
      (s.rowLocked row = false) ∧ (lost = false ∨ s.cqe.unreadable.length < unreadableMax)) ∧
    (∃ (s : State) (row : Fin (2 ^ 40)) (j : Fin 16) (n : Nat) (_bs : List Byte) (lost : Bool), (s.nsOfRow row = some n) ∧ (s.encOf row = none) ∧
      (s.mpc.enc.length < 16) ∧ ((List.range 64).find? (fun k => !(s.mpc.enc.any fun e => e.k == k)) = some s.mpc.enc.length) ∧ (j.val < s.nsD n) ∧
      (s.keyState (s.get CQE_NS_CFG.KSLOT n) ≠ 0) ∧ (s.rowLocked row = false) ∧ (lost = false ∨ s.cqe.unreadable.length < unreadableMax)) ∧
    (∃ (s : State) (row : Fin (2 ^ 40)) (n : Nat) (x : EncSlot), (s.nsOfRow row = some n) ∧ (s.encOf row = some x) ∧ (x.k < 16) ∧ (x.ready = false) ∧
      ((List.range (s.nsD n)).all (fun j => x.members.any fun y => y.1 == j) = true)) ∧
    (∃ (s : State) (row : Fin (2 ^ 40)) (n : Nat) (x : EncSlot), (s.nsOfRow row = some n) ∧ (s.encOf row = some x) ∧ (16 ≤ x.k) ∧ (s.encFails x.k = false) ∧
      (x.ready = false) ∧ ((List.range (s.nsD n)).all (fun j => x.members.any fun y => y.1 == j) = true) ∧ (s.nsM n = 0 ∨ s.storeFault .mpc (s.get
      MPC_WORK_BASE.ADDR 0 * 65536 + 0x500000 + (x.k - 16) * 20480) 16416 = none)) ∧
    (∃ (s : State) (row : Fin (2 ^ 40)) (_j : Fin 16) (_stt : Fin 4) (_kd : Fin 4) (_bs : List Byte) (_rel : List (Fin 16)) (_crcs : List (Fin 16 × Word)) (n :
      Nat), (s.nsOfRow row = some n) ∧ (s.normalService = true)) ∧
    (∃ (s : State) (row : Fin (2 ^ 40)) (j : Fin 16) (stt : Fin 4) (_kd : Fin 4) (bs : List Byte) (_rel : List (Fin 16)) (_crcs : List (Fin 16 × Word)) (n :
      Nat) (k : Nat) (x : RCtx), (s.nsOfRow row = some n) ∧ (s.normalService = true) ∧ (stt.val < 2) ∧ (s.ctxOf row = some (k, x)) ∧ (x.members.any (fun y
      => y.j == j.val && y.st == 1) = false) ∧ (x.handed.any (fun e => e.1 == j.val) = false) ∧ (s.recordFails k (s.nsM n) x = false) ∧ (x.failed = false)
      ∧ (s.solved { x with members := x.members.filter (fun e => e.j != j.val) ++ [{ j := j.val, st := 1, bytes := bs }] } (s.nsD n) (s.nsM n) 0 = none)) ∧
    (∃ (s : State) (row : Fin (2 ^ 40)) (n : Nat) (x : EncSlot), (s.nsOfRow row = some n) ∧ (s.mpc.enc = [x]) ∧ (x.row = row.val) ∧ (x.ready = false) ∧
      (s.encFails x.k = false) ∧ ((List.range (s.nsD n)).all (fun j => x.members.any fun y => y.1 == j) = true)) :=
  ⟨⟨(all [setF CQE_NS_CFG.STATE 0 1, setF CQE_NS_ROWS.UNITS 0 1, setF MPC_KEY_STAT.STATE 0 2, setF MPC_CFG.CHK_EN 0 1, setF CQE_NS_CFG.PLVL 0 1]).run .reset, 5, 1, 0, 0, [1, 2], [], [], 0, by decide +kernel⟩,
    ⟨(all [setF CQE_NS_CFG.STATE 0 1, setF CQE_NS_ROWS.UNITS 0 1, setF MPC_KEY_STAT.STATE 0 2, setF CQE_NS_CFG.PLVL 0 1, setR .SVE_SLOT_MAP 0 0xBA98, setR .SVE_SLOT_MAP 1 0xBA98, setR .SVE_SLOT_MAP 2 0xBA98, setR .SVE_SLOT_MAP 3 0xBA98, setF BMU_CFG.CHANNELS 0 2, setF BMU_CFG.SIZE 0 32, all ((List.range 24).map fun i => setF SVE_HEAD_STATE.STATE i 2), setF MPC_WORK_BASE.ADDR 0 0x11000]).run .reset, 5, 1, 3, [], [], [], 0, by decide +kernel⟩,
    ⟨(all [setF CQE_NS_CFG.STATE 0 1, setF CQE_NS_ROWS.UNITS 0 1, setF MPC_KEY_STAT.STATE 0 2, .upd (.mpc fun x => { x with enc := [{ k := 0, row := 5, tag := 1, vers := [], members := [(0, [1])] }] })]).run .reset, 5, 0, 0, { k := 0, row := 5, tag := 1, vers := [], members := [(0, [1])] }, (0, [1]), by decide +kernel⟩,
    ⟨(all [.upd (.dmf fun x => { x with port0 := List.replicate 4096 0 }), setF CQE_NS_CFG.STATE 0 1, setF CQE_NS_ROWS.UNITS 0 1, setF MPC_KEY_STAT.STATE 0 2, .upd (.mpc fun x => { x with enc := [{ k := 0, row := 5, tag := 1, vers := [], members := [(0, [1])] }] })]).run .reset, 5, 1, 0, { k := 0, row := 5, tag := 1, vers := [], members := [(0, [1])] }, by decide +kernel⟩,
    ⟨(all [setF CQE_NS_CFG.STATE 0 1, setF CQE_NS_ROWS.UNITS 0 1, setF MPC_KEY_STAT.STATE 0 2]).run .reset, 5, 1, 0, [1], by decide +kernel⟩,
    ⟨(all [setF CQE_NS_CFG.STATE 0 1, setF CQE_NS_ROWS.UNITS 0 1, setF MPC_KEY_STAT.STATE 0 2, .upd (.mpc fun x => { x with enc := [{ k := 0, row := 5, tag := 1, vers := [], members := [(0, [1])] }] })]).run .reset, 5, 0, 0, { k := 0, row := 5, tag := 1, vers := [], members := [(0, [1])] }, (0, [1]), some [], true, by decide +kernel⟩,
    ⟨(all [.upd (.dmf fun x => { x with port0 := List.replicate 4096 0 }), setF CQE_NS_CFG.STATE 0 1, setF CQE_NS_ROWS.UNITS 0 1, setF MPC_KEY_STAT.STATE 0 2, .upd (.mpc fun x => { x with enc := [{ k := 0, row := 5, tag := 1, vers := [], members := [(0, [1])] }] })]).run .reset, 5, 1, 0, { k := 0, row := 5, tag := 1, vers := [], members := [(0, [1])] }, by decide +kernel⟩,
    ⟨(all [setF CQE_NS_CFG.STATE 0 1, setF CQE_NS_ROWS.UNITS 0 1, setF MPC_KEY_STAT.STATE 0 2, .upd (.mpc fun x => { x with enc := [{ k := 0, row := 5, tag := 1, vers := [], members := [(0, [1])] }] })]).run .reset, 5, 1, 0, { k := 0, row := 5, tag := 1, vers := [], members := [(0, [1])] }, [1], true, by decide +kernel⟩,
    ⟨(all [setF CQE_NS_CFG.STATE 0 1, setF CQE_NS_ROWS.UNITS 0 1, setF MPC_KEY_STAT.STATE 0 2]).run .reset, 5, 1, 0, [1], true, by decide +kernel⟩,
    ⟨(all [setF CQE_NS_CFG.STATE 0 1, setF CQE_NS_ROWS.UNITS 0 1, setF MPC_KEY_STAT.STATE 0 2, .upd (.mpc fun x => { x with enc := [{ k := 0, row := 5, tag := 1, vers := [], members := (List.range 16).map fun j => (j, []) }] })]).run .reset, 5, 0, { k := 0, row := 5, tag := 1, vers := [], members := (List.range 16).map fun j => (j, []) }, by decide +kernel⟩,
    ⟨(all [setF CQE_NS_CFG.STATE 0 1, setF CQE_NS_ROWS.UNITS 0 1, setF MPC_KEY_STAT.STATE 0 2, .upd (.mpc fun x => { x with enc := [{ k := 17, row := 5, tag := 1, vers := [], members := (List.range 16).map fun j => (j, []) }] }), setF BMU_CFG.CHANNELS 0 2, setF BMU_CFG.SIZE 0 32, setF MPC_WORK_BASE.ADDR 0 0x11000]).run .reset, 5, 0, { k := 17, row := 5, tag := 1, vers := [], members := (List.range 16).map fun j => (j, []) }, by decide +kernel⟩,
    ⟨(all [setF CQE_NS_CFG.STATE 0 1, setF CQE_NS_ROWS.UNITS 0 1, setF MPC_KEY_STAT.STATE 0 2, setF PTM_MODE_STAT.MODE 0 1, setF CQE_NS_CFG.PLVL 0 1]).run .reset, 5, 1, 0, 0, [1, 2], [], [], 0, by decide +kernel⟩,
    ⟨(all [setF CQE_NS_CFG.STATE 0 1, setF CQE_NS_ROWS.UNITS 0 1, setF MPC_KEY_STAT.STATE 0 2, setF PTM_MODE_STAT.MODE 0 1, setF CQE_NS_CFG.PLVL 0 1, setR .SVE_SLOT_MAP 0 0xBA98, setR .SVE_SLOT_MAP 1 0xBA98, setR .SVE_SLOT_MAP 2 0xBA98, setR .SVE_SLOT_MAP 3 0xBA98, all ((List.range 24).map fun i => setF SVE_HEAD_STATE.STATE i 2), .upd (.mpc fun m => { m with ctxs := [(0, { row := 5, handed := [(3, 1)], rebuild := false, onDie := true })] })]).run .reset, 5, 1, 0, 0, [1, 2], [], [], 0, 0, { row := 5, handed := [(3, 1)], rebuild := false, onDie := true }, by decide +kernel⟩,
    ⟨(all [setF CQE_NS_CFG.STATE 0 1, setF CQE_NS_ROWS.UNITS 0 1, setF MPC_KEY_STAT.STATE 0 2, .upd (.mpc fun x => { x with enc := [{ k := 0, row := 5, tag := 1, vers := [], members := (List.range 16).map fun j => (j, []) }] })]).run .reset, 5, 0, { k := 0, row := 5, tag := 1, vers := [], members := (List.range 16).map fun j => (j, []) }, by decide +kernel⟩⟩

theorem witness_KeeperOnlyCommands :
    (∃ (s : State) (m : Master), (m ≠ .keeper) ∧ (s.quiet 16)) ∧
    (∃ (s : State) (m : Master), (m ≠ .keeper) ∧ (s.quiet 16)) ∧
    (∃ (s : State) (m : Master), (m ≠ .keeper) ∧ (s.quiet 16)) ∧
    (∃ (s : State) (m : Master), (m ≠ .keeper) ∧ (s.quiet 16)) ∧
    (∃ (s : State) (m : Master), (m ≠ .keeper) ∧ (s.quiet 16)) ∧
    (∃ (s : State) (m : Master), (m ≠ .keeper) ∧ (s.quiet 16)) ∧
    (∃ (s : State) (m : Master), (m ≠ .keeper) ∧ (s.quiet 16)) ∧
    (∃ (s : State) (m : Master), (m ≠ .keeper) ∧ (s.quiet 16)) ∧
    (∃ (s : State) (m : Master), (m ≠ .keeper) ∧ (s.quiet 16)) ∧
    (∃ (s : State) (m : Master), (m ≠ .keeper) ∧ (s.quiet 16)) ∧
    (∃ (s : State) (m : Master), (m ≠ .keeper) ∧ (s.quiet 16)) ∧
    (∃ (s : State) (m : Master), (m ≠ .keeper) ∧ (s.quiet 16)) ∧
    (∃ (s : State) (m : Master), (m ≠ .keeper) ∧ (s.quiet 16)) ∧
    (∃ (s : State) (m : Master), (m ≠ .keeper) ∧ (s.quiet 16)) ∧
    (∃ (s : State) (m : Master), (m ≠ .keeper) ∧ (s.quiet 16)) ∧
    (∃ (s : State) (m : Master), (m ≠ .keeper) ∧ (s.quiet 16)) ∧
    (∃ (s : State) (m : Master), (m ≠ .keeper) ∧ (s.quiet 16)) ∧
    (∃ (s : State) (m : Master), (m ≠ .keeper) ∧ (s.quiet 16)) ∧
    (∃ (s : State) (m : Master), (m ≠ .keeper) ∧ (s.quiet 16)) ∧
    (∃ (s : State) (m : Master) (_i : Fin 384), (m ≠ .keeper) ∧ (s.quiet 16)) ∧
    (∃ (s : State) (m : Master) (n : Fin 8), (m ≠ .keeper) ∧ (s.quiet 16) ∧ (n.val ≠ 7)) ∧
    (∃ (s : State) (m : Master) (n : Fin 8) (_e : BitVec 8), (m ≠ .keeper) ∧ (s.quiet 16) ∧ (n.val ≠ 7)) ∧
    (∃ (s : State) (m : Master) (_cls : Fin 2) (_item : BitVec 8) (_head : Fin 32), (m ≠ .keeper) ∧ (s.quiet 16)) ∧
    (∃ (s : State) (m : Master) (_i : Fin 256) (_r : BitVec 16), (m ≠ .keeper) ∧ (s.quiet 16)) ∧
    (∃ (s : State) (m : Master) (_n : BitVec 20), (m ≠ .keeper) ∧ (s.quiet 16)) ∧
    (∃ (s : State) (m : Master) (_n : BitVec 20), (m ≠ .keeper) ∧ (s.quiet 16)) ∧
    (∃ (s : State) (m : Master) (_n : BitVec 20), (m ≠ .keeper) ∧ (s.quiet 16)) ∧
    (∃ (s : State) (m : Master) (k : BitVec 16), (m ≠ .keeper) ∧ (s.quiet 16) ∧ (s.get BMU_WAY_PWR.OFF_REQ 0 ≠ k.toNat)) ∧
    (∃ (s : State) (m : Master), (m ≠ .keeper) ∧ (s.quiet 16) ∧ (s.on BMU_CC_CTL.ENABLE 0 = true)) ∧
    (∃ (s : State) (m : Master), (m ≠ .keeper) ∧ (s.quiet 16) ∧ (s.on BMU_CC_CTL.ENABLE 0 = false)) ∧
    (∃ (s : State) (m : Master) (_n : Fin 128), (m ≠ .keeper) ∧ (s.quiet 16)) ∧
    (∃ (s : State) (m : Master) (_k : Fin 128) (_g : Fin 64) (_he : Bool), (m ≠ .keeper) ∧ (s.quiet 16)) ∧
    (∃ (s : State) (m : Master) (_k : Fin 128), (m ≠ .keeper) ∧ (s.quiet 16)) ∧
    (∃ (s : State) (m : Master) (_k : Fin 128), (m ≠ .keeper) ∧ (s.quiet 16)) ∧
    (∃ (s : State) (m : Master) (_k : Fin 128), (m ≠ .keeper) ∧ (s.quiet 16)) ∧
    (∃ (s : State) (m : Master) (u : Fin 12) (k : BitVec 4), (m ≠ .keeper) ∧ (s.quiet 16) ∧ (s.get SVE_CLU_CTL.COMMIT u ||| k.toNat ≠ s.get SVE_CLU_CTL.COMMIT
      u)) ∧
    (∃ (s : State) (m : Master) (v : BitVec 14), (m ≠ .keeper) ∧ (s.quiet 16) ∧ (s.get SPN_CTL.SPD_SET 0 ≠ v.toNat)) ∧
    (∃ (s : State) (m : Master) (k : BitVec 3), (m ≠ .keeper) ∧ (s.quiet 16) ∧ (s.get SPN_COMMIT.COMMIT 0 ||| k.toNat ≠ s.get SPN_COMMIT.COMMIT 0)) ∧
    (∃ (s : State) (m : Master), (m ≠ .keeper) ∧ (s.quiet 16) ∧ (s.on SPL_CFG.EN 0 = false)) ∧
    (∃ (s : State) (m : Master), (m ≠ .keeper) ∧ (s.quiet 16) ∧ (s.on SPL_CFG.EN 0 = true)) ∧
    (∃ (s : State) (m : Master) (a : Fin 4) (v : Word), (m ≠ .keeper) ∧ (s.quiet 16) ∧ (s.reg .SVE_SLOT_MAP a ≠ BitVec.ofNat 64 (v.toNat % 2 ^ 20))) ∧
    (∃ (s : State) (m : Master) (h : Fin 24) (v : Word), (m ≠ .keeper) ∧ (s.quiet 16) ∧ (s.get SVE_HEAD_STATE.STATE h ≠ v.toNat % 8)) ∧
    (∃ (s : State) (m : Master) (c : Fin 4) (run : Bool) (e : Fin 4), (m ≠ .keeper) ∧ (s.quiet 16) ∧ (s.on PCX_CORE_CTL.RUN c ≠ run ∨ s.get PCX_CORE_CTL.HEIR c
      ≠ e.val)) ∧
    (∃ (s : State) (m : Master) (i : Fin 512), (m ≠ .keeper) ∧ (s.quiet 16) ∧ (sourceReserved i = false) ∧ (s.ownerMayAck m i = false)) ∧
    (∃ (s : State) (m : Master) (v k : Bool), (m ≠ .keeper) ∧ (s.quiet 16) ∧ (v = true ∨ k = true) ∧ (m.isApp = false ∨ s.appOwned (s.get FCU_FEC_INFO.SRC 0) =
      false)) :=
  ⟨⟨(all [setF FCU_SRC_CFG.N 16 5]).run .reset, .debug, by unfold State.quiet; decide +kernel⟩,
    ⟨(all [setF FCU_SRC_CFG.N 16 5]).run .reset, .debug, by unfold State.quiet; decide +kernel⟩,
    ⟨(all [setF FCU_SRC_CFG.N 16 5]).run .reset, .debug, by unfold State.quiet; decide +kernel⟩,
    ⟨(all [setF FCU_SRC_CFG.N 16 5]).run .reset, .debug, by unfold State.quiet; decide +kernel⟩,
    ⟨(all [setF FCU_SRC_CFG.N 16 5]).run .reset, .debug, by unfold State.quiet; decide +kernel⟩,
    ⟨(all [setF FCU_SRC_CFG.N 16 5]).run .reset, .debug, by unfold State.quiet; decide +kernel⟩,
    ⟨(all [setF FCU_SRC_CFG.N 16 5]).run .reset, .debug, by unfold State.quiet; decide +kernel⟩,
    ⟨(all [setF FCU_SRC_CFG.N 16 5]).run .reset, .debug, by unfold State.quiet; decide +kernel⟩,
    ⟨(all [setF FCU_SRC_CFG.N 16 5]).run .reset, .debug, by unfold State.quiet; decide +kernel⟩,
    ⟨(all [setF FCU_SRC_CFG.N 16 5]).run .reset, .debug, by unfold State.quiet; decide +kernel⟩,
    ⟨(all [setF FCU_SRC_CFG.N 16 5]).run .reset, .debug, by unfold State.quiet; decide +kernel⟩,
    ⟨(all [setF FCU_SRC_CFG.N 16 5]).run .reset, .debug, by unfold State.quiet; decide +kernel⟩,
    ⟨(all [setF FCU_SRC_CFG.N 16 5]).run .reset, .debug, by unfold State.quiet; decide +kernel⟩,
    ⟨(all [setF FCU_SRC_CFG.N 16 5]).run .reset, .debug, by unfold State.quiet; decide +kernel⟩,
    ⟨(all [setF FCU_SRC_CFG.N 16 5]).run .reset, .debug, by unfold State.quiet; decide +kernel⟩,
    ⟨(all [setF FCU_SRC_CFG.N 16 5]).run .reset, .debug, by unfold State.quiet; decide +kernel⟩,
    ⟨(all [setF FCU_SRC_CFG.N 16 5]).run .reset, .debug, by unfold State.quiet; decide +kernel⟩,
    ⟨(all [setF FCU_SRC_CFG.N 16 5]).run .reset, .debug, by unfold State.quiet; decide +kernel⟩,
    ⟨(all [setF FCU_SRC_CFG.N 16 5]).run .reset, .debug, by unfold State.quiet; decide +kernel⟩,
    ⟨(all [setF FCU_SRC_CFG.N 16 5]).run .reset, .app 1, 383, by unfold State.quiet; decide +kernel⟩,
    ⟨(all [setF FCU_SRC_CFG.N 16 5]).run .reset, .app 1, 6, by unfold State.quiet; decide +kernel⟩,
    ⟨(all [setF FCU_SRC_CFG.N 16 5]).run .reset, .app 1, 6, 9, by unfold State.quiet; decide +kernel⟩,
    ⟨(all [setF FCU_SRC_CFG.N 16 5]).run .reset, .app 1, 1, 2, 3, by unfold State.quiet; decide +kernel⟩,
    ⟨(all [setF FCU_SRC_CFG.N 16 5]).run .reset, .app 1, 1, 2, by unfold State.quiet; decide +kernel⟩,
    ⟨(all [setF FCU_SRC_CFG.N 16 5]).run .reset, .app 1, 1, by unfold State.quiet; decide +kernel⟩,
    ⟨(all [setF FCU_SRC_CFG.N 16 5]).run .reset, .app 1, 1, by unfold State.quiet; decide +kernel⟩,
    ⟨(all [setF FCU_SRC_CFG.N 16 5]).run .reset, .app 1, 1, by unfold State.quiet; decide +kernel⟩,
    ⟨(all [setF FCU_SRC_CFG.N 16 5]).run .reset, .app 1, 3, by unfold State.quiet; decide +kernel⟩,
    ⟨(all [setF FCU_SRC_CFG.N 16 5, setF BMU_CC_CTL.ENABLE 0 1]).run .reset, .app 1, by unfold State.quiet; decide +kernel⟩,
    ⟨(all [setF FCU_SRC_CFG.N 16 5, setF BMU_CC_CTL.ENABLE 0 0]).run .reset, .app 1, by unfold State.quiet; decide +kernel⟩,
    ⟨(all [setF FCU_SRC_CFG.N 16 5]).run .reset, .app 1, 5, by unfold State.quiet; decide +kernel⟩,
    ⟨(all [setF FCU_SRC_CFG.N 16 5]).run .reset, .app 1, 5, 2, true, by unfold State.quiet; decide +kernel⟩,
    ⟨(all [setF FCU_SRC_CFG.N 16 5]).run .reset, .app 1, 5, by unfold State.quiet; decide +kernel⟩,
    ⟨(all [setF FCU_SRC_CFG.N 16 5]).run .reset, .app 1, 5, by unfold State.quiet; decide +kernel⟩,
    ⟨(all [setF FCU_SRC_CFG.N 16 5]).run .reset, .app 1, 5, by unfold State.quiet; decide +kernel⟩,
    ⟨(all [setF FCU_SRC_CFG.N 16 5]).run .reset, .app 1, 11, 2, by unfold State.quiet; decide +kernel⟩,
    ⟨(all [setF FCU_SRC_CFG.N 16 5]).run .reset, .app 1, 5, by unfold State.quiet; decide +kernel⟩,
    ⟨(all [setF FCU_SRC_CFG.N 16 5]).run .reset, .app 1, 4, by unfold State.quiet; decide +kernel⟩,
    ⟨(all [setF FCU_SRC_CFG.N 16 5]).run .reset, .app 1, by unfold State.quiet; decide +kernel⟩,
    ⟨(all [setF FCU_SRC_CFG.N 16 5, setF SPL_CFG.EN 0 1]).run .reset, .app 1, by unfold State.quiet; decide +kernel⟩,
    ⟨(all [setF FCU_SRC_CFG.N 16 5]).run .reset, .app 1, 3, 0xBA98, by unfold State.quiet; decide +kernel⟩,
    ⟨(all [setF FCU_SRC_CFG.N 16 5]).run .reset, .app 1, 23, 3, by unfold State.quiet; decide +kernel⟩,
    ⟨(all [setF FCU_SRC_CFG.N 16 5]).run .reset, .app 1, 3, true, 2, by unfold State.quiet; decide +kernel⟩,
    ⟨(all [setF FCU_SRC_CFG.N 16 5]).run .reset, .debug, 290, by unfold State.quiet; decide +kernel⟩,
    ⟨(all [setF FCU_SRC_CFG.N 16 5]).run .reset, .debug, true, false, by unfold State.quiet; decide +kernel⟩⟩

theorem witness_IdleTick :
    (∃ (s : State), (s.pending = [])) ∧
    (∃ (s : State), (s.pending = []) ∧ (s.ptm.powered = false ∨ s.ptm.retention = true)) ∧
    (∃ (s : State), (s.pending = []) ∧ (s.ptm.powered = true) ∧ (s.ptm.retention = false) ∧ (s.mode ≠ mBoot) ∧ (s.ptm.resetPend = none) ∧ (s.ptm.target = none)
      ∧ (s.ptm.seqStep = 0) ∧ (s.ptm.plStep = 0)) :=
  ⟨⟨.reset, by decide +kernel⟩,
    ⟨(all [.upd (.ptm fun p => { p with retention := true })]).run .reset, by decide +kernel⟩,
    ⟨(all [setF PTM_MODE_STAT.MODE 0 mActive]).run .reset, by decide +kernel⟩⟩

theorem witness_StepKeepsForm :
    ∃ (s : State), (s.wf = true) :=
  ⟨(all [setF MPC_VSN.NEXT 0 7, .upd (.mem 5 1)]).run .reset, by decide +kernel⟩

theorem witness_RegisterAddresses :
    ∃ (o : Nat) (r : RegName) (i : Nat) (h : Bool), (o < 0x1000000) ∧ (4 ∣ o) ∧ (regWordAt o = some (r, i, h)) :=
  ⟨0xFFF00, .BLK_ID, 0, false, by decide +kernel⟩

theorem witness_WideRegisters :
    ∃ (r : RegName) (i : Nat), ((regInfo r).wide = true) ∧ (i < dimSize (regInfo r).dims) :=
  ⟨.PTM_MER_TIME, 0, by decide +kernel⟩

theorem witness_SoftwareFaults :
    (∃ (m : Master) (i : Fin 512) (_s : State), (m.isCore = true) ∧ (320 ≤ i.val) ∧ (i.val ≤ 383)) ∧
    (∃ (s : State) (m : Master) (i : Fin 512), (m.isCore = true) ∧ (320 ≤ i.val ∧ i.val ≤ 383) ∧ (s.quiet i)) ∧
    (∃ (_m : Master) (i : Fin 512) (_s : State), (¬(320 ≤ i.val ∧ i.val ≤ 383))) :=
  ⟨⟨.app 3, 383, .reset, by decide +kernel⟩,
    ⟨(all [setF FCU_SRC_CFG.N 383 5]).run .reset, .app 3, 383, by unfold State.quiet; decide +kernel⟩,
    ⟨.keeper, 384, .reset, by decide +kernel⟩⟩

theorem witness_RowLayout :
    (∃ (_g : Nat) (j : Nat), (j < 16)) ∧
    (∃ (_g : Nat) (p : Nat), (p < 16)) ∧
    (∃ (_g : Nat) (j : Nat) (p : Nat), (j < 16) ∧ (p < 16)) ∧
    (∃ (s : State) (n : Nat) (_r : Nat) (d : Nat), (d < s.nsD n)) ∧
    (∃ (s : State) (n : Nat) (g : Nat) (d : Nat) (_l : Nat), (s.nsRow0 n ≤ g) ∧ (d < s.nsD n)) :=
  ⟨⟨3, 15, by decide +kernel⟩,
    ⟨3, 15, by decide +kernel⟩,
    ⟨3, 15, 0, by decide +kernel⟩,
    ⟨.reset, 127, 9, 15, by decide +kernel⟩,
    ⟨.reset, 127, 9, 15, 0, by decide +kernel⟩⟩

theorem witness_PostedSequence :
    (∃ (s : State) (m : Master) (n : Fin 8) (q : BitVec 8), (n.val ≠ 7) ∧ (s.ferryRequester m n = true) ∧ (s.fySt n = fyEmpty ∨ s.fySt n = fyDone) ∧ (q.toNat =
      s.nextSeq n)) ∧
    (∃ (s : State) (m : Master) (n : Fin 8) (q : BitVec 8), (n.val ≠ 7) ∧ (s.ferryRequester m n = true) ∧ (q.toNat ≠ s.nextSeq n)) :=
  ⟨⟨.reset, .app 0, 0, 1, by decide +kernel⟩,
    ⟨.reset, .app 0, 0, 0, by decide +kernel⟩⟩

theorem witness_ParityEncodes :
    ∃ (m : Nat) (xs : List Byte) (i : Nat), (m ∈ [1, 2, 4]) ∧ (xs.length = 16 - m) ∧ (i < m) :=
  ⟨2, List.replicate 14 7, 1, by decide +kernel⟩

end Sys2Proof.Machine
end

section
/-! Every step goes on and keeps the one form of registers and memory (R9, Table 1.7). -/
namespace Sys2Proof.Machine

/-- The form speaks of registers and memory, not of the commands that wait. -/
theorem State.wf_pending (s : State) (q : List Instr) : ({ s with pending := q } : State).wf = s.wf := rfl

/-- A command answers a next state, in the form where the state it acts on is. -/
theorem exec_wf (c : Instr) (s : State) (h : s.wf = true) : ∃ t, exec c s = .next t ∧ t.wf = true := by
  obtain ⟨p, hp⟩ := exec_runs c s
  exact ⟨p.run s, hp, p.run_wf s h⟩

theorem step_of_empty {s : State} (h : s.pending = []) : step s = .next (tickProg.run s) := by
  simp only [step, h, Prog.exec]

theorem step_of_cons {s : State} {c : Instr} {rest : List Instr} (h : s.pending = c :: rest) : step s = exec c { s with pending := rest } := by
  simp only [step, h]

/-- Settles O52: a step runs a program, that of the command at the front of the queue or that of a tick, and a program keeps the form because each of its
updates does. -/
theorem stepKeepsForm : Obligations.StepKeepsForm := by
  intro s hs
  cases hq : s.pending with
  | nil => exact ⟨_, step_of_empty hq, tickProg.run_wf s hs⟩
  | cons c rest =>
    obtain ⟨t, ht, hwf⟩ := exec_wf c { s with pending := rest } ((s.wf_pending rest).trans hs)
    exact ⟨t, (step_of_cons hq).trans ht, hwf⟩

end Sys2Proof.Machine
end

section
/-! Register addresses (R9, R10, R589, R591): an array's elements lie where its dimensions say, and the arrays of a block lie apart. -/
namespace Sys2Proof.Machine

/-! An array whose elements are `w` bytes: the offset of an element and the element at an offset. -/

/-- The greatest offset that an element can have, but for the dimensions whose stride is a multiple of `m`. -/
def dimSlack (m : Nat) : List (Nat × Nat) → Nat
  | [] => 0
  | (st, n) :: ds => (if m ∣ st then 0 else st * (n - 1)) + dimSlack m ds

/-- The elements under one index, each of `w` bytes, fit within its stride. -/
def dimsFit (w : Nat) : List (Nat × Nat) → Bool
  | [] => true
  | (st, _) :: ds => decide (dimSlack 0 ds + w ≤ st) && dimsFit w ds

theorem dimSize_pos_of_lt {st n i : Nat} {ds : List (Nat × Nat)} (h : i < dimSize ((st, n) :: ds)) : 0 < dimSize ds ∧ i / dimSize ds < n := by
  have hpos : 0 < dimSize ds := Nat.pos_of_ne_zero fun h0 => by simp [dimSize, h0] at h
  exact ⟨hpos, (Nat.div_lt_iff_lt_mul hpos).2 h⟩

/-- An element's offset, but for a multiple of `m`, is within the slack. -/
theorem dimOffset_mod (m : Nat) (ds : List (Nat × Nat)) (i : Nat) (h : i < dimSize ds) : ∃ q x, x ≤ dimSlack m ds ∧ dimOffset ds i = m * q + x := by
  induction ds generalizing i with
  | nil => exact ⟨0, 0, Nat.le_refl 0, rfl⟩
  | cons d ds ih =>
    obtain ⟨st, n⟩ := d
    obtain ⟨hpos, hidx⟩ := dimSize_pos_of_lt h
    obtain ⟨q, x, hx, heq⟩ := ih _ (Nat.mod_lt i hpos)
    by_cases hm : m ∣ st
    · obtain ⟨c, rfl⟩ := hm
      refine ⟨c * (i / dimSize ds) + q, x, by simpa [dimSlack] using hx, ?_⟩
      rw [dimOffset, heq]
      ring
    · refine ⟨q, st * (i / dimSize ds) + x, ?_, ?_⟩
      · have : st * (i / dimSize ds) ≤ st * (n - 1) := Nat.mul_le_mul_left st (by omega)
        simp only [dimSlack, if_neg hm]
        omega
      · rw [dimOffset, heq]
        omega

theorem dimOffset_le (ds : List (Nat × Nat)) (i : Nat) (h : i < dimSize ds) : dimOffset ds i ≤ dimSlack 0 ds := by
  obtain ⟨q, x, hx, heq⟩ := dimOffset_mod 0 ds i h
  omega

/-- The offset of an element names it, and a byte within it. -/
theorem elemAt_dimOffset {w : Nat} (ds : List (Nat × Nat)) (i k : Nat) (hfit : dimsFit w ds = true) (h : i < dimSize ds) (hk : k < w) :
    elemAt ds (dimOffset ds i + k) = some (i, k) := by
  induction ds generalizing i with
  | nil =>
    obtain rfl : i = 0 := by simpa [dimSize] using h
    simp [elemAt, dimOffset]
  | cons d ds ih =>
    obtain ⟨st, n⟩ := d
    obtain ⟨hpos, hidx⟩ := dimSize_pos_of_lt h
    simp only [dimsFit, Bool.and_eq_true, decide_eq_true_eq] at hfit
    have hmod := Nat.mod_lt i hpos
    have hin : dimOffset ds (i % dimSize ds) + k < st := by
      have := dimOffset_le ds _ hmod
      omega
    have hst : 0 < st := Nat.zero_lt_of_lt hin
    have hdiv : (dimOffset ((st, n) :: ds) i + k) / st = i / dimSize ds := by
      rw [dimOffset, Nat.add_assoc, Nat.mul_add_div hst, Nat.div_eq_of_lt hin, Nat.add_zero]
    have hrem : (dimOffset ((st, n) :: ds) i + k) % st = dimOffset ds (i % dimSize ds) + k := by
      rw [dimOffset, Nat.add_assoc, Nat.mul_add_mod, Nat.mod_eq_of_lt hin]
    rw [elemAt, hdiv, hrem, if_pos hidx, ih _ hfit.2 hmod, Option.map_some, Nat.mul_comm, Nat.div_add_mod]

/-- What is found at an offset is an element of the array, at that offset. -/
theorem dimOffset_of_elemAt (ds : List (Nat × Nat)) (o i k : Nat) (h : elemAt ds o = some (i, k)) : i < dimSize ds ∧ dimOffset ds i + k = o := by
  induction ds generalizing o i with
  | nil =>
    obtain ⟨rfl, rfl⟩ : 0 = i ∧ o = k := by simpa [elemAt] using h
    exact ⟨Nat.one_pos, Nat.zero_add _⟩
  | cons d ds ih =>
    obtain ⟨st, n⟩ := d
    simp only [elemAt] at h
    split at h
    · next hidx =>
      obtain ⟨⟨e, k'⟩, he, heq⟩ := Option.map_eq_some_iff.1 h
      obtain ⟨rfl, rfl⟩ : o / st * dimSize ds + e = i ∧ k' = k := by simpa using heq
      obtain ⟨hlt, hoff⟩ := ih _ _ he
      have hpos : 0 < dimSize ds := Nat.zero_lt_of_lt hlt
      have hdiv : (o / st * dimSize ds + e) / dimSize ds = o / st := by
        rw [Nat.mul_comm, Nat.mul_add_div hpos, Nat.div_eq_of_lt hlt, Nat.add_zero]
      have hrem : (o / st * dimSize ds + e) % dimSize ds = e := by rw [Nat.mul_comm, Nat.mul_add_mod, Nat.mod_eq_of_lt hlt]
      constructor
      · calc o / st * dimSize ds + e < o / st * dimSize ds + dimSize ds := by omega
          _ = (o / st + 1) * dimSize ds := by ring
          _ ≤ n * dimSize ds := Nat.mul_le_mul_right _ hidx
      · rw [dimOffset, hdiv, hrem, Nat.add_assoc, hoff, Nat.div_add_mod]
    · cases h

/-! Arrays. -/

/-- Bytes of an element. -/
def RegInfo.bytes (g : RegInfo) : Nat := if g.wide then 8 else 4

/-- Two arrays lie apart: modulo the block's size, or modulo a stride that they share, the bytes of one lie below those of the other. -/
def RegInfo.apart (g g' : RegInfo) : Bool :=
  (0x100000 :: g.dims.map (·.1)).any fun m =>
    let lo := g.offset % m
    let lo' := g'.offset % m
    let hi := lo + dimSlack m g.dims + g.bytes
    let hi' := lo' + dimSlack m g'.dims + g'.bytes
    decide (hi ≤ m ∧ hi' ≤ m ∧ (hi ≤ lo' ∨ hi' ≤ lo))

/-- An array lies in its block, below the common registers, with room for each element. -/
def RegInfo.placed (g : RegInfo) : Bool := dimsFit g.bytes g.dims && decide (g.offset + dimSlack 0 g.dims + g.bytes ≤ 0xFFF00)

/-- The register table: each array of a block is placed in it, none is a common register, and no two meet. -/
theorem regTable_placed : ∀ b < 16, (∀ r ∈ regsOfBlock b, (regInfo r).block = b ∧ commonReg r = false ∧ (regInfo r).placed = true) ∧
    (regsOfBlock b).Pairwise fun r r' => (regInfo r).apart (regInfo r') = true := by
  decide +kernel

/-- The offset of a word in its block: the element's, or 4 above it for its high word. -/
def wordOffset (r : RegName) (i : Nat) (h : Bool) : Nat := (regInfo r).offset + dimOffset (regInfo r).dims i + if h then 4 else 0

/-- A register has this word: the element lies in the array, and only a 64-bit one has a high word. -/
def hasWord (r : RegName) (i : Nat) (h : Bool) : Prop := i < dimSize (regInfo r).dims ∧ (h = true → (regInfo r).wide = true)

theorem wordBytes_lt {r : RegName} {i : Nat} {h : Bool} (hw : hasWord r i h) : (if h then 4 else 0) < (regInfo r).bytes := by
  cases h with
  | false => cases hwide : (regInfo r).wide <;> simp [RegInfo.bytes, hwide]
  | true => simp [RegInfo.bytes, hw.2 rfl]

/-- A register finds its words where they lie. -/
theorem wordOf_wordOffset {r : RegName} {i : Nat} {h : Bool} (hw : hasWord r i h) (hp : (regInfo r).placed = true) :
    wordOf r (wordOffset r i h) = some (r, i, h) := by
  simp only [RegInfo.placed, Bool.and_eq_true] at hp
  have hat := elemAt_dimOffset (regInfo r).dims i _ hp.1 hw.1 (wordBytes_lt hw)
  have hsub : wordOffset r i h - (regInfo r).offset = dimOffset (regInfo r).dims i + if h then 4 else 0 := by
    rw [wordOffset, Nat.add_assoc, Nat.add_sub_cancel_left]
  have hge : ¬ wordOffset r i h < (regInfo r).offset := by
    rw [wordOffset, Nat.add_assoc]
    exact Nat.not_lt.2 (Nat.le_add_right _ _)
  simp only [wordOf, if_neg hge, hsub, hat]
  cases h with
  | false => rfl
  | true => simp [hw.2 rfl]

/-- What a register finds at an offset is a word of it that lies there. -/
theorem wordOffset_of_wordOf {r r' : RegName} {i off : Nat} {h : Bool} (hf : wordOf r off = some (r', i, h)) :
    r' = r ∧ hasWord r i h ∧ wordOffset r i h = off := by
  simp only [wordOf] at hf
  split at hf
  · cases hf
  · next hge =>
    split at hf
    · next e he =>
      obtain ⟨rfl, rfl, rfl⟩ : r = r' ∧ e = i ∧ false = h := by simpa using hf
      obtain ⟨hlt, hoff⟩ := dimOffset_of_elemAt _ _ _ _ he
      exact ⟨rfl, ⟨hlt, nofun⟩, by simp only [wordOffset, Bool.false_eq_true, if_false]; omega⟩
    · next e he =>
      split at hf
      · next hwide =>
        obtain ⟨rfl, rfl, rfl⟩ : r = r' ∧ e = i ∧ true = h := by simpa using hf
        obtain ⟨hlt, hoff⟩ := dimOffset_of_elemAt _ _ _ _ he
        exact ⟨rfl, ⟨hlt, fun _ => hwide⟩, by simp only [wordOffset, if_true]; omega⟩
      · cases hf
    · cases hf

/-- Modulo `m`, a word lies among its array's bytes. -/
theorem wordOffset_mod {r : RegName} {i : Nat} {h : Bool} (hw : hasWord r i h) (m : Nat)
    (hm : (regInfo r).offset % m + dimSlack m (regInfo r).dims + (regInfo r).bytes ≤ m) :
    (regInfo r).offset % m ≤ wordOffset r i h % m ∧ wordOffset r i h % m < (regInfo r).offset % m + dimSlack m (regInfo r).dims + (regInfo r).bytes := by
  obtain ⟨q, x, hx, heq⟩ := dimOffset_mod m (regInfo r).dims i hw.1
  have hb := wordBytes_lt hw
  have hmod : wordOffset r i h % m = (regInfo r).offset % m + x + if h then 4 else 0 := by
    have hsplit : wordOffset r i h = ((regInfo r).offset % m + x + if h then 4 else 0) + m * ((regInfo r).offset / m + q) := by
      have := Nat.mod_add_div (regInfo r).offset m
      rw [wordOffset, heq, Nat.mul_add]
      omega
    rw [hsplit, Nat.add_mul_mod_self_left, Nat.mod_eq_of_lt (by omega)]
  omega

/-- Arrays that lie apart share no word. -/
theorem wordOffset_ne_of_apart {r r' : RegName} {i i' : Nat} {h h' : Bool} (ha : (regInfo r).apart (regInfo r') = true) (hw : hasWord r i h)
    (hw' : hasWord r' i' h') : wordOffset r i h ≠ wordOffset r' i' h' := by
  intro heq
  obtain ⟨m, -, hm⟩ := List.any_eq_true.1 ha
  obtain ⟨hle, hle', hsep⟩ := of_decide_eq_true hm
  have h1 := wordOffset_mod hw m hle
  have h2 := wordOffset_mod hw' m hle'
  rw [heq] at h1
  omega

/-- Among registers that lie apart, the one that has the word is found. -/
theorem findSome_wordOf {l : List RegName} (hl : l.Pairwise fun r r' => (regInfo r).apart (regInfo r') = true) {r : RegName} (hr : r ∈ l) {i : Nat} {h : Bool}
    (hw : hasWord r i h) (hp : (regInfo r).placed = true) : (l.findSome? fun a => wordOf a (wordOffset r i h)) = some (r, i, h) := by
  induction l with
  | nil => cases hr
  | cons a l ih =>
    obtain ⟨ha, hl⟩ := List.pairwise_cons.1 hl
    rcases List.mem_cons.1 hr with rfl | hr
    · simp only [List.findSome?_cons, wordOf_wordOffset hw hp]
    · have hnone : wordOf a (wordOffset r i h) = none := by
        rw [Option.eq_none_iff_forall_ne_some]
        rintro ⟨a', j, k⟩ hf
        obtain ⟨-, hwa, hoff⟩ := wordOffset_of_wordOf hf
        exact wordOffset_ne_of_apart (ha r hr) hwa hw hoff
      simp only [List.findSome?_cons, hnone]
      exact ih hl hr

/-! The register map. -/

/-- The address of a register of a chapter. -/
theorem regAddr_of_not_common {r : RegName} (h : commonReg r = false) (i : Nat) :
    regAddr r i = regBase + (regInfo r).block * 0x100000 + (regInfo r).offset + dimOffset (regInfo r).dims i := by
  unfold regAddr
  split
  case h_5 => rfl
  all_goals cases h

/-- What lies at an offset in register space: a common register of its block, or what a register of the block finds there. -/
theorem regWordAt_block (b off : Nat) (hoff : off < 0xFFF00) : regWordAt (b * 0x100000 + off) = (regsOfBlock b).findSome? fun r => wordOf r off := by
  have hb : (b * 0x100000 + off) / 0x100000 = b := by omega
  have ho : (b * 0x100000 + off) % 0x100000 = off := by omega
  simp only [regWordAt, hb, ho]
  rw [if_neg (by omega), if_neg (by omega), if_neg (by omega), if_neg (by omega)]

theorem wordOffset_lt {r : RegName} {i : Nat} {h : Bool} (hw : hasWord r i h) (hp : (regInfo r).placed = true) : wordOffset r i h < 0xFFF00 := by
  simp only [RegInfo.placed, Bool.and_eq_true, decide_eq_true_eq] at hp
  have h1 := dimOffset_le _ _ hw.1
  have h2 := wordBytes_lt hw
  simp only [wordOffset]
  omega

/-- A word of a block's register lies at its address, and is what is found there. -/
theorem regWordAt_wordOffset {b : Nat} (hb : b < 16) {r : RegName} (hr : r ∈ regsOfBlock b) {i : Nat} {h : Bool} (hw : hasWord r i h) :
    regWordAt (b * 0x100000 + wordOffset r i h) = some (r, i, h) := by
  obtain ⟨hall, hapart⟩ := regTable_placed b hb
  obtain ⟨-, -, hp⟩ := hall r hr
  rw [regWordAt_block b _ (wordOffset_lt hw hp)]
  exact findSome_wordOf hapart hr hw hp

/-- A register of a block lies at its offset there. -/
theorem regAddr_of_block {b : Nat} (hb : b < 16) {r : RegName} (hr : r ∈ regsOfBlock b) (i : Nat) :
    regAddr r i = regBase + (b * 0x100000 + wordOffset r i false) := by
  obtain ⟨hblock, hcommon, -⟩ := (regTable_placed b hb).1 r hr
  rw [regAddr_of_not_common hcommon, hblock, wordOffset]
  simp only [Bool.false_eq_true, if_false]
  omega

theorem wordOffset_high (r : RegName) (i : Nat) : wordOffset r i true = wordOffset r i false + 4 := rfl

/-- The register word found at an offset lies there. -/
theorem regAddr_of_regWordAt {o : Nat} {r : RegName} {i : Nat} {h : Bool} (ho : o < 0x1000000) (hf : regWordAt o = some (r, i, h)) :
    regAddr r i + (if h then 4 else 0) = regBase + o := by
  have hb : o / 0x100000 < 16 := by omega
  simp only [regWordAt] at hf
  repeat' split at hf
  case isFalse =>
    obtain ⟨a, ha, hword⟩ := List.exists_of_findSome?_eq_some hf
    obtain ⟨rfl, -, hoff⟩ := wordOffset_of_wordOf hword
    rw [regAddr_of_block hb ha]
    cases h with
    | false => simp only [Bool.false_eq_true, if_false]; omega
    | true => rw [wordOffset_high] at hoff; simp only [if_true]; omega
  all_goals
    obtain ⟨rfl, rfl, rfl⟩ : _ = r ∧ o / 0x100000 = i ∧ false = h := by simpa using hf
    simp only [regAddr, Bool.false_eq_true, if_false]
    omega

/-- The common registers lie at the end of each block (Table 23.3). -/
theorem regWordAt_common : ∀ r ∈ [RegName.BLK_ID, .BLK_VER, .BLK_IRQ, .BLK_LOCK], ∀ i < 16, regWordAt (regAddr r i - regBase) = some (r, i, false) := by
  decide +kernel

/-- Settles O55: a word of a register is found at its offset because the arrays of a block lie apart; what is found at an offset lies there. -/
theorem registerAddresses : Obligations.RegisterAddresses := by
  refine ⟨fun b hb r hr i hi => ?_, fun o r i h ho _ hf => regAddr_of_regWordAt ho hf, regWordAt_common⟩
  have haddr := regAddr_of_block hb hr i
  have hsub : regAddr r i - regBase = b * 0x100000 + wordOffset r i false := by rw [haddr, Nat.add_sub_cancel_left]
  refine ⟨((regTable_placed b hb).1 r hr).1, haddr ▸ Nat.le_add_right _ _, ?_, fun hwide => ?_⟩
  · rw [hsub]
    exact regWordAt_wordOffset hb hr ⟨hi, nofun⟩
  · rw [hsub, Nat.add_assoc, ← wordOffset_high]
    exact regWordAt_wordOffset hb hr ⟨hi, fun _ => hwide⟩

end Sys2Proof.Machine
end

section
/-! A 64-bit register whose read does more than its access codes say: PTM_GPIO_IN, whose undriven pads read as free values (assumption log 3). -/
namespace Sys2Proof.Machine

/-- Offset 0x710 is the low word of PTM_GPIO_IN, and after reset nothing stands in the way of the Keeper's read of it. -/
theorem gpioIn_read_admitted : regWordAt 0x710 = some (.PTM_GPIO_IN, 0, false) ∧ State.reset.regFault .keeper atRead 0x710 4 = none ∧
    State.reset.regDown .PTM_GPIO_IN 0 = none := by
  decide +kernel

/-- That read takes a free value. -/
theorem gpioIn_read_takes_free : ((regReadProg .keeper 0x710 4).run .reset).freeCtr = 1 := by
  decide +kernel

/-- Refutes O5: its clause on a 32-bit read of a 64-bit register without fields that clear on a read says that only the master's latches and what has left the
part change. PTM_GPIO_IN is such a register (the clause excepts the two logs alone), and the Keeper's read of its low word after reset takes a free value. -/
theorem not_registerAccess : ¬ Obligations.RegisterAccess := by
  intro h
  obtain ⟨-, -, -, -, -, -, -, -, -, hwide, -⟩ := h
  obtain ⟨hat, hfault, hdown⟩ := gpioIn_read_admitted
  obtain ⟨t, ht, hun, -⟩ := hwide .reset .keeper 0x710 .PTM_GPIO_IN 0 (by decide) (by decide) hat hfault hdown rfl (by decide)
  have hsame : t.freeCtr = State.reset.freeCtr := hun.2.1 .free (by decide)
  obtain rfl : (regReadProg .keeper 0x710 4).run .reset = t := Host.Outcome.next.inj ht
  rw [gpioIn_read_takes_free] at hsame
  exact absurd hsame (by decide)

end Sys2Proof.Machine
end

section
/-! Commands of the Keeper, sent by another master (R14, R596). -/
namespace Sys2Proof.Machine

/-- A denied write is reported and counted, and changes nothing else (R596). -/
theorem deny_reports {s : State} (m : Master) (r : RegName) (i : Nat) (h : s.quiet 16) :
    Unchanged ((.BLK_LOCK, (regInfo r).block) :: countRegs 16) [.fcu] [] s ((deny m r i).run s) ∧ Denied m r i s ((deny m r i).run s) := by
  have hcount : (incF BLK_LOCK.RWK_DENY (regInfo r).block).Only (Upd.within [(.BLK_LOCK, (regInfo r).block)] [] []) := by
    simp [Upd.within, BLK_LOCK.RWK_DENY]
  obtain ⟨hu, hc⟩ := reported (p := .skip) trivial hcount (accessCap m 1 2 (regAddr r i)) (by simp [apart]) h
  refine ⟨hu.mono (fun x hx => ?_) (fun _ hx => hx) (fun _ hx => hx), hc, ?_⟩
  · simpa [or_comm] using hx
  · simp only [deny, Prog.run_seq, Prog.run_incF]
    rw [State.get_fld_self _ _ _ _ (by decide), raise_get _ h _ _ (by decide)]
    exact Nat.mod_eq_of_lt (Nat.lt_of_le_of_lt (Nat.min_le_left _ _) (by decide))

/-- A command whose effect is a denial reports it. -/
theorem completes_deny {c : Instr} {s : State} {m : Master} (r : RegName) {i : Nat} (h : exec c s = .next ((deny m r i).run s)) (hq : s.quiet 16) :
    Completes c s fun t => Unchanged ((.BLK_LOCK, (regInfo r).block) :: countRegs 16) [.fcu] [] s t ∧ Denied m r i s t :=
  ⟨_, h, deny_reports m r i hq⟩

/-- A command that only the Keeper's write makes act, from another master. -/
theorem completes_keeperOnly {c : Instr} {s : State} {m : Master} (r : RegName) {i : Nat} {p : Prog} (h : exec c s = .next ((keeperOnly m r i p).run s))
    (hm : m ≠ .keeper) (hq : s.quiet 16) :
    Completes c s fun t => Unchanged ((.BLK_LOCK, (regInfo r).block) :: countRegs 16) [.fcu] [] s t ∧ Denied m r i s t :=
  completes_deny r (h.trans (by rw [keeperOnly_other m r i p hm])) hq

theorem keeperSets_other {m : Master} (r : RegName) (i : Nat) {f : State → Bool} (p : Prog) {s : State} (hm : m ≠ .keeper) (hf : f s = true) :
    (keeperSets m r i f p).run s = (deny m r i).run s := by
  simp only [keeperSets, if_neg hm, Prog.run_whenS, hf, Bool.or_true, if_true]

/-- A write of fields of the Keeper's that would change them, from another master. -/
theorem completes_keeperSets {c : Instr} {s : State} {m : Master} (r : RegName) {i : Nat} {f : State → Bool} {p : Prog}
    (h : exec c s = .next ((keeperSets m r i f p).run s)) (hm : m ≠ .keeper) (hq : s.quiet 16) (hf : f s = true) :
    Completes c s fun t => Unchanged ((.BLK_LOCK, (regInfo r).block) :: countRegs 16) [.fcu] [] s t ∧ Denied m r i s t :=
  completes_deny r (h.trans (by rw [keeperSets_other r i p hm hf])) hq

/-! The commands that judge the state before they judge their master. -/
section
variable {m : Master} (s : State)

theorem takeProg_run {n : Nat} (hn : n ≠ 7) : (takeProg m n).run s = (keeperOnly m .PCX_FRY_KCTL n (whenS (·.takeTurn n) (ferryTake n))).run s := by
  simp [takeProg, hn]

theorem ferryDoneProg_run {n : Nat} (e : Nat) (hn : n ≠ 7) :
    (ferryDoneProg m n e).run s = (keeperOnly m .PCX_FRY_KCTL n (.seq (setF PCX_FRY_KCTL.ERR n e) (ferryDone n))).run s := by
  simp [ferryDoneProg, hn]

variable {s} (hm : m ≠ .keeper)
include hm

theorem wayOffProg_other {k : Nat} (h : s.get BMU_WAY_PWR.OFF_REQ 0 ≠ k) : (wayOffProg m k).run s = (deny m .BMU_WAY_PWR 0).run s := by
  simp only [wayOffProg, Prog.run_ask, if_neg h, keeperOnly_other _ _ _ _ hm]

theorem cacheDisableProg_other (h : s.on BMU_CC_CTL.ENABLE 0 = true) : (cacheDisableProg m).run s = (deny m .BMU_CC_CTL 0).run s := by
  simp only [cacheDisableProg, Prog.run_ask, if_pos h, keeperOnly_other _ _ _ _ hm]

theorem cacheEnableProg_other (h : s.on BMU_CC_CTL.ENABLE 0 = false) : (cacheEnableProg m).run s = (deny m .BMU_CC_CTL 0).run s := by
  simp only [cacheEnableProg, Prog.run_ask, h, Bool.false_eq_true, if_false, keeperOnly_other _ _ _ _ hm]

theorem fcuAckProg_other {i : Nat} (hr : sourceReserved i = false) (ho : s.ownerMayAck m i = false) :
    (fcuAckProg m i).run s = (deny m .FCU_ACK 0).run s := by
  simp [fcuAckProg, hr, ho, hm]

theorem captureClearProg_other {v k : Bool} (hvk : v = true ∨ k = true) (ho : m.isApp = false ∨ s.appOwned (s.get FCU_FEC_INFO.SRC 0) = false) :
    (captureClearProg m v k).run s = (deny m .FCU_FEC_INFO 0).run s := by
  have hact : (m == .keeper || (m.isApp && s.appOwned (s.get FCU_FEC_INFO.SRC 0))) = false := by
    rcases ho with ho | ho <;> simp [hm, ho]
  have hset : (v || k) = true := by simpa using hvk
  simp only [captureClearProg, Prog.run_ask, hact, hset, Bool.false_eq_true, if_false, Prog.run_when, if_true]

end

/-- Settles O48: each command is a denial where another master sends it, at once (`keeperOnly`), where it would change the Keeper's fields (`keeperSets`), or
after the state let it through; a denial under a quiet source 16 is reported and counted, and changes nothing else. -/
theorem keeperOnlyCommands : Obligations.KeeperOnlyCommands :=
  ⟨fun _ _ hm hq => completes_keeperOnly .PTM_CW_CTL rfl hm hq,
    fun _ _ hm hq => completes_keeperOnly .PTM_MODE_CTL rfl hm hq,
    fun _ _ hm hq => completes_keeperOnly .PTM_MODE_CTL rfl hm hq,
    fun _ _ hm hq => completes_keeperOnly .PTM_MODE_CTL rfl hm hq,
    fun _ _ hm hq => completes_keeperOnly .PTM_MODE_CTL rfl hm hq,
    fun _ _ hm hq => completes_keeperOnly .PTM_MODE_CTL rfl hm hq,
    fun _ _ hm hq => completes_keeperOnly .PTM_MODE_CTL rfl hm hq,
    fun _ _ hm hq => completes_keeperOnly .PTM_MODE_CTL rfl hm hq,
    fun _ _ hm hq => completes_keeperOnly .PTM_SAFE_CTL rfl hm hq,
    fun _ _ hm hq => completes_keeperOnly .PTM_SAFE_CTL rfl hm hq,
    fun _ _ hm hq => completes_keeperOnly .FCU_RELOAD rfl hm hq,
    fun _ _ hm hq => completes_keeperOnly .PCX_KPR_CTL rfl hm hq,
    fun _ _ hm hq => completes_keeperOnly .ALM_CTL rfl hm hq,
    fun _ _ hm hq => completes_keeperOnly .ALM_CTL rfl hm hq,
    fun _ _ hm hq => completes_keeperOnly .SPN_STAT rfl hm hq,
    fun _ _ hm hq => completes_keeperOnly .SPN_STAT rfl hm hq,
    fun _ _ hm hq => completes_keeperOnly .SPL_PLAN_CTL rfl hm hq,
    fun _ _ hm hq => completes_keeperOnly .SPL_RLY_CTL rfl hm hq,
    fun _ _ hm hq => completes_keeperOnly .SPL_RLY_CTL rfl hm hq,
    fun _ _ _ hm hq => completes_keeperOnly .FCU_SRC_STAT rfl hm hq,
    fun s _ _ hm hq hn => completes_keeperOnly .PCX_FRY_KCTL (congrArg _ (takeProg_run s hn)) hm hq,
    fun s _ _ e hm hq hn => completes_keeperOnly .PCX_FRY_KCTL (congrArg _ (ferryDoneProg_run s e.toNat hn)) hm hq,
    fun _ _ _ _ _ hm hq => completes_keeperOnly .SVC_CAL_CTL rfl hm hq,
    fun _ _ _ _ hm hq => completes_keeperOnly .SVC_REPAIR rfl hm hq,
    fun _ _ _ hm hq => completes_keeperOnly .BMU_MNT_CTL rfl hm hq,
    fun _ _ _ hm hq => completes_keeperOnly .BMU_MNT_CTL rfl hm hq,
    fun _ _ _ hm hq => completes_keeperOnly .BMU_MNT_CTL rfl hm hq,
    fun _ _ _ hm hq h => completes_deny .BMU_WAY_PWR (congrArg _ (wayOffProg_other hm h)) hq,
    fun _ _ hm hq h => completes_deny .BMU_CC_CTL (congrArg _ (cacheDisableProg_other hm h)) hq,
    fun _ _ hm hq h => completes_deny .BMU_CC_CTL (congrArg _ (cacheEnableProg_other hm h)) hq,
    fun _ _ _ hm hq => completes_keeperOnly .BMU_DISCARD rfl hm hq,
    fun _ _ _ _ _ hm hq => completes_keeperOnly .MPC_KEY_CTL rfl hm hq,
    fun _ _ _ hm hq => completes_keeperOnly .MPC_KEY_CTL rfl hm hq,
    fun _ _ _ hm hq => completes_keeperOnly .MPC_KEY_CTL rfl hm hq,
    fun _ _ _ hm hq => completes_keeperOnly .MPC_KEY_CTL rfl hm hq,
    fun _ _ _ _ hm hq h => completes_keeperSets .SVE_CLU_CTL rfl hm hq (bne_iff_ne.2 h),
    fun _ _ _ hm hq h => completes_keeperSets .SPN_CTL rfl hm hq (bne_iff_ne.2 h),
    fun _ _ _ hm hq h => completes_keeperSets .SPN_COMMIT rfl hm hq (bne_iff_ne.2 h),
    fun _ _ hm hq h => completes_keeperSets .SPL_CFG rfl hm hq (by rw [h]; rfl),
    fun _ _ hm hq h => completes_keeperSets .SPL_CFG rfl hm hq h,
    fun _ _ _ _ hm hq h => completes_keeperSets .SVE_SLOT_MAP rfl hm hq (bne_iff_ne.2 h),
    fun _ _ _ _ hm hq h => completes_keeperSets .SVE_HEAD_STATE rfl hm hq (Bool.or_eq_true_iff.2 (.inl (bne_iff_ne.2 h))),
    fun _ _ _ _ _ hm hq h => completes_keeperSets .PCX_CORE_CTL rfl hm hq (by simpa only [Bool.or_eq_true, bne_iff_ne] using h),
    fun _ _ _ hm hq hr ho => completes_deny .FCU_ACK (congrArg _ (fcuAckProg_other hm hr ho)) hq,
    fun _ _ _ _ hm hq hvk ho => completes_deny .FCU_FEC_INFO (congrArg _ (captureClearProg_other hm hvk ho)) hq⟩

end Sys2Proof.Machine
end

section
/-! A store of bytes, read back (R35, R366, R372). -/
namespace Sys2Proof.Machine

/-- A program that updates no register leaves the register file as it is listed, and so every register. -/
theorem Prog.Only.regs {P : Part → Prop} {M : Prop} {p : Prog} (hp : p.Only (Upd.among (fun _ => False) P M)) (s : State) : (p.run s).regs = s.regs := by
  refine Prog.Only.rel (fun s t => t.regs = s.regs) (fun _ => rfl) (fun _ _ _ h k => k.trans h) ?_ hp s
  intro u s hu
  cases u with
  | fld f i v => exact hu.elim
  | reg r i v => exact hu.elim
  | regsReset f =>
    refine List.filter_eq_self.2 fun e _ => ?_
    simpa using hu (RegName.ofNat (e.1 % 512)) (e.1 / 512)
  | _ => rfl

/-- A range whose bytes are those of a list reads as the list. -/
theorem State.bytes_eq {s : State} {a : Nat} {bs : List Byte} (h : ∀ k < bs.length, s.byte (a + k) = bs.getD k 0) : s.bytes a bs.length = bs := by
  refine List.ext_getElem (by simp [State.bytes]) fun k _ hk => ?_
  simp only [State.bytes, List.getElem_map, List.getElem_range, h k hk]
  exact (List.getElem_eq_getD 0).symm

/-- Stored bytes read back. -/
theorem memBytes_bytes (a : Nat) (bs : List Byte) (s : State) : ((memBytes a bs).run s).bytes a bs.length = bs :=
  State.bytes_eq fun k hk => by rw [memBytes_byte, if_pos ⟨Nat.le_add_right a k, Nat.add_lt_add_left hk a⟩, Nat.add_sub_cancel_left]

/-- Settles O54: byte by byte a store is what `memBytes_byte` says, and its updates are of memory and of the buffer cache alone. -/
theorem storeReadsBack : Obligations.StoreReadsBack := by
  intro a bs s
  refine ⟨memBytes_bytes a bs s, fun x hx => ?_, ?_, fun p hp => ?_⟩
  · rw [memBytes_byte, if_neg hx]
  · exact (memBytes_among (P := fun _ => True) (M := True) a bs trivial trivial).regs s
  · exact (memBytes_among (M := True) a bs hp.symm trivial).same s

end Sys2Proof.Machine
end

section
/-! The layout of rows on the head paths (R65, R67, R68): a rotation by the row, and a division by the number of data members. -/
namespace Sys2Proof.Machine

theorem memberPath_lt (g j : Nat) : memberPath g j < 16 :=
  Nat.mod_lt _ (by decide)

theorem pathMember_memberPath (g : Nat) {j : Nat} (hj : j < 16) : pathMember g (memberPath g j) = j := by
  simp only [memberPath, pathMember]
  omega

theorem memberPath_pathMember (g : Nat) {p : Nat} (hp : p < 16) : memberPath g (pathMember g p) = p := by
  simp only [memberPath, pathMember]
  omega

theorem memberPath_add (g k j : Nat) : memberPath (g + k) j = (memberPath g j + k) % 16 := by
  simp only [memberPath]
  omega

/-- The row at which a member comes to a given path, counted from a given row. -/
theorem memberPath_visits (g j : Nat) {p : Nat} (hp : p < 16) :
    ∃ k < 16, memberPath (g + k) j = p ∧ ∀ k' < 16, memberPath (g + k') j = p → k' = k := by
  have hm := memberPath_lt g j
  refine ⟨(p + 16 - memberPath g j) % 16, Nat.mod_lt _ (by decide), ?_, fun k' hk' h => ?_⟩
  · rw [memberPath_add]
    omega
  · rw [memberPath_add] at h
    omega

theorem levelD_bounds (l : Nat) : 12 ≤ levelD l ∧ levelD l ≤ 16 := by
  match l with
  | 0 | 1 | 2 | 3 | _ + 4 => simp [levelD]

theorem State.nsD_bounds (s : State) (n : Nat) : 12 ≤ s.nsD n ∧ s.nsD n ≤ 16 :=
  levelD_bounds _

/-- The member that holds an LBA is the LBA divided by the row's data members, with remainder. -/
theorem State.rowLba_eq_iff {s : State} {n g d : Nat} (l : Nat) (hg : s.nsRow0 n ≤ g) (hd : d < s.nsD n) :
    s.rowLba n g d = l ↔ s.lbaRow n l = g ∧ s.lbaMember n l = d := by
  have hdiv : l / s.nsD n = g - s.nsRow0 n ∧ l % s.nsD n = d ↔ d + s.nsD n * (g - s.nsRow0 n) = l ∧ d < s.nsD n :=
    Nat.div_mod_unique (Nat.zero_lt_of_lt hd)
  have hrow : s.lbaRow n l = g ↔ l / s.nsD n = g - s.nsRow0 n := by
    simp only [State.lbaRow]
    omega
  have hlba : s.rowLba n g d = d + s.nsD n * (g - s.nsRow0 n) := by
    rw [State.rowLba, Nat.mul_comm, Nat.add_comm]
  rw [hrow, State.lbaMember, hdiv, hlba]
  exact (and_iff_left hd).symm

/-- Settles O58: member and path of a row are inverse rotations, and an LBA's row and member are its quotient and remainder by D. -/
theorem rowLayout : Obligations.RowLayout := by
  unfold Obligations.RowLayout
  refine ⟨fun g j hj => ⟨rfl, pathMember_memberPath g hj⟩, fun g p hp => ⟨Nat.mod_lt _ (by decide), memberPath_pathMember g hp⟩,
    fun g j => memberPath_add g 1 j, fun g j p _ hp => memberPath_visits g j hp, fun s n => ?_, fun s n r d _ => ?_,
    fun s n g d l hg hd => State.rowLba_eq_iff l hg hd⟩
  · obtain ⟨hlow, hhigh⟩ := s.nsD_bounds n
    exact ⟨hlow, hhigh, Nat.add_sub_cancel' hhigh⟩
  · rw [State.rowLba, Nat.add_sub_cancel_left]

end Sys2Proof.Machine
end

section
/-! Three statements of the family that fail: a request's reserved bits, a write held pending, a seek accepted while the arm unloads. -/
namespace Sys2Proof.Machine

/-- MAP_COMMIT waits on channel 0 in SERVICE; its CFG word has a reserved bit of Table 2.5 set. -/
def reservedBitCommit : State := (all [setF PTM_MODE_STAT.MODE 0 mService, setF PCX_FRY_STAT.STATE 0 fyTaken, setF PCX_FRY_STAT.LAST_SEQ 0 5,
  setF PCX_FRY_REQ.W 0 0x02011005, setF PCX_FRY_REQ.W 4 0x08000000, setF PCX_FRY_REQ.W 5 1, setF PCX_FRY_REQ.W 6 0x80010000,
  setF BMU_CFG.CHANNELS 0 2, setF BMU_CFG.SIZE 0 32]).run .reset

/-- The request is served and its staged map is in order. -/
theorem reservedBitCommit_served : reservedBitCommit.mayServe 0 0x0201 (clsA ||| clsS) false ∧ reservedBitCommit.mode = mService ∧
    reservedBitCommit.dramOk (reservedBitCommit.reqAddr 0 4) ((wf SVE_CMAP_CFG.LAST_BAND (reservedBitCommit.req 0 6) + 1) * 128 +
      16 * (wf SVE_CMAP_CFG.ZONES_M1 (reservedBitCommit.req 0 6) + 1)) = true ∧
    reservedBitCommit.stagedOk (reservedBitCommit.reqAddr 0 4) (wf SVE_CMAP_CFG.LAST_BAND (reservedBitCommit.req 0 6))
      (wf SVE_CMAP_CFG.ZONES_M1 (reservedBitCommit.req 0 6) + 1) = true := by
  unfold State.mayServe
  decide +kernel

/-- The register takes the fields of the word, not its reserved bits. -/
theorem reservedBitCommit_cfg : ((serve 0 0x0201 (clsA ||| clsS) false (mapCommitCmd 0 0)).run reservedBitCommit).reg .SVE_CMAP_CFG 0 = 0x80000000 ∧
    reservedBitCommit.req 0 6 = 0x80010000 := by
  decide +kernel

/-- Refutes O14: its clause on MAP_COMMIT says that SVE_CMAP_CFG then reads as the whole CFG word of the request. Bits 23 to 16 are reserved and read 0
(Table 2.5, R13), so a request that sets one of them is answered OK and leaves another value. -/
theorem not_ferryMap : ¬ Obligations.FerryMap := by
  intro h
  obtain ⟨hcommit, -⟩ := h
  obtain ⟨hserve, hmode, hdram, hstaged⟩ := reservedBitCommit_served
  obtain ⟨t, ht, -, -, hcfg, -⟩ := hcommit reservedBitCommit 0 0 hserve hmode hdram hstaged (by decide)
  obtain rfl : (serve 0 0x0201 (clsA ||| clsS) false (mapCommitCmd 0 0)).run reservedBitCommit = t := Host.Outcome.next.inj ht
  obtain ⟨hreg, hreq⟩ := reservedBitCommit_cfg
  have hval : (0x80000000 : DWord) = BitVec.ofNat 64 0x80010000 := hreg.symm.trans (hcfg.trans (congrArg _ hreq))
  exact absurd hval (by decide)

/-- A sector is about to be read on path 1 in a pass, behind a write of RDC_HEAD_CFG of the path's head that RDC holds pending while the path is ACTIVE (R98). -/
def pendingHeadConfig : State := (all [setR .SVE_SLOT_MAP 0 0xBA98, setF SVE_HEAD_STATE.STATE 1 hInSlot, setF SVE_SEEK_STAT.STATE 0 skTracking,
  setF RDC_HP_STAT.PWR 1 pwActive, .upd (.sve fun x => { x with active := [1], pass := [(0, { issuer := 0, track := 0, band := 0, write := false, paths := [1], ending := false, release := [] })] }),
  setTgt 1 fun t => { t with head := 1 }, rdcWrite 1 .RDC_HEAD_CFG 1 1]).run .reset

/-- The write is of that path (R98), and waits; the read may begin. -/
theorem pendingHeadConfig_reads : pendingHeadConfig.rdcPath .RDC_HEAD_CFG 1 = some 1 ∧ pendingHeadConfig.reg .RDC_HEAD_CFG 1 = State.reset.reg .RDC_HEAD_CFG 1 ∧
    pendingHeadConfig.inPass 1 = true ∧ pendingHeadConfig.passEnding (1 / 4) = false ∧ 1 ∈ pendingHeadConfig.sve.active ∧
    pendingHeadConfig.settled 1 = true ∧ pwReady ≤ pendingHeadConfig.hpPwr 1 ∧ 1 ∉ pendingHeadConfig.rdc.loading ∧
    pendingHeadConfig.headState (pendingHeadConfig.tgt 1).head ≠ hRetired := by
  decide +kernel

/-- The preamble is a boundary, at which the write applies. -/
theorem pendingHeadConfig_applied :
    ((preambleStartProg 1 none).run pendingHeadConfig).reg .RDC_HEAD_CFG 1 ≠ pendingHeadConfig.reg .RDC_HEAD_CFG 1 := by
  decide +kernel

/-- Refutes O32: its clause on the preamble of an ordinary read lists the registers that may change, and RDC_HEAD_CFG is none of them. A write of it is held
pending while its head's path is ACTIVE, and the preamble, a boundary of R98, applies it. -/
theorem not_headPaths : ¬ Obligations.HeadPaths := by
  intro h
  obtain ⟨-, -, -, -, -, -, -, -, -, -, -, -, hpreamble, -⟩ := h
  obtain ⟨-, -, hpass, hending, hactive, hsettled, hpwr, hloading, hhead⟩ := pendingHeadConfig_reads
  obtain ⟨t, ht, hframe, -⟩ := hpreamble pendingHeadConfig 1 hpass hending hactive hsettled hpwr hloading hhead
  obtain rfl : (preambleStartProg 1 none).run pendingHeadConfig = t := Host.Outcome.next.inj ht
  exact pendingHeadConfig_applied (hframe.1 .RDC_HEAD_CFG 1 (by decide))

/-- Actuator 0, loaded, unloads: it makes its way to track 0 (R210, step 1). A valid map record stands for its band 0. -/
def unloadingArm : State := (all [setF SVE_CMAP_CFG.ENABLE 0 1, setF SVE_CMAP_BASE.ADDR 0 0x110000,
  memSealed 0x110000000 [0x80000000, 0x80000005, 0x80000005, 0x80000005, 0x80000005, 0x80000005, 0x80000005],
  setR .SVE_SLOT_MAP 0 0xBA98, setF SVE_HEAD_STATE.STATE 0 hInSlot, setF SVE_TRK_STAT.LOADED 0 1, setF SVE_TRK_STAT.STATE 0 trkServed,
  setF SVE_SEEK_STAT.STATE 0 skTracking, startUnload 0]).run .reset

/-- It unloads, and none of R202's conditions refuses a seek of its slot 0. -/
theorem unloadingArm_accepts : unloadingArm.get SVE_SEEK_STAT.STATE 0 = skUnloading ∧ unloadingArm.seekError 0 (unloadingArm.seekTargets 0 1) = 0 := by
  decide +kernel

/-- The seek goes on under the unload, which SVE_SEEK_STAT still shows. -/
theorem unloadingArm_still_unloads : ((seekGoProg 0 1 false).run unloadingArm).get SVE_SEEK_STAT.STATE 0 = skUnloading := by
  decide +kernel

/-- Refutes O39: its clause on an accepted seek says of every such seek that the state is then at most SETTLE. R202 does not refuse a seek while the actuator
unloads, and SVE_SEEK_STAT then goes on showing UNLOADING (R210, Table 7.4). -/
theorem not_seeks : ¬ Obligations.Seeks := by
  intro h
  obtain ⟨-, -, -, haccept, -⟩ := h
  obtain ⟨-, herr⟩ := unloadingArm_accepts
  obtain ⟨t, ht, -, -, -, -, -, hstate⟩ := haccept unloadingArm 0 1 false herr
  obtain rfl : (seekGoProg 0 1 false).run unloadingArm = t := Host.Outcome.next.inj ht
  exact absurd (unloadingArm_still_unloads.symm.trans_le hstate) (by decide)

end Sys2Proof.Machine
end

section
/-! Fields that a program keeps, and what an event does in normal service: FCU's registers alone (R531 to R541). -/
namespace Sys2Proof.Machine

/-- Fields that read the same in two states, in every element. -/
def FieldsKept (fs : List Fld) (s t : State) : Prop := ∀ f ∈ fs, ∀ i, t.get f i = s.get f i

theorem FieldsKept.refl (fs : List Fld) (s : State) : FieldsKept fs s s := fun _ _ _ => rfl

theorem FieldsKept.trans {fs : List Fld} {a b c : State} (h : FieldsKept fs a b) (k : FieldsKept fs b c) : FieldsKept fs a c :=
  fun f hf i => (k f hf i).trans (h f hf i)

theorem ChangesOnly.fieldsKept {rs : List RegName} {ps : List Part} {m : Bool} {s t : State} (h : ChangesOnly rs ps m s t) {fs : List Fld}
    (hf : ∀ f ∈ fs, f.reg ∉ rs) : FieldsKept fs s t := fun f hm i => by
  simp only [State.get, h.1 f.reg i (hf f hm)]

/-- Two fields share no bit. -/
def Fld.clearOf (f g : Fld) : Prop := f.reg ≠ g.reg ∨ f.hi < 64 ∧ g.hi < 64 ∧ (f.hi < g.lo ∨ g.hi < f.lo)

/-- An update that leaves the fields `fs`. -/
def Upd.clearOf (fs : List Fld) : Upd → Prop
  | .fld f _ _ => ∀ g ∈ fs, f.clearOf g
  | .reg r _ _ => ∀ g ∈ fs, r ≠ g.reg
  | .regsReset p => ∀ g ∈ fs, ∀ i, p g.reg i = false
  | _ => True

theorem Prog.Only.fieldsKept {fs : List Fld} {p : Prog} (hp : p.Only (Upd.clearOf fs)) (s : State) : FieldsKept fs s (p.run s) := by
  refine Prog.Only.rel (FieldsKept fs) (FieldsKept.refl fs) (fun _ _ _ => FieldsKept.trans) (fun u s hu g hg i => ?_) hp s
  cases u with
  | fld f j v => exact State.get_fld_ne s f g j i v ((hu g hg).imp_right .inr)
  | reg r j v => exact State.get_reg_ne s r g j i v (.inl (hu g hg))
  | regsReset p => simp only [State.get, reg_regsReset p s g.reg i (hu g hg i)]
  | _ => rfl

/-- An update of registers that hold none of the fields leaves them. -/
theorem Upd.clearOf_of_among {fs : List Fld} {R : RegName → Prop} {P : Part → Prop} {M : Prop} (hR : ∀ r, R r → ∀ g ∈ fs, r ≠ g.reg) {u : Upd}
    (h : u.among R P M) : u.clearOf fs := by
  cases u with
  | fld f i v => exact fun g hg => .inl (hR _ h g hg)
  | reg r i v => exact hR r h
  | regsReset p =>
    intro g hg i
    cases hp : p g.reg i with
    | false => rfl
    | true => exact absurd rfl (hR _ (h _ i hp) g hg)
  | _ => trivial

/-- Registers that hold none of the fields `fs`. -/
abbrev noneHolds (fs : List Fld) (r : RegName) : Prop := ∀ g ∈ fs, r ≠ g.reg

theorem Prog.Only.clearOf {fs : List Fld} {p : Prog} (hp : p.Only (Upd.among (noneHolds fs) (fun _ => True) True)) : p.Only (Upd.clearOf fs) :=
  hp.mono fun _ => Upd.clearOf_of_among fun _ h => h

/-! Normal service: MODE says it, and what leaves MODE leaves it. -/

theorem FieldsKept.normalService {fs : List Fld} {s t : State} (h : FieldsKept (PTM_MODE_STAT.MODE :: fs) s t) : t.normalService = s.normalService := by
  simp only [State.normalService, State.mode, h _ List.mem_cons_self]

/-- A program that in normal service leaves MODE and the fields `fs`. -/
def Prog.Serves (fs : List Fld) (p : Prog) : Prop := ∀ s, s.normalService = true → FieldsKept (PTM_MODE_STAT.MODE :: fs) s (p.run s)

section
variable {fs : List Fld}

theorem Serves.of_only {p : Prog} (hp : p.Only (Upd.clearOf (PTM_MODE_STAT.MODE :: fs))) : p.Serves fs := fun s _ => hp.fieldsKept s

theorem Serves.of_among {p : Prog} (hp : p.Only (Upd.among (noneHolds (PTM_MODE_STAT.MODE :: fs)) (fun _ => True) True)) : p.Serves fs :=
  Serves.of_only hp.clearOf

theorem Serves.skip : Prog.skip.Serves fs := fun _ _ => FieldsKept.refl _ _

theorem Serves.seq {p q : Prog} (hp : p.Serves fs) (hq : q.Serves fs) : (Prog.seq p q).Serves fs := fun s hs =>
  (hp s hs).trans (hq _ ((hp s hs).normalService.trans hs))

theorem Serves.ask {k : State → Prog} (h : ∀ s, (k s).Serves fs) : (Prog.ask k).Serves fs := fun s hs => h s s hs

theorem Serves.when {c : Bool} {p : Prog} (h : p.Serves fs) : (when c p).Serves fs := by
  cases c with
  | false => exact Serves.skip
  | true => exact h

theorem Serves.all {l : List Prog} (h : ∀ p ∈ l, p.Serves fs) : (all l).Serves fs := by
  induction l with
  | nil => exact Serves.skip
  | cons p l ih => exact Serves.seq (h p List.mem_cons_self) (ih fun q hq => h q (List.mem_cons_of_mem _ hq))

theorem Serves.each {α : Type} {l : List α} {f : α → Prog} (h : ∀ x ∈ l, (f x).Serves fs) : (each l f).Serves fs :=
  Serves.all fun p hp => by
    obtain ⟨x, hx, rfl⟩ := List.mem_map.1 hp
    exact h x hx
end

/-! An event in normal service. -/

/-- Registers that an event writes in normal service. -/
def eventRegs : List RegName := [.FCU_SRC_STAT, .FCU_FEC_INFO, .FCU_FEC_ADDR, .FCU_FEC_TIME, .FCU_PEND, .FCU_CFG]

/-- Components that it changes: FCU, and the order in which records entered. -/
def eventComps : List Part := [.fcu, .alm]

section
variable {R : RegName → Prop} {P : Part → Prop} {M : Prop} (hr : ∀ r ∈ eventRegs, R r)
include hr

theorem setPend_among (i : Nat) (b : Bool) : (setPend i b).Only (Upd.among R P M) := by
  simp only [setPend, driveNfault, Only.cons, Only.nil, Only.setF, Only.setBitF, Only.ask, and_true]
  exact ⟨hr _ (by decide), fun _ => hr _ (by decide), fun _ => hr _ (by decide)⟩

theorem capture_among (i : Nat) (c : FCap) : (capture i c).Only (Upd.among R P M) := by
  have hi : R .FCU_FEC_INFO := hr _ (by decide)
  simp only [Machine.capture, Only.ask, Only.ite, Only.cons, Only.nil, Only.setF, and_true]
  exact fun _ => ⟨fun _ => hi, fun _ => ⟨hi, hi, hi, hi, hi, hr .FCU_FEC_ADDR (by decide), hr .FCU_FEC_TIME (by decide)⟩⟩

theorem count_among (i : Nat) (hp : ∀ q ∈ eventComps, P q) : (count i).Only (Upd.among R P M) := by
  have hc : R .FCU_SRC_STAT := hr _ (by decide)
  simp only [Machine.count, windowNote, Only.ask, Only.cons, Only.nil, Only.upd, Only.incF, Only.when, Only.setF, and_true]
  exact fun _ => ⟨fun _ => hp .fcu (by decide), fun _ => hc, fun _ => hc, fun _ => hc⟩

/-- The first step of a ladder shows the source PEND and starts its timer, and enters no record. -/
theorem arrive_one_among (i : Nat) (hp : ∀ q ∈ eventComps, P q) : (arrive i 1).Only (Upd.among R P M) := by
  simp only [arrive, oneEvent, Only.ask, Only.seq, Only.cons, Only.nil, Only.when, Only.setF, Only.upd, setTimer, and_true]
  exact fun s => ⟨fun t => ⟨hr .FCU_SRC_STAT (by decide), setPend_among hr i true, fun _ => hp .fcu (by decide), nofun, nofun, nofun, nofun⟩,
    fun _ _ => hp .alm (by decide)⟩
end

/-- In normal service a severe event starts its source's ladder, or is counted behind one that runs (R536). -/
theorem react_inService {s : State} (i : Nat) (h : s.normalService = true) : ChangesOnly eventRegs eventComps false s ((react i).run s) := by
  simp only [react, Prog.run_ask, h, if_true, Prog.run_ite]
  split_ifs
  · exact (setPend_among (fun _ h => h) i true).changesOnly s
  · exact (arrive_one_among (fun _ h => h) i fun _ h => h).changesOnly s
  · exact Prog.Only.changesOnly (p := setF FCU_SRC_STAT.AGAIN i 1) (by decide : RegName.FCU_SRC_STAT ∈ eventRegs) s

/-- In normal service an event changes nothing but FCU, and the order of records. -/
theorem raise_inService {s : State} (i : Nat) (c : FCap) (h : s.normalService = true) : ChangesOnly eventRegs eventComps false s ((raise i c).run s) := by
  simp only [raise, Prog.run_ask, Prog.run_ite]
  split_ifs
  · exact ChangesOnly.refl s
  · have hc : ChangesOnly eventRegs eventComps false s ((count i).run ((capture i (eventDetail i c)).run s)) :=
      ((capture_among (fun _ h => h) i _).changesOnly s).prog (count_among (fun _ h => h) i fun _ h => h)
    simp only [Prog.run_all_cons, Prog.run_all_nil, Prog.run_when]
    split_ifs
    · exact hc.trans (react_inService i ((hc.fieldsKept (fs := [PTM_MODE_STAT.MODE]) (by decide)).normalService.trans h))
    · exact hc

theorem raise_serves {fs : List Fld} (i : Nat) (c : FCap) (hf : ∀ f ∈ fs, f.reg ∉ eventRegs) : (raise i c).Serves fs := fun _ hs =>
  (raise_inService i c hs).fieldsKept fun f hm => by
    rcases List.mem_cons.1 hm with rfl | hm
    · decide
    · exact hf f hm

end Sys2Proof.Machine
end

section
/-! What the servo's operations of a wedge can touch (R187, R190 to R192, R203 to R215). -/
namespace Sys2Proof.Machine

/-- Registers and components that a seek moving on writes. -/
def seekRegs : List RegName := [.SVE_SEEK_STAT, .SVE_CTX_CFG, .SVE_CTX_MAN, .SVE_CTX_STAT]
def seekComps : List Part := [.sve, .rdc, .out]

section
variable {R : RegName → Prop} {P : Part → Prop} {M : Prop}

theorem maSent_among (p : Nat) (u : Int) (hp : ∀ q ∈ seekComps, P q) : (maSent p u).Only (Upd.among R P M) := by
  simp only [maSent, maCmd, palCmd, palFrame, send, Only.ask, Only.seq, Only.whenS, Only.emit, Only.upd]
  exact fun _ => ⟨fun _ _ => ⟨hp .out (by decide), fun _ => hp .rdc (by decide)⟩, hp .sve (by decide)⟩

theorem leaveActive_among (p : Nat) (hp : ∀ q ∈ seekComps, P q) : (leaveActive p).Only (Upd.among R P M) := by
  have hs : P .sve := hp _ (by decide)
  simp only [leaveActive, ctxStop, Only.ask, Only.when, Only.cons, Only.nil, Only.upd, and_true]
  exact fun _ _ => ⟨hs, hs, maSent_among p 0 hp⟩

theorem joinActive_among (p : Nat) (hr : ∀ r ∈ seekRegs, R r) (hs : P .sve) : (joinActive p).Only (Upd.among R P M) := by
  simp only [joinActive, ctxStop, setCtx, Only.ask, Only.cons, Only.nil, Only.upd, Only.setF, Only.setI, and_true]
  exact fun _ => ⟨hs, hs, hr .SVE_CTX_MAN (by decide), hr .SVE_CTX_CFG (by decide), hr .SVE_CTX_CFG (by decide), hr .SVE_CTX_STAT (by decide), hs⟩

theorem setSub_among (a st : Nat) (hr : R .SVE_SEEK_STAT) (hs : P .sve) : (setSub a st).Only (Upd.among R P M) := by
  simp only [setSub, setSeek, Only.ask, Only.seq, Only.when, Only.setF, Only.upd]
  exact fun _ => ⟨hs, fun _ => hr⟩

theorem enterTrackIn_among (a : Nat) (hr : ∀ r ∈ seekRegs, R r) (hp : ∀ q ∈ seekComps, P q) : (enterTrackIn a).Only (Upd.among R P M) := by
  simp only [enterTrackIn, rejoinNone, Only.ask, Only.cons, Only.nil, Only.upd, Only.each, Only.setF, Only.ite, Only.when, and_true]
  exact fun _ => ⟨hp .sve (by decide), hr .SVE_CTX_CFG (by decide),
    fun p _ => ⟨fun _ _ => joinActive_among p hr (hp _ (by decide)), fun _ => leaveActive_among p hp⟩, setSub_among _ _ (hr _ (by decide)) (hp _ (by decide))⟩

theorem enterSettle_among (a : Nat) (hr : R .SVE_SEEK_STAT) (hs : P .sve) : (enterSettle a).Only (Upd.among R P M) := by
  simp only [enterSettle, setSeek, Only.seq, Only.upd]
  exact ⟨hs, setSub_among _ _ hr hs⟩

theorem countWedge_among (a : Nat) (hr : R .SVE_SEEK_STAT) (hs : P .sve) : (countWedge a).Only (Upd.among R P M) := by
  simp only [countWedge, setSeek, Only.ask, Only.when, Only.ite, Only.incF, Only.upd]
  exact fun _ _ => ⟨fun _ => hs, fun _ _ => hr⟩

theorem seekAdvance_among (a : Nat) (hr : ∀ r ∈ seekRegs, R r) (hp : ∀ q ∈ seekComps, P q) : (seekAdvance a).Only (Upd.among R P M) := by
  have hs : P .sve := hp _ (by decide)
  have hk : R .SVE_SEEK_STAT := hr _ (by decide)
  simp only [seekAdvance, setSeek, Only.ask, Only.seq, Only.ite, Only.cons, Only.nil, Only.upd, Only.when, and_true]
  exact fun _ => ⟨countWedge_among a hk hs, fun _ => ⟨hs, fun _ => enterTrackIn_among a hr hp, fun _ => enterSettle_among a hk hs⟩, fun _ _ => hs⟩

theorem rampDrive_among (a : Nat) (hr : ∀ r ∈ seekRegs, R r) (hp : ∀ q ∈ seekComps, P q) : (rampDrive a).Only (Upd.among R P M) := by
  simp only [rampDrive, rejoinNone, setSeek, Only.cons, Only.nil, Only.upd, Only.setF, Only.each, and_true]
  exact ⟨hp .sve (by decide), hr .SVE_CTX_CFG (by decide), fun _ _ => leaveActive_among _ hp, hr .SVE_CTX_CFG (by decide), hp .sve (by decide)⟩

theorem settleCheck_among (a : Nat) (hr : ∀ r ∈ seekRegs, R r) (hp : ∀ q ∈ seekComps, P q) : (settleCheck a).Only (Upd.among R P M) := by
  have hk : R .SVE_SEEK_STAT := hr _ (by decide)
  simp only [settleCheck, Only.ask, Only.when, Only.ite, Only.cons, Only.nil, Only.setF, and_true]
  exact fun _ _ => ⟨fun _ => rampDrive_among a hr hp, fun _ => ⟨setSub_among _ _ hk (hp _ (by decide)), hk, fun _ => hk⟩⟩

theorem settleCount_among (p : Nat) (ok : Bool) (hr : R .SVE_SEEK_STAT) (hs : P .sve) : (settleCount p ok).Only (Upd.among R P M) := by
  simp only [settleCount, setSeek, Only.ask, Only.seq, Only.when, Only.setBitF, Only.upd]
  exact fun _ _ => ⟨hs, fun _ _ => hr⟩

theorem predictNext_among (p : Nat) (got : Option Nat) (hs : P .sve) : (predictNext p got).Only (Upd.among R P M) := hs

theorem setOfftrack_among (p : Nat) (b : Bool) (hr : ∀ r ∈ gateRegs, R r) (hp : ∀ q ∈ storeComps, P q) (hw : P .wrc) :
    (setOfftrack p b).Only (Upd.among R P True) := by
  simp only [setOfftrack, rowsDisturbed, noteCleared, Only.ask, Only.ite, Only.cons, Only.nil, Only.when, Only.seq, Only.upd, and_true]
  exact fun _ => ⟨fun _ => ⟨hw, closeGates_among _ _ hr hp hw, fun _ => hw⟩,
    fun _ _ => ⟨fun _ => hw, hw, wusShow_among (hr _ (by decide)) (hr _ (by decide)) hw⟩⟩

theorem judgeOfftrack_among (p : Nat) (e : Int) (hr : ∀ r ∈ gateRegs, R r) (hp : ∀ q ∈ storeComps, P q) (hw : P .wrc) :
    (judgeOfftrack p e).Only (Upd.among R P True) := by
  simp only [judgeOfftrack, Only.ask, Only.when, Only.ite]
  exact fun _ _ => ⟨fun _ => setOfftrack_among p true hr hp hw, fun _ _ => setOfftrack_among p false hr hp hw⟩

theorem almEnter_among (code sev subsys : Nat) (kpr : Bool) (l : List Nat) (hr : R .ALM_STAT) (ha : P .alm) :
    (almEnter code sev subsys kpr l).Only (Upd.among R P M) := by
  simp only [almEnter, almShow, Only.ask, Only.ite, Only.cons, Only.nil, Only.setF, Only.incF, Only.upd, Only.when, and_true]
  exact fun _ => ⟨fun _ => ⟨hr, fun _ => hr, ha⟩, fun _ => ⟨ha, fun _ => hr, fun _ => hr⟩⟩

theorem driftEvent_among (p kind : Nat) (cond : Bool) (hr : ∀ r ∈ [RegName.SVE_DRIFT_STAT, .ALM_STAT], R r) (hp : ∀ q ∈ [Part.sve, .alm], P q) :
    (driftEvent p kind cond).Only (Upd.among R P M) := by
  have hs : P .sve := hp _ (by decide)
  have hd : R .SVE_DRIFT_STAT := hr _ (by decide)
  simp only [driftEvent, almEvent, Only.ask, Only.when, Only.cons, Only.nil, Only.upd, Only.ite, Only.seq, Only.setF, Only.incF, and_true]
  exact fun _ _ => ⟨hs, ⟨fun _ => hd, fun _ => ⟨hs, fun _ => hd⟩⟩, fun _ => almEnter_among _ _ _ _ _ (hr _ (by decide)) (hp _ (by decide)), fun _ => hs⟩

theorem driftWedge_among (p : Nat) (zero : Bool) (hr : ∀ r ∈ [RegName.SVE_DRIFT_STAT, .ALM_STAT], R r) (hp : ∀ q ∈ [Part.sve, .alm], P q) :
    (driftWedge p zero).Only (Upd.among R P M) := by
  have hs : P .sve := hp _ (by decide)
  have hd : ∀ kind cond, (driftEvent p kind cond).Only (Upd.among R P M) := fun kind cond => driftEvent_among p kind cond hr hp
  simp only [driftWedge, Only.ask, Only.ite, Only.skip, Only.seq, Only.upd, Only.when, Only.cons, Only.nil, hd, and_true, implies_true, true_and]
  exact fun _ _ => ⟨fun _ => hs, fun _ => hs⟩

theorem notchWedge_among (a r : Nat) (x : Int) (zero : Bool) (hr : R .SVE_NOTCH_STAT) (hs : P .sve) : (notchWedge a r x zero).Only (Upd.among R P M) := by
  simp only [notchWedge, Only.ask, Only.ite, Only.skip, Only.setF, Only.cons, Only.nil, Only.when, Only.upd, Only.seq, and_true, implies_true, true_and]
  exact fun _ _ => ⟨fun _ => hr, fun _ => ⟨hr, fun _ => hr, hs, fun _ => ⟨hs, hr⟩⟩⟩

theorem indexFix_among (w : Nat) (hr : R .SPN_STAT) (hs : P .spn) : (indexFix w).Only (Upd.among R P M) := by
  simp only [indexFix, Only.whenS, Only.seq, Only.setF, Only.upd]
  exact fun _ _ => ⟨hr, hs⟩

theorem cluApply_among (u b : Nat) (hr : R .SVE_CLU_CTL) (hs : P .sve) : (cluApply u b).Only (Upd.among R P M) := by
  simp only [cluApply, Only.ask, Only.seq, Only.setBitF, Only.ite, Only.setF, Only.upd]
  exact fun _ => ⟨fun _ => hr, fun _ => hr, fun _ => hs⟩

theorem ctxStart_among (u : Nat) (hr : R .SVE_CLU_CTL) (hs : P .sve) : (ctxStart u).Only (Upd.among R P M) := by
  simp only [ctxStart, Only.whenS, Only.ask, Only.seq, Only.each, ctxStop, Only.upd]
  intro _ _ _
  refine ⟨fun _ _ => hs, fun t => ?_⟩
  cases t.ctxNext u with
  | none => trivial
  | some k => exact ⟨(Only.each _ _ _).2 fun b _ => cluApply_among u b hr hs, fun _ => hs⟩

/-- Registers that a piece of a sector writes. -/
def readRegs : List RegName := [.RDC_HP_TAP, .RDC_LANE_AFE, .RDC_HP_STAT, .RDC_HP_TR, .RDC_LANE_STAT]

theorem setTapAcc_among (p i : Nat) (x : Int) (hr : R .RDC_HP_TAP) (hp : P .rdc) : (setTapAcc p i x).Only (Upd.among R P M) := ⟨hr, hp⟩

theorem loopsShow_among (p : Nat) (st : LoopSt) (hr : ∀ r ∈ readRegs, R r) (hp : P .rdc) : (loopsShow p st).Only (Upd.among R P M) := by
  simp only [loopsShow, setNp, Only.ask, Only.when, Only.cons, Only.nil, Only.each, Only.setF, Only.setI, Only.upd, and_true]
  exact fun _ _ => ⟨fun _ _ => setTapAcc_among _ _ _ (hr _ (by decide)) hp, hr .RDC_LANE_AFE (by decide), hr .RDC_LANE_AFE (by decide),
    hr .RDC_HP_STAT (by decide), hr .RDC_HP_STAT (by decide), hr .RDC_HP_TR (by decide), fun _ _ => hp, hp⟩

theorem clipCount_among (n : Nat) (xs : List (BitVec 8)) (hr : R .RDC_LANE_STAT) (hp : P .rdc) : (clipCount n xs).Only (Upd.among R P M) := by
  simp only [clipCount, Only.ask, Only.when, Only.seq, Only.setF, Only.upd]
  exact fun _ _ => ⟨hr, hp⟩

theorem readPiece_among (p : Nat) (bits : List BitObs) (hr : ∀ r ∈ readRegs, R r) (hp : P .rdc) : (readPiece p bits).Only (Upd.among R P M) := by
  have hl : R .RDC_LANE_STAT := hr _ (by decide)
  simp only [readPiece, setRun, Only.ask, Only.when, Only.cons, Only.nil, Only.upd, and_true]
  exact fun _ _ => ⟨loopsShow_among p _ hr hp, hp, clipCount_among _ _ hl hp, clipCount_among _ _ hl hp⟩
end

end Sys2Proof.Machine
end

section
/-! A wedge in normal service: the fields that show it are written by the wedge alone, whatever else the step does (R98, R190 to R192). -/
namespace Sys2Proof.Machine

/-- A field that a write of its register leaves: it is no RW and no RWK field, and shares no bit with one. -/
def Fld.unwritten (g : Fld) : Prop := g.hi < 64 ∧ ∀ f ∈ regFields g.reg, f.acc = .rw ∨ f.acc = .rwk → f.hi < 64 ∧ (f.hi < g.lo ∨ g.hi < f.lo)

theorem getBits_rwMerge {g : Fld} (hg : g.unwritten) (old : DWord) (v : Nat) : getBits (rwMerge g.reg old v) g.hi g.lo = getBits old g.hi g.lo := by
  obtain ⟨hhi, hg⟩ := hg
  unfold rwMerge
  generalize regFields g.reg = l at hg
  induction l generalizing old with
  | nil => rfl
  | cons f l ih =>
    rw [List.foldl_cons, ih _ fun e he => hg e (List.mem_cons_of_mem _ he)]
    split
    · next hacc => exact getBits_setBits_disj _ _ _ _ _ _ hhi (hg f List.mem_cons_self hacc).2
    · rfl

/-- A write of a register's RW bits leaves such fields. -/
theorem rwMerge_keeps {fs : List Fld} (hf : ∀ g ∈ fs, g.unwritten) (s : State) (r : RegName) (i v : Nat) :
    FieldsKept fs s ((Upd.reg r i (rwMerge r (s.reg r i) v)).apply s) := by
  intro g hg j
  by_cases hk : r = g.reg ∧ i = j
  · obtain ⟨rfl, rfl⟩ := hk
    rw [State.get_reg_self, getBits_rwMerge (hf g hg), State.get]
  · exact State.get_reg_ne s r g i j _ (not_and_or.1 hk)

/-- Registers that a wedge writes beside its own. -/
def sideRegs : List RegName := readRegs ++ seekRegs ++ gateRegs ++ eventRegs ++
  [.SVE_CLU_STAT, .SVE_CLU_CTL, .SVE_NOTCH_STAT, .SVE_DRIFT_STAT, .ALM_STAT, .SPN_STAT]

/-- A field that nothing at a wedge writes but what is about the field: not in a register written beside, and left by a pending write. -/
def Fld.aside (g : Fld) : Prop := g.reg ∉ sideRegs ∧ g.unwritten

theorem Fld.aside_mode : PTM_MODE_STAT.MODE.aside := by
  unfold Fld.aside Fld.unwritten
  decide

section
variable {fs : List Fld} (hf : ∀ f ∈ fs, f.aside)
include hf

theorem aside_mode_cons : ∀ f ∈ PTM_MODE_STAT.MODE :: fs, f.aside := by
  simpa only [List.forall_mem_cons] using ⟨Fld.aside_mode, hf⟩

theorem noneHolds_sideRegs : ∀ r ∈ sideRegs, noneHolds (PTM_MODE_STAT.MODE :: fs) r := fun _ hr g hg e =>
  (aside_mode_cons hf g hg).1 (e ▸ hr)

theorem rdcApply_serves (key v : Nat) : (rdcApply key v).Serves fs := by
  intro s _
  simp only [rdcApply, Prog.run_ask, Prog.run_when]
  split
  · rw [Prog.run_all_cons, Prog.run_upd]
    exact (rwMerge_keeps (fun g hg => (aside_mode_cons hf g hg).2) s _ _ v).trans
      (Prog.Only.fieldsKept (by simp [frontEnd, sampleClock, Upd.clearOf]) _)
  · exact FieldsKept.refl _ _

theorem rdcBoundary_serves (p : Nat) : (rdcBoundary p).Serves fs := by
  have hside : ∀ r ∈ sideRegs, noneHolds (PTM_MODE_STAT.MODE :: fs) r := noneHolds_sideRegs hf
  refine Serves.ask fun s => Serves.all ?_
  simp only [List.forall_mem_cons, List.not_mem_nil, false_imp_iff, implies_true, and_true]
  refine ⟨Serves.when (Serves.seq (Serves.each fun e _ => rdcApply_serves hf _ _) ?_), ?_, ?_, ?_, ?_⟩
  all_goals refine Serves.of_among ?_
  · trivial
  · simp [setNp, Upd.among]
  · simp only [Only.each, Only.seq, Only.setF]
    exact fun _ _ => ⟨hside .RDC_LANE_STAT (by decide), fun _ _ => setTapAcc_among _ _ _ (hside .RDC_HP_TAP (by decide)) trivial⟩
  · trivial
  · exact fun _ => hside .RDC_HP_STAT (by decide)

theorem trigger_serves (k : Nat) (e : Int) : (trigger k e).Serves fs := by
  have hside : ∀ r ∈ sideRegs, noneHolds (PTM_MODE_STAT.MODE :: fs) r := noneHolds_sideRegs hf
  refine Serves.ask fun s => Serves.when (Serves.all ?_)
  simp only [List.forall_mem_cons, List.not_mem_nil, false_imp_iff, implies_true, and_true]
  refine ⟨Serves.when (Serves.all ?_), Serves.of_among trivial, Serves.of_among trivial,
    Serves.of_among (ctxStart_among _ (hside _ (by decide)) trivial)⟩
  simp only [List.forall_mem_cons, List.not_mem_nil, false_imp_iff, implies_true, and_true]
  refine ⟨Serves.of_among (hside .SVE_CTX_STAT (by decide)), Serves.of_among fun _ => hside .SVE_CLU_STAT (by decide),
    raise_serves _ _ fun f hm he => (hf f hm).1 ?_⟩
  simp [sideRegs, he]

/-- Once N_PES is shown the rest of e_V's formation leaves such fields, N_PES among them. -/
theorem evForm_after {s : State} (a : Nat) (h : s.normalService = true) :
    FieldsKept (PTM_MODE_STAT.MODE :: fs) ((setF SVE_ACT_STAT.N_PES a (s.sve.wedgeGot.filter fun e => e.1 / 4 == a).length).run s) ((evForm a).run s) := by
  have hside : ∀ r ∈ sideRegs, noneHolds (PTM_MODE_STAT.MODE :: fs) r := noneHolds_sideRegs hf
  have hmode : ((setF SVE_ACT_STAT.N_PES a (s.sve.wedgeGot.filter fun e => e.1 / 4 == a).length).run s).normalService = true := by
    rw [(Prog.Only.fieldsKept (fs := [PTM_MODE_STAT.MODE]) (p := setF SVE_ACT_STAT.N_PES a _) ?_ s).normalService, h]
    simp [Upd.clearOf, Fld.clearOf, SVE_ACT_STAT.N_PES, PTM_MODE_STAT.MODE]
  simp only [evForm, Prog.run_ask]
  rw [Prog.run_all_cons]
  refine Serves.all (fs := fs) ?_ _ hmode
  simp only [List.forall_mem_cons, List.not_mem_nil, false_imp_iff, implies_true, and_true]
  refine ⟨Serves.of_among trivial, Serves.when (Serves.all ?_), Serves.when (Serves.all ?_),
    Serves.of_among (settleCheck_among a (fun r hr => hside r (by simp [sideRegs, hr])) fun _ _ => trivial)⟩
  · simp only [List.forall_mem_cons, List.not_mem_nil, false_imp_iff, implies_true, and_true]
    exact ⟨Serves.of_among (hside .SVE_CTX_MAN (by decide)), Serves.of_among trivial,
      Serves.ask fun t => Serves.seq (Serves.of_among trivial) (trigger_serves hf _ _)⟩
  · simp only [List.forall_mem_cons, List.not_mem_nil, false_imp_iff, implies_true, and_true]
    exact ⟨Serves.of_among trivial, trigger_serves hf _ _,
      Serves.each fun _ _ => Serves.of_among (notchWedge_among a _ _ _ (hside _ (by decide)) trivial)⟩

theorem evForm_serves (hn : ∀ f ∈ fs, f.reg ≠ .SVE_ACT_STAT) (a : Nat) : (evForm a).Serves fs := fun s h =>
  FieldsKept.trans (Prog.Only.fieldsKept (p := setF SVE_ACT_STAT.N_PES a _) (fun g hg => by
    rcases List.mem_cons.1 hg with rfl | hg
    · exact .inl (by decide)
    · exact .inl (hn g hg).symm) s) (evForm_after hf a h)

theorem wedgeMiss_serves (hn : ∀ f ∈ fs, f.reg ≠ .SVE_WEDGE_STAT) (p : Nat) : (wedgeMiss p).Serves fs := by
  have hside : ∀ r ∈ sideRegs, noneHolds (PTM_MODE_STAT.MODE :: fs) r := noneHolds_sideRegs hf
  have hstat : noneHolds (PTM_MODE_STAT.MODE :: fs) .SVE_WEDGE_STAT := by
    simpa only [noneHolds, List.forall_mem_cons] using ⟨by decide, fun g hg => (hn g hg).symm⟩
  refine Serves.of_among ?_
  simp only [wedgeMiss, Only.ask, Only.cons, Only.nil, Only.setF, Only.incF, Only.when, Only.upd, and_true]
  exact fun _ => ⟨hstat, fun _ => hstat, fun _ => hstat, trivial,
    fun _ => setOfftrack_among p true (fun r hr => hside r (by simp [sideRegs, hr])) (fun _ _ => trivial) trivial,
    settleCount_among p false (hside _ (by decide)) trivial, trivial⟩
end

end Sys2Proof.Machine
end

section
/-! One wedge of a head path (R184, R190 to R192). -/
namespace Sys2Proof.Machine

/-- What comes before the wedge is judged: the split sector, the reference, the boundary at the end of the servo gate. -/
def wedgeOpen (s : State) (p : Nat) (bits : List BitObs) : List Prog :=
  [when (s.rdc.sector.contains p) (readPiece p bits), when (!(s.sve.wedgeDone.any fun q => q / 4 == p / 4)) (seekAdvance (p / 4)), rdcBoundary p]

/-- The wedge judged: of a wedge in order the PES, else a miss. -/
def wedgeJudge (p : Nat) (x : WedgeObs) : Prog := .ask fun t => if t.wedgeOk p x then wedgeGood p x else wedgeMiss p

/-- e_V is formed once every path of the actuator that demodulates is through. -/
def wedgeClose (a : Nat) : Prog := .ask fun t => when ((t.demodPaths a).all fun q => t.sve.wedgeDone.contains q) (evForm a)

section
variable {s : State} {p : Nat} {o o' : Option WedgeObs} (bits : List BitObs) (hd : s.demodulates p = true) (hn : p ∉ s.sve.wedgeDone)
include hd hn

theorem wedgeProg_takes : (!s.demodulates p || s.sve.wedgeDone.contains p) = false := by
  simp [hd, hn]

/-- A path that finds no mark misses the wedge. -/
theorem wedgeProg_miss (hl : s.get SVE_SEEK_STAT.STATE (p / 4) ≠ skLoading) (ho : (if s.servoLane p = 2 * p then o else o') = none) :
    (wedgeProg p o o' bits).run s = (wedgeClose (p / 4)).run ((wedgeMiss p).run ((all (wedgeOpen s p bits)).run s)) := by
  simp only [wedgeProg, Prog.run_ask, wedgeProg_takes hd hn, Bool.false_eq_true, if_false, if_neg hl, ho]
  rfl

/-- A path that finds a mark has the wedge judged. -/
theorem wedgeProg_found {x : WedgeObs} (hl : s.get SVE_SEEK_STAT.STATE (p / 4) ≠ skLoading) (ho : (if s.servoLane p = 2 * p then o else o') = some x) :
    (wedgeProg p o o' bits).run s =
      (wedgeClose (p / 4)).run ((wedgeJudge p x).run ((all (wedgeOpen s p bits ++ [indexFix x.wedge.val])).run s)) := by
  simp only [wedgeProg, Prog.run_ask, wedgeProg_takes hd hn, Bool.false_eq_true, if_false, if_neg hl, ho]
  rfl

/-- While the arm loads, a wedge is one of the search for servo. -/
theorem wedgeProg_loading (hl : s.get SVE_SEEK_STAT.STATE (p / 4) = skLoading) :
    (wedgeProg p o o' bits).run s = (loadWedge p (if s.servoLane p = 2 * p then o else o')).run s := by
  simp only [wedgeProg, Prog.run_ask, wedgeProg_takes hd hn, Bool.false_eq_true, if_false, if_pos hl]
end

/-- Fields that show a path's wedge. -/
def wedgeFields : List Fld := [SVE_WEDGE_STAT.VALID, SVE_WEDGE_STAT.MISS_CNT, SVE_WEDGE_STAT.MISS_TOT, SVE_WEDGE_STAT.WEDGE, SVE_PES.PES]

theorem wedgeFields_aside : ∀ f ∈ wedgeFields, f.aside := by
  unfold Fld.aside Fld.unwritten
  decide

theorem wedgeOpen_serves {fs : List Fld} (hf : ∀ f ∈ fs, f.aside) (s : State) (p : Nat) (bits : List BitObs) : ∀ q ∈ wedgeOpen s p bits, q.Serves fs := by
  have hside : ∀ r ∈ sideRegs, noneHolds (PTM_MODE_STAT.MODE :: fs) r := noneHolds_sideRegs hf
  simp only [wedgeOpen, List.forall_mem_cons, List.not_mem_nil, false_imp_iff, implies_true, and_true]
  exact ⟨Serves.when (Serves.of_among (readPiece_among p bits (fun r hr => hside r (by simp [sideRegs, hr])) trivial)),
    Serves.when (Serves.of_among (seekAdvance_among _ (fun r hr => hside r (by simp [sideRegs, hr])) fun _ _ => trivial)), rdcBoundary_serves hf p⟩

theorem indexFix_serves {fs : List Fld} (hf : ∀ f ∈ fs, f.aside) (w : Nat) : (indexFix w).Serves fs :=
  Serves.of_among (indexFix_among w (noneHolds_sideRegs hf _ (by decide)) trivial)

theorem wedgeClose_serves (a : Nat) : (wedgeClose a).Serves wedgeFields :=
  Serves.ask fun _ => Serves.when (evForm_serves wedgeFields_aside (by decide) a)

/-! The wedge itself. -/

/-- A count goes up by one, up to its field's maximum. -/
theorem incF_get_self (f : Fld) (i : Nat) (s : State) (h : f.hi < 64) : ((incF f i).run s).get f i = satAdd (s.get f i) 1 (2 ^ f.width - 1) := by
  have hpos : 0 < 2 ^ f.width := Nat.two_pow_pos _
  rw [Prog.run_incF, State.get_fld_self _ _ _ _ h]
  exact Nat.mod_eq_of_lt (by simp only [satAdd, Fld.width] at *; omega)

/-- A missed wedge shows in its register. -/
def missShown (p : Nat) : Prog := all [setF SVE_WEDGE_STAT.VALID p 0, incF SVE_WEDGE_STAT.MISS_CNT p, incF SVE_WEDGE_STAT.MISS_TOT p]

/-- What else a missed wedge does. -/
def missFollows (p : Nat) (active : Bool) : Prog := all [predictNext p none, when active (setOfftrack p true), settleCount p false,
  .upd (.sve fun x => { x with wedgeDone := p :: x.wedgeDone })]

theorem wedgeMiss_run (p : Nat) (s : State) : (wedgeMiss p).run s = (missFollows p (s.sve.active.contains p)).run ((missShown p).run s) := rfl

theorem missShown_among {R : RegName → Prop} {P : Part → Prop} {M : Prop} (p : Nat) (hr : R .SVE_WEDGE_STAT) : (missShown p).Only (Upd.among R P M) := by
  simp only [missShown, Only.cons, Only.nil, Only.setF, Only.incF, and_true]
  exact ⟨hr, fun _ => hr, fun _ => hr⟩

theorem missFollows_among {R : RegName → Prop} {P : Part → Prop} (p : Nat) (active : Bool) (hr : ∀ r ∈ .SVE_SEEK_STAT :: gateRegs, R r)
    (hp : ∀ q ∈ .sve :: .wrc :: storeComps, P q) : (missFollows p active).Only (Upd.among R P True) := by
  have hs : P .sve := hp _ (by decide)
  simp only [missFollows, Only.cons, Only.nil, Only.when, Only.upd, and_true]
  exact ⟨hs, fun _ => setOfftrack_among p true (fun r h => hr r (List.mem_cons_of_mem _ h)) (fun q h => hp q (by simp [h])) (hp _ (by decide)),
    settleCount_among p false (hr _ (by decide)) hs, hs⟩

theorem missShown_shows (p : Nat) (s : State) :
    ((missShown p).run s).get SVE_WEDGE_STAT.VALID p = 0 ∧
    ((missShown p).run s).get SVE_WEDGE_STAT.MISS_CNT p = satAdd (s.get SVE_WEDGE_STAT.MISS_CNT p) 1 (2 ^ SVE_WEDGE_STAT.MISS_CNT.width - 1) ∧
    ((missShown p).run s).get SVE_WEDGE_STAT.MISS_TOT p = satAdd (s.get SVE_WEDGE_STAT.MISS_TOT p) 1 (2 ^ SVE_WEDGE_STAT.MISS_TOT.width - 1) := by
  have hclear : ∀ (f g : Fld) (t : State), f.clearOf g → ((incF f p).run t).get g p = t.get g p := fun f g t h =>
    State.get_fld_ne t f g p p _ (h.imp_right .inr)
  simp only [missShown, Prog.run_all_cons, Prog.run_all_nil]
  refine ⟨?_, ?_, ?_⟩
  · rw [hclear _ _ _ (.inr (by decide)), hclear _ _ _ (.inr (by decide)), Prog.run_setF, State.get_fld_self _ _ _ _ (by decide), Nat.zero_mod]
  · rw [hclear _ _ _ (.inr (by decide)), incF_get_self _ _ _ (by decide), Prog.run_setF, State.get_fld_bits _ _ _ _ _ _ (by decide)]
  · rw [incF_get_self _ _ _ (by decide), hclear _ _ _ (.inr (by decide)), Prog.run_setF, State.get_fld_bits _ _ _ _ _ _ (by decide)]

/-- A missed wedge shows itself: VALID clears, and both counts go up. -/
theorem wedgeMiss_shows (p : Nat) (s : State) :
    ((wedgeMiss p).run s).get SVE_WEDGE_STAT.VALID p = 0 ∧
    ((wedgeMiss p).run s).get SVE_WEDGE_STAT.MISS_CNT p = satAdd (s.get SVE_WEDGE_STAT.MISS_CNT p) 1 (2 ^ SVE_WEDGE_STAT.MISS_CNT.width - 1) ∧
    ((wedgeMiss p).run s).get SVE_WEDGE_STAT.MISS_TOT p = satAdd (s.get SVE_WEDGE_STAT.MISS_TOT p) 1 (2 ^ SVE_WEDGE_STAT.MISS_TOT.width - 1) ∧
    ((wedgeMiss p).run s).get SVE_PES.PES p = s.get SVE_PES.PES p := by
  have hkeep : FieldsKept wedgeFields _ ((wedgeMiss p).run s) :=
    (missFollows_among (P := fun _ => True) p (s.sve.active.contains p) (by decide) fun _ _ => trivial).clearOf.fieldsKept ((missShown p).run s)
  simp only [FieldsKept, wedgeFields, List.forall_mem_cons] at hkeep
  obtain ⟨hvalid, hcnt, htot, -, hpes, -⟩ := hkeep
  rw [hvalid, hcnt, htot, hpes]
  obtain ⟨svalid, scnt, stot⟩ := missShown_shows p s
  exact ⟨svalid, scnt, stot, (missShown_among (P := fun _ => True) (M := True) p (by decide)).get s p⟩

/-- A wedge in order shows in its register: its number, no miss, VALID but in MOVE. -/
def goodShown (p w v : Nat) : Prog := all [setF SVE_WEDGE_STAT.MISS_CNT p 0, setF SVE_WEDGE_STAT.WEDGE p w, predictNext p (some w), setF SVE_WEDGE_STAT.VALID p v]

/-- The error of a wedge in order (R190). -/
def State.wedgeError (s : State) (p : Nat) (o : WedgeObs) : Int :=
  wedgePes (wedgePosition o (s.on SVE_SV_CFG.RRO_EN 0)) (s.physTarget p) (s.tgt p).tp

/-- What else a wedge in order does outside MOVE, judged in state `s`. -/
def goodFollows (s : State) (p : Nat) (o : WedgeObs) : List Prog := [
  setI SVE_PES.PES p (s.wedgeError p o), judgeOfftrack p (s.wedgeError p o), settleCount p (s.settleOk p (s.wedgeError p o)),
  .upd (.sve fun x => { x with wedgeGot := x.wedgeGot ++ [(p, s.wedgeError p o, s.maTerm p)], wedgeDone := p :: x.wedgeDone }),
  trigger p (s.wedgeError p o), driftWedge p (o.wedge.val == 0)]

theorem wedgeGood_run {p : Nat} {o : WedgeObs} {s : State} (h : s.seekSub (p / 4) ≠ skMove) :
    (wedgeGood p o).run s = (all (goodFollows s p o)).run ((goodShown p o.wedge.val 1).run s) := by
  simp only [wedgeGood, Prog.run_ask, beq_eq_false_iff_ne.2 h, Bool.false_eq_true, if_false]
  rfl

/-- A wedge in order in MOVE gives its track position (R204). -/
def trackNoted (p : Nat) (y : Int) (x : SveState) : SveState := { x with wedgeTrk := x.wedgeTrk ++ [(p, y)], wedgeDone := p :: x.wedgeDone }

theorem wedgeGood_run_move {p : Nat} {o : WedgeObs} {s : State} (h : s.seekSub (p / 4) = skMove) : ∃ y,
    (wedgeGood p o).run s = (Upd.sve (trackNoted p y)).apply ((goodShown p o.wedge.val 0).run s) := by
  simp only [wedgeGood, Prog.run_ask, beq_iff_eq.2 h, if_true]
  exact ⟨(o.gray.val - (s.tgt p).target - (s.tgt p).trkOfs) * 65536 + (s.seek (p / 4)).yT, rfl⟩

theorem goodShown_shows (p : Nat) {w v : Nat} (hw : w < 1024) (hv : v < 2) (s : State) :
    ((goodShown p w v).run s).get SVE_WEDGE_STAT.MISS_CNT p = 0 ∧ ((goodShown p w v).run s).get SVE_WEDGE_STAT.WEDGE p = w ∧
    ((goodShown p w v).run s).get SVE_WEDGE_STAT.VALID p = v ∧ ((goodShown p w v).run s).get SVE_WEDGE_STAT.MISS_TOT p = s.get SVE_WEDGE_STAT.MISS_TOT p := by
  have hclear : ∀ (f g : Fld) (x : Nat) (t : State), f.clearOf g → ((setF f p x).run t).get g p = t.get g p := fun f g _ t h =>
    State.get_fld_ne t f g p p _ (h.imp_right .inr)
  have hpred : ∀ (g : Fld) (t : State), ((predictNext p (some w)).run t).get g p = t.get g p := fun _ _ => rfl
  have hself : ∀ (f : Fld) (x : Nat) (t : State), f.hi < 64 → ((setF f p x).run t).get f p = x % 2 ^ (f.hi + 1 - f.lo) := fun f x t h =>
    State.get_fld_self t f p x h
  simp only [goodShown, Prog.run_all_cons, Prog.run_all_nil]
  refine ⟨?_, ?_, ?_, ?_⟩
  · rw [hclear _ _ _ _ (.inr (by decide)), hpred, hclear _ _ _ _ (.inr (by decide)), hself _ _ _ (by decide), Nat.zero_mod]
  · rw [hclear _ _ _ _ (.inr (by decide)), hpred, hself _ _ _ (by decide)]
    exact Nat.mod_eq_of_lt hw
  · rw [hself _ _ _ (by decide)]
    exact Nat.mod_eq_of_lt hv
  · rw [hclear _ _ _ _ (.inr (by decide)), hpred, hclear _ _ _ _ (.inr (by decide)), hclear _ _ _ _ (.inr (by decide))]

/-- Fields of SVE_WEDGE_STAT that show a path's wedge. -/
def statFields : List Fld := [SVE_WEDGE_STAT.VALID, SVE_WEDGE_STAT.MISS_CNT, SVE_WEDGE_STAT.MISS_TOT, SVE_WEDGE_STAT.WEDGE]

theorem goodFollows_serves (s : State) (p : Nat) (o : WedgeObs) : (all (goodFollows s p o)).Serves statFields := by
  have hf : ∀ f ∈ statFields, f.aside := fun f h => wedgeFields_aside f (by revert f; decide)
  have hside : ∀ r ∈ sideRegs, noneHolds (PTM_MODE_STAT.MODE :: statFields) r := noneHolds_sideRegs hf
  refine Serves.all ?_
  simp only [goodFollows, List.forall_mem_cons, List.not_mem_nil, false_imp_iff, implies_true, and_true]
  exact ⟨Serves.of_among (by decide : noneHolds (PTM_MODE_STAT.MODE :: statFields) .SVE_PES),
    Serves.of_among (judgeOfftrack_among p _ (fun r h => hside r (by simp [sideRegs, h])) (fun _ _ => trivial) trivial),
    Serves.of_among (settleCount_among p _ (hside _ (by decide)) trivial), Serves.of_among trivial, trigger_serves hf _ _,
    Serves.of_among (driftWedge_among p _ (by decide) fun _ _ => trivial)⟩

/-- In normal service a wedge in order shows itself. -/
theorem wedgeGood_shows {p : Nat} (o : WedgeObs) {s : State} (hs : s.normalService = true) :
    ((wedgeGood p o).run s).get SVE_WEDGE_STAT.MISS_CNT p = 0 ∧ ((wedgeGood p o).run s).get SVE_WEDGE_STAT.WEDGE p = o.wedge.val ∧
    (((wedgeGood p o).run s).get SVE_WEDGE_STAT.VALID p = if s.seekSub (p / 4) = skMove then 0 else 1) ∧
    ((wedgeGood p o).run s).get SVE_WEDGE_STAT.MISS_TOT p = s.get SVE_WEDGE_STAT.MISS_TOT p ∧ ((wedgeGood p o).run s).normalService = true := by
  have hmode : ∀ v, ((goodShown p o.wedge.val v).run s).normalService = true := fun v => by
    rw [FieldsKept.normalService (fs := []) (Prog.Only.fieldsKept (Prog.Only.clearOf ?_) s), hs]
    simp only [goodShown, Only.cons, Only.nil, Only.setF, and_true]
    have hstat : noneHolds [PTM_MODE_STAT.MODE] .SVE_WEDGE_STAT := by decide
    exact ⟨hstat, hstat, trivial, hstat⟩
  by_cases h : s.seekSub (p / 4) = skMove
  · obtain ⟨y, hrun⟩ := wedgeGood_run_move (o := o) h
    simp only [hrun, h, if_true, Upd.apply_get _ _ (Upd.onRegs_sve _)]
    obtain ⟨hcnt, hwedge, hvalid, htot⟩ := goodShown_shows p o.wedge.isLt (by decide : 0 < 2) s
    refine ⟨hcnt, hwedge, hvalid, htot, ?_⟩
    simpa only [State.normalService, State.mode, Upd.apply_get _ _ (Upd.onRegs_sve _)] using hmode 0
  · have hkeep := goodFollows_serves s p o _ (hmode 1)
    have hserve := hkeep.normalService.trans (hmode 1)
    simp only [FieldsKept, statFields, List.forall_mem_cons] at hkeep
    obtain ⟨-, hvalid, hcnt, htot, hwedge, -⟩ := hkeep
    rw [wedgeGood_run h, hvalid, hcnt, htot, hwedge, if_neg h]
    obtain ⟨gcnt, gwedge, gvalid, gtot⟩ := goodShown_shows p o.wedge.isLt (by decide : 1 < 2) s
    exact ⟨gcnt, gwedge, gvalid, gtot, hserve⟩

/-! The command in normal service. -/

section
variable {s : State} {p : Nat} {o o' : Option WedgeObs} (bits : List BitObs) (hd : s.demodulates p = true) (hn : p ∉ s.sve.wedgeDone)
  (hl : s.get SVE_SEEK_STAT.STATE (p / 4) ≠ skLoading) (hs : s.normalService = true)
include hd hn hl hs

/-- A missed wedge in normal service. -/
theorem wedgeProg_miss_shows (ho : (if s.servoLane p = 2 * p then o else o') = none) :
    ((wedgeProg p o o' bits).run s).get SVE_WEDGE_STAT.MISS_CNT p = satAdd (s.get SVE_WEDGE_STAT.MISS_CNT p) 1 (2 ^ SVE_WEDGE_STAT.MISS_CNT.width - 1) ∧
    ((wedgeProg p o o' bits).run s).get SVE_WEDGE_STAT.MISS_TOT p = satAdd (s.get SVE_WEDGE_STAT.MISS_TOT p) 1 (2 ^ SVE_WEDGE_STAT.MISS_TOT.width - 1) ∧
    ((wedgeProg p o o' bits).run s).get SVE_WEDGE_STAT.VALID p = 0 ∧ ((wedgeProg p o o' bits).run s).get SVE_PES.PES p = s.get SVE_PES.PES p := by
  have hopen := Serves.all (wedgeOpen_serves wedgeFields_aside s p bits) s hs
  have hmiss := wedgeMiss_serves (fs := []) (by simp) (by simp) p _ (hopen.normalService.trans hs)
  have hclose := wedgeClose_serves (p / 4) _ (hmiss.normalService.trans (hopen.normalService.trans hs))
  simp only [FieldsKept, wedgeFields, List.forall_mem_cons] at hopen hclose
  obtain ⟨-, -, ocnt, otot, -, opes, -⟩ := hopen
  obtain ⟨-, cvalid, ccnt, ctot, -, cpes, -⟩ := hclose
  obtain ⟨mvalid, mcnt, mtot, mpes⟩ := wedgeMiss_shows p ((all (wedgeOpen s p bits)).run s)
  rw [wedgeProg_miss bits hd hn hl ho, cvalid, ccnt, ctot, cpes, mvalid, mcnt, mtot, mpes, ocnt, otot, opes]
  exact ⟨rfl, rfl, rfl, rfl⟩

/-- A wedge in order in normal service. -/
theorem wedgeProg_good_shows {x : WedgeObs} (ho : (if s.servoLane p = 2 * p then o else o') = some x)
    (hok : ((all (wedgeOpen s p bits ++ [indexFix x.wedge.val])).run s).wedgeOk p x = true) :
    ((wedgeProg p o o' bits).run s).get SVE_WEDGE_STAT.MISS_CNT p = 0 ∧ ((wedgeProg p o o' bits).run s).get SVE_WEDGE_STAT.WEDGE p = x.wedge.val ∧
    (((wedgeProg p o o' bits).run s).get SVE_WEDGE_STAT.VALID p =
      if ((all (wedgeOpen s p bits ++ [indexFix x.wedge.val])).run s).seekSub (p / 4) = skMove then 0 else 1) ∧
    ((wedgeProg p o o' bits).run s).get SVE_WEDGE_STAT.MISS_TOT p = s.get SVE_WEDGE_STAT.MISS_TOT p := by
  have hopen : FieldsKept (PTM_MODE_STAT.MODE :: wedgeFields) s ((all (wedgeOpen s p bits ++ [indexFix x.wedge.val])).run s) :=
    Serves.all (List.forall_mem_append.2 ⟨wedgeOpen_serves wedgeFields_aside s p bits, by simpa using indexFix_serves wedgeFields_aside _⟩) s hs
  obtain ⟨gcnt, gwedge, gvalid, gtot, gmode⟩ := wedgeGood_shows (p := p) x (hopen.normalService.trans hs)
  have hclose := wedgeClose_serves (p / 4) _ gmode
  simp only [FieldsKept, wedgeFields, List.forall_mem_cons] at hopen hclose
  obtain ⟨-, -, -, otot, -⟩ := hopen
  obtain ⟨-, cvalid, ccnt, ctot, cwedge, -⟩ := hclose
  rw [wedgeProg_found bits hd hn hl ho, wedgeJudge, Prog.run_ask, if_pos hok, ccnt, cwedge, cvalid, ctot, gcnt, gwedge, gvalid, gtot, otot]
  exact ⟨rfl, rfl, rfl, rfl⟩
end

/-- While the arm loads, a wedge without a mark starts the search anew, and the arm goes on loading. -/
theorem loadWedge_none {s : State} (p : Nat) (hl : s.get SVE_SEEK_STAT.STATE (p / 4) = skLoading) :
    (((loadWedge p none).run s).seek (p / 4)).detect = 0 ∧ ((loadWedge p none).run s).get SVE_SEEK_STAT.STATE (p / 4) = skLoading := by
  have hcount : (countWedge (p / 4)).Only (Upd.clearOf [SVE_SEEK_STAT.STATE]) := by
    simp only [countWedge, setSeek, Only.ask, Only.when, Only.ite, Only.incF, Only.upd, Upd.clearOf, List.forall_mem_singleton]
    exact fun _ _ => ⟨fun _ => trivial, fun _ _ => .inr (by decide)⟩
  simp only [loadWedge, setSeek, Prog.run_seq, Prog.run_ask, Prog.run_upd, Upd.apply_get _ _ (Upd.onRegs_sve _),
    hcount.fieldsKept s SVE_SEEK_STAT.STATE (List.mem_singleton.2 rfl), hl, and_true]
  simp only [State.seek, Upd.apply_sve, Sparse.get_put_self]

end Sys2Proof.Machine
end

section
/-! A path off track, and its removal from the active set (R49, R192). -/
namespace Sys2Proof.Machine

/-- A path set off track is off track. -/
theorem setOfftrack_mem (p : Nat) (s : State) : p ∈ ((setOfftrack p true).run s).wrc.offtrack := by
  simp only [setOfftrack, rowsDisturbed, Prog.run_ask, if_true, Prog.run_all_cons, Prog.run_all_nil, Prog.run_upd, Upd.apply_wrc, closeGates_offtrack]
  split_ifs with h
  · exact List.elem_iff.1 h
  · exact List.mem_cons_self

/-- Other paths off track stay so. -/
theorem setOfftrack_keeps {p q : Nat} {s : State} (h : q ∈ s.wrc.offtrack) : q ∈ ((setOfftrack p true).run s).wrc.offtrack := by
  simp only [setOfftrack, rowsDisturbed, Prog.run_ask, if_true, Prog.run_all_cons, Prog.run_all_nil, Prog.run_upd, Upd.apply_wrc, closeGates_offtrack]
  split_ifs
  · exact h
  · exact List.mem_cons_of_mem _ h

/-- A path set off track has its writers' gates closed (R166). -/
theorem setOfftrack_closes {p w : Nat} {s : State} (hw : w ∈ s.writersOfPath p) : ((setOfftrack p true).run s).get WRC_WR_STAT.GATE w = 0 := by
  simp only [setOfftrack, rowsDisturbed, Prog.run_ask, if_true, Prog.run_all_cons, Prog.run_all_nil, Prog.run_upd]
  rw [Upd.apply_get _ _ (Upd.onRegs_wrc _)]
  exact closeGates_closed _ _ _ hw _

theorem ctxStop_trig (k : Nat) (s : State) : (((ctxStop k).run s).ctx k).trig = none := by
  simp only [State.ctx, ctxStop, Prog.run_upd, Upd.apply_sve, Sparse.get_put_self]

theorem maSent_active (p : Nat) (u : Int) (s : State) : ((maSent p u).run s).sve.active = s.sve.active := by
  have hcmd : (maCmd (p / 4) ((s.tgt p).head % 6) u).Only (Upd.sparesPart .sve) := by
    simp +decide [maCmd, palCmd, palFrame, send, Upd.among]
  simp only [maSent, Prog.run_ask, Prog.run_seq, Prog.run_upd, Upd.apply_sve, hcmd.sve]

theorem maSent_ctx (p : Nat) (u : Int) (s : State) (k : Nat) : ((maSent p u).run s).ctx k = s.ctx k := by
  have hcmd : (maCmd (p / 4) ((s.tgt p).head % 6) u).Only (Upd.sparesPart .sve) := by
    simp +decide [maCmd, palCmd, palFrame, send, Upd.among]
  simp only [State.ctx, maSent, Prog.run_ask, Prog.run_seq, Prog.run_upd, Upd.apply_sve, hcmd.sve]

/-- An active path that leaves the active set is out of it, and its context stops (R187). -/
theorem leaveActive_leaves {p : Nat} {s : State} (h : p ∈ s.sve.active) :
    p ∉ ((leaveActive p).run s).sve.active ∧ (((leaveActive p).run s).ctx p).trig = none := by
  simp only [leaveActive, Prog.run_ask, Prog.run_when, List.contains_eq_mem, h, decide_true, if_true, Prog.run_all_cons, Prog.run_all_nil, maSent_active,
    maSent_ctx, ctxStop_trig, and_true]
  simp [ctxStop]

theorem eraseReads_among {R : RegName → Prop} {P : Part → Prop} {M : Prop} (p c : Nat) (ho : P .out) (hr : P .rdc) : (eraseReads p c).Only (Upd.among R P M) :=
  ⟨ho, hr⟩

/-- Registers and components that a removal writes. -/
def removeRegs : List RegName := [.BMU_EVB_STAT, .BMU_STAT, .PCX_PROT_STAT, .WRC_RWL_CTL, .WRC_RWL_PTR, .WRC_WR_STAT, .WRC_WUS_STAT]
def removeComps : List Part := [.bmu, .fcu, .out, .rdc, .sve, .wrc]

theorem removePath_changes (p : Nat) (s : State) : ChangesOnly removeRegs removeComps true s ((removePath p).run s) := by
  refine Prog.Only.changesOnly ?_ s
  simp only [removePath, Only.cons, Only.nil, and_true]
  exact ⟨leaveActive_among p (by decide), by simpa using setOfftrack_among p true (by decide) (by decide) (by decide),
    eraseReads_among p _ (by decide) (by decide)⟩

/-- An active path that is removed is out of the active set, off track, its context stopped and its gates closed (R49). -/
theorem removePath_removes {p : Nat} {s : State} (h : p ∈ s.sve.active) :
    p ∉ ((removePath p).run s).sve.active ∧ p ∈ ((removePath p).run s).wrc.offtrack ∧ (((removePath p).run s).ctx p).trig = none ∧
    ∀ w ∈ s.writersOfPath p, ((removePath p).run s).get WRC_WR_STAT.GATE w = 0 := by
  have hleave : ((leaveActive p).run s).wrc = s.wrc := (leaveActive_among (R := fun _ => True) (M := True) p (by decide)).wrc s
  have hoff : ∀ t, ((setOfftrack p true).run t).sve = t.sve := (setOfftrack_among (R := fun _ => True) p true (by simp) (by decide) (by decide)).sve
  have hsve : ∀ t, ((eraseReads p fcRemoved).run t).sve = t.sve := fun _ => rfl
  have hwrc : ∀ t, ((eraseReads p fcRemoved).run t).wrc = t.wrc := fun _ => rfl
  have hget : ∀ t w, ((eraseReads p fcRemoved).run t).get WRC_WR_STAT.GATE w = t.get WRC_WR_STAT.GATE w := fun _ _ => rfl
  obtain ⟨hactive, htrig⟩ := leaveActive_leaves h
  simp only [removePath, Prog.run_all_cons, Prog.run_all_nil, State.ctx, hsve, hwrc, hget, hoff] at htrig ⊢
  refine ⟨hactive, setOfftrack_mem p _, htrig, fun w hw => setOfftrack_closes ?_⟩
  simpa only [State.writersOfPath, State.writer, hleave] using hw

end Sys2Proof.Machine
end

section
/-! Loss of servo (R192). -/
namespace Sys2Proof.Machine

/-- Longer lists leave less unchanged. -/
theorem ChangesOnly.mono {rs rs' : List RegName} {ps ps' : List Part} {m m' : Bool} {s t : State} (h : ChangesOnly rs ps m s t) (hr : rs ⊆ rs') (hp : ps ⊆ ps')
    (hm : m = true → m' = true) : ChangesOnly rs' ps' m' s t :=
  ⟨fun r i hi => h.1 r i fun c => hi (hr c), fun q hq => h.2.1 q fun c => hq (hp c),
    fun hf => h.2.2.1 (Bool.eq_false_iff.2 fun ht => Bool.false_ne_true (hf.symm.trans (hm ht))), h.2.2.2⟩

/-- What a loss of servo does once it is shown and reported. -/
def lossFollows (a : Nat) : Prog := all [almEvent bSVE kFault "servo loss" [a], each (pathsOf a) fun p => setOfftrack p true, stopLoops a, requestRetract [a],
  .upd (.sve fun x => { x with actMiss := Sparse.put 0 x.actMiss a 0
                               pass := x.pass.map fun e => if e.1 == a then (e.1, { e.2 with ending := true }) else e })]

theorem servoLossProg_run {a : Nat} {s : State} (hl : s.loaded a = true) (hm : clampN 2 15 (s.get SVE_ACT_CFG.ACT_MISS a) ≤ Sparse.get 0 s.sve.actMiss a) :
    (servoLossProg a).run s = (lossFollows a).run ((raise (216 + a) (detail a)).run ((setF SVE_ACT_STAT.SV_LOSS a 1).run s)) := by
  rw [servoLossProg, Prog.run_whenS, hl, decide_eq_true hm]
  rfl

/-- Registers and components that follow a loss of servo. -/
def lossRegs : List RegName := [.ALM_STAT, .SVE_CTX_CFG] ++ gateRegs
def lossComps : List Part := [.alm, .sve, .wrc] ++ storeComps

theorem stopLoops_among {R : RegName → Prop} {P : Part → Prop} {M : Prop} (a : Nat) (hr : R .SVE_CTX_CFG) (hs : P .sve) :
    (stopLoops a).Only (Upd.among R P M) := by
  simp only [stopLoops, Only.each, Only.seq, Only.setF, ctxStop, Only.upd]
  exact fun _ _ => ⟨hr, hs⟩

theorem lossFollows_changes (a : Nat) (s : State) : ChangesOnly lossRegs lossComps true s ((lossFollows a).run s) := by
  have hs : Part.sve ∈ lossComps := by decide
  refine Prog.Only.changesOnly ?_ s
  simp only [lossFollows, almEvent, requestRetract, cwSend, send, Only.cons, Only.nil, Only.each, Only.seq, Only.emit, Only.upd, and_true]
  exact ⟨almEnter_among _ _ _ _ _ (by decide) (by decide), fun p _ => by simpa using setOfftrack_among p true (by decide) (by decide) (by decide),
    stopLoops_among a (by decide) hs, ⟨(by decide : Part.out ∈ lossComps), hs⟩, hs⟩

theorem each_setOfftrack_keeps {q : Nat} (l : List Nat) {s : State} (h : q ∈ s.wrc.offtrack) :
    q ∈ ((each l fun p => setOfftrack p true).run s).wrc.offtrack := by
  induction l generalizing s with
  | nil => exact h
  | cons p l ih => exact ih (setOfftrack_keeps h)

theorem each_setOfftrack_mem {q : Nat} (l : List Nat) (s : State) (h : q ∈ l) : q ∈ ((each l fun p => setOfftrack p true).run s).wrc.offtrack := by
  induction l generalizing s with
  | nil => cases h
  | cons p l ih =>
    rw [Prog.run_each_cons]
    rcases List.mem_cons.1 h with rfl | h
    · exact each_setOfftrack_keeps l (setOfftrack_mem q s)
    · exact ih _ h

theorem stopLoops_disables (a : Nat) (s : State) :
    ((stopLoops a).run s).get SVE_CTX_CFG.ENABLE (16 + a) = 0 ∧ ((stopLoops a).run s).get SVE_CTX_CFG.ENABLE (20 + a) = 0 := by
  simp only [stopLoops, ctxStop, Prog.run_each_cons, Prog.run_each_nil, Prog.run_seq, Prog.run_setF, Prog.run_upd, Upd.apply_get _ _ (Upd.onRegs_sve _)]
  refine ⟨?_, ?_⟩
  · rw [State.get_fld_ne _ _ _ _ _ _ (.inr (.inl (by omega))), Upd.apply_get _ _ (Upd.onRegs_sve _), State.get_fld_self _ _ _ _ (by decide), Nat.zero_mod]
  · rw [State.get_fld_self _ _ _ _ (by decide), Nat.zero_mod]

/-- The loops stop, the retract is requested, every path of the actuator is off track and its pass ends. -/
theorem lossFollows_stops (a : Nat) (s : State) :
    ((lossFollows a).run s).get SVE_CTX_CFG.ENABLE (16 + a) = 0 ∧ ((lossFollows a).run s).get SVE_CTX_CFG.ENABLE (20 + a) = 0 ∧
    a ∈ ((lossFollows a).run s).sve.retract ∧ (∀ p ∈ pathsOf a, p ∈ ((lossFollows a).run s).wrc.offtrack) ∧
    ∀ e ∈ ((lossFollows a).run s).sve.pass, e.1 = a → e.2.ending = true := by
  have hstop : ∀ t, ((stopLoops a).run t).wrc = t.wrc :=
    (stopLoops_among (R := fun _ => True) (P := (· ≠ .wrc)) (M := True) a trivial (by decide)).wrc
  obtain ⟨hpos, hcur⟩ := stopLoops_disables a ((each (pathsOf a) fun p => setOfftrack p true).run ((almEvent bSVE kFault "servo loss" [a]).run s))
  simp only [lossFollows, requestRetract, cwSend, Prog.run_all_cons, Prog.run_all_nil, Prog.run_seq, Prog.run_send, Prog.run_upd,
    Upd.apply_get _ _ (Upd.onRegs_sve _), Upd.apply_get _ _ (Upd.onRegs_emit _), Upd.apply_sve, Upd.apply_wrc, hstop]
  refine ⟨hpos, hcur, List.mem_append_left _ (List.mem_singleton.2 rfl), fun p hp => each_setOfftrack_mem _ _ hp, fun e he hea => ?_⟩
  obtain ⟨x, -, rfl⟩ := List.mem_map.1 he
  by_cases hx : x.1 = a
  · simp [hx]
  · simp [hx] at hea

theorem svLoss_set (a : Nat) (s : State) : ((setF SVE_ACT_STAT.SV_LOSS a 1).run s).get SVE_ACT_STAT.SV_LOSS a = 1 :=
  State.get_fld_self s SVE_ACT_STAT.SV_LOSS a 1 (by decide)

/-- Fields that an event leaves as it was counted and captured. -/
def countFields : List Fld := [FCU_SRC_STAT.WCNT, FCU_SRC_STAT.TOTAL, FCU_FEC_INFO.VALID, FCU_FEC_INFO.MULTI, FCU_FEC_INFO.SRC, FCU_FEC_INFO.MID,
  FCU_FEC_INFO.TYPE, FCU_FEC_INFO.SIZE]

/-- What is counted stays counted behind what leaves these fields. -/
theorem Counted.kept {i : Nat} {c : FCap} {s t u : State} (h : Counted i c s t) (hk : FieldsKept countFields t u) : Counted i c s u := by
  simp only [FieldsKept, countFields, List.forall_mem_cons] at hk
  obtain ⟨hw, ht, hv, hm, hs, hi, hy, hz, -⟩ := hk
  simpa only [Counted, hw, ht, hv, hm, hs, hi, hy, hz] using h

section
variable {a : Nat} {s : State} (hl : s.loaded a = true) (hm : clampN 2 15 (s.get SVE_ACT_CFG.ACT_MISS a) ≤ Sparse.get 0 s.sve.actMiss a)
include hl hm

/-- In normal service a loss of servo is shown. -/
theorem servoLoss_inService (hs : s.normalService = true) : ((servoLossProg a).run s).get SVE_ACT_STAT.SV_LOSS a = 1 := by
  have hset : ChangesOnly [.SVE_ACT_STAT] [] false s ((setF SVE_ACT_STAT.SV_LOSS a 1).run s) := Prog.Only.changesOnly (List.mem_singleton.2 rfl) s
  have hmode := (FieldsKept.normalService (fs := []) (hset.fieldsKept (by decide))).trans hs
  have hraise := (raise_inService (216 + a) (detail a) hmode).fieldsKept (fs := [SVE_ACT_STAT.SV_LOSS]) (by decide)
  have hrest := fun t => (lossFollows_changes a t).fieldsKept (fs := [SVE_ACT_STAT.SV_LOSS]) (by decide)
  rw [servoLossProg_run hl hm, hrest _ _ (List.mem_singleton.2 rfl), hraise _ (List.mem_singleton.2 rfl), svLoss_set]

/-- A loss of servo whose event goes no further is shown and counted. -/
theorem servoLoss_quiet (hq : s.quiet (216 + a)) :
    ChangesOnly ([.FCU_SRC_STAT, .FCU_FEC_INFO, .FCU_FEC_ADDR, .FCU_FEC_TIME, .SVE_ACT_STAT] ++ lossRegs) lossComps true s ((servoLossProg a).run s) ∧
    ((servoLossProg a).run s).get SVE_ACT_STAT.SV_LOSS a = 1 ∧ Counted (216 + a) (detail a) s ((servoLossProg a).run s) := by
  obtain ⟨hquiet, hcount, hchange⟩ := reportedOnly (rs := [.SVE_ACT_STAT]) (ps := []) (m := false) (p := setF SVE_ACT_STAT.SV_LOSS a 1)
    (List.mem_singleton.2 rfl) (by decide) (detail a) hq
  have hrest := lossFollows_changes a ((raise (216 + a) (detail a)).run ((setF SVE_ACT_STAT.SV_LOSS a 1).run s))
  rw [servoLossProg_run hl hm]
  refine ⟨(hchange.mono (by decide) (by decide) nofun).trans (hrest.mono (by decide) (by decide) id), ?_, hcount.kept (hrest.fieldsKept (by decide))⟩
  rw [hrest.fieldsKept (fs := [SVE_ACT_STAT.SV_LOSS]) (by decide) _ (List.mem_singleton.2 rfl), raise_get _ hquiet _ _ (by decide), svLoss_set]
end

end Sys2Proof.Machine
end

section
/-! A read of the drift log (R61, R598). -/
namespace Sys2Proof.Machine

theorem driftRead_oldest {s : State} (m : Master) {kind h band : Nat} {obs mb : Int} {l : List (Nat × Nat × Nat × Int × Int)}
    (hlog : s.sve.log = (kind, h, band, obs, mb) :: l) (hlen : l.length < 64) :
    ChangesOnly [.SVE_DRIFT_STAT] [.access, .out, .sve] false s ((driftReadProg m).run s) ∧
    ((driftReadProg m).run s).out = .data m.id (1 <<< 31 ||| kind <<< 29 ||| (h % 32) <<< 24 ||| band % 65536) :: s.out ∧
    ((driftReadProg m).run s).sve.log = l ∧ ((driftReadProg m).run s).get SVE_DRIFT_STAT.COUNT 0 = l.length ∧
    (m.id, regAddr .SVE_DRIFT_LOG 0, ofSigned 12 mb <<< 12 ||| ofSigned 12 obs) ∈ ((driftReadProg m).run s).access.hi := by
  have hrun : (driftReadProg m).run s = (all [reply m (1 <<< 31 ||| kind <<< 29 ||| (h % 32) <<< 24 ||| band % 65536),
      driftReadProg.latch m (ofSigned 12 mb <<< 12 ||| ofSigned 12 obs), driftPop]).run s := by
    simp only [driftReadProg, Prog.run_ask, hlog]
  rw [hrun]
  refine ⟨Prog.Only.changesOnly ?_ s, ?_, ?_, ?_, ?_⟩
  · simp +decide [reply, driftReadProg.latch, driftPop, Upd.among]
  · simp [driftReadProg.latch, driftPop]
  · simp [driftReadProg.latch, driftPop, hlog]
  · simp only [driftReadProg.latch, driftPop, Prog.run_all_cons, Prog.run_all_nil, Prog.run_ask, Prog.run_seq, Prog.run_setF]
    rw [State.get_fld_self _ _ _ _ (by decide)]
    simp only [Prog.run_reply, Prog.run_upd, Upd.apply_sve, hlog, List.tail_cons]
    exact Nat.mod_eq_of_lt (Nat.lt_trans hlen (by decide))
  · simp [driftReadProg.latch, driftPop]

theorem driftRead_empty {s : State} (m : Master) (hlog : s.sve.log = []) :
    Unchanged [] [.access, .out] [] s ((driftReadProg m).run s) ∧ ((driftReadProg m).run s).out = .data m.id 0 :: s.out ∧
    (m.id, regAddr .SVE_DRIFT_LOG 0, 0) ∈ ((driftReadProg m).run s).access.hi := by
  have hrun : (driftReadProg m).run s = (Prog.seq (reply m 0) (driftReadProg.latch m 0)).run s := by
    simp only [driftReadProg, Prog.run_ask, hlog]
  rw [hrun]
  refine ⟨Prog.Only.unchanged ?_ s, ?_, ?_⟩
  · simp +decide [reply, driftReadProg.latch, Upd.within]
  · simp [driftReadProg.latch]
  · simp [driftReadProg.latch]

end Sys2Proof.Machine
end

section
/-! The formation of e_V ends the actuator's wedge: nothing behind it adds to what is done, or to the PES taken (R184). -/
namespace Sys2Proof.Machine

/-- An update that adds no path to those whose wedge is done, and no PES. -/
def Upd.addsNoWedge : Upd → Prop
  | .sve f => ∀ x, (f x).wedgeDone ⊆ x.wedgeDone ∧ (f x).wedgeGot ⊆ x.wedgeGot
  | _ => True

theorem Prog.Only.addsNoWedge {p : Prog} (hp : p.Only Upd.addsNoWedge) (s : State) :
    (p.run s).sve.wedgeDone ⊆ s.sve.wedgeDone ∧ (p.run s).sve.wedgeGot ⊆ s.sve.wedgeGot := by
  refine Prog.Only.rel (fun s t => t.sve.wedgeDone ⊆ s.sve.wedgeDone ∧ t.sve.wedgeGot ⊆ s.sve.wedgeGot) (fun s => ⟨fun _ h => h, fun _ h => h⟩)
    (fun _ _ _ h k => ⟨fun _ m => h.1 (k.1 m), fun _ m => h.2 (k.2 m)⟩) (fun u s hu => ?_) hp s
  cases u with
  | sve f => exact hu s.sve
  | _ => exact ⟨fun _ h => h, fun _ h => h⟩

theorem Prog.Only.addsNone {p : Prog} (hp : p.Only (Upd.sparesPart .sve)) : p.Only Upd.addsNoWedge :=
  hp.mono fun u hu => by
    cases u with
    | sve f => exact absurd rfl hu
    | _ => trivial

theorem leaveActive_adds (p : Nat) : (leaveActive p).Only Upd.addsNoWedge := by
  simp [leaveActive, ctxStop, maSent, maCmd, palCmd, palFrame, send, Upd.addsNoWedge]

theorem joinActive_adds (p : Nat) : (joinActive p).Only Upd.addsNoWedge := by
  simp [joinActive, ctxStop, setCtx, Upd.addsNoWedge]

theorem setSub_adds (a st : Nat) : (setSub a st).Only Upd.addsNoWedge := by
  simp [setSub, setSeek, Upd.addsNoWedge]

theorem rampDrive_adds (a : Nat) : (rampDrive a).Only Upd.addsNoWedge := by
  simp [rampDrive, rejoinNone, setSeek, leaveActive_adds, Upd.addsNoWedge]

theorem settleCheck_adds (a : Nat) : (settleCheck a).Only Upd.addsNoWedge := by
  simp [settleCheck, rampDrive_adds, setSub_adds, Upd.addsNoWedge]

theorem seekFrom_adds (a : Nat) : (seekFrom a).Only Upd.addsNoWedge := by
  simp [seekFrom, enterMove, enterTrackIn, enterSettle, rejoinNone, setSeek, leaveActive_adds, joinActive_adds, setSub_adds, Upd.addsNoWedge]

theorem mapCheck_adds (a : Nat) (bands : List Nat) : (mapCheck a bands).Only Upd.addsNoWedge := by
  refine Prog.Only.addsNone ?_
  simp only [mapCheck, mapReload, lateLine, Only.ask, Only.when, Only.seq, Only.each, Only.upd]
  refine fun _ _ => ⟨(by decide : Part.fcu ≠ .sve), fun b _ t => ?_⟩
  cases t.mapNewest with
  | none => trivial
  | some c => exact fabricStore_among _ _ _ (fun _ _ => trivial) (by decide) trivial

theorem startUnload_adds (a : Nat) : (startUnload a).Only Upd.addsNoWedge := by
  simp [startUnload, setSeek, aim, setTgt, rampDrive_adds, mapCheck_adds, seekFrom_adds, Upd.addsNoWedge]

theorem closeGates_adds (ws : List Nat) (c : Nat) : (closeGates ws c).Only Upd.addsNoWedge :=
  Prog.Only.addsNone (closeGates_among ws c (fun _ _ => trivial) (by decide) (by decide))

theorem almEnter_adds (code sev subsys : Nat) (kpr : Bool) (l : List Nat) : (almEnter code sev subsys kpr l).Only Upd.addsNoWedge :=
  Prog.Only.addsNone (almEnter_among _ _ _ _ _ trivial (by decide))

theorem calAbort_adds : calAbort.Only Upd.addsNoWedge := by
  simp [calAbort, calRestore, targetPut, frontEnd, calRecord, calOver, almEnter_adds, Upd.addsNoWedge]

theorem setVpre_adds (b : Bool) : (setVpre b).Only Upd.addsNoWedge := by
  simp [setVpre, pdRequest, send, palStart, palFrame, palDown, Upd.addsNoWedge]

theorem wusShow_adds : wusShow.Only Upd.addsNoWedge :=
  Prog.Only.addsNone (wusShow_among trivial trivial (by decide))

theorem setSpn_adds (st : Nat) : (setSpn st).Only Upd.addsNoWedge := by
  simp [setSpn, setAtSpeed, setOrr, noteCleared, closeGates_adds, wusShow_adds, Upd.addsNoWedge]

theorem spnStop_adds : spnStop.Only Upd.addsNoWedge := by
  simp [spnStop, spnShortBrake, pdRequest, send, setSpn_adds, Upd.addsNoWedge]

theorem enterSafe_adds (c : Nat) : (enterSafe c).Only Upd.addsNoWedge := by
  simp [enterSafe, almEvent, setSafeSource, endPasses, endTransition, driveNfault, unloadAll, almEnter_adds, calAbort_adds, startUnload_adds, setVpre_adds,
    closeGates_adds, spnStop_adds, Upd.addsNoWedge]

theorem powerLossBegin_adds (b : Bool) : (powerLossBegin b).Only Upd.addsNoWedge := by
  simp [powerLossBegin, sliceDrop, endTransition, spnHanded, setPowerLoss, setWriter, journalMode, closeGates_adds, setSpn_adds, Upd.addsNoWedge]

theorem nmi_adds : nmi.Only Upd.addsNoWedge := by
  simp [nmi, Upd.addsNoWedge]

theorem resetSVE_adds : resetSVE.Only Upd.addsNoWedge := by
  simp [resetSVE, requestRetract, cwSend, send, resetBlockRegs, Upd.addsNoWedge]

theorem setPend_adds (i : Nat) (b : Bool) : (setPend i b).Only Upd.addsNoWedge :=
  Prog.Only.addsNone (setPend_among (fun _ _ => trivial) i b)

/-- A loop overrun's event (source 225): its ladder's first step, or its direct reaction. -/
theorem raise_overrun_adds (c : FCap) : (raise 225 c).Only Upd.addsNoWedge := by
  have hblock : blockOfSource 225 = some bSVE := by decide
  have hreset : blockReset bSVE = resetSVE := rfl
  have harrive : (arrive 225 1).Only Upd.addsNoWedge := Prog.Only.addsNone (arrive_one_among (fun _ _ => trivial) 225 (by decide))
  have hdirect : (direct 225).Only Upd.addsNoWedge := by
    simp only [direct, hblock, hreset, Only.ask, Only.ite, Only.skip, nmi_adds, resetSVE_adds, powerLossBegin_adds, enterSafe_adds, implies_true, and_self]
  simp only [raise, react, Only.ask, Only.ite, Only.skip, Only.cons, Only.nil, Only.when, Only.seq, Only.setF, setPend_adds, harrive, hdirect]
  simp [Machine.capture, Machine.count, windowNote, Upd.addsNoWedge]

theorem cluApply_adds (u b : Nat) : (cluApply u b).Only Upd.addsNoWedge := by
  simp [cluApply, Upd.addsNoWedge]

theorem ctxStart_adds (u : Nat) : (ctxStart u).Only Upd.addsNoWedge := by
  simp only [ctxStart, Only.whenS, Only.ask, Only.seq, Only.each, ctxStop, Only.upd]
  intro _ _ _
  refine ⟨fun _ _ => by simp [Upd.addsNoWedge], fun t => ?_⟩
  cases t.ctxNext u with
  | none => trivial
  | some k => exact ⟨(Only.each _ _ _).2 fun b _ => cluApply_adds u b, fun _ => by simp [Upd.addsNoWedge]⟩

theorem trigger_adds (k : Nat) (e : Int) : (trigger k e).Only Upd.addsNoWedge := by
  simp [trigger, setCtx, raise_overrun_adds, ctxStart_adds, Upd.addsNoWedge]

theorem notchWedge_adds (a r : Nat) (x : Int) (zero : Bool) : (notchWedge a r x zero).Only Upd.addsNoWedge := by
  simp [notchWedge, Upd.addsNoWedge]

/-- No path of the actuator has its wedge done, and none has a PES waiting. -/
def State.wedgeEnded (s : State) (a : Nat) : Prop := (∀ q ∈ s.sve.wedgeDone, q / 4 ≠ a) ∧ ∀ e ∈ s.sve.wedgeGot, e.1 / 4 ≠ a

theorem State.wedgeEnded.run {s : State} {a : Nat} (h : s.wedgeEnded a) {p : Prog} (hp : p.Only Upd.addsNoWedge) : (p.run s).wedgeEnded a :=
  ⟨fun q hq => h.1 q ((hp.addsNoWedge s).1 hq), fun e he => h.2 e ((hp.addsNoWedge s).2 he)⟩

/-- The formation of e_V takes the actuator's paths and PES out of the wedge, and nothing behind it puts any in. -/
theorem evForm_ends (a : Nat) (s : State) : ((evForm a).run s).wedgeEnded a := by
  simp only [evForm, Prog.run_ask]
  rw [Prog.run_all_cons, Prog.run_all_cons]
  refine State.wedgeEnded.run ?_ ?_
  · simp only [State.wedgeEnded, Prog.run_upd, Upd.apply_sve, List.mem_filter, bne_iff_ne]
    exact ⟨fun q hq => hq.2, fun e he => he.2⟩
  · simp [setSeek, trigger_adds, notchWedge_adds, settleCheck_adds, Upd.addsNoWedge]

end Sys2Proof.Machine
end

section
/-! What a wedge leaves of the servo's hidden state. -/
namespace Sys2Proof.Machine

/-- An update that leaves what `g` takes of the servo's hidden state. -/
def Upd.sveKeeps {β : Type} (g : SveState → β) : Upd → Prop
  | .sve f => ∀ x, g (f x) = g x
  | _ => True

theorem Prog.Only.sveKeeps {β : Type} {g : SveState → β} {p : Prog} (hp : p.Only (Upd.sveKeeps g)) (s : State) : g (p.run s).sve = g s.sve := by
  refine Prog.Only.rel (fun s t => g t.sve = g s.sve) (fun _ => rfl) (fun _ _ _ h k => k.trans h) (fun u s hu => ?_) hp s
  cases u with
  | sve f => exact hu s.sve
  | _ => rfl

theorem Prog.Only.sveSpared {β : Type} {g : SveState → β} {p : Prog} (hp : p.Only (Upd.sparesPart .sve)) : p.Only (Upd.sveKeeps g) :=
  hp.mono fun u hu => by
    cases u with
    | sve f => exact absurd rfl hu
    | _ => trivial

theorem setOfftrack_sveKeeps {β : Type} (g : SveState → β) (p : Nat) (b : Bool) : (setOfftrack p b).Only (Upd.sveKeeps g) :=
  Prog.Only.sveSpared (setOfftrack_among p b (fun _ _ => trivial) (by decide) (by decide))

theorem rdcBoundary_sveKeeps {β : Type} (g : SveState → β) (p : Nat) : (rdcBoundary p).Only (Upd.sveKeeps g) := by
  simp [rdcBoundary, rdcApply, frontEnd, sampleClock, setNp, setTapAcc, Upd.sveKeeps]

theorem wedgeMiss_got (p : Nat) : (wedgeMiss p).Only (Upd.sveKeeps (·.wedgeGot)) := by
  simp [wedgeMiss, predictNext, settleCount, setSeek, setOfftrack_sveKeeps, Upd.sveKeeps]

/-- A missed wedge is done. -/
theorem wedgeMiss_done (p : Nat) (s : State) : ((wedgeMiss p).run s).sve.wedgeDone = p :: s.sve.wedgeDone := by
  have hkeep : (all [setF SVE_WEDGE_STAT.VALID p 0, incF SVE_WEDGE_STAT.MISS_CNT p, incF SVE_WEDGE_STAT.MISS_TOT p, predictNext p none,
      when (s.sve.active.contains p) (setOfftrack p true), settleCount p false]).Only (Upd.sveKeeps (·.wedgeDone)) := by
    simp [predictNext, settleCount, setSeek, setOfftrack_sveKeeps, Upd.sveKeeps]
  exact congrArg (p :: ·) (hkeep.sveKeeps s)

/-- A missed wedge of an active path puts it off track. -/
theorem wedgeMiss_offtrack {p : Nat} {s : State} (h : p ∈ s.sve.active) : p ∈ ((wedgeMiss p).run s).wrc.offtrack := by
  have hcount : ∀ t, ((settleCount p false).run t).wrc = t.wrc := (settleCount_among (R := fun _ => True) (M := True) p false trivial (by decide)).wrc
  simp only [wedgeMiss_run, missFollows, Prog.run_all_cons, Prog.run_all_nil, Prog.run_when, List.contains_eq_mem, h, decide_true, if_true, Prog.run_upd,
    Upd.apply_wrc, hcount]
  exact setOfftrack_mem p _

/-! The formation of e_V at SKEW_MAX. -/

/-- The paths still pending at the formation of e_V miss the wedge. -/
def pendingMiss (s : State) (a : Nat) : Prog :=
  each ((s.demodPaths a).filter fun q => !s.sve.wedgeDone.contains q) fun q => .seq (rdcBoundary q) (wedgeMiss q)

theorem evFormationProg_run {a : Nat} {s : State} (h : (s.sve.wedgeDone.any fun q => q / 4 == a) = true) :
    (evFormationProg a).run s = (evForm a).run ((pendingMiss s a).run s) := by
  rw [evFormationProg, Prog.run_ask, h]
  rfl

/-- In normal service N_PES shows how many PES the interval gave. -/
theorem evFormation_nPes {a : Nat} {s : State} (h : (s.sve.wedgeDone.any fun q => q / 4 == a) = true) (hs : s.normalService = true) :
    ((evFormationProg a).run s).get SVE_ACT_STAT.N_PES a = (s.sve.wedgeGot.filter fun e => e.1 / 4 == a).length % 2 ^ SVE_ACT_STAT.N_PES.width := by
  have hgot : ((pendingMiss s a).run s).sve.wedgeGot = s.sve.wedgeGot := Prog.Only.sveKeeps (g := (·.wedgeGot)) ((Only.each _ _ _).2 fun q _ =>
    (Only.seq _ _ _).2 ⟨rdcBoundary_sveKeeps _ q, wedgeMiss_got q⟩) s
  have hmode : ((pendingMiss s a).run s).normalService = true := (FieldsKept.normalService (fs := []) (Serves.each (fun q _ =>
    Serves.seq (rdcBoundary_serves (by simp) q) (wedgeMiss_serves (by simp) (by simp) q)) s hs)).trans hs
  have haside : ∀ f ∈ [SVE_ACT_STAT.N_PES], f.aside := by
    unfold Fld.aside Fld.unwritten
    decide
  rw [evFormationProg_run h, evForm_after haside a hmode SVE_ACT_STAT.N_PES (by decide), Prog.run_setF, State.get_fld_self _ _ _ _ (by decide), hgot]
  rfl

end Sys2Proof.Machine
end

section
/-! A wedge of a path that tracks, with no write pending and its gates closed: what it can touch, and that the actuator's other paths are still to come. -/
namespace Sys2Proof.Machine

/-- A seek without what a wedge counts in it. -/
def Seek.uncounted (k : Seek) : Seek := { k with first := false, counts := [] }

/-- The servo's hidden state without what a wedge of a path notes in it. -/
def SveState.sight (x : SveState) : (Nat → Seek) × SveState := (fun a => (Sparse.get {} x.seek a).uncounted,
  { x with seek := [], wedgePred := [], wedgeDone := [], wedgeGot := [], wedgeTrk := [], drift := [], log := [], unreach := [] })

theorem setSeek_sight (a : Nat) (f : Seek → Seek) (hf : ∀ k, (f k).uncounted = k.uncounted) : (setSeek a f).Only (Upd.sveKeeps SveState.sight) := by
  intro x
  refine Prod.ext (funext fun b => ?_) rfl
  by_cases hb : b = a
  · subst hb
    simp only [SveState.sight, Sparse.get_put_self, hf]
  · simp only [SveState.sight, Sparse.get_put_ne _ _ _ _ _ _ hb]

theorem countWedge_sight (a : Nat) : (countWedge a).Only (Upd.sveKeeps SveState.sight) := by
  simp only [countWedge, Only.ask, Only.when, Only.ite, Only.incF]
  exact fun _ _ => ⟨fun _ => setSeek_sight a _ fun _ => rfl, fun _ _ => trivial⟩

theorem settleCount_sight (p : Nat) (ok : Bool) : (settleCount p ok).Only (Upd.sveKeeps SveState.sight) := by
  simp only [settleCount, Only.ask, Only.when, Only.seq, Only.setBitF]
  exact fun _ _ => ⟨setSeek_sight _ _ fun _ => rfl, fun _ _ => trivial⟩

theorem wedgeMiss_sight (p : Nat) : (wedgeMiss p).Only (Upd.sveKeeps SveState.sight) := by
  simp only [wedgeMiss, predictNext, Only.ask, Only.cons, Only.nil, Only.setF, Only.incF, Only.when, Only.upd, and_true]
  exact fun _ => ⟨trivial, fun _ => trivial, fun _ => trivial, fun _ => rfl, fun _ => setOfftrack_sveKeeps _ p true, settleCount_sight p false, fun _ => rfl⟩

theorem driftWedge_sight (p : Nat) (zero : Bool) : (driftWedge p zero).Only (Upd.sveKeeps SveState.sight) := by
  have hrec : ∀ sub kind ev l, (almEvent sub kind ev l).Only (Upd.sveKeeps SveState.sight) := fun _ _ _ _ =>
    Prog.Only.sveSpared (almEnter_among _ _ _ _ _ trivial (by decide))
  have hevent : ∀ kind cond, (driftEvent p kind cond).Only (Upd.sveKeeps SveState.sight) := fun kind cond => by
    simp only [driftEvent, Only.ask, Only.when, Only.cons, Only.nil, Only.upd, Only.ite, Only.seq, Only.setF, Only.incF, hrec, and_true, implies_true, true_and]
    exact fun _ _ => ⟨fun _ => rfl, ⟨fun _ => trivial, fun _ => ⟨fun _ => rfl, fun _ => trivial⟩⟩, fun _ _ => rfl⟩
  simp only [driftWedge, Only.ask, Only.ite, Only.skip, Only.seq, Only.upd, Only.when, Only.cons, Only.nil, hevent, and_true, implies_true, true_and]
  exact fun _ _ => ⟨fun _ _ => rfl, fun _ _ => rfl⟩

/-- Fields that say, with the servo's hidden state and the slot maps, which paths demodulate. -/
def demodFields : List Fld := [RDC_HP_STAT.PWR, SVE_SEEK_STAT.STATE, SVE_TRK_STAT.LOADED, SVE_HEAD_STATE.STATE]

/-- What a path's wedge reads of the servo, its own register aside, is the same in two states. -/
def SameSight (s t : State) : Prop :=
  t.sve.sight = s.sve.sight ∧ FieldsKept demodFields s t ∧ ∀ i, t.reg .SVE_SLOT_MAP i = s.reg .SVE_SLOT_MAP i

theorem SameSight.trans {a b c : State} (h : SameSight a b) (k : SameSight b c) : SameSight a c :=
  ⟨k.1.trans h.1, h.2.1.trans k.2.1, fun i => (k.2.2 i).trans (h.2.2 i)⟩

section
variable {s t : State} (h : SameSight s t)
include h

theorem SameSight.active : t.sve.active = s.sve.active := congrArg (fun g => g.2.active) h.1
theorem SameSight.seek (a : Nat) : (t.seek a).uncounted = (s.seek a).uncounted := congrFun (congrArg Prod.fst h.1) a

theorem SameSight.tgt (p : Nat) : t.tgt p = s.tgt p := by
  have htgt : t.sve.tgt = s.sve.tgt := congrArg (fun g => g.2.tgt) h.1
  simp only [State.tgt, htgt]

theorem SameSight.seekSub (a : Nat) : t.seekSub a = s.seekSub a := by
  have hsub : (t.seek a).sub = (s.seek a).sub := (congrArg Seek.sub (h.seek a) :)
  have hst := h.2.1 SVE_SEEK_STAT.STATE (by decide)
  simp only [State.seekSub, hsub, hst]

theorem SameSight.pathUsable (p : Nat) : t.pathUsable p = s.pathUsable p := by
  have hmap : t.slotMap (p / 4) = s.slotMap (p / 4) := congrArg BitVec.toNat (h.2.2 _)
  have hhead : t.headOf p = s.headOf p := by rw [State.headOf, State.headOf, hmap]
  have hstate := h.2.1 SVE_HEAD_STATE.STATE (by decide)
  simp only [State.pathUsable, hhead, State.headState, hstate]

theorem SameSight.demodulates (p : Nat) : t.demodulates p = s.demodulates p := by
  have hslots : (t.seek (p / 4)).slots = (s.seek (p / 4)).slots := (congrArg Seek.slots (h.seek (p / 4)) :)
  have hretract : t.sve.retract = s.sve.retract := congrArg (fun g => g.2.retract) h.1
  have hpwr := h.2.1 RDC_HP_STAT.PWR (by decide)
  have hloaded := h.2.1 SVE_TRK_STAT.LOADED (by decide)
  simp only [State.demodulates, State.hpPwr, State.loaded, State.bitF, State.lowestUsable, h.pathUsable, h.seekSub, h.active, hslots, hretract, hpwr, hloaded]

theorem SameSight.demodPaths (a : Nat) : t.demodPaths a = s.demodPaths a := by
  simp only [State.demodPaths, h.demodulates]
end

/-- Where another path of the actuator is still to come, e_V is not yet formed. -/
theorem wedgeClose_waits {s t : State} {p : Nat} (hd : s.demodulates p = true) (hfirst : ∀ q ∈ s.sve.wedgeDone, q / 4 ≠ p / 4)
    (hother : s.demodPaths (p / 4) ≠ [p]) (hsight : SameSight s t) (hdone : t.sve.wedgeDone = p :: s.sve.wedgeDone) :
    (wedgeClose (p / 4)).run t = t := by
  have hmem : p ∈ s.demodPaths (p / 4) := by
    refine List.mem_filter.2 ⟨?_, hd⟩
    simp only [pathsOf, List.mem_cons, List.not_mem_nil, or_false]
    omega
  have hdiv : ∀ q ∈ s.demodPaths (p / 4), q / 4 = p / 4 := by
    intro q hq
    have hq := (List.mem_filter.1 hq).1
    simp only [pathsOf, List.mem_cons, List.not_mem_nil, or_false] at hq
    omega
  have hnodup : (s.demodPaths (p / 4)).Nodup := List.Nodup.filter _ (by simp [pathsOf])
  obtain ⟨q, hq, hqp⟩ := ((hnodup.ne_singleton_iff p).1 hother).resolve_left (List.ne_nil_of_mem hmem)
  have hwait : ((t.demodPaths (p / 4)).all fun q => t.sve.wedgeDone.contains q) = false := by
    rw [hsight.demodPaths, List.all_eq_false]
    refine ⟨q, hq, ?_⟩
    simp only [hdone, List.contains_eq_mem, List.mem_cons, hqp, false_or, decide_eq_true_eq]
    exact fun hin => hfirst q hin (hdiv q hq)
  simp only [wedgeClose, Prog.run_ask, Prog.run_when, hwait, Bool.false_eq_true, if_false]

/-! Closing gates that are closed. -/

theorem closeGate_shut {s : State} {w : Nat} (c : Nat) (h : s.on WRC_WR_STAT.GATE w = false) : (closeGate w c false).run s = s := by
  simp only [closeGate, Prog.run_ask, h, Bool.false_eq_true, if_false, Prog.run_skip]

theorem closeGates_shut {s : State} (ws : List Nat) (c : Nat) (h : ∀ w ∈ ws, s.on WRC_WR_STAT.GATE w = false) : (closeGates ws c).run s = wusShow.run s := by
  rw [closeGates, Prog.run_seq]
  congr 1
  induction ws with
  | nil => rfl
  | cons w ws ih =>
    rw [Prog.run_each_cons, closeGate_shut c (h w List.mem_cons_self)]
    exact ih fun v hv => h v (List.mem_cons_of_mem _ hv)

/-- A path goes off track, or back on, with its gates closed. -/
theorem setOfftrack_shut {s : State} (p : Nat) (b : Bool) (h : ∀ w ∈ s.writersOfPath p, s.on WRC_WR_STAT.GATE w = false) :
    ChangesOnly [.WRC_WUS_STAT, .WRC_RWL_CTL] [.wrc] false s ((setOfftrack p b).run s) := by
  have hw : Part.wrc ∈ [Part.wrc] := List.mem_singleton.2 rfl
  have hshow : wusShow.Only (Upd.among (· ∈ [RegName.WRC_WUS_STAT, .WRC_RWL_CTL]) (· ∈ [Part.wrc]) (false = true)) := wusShow_among (by decide) (by decide) hw
  cases b with
  | true =>
    have hoff := Prog.Only.changesOnly (rs := [.WRC_WUS_STAT, .WRC_RWL_CTL]) (ps := [.wrc]) (m := false)
      (p := .upd (.wrc fun x => { x with offtrack := if x.offtrack.contains p then x.offtrack else p :: x.offtrack })) hw s
    simp only [setOfftrack, Prog.run_ask, if_true, Prog.run_all_cons, Prog.run_all_nil]
    rw [closeGates_shut _ _ (by exact h)]
    exact (hoff.prog hshow).prog fun _ => hw
  | false =>
    simp only [setOfftrack, Prog.run_ask, Bool.false_eq_true, if_false, Prog.run_when]
    split_ifs
    · refine Prog.Only.changesOnly ?_ s
      simp only [noteCleared, Only.seq, Only.ask, Only.upd]
      exact ⟨fun _ => hw, hw, hshow⟩
    · exact ChangesOnly.refl s

/-- The writers of a path and their gates are the same in two states. -/
def SameGates (s t : State) : Prop := t.wrc = s.wrc ∧ ∀ w, t.on WRC_WR_STAT.GATE w = s.on WRC_WR_STAT.GATE w

theorem ChangesOnly.sameGates {rs : List RegName} {ps : List Part} {m : Bool} {s t : State} (h : ChangesOnly rs ps m s t) (hr : .WRC_WR_STAT ∉ rs)
    (hp : .wrc ∉ ps) : SameGates s t := by
  have hget := h.fieldsKept (fs := [WRC_WR_STAT.GATE]) (by simpa [WRC_WR_STAT.GATE] using hr) _ (List.mem_singleton.2 rfl)
  exact ⟨h.2.1 .wrc hp, fun w => by simp only [State.on, hget]⟩

theorem SameGates.shut {s t : State} {p : Nat} (h : SameGates s t) (hs : ∀ w ∈ s.writersOfPath p, s.on WRC_WR_STAT.GATE w = false) :
    ∀ w ∈ t.writersOfPath p, t.on WRC_WR_STAT.GATE w = false := by
  intro w hw
  rw [h.2]
  exact hs w (by simpa only [State.writersOfPath, State.writer, h.1] using hw)

/-- Registers and components that a missed wedge writes with its gates closed. -/
def missRegs : List RegName := [.SVE_WEDGE_STAT, .SVE_SEEK_STAT, .WRC_WUS_STAT, .WRC_RWL_CTL]
def missComps : List Part := [.sve, .wrc]

/-- A missed wedge of a path whose gates are closed. -/
theorem wedgeMiss_shut {s : State} {p : Nat} (h : ∀ w ∈ s.writersOfPath p, s.on WRC_WR_STAT.GATE w = false) :
    ChangesOnly missRegs missComps false s ((wedgeMiss p).run s) := by
  have hsve : Part.sve ∈ missComps := by decide
  have hopen : ChangesOnly [.SVE_WEDGE_STAT] [.sve] false s ((predictNext p none).run ((missShown p).run s)) :=
    (Prog.Only.changesOnly (missShown_among p (List.mem_singleton.2 rfl)) s).prog (predictNext_among p none (List.mem_singleton.2 rfl))
  have hmid : ChangesOnly missRegs missComps false s
      ((when (s.sve.active.contains p) (setOfftrack p true)).run ((predictNext p none).run ((missShown p).run s))) := by
    refine (hopen.mono (by decide) (by decide) id).trans ?_
    rw [Prog.run_when]
    split_ifs
    · exact (setOfftrack_shut p true ((hopen.sameGates (by decide) (by decide)).shut h)).mono (by decide) (by decide) id
    · exact ChangesOnly.refl _
  rw [wedgeMiss_run]
  simp only [missFollows, Prog.run_all_cons, Prog.run_all_nil]
  exact (hmid.prog (settleCount_among p false (by decide) hsve)).prog hsve

/-- A missed wedge of a path that is not active. -/
theorem wedgeMiss_inactive {s : State} {p : Nat} (h : p ∉ s.sve.active) : ChangesOnly [.SVE_WEDGE_STAT, .SVE_SEEK_STAT] [.sve] false s ((wedgeMiss p).run s) := by
  have hsve : Part.sve ∈ [Part.sve] := List.mem_singleton.2 rfl
  have hact : s.sve.active.contains p = false := by simpa using h
  rw [wedgeMiss_run, hact]
  refine ((Prog.Only.changesOnly (missShown_among p (by decide)) s).prog ?_)
  simp only [missFollows, Only.cons, Only.nil, Only.when, Only.upd, and_true]
  exact ⟨hsve, nofun, settleCount_among p false (by decide) hsve, hsve⟩

/-! What a wedge's steps leave of the sight. -/

theorem SameSight.of_run {p : Prog} (hsight : p.Only (Upd.sveKeeps SveState.sight)) (hclear : p.Only (Upd.clearOf demodFields))
    (hmap : p.Only (Upd.spares .SVE_SLOT_MAP)) (s : State) : SameSight s (p.run s) :=
  ⟨hsight.sveKeeps s, hclear.fieldsKept s, hmap.reg s⟩

theorem settleCount_clear (p : Nat) (ok : Bool) : (settleCount p ok).Only (Upd.clearOf demodFields) := by
  have hdis : ∀ g ∈ demodFields, SVE_SEEK_STAT.SETTLED.clearOf g := by
    unfold Fld.clearOf
    decide
  simp only [settleCount, setSeek, Only.ask, Only.when, Only.seq, Only.upd, Only.setBitF]
  exact fun _ _ => ⟨trivial, fun _ _ => hdis⟩

theorem countWedge_clear (a : Nat) : (countWedge a).Only (Upd.clearOf demodFields) := by
  have hdis : ∀ g ∈ demodFields, SVE_SEEK_STAT.WEDGES.clearOf g := by
    unfold Fld.clearOf
    decide
  simp only [countWedge, setSeek, Only.ask, Only.when, Only.ite, Only.upd, Only.incF]
  exact fun _ _ => ⟨fun _ => trivial, fun _ _ => hdis⟩

theorem wedgeMiss_sameSight (p : Nat) (s : State) : SameSight s ((wedgeMiss p).run s) := by
  have hstat : noneHolds demodFields .SVE_WEDGE_STAT := by decide
  refine SameSight.of_run (wedgeMiss_sight p) ?_ ?_ s
  · simp only [wedgeMiss, Only.ask, Only.cons, Only.nil, Only.setF, Only.incF, Only.when, Only.upd, and_true]
    exact fun _ => ⟨fun g hg => .inl (hstat g hg), fun _ g hg => .inl (hstat g hg), fun _ g hg => .inl (hstat g hg), trivial,
      fun _ => (setOfftrack_among (P := fun _ => True) p true (by decide) (fun _ _ => trivial) trivial).clearOf, settleCount_clear p false, trivial⟩
  · simp only [wedgeMiss, Only.ask, Only.cons, Only.nil, Only.setF, Only.incF, Only.when, Only.upd, and_true]
    have hmap : RegName.SVE_WEDGE_STAT ≠ .SVE_SLOT_MAP := by decide
    exact fun _ => ⟨hmap, fun _ => hmap, fun _ => hmap, trivial, fun _ => setOfftrack_among p true (by decide) (fun _ _ => trivial) trivial,
      settleCount_among p false (by decide) trivial, trivial⟩

/-- A boundary with no write and no loss pending shows single-reader mode alone. -/
theorem rdcBoundary_calm {s : State} (p : Nat) (hw : s.rdc.pend = []) (hn : s.rdc.npPend = []) (hl : s.rdc.losing = []) :
    ChangesOnly [.RDC_HP_STAT] [.rdc] false s ((rdcBoundary p).run s) ∧ SameSight s ((rdcBoundary p).run s) := by
  have hdis : ∀ g ∈ demodFields, RDC_HP_STAT.SR_ACT.clearOf g := by
    unfold Fld.clearOf
    decide
  simp only [rdcBoundary, Prog.run_ask, hw, hn, hl, List.filter_nil]
  constructor
  · refine Prog.Only.changesOnly ?_ s
    simp only [Only.cons, Only.nil, Only.when, Only.seq, Only.each, List.not_mem_nil, false_imp_iff, Only.upd, Only.ask, Only.setF, and_true, implies_true, true_and]
    exact ⟨fun _ => List.mem_singleton.2 rfl, List.mem_singleton.2 rfl, fun _ => List.mem_singleton.2 rfl⟩
  · refine SameSight.of_run ?_ ?_ ?_ s
    · simp [Upd.sveKeeps]
    · simp only [Only.cons, Only.nil, Only.when, Only.seq, Only.each, List.not_mem_nil, false_imp_iff, Only.upd, Only.ask, Only.setF, and_true, implies_true,
        true_and]
      exact ⟨fun _ => trivial, trivial, fun _ => hdis⟩
    · simp +decide [Upd.among]

/-- Registers and components of an opening without a split sector and with nothing pending, on an arm that tracks. -/
def openRegs : List RegName := [.SVE_SEEK_STAT, .RDC_HP_STAT]
def openComps : List Part := [.sve, .rdc]

/-- On an arm that tracks, the reference's advance counts the wedge and does no more. -/
theorem seekAdvance_tracking {s : State} {a : Nat} (hk : s.seekSub a = skTracking) : (seekAdvance a).run s = (countWedge a).run s := by
  have hmove : ¬ (skTracking = skMove ∨ skTracking = skTrackIn) := by decide
  have hsettle : (skTracking == skSettle) = false := by decide
  simp only [seekAdvance, Prog.run_ask, hk, if_neg hmove, hsettle, Prog.run_seq, Prog.run_when, Bool.false_eq_true, if_false]

section
variable {s : State} {p : Nat} (bits : List BitObs) (hk : s.seekSub (p / 4) = skTracking) (hr : p ∉ s.rdc.sector)
  (hfirst : ∀ q ∈ s.sve.wedgeDone, q / 4 ≠ p / 4)
include hk hr hfirst

/-- The first wedge of an arm that tracks, on a path that reads no sector. -/
theorem wedgeOpen_tracking : (all (wedgeOpen s p bits)).run s = (rdcBoundary p).run ((countWedge (p / 4)).run s) := by
  have hsec : s.rdc.sector.contains p = false := by simpa using hr
  have hany : (s.sve.wedgeDone.any fun q => q / 4 == p / 4) = false := by simpa using hfirst
  simp only [wedgeOpen, Prog.run_all_cons, Prog.run_all_nil, Prog.run_when, hsec, hany, Bool.false_eq_true, if_false, Bool.not_false, if_true,
    seekAdvance_tracking hk]

/-- Such an opening, with nothing pending, counts the wedge and shows single-reader mode. -/
theorem wedgeOpen_calm (hw : s.rdc.pend = []) (hn : s.rdc.npPend = []) (hl : s.rdc.losing = []) :
    ChangesOnly openRegs openComps false s ((all (wedgeOpen s p bits)).run s) ∧ SameSight s ((all (wedgeOpen s p bits)).run s) ∧
    ((all (wedgeOpen s p bits)).run s).sve.wedgeDone = s.sve.wedgeDone ∧ ((all (wedgeOpen s p bits)).run s).sve.wedgePred = s.sve.wedgePred := by
  have hcount : (countWedge (p / 4)).Only (Upd.among (· ∈ [.SVE_SEEK_STAT]) (· ∈ [.sve]) (false = true)) :=
    countWedge_among _ (List.mem_singleton.2 rfl) (List.mem_singleton.2 rfl)
  have hnote : ∀ {β : Type} (g : SveState → β), (∀ x l, g { x with seek := l } = g x) → g ((all (wedgeOpen s p bits)).run s).sve = g s.sve := by
    intro β g hg
    rw [wedgeOpen_tracking bits hk hr hfirst, (rdcBoundary_sveKeeps g p).sveKeeps]
    refine Prog.Only.sveKeeps ?_ s
    simp only [countWedge, setSeek, Only.ask, Only.when, Only.ite, Only.incF, Only.upd, Upd.sveKeeps, hg, implies_true, and_self]
  have hrdc : ((countWedge (p / 4)).run s).rdc = s.rdc := (hcount.changesOnly s).2.1 .rdc (by decide)
  obtain ⟨hchange, hsight⟩ := rdcBoundary_calm p (s := (countWedge (p / 4)).run s) (by rw [hrdc, hw]) (by rw [hrdc, hn]) (by rw [hrdc, hl])
  refine ⟨?_, ?_, hnote (·.wedgeDone) fun _ _ => rfl, hnote (·.wedgePred) fun _ _ => rfl⟩ <;> rw [wedgeOpen_tracking bits hk hr hfirst]
  · exact ((hcount.changesOnly s).mono (by decide) (by decide) id).trans (hchange.mono (by decide) (by decide) id)
  · exact (SameSight.of_run (countWedge_sight _) (countWedge_clear _) (countWedge_among _ (by decide) trivial) s).trans hsight

/-- A missed wedge of a path that tracks, with nothing pending, its gates closed and another path of the actuator to come. -/
theorem wedgeProg_miss_calm {o o' : Option WedgeObs} (hd : s.demodulates p = true) (hl : s.get SVE_SEEK_STAT.STATE (p / 4) ≠ skLoading)
    (ho : (if s.servoLane p = 2 * p then o else o') = none) (hw : s.rdc.pend = []) (hn : s.rdc.npPend = []) (hlose : s.rdc.losing = [])
    (hother : s.demodPaths (p / 4) ≠ [p]) (hg : ∀ w ∈ s.writersOfPath p, s.on WRC_WR_STAT.GATE w = false) :
    (wedgeProg p o o' bits).run s = (wedgeMiss p).run ((all (wedgeOpen s p bits)).run s) ∧
    ChangesOnly (openRegs ++ missRegs) (openComps ++ missComps) false s ((wedgeProg p o o' bits).run s) ∧
    (p ∈ s.sve.active → p ∈ ((wedgeProg p o o' bits).run s).wrc.offtrack) ∧ p ∈ ((wedgeProg p o o' bits).run s).sve.wedgeDone := by
  have hdone : p ∉ s.sve.wedgeDone := fun h => hfirst p h rfl
  obtain ⟨hopen, hsight, hsame, -⟩ := wedgeOpen_calm bits hk hr hfirst hw hn hlose
  have hmiss := wedgeMiss_shut (p := p) ((hopen.sameGates (by decide) (by decide)).shut hg)
  have hadd : ((wedgeMiss p).run ((all (wedgeOpen s p bits)).run s)).sve.wedgeDone = p :: s.sve.wedgeDone := by rw [wedgeMiss_done, hsame]
  have hrun : (wedgeProg p o o' bits).run s = (wedgeMiss p).run ((all (wedgeOpen s p bits)).run s) := by
    rw [wedgeProg_miss bits hd hdone hl ho, wedgeClose_waits hd hfirst hother (hsight.trans (wedgeMiss_sameSight p _)) hadd]
  rw [hrun]
  exact ⟨rfl, (hopen.mono (by decide) (by decide) id).trans (hmiss.mono (by decide) (by decide) id),
    fun hact => wedgeMiss_offtrack (hsight.active ▸ hact), hadd ▸ List.mem_cons_self⟩
end

end Sys2Proof.Machine
end

section
/-! A wedge in order of a path that tracks, its context disabled, with no write pending and its gates closed. -/
namespace Sys2Proof.Machine

theorem trigger_off {s : State} {k : Nat} (e : Int) (h : s.on SVE_CTX_CFG.ENABLE k = false) : (trigger k e).run s = s := by
  simp only [trigger, Prog.run_ask, Prog.run_when, h, Bool.false_and, Bool.false_eq_true, if_false]

theorem indexFix_other {w : Nat} (hw : w ≠ 0) (s : State) : (indexFix w).run s = s := by
  simp only [indexFix, Prog.run_whenS, beq_eq_false_iff_ne.2 hw, Bool.false_and, Bool.false_eq_true, if_false]

theorem run_all_append (l : List Prog) (q : Prog) (s : State) : (all (l ++ [q])).run s = q.run ((all l).run s) := by
  induction l generalizing s with
  | nil => rfl
  | cons p l ih => exact ih _

theorem ofSigned_lt (w : Nat) (x : Int) : ofSigned w x < 2 ^ w := by
  have hpos : ((2 ^ w : Nat) : Int) > 0 := by exact_mod_cast Nat.two_pow_pos w
  have hlt := Int.emod_lt_of_pos x hpos
  have hnn := Int.emod_nonneg x (ne_of_gt hpos)
  simp only [ofSigned]
  omega

/-- A path's PES is taken for e_V, with its microactuator's term. -/
def pesNoted (p : Nat) (e term : Int) (x : SveState) : SveState := { x with wedgeGot := x.wedgeGot ++ [(p, e, term)], wedgeDone := p :: x.wedgeDone }

/-- The notes of a wedge in order outside MOVE: its register, the PES, the off-track and the settle judgement, the PES for e_V. -/
def goodNotes (p w : Nat) (e : Int) (ok : Bool) (term : Int) : Prog := all [goodShown p w 1, setI SVE_PES.PES p e, judgeOfftrack p e, settleCount p ok,
  .upd (.sve (pesNoted p e term))]

theorem goodShown_among {R : RegName → Prop} {P : Part → Prop} {M : Prop} (p w v : Nat) (hr : R .SVE_WEDGE_STAT) (hs : P .sve) :
    (goodShown p w v).Only (Upd.among R P M) := by
  simp only [goodShown, Only.cons, Only.nil, Only.setF, and_true]
  exact ⟨hr, hr, hs, hr⟩

/-- Registers and components that these notes write with the gates closed. -/
def goodRegs : List RegName := [.SVE_WEDGE_STAT, .SVE_PES, .SVE_SEEK_STAT, .WRC_WUS_STAT, .WRC_RWL_CTL]

theorem judgeOfftrack_shut {s : State} (p : Nat) (e : Int) (h : ∀ w ∈ s.writersOfPath p, s.on WRC_WR_STAT.GATE w = false) :
    ChangesOnly [.WRC_WUS_STAT, .WRC_RWL_CTL] [.wrc] false s ((judgeOfftrack p e).run s) := by
  simp only [judgeOfftrack, Prog.run_ask, Prog.run_when, Prog.run_ite]
  split_ifs
  · exact setOfftrack_shut p true h
  · exact setOfftrack_shut p false h
  · exact ChangesOnly.refl s
  · exact ChangesOnly.refl s

theorem goodNotes_shut {s : State} {p : Nat} (w : Nat) (e : Int) (ok : Bool) (term : Int) (h : ∀ v ∈ s.writersOfPath p, s.on WRC_WR_STAT.GATE v = false) :
    ChangesOnly goodRegs missComps false s ((goodNotes p w e ok term).run s) := by
  have hsve : Part.sve ∈ missComps := by decide
  have hpes : ChangesOnly [.SVE_WEDGE_STAT, .SVE_PES] [.sve] false s ((setI SVE_PES.PES p e).run ((goodShown p w 1).run s)) :=
    (Prog.Only.changesOnly (goodShown_among p w 1 (by decide) (List.mem_singleton.2 rfl)) s).prog
      (by decide : RegName.SVE_PES ∈ [RegName.SVE_WEDGE_STAT, .SVE_PES])
  have hjudge := judgeOfftrack_shut p e ((hpes.sameGates (by decide) (by decide)).shut h)
  simp only [goodNotes, Prog.run_all_cons, Prog.run_all_nil]
  exact (((hpes.mono (by decide) (by decide) id).trans (hjudge.mono (by decide) (by decide) id)).prog
    (settleCount_among p ok (by decide) hsve)).prog hsve

/-- What these notes show. -/
theorem goodNotes_shows (p : Nat) {w : Nat} (e : Int) (ok : Bool) (term : Int) (hw : w < 1024) (s : State) :
    ((goodNotes p w e ok term).run s).get SVE_WEDGE_STAT.VALID p = 1 ∧ ((goodNotes p w e ok term).run s).get SVE_WEDGE_STAT.MISS_CNT p = 0 ∧
    ((goodNotes p w e ok term).run s).get SVE_WEDGE_STAT.WEDGE p = w ∧
    ((goodNotes p w e ok term).run s).get SVE_PES.PES p = ofSigned SVE_PES.PES.width e ∧
    ((goodNotes p w e ok term).run s).get SVE_WEDGE_STAT.MISS_TOT p = s.get SVE_WEDGE_STAT.MISS_TOT p ∧
    ((goodNotes p w e ok term).run s).sve.wedgeDone = p :: s.sve.wedgeDone := by
  have hrun : (goodNotes p w e ok term).run s =
      (Upd.sve (pesNoted p e term)).apply ((all [judgeOfftrack p e, settleCount p ok]).run ((setI SVE_PES.PES p e).run ((goodShown p w 1).run s))) := rfl
  have hrest : (all [judgeOfftrack p e, settleCount p ok]).Only (Upd.among (noneHolds wedgeFields) (fun _ => True) True) :=
    ⟨judgeOfftrack_among p e (by decide) (fun _ _ => trivial) trivial, settleCount_among p ok (by decide) trivial, trivial⟩
  have hkeep := hrest.clearOf.fieldsKept ((setI SVE_PES.PES p e).run ((goodShown p w 1).run s))
  have hdone : (all [goodShown p w 1, setI SVE_PES.PES p e, judgeOfftrack p e, settleCount p ok]).Only (Upd.sveKeeps (·.wedgeDone)) := by
    simp [goodShown, predictNext, judgeOfftrack, settleCount, setSeek, setOfftrack_sveKeeps, Upd.sveKeeps]
  have hstat : FieldsKept statFields ((goodShown p w 1).run s) ((setI SVE_PES.PES p e).run ((goodShown p w 1).run s)) :=
    (Prog.Only.changesOnly (rs := [.SVE_PES]) (ps := []) (m := false) (p := setI SVE_PES.PES p e) (List.mem_singleton.2 rfl) _).fieldsKept (by decide)
  simp only [FieldsKept, wedgeFields, statFields, List.forall_mem_cons] at hkeep hstat
  obtain ⟨hvalid, hcnt, htot, hwedge, hpes, -⟩ := hkeep
  obtain ⟨svalid, scnt, stot, swedge, -⟩ := hstat
  obtain ⟨gcnt, gwedge, gvalid, gtot⟩ := goodShown_shows p hw (by decide : 1 < 2) s
  simp only [hrun, Upd.apply_get _ _ (Upd.onRegs_sve _), hvalid, hcnt, htot, hwedge, hpes, svalid, scnt, stot, swedge, gcnt, gwedge, gvalid, gtot, true_and]
  refine ⟨?_, congrArg (p :: ·) (hdone.sveKeeps s)⟩
  rw [Prog.run_setI, State.get_fld_self _ _ _ _ (by decide)]
  exact Nat.mod_eq_of_lt (ofSigned_lt _ _)

/-- Behind its notes a wedge in order, its context disabled and its number not 0, adds to the drift observation alone. -/
theorem wedgeGood_calm {s : State} {p : Nat} {o : WedgeObs} (hk : s.seekSub (p / 4) ≠ skMove) (hw : o.wedge.val ≠ 0) (he : s.on SVE_CTX_CFG.ENABLE p = false) :
    (wedgeGood p o).run s =
      (driftWedge p false).run ((goodNotes p o.wedge.val (s.wedgeError p o) (s.settleOk p (s.wedgeError p o)) (s.maTerm p)).run s) := by
  have hnotes : (goodNotes p o.wedge.val (s.wedgeError p o) (s.settleOk p (s.wedgeError p o)) (s.maTerm p)).Only
      (Upd.among (· ≠ .SVE_CTX_CFG) (fun _ => True) True) := by
    simp only [goodNotes, Only.cons, Only.nil, Only.upd, Only.setI, and_true]
    exact ⟨goodShown_among _ _ _ (by decide) trivial, (by decide : RegName.SVE_PES ≠ .SVE_CTX_CFG),
      judgeOfftrack_among p _ (by decide) (fun _ _ => trivial) trivial, settleCount_among p _ (by decide) trivial, trivial⟩
  have hoff : ((goodNotes p o.wedge.val (s.wedgeError p o) (s.settleOk p (s.wedgeError p o)) (s.maTerm p)).run s).on SVE_CTX_CFG.ENABLE p = false := by
    simpa only [State.on, hnotes.get (f := SVE_CTX_CFG.ENABLE)] using he
  have hrun : (wedgeGood p o).run s = (driftWedge p (o.wedge.val == 0)).run ((trigger p (s.wedgeError p o)).run
      ((goodNotes p o.wedge.val (s.wedgeError p o) (s.settleOk p (s.wedgeError p o)) (s.maTerm p)).run s)) := wedgeGood_run hk
  rw [hrun, trigger_off _ hoff, beq_eq_false_iff_ne.2 hw]

theorem driftWedge_between {R : RegName → Prop} {P : Part → Prop} {M : Prop} (p : Nat) (hs : P .sve) : (driftWedge p false).Only (Upd.among R P M) := by
  simp only [driftWedge, Only.ask, Only.ite, Only.skip, Only.upd, Bool.false_eq_true, false_and, false_imp_iff, implies_true, true_and]
  exact fun _ _ _ => hs

theorem goodNotes_sameSight (p w : Nat) (e : Int) (ok : Bool) (term : Int) (s : State) : SameSight s ((goodNotes p w e ok term).run s) := by
  have hstat : noneHolds demodFields .SVE_WEDGE_STAT := by decide
  have hpes : noneHolds demodFields .SVE_PES := by decide
  refine SameSight.of_run ?_ ?_ ?_ s <;> simp only [goodNotes, Only.cons, Only.nil, Only.upd, Only.setI, and_true]
  · refine ⟨?_, trivial, ?_, settleCount_sight p ok, fun _ => rfl⟩
    · simp only [goodShown, predictNext, Only.cons, Only.nil, Only.setF, Only.upd, and_true]
      exact ⟨trivial, trivial, fun _ => rfl, trivial⟩
    · simp [judgeOfftrack, setOfftrack_sveKeeps]
  · exact ⟨(goodShown_among (P := fun _ => True) (M := True) p w 1 hstat trivial).clearOf, fun g hg => .inl (hpes g hg),
      (judgeOfftrack_among (P := fun _ => True) p e (by decide) (fun _ _ => trivial) trivial).clearOf, settleCount_clear p ok, trivial⟩
  · exact ⟨goodShown_among _ _ _ (by decide) trivial, (by decide : RegName.SVE_PES ≠ .SVE_SLOT_MAP),
      judgeOfftrack_among p _ (by decide) (fun _ _ => trivial) trivial, settleCount_among p _ (by decide) trivial, trivial⟩

/-- What an opening with nothing pending leaves of what judges a wedge. -/
theorem wedgeOk_same {s t : State} {p : Nat} {x : WedgeObs} (hc : ChangesOnly openRegs openComps false s t) (hsight : SameSight s t)
    (hpred : t.sve.wedgePred = s.sve.wedgePred) : t.wedgeOk p x = s.wedgeOk p x ∧ t.wedgeError p x = s.wedgeError p x := by
  have hget := hc.fieldsKept (fs := [SVE_TRAJ_GAIN.SEEK_WIN, SVE_SV_CFG.TRK_WIN, SVE_SV_CFG.SAM_WIN, SVE_SV_CFG.AMP_MIN, SVE_SV_CFG.RRO_EN]) (by decide)
  simp only [FieldsKept, List.forall_mem_cons] at hget
  obtain ⟨hseekWin, htrkWin, hsam, hamp, hrro, -⟩ := hget
  have href : (t.seek (p / 4)).yRef = (s.seek (p / 4)).yRef := (congrArg Seek.yRef (hsight.seek (p / 4)) :)
  have hyT : (t.seek (p / 4)).yT = (s.seek (p / 4)).yT := (congrArg Seek.yT (hsight.seek (p / 4)) :)
  have hphys : t.physTarget p = s.physTarget p := by simp only [State.physTarget, href, hyT, hsight.tgt]
  constructor
  · simp only [State.wedgeOk, hsight.seekSub, hpred, hphys, hseekWin, htrkWin, hsam, hamp]
  · simp only [State.wedgeError, State.on, hphys, hsight.tgt, hrro]

section
variable {s : State} {p : Nat} (bits : List BitObs) (hk : s.seekSub (p / 4) = skTracking) (hr : p ∉ s.rdc.sector)
  (hfirst : ∀ q ∈ s.sve.wedgeDone, q / 4 ≠ p / 4)
include hk hr hfirst

/-- A wedge in order of a path that tracks, its context disabled, with nothing pending, its gates closed and another path of the actuator to come. -/
theorem wedgeProg_good_calm {o o' : Option WedgeObs} {x : WedgeObs} (hd : s.demodulates p = true) (hl : s.get SVE_SEEK_STAT.STATE (p / 4) ≠ skLoading)
    (ho : (if s.servoLane p = 2 * p then o else o') = some x) (hw : s.rdc.pend = []) (hn : s.rdc.npPend = []) (hlose : s.rdc.losing = [])
    (hother : s.demodPaths (p / 4) ≠ [p]) (hg : ∀ w ∈ s.writersOfPath p, s.on WRC_WR_STAT.GATE w = false) (hok : s.wedgeOk p x = true)
    (hx : x.wedge.val ≠ 0) (he : s.on SVE_CTX_CFG.ENABLE p = false) :
    ChangesOnly (openRegs ++ goodRegs) (openComps ++ missComps) false s ((wedgeProg p o o' bits).run s) ∧
    ((wedgeProg p o o' bits).run s).get SVE_WEDGE_STAT.VALID p = 1 ∧ ((wedgeProg p o o' bits).run s).get SVE_WEDGE_STAT.MISS_CNT p = 0 ∧
    ((wedgeProg p o o' bits).run s).get SVE_WEDGE_STAT.WEDGE p = x.wedge.val ∧
    ((wedgeProg p o o' bits).run s).get SVE_PES.PES p = ofSigned SVE_PES.PES.width (s.wedgeError p x) ∧
    ((wedgeProg p o o' bits).run s).get SVE_WEDGE_STAT.MISS_TOT p = s.get SVE_WEDGE_STAT.MISS_TOT p ∧ p ∈ ((wedgeProg p o o' bits).run s).sve.wedgeDone := by
  have hdone : p ∉ s.sve.wedgeDone := fun h => hfirst p h rfl
  obtain ⟨hopen, hsight, hsame, hpred⟩ := wedgeOpen_calm bits hk hr hfirst hw hn hlose
  obtain ⟨huok, huerr⟩ := wedgeOk_same (p := p) (x := x) hopen hsight hpred
  have hopened : (all (wedgeOpen s p bits ++ [indexFix x.wedge.val])).run s = (all (wedgeOpen s p bits)).run s := by
    rw [run_all_append, indexFix_other hx]
  have hrun := wedgeProg_found bits hd hdone hl ho
  rw [hopened] at hrun
  generalize (all (wedgeOpen s p bits)).run s = u at *
  have hku : u.seekSub (p / 4) ≠ skMove := by
    rw [hsight.seekSub, hk]
    decide
  have heu : u.on SVE_CTX_CFG.ENABLE p = false := by
    simpa only [State.on, hopen.fieldsKept (fs := [SVE_CTX_CFG.ENABLE]) (by decide) _ (List.mem_singleton.2 rfl)] using he
  have hnotes := goodNotes_shut (p := p) x.wedge.val (s.wedgeError p x) (u.settleOk p (s.wedgeError p x)) (u.maTerm p)
    ((hopen.sameGates (by decide) (by decide)).shut hg)
  obtain ⟨nvalid, ncnt, nwedge, npes, ntot, ndone⟩ := goodNotes_shows p (s.wedgeError p x) (u.settleOk p (s.wedgeError p x)) (u.maTerm p) x.wedge.isLt u
  have hnsight := goodNotes_sameSight p x.wedge.val (s.wedgeError p x) (u.settleOk p (s.wedgeError p x)) (u.maTerm p) u
  have hjudge : (wedgeJudge p x).run u = (driftWedge p false).run
      ((goodNotes p x.wedge.val (s.wedgeError p x) (u.settleOk p (s.wedgeError p x)) (u.maTerm p)).run u) := by
    rw [wedgeJudge, Prog.run_ask, if_pos (huok.trans hok), wedgeGood_calm hku hx heu, huerr]
  rw [hjudge] at hrun
  generalize (goodNotes p x.wedge.val (s.wedgeError p x) (u.settleOk p (s.wedgeError p x)) (u.maTerm p)).run u = v at *
  have hdrift : ∀ f : Fld, ((driftWedge p false).run v).get f p = v.get f p := fun f =>
    (driftWedge_between (R := (· ≠ f.reg)) (P := fun _ => True) (M := True) p trivial).get v p
  have hdsight : SameSight v ((driftWedge p false).run v) := SameSight.of_run (driftWedge_sight p false)
    (driftWedge_between (R := noneHolds demodFields) (P := fun _ => True) (M := True) p trivial).clearOf (driftWedge_between p trivial) v
  have hddone : ((driftWedge p false).run v).sve.wedgeDone = p :: s.sve.wedgeDone := by
    rw [Prog.Only.sveKeeps (g := (·.wedgeDone)) ?_ v, ndone, hsame]
    simp [driftWedge, Upd.sveKeeps]
  rw [hrun, wedgeClose_waits hd hfirst hother ((hsight.trans hnsight).trans hdsight) hddone, hddone]
  simp only [hdrift, nvalid, ncnt, nwedge, npes, ntot, List.mem_cons_self, true_and, and_true]
  exact ⟨((hopen.mono (by decide) (by decide) id).trans (hnotes.mono (by decide) (by decide) id)).prog (driftWedge_between p (by decide)),
    hopen.fieldsKept (fs := [SVE_WEDGE_STAT.MISS_TOT]) (by decide) _ (List.mem_singleton.2 rfl) p⟩
end

end Sys2Proof.Machine
end

section
/-! The formation of e_V on an arm that tracks, its position loop disabled. -/
namespace Sys2Proof.Machine

/-- Nothing changes but what the formation of e_V shows, and the sub-state of the arm's seek is the same. -/
def EvShown (a : Nat) (s t : State) : Prop := ChangesOnly [.SVE_ACT_STAT, .SVE_NOTCH_STAT] [.sve] false s t ∧ (t.seek a).sub = (s.seek a).sub

theorem EvShown.trans {a : Nat} {s t u : State} (h : EvShown a s t) (k : EvShown a t u) : EvShown a s u := ⟨h.1.trans k.1, k.2.trans h.2⟩

theorem EvShown.of_run {a : Nat} {p : Prog} (ho : p.Only (Upd.among (· ∈ [.SVE_ACT_STAT, .SVE_NOTCH_STAT]) (· ∈ [.sve]) (false = true)))
    (hk : p.Only (Upd.sveKeeps fun x => (Sparse.get {} x.seek a).sub)) (s : State) : EvShown a s (p.run s) :=
  ⟨ho.changesOnly s, hk.sveKeeps s⟩

theorem EvShown.seekSub {a : Nat} {s t : State} (h : EvShown a s t) : t.seekSub a = s.seekSub a := by
  have hst := h.1.fieldsKept (fs := [SVE_SEEK_STAT.STATE]) (by decide) _ (List.mem_singleton.2 rfl)
  simp only [State.seekSub, hst, h.2]

theorem EvShown.enable {a k : Nat} {s t : State} (h : EvShown a s t) : t.on SVE_CTX_CFG.ENABLE k = s.on SVE_CTX_CFG.ENABLE k := by
  simp only [State.on, h.1.fieldsKept (fs := [SVE_CTX_CFG.ENABLE]) (by decide) _ (List.mem_singleton.2 rfl)]

theorem settleCheck_off {s : State} {a : Nat} (h : s.seekSub a ≠ skSettle) : (settleCheck a).run s = s := by
  simp only [settleCheck, Prog.run_ask, Prog.run_when, beq_eq_false_iff_ne.2 h, Bool.false_and, Bool.false_eq_true, if_false]

theorem EvShown.prog {a : Nat} {s t : State} {p : Prog} (h : EvShown a s t)
    (ho : p.Only (Upd.among (· ∈ [.SVE_ACT_STAT, .SVE_NOTCH_STAT]) (· ∈ [.sve]) (false = true)))
    (hk : p.Only (Upd.sveKeeps fun x => (Sparse.get {} x.seek a).sub)) : EvShown a s (p.run t) := h.trans (EvShown.of_run ho hk t)

theorem EvShown.when {a : Nat} {s t : State} {c : Bool} {p : Prog} (h : EvShown a s t) (hp : c = true → EvShown a s (p.run t)) :
    EvShown a s ((when c p).run t) := by
  cases c with
  | false => exact h
  | true => exact hp rfl

/-- The measured position and the notch trackers are no part of the seek's sub-state. -/
theorem EvShown.yMeas {a : Nat} {s t : State} (h : EvShown a s t) (y : Int) : EvShown a s ((setSeek a fun k => { k with yMeas := y }).run t) :=
  h.prog (List.mem_singleton.2 rfl) fun x => by simp only [Sparse.get_put_self]

theorem EvShown.notches {a : Nat} {s t : State} (h : EvShown a s t) (l : List Nat) (e : Int) (zero : Bool) :
    EvShown a s ((each l fun r => notchWedge a r e zero).run t) :=
  h.prog ((Only.each _ _ _).2 fun r _ => notchWedge_among a r e zero (by decide) (List.mem_singleton.2 rfl))
    ((Only.each _ _ _).2 fun r _ => by simp [notchWedge, Upd.sveKeeps])

/-- On an arm that tracks with its position loop disabled, the formation of e_V shows N_PES and the notch trackers alone. -/
theorem evForm_shown {s : State} {a : Nat} (hk : s.seekSub a = skTracking) (he : s.on SVE_CTX_CFG.ENABLE (16 + a) = false) : EvShown a s ((evForm a).run s) := by
  have hmove : (skTracking == skMove) = false := by decide
  have hsettled : ∀ t, EvShown a s t → EvShown a s ((settleCheck a).run t) := fun t ht => by
    rwa [settleCheck_off (by rw [ht.seekSub, hk]; decide)]
  have htrigger : ∀ t e, EvShown a s t → EvShown a s ((trigger (16 + a) e).run t) := fun t e ht => by
    rwa [trigger_off e (ht.enable.trans he)]
  have hpes : EvShown a s ((setF SVE_ACT_STAT.N_PES a (s.sve.wedgeGot.filter fun e => e.1 / 4 == a).length).run s) :=
    EvShown.of_run (p := setF SVE_ACT_STAT.N_PES a _) (List.mem_cons_self : RegName.SVE_ACT_STAT ∈ [RegName.SVE_ACT_STAT, .SVE_NOTCH_STAT]) trivial s
  have hended : ∀ f : SveState → SveState, (∀ x, (f x).seek = x.seek) →
      EvShown a s ((Prog.upd (.sve f)).run ((setF SVE_ACT_STAT.N_PES a (s.sve.wedgeGot.filter fun e => e.1 / 4 == a).length).run s)) := fun f hf =>
    EvShown.prog (p := .upd (.sve f)) hpes (List.mem_singleton.2 rfl) fun x => by simp only [hf]
  simp only [evForm, Prog.run_ask, hk, hmove, Bool.false_and, Prog.run_all_cons, Prog.run_all_nil]
  refine hsettled _ (EvShown.when ?still fun _ => EvShown.notches (htrigger _ _ (EvShown.yMeas ?still _)) _ _ _)
  exact EvShown.when (hended _ fun _ => rfl) nofun

/-! The formation of e_V at SKEW_MAX with one path of the actuator, still pending. -/

theorem pendingMiss_one {s : State} {a p : Nat} (hp : s.demodPaths a = [p]) (hn : p ∉ s.sve.wedgeDone) :
    (pendingMiss s a).run s = (wedgeMiss p).run ((rdcBoundary p).run s) := by
  have hpend : (!s.sve.wedgeDone.contains p) = true := by simpa using hn
  simp only [pendingMiss, hp, List.filter_cons, hpend, if_true, List.filter_nil, Prog.run_each_cons, Prog.run_each_nil, Prog.run_seq]

/-- A path that does not track misses the wedge; N_PES and the notch trackers are shown, and nothing else changes. -/
theorem evFormation_calm {s : State} {a p : Nat} (hp : s.demodPaths a = [p]) (hany : (s.sve.wedgeDone.any fun q => q / 4 == a) = true)
    (hn : p ∉ s.sve.wedgeDone) (hact : p ∉ s.sve.active) (hk : s.seekSub a = skTracking) (he : s.on SVE_CTX_CFG.ENABLE (16 + a) = false)
    (hw : s.rdc.pend = []) (hnp : s.rdc.npPend = []) (hl : s.rdc.losing = []) :
    ChangesOnly [.SVE_WEDGE_STAT, .SVE_ACT_STAT, .SVE_NOTCH_STAT, .SVE_SEEK_STAT, .RDC_HP_STAT] [.sve, .rdc] false s ((evFormationProg a).run s) ∧
    ((evFormationProg a).run s).get SVE_WEDGE_STAT.VALID p = 0 ∧
    ((evFormationProg a).run s).get SVE_WEDGE_STAT.MISS_TOT p = satAdd (s.get SVE_WEDGE_STAT.MISS_TOT p) 1 (2 ^ SVE_WEDGE_STAT.MISS_TOT.width - 1) := by
  obtain ⟨hb, hbsight⟩ := rdcBoundary_calm p hw hnp hl
  have hm := wedgeMiss_inactive (p := p) (hbsight.active ▸ hact)
  have hsight := hbsight.trans (wedgeMiss_sameSight p _)
  have hen := (hb.fieldsKept (fs := [SVE_CTX_CFG.ENABLE]) (by decide)).trans (hm.fieldsKept (by decide)) _ (List.mem_singleton.2 rfl)
  obtain ⟨hev, -⟩ := evForm_shown (a := a) (hsight.seekSub a ▸ hk) (by simpa only [State.on, hen] using he)
  have hbtot := hb.fieldsKept (fs := [SVE_WEDGE_STAT.MISS_TOT]) (by decide) _ (List.mem_singleton.2 rfl)
  have hevstat := hev.fieldsKept (fs := statFields) (by decide)
  simp only [FieldsKept, statFields, List.forall_mem_cons] at hevstat
  obtain ⟨evalid, -, etot, -⟩ := hevstat
  obtain ⟨mvalid, -, mtot, -⟩ := wedgeMiss_shows p ((rdcBoundary p).run s)
  rw [evFormationProg_run hany, pendingMiss_one hp hn, evalid, etot, mvalid, mtot, hbtot]
  exact ⟨((hb.mono (by decide) (by decide) id).trans (hm.mono (by decide) (by decide) id)).trans (hev.mono (by decide) (by decide) id), rfl, rfl⟩

end Sys2Proof.Machine
end

section
/-! Wedges, missing wedges, loss of servo and the drift log: the statement. -/
namespace Sys2Proof.Machine

theorem missRemovalProg_run {p : Nat} {s : State} (ha : p ∈ s.sve.active) (hm : max 1 (s.get SVE_SV_CFG.MISS_N 0) ≤ s.get SVE_WEDGE_STAT.MISS_CNT p) :
    (missRemovalProg p).run s = (removePath p).run s := by
  simp only [missRemovalProg, Prog.run_whenS, List.contains_eq_mem, decide_eq_true ha, decide_eq_true hm, Bool.and_self, if_true]

theorem clampRemovalProg_run {p : Nat} {s : State} (ha : p ∈ s.sve.active) (hc : 8 ≤ s.get SVE_CTX_STAT.CLAMP_CNT p)
    (hk : s.get SVE_SEEK_STAT.STATE (p / 4) = skTracking) : (clampRemovalProg p).run s = (removePath p).run s := by
  simp only [clampRemovalProg, Prog.run_whenS, List.contains_eq_mem, decide_eq_true ha, decide_eq_true hc, hk, beq_self_eq_true, Bool.and_self, if_true]

/-- Settles O37: a wedge is opened, judged and closed; its register is written by the judgement alone (`Fld.aside`), where other paths are still to come the
close waits, and what an event does in normal service stays in FCU. -/
theorem servoWedges : Obligations.ServoWedges := by
  unfold Obligations.ServoWedges
  refine ⟨fun s p hd _ hl hfirst hk hw hn hlose hother hr hg => ?_, fun s p o o' bits hd hn hl ho hs => ?_, fun s p o o' bits x hd hn hl ho hs hok => ?_,
    fun s p o o' bits hd hn hl ho => ?_, fun s p x hd _ hl hfirst hk hw hn hlose hother hr hok hx he hg => ?_, fun s p ha hm _ => ?_, fun s p ha hm _ => ?_,
    fun s p ha hc hk _ => ?_, fun s a hl hm hs => ?_, fun s a hl hm hq => ?_, fun s a hany => ?_, fun s a p hp hany hn hact hk he hw hnp hl => ?_,
    fun s m kind h band obs mb l hlog hlen => ⟨_, rfl, driftRead_oldest m hlog hlen⟩, fun s m hlog => ⟨_, rfl, driftRead_empty m hlog⟩⟩
  · obtain ⟨hrun, hchange, hoff, hdone⟩ := wedgeProg_miss_calm [] hk hr hfirst hd hl (by simp) hw hn hlose hother hg (o := none) (o' := none)
    have hopen := (wedgeOpen_calm [] hk hr hfirst hw hn hlose).1.fieldsKept (fs := wedgeFields) (by decide)
    obtain ⟨mvalid, mcnt, mtot, mpes⟩ := wedgeMiss_shows p ((all (wedgeOpen s p [])).run s)
    simp only [FieldsKept, wedgeFields, List.forall_mem_cons] at hopen
    obtain ⟨-, ocnt, otot, -, opes, -⟩ := hopen
    refine ⟨_, rfl, hchange.mono (by decide) (by decide) id, ?_, ?_, ?_, hoff, hdone, ?_⟩
    · rw [hrun, mvalid]
    · rw [hrun, mcnt, ocnt]
    · rw [hrun, mtot, otot]
    · rw [hrun, mpes, opes]
  · exact ⟨_, rfl, wedgeProg_miss_shows bits hd hn hl hs ho⟩
  · exact ⟨_, rfl, wedgeProg_good_shows bits hd hn hl hs ho hok⟩
  · refine ⟨_, rfl, ?_⟩
    rw [wedgeProg_loading bits hd hn hl, ho]
    exact loadWedge_none p hl
  · obtain ⟨hchange, hshows⟩ := wedgeProg_good_calm [] hk hr hfirst hd hl (by simp) hw hn hlose hother hg hok hx he (o := some x) (o' := some x)
    exact ⟨_, rfl, hchange.mono (by decide) (by decide) id, hshows⟩
  · refine ⟨_, rfl, ?_⟩
    rw [missRemovalProg_run ha hm]
    exact removePath_removes ha
  · refine ⟨_, rfl, ?_⟩
    rw [missRemovalProg_run ha hm]
    obtain ⟨hactive, hoff, htrig, -⟩ := removePath_removes ha
    exact ⟨removePath_changes p s, hactive, hoff, htrig⟩
  · refine ⟨_, rfl, ?_⟩
    rw [clampRemovalProg_run ha hc hk]
    exact ⟨removePath_changes p s, removePath_removes ha⟩
  · refine ⟨_, rfl, servoLoss_inService hl hm hs, ?_⟩
    rw [servoLossProg_run hl hm]
    exact lossFollows_stops a _
  · obtain ⟨hchange, hloss, hcount⟩ := servoLoss_quiet hl hm hq
    obtain ⟨hpos, hcur, hretract, hoff, hpass⟩ := lossFollows_stops a ((raise (216 + a) (detail a)).run ((setF SVE_ACT_STAT.SV_LOSS a 1).run s))
    rw [← servoLossProg_run hl hm] at hpos hcur hretract hoff hpass
    exact ⟨_, rfl, hchange.mono (by decide) (by decide) id, hloss, hpos, hcur, hretract, hoff, hpass, hcount⟩
  · have hends := evForm_ends a ((pendingMiss s a).run s)
    rw [← evFormationProg_run hany] at hends
    exact ⟨_, rfl, hends.1, hends.2, evFormation_nPes hany⟩
  · obtain ⟨hchange, hvalid, htot⟩ := evFormation_calm hp hany hn hact hk he hw hnp hl
    exact ⟨_, rfl, hchange, hvalid, htot⟩

end Sys2Proof.Machine
end

section
/-! Single-reader force, retry orders, history counters and noise-predictor words (R104, R126, R127, R136, R148). -/
namespace Sys2Proof.Machine

/-- What every element's step keeps, a pass over the list keeps. -/
theorem each_keeps {α : Type} {Q : State → Prop} {f : α → Prog} {l : List α} (hk : ∀ y ∈ l, ∀ s, Q s → Q ((f y).run s)) {s : State} (hs : Q s) :
    Q ((each l f).run s) := by
  induction l generalizing s with
  | nil => exact hs
  | cons y l ih => exact ih (fun z hz => hk z (List.mem_cons_of_mem _ hz)) (hk y List.mem_cons_self s hs)

/-- What one element's step establishes and every other's keeps, a pass over the list establishes. -/
theorem each_establishes {α : Type} {Q : State → Prop} {f : α → Prog} {x : α} {l : List α} (hx : ∀ s, Q ((f x).run s))
    (hk : ∀ y ∈ l, y ≠ x → ∀ s, Q s → Q ((f y).run s)) (h : x ∈ l) (s : State) : Q ((each l f).run s) := by
  induction l generalizing s with
  | nil => exact absurd h (by simp)
  | cons y l ih =>
    rw [Prog.run_each_cons]
    rcases List.mem_cons.1 h with rfl | h
    · refine each_keeps (fun z hz t ht => ?_) (hx s)
      by_cases hzx : z = x
      · exact hzx ▸ hx t
      · exact hk z (List.mem_cons_of_mem _ hz) hzx t ht
    · exact ih (fun z hz => hk z (List.mem_cons_of_mem _ hz)) h _

/-- The registers of a head as a snapshot of its counters `c` leaves them, each count within its field (R147, R148). -/
def HistoryShown (c : Nat → Nat) (h : Nat) (t : State) : Prop :=
  t.get RDC_HST_SECT.COUNT h = c 0 % 2 ^ 64 ∧ t.get RDC_HST_SYNC.COUNT h = c 1 % 2 ^ 32 ∧ t.get RDC_HST_FAIL.COUNT h = c 2 % 2 ^ 32 ∧
  t.get RDC_HST_FLIP.COUNT h = c 3 % 2 ^ 64 ∧ t.get RDC_HST_HOFF.COUNT h = c 4 % 2 ^ 32 ∧ t.get RDC_HST_UNREC.COUNT h = c 5 % 2 ^ 32 ∧
  ∀ l < 8, t.get RDC_HST_REC.COUNT (8 * h + l) = c (8 + l) % 2 ^ 32

/-- The registers that show a head. -/
def historyRegs (h : Nat) : List (RegName × Nat) :=
  [(.RDC_HST_SECT, h), (.RDC_HST_SYNC, h), (.RDC_HST_FAIL, h), (.RDC_HST_FLIP, h), (.RDC_HST_HOFF, h), (.RDC_HST_UNREC, h)] ++
    (List.range 8).map fun l => (.RDC_HST_REC, 8 * h + l)

/-- The snapshot of one head, its recoveries last. -/
def recoverySnap (c : Nat → Nat) (h : Nat) : Prog := each (List.range 8) fun l => setF RDC_HST_REC.COUNT (8 * h + l) (c (8 + l))
def historySnap (c : Nat → Nat) (h : Nat) : Prog := all [
  setF RDC_HST_SECT.COUNT h (c 0), setF RDC_HST_SYNC.COUNT h (c 1), setF RDC_HST_FAIL.COUNT h (c 2), setF RDC_HST_FLIP.COUNT h (c 3),
  setF RDC_HST_HOFF.COUNT h (c 4), setF RDC_HST_UNREC.COUNT h (c 5), recoverySnap c h]

/-- The counters of one moment, head by head. -/
theorem hstSnapProg_run (s : State) :
    hstSnapProg.run s = (each (List.range 24) fun h => historySnap (fun k => Sparse.get 0 s.rdc.hst (hstKey h k)) h).run s := by
  simp only [hstSnapProg, historySnap, recoverySnap, Prog.run_ask]

theorem historySnap_within (c : Nat → Nat) (h : Nat) : (historySnap c h).Only (Upd.within (historyRegs h) [] []) := by
  simp only [historySnap, recoverySnap, Only.cons, Only.nil, Only.setF, Only.each, Upd.within, historyRegs]
  simp [RDC_HST_SECT.COUNT, RDC_HST_SYNC.COUNT, RDC_HST_FAIL.COUNT, RDC_HST_FLIP.COUNT, RDC_HST_HOFF.COUNT, RDC_HST_UNREC.COUNT, RDC_HST_REC.COUNT]

theorem recoverySnap_get (c : Nat → Nat) (h : Nat) (f : Fld) (j : Nat) (hf : f.reg ≠ .RDC_HST_REC) (s : State) :
    ((recoverySnap c h).run s).get f j = s.get f j := by
  refine Prog.Only.get ?_ s j
  simp only [recoverySnap, Only.each, Only.setF]
  exact fun _ _ => hf.symm

theorem recoverySnap_shows (c : Nat → Nat) (h : Nat) {l : Nat} (hl : l < 8) (s : State) :
    ((recoverySnap c h).run s).get RDC_HST_REC.COUNT (8 * h + l) = c (8 + l) % 2 ^ 32 := by
  refine each_establishes (Q := fun t => t.get RDC_HST_REC.COUNT (8 * h + l) = c (8 + l) % 2 ^ 32) (fun t => ?_) (fun y _ hy t ht => ?_) (List.mem_range.2 hl) s
  · exact State.get_fld_self t RDC_HST_REC.COUNT _ _ (by decide)
  · rw [Prog.run_setF, State.get_fld_ne _ _ _ _ _ _ (.inr (.inl (by omega))), ht]

theorem historySnap_shows (c : Nat → Nat) (h : Nat) (s : State) : HistoryShown c h ((historySnap c h).run s) := by
  simp only [historySnap, Prog.run_all_cons, Prog.run_all_nil, Prog.run_setF]
  refine ⟨?_, ?_, ?_, ?_, ?_, ?_, fun l hl => recoverySnap_shows c h hl _⟩ <;> rw [recoverySnap_get c h _ h (by decide)] <;>
    simp (disch := decide) only [State.get_fld_reg, State.get_fld_self] <;> rfl

/-- The snapshot of another head leaves it. -/
theorem HistoryShown.other {c : Nat → Nat} {h h' : Nat} {s t : State} (hs : HistoryShown c h s) (hne : h ≠ h')
    (hu : Unchanged (historyRegs h') [] [] s t) : HistoryShown c h t := by
  have hone : ∀ f : Fld, f.reg ≠ .RDC_HST_REC → t.get f h = s.get f h := fun f hf => hu.get f h (by simp [historyRegs, hne, hf.symm])
  have hrec : ∀ l < 8, t.get RDC_HST_REC.COUNT (8 * h + l) = s.get RDC_HST_REC.COUNT (8 * h + l) := fun l hl =>
    hu.get _ _ (by simp [historyRegs, RDC_HST_REC.COUNT]; omega)
  obtain ⟨h0, h1, h2, h3, h4, h5, h6⟩ := hs
  exact ⟨(hone _ (by decide)).trans h0, (hone _ (by decide)).trans h1, (hone _ (by decide)).trans h2, (hone _ (by decide)).trans h3,
    (hone _ (by decide)).trans h4, (hone _ (by decide)).trans h5, fun l hl => (hrec l hl).trans (h6 l hl)⟩

theorem hstSnapProg_shows {h : Nat} (hh : h < 24) (s : State) :
    HistoryShown (fun k => Sparse.get 0 s.rdc.hst (hstKey h k)) h (hstSnapProg.run s) := by
  rw [hstSnapProg_run]
  exact each_establishes (Q := HistoryShown (fun k => Sparse.get 0 s.rdc.hst (hstKey h k)) h) (x := h)
    (f := fun h => historySnap (fun k => Sparse.get 0 s.rdc.hst (hstKey h k)) h) (fun t => historySnap_shows _ h t)
    (fun y _ hy t ht => ht.other hy.symm ((historySnap_within _ y).unchanged t)) (List.mem_range.2 hh) s

theorem hstSnapProg_among {R : RegName → Prop} {P : Part → Prop} {M : Prop}
    (hr : ∀ r ∈ [RegName.RDC_HST_SECT, .RDC_HST_SYNC, .RDC_HST_FAIL, .RDC_HST_FLIP, .RDC_HST_HOFF, .RDC_HST_UNREC, .RDC_HST_REC], R r) :
    hstSnapProg.Only (Upd.among R P M) := by
  simp only [hstSnapProg, Only.ask, Only.each, Only.cons, Only.nil, Only.setF, and_true]
  exact fun _ _ _ => ⟨hr .RDC_HST_SECT (by decide), hr .RDC_HST_SYNC (by decide), hr .RDC_HST_FAIL (by decide), hr .RDC_HST_FLIP (by decide),
    hr .RDC_HST_HOFF (by decide), hr .RDC_HST_UNREC (by decide), fun _ _ => hr .RDC_HST_REC (by decide)⟩

/-! The words of the noise predictors (R126, R127, Table 4.7). -/

/-- The value that a write of word `i` stores: a variance is 16 at least. -/
def npStored (i v : Nat) : Nat := if i % 8 = 5 then max 16 v else v

theorem npPut_within (v : Nat) : (npPut v).Only (Upd.within [] [.rdc] []) := by
  simp [npPut, setNp, Upd.within]

/-- The write of a word on a path that is not ACTIVE is in use at once. -/
theorem npPut_stores {s : State} (v : Nat) (hr : npReserved s.npAddr = false) (hp : s.hpPwr (s.npAddr / 2048) ≠ pwActive) :
    ((npPut v).run s).npWord s.npAddr = npStored s.npAddr v := by
  simp only [npPut, setNp, Prog.run_ask, Prog.run_when, hr, Bool.not_false, if_true, Prog.run_seq, Prog.run_upd, if_neg hp, State.npWord, Upd.apply_rdc,
    Sparse.get_put_self]
  rfl

/-- On an ACTIVE path it waits, the word in use as it was. -/
theorem npPut_waits {s : State} (v : Nat) (hr : npReserved s.npAddr = false) (hp : s.hpPwr (s.npAddr / 2048) = pwActive) :
    ((npPut v).run s).npWord s.npAddr = s.npWord s.npAddr ∧ (s.npAddr, npStored s.npAddr v) ∈ ((npPut v).run s).rdc.npPend := by
  simp [npPut, hr, hp, State.npWord, npStored]

theorem npAdvance_within : npAdvance.Only (Upd.within [(.RDC_NP_ADDR, 0)] [] []) := by
  simp [npAdvance, Upd.within, RDC_NP_ADDR.WORD]

theorem npAdvance_word (s : State) : (npAdvance.run s).get RDC_NP_ADDR.WORD 0 =
    if s.on RDC_NP_ADDR.AUTOINC 0 then (s.get RDC_NP_ADDR.WORD 0 + 1) % 256 else s.get RDC_NP_ADDR.WORD 0 := by
  simp only [npAdvance, Prog.run_ask, Prog.run_when, Prog.run_setF]
  split
  · rw [State.get_fld_self _ _ _ _ (by decide)]
    exact Nat.mod_mod _ 256
  · rfl

theorem npAdvance_rdc (s : State) : (npAdvance.run s).rdc = s.rdc := (npAdvance_within.unchanged s).2.1 .rdc (by simp)

/-- A write behind which the word number advances. -/
theorem npDataProg_write (m : Master) (v : Nat) (s : State) :
    Unchanged [(.RDC_NP_ADDR, 0)] [.rdc] [] s ((npDataProg m (some v)).run s) ∧ ((npDataProg m (some v)).run s).rdc = ((npPut v).run s).rdc ∧
      ((npDataProg m (some v)).run s).get RDC_NP_ADDR.WORD 0 =
        if s.on RDC_NP_ADDR.AUTOINC 0 then (s.get RDC_NP_ADDR.WORD 0 + 1) % 256 else s.get RDC_NP_ADDR.WORD 0 := by
  have hput := (npPut_within v).unchanged s
  refine ⟨?_, npAdvance_rdc _, ?_⟩
  · exact (hput.mono (by simp) (by simp) (by simp)).trans ((npAdvance_within.unchanged _).mono (by simp) (by simp) (by simp))
  · rw [npDataProg, Prog.run_seq, npAdvance_word, State.on, hput.get RDC_NP_ADDR.AUTOINC 0 (by simp), hput.get RDC_NP_ADDR.WORD 0 (by simp)]
    rfl

theorem npWord_of_rdc {s t : State} (h : t.rdc = s.rdc) (i : Nat) : t.npWord i = s.npWord i := by simp only [State.npWord, h]

theorem npDataProg_read (m : Master) (s : State) :
    Unchanged [(.RDC_NP_ADDR, 0)] [.out] [] s ((npDataProg m none).run s) ∧ ((npDataProg m none).run s).out = .data m.id s.npShown :: s.out ∧
      ((npDataProg m none).run s).get RDC_NP_ADDR.WORD 0 =
        if s.on RDC_NP_ADDR.AUTOINC 0 then (s.get RDC_NP_ADDR.WORD 0 + 1) % 256 else s.get RDC_NP_ADDR.WORD 0 := by
  have hadv := npAdvance_within.unchanged ((reply m s.npShown).run s)
  refine ⟨?_, hadv.2.1 .out (by simp), npAdvance_word _⟩
  exact (Prog.Only.unchanged (p := reply m s.npShown) (by simp [reply, Upd.within]) s).trans (hadv.mono (by simp) (by simp) (by simp))

theorem b2n_mod (b : Bool) : b2n b % 2 = b2n b := by cases b <;> rfl

theorem srForceProg_writes (p : Nat) (on sel : Bool) (s : State) :
    Unchanged [(.RDC_HP_CTL, p)] [] [] s ((srForceProg p on sel).run s) ∧
      ((srForceProg p on sel).run s).get RDC_HP_CTL.SR_FORCE p = b2n on ∧ ((srForceProg p on sel).run s).get RDC_HP_CTL.SR_SEL p = b2n sel := by
  refine ⟨Prog.Only.unchanged (by simp [srForceProg, Upd.within, RDC_HP_CTL.SR_FORCE, RDC_HP_CTL.SR_SEL]) s, ?_, ?_⟩
  · simp only [srForceProg, Prog.run_seq, Prog.run_setF]
    rw [State.get_fld_bits _ RDC_HP_CTL.SR_SEL RDC_HP_CTL.SR_FORCE _ _ _ (by decide), State.get_fld_self _ _ _ _ (by decide)]
    exact b2n_mod on
  · simp only [srForceProg, Prog.run_seq, Prog.run_setF]
    rw [State.get_fld_self _ _ _ _ (by decide)]
    exact b2n_mod sel

theorem retryOrderProg_valid {q : Nat} {v : Word} (hv : orderValid q v.toNat = true) (s : State) :
    Unchanged [(.RDC_RETRY_ORDER, q)] [] [] s ((retryOrderProg q v.toNat).run s) ∧
      ((retryOrderProg q v.toNat).run s).get RDC_RETRY_ORDER.ORDER q = v.toNat := by
  rw [retryOrderProg, if_pos hv]
  refine ⟨Prog.Only.unchanged (by simp [Upd.within, RDC_RETRY_ORDER.ORDER]) s, ?_⟩
  rw [Prog.run_setF, State.get_fld_self _ _ _ _ (by decide)]
  exact Nat.mod_eq_of_lt v.isLt

theorem retryOrderProg_invalid {q v : Nat} (hv : orderValid q v = false) (s : State) :
    Unchanged [(.RDC_RETRY_CFG, 0)] [] [] s ((retryOrderProg q v).run s) ∧ ((retryOrderProg q v).run s).get RDC_RETRY_CFG.ORD_ERR 0 = 1 := by
  rw [retryOrderProg, if_neg (by simp [hv])]
  exact ⟨Prog.Only.unchanged (by simp [Upd.within, RDC_RETRY_CFG.ORD_ERR]) s, State.get_fld_self _ _ _ _ (by decide)⟩

theorem hstSnapProg_rdc (s : State) : (hstSnapProg.run s).rdc = s.rdc :=
  Prog.Only.rdc (hstSnapProg_among (by decide)) s

/-- Settles O33: each write is of one register or of the predictors' words; a snapshot and a clear go head by head (`HistoryShown`), and a write of a
noise-predictor word applies or waits before the word number advances. -/
theorem readRegisters : Obligations.ReadRegisters := by
  unfold Obligations.ReadRegisters
  refine ⟨fun s p on sel => ⟨_, rfl, srForceProg_writes p on sel s⟩, fun s q v hv => ?_, fun s q v hv => ?_, fun s h l hc => ?_, fun s h l => ?_,
    fun s m v => ?_, fun s m => ⟨_, rfl, npDataProg_read m s⟩, fun s m v hr hp h5 => ?_, fun s m v hr hp => ?_⟩
  · obtain ⟨hun, hget⟩ := retryOrderProg_valid hv s
    exact ⟨_, rfl, hun, hget, hun.get _ _ (by simp [RDC_RETRY_CFG.ORD_ERR])⟩
  · obtain ⟨hun, hget⟩ := retryOrderProg_invalid hv s
    exact ⟨_, rfl, hun, hget, hun.get _ _ (by simp [RDC_RETRY_ORDER.ORDER])⟩
  · obtain ⟨hsect, hsync, hrec⟩ := hc
    obtain ⟨h0, h1, -, -, -, -, h6⟩ := hstSnapProg_shows h.isLt s
    exact ⟨_, rfl, (hstSnapProg_among (by decide)).changesOnly s, h0.trans (Nat.mod_eq_of_lt hsect), h1.trans (Nat.mod_eq_of_lt hsync),
      (h6 l l.isLt).trans (Nat.mod_eq_of_lt hrec)⟩
  · obtain ⟨h0, -, -, h3, -, h5, h6⟩ := hstSnapProg_shows h.isLt ((Upd.rdc fun x => { x with hst := [] }).apply s)
    refine ⟨_, rfl, Prog.Only.changesOnly (p := hstClrProg) ?_ s, h0, h3, h5, h6 l l.isLt, ?_⟩
    · exact ⟨List.mem_singleton_self Part.rdc, hstSnapProg_among (by decide)⟩
    · exact congrArg RdcState.hst (hstSnapProg_rdc _)
  · obtain ⟨hun, hrdc, hword⟩ := npDataProg_write m v.toNat s
    exact ⟨_, rfl, hun, hword, fun hr hp => (npWord_of_rdc hrdc _).trans (npPut_stores _ hr hp)⟩
  · obtain ⟨hun, hrdc, hword⟩ := npDataProg_write m v.toNat s
    exact ⟨_, rfl, hun, ((npWord_of_rdc hrdc _).trans (npPut_stores _ hr hp)).trans (if_neg h5), hword⟩
  · obtain ⟨hun, hrdc, -⟩ := npDataProg_write m v.toNat s
    obtain ⟨hword, hpend⟩ := npPut_waits v.toNat hr hp
    exact ⟨_, rfl, hun, (npWord_of_rdc hrdc _).trans hword, (congrArg RdcState.npPend hrdc) ▸ hpend⟩

end Sys2Proof.Machine
end

section
/-! An ACK that ends step 2 of a writer's start (R108, R154): more than the command follows. -/
namespace Sys2Proof.Machine

/-- Writer 0 starts a pass with the link of actuator 0 up: its WR_SEL is out, and the writer waits for the ACK. -/
def waitingWriter : State := (all [setF RDC_PAL_STAT.UP 0 1, wrSel 0 0 true, setWriter 0 fun x => { x with pass := true, waitAck := true }]).run .reset

/-- The command that is outstanding. -/
def waitingSelect : PalCmd := { act := 0, typ := 0x20, payload := 0x100 }

/-- An ACK of TYPE 0x20 and CRC 0x0A names it, and the writer is not ready. -/
theorem waitingWriter_waits : waitingWriter.palFind 0 0x20 0x0A = some waitingSelect ∧ (waitingWriter.writer 0).ready = false := by
  decide +kernel

/-- The ACK makes the writer ready. -/
theorem waitingWriter_acked : (((palAckProg 0 0x20 0x0A).run waitingWriter).writer 0).ready = true := by
  decide +kernel

/-- Refutes O35: its clause on the ACK of a command other than MA_CMD says that nothing but RDC's hidden state changes. The ACK of a frame of Table 5.2's
step 2 is what a starting writer waits for, so that WRC goes on with the start (R154): here the writer becomes ready. -/
theorem not_preampLinks : ¬ Obligations.PreampLinks := by
  intro h
  obtain ⟨-, -, -, -, -, hack, -⟩ := h
  obtain ⟨hfind, hwaits⟩ := waitingWriter_waits
  obtain ⟨t, ht, hframe, -⟩ := hack waitingWriter 0 0x20 0x0A waitingSelect hfind (by decide)
  obtain rfl : (palAckProg 0 0x20 0x0A).run waitingWriter = t := Host.Outcome.next.inj ht
  have hwrc : ((palAckProg 0 0x20 0x0A).run waitingWriter).wrc = waitingWriter.wrc := hframe.2.1 .wrc (by decide)
  have hready := waitingWriter_acked
  rw [State.writer, hwrc] at hready
  exact absurd (hwaits.symm.trans hready) (by decide)

end Sys2Proof.Machine
end

section
/-! How the Keeper serves a Ferry request: the command of a request in order runs, and what it finishes with is DONE and answered
(R445 to R447, R451 to R459). -/
namespace Sys2Proof.Machine

/-- A request that is in order reaches the command's own part (R456 to R458). -/
theorem serve_run {s : State} {n code classes : Nat} {f2 : Bool} (h : s.mayServe n code classes f2) (p : Prog) :
    (serve n code classes f2 p).run s = p.run s := by
  obtain ⟨hserving, hf2, hver, hclass, hheader, -⟩ := h
  have hold : ¬(f2 = true ∧ s.fyMajor n < 2) := fun ⟨hf, hlt⟩ => absurd (hf2 hf) (Nat.not_le_of_lt hlt)
  have hform : ¬(2 ≤ s.fyMajor n ∧ nbits (s.req n 0) 15 8 ≠ 0x10) := fun ⟨hmajor, hne⟩ => hne (hver hmajor)
  simp only [serve, Prog.run_ask, Prog.run_when, hserving, if_true, if_neg hold, if_neg hform, if_neg hclass, hheader, Bool.not_true,
    Bool.false_eq_true, if_false]

/-- A channel that the Keeper serves is TAKEN, and has not changed in this tick (R449). -/
def State.inService (s : State) (n : Nat) : Prop := s.fySt n = fyTaken ∧ s.fyStill n = true

theorem State.mayServe.inService {s : State} {n code classes : Nat} {f2 : Bool} (h : s.mayServe n code classes f2) : s.inService n := by
  obtain ⟨hserving, -⟩ := h
  simp only [State.serving, Bool.and_eq_true, beq_iff_eq] at hserving
  obtain ⟨⟨⟨⟨⟨⟨-, htaken⟩, hstill⟩, -⟩, -⟩, -⟩, -⟩ := hserving
  exact ⟨htaken, hstill⟩

theorem State.inService.kept {s t : State} {n : Nat} (h : s.inService n) (hst : t.fySt n = s.fySt n) (hkpr : t.kpr = s.kpr) (hptm : t.ptm = s.ptm) :
    t.inService n := by
  simpa only [State.inService, State.fyStill, State.fyMove, hst, hkpr, hptm] using h

/-! What an answer touches. -/

/-- Registers and components that an answer writes. -/
def ferryRegs : List RegName := [.PCX_FRY_RES, .PCX_FRY_KCTL, .PCX_FRY_STAT, .PCX_MSIP]
def ferryComps : List Part := [.kpr, .out]

section
variable {R : RegName → Prop} {P : Part → Prop} {M : Prop} (hp : ∀ q ∈ ferryComps, P q)
include hp

theorem ferrySignal_among (hr : R .PCX_MSIP) (n : Nat) : (ferrySignal n).Only (Upd.among R P M) := by
  simp only [ferrySignal, Only.ask, Only.ite, Only.when, Only.skip, Only.emit, implies_true, and_true]
  refine fun s => ⟨fun _ _ => ?_, fun _ => ⟨fun _ => hp .out (by decide), fun _ _ => ?_⟩⟩
  · cases s.actsFor n with
    | none => trivial
    | some c => exact hr
  · cases s.kpr.relayNow with
    | none => trivial
    | some e => exact ⟨hp .kpr (by decide), hp .kpr (by decide)⟩

variable (hr : ∀ r ∈ ferryRegs, R r)
include hr

theorem ferryDone_among (n : Nat) : (ferryDone n).Only (Upd.among R P M) := by
  have hstat : R .PCX_FRY_STAT := hr _ (by decide)
  simp only [ferryDone, setFy, setRes, Only.ask, Only.ite, Only.cons, Only.nil, Only.seq, Only.setF, Only.upd, and_true]
  exact fun _ => ⟨fun _ => ⟨hstat, fun _ => ⟨hstat, hr .PCX_FRY_RES (by decide)⟩, hp .kpr (by decide),
    ferrySignal_among hp (hr _ (by decide)) n⟩, fun _ => hstat⟩

theorem ferryFinish_among (n err : Nat) (ws : List Nat) : (ferryFinish n err ws).Only (Upd.among R P M) := by
  have hres : R .PCX_FRY_RES := hr _ (by decide)
  simp only [ferryFinish, setRes, Only.ask, Only.cons, Only.nil, Only.each, Only.setF, and_true]
  exact fun _ => ⟨hres, hres, hres, fun _ _ => hres, hr .PCX_FRY_KCTL (by decide), ferryDone_among hp hr n⟩
end

/-- The words of a result slot but the first: the request's code with the result's length, TIME, and the result (Table 16.5). -/
def resultWords (n : Nat) (hdr time : Nat) (ws : List Nat) : Prog := all [
  setRes n 1 hdr, setRes n 2 time, setRes n 3 0, each (ws.mapIdx fun k w => (k, w)) fun e => setRes n (4 + e.1) e.2]

theorem ferryFinish_run (n err : Nat) (ws : List Nat) (s : State) : (ferryFinish n err ws).run s = (ferryDone n).run ((setF PCX_FRY_KCTL.ERR n err).run
    ((resultWords n (s.req n 0 / 65536 * 65536 + 4 * ws.length) (if 2 ≤ s.fyMajor n then s.timeLo else 0) ws).run s)) := rfl

theorem resultWords_among {R : RegName → Prop} {P : Part → Prop} {M : Prop} (hr : R .PCX_FRY_RES) (n hdr time : Nat) (ws : List Nat) :
    (resultWords n hdr time ws).Only (Upd.among R P M) := by
  simp only [resultWords, setRes, Only.cons, Only.nil, Only.each, Only.setF, and_true]
  exact ⟨hr, hr, hr, fun _ _ => hr⟩

theorem resultWords_header (n : Nat) {hdr : Nat} (time : Nat) (ws : List Nat) (hh : hdr < 2 ^ 32) (s : State) :
    ((resultWords n hdr time ws).run s).get PCX_FRY_RES.W (64 * n + 1) = hdr := by
  simp only [resultWords, setRes, Prog.run_all_cons, Prog.run_all_nil, Prog.run_setF]
  refine each_keeps (Q := fun t => t.get PCX_FRY_RES.W (64 * n + 1) = hdr) (fun e _ t ht => ?_) ?_
  · rw [Prog.run_setF, State.get_fld_ne _ _ _ _ _ _ (.inr (.inl (by omega))), ht]
  · rw [State.get_fld_ne _ _ _ _ _ _ (.inr (.inl (by omega))), State.get_fld_ne _ _ _ _ _ _ (.inr (.inl (by omega))), State.get_fld_self _ _ _ _ (by decide)]
    exact Nat.mod_eq_of_lt hh

theorem resultWords_word (n hdr time : Nat) (ws : List Nat) {k : Nat} (hk : k < ws.length) (s : State) :
    ((resultWords n hdr time ws).run s).get PCX_FRY_RES.W (64 * n + 4 + k) = ws.getD k 0 % 2 ^ 32 := by
  simp only [resultWords, setRes, Prog.run_all_cons, Prog.run_all_nil, Prog.run_setF]
  refine each_establishes (Q := fun t => t.get PCX_FRY_RES.W (64 * n + 4 + k) = ws.getD k 0 % 2 ^ 32) (x := (k, ws[k])) (fun t => ?_) (fun e he hne t ht => ?_)
    (List.mem_mapIdx.2 ⟨k, hk, rfl⟩) _
  · rw [Prog.run_setF, Nat.add_assoc, State.get_fld_self _ _ _ _ (by decide), List.getD_eq_getElem _ _ hk]
    rfl
  · obtain ⟨i, hi, rfl⟩ := List.mem_mapIdx.1 he
    have hik : i ≠ k := fun h => hne (by subst h; rfl)
    rw [Prog.run_setF, State.get_fld_ne _ _ _ _ _ _ (.inr (.inl (by omega))), ht]

/-- The end of an exchange that the Keeper serves. -/
theorem ferryDone_run {s : State} {n : Nat} (h : s.inService n) : (ferryDone n).run s = (ferrySignal n).run
    ((Upd.kpr fun k => (k.unpost n).moved { chan := n, tick := s.ptm.ticks }).apply
      ((setFy n fyDone (s.get PCX_FRY_KCTL.ERR n)).run ((setF PCX_FRY_STAT.ERR n (s.get PCX_FRY_KCTL.ERR n)).run s))) := by
  simp only [ferryDone, Prog.run_ask, h.1, h.2, and_self, if_true, Prog.run_all_cons, Prog.run_all_nil, Prog.run_upd]

theorem ferrySignal_posted (n : Nat) (s : State) : ((ferrySignal n).run s).kpr.posted = s.kpr.posted := by
  simp only [ferrySignal, Prog.run_ask, Prog.run_ite, Prog.run_when]
  split_ifs
  · cases s.actsFor n <;> rfl
  · rfl
  · rfl
  · cases s.kpr.relayNow <;> rfl
  · rfl

/-- A word of the result slot's head: state, outcome, SEQ (R447). -/
theorem slotHead_lt {st err seq : Nat} (hst : st < 4) (he : err < 256) (hs : seq < 256) : st <<< 30 ||| err <<< 16 ||| seq < 2 ^ 32 := by
  simp only [Nat.shiftLeft_eq]
  exact Nat.or_lt_two_pow (Nat.or_lt_two_pow (by omega) (by omega)) (by omega)

/-- The state and the outcome that the end of an exchange shows, and what it leaves of the slot. -/
theorem ferryDone_shows {s : State} {n : Nat} (h : s.inService n) :
    ((ferryDone n).run s).fySt n = fyDone ∧ ((ferryDone n).run s).get PCX_FRY_STAT.ERR n = s.get PCX_FRY_KCTL.ERR n ∧
      ((ferryDone n).run s).get PCX_FRY_RES.W (64 * n) = (fyDone <<< 30 ||| s.get PCX_FRY_KCTL.ERR n <<< 16 ||| s.get PCX_FRY_STAT.LAST_SEQ n) ∧
      (∀ i, i ≠ 64 * n → ((ferryDone n).run s).get PCX_FRY_RES.W i = s.get PCX_FRY_RES.W i) ∧
      ∀ e ∈ ((ferryDone n).run s).kpr.posted, e.chan ≠ n := by
  have herr : s.get PCX_FRY_KCTL.ERR n < 256 := State.get_lt s PCX_FRY_KCTL.ERR n
  have hseq : s.get PCX_FRY_STAT.LAST_SEQ n < 256 := State.get_lt s PCX_FRY_STAT.LAST_SEQ n
  have hget : ∀ (t : State) (f : Fld) (j : Nat), f.reg ≠ .PCX_MSIP → ((ferrySignal n).run t).get f j = t.get f j := fun t f j hf =>
    Prog.Only.get (ferrySignal_among (fun _ _ => trivial) hf.symm n) t j
  rw [ferryDone_run h]
  refine ⟨?_, ?_, ?_, fun i hi => ?_, fun e he => ?_⟩
  · rw [State.fySt, hget _ _ _ (by decide), Upd.apply_get _ _ rfl]
    simp (disch := decide) only [setFy, setRes, Prog.run_ask, Prog.run_seq, Prog.run_setF, State.get_fld_reg, State.get_fld_self]
    rfl
  · rw [hget _ _ _ (by decide), Upd.apply_get _ _ rfl]
    simp (disch := decide) only [setFy, setRes, Prog.run_ask, Prog.run_seq, Prog.run_setF, State.get_fld_reg, State.get_fld_bits, State.get_fld_self]
    exact Nat.mod_eq_of_lt herr
  · rw [hget _ _ _ (by decide), Upd.apply_get _ _ rfl]
    simp (disch := decide) only [setFy, setRes, Prog.run_ask, Prog.run_seq, Prog.run_setF, Nat.add_zero, State.get_fld_bits, State.get_fld_self]
    exact Nat.mod_eq_of_lt (slotHead_lt (by decide) herr hseq)
  · rw [hget _ _ _ (by decide), Upd.apply_get _ _ rfl]
    simp only [setFy, setRes, Prog.run_ask, Prog.run_seq, Prog.run_setF, Nat.add_zero]
    rw [State.get_fld_ne _ _ _ _ _ _ (.inr (.inl hi.symm)), State.get_fld_reg _ _ _ _ _ _ (by decide), State.get_fld_reg _ _ _ _ _ _ (by decide)]
  · rw [ferrySignal_posted] at he
    simp only [Upd.apply_kpr, KprState.unpost, KprState.moved, List.mem_filter, bne_iff_ne] at he
    exact he.2

/-- The outcome enters PCX_FRY_KCTL, then DONE. -/
theorem ferryDone_answers {s u : State} {n err : Nat} {ws : List Nat} (h : s.inService n) (he : err < 256) (hu : ChangesOnly [.PCX_FRY_RES] [] false s u)
    (hheader : u.get PCX_FRY_RES.W (64 * n + 1) = s.req n 0 / 65536 * 65536 + 4 * ws.length)
    (hwords : ∀ k < ws.length, u.get PCX_FRY_RES.W (64 * n + 4 + k) = ws.getD k 0 % 2 ^ 32) :
    Answered n err ws s ((ferryDone n).run ((setF PCX_FRY_KCTL.ERR n err).run u)) := by
  have hv : ChangesOnly [.PCX_FRY_RES, .PCX_FRY_KCTL] [] false s ((setF PCX_FRY_KCTL.ERR n err).run u) :=
    (hu.mono (by decide) (by decide) id).prog (by decide : RegName.PCX_FRY_KCTL ∈ _)
  have hres : ∀ i, ((setF PCX_FRY_KCTL.ERR n err).run u).get PCX_FRY_RES.W i = u.get PCX_FRY_RES.W i := fun i => State.get_fld_reg _ _ _ _ _ _ (by decide)
  have herr : ((setF PCX_FRY_KCTL.ERR n err).run u).get PCX_FRY_KCTL.ERR n = err :=
    (State.get_fld_self _ _ _ _ (by decide)).trans (Nat.mod_eq_of_lt he)
  generalize (setF PCX_FRY_KCTL.ERR n err).run u = v at hv hres herr ⊢
  have hstat : ∀ f : Fld, f.reg = .PCX_FRY_STAT → ∀ i, v.get f i = s.get f i := fun f hf i => by
    simp only [State.get, hv.1 f.reg i (by rw [hf]; decide)]
  have hservice : v.inService n := h.kept (hstat _ rfl n) (hv.2.1 .kpr (by decide)) (hv.2.1 .ptm (by decide))
  obtain ⟨hdone, hout, hhead, hrest, hposted⟩ := ferryDone_shows hservice
  refine ⟨hdone, hout.trans herr, ?_, ?_, fun k hk => ?_, hposted⟩
  · rw [hhead, herr, hstat PCX_FRY_STAT.LAST_SEQ rfl]
  · rw [hrest _ (by omega), hres, hheader]
  · rw [hrest _ (by omega), hres, hwords k hk]

/-- What the Keeper finishes a request with is its answer (Table 16.5). -/
theorem ferryFinish_answers {s : State} {n err : Nat} {ws : List Nat} (h : s.inService n) (he : err < 256) (hw : 4 * ws.length < 65536) :
    Answered n err ws s ((ferryFinish n err ws).run s) := by
  have hreq : s.req n 0 < 2 ^ 32 := State.get_lt s PCX_FRY_REQ.W (64 * n + 0)
  rw [ferryFinish_run]
  exact ferryDone_answers h he ((resultWords_among (List.mem_singleton_self _) n _ _ ws).changesOnly s) (resultWords_header n _ ws (by omega) s)
    fun k hk => resultWords_word n _ _ ws hk s

/-- An answer given after other things have happened. -/
theorem Answered.after {s u t : State} {n err : Nat} {ws : List Nat} (h : Answered n err ws u t)
    (hseq : u.get PCX_FRY_STAT.LAST_SEQ n = s.get PCX_FRY_STAT.LAST_SEQ n) (hreq : u.req n 0 = s.req n 0) : Answered n err ws s t := by
  rwa [Answered, hseq, hreq] at h

/-- The same, by what has happened: nothing of the channels' or of the Keeper's. -/
theorem ferryFinish_after {rs : List RegName} {ps : List Part} {s u : State} (hu : ChangesOnly rs ps false s u)
    (hrs : ∀ r ∈ [RegName.PCX_FRY_STAT, .PCX_FRY_REQ], r ∉ rs) (hps : ∀ q ∈ [Part.kpr, .ptm], q ∉ ps)
    {n err : Nat} {ws : List Nat} (h : s.inService n) (he : err < 256) (hw : 4 * ws.length < 65536) :
    Answered n err ws s ((ferryFinish n err ws).run u) := by
  have hget : ∀ f : Fld, f.reg ∉ rs → ∀ i, u.get f i = s.get f i := fun f hf i => by simp only [State.get, hu.1 f.reg i hf]
  have hstat := hrs .PCX_FRY_STAT (by decide)
  exact (ferryFinish_answers (h.kept (hget PCX_FRY_STAT.STATE hstat n) (hu.2.1 .kpr (hps _ (by decide))) (hu.2.1 .ptm (hps _ (by decide)))) he hw).after
    (hget PCX_FRY_STAT.LAST_SEQ hstat n) (hget PCX_FRY_REQ.W (hrs .PCX_FRY_REQ (by decide)) _)

theorem ferryFinish_changes (n err : Nat) (ws : List Nat) (s : State) : ChangesOnly ferryRegs ferryComps false s ((ferryFinish n err ws).run s) :=
  (ferryFinish_among (fun _ h => h) (fun _ h => h) n err ws).changesOnly s

end Sys2Proof.Machine
end

section
/-! Head paths' power states (R107, R112, R113), and the concurrency unit's change (R487, R488). -/
namespace Sys2Proof.Machine

/-- Registers and components that a head path's power state changes. -/
def pathPowerRegs : List RegName := [.PTM_DOM_PWR, .RDC_HP_CLR, .RDC_HP_STAT]
def pathPowerComps : List Part := [.out, .rdc, .svc]

section
variable {R : RegName → Prop} {P : Part → Prop} {M : Prop}

theorem palCmd_among (a typ payload : Nat) (ho : P .out) (hp : P .rdc) : (palCmd a typ payload).Only (Upd.among R P M) := by
  simp only [palCmd, palFrame, send, Only.whenS, Only.seq, Only.ask, Only.emit, Only.upd]
  exact fun _ _ => ⟨ho, fun _ => hp⟩

theorem readersOff_among (p : Nat) (ho : P .out) (hp : P .rdc) : (readersOff p).Only (Upd.among R P M) := by
  simp only [readersOff, Only.ask, Only.when, Only.seq, Only.upd]
  refine fun s _ => ⟨?_, hp⟩
  cases s.headOf p with
  | none => trivial
  | some h => exact palCmd_among _ _ _ ho hp

theorem readersOn_among (p h : Nat) (ho : P .out) (hp : P .rdc) : (readersOn p h).Only (Upd.among R P M) := by
  simp only [readersOn, Only.ask, Only.cons, Only.nil, Only.when, Only.each, Only.upd, and_true]
  exact fun _ => ⟨fun _ q _ => readersOff_among q ho hp, palCmd_among _ _ _ ho hp, hp⟩

variable (hr : ∀ r ∈ pathPowerRegs, R r) (hp : ∀ q ∈ pathPowerComps, P q)
include hr hp

theorem setPwr_among (p st : Nat) : (setPwr p st).Only (Upd.among R P M) := by
  simp only [setPwr, sliceDrop, Only.ask, Only.cons, Only.nil, Only.when, Only.setF, Only.setBitF, Only.upd, and_true]
  exact fun _ => ⟨fun _ _ _ => hp .svc (by decide), fun _ => readersOff_among p (hp _ (by decide)) (hp _ (by decide)), fun _ => hr .RDC_HP_CLR (by decide),
    hr .RDC_HP_STAT (by decide), fun _ => hr .PTM_DOM_PWR (by decide)⟩
end

theorem setPwr_changes (p st : Nat) (s : State) : ChangesOnly pathPowerRegs pathPowerComps false s ((setPwr p st).run s) :=
  (setPwr_among (fun _ h => h) (fun _ h => h) p st).changesOnly s

theorem setPwr_shows (p st : Nat) (hst : st < 4) (s : State) : ((setPwr p st).run s).hpPwr p = st := by
  simp only [setPwr, Prog.run_ask, Prog.run_all_cons, Prog.run_all_nil, Prog.run_setF, Prog.run_setBitF, State.hpPwr]
  rw [State.get_fld_reg _ _ _ _ _ _ (by decide), State.get_fld_self _ _ _ _ (by decide)]
  exact Nat.mod_eq_of_lt hst

/-- What follows the power state as a path enters READY: clock, front ends and readers, which no register shows. -/
theorem enterReady_run (p : Nat) (s : State) : ∃ q : Prog, q.Only (Upd.among (· ∈ []) (· ∈ pathPowerComps) (false = true)) ∧
    (enterReady p).run s = q.run ((setPwr p pwReady).run s) := by
  have ho : Part.out ∈ pathPowerComps := by decide
  have hp : Part.rdc ∈ pathPowerComps := by decide
  refine ⟨_, ?_, rfl⟩
  refine ⟨fun _ => ho, fun _ => ho, fun _ => ho, ?_, trivial⟩
  cases s.headOf p with
  | none => trivial
  | some h => exact ⟨palCmd_among _ _ _ ho hp, palCmd_among _ _ _ ho hp, palCmd_among _ _ _ ho hp, readersOn_among p h ho hp, trivial⟩

theorem enterReady_changes (p : Nat) (s : State) : ChangesOnly pathPowerRegs pathPowerComps false s ((enterReady p).run s) := by
  obtain ⟨q, hq, hrun⟩ := enterReady_run p s
  rw [hrun]
  exact (setPwr_changes p pwReady s).trans ((hq.changesOnly _).mono (by simp) (fun _ h => h) id)

theorem enterReady_shows (p : Nat) (s : State) : ((enterReady p).run s).hpPwr p = pwReady := by
  obtain ⟨q, hq, hrun⟩ := enterReady_run p s
  rw [hrun, State.hpPwr, State.get, (hq.changesOnly _).1 _ _ (by simp)]
  exact setPwr_shows p pwReady (by decide) s

/-- A head path's power state as firmware sets it in SERVICE (R113). -/
def pathPowerSet (s : State) (p st : Nat) : Prog := if st = s.hpPwr p then .skip else if st = pwReady then enterReady p else setPwr p st

theorem pathPowerSet_sets (p : Nat) {st : Nat} (hst : st < 4) (s : State) :
    ChangesOnly pathPowerRegs pathPowerComps false s ((pathPowerSet s p st).run s) ∧ ((pathPowerSet s p st).run s).hpPwr p = st := by
  unfold pathPowerSet
  split_ifs with hsame hready
  · exact ⟨ChangesOnly.refl s, hsame.symm⟩
  · exact ⟨enterReady_changes p s, (enterReady_shows p s).trans hready.symm⟩
  · exact ⟨setPwr_changes p st s, setPwr_shows p st hst s⟩

/-! The change of the unit u (R487, R488). -/

/-- Registers that it writes. -/
def unitRegs : List RegName := [.PTM_AVS_STAT, .PTM_CAP_STAT, .WRC_WR_STAT] ++ pathPowerRegs

section
variable {R : RegName → Prop} {P : Part → Prop} {M : Prop} (hr : ∀ r ∈ unitRegs, R r) (hp : ∀ q ∈ pathPowerComps, P q)
include hr

theorem writersFollow_among : writersFollow.Only (Upd.among R P M) := by
  have hpower : ∀ w b, (writerPower w b).Only (Upd.among R P M) := fun w b => ⟨fun _ => hr .PTM_DOM_PWR (by decide), hr .WRC_WR_STAT (by decide)⟩
  simp only [writersFollow, Only.ask, Only.each, Only.when, Only.ite, hpower, implies_true, and_true]

include hp

theorem pathsFollow_among : pathsFollow.Only (Upd.among R P M) := by
  simp only [pathsFollow, Only.ask, Only.each, Only.when]
  exact fun _ _ p _ _ => setPwr_among (fun r h => hr r (List.mem_append_right _ h)) hp p _

theorem setU_among (u : Nat) : (setU u).Only (Upd.among R P M) := by
  have hcap : R .PTM_CAP_STAT := hr _ (by decide)
  simp only [setU, Only.whenS, Only.cons, Only.nil, Only.setF, and_true]
  exact fun _ _ => ⟨hcap, hcap, hcap, hcap, writersFollow_among hr, pathsFollow_among hr hp⟩

theorem concurrencyChange_among : concurrencyChange.Only (Upd.among R P M) := by
  simp only [concurrencyChange, Only.ask, Only.ite, Only.when, Only.seq, Only.setF]
  exact fun _ => ⟨fun _ => setU_among hr hp _, fun _ _ => ⟨setU_among hr hp _, hr .PTM_AVS_STAT (by decide)⟩⟩
end

end Sys2Proof.Machine
end

section
/-! What the beginning of a mode transition can touch (Table 18.3, R206 to R210, R241, R265, R496). -/
namespace Sys2Proof.Machine

/-- Registers and components that the actions of a transition write, PTM's own apart. -/
def transRegs : List RegName := [.SPN_CTL, .SPN_STAT, .SPN_ORR_STAT, .RDC_PAL_STAT, .SPL_STAT, .SPL_MEMBERS] ++ seekRegs ++ gateRegs
def transComps : List Part := [.spn, .spl, .wrc] ++ seekComps ++ storeComps

section
variable {R : RegName → Prop} {P : Part → Prop} (hr : ∀ r ∈ transRegs, R r) (hp : ∀ q ∈ transComps, P q)
include hr hp

theorem setAtSpeed_among (b : Bool) : (setAtSpeed b).Only (Upd.among R P True) := by
  have hw : P .wrc := hp _ (by decide)
  cases b with
  | true => exact ⟨hr .SPN_STAT (by decide), fun _ => hw, wusShow_among (hr _ (by decide)) (hr _ (by decide)) hw⟩
  | false =>
    exact ⟨hr .SPN_STAT (by decide), closeGates_among _ _ (fun r h => hr r (List.mem_append_right _ h)) (fun q h => hp q (List.mem_append_right _ h)) hw⟩

theorem setSpn_among (st : Nat) : (setSpn st).Only (Upd.among R P True) := by
  have hs : P .spn := hp _ (by decide)
  have hstat : R .SPN_STAT := hr _ (by decide)
  simp only [setSpn, setOrr, Only.ask, Only.cons, Only.nil, Only.when, Only.seq, Only.setF, Only.upd, and_true]
  exact fun _ => ⟨hstat, fun _ => ⟨setAtSpeed_among hr hp false, fun _ => ⟨hr .SPN_ORR_STAT (by decide), hs⟩⟩, fun _ => hstat, hs,
    fun _ => ⟨setAtSpeed_among hr hp true, hs⟩⟩

theorem spnStart_among : spnStart.Only (Upd.among R P True) := by
  have hs : P .spn := hp _ (by decide)
  have ho : P .out := hp _ (by decide)
  have hset := setSpn_among hr hp
  simp only [spnStart, spnDriveOff, spnShortBrake, pdRequest, spnSense, spnPulse, send, Only.ask, Only.ite, Only.seq, Only.cons, Only.nil, Only.setF, Only.upd,
    Only.emit, Only.skip, Upd.among, hset, hs, ho, implies_true, and_true, true_and]
  exact fun _ _ _ => hr .SPN_STAT (by decide)

theorem spnSpdSet_among (v : Nat) : (spnSpdSet v).Only (Upd.among R P True) := by
  have hs : P .spn := hp _ (by decide)
  have hctl : R .SPN_CTL := hr _ (by decide)
  simp only [spnSpdSet, spnChange, Only.ask, Only.ite, Only.seq, Only.skip, Only.setF, Only.upd, Only.when, Upd.among, hs, setSpn_among hr hp, implies_true,
    and_true, true_and]
  exact fun _ => ⟨fun _ _ _ _ => hctl, fun _ _ => hctl⟩

theorem seekFrom_among (a : Nat) : (seekFrom a).Only (Upd.among R P True) := by
  have hsr : ∀ r ∈ seekRegs, R r := fun r h => hr r ((by decide : seekRegs ⊆ transRegs) h)
  have hsp : ∀ q ∈ seekComps, P q := fun q h => hp q ((by decide : seekComps ⊆ transComps) h)
  have hk : R .SVE_SEEK_STAT := hr _ (by decide)
  have hs : P .sve := hp _ (by decide)
  simp only [seekFrom, enterMove, rejoinNone, Only.ask, Only.ite, Only.seq, Only.cons, Only.nil, Only.each, Only.setF, Only.upd, and_true]
  exact fun _ => ⟨fun _ => ⟨hs, fun p _ => leaveActive_among p hsp, hr .SVE_CTX_CFG (by decide), setSub_among _ _ hk hs⟩,
    fun _ => ⟨fun _ => ⟨enterTrackIn_among a hsr hsp, enterSettle_among a hk hs⟩, fun _ => enterTrackIn_among a hsr hsp⟩⟩

theorem mapCheck_among (a : Nat) (bands : List Nat) : (mapCheck a bands).Only (Upd.among R P True) := by
  simp only [mapCheck, lateLine, mapReload, Only.ask, Only.when, Only.seq, Only.upd, Only.each]
  refine fun _ _ => ⟨hp .fcu (by decide), fun b _ s => ?_⟩
  cases s.mapNewest with
  | none => trivial
  | some c =>
    exact fabricStore_among _ _ _ (fun r h => hr r ((by decide : storeRegs ⊆ transRegs) h))
      (fun q h => hp q (List.mem_append_right _ h)) trivial

theorem startUnload_among (a : Nat) : (startUnload a).Only (Upd.among R P True) := by
  have hk : R .SVE_SEEK_STAT := hr _ (by decide)
  have hs : P .sve := hp _ (by decide)
  simp only [startUnload, setSeek, aim, setTgt, Only.ask, Only.when, Only.ite, Only.cons, Only.nil, Only.each, Only.seq, Only.setF, Only.upd, Upd.among, hs,
    mapCheck_among hr hp, seekFrom_among hr hp, implies_true, and_true, true_and]
  exact fun _ _ => ⟨hk, hk, hk, fun _ => rampDrive_among a (fun r h => hr r ((by decide : seekRegs ⊆ transRegs) h))
    fun q h => hp q ((by decide : seekComps ⊆ transComps) h)⟩

theorem palLinks_among (b : Bool) : (each (List.range 4) fun a => if b then palStart a else palDown a).Only (Upd.among R P True) := by
  have hpal : R .RDC_PAL_STAT := hr _ (by decide)
  simp only [palStart, palFrame, palDown, send, Only.each, Only.ite, Only.whenS, Only.cons, Only.nil, Only.setF, Only.upd, Only.emit, and_true]
  exact fun _ _ => ⟨fun _ _ _ => hp .out (by decide), fun _ => ⟨hpal, hpal, hp .rdc (by decide)⟩⟩

theorem splLeave_among : splLeave.Only (Upd.among R P True) := by
  have hs : P .spl := hp _ (by decide)
  have ho : P .out := hp _ (by decide)
  have hstat : R .SPL_STAT := hr _ (by decide)
  simp only [splLeave, splFlood, splSeq, splSend, setSplState, membersShow, send, Only.ask, Only.when, Only.cons, Only.nil, Only.seq, Only.each, Only.setF,
    Only.upd, Only.emit, Upd.among, hs, ho, implies_true, and_true, true_and]
  exact fun _ _ => ⟨⟨hstat, fun _ => ⟨hstat, fun _ _ => hr .SPL_MEMBERS (by decide)⟩⟩, hstat⟩
end

/-! The transition itself: its target stands until it ends (R496). -/

/-- An update of the actions of a transition: beside the registers and components of its operations it changes PTM's hidden state, its target apart. -/
def Upd.transition : Upd → Prop
  | .ptm f => ∀ x, (f x).target = x.target
  | u => u.among (· ∈ transRegs) (· ∈ transComps) True

theorem Upd.transition_of_among {u : Upd} (h : u.among (· ∈ transRegs) (· ∈ transComps) True) : u.transition := by
  cases u with
  | ptm f => exact absurd h (show Part.ptm ∉ transComps by decide)
  | _ => exact h

theorem Prog.Only.transition {p : Prog} (hp : p.Only (Upd.among (· ∈ transRegs) (· ∈ transComps) True)) : p.Only Upd.transition :=
  hp.mono fun _ => Upd.transition_of_among

theorem Upd.among_of_transition {u : Upd} (h : u.transition) : u.among (· ∈ transRegs) (· ∈ .ptm :: transComps) (true = true) := by
  cases u with
  | ptm f => exact List.mem_cons_self
  | fld | reg | regsReset => exact h
  | mem | memForget => rfl
  | _ => exact List.mem_cons_of_mem _ h

theorem Prog.Only.target {p : Prog} (hp : p.Only Upd.transition) (s : State) : (p.run s).ptm.target = s.ptm.target := by
  refine Prog.Only.rel (fun s t => t.ptm.target = s.ptm.target) (fun _ => rfl) (fun _ _ _ h k => k.trans h) (fun u s hu => ?_) hp s
  cases u with
  | ptm f => exact hu _
  | _ => rfl

theorem setVpre_transition (b : Bool) : (setVpre b).Only Upd.transition :=
  ⟨fun _ => rfl, (by decide : Part.out ∈ transComps), (palLinks_among (fun _ h => h) (fun _ h => h) b).transition, trivial⟩

theorem speedFor_transition (r : ModeReq) : (speedFor r).Only Upd.transition := by
  have hspeed : ∀ v, (spnSpdSet v).Only Upd.transition := fun v => (spnSpdSet_among (fun _ h => h) (fun _ h => h) v).transition
  simp only [speedFor, Only.ask, Only.ite, Only.cons, Only.nil, Only.when, Only.seq, Only.upd, hspeed, and_true, true_and]
  exact fun _ => ⟨fun _ _ _ => rfl, fun _ _ _ => rfl⟩

theorem transActions_transition (r : ModeReq) : (transActions r).Only Upd.transition := by
  have hunload : ∀ a, (startUnload a).Only Upd.transition := fun a => (startUnload_among (fun _ h => h) (fun _ h => h) a).transition
  have hspin : spnStart.Only Upd.transition := (spnStart_among (fun _ h => h) (fun _ h => h)).transition
  have hleave : splLeave.Only Upd.transition := (splLeave_among (fun _ h => h) (fun _ h => h)).transition
  simp only [transActions, endPasses, unloadAll, Only.ask, Only.cons, Only.nil, Only.when, Only.each, Only.seq, Only.upd, hunload, hspin, hleave,
    speedFor_transition, setVpre_transition, implies_true, and_true, true_and]
  exact fun _ => ⟨fun _ => (by decide : Part.sve ∈ transComps), fun _ _ => rfl, fun _ _ => rfl⟩

theorem transActions_changes (r : ModeReq) (s : State) : ChangesOnly transRegs (.ptm :: transComps) true s ((transActions r).run s) :=
  ((transActions_transition r).mono fun _ => Upd.among_of_transition).changesOnly s

/-- Registers that a GO writes, its transition's with them. -/
def modeRegs : List RegName := [.PTM_MODE_CTL, .PTM_MODE_STAT] ++ transRegs

/-- A transition that starts: TRANS reads 1, and its request is the target. -/
theorem transStart_starts (r : ModeReq) (s : State) : ChangesOnly (.PTM_MODE_STAT :: transRegs) (.ptm :: transComps) true s ((transStart r).run s) ∧
    ((transStart r).run s).ptm.target = some r ∧ ((transStart r).run s).get PTM_MODE_STAT.TRANS 0 = 1 := by
  have hrun : (transStart r).run s = (transActions r).run ((Upd.ptm fun p => { p with target := some r, seqStep := 0, loads := [] }).apply
    ((setF PTM_MODE_STAT.TRANS 0 1).run s)) := rfl
  have hset : ChangesOnly [.PTM_MODE_STAT] [.ptm] true s ((Upd.ptm fun p => { p with target := some r, seqStep := 0, loads := [] }).apply
      ((setF PTM_MODE_STAT.TRANS 0 1).run s)) :=
    ((ChangesOnly.refl s).prog (p := setF PTM_MODE_STAT.TRANS 0 1) (List.mem_singleton_self _)).app (List.mem_singleton_self _)
  rw [hrun]
  refine ⟨(hset.mono (by simp) (by simp) id).trans ((transActions_changes r _).mono (by simp) (by simp) id), ?_, ?_⟩
  · exact (transActions_transition r).target _
  · rw [State.get, (transActions_changes r _).1 _ _ (by decide), ← State.get, Upd.apply_get _ _ rfl]
    exact State.get_fld_self _ _ _ _ (by decide)

/-- What judges a GO is no field of PTM_MODE_CTL. -/
theorem State.transOk_kept {s t : State} (h : ChangesOnly [.PTM_MODE_CTL] [] false s t) (r : ModeReq) : t.transOk r = s.transOk r := by
  have hget : ∀ f : Fld, f.reg ≠ .PTM_MODE_CTL → ∀ i, t.get f i = s.get f i := fun f hf i => by simp only [State.get, h.1 f.reg i (by simpa using hf)]
  have hptm : t.ptm = s.ptm := h.2.1 .ptm (by simp)
  have hhif : t.hif = s.hif := h.2.1 .hif (by simp)
  simp (disch := decide) only [State.transOk, State.safe, State.inPowerLoss, State.transListed, State.mode, State.causePersists, State.cwIsUp, State.twarn,
    State.tjMax, State.sget, State.budgetUsed, State.hostQuiet, State.isSas, State.port, State.normalService, State.on, hptm, hhif, hget] <;> rfl

/-- A GO that is accepted starts its transition. -/
theorem modeWrite_starts {s : State} {r : ModeReq} (h : s.transOk r = true) :
    ChangesOnly modeRegs (.ptm :: transComps) true s ((modeWrite .keeper r).run s) ∧ ((modeWrite .keeper r).run s).ptm.target = some r ∧
      ((modeWrite .keeper r).run s).get PTM_MODE_STAT.TRANS 0 = 1 := by
  have hrun : (modeWrite .keeper r).run s = (modeRequest r).run ((all [setF PTM_MODE_CTL.REQ_MODE 0 r.mode, setF PTM_MODE_CTL.REQ_ILVL 0 r.ilvl,
    setF PTM_MODE_CTL.RET 0 (b2n r.ret)]).run s) := rfl
  have hset : ChangesOnly [.PTM_MODE_CTL] [] false s ((all [setF PTM_MODE_CTL.REQ_MODE 0 r.mode, setF PTM_MODE_CTL.REQ_ILVL 0 r.ilvl,
      setF PTM_MODE_CTL.RET 0 (b2n r.ret)]).run s) := by
    refine Prog.Only.changesOnly ?_ s
    exact ⟨List.mem_singleton_self _, List.mem_singleton_self _, List.mem_singleton_self _, trivial⟩
  rw [hrun, modeRequest, Prog.run_ask, State.transOk_kept hset, if_pos h]
  obtain ⟨hchange, htarget, htrans⟩ := transStart_starts r ((all [setF PTM_MODE_CTL.REQ_MODE 0 r.mode, setF PTM_MODE_CTL.REQ_ILVL 0 r.ilvl,
    setF PTM_MODE_CTL.RET 0 (b2n r.ret)]).run s)
  exact ⟨(hset.mono (by decide) (by decide) fun _ => rfl).trans (hchange.mono (by decide) (by decide) id), htarget, htrans⟩

end Sys2Proof.Machine
end

section
/-! The Ferry commands of modes and power (Table 16.9, R113, R487, R496): the statement. -/
namespace Sys2Proof.Machine

/-- The request that the argument of MODE_SET names. -/
def State.modeAsked (s : State) (n : Nat) : ModeReq :=
  { mode := nbits (s.req n 4) 2 0, ilvl := if nbits (s.req n 4) 2 0 = mIdle then nbits (s.req n 4) 4 3 else 0,
    ret := nbits (s.req n 4) 2 0 == mStandby && nbit (s.req n 4) 5 }

theorem modeSetCmd_run {s : State} {n : Nat} (hok : s.transOk (s.modeAsked n) = true) (hmode : (s.modeAsked n).mode ≠ mService ∨ n = 5) :
    (modeSetCmd n).run s =
      (ferryWait n wtMode ((s.modeAsked n).ilvl <<< 3 ||| (s.modeAsked n).mode)).run ((modeWrite .keeper (s.modeAsked n)).run s) := by
  have hmay : ¬((s.modeAsked n).mode = mService ∧ n ≠ 5 ∧ !(decide (n < 4) && s.kpr.factory)) := fun ⟨hs, hn, _⟩ => hmode.elim (· hs) hn
  have hrun : (modeSetCmd n).run s = (if (s.modeAsked n).mode = mService ∧ n ≠ 5 ∧ !(decide (n < 4) && s.kpr.factory) then ferryErr n eState
    else .seq (modeWrite .keeper (s.modeAsked n)) (if s.transOk (s.modeAsked n) then
      ferryWait n wtMode ((s.modeAsked n).ilvl <<< 3 ||| (s.modeAsked n).mode) else ferryErr n eState)).run s := rfl
  rw [hrun, if_neg hmay, if_pos hok, Prog.run_seq]

/-- MODE_SET starts its transition and waits. -/
theorem modeSetCmd_starts {s : State} {n : Nat} (hservice : s.inService n) (hok : s.transOk (s.modeAsked n) = true)
    (hmode : (s.modeAsked n).mode ≠ mService ∨ n = 5) :
    ChangesOnly modeRegs (.kpr :: .ptm :: transComps) true s ((modeSetCmd n).run s) ∧ ((modeSetCmd n).run s).ptm.target = some (s.modeAsked n) ∧
      ((modeSetCmd n).run s).get PTM_MODE_STAT.TRANS 0 = 1 ∧ ((modeSetCmd n).run s).fySt n = fyTaken ∧
      (n, wtMode, (s.modeAsked n).ilvl <<< 3 ||| (s.modeAsked n).mode) ∈ ((modeSetCmd n).run s).kpr.waiting := by
  obtain ⟨hchange, htarget, htrans⟩ := modeWrite_starts hok
  rw [modeSetCmd_run hok hmode]
  generalize (modeWrite .keeper (s.modeAsked n)).run s = u at hchange htarget htrans ⊢
  refine ⟨(hchange.mono (fun _ h => h) (by decide) id).prog (p := ferryWait n wtMode _) (List.mem_cons_self : Part.kpr ∈ _), htarget, htrans, ?_, ?_⟩
  · refine Eq.trans ?_ hservice.1
    exact congrArg (fun v => getBits v _ _) (hchange.1 .PCX_FRY_STAT n (by decide))
  · simp [ferryWait]

theorem ferryErr_answers {s : State} {n err : Nat} (h : s.inService n) (he : err < 256) :
    ChangesOnly ferryRegs ferryComps false s ((ferryErr n err).run s) ∧ Answered n err [] s ((ferryErr n err).run s) :=
  ⟨ferryFinish_changes n err [] s, ferryFinish_answers h he (by decide)⟩

/-- SERVICE is asked for on channel 4, whose class may not. -/
theorem modeSetCmd_service {s : State} {n : Nat} (hmode : nbits (s.req n 4) 2 0 = mService) (hn : n = 4) :
    (modeSetCmd n).run s = (ferryErr n eState).run s := by
  subst hn
  rw [modeSetCmd, Prog.run_ask]
  dsimp only
  rw [if_pos ⟨hmode, by decide, by simp⟩]

theorem capSetCmd_run {s : State} {n : Nat} (hlo : 12 ≤ s.req n 4 % 256) (hhi : s.req n 4 % 256 ≤ 40) : (capSetCmd n).run s =
    (ferryOk n [(concurrencyChange.run ((setF PTM_CAP_CFG.CAP 0 (s.req n 4 % 256)).run s)).mermode]).run
      (concurrencyChange.run ((setF PTM_CAP_CFG.CAP 0 (s.req n 4 % 256)).run s)) := by
  rw [capSetCmd, Prog.run_ask]
  dsimp only
  rw [if_neg (by omega)]
  rfl

theorem capSetCmd_refuses {s : State} {n : Nat} (h : s.req n 4 % 256 < 12 ∨ 40 < s.req n 4 % 256) : (capSetCmd n).run s = (ferryErr n eArg).run s := by
  rw [capSetCmd, Prog.run_ask]
  dsimp only
  rw [if_pos h]

/-- MERMODE shows registers of PTM alone (Table 15.8). -/
theorem State.mermode_kept {rs : List RegName} {ps : List Part} {m : Bool} {s t : State} (h : ChangesOnly rs ps m s t)
    (hrs : ∀ r ∈ [RegName.PTM_CAP_CFG, .PTM_CAP_STAT, .PTM_MODE_STAT], r ∉ rs) : t.mermode = s.mermode := by
  have hget : ∀ f : Fld, f.reg ∈ [RegName.PTM_CAP_CFG, .PTM_CAP_STAT, .PTM_MODE_STAT] → ∀ i, t.get f i = s.get f i := fun f hf i => by
    simp only [State.get, h.1 f.reg i (hrs _ hf)]
  simp (disch := decide) only [State.mermode, State.capW, hget]

theorem capSetCmd_answers {s : State} {n : Nat} (hservice : s.inService n) (hlo : 12 ≤ s.req n 4 % 256) (hhi : s.req n 4 % 256 ≤ 40) :
    ChangesOnly (.PTM_CAP_CFG :: unitRegs ++ ferryRegs) (.kpr :: pathPowerComps) false s ((capSetCmd n).run s) ∧
      Answered n eOk [((capSetCmd n).run s).mermode] s ((capSetCmd n).run s) ∧ ((capSetCmd n).run s).get PTM_CAP_CFG.CAP 0 = s.req n 4 % 256 := by
  have hcap : ((setF PTM_CAP_CFG.CAP 0 (s.req n 4 % 256)).run s).get PTM_CAP_CFG.CAP 0 = s.req n 4 % 256 :=
    (State.get_fld_self _ _ _ _ (by decide)).trans (Nat.mod_mod _ 256)
  have hset : ChangesOnly [.PTM_CAP_CFG] [] false s ((setF PTM_CAP_CFG.CAP 0 (s.req n 4 % 256)).run s) :=
    Prog.Only.changesOnly (p := setF PTM_CAP_CFG.CAP 0 (s.req n 4 % 256)) (List.mem_singleton_self _) s
  rw [capSetCmd_run hlo hhi]
  generalize (setF PTM_CAP_CFG.CAP 0 (s.req n 4 % 256)).run s = v at hcap hset ⊢
  have hunit : ChangesOnly unitRegs pathPowerComps false v (concurrencyChange.run v) :=
    (concurrencyChange_among (fun _ h => h) (fun _ h => h)).changesOnly v
  have hcap' : (concurrencyChange.run v).get PTM_CAP_CFG.CAP 0 = s.req n 4 % 256 := by
    rw [State.get, hunit.1 _ _ (by decide), ← State.get, hcap]
  generalize concurrencyChange.run v = u at hunit hcap' ⊢
  have hu : ChangesOnly (.PTM_CAP_CFG :: unitRegs) pathPowerComps false s u :=
    (hset.mono (by decide) (by decide) id).trans (hunit.mono (by decide) (fun _ h => h) id)
  have hans := ferryFinish_changes n eOk [u.mermode] u
  refine ⟨(hu.mono (by decide) (by decide) id).trans (hans.mono (by decide) (by decide) id), ?_, ?_⟩
  · rw [ferryOk, State.mermode_kept hans (by decide)]
    exact ferryFinish_after hu (by decide) (by decide) hservice (by decide) (by simp)
  · rw [ferryOk, State.get, hans.1 _ _ (by decide), ← State.get, hcap']

/-- HP_PWR_SET, where its conditions let it act. -/
theorem hpPwrCmd_run {s : State} {n : Nat} (hmode : s.mode = mService) (hpass : s.inPass (nbits (s.req n 4) 3 0) = false)
    (hst : nbits (s.req n 4) 17 16 ≠ pwActive) :
    (hpPwrCmd n).run s = (ferryOk n []).run ((pathPowerSet s (nbits (s.req n 4) 3 0) (nbits (s.req n 4) 17 16)).run s) := by
  rw [hpPwrCmd, Prog.run_ask]
  dsimp only
  rw [if_neg (by simp [hmode, hpass]), if_neg hst]
  rfl

theorem hpPwrCmd_answers {s : State} {n : Nat} (hservice : s.inService n) (hmode : s.mode = mService) (hpass : s.inPass (nbits (s.req n 4) 3 0) = false)
    (hst : nbits (s.req n 4) 17 16 ≠ pwActive) :
    ChangesOnly (pathPowerRegs ++ ferryRegs) (.kpr :: pathPowerComps) false s ((hpPwrCmd n).run s) ∧ Answered n eOk [] s ((hpPwrCmd n).run s) ∧
      ((hpPwrCmd n).run s).hpPwr (nbits (s.req n 4) 3 0) = nbits (s.req n 4) 17 16 := by
  rw [hpPwrCmd_run hmode hpass hst]
  obtain ⟨hset, hpwr⟩ := pathPowerSet_sets (nbits (s.req n 4) 3 0) (st := nbits (s.req n 4) 17 16) (Nat.mod_lt _ (by decide)) s
  generalize (pathPowerSet s _ _).run s = u at hset hpwr ⊢
  have hans := ferryFinish_changes n eOk [] u
  refine ⟨(hset.mono (by simp) (by simp) id).trans (hans.mono (by simp) (by decide) id), ?_, ?_⟩
  · exact ferryFinish_after hset (by decide) (by decide) hservice (by decide) (by decide)
  · rw [ferryOk, State.hpPwr, State.get, hans.1 _ _ (by decide)]
    exact hpwr

theorem hpPwrCmd_active {s : State} {n : Nat} (hmode : s.mode = mService) (hpass : s.inPass (nbits (s.req n 4) 3 0) = false)
    (hst : nbits (s.req n 4) 17 16 = pwActive) : (hpPwrCmd n).run s = (ferryErr n eArg).run s := by
  rw [hpPwrCmd, Prog.run_ask]
  dsimp only
  rw [if_neg (by simp [hmode, hpass]), if_pos hst]

theorem hpPwrCmd_otherMode {s : State} {n : Nat} (hmode : s.mode ≠ mService) : (hpPwrCmd n).run s = (ferryErr n eState).run s := by
  rw [hpPwrCmd, Prog.run_ask]
  dsimp only
  rw [if_pos (.inl hmode)]

/-- A command that serves a request in order. -/
theorem completes_serve {c : Instr} {s : State} {n code classes : Nat} {f2 : Bool} {p : Prog} {Q : State → Prop} (hs : s.mayServe n code classes f2)
    (hc : exec c s = .next ((serve n code classes f2 p).run s)) (hq : Q (p.run s)) : Completes c s Q :=
  ⟨_, hc, by rwa [serve_run hs]⟩

/-- One that refuses it. -/
theorem completes_refusal {c : Instr} {s : State} {n code classes err : Nat} {f2 : Bool} {p : Prog} (hs : s.mayServe n code classes f2)
    (hc : exec c s = .next ((serve n code classes f2 p).run s)) (hp : p.run s = (ferryErr n err).run s) (he : err < 256) :
    Completes c s fun t => ChangesOnly ferryRegs ferryComps false s t ∧ Answered n err [] s t :=
  completes_serve hs hc (hp ▸ ferryErr_answers hs.inService he)

/-- Settles O13: a request in order reaches its command (`serve_run`); what the command does beside the channel leaves the exchange as it stood, so that it
ends as `ferryFinish_answers` says, or waits behind a transition whose target and TRANS nothing of its actions writes. -/
theorem ferryModes : Obligations.FerryModes := by
  unfold Obligations.FerryModes
  refine ⟨fun s n hs hmode hok => ?_, fun s n r hs hr hok hmode => ?_,
    fun s n hs hmode hn => completes_refusal hs rfl (modeSetCmd_service hmode hn) (by decide), fun s n hs hlo hhi => ?_,
    fun s n hs h => completes_refusal hs rfl (capSetCmd_refuses h) (by decide), fun s n hs => ?_,
    fun s n hs hmode hpass hst => ?_, fun s n hs hmode hpass hst => completes_refusal hs rfl (hpPwrCmd_active hmode hpass hst) (by decide),
    fun s n hs hmode => completes_refusal hs rfl (hpPwrCmd_otherMode hmode) (by decide)⟩
  · have hasked : s.modeAsked n = { mode := mActive, ilvl := 0, ret := false } := by simp +decide [State.modeAsked, hmode]
    obtain ⟨hchange, hstarts⟩ := modeSetCmd_starts (n := n) hs.inService (by rwa [hasked]) (.inl (by rw [hasked]; decide))
    rw [hasked] at hstarts
    exact completes_serve hs rfl ⟨hchange.mono (by decide) (by decide) id, hstarts⟩
  · obtain rfl : r = s.modeAsked n := hr
    obtain ⟨hchange, hstarts⟩ := modeSetCmd_starts hs.inService hok hmode
    exact completes_serve hs rfl ⟨hchange.mono (by decide) (by decide) id, hstarts⟩
  · obtain ⟨hchange, hanswer⟩ := capSetCmd_answers hs.inService hlo hhi
    exact completes_serve hs rfl ⟨hchange.mono (by decide) (by decide) id, hanswer⟩
  · exact completes_serve hs rfl ⟨(ferryFinish_changes n eOk [s.mermode, s.timeLo] s).mono (by decide) (by decide) id,
      ferryFinish_answers hs.inService (by decide) (by simp)⟩
  · obtain ⟨hchange, hanswer⟩ := hpPwrCmd_answers hs.inService hmode hpass hst
    exact completes_serve hs rfl ⟨hchange.mono (by decide) (by decide) id, hanswer⟩

end Sys2Proof.Machine
end

section
/-! A ladder whose member number has no place in Table 4.16's descriptor: MPC is sent the low four bits of it (R135, R143). -/
namespace Sys2Proof.Machine

/-- Nothing follows the end of a read or job while MPC reconstructs no row and no member has ended unrecovered. -/
theorem memberSweep_idle {s : State} (hctxs : s.mpc.ctxs = []) (hunrec : s.rdc.unrec = []) : memberSweep.run s = s := by
  simp [memberSweep, ctxSweep, unrecSweep, hctxs, hunrec]

/-- A recovery counts, frees the slot and sends the member, and sends nothing else. -/
theorem ladderRecover_out (p k : Nat) (l : Ladder) (time level : Nat) (d : Decode) (s : State) : ((ladderRecover p k l time level d).run s).out =
    ((sendMember time l.row l.j p l.head level msRecovered l.cause d.unsat d.iter (d.bytes.map (·.toNat))).run s).out := by
  simp only [ladderRecover, hstAdd, sendMember, ladderFree, showHeld, Prog.run_all_cons, Prog.run_all_nil, Prog.run_ask, Prog.run_when, Prog.run_seq,
    Prog.run_upd, Prog.run_send, Prog.run_setF, Upd.apply_out]
  split_ifs <;> rfl

theorem ladderRecover_mpc (p k : Nat) (l : Ladder) (time level : Nat) (d : Decode) (s : State) :
    ((ladderRecover p k l time level d).run s).mpc = s.mpc :=
  Prog.Only.mpc (by simp +decide [ladderRecover, hstAdd, sendMember, send, ladderFree, showHeld, Upd.among]) s

theorem ladderRecover_unrec (p k : Nat) (l : Ladder) (time level : Nat) (d : Decode) (s : State) :
    ((ladderRecover p k l time level d).run s).rdc.unrec = s.rdc.unrec := by
  simp only [ladderRecover, hstAdd, sendMember, ladderFree, showHeld, Prog.run_all_cons, Prog.run_all_nil, Prog.run_ask, Prog.run_when, Prog.run_seq,
    Prog.run_upd, Prog.run_send, Prog.run_setF, Upd.apply_rdc]
  split_ifs <;> rfl

/-- An extended decode that ends well, of a ladder that MPC has not rebuilt and whose row it has not begun to, recovers the member at level 1 (R135, R145,
R146). -/
theorem l1DoneProg_recovers {s : State} {p k : Nat} {l : Ladder} {d : Decode} (hl : s.ladder p k = some l) (hl1 : l.l1 = true)
    (hq : 4 * p + k ∈ s.rdc.l1q.take 4) (hrebuilt : l.rebuilt = false) (hbegun : l.handed = false ∨ l.begun = false)
    (hgood : decodeGood d l.row l.j = true) : (l1DoneProg p k (some d)).run s = (ladderRecover p k l l.time 1 d).run s := by
  have hheld : (s.rdc.l1q.take 4).contains (4 * p + k) = true := List.contains_iff_mem.2 hq
  have hnot : (l.handed && l.begun) = false := Bool.and_eq_false_iff.2 hbegun
  simp only [l1DoneProg, Prog.run_ask, hl, hl1, hheld, Prog.run_when, Bool.and_self, if_true, Option.getD_some, hgood, hnot, hrebuilt, Bool.not_false]

/-- Some decode is good for any row and member number: zeros, sealed with their CRC. -/
theorem exists_decodeGood (g j : Nat) : ∃ d : Decode, decodeGood d g j = true :=
  ⟨{ iter := 3, unsat := 0, bytes := List.replicate 4108 0 ++ leBytes 4 (crc32 (sectorCrcBytes g j (List.replicate 4108 0))).toNat, flips := 4, rel := [],
     llrs := [] }, decodeGood_of _ g j _ List.length_replicate rfl rfl⟩

/-- A ladder on member 16 of row 5: the members of a row are 0 to 15. -/
def strayLadder : Ladder := { slot := 0, row := 5, j := 16, head := 0, track := 0, p0 := true, order := 0xFFFFFF20, l1Iter := 1, ofs := 0, l6n := 0,
                              captured := true, l1 := true, time := 9, bestTime := 9 }

/-- It holds slot 0 of path 0, and an engine is at its extended decode. -/
def strayDecode : State := (Upd.rdc fun x => { x with ladders := [(0, strayLadder)], l1q := [0] }).apply .reset

/-- The end of that decode, good, sends one frame: the member's, as `sendMember` makes it. -/
theorem strayDecode_out {d : Decode} (hgood : decodeGood d 5 16 = true) : ((Prog.seq (l1DoneProg 0 0 (some d)) memberSweep).run strayDecode).out =
    ((sendMember 9 5 16 0 0 1 msRecovered 0 d.unsat d.iter (d.bytes.map (·.toNat))).run strayDecode).out := by
  rw [Prog.run_seq, l1DoneProg_recovers (s := strayDecode) (l := strayLadder) rfl rfl (by decide) rfl (.inl rfl) hgood,
    memberSweep_idle ((congrArg MpcState.ctxs (ladderRecover_mpc ..)).trans rfl) ((ladderRecover_unrec ..).trans rfl)]
  exact ladderRecover_out 0 0 strayLadder 9 1 d strayDecode

/-- Refutes O34: its clause on a good extended decode, of any ladder, has the member's number as it stands in the ladder added into the descriptor. The
descriptor has four bits for it (Table 4.16), and RDC sends those: of a ladder on member 16, which no check of the statement keeps out, the frame sent names
member 0 of path 0 and the frame stated member 0 of path 1. -/
theorem not_sectorReads : ¬ Obligations.SectorReads := by
  intro h
  obtain ⟨-, -, -, -, -, -, -, -, -, -, -, -, hdone, -⟩ := h
  obtain ⟨d, hgood⟩ := exists_decodeGood 5 16
  obtain ⟨t, ht, -, -, -, hsent⟩ := hdone strayDecode 0 0 d strayLadder rfl rfl (by decide) rfl (.inl rfl) hgood (by decide +kernel)
  obtain rfl : (Prog.seq (l1DoneProg 0 0 (some d)) memberSweep).run strayDecode = t := Host.Outcome.next.inj ht
  rw [strayDecode_out hgood, sendMember, Prog.run_send, Upd.apply_out] at hsent
  obtain ⟨-, -, hargs⟩ := Out.frame.inj (List.mem_singleton.1 hsent)
  obtain ⟨-, hrest⟩ := List.cons.inj hargs
  obtain ⟨hword, -⟩ := List.cons.inj hrest
  exact absurd hword (by decide)

end Sys2Proof.Machine
end

section
/-! A rewrite entry whose line displaces a dirty one of the buffer cache (R167, R372): the eviction buffer shows it. -/
namespace Sys2Proof.Machine

/-- The sector that writer 2 is writing. -/
def inhibitedSector : SecInfo := { row := 5, j := 2, path := 0, head := 0, tag := 9, track := 0 }

/-- Writer 2's gate is open. The rewrite ring lies in DRAM, and WRC's class has way 0 of the buffer cache (R369), where an earlier store of WRC, 1 MiB above
the ring's next entry and so in the same set, left its line dirty. -/
def dirtySet : State := (all [setF BMU_CFG.CHANNELS 0 2, setF BMU_CFG.SIZE 0 32, setF BMU_CLASS_CFG.WAY_MASK Master.wrc.cls 1,
  setWriter 2 fun x => { x with pass := true, sector := some inhibitedSector }, setF WRC_WR_STAT.GATE 2 1, setF WRC_RWL_BASE.ADDR 0 0x110000,
  fabricWords .wrc 0x110100000 [1, 2, 3, 4]]).run .reset

/-- The gate is open over the sector, and the store of the entry is admitted. -/
theorem dirtySet_writes : dirtySet.on WRC_WR_STAT.GATE 2 = true ∧ (dirtySet.writer 2).sector = some inhibitedSector ∧
    dirtySet.storeFault .wrc (dirtySet.get WRC_RWL_BASE.ADDR 0 * 4096 + 16 * (dirtySet.get WRC_RWL_PTR.WR 0 % dirtySet.rwlSize)) 16 = none := by
  decide +kernel

/-- The entry's line takes the way of the dirty line, which enters the eviction buffer. -/
theorem dirtySet_evicts : dirtySet.get BMU_EVB_STAT.USED 0 = 0 ∧ ((inhibitSetProg 2).run dirtySet).get BMU_EVB_STAT.USED 0 = 1 := by
  decide +kernel

/-- Refutes O36: its clause on INHIBIT at an open gate lists the registers that may change, and of the buffer cache's only BMU_CCC_STAT. The rewrite entry of
R167 is a store to DRAM through the buffer cache. A dirty line that its allocation displaces enters the eviction buffer (R372), and BMU_EVB_STAT counts it
(Table 13.5). -/
theorem not_writePath : ¬ Obligations.WritePath := by
  intro h
  obtain ⟨-, -, -, -, -, -, -, -, -, -, hinhibit, -⟩ := h
  obtain ⟨hgate, hsector, hstore⟩ := dirtySet_writes
  obtain ⟨t, ht, hframe, -⟩ := hinhibit dirtySet 2 inhibitedSector hgate hsector hstore
  obtain rfl : (inhibitSetProg 2).run dirtySet = t := Host.Outcome.next.inj ht
  have hkept : ((inhibitSetProg 2).run dirtySet).get BMU_EVB_STAT.USED 0 = dirtySet.get BMU_EVB_STAT.USED 0 := hframe.get BMU_EVB_STAT.USED 0 (by decide)
  obtain ⟨hbefore, hafter⟩ := dirtySet_evicts
  exact absurd (hafter.symm.trans (hkept.trans hbefore)) (by decide)

end Sys2Proof.Machine
end

section
/-! A context's first MANUAL execution after AUTO ones: it takes its last AUTO output, not MAN (R180). -/
namespace Sys2Proof.Machine

/-- In MANUAL, with no limit beyond the bank's own, a context's output is the MAN that its execution takes (R176). -/
theorem execCtx_manual_out (b : Bank) (e ff man i : Int) (first : Bool) (s1 s2 : List Int) :
    (execCtx b e ff man i false first s1 s2 none).out = man := rfl

/-- The position context of actuator 0 (context 16), enabled with MAN at 5, has had one AUTO execution, whose bank of zeros makes its output 0. Firmware then
puts it in MANUAL. -/
def backToManual : State := (all [setF SVE_CTX_CFG.ENABLE 16 1, setF SVE_CTX_CFG.MODE 16 1, setF SVE_CTX_MAN.MAN 16 5, trigger 16 0, contextEndProg 16 0 0,
  setF SVE_CTX_CFG.MODE 16 0]).run .reset

/-- It may execute at once: its unit is idle, and neither a trigger nor a commit waits there. -/
theorem backToManual_ready : backToManual.on SVE_CTX_CFG.ENABLE 16 = true ∧ backToManual.ctxMay 16 = true ∧ (backToManual.ctx 16).trig = none ∧
    backToManual.sve.running.find? (·.1 == backToManual.get SVE_CTX_CFG.CLU 16) = none ∧ backToManual.sve.waiting = [] ∧
    backToManual.get SVE_CLU_CTL.COMMIT (backToManual.get SVE_CTX_CFG.CLU 16) = 0 := by
  decide +kernel

/-- It is in MANUAL, its last execution was an AUTO one, and MAN is not the output of that one. -/
theorem backToManual_shows : backToManual.on SVE_CTX_CFG.MODE (16 : Fin 24) = false ∧ (backToManual.ctx 16).wasAuto = true ∧
    backToManual.sget SVE_CTX_MAN.MAN (16 : Fin 24) = 5 ∧ backToManual.sget SVE_CTX_OUT.OUT 16 = 0 := by
  decide +kernel

/-- A trigger starts an execution that takes the last AUTO output. -/
theorem backToManual_takesOut : ∀ x ∈ ((trigger 16 0).run backToManual).sve.running, x.2.res.out = 0 := by
  decide +kernel

/-- Refutes O38: its clause on a trigger of an idle unit has the execution of a position context yield the control law on the MAN that the register holds. The
first MANUAL execution after an AUTO one takes, and loads into MAN, the last AUTO output (R180): here the output is 0, where MAN still holds 5. -/
theorem not_controlLoops : ¬ Obligations.ControlLoops := by
  intro h
  obtain ⟨-, -, htrigger, -⟩ := h
  obtain ⟨henable, hmay, htrig, hidle, hwaiting, hcommit⟩ := backToManual_ready
  obtain ⟨hmode, -, hman, -⟩ := backToManual_shows
  obtain ⟨t, ht, -, ⟨x, hx, -, -, -, -, hlaw⟩, -⟩ := htrigger backToManual 16 0 henable hmay htrig hidle hwaiting hcommit
  obtain rfl : (trigger 16 0).run backToManual = t := Host.Outcome.next.inj ht
  have hout : x.2.res.out = 5 := by rw [hlaw (by decide), hmode, execCtx_manual_out, hman]
  exact absurd ((backToManual_takesOut x hx).symm.trans hout) (by decide)

end Sys2Proof.Machine
end

section
/-! A speed set-point held for the hand-over, and a later write that is in force at once: the held value is given up (R222, R241). -/
namespace Sys2Proof.Machine

/-- A START is sensing the rotor's angle when the Keeper writes 9,000 rpm, which waits for the hand-over; a STOP then takes the spindle to SHORT. -/
def heldSpeed : State := (all [setF SPN_MOTOR.POLES 0 6, spnStart, spnSpdSet 9000, spnStop]).run .reset

/-- The spindle is in SHORT, and the value is still held. -/
theorem heldSpeed_holds : heldSpeed.spn? = spShort ∧ heldSpeed.spn.spdPend = some 9000 := by
  decide +kernel

/-- A write of SPD_SET in SHORT leaves no value held. -/
theorem spnSpdSet_short_spdPend {s : State} (h : s.spn? = spShort) (v : Nat) : ((spnSpdSet v).run s).spn.spdPend = none := by
  simp +decide [spnSpdSet, h]

/-- Refutes O42: its clause on SPD_SET in OFF, SHORT and HANDED says that nothing changes but SPN_CTL, the spindle's hidden state with the rest. A value that a
write in SENSE, RAMP or CATCH left for the hand-over outlasts a STOP; the later write takes its place (R241), so that it is no longer held. -/
theorem not_spindleControl : ¬ Obligations.SpindleControl := by
  intro h
  obtain ⟨-, -, -, -, -, -, -, -, -, -, hshort, -⟩ := h
  obtain ⟨hst, hheld⟩ := heldSpeed_holds
  obtain ⟨t, ht, -, -, hspn⟩ := hshort heldSpeed 7200 (.inr (.inl hst))
  obtain rfl : (spnSpdSet 7200).run heldSpeed = t := Host.Outcome.next.inj ht
  have hkept : ((spnSpdSet 7200).run heldSpeed).spn.spdPend = some 9000 := by rw [hspn, hheld]
  rw [spnSpdSet_short_spdPend hst] at hkept
  cases hkept

end Sys2Proof.Machine
end

section
/-! A shock event that aborts a calibration run: what the run saved returns to its registers, behind what the event shows (R218, R558, R559). -/
namespace Sys2Proof.Machine

/-- In ACTIVE, with input 3 enabled for shock events, a run of class H is in progress. What it has saved is SVE_SHK_STAT as it stands, with SHOCK at 0. No
command saves that register: CAL_GO saves those of Table 21.3. -/
def savedShockStat : State := (all [setF PTM_MODE_STAT.MODE 0 mActive, setF SVE_SHK_CFG.SHK_EN 0 8,
  .upd (.svc fun x => { x with calActive := true, calClass := 1, calSaved := [(regKey .SVE_SHK_STAT 0, 0)] })]).run .reset

/-- In normal service, level 200 on input 3 begins a shock event. -/
theorem savedShockStat_begins : savedShockStat.bitF SVE_SHK_CFG.SHK_EN 0 3 = true ∧ savedShockStat.get SVE_SHK_CFG.SHK_THR 0 ≤ 200 ∧
    savedShockStat.wrc.shock = false ∧ savedShockStat.normalService = true := by
  decide +kernel

/-- The event aborts the run, and the value put back takes SHOCK away again. -/
theorem savedShockStat_restored : ((shockStartProg 3 200).run savedShockStat).get SVE_SHK_STAT.SHOCK 0 = 0 := by
  decide +kernel

/-- Refutes O40: its clause on a shock event that begins in normal service has SHOCK at 1 afterwards, from every state. The event aborts a run of class H
(R558), which puts back all that the run has saved (R559), and the clause does not say what that is: where it is SVE_SHK_STAT, SHOCK is 0 again. CAL_GO begins
no such run, so the clause lacks a hypothesis on what is saved, where the clause with a frame has one by which no run is aborted. -/
theorem not_vibrationAndShock : ¬ Obligations.VibrationAndShock := by
  intro h
  obtain ⟨-, hbegin, -⟩ := h
  obtain ⟨henabled, hlevel, hnone, hservice⟩ := savedShockStat_begins
  obtain ⟨t, ht, hshock, -⟩ := hbegin savedShockStat 3 200 henabled hlevel hnone hservice
  obtain rfl : (shockStartProg 3 200).run savedShockStat = t := Host.Outcome.next.inj ht
  exact absurd (savedShockStat_restored.symm.trans hshock) (by decide)

end Sys2Proof.Machine
end

section
/-! A STOP from RUN while a writer writes: its rewrite entry's line displaces a dirty one of the buffer cache (R167, R234, R372). -/
namespace Sys2Proof.Machine

/-- The spindle runs at speed; writer 2's gate is open over a sector, and the next rewrite entry falls in a set of the buffer cache whose one way for WRC
holds a dirty line. -/
def runningDirtySet : State := (all [setF SPN_STAT.STATE 0 spRun, setF SPN_STAT.AT_SPEED 0 1]).run dirtySet

/-- The spindle is in RUN, the gate is open over the sector, and the store of the entry is admitted. -/
theorem runningDirtySet_writes : runningDirtySet.spn? = spRun ∧ runningDirtySet.on SPN_STAT.AT_SPEED 0 = true ∧
    runningDirtySet.on WRC_WR_STAT.GATE 2 = true ∧ (runningDirtySet.writer 2).sector = some inhibitedSector ∧
    runningDirtySet.storeFault .wrc (runningDirtySet.get WRC_RWL_BASE.ADDR 0 * 4096 +
      16 * (runningDirtySet.get WRC_RWL_PTR.WR 0 % runningDirtySet.rwlSize)) 16 = none := by
  decide +kernel

/-- The STOP closes the gate, and the entry's line takes the way of the dirty line, which enters the eviction buffer. -/
theorem runningDirtySet_stop_evicts : runningDirtySet.get BMU_EVB_STAT.USED 0 = 0 ∧ (spnStop.run runningDirtySet).get BMU_EVB_STAT.USED 0 = 1 := by
  decide +kernel

/-- Refutes O41: its second clause on STOP from ACCEL, RUN or SPEED CHANGE lists the registers that may change, and none of the buffer cache's. Leaving RUN
clears AT_SPEED, whose source closes every gate (R166, R234), and the rewrite entry of the sector under an open gate (R167) is a store to DRAM through the
buffer cache. A dirty line that its allocation displaces enters the eviction buffer (R372), and BMU_EVB_STAT counts it (Table 13.5). -/
theorem not_spindleStart : ¬ Obligations.SpindleStart := by
  intro h
  obtain ⟨-, -, -, -, -, -, -, hstop, -⟩ := h
  obtain ⟨hrun, -⟩ := runningDirtySet_writes
  obtain ⟨t, ht, hframe, -⟩ := hstop runningDirtySet (.inr (.inl hrun))
  obtain rfl : spnStop.run runningDirtySet = t := Host.Outcome.next.inj ht
  have hkept : (spnStop.run runningDirtySet).get BMU_EVB_STAT.USED 0 = runningDirtySet.get BMU_EVB_STAT.USED 0 :=
    hframe.fieldsKept (fs := [BMU_EVB_STAT.USED]) (by decide) _ (List.mem_singleton.2 rfl) 0
  obtain ⟨hbefore, hafter⟩ := runningDirtySet_stop_evicts
  exact absurd (hafter.symm.trans (hkept.trans hbefore)) (by decide)

end Sys2Proof.Machine
end

section
/-! What SPL's operations on floods, members and sides can touch (R247 to R259). -/
namespace Sys2Proof.Machine

/-- Where no register is named, nothing but components may change. -/
theorem ChangesOnly.unchanged {ps : List Part} {s t : State} (h : ChangesOnly [] ps false s t) : Unchanged [] ps [] s t :=
  ⟨fun r i _ => h.1 r i List.not_mem_nil, h.2.1, fun a _ => h.2.2.1 rfl a, h.2.2.2⟩

section
variable {R : RegName → Prop} {P : Part → Prop} {M : Prop}

theorem splSend_among (lane typ origin hops seq : Nat) (s2v : Bool) (payload : List Byte) (ho : P .out) :
    (splSend lane typ origin hops seq s2v payload).Only (Upd.among R P M) := by
  simp only [splSend, send, Only.ask, Only.when, Only.emit]
  exact fun _ _ => ho

theorem splForward_among (h : StraitHdr) (typ : Nat) (payload : List Byte) (ho : P .out) : (splForward h typ payload).Only (Upd.among R P M) := by
  simp only [splForward, Only.ask, Only.ite, Only.skip, implies_true, true_and]
  exact fun _ _ => splSend_among _ _ _ _ _ _ _ ho

theorem splFlood_among (typ : Nat) (payload : List Byte) (hs : P .spl) (ho : P .out) : (splFlood typ payload).Only (Upd.among R P M) := by
  simp only [splFlood, splSeq, Only.ask, Only.seq, Only.upd]
  exact fun _ => ⟨hs, fun _ => ⟨splSend_among _ _ _ _ _ _ _ ho, splSend_among _ _ _ _ _ _ _ ho⟩⟩

theorem splHop_among (d typ ver : Nat) (payload : List Byte) (hs : P .spl) (ho : P .out) : (splHop d typ ver payload).Only (Upd.among R P M) := by
  simp only [splHop, splSeq, send, Only.ask, Only.seq, Only.upd, Only.emit]
  exact fun _ => ⟨hs, fun _ => ho⟩

theorem membersShow_among (hr : R .SPL_STAT) (hm : R .SPL_MEMBERS) : membersShow.Only (Upd.among R P M) := by
  simp only [membersShow, Only.ask, Only.seq, Only.each, Only.setF]
  exact fun _ => ⟨hr, fun _ _ => hm⟩

theorem setSplState_among (st : Nat) (hr : R .SPL_STAT) (hm : R .SPL_MEMBERS) : (setSplState st).Only (Upd.among R P M) :=
  ⟨hr, membersShow_among hr hm⟩

theorem splReceive_among (h : StraitHdr) (typ : Nat) (payload : List Byte) {act : Prog} (hs : P .spl) (ho : P .out)
    (ha : act.Only (Upd.among R P M)) : (splReceive h typ payload act).Only (Upd.among R P M) := by
  simp only [splReceive, setLast, Only.ask, Only.when, Only.seq, Only.upd]
  exact fun _ _ => ⟨fun _ => ⟨hs, ha⟩, splForward_among h typ payload ho⟩

theorem refLockFixed_among (hr : R .SPL_STAT) : refLockFixed.Only (Upd.among R P M) := by
  simp only [refLockFixed, Only.whenS, Only.setF]
  exact fun _ _ => hr

theorem setWrap_among (d v : Nat) (hr : R .SPL_STAT) :
    (if d = 0 then setF SPL_STAT.WRAP_P 0 v else setF SPL_STAT.WRAP_N 0 v).Only (Upd.among R P M) := by
  rw [Only.ite]
  exact ⟨fun _ => hr, fun _ => hr⟩

theorem sideIdle_among (d : Nat) (hr : ∀ r ∈ [RegName.SPL_SIDE_STAT, .SPL_STAT, .SPL_MEMBERS], R r) (ho : P .out) :
    (sideIdle d).Only (Upd.among R P M) := by
  have hside : R .SPL_SIDE_STAT := hr _ (by decide)
  simp only [sideIdle, splIsolated, send, Only.cons, Only.nil, Only.setF, Only.emit, Only.whenS, and_true]
  exact ⟨hside, hside, ho, fun _ _ => setSplState_among _ (hr _ (by decide)) (hr _ (by decide))⟩

theorem lanesIdle_among (hr : R .SPL_STAT) (hside : R .SPL_SIDE_STAT) (ho : P .out) : lanesIdle.Only (Upd.among R P M) :=
  ⟨hside, hside, hside, hside, hr, hr, ho, ho, trivial⟩

theorem dlyReq_among (d : Nat) (hp : ∀ q ∈ [Part.free, .out, .spl], P q) : (dlyReq d).Only (Upd.among R P M) := by
  simp only [dlyReq, Only.fresh, Only.ask]
  exact fun _ => ⟨hp .free (by decide), fun _ => splHop_among _ _ _ _ (hp _ (by decide)) (hp _ (by decide))⟩

theorem sideUp_among (d : Nat) (hr : ∀ r ∈ [RegName.SPL_SIDE_STAT, .SPL_STAT, .SPL_MEMBERS], R r) (hp : ∀ q ∈ [Part.free, .out, .spl], P q) :
    (sideUp d).Only (Upd.among R P M) := by
  have hs : P .spl := hp _ (by decide)
  simp only [sideUp, splJoin, Only.ask, Only.cons, Only.nil, Only.when, Only.seq, Only.setF, Only.upd, and_true]
  exact fun _ => ⟨hr .SPL_SIDE_STAT (by decide), setWrap_among d 0 (hr _ (by decide)), dlyReq_among d hp,
    fun _ => ⟨⟨splFlood_among _ _ hs (hp _ (by decide)), hs⟩, setSplState_among _ (hr _ (by decide)) (hr _ (by decide)), hs⟩⟩
end

/-! Floods and forwarding (R252, R253): registers stay, and of SPL's hidden state only the flood's SEQ moves on. -/

section
variable (s : State) (f : Fld) (i : Nat)

@[simp] theorem splForward_get (h : StraitHdr) (typ : Nat) (payload : List Byte) : ((splForward h typ payload).run s).get f i = s.get f i :=
  (splForward_among h typ payload trivial).get s i

@[simp] theorem splForward_spl (h : StraitHdr) (typ : Nat) (payload : List Byte) : ((splForward h typ payload).run s).spl = s.spl :=
  (splForward_among h typ payload (by decide)).spl s

@[simp] theorem splSend_spl (lane typ origin hops seq : Nat) (s2v : Bool) (payload : List Byte) :
    ((splSend lane typ origin hops seq s2v payload).run s).spl = s.spl :=
  (splSend_among _ _ _ _ _ _ _ (by decide)).spl s

@[simp] theorem splFlood_get (typ : Nat) (payload : List Byte) : ((splFlood typ payload).run s).get f i = s.get f i :=
  (splFlood_among typ payload trivial trivial).get s i

@[simp] theorem dlyReq_get (d : Nat) : ((dlyReq d).run s).get f i = s.get f i := (dlyReq_among d fun _ _ => trivial).get s i

@[simp] theorem splFlood_spl (typ : Nat) (payload : List Byte) : ((splFlood typ payload).run s).spl =
    { s.spl with seq := Sparse.put 0 s.spl.seq typ ((Sparse.get 0 s.spl.seq typ + 1) % 256) } := by
  simp only [splFlood, splSeq, Prog.run_ask, Prog.run_seq, splSend_spl, Prog.run_upd, Upd.apply_spl]
end

/-- On a side that is up the frame goes out. -/
theorem splSend_out {s : State} {lane : Nat} (h : s.link (laneSide lane) = lkUp) (typ origin hops seq : Nat) (s2v : Bool) (payload : List Byte) :
    ((splSend lane typ origin hops seq s2v payload).run s).out = .frame "SL" "frame" (lane ::
      (straitFrame typ (s.verByte (laneSide lane)) origin hops seq (s2v && s.hopS2 (laneSide lane))
        (hopPayload typ (s.hopS2 (laneSide lane)) (s2v && s.hopS2 (laneSide lane)) payload)).map (·.toNat)) :: s.out := by
  simp [splSend, h]

/-- Both sides are up. -/
def State.bothUp (s : State) : Prop := s.link 0 = lkUp ∧ s.link 1 = lkUp

theorem State.bothUp.lane {s : State} (h : s.bothUp) (lane : Nat) : s.link (laneSide lane) = lkUp := by
  unfold laneSide
  split_ifs
  · exact h.2
  · exact h.1

theorem State.bothUp.of_get {s t : State} (h : s.bothUp) (hk : ∀ d, t.get SPL_SIDE_STAT.LINK d = s.get SPL_SIDE_STAT.LINK d) : t.bothUp :=
  ⟨(hk 0).trans h.1, (hk 1).trans h.2⟩

/-- With both sides up a flood leaves on both rings. -/
theorem splFlood_length {s : State} (h : s.bothUp) (typ : Nat) (payload : List Byte) :
    ((splFlood typ payload).run s).out.length = s.out.length + 2 := by
  simp only [splFlood, splSeq, Prog.run_ask, Prog.run_seq]
  rw [splSend_out, splSend_out]
  · simp
  · exact (h.of_get fun d => Upd.apply_get _ _ rfl _ _).lane _
  · refine State.bothUp.lane (State.bothUp.of_get h fun d => ?_) _
    rw [(splSend_among _ _ _ _ _ _ _ trivial).get, Prog.run_upd, Upd.apply_get _ _ rfl]

/-! The members shown (R258): MEMBERS and SPL_MEMBERS alone. -/

/-- A field that shows neither the member's state nor the members present. -/
abbrev besideMember (f : Fld) : Prop := f.reg ≠ .SPL_MEMBERS ∧ (f.reg ≠ .SPL_STAT ∨ f.hi < 64 ∧ (f.hi < 10 ∨ 19 < f.lo ∧ f.hi < 29))

section
variable (s : State)

theorem membersShow_get {f : Fld} (i : Nat) (hm : f.reg ≠ .SPL_MEMBERS) (hb : f.reg ≠ .SPL_STAT ∨ f.hi < 64 ∧ (f.hi < 10 ∨ 19 < f.lo)) :
    (membersShow.run s).get f i = s.get f i := by
  simp only [membersShow, Prog.run_ask, Prog.run_seq, Prog.run_setF]
  rw [Prog.Only.get]
  · exact State.get_fld_ne _ _ _ _ _ _ (hb.imp Ne.symm fun ⟨hf, hc⟩ => .inr ⟨by decide, hf, hc.symm⟩)
  · simp only [Only.each, Only.setF]
    exact fun _ _ => hm.symm

@[simp] theorem membersShow_spl : (membersShow.run s).spl = s.spl := (membersShow_among trivial trivial).spl s

theorem setSplState_get {f : Fld} (st i : Nat) (h : besideMember f) : ((setSplState st).run s).get f i = s.get f i := by
  obtain ⟨hm, hb⟩ := h
  rw [setSplState, Prog.run_seq, membersShow_get _ _ hm (hb.imp_right fun ⟨hf, hc⟩ => ⟨hf, hc.imp_right And.left⟩)]
  exact State.get_fld_ne _ _ _ _ _ _ (hb.imp Ne.symm fun ⟨hf, hc⟩ => .inr ⟨by decide, hf, .inr (hc.elim (Nat.lt_trans · (by decide)) And.right)⟩)

/-- The member's state is the one set. -/
theorem setSplState_state {st : Nat} (hst : st < 8) : ((setSplState st).run s).splState = st := by
  rw [State.splState, setSplState, Prog.run_seq, membersShow_get _ _ (by decide) (by decide), Prog.run_setF, State.get_fld_self _ _ _ _ (by decide)]
  exact Nat.mod_eq_of_lt hst

@[simp] theorem setSplState_spl (st : Nat) : ((setSplState st).run s).spl = s.spl := (setSplState_among st trivial trivial).spl s
@[simp] theorem setSplState_out (st : Nat) : ((setSplState st).run s).out = s.out := (setSplState_among st trivial trivial).out s

theorem refLockFixed_get {f : Fld} (i : Nat) (hb : f.reg ≠ .SPL_STAT ∨ f.hi < 64 ∧ (f.hi < 27 ∨ 27 < f.lo)) :
    (refLockFixed.run s).get f i = s.get f i := by
  rw [refLockFixed, Prog.run_whenS]
  split_ifs
  · exact State.get_fld_ne _ _ _ _ _ _ (hb.imp Ne.symm fun ⟨hf, hc⟩ => .inr ⟨by decide, hf, hc.symm⟩)
  · rfl

end

end Sys2Proof.Machine
end

section
/-! The sides of the Strait (Table 9.4, Table 9.7, R247 to R259). -/
namespace Sys2Proof.Machine

/-- A command under a condition that the state meets. -/
theorem completes_whenS {c : Instr} {s : State} {cond : State → Bool} {p : Prog} {Q : State → Prop} (h : exec c s = .next ((whenS cond p).run s))
    (hc : cond s = true) (hQ : Q (p.run s)) : Completes c s Q :=
  ⟨p.run s, h.trans (by rw [Prog.run_whenS, if_pos hc]), hQ⟩

/-! EN (R257, R259). -/

/-- EN is set: the member is LINKING, with both sides wrapped. -/
def linkingBegins : Prog := all [setF SPL_CFG.EN 0 1, setF SPL_STAT.REF_LOCK 0 0, setSplState mbLinking, setF SPL_STAT.WRAP_P 0 1, setF SPL_STAT.WRAP_N 0 1,
  .upd (.spl fun x => { x with leaveFrames := 0 }), refLockFixed]

theorem splEnableProg_run {s : State} (h : s.on SPL_CFG.EN 0 = false) : (splEnableProg .keeper).run s =
    linkingBegins.run ((when (s.spl.leaveFrames != 0) lanesIdle).run s) := by
  simp only [splEnableProg, keeperSets, if_true, Prog.run_ask, h, Bool.not_false, Prog.run_when, Prog.run_all_cons, linkingBegins]

theorem linkingBegins_changes (s : State) : ChangesOnly [.SPL_CFG, .SPL_STAT, .SPL_MEMBERS] [.spl] false s (linkingBegins.run s) := by
  refine Prog.Only.changesOnly ?_ s
  have hstat : RegName.SPL_STAT ∈ [RegName.SPL_CFG, .SPL_STAT, .SPL_MEMBERS] := by decide
  exact ⟨List.mem_cons_self, hstat, setSplState_among _ hstat (by decide), hstat, hstat, List.mem_singleton_self _, refLockFixed_among hstat, trivial⟩

theorem linkingBegins_shows (s : State) : (linkingBegins.run s).get SPL_CFG.EN 0 = 1 ∧ (linkingBegins.run s).splState = mbLinking ∧
    (linkingBegins.run s).get SPL_STAT.WRAP_P 0 = 1 ∧ (linkingBegins.run s).get SPL_STAT.WRAP_N 0 = 1 := by
  simp only [linkingBegins, Prog.run_all_cons, Prog.run_all_nil, Prog.run_setF, Prog.run_upd, State.splState]
  refine ⟨?_, ?_, ?_, ?_⟩ <;> rw [refLockFixed_get _ _ (by decide), Upd.apply_get _ _ rfl] <;>
    simp (disch := decide) only [State.get_fld_reg, State.get_fld_bits, State.get_fld_self, setSplState_get]
  · rfl
  · exact setSplState_state _ (by decide)
  · rfl
  · rfl

theorem lanesIdle_down (s : State) : (lanesIdle.run s).link 0 = lkDown ∧ (lanesIdle.run s).link 1 = lkDown := by
  simp (disch := decide) only [lanesIdle, State.link, Prog.run_all_cons, Prog.run_all_nil, Prog.run_setF, Prog.run_send, Upd.apply_get _ _ (Upd.onRegs_emit _),
    State.get_fld_ne, State.get_fld_self]
  exact ⟨rfl, rfl⟩

theorem splEnable_links {s : State} (h : s.on SPL_CFG.EN 0 = false) : Completes (.splEnable .keeper) s fun t =>
    ChangesOnly [.SPL_CFG, .SPL_STAT, .SPL_MEMBERS, .SPL_SIDE_STAT] [.spl, .out] false s t ∧ t.get SPL_CFG.EN 0 = 1 ∧ t.splState = mbLinking ∧
    t.get SPL_STAT.WRAP_P 0 = 1 ∧ t.get SPL_STAT.WRAP_N 0 = 1 ∧
    (s.spl.leaveFrames = 0 → t.out = s.out ∧ ∀ d, t.reg .SPL_SIDE_STAT d = s.reg .SPL_SIDE_STAT d) ∧
    (s.spl.leaveFrames ≠ 0 → t.link 0 = lkDown ∧ t.link 1 = lkDown) := by
  refine ⟨_, congrArg Host.Outcome.next (splEnableProg_run h), ?_⟩
  have hidle : (when (s.spl.leaveFrames != 0) lanesIdle).Only (Upd.among (· ∈ [RegName.SPL_STAT, .SPL_SIDE_STAT]) (· ∈ [Part.out]) (false = true)) :=
    (Only.when _ _ _).2 fun _ => lanesIdle_among (by decide) (by decide) (by decide)
  have hchange := linkingBegins_changes ((when (s.spl.leaveFrames != 0) lanesIdle).run s)
  obtain ⟨hen, hstate, hp, hn⟩ := linkingBegins_shows ((when (s.spl.leaveFrames != 0) lanesIdle).run s)
  refine ⟨((hidle.changesOnly s).mono (by decide) (by decide) id).trans (hchange.mono (by decide) (by decide) id), hen, hstate, hp, hn, fun h0 => ?_,
    fun h0 => ?_⟩
  · rw [h0] at hchange ⊢
    exact ⟨hchange.2.1 .out (by decide), fun d => hchange.1 _ d (by decide)⟩
  · have hlink : ∀ d, (linkingBegins.run ((when (s.spl.leaveFrames != 0) lanesIdle).run s)).link d = (lanesIdle.run s).link d := fun d => by
      rw [State.link, State.get, hchange.1 _ d (by decide), Prog.run_when, if_pos (bne_iff_ne.2 h0)]
      rfl
    rw [hlink, hlink]
    exact lanesIdle_down s

/-- EN is cleared. -/
def enCleared : Prog := .seq (setF SPL_CFG.EN 0 0) refLockFixed

theorem splDisableProg_run (s : State) : (splDisableProg .keeper).run s = enCleared.run (splLeave.run s) := rfl

theorem enCleared_changes (s : State) : ChangesOnly [.SPL_CFG, .SPL_STAT] [] false s (enCleared.run s) :=
  Prog.Only.changesOnly (p := enCleared) ⟨List.mem_cons_self, refLockFixed_among (by decide)⟩ s

theorem enCleared_get {f : Fld} (i : Nat) (hr : f.reg ≠ .SPL_CFG) (hb : f.reg ≠ .SPL_STAT ∨ f.hi < 64 ∧ (f.hi < 27 ∨ 27 < f.lo)) (s : State) :
    (enCleared.run s).get f i = s.get f i := by
  rw [enCleared, Prog.run_seq, refLockFixed_get _ _ hb]
  exact State.get_fld_reg _ _ _ _ _ _ hr.symm

/-- With EN at 0 nothing is locked to but the member's own time (R263). -/
theorem enCleared_shows (s : State) : (enCleared.run s).get SPL_CFG.EN 0 = 0 ∧ (enCleared.run s).get SPL_STAT.REF_LOCK 0 = 1 := by
  have hen : ((setF SPL_CFG.EN 0 0).run s).get SPL_CFG.EN 0 = 0 := State.get_fld_self _ _ _ _ (by decide)
  refine ⟨?_, ?_⟩
  · rw [enCleared, Prog.run_seq, refLockFixed_get _ _ (by decide), hen]
  · have hoff : ((setF SPL_CFG.EN 0 0).run s).on SPL_CFG.EN 0 = false := by rw [State.on, hen]; rfl
    rw [enCleared, Prog.run_seq, refLockFixed, Prog.run_whenS, if_pos (by simp only [hoff, Bool.not_false, Bool.or_true, Bool.true_or])]
    exact State.get_fld_self _ _ _ _ (by decide)

theorem splLeave_run {s : State} (h : s.splState ≠ mbOff) : splLeave.run s = (setF SPL_STAT.IS_MASTER 0 0).run
    ((Upd.spl fun x => { x with leaveFrames := 2, members := [], joinFrames := 0, hasMaster := false, last := [] }).apply
      ((setSplState mbOff).run ((splFlood tLeave []).run s))) := by
  simp only [splLeave, Prog.run_ask, Prog.run_when, bne_iff_ne.2 h, if_true, Prog.run_all_cons, Prog.run_all_nil, Prog.run_upd]

theorem splLeave_off {s : State} (h : s.splState = mbOff) : splLeave.run s = s := by
  simp [splLeave, h]

theorem splLeave_changes {s : State} (h : s.splState ≠ mbOff) : ChangesOnly [.SPL_STAT, .SPL_MEMBERS] [.spl, .out] false s (splLeave.run s) := by
  rw [splLeave_run h]
  exact (((splFlood_among _ _ (by decide) (by decide)).changesOnly s).prog (setSplState_among _ (by decide) (by decide))).app List.mem_cons_self
    |>.prog (p := setF SPL_STAT.IS_MASTER 0 0) List.mem_cons_self

theorem splLeave_shows {s : State} (h : s.splState ≠ mbOff) : (splLeave.run s).splState = mbOff ∧ (splLeave.run s).get SPL_STAT.IS_MASTER 0 = 0 ∧
    (splLeave.run s).spl.leaveFrames = 2 ∧ Sparse.get 0 (splLeave.run s).spl.seq tLeave = (Sparse.get 0 s.spl.seq tLeave + 1) % 256 ∧
    (s.bothUp → (splLeave.run s).out.length = s.out.length + 2) := by
  rw [splLeave_run h]
  refine ⟨?_, State.get_fld_self _ _ _ _ (by decide), rfl, ?_, fun hup => ?_⟩
  · rw [State.splState, Prog.run_setF, State.get_fld_bits _ _ _ _ _ _ (by decide), Upd.apply_get _ _ rfl]
    exact setSplState_state _ (by decide)
  · simp
  · simp [splFlood_length hup]

theorem splDisable_leaves {s : State} (h : s.splState ≠ mbOff) :
    ChangesOnly [.SPL_CFG, .SPL_STAT, .SPL_MEMBERS] [.spl, .out] false s ((splDisableProg .keeper).run s) ∧
    ((splDisableProg .keeper).run s).get SPL_CFG.EN 0 = 0 ∧ ((splDisableProg .keeper).run s).splState = mbOff ∧
    ((splDisableProg .keeper).run s).get SPL_STAT.IS_MASTER 0 = 0 ∧ ((splDisableProg .keeper).run s).get SPL_STAT.REF_LOCK 0 = 1 ∧
    ((splDisableProg .keeper).run s).spl = (splLeave.run s).spl ∧ ((splDisableProg .keeper).run s).out = (splLeave.run s).out := by
  rw [splDisableProg_run]
  have hchange := enCleared_changes (splLeave.run s)
  obtain ⟨hen, hlock⟩ := enCleared_shows (splLeave.run s)
  obtain ⟨hstate, hmaster, -⟩ := splLeave_shows h
  refine ⟨((splLeave_changes h).mono (by decide) (by decide) id).trans (hchange.mono (by decide) (by decide) id), hen, ?_, ?_, hlock,
    hchange.2.1 .spl (by decide), hchange.2.1 .out (by decide)⟩
  · rw [State.splState, enCleared_get _ (by decide) (by decide)]
    exact hstate
  · rw [enCleared_get _ (by decide) (by decide), hmaster]

theorem splDisable_off {s : State} (h : s.splState = mbOff) :
    ChangesOnly [.SPL_CFG, .SPL_STAT] [] false s ((splDisableProg .keeper).run s) ∧ ((splDisableProg .keeper).run s).get SPL_CFG.EN 0 = 0 := by
  rw [splDisableProg_run, splLeave_off h]
  exact ⟨enCleared_changes s, (enCleared_shows s).1⟩

/-! A side that trains, says HELLO, or goes idle (Table 9.4, R249). -/

theorem linkBegins_changes (d st : Nat) (s : State) : Unchanged [(.SPL_SIDE_STAT, d)] [.spl, .out] [] s ((linkBegins d st).run s) := by
  refine Prog.Only.unchanged ?_ s
  simp only [linkBegins, Only.ask, Only.seq, Only.setF, Only.upd]
  exact fun _ => ⟨List.mem_singleton_self _, List.mem_cons_self⟩

theorem linkBegins_shows (d : Nat) {st : Nat} (hst : st < 4) (s : State) : ((linkBegins d st).run s).link d = st ∧
    Sparse.get 0 ((linkBegins d st).run s).spl.linkAt d = s.ptm.ticks := by
  simp only [linkBegins, Prog.run_ask, Prog.run_seq, Prog.run_upd, Prog.run_setF, Upd.apply_spl, Sparse.get_put_self, and_true, State.link]
  rw [Upd.apply_get _ _ rfl, State.get_fld_self _ _ _ _ (by decide)]
  exact Nat.mod_eq_of_lt hst

/-- A hop-scoped frame leaves with its TYPE's next SEQ, and nothing else happens. -/
theorem splHop_run (d typ ver : Nat) (payload : List Byte) (s : State) :
    Unchanged [] [.spl, .out] [] s ((splHop d typ ver payload).run s) ∧
    ((splHop d typ ver payload).run s).spl = { s.spl with seq := Sparse.put 0 s.spl.seq typ ((Sparse.get 0 s.spl.seq typ + 1) % 256) } ∧
    ((splHop d typ ver payload).run s).out = .frame "SL" "frame" ((if d = 0 then 3 else 1) :: (straitFrame typ ver s.ownId 1
      (Sparse.get 0 ((splHop d typ ver payload).run s).spl.seq typ) (decide (0x20 ≤ ver)) payload).map (·.toNat)) :: s.out := by
  refine ⟨((splHop_among d typ ver payload (by decide) (by decide)).changesOnly s).unchanged, rfl, ?_⟩
  simp only [splHop, splSeq, Prog.run_ask, Prog.run_seq, Prog.run_upd, Prog.run_send, Upd.apply_out, Upd.apply_spl, Sparse.get_put_self]
  rfl

theorem hopSignalDetect_trains {s : State} {d : Fin 2} (hen : s.on SPL_CFG.EN 0 = true) (hdown : s.link d = lkDown) :
    Completes (.hopSignalDetect d) s fun t => Unchanged [(.SPL_SIDE_STAT, d.val)] [.spl, .out] [] s t ∧ t.link d = lkTrain ∧
      Sparse.get 0 t.spl.linkAt d = s.ptm.ticks := by
  refine completes_whenS rfl (by simp [hen, hdown]) ?_
  obtain ⟨hlink, hat⟩ := linkBegins_shows d (st := lkTrain) (by decide) s
  exact ⟨(linkBegins_changes d lkTrain s).app (List.mem_cons_of_mem _ List.mem_cons_self), (Upd.apply_get _ _ rfl _ _).trans hlink, hat⟩

theorem hopTrainDone_hello {s : State} {d : Fin 2} (htrain : s.link d = lkTrain) : Completes (.hopTrainDone d) s fun t =>
    Unchanged [(.SPL_SIDE_STAT, d.val)] [.spl, .out] [] s t ∧ t.link d = lkHello ∧ Sparse.get 0 t.spl.linkAt d = s.ptm.ticks ∧
    t.out = .frame "SL" "frame" ((if d = 0 then 3 else 1) :: (straitFrame tHello s.ownVer s.ownId 1 (Sparse.get 0 t.spl.seq tHello)
      (decide (0x20 ≤ s.ownVer)) ([BitVec.ofNat 8 s.ownVer] ++ beBytes 2 s.ownId ++ [BitVec.ofNat 8 (s.get SPL_CFG.EN 0)])).map (·.toNat)) :: s.out := by
  refine completes_whenS rfl (by simp [htrain]) ?_
  have hbegin := linkBegins_changes d lkHello s
  obtain ⟨hlink, hat⟩ := linkBegins_shows d (st := lkHello) (by decide) s
  obtain ⟨hframe, hspl, hout⟩ := splHop_run d tHello s.ownVer ([BitVec.ofNat 8 s.ownVer] ++ beBytes 2 s.ownId ++ [BitVec.ofNat 8 (s.get SPL_CFG.EN 0)])
    ((linkBegins d lkHello).run s)
  have hget : ∀ f : Fld, f.reg = .SPL_CFG → ((linkBegins d lkHello).run s).get f 0 = s.get f 0 := fun f hf => hbegin.get f 0 (by simp [hf])
  have hid : ((linkBegins d lkHello).run s).ownId = s.ownId := hget _ rfl
  have hver : ((linkBegins d lkHello).run s).ownVer = s.ownVer := by
    rw [State.ownVer, State.ownVer, State.on, State.on, hget _ rfl]
  have hrun : (Prog.seq (linkBegins d lkHello) (sendHello d)).run s = (splHop d tHello s.ownVer ([BitVec.ofNat 8 s.ownVer] ++ beBytes 2 s.ownId ++
      [BitVec.ofNat 8 (s.get SPL_CFG.EN 0)])).run ((linkBegins d lkHello).run s) := by
    rw [Prog.run_seq, sendHello, Prog.run_ask, hver, hid, hget _ rfl]
  rw [hrun]
  refine ⟨hbegin.trans (hframe.mono (by simp) (fun _ h => h) (by simp)), ?_, ?_, ?_⟩
  · rw [State.link, hframe.get _ _ (by simp)]
    exact hlink
  · rw [hspl]
    exact hat
  · rw [hout, hid]
    simp only [Fin.val_eq_zero_iff]
    rfl

theorem splIsolated_get {f : Fld} (i : Nat) (h : besideMember f) (s : State) : (splIsolated.run s).get f i = s.get f i := by
  rw [splIsolated, Prog.run_whenS]
  split_ifs
  · exact setSplState_get _ _ _ h
  · rfl

theorem splIsolated_out (s : State) : (splIsolated.run s).out = s.out := by
  rw [splIsolated, Prog.run_whenS]
  split_ifs
  · exact setSplState_out _ _
  · rfl

theorem sideIdle_get {f : Fld} (d i : Nat) (h : besideMember f) (hs : f.reg ≠ .SPL_SIDE_STAT ∨ f.hi < 28) (s : State) :
    ((sideIdle d).run s).get f i = s.get f i := by
  have hkeep : ∀ (g : Fld) (v : Nat) (t : State), g.reg = .SPL_SIDE_STAT → g.hi < 64 → 28 ≤ g.lo → ((Upd.fld g d v).apply t).get f i = t.get f i :=
    fun g v t hr hg hl => State.get_fld_ne _ _ _ _ _ _ (hs.imp (fun h => hr ▸ h.symm) fun h => .inr ⟨hg, by omega, .inr (by omega)⟩)
  simp only [sideIdle, Prog.run_all_cons, Prog.run_all_nil, Prog.run_setF, Prog.run_send]
  rw [splIsolated_get i h, Upd.apply_get _ _ rfl, hkeep _ _ _ rfl (by decide) (by decide), hkeep _ _ _ rfl (by decide) (by decide)]

theorem sideIdle_shows (d : Nat) (s : State) : ((sideIdle d).run s).link d = lkDown ∧ ((sideIdle d).run s).out = .frame "SL" "idle" [d] :: s.out := by
  simp only [sideIdle, Prog.run_all_cons, Prog.run_all_nil, Prog.run_setF, Prog.run_send, splIsolated_out, State.link]
  refine ⟨?_, rfl⟩
  rw [splIsolated_get _ (by decide), Upd.apply_get _ _ rfl, State.get_fld_bits _ _ _ _ _ _ (by decide), State.get_fld_self _ _ _ _ (by decide)]
  rfl

/-- The end of TRAIN or HELLO without an answer. -/
theorem completes_sideIdle {c : Instr} {s : State} {cond : State → Bool} {d : Nat} (h : exec c s = .next ((whenS cond (sideIdle d)).run s))
    (hc : cond s = true) : Completes c s fun t => ChangesOnly [.SPL_SIDE_STAT, .SPL_STAT, .SPL_MEMBERS] [.spl, .out] false s t ∧ t.link d = lkDown ∧
      t.out = .frame "SL" "idle" [d] :: s.out :=
  completes_whenS h hc ⟨(sideIdle_among d (fun _ h => h) (by decide)).changesOnly s, sideIdle_shows d s⟩

/-! A HELLO takes the side up (R249, R256). -/

/-- The bit that wraps a side. -/
def wrapFld (d : Fin 2) : Fld := if d = 0 then SPL_STAT.WRAP_P else SPL_STAT.WRAP_N

theorem wrapFld_place (d : Fin 2) : (wrapFld d).reg = .SPL_STAT ∧ (wrapFld d).hi = (wrapFld d).lo ∧ 24 < (wrapFld d).lo ∧ (wrapFld d).hi < 27 := by
  fin_cases d <;> decide

theorem wrapFld_beside (d : Fin 2) : besideMember (wrapFld d) := by
  fin_cases d <;> decide

theorem setWrap_eq (d : Fin 2) (v : Nat) : (if d.val = 0 then setF SPL_STAT.WRAP_P 0 v else setF SPL_STAT.WRAP_N 0 v) = setF (wrapFld d) 0 v := by
  fin_cases d <;> rfl

theorem setWrap_get {f : Fld} (d : Fin 2) (v i : Nat) (hf : f.reg ≠ .SPL_STAT ∨ f.hi < 64 ∧ (f.hi < 25 ∨ 26 < f.lo)) (s : State) :
    ((setF (wrapFld d) 0 v).run s).get f i = s.get f i := by
  obtain ⟨hr, -, hlo, hhi⟩ := wrapFld_place d
  exact State.get_fld_ne _ _ _ _ _ _ (hf.imp (fun h => hr ▸ h.symm) fun h => .inr ⟨by omega, h.1, by omega⟩)

theorem setWrap_shows (d : Fin 2) {v : Nat} (hv : v < 2) (s : State) : ((setF (wrapFld d) 0 v).run s).get (wrapFld d) 0 = v := by
  obtain ⟨-, hwidth, -, hhi⟩ := wrapFld_place d
  rw [Prog.run_setF, State.get_fld_self _ _ _ _ (by omega), hwidth, Nat.add_sub_cancel_left]
  exact Nat.mod_eq_of_lt hv

/-- A member in LINKING joins. -/
def joins : Prog := all [splJoin, setSplState mbJoining, .upd (.spl fun x => { x with joinFrames := 0 })]

theorem joins_get {f : Fld} (i : Nat) (h : besideMember f) (s : State) : (joins.run s).get f i = s.get f i := by
  simp only [joins, splJoin, Prog.run_all_cons, Prog.run_all_nil, Prog.run_upd, Prog.run_seq]
  rw [Upd.apply_get _ _ rfl, setSplState_get _ _ _ h, Upd.apply_get _ _ rfl, splFlood_get]

theorem joins_state (s : State) : (joins.run s).splState = mbJoining := by
  simp only [joins, State.splState, Prog.run_all_cons, Prog.run_all_nil, Prog.run_upd]
  rw [Upd.apply_get _ _ rfl]
  exact setSplState_state _ (by decide)

theorem sideUp_run (d : Fin 2) (s : State) : (sideUp d).run s =
    (when (s.splState == mbLinking) joins).run ((dlyReq d).run ((setF (wrapFld d) 0 0).run ((setF SPL_SIDE_STAT.LINK d lkUp).run s))) := by
  rw [sideUp, Prog.run_ask, setWrap_eq]
  rfl

theorem sideUp_get {f : Fld} (d : Fin 2) (i : Nat) (h : besideMember f) (s : State) :
    ((sideUp d).run s).get f i = ((setF (wrapFld d) 0 0).run ((setF SPL_SIDE_STAT.LINK d lkUp).run s)).get f i := by
  rw [sideUp_run, Prog.run_when]
  split_ifs
  · rw [joins_get i h, dlyReq_get]
  · rw [dlyReq_get]

theorem sideUp_shows (d : Fin 2) (s : State) : ((sideUp d).run s).link d = lkUp ∧ ((sideUp d).run s).get (wrapFld d) 0 = 0 ∧
    ((sideUp d).run s).get SPL_SIDE_STAT.VER d = s.get SPL_SIDE_STAT.VER d ∧
    ((sideUp d).run s).get SPL_SIDE_STAT.PEER_ID d = s.get SPL_SIDE_STAT.PEER_ID d ∧
    (s.splState = mbLinking → ((sideUp d).run s).splState = mbJoining) := by
  refine ⟨?_, ?_, ?_, ?_, fun hlinking => ?_⟩
  · rw [State.link, sideUp_get _ _ (by decide), setWrap_get _ _ _ (by decide)]
    exact State.get_fld_self _ _ _ _ (by decide)
  · rw [sideUp_get _ _ (wrapFld_beside d), setWrap_shows _ (by decide)]
  · rw [sideUp_get _ _ (by decide), setWrap_get _ _ _ (by decide), Prog.run_setF, State.get_fld_bits _ _ _ _ _ _ (by decide)]
  · rw [sideUp_get _ _ (by decide), setWrap_get _ _ _ (by decide), Prog.run_setF, State.get_fld_bits _ _ _ _ _ _ (by decide)]
  · rw [sideUp_run, hlinking, beq_self_eq_true, Prog.run_when, if_pos rfl, joins_state]

/-- The version of a hop is the lower of the two offered (R249). -/
theorem hopVersion_eq (s : State) (ver : Nat) : (if min ver s.ownVer < 0x20 then 1 else 2) = if s.on SPL_CFG.VER_CAP 0 = true ∨ ver < 0x20 then 1 else 2 := by
  by_cases hcap : s.on SPL_CFG.VER_CAP 0 = true <;> simp [State.ownVer, hcap]

theorem hello_sideUp {s : State} {d : Fin 2} (ver : BitVec 8) (peer : Fin 512) (hhello : s.link d = lkHello) : Completes (.hello d ver peer) s fun t =>
    ChangesOnly [.SPL_MEMBERS, .SPL_SIDE_STAT, .SPL_STAT] [.free, .out, .spl] false s t ∧ t.link d = lkUp ∧ t.get SPL_SIDE_STAT.PEER_ID d = peer ∧
    t.get SPL_SIDE_STAT.VER d = (if s.on SPL_CFG.VER_CAP 0 ∨ ver.toNat < 0x20 then 1 else 2) ∧ t.get (wrapFld d) 0 = 0 ∧
    (s.splState = mbLinking → t.splState = mbJoining) := by
  refine completes_whenS rfl (by simp [hhello]) ?_
  rw [Prog.run_ask, hopVersion_eq]
  simp only [Prog.run_all_cons, Prog.run_all_nil]
  generalize hv : (if s.on SPL_CFG.VER_CAP 0 = true ∨ ver.toNat < 0x20 then 1 else 2) = v
  have hlt : v < 4 := by rw [← hv]; split_ifs <;> decide
  obtain ⟨hup, hwrap, hver, hpeer, hjoin⟩ := sideUp_shows d ((setF SPL_SIDE_STAT.PEER_ID d peer).run ((setF SPL_SIDE_STAT.VER d v).run s))
  have hside : RegName.SPL_SIDE_STAT ∈ [RegName.SPL_MEMBERS, .SPL_SIDE_STAT, .SPL_STAT] := by decide
  refine ⟨?_, hup, ?_, ?_, hwrap, fun h => hjoin ?_⟩
  · exact (((ChangesOnly.refl s).prog (p := setF SPL_SIDE_STAT.VER d v) hside).prog (p := setF SPL_SIDE_STAT.PEER_ID d peer) hside).prog
      (sideUp_among d (by decide) fun _ h => h)
  · rw [hpeer, Prog.run_setF, State.get_fld_self _ _ _ _ (by decide)]
    exact Nat.mod_eq_of_lt peer.isLt
  · rw [hver, Prog.run_setF, State.get_fld_bits _ _ _ _ _ _ (by decide), Prog.run_setF, State.get_fld_self _ _ _ _ (by decide)]
    exact Nat.mod_eq_of_lt hlt
  · rw [State.splState, Prog.run_setF, State.get_fld_reg _ _ _ _ _ _ (by decide), Prog.run_setF, State.get_fld_reg _ _ _ _ _ _ (by decide)]
    exact h

/-! A side that is lost (R250, R255). -/

/-- What shows a loss, before it is reported. -/
def lossShown (d : Nat) : Prog := .seq (sideDown d) (incF SPL_SIDE_STAT.DOWN_CNT d)

theorem sideDown_run (d : Fin 2) (s : State) : (sideDown d).run s = (sideIdle d).run ((setF (wrapFld d) 0 1).run s) := by
  rw [sideDown, setWrap_eq, Prog.run_seq]

theorem lossShown_among {R : RegName → Prop} {P : Part → Prop} {M : Prop} (d : Nat) (hr : ∀ r ∈ [RegName.SPL_SIDE_STAT, .SPL_STAT, .SPL_MEMBERS], R r)
    (ho : P .out) : (lossShown d).Only (Upd.among R P M) :=
  ⟨⟨setWrap_among d 1 (hr _ (by decide)), sideIdle_among d hr ho⟩, fun _ => hr .SPL_SIDE_STAT (by decide)⟩

/-- A side that is lost: DOWN, wrapped, counted. -/
def LossShown (d : Fin 2) (s t : State) : Prop := t.link d = lkDown ∧ t.get (wrapFld d) 0 = 1 ∧
  t.get SPL_SIDE_STAT.DOWN_CNT d = satAdd (s.get SPL_SIDE_STAT.DOWN_CNT d) 1 (2 ^ SPL_SIDE_STAT.DOWN_CNT.width - 1)

theorem lossShown_shows (d : Fin 2) (s : State) : LossShown d s ((lossShown d).run s) := by
  obtain ⟨hreg, -⟩ := wrapFld_place d
  rw [lossShown, Prog.run_seq, sideDown_run]
  refine ⟨?_, ?_, ?_⟩
  · rw [State.link, Prog.run_incF, State.get_fld_bits _ _ _ _ _ _ (by decide)]
    exact (sideIdle_shows d _).1
  · rw [Prog.run_incF, State.get_fld_reg _ _ _ _ _ _ (by rw [hreg]; decide), sideIdle_get _ _ (wrapFld_beside d)
      (.inl (by rw [hreg]; decide)), setWrap_shows _ (by decide)]
  · rw [incF_get_self _ _ _ (by decide), sideIdle_get _ _ (by decide) (by decide), setWrap_get _ _ _ (by decide)]

theorem LossShown.kept {d : Fin 2} {s t u : State} (h : LossShown d s t)
    (hk : FieldsKept [SPL_SIDE_STAT.LINK, SPL_SIDE_STAT.DOWN_CNT, wrapFld d] t u) : LossShown d s u := by
  obtain ⟨hlink, hwrap, hcount⟩ := h
  exact ⟨(hk SPL_SIDE_STAT.LINK (by simp) d).trans hlink, (hk (wrapFld d) (by simp) 0).trans hwrap, (hk SPL_SIDE_STAT.DOWN_CNT (by simp) d).trans hcount⟩

/-- The loss is shown, an event of the side's source, and recorded. -/
theorem completes_sideLoss {s : State} {d : Fin 2} {Q : State → Prop} (h : s.link d = lkUp)
    (hQ : Q ((almEvent bSPL kFault "side lost" [d.val]).run ((raise (256 + d) (detail d)).run ((lossShown d).run s)))) :
    Completes (.straitSideLoss d) s Q := completes_whenS rfl (by simp [h]) hQ

/-- What reports a loss leaves what shows it. -/
theorem lossFields_aside {rs : List RegName} (hside : .SPL_SIDE_STAT ∉ rs) (hstat : .SPL_STAT ∉ rs) (d : Fin 2) :
    ∀ f ∈ [SPL_SIDE_STAT.LINK, SPL_SIDE_STAT.DOWN_CNT, wrapFld d], f.reg ∉ rs := by
  obtain ⟨hreg, -⟩ := wrapFld_place d
  simp only [List.forall_mem_cons, hreg]
  exact ⟨hside, hside, hstat, by simp⟩

theorem almEvent_changes (subsys kind : Nat) (ev : String) (content : List Nat) (s : State) :
    ChangesOnly [.ALM_STAT] [.alm] false s ((almEvent subsys kind ev content).run s) :=
  (almEnter_among _ _ _ _ _ List.mem_cons_self List.mem_cons_self).changesOnly s

theorem sideLoss_inService {s : State} {d : Fin 2} (h : s.link d = lkUp) (hs : s.normalService = true) : Completes (.straitSideLoss d) s (LossShown d s) := by
  have hchange := (lossShown_among (M := false = true) d (fun _ h => h) (List.mem_singleton_self Part.out)).changesOnly s
  have hmode : ((lossShown d).run s).normalService = true := (FieldsKept.normalService (fs := []) (hchange.fieldsKept (by decide))).trans hs
  have hraise := (raise_inService (256 + d) (detail d) hmode).fieldsKept (lossFields_aside (by decide) (by decide) d)
  have hrecord := almEvent_changes bSPL kFault "side lost" [d.val] ((raise (256 + d) (detail d)).run ((lossShown d).run s))
  exact completes_sideLoss h (((lossShown_shows d s).kept hraise).kept (hrecord.fieldsKept (lossFields_aside (by decide) (by decide) d)))

theorem sideLoss_quiet {s : State} {d : Fin 2} (h : s.link d = lkUp) (hq : s.quiet (256 + d)) : Completes (.straitSideLoss d) s fun t =>
    ChangesOnly [.ALM_STAT, .FCU_FEC_ADDR, .FCU_FEC_INFO, .FCU_FEC_TIME, .FCU_SRC_STAT, .SPL_MEMBERS, .SPL_SIDE_STAT, .SPL_STAT] [.alm, .fcu, .out] false
      s t ∧
    LossShown d s t ∧ Counted (256 + d) (detail d) s t := by
  obtain ⟨hquiet, hcount, hchange⟩ := reportedOnly (m := false) (lossShown_among d (fun _ h => h) (List.mem_singleton_self Part.out)) (by decide)
    (detail d) hq
  have hrecord := almEvent_changes bSPL kFault "side lost" [d.val] ((raise (256 + d) (detail d)).run ((lossShown d).run s))
  have hraise : FieldsKept [SPL_SIDE_STAT.LINK, SPL_SIDE_STAT.DOWN_CNT, wrapFld d] ((lossShown d).run s)
      ((raise (256 + d) (detail d)).run ((lossShown d).run s)) := fun f hf i => by
    have haside := lossFields_aside (rs := [.FCU_SRC_STAT, .FCU_FEC_INFO, .FCU_FEC_ADDR, .FCU_FEC_TIME]) (by decide) (by decide) d f hf
    exact raise_get _ hquiet _ _ (by simpa using haside)
  refine completes_sideLoss h ⟨(hchange.mono (by decide) (by decide) id).trans (hrecord.mono (by decide) (by decide) id), ?_, ?_⟩
  · exact ((lossShown_shows d s).kept hraise).kept (hrecord.fieldsKept (lossFields_aside (by decide) (by decide) d))
  · exact hcount.kept (hrecord.fieldsKept (by decide))

/-! Markers, and frames of an unknown TYPE (R247, R248, R252). -/

theorem hopMarker_holds (s : State) (d : Fin 2) (peer : Fin 512) (lk : Fin 4) : Completes (.hopMarker d peer lk) s fun t =>
    Unchanged [] [.spl] [] s t ∧ (d.val, peer.val, lk.val) ∈ t.spl.marker :=
  ⟨_, rfl, (Unchanged.refl s).app (List.mem_singleton_self Part.spl), List.mem_cons_self⟩

theorem unknownFrame_crc (s : State) (h : StraitHdr) (typ : BitVec 8) (pl : List (BitVec 8)) : Completes (.straitUnknownFrame h typ true pl) s fun t =>
    Unchanged [(.SPL_SIDE_STAT, h.side.val)] [] [] s t ∧
    t.get SPL_SIDE_STAT.CRC_ERR h.side = satAdd (s.get SPL_SIDE_STAT.CRC_ERR h.side) 1 (2 ^ SPL_SIDE_STAT.CRC_ERR.width - 1) :=
  ⟨_, rfl, Prog.Only.unchanged (p := incF SPL_SIDE_STAT.CRC_ERR h.side) (fun _ => List.mem_singleton_self _) s, incF_get_self _ _ _ (by decide)⟩

/-- A flooded frame that is neither the member's own nor at its last hop goes on to the next. -/
theorem splForward_run {s : State} {h : StraitHdr} (hother : h.origin.val ≠ s.ownId) (hhops : h.hops.val + 1 < 1023) (typ : Nat) (payload : List Byte) :
    (splForward h typ payload).run s =
      (splSend (s.outLane (h.side == 0)) typ h.origin (h.hops + 1) h.seq (h.s2v && s.hopS2 h.side) payload).run s := by
  rw [splForward, Prog.run_ask, if_neg (by omega)]

theorem splForward_out {s : State} {h : StraitHdr} (hother : h.origin.val ≠ s.ownId) (hhops : h.hops.val + 1 < 1023) (hup : s.bothUp) (typ : Nat)
    (payload : List Byte) : ((splForward h typ payload).run s).out = .frame "SL" "frame" (s.outLane (h.side == 0) ::
      (straitFrame typ (s.verByte (laneSide (s.outLane (h.side == 0)))) h.origin (h.hops + 1) h.seq
        (h.s2v && s.hopS2 h.side && s.hopS2 (laneSide (s.outLane (h.side == 0)))) (hopPayload typ (s.hopS2 (laneSide (s.outLane (h.side == 0))))
        (h.s2v && s.hopS2 h.side && s.hopS2 (laneSide (s.outLane (h.side == 0)))) payload)).map (·.toNat)) :: s.out := by
  rw [splForward_run hother hhops, splSend_out (hup.lane _)]

theorem splForward_changes (h : StraitHdr) (typ : Nat) (payload : List Byte) (s : State) : Unchanged [] [.out] [] s ((splForward h typ payload).run s) :=
  ((splForward_among h typ payload List.mem_cons_self).changesOnly s).unchanged

theorem unknownFrame_discarded {typ : BitVec 8} (htyp : typ.toNat < 0x10 ∨ 0x7F < typ.toNat) (s : State) (h : StraitHdr) (pl : List (BitVec 8)) :
    Completes (.straitUnknownFrame h typ false pl) s fun t => Unchanged [] [] [] s t ∧ t.out = s.out := by
  have hrun : (unknownFrameProg h typ.toNat false pl).run s = s := by
    have hno : ¬(0x10 ≤ typ.toNat ∧ typ.toNat ≤ 0x7F) := by omega
    simp only [unknownFrameProg, Bool.false_eq_true, if_false, Prog.run_whenS, hno, decide_false, Bool.false_and]
  exact ⟨s, congrArg Host.Outcome.next hrun, Unchanged.refl s, rfl⟩

/-- Settles O43: each clause is what its operation of the sides shows, and the registers and components that the operation can touch. -/
theorem straitSides : Obligations.StraitSides :=
  ⟨fun _ hen => splEnable_links hen,
    fun s hon => by
      obtain ⟨hchange, hen, hstate, hmaster, hlock, hspl, -⟩ := splDisable_leaves hon
      obtain ⟨-, -, hframes, -⟩ := splLeave_shows hon
      exact ⟨_, rfl, hchange, hen, hstate, hmaster, hlock, by rw [hspl, hframes]⟩,
    fun s hon hup => by
      obtain ⟨hchange, -, -, -, -, hspl, hout⟩ := splDisable_leaves hon
      obtain ⟨-, -, -, hseq, hlength⟩ := splLeave_shows hon
      exact ⟨_, rfl, hchange, by rw [hout, hlength hup], by rw [hspl, hseq]⟩,
    fun s hoff => by
      obtain ⟨hchange, hen⟩ := splDisable_off hoff
      exact ⟨_, rfl, hchange.mono (by decide) (by decide) id, hen, hchange.2.1 .spl (by decide), hchange.2.1 .out (by decide)⟩,
    fun _ _ hen hdown => hopSignalDetect_trains hen hdown,
    fun _ _ htrain => hopTrainDone_hello htrain,
    fun s d htrain hlasts => completes_sideIdle rfl (by simp [htrain, State.linkLasts, hlasts]),
    fun _ _ ver peer hhello => hello_sideUp ver peer hhello,
    fun s d hhello hlasts => completes_sideIdle rfl (by simp [hhello, State.linkLasts, hlasts]),
    fun _ _ hup hs => sideLoss_inService hup hs,
    fun s d hup hq => by
      obtain ⟨t, ht, hchange, ⟨hdown, hwrap, hcount⟩, hevent⟩ := sideLoss_quiet hup hq
      exact ⟨t, ht, hchange, hdown, hwrap, hcount, hevent⟩,
    hopMarker_holds,
    unknownFrame_crc,
    fun s h typ pl hside hother hhops hup htyp =>
      completes_whenS rfl (by simp [htyp, hside]) ⟨splForward_changes h typ.toNat pl s, splForward_out hother hhops hup typ.toNat pl⟩,
    fun s h _ pl htyp => unknownFrame_discarded htyp s h pl⟩

end Sys2Proof.Machine
end

section
/-! Flooded frames as the acceptance test takes them, and the members shown (R252, R253, R258). -/
namespace Sys2Proof.Machine

/-- A table reads its default at a key whose entries were filtered out. -/
theorem Sparse.get_filter_out {α : Type} (d : α) (l : List (Nat × α)) (q : Nat × α → Bool) (a : Nat) (h : ∀ v, q (a, v) = false) :
    Sparse.get d (l.filter q) a = d := by
  induction l with
  | nil => rfl
  | cons e l ih =>
    obtain ⟨k, v⟩ := e
    by_cases hq : q (k, v) = true
    · have hk : k ≠ a := by
        rintro rfl
        exact absurd (hq.symm.trans (h v)) (by decide)
      simp [hq, Sparse.get, hk, ih]
    · simp [hq, ih]

/-! The acceptance test (R253). -/

section
variable {s : State} {h : StraitHdr} {typ : Nat}

/-- A frame with the SEQ that was taken last is not taken. -/
theorem accepts_of_last (hlast : Sparse.get 0 s.spl.last (h.origin * 256 + typ) = h.seq) : s.accepts h typ = false := by
  simp [State.accepts, hlast]

/-- After a JOIN, with LAST at 0, the SEQs 1 to 127 are taken. -/
theorem accepts_of_reset (hlast : Sparse.get 0 s.spl.last (h.origin * 256 + typ) = 0) (hother : h.origin.val ≠ s.ownId) (hlo : 1 ≤ h.seq.val)
    (hhi : h.seq.val ≤ 127) : s.accepts h typ = true := by
  have hd : (h.seq.val + 256 - 0) % 256 = h.seq.val := by omega
  rw [State.accepts, hlast, hd, bne_iff_ne.2 hother, decide_eq_true ⟨hlo, hhi⟩, Bool.and_self]

theorem accepts_own (hown : h.origin.val = s.ownId) : s.accepts h typ = false := by
  simp [State.accepts, hown]
end

theorem setLast_last (h : StraitHdr) (typ : Nat) (s : State) :
    ((setLast h typ).run s).spl = { s.spl with last := Sparse.put 0 s.spl.last (h.origin * 256 + typ) h.seq } := rfl

@[simp] theorem setLast_get (h : StraitHdr) (typ : Nat) (s : State) (f : Fld) (i : Nat) : ((setLast h typ).run s).get f i = s.get f i :=
  Upd.apply_get _ _ rfl _ _

/-- A frame that is taken is acted on, its SEQ kept, and then forwarded. -/
theorem splReceive_run {s : State} {h : StraitHdr} {typ : Nat} (hup : s.link h.side = lkUp) (hon : s.splState ≠ mbOff) (hacc : s.accepts h typ = true)
    (payload : List Byte) (act : Prog) : (splReceive h typ payload act).run s = (splForward h typ payload).run (act.run ((setLast h typ).run s)) := by
  have hstate : (s.splState != mbOff) = true := bne_iff_ne.2 hon
  simp only [splReceive, Prog.run_ask, Prog.run_when, hup, hstate, hacc, beq_self_eq_true, Bool.true_or, Bool.and_self, if_true, Prog.run_seq]

/-- The member's own frame ends with it. -/
theorem splReceive_own {s : State} {h : StraitHdr} (hown : h.origin.val = s.ownId) (typ : Nat) (payload : List Byte) (act : Prog) :
    (splReceive h typ payload act).run s = s := by
  simp [splReceive, accepts_own hown, splForward, hown]

/-! The list of members, and the registers that show it (R258). -/

theorem setMember_mem (id : Nat) (m : Member) (s : State) (e : Nat × Member) :
    e ∈ ((setMember id m).run s).spl.members ↔ e = (id, m) ∨ e ∈ s.spl.members ∧ e.1 ≠ id := by
  simp only [setMember, Prog.run_upd, Upd.apply_spl, Sparse.mem_insert, List.mem_filter, bne_iff_ne]

/-- The members present. -/
def State.present (s : State) : List Nat := if s.splState == mbOff then [] else s.ownId :: (s.spl.members.map (·.1)).filter (· != s.ownId)

/-- Word `i` of SPL_MEMBERS for members `ids`. -/
def memberWord (ids : List Nat) (i : Nat) : Nat := (ids.filter fun k => k / 32 == i).foldl (fun m k => m ||| 2 ^ (k % 32)) 0

theorem foldl_or_testBit {l : List Nat} {m b : Nat} (h : m.testBit b = true ∨ ∃ k ∈ l, k % 32 = b) :
    (l.foldl (fun m k => m ||| 2 ^ (k % 32)) m).testBit b = true := by
  induction l generalizing m with
  | nil => simpa using h
  | cons a l ih =>
    refine ih ?_
    rcases h with h | ⟨k, hk, rfl⟩
    · exact .inl (by simp [h])
    · rcases List.mem_cons.1 hk with rfl | hk
      · exact .inl (by simp)
      · exact .inr ⟨k, hk, rfl⟩

theorem memberWord_testBit {ids : List Nat} {k : Nat} (h : k ∈ ids) : (memberWord ids (k / 32)).testBit (k % 32) = true :=
  foldl_or_testBit (.inr ⟨k, List.mem_filter.2 ⟨h, beq_self_eq_true _⟩, rfl⟩)

theorem membersShow_run (s : State) : membersShow.run s =
    (each (List.range 16) fun i => setF SPL_MEMBERS.W i (memberWord s.present i)).run ((setF SPL_STAT.MEMBERS 0 s.present.length).run s) := rfl

/-- A member present shows in its bit of SPL_MEMBERS. -/
theorem membersShow_bit {s : State} {k : Nat} (hk : k < 512) (h : k ∈ s.present) : nbit ((membersShow.run s).get SPL_MEMBERS.W (k / 32)) (k % 32) = true := by
  have hword : (membersShow.run s).get SPL_MEMBERS.W (k / 32) = memberWord s.present (k / 32) % 2 ^ 32 := by
    rw [membersShow_run]
    refine each_establishes (Q := fun t => t.get SPL_MEMBERS.W (k / 32) = memberWord s.present (k / 32) % 2 ^ 32) (x := k / 32) (fun t => ?_)
      (fun i _ hi t ht => ?_) (List.mem_range.2 (by omega)) _
    · exact State.get_fld_self _ _ _ _ (by decide)
    · rw [Prog.run_setF, State.get_fld_ne _ _ _ _ _ _ (.inr (.inl hi)), ht]
  have hlt : k % 32 < 32 := Nat.mod_lt _ (by decide)
  rw [hword, nbit, Nat.testBit_mod_two_pow, memberWord_testBit h, decide_eq_true hlt, Bool.and_self]

theorem mem_present {s : State} {k : Nat} {m : Member} (hon : s.splState ≠ mbOff) (hother : k ≠ s.ownId) (h : (k, m) ∈ s.spl.members) :
    k ∈ s.present := by
  rw [State.present, if_neg (by simpa using hon)]
  exact List.mem_cons_of_mem _ (List.mem_filter.2 ⟨List.mem_map.2 ⟨_, h, rfl⟩, bne_iff_ne.2 hother⟩)

end Sys2Proof.Machine
end

section
/-! Beacons, joins, leaves and relays (R257 to R259, R271). -/
namespace Sys2Proof.Machine

/-! BEACON (R257, R258). -/

theorem splDuplicate_other {s : State} {origin : Nat} (h : origin ≠ s.ownId) (inst : Nat) : (splDuplicate origin inst).run s = s := by
  simp [splDuplicate, h]

/-- What a frame that is taken does: its SEQ, then `act`, which concerns members alone. -/
theorem taken_changes {s : State} {h : StraitHdr} {typ : Nat} {payload : List Byte} {act : Prog}
    (ha : act.Only (Upd.among (· ∈ [RegName.SPL_STAT, .SPL_MEMBERS]) (· ∈ [Part.spl, .out]) (false = true))) :
    ChangesOnly [.SPL_STAT, .SPL_MEMBERS] [.spl, .out] false s ((splReceive h typ payload act).run s) :=
  (splReceive_among h typ payload List.mem_cons_self (by decide) ha).changesOnly s

theorem beacon_present {s : State} {h : StraitHdr} (hup : s.link h.side = lkUp) (hother : h.origin.val ≠ s.ownId) (hacc : s.accepts h tBeacon = true)
    (hon : s.splState ≠ mbOff) (inst : BitVec 32) (he el rl : Bool) (ma : Fin 512) (lv : BitVec 8) (ver : BitVec 16) :
    Completes (.beacon h inst he el rl ma lv ver) s fun t => ChangesOnly [.SPL_STAT, .SPL_MEMBERS] [.spl, .out] false s t ∧
      (h.origin.val, ({ since := 0, healthy := he, elig := el, inst := inst.toNat, level := lv.toNat, s2v := h.s2v, hops := h.hops } : Member)) ∈ t.spl.members ∧
      (∀ e ∈ t.spl.members, e.1 = h.origin.val → e.2.inst = inst.toNat) ∧ t.accepts h tBeacon = false ∧
      nbit (t.get SPL_MEMBERS.W (h.origin / 32)) (h.origin % 32) = true := by
  have hrun : (beaconProg h inst.toNat he el rl ma lv.toNat ver.toNat).run s = (splReceive h tBeacon (beaconBytes inst.toNat he el rl ma lv.toNat ver.toNat)
      (.seq (setMember h.origin { since := 0, healthy := he, elig := el, inst := inst.toNat, level := lv.toNat, s2v := h.s2v, hops := h.hops })
        membersShow)).run s := by
    rw [beaconProg, Prog.run_seq, splDuplicate_other hother]
  have hact : (Prog.seq (setMember h.origin { since := 0, healthy := he, elig := el, inst := inst.toNat, level := lv.toNat, s2v := h.s2v, hops := h.hops })
      membersShow).Only (Upd.among (· ∈ [RegName.SPL_STAT, .SPL_MEMBERS]) (· ∈ [Part.spl, .out]) (false = true)) :=
    ⟨List.mem_cons_self, membersShow_among (by decide) (by decide)⟩
  refine ⟨_, congrArg Host.Outcome.next hrun, taken_changes hact, ?_⟩
  rw [splReceive_run hup hon hacc, Prog.run_seq]
  generalize hm : ({ since := 0, healthy := he, elig := el, inst := inst.toNat, level := lv.toNat, s2v := h.s2v, hops := h.hops } : Member) = m
  simp only [splForward_spl, splForward_get, membersShow_spl]
  have hmem : (h.origin.val, m) ∈ ((setMember h.origin m).run ((setLast h tBeacon).run s)).spl.members := (setMember_mem _ _ _ _).2 (.inl rfl)
  refine ⟨hmem, fun e hmem hid => ?_, accepts_of_last ?_, membersShow_bit h.origin.isLt (mem_present hon hother hmem)⟩
  · rcases (setMember_mem _ _ _ _).1 hmem with rfl | ⟨-, hne⟩
    · rw [← hm]
    · exact absurd hid hne
  · rw [splForward_spl, membersShow_spl]
    exact Sparse.get_put_self _ _ _ _

/-- A member in JOINING that sees its own ID with another INSTANCE takes itself out (R257). -/
theorem splDuplicate_run {s : State} {origin inst : Nat} (hown : origin = s.ownId) (hinst : inst ≠ Config.splInstance % 2 ^ 32)
    (hjoin : s.splState = mbJoining) : (splDuplicate origin inst).run s =
      (almEvent bSPL kFault "duplicate member ID" [origin, inst]).run ((raise 258 (detail 0)).run ((setSplState mbDup).run s)) := by
  have hcond : (origin == s.ownId && inst != Config.splInstance % 2 ^ 32 &&
      (s.splState == mbJoining || (s.splState == mbMember && decide (inst < Config.splInstance % 2 ^ 32)))) = true := by
    rw [beq_iff_eq.2 hown, bne_iff_ne.2 hinst, beq_iff_eq.2 hjoin, Bool.true_or]
    rfl
  rw [splDuplicate, Prog.run_ask, Prog.run_when, if_pos hcond]
  rfl

theorem beacon_duplicate {s : State} {h : StraitHdr} {inst : BitVec 32} (hown : h.origin.val = s.ownId) (hinst : inst.toNat ≠ Config.splInstance % 2 ^ 32)
    (hjoin : s.splState = mbJoining) (hq : s.quiet 258) (he el rl : Bool) (ma : Fin 512) (lv : BitVec 8) (ver : BitVec 16) :
    Completes (.beacon h inst he el rl ma lv ver) s fun t => ChangesOnly [.FCU_SRC_STAT, .FCU_FEC_INFO, .FCU_FEC_ADDR, .FCU_FEC_TIME, .ALM_STAT, .SPL_STAT,
      .SPL_MEMBERS] [.alm, .spl, .out, .fcu] false s t ∧ t.splState = mbDup ∧ Counted 258 (detail 0) s t := by
  obtain ⟨hquiet, hcount, hchange⟩ := reportedOnly (rs := [.SPL_STAT, .SPL_MEMBERS]) (ps := []) (m := false)
    (setSplState_among mbDup List.mem_cons_self (by decide)) (by decide) (detail 0) hq
  have hrecord := almEvent_changes bSPL kFault "duplicate member ID" [h.origin.val, inst.toNat] ((raise 258 (detail 0)).run ((setSplState mbDup).run s))
  have hall := (hchange.mono (rs' := [.FCU_SRC_STAT, .FCU_FEC_INFO, .FCU_FEC_ADDR, .FCU_FEC_TIME, .ALM_STAT, .SPL_STAT, .SPL_MEMBERS])
    (ps' := [.alm, .spl, .out, .fcu]) (by decide) (by decide) id).trans (hrecord.mono (by decide) (by decide) id)
  have hid : h.origin.val = ((splDuplicate h.origin inst.toNat).run s).ownId := by
    rw [splDuplicate_run hown hinst hjoin]
    exact hown.trans (hall.fieldsKept (fs := [SPL_CFG.MEMBER_ID]) (by decide) _ List.mem_cons_self 0).symm
  have hrun : (beaconProg h inst.toNat he el rl ma lv.toNat ver.toNat).run s = (splDuplicate h.origin inst.toNat).run s := by
    rw [beaconProg, Prog.run_seq, splReceive_own hid]
  refine ⟨_, congrArg Host.Outcome.next (hrun.trans (splDuplicate_run hown hinst hjoin)), hall, ?_, hcount.kept (hrecord.fieldsKept (by decide))⟩
  rw [State.splState, hrecord.fieldsKept (fs := [SPL_STAT.STATE]) (by decide) _ List.mem_cons_self, raise_get _ hquiet _ _ (by decide)]
  exact setSplState_state _ (by decide)

/-- A member in JOINING or MEMBER floods its BEACON. -/
theorem beaconSend_floods {s : State} (hst : s.splState = mbMember ∨ s.splState = mbJoining) : Completes .beaconSend s fun t =>
    Unchanged [] [.spl, .out] [] s t ∧ (s.bothUp → t.out.length = s.out.length + 2) ∧
    Sparse.get 0 t.spl.seq tBeacon = (Sparse.get 0 s.spl.seq tBeacon + 1) % 256 := by
  refine completes_whenS rfl ?_ ?_
  · rcases hst with hst | hst <;> simp [State.beacons, hst]
  · rw [Prog.run_ask]
    exact ⟨((splFlood_among _ _ List.mem_cons_self (by decide)).changesOnly s).unchanged, fun hup => splFlood_length hup _ _, by simp⟩

theorem beaconSend_silent {s : State} (hst : s.splState ≠ mbMember ∧ s.splState ≠ mbJoining) : Completes .beaconSend s fun t =>
    Unchanged [] [] [] s t ∧ t.out = s.out := by
  have hrun : (whenS State.beacons (.ask fun s => splFlood tBeacon s.beaconPayload)).run s = s := by
    simp [State.beacons, hst]
  exact ⟨s, congrArg Host.Outcome.next hrun, Unchanged.refl s, rfl⟩

/-! JOIN and LEAVE (R253, R258, R259, R266). -/

/-- What a JOIN that is taken does. -/
def joinActs (origin inst : Nat) : Prog := all [setMember origin { inst }, .upd (.spl fun x => { x with reflood := true }),
  setF SPL_STAT.MEMB_EVT 0 1, membersShow]

theorem joinActs_among (origin inst : Nat) :
    (joinActs origin inst).Only (Upd.among (· ∈ [RegName.SPL_STAT, .SPL_MEMBERS]) (· ∈ [Part.spl, .out]) (false = true)) :=
  ⟨List.mem_cons_self, List.mem_cons_self, List.mem_cons_self, membersShow_among (by decide) (by decide), trivial⟩

theorem joinActs_shows (origin inst : Nat) (s : State) : (origin, ({ inst } : Member)) ∈ ((joinActs origin inst).run s).spl.members ∧
    ((joinActs origin inst).run s).spl.reflood = true ∧ ((joinActs origin inst).run s).spl.last = s.spl.last ∧
    ((joinActs origin inst).run s).get SPL_STAT.MEMB_EVT 0 = 1 := by
  simp only [joinActs, Prog.run_all_cons, Prog.run_all_nil, membersShow_spl, Prog.run_setF, Prog.run_upd, Upd.apply_spl]
  refine ⟨(setMember_mem _ _ _ _).2 (.inl rfl), trivial, rfl, ?_⟩
  rw [membersShow_get _ _ (by decide) (by decide), State.get_fld_self _ _ _ _ (by decide)]
  rfl

/-- Every LAST of the origin returns to 0 (R253). -/
def forgetSeqs (o : Nat) : Upd := .spl fun x => { x with last := x.last.filter fun e => e.1 / 256 != o }

theorem forgetSeqs_last {o typ : Nat} (htyp : typ < 256) (s : State) : Sparse.get 0 ((forgetSeqs o).apply s).spl.last (o * 256 + typ) = 0 := by
  refine Sparse.get_filter_out _ _ _ _ fun _ => ?_
  have hkey : (o * 256 + typ) / 256 = o := by omega
  simp [hkey]

theorem join_adds {s : State} {h : StraitHdr} (inst : BitVec 32) (hup : s.link h.side = lkUp) (hother : h.origin.val ≠ s.ownId) (hon : s.splState ≠ mbOff)
    (hseq : 1 ≤ h.seq.val ∧ h.seq.val ≤ 127) : Completes (.join h inst) s fun t => ChangesOnly [.SPL_STAT, .SPL_MEMBERS] [.spl, .out] false s t ∧
      (h.origin.val, ({ inst := inst.toNat } : Member)) ∈ t.spl.members ∧ t.spl.reflood = true ∧ t.get SPL_STAT.MEMB_EVT 0 = 1 ∧
      Sparse.get 0 t.spl.last (h.origin * 256 + tBeacon) = 0 ∧ t.accepts h tJoin = false := by
  have hrun : (joinProg h inst.toNat).run s =
      (splReceive h tJoin (beBytes 4 inst.toNat) (joinActs h.origin inst.toNat)).run ((forgetSeqs h.origin).apply s) := by
    rw [joinProg, Prog.run_all_cons, splDuplicate_other hother]
    rfl
  have hacc : ((forgetSeqs h.origin).apply s).accepts h tJoin = true := accepts_of_reset (forgetSeqs_last (by decide) s) hother hseq.1 hseq.2
  have hforget : ChangesOnly [.SPL_STAT, .SPL_MEMBERS] [.spl, .out] false s ((forgetSeqs h.origin).apply s) :=
    (ChangesOnly.refl s).app (List.mem_cons_self : Part.spl ∈ [Part.spl, .out])
  refine ⟨_, congrArg Host.Outcome.next hrun, hforget.trans (taken_changes (joinActs_among _ _)), ?_⟩
  rw [splReceive_run (s := (forgetSeqs h.origin).apply s) hup hon hacc]
  obtain ⟨hmem, hflood, hlast, hevt⟩ := joinActs_shows h.origin inst.toNat ((setLast h tJoin).run ((forgetSeqs h.origin).apply s))
  simp only [splForward_spl, splForward_get]
  refine ⟨hmem, hflood, hevt, ?_, accepts_of_last ?_⟩
  · rw [hlast, setLast_last, Sparse.get_put_ne _ _ _ _ _ _ (by simp [tBeacon, tJoin])]
    exact forgetSeqs_last (by decide) s
  · rw [splForward_spl, hlast]
    exact Sparse.get_put_self _ _ _ _

/-- What a LEAVE that is taken does: the member goes, and its neighbour wraps. -/
def leaveActs (h : StraitHdr) : Prog := .seq (splRemove h.origin) (when (h.hops == 1) (setF (wrapFld h.side) 0 1))

theorem leave_eq (h : StraitHdr) (s : State) : exec (.leave h) s = .next ((splReceive h tLeave [] (leaveActs h)).run s) := by
  have hwrap : (if h.side = 0 then setF SPL_STAT.WRAP_P 0 1 else setF SPL_STAT.WRAP_N 0 1) = setF (wrapFld h.side) 0 1 := by
    unfold wrapFld
    split_ifs <;> rfl
  rw [leaveActs, ← hwrap]
  rfl

theorem leaveActs_among (h : StraitHdr) :
    (leaveActs h).Only (Upd.among (· ∈ [RegName.SPL_STAT, .SPL_MEMBERS]) (· ∈ [Part.spl, .out]) (false = true)) := by
  obtain ⟨hreg, -⟩ := wrapFld_place h.side
  refine ⟨⟨List.mem_cons_self, List.mem_cons_self, membersShow_among (by decide) (by decide), trivial⟩, (Only.when _ _ _).2 fun _ => ?_⟩
  exact hreg ▸ List.mem_cons_self

theorem splRemove_shows (id : Nat) (s : State) : (∀ e ∈ ((splRemove id).run s).spl.members, e.1 ≠ id) ∧
    ((splRemove id).run s).get SPL_STAT.MEMB_EVT 0 = 1 := by
  simp only [splRemove, Prog.run_all_cons, Prog.run_all_nil, membersShow_spl, Prog.run_setF, Prog.run_upd, Upd.apply_spl]
  refine ⟨fun e he => by simpa using (List.mem_filter.1 he).2, ?_⟩
  rw [membersShow_get _ _ (by decide) (by decide), State.get_fld_self _ _ _ _ (by decide)]
  rfl

theorem leaveActs_shows (h : StraitHdr) (s : State) : (∀ e ∈ ((leaveActs h).run s).spl.members, e.1 ≠ h.origin.val) ∧
    ((leaveActs h).run s).get SPL_STAT.MEMB_EVT 0 = 1 ∧ (h.hops = 1 → ((leaveActs h).run s).get (wrapFld h.side) 0 = 1) := by
  obtain ⟨hmem, hevt⟩ := splRemove_shows h.origin s
  rw [leaveActs, Prog.run_seq, Prog.run_when]
  split_ifs with hhops
  · refine ⟨?_, (setWrap_get _ _ _ (by decide) _).trans hevt, fun _ => setWrap_shows _ (by decide) _⟩
    rwa [Prog.run_setF, Upd.apply_spl]
  · exact ⟨hmem, hevt, fun h1 => absurd (beq_iff_eq.2 h1) hhops⟩

theorem leave_removes {s : State} {h : StraitHdr} (hup : s.link h.side = lkUp) (hacc : s.accepts h tLeave = true) (hon : s.splState ≠ mbOff) :
    Completes (.leave h) s fun t => ChangesOnly [.SPL_STAT, .SPL_MEMBERS] [.spl, .out] false s t ∧ (∀ e ∈ t.spl.members, e.1 ≠ h.origin.val) ∧
      t.get SPL_STAT.MEMB_EVT 0 = 1 ∧ (h.hops = 1 → t.get (wrapFld h.side) 0 = 1) := by
  refine ⟨_, leave_eq h s, taken_changes (leaveActs_among h), ?_⟩
  rw [splReceive_run hup hon hacc]
  simp only [splForward_spl, splForward_get]
  exact leaveActs_shows h _

/-! RELAY (R271). -/

section
variable (s : State)

theorem relayShow_among {R : RegName → Prop} {P : Part → Prop} {M : Prop} (hc : R .SPL_RLY_CTL) (hx : R .SPL_RLY_RX) :
    relayShow.Only (Upd.among R P M) := by
  simp only [relayShow, Only.ask, Only.seq, Only.each, Only.setF]
  exact fun _ => ⟨hc, fun _ _ => hx⟩

theorem relayShow_get {f : Fld} (i : Nat) (hx : f.reg ≠ .SPL_RLY_RX) :
    (relayShow.run s).get f i = ((setF SPL_RLY_CTL.RX_COUNT 0 s.spl.rx.length).run s).get f i := by
  simp only [relayShow, Prog.run_ask, Prog.run_seq]
  refine Prog.Only.get ?_ _ i
  simp only [Only.each, Only.setF]
  exact fun _ _ => hx.symm

theorem relayShow_spl : (relayShow.run s).spl = s.spl := (relayShow_among trivial trivial).spl s
theorem relayShow_out : (relayShow.run s).out = s.out := (relayShow_among trivial trivial).out s
end

/-- A frame for this member enters the queue. -/
def relayEnters (frame : List Nat) : Prog := .seq (.upd (.spl fun x => { x with rx := x.rx ++ [frame] })) relayShow

theorem relayEnters_changes (frame : List Nat) (s : State) : ChangesOnly [.SPL_RLY_CTL, .SPL_RLY_RX] [.spl, .out] false s ((relayEnters frame).run s) :=
  Prog.Only.changesOnly (p := relayEnters frame) ⟨List.mem_cons_self, relayShow_among List.mem_cons_self (by decide)⟩ s

theorem relayEnters_shows (frame : List Nat) {s : State} (hlen : s.spl.rx.length < 32) : ((relayEnters frame).run s).spl.rx = s.spl.rx ++ [frame] ∧
    ((relayEnters frame).run s).get SPL_RLY_CTL.RX_COUNT 0 = s.spl.rx.length + 1 ∧
    ((relayEnters frame).run s).get SPL_RLY_CTL.RX_OVF 0 = s.get SPL_RLY_CTL.RX_OVF 0 ∧ ((relayEnters frame).run s).out = s.out := by
  simp only [relayEnters, Prog.run_seq, relayShow_spl, relayShow_out, Prog.run_upd]
  refine ⟨rfl, ?_, ?_, rfl⟩
  · rw [relayShow_get _ _ (by decide), Prog.run_setF, State.get_fld_self _ _ _ _ (by decide), Upd.apply_spl, List.length_append]
    exact Nat.mod_eq_of_lt (Nat.lt_trans (Nat.succ_lt_succ hlen) (by decide))
  · rw [relayShow_get _ _ (by decide), Prog.run_setF, State.get_fld_bits _ _ _ _ _ _ (by decide), Upd.apply_get _ _ rfl]

/-- A RELAY that is taken: its SEQ is kept and it is acted on; one for several members is forwarded too. -/
theorem relayProg_run {s : State} {h : StraitHdr} {bc : Bool} {dest : Nat} {data : List Byte} (hup : s.link h.side = lkUp) (hacc : s.accepts h tRelay = true)
    (hon : s.splState ≠ mbOff) (hhere : bc = true ∨ dest = s.ownId) : (relayProg h bc dest data).run s =
      (when bc (splForward h tRelay (relayPayload bc dest data))).run ((if s.spl.rx.length ≥ 32 then setF SPL_RLY_CTL.RX_OVF 0 1
        else relayEnters ((straitFrame tRelay (s.verByte h.side) h.origin h.hops h.seq h.s2v (relayPayload bc dest data)).map (·.toNat))).run
        ((setLast h tRelay).run s)) := by
  have hact : (bc || dest == s.ownId) = true := by simpa using hhere
  have htaken : (s.link h.side == lkUp && s.accepts h tRelay && s.splState != mbOff) = true := by
    rw [beq_iff_eq.2 hup, hacc, bne_iff_ne.2 hon]
    rfl
  rw [relayProg, Prog.run_ask]
  cases bc with
  | true =>
    simp only [hact, Bool.not_true, Bool.false_and, Bool.false_eq_true, if_false]
    exact splReceive_run hup hon hacc _ _
  | false =>
    have hown : (!false && dest == s.ownId) = true := hact
    simp only [hact, hown, htaken, if_true]
    rfl

theorem relayForward_changes (bc : Bool) (h : StraitHdr) (payload : List Byte) (s : State) :
    Unchanged [] [.out] [] s ((when bc (splForward h tRelay payload)).run s) := by
  rw [Prog.run_when]
  split_ifs
  · exact splForward_changes _ _ _ _
  · exact Unchanged.refl s

theorem relay_enters {s : State} {h : StraitHdr} {bc : Bool} {dest : Fin 512} (data : List (BitVec 8)) (hup : s.link h.side = lkUp)
    (hacc : s.accepts h tRelay = true) (hon : s.splState ≠ mbOff) (hhere : bc = true ∨ dest.val = s.ownId) (hlen : s.spl.rx.length < 32) :
    Completes (.relay h bc dest data) s fun t => ChangesOnly [.SPL_RLY_CTL, .SPL_RLY_RX] [.spl, .out] false s t ∧
      t.spl.rx = s.spl.rx ++ [(straitFrame tRelay (s.verByte h.side) h.origin h.hops h.seq h.s2v (relayPayload bc dest data)).map (·.toNat)] ∧
      t.get SPL_RLY_CTL.RX_COUNT 0 = s.spl.rx.length + 1 ∧ t.get SPL_RLY_CTL.RX_OVF 0 = s.get SPL_RLY_CTL.RX_OVF 0 ∧ (bc = false → t.out = s.out) := by
  refine ⟨_, congrArg Host.Outcome.next (relayProg_run hup hacc hon hhere), ?_⟩
  rw [if_neg (Nat.not_le_of_lt hlen)]
  generalize (straitFrame tRelay (s.verByte h.side) h.origin h.hops h.seq h.s2v (relayPayload bc dest data)).map (·.toNat) = frame
  have hchange := relayEnters_changes frame ((setLast h tRelay).run s)
  obtain ⟨hrx, hcount, hovf, hout⟩ := relayEnters_shows frame (s := (setLast h tRelay).run s) hlen
  have hrest := relayForward_changes bc h (relayPayload bc dest data) ((relayEnters frame).run ((setLast h tRelay).run s))
  have hspl := hrest.2.1 .spl (by decide)
  refine ⟨?_, (congrArg SplState.rx hspl).trans hrx, (hrest.get _ _ (by simp)).trans hcount, (hrest.get _ _ (by simp)).trans (hovf.trans (setLast_get _ _ _ _ _)),
    fun hbc => ?_⟩
  · refine ((((ChangesOnly.refl s).prog (p := setLast h tRelay) (List.mem_cons_self : Part.spl ∈ [Part.spl, .out])).trans hchange).prog ?_)
    exact (Only.when _ _ _).2 fun _ => splForward_among _ _ _ (by decide)
  · subst hbc
    exact hout

theorem relay_overflows {s : State} {h : StraitHdr} {bc : Bool} {dest : Fin 512} (data : List (BitVec 8)) (hup : s.link h.side = lkUp)
    (hacc : s.accepts h tRelay = true) (hon : s.splState ≠ mbOff) (hhere : bc = true ∨ dest.val = s.ownId) (hlen : 32 ≤ s.spl.rx.length) :
    Completes (.relay h bc dest data) s fun t => Unchanged [(.SPL_RLY_CTL, 0)] [.spl, .out] [] s t ∧ t.spl.rx = s.spl.rx ∧
      t.get SPL_RLY_CTL.RX_OVF 0 = 1 := by
  refine ⟨_, congrArg Host.Outcome.next (relayProg_run hup hacc hon hhere), ?_⟩
  rw [if_pos hlen]
  have hrest := relayForward_changes bc h (relayPayload bc dest data) ((setF SPL_RLY_CTL.RX_OVF 0 1).run ((setLast h tRelay).run s))
  have hspl := hrest.2.1 .spl (by decide)
  refine ⟨?_, (congrArg SplState.rx hspl).trans rfl, (hrest.get _ _ (by simp)).trans (State.get_fld_self _ _ _ _ (by decide))⟩
  refine (((Unchanged.refl s).prog (p := setLast h tRelay) ?_).prog (p := setF SPL_RLY_CTL.RX_OVF 0 1) (List.mem_singleton_self _)).trans
    (hrest.mono (by simp) (by simp) (by simp))
  exact (List.mem_cons_self : Part.spl ∈ [Part.spl, .out])

/-! SEND (R271). -/

theorem relaySend_floods {s : State} (hfree : s.on SPL_RLY_CTL.TX_BUSY 0 = false) : Completes (.relaySend .keeper) s fun t =>
    Unchanged [(.SPL_RLY_CTL, 0)] [.spl, .out] [] s t ∧ t.spl.txCount = s.spl.txCount + 1 ∧ (1 ≤ s.spl.txCount → t.get SPL_RLY_CTL.TX_BUSY 0 = 1) ∧
    (s.bothUp → t.out.length = s.out.length + 2) := by
  generalize hp : relayPayload (s.on SPL_RLY_CTL.BCAST 0) (s.get SPL_RLY_CTL.DEST 0)
    ((List.range 12).flatMap fun i => beBytes 4 (s.get SPL_RLY_TX.W i)) = payload
  have hrun : relaySend.run s = (when (decide (2 ≤ s.spl.txCount + 1)) (setF SPL_RLY_CTL.TX_BUSY 0 1)).run
      ((Upd.spl fun x => { x with txCount := x.txCount + 1 }).apply ((splFlood tRelay payload).run s)) := by
    rw [relaySend, Prog.run_ask, hfree, if_neg Bool.false_ne_true, hp]
    rfl
  refine ⟨_, congrArg Host.Outcome.next hrun, ?_, ?_, fun hsecond => ?_, fun hup => ?_⟩
  · have hflood := ((splFlood_among tRelay payload (List.mem_cons_self : Part.spl ∈ [Part.spl, .out]) (by decide)).changesOnly s).unchanged
    refine ((hflood.app List.mem_cons_self).mono (by simp) (fun _ h => h) (by simp)).prog ?_
    exact (Only.when _ _ _).2 fun _ => List.mem_singleton_self _
  · rw [Prog.run_when]
    split_ifs <;> simp
  · rw [decide_eq_true (by omega), Prog.run_when, if_pos rfl]
    exact State.get_fld_self _ _ _ _ (by decide)
  · rw [Prog.run_when]
    split_ifs <;> simp [splFlood_length hup]

theorem relaySend_busy {s : State} (hbusy : s.on SPL_RLY_CTL.TX_BUSY 0 = true) : Completes (.relaySend .keeper) s fun t =>
    Unchanged [] [] [] s t ∧ t.out = s.out := by
  have hrun : relaySend.run s = s := by rw [relaySend, Prog.run_ask, if_pos hbusy, Prog.run_skip]
  exact ⟨s, congrArg Host.Outcome.next hrun, Unchanged.refl s, rfl⟩

/-- Settles O44: a frame that is taken is what its act does, behind the SEQ kept and before the frame's forwarding, which leaves every register and SPL's
hidden state. -/
theorem archipelagoMembers : Obligations.ArchipelagoMembers :=
  ⟨fun _ _ inst he el rl ma lv ver hup hother hacc hon => beacon_present hup hother hacc hon inst he el rl ma lv ver,
    fun _ _ _ he el rl ma lv ver hown hinst hjoin hq => beacon_duplicate hown hinst hjoin hq he el rl ma lv ver,
    fun _ hst hup => by
      obtain ⟨t, ht, hframe, hlength, hseq⟩ := beaconSend_floods hst
      exact ⟨t, ht, hframe, hlength hup, hseq⟩,
    fun _ hst => by
      obtain ⟨t, ht, hframe, -, hseq⟩ := beaconSend_floods hst
      exact ⟨t, ht, hframe, hseq⟩,
    fun _ hst => beaconSend_silent hst,
    fun _ _ inst hup hother hon hseq => join_adds inst hup hother hon hseq,
    fun _ _ hup _ hacc hon => leave_removes hup hacc hon,
    fun _ _ _ _ data hup _ hacc hon hhere hlen => relay_enters data hup hacc hon hhere hlen,
    fun _ _ _ _ data hup _ hacc hon hhere hlen => relay_overflows data hup hacc hon hhere hlen,
    fun _ hfree hup => by
      obtain ⟨t, ht, hframe, -, -, hlength⟩ := relaySend_floods hfree
      exact ⟨t, ht, hframe, hlength hup⟩,
    fun _ hfree => by
      obtain ⟨t, ht, hframe, hcount, hbusy, -⟩ := relaySend_floods hfree
      exact ⟨t, ht, hframe, hcount, hbusy⟩,
    fun _ hbusy => relaySend_busy hbusy⟩

end Sys2Proof.Machine
end

section
/-! A forewarning that finds a writer writing: its rewrite entry's line displaces a dirty one of the buffer cache (R167, R268, R372). -/
namespace Sys2Proof.Machine

/-- A member whose side 0 is up, while writer 2's gate is open and the next rewrite entry falls in a set of the buffer cache whose one way for WRC holds a
dirty line. -/
def forewarnedDirtySet : State := (all [setF SPL_SIDE_STAT.LINK 0 lkUp, setF SPL_STAT.STATE 0 mbMember]).run dirtySet

/-- A frame of the neighbour, member 5. -/
def neighbourFrame : StraitHdr := { side := 0, origin := 5, hops := 1, seq := 9, s2v := true }

/-- The member takes the forewarning, and acts on it. -/
theorem forewarnedDirtySet_acts : forewarnedDirtySet.link neighbourFrame.side = lkUp ∧ neighbourFrame.origin.val ≠ forewarnedDirtySet.ownId ∧
    forewarnedDirtySet.accepts neighbourFrame tFwarn = true ∧ forewarnedDirtySet.splState ≠ mbOff ∧ forewarnedDirtySet.on SPL_FW_CFG.RX_EN 0 = true ∧
    forewarnedDirtySet.get SPL_FW_CFG.FW_WIN 0 ≠ 0 ∧ neighbourFrame.hops.val ≤ max 1 (forewarnedDirtySet.get SPL_FW_CFG.FW_RADIUS 0) := by
  decide +kernel

/-- The forewarning closes the gate, and the entry's line takes the way of the dirty line, which enters the eviction buffer. -/
theorem forewarnedDirtySet_evicts : forewarnedDirtySet.get BMU_EVB_STAT.USED 0 = 0 ∧
    ((fwarnProg neighbourFrame 9 1 5).run forewarnedDirtySet).get BMU_EVB_STAT.USED 0 = 1 := by
  decide +kernel

/-- Refutes O45: its second clause on a forewarning lists the registers that may change, and none of the buffer cache's. A forewarning acted on closes every
gate (R268), and the rewrite entry of the sector under an open gate (R167) is a store to DRAM through the buffer cache. A dirty line that its allocation
displaces enters the eviction buffer (R372), and BMU_EVB_STAT counts it (Table 13.5). -/
theorem not_archipelagoTime : ¬ Obligations.ArchipelagoTime := by
  intro h
  obtain ⟨-, -, -, -, -, -, -, -, -, -, -, hforewarn, -⟩ := h
  obtain ⟨hlink, hother, haccepts, hstate, henable, hwindow, hradius⟩ := forewarnedDirtySet_acts
  obtain ⟨t, ht, hframe, -⟩ := hforewarn forewarnedDirtySet neighbourFrame 9 1 5 hlink hother haccepts hstate henable hwindow hradius
  obtain rfl : (fwarnProg neighbourFrame 9 1 5).run forewarnedDirtySet = t := Host.Outcome.next.inj ht
  have hkept : ((fwarnProg neighbourFrame 9 1 5).run forewarnedDirtySet).get BMU_EVB_STAT.USED 0 = forewarnedDirtySet.get BMU_EVB_STAT.USED 0 :=
    hframe.fieldsKept (fs := [BMU_EVB_STAT.USED]) (by decide) _ (List.mem_singleton.2 rfl) 0
  obtain ⟨hbefore, hafter⟩ := forewarnedDirtySet_evicts
  exact absurd (hafter.symm.trans (hkept.trans hbefore)) (by decide)

end Sys2Proof.Machine
end

section
/-! GF(2^8) of R274: its product adds in each factor and is associative, and a sum of products exchanges with it. -/
namespace Sys2Proof.Machine

/-! The product adds in each factor: bit by bit of the second, and by the double of the first. -/

/-- One bit of the second factor: the sum so far, and the first factor times the next power of x. -/
def fieldStep (p b : Byte) (x : Byte × Byte) (k : Nat) : Byte × Byte :=
  (if b.getLsbD k then x.1 ^^^ x.2 else x.1, if x.2.getLsbD 7 then (x.2 <<< 1) ^^^ p else x.2 <<< 1)

theorem gfMul_eq_foldl (a b : Byte) : gfMul a b = ((List.range 8).foldl (fieldStep 0x1D b) (0, a)).1 := rfl

theorem xor_xor_xor_swap (x y z w : Byte) : x ^^^ y ^^^ (z ^^^ w) = x ^^^ z ^^^ (y ^^^ w) := by ac_rfl

/-- A term that enters two sums by a bit each enters their sum by the bits' sum. -/
theorem ite_xor_ite (r t : Bool) (x y a : Byte) :
    (if (r ^^ t) = true then x ^^^ y ^^^ a else x ^^^ y) = (if r then x ^^^ a else x) ^^^ (if t then y ^^^ a else y) := by
  cases r <;> cases t
  · rfl
  · exact BitVec.xor_assoc x y a
  · change x ^^^ y ^^^ a = x ^^^ a ^^^ y
    ac_rfl
  · change x ^^^ y = x ^^^ a ^^^ (y ^^^ a)
    rw [xor_xor_xor_swap, BitVec.xor_self, BitVec.xor_zero]

theorem fieldStep_foldl_add_right (p b c : Byte) (l : List Nat) (x y a : Byte) :
    (l.foldl (fieldStep p (b ^^^ c)) (x ^^^ y, a)).1 = (l.foldl (fieldStep p b) (x, a)).1 ^^^ (l.foldl (fieldStep p c) (y, a)).1 := by
  induction l generalizing x y a with
  | nil => rfl
  | cons k l ih => simp only [List.foldl_cons, fieldStep, BitVec.getLsbD_xor, ite_xor_ite, ih]

theorem fieldStep_foldl_add_left (p b : Byte) (l : List Nat) (x y a c : Byte) :
    (l.foldl (fieldStep p b) (x ^^^ y, a ^^^ c)).1 = (l.foldl (fieldStep p b) (x, a)).1 ^^^ (l.foldl (fieldStep p b) (y, c)).1 := by
  induction l generalizing x y a c with
  | nil => rfl
  | cons k l ih =>
    have hsum : (if b.getLsbD k then x ^^^ y ^^^ (a ^^^ c) else x ^^^ y) =
        (if b.getLsbD k then x ^^^ a else x) ^^^ (if b.getLsbD k then y ^^^ c else y) := by
      split
      · exact xor_xor_xor_swap x y a c
      · rfl
    simp only [List.foldl_cons, fieldStep, hsum, BitVec.getLsbD_xor, BitVec.shiftLeft_xor_distrib, ite_xor_ite, ih]

theorem gfMul_xor_right (a b c : Byte) : gfMul a (b ^^^ c) = gfMul a b ^^^ gfMul a c := by
  simp only [gfMul_eq_foldl]
  exact fieldStep_foldl_add_right 0x1D b c (List.range 8) 0 0 a

theorem gfMul_xor_left (a b c : Byte) : gfMul (a ^^^ b) c = gfMul a c ^^^ gfMul b c := by
  simp only [gfMul_eq_foldl]
  exact fieldStep_foldl_add_left 0x1D c (List.range 8) 0 0 a b

/-! What adds is known by its values at the single bits. -/

/-- A byte is the sum of its bits. -/
theorem byte_eq_foldl_bits : ∀ x : Byte, x = (List.range 8).foldl (fun y k => y ^^^ if x.getLsbD k then 1#8 <<< k else 0#8) 0#8 := by decide +kernel

theorem foldl_xor_induction {α : Type} {P : Byte → Prop} (hadd : ∀ x y, P x → P y → P (x ^^^ y)) (f : α → Byte) (l : List α) (h : ∀ e ∈ l, P (f e))
    (x : Byte) (hx : P x) : P (l.foldl (fun y e => y ^^^ f e) x) := by
  induction l generalizing x with
  | nil => exact hx
  | cons e l ih => exact ih (fun e' he => h e' (List.mem_cons_of_mem _ he)) _ (hadd _ _ hx (h e List.mem_cons_self))

/-- What holds of zero and of the single bits, and of a sum where it holds of the summands, holds of every byte. -/
theorem byte_induction {P : Byte → Prop} (hzero : P 0#8) (hbit : ∀ k < 8, P (1#8 <<< k)) (hadd : ∀ x y, P x → P y → P (x ^^^ y)) (x : Byte) : P x := by
  rw [byte_eq_foldl_bits x]
  refine foldl_xor_induction hadd _ _ (fun k hk => ?_) 0#8 hzero
  split
  · exact hbit k (List.mem_range.1 hk)
  · exact hzero

theorem gfMul_zero_right (a : Byte) : gfMul a 0#8 = 0#8 := by
  have hself := gfMul_xor_right a 0#8 0#8
  rwa [BitVec.xor_self, BitVec.xor_self] at hself

theorem gfMul_zero_left (a : Byte) : gfMul 0#8 a = 0#8 := by
  have hself := gfMul_xor_left 0#8 0#8 a
  rwa [BitVec.xor_self, BitVec.xor_self] at hself

theorem gfMul_assoc_bits : ∀ i < 8, ∀ j < 8, ∀ k < 8,
    gfMul (gfMul (1#8 <<< i) (1#8 <<< j)) (1#8 <<< k) = gfMul (1#8 <<< i) (gfMul (1#8 <<< j) (1#8 <<< k)) := by decide +kernel

theorem gfMul_one_bits : ∀ k < 8, gfMul 1#8 (1#8 <<< k) = 1#8 <<< k := by decide +kernel

/-- Both sides add in each of the three factors, so that the products of single bits decide. -/
theorem gfMul_assoc (a b c : Byte) : gfMul (gfMul a b) c = gfMul a (gfMul b c) := by
  induction a using byte_induction with
  | hzero => simp only [gfMul_zero_left]
  | hadd x y hx hy => simp only [gfMul_xor_left, hx, hy]
  | hbit i hi =>
    induction b using byte_induction with
    | hzero => simp only [gfMul_zero_left, gfMul_zero_right]
    | hadd x y hx hy => simp only [gfMul_xor_left, gfMul_xor_right, hx, hy]
    | hbit j hj =>
      induction c using byte_induction with
      | hzero => simp only [gfMul_zero_right]
      | hadd x y hx hy => simp only [gfMul_xor_right, hx, hy]
      | hbit k hk => exact gfMul_assoc_bits i hi j hj k hk

theorem gfMul_one_left (a : Byte) : gfMul 1#8 a = a := by
  induction a using byte_induction with
  | hzero => exact gfMul_zero_right 1#8
  | hadd x y hx hy => rw [gfMul_xor_right, hx, hy]
  | hbit k hk => exact gfMul_one_bits k hk

/-! Sums of bytes. -/

/-- The sum of a function over a list, in GF(2^8). -/
def xorSum {α : Type} (f : α → Byte) (l : List α) : Byte := l.foldl (fun x e => x ^^^ f e) 0#8

section
variable {α β : Type}

theorem foldl_xor (f : α → Byte) (l : List α) (x : Byte) : l.foldl (fun y e => y ^^^ f e) x = x ^^^ xorSum f l := by
  induction l generalizing x with
  | nil => exact BitVec.xor_zero.symm
  | cons e l ih => rw [xorSum, List.foldl_cons, List.foldl_cons, ih, ih (0#8 ^^^ f e), BitVec.zero_xor, BitVec.xor_assoc]

theorem xorSum_cons (f : α → Byte) (e : α) (l : List α) : xorSum f (e :: l) = f e ^^^ xorSum f l := by
  rw [xorSum, List.foldl_cons, foldl_xor, BitVec.zero_xor]

theorem xorSum_append (f : α → Byte) (l l' : List α) : xorSum f (l ++ l') = xorSum f l ^^^ xorSum f l' := by
  induction l with
  | nil => exact BitVec.zero_xor.symm
  | cons e l ih => rw [List.cons_append, xorSum_cons, xorSum_cons, ih, BitVec.xor_assoc]

theorem xorSum_map (f : β → Byte) (g : α → β) (l : List α) : xorSum f (l.map g) = xorSum (fun e => f (g e)) l := List.foldl_map

theorem xorSum_congr {f g : α → Byte} {l : List α} (h : ∀ e ∈ l, f e = g e) : xorSum f l = xorSum g l := by
  induction l with
  | nil => rfl
  | cons e l ih => rw [xorSum_cons, xorSum_cons, h e List.mem_cons_self, ih fun e' he => h e' (List.mem_cons_of_mem _ he)]

theorem xorSum_zero (l : List α) : xorSum (fun _ => 0#8) l = 0#8 := by
  induction l with
  | nil => rfl
  | cons e l ih => rw [xorSum_cons, ih, BitVec.xor_zero]

theorem xorSum_xor (f g : α → Byte) (l : List α) : xorSum (fun e => f e ^^^ g e) l = xorSum f l ^^^ xorSum g l := by
  induction l with
  | nil => exact (BitVec.xor_self (x := 0#8)).symm
  | cons e l ih => rw [xorSum_cons, xorSum_cons, xorSum_cons, ih, xor_xor_xor_swap]

/-- Two sums change places. -/
theorem xorSum_comm (f : α → β → Byte) (l : List α) (l' : List β) :
    xorSum (fun a => xorSum (f a) l') l = xorSum (fun b => xorSum (fun a => f a b) l) l' := by
  induction l with
  | nil => exact (xorSum_zero l').symm
  | cons a l ih => simp only [xorSum_cons, ih, xorSum_xor]

theorem gfMul_xorSum (c : Byte) (f : α → Byte) (l : List α) : gfMul c (xorSum f l) = xorSum (fun e => gfMul c (f e)) l := by
  induction l with
  | nil => exact gfMul_zero_right c
  | cons e l ih => rw [xorSum_cons, xorSum_cons, gfMul_xor_right, ih]

theorem xorSum_gfMul (f : α → Byte) (l : List α) (c : Byte) : gfMul (xorSum f l) c = xorSum (fun e => gfMul (f e) c) l := by
  induction l with
  | nil => exact gfMul_zero_left c
  | cons e l ih => rw [xorSum_cons, xorSum_cons, gfMul_xor_left, ih]

/-- Of a sum over distinct places in which one place alone counts, that one remains. -/
theorem xorSum_single {m i : Nat} (hi : i < m) (f : Nat → Byte) : xorSum (fun j => if j = i then f j else 0#8) (List.range m) = f i := by
  induction m with
  | zero => omega
  | succ m ih =>
    rw [List.range_succ, xorSum_append]
    by_cases him : i = m
    · subst him
      rw [xorSum_congr (g := fun _ => 0#8) fun j hj => if_neg (Nat.ne_of_lt (List.mem_range.1 hj)), xorSum_zero]
      simp [xorSum]
    · rw [ih (by omega)]
      simp [xorSum, Ne.symm him]

end

end Sys2Proof.Machine
end

section
/-! The parity members of a row, as the erasure solution of the members that no data is given for (R274, R275, R287): the statement. -/
namespace Sys2Proof.Machine

theorem syndrome_eq_xorSum (i : Nat) (xs : List (Nat × Byte)) : syndrome i xs = xorSum (fun e => gfMul (alpha (i * e.1)) e.2) xs := rfl

theorem eraseByte_eq_xorSum (es : List Nat) (cs : List Byte) (known : List (Nat × Byte)) :
    eraseByte es cs known = xorSum (fun j => gfMul (cs.getD j 0) (syndrome j known)) (List.range es.length) := rfl

/-- The erasure coefficients of members `es` invert the powers of α that the members have in the sums: S_i is formed by the i-th coefficient alone. -/
def coeffsInvert (es : List Nat) : Prop := ∀ i < es.length, ∀ j < es.length,
  xorSum (fun a => gfMul (alpha (i * a)) ((eraseCoeffs es a).getD j 0)) es = if j = i then 1#8 else 0#8

/-- With the bytes found for the erased members every sum over all members is 0, whatever the known ones hold. -/
theorem syndrome_erased {es : List Nat} (hes : coeffsInvert es) (known : List (Nat × Byte)) {i : Nat} (hi : i < es.length) :
    syndrome i (known ++ es.map fun a => (a, eraseByte es (eraseCoeffs es a) known)) = 0#8 := by
  have herased : syndrome i (es.map fun a => (a, eraseByte es (eraseCoeffs es a) known)) = syndrome i known := calc
    syndrome i (es.map fun a => (a, eraseByte es (eraseCoeffs es a) known))
      = xorSum (fun a => gfMul (alpha (i * a)) (eraseByte es (eraseCoeffs es a) known)) es := by
      rw [syndrome_eq_xorSum, xorSum_map]
    _ = xorSum (fun a => xorSum (fun j => gfMul (gfMul (alpha (i * a)) ((eraseCoeffs es a).getD j 0)) (syndrome j known)) (List.range es.length)) es := by
      simp only [eraseByte_eq_xorSum, gfMul_xorSum, gfMul_assoc]
    _ = xorSum (fun j => gfMul (xorSum (fun a => gfMul (alpha (i * a)) ((eraseCoeffs es a).getD j 0)) es) (syndrome j known)) (List.range es.length) := by
      rw [xorSum_comm]
      simp only [xorSum_gfMul]
    _ = xorSum (fun j => if j = i then syndrome j known else 0#8) (List.range es.length) := xorSum_congr fun j hj => by
      rw [hes i hi j (List.mem_range.1 hj)]
      split
      · exact gfMul_one_left _
      · exact gfMul_zero_left _
    _ = syndrome i known := xorSum_single hi _
  rw [syndrome_eq_xorSum, xorSum_append, ← syndrome_eq_xorSum, ← syndrome_eq_xorSum, herased, BitVec.xor_self]

/-- The parity members of a row with `m` of them: the last ones (R65, R275). -/
def parityMembers (m : Nat) : List Nat := (List.range m).map (16 - m + ·)

theorem coeffsInvert_parityMembers : ∀ m ∈ [1, 2, 4], coeffsInvert (parityMembers m) := by
  unfold coeffsInvert
  decide +kernel

/-- Settles O60: the coefficients of the parity members invert the powers of α, and then the bytes they give bring every sum to 0 (`syndrome_erased`), the
product of GF(2^8) being associative and additive. -/
theorem parityEncodes : Obligations.ParityEncodes := by
  intro m hm xs _ i hi
  exact syndrome_erased (coeffsInvert_parityMembers m hm) _ (by simpa [parityMembers] using hi)

end Sys2Proof.Machine
end

section
/-! Operations on MPC's key slots (R295, R392, Table 10.3): the write that starts one, its end, and what each leaves of its slot. -/
namespace Sys2Proof.Machine

/-! The end of an operation: ERR, and the key words cleared. -/

/-- Registers that the start and the end of an operation write. -/
def keyOpRegs : List (RegName × Nat) := (.MPC_KEY_CTL, 0) :: (List.range 16).map fun i => (.MPC_KEY_DATA, i)

/-- What the end of an operation shows. -/
def KeyEnded (err : Nat) (t : State) : Prop := t.get MPC_KEY_CTL.ERR 0 = err ∧ ∀ i < 16, t.get MPC_KEY_DATA.KEY i = 0

theorem keyEnd_unchanged (err : Nat) (s : State) : Unchanged keyOpRegs [] [] s ((keyEnd err).run s) :=
  Prog.Only.unchanged (p := keyEnd err)
    ⟨List.mem_cons_self, (Only.each _ _ _).2 fun _ hi => List.mem_cons_of_mem _ (List.mem_map_of_mem (f := fun i => (RegName.MPC_KEY_DATA, i)) hi)⟩ s

theorem keyEnd_get (err : Nat) (s : State) {f : Fld} (hctl : f.reg ≠ .MPC_KEY_CTL) (hdata : f.reg ≠ .MPC_KEY_DATA) (i : Nat) :
    ((keyEnd err).run s).get f i = s.get f i :=
  (keyEnd_unchanged err s).get f i (by simp [keyOpRegs, hctl, hdata.symm])

theorem keyEnd_keyBytes (err : Nat) (s : State) (k : Nat) : ((keyEnd err).run s).keyBytes k = s.keyBytes k := by
  have hmpc : ((keyEnd err).run s).mpc = s.mpc := (keyEnd_unchanged err s).2.1 .mpc List.not_mem_nil
  rw [State.keyBytes, hmpc, ← State.keyBytes]

theorem keyEnd_shows {err : Nat} (he : err < 16) (s : State) : KeyEnded err ((keyEnd err).run s) := by
  rw [keyEnd, Prog.run_seq]
  refine ⟨?_, fun i hi => ?_⟩
  · refine each_keeps (Q := fun t => t.get MPC_KEY_CTL.ERR 0 = err) (fun i _ t ht => ?_) ?_
    · rw [Prog.run_setF, State.get_fld_reg _ _ _ _ _ _ (by decide), ht]
    · exact (State.get_fld_self _ _ _ _ (by decide)).trans (Nat.mod_eq_of_lt he)
  · refine each_establishes (Q := fun t => t.get MPC_KEY_DATA.KEY i = 0) (f := fun i => setF MPC_KEY_DATA.KEY i 0) (x := i)
      (fun t => State.get_fld_self t MPC_KEY_DATA.KEY i 0 (by decide)) (fun j _ hj t ht => ?_) (List.mem_range.2 hi) _
    rw [Prog.run_setF, State.get_fld_ne _ _ _ _ _ _ (.inr (.inl hj)), ht]

/-- What changes elements of registers changes those registers. -/
theorem Unchanged.changesOnly {es : List (RegName × Nat)} {rs : List RegName} {ps : List Part} {s t : State} (h : Unchanged es ps [] s t)
    (hes : ∀ e ∈ es, e.1 ∈ rs) : ChangesOnly rs ps false s t :=
  ⟨fun r i hr => h.1 r i fun he => hr (hes _ he), h.2.1, fun _ a => h.2.2.1 a (by simp), h.2.2.2⟩

theorem keyOpRegs_names : ∀ e ∈ keyOpRegs, e.1 ∈ [RegName.MPC_KEY_CTL, .MPC_KEY_DATA] := by decide

/-! The write of MPC_KEY_CTL that starts an operation. -/

/-- The operands enter MPC_KEY_CTL. -/
def keyOperands (op slot kgen : Nat) (hostEn : Bool) : Prog := all [
  setF MPC_KEY_CTL.OP 0 op, setF MPC_KEY_CTL.KGEN 0 kgen, setF MPC_KEY_CTL.HOST_EN 0 (b2n hostEn), setF MPC_KEY_CTL.SLOT 0 slot]

section
variable (op slot kgen : Nat) (hostEn : Bool)

theorem keyOperands_unchanged (s : State) : Unchanged [(.MPC_KEY_CTL, 0)] [] [] s ((keyOperands op slot kgen hostEn).run s) :=
  Prog.Only.unchanged (p := keyOperands op slot kgen hostEn) (by simp [keyOperands, Upd.within, MPC_KEY_CTL.OP, MPC_KEY_CTL.KGEN, MPC_KEY_CTL.HOST_EN,
    MPC_KEY_CTL.SLOT]) s

theorem keyOperands_get (s : State) {f : Fld} (hf : f ∈ [MPC_KEY_CTL.BUSY, MPC_KEY_CTL.ERR]) :
    ((keyOperands op slot kgen hostEn).run s).get f 0 = s.get f 0 := by
  simp only [List.mem_cons, List.not_mem_nil, or_false] at hf
  obtain rfl | rfl := hf <;>
    simp (disch := decide) only [keyOperands, Prog.run_all_cons, Prog.run_all_nil, Prog.run_setF, State.get_fld_bits]

theorem keyOp_run (p : State → Prog) (s : State) : (keyOp .keeper op slot kgen hostEn p).run s =
    (whenS (fun s => !s.on MPC_KEY_CTL.BUSY 0) (.ask p)).run ((keyOperands op slot kgen hostEn).run s) := rfl

variable {op slot kgen hostEn}

/-- With no operation in progress the operation goes on, from a state in which the operands alone have been written. -/
theorem completes_keyOp {c : Instr} {s : State} {p : State → Prog} {Q : State → Prop} (hc : exec c s = .next ((keyOp .keeper op slot kgen hostEn p).run s))
    (hfree : s.on MPC_KEY_CTL.BUSY 0 = false) (hq : ∀ u, Unchanged [(.MPC_KEY_CTL, 0)] [] [] s u → Q ((p u).run u)) : Completes c s Q := by
  have hbusy : ((keyOperands op slot kgen hostEn).run s).on MPC_KEY_CTL.BUSY 0 = false := by
    rw [State.on, keyOperands_get _ _ _ _ _ (by simp)]
    exact hfree
  refine ⟨_, hc, ?_⟩
  rw [keyOp_run, Prog.run_whenS, hbusy]
  exact hq _ (keyOperands_unchanged _ _ _ _ _)

/-- While one is in progress nothing follows (R295). -/
theorem keyOp_busy {s : State} {p : State → Prog} (hbusy : s.on MPC_KEY_CTL.BUSY 0 = true) :
    (keyOp .keeper op slot kgen hostEn p).run s = (keyOperands op slot kgen hostEn).run s := by
  have hbusy' : ((keyOperands op slot kgen hostEn).run s).on MPC_KEY_CTL.BUSY 0 = true := by
    rw [State.on, keyOperands_get _ _ _ _ _ (by simp)]
    exact hbusy
  rw [keyOp_run, Prog.run_whenS, hbusy']
  rfl
end

/-! What the operands leave of what the operations judge. -/

section
variable {s u : State} (h : Unchanged [(.MPC_KEY_CTL, 0)] [] [] s u)
include h

theorem Unchanged.keyStat {f : Fld} (hf : f.reg = .MPC_KEY_STAT) (k : Nat) : u.get f k = s.get f k := h.get f k (by simp [hf])

theorem Unchanged.keyData : u.keyData = s.keyData := by
  have hword : ∀ i, u.get MPC_KEY_DATA.KEY i = s.get MPC_KEY_DATA.KEY i := fun i => h.get _ i (by simp [MPC_KEY_DATA.KEY])
  simp only [State.keyData, hword]

theorem Unchanged.keyBytes (k : Nat) : u.keyBytes k = s.keyBytes k := by
  have hmpc : u.mpc = s.mpc := h.2.1 .mpc List.not_mem_nil
  rw [State.keyBytes, hmpc, ← State.keyBytes]

/-- The end of an operation straight after its start. -/
theorem Unchanged.keyEnd (err : Nat) : Unchanged keyOpRegs [] [] s ((Machine.keyEnd err).run u) :=
  (h.mono (by simp [keyOpRegs]) (fun _ h => h) (fun _ h => h)).trans (keyEnd_unchanged err u)
end

/-! The operations (Table 10.3). -/

/-- A list has no entry of a key whose entries were filtered out. -/
theorem find?_filtered_out {α : Type} (l : List (Nat × α)) (k : Nat) : (l.filter fun e => e.1 != k).find? (fun e => e.1 == k) = none := by
  simp [List.find?_eq_none]

section
variable {s : State} {slot kgen : Nat} {hostEn : Bool}

theorem keyOperate_load_dirty (hdirty : s.get MPC_KEY_STAT.DIRTY slot ≠ 0) : keyOperate 0 slot kgen hostEn s = keyEnd 1 := if_pos hdirty

theorem keyOperate_load_equal (hclean : s.get MPC_KEY_STAT.DIRTY slot = 0) (hkeys : s.keyData.take 32 = s.keyData.drop 32) :
    keyOperate 0 slot kgen hostEn s = keyEnd 3 := (if_neg (not_not.2 hclean)).trans (if_pos hkeys)

theorem keyOperate_zeroise_dirty (hdirty : s.get MPC_KEY_STAT.DIRTY slot ≠ 0) : keyOperate 3 slot kgen hostEn s = keyEnd 1 := if_pos hdirty

/-- LOAD of a slot with no row held dirty, K1 and K2 different. -/
theorem keyOperate_load_run (hclean : s.get MPC_KEY_STAT.DIRTY slot = 0) (hkeys : s.keyData.take 32 ≠ s.keyData.drop 32) :
    (keyOperate 0 slot kgen hostEn s).run s = (keyEnd 0).run ((keyFrames slot).run ((setF MPC_KEY_STAT.STATE slot (if hostEn then 2 else 1)).run
      ((setF MPC_KEY_STAT.KGEN slot kgen).run
        ((Upd.mpc fun x => { x with keys := x.keys.filter (fun e => e.1 != slot) ++ [(slot, s.keyData)] }).apply s)))) := by
  have hop : keyOperate 0 slot kgen hostEn s = keyLoad slot kgen hostEn s := rfl
  rw [hop, keyLoad, if_neg (not_not.2 hclean), if_neg hkeys]
  rfl

/-- ZEROISE of a slot with no row held dirty. -/
theorem keyOperate_zeroise_run (hclean : s.get MPC_KEY_STAT.DIRTY slot = 0) : (keyOperate 3 slot kgen hostEn s).run s =
    (keyEnd 0).run ((keyFrames slot).run ((setF MPC_KEY_STAT.STATE slot 0).run
      ((Upd.mpc fun x => { x with keys := x.keys.filter fun e => e.1 != slot }).apply s))) := by
  have hop : keyOperate 3 slot kgen hostEn s = keyZeroise slot s := rfl
  rw [hop, keyZeroise, if_neg (not_not.2 hclean)]
  rfl

theorem keyFrames_get (slot : Nat) (s : State) (f : Fld) (i : Nat) : ((keyFrames slot).run s).get f i = s.get f i := Upd.apply_get _ _ rfl _ _

theorem keyFrames_keyBytes (slot : Nat) (s : State) (k : Nat) : ((keyFrames slot).run s).keyBytes k = s.keyBytes k := rfl

theorem setF_keyBytes (f : Fld) (i v : Nat) (s : State) (k : Nat) : ((setF f i v).run s).keyBytes k = s.keyBytes k := rfl

/-- What an operation can touch. -/
theorem keyOperate_among {R : RegName → Prop} {P : Part → Prop} {M : Prop} (hr : ∀ r ∈ [RegName.MPC_KEY_CTL, .MPC_KEY_DATA, .MPC_KEY_STAT], R r)
    (hmpc : P .mpc) (hbmu : P .bmu) (op : Nat) : (keyOperate op slot kgen hostEn s).Only (Upd.among R P M) := by
  have hstat : R .MPC_KEY_STAT := hr _ (by decide)
  have hend : ∀ err, (keyEnd err).Only (Upd.among R P M) := fun _ =>
    ⟨hr .MPC_KEY_CTL (by decide), (Only.each _ _ _).2 fun _ _ => hr .MPC_KEY_DATA (by decide)⟩
  have hframes : (keyFrames slot).Only (Upd.among R P M) := fun _ => hbmu
  simp only [keyOperate, keyLoad, keyTo, keyZeroise, Only.ite, Only.cons, Only.nil, Only.seq, Only.setF, Only.upd, hend, hframes, and_true, implies_true,
    true_and]
  exact ⟨fun _ _ _ => ⟨hmpc, hstat, hstat⟩, fun _ => ⟨fun _ _ => hstat, fun _ => ⟨fun _ _ => hstat, fun _ _ _ => ⟨hmpc, hstat⟩⟩⟩⟩

theorem keyOperate_changes (op : Nat) : ChangesOnly [.MPC_KEY_CTL, .MPC_KEY_DATA, .MPC_KEY_STAT] [.mpc, .bmu] false s
    ((keyOperate op slot kgen hostEn s).run s) := (keyOperate_among (fun _ h => h) (by decide) (by decide) op).changesOnly s

/-- What a LOAD that is not refused leaves of its slot. -/
theorem keyOperate_load_shows (hclean : s.get MPC_KEY_STAT.DIRTY slot = 0) (hkeys : s.keyData.take 32 ≠ s.keyData.drop 32) (hkgen : kgen < 64) :
    ((keyOperate 0 slot kgen hostEn s).run s).get MPC_KEY_STAT.STATE slot = (if hostEn then 2 else 1) ∧
      ((keyOperate 0 slot kgen hostEn s).run s).get MPC_KEY_STAT.KGEN slot = kgen ∧ ((keyOperate 0 slot kgen hostEn s).run s).keyBytes slot = s.keyData ∧
      KeyEnded 0 ((keyOperate 0 slot kgen hostEn s).run s) := by
  rw [keyOperate_load_run hclean hkeys]
  refine ⟨?_, ?_, ?_, keyEnd_shows (by decide) _⟩
  · rw [keyEnd_get _ _ (by decide) (by decide), keyFrames_get, Prog.run_setF, State.get_fld_self _ _ _ _ (by decide)]
    cases hostEn <;> rfl
  · rw [keyEnd_get _ _ (by decide) (by decide), keyFrames_get, Prog.run_setF, State.get_fld_bits _ _ _ _ _ _ (by decide), Prog.run_setF,
      State.get_fld_self _ _ _ _ (by decide)]
    exact Nat.mod_eq_of_lt hkgen
  · rw [keyEnd_keyBytes, keyFrames_keyBytes, setF_keyBytes, setF_keyBytes, State.keyBytes, Upd.apply_mpc, List.find?_append,
      find?_filtered_out, Option.none_or]
    simp

/-- What a ZEROISE that is not refused leaves of its slot. -/
theorem keyOperate_zeroise_shows (hclean : s.get MPC_KEY_STAT.DIRTY slot = 0) : ((keyOperate 3 slot kgen hostEn s).run s).keyState slot = 0 ∧
    ((keyOperate 3 slot kgen hostEn s).run s).keyBytes slot = [] ∧ KeyEnded 0 ((keyOperate 3 slot kgen hostEn s).run s) := by
  rw [keyOperate_zeroise_run hclean]
  refine ⟨?_, ?_, keyEnd_shows (by decide) _⟩
  · rw [State.keyState, keyEnd_get _ _ (by decide) (by decide), keyFrames_get, Prog.run_setF, State.get_fld_self _ _ _ _ (by decide)]
    rfl
  · rw [keyEnd_keyBytes, keyFrames_keyBytes, setF_keyBytes, State.keyBytes, Upd.apply_mpc, find?_filtered_out]
    rfl
end

/-- LOCK and UNLOCK of a slot that is EMPTY. -/
theorem keyTo_empty {s : State} {slot : Nat} (h : s.keyState slot = 0) (st : Nat) : keyTo slot st s = keyEnd 2 := if_pos h

/-- LOCK and UNLOCK of a slot that is not. -/
theorem keyTo_shows {s : State} {slot st : Nat} (h : s.keyState slot ≠ 0) (hst : st < 4) :
    Unchanged ((.MPC_KEY_STAT, slot) :: keyOpRegs) [] [] s ((keyTo slot st s).run s) ∧ ((keyTo slot st s).run s).keyState slot = st ∧
      ((keyTo slot st s).run s).keyBytes slot = s.keyBytes slot ∧ KeyEnded 0 ((keyTo slot st s).run s) := by
  rw [keyTo, if_neg h, Prog.run_seq]
  refine ⟨?_, ?_, ?_, keyEnd_shows (by decide) _⟩
  · exact (Prog.Only.unchanged (p := setF MPC_KEY_STAT.STATE slot st) List.mem_cons_self s).trans
      ((keyEnd_unchanged 0 _).mono (fun _ h => List.mem_cons_of_mem _ h) (fun _ h => h) (fun _ h => h))
  · rw [State.keyState, keyEnd_get _ _ (by decide) (by decide), Prog.run_setF, State.get_fld_self _ _ _ _ (by decide)]
    exact Nat.mod_eq_of_lt hst
  · rw [keyEnd_keyBytes, setF_keyBytes]

/-- LOCK and UNLOCK as commands: the slot takes its state, and keeps its key. -/
theorem completes_keyTo {c : Instr} {s : State} {op : Nat} {k : Fin 128} {st : Nat}
    (hc : exec c s = .next ((keyOp .keeper op k 0 false (keyTo k st)).run s)) (hfree : s.on MPC_KEY_CTL.BUSY 0 = false) (hst : st < 4)
    (hkey : s.keyState k ≠ 0) : Completes c s fun t =>
      Unchanged ((.MPC_KEY_CTL, 0) :: (.MPC_KEY_STAT, k.val) :: (List.range 16).map fun i => (.MPC_KEY_DATA, i)) [] [] s t ∧ t.keyState k = st ∧
        t.keyBytes k = s.keyBytes k ∧ KeyEnded 0 t := by
  refine completes_keyOp hc hfree fun u hu => ?_
  obtain ⟨hchange, hstate, hbytes, hend⟩ := keyTo_shows (s := u) (by rwa [State.keyState, hu.keyStat rfl]) hst
  refine ⟨((hu.mono ?_ (fun _ h => h) (fun _ h => h)).trans (hchange.mono ?_ (fun _ h => h) (fun _ h => h))), hstate, hbytes.trans (hu.keyBytes k), hend⟩
  · exact fun e he => List.mem_cons.2 (.inl (List.mem_singleton.1 he))
  · intro e he
    simp only [keyOpRegs, List.mem_cons] at he ⊢
    tauto

/-- A refused operation: ERR and the cleared key words alone. -/
theorem completes_keyRefused {c : Instr} {s : State} {op slot kgen : Nat} {hostEn : Bool} {p : State → Prog} {err : Nat}
    (hc : exec c s = .next ((keyOp .keeper op slot kgen hostEn p).run s)) (hfree : s.on MPC_KEY_CTL.BUSY 0 = false) (herr : err < 16)
    (hp : ∀ u, Unchanged [(.MPC_KEY_CTL, 0)] [] [] s u → p u = keyEnd err) : Completes c s fun t =>
      ChangesOnly [.MPC_KEY_CTL, .MPC_KEY_DATA] [] false s t ∧ KeyEnded err t ∧ (∀ k, t.keyState k = s.keyState k) ∧ ∀ k, t.keyBytes k = s.keyBytes k := by
  refine completes_keyOp hc hfree fun u hu => ?_
  rw [hp u hu]
  refine ⟨(hu.keyEnd err).changesOnly keyOpRegs_names, keyEnd_shows herr u, fun k => ?_, fun k => ?_⟩
  · exact (keyEnd_get _ _ (by decide) (by decide) k).trans (hu.keyStat rfl k)
  · exact (keyEnd_keyBytes err u k).trans (hu.keyBytes k)

/-- What an operation can touch, its operands included. -/
theorem keyOperate_after {s u : State} (h : Unchanged [(.MPC_KEY_CTL, 0)] [] [] s u) (op slot kgen : Nat) (hostEn : Bool) :
    ChangesOnly [.MPC_KEY_CTL, .MPC_KEY_DATA, .MPC_KEY_STAT] [.mpc, .bmu] false s ((keyOperate op slot kgen hostEn u).run u) :=
  ((h.mono (fun _ h => h) (by simp) (fun _ h => h)).changesOnly (by simp)).trans (keyOperate_changes op)

/-- Settles O46: with no operation in progress each goes on from the state with its operands written (`completes_keyOp`), and ends, refused or not, with
`keyEnd`; with one in progress the operands alone are written. -/
theorem keySlots : Obligations.KeySlots := by
  unfold Obligations.KeySlots
  refine ⟨fun s k g he hfree hclean hkeys => ?_, fun s k g he hfree hclean hkeys => ?_, fun s k g he hfree hdirty => ?_, fun s k g he hbusy => ?_,
    fun s k hfree hkey => completes_keyTo rfl hfree (by decide) hkey, fun s k hfree hkey => completes_keyTo rfl hfree (by decide) hkey,
    fun s k hfree hempty => ?_, fun s k hfree hclean => ?_, fun s k hfree hdirty => ?_⟩
  · refine completes_keyOp rfl hfree fun u hu => ?_
    rw [← hu.keyData] at hkeys ⊢
    exact ⟨keyOperate_after hu _ _ _ _, keyOperate_load_shows ((hu.keyStat rfl k).trans hclean) hkeys g.isLt⟩
  · obtain ⟨t, ht, hchange, hend, -⟩ := completes_keyRefused (c := .keyLoad .keeper k g he) (err := 3) rfl hfree (by decide) fun u hu =>
      keyOperate_load_equal ((hu.keyStat rfl k).trans hclean) (by rwa [hu.keyData])
    exact ⟨t, ht, hchange, hend⟩
  · obtain ⟨t, ht, hchange, hend, -⟩ := completes_keyRefused (c := .keyLoad .keeper k g he) (err := 1) rfl hfree (by decide) fun u hu =>
      keyOperate_load_dirty (by rwa [hu.keyStat rfl])
    exact ⟨t, ht, hchange, hend⟩
  · have hwritten := keyOperands_unchanged 0 k g he s
    exact ⟨_, congrArg Host.Outcome.next (keyOp_busy hbusy), hwritten, hwritten.keyStat rfl k, keyOperands_get 0 k g he s (by simp)⟩
  · obtain ⟨t, ht, hchange, ⟨herr, hwords⟩, hstate, -⟩ := completes_keyRefused (c := .keyUnlock .keeper k) (err := 2) rfl hfree (by decide) fun u hu =>
      keyTo_empty ((hu.keyStat rfl k).trans hempty) 2
    exact ⟨t, ht, hchange, (hstate k).trans hempty, herr, hwords⟩
  · refine completes_keyOp rfl hfree fun u hu => ?_
    exact ⟨keyOperate_after hu _ _ _ _, keyOperate_zeroise_shows ((hu.keyStat rfl k).trans hclean)⟩
  · obtain ⟨t, ht, hchange, ⟨herr, -⟩, hstate, hbytes⟩ := completes_keyRefused (c := .keyZeroise .keeper k) (err := 1) rfl hfree (by decide) fun u hu =>
      keyOperate_zeroise_dirty (by rwa [hu.keyStat rfl])
    exact ⟨t, ht, hchange, herr, hstate k, hbytes k⟩

end Sys2Proof.Machine
end

section
/-! A deletion whose key slot serves another namespace too, one that holds rows acknowledged and unwritten: ZEROISE is refused with DIRTY, and the slot keeps
its key (R296, R352, Table 10.3). -/
namespace Sys2Proof.Machine

/-- Namespace 0 is being deleted and holds no command; its key slot, 5, is READY and is also namespace 1's, of which one version waits in the budget to be
written, so that the slot counts one dirty row. -/
def sharedSlotDeletion : State := (all [
  setF CQE_NS_CFG.STATE 0 2, setF CQE_NS_CFG.KSLOT 0 5, setF CQE_NS_ROWS.UNITS 0 1,
  setF CQE_NS_CFG.STATE 1 1, setF CQE_NS_CFG.KSLOT 1 5, setF CQE_NS_BASE.UNIT 1 1, setF CQE_NS_ROWS.UNITS 1 1,
  setF MPC_KEY_STAT.STATE 5 2, setF MPC_KEY_STAT.DIRTY 5 1, setF BMU_BUDGET.USED 0 1, setF CQE_THROT.DIRTY 0 1,
  .upd (.cqe fun x => { x with overlay := [{ ns := 1, lba := 5, seq := 9, slot := 2, inBudget := true }] })]).run .reset

theorem sharedSlotDeletion_waits : sharedSlotDeletion.get CQE_NS_CFG.STATE 0 = 2 ∧ sharedSlotDeletion.cqe.cmds.any (fun c => c.ns == some 0) = false ∧
    sharedSlotDeletion.get PCX_KPR_STAT.RESTART 0 = 0 ∧ sharedSlotDeletion.get CQE_NS_CFG.KSLOT 0 = 5 := by
  decide +kernel

/-- The deletion ends with the slot READY as it was, ERR telling DIRTY. -/
theorem sharedSlotDeletion_keeps : ((deleteFinishProg 0).run sharedSlotDeletion).keyState 5 = 2 ∧
    ((deleteFinishProg 0).run sharedSlotDeletion).get MPC_KEY_CTL.ERR 0 = 1 := by
  decide +kernel

/-- Refutes O18: its clause on the end of a deletion says that the namespace's key slot is then EMPTY, whatever else the slot serves. The deletion zeroises the
slot (R352), and ZEROISE is refused with DIRTY while BMU holds rows acknowledged and unwritten for any of the slot's namespaces (R296, Table 10.3). -/
theorem not_ferryNamespaces : ¬ Obligations.FerryNamespaces := by
  intro h
  obtain ⟨-, -, -, hfinish, -⟩ := h
  obtain ⟨hdeleting, hcmds, hrunning, hslot⟩ := sharedSlotDeletion_waits
  obtain ⟨t, ht, -, hempty, -⟩ := hfinish sharedSlotDeletion 0 hdeleting hcmds hrunning
  obtain rfl : (deleteFinishProg 0).run sharedSlotDeletion = t := Host.Outcome.next.inj ht
  obtain ⟨hready, -⟩ := sharedSlotDeletion_keeps
  have hzero : ((deleteFinishProg 0).run sharedSlotDeletion).keyState 5 = 0 := hslot ▸ hempty
  exact absurd (hready.symm.trans hzero) (by decide)

end Sys2Proof.Machine
end

section
set_option Elab.async false
/-! What every command and every software source does: the step of a queue that holds commands (R492), the events of R540. -/
namespace Sys2Proof.Machine

/-- Settles O50: the step's case for a command at the front of the queue. -/
theorem stepRunsCommand : Obligations.StepRunsCommand := fun _ _ _ => step_of_cons rfl

/-- Free values are counted up: no program takes one back (assumption log 3). -/
theorem Prog.run_freeCtr_le (p : Prog) (s : State) : s.freeCtr ≤ (p.run s).freeCtr :=
  Prog.run_rel (fun s t => s.freeCtr ≤ t.freeCtr) (fun _ => Nat.le_refl _) (fun _ _ _ h h' => h.trans h')
    (fun u s => by
      cases u
      case free => exact Nat.le_succ _
      all_goals exact Nat.le_refl _) p s

/-- Settles O53: a command runs a program, and no update of a program touches the queue, takes back what was sent or gives a free value again. -/
theorem commandsGoOn : Obligations.CommandsGoOn := by
  intro c s
  obtain ⟨p, hp⟩ := exec_runs c s
  exact ⟨p.run s, hp, p.run_pending s, p.run_out s, p.run_freeCtr_le s⟩

/-- A core's write of a software source raises an event of it. -/
theorem fcuRaiseProg_software {m : Master} {i : Nat} (hm : m.isCore = true) (hi : 320 ≤ i ∧ i ≤ 383) : fcuRaiseProg m i = raise i (detail 0) := by
  simp [fcuRaiseProg, when, hm, hi]

/-- A write that names another source is discarded. -/
theorem fcuRaiseProg_other {m : Master} {i : Nat} (hi : ¬(320 ≤ i ∧ i ≤ 383)) : fcuRaiseProg m i = .skip := by
  simp [fcuRaiseProg, when, hi]

theorem exec_fcuRaise (m : Master) (i : Fin 512) (s : State) : exec (.fcuRaise m i) s = .next ((fcuRaiseProg m i).run s) := rfl

/-- Settles O57: FCU_RAISE is the event of the source it names, where that is a software source, and the laws of a quiet event say the rest. -/
theorem softwareFaults : Obligations.SoftwareFaults := by
  refine ⟨fun m i s hm hlo hhi => ?_, fun s m i hm hi hq => ⟨_, exec_fcuRaise m i s, ?_⟩, fun m i s hi => ?_⟩
  · rw [exec_fcuRaise, fcuRaiseProg_software hm ⟨hlo, hhi⟩]
  · rw [fcuRaiseProg_software hm hi]
    exact ⟨raise_unchanged _ hq, raise_counted _ hq⟩
  · rw [exec_fcuRaise, fcuRaiseProg_other hi, Prog.run_skip]

end Sys2Proof.Machine
end

section
set_option Elab.async false
/-! 64-bit registers (R592): their arrays lie at multiples of 8, and so do the elements of each. -/
namespace Sys2Proof.Machine

/-- The array of a register lies at a multiple of 8, and so does each of its elements within it. -/
def alignedWide (r : RegName) : Bool := decide ((regInfo r).offset % 8 = 0) && decide (dimSlack 8 (regInfo r).dims = 0)

theorem alignedWide_of_wide (r : RegName) (h : (regInfo r).wide = true) : alignedWide r = true := by
  have hall : ∀ n < 512, (regInfo (RegName.ofNat n)).wide = true → alignedWide (RegName.ofNat n) = true := by decide +kernel
  have hlt : r.ctorIdx < 512 := by cases r <;> decide
  rw [← RegName.ofNat_idx r]
  exact hall _ hlt (by rwa [RegName.ofNat_idx])

/-- The common registers of the blocks are 32 bits wide: an element of a 64-bit one lies in its block's array. -/
theorem regAddr_of_wide {r : RegName} (i : Nat) (h : (regInfo r).wide = true) :
    regAddr r i = regBase + (regInfo r).block * 0x100000 + (regInfo r).offset + dimOffset (regInfo r).dims i := by
  unfold regAddr
  split
  case h_5 => rfl
  all_goals exact absurd h (by decide)

/-- Settles O56: the array of a 64-bit register lies at a multiple of 8 in its block, as do its elements, whose strides are multiples of 8. -/
theorem wideRegisters : Obligations.WideRegisters := by
  intro r i hwide hi
  have haligned := alignedWide_of_wide r hwide
  simp only [alignedWide, Bool.and_eq_true, decide_eq_true_eq] at haligned
  obtain ⟨hoffset, hslack⟩ := haligned
  obtain ⟨q, x, hx, heq⟩ := dimOffset_mod 8 _ i hi
  rw [regAddr_of_wide i hwide, heq]
  omega

end Sys2Proof.Machine
end

section
set_option Elab.async false
/-! The state that reset leaves (the Reset columns of chapters 3 to 20). -/
namespace Sys2Proof.Machine

/-- A register that reset leaves as its Reset column has it: no register is listed after reset. -/
theorem reset_get (f : Fld) (i : Nat) : State.reset.get f i = getBits (regReset f.reg i) f.hi f.lo := rfl

/-- Settles O49: each register field is read off the Reset columns, for the arrays element by element. -/
theorem resetState : Obligations.ResetState := by
  unfold Obligations.ResetState
  simp only [reset_get]
  decide +kernel

end Sys2Proof.Machine
end

section
set_option Elab.async false
/-! A calibration run whose condition has lapsed ends in the tick (R558): what the run saved returns to its registers, Meridian time among them. -/
namespace Sys2Proof.Machine

/-- In ACTIVE a run of item 0 of class M is in progress, which is SERVICE's alone (Table 21.3). What it has saved is PTM_MER_TIME at 7. No command saves that
register: CAL_GO saves those of Table 21.3. -/
def savedTime : State := (all [setF PTM_MODE_STAT.MODE 0 mActive, .upd (.ptm fun p => { p with powered := true }),
  .upd (.svc fun x => { x with calActive := true, calSaved := [(regKey .PTM_MER_TIME 0, 7)] })]).run .reset

/-- No command waits, the part is on and out of BOOT, and neither a reset nor a transition nor a power loss is under way. -/
theorem savedTime_idles : savedTime.pending = [] ∧ savedTime.ptm.powered = true ∧ savedTime.ptm.retention = false ∧ savedTime.mode ≠ mBoot ∧
    savedTime.ptm.resetPend = none ∧ savedTime.ptm.target = none ∧ savedTime.ptm.seqStep = 0 ∧ savedTime.ptm.plStep = 0 := by
  decide +kernel

/-- The tick counts Meridian time on to 1, and then ends the run, which puts 7 back. -/
theorem savedTime_tick : savedTime.time = 0 ∧ (tickProg.run savedTime).time = 7 := by
  decide +kernel

/-- Refutes O51: its last clause has Meridian time advance by one in a tick outside BOOT, from every state with no reset, transition or power loss under way.
The tick also ends a calibration run whose condition has lapsed (R558), which puts back all that the run has saved (R559), and the clause does not say what
that is: where it is PTM_MER_TIME, the time is the one saved. CAL_GO begins no such run, so the clause lacks a hypothesis on what is saved. -/
theorem not_idleTick : ¬ Obligations.IdleTick := by
  intro h
  obtain ⟨-, -, hadvance⟩ := h
  obtain ⟨hqueue, hon, hawake, hmode, hreset, htarget, hseq, hloss⟩ := savedTime_idles
  obtain ⟨t, ht, htime⟩ := hadvance savedTime hqueue hon hawake hmode hreset htarget hseq hloss
  obtain rfl : tickProg.run savedTime = t := Host.Outcome.next.inj ((step_of_empty hqueue).symm.trans ht)
  obtain ⟨hbefore, hafter⟩ := savedTime_tick
  rw [hafter, hbefore] at htime
  exact absurd htime (by decide)

end Sys2Proof.Machine
end

section
set_option Elab.async false
/-! A STATUS frame that reports an arm latched which is to be loaded again at once (R209 step 3, R210). -/
namespace Sys2Proof.Machine

/-- The Causeway is up. Actuator 0 is loaded and unloads only to be loaded again; its retract is under way, and the power die has its arm latched. -/
def reloadingArm : State := (all [setF PTM_CW_STAT.LINK 0 cwUp, setF PWR_STAT.LATCHED 0 1, setF SVE_TRK_STAT.LOADED 0 1,
  .upd (.sve fun x => { x with retract := [0] }), setSeek 0 fun k => { k with reload := true }]).run .reset

/-- The frame crosses outside the entry into RETENTION, and reports the arm whose retract waits for it. -/
theorem reloadingArm_latched : reloadingArm.cwIsUp = true ∧ reloadingArm.ptm.seqStep ≠ 5 ∧ reloadingArm.bitF PWR_STAT.LATCHED 0 0 = true ∧
    0 ∈ reloadingArm.sve.retract := by
  decide +kernel

/-- The arm goes back to LOADING, and LOADED stays. -/
theorem reloadingArm_staysLoaded : (statusProg.run reloadingArm).bitF SVE_TRK_STAT.LOADED 0 0 = true := by
  decide +kernel

/-- Refutes O2: its clause on STATUS clears LOADED of every arm that PWR_STAT has latched and whose retract waits for it. An arm that unloads only to be loaded
again goes back to LOADING when it lies on its ramp (R209 step 3), and LOADED stays. -/
theorem not_motorFrames : ¬ Obligations.MotorFrames := by
  intro h
  obtain ⟨hstatus, -⟩ := h
  obtain ⟨hup, hseq, hlatched, hretract⟩ := reloadingArm_latched
  obtain ⟨t, ht, -, -, hparked⟩ := hstatus reloadingArm hup hseq
  obtain rfl : statusProg.run reloadingArm = t := Host.Outcome.next.inj ht
  exact absurd (reloadingArm_staysLoaded.symm.trans (hparked 0 (by decide) hlatched hretract)) (by decide)

end Sys2Proof.Machine
end

section
set_option Elab.async false
/-! A rail fault while a writer writes: its rewrite entry's line displaces a dirty one of the buffer cache (R167, R372, R470). -/
namespace Sys2Proof.Machine

/-- A writer's gate is open, the next rewrite entry falls in a set of the buffer cache whose one way for WRC holds a dirty line, and an event of rail 0's source
is not severe. -/
def railDirtySet : State := (setF FCU_SRC_CFG.N 0 5).run dirtySet

theorem railDirtySet_quiet : railDirtySet.quiet 0 := by
  unfold State.quiet
  decide +kernel

/-- The fault closes the gate, and the entry's line takes the way of the dirty line, which enters the eviction buffer. -/
theorem railDirtySet_evicts : railDirtySet.get BMU_EVB_STAT.USED 0 = 0 ∧ ((railFaultProg 0).run railDirtySet).get BMU_EVB_STAT.USED 0 = 1 := by
  decide +kernel

/-- Refutes O3: its clause on a rail fault lists the registers that may change, and none of the buffer cache's. The supply source closes every gate (R166,
R473), and the rewrite entry of the sector under an open gate (R167) is a store to DRAM through the buffer cache. A dirty line that its allocation displaces
enters the eviction buffer (R372), and BMU_EVB_STAT counts it (Table 13.5). -/
theorem not_supplyEvents : ¬ Obligations.SupplyEvents := by
  intro h
  obtain ⟨hfault, -⟩ := h
  obtain ⟨t, ht, hframe, -⟩ := hfault railDirtySet 0 railDirtySet_quiet
  obtain rfl : (railFaultProg 0).run railDirtySet = t := Host.Outcome.next.inj ht
  have hkept : ((railFaultProg 0).run railDirtySet).get BMU_EVB_STAT.USED 0 = railDirtySet.get BMU_EVB_STAT.USED 0 :=
    hframe.fieldsKept (fs := [BMU_EVB_STAT.USED]) (by decide) _ (List.mem_singleton.2 rfl) 0
  obtain ⟨hbefore, hafter⟩ := railDirtySet_evicts
  exact absurd (hafter.symm.trans (hkept.trans hbefore)) (by decide)

end Sys2Proof.Machine
end

section
set_option Elab.async false
/-! Entries into the safe state that abort a calibration run: what the run saved returns to its registers, behind what the entry shows (R504, R559). -/
namespace Sys2Proof.Machine

/-- A run is in progress that has saved PTM_MODE_STAT at 0. No command saves that register: CAL_GO saves those of Table 21.3. -/
def savedModeStat : State := (Prog.upd (.svc fun x => { x with calActive := true, calSaved := [(regKey .PTM_MODE_STAT 0, 0)] })).run .reset

/-- The part is awake, in service, and no power loss is under way. -/
theorem savedModeStat_serves : savedModeStat.ptm.retention = false ∧ savedModeStat.safe = false ∧ savedModeStat.ptm.plStep = 0 := by
  decide +kernel

/-- The entry aborts the run, and the value put back takes SAFE away again. -/
theorem savedModeStat_restored : ((safeEnterProg .keeper).run savedModeStat).get PTM_MODE_STAT.SAFE 0 = 0 := by
  decide +kernel

/-- Refutes O4: its clause on ENTER has SAFE at 1 afterwards, from every state outside RETENTION, the safe state and the power-loss sequence. The entry aborts
a calibration run (R504), which puts back all that the run has saved (R559), and the clause does not say what that is: where it is PTM_MODE_STAT, SAFE is 0
again. CAL_GO begins no such run, so the clause lacks a hypothesis on what is saved. -/
theorem not_voltageAndHeat : ¬ Obligations.VoltageAndHeat := by
  intro h
  obtain ⟨-, -, -, -, -, -, -, -, -, henter, -⟩ := h
  obtain ⟨hawake, hsafe, hloss⟩ := savedModeStat_serves
  obtain ⟨t, ht, -, hentered, -⟩ := henter savedModeStat .keeper hawake hsafe hloss rfl
  obtain rfl : (safeEnterProg .keeper).run savedModeStat = t := Host.Outcome.next.inj ht
  exact absurd (savedModeStat_restored.symm.trans hentered) (by decide)

/-- A run is in progress that has saved FCU_SELF at 0, which no command saves either. -/
def savedSelf : State := (Prog.upd (.svc fun x => { x with calActive := true, calSaved := [(regKey .FCU_SELF 0, 0)] })).run .reset

/-- A fault of FCU's copies brings the safe state, which aborts the run, and the value put back takes SELF_FLT away again. -/
theorem savedSelf_restored : savedSelf.islandOn 2 = true ∧ ((selfFaultProg [] false).run savedSelf).get FCU_SELF.SELF_FLT 0 = 0 := by
  decide +kernel

/-- Refutes O9: its clause without a frame on a disagreement of FCU's copies has SELF_FLT at 1 afterwards, from every state with FCU powered. The safe state
that it brings (R541) aborts a calibration run (R504), which puts back all that the run has saved (R559): where that is FCU_SELF, SELF_FLT is 0 again. CAL_GO
begins no such run, so the clause lacks a hypothesis on what is saved, where the clause with a frame has one by which no run is aborted. -/
theorem not_faultEvents : ¬ Obligations.FaultEvents := by
  intro h
  obtain ⟨-, -, -, -, -, -, -, -, -, -, -, -, hself, -⟩ := h
  obtain ⟨hpowered, hrestored⟩ := savedSelf_restored
  obtain ⟨t, ht, hset, -⟩ := hself savedSelf [] false hpowered
  obtain rfl : (selfFaultProg [] false).run savedSelf = t := Host.Outcome.next.inj ht
  exact absurd (hrestored.symm.trans hset) (by decide)

end Sys2Proof.Machine
end

section
set_option Elab.async false
/-! A chip reset that the Keeper requests while it restarts: the request is its own (R438), and the part does not take it. -/
namespace Sys2Proof.Machine

/-- The part is on, after a cold BOOT, and the Keeper restarts. -/
def restartingKeeper : State := (all [.upd (.ptm fun p => { p with powered := true }), setF PCX_KPR_STAT.RESTART 0 1]).run .reset

/-- No power loss is under way, the part is awake, and no shutdown test is armed. -/
theorem restartingKeeper_asks : restartingKeeper.ptm.powered = true ∧ restartingKeeper.ptm.plStep = 0 ∧ restartingKeeper.ptm.retention = false ∧
    restartingKeeper.get SVC_SVY_STAT.SHUT_ARM 0 = 0 := by
  decide +kernel

/-- The request leaves the BOOT a cold one. -/
theorem restartingKeeper_notReset : ((keeperResetProg true default).run restartingKeeper).get PTM_BOOT_STAT.WARM 0 = 0 := by
  decide +kernel

/-- Refutes O6: its clause on a chip reset by the Keeper that says nothing of the images has WARM at 1 afterwards, also while the Keeper restarts. A Keeper in
its restart executes nothing (R438), and its request is not taken: WARM stays 0 after a cold BOOT. The clause that reaches step 8 has the hypothesis that
RESTART is 0; this one lacks it. -/
theorem not_resetAndBoot : ¬ Obligations.ResetAndBoot := by
  intro h
  obtain ⟨-, -, hreset, -⟩ := h
  obtain ⟨hon, hloss, hawake, hunarmed⟩ := restartingKeeper_asks
  obtain ⟨t, ht, hwarm, -⟩ := hreset restartingKeeper default true hon hloss hawake hunarmed
  obtain rfl : (keeperResetProg true default).run restartingKeeper = t := Host.Outcome.next.inj ht
  exact absurd (restartingKeeper_notReset.symm.trans hwarm) (by decide)

end Sys2Proof.Machine
end

section
set_option Elab.async false
/-! A read of the last word of a reader's window in the tick in which the reader wrote its cursor: the advance is lost (R554). -/
namespace Sys2Proof.Machine

/-- The ring holds records 0 to 9, and in this tick the Keeper has set its cursor to 5. -/
def cursorJustWritten : State := (Prog.seq (setF ALM_NEWEST.N 0 9) (cursorProg .keeper 5)).run .reset

/-- The Keeper is reader 0, and its cursor stands on a record. -/
theorem cursorJustWritten_reads : cursorJustWritten.almReaderOf .keeper = some 0 ∧ (cursorJustWritten.almReader 0).cursor ≠ cursorJustWritten.almNext := by
  decide +kernel

/-- The read leaves the cursor where the write put it. -/
theorem cursorJustWritten_stays : (cursorJustWritten.almReader 0).cursor = 5 ∧
    (((windowAdvanceProg .keeper).run cursorJustWritten).almReader 0).cursor = 5 := by
  decide +kernel

/-- Refutes O10: its clause on a read of the window's last word advances the cursor whenever it stands on a record. In the tick of a write of the cursor the
write wins and the advance is lost (R554). -/
theorem not_almanacCommands : ¬ Obligations.AlmanacCommands := by
  intro h
  obtain ⟨-, -, -, -, -, -, hadvance, -⟩ := h
  obtain ⟨hreader, hrecord⟩ := cursorJustWritten_reads
  obtain ⟨t, ht, -, -, hcursor, -⟩ := hadvance cursorJustWritten .keeper 0 hreader hrecord
  obtain rfl : (windowAdvanceProg .keeper).run cursorJustWritten = t := Host.Outcome.next.inj ht
  obtain ⟨hbefore, hafter⟩ := cursorJustWritten_stays
  rw [hafter, hbefore] at hcursor
  exact absurd hcursor (by decide)

end Sys2Proof.Machine
end

section
set_option Elab.async false
/-! A patrol read of a clean line of DRAM whose check line is not in the check cache: it is read into it (R362, R519). -/
namespace Sys2Proof.Machine

/-- Patrol stands on the first line of installed DRAM, well below its limit, and the check cache is empty. -/
def firstLinePatrol : State := (all [setF PTM_BOOT_STAT.FETCH_EN 0 1, setF SVC_PTL_CFG.DR_EN 0 1, setF BMU_CFG.CHANNELS 0 2, setF BMU_CFG.SIZE 0 32,
  setF SVC_PTL_BASE.LINE 0 0x4000000, setF SVC_PTL_LIMIT.LINE 0 0x4000010]).run .reset

/-- Patrol runs, has lines left, and nothing is poisoned. -/
theorem firstLinePatrol_runs : firstLinePatrol.svcRuns = true ∧ firstLinePatrol.get SVC_PTL_CFG.DR_EN 0 = 1 ∧
    firstLinePatrol.get SVC_PTL_BASE.LINE 0 + firstLinePatrol.svc.drCursor < firstLinePatrol.get SVC_PTL_LIMIT.LINE 0 ∧ firstLinePatrol.bmu.poison = [] := by
  decide +kernel

/-- The read brings the line's check line into the check cache. -/
theorem firstLinePatrol_checkIn : firstLinePatrol.bmu.checks.length = 0 ∧ ((patrolDramProg .clean .clean).run firstLinePatrol).bmu.checks.length = 1 := by
  decide +kernel

/-- Refutes O11: its clause on a patrol read of a clean line of DRAM has nothing change but the patrol's cursor. The line's check bytes are read with it, and a
check line that is not in the check cache enters it (R362): the buffer cache's hidden state changes. -/
theorem not_memoryIntegrity : ¬ Obligations.MemoryIntegrity := by
  intro h
  obtain ⟨-, hclean, -⟩ := h
  obtain ⟨hruns, hon, hleft, hpoison⟩ := firstLinePatrol_runs
  obtain ⟨t, ht, ⟨-, hparts, -⟩, -⟩ := hclean firstLinePatrol hruns hon hleft hpoison
  obtain rfl : (patrolDramProg .clean .clean).run firstLinePatrol = t := Host.Outcome.next.inj ht
  have hbmu : ((patrolDramProg .clean .clean).run firstLinePatrol).bmu = firstLinePatrol.bmu := hparts .bmu (by decide)
  obtain ⟨hbefore, hafter⟩ := firstLinePatrol_checkIn
  rw [hbmu, hbefore] at hafter
  exact absurd hafter (by decide)

end Sys2Proof.Machine
end

section
set_option Elab.async false
/-! A Keeper that fails in its restart, whose source reacts directly with the safe state: the cause recorded is that reaction's (R438, R503, R539). -/
namespace Sys2Proof.Machine

/-- In BOOT the Keeper restarts. The first event of its source is severe, and the direct reaction set for it is the safe state. -/
def directSafeRestart : State := (all [setF PCX_KPR_STAT.RESTART 0 1, setF FCU_SRC_CFG.N 10 1, setF FCU_SRC_CFG.DIRECT 10 5]).run .reset

/-- The Keeper restarts, the part is awake, in service, and no power loss is under way. -/
theorem directSafeRestart_restarts : directSafeRestart.get PCX_KPR_STAT.RESTART 0 = 1 ∧ directSafeRestart.ptm.retention = false ∧
    directSafeRestart.safe = false ∧ directSafeRestart.ptm.plStep = 0 := by
  decide +kernel

/-- The miscompare's event brings the safe state first, with FCU's cause. -/
theorem directSafeRestart_cause : ((keeperRestart 10).run directSafeRestart).get PTM_MODE_STAT.SAFE_CAUSE 0 = 1 := by
  decide +kernel

/-- Refutes O20: its clause on a Keeper that fails in its restart has the safe state's cause at 6. The failure is an event of source 10 (R438), and the clause
does not say that the event is not severe: outside normal service a severe one may react directly with the safe state (R539), cause 1, and while the safe state
holds a further cause is recorded only in the Almanac (R503). -/
theorem not_coreRunning : ¬ Obligations.CoreRunning := by
  intro h
  obtain ⟨-, -, -, -, -, -, -, -, -, -, -, -, hfails, -⟩ := h
  obtain ⟨hrestart, hawake, hsafe, hloss⟩ := directSafeRestart_restarts
  obtain ⟨t, ht, -, hcause, -⟩ := hfails directSafeRestart hrestart hawake hsafe hloss
  obtain rfl : (keeperRestart 10).run directSafeRestart = t := Host.Outcome.next.inj ht
  exact absurd (directSafeRestart_cause.symm.trans hcause) (by decide)

end Sys2Proof.Machine
end

section
set_option Elab.async false
/-! A Keeper write of PTM_MODE_CTL with GO (R496): a request that Table 18.3 lists starts its transition, any other sets ERR. -/
namespace Sys2Proof.Machine

/-- A request whose values lie in its fields. -/
def ModeReq.fits (r : ModeReq) : Prop := r.mode < 8 ∧ r.ilvl < 4

/-- What a write with GO leaves in PTM_MODE_CTL before the request is judged. -/
def requestWrite (r : ModeReq) : Prog :=
  all [setF PTM_MODE_CTL.REQ_MODE 0 r.mode, setF PTM_MODE_CTL.REQ_ILVL 0 r.ilvl, setF PTM_MODE_CTL.RET 0 (b2n r.ret)]

/-- The Keeper's write is the request written, then judged. -/
theorem modeWrite_run (r : ModeReq) (s : State) : (modeWrite .keeper r).run s = (modeRequest r).run ((requestWrite r).run s) := rfl

theorem requestWrite_holds {r : ModeReq} (hr : r.fits) (s : State) : ((requestWrite r).run s).get PTM_MODE_CTL.REQ_MODE 0 = r.mode ∧
    ((requestWrite r).run s).get PTM_MODE_CTL.REQ_ILVL 0 = r.ilvl ∧ ((requestWrite r).run s).get PTM_MODE_CTL.RET 0 = b2n r.ret := by
  obtain ⟨hmode, hilvl⟩ := hr
  have hret : b2n r.ret < 2 := by cases r.ret <;> decide
  simp (disch := decide) only [requestWrite, Prog.run_all_cons, Prog.run_all_nil, setF, Prog.run_upd, State.get_fld_self, State.get_fld_ne]
  exact ⟨Nat.mod_eq_of_lt hmode, Nat.mod_eq_of_lt hilvl, Nat.mod_eq_of_lt hret⟩

theorem requestWrite_changes (r : ModeReq) (s : State) : ChangesOnly [.PTM_MODE_CTL] [] false s ((requestWrite r).run s) := by
  refine Prog.Only.changesOnly ?_ s
  exact ⟨List.mem_singleton_self _, List.mem_singleton_self _, List.mem_singleton_self _, trivial⟩

/-- A transition that starts leaves the mode. -/
theorem transStart_mode (r : ModeReq) (s : State) : ((transStart r).run s).mode = s.mode := by
  have hrun : (transStart r).run s = (transActions r).run ((Upd.ptm fun p => { p with target := some r, seqStep := 0, loads := [] }).apply
    ((setF PTM_MODE_STAT.TRANS 0 1).run s)) := rfl
  rw [hrun, State.mode, (transActions_changes r _).fieldsKept (fs := [PTM_MODE_STAT.MODE]) (by decide) _ (List.mem_singleton_self _) 0, Upd.apply_get _ _ rfl]
  exact State.get_fld_ne _ _ _ _ _ _ (by decide)

/-- A request that is listed: the transition starts toward it, the mode stays, and PTM_MODE_CTL holds the request. -/
theorem modeWrite_accepted {s : State} {r : ModeReq} (hr : r.fits) (h : s.transOk r = true) :
    ChangesOnly [.BMU_EVB_STAT, .BMU_STAT, .PCX_PROT_STAT, .PTM_MODE_CTL, .PTM_MODE_STAT, .RDC_PAL_STAT, .SPL_MEMBERS, .SPL_STAT, .SPN_CTL, .SPN_ORR_STAT,
      .SPN_STAT, .SVE_CTX_CFG, .SVE_CTX_MAN, .SVE_CTX_STAT, .SVE_SEEK_STAT, .WRC_RWL_CTL, .WRC_RWL_PTR, .WRC_WR_STAT, .WRC_WUS_STAT]
      [.bmu, .fcu, .out, .ptm, .rdc, .spl, .spn, .sve, .wrc] true s ((modeWrite .keeper r).run s) ∧
      ((modeWrite .keeper r).run s).get PTM_MODE_STAT.TRANS 0 = 1 ∧ ((modeWrite .keeper r).run s).ptm.target = some r ∧
      ((modeWrite .keeper r).run s).mode = s.mode ∧ ((modeWrite .keeper r).run s).get PTM_MODE_CTL.REQ_MODE 0 = r.mode ∧
      ((modeWrite .keeper r).run s).get PTM_MODE_CTL.REQ_ILVL 0 = r.ilvl ∧ ((modeWrite .keeper r).run s).get PTM_MODE_CTL.RET 0 = b2n r.ret := by
  have hset := requestWrite_changes r s
  have hfields := requestWrite_holds hr s
  have hrun : (modeWrite .keeper r).run s = (transStart r).run ((requestWrite r).run s) := by
    rw [modeWrite_run, modeRequest, Prog.run_ask, State.transOk_kept hset, if_pos h]
  obtain ⟨hchange, htarget, htrans⟩ := modeWrite_starts h
  refine ⟨hchange.mono (by decide) (by decide) id, htrans, htarget, ?_, ?_⟩
  all_goals rw [hrun]; generalize (requestWrite r).run s = u at hset hfields ⊢
  · rw [transStart_mode, State.mode, hset.fieldsKept (fs := [PTM_MODE_STAT.MODE]) (by decide) _ (List.mem_singleton_self _) 0, State.mode]
  · have hkept := (transStart_starts r u).1.fieldsKept (fs := [PTM_MODE_CTL.REQ_MODE, PTM_MODE_CTL.REQ_ILVL, PTM_MODE_CTL.RET]) (by decide)
    rw [hkept PTM_MODE_CTL.REQ_MODE (by decide) 0, hkept PTM_MODE_CTL.REQ_ILVL (by decide) 0, hkept PTM_MODE_CTL.RET (by decide) 0]
    exact hfields

/-- A request that is not listed is discarded: ERR sets, and nothing but PTM_MODE_CTL changes. -/
theorem modeWrite_refused {s : State} {r : ModeReq} (hr : r.fits) (h : s.transOk r = false) :
    Unchanged [(.PTM_MODE_CTL, 0)] [] [] s ((modeWrite .keeper r).run s) ∧ ((modeWrite .keeper r).run s).get PTM_MODE_CTL.ERR 0 = 1 ∧
      ((modeWrite .keeper r).run s).get PTM_MODE_CTL.REQ_MODE 0 = r.mode := by
  have hrun : (modeWrite .keeper r).run s = (setF PTM_MODE_CTL.ERR 0 1).run ((requestWrite r).run s) := by
    rw [modeWrite_run, modeRequest, Prog.run_ask, State.transOk_kept (requestWrite_changes r s), if_neg (by simp only [h, Bool.false_eq_true, not_false_iff])]
  have honly : ((requestWrite r).seq (setF PTM_MODE_CTL.ERR 0 1)).Only (Upd.within [(.PTM_MODE_CTL, 0)] [] []) := by
    have hmem : ((RegName.PTM_MODE_CTL, 0) : RegName × Nat) ∈ [((RegName.PTM_MODE_CTL, 0) : RegName × Nat)] := List.mem_singleton_self _
    exact ⟨⟨hmem, hmem, hmem, trivial⟩, hmem⟩
  rw [hrun]
  exact ⟨honly.unchanged s, State.get_fld_self _ _ _ _ (by decide), (State.get_fld_ne _ _ _ _ _ _ (by decide)).trans (requestWrite_holds hr s).1⟩

/-- Settles O7: each request is a write of its mode, level and RET (R496), accepted or refused. -/
theorem modeRequests : Obligations.ModeRequests := by
  refine ⟨?_, ?_, ?_, ?_, ?_, ?_, ?_, fun s h => ⟨_, rfl, modeWrite_refused ⟨by decide, by decide⟩ h⟩⟩
  all_goals exact fun s h => ⟨_, rfl, modeWrite_accepted ⟨by decide, by decide⟩ h⟩

end Sys2Proof.Machine
end

section
set_option Elab.async false
/-! A pass that starts with a write of a head's configuration still held: the write takes effect with it (R98, R99). -/
namespace Sys2Proof.Machine

/-- In ACTIVE actuator 0 follows a track whose bands are served, and a write of RDC_HEAD_CFG of path 0, which came while the path was active, is held. -/
def heldHeadWrite : State := (all [setF PTM_MODE_STAT.MODE 0 mActive, setF SVE_CMAP_CFG.ENABLE 0 1, setF SVE_CMAP_BASE.ADDR 0 0x110000,
  memSealed 0x110000000 [0x80000000, 0x80000005, 0x80000005, 0x80000005, 0x80000005, 0x80000005, 0x80000005], setR .SVE_SLOT_MAP 0 0xBA98,
  setF SVE_HEAD_STATE.STATE 0 2, setF SVE_TRK_STAT.LOADED 0 1, setF SVE_SEEK_STAT.STATE 0 skTracking, setF RDC_PAL_STAT.UP 0 1, setF RDC_HP_CTL.ZT_LOAD_EN 0 0,
  setF RDC_HP_STAT.PWR 0 pwActive, rdcWrite 0 .RDC_HEAD_CFG 0 1, setF RDC_HP_STAT.PWR 0 pwReady]).run .reset

/-- The one member wanted: slot 0 for track 5, which writes nothing. -/
def heldHeadWants : List Want := [{ slot := 0, track := 5, writer := none, cls := 0, reg := 0 }]

/-- A pass may start with it. -/
theorem heldHeadWrite_starts : heldHeadWrite.mediaMode = true ∧ heldHeadWrite.mayPass 0 false = true ∧ heldHeadWrite.rereadWants 0 = [] ∧
    heldHeadWrite.readsOnly 0 = false ∧ ((grantWriters 0 none false).run heldHeadWrite).select 0 heldHeadWants ≠ [] ∧
    ∀ w ∈ heldHeadWants, (heldHeadWrite.targetBands 0 w.track).all (fun b => heldHeadWrite.recOk b 0 && !heldHeadWrite.unreachBand 0 b) = true ∧
      w.reg.val ≠ 1 := by
  decide +kernel

/-- The held write reaches the register. -/
theorem heldHeadWrite_applied : heldHeadWrite.reg .RDC_HEAD_CFG 0 = 32768 ∧ ((passRequestProg 0 false heldHeadWants none).run heldHeadWrite).reg .RDC_HEAD_CFG 0 = 1 := by
  decide +kernel

/-- Refutes O8: its clause on the start of a pass has RDC_HEAD_CFG unchanged. A write of it while its path is active is held, and takes effect at the start
of the next pass (R98, R99). -/
theorem not_modeChanges : ¬ Obligations.ModeChanges := by
  intro h
  obtain ⟨-, -, -, -, -, -, -, -, -, hstart⟩ := h
  obtain ⟨hmode, hmay, hreread, hreads, hselect, hbands⟩ := heldHeadWrite_starts
  obtain ⟨t, ht, ⟨hregs, -⟩, -⟩ := hstart heldHeadWrite 0 false heldHeadWants none hmode hmay hreread (.inr hreads) hselect hbands
  obtain rfl : (passRequestProg 0 false heldHeadWants none).run heldHeadWrite = t := Host.Outcome.next.inj ht
  obtain ⟨hbefore, hafter⟩ := heldHeadWrite_applied
  exact absurd (hafter.symm.trans ((hregs .RDC_HEAD_CFG 0 (by decide)).trans hbefore)) (by decide)

end Sys2Proof.Machine
end

section
set_option Elab.async false
/-! The Causeway: link-up, heartbeats, RESUME and RELEASE (R474, R477 to R479, Table 17.7). -/
namespace Sys2Proof.Machine

/-- Events of a list of numbers leave in the list's order, and nothing else changes. -/
theorem run_each_event (tag : String) (l : List Nat) (s : State) : (each l fun a => emit (.event tag [a])).run s =
    { s with out := (l.map fun a => Out.event tag [a]).reverse ++ s.out } := by
  induction l generalizing s with
  | nil => rfl
  | cons a l ih =>
    rw [Prog.run_each_cons, ih, List.map_cons, List.reverse_cons, List.append_assoc]
    rfl

/-- What a HELLO writes to PTM_CW_STAT. -/
def helloWrite (v err link : Nat) : Prog := all [setF PTM_CW_STAT.PD_VER 0 v, setF PTM_CW_STAT.VER_ERR 0 err, setF PTM_CW_STAT.LINK 0 link]

theorem helloWrite_holds {v err link : Nat} (hv : v < 256) (herr : err < 2) (hlink : link < 4) (s : State) :
    ((helloWrite v err link).run s).get PTM_CW_STAT.LINK 0 = link ∧ ((helloWrite v err link).run s).get PTM_CW_STAT.VER_ERR 0 = err ∧
      ((helloWrite v err link).run s).get PTM_CW_STAT.PD_VER 0 = v := by
  simp (disch := decide) only [helloWrite, Prog.run_all_cons, Prog.run_all_nil, Prog.run_setF, State.get_fld_self, State.get_fld_ne]
  exact ⟨Nat.mod_eq_of_lt hlink, Nat.mod_eq_of_lt herr, Nat.mod_eq_of_lt hv⟩

theorem helloWrite_unchanged (v err link : Nat) (s : State) : Unchanged [(.PTM_CW_STAT, 0)] [] [] s ((helloWrite v err link).run s) := by
  have hmem : ((RegName.PTM_CW_STAT, 0) : RegName × Nat) ∈ [((RegName.PTM_CW_STAT, 0) : RegName × Nat)] := List.mem_singleton_self _
  exact Prog.Only.unchanged (p := helloWrite v err link) ⟨hmem, hmem, hmem, trivial⟩ s

/-- A HELLO of major 1 on a Causeway that is not up: beside PTM_CW_STAT, the arms that timed out are reported. -/
theorem cwHello_up {s : State} (minor : Nat) (hdown : s.cwIsUp = false) : (cwHelloProg 1 minor).run s = { (helloWrite (16 + minor) 0 cwUp).run s with
    pwr := { s.pwr with timedOut := [] }, out := (s.pwr.timedOut.map fun a => Out.event "retract not latched" [a]).reverse ++ s.out } := by
  have hrun : (cwHelloProg 1 minor).run s = (setPd fun x => { x with timedOut := [] }).run
      ((each s.pwr.timedOut fun a => emit (.event "retract not latched" [a])).run ((helloWrite (16 + minor) 0 cwUp).run s)) := by
    simp only [cwHelloProg, Prog.run_ask, Prog.run_when, hdown, Bool.not_false, if_true]
    rfl
  rw [hrun, run_each_event]
  rfl

/-- A HELLO of another major, outside BOOT, touches PTM_CW_STAT alone. -/
theorem cwHello_refused {s : State} {major : Nat} (minor : Nat) (hdown : s.cwIsUp = false) (hmajor : major ≠ 1) (hboot : s.mode ≠ mBoot) :
    (cwHelloProg major minor).run s = (helloWrite (16 * major + minor) 1 cwHello).run s := by
  have hmode : (s.mode == mBoot) = false := beq_eq_false_iff_ne.2 hboot
  simp only [cwHelloProg, Prog.run_ask, Prog.run_when, hdown, Bool.not_false, if_true, if_neg hmajor, hmode]
  rfl

/-- A heartbeat that is due. -/
theorem heartbeat_beats {s : State} (h : s.beats = true) : heartbeatProg.run s = { s with
    out := .frame "CW" "HB" (cwBytes 2 0 (beNats 8 s.time ++ beNats 2 s.ptm.hbCount)) :: s.out,
    ptm := { s.ptm with hbCount := (s.ptm.hbCount + 1) % 65536, hbNext := s.ptm.ticks + 16 }, pwr := { s.pwr with hbSeen := s.ptm.ticks } } := by
  simp only [heartbeatProg, Prog.run_ask, Prog.run_when, h, if_true]
  rfl

/-- RESUME of a power die in HOLD or AUTONOMOUS. -/
theorem resumeSend_resumes {s : State} (hup : s.cwIsUp = true) (hst : s.pwr.st = pdHold ∨ s.pwr.st = pdAutonomous) : resumeSend.run s = { s with
    out := .frame "CW" "RESUME" (cwBytes 3 0 []) :: s.out,
    pwr := { s.pwr with st := pdCommanded, stages := s.pwr.st == pdHold, braking := false, hbSeen := s.ptm.ticks } } := by
  have hstate : (s.pwr.st == pdHold || s.pwr.st == pdAutonomous) = true := by simpa using hst
  simp only [resumeSend, Prog.run_ask, Prog.run_when, hup, hstate, if_true]
  rfl

/-- RELEASE accepted. -/
theorem release_holds {s : State} (hst : s.pwr.st = pdCommanded) (hlatched : s.get PWR_STAT.LATCHED 0 = 15) (hrest : s.turning = false) :
    releaseProg.run s = { s with pwr := { s.pwr with st := pdHold, stages := false, vcm := [], duty := [], sampled := [] } } := by
  simp only [releaseProg, Prog.run_ask, Prog.run_when, hst, hlatched, hrest, beq_self_eq_true, Bool.and_self, Bool.not_false, if_true]
  rfl

/-! The heartbeat that the power die misses (R22). -/

/-- Every RETRACTED bit, once each is set. -/
theorem allBits_set : ∀ x < 16, setNBit (setNBit (setNBit (setNBit x 0 true % 2 ^ 4) 1 true % 2 ^ 4) 2 true % 2 ^ 4) 3 true % 2 ^ 4 = 15 := by decide

/-- What every retract leaves: the whole of RETRACTED set, and the arms not latched recorded as retracting. -/
def State.allRetracted (s t : State) : Prop := t.get PWR_STAT.RETRACTED 0 = 15 ∧ t.pwr.duty = [] ∧
  t.pwr.retracting = s.pwr.retracting ++ allActs.filter (fun a => !s.pwr.retracting.contains a && !s.bitF PWR_STAT.LATCHED 0 a)

/-- The power die alone, before it settles: AUTONOMOUS, its actuators retracting. -/
theorem pdAlone_retracts (s : State) : let t := (pdRetract allActs).run ((setPd fun x => { x with st := pdAutonomous, duty := [] }).run s)
    s.allRetracted t ∧ t.pwr.st = pdAutonomous ∧ t.turning = s.turning := by
  refine ⟨⟨?_, rfl, rfl⟩, rfl, rfl⟩
  simp (disch := decide) only [pdRetract, allActs, Prog.run_ask, Prog.run_seq, Prog.run_each_cons, Prog.run_each_nil, Prog.run_setBitF, Prog.run_setPd,
    Upd.apply_get _ _ (Upd.onRegs_pwr _), State.get_fld_self]
  exact allBits_set _ (State.get_lt s PWR_STAT.RETRACTED 0)

/-- The end of AUTONOMOUS, or the brake, as the arms and the spindle stand (R481). -/
theorem pdSettle_settles {s t : State} (h : s.allRetracted t) (hst : t.pwr.st = pdAutonomous) : let u := pdSettle.run t
    s.allRetracted u ∧ u.pwr.st = (if u.pwr.retracting.isEmpty && !t.turning then pdHold else pdAutonomous) ∧
      (u.pwr.retracting = [] → t.turning = true → u.pwr.braking = true) := by
  have hauto : (t.pwr.st == pdAutonomous) = true := by rw [hst]; rfl
  simp only [pdSettle, Prog.run_ask, Prog.run_when, hauto, Bool.true_or, Bool.and_true, Prog.run_ite, Prog.run_seq, if_true]
  cases hr : t.pwr.retracting with
  | cons a l => exact ⟨h, by simp [hr, hst], fun he => absurd (hr.symm.trans he) (List.cons_ne_nil a l)⟩
  | nil =>
    obtain ⟨hbits, hduty, hretracting⟩ := h
    cases ht : t.turning with
    | true => exact ⟨⟨hbits, hduty, hretracting⟩, by simp [hst], fun _ _ => rfl⟩
    | false => exact ⟨⟨hbits, rfl, hretracting⟩, by simp [stagesOff, hr], fun _ he => absurd he Bool.false_ne_true⟩

/-! What each of these touches. -/

theorem cwHello_unchanged (minor : Nat) (s : State) : Unchanged [(.PTM_CW_STAT, 0)] [.pwr, .out] [] s ((cwHelloProg 1 minor).run s) := by
  refine Prog.Only.unchanged ?_ s
  simp only [cwHelloProg, Only.ask, Only.when, if_true, Only.cons, Only.nil, Only.seq, Only.each, Only.setF, Only.emit, setPd, Only.upd, Upd.within, and_true]
  exact fun _ _ => ⟨by decide, by decide, by decide, fun _ _ => by decide, by decide⟩

theorem heartbeat_unchanged (s : State) : Unchanged [] [.ptm, .pwr, .out] [] s (heartbeatProg.run s) := by
  refine Prog.Only.unchanged ?_ s
  exact fun s => (Only.when _ _ _).2 fun _ => ⟨(by decide : Part.out ∈ _), (by decide : Part.ptm ∈ _), (by decide : Part.pwr ∈ _), trivial⟩

theorem resumeSend_unchanged (s : State) : Unchanged [] [.pwr, .out] [] s (resumeSend.run s) := by
  refine Prog.Only.unchanged ?_ s
  exact fun s => (Only.when _ _ _).2 fun _ => ⟨(by decide : Part.out ∈ _), (Only.when _ _ _).2 fun _ => (by decide : Part.pwr ∈ _)⟩

theorem release_unchanged (s : State) : Unchanged [] [.pwr] [] s (releaseProg.run s) := by
  refine Prog.Only.unchanged ?_ s
  exact fun s => (Only.when _ _ _).2 fun _ => ⟨(by decide : Part.pwr ∈ _), (by decide : Part.pwr ∈ _)⟩

theorem pdAlone_unchanged (s : State) : Unchanged [(.PWR_STAT, 0)] [.pwr] [] s (pdAlone.run s) := by
  refine Prog.Only.unchanged ?_ s
  have hpwr : Part.pwr ∈ [Part.pwr] := List.mem_singleton_self _
  simp only [pdAlone, pdRetract, pdSettle, stagesOff, setPd, Only.ask, Only.when, Only.ite, Only.cons, Only.nil, Only.seq, Only.each, Only.setBitF, Only.upd,
    Upd.within, hpwr, and_true, true_and, implies_true]
  exact fun _ _ _ _ _ _ => List.mem_singleton_self _

/-- Settles O1: link-up either way, the heartbeat, its loss, RESUME and RELEASE. -/
theorem causewayLink : Obligations.CausewayLink := by
  refine ⟨?hello, ?refused, ?beat, ?lost, ?resume, ?release⟩
  case hello =>
    intro s minor hdown
    obtain ⟨hlink, herr, hver⟩ := helloWrite_holds (v := 16 + minor) (err := 0) (link := cwUp) (by omega) (by decide) (by decide) s
    exact ⟨_, congrArg Host.Outcome.next (cwHello_up minor.val hdown), cwHello_up minor.val hdown ▸ cwHello_unchanged minor.val s, hlink, herr, hver, rfl, rfl⟩
  case refused =>
    intro s major minor hdown hmajor hboot
    exact ⟨_, congrArg Host.Outcome.next (cwHello_refused minor.val hdown hmajor hboot), helloWrite_unchanged _ _ _ s,
      helloWrite_holds (by omega) (by decide) (by decide) s⟩
  case beat =>
    intro s hbeats
    exact ⟨_, congrArg Host.Outcome.next (heartbeat_beats hbeats), heartbeat_beats hbeats ▸ heartbeat_unchanged s, rfl, rfl, rfl⟩
  case lost =>
    intro s hst hlate
    have hrun : heartbeatTimeoutProg.run s = pdSettle.run ((pdRetract allActs).run ((setPd fun x => { x with st := pdAutonomous, duty := [] }).run s)) := by
      simp only [heartbeatTimeoutProg, pdAlone, Prog.run_whenS, Prog.run_ask, Prog.run_when, hlate, hst, beq_self_eq_true, decide_true, if_true]
      rfl
    have hkept : Unchanged [(.PWR_STAT, 0)] [.pwr] [] s (heartbeatTimeoutProg.run s) := by
      rw [heartbeatTimeoutProg, Prog.run_whenS, if_pos (decide_eq_true hlate)]
      exact pdAlone_unchanged s
    obtain ⟨hall, hauto, hturning⟩ := pdAlone_retracts s
    obtain ⟨⟨hbits, hduty, hretracting⟩, hend, hbrake⟩ := pdSettle_settles hall hauto
    rw [hturning] at hend hbrake
    exact ⟨_, congrArg Host.Outcome.next hrun, hrun ▸ hkept, hbits, hduty, hretracting, hend, hbrake⟩
  case resume =>
    intro s m hm hup hst
    subst hm
    exact ⟨_, congrArg Host.Outcome.next (resumeSend_resumes hup hst), resumeSend_resumes hup hst ▸ resumeSend_unchanged s, rfl, rfl⟩
  case release =>
    intro s hst hlatched hrest
    exact ⟨_, congrArg Host.Outcome.next (release_holds hst hlatched hrest), release_holds hst hlatched hrest ▸ release_unchanged s, rfl⟩

end Sys2Proof.Machine
end

section
set_option Elab.async false
/-! Ferry's commands of the Archipelago, of calibration, Survey and the Almanac (Table 16.9): what each does before its answer. -/
namespace Sys2Proof.Machine

/-! An exchange under service stays so while its channel and the Keeper's moves stand. -/

theorem State.inService.of_moves {s t : State} {n : Nat} (h : s.inService n) (hst : t.fySt n = s.fySt n) (hmoves : t.kpr.moves = s.kpr.moves)
    (hptm : t.ptm = s.ptm) : t.inService n := by
  simpa only [State.inService, State.fyStill, State.fyMove, hst, hmoves, hptm] using h

/-- An answer with OK after what the command did: nothing of the channels' registers, and not the Keeper's moves. -/
theorem ferryOk_after {rs : List RegName} {ps : List Part} {s u : State} {n : Nat} {ws : List Nat} (hu : ChangesOnly rs ps false s u)
    (hrs : ∀ r ∈ [RegName.PCX_FRY_STAT, .PCX_FRY_REQ], r ∉ rs) (hptm : Part.ptm ∉ ps) (hmoves : u.kpr.moves = s.kpr.moves) (h : s.inService n)
    (hw : 4 * ws.length < 65536) :
    ChangesOnly (rs ++ ferryRegs) (ps ++ ferryComps) false s ((ferryOk n ws).run u) ∧ Answered n eOk ws s ((ferryOk n ws).run u) := by
  have hget : ∀ f : Fld, f.reg ∉ rs → ∀ i, u.get f i = s.get f i := fun f hf i => by simp only [State.get, hu.1 f.reg i hf]
  have hstat := hrs .PCX_FRY_STAT (by decide)
  refine ⟨(hu.mono (by simp) (by simp) id).trans ((ferryFinish_changes n eOk ws u).mono (by simp) (by simp) id), ?_⟩
  exact (ferryFinish_answers (h.of_moves (hget PCX_FRY_STAT.STATE hstat n) hmoves (hu.2.1 .ptm hptm)) (by decide) hw).after
    (hget PCX_FRY_STAT.LAST_SEQ hstat n) (hget PCX_FRY_REQ.W (hrs .PCX_FRY_REQ (by decide)) _)

/-- An update that leaves the relay agent's configuration. -/
def Upd.keepsRelayCfg : Upd → Prop
  | .kpr f => ∀ k, (f k).relayCfg = k.relayCfg
  | _ => True

theorem ferryOk_relayCfg (n : Nat) (ws : List Nat) (u : State) : ((ferryOk n ws).run u).kpr.relayCfg = u.kpr.relayCfg := by
  refine Prog.Only.rel (ok := Upd.keepsRelayCfg) (fun s t => t.kpr.relayCfg = s.kpr.relayCfg) (fun _ => rfl) (fun _ _ _ h k => k.trans h)
    (fun u s hu => ?_) ?_ u
  · cases u with
    | kpr f => exact hu _
    | _ => rfl
  · have hsignal : (ferrySignal n).Only Upd.keepsRelayCfg := by
      simp only [ferrySignal, Only.ask, Only.ite, Only.when, Only.skip, Only.emit, implies_true, and_true]
      refine fun s => ⟨fun _ _ => ?_, fun _ => ⟨fun _ => trivial, fun _ _ => ?_⟩⟩
      · cases s.actsFor n <;> trivial
      · cases s.kpr.relayNow with
        | none => trivial
        | some e => exact ⟨fun _ => rfl, fun _ => rfl⟩
    simp only [ferryOk, ferryFinish, ferryDone, setFy, setRes, Only.ask, Only.ite, Only.cons, Only.nil, Only.each, Only.seq, Only.setF, Only.upd, hsignal,
      Upd.keepsRelayCfg, KprState.unpost, KprState.moved, implies_true, and_true]

/-- What an answer leaves of a field outside the channels' registers. -/
theorem ferryOk_get (n : Nat) (ws : List Nat) (u : State) (f : Fld) (i : Nat) (hf : f.reg ∉ ferryRegs) : ((ferryOk n ws).run u).get f i = u.get f i := by
  simp only [State.get, ferryOk, (ferryFinish_changes n eOk ws u).1 f.reg i hf]

theorem ferryOk_svc (n : Nat) (ws : List Nat) (u : State) : ((ferryOk n ws).run u).svc = u.svc := (ferryFinish_changes n eOk ws u).2.1 .svc (by decide)

/-! ARCH_STATUS: registers read one after another. -/

/-- A register whose read gives what it holds, and clears its RC fields alone. -/
def RegName.plainRead (r : RegName) : Prop := ∀ i : Nat, (∀ s : State, s.regValue .keeper r i = hideWo r (s.reg r i)) ∧
  ∀ s : State, (regReadFx .keeper r i).run s = (each ((regFields r).filter fun f => f.acc == .rc) fun f => setF f i 0).run s

theorem archRegs_plain : ∀ e ∈ archRegs, e.1.plainRead := by
  intro e he
  have hname : e.1 ∈ [RegName.SPL_STAT, .SPL_SIDE_STAT, .SPL_MER_STAT, .SPL_FW_STAT, .SPL_MEMBERS] :=
    (by decide : ∀ e ∈ archRegs, e.1 ∈ [RegName.SPL_STAT, .SPL_SIDE_STAT, .SPL_MER_STAT, .SPL_FW_STAT, .SPL_MEMBERS]) e he
  simp only [List.mem_cons, List.not_mem_nil, or_false] at hname
  obtain h | h | h | h | h := hname <;> rw [h] <;> exact fun _ => ⟨fun _ => rfl, fun _ => rfl⟩

theorem regReadFx_unchanged {r : RegName} (h : r.plainRead) (hf : ∀ f ∈ regFields r, f.reg = r) (i : Nat) (s : State) :
    Unchanged [(r, i)] [] [] s ((regReadFx .keeper r i).run s) := by
  rw [(h i).2]
  refine Prog.Only.unchanged ?_ s
  simp only [Only.each, Only.setF, Upd.within, List.mem_filter, List.mem_singleton]
  exact fun f hm => by rw [hf f hm.1]

/-- Registers of a plain read whose fields are their own. -/
def RegName.readable (r : RegName) : Prop := r.plainRead ∧ ∀ f ∈ regFields r, f.reg = r

theorem archRegs_readable : ∀ e ∈ archRegs, e.1.readable :=
  fun e he => ⟨archRegs_plain e he, (by decide : ∀ e ∈ archRegs, ∀ f ∈ regFields e.1, f.reg = e.1) e he⟩

/-- Plain reads of distinct registers give each the value it held before the first, and clear RC fields of these registers alone. -/
theorem keeperReads_run (l : List (RegName × Nat)) (hread : ∀ e ∈ l, e.1.readable) (hdistinct : l.Nodup) (k : List Nat → Prog) (s : State) :
    ∃ u, Unchanged l [] [] s u ∧ (keeperReads l k).run s = (k (l.map fun e => s.regValue .keeper e.1 e.2 % 2 ^ 32)).run u := by
  induction l generalizing k s with
  | nil => exact ⟨s, Unchanged.refl s, rfl⟩
  | cons e l ih =>
    obtain ⟨r, i⟩ := e
    obtain ⟨hplain, hown⟩ := hread (r, i) List.mem_cons_self
    obtain ⟨hnot, hdistinct⟩ := List.nodup_cons.1 hdistinct
    have hfx := regReadFx_unchanged hplain hown i s
    obtain ⟨u, hu, hrun⟩ := ih (fun e he => hread e (List.mem_cons_of_mem _ he)) hdistinct (fun vs => k (s.regValue .keeper r i % 2 ^ 32 :: vs))
      ((regReadFx .keeper r i).run s)
    refine ⟨u, (hfx.mono (by simp) (by simp) (by simp)).trans (hu.mono (fun _ h => List.mem_cons_of_mem _ h) (fun _ h => h) fun _ h => h), ?_⟩
    have hrest : l.map (fun e => ((regReadFx .keeper r i).run s).regValue .keeper e.1 e.2 % 2 ^ 32) = l.map fun e => s.regValue .keeper e.1 e.2 % 2 ^ 32 := by
      refine List.map_congr_left fun e he => ?_
      have hvalue := ((hread e (List.mem_cons_of_mem _ he)).1 e.2).1
      have hother : (e.1, e.2) ∉ [(r, i)] := fun h => hnot (List.mem_singleton.1 h ▸ he)
      rw [hvalue, hvalue, hfx.1 e.1 e.2 hother]
    rw [keeperReads, Prog.run_ask, Prog.run_seq, hrun, hrest, List.map_cons]

theorem archStatus_answers {s : State} {n : Nat} (h : s.inService n) :
    ChangesOnly (archRegs.map (·.1) ++ ferryRegs) ferryComps false s ((keeperReads archRegs (ferryOk n)).run s) ∧
      Answered n eOk (archRegs.map fun r => s.regValue .keeper r.1 r.2 % 2 ^ 32) s ((keeperReads archRegs (ferryOk n)).run s) := by
  obtain ⟨u, hu, hrun⟩ := keeperReads_run archRegs archRegs_readable (by decide) (ferryOk n) s
  have hkept : ChangesOnly (archRegs.map (·.1)) [] false s u := hu.changesOnly fun e he => List.mem_map_of_mem he
  rw [hrun]
  exact ferryOk_after hkept (by decide) (by decide) (congrArg KprState.moves (hu.2.1 .kpr (by decide))) h (by rw [List.length_map]; decide)

/-! RELAY_REQ and RELAY_CFG (R461). -/

theorem relaySend_among {R : RegName → Prop} {P : Part → Prop} {M : Prop} (hr : R .SPL_RLY_CTL) (ho : P .out) (hs : P .spl) :
    relaySend.Only (Upd.among R P M) := by
  simp only [relaySend, Only.ask, Only.ite, Only.skip, Only.cons, Only.nil, Only.upd, Only.when, Only.setF, splFlood_among _ _ hs ho]
  exact fun _ => ⟨fun _ => trivial, fun _ => ⟨trivial, hs, fun _ => hr, trivial⟩⟩

/-- The registers of a relayed frame's sending. -/
def relayRegs : List RegName := [.SPL_RLY_CTL, .SPL_RLY_TX]

/-- An update of the pump: of the Keeper it changes the queue alone. -/
def Upd.pumps : Upd → Prop
  | .kpr f => ∀ k, ∃ l, f k = { k with relayTx := l }
  | u => u.among (· ∈ relayRegs) (· ∈ [.out, .spl]) False

theorem Upd.among_of_pumps {u : Upd} (h : u.pumps) : u.among (· ∈ relayRegs) (· ∈ [.kpr, .out, .spl]) (false = true) := by
  cases u with
  | kpr f => exact List.mem_cons_self
  | fld | reg | regsReset => exact h
  | mem | memForget => exact h.elim
  | _ => exact List.mem_cons_of_mem _ h

theorem Upd.pumps_of_among {u : Upd} (h : u.among (· ∈ relayRegs) (· ∈ [.out, .spl]) False) : u.pumps := by
  cases u with
  | kpr f => exact absurd h (show Part.kpr ∉ [Part.out, .spl] by decide)
  | _ => exact h

theorem relayPump_pumps : relayPump.Only Upd.pumps := by
  rw [relayPump, Only.ask]
  intro s
  split
  next d f l _ =>
    have hsend : relaySend.Only Upd.pumps := (relaySend_among (by decide) (by decide) (by decide)).mono fun _ => Upd.pumps_of_among
    have hctl : RegName.SPL_RLY_CTL ∈ relayRegs := by decide
    have htx : RegName.SPL_RLY_TX ∈ relayRegs := by decide
    simp only [Only.when, Only.cons, Only.nil, Only.each, Only.setF, Only.upd, hsend, and_true]
    exact fun _ => ⟨hctl, hctl, fun _ _ => htx, fun k => ⟨l, rfl⟩⟩
  next => trivial

theorem relayPump_changes (s : State) : ChangesOnly relayRegs [.kpr, .out, .spl] false s (relayPump.run s) :=
  (relayPump_pumps.mono fun _ => Upd.among_of_pumps).changesOnly s

theorem relayPump_kpr (s : State) : ∃ l, (relayPump.run s).kpr = { s.kpr with relayTx := l } := by
  refine Prog.Only.rel (fun s t => ∃ l, t.kpr = { s.kpr with relayTx := l }) (fun s => ⟨s.kpr.relayTx, rfl⟩) (fun a b c hab hbc => ?_) (fun u s hu => ?_)
    relayPump_pumps s
  · obtain ⟨l, hb⟩ := hab
    obtain ⟨l', hc⟩ := hbc
    exact ⟨l', by rw [hc, hb]⟩
  · cases u with
    | kpr f => exact hu _
    | _ => exact ⟨s.kpr.relayTx, rfl⟩

/-- While SPL accepts no frame the pump waits. -/
theorem relayPump_waits {s : State} (h : s.on SPL_RLY_CTL.TX_BUSY 0 = true) : relayPump.run s = s := by
  rw [relayPump, Prog.run_ask]
  cases s.kpr.relayTx with
  | nil => rfl
  | cons e l => exact (Prog.run_when _ _ _).trans (by rw [h]; rfl)

/-- The bytes of a request that RELAY_REQ carries. -/
def State.relayMessage (s : State) (n : Nat) : List Nat :=
  (wordsBytes ((List.range 56).map fun i => s.req n (5 + i))).take (min 224 (s.req n 1 % 256 - 4))

/-- RELAY_REQ before the pump: the call recorded, its fragments queued, the channel waiting. -/
def KprState.relayAsked (k : KprState) (n dest time : Nat) (msg : List Nat) : KprState :=
  { k with relaySeq := k.relaySeq + 1, relayOut := k.relayOut ++ [{ peer := dest, xid := k.relaySeq % 256, total := 0, chan := n, time }],
           relayTx := k.relayTx ++ (relayFragments 0 (k.relaySeq % 256) msg).map (fun f => (dest, f)), waiting := k.waiting ++ [(n, wtRelay, k.relaySeq % 256)] }

theorem relayReqCmd_run {s : State} {n : Nat} (hmember : s.splState = mbMember) :
    (relayReqCmd n).run s = relayPump.run ((Upd.kpr fun k => k.relayAsked n (nbits (s.req n 4) 8 0) s.ptm.ticks (s.relayMessage n)).apply s) := by
  rw [relayReqCmd, Prog.run_ask, if_neg (not_not.2 hmember)]
  rfl

/-! CAL_RUN (R557): a run whose condition holds starts, and no sweep ends it. -/

/-- The updates of a run's start, behind one another. -/
def calBegin (s : State) (cls item head : Nat) : Prog := all [
  setF SVC_CAL_CTL.CLASS 0 cls, setF SVC_CAL_CTL.ITEM 0 item, setF SVC_CAL_CTL.HEAD 0 head, setF SVC_CAL_CTL.BUSY 0 1, setF SVC_CAL_STAT.RESULT 0 1,
  setF SVC_CAL_STAT.CAUSE 0 0, setF SVC_CAL_STAT.ITER 0 0, .upd (.svc fun x => { x with
    calActive := true, calClass := cls, calItem := item, calHead := if cls = 1 then head else 0, calInTol := 0, calLast := 0, calStart := s.ptm.ticks
    calSaved := (calTargets cls item head).map fun t => (regKey t.1 t.2, (s.reg t.1 t.2).toNat)
    calTrims := x.trims })]

theorem calBegin_changes (s : State) (cls item head : Nat) : ChangesOnly [.SVC_CAL_CTL, .SVC_CAL_STAT] [.svc] false s ((calBegin s cls item head).run s) := by
  have hctl : RegName.SVC_CAL_CTL ∈ [RegName.SVC_CAL_CTL, .SVC_CAL_STAT] := by decide
  have hstat : RegName.SVC_CAL_STAT ∈ [RegName.SVC_CAL_CTL, .SVC_CAL_STAT] := by decide
  refine Prog.Only.changesOnly (p := calBegin s cls item head) ?_ s
  exact ⟨hctl, hctl, hctl, hctl, hstat, hstat, hstat, List.mem_singleton_self _, trivial⟩

/-- The conditions of Table 21.3 read nothing of SVC. -/
theorem State.calCond_kept {s t : State} (h : ChangesOnly [.SVC_CAL_CTL, .SVC_CAL_STAT] [.svc] false s t) (cls item head : Nat) :
    t.calCond cls item head = s.calCond cls item head := by
  have hget : ∀ f : Fld, f.reg ∉ [RegName.SVC_CAL_CTL, .SVC_CAL_STAT] → ∀ i, t.get f i = s.get f i := fun f hf i => by simp only [State.get, h.1 f.reg i hf]
  have hptm : t.ptm = s.ptm := h.2.1 .ptm (by decide)
  have hwrc : t.wrc = s.wrc := h.2.1 .wrc (by decide)
  simp (disch := decide) only [State.calCond, State.mode, State.loaded, State.hpPwr, State.bitF, hget, hptm, hwrc]

/-- The run that starts is the one asked for. -/
theorem calBegin_runs (s : State) (cls item head : Nat) : ((calBegin s cls item head).run s).svc.calActive = true ∧
    ((calBegin s cls item head).run s).svc.calClass = cls ∧ ((calBegin s cls item head).run s).svc.calItem = item ∧
    ((calBegin s cls item head).run s).svc.calHead = if cls = 1 then head else 0 := ⟨rfl, rfl, rfl, rfl⟩

theorem calSweep_holds {s : State} (h : s.calCond s.svc.calClass s.svc.calItem s.svc.calHead = true) : calSweep.run s = s := by
  rw [calSweep, Prog.run_ask, Prog.run_when, h, Bool.not_true, Bool.and_false]
  rfl

/-- A GO that is taken: the run begins, and a sweep follows. -/
theorem calStart_begins {s : State} {cls item head : Nat} (hidle : s.svc.calActive = false) (hitem : calItemExists cls item = true) (hhead : head < 24) :
    (calStart cls item head).run s = calSweep.run ((calBegin s cls item head).run s) := by
  have hstarts : (!s.svc.calActive && calItemExists cls item && decide (cls = 1 → head < 24)) = true := by simp [hidle, hitem, hhead]
  rw [calStart, Prog.run_ask, hstarts]
  rfl

theorem calStart_run {s : State} {cls item head : Nat} (hidle : s.svc.calActive = false) (hitem : calItemExists cls item = true) (hhead : head < 24)
    (hcond : s.calCond cls item (if cls = 1 then head else 0) = true) : (calStart cls item head).run s = (calBegin s cls item head).run s := by
  obtain ⟨-, hclass, hitem', hhead'⟩ := calBegin_runs s cls item head
  rw [calStart_begins hidle hitem hhead]
  refine calSweep_holds ?_
  rw [hclass, hitem', hhead', State.calCond_kept (calBegin_changes s cls item head), hcond]

theorem calBegin_busy (s : State) (cls item head : Nat) : ((calBegin s cls item head).run s).get SVC_CAL_CTL.BUSY 0 = 1 := by
  simp (disch := decide) only [calBegin, Prog.run_all_cons, Prog.run_all_nil, Prog.run_setF, Prog.run_upd, Upd.apply_get _ _ (Upd.onRegs_svc _),
    State.get_fld_self, State.get_fld_ne]
  rfl

/-! SVY_FULL and ALM_CLEAR (R529, R556, R460). -/

/-- The start of a full test. -/
def fullBegin (s : State) : Prog := all [
  .upd (.svc fun x => { x with full := true, fInst := 0, fRow := 0, abandons := 0, prevState := s.get SVC_SVY_STAT.STATE 0 }), setF SVC_SVY_STAT.STATE 0 2]

theorem fullBegin_changes (s : State) : ChangesOnly [.SVC_SVY_STAT] [.svc] false s ((fullBegin s).run s) :=
  Prog.Only.changesOnly (p := fullBegin s) ⟨List.mem_singleton_self _, List.mem_singleton_self _, trivial⟩ s

theorem almClear_run {s : State} (h : s.get ALM_STAT.CLEARING 0 = 0) : almClear.run s =
    (all [setF ALM_STAT.CLEARING 0 1, .upd (.alm fun a => { a with clearRemoved := s.almCount }), setF ALM_OLDEST.N 0 s.almNext]).run s := by
  rw [almClear, Prog.run_ask, State.on, h]
  rfl

/-- A signed clear that is taken: the nonce is used up, the ring is being cleared, and the channel waits. -/
def clearBegin (s : State) (n : Nat) : Prog := all [.upd (.kpr fun k => { k with nonces := k.nonces.filter fun e => e.1 != n }),
  setF ALM_STAT.CLEARING 0 1, .upd (.alm fun a => { a with clearRemoved := s.almCount }), setF ALM_OLDEST.N 0 s.almNext, ferryWait n wtClear 0]

theorem clearBegin_clears (s : State) (n : Nat) : ChangesOnly [.ALM_OLDEST, .ALM_STAT] [.alm, .kpr] false s ((clearBegin s n).run s) ∧
    ((clearBegin s n).run s).get ALM_STAT.CLEARING 0 = 1 ∧ ((clearBegin s n).run s).get ALM_OLDEST.N 0 = s.almNext := by
  refine ⟨Prog.Only.changesOnly (p := clearBegin s n) ?_ s, ?_, ?_⟩
  · have hkpr : Part.kpr ∈ [Part.alm, .kpr] := by decide
    have hstat : RegName.ALM_STAT ∈ [RegName.ALM_OLDEST, .ALM_STAT] := by decide
    exact ⟨hkpr, hstat, (by decide : Part.alm ∈ [Part.alm, .kpr]), (by decide : RegName.ALM_OLDEST ∈ [RegName.ALM_OLDEST, .ALM_STAT]), hkpr, trivial⟩
  all_goals simp (disch := decide) only [clearBegin, ferryWait, Prog.run_all_cons, Prog.run_all_nil, Prog.run_setF, Prog.run_upd,
    Upd.apply_get _ _ (Upd.onRegs_kpr _), Upd.apply_get _ _ (Upd.onRegs_alm _), State.get_fld_self, State.get_fld_ne]
  · rfl
  · exact Nat.mod_eq_of_lt (Nat.mod_lt _ (by decide))

/-- Settles O16: a request in order reaches its command (`serve_run`); what the command does touches neither its channel's registers nor the Keeper's record
of moves, so that the exchange ends as `ferryOk_after` says, or stays TAKEN and waits. -/
theorem ferryArchipelago : Obligations.FerryArchipelago := by
  refine ⟨?status, ?relay, ?relayCfg, ?calRun, ?calStatus, ?result, ?arm, ?full, ?grant, ?clear, ?summary⟩
  case status =>
    intro s n hs
    obtain ⟨hkept, hanswer⟩ := archStatus_answers hs.inService
    exact completes_serve hs rfl ⟨hkept.mono (by decide) (by decide) id, hanswer⟩
  case relay =>
    intro s n hs hmember
    obtain ⟨htaken, -⟩ := hs.inService
    refine completes_serve hs rfl ?_
    rw [relayReqCmd_run hmember]
    generalize hv : (Upd.kpr fun k => k.relayAsked n (nbits (s.req n 4) 8 0) s.ptm.ticks (s.relayMessage n)).apply s = v
    have hbegun : ChangesOnly [] [.kpr] false s v := hv ▸ (ChangesOnly.refl s).app (List.mem_singleton_self _)
    have hasked : v.kpr = s.kpr.relayAsked n (nbits (s.req n 4) 8 0) s.ptm.ticks (s.relayMessage n) := by rw [← hv]; rfl
    have hpump := relayPump_changes v
    obtain ⟨l, hkpr⟩ := relayPump_kpr v
    have hget : ∀ f : Fld, f.reg ∉ relayRegs → ∀ i, (relayPump.run v).get f i = s.get f i := fun f hf i => by
      simp only [State.get, hpump.1 f.reg i hf, hbegun.1 f.reg i List.not_mem_nil]
    refine ⟨(hbegun.mono (by simp) (by decide) id).trans (hpump.mono (by decide) (by decide) id), ?_, ?_, ?_, ?_, fun hbusy => ?_⟩
    · rw [State.fySt, hget _ (by decide)]
      exact htaken
    · rw [hkpr, hasked]
      rfl
    · rw [hkpr, hasked]
      rfl
    · rw [hkpr, hasked]
      exact List.mem_append_right _ (List.mem_singleton_self _)
    · have hwaits : v.on SPL_RLY_CTL.TX_BUSY 0 = true := by
        rw [State.on, State.get, hbegun.1 _ _ List.not_mem_nil, ← State.get, hbusy]
        rfl
      rw [relayPump_waits hwaits, hasked]
      rfl
  case relayCfg =>
    intro s n hs
    have hset : ChangesOnly [] [.kpr] false s ((Upd.kpr fun k => { k with relayCfg := s.req n 4 }).apply s) :=
      (ChangesOnly.refl s).app (List.mem_singleton_self _)
    obtain ⟨hkept, hanswer⟩ := ferryOk_after (ws := []) hset (by simp) (by decide) rfl hs.inService (by decide)
    exact completes_serve hs rfl ⟨hkept.mono (by decide) (by decide) id, hanswer, ferryOk_relayCfg ..⟩
  case calRun =>
    intro s n c i h hs hc hi hh hitem hhead hcond hclass hidle
    have hrun : (calRunCmd n).run s = (ferryOk n []).run ((calStart c i h).run s) := by
      have hnot : ¬(c = 1 ∧ i ≠ 0 ∧ s.calLastOf (8 + 4 * h) ≠ 2) := fun ⟨h1, h2, h3⟩ => hclass.elim (by omega) (Or.elim · h2 h3)
      rw [calRunCmd, Prog.run_ask]
      dsimp only
      rw [← hc, ← hi, ← hh, if_neg (by simp [hitem, hhead]), if_neg (by simp only [hcond, hnot]; decide), if_neg (by simp [hidle]), Prog.run_seq]
    have hhead' : (if c = 1 then h else 0) = h := by
      split_ifs with h1
      · rfl
      · rw [hh, if_neg h1]
    rw [calStart_run hidle hitem (by omega) (by rwa [hhead'])] at hrun
    have hbegun := calBegin_changes s c i h
    obtain ⟨hactive, hrclass, hritem, hrhead⟩ := calBegin_runs s c i h
    have hbusy := calBegin_busy s c i h
    generalize (calBegin s c i h).run s = u at hrun hbegun hactive hrclass hritem hrhead hbusy
    obtain ⟨hkept, hanswer⟩ := ferryOk_after (n := n) (ws := []) hbegun (by decide) (by decide) (congrArg KprState.moves (hbegun.2.1 .kpr (by decide)))
      hs.inService (by decide)
    refine completes_serve hs rfl ?_
    rw [hrun]
    refine ⟨hkept.mono (by decide) (by decide) id, hanswer, ?_, ?_, ?_, ?_, ?_⟩
    · rw [ferryOk_svc, hactive]
    · rw [ferryOk_svc, hrclass]
    · rw [ferryOk_svc, hritem]
    · rw [ferryOk_svc, hrhead, hhead']
    · rw [ferryOk_get _ _ _ _ _ (by decide), hbusy]
  case calStatus =>
    intro s n c i h hs hc hi hh hitem hhead
    refine completes_serve hs rfl ?_
    rw [calStatusCmd, Prog.run_ask]
    dsimp only
    rw [← hc, ← hi, ← hh, if_neg (by simp [hitem, hhead])]
    refine ⟨(ferryFinish_changes n eOk _ s).mono (by decide) (by decide) id, ferryFinish_answers hs.inService (by decide) ?_⟩
    split_ifs <;> simp
  case result =>
    intro s n k hs hk hle
    have hset : ChangesOnly [] [.svc] false s ((Upd.svc fun x => { x with unread := x.unread.filter (· != k) }).apply s) :=
      (ChangesOnly.refl s).app (List.mem_singleton_self _)
    obtain ⟨hkept, hanswer⟩ := ferryOk_after (ws := (List.range 4).map fun w => s.get SVC_SVY_RES.W (4 * k + w)) hset (by simp) (by decide) rfl
      hs.inService (by simp)
    refine completes_serve hs rfl ?_
    rw [svyResultCmd, Prog.run_ask]
    dsimp only
    rw [← hk, if_neg (by omega), Prog.run_seq, Prog.run_upd]
    exact ⟨hkept.mono (by decide) (by decide) id, hanswer, ferryOk_svc ..⟩
  case arm =>
    intro s n hs hbit
    have hset : ChangesOnly [.SVC_SVY_STAT] [] false s ((setF SVC_SVY_STAT.SHUT_ARM 0 1).run s) :=
      (ChangesOnly.refl s).prog (p := setF SVC_SVY_STAT.SHUT_ARM 0 1) (List.mem_singleton_self _)
    obtain ⟨hkept, hanswer⟩ := ferryOk_after (ws := []) hset (by decide) (by decide) rfl hs.inService (by decide)
    refine completes_serve hs rfl ?_
    rw [svyFullCmd, Prog.run_ask, if_pos hbit, Prog.run_seq]
    exact ⟨hkept.mono (by decide) (by decide) id, hanswer, (ferryOk_get _ _ _ _ _ (by decide)).trans (State.get_fld_self _ _ _ _ (by decide))⟩
  case full =>
    intro s n hs hbit hmode hfull
    have hrun : (svyFullCmd n).run s = (ferryOk n []).run ((fullBegin s).run s) := by
      rw [svyFullCmd, Prog.run_ask, if_neg (by simp [hbit]), if_neg (not_not.2 hmode), Prog.run_seq, svyFullStart, Prog.run_ask, hfull]
      rfl
    have hstate : ((fullBegin s).run s).get SVC_SVY_STAT.STATE 0 = 2 := State.get_fld_self _ _ _ _ (by decide)
    obtain ⟨hkept, hanswer⟩ := ferryOk_after (ws := []) (fullBegin_changes s) (by decide) (by decide) rfl hs.inService (by decide)
    refine completes_serve hs rfl ?_
    rw [hrun, ferryOk_svc, ferryOk_get _ _ _ _ _ (by decide)]
    exact ⟨hkept.mono (by decide) (by decide) id, hanswer, rfl, rfl, rfl, hstate⟩
  case grant =>
    intro s n hs
    have hset : ChangesOnly [.ALM_CFG] [] false s ((setF ALM_CFG.APP_GRANT 0 (s.req n 4 % 2)).run s) :=
      (ChangesOnly.refl s).prog (p := setF ALM_CFG.APP_GRANT 0 (s.req n 4 % 2)) (List.mem_singleton_self _)
    obtain ⟨hkept, hanswer⟩ := ferryOk_after (ws := []) hset (by decide) (by decide) rfl hs.inService (by decide)
    exact completes_serve hs rfl ⟨hkept.mono (by decide) (by decide) id, hanswer,
      ((ferryOk_get _ _ _ _ _ (by decide)).trans (State.get_fld_self _ _ _ _ (by decide))).trans (Nat.mod_mod _ 2)⟩
  case clear =>
    intro s n hs hlive hclear
    obtain ⟨htaken, -⟩ := hs.inService
    have hrun : (signed n true (.seq almClear (ferryWait n wtClear 0))).run s = (clearBegin s n).run s := by
      rw [signed, Prog.run_ask]
      dsimp only
      rw [hlive, Prog.run_seq]
      exact congrArg (ferryWait n wtClear 0).run
        (almClear_run (s := (Upd.kpr fun k => { k with nonces := k.nonces.filter fun e => e.1 != n }).apply s) hclear)
    refine completes_serve hs rfl ?_
    rw [hrun]
    obtain ⟨hkept, hclearing, holdest⟩ := clearBegin_clears s n
    refine ⟨hkept, hclearing, holdest, List.mem_append_right _ (List.mem_singleton_self _), ?_, fun e he => ?_⟩
    · rw [State.fySt, State.get, hkept.1 _ _ (by decide)]
      exact htaken
    · exact ne_of_beq_false (Bool.not_eq_true' _ ▸ (List.mem_filter.1 he).2)
  case summary =>
    intro s n hs
    exact completes_serve hs rfl ⟨(ferryFinish_changes n eOk (s.almSummary (s.req n 4 % 16)) s).mono (by decide) (by decide) id,
      ferryFinish_answers hs.inService (by decide) (by simp [State.almSummary])⟩

end Sys2Proof.Machine
end

section
set_option Elab.async false
/-! A vendor command of NVMe-MI in the tick in which channel 4's exchange ended: its post is discarded (R449). -/
namespace Sys2Proof.Machine

/-- Channel 4's exchange has just ended: it is DONE, by a change in this tick. -/
def channelJustDone : State := (all [setF PCX_FRY_STAT.STATE 4 fyDone, .upd (.kpr fun k => k.moved { chan := 4, tick := 0 })]).run .reset

/-- The part is awake and the channel is DONE. -/
theorem channelJustDone_done : channelJustDone.ptm.retention = false ∧ channelJustDone.fySt 4 = fyDone := by
  decide +kernel

/-- The post leaves it DONE. -/
theorem channelJustDone_stays : ((miVendorProg []).run channelJustDone).fySt 4 = fyDone := by
  decide +kernel

/-- Refutes O17: its clause on a vendor command of NVMe-MI has channel 4 POSTED wherever it was EMPTY or DONE. Each event of a tick is judged by the state at
its start, and after a change the tick's further events on the channel are discarded (R449): a post in the tick of DONE leaves the channel DONE. -/
theorem not_ferryImages : ¬ Obligations.FerryImages := by
  intro h
  obtain ⟨-, -, -, -, -, -, -, -, -, -, -, -, -, hvendor⟩ := h
  obtain ⟨hawake, hdone⟩ := channelJustDone_done
  obtain ⟨t, ht, -, hposted, -⟩ := hvendor channelJustDone [] hawake (.inr hdone)
  obtain rfl : (miVendorProg []).run channelJustDone = t := Host.Outcome.next.inj ht
  exact absurd (channelJustDone_stays.symm.trans hposted) (by decide)

end Sys2Proof.Machine
end

section
set_option Elab.async false
/-! A clean of a dirty line of L2 while DRAM is in self-refresh: the write-back wakes it (R360, R423). -/
namespace Sys2Proof.Machine

/-- DRAM is installed and in self-refresh. L2 holds its first line, dirty, and application core 0 has latched the line's address for maintenance. -/
def asleepClean : State := (all [setF BMU_CFG.CHANNELS 0 2, setF BMU_CFG.SIZE 0 32, setF BMU_STAT.SR 0 1,
  .upd (.pcx fun p => { p with l2 := [{ line := 0x4000000, bytes := List.replicate 64 7#8, dirty := true }] }),
  setCmo (.app 0) fun c => { c with addr := 0x100000000 }]).run .reset

/-- The core's maintenance is idle, and the line that it names is DRAM. -/
theorem asleepClean_idle : (asleepClean.cmo (.app 0)).busy = false ∧ asleepClean.dramOk (asleepClean.cmo (.app 0)).addr (64 * ((0 : BitVec 16).toNat + 1)) = true := by
  decide +kernel

/-- The clean ends self-refresh. -/
theorem asleepClean_wakes : asleepClean.get BMU_STAT.SR 0 = 1 ∧ ((cmoGo (.app 0) 0 0).run asleepClean).get BMU_STAT.SR 0 = 0 := by
  decide +kernel

/-- Refutes O19: its clause on a clean has every register unchanged. The dirty lines go to DRAM, and an access ends self-refresh (R360): SR of BMU_STAT goes
from 1 to 0. -/
theorem not_coreCaches : ¬ Obligations.CoreCaches := by
  intro h
  obtain ⟨hclean, -⟩ := h
  obtain ⟨hidle, hdram⟩ := asleepClean_idle
  obtain ⟨t, ht, hkept, -⟩ := hclean asleepClean (.app 0) 0 rfl hidle hdram
  obtain rfl : (cmoGo (.app 0) 0 0).run asleepClean = t := Host.Outcome.next.inj ht
  obtain ⟨hbefore, hafter⟩ := asleepClean_wakes
  have hsame := hkept.fieldsKept (fs := [BMU_STAT.SR]) (by decide) _ (List.mem_singleton_self _) 0
  exact absurd (hafter.symm.trans (hsame.trans hbefore)) (by decide)

end Sys2Proof.Machine
end

section
set_option Elab.async false
/-! The end of the cache's cleaning with a dirty line left in it: its check bytes enter the check cache (R362, R377). -/
namespace Sys2Proof.Machine

/-- The cache is being disabled, and its one line is dirty. -/
def dirtyDisable : State := (all [setF BMU_CFG.CHANNELS 0 2, setF BMU_CFG.SIZE 0 32, setF BMU_CC_CTL.ENABLE 0 0, setF BMU_CC_CTL.STATE 0 ccCleaning,
  .upd (.bmu fun b => { b with lines := [(0x4000000, { way := 0, dirty := true, old := [] })] })]).run .reset

/-- It is in CLEANING, to stay off, and the eviction buffer is empty. -/
theorem dirtyDisable_cleaning : dirtyDisable.ccState = ccCleaning ∧ dirtyDisable.bmu.evb = [] ∧ dirtyDisable.get BMU_CC_CTL.ENABLE 0 = 0 := by
  decide +kernel

/-- The line's check bytes are in the check cache afterwards. -/
theorem dirtyDisable_checkIn : dirtyDisable.bmu.checks.length = 0 ∧ (cacheDisableDoneProg.run dirtyDisable).bmu.checks.length = 1 := by
  decide +kernel

/-- Refutes O22: its clause on the end of disabling, with ENABLE 0, has BMU's hidden state changed in its lines and cleaning alone. The dirty lines are written
to DRAM, and each one's check bytes enter its check line (R362): the check cache changes. -/
theorem not_cacheWays : ¬ Obligations.CacheWays := by
  intro h
  obtain ⟨-, -, -, -, -, hdone, -⟩ := h
  obtain ⟨hcleaning, hevb, hoff⟩ := dirtyDisable_cleaning
  obtain ⟨t, ht, -, -, -, hbmu⟩ := hdone dirtyDisable hcleaning hevb hoff
  obtain rfl : cacheDisableDoneProg.run dirtyDisable = t := Host.Outcome.next.inj ht
  obtain ⟨hbefore, hafter⟩ := dirtyDisable_checkIn
  rw [hbmu] at hafter
  exact absurd (hbefore.symm.trans hafter) (by decide)

end Sys2Proof.Machine
end

section
set_option Elab.async false
/-! A source burst of a DMA channel whose line waits in the eviction buffer: the line returns to the cache, and the buffer's register shows it (R372, R402). -/
namespace Sys2Proof.Machine

/-- Channel 0 runs a descriptor of 64 bytes from the first line of DRAM. That line waits in the eviction buffer, which shows its one entry, and the channel's
class may allocate. -/
def evictedSource : State := (all [setF BMU_CFG.CHANNELS 0 2, setF BMU_CFG.SIZE 0 32, setF PTM_ISL_PWR.ON 0 0xFFFFFFFF, setF DMF_CH_STAT.STATE 0 2,
  setF DMF_CH_ACT.W 1 1, setF DMF_CH_ACT.W 2 64, setF DMF_CH_ACT.W 3 1, setF DMF_CH_ACT.W 4 64, setF BMU_CLASS_CFG.WAY_MASK (dmaOf 0).cls 1,
  setF BMU_EVB_STAT.USED 0 1, .upd (.bmu fun b => { b with evb := [{ line := 0x4000000, old := [] }] })]).run .reset

/-- The channel runs, with a source burst next. -/
theorem evictedSource_runs : evictedSource.engineRuns (0 : Fin 64) false = true ∧ (evictedSource.chan (0 : Fin 64)).aborting = false ∧
    (evictedSource.chan (0 : Fin 64)).writeback = false ∧ evictedSource.chansAt ((0 : Fin 64) / 32) chReady = [] ∧
    (∀ k < 64, evictedSource.on DMF_CH_STAT.PEND k = false) ∧ evictedSource.dstReady (0 : Fin 64) = false ∧ (evictedSource.desc (0 : Fin 64)).skind = 0 ∧
    evictedSource.atpMode (0 : Fin 64) = 0 := by
  decide +kernel

/-- The burst's bytes are good DRAM, and its counts fit. -/
theorem evictedSource_reads : 0 < evictedSource.srcSize (0 : Fin 64) ∧
    evictedSource.dramOk ((evictedSource.desc (0 : Fin 64)).src + evictedSource.srcDone (0 : Fin 64)) (evictedSource.srcSize (0 : Fin 64)) = true ∧
    evictedSource.poisoned ((evictedSource.desc (0 : Fin 64)).src + evictedSource.srcDone (0 : Fin 64)) (evictedSource.srcSize (0 : Fin 64)) = false ∧
    evictedSource.accessFault (dmaOf (0 : Fin 64)) atRead ((evictedSource.desc (0 : Fin 64)).src + evictedSource.srcDone (0 : Fin 64))
      (evictedSource.srcSize (0 : Fin 64)) = none ∧
    evictedSource.srcDone (0 : Fin 64) + evictedSource.srcSize (0 : Fin 64) < 2 ^ 24 ∧
    evictedSource.srcDone (0 : Fin 64) + evictedSource.srcSize (0 : Fin 64) - evictedSource.dstDone (0 : Fin 64) < 256 := by
  decide +kernel

/-- The eviction buffer shows no entry afterwards. -/
theorem evictedSource_leaves : evictedSource.get BMU_EVB_STAT.USED 0 = 1 ∧ ((burstProg 0 false false).run evictedSource).get BMU_EVB_STAT.USED 0 = 0 := by
  decide +kernel

/-- Refutes O23: its clause on a source burst from DRAM in Bare mode has BMU_EVB_STAT unchanged. A read that finds its line in the eviction buffer returns it
to the cache (R372), and USED goes from 1 to 0. -/
theorem not_dmaControl : ¬ Obligations.DmaControl := by
  intro h
  obtain ⟨-, -, -, -, -, -, -, -, -, -, -, -, -, -, -, -, -, -, -, -, hsource, -⟩ := h
  obtain ⟨hruns, habort, hwriteback, hready, hpend, hdst, hkind, hbare⟩ := evictedSource_runs
  obtain ⟨hsize, hdram, hclean, hfault, hcount, hheld⟩ := evictedSource_reads
  obtain ⟨t, ht, hkept, -⟩ := hsource evictedSource 0 hruns habort hwriteback hready hpend hdst hkind hbare hsize hdram hclean hfault hcount hheld
  obtain rfl : (burstProg 0 false false).run evictedSource = t := Host.Outcome.next.inj ht
  obtain ⟨hbefore, hafter⟩ := evictedSource_leaves
  have hsame := hkept.fieldsKept (fs := [BMU_EVB_STAT.USED]) (by decide) _ (List.mem_singleton_self _) 0
  exact absurd (hafter.symm.trans (hsame.trans hbefore)) (by decide)

end Sys2Proof.Machine
end


section
set_option Elab.async false
/-! Stores that meet a full eviction buffer: the oldest entry is written to DRAM before the dirty victim enters (R372), and the write of a DRAM line leaves the
part. -/
namespace Sys2Proof.Machine

/-- Two channels of DRAM are installed, line `v` is the cache's one line, dirty in way 0, and all 32 entries of the eviction buffer are in use. -/
def fullEviction (v : Nat) : Prog := all [setF BMU_CFG.CHANNELS 0 2, setF BMU_CFG.SIZE 0 32,
  .upd (.bmu fun b => { b with lines := [(v, { way := 0, dirty := true, old := [] })], evb := (List.range 32).map fun i => { line := 0x5000000 + i, old := [] } })]

/-- A unit waits for its place in frame 6, and a dirty line stands in the way that the frame's first line takes. -/
def fullFrameFill : State := (all [setF BMU_SLOT_CFG.ENABLE 0 1, setF BMU_SLOT_CFG.COUNT 0 8192, setF BMU_SLOT_BASE.ADDR 0 0x110000,
  setF BMU_CCC_BASE.ADDR 0 0x1000, .upd (.bmu fun b => { b with fills := [(6, 0, 515, 2)], frames := [(6, { ns := 0, ext := 2 })] }),
  .ask fun s => fullEviction ((s.frameAddr 6 + 4096 * 3) / 64 + 16384)]).run .reset

/-- The fill meets the conditions of its clause. -/
theorem fullFrameFill_fits :
    fullFrameFill.bmu.fills.find? (fun e => e.1 == (6 : Fin 8192).val && e.2.2.1 % 256 == (3 : Fin 256).val) = some ((6 : Fin 8192).val, 0, 515, 2) ∧
    (fullFrameFill.frameOf 0 (515 / 256)).map (·.1) = some (6 : Fin 8192).val ∧
    (fullFrameFill.frameAddr (6 : Fin 8192) + 4096 * (3 : Fin 256) + 4096 ≤ fullFrameFill.slotAddr 2 ∨
      fullFrameFill.slotAddr 2 + 4096 ≤ fullFrameFill.frameAddr (6 : Fin 8192) + 4096 * (3 : Fin 256)) ∧
    fullFrameFill.accessFault .bmu atWrite (fullFrameFill.frameAddr (6 : Fin 8192) + 4096 * (3 : Fin 256)) 4096 = none ∧
    fullFrameFill.region (fullFrameFill.frameAddr (6 : Fin 8192) + 4096 * (3 : Fin 256)) 4096 = some .dram := by
  decide +kernel

/-- A line leaves the part. -/
theorem fullFrameFill_emits : fullFrameFill.out.length = 0 ∧ ((frameFillProg 6 3).run fullFrameFill).out.length = 1 := by decide +kernel

/-- Refutes O24: its clause on the fill of a frame lets registers of BMU, its hidden state and the unit's bytes change alone. The store's first line has a dirty
victim, and with all 32 entries of the eviction buffer in use the oldest is written to DRAM first (R372): that write leaves the part. -/
theorem not_bufferSlots : ¬ Obligations.BufferSlots := by
  intro h
  obtain ⟨-, -, -, -, -, -, -, -, -, -, hfill⟩ := h
  obtain ⟨hwaits, hframe, happart, hfault, hdram⟩ := fullFrameFill_fits
  obtain ⟨t, ht, ⟨-, hparts, -⟩, -⟩ := hfill fullFrameFill 6 3 0 515 2 hwaits hframe happart hfault hdram
  obtain rfl : (frameFillProg 6 3).run fullFrameFill = t := Host.Outcome.next.inj ht
  obtain ⟨hbefore, hafter⟩ := fullFrameFill_emits
  have hsame : ((frameFillProg 6 3).run fullFrameFill).out = fullFrameFill.out := hparts .out (by decide)
  exact absurd (hafter.symm.trans ((congrArg List.length hsame).trans hbefore)) (by decide)

/-- A read of the media waits for hand-off, and a dirty line stands in the way that the ring entry's line takes. -/
def fullHandOff : State := (all [setF CQE_HQ_CTL.ENABLE 0 1, setF CQE_HQ_BASE.ADDR 0 0x100000,
  .upd (.cqe fun x => { x with
    handQ := [3]
    cmds := [{ ctag := 3, port := 0, sqid := 1, cid := 7, kind := 0, ns := some 0, nsid := 1, lba := 5, n := 1, seq := 9, time := 0 }] }),
  fullEviction (0x100000000 / 64 + 16384)]).run .reset

/-- The command that waits. -/
def handOffRead : Cmd := { ctag := 3, port := 0, sqid := 1, cid := 7, kind := 0, ns := some 0, nsid := 1, lba := 5, n := 1, seq := 9, time := 0 }

/-- The hand-off meets the conditions of its clause. -/
theorem fullHandOff_fits : fullHandOff.on CQE_HQ_CTL.ENABLE 0 = true ∧ fullHandOff.hqFull = false ∧
    fullHandOff.cqe.handQ.head?.bind fullHandOff.cmd = some handOffRead ∧
    fullHandOff.accessFault .cqe atWrite (fullHandOff.get CQE_HQ_BASE.ADDR 0 * 4096 + 128 * (fullHandOff.get CQE_HQ_PTR.WR 0 % fullHandOff.hqSize)) 128 = none ∧
    fullHandOff.region (fullHandOff.get CQE_HQ_BASE.ADDR 0 * 4096 + 128 * (fullHandOff.get CQE_HQ_PTR.WR 0 % fullHandOff.hqSize)) 128 = some .dram := by
  decide +kernel

/-- A line leaves the part. -/
theorem fullHandOff_emits : fullHandOff.out.length = 0 ∧ ((handoffProg none).run fullHandOff).out.length = 1 := by decide +kernel

/-- Refutes O25: its clause on the entry written at WR lets no output leave the part. The entry's line has a dirty victim, and with all 32 entries of the
eviction buffer in use the oldest is written to DRAM first (R372): that write leaves the part. -/
theorem not_handOff : ¬ Obligations.HandOff := by
  intro h
  obtain ⟨hentry, -⟩ := h
  obtain ⟨hon, hroom, hhead, hfault, hdram⟩ := fullHandOff_fits
  obtain ⟨t, ht, ⟨-, hparts, -⟩, -⟩ := hentry fullHandOff handOffRead hon hroom hhead hfault hdram
  obtain rfl : (handoffProg none).run fullHandOff = t := Host.Outcome.next.inj ht
  obtain ⟨hbefore, hafter⟩ := fullHandOff_emits
  have hsame : ((handoffProg none).run fullHandOff).out = fullHandOff.out := hparts .out (by decide)
  exact absurd (hafter.symm.trans ((congrArg List.length hsame).trans hbefore)) (by decide)

end Sys2Proof.Machine
end

section
set_option Elab.async false
/-! DISABLE of a port in Recovery: a loss of the port (R317). -/
namespace Sys2Proof.Machine

/-- Port 0 trains again after a RETRAIN: it keeps its width, and its controller is enabled. -/
def retrainingPort : State := (all [setF HIF_PORT_STAT.LINK 0 1, setF HIF_PORT_STAT.WIDTH 0 4, setPort 0 fun p => { p with en := true, rdy := true }]).run .reset

/-- The port is not up. -/
theorem retrainingPort_down : retrainingPort.portUp (0 : Fin 2) = false := by decide +kernel

/-- DISABLE disables its controller. -/
theorem retrainingPort_lost : (Sparse.get {} retrainingPort.hif.ports 0 : Port).en = true ∧
    (Sparse.get {} ((portDisable 0).run retrainingPort).hif.ports 0 : Port).en = false := by
  decide +kernel

/-- Refutes O27: its clause on DISABLE of a port that is not up lets HIF_PORT_STAT and HIF_PORT_CTL change alone. A port in Recovery is not up, and DISABLE makes
it lose its link, a loss of the port with a reset of its controller (R317). -/
theorem not_hostPorts : ¬ Obligations.HostPorts := by
  intro h
  obtain ⟨-, -, -, -, -, -, -, -, -, -, -, -, -, -, -, -, -, -, hdisable, -⟩ := h
  obtain ⟨t, ht, ⟨-, hparts, -⟩, -⟩ := hdisable retrainingPort 0 retrainingPort_down
  obtain rfl : (portDisable 0).run retrainingPort = t := Host.Outcome.next.inj ht
  obtain ⟨hbefore, hafter⟩ := retrainingPort_lost
  have hsame : ((portDisable 0).run retrainingPort).hif = retrainingPort.hif := hparts .hif (by decide)
  rw [hsame] at hafter
  exact absurd (hbefore.symm.trans hafter) (by decide)

end Sys2Proof.Machine
end


section
set_option Elab.async false
/-! What the fetch of a command leaves (R322, R324): the command held under a new tag, and the entry taken. -/
namespace Sys2Proof.Machine

/-- A command is fetched; what it does as it is fetched comes after. -/
def State.afterFetch (c : Cmd) (s : State) : State := (fetchCmd c fun _ => .skip).run s

theorem fetchCmd_run (c : Cmd) (p : Nat → Prog) (s : State) : (fetchCmd c p).run s = (p s.newTag).run (s.afterFetch c) := rfl

theorem cqeShow_cqe (s : State) : (cqeShow.run s).cqe = s.cqe := by
  refine Prog.Only.cqe ?_ s
  simp +decide [cqeShow, Upd.among]

theorem arbTaken_cmds (q i : Nat) (s : State) : ((arbTaken q i).run s).cqe.cmds = s.cqe.cmds := by
  simp only [arbTaken, setPort, Prog.run_ask, Prog.run_seq, Prog.run_upd, Prog.run_when]
  split <;> rfl

theorem State.afterFetch_cmds (c : Cmd) (s : State) :
    (s.afterFetch c).cqe.cmds = s.cqe.cmds ++ [{ c with ctag := s.newTag, seq := s.cqe.nextSeq, time := s.time }] := by
  simp only [State.afterFetch, fetchCmd, Prog.run_fresh, Prog.run_ask, Prog.run_all_cons, Prog.run_all_nil, Prog.run_skip, cqeShow_cqe, Prog.run_when]
  split
  · simp only [Prog.run_seq, setSq, setPort, Prog.run_upd, Upd.apply_cqe, arbTaken_cmds]
    rfl
  · rfl

/-- A held command whose namespace and LBAs are looked at. -/
theorem lbaChecked_run {t : Nat} {k : Cmd → Nat → Prog} {s : State} {c : Cmd} (h : s.cmd t = some c) :
    (lbaChecked t k).run s =
      (let n := c.nsid - 1
        if !s.isSas && decide (512 < c.n) then complete c 0 0x02 false 0
        else if c.nsid = 0 ∨ !s.nsServes n c.port then complete c 0 0x0B false 0
        else if s.nsLbas n < c.lba + c.n then complete c 0 0x80 false 0
        else if s.keyState (s.get CQE_NS_CFG.KSLOT n) ≠ 2 then complete c 2 0x86 false 0
        else .seq (.seq (setCmd t fun c => { c with ns := some n }) cqeShow) (k { c with ns := some n } n)).run s := by
  rw [lbaChecked, Prog.run_ask, h]

end Sys2Proof.Machine
end

section
set_option Elab.async false
/-! A write at the write pointer of a zone that the host opened: the zone stays explicitly open (R311). -/
namespace Sys2Proof.Machine

/-- Controller 0 serves namespace 0, which is zoned with its first zone explicitly open, and an entry waits in its I/O queue. -/
def openedZone : State := (all [setF HIF_PORT_STAT.LINK 0 2, setF PTM_BOOT_STAT.FETCH_EN 0 1, setF PTM_MODE_STAT.MODE 0 1,
  setPort 0 fun p => { p with
    en := true, rdy := true
    sqs := [{ id := 0, size := 8, cq := 0, tail := 0 }, { id := 1, size := 8, cq := 1, tail := 3 }]
    cqs := [{ id := 0, size := 8, ien := false }, { id := 1, size := 8, ien := false }] },
  setF CQE_NS_CFG.STATE 0 1, setF CQE_NS_CFG.ATT 0 3, setF CQE_NS_ROWS.UNITS 0 160, setF MPC_KEY_STAT.STATE 0 2, setF CQE_NS_CFG.ZONED 0 1,
  setZone 0 0 { st := 3 }]).run .reset

/-- A write of eight LBAs at LBA 0 of that namespace. -/
def zoneHeadWrite : Sqe := { (default : Sqe) with nsid := 1, cid := 7, d12 := 7 }

/-- The write may be fetched, and its namespace and range are sound. -/
theorem openedZone_serves : openedZone.nvmeFetch (0 : Fin 2) (1 : Fin 65) = true ∧ openedZone.tagFree = true ∧
    zoneHeadWrite.d12.toNat % 65536 + 1 ≤ 512 ∧ zoneHeadWrite.nsid.toNat = 0 + 1 ∧ openedZone.nsServes 0 (0 : Fin 2) = true ∧
    zoneHeadWrite.d10.toNat + 2 ^ 32 * zoneHeadWrite.d11.toNat + (zoneHeadWrite.d12.toNat % 65536 + 1) ≤ openedZone.nsLbas 0 ∧
    openedZone.keyState (openedZone.get CQE_NS_CFG.KSLOT 0) = 2 ∧ openedZone.on CQE_NS_CFG.ZONED 0 = true := by
  decide +kernel

/-- The zone takes it. -/
theorem openedZone_takes : openedZone.zoneRefuses 0 ((zoneHeadWrite.d10.toNat + 2 ^ 32 * zoneHeadWrite.d11.toNat) / openedZone.zoneLbas 0)
    (some ((zoneHeadWrite.d10.toNat + 2 ^ 32 * zoneHeadWrite.d11.toNat) % openedZone.zoneLbas 0)) (zoneHeadWrite.d12.toNat % 65536 + 1) = none := by
  decide +kernel

/-- The command as the write is fetched. -/
def zoneHeadCmd : Cmd := { sqeCmd 0 1 zoneHeadWrite 0x01 kdWrite with ctag := openedZone.newTag, seq := openedZone.cqe.nextSeq, time := openedZone.time }

/-- It is held under the new tag. -/
theorem zoneHeadCmd_tag : (zoneHeadCmd.ctag == openedZone.newTag) = true := by rw [zoneHeadCmd, beq_iff_eq]

/-- It is the only one held. -/
theorem openedZone_cmds : (openedZone.afterFetch (sqeCmd 0 1 zoneHeadWrite 0x01 kdWrite)).cqe.cmds = [zoneHeadCmd] := by
  rw [State.afterFetch_cmds, show openedZone.cqe.cmds = [] by decide +kernel]
  rfl

theorem openedZone_holds : (openedZone.afterFetch (sqeCmd 0 1 zoneHeadWrite 0x01 kdWrite)).cmd openedZone.newTag = some zoneHeadCmd := by
  rw [State.cmd, openedZone_cmds]
  exact List.find?_cons_of_pos zoneHeadCmd_tag

/-- A change to it. -/
theorem openedZone_sets (f : Cmd → Cmd) : (setCmd openedZone.newTag f).run (openedZone.afterFetch (sqeCmd 0 1 zoneHeadWrite 0x01 kdWrite)) =
    (Upd.cqe fun x => { x with cmds := [f zoneHeadCmd] }).apply (openedZone.afterFetch (sqeCmd 0 1 zoneHeadWrite 0x01 kdWrite)) := by
  have hmap : ([zoneHeadCmd].map fun c => if c.ctag == openedZone.newTag then f c else c) = [f zoneHeadCmd] := by
    rw [List.map_singleton, if_pos zoneHeadCmd_tag]
  rw [setCmd, Prog.run_upd]
  simp only [Upd.apply, openedZone_cmds, hmap]

/-- The zone is explicitly open afterwards too; the clause has it implicitly open. -/
theorem openedZone_stays :
    (((nvmeWriteProg 0 1 zoneHeadWrite).run openedZone).zone 0 ((zoneHeadWrite.d10.toNat + 2 ^ 32 * zoneHeadWrite.d11.toNat) / openedZone.zoneLbas 0)).st = 3 ∧
    (if openedZone.zoneLbas 0 ≤ (zoneHeadWrite.d10.toNat + 2 ^ 32 * zoneHeadWrite.d11.toNat) % openedZone.zoneLbas 0 + (zoneHeadWrite.d12.toNat % 65536 + 1)
      then 14 else 2) = 2 := by
  refine ⟨?_, by decide +kernel⟩
  rw [nvmeWriteProg, Prog.run_whenS, if_pos (by decide +kernel), fetchCmd_run, writeStart, lbaChecked_run openedZone_holds]
  dsimp only
  rw [if_neg (by decide +kernel), if_neg (by decide +kernel), if_neg (by decide +kernel), if_neg (by decide +kernel), Prog.run_seq, Prog.run_seq, openedZone_sets]
  decide +kernel

/-- Refutes O30: its clause on a write at a zone's write pointer has the zone implicitly open, or full, afterwards. A zone that the host opened explicitly stays
so until it is closed, finished or filled (R311). -/
theorem not_ioCommands : ¬ Obligations.IoCommands := by
  intro h
  obtain ⟨-, -, -, -, -, -, -, -, hwrite, -⟩ := h
  obtain ⟨hfetch, htag, hcount, hnsid, hserves, hrange, hkey, hzoned⟩ := openedZone_serves
  obtain ⟨t, ht, -, -, hstate, -⟩ := hwrite openedZone 0 1 zoneHeadWrite 0 (by decide) hfetch htag hcount hnsid hserves hrange hkey hzoned openedZone_takes
  obtain rfl : (nvmeWriteProg 0 1 zoneHeadWrite).run openedZone = t := Host.Outcome.next.inj ht
  obtain ⟨hafter, hclaim⟩ := openedZone_stays
  exact absurd (hafter.symm.trans (hstate.trans hclaim)) (by decide)

end Sys2Proof.Machine
end


section
set_option Elab.async false
/-! The answer to a basic-management request of NVMe-MI (R316). -/
namespace Sys2Proof.Machine

/-- Refutes O28: its clause on the basic-management request names the kind of the frame over two lines of its text, so that the kind holds a line break and four
spaces. The frame that answers the request, at reset as in every other state outside RETENTION, is of the kind "basic management" (R316). -/
theorem not_managementInterface : ¬ Obligations.ManagementInterface := by
  intro h
  obtain ⟨-, hbasic, -⟩ := h
  obtain ⟨t, ht, -, hout⟩ := hbasic .reset rfl
  obtain rfl : (mgmtAnswer "basic management" []).run .reset = t := Host.Outcome.next.inj ht
  obtain ⟨hframe, -⟩ := List.cons.inj hout
  obtain ⟨-, hkind, -⟩ := Out.frame.inj hframe
  exact absurd hkind (by decide)

end Sys2Proof.Machine
end


section
set_option Elab.async false
/-! What CQE's shared operations on held commands do to ports and to the commands held (R313, R327 to R341): CSTS.RDY stays, a submission queue that is not being
deleted stays as it is, and no command comes or changes its place, its kind or what it was asked. -/
namespace Sys2Proof.Machine

/-- A port keeps CSTS.RDY and the submission queues that are not being deleted. -/
def PortKept (p p' : Port) : Prop := p'.rdy = p.rdy ∧ ∀ i e, p.sq i = some e → e.deleting = false → p'.sq i = some e

/-- Every port does. -/
def PortsKept (x y : HifState) : Prop := ∀ q, PortKept (Sparse.get {} x.ports q) (Sparse.get {} y.ports q)

theorem PortsKept.refl (x : HifState) : PortsKept x x := fun _ => ⟨rfl, fun _ _ h _ => h⟩
theorem PortsKept.trans {x y z : HifState} (h : PortsKept x y) (k : PortsKept y z) : PortsKept x z :=
  fun q => ⟨(k q).1.trans (h q).1, fun i e he hd => (k q).2 i e ((h q).2 i e he hd) hd⟩

/-- A command is the same but for its progress. -/
def SameCmd (c d : Cmd) : Prop :=
  d.ctag = c.ctag ∧ d.port = c.port ∧ d.kind = c.kind ∧ d.adm = c.adm ∧ d.silent = c.silent ∧ d.arrived = c.arrived

theorem SameCmd.refl (c : Cmd) : SameCmd c c := ⟨rfl, rfl, rfl, rfl, rfl, rfl⟩
theorem SameCmd.trans {a b c : Cmd} : SameCmd a b → SameCmd b c → SameCmd a c := by
  rintro ⟨h1, h2, h3, h4, h5, h6⟩ ⟨k1, k2, k3, k4, k5, k6⟩
  exact ⟨k1.trans h1, k2.trans h2, k3.trans h3, k4.trans h4, k5.trans h5, k6.trans h6⟩

/-- No command comes. -/
def CmdsKept (l l' : List Cmd) : Prop := ∀ d ∈ l', ∃ c ∈ l, SameCmd c d

theorem CmdsKept.refl (l : List Cmd) : CmdsKept l l := fun d hd => ⟨d, hd, .refl d⟩
theorem CmdsKept.trans {a b c : List Cmd} (h : CmdsKept a b) (k : CmdsKept b c) : CmdsKept a c := fun d hd => by
  obtain ⟨e, he, hed⟩ := k d hd
  obtain ⟨f, hf, hfe⟩ := h e he
  exact ⟨f, hf, hfe.trans hed⟩
theorem CmdsKept.filter (l : List Cmd) (p : Cmd → Bool) : CmdsKept l (l.filter p) := fun d hd => ⟨d, (List.mem_filter.1 hd).1, .refl d⟩

/-- No command comes, and none is fetched. -/
def CqeKept (x y : CqeState) : Prop := CmdsKept x.cmds y.cmds ∧ y.nextSeq = x.nextSeq

theorem CqeKept.refl (x : CqeState) : CqeKept x x := ⟨.refl _, rfl⟩
theorem CqeKept.trans {x y z : CqeState} (h : CqeKept x y) (k : CqeKept y z) : CqeKept x z := ⟨h.1.trans k.1, k.2.trans h.2⟩

/-- An update that keeps ports, and one that keeps commands, so. -/
def Upd.keepsPorts : Upd → Prop
  | .hif f => ∀ x, PortsKept x (f x)
  | _ => True
def Upd.keepsCmds : Upd → Prop
  | .cqe f => ∀ x, CqeKept x (f x)
  | _ => True

theorem Prog.Only.portsKept {p : Prog} (hp : p.Only Upd.keepsPorts) (s : State) : PortsKept s.hif (p.run s).hif := by
  refine Prog.Only.rel (fun s t => PortsKept s.hif t.hif) (fun s => .refl _) (fun _ _ _ => .trans) (fun u s hu => ?_) hp s
  cases u with
  | hif f => exact hu s.hif
  | _ => exact .refl _

theorem Prog.Only.cqeKept {p : Prog} (hp : p.Only Upd.keepsCmds) (s : State) : CqeKept s.cqe (p.run s).cqe := by
  refine Prog.Only.rel (fun s t => CqeKept s.cqe t.cqe) (fun s => .refl _) (fun _ _ _ => .trans) (fun u s hu => ?_) hp s
  cases u with
  | cqe f => exact hu s.cqe
  | _ => exact .refl _

/-- An update within bounds that keeps both. -/
def Upd.onCmds (R : RegName → Prop) (P : Part → Prop) (M : Prop) (u : Upd) : Prop := u.among R P M ∧ u.keepsPorts ∧ u.keepsCmds

section
variable {R R' : RegName → Prop} {P P' : Part → Prop} {M M' : Prop} {p : Prog}

theorem Prog.Only.among_of_cmds (hp : p.Only (Upd.onCmds R P M)) : p.Only (Upd.among R P M) := hp.mono fun _ h => h.1
theorem Prog.Only.ports_of_cmds (hp : p.Only (Upd.onCmds R P M)) : p.Only Upd.keepsPorts := hp.mono fun _ h => h.2.1
theorem Prog.Only.cmds_of_cmds (hp : p.Only (Upd.onCmds R P M)) : p.Only Upd.keepsCmds := hp.mono fun _ h => h.2.2

theorem Upd.among_mono (hr : ∀ r, R r → R' r) (hp : ∀ q, P q → P' q) (hm : M → M') {u : Upd} (h : u.among R P M) : u.among R' P' M' := by
  cases u with
  | fld | reg => exact hr _ h
  | regsReset => exact fun r i hi => hr _ (h r i hi)
  | mem | memForget => exact hm h
  | _ => exact hp _ h

/-- A program that leaves HIF's and CQE's state keeps both. -/
theorem Prog.Only.onCmds (hp : p.Only (Upd.among R (fun q => P q ∧ q ≠ .hif ∧ q ≠ .cqe) M)) : p.Only (Upd.onCmds R P M) := by
  refine hp.mono fun u hu => ⟨Upd.among_mono (fun _ h => h) (fun _ h => h.1) id hu, ?_, ?_⟩
  · cases u with
    | hif f => exact absurd rfl hu.2.1
    | _ => trivial
  · cases u with
    | cqe f => exact absurd rfl hu.2.2
    | _ => trivial

/-- A change of one port. -/
theorem setPort_onCmds (hh : P .hif) (q : Nat) {f : Port → Port} (h : ∀ p, PortKept p (f p)) : (setPort q f).Only (Upd.onCmds R P M) := by
  refine ⟨hh, fun x q' => ?_, trivial⟩
  by_cases hq : q' = q
  · subst hq
    rw [show (Sparse.get {} (Sparse.put {} x.ports q' (f (Sparse.get {} x.ports q'))) q' : Port) = f (Sparse.get {} x.ports q') from Sparse.get_put_self _ _ _ _]
    exact h _
  · rw [show (Sparse.get {} (Sparse.put {} x.ports q (f (Sparse.get {} x.ports q))) q' : Port) = Sparse.get {} x.ports q' from Sparse.get_put_ne _ _ _ _ _ _ hq]
    exact PortsKept.refl x q'

/-- A change of a completion queue. -/
theorem setCq_onCmds (hh : P .hif) (q i : Nat) (f : ComQ → ComQ) : (setCq q i f).Only (Upd.onCmds R P M) :=
  setPort_onCmds hh q fun _ => ⟨rfl, fun _ _ h _ => h⟩

/-- A command's progress. -/
theorem setCmd_onCmds (hc : P .cqe) (t : Nat) {f : Cmd → Cmd} (h : ∀ c, SameCmd c (f c)) : (setCmd t f).Only (Upd.onCmds R P M) := by
  refine ⟨hc, trivial, fun x => ⟨fun d hd => ?_, rfl⟩⟩
  obtain ⟨c, hcm, rfl⟩ := List.mem_map.1 hd
  refine ⟨c, hcm, ?_⟩
  by_cases ht : (c.ctag == t) = true
  · rw [if_pos ht]
    exact h c
  · rw [if_neg ht]
    exact .refl c

theorem cmdHandOff_onCmds (hc : P .cqe) (t reason : Nat) : (cmdHandOff t reason).Only (Upd.onCmds R P M) :=
  ⟨setCmd_onCmds hc t fun _ => ⟨rfl, rfl, rfl, rfl, rfl, rfl⟩, hc, trivial, fun x => ⟨.refl x.cmds, rfl⟩⟩
end

/-- A filter that drops only queues being deleted keeps the others. -/
theorem find_filter_kept (l : List SubQ) (i t : Nat) {e : SubQ} (he : l.find? (fun x => x.id == i) = some e) (hd : e.deleting = false) :
    (l.filter fun x => !(x.deleting && x.deleter == t)).find? (fun x => x.id == i) = some e := by
  obtain ⟨hi, l1, l2, rfl, hfirst⟩ := List.find?_eq_some_iff_append.1 he
  rw [List.filter_append, List.find?_append, List.find?_eq_none.2 fun x hx => by simpa using hfirst x (List.mem_filter.1 hx).1, Option.none_or,
    List.filter_cons_of_pos (by simp [hd])]
  exact List.find?_cons_of_pos (p := fun x : SubQ => x.id == i) hi

/-- Registers and components that the completion of a command writes. -/
def doneRegs : List RegName := [.CQE_STAT, .CQE_OVL_STAT, .BMU_SLOT_STAT]
def doneComps : List Part := [.ptm, .cqe, .hif, .bmu, .out]

section
variable {R : RegName → Prop} {P : Part → Prop} {M : Prop}

theorem cqeShow_among (hr : ∀ r ∈ [RegName.CQE_STAT, .CQE_OVL_STAT], R r) (hp : P .ptm) : cqeShow.Only (Upd.among R P M) := by
  have hstat : R .CQE_STAT := hr _ (by decide)
  have hovl : R .CQE_OVL_STAT := hr _ (by decide)
  simp only [cqeShow, Only.ask, Only.cons, Only.nil, Only.when, Only.upd, Only.setF, Only.each, Only.seq, and_true]
  exact fun _ => ⟨fun _ => hp, hstat, hstat, fun _ _ => ⟨hovl, hovl⟩⟩

theorem slotsSweep_among (hr : R .BMU_SLOT_STAT) (hp : P .bmu) : slotsSweep.Only (Upd.among R P M) := fun _ => ⟨hp, fun _ => hr⟩

theorem cqInterrupt_onCmds (hh : P .hif) (ho : P .out) (q i : Nat) : (cqInterrupt q i).Only (Upd.onCmds R P M) := by
  simp only [cqInterrupt, Only.ask, Only.seq]
  refine fun s => ⟨?_, setCq_onCmds hh q i _⟩
  split
  · simp only [Only.when]
    exact fun _ => ⟨ho, trivial, trivial⟩
  · trivial

theorem cqPost_onCmds (hh : P .hif) (ho : P .out) (q i : Nat) (o : Out) (err : Bool) : (cqPost q i o err).Only (Upd.onCmds R P M) := by
  simp only [cqPost, Only.ask]
  intro s
  split
  · trivial
  · refine ⟨⟨ho, trivial, trivial⟩, setCq_onCmds hh q i _, ?_, trivial⟩
    split
    · simp only [Only.when]
      exact fun _ => cqInterrupt_onCmds hh ho q i
    · exact cqInterrupt_onCmds hh ho q i

theorem cqSend_onCmds (hh : P .hif) (ho : P .out) (q i : Nat) (o : Out) (err : Bool) : (cqSend q i o err).Only (Upd.onCmds R P M) := by
  simp only [cqSend, Only.ask]
  intro s
  split
  · simp only [Only.ite]
    exact ⟨fun _ => setCq_onCmds hh q i _, fun _ => cqPost_onCmds hh ho q i o err⟩
  · trivial

variable (hr : ∀ r ∈ doneRegs, R r) (hp : ∀ q ∈ doneComps, P q)
include hr hp

theorem dropCmd_onCmds (c : Cmd) : (dropCmd c).Only (Upd.onCmds R P M) := by
  have hshow : cqeShow.Only (Upd.onCmds R P M) := (cqeShow_among (fun r h => hr r ((by decide : [RegName.CQE_STAT, .CQE_OVL_STAT] ⊆ doneRegs) h))
    ⟨hp .ptm (by decide), by decide⟩).onCmds
  have hsweep : slotsSweep.Only (Upd.onCmds R P M) := (slotsSweep_among (hr .BMU_SLOT_STAT (by decide)) ⟨hp .bmu (by decide), by decide⟩).onCmds
  simp only [dropCmd, Only.ask, Only.cons, Only.nil, Only.when, Only.upd, and_true]
  exact fun _ => ⟨⟨hp .cqe (by decide), trivial, fun x => ⟨.filter x.cmds _, rfl⟩⟩, ⟨hp .bmu (by decide), trivial, trivial⟩, hsweep,
    fun _ => setPort_onCmds (hp .hif (by decide)) _ fun p => ⟨rfl, fun i e he hd => find_filter_kept p.sqs i c.ctag he hd⟩, hshow⟩

theorem complete_onCmds (c : Cmd) (sct sc : Nat) (dnr : Bool) (dw0 : Nat) : (complete c sct sc dnr dw0).Only (Upd.onCmds R P M) := by
  simp only [complete, Only.ask, Only.seq, Only.ite, Only.skip, implies_true, true_and]
  refine fun s => ⟨dropCmd_onCmds hr hp c, fun _ => ⟨fun _ => ⟨hp .out (by decide), trivial, trivial⟩, fun _ => ?_⟩⟩
  split
  · exact cqSend_onCmds (hp .hif (by decide)) (hp .out (by decide)) _ _ _ _
  · trivial

theorem flushSweep_onCmds : flushSweep.Only (Upd.onCmds R P M) := by
  simp only [flushSweep, Only.ask, Only.each]
  exact fun _ c _ => complete_onCmds hr hp c 0 0 false 0

theorem fuaSweep_onCmds : fuaSweep.Only (Upd.onCmds R P M) := by
  simp only [fuaSweep, Only.ask, Only.each]
  exact fun _ c _ => complete_onCmds hr hp c 0 0 false 0

end

/-- Registers and components that a read which looks again at its LBAs writes, and those of the wake for the medium with them. -/
def lookRegs : List RegName := [.BMU_STAT, .BMU_EVB_STAT, .BMU_CCC_STAT] ++ doneRegs
def resolveRegs : List RegName := .PTM_MODE_STAT :: lookRegs ++ transRegs
def resolveComps : List Part := doneComps ++ transComps

section
variable {R : RegName → Prop} {P : Part → Prop} {M : Prop}

theorem dramTouch_among (m : Master) (a n : Nat) (hstat : R .BMU_STAT) (hevb : R .BMU_EVB_STAT) (hb : P .bmu) (ho : P .out) :
    (dramTouch m a n).Only (Upd.among R P M) := by
  simp only [dramTouch, dramAwake, lineRead, Only.seq, Only.whenS, Only.setF, Only.each, Only.ask]
  refine ⟨fun _ _ => hstat, fun x _ s => ?_⟩
  split
  · exact hb
  · simp only [Only.when]
    exact fun _ => allocLine_among _ _ _ _ _ hevb hb ho
  · trivial

theorem mediaWake_among (hr : ∀ r ∈ RegName.PTM_MODE_STAT :: transRegs, R r) (hp : ∀ q ∈ Part.ptm :: transComps, P q) : mediaWake.Only (Upd.among R P True) := by
  have hmode : R .PTM_MODE_STAT := hr _ (by decide)
  have hptm : P .ptm := hp _ (by decide)
  have hacts : ∀ r, (transActions r).Only (Upd.among R P True) := fun r =>
    ((transActions_transition r).mono fun _ => Upd.among_of_transition).mono fun _ => Upd.among_mono (fun x h => hr x (List.mem_cons_of_mem _ h)) hp fun _ => trivial
  simp only [mediaWake, transStart, Only.ask, Only.when, Only.seq, Only.ite, Only.setF, Only.upd]
  exact fun _ _ => ⟨hmode, fun _ => ⟨⟨hmode, hptm⟩, hacts _⟩, fun _ => hptm⟩

variable (hr : ∀ r ∈ lookRegs, R r) (hp : ∀ q ∈ doneComps, P q)
include hp

theorem readPath_onCmds (t : Nat) (ls : List Nat) : (readPath t ls).Only (Upd.onCmds R P M) := by
  simp only [readPath, Only.ask]
  intro s
  split
  · split
    · simp only [Only.when]
      intro _
      split
      · exact cmdHandOff_onCmds (hp .cqe (by decide)) _ _
      · trivial
    · trivial
  · trivial

include hr

theorem sendLba_onCmds (t i : Nat) (data pi : List Byte) (written : Bool) : (sendLba t i data pi written).Only (Upd.onCmds R P M) := by
  simp only [sendLba, Only.ask]
  intro s
  split
  · trivial
  · split
    · trivial
    · split
      · exact complete_onCmds (fun r h => hr r (List.mem_append_right _ h)) hp _ _ _ _ _
      · exact ⟨⟨hp .out (by decide), trivial, trivial⟩, setCmd_onCmds (hp .cqe (by decide)) _ fun _ => ⟨rfl, rfl, rfl, rfl, rfl, rfl⟩⟩

theorem resolveLba_onCmds (t i : Nat) : (resolveLba t i).Only (Upd.onCmds R P M) := by
  have hb : P .bmu := hp _ (by decide)
  have htouch : ∀ m a n, (dramTouch m a n).Only (Upd.onCmds R P M) := fun m a n =>
    (dramTouch_among m a n (hr .BMU_STAT (by decide)) (hr .BMU_EVB_STAT (by decide)) ⟨hb, by decide⟩ ⟨hp .out (by decide), by decide⟩).onCmds
  have hput : ∀ st sl, (setCmd t fun c => { c with lbas := c.lbas.mapIdx fun k e => if k == i then { e with st, slot := sl } else e }).Only (Upd.onCmds R P M) :=
    fun _ _ => setCmd_onCmds (hp .cqe (by decide)) t fun _ => ⟨rfl, rfl, rfl, rfl, rfl, rfl⟩
  have hsend := sendLba_onCmds (M := M) hr hp t i
  simp only [resolveLba, Only.ask]
  intro s
  split
  · trivial
  · split
    · rw [Only.ite]
      refine ⟨fun _ => trivial, fun _ => ?_⟩
      split
      · trivial
      · exact ⟨hput _ _, htouch _ _ _, hsend _ _ _, trivial⟩
      · simp only [Only.cons, Only.nil, Only.when, Only.incF, setFrame, Only.upd, and_true]
        exact ⟨hput _ _, ⟨hb, trivial, trivial⟩, ⟨hb, trivial, trivial⟩, fun _ _ => ⟨hr .BMU_CCC_STAT (by decide), trivial, trivial⟩, htouch _ _ _, hsend _ _ _⟩
      · exact hput _ _
      · exact hsend _ _ _
      · exact hput _ _
    · trivial

theorem readFinish_onCmds (t : Nat) : (readFinish t).Only (Upd.onCmds R P M) := by
  have hdone := complete_onCmds (M := M) (fun r h => hr r (List.mem_append_right _ h)) hp
  simp only [readFinish, Only.ask]
  intro s
  split
  · trivial
  · simp only [Only.when, Only.ite]
    exact fun _ => ⟨fun _ => cmdHandOff_onCmds (hp .cqe (by decide)) _ _, fun _ => ⟨fun _ => hdone _ _ _ _ _, fun _ => hdone _ _ _ _ _⟩⟩

theorem resolveRead_onCmds (t : Nat) : (resolveRead t).Only (Upd.onCmds R P M) := by
  simp only [resolveRead, Only.ask]
  intro s
  split
  · simp only [Only.cons, Only.nil, Only.each, and_true]
    exact ⟨fun i _ => resolveLba_onCmds hr hp t i, readPath_onCmds hp _ _, readFinish_onCmds hr hp _⟩
  · trivial
end

/-- All reads that wait look again. -/
theorem resolveAll_onCmds {R : RegName → Prop} {P : Part → Prop} (hr : ∀ r ∈ resolveRegs, R r) (hp : ∀ q ∈ resolveComps, P q) :
    resolveAll.Only (Upd.onCmds R P True) := by
  have hwake : mediaWake.Only (Upd.onCmds R P True) := (mediaWake_among (fun r h => hr r ((by decide : RegName.PTM_MODE_STAT :: transRegs ⊆ resolveRegs) h))
    fun q h => ⟨hp q ((by decide : Part.ptm :: transComps ⊆ resolveComps) h), fun e => absurd (e ▸ h) (by decide), fun e => absurd (e ▸ h) (by decide)⟩).onCmds
  simp only [resolveAll, Only.seq, Only.ask, Only.each, Only.when]
  exact ⟨fun _ c _ => resolveRead_onCmds (fun r h => hr r ((by decide : lookRegs ⊆ resolveRegs) h)) (fun q h => hp q (List.mem_append_left _ h)) c.ctag,
    fun _ _ => hwake⟩

end Sys2Proof.Machine
end


section
set_option Elab.async false
/-! Ports and completion queues, said once: what a change of one leaves of it (R312, R313). -/
namespace Sys2Proof.Machine

@[simp] theorem setPort_port_self (q : Nat) (f : Port → Port) (s : State) : ((setPort q f).run s).port q = f (s.port q) := Sparse.get_put_self _ _ _ _

theorem setPort_changes {q : Nat} {f : Port → Port} (s : State) : Unchanged [] [.hif] [] s ((setPort q f).run s) :=
  (Unchanged.refl s).app (List.mem_singleton.2 rfl)

/-- The first entry of a number, where that entry changes under its number. -/
theorem find_map_self {α : Type} (key : α → Nat) (i : Nat) {f : α → α} (hf : ∀ x, key (f x) = key x) (l : List α) :
    (l.map fun x => if key x == i then f x else x).find? (fun x => key x == i) = (l.find? fun x => key x == i).map f := by
  induction l with
  | nil => rfl
  | cons y l ih =>
    rw [List.map_cons, List.find?_cons, List.find?_cons]
    by_cases hy : key y = i
    · simp [hy, hf]
    · rw [if_neg (by simpa using hy), ih, show (key y == i) = false by simpa using hy]

/-- The first entry of another number stays. -/
theorem find_map_other {α : Type} (key : α → Nat) {i j : Nat} (hij : j ≠ i) {f : α → α} (hf : ∀ x, key (f x) = key x) (l : List α) :
    (l.map fun x => if key x == i then f x else x).find? (fun x => key x == j) = l.find? fun x => key x == j := by
  induction l with
  | nil => rfl
  | cons y l ih =>
    rw [List.map_cons, List.find?_cons, List.find?_cons, ih]
    by_cases hy : key y = i
    · rw [if_pos (by simpa using hy), hf, hy, show (i == j) = false by simpa using hij.symm]
    · rw [if_neg (by simpa using hy)]

theorem setSq_sq {q i : Nat} {f : SubQ → SubQ} (hf : ∀ x, (f x).id = x.id) (s : State) : (((setSq q i f).run s).port q).sq i = ((s.port q).sq i).map f := by
  rw [setSq, setPort_port_self]
  exact find_map_self SubQ.id i hf _

theorem setCq_cq {q i : Nat} {f : ComQ → ComQ} (hf : ∀ x, (f x).id = x.id) (s : State) : (((setCq q i f).run s).port q).cq i = ((s.port q).cq i).map f := by
  rw [setCq, setPort_port_self]
  exact find_map_self ComQ.id i hf _

/-! The interrupt of a completion queue, and a completion posted to one. -/

/-- The interrupt changes the count of completions that wait for it. -/
theorem cqInterrupt_cq {q i : Nat} {s : State} {c : ComQ} (h : (s.port q).cq i = some c) :
    (((cqInterrupt q i).run s).port q).cq i = some { c with coalesced := 0 } := by
  simp only [cqInterrupt, Prog.run_ask, Prog.run_seq, h, Prog.run_when]
  rw [setCq_cq (f := fun c => { c with coalesced := 0 }) fun _ => rfl]
  split <;> exact congrArg (Option.map _) h

/-- It sends the message where the queue has interrupts. -/
theorem cqInterrupt_out {q i : Nat} {s : State} {c : ComQ} (h : (s.port q).cq i = some c) :
    ((cqInterrupt q i).run s).out = if c.ien then .frame "HL" "interrupt" [q, c.vector] :: s.out else s.out := by
  simp only [cqInterrupt, Prog.run_ask, Prog.run_seq, h, Prog.run_when]
  split <;> rfl

theorem cqInterrupt_changes (q i : Nat) (s : State) : Unchanged [] [.hif, .out] [] s ((cqInterrupt q i).run s) :=
  ((cqInterrupt_onCmds (R := (· ∈ [])) (P := (· ∈ [Part.hif, .out])) (M := false = true) (by decide) (by decide) q i).among_of_cmds.changesOnly s).unchanged

/-- A queue with a completion posted at tick `now`. -/
def ComQ.posted (c : ComQ) (now : Nat) : ComQ :=
  { c with
    tail := (c.tail + 1) % max 1 c.size, phase := if (c.tail + 1) % max 1 c.size = 0 then !c.phase else c.phase, coalesced := c.coalesced + 1
    heldAt := if c.coalesced = 0 then now else c.heldAt }

/-- A completion posted: the entry goes out, and the queue's interrupt may follow. -/
theorem cqPost_cases {q i : Nat} {s : State} {c : ComQ} (h : (s.port q).cq i = some c) (o : Out) (err : Bool) :
    ∃ t, t.out = o :: s.out ∧ (t.port q).cq i = some (c.posted s.ptm.ticks) ∧ ((cqPost q i o err).run s = t ∨ (cqPost q i o err).run s = (cqInterrupt q i).run t) := by
  refine ⟨(setCq q i fun x => x.posted s.ptm.ticks).run ((emit o).run s), rfl, ?_, ?_⟩
  · rw [setCq_cq (f := fun x => x.posted s.ptm.ticks) fun _ => rfl]
    exact congrArg (Option.map _) h
  · simp only [cqPost, Prog.run_ask, h]
    split
    · simp only [Prog.run_all_cons, Prog.run_all_nil, Prog.run_when]
      split
      · exact .inr rfl
      · exact .inl rfl
    · exact .inr rfl

/-- What it leaves of the queue. -/
theorem cqPost_cq {q i : Nat} {s : State} {c : ComQ} (h : (s.port q).cq i = some c) (o : Out) (err : Bool) :
    ∃ y, (((cqPost q i o err).run s).port q).cq i = some y ∧ y.head = c.head ∧ y.size = c.size ∧ y.held = c.held ∧ y.tail = (c.tail + 1) % max 1 c.size := by
  obtain ⟨t, -, hcq, hrun | hrun⟩ := cqPost_cases h o err <;> rw [hrun]
  · exact ⟨_, hcq, rfl, rfl, rfl, rfl⟩
  · exact ⟨_, cqInterrupt_cq hcq, rfl, rfl, rfl, rfl⟩

/-- The completion has gone out; without interrupts nothing else has. -/
theorem cqPost_out {q i : Nat} {s : State} {c : ComQ} (h : (s.port q).cq i = some c) (o : Out) (err : Bool) :
    o ∈ ((cqPost q i o err).run s).out ∧ (c.ien = false → ((cqPost q i o err).run s).out = o :: s.out) := by
  obtain ⟨t, hout, hcq, hrun | hrun⟩ := cqPost_cases h o err
  · rw [hrun, hout]
    exact ⟨List.mem_cons_self, fun _ => rfl⟩
  · rw [hrun, cqInterrupt_out hcq, hout]
    refine ⟨?_, fun hien => if_neg (by simp [ComQ.posted, hien])⟩
    split
    · exact List.mem_cons_of_mem _ List.mem_cons_self
    · exact List.mem_cons_self

theorem cqPost_changes (q i : Nat) (o : Out) (err : Bool) (s : State) : Unchanged [] [.hif, .out] [] s ((cqPost q i o err).run s) :=
  ((cqPost_onCmds (R := (· ∈ [])) (P := (· ∈ [Part.hif, .out])) (M := false = true) (by decide) (by decide) q i o err).among_of_cmds.changesOnly s).unchanged

end Sys2Proof.Machine
end


section
set_option Elab.async false
/-! Doorbells, enabling, resets and shutdowns of a controller (R312, R313, R322, R341, R342, R498). -/
namespace Sys2Proof.Machine

/-! The doorbells. -/

theorem sqTail_sets {s : State} {q i tail : Nat} {x : SubQ} (hen : (s.port q).en = true) (hsq : (s.port q).sq i = some x) (hroom : tail < x.size) :
    Unchanged [] [.hif] [] s ((sqTailProg q i tail).run s) ∧ (((sqTailProg q i tail).run s).port q).sq i = some { x with tail := tail } ∧
      (((sqTailProg q i tail).run s).port q).cqs = (s.port q).cqs := by
  have hrun : (sqTailProg q i tail).run s = (setSq q i fun x => { x with tail }).run s := by
    rw [sqTailProg, Prog.run_ask, Prog.run_when, hen, hsq, if_pos (by simpa using hroom)]
  rw [hrun]
  refine ⟨setPort_changes s, ?_, ?_⟩
  · rw [setSq_sq (f := fun x => { x with tail }) fun _ => rfl, hsq]
    rfl
  · rw [setSq, setPort_port_self]

/-- A completion doorbell that is taken: the head moves, then completions held go out. -/
theorem cqHead_run {s : State} {q i head : Nat} {x : ComQ} (hen : (s.port q).en = true) (hcq : (s.port q).cq i = some x) (hhead : head < x.size) :
    (cqHeadProg q i head).run s = (cqDrain x.held.length q i).run ((setCq q i fun c => { c with head }).run s) := by
  simp only [cqHeadProg, Prog.run_ask, hcq, Prog.run_when, hen, Bool.true_and, hhead, decide_true, if_true, Prog.run_seq]

/-- The queue's head has moved. -/
theorem cqHead_sets {s : State} {q i : Nat} {x : ComQ} (hcq : (s.port q).cq i = some x) (head : Nat) :
    (((setCq q i fun c => { c with head }).run s).port q).cq i = some { x with head } := by
  rw [setCq_cq (f := fun c => { c with head }) fun _ => rfl, hcq]
  rfl

/-- A completion with an error status. -/
def Out.fails : Out → Bool
  | .completion _ _ _ sct sc _ _ => sct != 0 || sc != 0
  | _ => false

/-- One completion held goes out while there is room. -/
theorem cqDrain_step {s : State} {q i k : Nat} {c : ComQ} {o : Out} {l : List Out} (hcq : (s.port q).cq i = some c) (hheld : c.held = o :: l)
    (hroom : c.used + 1 < c.size) :
    (cqDrain (k + 1) q i).run s = (cqDrain k q i).run ((cqPost q i o (Out.fails o)).run ((setCq q i fun x => { x with held := l }).run s)) := by
  rw [cqDrain, Prog.run_ask, hcq]
  simp only [hheld, Prog.run_when, hroom, decide_true, if_true, Prog.run_seq]
  rfl

/-- None does without room. -/
theorem cqDrain_stops {s : State} {q i k : Nat} {c : ComQ} (hcq : (s.port q).cq i = some c) (hstop : c.held = [] ∨ ¬c.used + 1 < c.size) :
    (cqDrain k q i).run s = s := by
  cases k with
  | zero => rfl
  | succ k =>
    rw [cqDrain, Prog.run_ask, hcq]
    cases hheld : c.held with
    | nil => simp only [hheld, Prog.run_skip]
    | cons o l =>
      have hfull : ¬c.used + 1 < c.size := hstop.resolve_left (by simp [hheld])
      simp only [hheld, Prog.run_when, hfull, decide_false, Bool.false_eq_true, if_false]

theorem cqDrain_held {q i : Nat} {l : List Out} {s : State} {c : ComQ} (hcq : (s.port q).cq i = some c) :
    (((setCq q i fun x => { x with held := l }).run s).port q).cq i = some { c with held := l } := by
  rw [setCq_cq (f := fun x => { x with held := l }) fun _ => rfl, hcq]
  rfl

/-- Completions leave a queue in order, and the queue keeps its head and its size. -/
theorem cqDrain_leaves (q i k : Nat) {s : State} {c : ComQ} (hcq : (s.port q).cq i = some c) :
    Unchanged [] [.hif, .out] [] s ((cqDrain k q i).run s) ∧
      ∃ y, (((cqDrain k q i).run s).port q).cq i = some y ∧ y.head = c.head ∧ y.size = c.size ∧ y.held <:+ c.held := by
  induction k generalizing s c with
  | zero => exact ⟨.refl s, c, hcq, rfl, rfl, List.suffix_refl _⟩
  | succ k ih =>
    by_cases hstop : c.held = [] ∨ ¬c.used + 1 < c.size
    · rw [cqDrain_stops hcq hstop]
      exact ⟨.refl s, c, hcq, rfl, rfl, List.suffix_refl _⟩
    · obtain ⟨hsome, hroom⟩ := not_or.1 hstop
      obtain ⟨o, l, hheld⟩ := List.exists_cons_of_ne_nil hsome
      obtain ⟨y, hy, hhead, hsize, hrest, -⟩ := cqPost_cq (cqDrain_held (l := l) hcq) o (Out.fails o)
      obtain ⟨hkept, z, hz, hzhead, hzsize, hzheld⟩ := ih hy
      rw [cqDrain_step hcq hheld (not_not.1 hroom)]
      refine ⟨((setPort_changes s).mono (by simp) (by simp) (by simp)).trans ((cqPost_changes q i o _ _).trans hkept), z, hz, hzhead.trans hhead,
        hzsize.trans hsize, ?_⟩
      rw [hheld]
      exact (hrest ▸ hzheld).trans (List.suffix_cons o l)

/-- The one completion held goes out. -/
theorem cqDrain_one {q i : Nat} {s : State} {c : ComQ} {o : Out} (hcq : (s.port q).cq i = some c) (hheld : c.held = [o]) (hroom : c.used + 1 < c.size)
    (hien : c.ien = false) :
    ((cqDrain 1 q i).run s).out = o :: s.out ∧
      ∃ y, (((cqDrain 1 q i).run s).port q).cq i = some y ∧ y.held = [] ∧ y.tail = (c.tail + 1) % c.size ∧ y.head = c.head := by
  have hset := cqDrain_held (l := []) hcq
  obtain ⟨y, hy, hhead, -, hrest, htail⟩ := cqPost_cq hset o (Out.fails o)
  rw [cqDrain_step hcq hheld hroom]
  exact ⟨(cqPost_out hset o _).2 hien, y, hy, hrest, htail.trans (congrArg _ (Nat.max_eq_right (show 1 ≤ c.size by omega))), hhead⟩

/-! Enabling. -/

/-- A controller is enabled: its admin queues are made, and RDY follows. -/
def enabledPort (asqs acqs : Nat) (wrr : Bool) (p : Port) : Port := { p with
  en := true, shn := none, shst := 0, abrupt := false, wrr, arbLast := [0, 0, 0, 0], arbQ := 0, burst := 0, credit := [0, 0, 0]
  sqs := [{ id := 0, size := asqs + 1, cq := 0 }], cqs := [{ id := 0, size := acqs + 1 }] }

theorem enable_run {s : State} {q : Nat} (hsas : s.isSas = false) (hport : s.portExists q = true) (hup : s.portUp q = true) (hen : (s.port q).en = false)
    (asqs acqs : Nat) (wrr : Bool) : (enableProg q asqs acqs wrr).run s = (rdyFollows q).run ((setPort q (enabledPort asqs acqs wrr)).run s) := by
  rw [enableProg, Prog.run_ask, Prog.run_when, hsas, hport, hup, hen]
  rfl

/-- RDY follows where it may. -/
theorem rdyFollows_on {s : State} {q : Nat} (hen : (s.port q).en = true) (hreset : (s.port q).resetting = false) (hfetch : s.on PTM_BOOT_STAT.FETCH_EN 0 = true) :
    (rdyFollows q).run s = (setF HIF_PORT_STAT.CTRL_RDY q 1).run ((setPort q fun p => { p with rdy := true, shst := 0 }).run s) := by
  rw [rdyFollows, Prog.run_ask, Prog.run_when, hen, hreset, hfetch]
  rfl

/-- It does not where the controller is disabled or resetting, or BOOT has not reached step 9. -/
theorem rdyFollows_off {s : State} {q : Nat} (h : ((s.port q).en && !(s.port q).resetting && s.on PTM_BOOT_STAT.FETCH_EN 0) = false) : (rdyFollows q).run s = s := by
  rw [rdyFollows, Prog.run_ask, Prog.run_when, h]
  rfl

theorem rdyFollows_changes (q : Nat) (s : State) : Unchanged [(.HIF_PORT_STAT, q)] [.hif] [] s ((rdyFollows q).run s) := by
  refine Prog.Only.unchanged ?_ s
  simp [rdyFollows, setPort, Upd.within, HIF_PORT_STAT.CTRL_RDY]

/-- A port as RDY follows, or as it was. -/
theorem rdyFollows_port (q : Nat) (s : State) :
    ((rdyFollows q).run s).port q = s.port q ∨ ((rdyFollows q).run s).port q = { s.port q with rdy := true, shst := 0 } := by
  by_cases h : ((s.port q).en && !(s.port q).resetting && s.on PTM_BOOT_STAT.FETCH_EN 0) = true
  · refine .inr ?_
    rw [rdyFollows, Prog.run_ask, Prog.run_when, if_pos h, Prog.run_seq]
    exact setPort_port_self q (fun p => { p with rdy := true, shst := 0 }) s
  · exact .inl (by rw [rdyFollows_off (by simpa using h)])

/-- RDY reads 1 and the controller is ready. -/
theorem rdyFollows_shows {s : State} {q : Nat} (hen : (s.port q).en = true) (hreset : (s.port q).resetting = false) (hfetch : s.on PTM_BOOT_STAT.FETCH_EN 0 = true) :
    (((rdyFollows q).run s).port q).rdy = true ∧ ((rdyFollows q).run s).get HIF_PORT_STAT.CTRL_RDY q = 1 := by
  rw [rdyFollows_on hen hreset hfetch]
  refine ⟨?_, State.get_fld_self _ _ _ _ (by decide)⟩
  exact congrArg Port.rdy (setPort_port_self q (fun p => { p with rdy := true, shst := 0 }) s)

/-! Resets. -/

/-- The commands held, and those waiting for the ring, without a tag. -/
def CqeState.without (x : CqeState) (t : Nat) : CqeState := { x with cmds := x.cmds.filter fun d => d.ctag != t, handQ := x.handQ.filter (· != t) }

theorem dropCmd_cqe (c : Cmd) (s : State) : ((dropCmd c).run s).cqe = s.cqe.without c.ctag := by
  have hsweep : ∀ t : State, (slotsSweep.run t).cqe = t.cqe := fun t => (slotsSweep_among trivial (by decide)).cqe t
  simp only [dropCmd, Prog.run_ask, Prog.run_all_cons, Prog.run_all_nil, cqeShow_cqe, Prog.run_when, setPort]
  split <;> simp only [Prog.run_upd, Upd.apply_cqe, hsweep] <;> rfl

/-- What is held after several have been dropped. -/
theorem each_dropCmd_mem {l : List Cmd} {s : State} {d : Cmd} (h : d ∈ ((each l dropCmd).run s).cqe.cmds) : d ∈ s.cqe.cmds ∧ ∀ c ∈ l, d.ctag ≠ c.ctag := by
  induction l generalizing s with
  | nil => exact ⟨h, fun _ hc => absurd hc List.not_mem_nil⟩
  | cons c l ih =>
    obtain ⟨hmem, hne⟩ := ih h
    rw [dropCmd_cqe] at hmem
    obtain ⟨hs, hc⟩ := List.mem_filter.1 hmem
    exact ⟨hs, List.forall_mem_cons.2 ⟨by simpa using hc, hne⟩⟩

/-- The commands of a reset's scope: those dropped, and those kept without a report. -/
def resetDrops (sel : Cmd → Bool) : Prog := .ask fun s => each (s.cqe.cmds.filter fun c => sel c && !(c.writes && c.arrived)) dropCmd
def resetKeeps (s : State) (sel : Cmd → Bool) : Prog := .upd (.cqe fun x => { x with
  handQ := x.handQ.filter fun t => !(s.cqe.cmds.any fun c => c.ctag == t && sel c)
  cmds := x.cmds.map fun c => if sel c then { c with silent := true, want := none, handed := false } else c })
/-- What follows. -/
def resetFollows : Prog := all [fuaSweep, flushSweep, resolveAll]

theorem resetCmds_run (sel : Cmd → Bool) (s : State) : (resetCmds sel).run s = resetFollows.run ((resetKeeps s sel).run ((resetDrops sel).run s)) := by
  simp only [resetCmds, resetDrops, resetKeeps, resetFollows, Prog.run_ask, Prog.run_all_cons, Prog.run_all_nil]

theorem resetFollows_onCmds {R : RegName → Prop} {P : Part → Prop} (hr : ∀ r ∈ resolveRegs, R r) (hp : ∀ q ∈ resolveComps, P q) :
    resetFollows.Only (Upd.onCmds R P True) := by
  have hdr : ∀ r ∈ doneRegs, R r := fun r h => hr r ((by decide : doneRegs ⊆ resolveRegs) h)
  have hdp : ∀ q ∈ doneComps, P q := fun q h => hp q (List.mem_append_left _ h)
  exact ⟨fuaSweep_onCmds hdr hdp, flushSweep_onCmds hdr hdp, resolveAll_onCmds hr hp, trivial⟩

theorem resetDrops_onCmds {R : RegName → Prop} {P : Part → Prop} {M : Prop} (hr : ∀ r ∈ doneRegs, R r) (hp : ∀ q ∈ doneComps, P q) (sel : Cmd → Bool) :
    (resetDrops sel).Only (Upd.onCmds R P M) := by
  simp only [resetDrops, Only.ask, Only.each]
  exact fun _ c _ => dropCmd_onCmds hr hp c

/-- A reset's scope within bounds. -/
theorem resetCmds_among {R : RegName → Prop} {P : Part → Prop} (hr : ∀ r ∈ resolveRegs, R r) (hp : ∀ q ∈ resolveComps, P q) (sel : Cmd → Bool) :
    (resetCmds sel).Only (Upd.among R P True) := by
  have hdr : ∀ r ∈ doneRegs, R r := fun r h => hr r ((by decide : doneRegs ⊆ resolveRegs) h)
  have hdp : ∀ q ∈ doneComps, P q := fun q h => hp q (List.mem_append_left _ h)
  exact fun s => ⟨(resetDrops_onCmds hdr hdp sel).among_of_cmds s, hdp .cqe (by decide), (resetFollows_onCmds hr hp).among_of_cmds⟩

/-- CSTS.RDY stays until the reset is complete. -/
theorem resetCmds_rdy (sel : Cmd → Bool) (q : Nat) (s : State) : (((resetCmds sel).run s).port q).rdy = (s.port q).rdy := by
  have hdrops := ((resetDrops_onCmds (R := fun _ => True) (P := fun _ => True) (M := True) (by simp) (by simp) sel).ports_of_cmds.portsKept s q).1
  have hfollows := ((resetFollows_onCmds (R := fun _ => True) (P := fun _ => True) (by simp) (by simp)).ports_of_cmds.portsKept
    ((resetKeeps s sel).run ((resetDrops sel).run s)) q).1
  rw [resetCmds_run]
  exact hfollows.trans hdrops

/-- What stays of the scope are writes whose data arrived, not reported. -/
theorem resetCmds_scope (q : Nat) {s : State} {d : Cmd} (hd : d ∈ ((resetCmds fun c => c.port == q).run s).cqe.cmds) (hq : d.port = q) :
    d.silent = true ∧ d.writes = true ∧ d.arrived = true := by
  rw [resetCmds_run] at hd
  obtain ⟨e, he, -, hport, hkind, -, hsilent, harrived⟩ := ((resetFollows_onCmds (R := fun _ => True) (P := fun _ => True) (by simp) (by simp)).cmds_of_cmds.cqeKept _).1 d hd
  obtain ⟨c, hc, rfl⟩ := List.mem_map.1 he
  obtain ⟨hmem, hne⟩ := each_dropCmd_mem hc
  have hwrites : ∀ e : Cmd, d.kind = e.kind → d.writes = e.writes := fun e h => by simp only [Cmd.writes, h]
  by_cases hsel : (c.port == q) = true
  · rw [if_pos hsel] at hsilent harrived hkind
    have hkept : (c.writes && c.arrived) = true := by
      by_contra hno
      exact hne c (List.mem_filter.2 ⟨hmem, by simp [hsel, hno]⟩) rfl
    obtain ⟨hw, ha⟩ := Bool.and_eq_true_iff.1 hkept
    exact ⟨hsilent, (hwrites c hkind).trans hw, harrived.trans ha⟩
  · rw [if_neg hsel] at hport
    exact absurd (beq_iff_eq.2 (hport.symm.trans hq)) hsel

/-- A port after a reset. -/
def resetPort (p : Port) : Port := { p with en := false, resetting := p.rdy, sqs := [], cqs := [], aers := [], shn := none, features := [] }

theorem controllerReset_run (q : Nat) (s : State) : (controllerReset q).run s = (setPort q resetPort).run ((resetCmds fun c => c.port == q).run s) := rfl

theorem controllerReset_port (q : Nat) (s : State) :
    ∃ p : Port, ((controllerReset q).run s).port q = resetPort p ∧ p.rdy = (s.port q).rdy :=
  ⟨_, setPort_port_self q resetPort _, resetCmds_rdy _ q s⟩

/-- Its commands stay as the scope leaves them. -/
theorem controllerReset_scope (q : Nat) {s : State} {d : Cmd} (hd : d ∈ ((controllerReset q).run s).cqe.cmds) (hq : d.port = q) :
    d.silent = true ∧ d.writes = true ∧ d.arrived = true := by
  rw [controllerReset_run, setPort, Prog.run_upd, Upd.apply_cqe] at hd
  exact resetCmds_scope q hd hq

/-- The registers and components of a reset, as O26 lists them. -/
def controllerRegs : List RegName := [.BMU_CCC_STAT, .BMU_EVB_STAT, .BMU_SLOT_STAT, .BMU_STAT, .CQE_OVL_STAT, .CQE_STAT, .PCX_PROT_STAT, .PTM_MODE_STAT,
  .RDC_PAL_STAT, .SPL_MEMBERS, .SPL_STAT, .SPN_CTL, .SPN_ORR_STAT, .SPN_STAT, .SVE_CTX_CFG, .SVE_CTX_MAN, .SVE_CTX_STAT, .SVE_SEEK_STAT, .WRC_RWL_CTL,
  .WRC_RWL_PTR, .WRC_WR_STAT, .WRC_WUS_STAT]
def controllerComps : List Part := [.bmu, .cqe, .fcu, .hif, .out, .ptm, .rdc, .spl, .spn, .sve, .wrc]

theorem controllerReset_among (q : Nat) : (controllerReset q).Only (Upd.among (· ∈ controllerRegs) (· ∈ controllerComps) (true = true)) := by
  refine ⟨(resetCmds_among (fun r h => (by decide : resolveRegs ⊆ controllerRegs) h) (fun p h => (by decide : resolveComps ⊆ controllerComps) h) _).mono
    fun _ => Upd.among_mono (fun _ h => h) (fun _ h => h) fun _ => rfl, ?_⟩
  exact (by decide : Part.hif ∈ controllerComps)

/-- The end of a reset. -/
def resetEnded (p : Port) : Port := { p with resetting := false, rdy := false, shst := if p.abrupt then 2 else p.shst }

theorem resetComplete_run {s : State} {q : Nat} (h : (s.port q).resetting = true) :
    (resetCompleteProg q).run s = (rdyFollows q).run ((setF HIF_PORT_STAT.CTRL_RDY q 0).run ((setPort q resetEnded).run s)) := by
  rw [resetCompleteProg, Prog.run_ask, Prog.run_when, h]
  rfl

theorem resetComplete_ends {s : State} {q : Nat} (h : (s.port q).resetting = true) :
    Unchanged [(.HIF_PORT_STAT, q)] [.hif] [] s ((resetCompleteProg q).run s) ∧ (((resetCompleteProg q).run s).port q).resetting = false ∧
      ((s.port q).en = false ∨ s.on PTM_BOOT_STAT.FETCH_EN 0 = false → (((resetCompleteProg q).run s).port q).rdy = false ∧
        ((resetCompleteProg q).run s).get HIF_PORT_STAT.CTRL_RDY q = 0 ∧
        (((resetCompleteProg q).run s).port q).shst = if (s.port q).abrupt then 2 else (s.port q).shst) ∧
      ((s.port q).en = true → s.on PTM_BOOT_STAT.FETCH_EN 0 = true → (((resetCompleteProg q).run s).port q).rdy = true ∧
        ((resetCompleteProg q).run s).get HIF_PORT_STAT.CTRL_RDY q = 1) := by
  rw [resetComplete_run h]
  let t := (setF HIF_PORT_STAT.CTRL_RDY q 0).run ((setPort q resetEnded).run s)
  have hport : t.port q = resetEnded (s.port q) := setPort_port_self q resetEnded s
  have hfetch : t.on PTM_BOOT_STAT.FETCH_EN 0 = s.on PTM_BOOT_STAT.FETCH_EN 0 := by
    simp only [State.on, t, Prog.run_setF, State.get_fld_reg _ HIF_PORT_STAT.CTRL_RDY PTM_BOOT_STAT.FETCH_EN _ _ _ (by decide), setPort, Prog.run_upd,
      Upd.apply_get _ _ (Upd.onRegs_hif _)]
  have hkept : Unchanged [(.HIF_PORT_STAT, q)] [.hif] [] s t :=
    ((setPort_changes s).mono (by simp) (by simp) (by simp)).app (List.mem_singleton.2 rfl)
  refine ⟨hkept.trans (rdyFollows_changes q t), ?_, fun hoff => ?_, fun hen hon => ?_⟩
  · obtain hp | hp := rdyFollows_port q t <;> rw [hp, hport] <;> rfl
  · have hstay : (rdyFollows q).run t = t := rdyFollows_off (by
      rw [hport, hfetch]
      obtain hen | hno := hoff
      · simp [resetEnded, hen]
      · simp [hno])
    rw [show (rdyFollows q).run t = t from hstay, hport]
    exact ⟨rfl, State.get_fld_self _ _ _ _ (by decide), rfl⟩
  · exact rdyFollows_shows (by rw [hport]; exact hen) (by rw [hport]; rfl) (hfetch.trans hon)

/-! Shutdowns. -/

theorem shutdown_run {s : State} {q : Nat} (hen : (s.port q).en = true) (hshn : (s.port q).shn = none) :
    (shutdownProg q).run s = (setPort q fun p => { p with shn := some s.cqe.nextSeq, shst := 1 }).run s := by
  rw [shutdownProg, Prog.run_ask, Prog.run_when, hen, hshn]
  rfl

/-- Once shut down a controller of PCIe is not fetched from. -/
theorem portFetches_of_shn {s : State} {q n : Nat} (hsas : s.isSas = false) (h : (s.port q).shn = some n) : s.portFetches q = false := by
  simp [State.portFetches, hsas, h]

theorem shutdownComplete_run {s : State} {q n : Nat} (hshn : (s.port q).shn = some n)
    (hcmds : (s.cqe.cmds.any fun c => c.port == q && !s.isAer c || c.writes && !c.arrived && older c.seq n) = false)
    (hsafe : (s.cqe.overlay.all fun v => !older v.seq n || s.verSafe v) = true) :
    (shutdownCompleteProg q).run s = (setPort q fun p => { p with shst := 2 }).run s := by
  rw [shutdownCompleteProg, Prog.run_ask, hshn]
  simp only [Prog.run_when, hcmds, hsafe, Bool.not_false, Bool.and_self, if_true]

theorem abrupt_run {s : State} {q : Nat} (hen : (s.port q).en = true) :
    (abruptProg q).run s = (setPort q fun p => { p with abrupt := true, resetting := true, shst := 1 }).run ((controllerReset q).run s) := by
  rw [abruptProg, Prog.run_ask, Prog.run_when, hen]
  rfl

/-- An interrupt held goes out in its time. -/
theorem coalesce_run {s : State} {q i : Nat} {x : ComQ} (hcq : (s.port q).cq i = some x) (hi : i ≠ 0) (hheld : x.coalesced ≠ 0)
    (hdue : x.heldAt + (s.port q).coalesceTime ≤ s.ptm.ticks) : (coalesceProg q i).run s = (cqInterrupt q i).run s := by
  simp only [coalesceProg, Prog.run_ask, hcq, Prog.run_when]
  rw [if_pos (by simp [hi, hheld, hdue])]

/-- Settles O26: the doorbells set tail and head and let the completions held go out in order; enabling and the end of a reset let RDY follow; a reset drops
the commands in its scope but the writes that arrived; shutdowns set SHST. -/
theorem doorbellsAndControllers : Obligations.DoorbellsAndControllers := by
  unfold Obligations.DoorbellsAndControllers
  refine ⟨fun s q i tail x hen hsq hroom => ⟨_, rfl, sqTail_sets hen hsq hroom⟩, fun s q i head x hen hcq hhead hheld => ⟨_, rfl, ?_⟩,
    fun s q i head x o hen hcq hhead hheld hien hroom => ⟨_, rfl, ?_⟩, fun s q i head x hen hcq hhead => ⟨_, rfl, ?_⟩,
    fun s q asqs acqs wrr hsas hport hup hen => ⟨_, rfl, ?_⟩, fun s q hen => ⟨_, rfl, ?_⟩, fun s q h => ⟨_, rfl, resetComplete_ends h⟩,
    fun s q hen hshn => ⟨_, rfl, ?_⟩, fun s q n hshn hcmds hsafe => ⟨_, rfl, ?_⟩, fun s q hen => ⟨_, rfl, ?_⟩,
    fun s q i x hcq hi hheld hien hdue => ⟨_, rfl, ?_⟩⟩
  · rw [cqHead_run hen hcq hhead, cqDrain_stops (cqHead_sets hcq head) (.inl hheld)]
    exact ⟨setPort_changes s, cqHead_sets hcq head⟩
  · rw [cqHead_run hen hcq hhead, hheld]
    obtain ⟨hout, y, hy, hrest, htail, hy'⟩ := cqDrain_one (cqHead_sets hcq head) hheld hroom hien
    exact ⟨((setPort_changes s).mono (by simp) (by simp) (by simp)).trans (cqDrain_leaves q i 1 (cqHead_sets hcq head)).1, hout, y, hy, hrest, htail, hy'⟩
  · rw [cqHead_run hen hcq hhead]
    obtain ⟨hkept, y, hy, hyhead, hysize, hyheld⟩ := cqDrain_leaves q i x.held.length (cqHead_sets hcq head)
    refine ⟨((setPort_changes s).mono (by simp) (by simp) (by simp)).trans hkept, y, hy, hyhead, hysize, hyheld, ?_⟩
    cases hl : y.held with
    | nil => exact .inl rfl
    | cons o l => exact .inr (by simp [ComQ.full, hl])
  · rw [enable_run hsas hport hup hen]
    have hset : ((setPort q (enabledPort asqs acqs wrr)).run s).port q = enabledPort asqs acqs wrr (s.port q) := setPort_port_self _ _ s
    refine ⟨((setPort_changes s).mono (by simp) (by simp) (by simp)).trans (rdyFollows_changes q _), ?_⟩
    have hport' := rdyFollows_port q ((setPort q (enabledPort asqs acqs wrr)).run s)
    rw [hset] at hport'
    refine ⟨?_, ?_, ?_, ?_, ?_, ?_, fun hreset hfetch => ?_⟩
    case refine_7 => exact rdyFollows_shows (by rw [hset]; rfl) (by rw [hset]; exact hreset) hfetch
    all_goals obtain hp | hp := hport' <;> rw [hp] <;> rfl
  · have hrun : (whenS (fun t => (t.port q).en) (controllerReset q)).run s = (controllerReset q).run s := by rw [Prog.run_whenS, if_pos hen]
    rw [hrun]
    obtain ⟨p, hp, hrdy⟩ := controllerReset_port q s
    refine ⟨(controllerReset_among q).changesOnly s, ?_⟩
    rw [hp]
    exact ⟨rfl, rfl, rfl, rfl, hrdy, fun c hc hq => controllerReset_scope q hc hq⟩
  · rw [shutdown_run hen hshn]
    refine ⟨setPort_changes s, ?_, ?_, fun hsas => portFetches_of_shn (n := s.cqe.nextSeq) hsas ?_⟩ <;> rw [setPort_port_self]
  · rw [shutdownComplete_run hshn hcmds hsafe]
    refine ⟨setPort_changes s, ?_, ?_⟩ <;> rw [setPort_port_self]
  · rw [abrupt_run hen]
    obtain ⟨p, hp, -⟩ := controllerReset_port q s
    refine ⟨((controllerReset_among q).changesOnly s).prog (by exact (by decide : Part.hif ∈ controllerComps)), ?_⟩
    rw [setPort_port_self, hp]
    exact ⟨rfl, rfl, rfl, rfl, rfl⟩
  · rw [coalesce_run hcq hi hheld hdue]
    exact ⟨cqInterrupt_changes q i s, (cqInterrupt_out hcq).trans (if_pos hien), cqInterrupt_cq hcq⟩

end Sys2Proof.Machine
end


section
set_option Elab.async false
/-! The fetch of an NVMe admin command (R309, R322, R324): its tag, the entry it takes, and what is held then. -/
namespace Sys2Proof.Machine

/-- With a tag free, the new tag is one (R322). -/
theorem newTag_free {s : State} (h : s.tagFree = true) : ∀ c ∈ s.cqe.cmds, c.ctag ≠ s.newTag := by
  obtain ⟨j, hj, hfree⟩ := List.any_eq_true.1 h
  have hj4096 : j < 4096 := List.mem_range.1 hj
  have hsome : ((List.range 4096).find? fun k => !(s.cqe.cmds.any fun c => c.ctag == (Config.freeValue s.freeCtr + k) % 4096)).isSome = true := by
    refine List.find?_isSome.2 ⟨(j + 4096 - Config.freeValue s.freeCtr % 4096) % 4096, List.mem_range.2 (Nat.mod_lt _ (by decide)), ?_⟩
    rw [show (Config.freeValue s.freeCtr + (j + 4096 - Config.freeValue s.freeCtr % 4096) % 4096) % 4096 = j by omega]
    exact hfree
  obtain ⟨k, hk⟩ := Option.isSome_iff_exists.1 hsome
  have hnone : (s.cqe.cmds.any fun c => c.ctag == (Config.freeValue s.freeCtr + k) % 4096) = false := by simpa using List.find?_some hk
  have htag : s.newTag = (Config.freeValue s.freeCtr + k) % 4096 := by rw [State.newTag, State.freeTag, hk, Option.elim]
  intro c hc heq
  exact List.any_eq_false.1 hnone c hc (beq_iff_eq.2 (heq.trans htag))

/-- With at most one command held a tag is free. -/
theorem tagFree_of_short {s : State} (h : s.cqe.cmds.length ≤ 1) : s.tagFree = true := by
  suffices hfree : ∃ k < 4096, (!(s.cqe.cmds.any fun c => c.ctag == k)) = true by
    obtain ⟨k, hk, hno⟩ := hfree
    exact List.any_eq_true.2 ⟨k, List.mem_range.2 hk, hno⟩
  rcases hcmds : s.cqe.cmds with _ | ⟨d, _ | ⟨e, l⟩⟩
  · exact ⟨0, by omega, rfl⟩
  · by_cases hd : d.ctag = 0
    · exact ⟨1, by omega, by simp [hd]⟩
    · exact ⟨0, by omega, by simp [hd]⟩
  · simp [hcmds] at h

/-- A submission queue once its head has moved on. -/
def SubQ.taken (x : SubQ) : SubQ := { x with head := (x.head + 1) % max 1 x.size }

/-- A port of which the entry at the head of the admin queue has been taken. -/
def Port.tookAdmin (p : Port) : Port := { p with sqs := p.sqs.map fun x => if x.id == 0 then x.taken else x }

theorem Port.tookAdmin_sq (p : Port) : p.tookAdmin.sq 0 = (p.sq 0).map SubQ.taken := find_map_self SubQ.id 0 (f := SubQ.taken) (fun _ => rfl) p.sqs
theorem Port.tookAdmin_sq_other (p : Port) {i : Nat} (hi : i ≠ 0) : p.tookAdmin.sq i = p.sq i := find_map_other SubQ.id hi (f := SubQ.taken) (fun _ => rfl) p.sqs

/-- What a fetch changes. -/
def fetchRegs : List RegName := [.CQE_STAT, .CQE_OVL_STAT]
def fetchComps : List Part := [.ptm, .cqe, .hif, .free]

theorem afterFetch_changes (c : Cmd) (s : State) : ChangesOnly fetchRegs fetchComps false s (s.afterFetch c) := by
  refine Prog.Only.changesOnly ?_ s
  have hshow : cqeShow.Only (Upd.among (· ∈ fetchRegs) (· ∈ fetchComps) (false = true)) := cqeShow_among (fun _ h => h) (by decide)
  have hcqe : Part.cqe ∈ fetchComps := by decide
  have hhif : Part.hif ∈ fetchComps := by decide
  have hfree : Part.free ∈ fetchComps := by decide
  simp only [fetchCmd, arbTaken, setSq, setPort, Only.fresh, Only.ask, Only.cons, Only.nil, Only.when, Only.seq, Only.upd, Only.skip, and_true]
  exact fun _ => ⟨hfree, fun _ => ⟨hcqe, fun _ => ⟨fun _ => ⟨fun _ => hhif, hcqe⟩, hhif⟩, hshow⟩⟩

theorem arbTaken_admin (q : Nat) (s : State) : (arbTaken q 0).run s = (Upd.cqe fun x => { x with side := 1 - q }).apply s := by
  simp only [arbTaken, Prog.run_ask, Prog.run_seq, Prog.run_when, Prog.run_upd, bne_self_eq_false, Bool.false_eq_true, if_false]

/-- The fetch of an admin entry, update by update. -/
theorem afterFetch_run {c : Cmd} {s : State} (hsas : s.isSas = false) (hsq : c.sqid = 0) :
    s.afterFetch c = cqeShow.run ((setSq c.port 0 SubQ.taken).run ((Upd.cqe fun x => { x with side := 1 - c.port }).apply
      ((Upd.cqe fun x => { x with
          nextSeq := (x.nextSeq + 1) % 2 ^ 32, cmds := x.cmds ++ [{ c with ctag := s.newTag, seq := x.nextSeq, time := s.time }],
          fetched := (s.time, (if x.fetched.1 = s.time then x.fetched.2 else 0) + 1) }).apply (Upd.free.apply s)))) := by
  have hsas' : (Upd.free.apply s).isSas = false := hsas
  simp only [State.afterFetch, fetchCmd, Prog.run_fresh, Prog.run_ask, Prog.run_all_cons, Prog.run_all_nil, Prog.run_skip, Prog.run_when, hsas', Bool.not_false,
    if_true, Prog.run_seq, hsq, arbTaken_admin, Prog.run_upd]
  rfl

theorem cqeShow_hif (s : State) : (cqeShow.run s).hif = s.hif := (cqeShow_among (by simp) (by decide)).hif s

/-- Its sequence number. -/
theorem afterFetch_nextSeq {c : Cmd} {s : State} (hsas : s.isSas = false) (hsq : c.sqid = 0) : (s.afterFetch c).cqe.nextSeq = (s.cqe.nextSeq + 1) % 2 ^ 32 := by
  rw [afterFetch_run hsas hsq, cqeShow_cqe]
  rfl

/-- The port that it was fetched from. -/
theorem afterFetch_port {c : Cmd} {s : State} (hsas : s.isSas = false) (hsq : c.sqid = 0) : (s.afterFetch c).port c.port = (s.port c.port).tookAdmin := by
  rw [afterFetch_run hsas hsq, State.port, cqeShow_hif]
  exact setPort_port_self c.port Port.tookAdmin _

/-- What the fetch of an admin entry needs of the controller (R313, R322). -/
theorem nvmeFetch_admin {s : State} {q : Nat} (h : s.nvmeFetch q 0 = true) :
    s.isSas = false ∧ ∃ x y, (s.port q).sq 0 = some x ∧ x.deleting = false ∧ (s.port q).cq x.cq = some y ∧ y.full = false := by
  simp only [State.nvmeFetch, State.nvmeMay, Bool.and_eq_true, Bool.not_eq_true'] at h
  obtain ⟨⟨⟨⟨⟨⟨⟨hsas, -⟩, -⟩, hready⟩, -⟩, -⟩, -⟩, -⟩ := h
  refine ⟨hsas, ?_⟩
  simp only [State.sqReady] at hready
  cases hx : (s.port q).sq 0 with
  | none => simp [hx] at hready
  | some x =>
    cases hy : (s.port q).cq x.cq with
    | none => simp [hx, hy] at hready
    | some y =>
      simp only [hx, hy, Bool.and_eq_true, Bool.not_eq_true'] at hready
      obtain ⟨⟨-, hdel⟩, hfull⟩ := hready
      exact ⟨x, y, rfl, hdel, hy, hfull⟩

/-- The admin entry stays taken while ports keep their queues. -/
theorem tookEntry_of_kept {s t u : State} {q : Nat} (hfetch : s.nvmeFetch q 0 = true) (hport : t.port q = (s.port q).tookAdmin) (hkept : PortsKept t.hif u.hif) :
    TookEntry q 0 s u := by
  obtain ⟨-, x, -, hx, hdel, -⟩ := nvmeFetch_admin hfetch
  intro y hy
  obtain rfl : x = y := Option.some.inj (hx.symm.trans hy)
  have htaken : (t.port q).sq 0 = some x.taken := by rw [hport, Port.tookAdmin_sq, hx]; rfl
  rw [show (u.port q).sq 0 = some x.taken from (hkept q).2 0 x.taken htaken hdel]
  rfl

end Sys2Proof.Machine
end

section
set_option Elab.async false
/-! A command that waits for firmware, and what leaves it so (R353). -/
namespace Sys2Proof.Machine

/-- What every program of a list keeps, the list keeps. -/
theorem all_keeps {Q : State → Prop} {l : List Prog} (hk : ∀ p ∈ l, ∀ s, Q s → Q (p.run s)) {s : State} (hs : Q s) : Q ((all l).run s) := by
  induction l generalizing s with
  | nil => exact hs
  | cons p l ih => exact ih (fun q hq => hk q (List.mem_cons_of_mem _ hq)) (hk p List.mem_cons_self s hs)

/-- A command is held, alone under its tag, and waits for the ring. -/
def Waiting (d : Cmd) (s : State) : Prop := d ∈ s.cqe.cmds ∧ d.ctag ∈ s.cqe.handQ ∧ ∀ c ∈ s.cqe.cmds, c.ctag = d.ctag → c = d

theorem Waiting.of_cqe {d : Cmd} {s t : State} (h : Waiting d s) (ht : t.cqe = s.cqe) : Waiting d t := by
  rw [Waiting, ht]
  exact h

theorem Waiting.spares {d : Cmd} {s : State} {p : Prog} (h : Waiting d s) (hp : p.Only (Upd.sparesPart .cqe)) : Waiting d (p.run s) := h.of_cqe (hp.cqe s)

/-- Another command goes. -/
theorem Waiting.without {d : Cmd} {s t : State} (h : Waiting d s) {k : Nat} (hk : k ≠ d.ctag) (ht : t.cqe = s.cqe.without k) : Waiting d t := by
  obtain ⟨hmem, hhand, hone⟩ := h
  rw [Waiting, ht]
  exact ⟨List.mem_filter.2 ⟨hmem, by simpa using hk.symm⟩, List.mem_filter.2 ⟨hhand, by simpa using hk.symm⟩, fun c hc => hone c (List.mem_filter.1 hc).1⟩

/-- The completion of a command, in CQE: it is no longer held. -/
theorem complete_cqe (c : Cmd) (sct sc : Nat) (dnr : Bool) (dw0 : Nat) (s : State) : ((complete c sct sc dnr dw0).run s).cqe = s.cqe.without c.ctag := by
  rw [complete, Prog.run_ask, Prog.run_seq, Prog.Only.cqe ?_ _, dropCmd_cqe]
  have hsend : ∀ q i o err, (cqSend q i o err).Only (Upd.sparesPart .cqe) := fun q i o err =>
    (cqSend_onCmds (R := fun _ => True) (P := (· ≠ Part.cqe)) (M := True) (by decide) (by decide) q i o err).among_of_cmds
  simp only [Only.ite, Only.skip, send, Only.emit]
  refine ⟨fun _ => trivial, fun _ => ⟨fun _ => (by decide : Part.out ≠ Part.cqe), fun _ => ?_⟩⟩
  split
  · exact hsend _ _ _ _
  · trivial

theorem Waiting.after_complete {d c : Cmd} {s : State} (h : Waiting d s) (hc : c.ctag ≠ d.ctag) (sct sc : Nat) (dnr : Bool) (dw0 : Nat) :
    Waiting d ((complete c sct sc dnr dw0).run s) := h.without hc (complete_cqe c sct sc dnr dw0 s)

/-- Another command makes progress. -/
theorem Waiting.after_setCmd {d : Cmd} {s : State} (h : Waiting d s) {t : Nat} (ht : t ≠ d.ctag) {f : Cmd → Cmd} (hf : ∀ c, (f c).ctag = c.ctag) :
    Waiting d ((setCmd t f).run s) := by
  obtain ⟨hmem, hhand, hone⟩ := h
  refine ⟨List.mem_map.2 ⟨d, hmem, if_neg (by simpa using ht.symm)⟩, hhand, fun c hc hct => ?_⟩
  obtain ⟨e, he, rfl⟩ := List.mem_map.1 hc
  by_cases het : (e.ctag == t) = true
  · rw [if_pos het, hf] at hct
    exact absurd ((beq_iff_eq.1 het).symm.trans hct) ht
  · rw [if_neg het] at hct ⊢
    exact hone e he hct

theorem Waiting.after_cmdHandOff {d : Cmd} {s : State} (h : Waiting d s) {t : Nat} (ht : t ≠ d.ctag) (reason : Nat) : Waiting d ((cmdHandOff t reason).run s) := by
  obtain ⟨hmem, hhand, hone⟩ := h.after_setCmd ht (f := fun c => { c with want := some reason }) fun _ => rfl
  refine ⟨hmem, ?_, hone⟩
  show d.ctag ∈ (if _ then _ else _)
  split
  · exact hhand
  · exact List.mem_append_left _ hhand

/-- A held command is under the tag it is looked up by. -/
theorem State.cmd_ctag {s : State} {t : Nat} {c : Cmd} (h : s.cmd t = some c) : c.ctag = t := by simpa using List.find?_some h

section
variable {d : Cmd} {s : State} {t : Nat} (h : Waiting d s) (ht : t ≠ d.ctag)
include h ht

theorem Waiting.after_sendLba (i : Nat) (data pi : List Byte) (written : Bool) : Waiting d ((sendLba t i data pi written).run s) := by
  simp only [sendLba, Prog.run_ask]
  split
  · exact h
  · next c hc =>
    split
    · exact h
    · split
      · exact h.after_complete (by rw [State.cmd_ctag hc]; exact ht) _ _ _ _
      · exact (h.of_cqe (t := (Upd.emit _).apply s) rfl).after_setCmd ht fun _ => rfl

theorem Waiting.after_resolveLba (i : Nat) : Waiting d ((resolveLba t i).run s) := by
  have hput : ∀ {s : State}, Waiting d s → ∀ st sl, Waiting d ((setCmd t fun c => { c with lbas := c.lbas.mapIdx fun k e =>
      if k == i then { e with st, slot := sl } else e }).run s) := fun h _ _ => h.after_setCmd ht fun _ => rfl
  have htouch : ∀ {s : State}, Waiting d s → ∀ m a n, Waiting d ((dramTouch m a n).run s) := fun h m a n =>
    h.spares (dramTouch_among m a n trivial trivial (by decide) (by decide))
  have hbmu : ∀ {s : State} (f : BmuState → BmuState), Waiting d s → Waiting d ((Upd.bmu f).apply s) := fun _ h => h.of_cqe rfl
  simp only [resolveLba, Prog.run_ask]
  split
  · exact h
  · split
    · rw [Prog.run_ite]
      split
      · exact h
      · split
        · exact h
        · exact Waiting.after_sendLba (htouch (hput h _ _) _ _ _) ht _ _ _ _
        · refine all_keeps (Q := Waiting d) ?_ h
          simp only [List.forall_mem_cons, List.not_mem_nil, false_imp_iff, implies_true, and_true]
          exact ⟨fun _ hs => hput hs _ _, fun _ hs => hbmu _ hs, fun _ hs => hbmu _ hs,
            fun _ hs => hs.spares (p := when _ (incF BMU_CCC_STAT.HIT 0)) (by rw [Only.when, Only.incF]; exact fun _ _ => trivial),
            fun _ hs => htouch hs _ _ _, fun _ hs => hs.after_sendLba ht _ _ _ _⟩
        · exact hput h _ _
        · exact Waiting.after_sendLba h ht _ _ _ _
        · exact hput h _ _
    · exact h

theorem Waiting.after_readPath (ls : List Nat) : Waiting d ((readPath t ls).run s) := by
  simp only [readPath, Prog.run_ask]
  split
  · split
    · rw [Prog.run_when]
      split
      · split
        · exact h.after_cmdHandOff ht _
        · exact h
      · exact h
    · exact h
  · exact h

theorem Waiting.after_readFinish : Waiting d ((readFinish t).run s) := by
  simp only [readFinish, Prog.run_ask]
  split
  · exact h
  · next c hc =>
    have hne : c.ctag ≠ d.ctag := by rw [State.cmd_ctag hc]; exact ht
    rw [Prog.run_when]
    split
    · rw [Prog.run_ite, Prog.run_ite]
      split
      · exact h.after_cmdHandOff ht _
      · split <;> exact h.after_complete hne _ _ _ _
    · exact h

theorem Waiting.after_resolveRead : Waiting d ((resolveRead t).run s) := by
  simp only [resolveRead, Prog.run_ask]
  split
  · simp only [Prog.run_all_cons, Prog.run_all_nil]
    exact ((each_keeps (Q := Waiting d) (fun i _ s hs => hs.after_resolveLba ht i) h).after_readPath ht _).after_readFinish ht
  · exact h
end

/-- A command of another kind is not one of several completed. -/
theorem Waiting.each_complete {d : Cmd} {s : State} (h : Waiting d s) {l : List Cmd} (hl : ∀ c ∈ l, c.ctag ≠ d.ctag) (sc : Nat) :
    Waiting d ((each l fun c => complete c 0 sc false 0).run s) := each_keeps (Q := Waiting d) (fun c hc _ hs => hs.after_complete (hl c hc) _ _ _ _) h

/-- A held command of another kind lies under another tag. -/
theorem Waiting.ctag_ne {d c : Cmd} {s : State} (h : Waiting d s) (hc : c ∈ s.cqe.cmds) (hk : c ≠ d) : c.ctag ≠ d.ctag :=
  fun e => hk (h.2.2 c hc e)

theorem Waiting.after_flushSweep {d : Cmd} {s : State} (h : Waiting d s) (hd : d.kind ≠ kdFlush) : Waiting d (flushSweep.run s) := by
  rw [flushSweep, Prog.run_ask]
  refine h.each_complete (fun c hc => ?_) 0
  obtain ⟨hmem, hsel⟩ := List.mem_filter.1 hc
  refine h.ctag_ne hmem ?_
  rintro rfl
  simp [hd] at hsel

theorem mediaWake_spares : mediaWake.Only (Upd.sparesPart .cqe) := mediaWake_among (by simp) fun q hq e => absurd (e ▸ hq) (by decide)

theorem Waiting.after_resolveAll {d : Cmd} {s : State} (h : Waiting d s) (hd : d.kind ≠ kdRead) : Waiting d (resolveAll.run s) := by
  rw [resolveAll, Prog.run_seq]
  refine Waiting.spares (p := .ask fun s => when s.mediaWaiting mediaWake) ?_ fun _ => (Only.when ..).2 fun _ => mediaWake_spares
  rw [Prog.run_ask]
  refine each_keeps (Q := Waiting d) (fun c hc s' hs' => hs'.after_resolveRead ?_) h
  obtain ⟨hmem, hsel⟩ := List.mem_filter.1 hc
  refine h.ctag_ne hmem ?_
  rintro rfl
  simp [hd] at hsel

theorem Waiting.after_catchCmd {d c : Cmd} {s : State} (h : Waiting d s) (hc : c.ctag ≠ d.ctag) (hd : d.kind = kdAdmin) (sc : Nat) :
    Waiting d ((catchCmd c sc).run s) := by
  rw [catchCmd, Prog.run_all_cons, Prog.run_all_cons, Prog.run_all_cons, Prog.run_all_nil]
  exact ((h.after_complete hc 0 sc false 0).after_flushSweep (by rw [hd]; decide)).after_resolveAll (by rw [hd]; decide)

/-- No flush is held: none completes. -/
theorem flushSweep_idle {s : State} (h : ∀ c ∈ s.cqe.cmds, c.kind ≠ kdFlush) : flushSweep.run s = s := by
  rw [flushSweep, Prog.run_ask, List.filter_eq_nil_iff.2 fun c hc => by simp [h c hc], Prog.run_each_nil]

/-- No read is held and no medium waited for: nothing looks again. -/
theorem resolveAll_idle {s : State} (h : ∀ c ∈ s.cqe.cmds, c.kind ≠ kdRead ∧ c.lbas = []) : resolveAll.run s = s := by
  have hwait : s.mediaWaiting = false := by
    rw [State.mediaWaiting, List.any_eq_false]
    intro c hc
    simp [(h c hc).2]
  have hreads : (s.cqe.cmds.filter fun c => c.kind == kdRead && c.lbas.any fun e => e.st == 0) = [] := List.filter_eq_nil_iff.2 fun c hc => by simp [(h c hc).1]
  simp only [resolveAll, Prog.run_seq, Prog.run_ask, hreads, Prog.run_each_nil, hwait, Prog.run_when, Bool.false_eq_true, if_false]

end Sys2Proof.Machine
end

section
set_option Elab.async false
/-! NVMe admin commands handed to firmware as they are fetched, and what the part does itself (R309, R312, R322, R338, R340). -/
namespace Sys2Proof.Machine

/-! A command held and handed to firmware. -/

theorem cmdHandOff_cmds (t r : Nat) (s : State) :
    ((cmdHandOff t r).run s).cqe.cmds = s.cqe.cmds.map fun d => if d.ctag == t then { d with want := some r } else d := rfl
theorem cmdHandOff_nextSeq (t r : Nat) (s : State) : ((cmdHandOff t r).run s).cqe.nextSeq = s.cqe.nextSeq := rfl
theorem cmdHandOff_port (t r : Nat) (s : State) (q : Nat) : ((cmdHandOff t r).run s).port q = s.port q := rfl
theorem cmdHandOff_waits (t r : Nat) (s : State) : t ∈ ((cmdHandOff t r).run s).cqe.handQ := by
  show t ∈ if _ then _ else _
  split
  · next h => exact List.contains_iff_mem.1 h
  · exact List.mem_append_right _ (List.mem_singleton.2 rfl)

/-- The command of an admin entry. -/
def adminOf (q : Nat) (x : Sqe) (op kind : Nat) : Cmd := { sqeCmd q 0 x op kind with n := 0, lba := 0, fua := false }

theorem adminOf_port (q : Nat) (x : Sqe) (op kind : Nat) : (adminOf q x op kind).port = q := rfl
theorem adminOf_sqid (q : Nat) (x : Sqe) (op kind : Nat) : (adminOf q x op kind).sqid = 0 := rfl

/-- The command as firmware will find it. -/
def heldCmd (c : Cmd) (s : State) : Cmd := { c with want := some 0, ctag := s.newTag, seq := s.cqe.nextSeq, time := s.time }

theorem heldCmd_ctag (c : Cmd) (s : State) : (heldCmd c s).ctag = s.newTag := by simp only [heldCmd]

/-- It is fetched and waits for the ring. -/
def State.afterAdmin (c : Cmd) (s : State) : State := (cmdHandOff s.newTag 0).run (s.afterFetch c)

theorem afterAdmin_cmds (c : Cmd) (s : State) :
    (s.afterAdmin c).cqe.cmds = s.cqe.cmds.map (fun d => if d.ctag == s.newTag then { d with want := some 0 } else d) ++ [heldCmd c s] := by
  rw [State.afterAdmin, cmdHandOff_cmds, s.afterFetch_cmds, List.map_append, List.map_singleton, if_pos (by simp), heldCmd]

/-- With a tag free the commands held before stay as they are. -/
theorem afterAdmin_cmds_free (c : Cmd) {s : State} (h : s.tagFree = true) : (s.afterAdmin c).cqe.cmds = s.cqe.cmds ++ [heldCmd c s] := by
  have hstay : ∀ d ∈ s.cqe.cmds, (if d.ctag == s.newTag then { d with want := some 0 } else d) = id d := fun d hd => if_neg (by simpa using newTag_free h d hd)
  rw [afterAdmin_cmds, List.map_congr_left hstay, List.map_id]

theorem afterAdmin_handQ (c : Cmd) (s : State) : s.newTag ∈ (s.afterAdmin c).cqe.handQ := cmdHandOff_waits s.newTag 0 _

theorem afterAdmin_changes (c : Cmd) (s : State) : ChangesOnly fetchRegs fetchComps false s (s.afterAdmin c) := by
  have hcqe : Part.cqe ∈ fetchComps := by decide
  exact (afterFetch_changes c s).prog (cmdHandOff_onCmds hcqe _ _).among_of_cmds

theorem afterAdmin_waiting (c : Cmd) {s : State} (h : s.tagFree = true) : Waiting (heldCmd c s) (s.afterAdmin c) := by
  rw [Waiting, afterAdmin_cmds_free c h, heldCmd_ctag]
  refine ⟨List.mem_append_right _ (List.mem_singleton.2 rfl), afterAdmin_handQ c s, fun d hd hk => ?_⟩
  obtain hd | hd := List.mem_append.1 hd
  · exact absurd hk (newTag_free h d hd)
  · exact List.mem_singleton.1 hd

section
variable {c : Cmd} {s : State} (hsas : s.isSas = false) (hsq : c.sqid = 0)
include hsas hsq

theorem afterAdmin_fetched : Fetched { c with want := some 0 } s (s.afterAdmin c) := by
  refine ⟨?_, ?_⟩
  · rw [afterAdmin_cmds]
    exact List.mem_append_right _ (List.mem_singleton.2 rfl)
  · rw [State.afterAdmin, cmdHandOff_nextSeq, afterFetch_nextSeq hsas hsq]

theorem afterAdmin_port : (s.afterAdmin c).port c.port = (s.port c.port).tookAdmin := by
  rw [State.afterAdmin, cmdHandOff_port, afterFetch_port hsas hsq]
end

theorem afterAdmin_adminPort {q : Nat} {s : State} (h : s.nvmeFetch q 0 = true) (x : Sqe) (op kind : Nat) :
    (s.afterAdmin (adminOf q x op kind)).port q = (s.port q).tookAdmin := by
  obtain ⟨hsas, -⟩ := nvmeFetch_admin h
  have hport := afterAdmin_port hsas (adminOf_sqid q x op kind)
  rwa [adminOf_port] at hport

theorem adminCmd_run {q : Nat} {s : State} (h : s.nvmeFetch q 0 = true) (x : Sqe) (op kind : Nat) (eff : Nat → Prog) :
    (adminCmd q x op kind eff).run s = (eff s.newTag).run (s.afterAdmin (adminOf q x op kind)) := by
  rw [adminCmd, Prog.run_whenS, if_pos h, fetchCmd_run, Prog.run_seq, State.afterAdmin, adminOf]

/-- An admin entry that is taken leaves the head where it moved to while that queue's head stays. -/
theorem tookEntry_of_head {s u : State} {q : Nat} (h : ((u.port q).sq 0).map (·.head) = ((s.port q).tookAdmin.sq 0).map (·.head)) : TookEntry q 0 s u := by
  intro y hy
  rw [h, Port.tookAdmin_sq, show (s.port q).sq 0 = some y from hy]
  rfl

/-- What every admin command that firmware answers does. -/
def HandedOver (q : Nat) (c : Cmd) (s t : State) : Prop := Fetched { c with want := some 0 } s t ∧ s.newTag ∈ t.cqe.handQ ∧ TookEntry q 0 s t

theorem setPort_cqe (q : Nat) (f : Port → Port) (s : State) : ((setPort q f).run s).cqe = s.cqe := rfl

/-- It is handed over as long as CQE's state and the head stay. -/
theorem handedOver {q : Nat} {c : Cmd} {s u : State} (hsas : s.isSas = false) (hsq : c.sqid = 0) (hcqe : u.cqe = (s.afterAdmin c).cqe)
    (hhead : ((u.port q).sq 0).map (·.head) = ((s.port q).tookAdmin.sq 0).map (·.head)) : HandedOver q c s u := by
  obtain ⟨hmem, hseq⟩ := afterAdmin_fetched hsas hsq
  refine ⟨⟨?_, ?_⟩, ?_, tookEntry_of_head hhead⟩
  · rw [hcqe]
    exact hmem
  · rw [hcqe, hseq]
  · rw [hcqe]
    exact afterAdmin_handQ c s

/-- One that the part only hands over. -/
theorem adminCmd_plain {q : Nat} {s : State} (h : s.nvmeFetch q 0 = true) (x : Sqe) (op kind : Nat) :
    ChangesOnly fetchRegs fetchComps false s ((adminCmd q x op kind fun _ => .skip).run s) ∧
      HandedOver q (adminOf q x op kind) s ((adminCmd q x op kind fun _ => .skip).run s) := by
  obtain ⟨hsas, -⟩ := nvmeFetch_admin h
  rw [adminCmd_run h, Prog.run_skip]
  exact ⟨afterAdmin_changes _ s, handedOver hsas (adminOf_sqid ..) rfl (by rw [afterAdmin_adminPort h])⟩

/-- One that changes its controller. -/
theorem adminCmd_port {q : Nat} {s : State} (h : s.nvmeFetch q 0 = true) (x : Sqe) (op kind : Nat) {f : Port → Port}
    (hf : ((f (s.port q).tookAdmin).sq 0).map (·.head) = ((s.port q).tookAdmin.sq 0).map (·.head)) :
    ChangesOnly fetchRegs fetchComps false s ((setPort q f).run (s.afterAdmin (adminOf q x op kind))) ∧
      HandedOver q (adminOf q x op kind) s ((setPort q f).run (s.afterAdmin (adminOf q x op kind))) ∧
      ((setPort q f).run (s.afterAdmin (adminOf q x op kind))).port q = f (s.port q).tookAdmin := by
  obtain ⟨hsas, -⟩ := nvmeFetch_admin h
  have hport : ((setPort q f).run (s.afterAdmin (adminOf q x op kind))).port q = f (s.port q).tookAdmin := by
    rw [setPort_port_self, afterAdmin_adminPort h]
  refine ⟨(afterAdmin_changes _ s).prog (by exact (by decide : Part.hif ∈ fetchComps)), handedOver hsas (adminOf_sqid ..) (setPort_cqe q f _) ?_, hport⟩
  rw [hport, hf]

/-! What the part does itself. -/

/-- The key under which a feature's value stands: of Interrupt Vector Configuration, one for each vector. -/
def featureKey (x : Sqe) : Nat := if x.d10.toNat % 256 = 0x09 then 0x10000 * (x.d11.toNat % 65536) + x.d10.toNat % 256 else x.d10.toNat % 256

/-- A controller whose feature has taken the command's value. -/
def Port.withFeature (x : Sqe) (p : Port) : Port :=
  { p with features := (p.features.filter fun e => e.1 != featureKey x) ++ [(featureKey x, x.d11.toNat)] }

theorem Port.withFeature_feature (x : Sqe) (p : Port) : (p.withFeature x).feature (featureKey x) 0 = x.d11.toNat := by
  have hnone : (p.features.filter fun e => e.1 != featureKey x).find? (fun e => e.1 == featureKey x) = none :=
    List.find?_eq_none.2 fun e he => by simpa using (List.mem_filter.1 he).2
  simp [Port.withFeature, Port.feature, List.find?_append, hnone]

/-- Registers and components of the power state shown. -/
theorem psShow_among {R : RegName → Prop} {P : Part → Prop} {M : Prop} (hr : R .PTM_MODE_STAT) (hp : P .ptm) : psShow.Only (Upd.among R P M) := by
  simp only [psShow, Only.ask, Only.ite, Only.seq, Only.setF, Only.upd, Only.when]
  exact fun _ => ⟨fun _ => ⟨fun _ => ⟨hr, hp⟩, fun _ => hr⟩, fun _ _ => hr⟩

theorem setFeatures_run {q : Nat} {x : Sqe} {s : State} (h : s.nvmeFetch q 0 = true) (hsup : featureSupported (x.d10.toNat % 256) = true)
    (hcache : x.d10.toNat % 256 ≠ 0x06 ∨ x.d11.toNat % 2 = 1) :
    (setFeaturesProg q x).run s = (when (x.d10.toNat % 256 == 0x02) psShow).run
      ((setPort q (Port.withFeature x)).run (s.afterAdmin (adminOf q x 0x09 kdAdmin))) := by
  have hset : (featureSupported (x.d10.toNat % 256) && !(x.d10.toNat % 256 == 0x06 && x.d11.toNat % 2 == 0)) = true := by
    rw [hsup]
    obtain hne | hodd := hcache
    · simp [hne]
    · simp [hodd]
  rw [setFeaturesProg, adminCmd_run h, Prog.run_when, if_pos hset, Prog.run_seq]
  generalize s.afterAdmin (adminOf q x 0x09 kdAdmin) = u
  rfl

theorem setFeatures_sets {q : Nat} {x : Sqe} {s : State} (h : s.nvmeFetch q 0 = true) (hsup : featureSupported (x.d10.toNat % 256) = true)
    (hcache : x.d10.toNat % 256 ≠ 0x06 ∨ x.d11.toNat % 2 = 1) :
    ChangesOnly [.CQE_STAT, .CQE_OVL_STAT, .PTM_MODE_STAT] fetchComps false s ((setFeaturesProg q x).run s) ∧
      HandedOver q (adminOf q x 0x09 kdAdmin) s ((setFeaturesProg q x).run s) ∧ (((setFeaturesProg q x).run s).port q).feature (featureKey x) 0 = x.d11.toNat := by
  obtain ⟨hsas, -⟩ := nvmeFetch_admin h
  obtain ⟨hchanges, -, hport⟩ := adminCmd_port h x 0x09 kdAdmin (f := Port.withFeature x) rfl
  have hptm : Part.ptm ∈ fetchComps := by decide
  have hshow : ∀ {R : RegName → Prop} {P : Part → Prop} {M : Prop}, R .PTM_MODE_STAT → P .ptm → (when (x.d10.toNat % 256 == 0x02) psShow).Only (Upd.among R P M) :=
    fun hr hp => (Only.when ..).2 fun _ => psShow_among hr hp
  have hcqe := (hshow (M := True) (R := fun _ => True) (P := (· ≠ Part.cqe)) trivial (by decide)).cqe ((setPort q (Port.withFeature x)).run (s.afterAdmin (adminOf q x 0x09 kdAdmin)))
  have hhif := (hshow (M := True) (R := fun _ => True) (P := (· ≠ Part.hif)) trivial (by decide)).hif ((setPort q (Port.withFeature x)).run (s.afterAdmin (adminOf q x 0x09 kdAdmin)))
  have hport' : ((setFeaturesProg q x).run s).port q = (s.port q).tookAdmin.withFeature x := by
    rw [setFeatures_run h hsup hcache, State.port, hhif, ← State.port, hport]
  refine ⟨?_, handedOver hsas (adminOf_sqid ..) ?_ (by rw [hport']; rfl), by rw [hport', Port.withFeature_feature]⟩
  · rw [setFeatures_run h hsup hcache]
    exact (hchanges.mono (by decide) (fun _ h => h) id).prog (hshow (by decide) hptm)
  · rw [setFeatures_run h hsup hcache, hcqe, setPort_cqe]

/-- An element appended to a list in which none was found. -/
theorem find_append_new {α : Type} {p : α → Bool} {l : List α} {x : α} (hnone : l.find? p = none) (hx : p x = true) : (l ++ [x]).find? p = some x := by
  rw [List.find?_append, hnone, List.find?_cons_of_pos hx]
  rfl

/-- The completion queue that a creation makes. -/
def createdCq (x : Sqe) : ComQ := { id := x.d10.toNat % 65536, size := x.d10.toNat / 65536 + 1, vector := x.d11.toNat / 65536, ien := x.d11.getLsbD 1 }

theorem createCq_run {q : Nat} {x : Sqe} {s : State} (h : s.nvmeFetch q 0 = true)
    (hok : queueOk (x.d10.toNat % 65536) (x.d10.toNat / 65536 + 1) (x.d11.toNat % 2) = true) (hv : x.d11.toNat / 65536 ≤ 128)
    (hnew : (s.port q).cq (x.d10.toNat % 65536) = none) :
    (createCqProg q x).run s = (setPort q fun p => { p with cqs := p.cqs ++ [createdCq x] }).run
      (s.afterAdmin (adminOf q x 0x05 kdAdmin)) := by
  rw [createCqProg, adminCmd_run h, Prog.run_ask, Prog.run_when, if_pos]
  · rfl
  · have hnew' : (s.port q).tookAdmin.cq (x.d10.toNat % 65536) = none := hnew
    rw [afterAdmin_adminPort h, hok, hnew']
    simpa using hv

/-- The submission queue that a creation makes. -/
def createdSq (x : Sqe) : SubQ := { id := x.d10.toNat % 65536, size := x.d10.toNat / 65536 + 1, cq := x.d11.toNat / 65536, prio := x.d11.toNat / 2 % 4 }

theorem createSq_run {q : Nat} {x : Sqe} {s : State} (h : s.nvmeFetch q 0 = true)
    (hok : queueOk (x.d10.toNat % 65536) (x.d10.toNat / 65536 + 1) (x.d11.toNat % 2) = true) (hcq : x.d11.toNat / 65536 ≠ 0)
    (hexists : ((s.port q).cq (x.d11.toNat / 65536)).isSome = true) (hnew : (s.port q).tookAdmin.sq (x.d10.toNat % 65536) = none) :
    (createSqProg q x).run s = (setPort q fun p => { p with sqs := p.sqs ++ [createdSq x] }).run
      (s.afterAdmin (adminOf q x 0x01 kdAdmin)) := by
  rw [createSqProg, adminCmd_run h, Prog.run_ask, Prog.run_when, if_pos]
  · rfl
  · have hexists' : ((s.port q).tookAdmin.cq (x.d11.toNat / 65536)).isSome = true := hexists
    rw [afterAdmin_adminPort h, hok, hnew, hexists']
    simpa using hcq

/-- Queue numbers of a creation start at 1. -/
theorem queueOk_pos {i size pc : Nat} (h : queueOk i size pc = true) : i ≠ 0 := by
  simp only [queueOk, Bool.and_eq_true, decide_eq_true_eq] at h
  omega

theorem deleteCq_run {q : Nat} {x : Sqe} {s : State} (h : s.nvmeFetch q 0 = true) (hi : x.d10.toNat % 65536 ≠ 0)
    (hfree : ∀ y ∈ (s.port q).sqs, y.cq ≠ x.d10.toNat % 65536) :
    (deleteCqProg q x).run s = (setPort q fun p => { p with cqs := p.cqs.filter fun y => y.id != x.d10.toNat % 65536 }).run
      (s.afterAdmin (adminOf q x 0x04 kdAdmin)) := by
  have hnone : ((s.port q).tookAdmin.sqs.any fun y => y.cq == x.d10.toNat % 65536) = false := by
    refine List.any_eq_false.2 fun y hy => ?_
    obtain ⟨z, hz, rfl⟩ := List.mem_map.1 hy
    have hzcq : (if z.id == 0 then z.taken else z).cq = z.cq := by split <;> rfl
    rw [hzcq]
    simpa using hfree z hz
  rw [deleteCqProg, adminCmd_run h, Prog.run_ask, Prog.run_when, if_pos]
  rw [afterAdmin_adminPort h, hnone]
  simpa using hi

end Sys2Proof.Machine
end

section
set_option Elab.async false
/-! Aborts, queue deletions and the obligation on admin commands (R309, R338, R340). -/
namespace Sys2Proof.Machine

/-! Completion queues that a program leaves as they are. -/

/-- An update that keeps every completion queue. -/
def Upd.keepsCqs : Upd → Prop
  | .hif f => ∀ x q, (Sparse.get {} (f x).ports q : Port).cqs = (Sparse.get {} x.ports q : Port).cqs
  | _ => True

theorem Prog.Only.cqsKept {p : Prog} (hp : p.Only Upd.keepsCqs) (s : State) (q : Nat) : ((p.run s).port q).cqs = (s.port q).cqs := by
  refine Prog.Only.rel (fun s t => (t.port q).cqs = (s.port q).cqs) (fun _ => rfl) (fun _ _ _ h k => k.trans h) (fun u s hu => ?_) hp s
  cases u with
  | hif f => exact hu s.hif q
  | _ => rfl

theorem Upd.keepsCqs_of_spares {u : Upd} (h : u.sparesPart .hif) : u.keepsCqs := by
  cases u with
  | hif f => exact absurd rfl h
  | _ => trivial

theorem setPort_keepsCqs (q : Nat) {f : Port → Port} (h : ∀ p, (f p).cqs = p.cqs) : (setPort q f).Only Upd.keepsCqs := fun x q' => by
  by_cases hq : q' = q
  · subst hq
    rw [show (Sparse.get {} (Sparse.put {} x.ports q' (f (Sparse.get {} x.ports q'))) q' : Port) = f (Sparse.get {} x.ports q') from Sparse.get_put_self _ _ _ _]
    exact h _
  · rw [show (Sparse.get {} (Sparse.put {} x.ports q (f (Sparse.get {} x.ports q))) q' : Port) = Sparse.get {} x.ports q' from Sparse.get_put_ne _ _ _ _ _ _ hq]

theorem dropCmd_keepsCqs (c : Cmd) : (dropCmd c).Only Upd.keepsCqs := by
  have hshow : cqeShow.Only Upd.keepsCqs := Prog.Only.mono (fun _ => Upd.keepsCqs_of_spares) (cqeShow_among (by simp) (by decide))
  have hsweep : slotsSweep.Only Upd.keepsCqs := Prog.Only.mono (fun _ => Upd.keepsCqs_of_spares) (slotsSweep_among trivial (by decide))
  simp only [dropCmd, Only.ask, Only.cons, Only.nil, Only.when, Only.upd, and_true]
  exact fun _ => ⟨trivial, trivial, hsweep, fun _ => setPort_keepsCqs _ fun _ => rfl, hshow⟩

/-- A command that goes sends nothing. -/
theorem dropCmd_out (c : Cmd) (s : State) : ((dropCmd c).run s).out = s.out := by
  refine Prog.Only.out ?_ s
  have hshow : cqeShow.Only (Upd.sparesPart .out) := cqeShow_among (by simp) (by decide)
  have hsweep : slotsSweep.Only (Upd.sparesPart .out) := slotsSweep_among trivial (by decide)
  have hne : ∀ {p : Part}, p ≠ .out → p ≠ .out := id
  simp only [dropCmd, setPort, Only.ask, Only.cons, Only.nil, Only.when, Only.upd, and_true]
  exact fun _ => ⟨hne (by decide : Part.cqe ≠ .out), hne (by decide : Part.bmu ≠ .out), hsweep, fun _ => hne (by decide : Part.hif ≠ .out), hshow⟩

theorem setCq_cq_other {q i j : Nat} (hj : j ≠ i) {f : ComQ → ComQ} (hf : ∀ x, (f x).id = x.id) (s : State) :
    (((setCq q i f).run s).port q).cq j = (s.port q).cq j := by
  rw [setCq, setPort_port_self]
  exact find_map_other ComQ.id hj hf _

theorem cqInterrupt_cq_other {q i j : Nat} (hj : j ≠ i) (s : State) : (((cqInterrupt q i).run s).port q).cq j = (s.port q).cq j := by
  rw [cqInterrupt, Prog.run_ask, Prog.run_seq, setCq_cq_other (f := fun c => { c with coalesced := 0 }) hj fun _ => rfl]
  split
  · rw [Prog.run_when]
    split <;> rfl
  · rfl

theorem cqPost_cq_other {q i j : Nat} (hj : j ≠ i) (o : Out) (err : Bool) (s : State) : (((cqPost q i o err).run s).port q).cq j = (s.port q).cq j := by
  rw [cqPost, Prog.run_ask]
  split
  · rfl
  · next c hc =>
    have hset : ∀ t, (((setCq q i fun x => x.posted s.ptm.ticks).run ((emit o).run t)).port q).cq j = (t.port q).cq j := fun t =>
      setCq_cq_other (f := fun x => x.posted s.ptm.ticks) hj (fun _ => rfl) _
    simp only [Prog.run_all_cons, Prog.run_all_nil]
    split
    · rw [Prog.run_when]
      split
      · rw [cqInterrupt_cq_other hj]
        exact hset s
      · exact hset s
    · rw [cqInterrupt_cq_other hj]
      exact hset s

/-! The completion of a command whose queue has room. -/

/-- A command of NVMe's that is reported: it goes, and its completion is posted. -/
theorem complete_run {c : Cmd} {s : State} {x : SubQ} {y : ComQ} (hsilent : c.silent = false) (hsas : s.isSas = false)
    (hsq : (s.port c.port).sq c.sqid = some x) (hcq : (s.port c.port).cq x.cq = some y) (hroom : y.full = false) (sct sc : Nat) (dnr : Bool) (dw0 : Nat) :
    (complete c sct sc dnr dw0).run s =
      (cqPost c.port x.cq (.completion c.port c.sqid c.cid sct sc dnr dw0) (sct != 0 || sc != 0)).run ((dropCmd c).run s) := by
  have hcq' : (((dropCmd c).run s).port c.port).cq x.cq = some y := by rw [Port.cq, (dropCmd_keepsCqs c).cqsKept]; exact hcq
  simp only [complete, Prog.run_ask, Prog.run_seq, hsilent, hsas, hsq, Bool.false_eq_true, if_false, cqSend, hcq', hroom]

section
variable {c : Cmd} {s : State} {x : SubQ} {y : ComQ} (hsilent : c.silent = false) (hsas : s.isSas = false)
  (hsq : (s.port c.port).sq c.sqid = some x) (hcq : (s.port c.port).cq x.cq = some y) (hroom : y.full = false)
include hsilent hsas hsq hcq hroom

/-- Its completion goes out, and without interrupts nothing else. -/
theorem complete_out (sct sc : Nat) (dnr : Bool) (dw0 : Nat) :
    .completion c.port c.sqid c.cid sct sc dnr dw0 ∈ ((complete c sct sc dnr dw0).run s).out ∧
      (y.ien = false → ((complete c sct sc dnr dw0).run s).out = .completion c.port c.sqid c.cid sct sc dnr dw0 :: s.out) := by
  have hcq' : (((dropCmd c).run s).port c.port).cq x.cq = some y := by rw [Port.cq, (dropCmd_keepsCqs c).cqsKept]; exact hcq
  rw [complete_run hsilent hsas hsq hcq hroom]
  obtain ⟨hmem, hall⟩ := cqPost_out hcq' (.completion c.port c.sqid c.cid sct sc dnr dw0) (sct != 0 || sc != 0)
  exact ⟨hmem, fun hien => (hall hien).trans (congrArg _ (dropCmd_out c s))⟩

/-- The controller's other completion queues stay. -/
theorem complete_cq_other {j : Nat} (hj : j ≠ x.cq) (sct sc : Nat) (dnr : Bool) (dw0 : Nat) :
    (((complete c sct sc dnr dw0).run s).port c.port).cq j = (s.port c.port).cq j := by
  rw [complete_run hsilent hsas hsq hcq hroom, cqPost_cq_other hj, Port.cq, (dropCmd_keepsCqs c).cqsKept]
  rfl
end

/-! Aborts. -/

/-- A command as it is held once fetched. -/
def fetchedCmd (c : Cmd) (s : State) : Cmd := { c with ctag := s.newTag, seq := s.cqe.nextSeq, time := s.time }

theorem fetchedCmd_ctag (c : Cmd) (s : State) : (fetchedCmd c s).ctag = s.newTag := by simp only [fetchedCmd]

theorem State.afterFetch_held (c : Cmd) {s : State} (h : s.tagFree = true) : (s.afterFetch c).cmd s.newTag = some (fetchedCmd c s) := by
  rw [State.cmd, s.afterFetch_cmds]
  refine List.find?_append.trans ?_
  rw [List.find?_eq_none.2 fun d hd => by simpa using newTag_free h d hd, Option.none_or, List.find?_cons_of_pos (by simp)]
  rfl

/-- The command that an abort names: another one held from the queue and under the identifier given. -/
def abortNames (q : Nat) (x : Sqe) (t : Nat) (c : Cmd) : Bool :=
  c.port == q && c.sqid == x.d10.toNat % 65536 && c.cid == x.d10.toNat / 65536 && c.ctag != t

/-- The abort itself completes with Dword 0. -/
def abortEnd (t d : Nat) : Prog := .ask fun s => match s.cmd t with
  | some c => complete c 0 0 false d
  | none => .skip

theorem abortEnd_run {t d : Nat} {s : State} {c : Cmd} (h : s.cmd t = some c) : (abortEnd t d).run s = (complete c 0 0 false d).run s := by
  rw [abortEnd, Prog.run_ask, h]

/-- An abort whose command is not held. -/
theorem abort_misses {q : Nat} {x : Sqe} {s : State} (h : s.nvmeFetch q 0 = true)
    (hnone : (s.afterFetch (adminOf q x 0x08 kdAdmin)).cqe.cmds.find? (abortNames q x s.newTag) = none) :
    (abortProg q x).run s = (abortEnd s.newTag 1).run (s.afterFetch (adminOf q x 0x08 kdAdmin)) := by
  rw [abortProg, Prog.run_whenS, if_pos h, fetchCmd_run, Prog.run_ask]
  generalize hu : s.afterFetch (adminOf q x 0x08 kdAdmin) = u at hnone
  rw [show s.afterFetch { sqeCmd q 0 x 0x08 kdAdmin with n := 0, lba := 0, fua := false } = u from hu]
  simp only [show u.cqe.cmds.find? (fun c => c.port == q && c.sqid == x.d10.toNat % 65536 && c.cid == x.d10.toNat / 65536 && c.ctag != s.newTag) = none from hnone]
  rfl

/-- An event request that an abort catches waits no longer. -/
def Port.withoutAer (t : Nat) (p : Port) : Port := { p with aers := p.aers.filter fun e => e.1 != t }

/-- An abort that catches its command. -/
theorem abort_catches {q : Nat} {x : Sqe} {s : State} {d : Cmd} (h : s.nvmeFetch q 0 = true)
    (hsome : (s.afterFetch (adminOf q x 0x08 kdAdmin)).cqe.cmds.find? (abortNames q x s.newTag) = some d) (hcatch : ∀ b, d.catchable b = true) :
    (abortProg q x).run s =
      (abortEnd s.newTag 0).run ((catchCmd d 0x07).run ((setPort q (Port.withoutAer d.ctag)).run (s.afterFetch (adminOf q x 0x08 kdAdmin)))) := by
  rw [abortProg, Prog.run_whenS, if_pos h, fetchCmd_run, Prog.run_ask]
  generalize hu : s.afterFetch (adminOf q x 0x08 kdAdmin) = u at hsome
  rw [show s.afterFetch { sqeCmd q 0 x 0x08 kdAdmin with n := 0, lba := 0, fua := false } = u from hu]
  simp only [show u.cqe.cmds.find? (fun c => c.port == q && c.sqid == x.d10.toNat % 65536 && c.cid == x.d10.toNat / 65536 && c.ctag != s.newTag) = some d from hsome,
    hcatch, if_true, Prog.run_all_cons, Prog.run_all_nil]
  rfl

theorem catchCmd_onCmds {R : RegName → Prop} {P : Part → Prop} (hr : ∀ r ∈ resolveRegs, R r) (hp : ∀ q ∈ resolveComps, P q) (c : Cmd) (sc : Nat) :
    (catchCmd c sc).Only (Upd.onCmds R P True) := by
  have hr' : ∀ r ∈ doneRegs, R r := fun r h => hr r ((by decide : doneRegs ⊆ resolveRegs) h)
  have hp' : ∀ q ∈ doneComps, P q := fun q h => hp q (List.mem_append_left _ h)
  simp only [catchCmd, Only.cons, Only.nil, and_true]
  exact ⟨complete_onCmds hr' hp' c 0 sc false 0, flushSweep_onCmds hr' hp', resolveAll_onCmds hr hp⟩

/-- After the fetch of an abort nothing else is fetched, and the queues that are not being deleted stay. -/
theorem abort_keeps {q : Nat} {x : Sqe} {s : State} (h : s.nvmeFetch q 0 = true) :
    CqeKept (s.afterFetch (adminOf q x 0x08 kdAdmin)).cqe ((abortProg q x).run s).cqe ∧
      PortsKept (s.afterFetch (adminOf q x 0x08 kdAdmin)).hif ((abortProg q x).run s).hif := by
  suffices hbody : ∃ p : Prog, (abortProg q x).run s = p.run (s.afterFetch (adminOf q x 0x08 kdAdmin)) ∧ p.Only (Upd.onCmds (fun _ => True) (fun _ => True) True) by
    obtain ⟨p, hrun, hp⟩ := hbody
    rw [hrun]
    exact ⟨hp.cmds_of_cmds.cqeKept _, hp.ports_of_cmds.portsKept _⟩
  rw [abortProg, Prog.run_whenS, if_pos h, fetchCmd_run]
  refine ⟨_, rfl, ?_⟩
  have hend : ∀ d, (abortEnd s.newTag d).Only (Upd.onCmds (fun _ => True) (fun _ => True) True) := fun d u => by
    dsimp only
    split
    · exact complete_onCmds (fun _ _ => trivial) (fun _ _ => trivial) _ _ _ _ _
    · trivial
  rw [Only.ask]
  intro u
  dsimp only
  split
  · rw [Only.ite]
    refine ⟨fun _ => ?_, fun _ => hend 1⟩
    simp only [Only.cons, Only.nil, and_true]
    exact ⟨setPort_onCmds trivial q fun _ => ⟨rfl, fun _ _ he _ => he⟩, catchCmd_onCmds (fun _ _ => trivial) (fun _ _ => trivial) _ _, hend 0⟩
  · exact hend 1

end Sys2Proof.Machine
end

section
set_option Elab.async false
/-! The obligation on admin commands: queue deletions, event requests, and each clause from its command's effect. -/
namespace Sys2Proof.Machine

/-! The deletion of a submission queue. -/

/-- A queue that is being deleted by a command. -/
def SubQ.deletedBy (t : Nat) (y : SubQ) : SubQ := { y with deleting := true, deleter := t }

/-- The commands of a queue that its deletion aborts. -/
def deletionCatches (q i : Nat) (s : State) : List Cmd := s.cqe.cmds.filter fun c => c.port == q && c.sqid == i && c.catchable false

theorem deleteSq_run {q : Nat} {x : Sqe} {s : State} (h : s.nvmeFetch q 0 = true) (hi : x.d10.toNat % 65536 ≠ 0) :
    (deleteSqProg q x).run s = (setSq q (x.d10.toNat % 65536) (SubQ.deletedBy s.newTag)).run
      ((each (deletionCatches q (x.d10.toNat % 65536) (s.afterAdmin (adminOf q x 0x00 kdAdmin))) fun c => catchCmd c 0x08).run
        (s.afterAdmin (adminOf q x 0x00 kdAdmin))) := by
  rw [deleteSqProg, adminCmd_run h, Prog.run_ask, Prog.run_when, if_pos (by simpa using hi), Prog.run_seq]
  generalize s.afterAdmin (adminOf q x 0x00 kdAdmin) = u
  rfl

theorem setSq_cqe (q i : Nat) (f : SubQ → SubQ) (s : State) : ((setSq q i f).run s).cqe = s.cqe := rfl

theorem setSq_sq_other {q i j : Nat} (hj : j ≠ i) {f : SubQ → SubQ} (hf : ∀ x, (f x).id = x.id) (s : State) :
    (((setSq q i f).run s).port q).sq j = (s.port q).sq j := by
  rw [setSq, setPort_port_self]
  exact find_map_other SubQ.id hj hf _

/-- A command of the admin queue is not aborted by the deletion of another. -/
theorem deletionCatches_ne {q i : Nat} {s : State} {c d : Cmd} (hi : i ≠ 0) (hc : c ∈ deletionCatches q i s) (hd : d.sqid = 0) : c ≠ d := by
  obtain ⟨-, hsel⟩ := List.mem_filter.1 hc
  simp only [Bool.and_eq_true, beq_iff_eq] at hsel
  obtain ⟨⟨-, hsq⟩, -⟩ := hsel
  rintro rfl
  exact hi (hsq.symm.trans hd)

theorem heldCmd_sqid (c : Cmd) (s : State) : (heldCmd c s).sqid = c.sqid := by simp only [heldCmd]
theorem heldCmd_kind (c : Cmd) (s : State) : (heldCmd c s).kind = c.kind := by simp only [heldCmd]

/-- A deletion marks its queue, and waits for firmware with the aborts done (R340). -/
theorem deleteSq_marks {q : Nat} {x : Sqe} {s : State} (h : s.nvmeFetch q 0 = true) (hi : x.d10.toNat % 65536 ≠ 0)
    (hsq : ((s.port q).sq (x.d10.toNat % 65536)).map (·.deleting) = some false) (htag : s.tagFree = true) :
    ((((deleteSqProg q x).run s).port q).sq (x.d10.toNat % 65536)).map (fun y => (y.deleting, y.deleter)) = some (true, s.newTag) ∧
      HandedOver q (adminOf q x 0x00 kdAdmin) s ((deleteSqProg q x).run s) := by
  obtain ⟨hsas, a, -, ha, hadel, -⟩ := nvmeFetch_admin h
  obtain ⟨y, hy, hydel⟩ := Option.map_eq_some_iff.1 hsq
  have hport := afterAdmin_adminPort h x 0x00 kdAdmin
  have hfetched := afterAdmin_fetched hsas (adminOf_sqid q x 0x00 kdAdmin)
  have hwait := afterAdmin_waiting (adminOf q x 0x00 kdAdmin) htag
  rw [deleteSq_run h hi]
  generalize s.afterAdmin (adminOf q x 0x00 kdAdmin) = u at hport hfetched hwait
  have haborts : (each (deletionCatches q (x.d10.toNat % 65536) u) fun c => catchCmd c 0x08).Only (Upd.onCmds (fun _ => True) (fun _ => True) True) :=
    (Only.each ..).2 fun c _ => catchCmd_onCmds (fun _ _ => trivial) (fun _ _ => trivial) c 0x08
  have hwait' : Waiting (heldCmd (adminOf q x 0x00 kdAdmin) s) ((each (deletionCatches q (x.d10.toNat % 65536) u) fun c => catchCmd c 0x08).run u) := by
    refine each_keeps (Q := Waiting _) (fun c hc s' hs' => hs'.after_catchCmd ?_ (heldCmd_kind _ s) 0x08) hwait
    exact hwait.ctag_ne (List.mem_filter.1 hc).1 (deletionCatches_ne hi hc (heldCmd_sqid _ s))
  have hports := haborts.ports_of_cmds.portsKept u
  have hseq := (haborts.cmds_of_cmds.cqeKept u).2
  generalize (each (deletionCatches q (x.d10.toNat % 65536) u) fun c => catchCmd c 0x08).run u = v at hwait' hports hseq
  have hysq : (v.port q).sq (x.d10.toNat % 65536) = some y := by
    refine (hports q).2 _ y ?_ hydel
    show (u.port q).sq _ = _
    rw [hport, Port.tookAdmin_sq_other _ hi, hy]
  have hasq : (v.port q).sq 0 = some a.taken := by
    refine (hports q).2 _ a.taken ?_ hadel
    show (u.port q).sq _ = _
    rw [hport, Port.tookAdmin_sq, ha, Option.map_some]
  obtain ⟨hmem, hhand, -⟩ := hwait'
  rw [heldCmd_ctag] at hhand
  rw [HandedOver, Fetched, setSq_cqe, hseq]
  refine ⟨?_, ⟨hmem, hfetched.2⟩, hhand, tookEntry_of_head ?_⟩
  · rw [setSq_sq (f := SubQ.deletedBy s.newTag) fun _ => rfl, hysq]
    simp only [Option.map_some, SubQ.deletedBy]
  · rw [setSq_sq_other (f := SubQ.deletedBy s.newTag) hi.symm fun _ => rfl, hasq, Port.tookAdmin_sq, ha]
    rfl

/-- A port of which one submission queue is marked. -/
def Port.marked (i t : Nat) (p : Port) : Port := { p with sqs := p.sqs.map fun y => if y.id == i then y.deletedBy t else y }

theorem Port.marked_sq (i t : Nat) (p : Port) : (p.marked i t).sq i = (p.sq i).map (SubQ.deletedBy t) := find_map_self SubQ.id i (f := SubQ.deletedBy t) (fun _ => rfl) p.sqs
theorem Port.marked_sq_other {i j : Nat} (hj : j ≠ i) (t : Nat) (p : Port) : (p.marked i t).sq j = p.sq j := find_map_other SubQ.id hj (f := SubQ.deletedBy t) (fun _ => rfl) p.sqs

/-- With no command held the deletion only marks its queue. -/
theorem deleteSq_alone {q : Nat} {x : Sqe} {s : State} (h : s.nvmeFetch q 0 = true) (hi : x.d10.toNat % 65536 ≠ 0) (hcmds : s.cqe.cmds = []) :
    ChangesOnly fetchRegs fetchComps false s ((deleteSqProg q x).run s) ∧ HandedOver q (adminOf q x 0x00 kdAdmin) s ((deleteSqProg q x).run s) ∧
      ((((deleteSqProg q x).run s).port q).sq (x.d10.toNat % 65536)).map (fun y => (y.deleting, y.deleter)) =
        ((s.port q).sq (x.d10.toNat % 65536)).map fun _ => (true, s.newTag) := by
  have hnone : deletionCatches q (x.d10.toNat % 65536) (s.afterAdmin (adminOf q x 0x00 kdAdmin)) = [] := by
    refine List.filter_eq_nil_iff.2 fun c hc hsel => ?_
    have hc' := hc
    rw [afterAdmin_cmds, hcmds] at hc'
    exact deletionCatches_ne hi (List.mem_filter.2 ⟨hc, hsel⟩) (heldCmd_sqid _ s) (List.mem_singleton.1 hc')
  obtain ⟨hchanges, hheld, hport⟩ := adminCmd_port h x 0x00 kdAdmin (f := Port.marked (x.d10.toNat % 65536) s.newTag) (by rw [Port.marked_sq_other hi.symm])
  have hset : setSq q (x.d10.toNat % 65536) (SubQ.deletedBy s.newTag) = setPort q (Port.marked (x.d10.toNat % 65536) s.newTag) := rfl
  rw [deleteSq_run h hi, hnone, Prog.run_each_nil, hset]
  refine ⟨hchanges, hheld, ?_⟩
  rw [hport, Port.marked_sq, Port.tookAdmin_sq_other _ hi, Option.map_map]
  simp only [Function.comp_def, SubQ.deletedBy]

/-! Aborts. -/

theorem ChangesOnly.isSas {rs : List RegName} {ps : List Part} {m : Bool} {s t : State} (h : ChangesOnly rs ps m s t) (hr : .HIF_CFG ∉ rs) : t.isSas = s.isSas := by
  rw [State.isSas, State.isSas, h.fieldsKept (fs := [HIF_CFG.PROTO]) (by simpa [HIF_CFG.PROTO] using hr) HIF_CFG.PROTO (List.mem_singleton.2 rfl) 0]

/-- Whatever an abort names, its own entry is taken. -/
theorem abort_took {q : Nat} (x : Sqe) {s : State} (h : s.nvmeFetch q 0 = true) :
    ((abortProg q x).run s).cqe.nextSeq = (s.cqe.nextSeq + 1) % 2 ^ 32 ∧ TookEntry q 0 s ((abortProg q x).run s) := by
  obtain ⟨hsas, -⟩ := nvmeFetch_admin h
  obtain ⟨⟨-, hseq⟩, hports⟩ := abort_keeps (x := x) h
  have hport := afterFetch_port hsas (adminOf_sqid q x 0x08 kdAdmin)
  rw [adminOf_port] at hport
  refine ⟨?_, tookEntry_of_kept h hport hports⟩
  rw [hseq, afterFetch_nextSeq hsas (adminOf_sqid q x 0x08 kdAdmin)]

/-- The abort as it is held. -/
def abortCmd (q : Nat) (x : Sqe) (s : State) : Cmd := fetchedCmd (adminOf q x 0x08 kdAdmin) s

theorem abortCmd_ctag (q : Nat) (x : Sqe) (s : State) : (abortCmd q x s).ctag = s.newTag := fetchedCmd_ctag ..
theorem abortCmd_port (q : Nat) (x : Sqe) (s : State) : (abortCmd q x s).port = q := by simp only [abortCmd, fetchedCmd, adminOf, sqeCmd]
theorem abortCmd_sqid (q : Nat) (x : Sqe) (s : State) : (abortCmd q x s).sqid = 0 := by simp only [abortCmd, fetchedCmd, adminOf, sqeCmd]
theorem abortCmd_cid (q : Nat) (x : Sqe) (s : State) : (abortCmd q x s).cid = x.cid.toNat := by simp only [abortCmd, fetchedCmd, adminOf, sqeCmd]
theorem abortCmd_silent (q : Nat) (x : Sqe) (s : State) : (abortCmd q x s).silent = false := by simp only [abortCmd, fetchedCmd, adminOf, sqeCmd]
theorem abortCmd_kind (q : Nat) (x : Sqe) (s : State) : (abortCmd q x s).kind = kdAdmin := by simp only [abortCmd, fetchedCmd, adminOf, sqeCmd]
theorem abortCmd_lbas (q : Nat) (x : Sqe) (s : State) : (abortCmd q x s).lbas = [] := by simp only [abortCmd, fetchedCmd, adminOf, sqeCmd]

theorem afterFetch_abort_cmds (q : Nat) (x : Sqe) (s : State) : (s.afterFetch (adminOf q x 0x08 kdAdmin)).cqe.cmds = s.cqe.cmds ++ [abortCmd q x s] := by
  rw [s.afterFetch_cmds, abortCmd, fetchedCmd]

/-- Of a controller whose abort has been taken. -/
theorem afterFetch_abort_port {q : Nat} (x : Sqe) {s : State} (h : s.nvmeFetch q 0 = true) :
    (s.afterFetch (adminOf q x 0x08 kdAdmin)).port q = (s.port q).tookAdmin := by
  obtain ⟨hsas, -⟩ := nvmeFetch_admin h
  have hport := afterFetch_port hsas (adminOf_sqid q x 0x08 kdAdmin)
  rwa [adminOf_port] at hport

/-- The abort's own completion. -/
theorem abortEnd_posts {q : Nat} {x : Sqe} {s u : State} {a : SubQ} {y : ComQ} (hheld : u.cmd s.newTag = some (abortCmd q x s)) (hsas : u.isSas = false)
    (hsq : (u.port q).sq 0 = some a) (hcq : (u.port q).cq a.cq = some y) (hroom : y.full = false) (d : Nat) :
    .completion q 0 x.cid.toNat 0 0 false d ∈ ((abortEnd s.newTag d).run u).out ∧
      (y.ien = false → ((abortEnd s.newTag d).run u).out = .completion q 0 x.cid.toNat 0 0 false d :: u.out) ∧
      ((abortEnd s.newTag d).run u).cqe.cmds = u.cqe.cmds.filter (fun c => c.ctag != s.newTag) ∧
      ChangesOnly doneRegs doneComps false u ((abortEnd s.newTag d).run u) := by
  have hsq' : (u.port (abortCmd q x s).port).sq (abortCmd q x s).sqid = some a := by rw [abortCmd_port, abortCmd_sqid, hsq]
  have hcq' : (u.port (abortCmd q x s).port).cq a.cq = some y := by rw [abortCmd_port, hcq]
  have hout := complete_out (abortCmd_silent q x s) hsas hsq' hcq' hroom 0 0 false d
  rw [abortCmd_port, abortCmd_sqid, abortCmd_cid] at hout
  rw [abortEnd_run hheld]
  refine ⟨hout.1, hout.2, ?_, ?_⟩
  · rw [complete_cqe, abortCmd_ctag, CqeState.without]
  · exact (complete_onCmds (R := (· ∈ doneRegs)) (P := (· ∈ doneComps)) (fun _ h => h) (fun _ h => h) _ 0 0 false d).among_of_cmds.changesOnly u

/-- A command that the abort could name but that is not held. -/
theorem abortNames_none {q : Nat} {x : Sqe} {s : State}
    (h : ∀ c ∈ s.cqe.cmds, c.port = q → c.sqid = x.d10.toNat % 65536 → c.cid ≠ x.d10.toNat / 65536) :
    (s.afterFetch (adminOf q x 0x08 kdAdmin)).cqe.cmds.find? (abortNames q x s.newTag) = none := by
  rw [afterFetch_abort_cmds, List.find?_eq_none]
  intro c hc
  obtain hc | hc := List.mem_append.1 hc
  · simp only [abortNames, Bool.and_eq_true, beq_iff_eq, not_and]
    exact fun hname => absurd hname.2 (h c hc hname.1.1 hname.1.2)
  · obtain rfl := List.mem_singleton.1 hc
    simp [abortNames, abortCmd_ctag]

/-- The commands held before an abort, once it has gone. -/
theorem abort_filter {q : Nat} (x : Sqe) {s : State} (h : s.tagFree = true) : (s.cqe.cmds ++ [abortCmd q x s]).filter (fun c => c.ctag != s.newTag) = s.cqe.cmds := by
  rw [List.filter_append, List.filter_eq_self.2 fun c hc => by simpa using newTag_free h c hc, List.filter_eq_nil_iff.2 fun c hc => ?_, List.append_nil]
  rw [List.mem_singleton.1 hc, abortCmd_ctag]
  simp

/-- An abort of a command not held: it completes with Dword 0 at 1. -/
theorem abort_missed {q : Nat} {x : Sqe} {s : State} {a : SubQ} {y : ComQ} (h : s.nvmeFetch q 0 = true) (htag : s.tagFree = true)
    (ha : (s.port q).sq 0 = some a) (hcq : (s.port q).cq a.cq = some y) (hroom : y.full = false)
    (hnone : ∀ c ∈ s.cqe.cmds, c.port = q → c.sqid = x.d10.toNat % 65536 → c.cid ≠ x.d10.toNat / 65536) :
    .completion q 0 x.cid.toNat 0 0 false 1 ∈ ((abortProg q x).run s).out ∧
      (y.ien = false → ((abortProg q x).run s).out = .completion q 0 x.cid.toNat 0 0 false 1 :: s.out) ∧ ((abortProg q x).run s).cqe.cmds = s.cqe.cmds ∧
      ChangesOnly doneRegs (.free :: doneComps) false s ((abortProg q x).run s) := by
  obtain ⟨hsas, -⟩ := nvmeFetch_admin h
  have hchanges := afterFetch_changes (adminOf q x 0x08 kdAdmin) s
  have hport := afterFetch_abort_port x h
  have hcmds := afterFetch_abort_cmds q x s
  have hheld := State.afterFetch_held (adminOf q x 0x08 kdAdmin) htag
  rw [abort_misses h (abortNames_none hnone)]
  generalize s.afterFetch (adminOf q x 0x08 kdAdmin) = u at hchanges hport hcmds hheld
  have hsas' : u.isSas = false := (hchanges.isSas (by decide)).trans hsas
  have hsq' : (u.port q).sq 0 = some a.taken := by rw [hport, Port.tookAdmin_sq, ha, Option.map_some]
  have hcq' : (u.port q).cq a.taken.cq = some y := by rw [hport]; exact hcq
  have hout : u.out = s.out := hchanges.2.1 .out (by decide)
  obtain ⟨hmem, hall, hleft, hdone⟩ := abortEnd_posts (q := q) (x := x) hheld hsas' hsq' hcq' hroom 1
  refine ⟨hmem, fun hien => (hall hien).trans (by rw [hout]), ?_, ?_⟩
  · rw [hleft, hcmds, abort_filter x htag]
  · exact (hchanges.mono (by decide) (by decide) id).trans (hdone.mono (fun _ h => h) (by decide) id)

/-- An abort of the one command held, a write whose data has not arrived: the write completes as aborted, then the abort (R338). -/
theorem abort_caught {q : Nat} {x : Sqe} {s : State} {a b : SubQ} {y z : ComQ} {d : Cmd} (h : s.nvmeFetch q 0 = true) (hcmds : s.cqe.cmds = [d])
    (hwrites : d.writes = true) (harrived : d.arrived = false) (hsilent : d.silent = false) (hadm : d.adm = false) (hdport : d.port = q)
    (hdsq : d.sqid = x.d10.toNat % 65536) (hdcid : d.cid = x.d10.toNat / 65536) (ha : (s.port q).sq 0 = some a) (hb : (s.port q).sq d.sqid = some b)
    (hab : a.cq ≠ b.cq) (hcqa : (s.port q).cq a.cq = some y) (hcqb : (s.port q).cq b.cq = some z) (hyroom : y.full = false) (hzroom : z.full = false)
    (hyien : y.ien = false) (hzien : z.ien = false) :
    ((abortProg q x).run s).out = .completion q 0 x.cid.toNat 0 0 false 0 :: .completion q d.sqid d.cid 0 0x07 false 0 :: s.out ∧
      ((abortProg q x).run s).cqe.cmds = [] ∧ ChangesOnly doneRegs (.free :: doneComps) false s ((abortProg q x).run s) := by
  obtain ⟨hsas, a', -, ha', hadel, -⟩ := nvmeFetch_admin h
  obtain rfl : a' = a := Option.some.inj (ha'.symm.trans ha)
  have htag : s.tagFree = true := tagFree_of_short (by rw [hcmds]; rfl)
  have hdtag : d.ctag ≠ s.newTag := newTag_free htag d (by rw [hcmds]; exact List.mem_singleton.2 rfl)
  have hd0 : d.sqid ≠ 0 := by
    intro he
    rw [he, ha] at hb
    exact hab (congrArg SubQ.cq (Option.some.inj hb))
  have hchanges := afterFetch_changes (adminOf q x 0x08 kdAdmin) s
  have hport := afterFetch_abort_port x h
  have hucmds := afterFetch_abort_cmds q x s
  have hfound : (s.afterFetch (adminOf q x 0x08 kdAdmin)).cqe.cmds.find? (abortNames q x s.newTag) = some d := by
    rw [hucmds, hcmds]
    exact List.find?_cons_of_pos (by simp [abortNames, hdport, hdsq, hdcid, hdtag])
  have hcatch : ∀ e, d.catchable e = true := fun e => by
    have hread : d.kind ≠ kdRead := by
      intro he
      simp [Cmd.writes, he] at hwrites
      exact absurd hwrites (by decide)
    simp [Cmd.catchable, hsilent, hadm, hwrites, harrived, hread]
  rw [abort_catches h hfound hcatch]
  generalize s.afterFetch (adminOf q x 0x08 kdAdmin) = u at hchanges hport hucmds
  have huport : ((setPort q (Port.withoutAer d.ctag)).run u).port q = (s.port q).tookAdmin.withoutAer d.ctag := by rw [setPort_port_self, hport]
  have hucmds' : ((setPort q (Port.withoutAer d.ctag)).run u).cqe.cmds = [d, abortCmd q x s] := by rw [setPort_cqe, hucmds, hcmds]; rfl
  have hchanges' : ChangesOnly fetchRegs fetchComps false s ((setPort q (Port.withoutAer d.ctag)).run u) := hchanges.prog (by exact (by decide : Part.hif ∈ fetchComps))
  generalize (setPort q (Port.withoutAer d.ctag)).run u = v at huport hucmds' hchanges'
  have hvsas : v.isSas = false := (hchanges'.isSas (by decide)).trans hsas
  have hvb : (v.port d.port).sq d.sqid = some b := by
    rw [hdport, huport, ← hb]
    exact Port.tookAdmin_sq_other _ hd0
  have hva : (v.port q).sq 0 = some a'.taken := by
    rw [huport, ← Option.map_some, ← ha]
    exact Port.tookAdmin_sq _
  have hvcqb : (v.port d.port).cq b.cq = some z := by rw [hdport, huport]; exact hcqb
  have hvcqa : (v.port q).cq a'.cq = some y := by rw [huport]; exact hcqa
  have hvout : v.out = s.out := hchanges'.2.1 .out (by decide)
  have hout := (complete_out hsilent hvsas hvb hvcqb hzroom 0 0x07 false 0).2 hzien
  have hother := complete_cq_other hsilent hvsas hvb hvcqb hzroom hab 0 0x07 false 0
  have hwcmds : ((complete d 0 0x07 false 0).run v).cqe.cmds = [abortCmd q x s] := by
    rw [complete_cqe, CqeState.without, hucmds']
    simp [abortCmd_ctag, hdtag.symm]
  have hdone := complete_onCmds (R := (· ∈ doneRegs)) (P := (· ∈ doneComps)) (M := false = true) (fun _ h => h) (fun _ h => h) d 0 0x07 false 0
  have hwchanges := hdone.among_of_cmds.changesOnly v
  have hwports := hdone.ports_of_cmds.portsKept v
  rw [hdport, hvout] at hout
  rw [hdport, hvcqa] at hother
  rw [catchCmd, Prog.run_all_cons, Prog.run_all_cons, Prog.run_all_cons, Prog.run_all_nil]
  generalize (complete d 0 0x07 false 0).run v = w at hout hother hwcmds hwchanges hwports
  have hflush : flushSweep.run w = w := flushSweep_idle fun c hc => by
    rw [hwcmds] at hc
    rw [List.mem_singleton.1 hc, abortCmd_kind]
    decide
  have hresolve : resolveAll.run w = w := resolveAll_idle fun c hc => by
    rw [hwcmds] at hc
    rw [List.mem_singleton.1 hc, abortCmd_kind, abortCmd_lbas]
    exact ⟨by decide, rfl⟩
  rw [hflush, hresolve]
  have hheld : w.cmd s.newTag = some (abortCmd q x s) := by
    rw [State.cmd, hwcmds]
    exact List.find?_cons_of_pos (by simp [abortCmd_ctag])
  have hwsas : w.isSas = false := (hwchanges.isSas (by decide)).trans hvsas
  obtain ⟨-, hall, hleft, hend⟩ := abortEnd_posts (q := q) (x := x) hheld hwsas ((hwports q).2 0 a'.taken hva hadel) hother hyroom 0
  refine ⟨?_, ?_, ?_⟩
  · rw [hall hyien, hout]
  · rw [hleft, hwcmds]
    simp [abortCmd_ctag]
  · exact ((hchanges'.mono (by decide) (by decide) id).trans (hwchanges.mono (fun _ h => h) (by decide) id)).trans (hend.mono (fun _ h => h) (by decide) id)

/-! The obligation. -/

theorem featureKey_eq (x : Sqe) : featureKey x = if x.d10.toNat % 256 = 0x09 then 0x10000 * (x.d11.toNat % 65536) + 0x09 else x.d10.toNat % 256 := by
  rw [featureKey]
  split
  · next he => rw [he]
  · rfl

/-- The statement of a command that is only handed over. -/
theorem adminCmd_hands {q : Nat} {s : State} (h : s.nvmeFetch q 0 = true) (x : Sqe) (op kind : Nat) :
    ChangesOnly fetchRegs fetchComps false s ((adminCmd q x op kind fun _ => .skip).run s) ∧
      Fetched { adminOf q x op kind with want := some 0 } s ((adminCmd q x op kind fun _ => .skip).run s) ∧
      s.newTag ∈ ((adminCmd q x op kind fun _ => .skip).run s).cqe.handQ ∧ TookEntry q 0 s ((adminCmd q x op kind fun _ => .skip).run s) := adminCmd_plain h x op kind

/-- Settles O29: an admin command is held under a new tag and waits for firmware; a feature, a queue and an event request take effect at the fetch, and an
abort completes what it catches before itself. -/
theorem adminCommands : Obligations.AdminCommands := by
  unfold Obligations.AdminCommands
  refine ⟨fun s q x h => ⟨_, rfl, adminCmd_hands h x 0x06 kdAdmin⟩, fun s q x h => ⟨_, rfl, adminCmd_hands h x 0x02 kdAdmin⟩,
    fun s q x h => ⟨_, rfl, adminCmd_hands h x 0x0A kdAdmin⟩, fun s q x h => ⟨_, rfl, adminCmd_hands h x 0x0D kdAdmin⟩,
    fun s q x h => ⟨_, rfl, adminCmd_hands h x 0x15 kdAdmin⟩, fun s q x h => ⟨_, rfl, adminCmd_hands h x 0x80 kdAdmin⟩,
    fun s q x h => ⟨_, rfl, adminCmd_hands h x 0x11 kdAdmin⟩, fun s q x h => ⟨_, rfl, adminCmd_hands h x 0x10 kdAdmin⟩,
    fun s q x h => ⟨_, rfl, adminCmd_hands h x 0x81 kdAdmin⟩, fun s q x h => ⟨_, rfl, adminCmd_hands h x 0x82 kdAdmin⟩,
    fun s q op x h => ⟨_, rfl, adminCmd_hands h x (0xC0 + op) kdVendor⟩, fun s q x h hsup hcache => ⟨_, rfl, ?_⟩,
    fun s q x h hok hv hnew => ⟨_, rfl, ?_⟩, fun s q x h hok hcq hexists hnew => ⟨_, rfl, ?_⟩, fun s q x h hi hfree => ⟨_, rfl, ?_⟩,
    fun s q x h hi hcmds => ⟨_, rfl, ?_⟩, fun s q x h hi hsq htag => ⟨_, rfl, ?_⟩, fun s q x h => ⟨_, rfl, ?_⟩,
    fun s q x y h htag hsq hcq hroom hnone => ⟨_, rfl, ?_⟩, fun s q x h => ⟨_, rfl, abort_took x h⟩, fun s q x y h hcmds hcq hsq hien => ⟨_, rfl, ?_⟩,
    fun s q x y z d h hcmds hd hsq hdsq hcq0 hcq1 hien => ⟨_, rfl, ?_⟩⟩
  · obtain ⟨hchanges, ⟨hfetched, hhand, htook⟩, hfeature⟩ := setFeatures_sets h hsup hcache
    refine ⟨hchanges, hfetched, hhand, htook, ?_⟩
    rw [← featureKey_eq]
    exact hfeature
  · rw [createCq_run h hok hv hnew]
    obtain ⟨hchanges, ⟨hfetched, hhand, htook⟩, hport⟩ := adminCmd_port h x 0x05 kdAdmin (f := fun p => { p with cqs := p.cqs ++ [createdCq x] }) rfl
    refine ⟨hchanges, hfetched, hhand, htook, ?_⟩
    rw [hport]
    exact find_append_new hnew (by simp [createdCq])
  · have hi := queueOk_pos hok
    have hnew' : (s.port q).tookAdmin.sq (x.d10.toNat % 65536) = none := by rw [Port.tookAdmin_sq_other _ hi, hnew]
    have hsq0 : ∀ p : Port, Port.sq { p with sqs := p.sqs ++ [createdSq x] } 0 = p.sq 0 := fun p => by
      rw [Port.sq, List.find?_append, List.find?_cons_of_neg (by simpa [createdSq] using hi), List.find?_nil, Option.or_none, Port.sq]
    rw [createSq_run h hok hcq hexists hnew']
    obtain ⟨hchanges, ⟨hfetched, hhand, htook⟩, hport⟩ := adminCmd_port h x 0x01 kdAdmin (f := fun p => { p with sqs := p.sqs ++ [createdSq x] }) (by rw [hsq0])
    refine ⟨hchanges, hfetched, hhand, htook, ?_⟩
    rw [hport]
    exact find_append_new hnew' (by simp [createdSq])
  · rw [deleteCq_run h hi hfree]
    obtain ⟨hchanges, ⟨hfetched, hhand, htook⟩, hport⟩ := adminCmd_port h x 0x04 kdAdmin
      (f := fun p => { p with cqs := p.cqs.filter fun y => y.id != x.d10.toNat % 65536 }) rfl
    refine ⟨hchanges, hfetched, hhand, htook, ?_⟩
    rw [hport]
    exact List.find?_eq_none.2 fun y hy => by simpa using (List.mem_filter.1 hy).2
  · obtain ⟨hchanges, ⟨hfetched, hhand, htook⟩, hmark⟩ := deleteSq_alone h hi hcmds
    exact ⟨hchanges, hfetched, hhand, htook, hmark⟩
  · obtain ⟨hmark, hfetched, hhand, htook⟩ := deleteSq_marks h hi hsq htag
    exact ⟨hmark, hhand, hfetched, htook⟩
  · rw [aerProg, adminCmd_run h]
    obtain ⟨hchanges, ⟨hfetched, hhand, htook⟩, hport⟩ := adminCmd_port h x 0x0C kdAdmin (f := fun p => { p with aers := p.aers ++ [(s.newTag, x.cid.toNat)] }) rfl
    refine ⟨hchanges, hfetched, hhand, htook, ?_⟩
    rw [hport]
    simp only [Port.tookAdmin]
  · obtain ⟨a, ha, ha0⟩ := Option.map_eq_some_iff.1 hsq
    obtain ⟨hmem, -, hleft, -⟩ := abort_missed h htag ha (by rw [ha0, hcq]) hroom hnone
    exact ⟨hmem, hleft, abort_took x h⟩
  · obtain ⟨a, ha, ha0⟩ := Option.map_eq_some_iff.1 hsq
    obtain ⟨-, a', y', ha', -, hy', hroom⟩ := nvmeFetch_admin h
    obtain rfl : a' = a := Option.some.inj (ha'.symm.trans ha)
    obtain rfl : y' = y := Option.some.inj (hy'.symm.trans (by rw [ha0, hcq]))
    obtain ⟨-, hall, hleft, hchanges⟩ := abort_missed (x := x) h (tagFree_of_short (by rw [hcmds]; decide)) ha hy' hroom (by simp [hcmds])
    exact ⟨hchanges.mono (by decide) (by decide) id, hall hien, hleft.trans hcmds, (abort_took x h).2⟩
  · obtain ⟨hwrites, harrived, hsilent, hadm, hdport, hds, hdcid⟩ := hd
    obtain ⟨hyien, hzien, hzroom⟩ := hien
    obtain ⟨a, ha, ha0⟩ := Option.map_eq_some_iff.1 hsq
    obtain ⟨b, hb, hb1⟩ := Option.map_eq_some_iff.1 hdsq
    obtain ⟨-, a', y', ha', -, hy', hroom⟩ := nvmeFetch_admin h
    obtain rfl : a' = a := Option.some.inj (ha'.symm.trans ha)
    obtain rfl : y' = y := Option.some.inj (hy'.symm.trans (by rw [ha0, hcq0]))
    obtain ⟨hout, hleft, hchanges⟩ := abort_caught h hcmds hwrites harrived hsilent hadm hdport hds hdcid ha hb (by rw [ha0, hb1]; decide) hy'
      (by rw [hb1, hcq1]) hroom hzroom hyien hzien
    exact ⟨hchanges.mono (by decide) (by decide) id, hout, hleft, (abort_took x h).2⟩

end Sys2Proof.Machine
end

section
set_option Elab.async false
/-! The buffer cache's lines under its shared operations (R361, R362, R366, R372). -/
namespace Sys2Proof.Machine

/-! What the check lines leave of the cache. -/

/-- A view of BMU's state on which check lines have no bearing. -/
def IgnoresChecks {α : Type} (π : BmuState → α) : Prop := ∀ (b : BmuState) (cs : List CheckLine) (cm : List (Nat × Nat × List Byte)), π { b with checks := cs, checkMem := cm } = π b

section
variable {α : Type} {π : BmuState → α} (hπ : IgnoresChecks π)
include hπ

theorem checkOut_view (b : BmuState) (x : CheckLine) : π (b.checkOut x) = π b := by
  rw [BmuState.checkOut]
  split
  · rfl
  · exact hπ b b.checks _

theorem foldl_checkOut_view (l : List CheckLine) (b : BmuState) : π (l.foldl BmuState.checkOut b) = π b := by
  induction l generalizing b with
  | nil => rfl
  | cons x l ih => rw [List.foldl_cons, ih, checkOut_view hπ]

theorem checkIn_view (b : BmuState) (x : CheckLine) : π (b.checkIn x) = π b := by
  rw [BmuState.checkIn, BmuState.checkTrim]
  refine (hπ _ _ (BmuState.checkMem _)).trans ((foldl_checkOut_view hπ _ _).trans ?_)
  exact hπ b _ b.checkMem
end

/-- An update under which a view of BMU's state stays. -/
def Upd.keepsView {α : Type} (π : BmuState → α) : Upd → Prop
  | .bmu f => ∀ b, π (f b) = π b
  | _ => True

theorem Prog.Only.viewKept {α : Type} {π : BmuState → α} {p : Prog} (hp : p.Only (Upd.keepsView π)) (s : State) : π (p.run s).bmu = π s.bmu := by
  refine Prog.Only.rel (fun s t => π t.bmu = π s.bmu) (fun _ => rfl) (fun _ _ _ h k => k.trans h) (fun u s hu => ?_) hp s
  cases u with
  | bmu f => exact hu s.bmu
  | _ => rfl

theorem checkRead_keepsView {α : Type} {π : BmuState → α} (hπ : IgnoresChecks π) (l : Nat) : (checkRead l).Only (Upd.keepsView π) := fun _ b => checkIn_view hπ b _
theorem lineOut_keepsView {α : Type} {π : BmuState → α} (hπ : IgnoresChecks π) (l : Nat) : (lineOut l).Only (Upd.keepsView π) := fun _ b => checkIn_view hπ b _

theorem lines_ignoresChecks : IgnoresChecks BmuState.lines := fun _ _ _ => rfl
theorem evb_ignoresChecks : IgnoresChecks BmuState.evb := fun _ _ _ => rfl
theorem mnt_ignoresChecks : IgnoresChecks BmuState.mnt := fun _ _ _ => rfl

/-! The updates of the operations on lines. -/

section
variable {ok : Upd → Prop} (hb : ∀ f, ok (.bmu f))
include hb

theorem checkRead_only (l : Nat) : (checkRead l).Only ok := fun _ => hb _
theorem lineOut_only (l : Nat) : (lineOut l).Only ok := fun _ => hb _
theorem linesOut_only (a n : Nat) : (linesOut a n).Only ok := by
  simp only [linesOut, Only.each, Only.ask, Only.when, Only.seq]
  exact fun _ _ _ _ => ⟨fun _ => checkRead_only hb _, lineOut_only hb _⟩

variable (hused : ∀ v, ok (.fld BMU_EVB_STAT.USED 0 v)) (hpeak : ∀ v, ok (.fld BMU_EVB_STAT.PEAK 0 v)) (ho : ∀ o, ok (.emit o))

omit hb in
include hused hpeak in
theorem evbShow_only : evbShow.Only ok := fun _ => ⟨hused _, hpeak _⟩

include hused hpeak ho

theorem evbWritten_only (l : Nat) : (evbWritten l).Only ok := by
  simp only [evbWritten, Only.cons, Only.nil, Only.upd, Only.emit, and_true]
  exact ⟨lineOut_only hb l, hb _, evbShow_only hused hpeak, ho _⟩

theorem allocLine_only (l mask : Nat) (d : Bool) (old : List Byte) (pf : Bool) : (allocLine l mask d old pf).Only ok := by
  simp only [allocLine, touchWay, Only.ask, Only.cons, Only.nil, Only.upd, and_true]
  refine fun s => ⟨?_, hb _, hb _, evbShow_only hused hpeak⟩
  split
  · exact (Only.when ..).2 fun _ => evbWritten_only hb hused hpeak ho _
  · trivial
end

/-! What they leave. -/

theorem evbShow_bmu (s : State) : (evbShow.run s).bmu = s.bmu := rfl

theorem evbWritten_lines (l : Nat) (s : State) : ((evbWritten l).run s).bmu.lines = s.bmu.lines :=
  Prog.Only.viewKept (π := BmuState.lines) (p := evbWritten l) ⟨lineOut_keepsView lines_ignoresChecks l, fun _ => rfl, fun _ => ⟨trivial, trivial⟩, trivial, trivial⟩ s

theorem when_evbWritten_lines (b : Bool) (l : Nat) (s : State) : ((when b (evbWritten l)).run s).bmu.lines = s.bmu.lines := by
  cases b with
  | false => rfl
  | true => exact evbWritten_lines l s

theorem evbWritten_run (l : Nat) (s : State) : (evbWritten l).run s = (Upd.emit (.event "DRAM line write" [64 * l])).apply
    (evbShow.run ((Upd.bmu fun b => { b with evb := b.evb.filter fun e => e.line != l }).apply ((lineOut l).run s))) := rfl

theorem evbWritten_evb (l : Nat) (s : State) : ((evbWritten l).run s).bmu.evb = s.bmu.evb.filter fun e => e.line != l := by
  have hout : ((lineOut l).run s).bmu.evb = s.bmu.evb := (lineOut_keepsView evb_ignoresChecks l).viewKept s
  rw [← hout, evbWritten_run, Upd.apply_bmu, evbShow_bmu, Upd.apply_bmu]

/-- The lines once one is placed: it takes its way's place. -/
theorem allocLine_lines (l mask : Nat) (d : Bool) (old : List Byte) (pf : Bool) (s : State) :
    ((allocLine l mask d old pf).run s).bmu.lines =
      (s.bmu.lines.filter fun e => !(cacheSet e.1 == cacheSet l && e.2.way == s.allocWay l mask)) ++ [(l, { way := s.allocWay l mask, dirty := d, old })] := by
  simp only [allocLine, touchWay, Prog.run_ask, Prog.run_all_cons, Prog.run_all_nil, Prog.run_upd, evbShow_bmu, Upd.apply_bmu]
  split
  · rw [when_evbWritten_lines]
  · rfl

/-- The line is there. -/
theorem allocLine_mem (l mask : Nat) (d : Bool) (old : List Byte) (pf : Bool) (s : State) :
    ∃ c ∈ ((allocLine l mask d old pf).run s).bmu.lines, c.1 = l ∧ c.2.dirty = d := by
  rw [allocLine_lines]
  exact ⟨_, List.mem_append_right _ (List.mem_singleton.2 rfl), rfl, rfl⟩

/-- The line before it stays. -/
theorem allocLine_mem_prev {l : Nat} {s : State} (h : ∃ c ∈ s.bmu.lines, c.1 = l) (mask : Nat) (d : Bool) (old : List Byte) (pf : Bool) :
    ∃ c ∈ ((allocLine (l + 1) mask d old pf).run s).bmu.lines, c.1 = l := by
  obtain ⟨c, hc, rfl⟩ := h
  rw [allocLine_lines]
  refine ⟨c, List.mem_append_left _ (List.mem_filter.2 ⟨hc, ?_⟩), rfl⟩
  have hset : cacheSet c.1 ≠ cacheSet (c.1 + 1) := by
    rw [cacheSet, cacheSet]
    omega
  simp [hset]

/-! What a program keeps, and the state of service in which a miss is filled (R360, R363, R364, R517). -/

/-- A program keeps a property of states. -/
def Prog.Keeps (Q : State → Prop) (p : Prog) : Prop := ∀ s, Q s → Q (p.run s)

section
variable {Q : State → Prop}

theorem Keeps.skip : Prog.skip.Keeps Q := fun _ h => h
theorem Keeps.seq {p q : Prog} (hp : p.Keeps Q) (hq : q.Keeps Q) : (Prog.seq p q).Keeps Q := fun s hs => hq _ (hp s hs)
theorem Keeps.ask {k : State → Prog} (h : ∀ s, (k s).Keeps Q) : (Prog.ask k).Keeps Q := fun s hs => h s s hs
theorem Keeps.when {b : Bool} {p : Prog} (h : p.Keeps Q) : (when b p).Keeps Q := by
  cases b with
  | false => exact Keeps.skip
  | true => exact h
theorem Keeps.ite {c : Prop} [Decidable c] {p q : Prog} (hp : p.Keeps Q) (hq : q.Keeps Q) : (if c then p else q).Keeps Q := by
  split
  · exact hp
  · exact hq
theorem Keeps.cons {p : Prog} {l : List Prog} (hp : p.Keeps Q) (hl : (all l).Keeps Q) : (all (p :: l)).Keeps Q := fun s hs => hl _ (hp s hs)
theorem Keeps.nil : (all []).Keeps Q := fun _ h => h
theorem Keeps.each {α : Type} {l : List α} {f : α → Prog} (h : ∀ x ∈ l, (f x).Keeps Q) : (each l f).Keeps Q := fun _ hs => each_keeps h hs
end

/-- In normal service, with DRAM out of self-refresh, and the cache's lines as given. -/
def Awake (P : List (Nat × CLine) → Prop) (s : State) : Prop := s.normalService = true ∧ s.get BMU_STAT.SR 0 = 0 ∧ P s.bmu.lines

/-- Updates that leave MODE, SR and the lines. -/
def Upd.quietHere (u : Upd) : Prop := u.clearOf [PTM_MODE_STAT.MODE, BMU_STAT.SR] ∧ u.keepsView BmuState.lines

section
variable {P : List (Nat × CLine) → Prop}

theorem Awake.of_kept {s t : State} (h : Awake P s) (hf : FieldsKept [PTM_MODE_STAT.MODE, BMU_STAT.SR] s t) (hl : t.bmu.lines = s.bmu.lines) : Awake P t := by
  obtain ⟨hn, hsr, hp⟩ := h
  exact ⟨hf.normalService.trans hn, (hf _ (by simp) 0).trans hsr, hl ▸ hp⟩

theorem Awake.only {p : Prog} (hp : p.Only Upd.quietHere) : p.Keeps (Awake P) := fun s h =>
  h.of_kept ((hp.mono fun _ h => h.1).fieldsKept s) ((hp.mono fun _ h => h.2).viewKept s)

/-- Where any lines will do, they may change. -/
theorem Awake.only_fields {p : Prog} (hp : p.Only (Upd.clearOf [PTM_MODE_STAT.MODE, BMU_STAT.SR])) : p.Keeps (Awake fun _ => True) := fun s h => by
  obtain ⟨hn, hsr, -⟩ := h
  have hf := hp.fieldsKept s
  exact ⟨hf.normalService.trans hn, (hf _ (by simp) 0).trans hsr, trivial⟩

/-- A field elsewhere. -/
theorem Upd.quietHere_fld {f : Fld} (hmode : f.clearOf PTM_MODE_STAT.MODE) (hsr : f.clearOf BMU_STAT.SR) (i v : Nat) : (Upd.fld f i v).quietHere :=
  ⟨by simpa only [Upd.clearOf, List.forall_mem_cons, List.not_mem_nil, false_imp_iff, implies_true, and_true] using ⟨hmode, hsr⟩, trivial⟩

theorem Awake.setF {f : Fld} (hmode : f.clearOf PTM_MODE_STAT.MODE) (hsr : f.clearOf BMU_STAT.SR) (i v : Nat) : (Machine.setF f i v).Keeps (Awake P) :=
  Awake.only (p := Machine.setF f i v) (Upd.quietHere_fld hmode hsr i v)

theorem Awake.raise (i : Nat) (c : FCap) : (Machine.raise i c).Keeps (Awake P) := fun s h => by
  have hchanges := raise_inService i c h.1
  have hbmu : ((Machine.raise i c).run s).bmu = s.bmu := hchanges.2.1 .bmu (by decide)
  exact h.of_kept (hchanges.fieldsKept (by decide)) (by rw [hbmu])

theorem bucketCorrect_awake (i : Nat) : (bucketCorrect i none).Keeps (Awake P) := by
  have hpend : (setBitF SVC_LB_PEND.PEND (i / 32) (i % 32) true).Keeps (Awake P) :=
    Awake.only ((Only.setBitF ..).2 fun _ => Upd.quietHere_fld (.inl (by decide)) (.inl (by decide)) _ _)
  refine Keeps.ask fun s => Keeps.when (Keeps.cons (Awake.setF (.inl (by decide)) (.inl (by decide)) _ _)
    (Keeps.cons (Awake.setF (.inl (by decide)) (.inl (by decide)) _ _) (Keeps.cons (Keeps.when ?_) Keeps.nil)))
  exact Keeps.cons (Awake.setF (.inl (by decide)) (.inl (by decide)) _ _) (Keeps.cons hpend (Keeps.cons (Awake.raise _ _) Keeps.nil))

theorem halfCorrected_awake (h : Nat) : (halfCorrected h).Keeps (Awake P) :=
  Keeps.ask fun _ => Keeps.seq (Awake.only ((Only.incF ..).2 fun _ => Upd.quietHere_fld (.inl (by decide)) (.inr (by decide)) _ _)) (bucketCorrect_awake _)

theorem ueDelivered_awake (m : Master) (typ size a : Nat) : (ueDelivered m typ size a).Keeps (Awake P) :=
  Keeps.seq (Awake.only (p := poisonHalf (a / 32)) ⟨trivial, fun _ => rfl⟩)
    (Keeps.seq (Awake.setF (.inl (by decide)) (.inr (by decide)) _ _) (Awake.raise _ _))

theorem checkRead_awake (l : Nat) : (checkRead l).Keeps (Awake P) :=
  Awake.only fun s => ⟨trivial, checkRead_keepsView lines_ignoresChecks l s⟩

end

/-- Placing a line leaves MODE and SR. -/
theorem allocLine_awake (l mask : Nat) (d : Bool) (old : List Byte) (pf : Bool) : (allocLine l mask d old pf).Keeps (Awake fun _ => True) :=
  Awake.only_fields (allocLine_only (fun _ => trivial) (fun v => (Upd.quietHere_fld (.inl (by decide)) (.inl (by decide)) 0 v).1)
    (fun v => (Upd.quietHere_fld (.inl (by decide)) (.inl (by decide)) 0 v).1) (fun _ => trivial) l mask d old pf)

theorem lineOut_awake (l : Nat) : (lineOut l).Keeps (Awake fun _ => True) := Awake.only_fields (lineOut_only (fun _ => trivial) l)

end Sys2Proof.Machine
end

section
set_option Elab.async false
/-! Fills of misses, evictions, partial stores and maintenance of the buffer cache (R368, R372, R374, R378). -/
namespace Sys2Proof.Machine

/-! A miss. -/

/-- Its two halves, the critical one first. -/
def fillFirst (a : Nat) (o0 o1 : Half) : List (Nat × Half) :=
  if a / 32 = 2 * (a / 64) then [(2 * (a / 64), o0), (2 * (a / 64) + 1, o1)] else [(2 * (a / 64), o0), (2 * (a / 64) + 1, o1)].reverse

/-- What a half's reading brings with it. -/
def fillHalf (s : State) (m : Master) (h : Nat) (o : Half) : Prog := match s.halfOf h o with
  | .clean => .skip
  | .corrected => halfCorrected h
  | .uncorrectable => ueDelivered m 0 3 (32 * h)

/-- The halves as they read. -/
def fillRead (s : State) (a : Nat) (o0 o1 : Half) : List (Nat × Half) :=
  [(2 * (a / 64), s.halfOf (2 * (a / 64)) o0), (2 * (a / 64) + 1, s.halfOf (2 * (a / 64) + 1) o1)]
def fillFixed (s : State) (a : Nat) (o0 o1 : Half) : Bool := (fillRead s a o0 o1).any fun e => e.2 == .corrected

/-- The class of master `m` places line `l`. -/
def State.allocates (s : State) (m : Master) (l : Nat) : Bool := s.ccState == ccEnabled && !s.on BMU_CLASS_CFG.NOALLOC m.cls && s.effMask m.cls l != 0

def fillLead (s : State) (m : Master) (a : Nat) (o0 o1 : Half) (lecc : Nat) : Prog := all [checkRead (a / 64),
  when (s.on BMU_CFG.LECC_EN 0) (setF BMU_STAT.LECC_CNT 0 (satAdd (s.get BMU_STAT.LECC_CNT 0) lecc 255)), each (fillFirst a o0 o1) fun e => fillHalf s m e.1 e.2]
def fillPlace (s : State) (m : Master) (a : Nat) (o0 o1 : Half) : Prog :=
  if s.allocates m (a / 64) = true then
    allocLine (a / 64) (s.effMask m.cls (a / 64)) (fillFixed s a o0 o1) (if fillFixed s a o0 o1 then s.bytes (64 * (a / 64)) 64 else []) false
  else when (fillFixed s a o0 o1) (lineOut (a / 64))
def fillAnswer (s : State) (m : Master) (a : Nat) (o0 o1 : Half) : Prog :=
  if ((fillRead s a o0 o1).any fun e => e.1 == a / 32 && e.2 == .uncorrectable) = true then emit (.event "poison" [m.id, a]) else reply m (s.memW (a / 4 * 4))

/-- An admitted miss, step by step. -/
theorem missFill_run {s : State} {m : Master} {a : Nat} (hok : s.accessFault m atRead a (8 - a % 8) = none) (hdram : s.region a (8 - a % 8) = some .dram)
    (hmiss : s.cline (a / 64) = none) (hevb : s.inEvb (a / 64) = false) (o0 o1 pre : Half) (n : Nat) :
    (missFillProg m a o0 o1 pre n).run s = (prefetch m.cls (a / 64) pre).run ((fillAnswer s m a o0 o1).run ((fillPlace s m a o0 o1).run
      ((fillLead s m a o0 o1 n).run (leaveSr.run s)))) := by
  have htake : ((s.cline (a / 64)).isNone && !s.inEvb (a / 64)) = true := by rw [hmiss, hevb]; rfl
  rw [missFillProg, Prog.run_ask, dramJudged, Prog.run_ask]
  simp only [hok]
  rw [Prog.run_when, if_pos (by rw [hdram]; rfl), Prog.run_when, if_pos htake]
  rfl

/-- The half that the access asks for. -/
def askedHalf (s : State) (a : Nat) (o0 o1 : Half) : Half := s.halfOf (a / 32) (if a / 32 % 2 = 0 then o0 else o1)

/-- The answer is poisoned where that half is uncorrectable. -/
theorem fillRead_asked (s : State) (a : Nat) (o0 o1 : Half) :
    ((fillRead s a o0 o1).any fun e => e.1 == a / 32 && e.2 == .uncorrectable) = (askedHalf s a o0 o1 == .uncorrectable) := by
  obtain h | h : a / 32 = 2 * (a / 64) ∨ a / 32 = 2 * (a / 64) + 1 := by omega
  · have hne : (2 * (a / 64) + 1 == 2 * (a / 64)) = false := by simp
    simp [fillRead, askedHalf, h, hne]
  · have hne : (2 * (a / 64) == 2 * (a / 64) + 1) = false := by simp
    simp [fillRead, askedHalf, h, hne]

theorem fillAnswer_out (s : State) (m : Master) (a : Nat) (o0 o1 : Half) (t : State) :
    ((fillAnswer s m a o0 o1).run t).out =
      (if askedHalf s a o0 o1 = .uncorrectable then .event "poison" [m.id, a] else .data m.id (s.memW (a / 4 * 4))) :: t.out := by
  rw [fillAnswer, fillRead_asked, Prog.run_ite]
  by_cases h : askedHalf s a o0 o1 = .uncorrectable
  · rw [if_pos (by simp [h]), if_pos h]
    rfl
  · rw [if_neg (by simpa using h), if_neg h]
    rfl

theorem fillAnswer_only {ok : Upd → Prop} (ho : ∀ o, ok (.emit o)) (s : State) (m : Master) (a : Nat) (o0 o1 : Half) : (fillAnswer s m a o0 o1).Only ok := by
  rw [fillAnswer, Only.ite]
  exact ⟨fun _ => ho _, fun _ => ho _⟩

theorem fillPlace_only {ok : Upd → Prop} (hb : ∀ f, ok (.bmu f)) (hused : ∀ v, ok (.fld BMU_EVB_STAT.USED 0 v)) (hpeak : ∀ v, ok (.fld BMU_EVB_STAT.PEAK 0 v))
    (ho : ∀ o, ok (.emit o)) (s : State) (m : Master) (a : Nat) (o0 o1 : Half) : (fillPlace s m a o0 o1).Only ok := by
  rw [fillPlace, Only.ite, Only.when]
  exact ⟨fun _ => allocLine_only hb hused hpeak ho _ _ _ _ _, fun _ _ => lineOut_only hb _⟩

/-- A line of a class that allocates is placed. -/
theorem fillPlace_mem {s : State} {m : Master} {a : Nat} (h : s.allocates m (a / 64) = true) (o0 o1 : Half) (t : State) :
    ∃ c ∈ ((fillPlace s m a o0 o1).run t).bmu.lines, c.1 = a / 64 ∧ c.2.dirty = fillFixed s a o0 o1 := by
  rw [fillPlace, if_pos h]
  exact allocLine_mem _ _ _ _ _ t

theorem allocates_of {s : State} {m : Master} {l : Nat} (hcc : s.ccState = ccEnabled) (hno : s.get BMU_CLASS_CFG.NOALLOC m.cls = 0) (hmask : s.effMask m.cls l ≠ 0) :
    s.allocates m l = true := by
  simp [State.allocates, State.on, hcc, hno, hmask]

/-! A clean miss. -/

section
variable {s : State} {a : Nat} (hpoison : s.bmu.poison = [])
include hpoison

theorem halfOf_clean (h : Nat) : s.halfOf h .clean = .clean := by
  rw [State.halfOf, hpoison]
  rfl

theorem fillFixed_clean : fillFixed s a .clean .clean = false := by
  rw [fillFixed, fillRead, halfOf_clean hpoison, halfOf_clean hpoison]
  rfl

theorem askedHalf_clean : askedHalf s a .clean .clean = .clean := by
  rw [askedHalf, ite_self, halfOf_clean hpoison]

/-- Nothing but the check line and the link's corrections. -/
theorem fillLead_clean_only {ok : Upd → Prop} (hb : ∀ f, ok (.bmu f)) (hlecc : ∀ v, ok (.fld BMU_STAT.LECC_CNT 0 v)) (m : Master) (n : Nat) :
    (fillLead s m a .clean .clean n).Only ok := by
  have hhalf : ∀ e ∈ fillFirst a .clean .clean, (fillHalf s m e.1 e.2).Only ok := by
    intro e he
    have hclean : e.2 = .clean := by
      rw [fillFirst] at he
      split at he <;> simp at he <;> obtain rfl | rfl := he <;> rfl
    rw [fillHalf, hclean, halfOf_clean hpoison]
    trivial
  simp only [fillLead, Only.cons, Only.nil, Only.when, Only.setF, Only.each, and_true]
  exact ⟨checkRead_only hb _, fun _ => hlecc _, hhalf⟩

/-- All that a clean miss does before the prefetch. -/
theorem fill_clean_only {ok : Upd → Prop} (hb : ∀ f, ok (.bmu f)) (hlecc : ∀ v, ok (.fld BMU_STAT.LECC_CNT 0 v)) (hused : ∀ v, ok (.fld BMU_EVB_STAT.USED 0 v))
    (hpeak : ∀ v, ok (.fld BMU_EVB_STAT.PEAK 0 v)) (ho : ∀ o, ok (.emit o)) (m : Master) (n : Nat) :
    (all [fillLead s m a .clean .clean n, fillPlace s m a .clean .clean, fillAnswer s m a .clean .clean]).Only ok := by
  simp only [Only.cons, Only.nil, and_true]
  exact ⟨fillLead_clean_only hpoison hb hlecc m n, fillPlace_only hb hused hpeak ho s m a _ _, fillAnswer_only ho s m a _ _⟩
end

/-- No prefetch without PF_EN. -/
theorem prefetch_off {s : State} {c : Nat} (h : s.get BMU_CLASS_CFG.PF_EN c = 0) (l : Nat) (o : Half) : (prefetch c l o).run s = s := by
  simp only [prefetch, Prog.run_ask, Prog.run_when, State.on, h, bne_self_eq_false, Bool.false_and, Bool.false_eq_true, if_false]

theorem fillAnswer_lines (s : State) (m : Master) (a : Nat) (o0 o1 : Half) (t : State) : ((fillAnswer s m a o0 o1).run t).bmu.lines = t.bmu.lines :=
  (fillAnswer_only (ok := Upd.keepsView BmuState.lines) (fun _ => trivial) s m a o0 o1).viewKept t

theorem leaveSr_sr (s : State) : (leaveSr.run s).get BMU_STAT.SR 0 = 0 := State.get_fld_self s BMU_STAT.SR 0 0 (by decide)

/-- A clean miss: the word, and the line where its class allocates. -/
theorem missFill_clean {s : State} {m : Master} {a : Nat} (hok : s.accessFault m atRead a (8 - a % 8) = none) (hdram : s.region a (8 - a % 8) = some .dram)
    (hmiss : s.cline (a / 64) = none) (hevb : s.inEvb (a / 64) = false) (hpoison : s.bmu.poison = []) (hpf : s.get BMU_CLASS_CFG.PF_EN m.cls = 0) (n : Nat) :
    Unchanged [(.BMU_STAT, 0), (.BMU_EVB_STAT, 0)] [.bmu, .out] [] s ((missFillProg m a .clean .clean .clean n).run s) ∧
      ((missFillProg m a .clean .clean .clean n).run s).out.head? = some (.data m.id (s.memW (a / 4 * 4))) ∧
      ((missFillProg m a .clean .clean .clean n).run s).get BMU_STAT.SR 0 = 0 ∧
      (s.allocates m (a / 64) = true → ∃ c ∈ ((missFillProg m a .clean .clean .clean n).run s).bmu.lines, c.1 = a / 64 ∧ c.2.dirty = false) := by
  have hawake : Unchanged [(.BMU_STAT, 0), (.BMU_EVB_STAT, 0)] [.bmu, .out] [] s (leaveSr.run s) :=
    (Unchanged.refl s).prog (p := leaveSr) (by exact (by decide : (RegName.BMU_STAT, 0) ∈ [(RegName.BMU_STAT, 0), (RegName.BMU_EVB_STAT, 0)]))
  have hfill : Unchanged [(.BMU_STAT, 0), (.BMU_EVB_STAT, 0)] [.bmu, .out] [] s ((fillAnswer s m a .clean .clean).run ((fillPlace s m a .clean .clean).run
      ((fillLead s m a .clean .clean n).run (leaveSr.run s)))) :=
    hawake.trans ((fill_clean_only hpoison (a := a) (ok := Upd.within [(.BMU_STAT, 0), (.BMU_EVB_STAT, 0)] [.bmu, .out] []) (by simp [Upd.within])
      (by simp [Upd.within, BMU_STAT.LECC_CNT]) (by simp [Upd.within, BMU_EVB_STAT.USED]) (by simp [Upd.within, BMU_EVB_STAT.PEAK]) (by simp [Upd.within]) m n).unchanged _)
  have hsr := (fill_clean_only hpoison (ok := Upd.clearOf [BMU_STAT.SR]) (a := a) (fun _ => trivial) (by simp +decide [Upd.clearOf, Fld.clearOf])
    (by simp +decide [Upd.clearOf, Fld.clearOf]) (by simp +decide [Upd.clearOf, Fld.clearOf]) (fun _ => trivial) m n).fieldsKept (leaveSr.run s) BMU_STAT.SR (by simp) 0
  have hlines := fillAnswer_lines s m a .clean .clean ((fillPlace s m a .clean .clean).run ((fillLead s m a .clean .clean n).run (leaveSr.run s)))
  have hout := fillAnswer_out s m a .clean .clean ((fillPlace s m a .clean .clean).run ((fillLead s m a .clean .clean n).run (leaveSr.run s)))
  rw [missFill_run hok hdram hmiss hevb, prefetch_off ((hfill.get BMU_CLASS_CFG.PF_EN m.cls (by simp [BMU_CLASS_CFG.PF_EN])).trans hpf)]
  refine ⟨hfill, ?_, ?_, fun h => ?_⟩
  · rw [hout, askedHalf_clean hpoison, if_neg (by decide)]
    rfl
  · exact hsr.trans (leaveSr_sr s)
  · rw [hlines, ← fillFixed_clean (a := a) hpoison]
    exact fillPlace_mem h _ _ _

/-! A miss in normal service, however its halves read. -/

theorem fillLead_awake {P : List (Nat × CLine) → Prop} (s : State) (m : Master) (a : Nat) (o0 o1 : Half) (n : Nat) : (fillLead s m a o0 o1 n).Keeps (Awake P) := by
  refine Keeps.cons (checkRead_awake _) (Keeps.cons (Keeps.when (Awake.setF (.inl (by decide)) (.inr (by decide)) _ _)) (Keeps.cons (Keeps.each fun e _ => ?_) Keeps.nil))
  rw [fillHalf]
  split
  · exact Keeps.skip
  · exact halfCorrected_awake _
  · exact ueDelivered_awake _ _ _ _

theorem fillPlace_awake (s : State) (m : Master) (a : Nat) (o0 o1 : Half) : (fillPlace s m a o0 o1).Keeps (Awake fun _ => True) :=
  Keeps.ite (allocLine_awake _ _ _ _ _) (Keeps.when (lineOut_awake _))

theorem fillAnswer_awake {P : List (Nat × CLine) → Prop} (s : State) (m : Master) (a : Nat) (o0 o1 : Half) : (fillAnswer s m a o0 o1).Keeps (Awake P) :=
  Awake.only (fillAnswer_only (fun _ => ⟨trivial, trivial⟩) s m a o0 o1)

/-- The line `l` is in the cache. -/
def hasLine (l : Nat) (ls : List (Nat × CLine)) : Prop := ∃ c ∈ ls, c.1 = l

/-- A prefetched line leaves the one before it. -/
theorem allocNext_awake (l mask : Nat) (d : Bool) (old : List Byte) (pf : Bool) : (allocLine (l + 1) mask d old pf).Keeps (Awake (hasLine l)) := by
  rintro s ⟨hn, hsr, hline⟩
  obtain ⟨hn', hsr', -⟩ := allocLine_awake (l + 1) mask d old pf s ⟨hn, hsr, trivial⟩
  exact ⟨hn', hsr', allocLine_mem_prev hline mask d old pf⟩

theorem prefetch_awake {P : List (Nat × CLine) → Prop} {l : Nat} (hP : ∀ mask d old pf, (allocLine (l + 1) mask d old pf).Keeps (Awake P)) (c : Nat) (o : Half) :
    (prefetch c l o).Keeps (Awake P) :=
  Keeps.ask fun _ => Keeps.when (Keeps.cons (checkRead_awake _) (Keeps.cons (Keeps.when (halfCorrected_awake _)) (Keeps.cons (hP _ _ _ _) Keeps.nil)))

theorem leaveSr_awake {s : State} (h : s.normalService = true) : Awake (fun _ => True) (leaveSr.run s) := by
  have hmode : FieldsKept [PTM_MODE_STAT.MODE] s (leaveSr.run s) := Prog.Only.fieldsKept (p := leaveSr) (by simp +decide [leaveSr, Upd.clearOf, Fld.clearOf]) s
  exact ⟨hmode.normalService.trans h, leaveSr_sr s, trivial⟩

/-- A miss in normal service: out of self-refresh, answered, and placed where its class allocates. -/
theorem missFill_inService {s : State} {m : Master} {a : Nat} (hok : s.accessFault m atRead a (8 - a % 8) = none) (hdram : s.region a (8 - a % 8) = some .dram)
    (hmiss : s.cline (a / 64) = none) (hevb : s.inEvb (a / 64) = false) (hserves : s.normalService = true) (o0 o1 pre : Half) (n : Nat) :
    ((missFillProg m a o0 o1 pre n).run s).get BMU_STAT.SR 0 = 0 ∧
      (if askedHalf s a o0 o1 = .uncorrectable then .event "poison" [m.id, a] else .data m.id (s.memW (a / 4 * 4))) ∈ ((missFillProg m a o0 o1 pre n).run s).out ∧
      (s.allocates m (a / 64) = true → hasLine (a / 64) ((missFillProg m a o0 o1 pre n).run s).bmu.lines) := by
  have hplaced := fillPlace_awake s m a o0 o1 _ (fillLead_awake s m a o0 o1 n _ (leaveSr_awake hserves))
  rw [missFill_run hok hdram hmiss hevb]
  refine ⟨?_, ?_, fun h => ?_⟩
  · exact (prefetch_awake (allocLine_awake _) m.cls pre _ (fillAnswer_awake s m a o0 o1 _ hplaced)).2.1
  · refine (Prog.run_out (prefetch m.cls (a / 64) pre) _).subset ?_
    rw [fillAnswer_out]
    exact List.mem_cons_self
  · obtain ⟨hn, hsr, -⟩ := hplaced
    obtain ⟨c, hc, hl, -⟩ := fillPlace_mem h o0 o1 ((fillLead s m a o0 o1 n).run (leaveSr.run s))
    exact (prefetch_awake (allocNext_awake _) m.cls pre _ (fillAnswer_awake s m a o0 o1 _ ⟨hn, hsr, ⟨c, hc, hl⟩⟩)).2.2

/-! The end of an eviction, and a partial store. -/

theorem evbWritten_changes (l : Nat) (s : State) : Unchanged [(.BMU_EVB_STAT, 0)] [.bmu, .out] [] s ((evbWritten l).run s) :=
  (evbWritten_only (ok := Upd.within [(.BMU_EVB_STAT, 0)] [.bmu, .out] []) (by simp [Upd.within]) (by simp [Upd.within, BMU_EVB_STAT.USED])
    (by simp [Upd.within, BMU_EVB_STAT.PEAK]) (by simp [Upd.within]) l).unchanged s

theorem evbWritten_out (l : Nat) (s : State) : ((evbWritten l).run s).out = .event "DRAM line write" [64 * l] :: s.out := by
  have hout : ((lineOut l).run s).out = s.out := Prog.Only.out (lineOut_only (by simp [Upd.among]) l) s
  rw [← hout, evbWritten_run]
  rfl

theorem evbWritten_frees (l : Nat) (s : State) : ((evbWritten l).run s).inEvb l = false := by
  rw [State.inEvb, evbWritten_evb, List.any_eq_false]
  exact fun e he => by simpa using (List.mem_filter.1 he).2

theorem partialMerge_run {s : State} {m : Master} {a : Nat} {bs : List Byte} (hok : s.accessFault m atWrite a bs.length = none)
    (hdram : s.region a bs.length = some .dram) (hcc : s.ccState = ccDisabled ∨ s.ccState = ccCleaning ∧ s.cline (a / 64) = none)
    (hline : a % 64 + bs.length ≤ 64) (hpart : bs.length < 64) :
    (partialMergeProg m a bs).run s = (linesOut a bs.length).run ((memBytes a bs).run (leaveSr.run s)) := by
  have htake : ((s.ccState == ccDisabled || s.ccState == ccCleaning && (s.cline (a / 64)).isNone) && decide (a % 64 + bs.length ≤ 64 ∧ bs.length < 64)) = true := by
    obtain hoff | ⟨hclean, hnone⟩ := hcc
    · simp [hoff, hline, hpart]
    · simp [hclean, hnone, hline, hpart]
  rw [partialMergeProg, Prog.run_ask, dramJudged, Prog.run_ask]
  simp only [hok]
  rw [Prog.run_when, if_pos (by rw [hdram]; rfl), Prog.run_when, if_pos htake]
  rfl

end Sys2Proof.Machine
end

section
set_option Elab.async false
/-! Maintenance of the buffer cache, and its obligation (R374). -/
namespace Sys2Proof.Machine

/-- Bytes stored within a range. -/
theorem putBytes_within {rs : List (RegName × Nat)} {ps : List Part} {lo len : Nat} {bs : List Byte} {a : Nat} (hlo : lo ≤ a) (hhi : a + bs.length ≤ lo + len) :
    (putBytes a bs).Only (Upd.within rs ps [(lo, len)]) := by
  induction bs generalizing a with
  | nil => trivial
  | cons b l ih =>
    rw [List.length_cons] at hhi
    exact ⟨⟨_, List.mem_singleton.2 rfl, hlo, by simp only; omega⟩, ih (by omega) (by omega)⟩

theorem memBytes_within {rs : List (RegName × Nat)} {ps : List Part} (hp : .bmu ∈ ps) (a : Nat) (bs : List Byte) :
    (memBytes a bs).Only (Upd.within rs ps [(a, bs.length)]) := by
  simp only [memBytes, storeMarks, Only.seq, Only.ask, Only.when, Only.upd]
  exact ⟨fun _ _ => hp, putBytes_within (Nat.le_refl a) (Nat.le_refl _)⟩

/-- A partial store merged: its bytes are in memory. -/
theorem partialMerge_stores (a : Nat) (bs : List Byte) (s : State) :
    Unchanged [(.BMU_STAT, 0)] [.bmu] [(a, bs.length)] s ((linesOut a bs.length).run ((memBytes a bs).run (leaveSr.run s))) ∧
      ((linesOut a bs.length).run ((memBytes a bs).run (leaveSr.run s))).bytes a bs.length = bs ∧
      ((linesOut a bs.length).run ((memBytes a bs).run (leaveSr.run s))).get BMU_STAT.SR 0 = 0 := by
  have hawake : Unchanged [(.BMU_STAT, 0)] [.bmu] [(a, bs.length)] s (leaveSr.run s) :=
    (Unchanged.refl s).prog (p := leaveSr) (by exact (by decide : (RegName.BMU_STAT, 0) ∈ [(RegName.BMU_STAT, 0)]))
  have hlines : (linesOut a bs.length).Only (Upd.within [(.BMU_STAT, 0)] [.bmu] [(a, bs.length)]) := linesOut_only (by simp [Upd.within]) a bs.length
  refine ⟨(hawake.prog (memBytes_within (by simp) a bs)).prog hlines, ?_, ?_⟩
  · have hbyte : ∀ x, ((linesOut a bs.length).run ((memBytes a bs).run (leaveSr.run s))).byte x = ((memBytes a bs).run (leaveSr.run s)).byte x :=
      (linesOut_only (ok := Upd.sparesMem) (fun _ => trivial) a bs.length).byte _
    refine Eq.trans ?_ (memBytes_bytes a bs (leaveSr.run s))
    simp only [State.bytes, hbyte]
  · rw [(linesOut_only (ok := Upd.spares .BMU_STAT) (fun _ => trivial) a bs.length).get (f := BMU_STAT.SR),
      (memBytes_among (R := (· ≠ RegName.BMU_STAT)) (P := fun _ => True) (M := True) a bs trivial trivial).get (f := BMU_STAT.SR), leaveSr_sr]

/-! Maintenance. -/

/-- Fields that say whether an operation may begin. -/
def mntFields : List Fld := [BMU_MNT_CTL.BUSY, BMU_MNT_ADDR.ADDR, BMU_CFG.CHANNELS, BMU_CFG.SIZE, BMU_STAT.CH_FAIL]

theorem FieldsKept.dramOk {s t : State} (h : FieldsKept mntFields s t) (a n : Nat) : t.dramOk a n = s.dramOk a n := by
  have hch : t.channels = s.channels := by rw [State.channels, State.channels, h BMU_CFG.CHANNELS (by simp [mntFields])]
  have hsize : t.installed = s.installed := by rw [State.installed, State.installed, hch, h BMU_CFG.SIZE (by simp [mntFields])]
  have hfail : ∀ k, t.bitF BMU_STAT.CH_FAIL 0 k = s.bitF BMU_STAT.CH_FAIL 0 k := fun k => by rw [State.bitF, State.bitF, h BMU_STAT.CH_FAIL (by simp [mntFields])]
  simp only [State.dramOk, State.channelOf, hch, hsize, hfail]

/-- An operation begins. -/
def mntBegin (op lo n : Nat) : Prog := all [setF BMU_MNT_CTL.OP 0 op, setF BMU_MNT_CTL.LINES 0 n, setF BMU_MNT_CTL.BUSY 0 1,
  .upd (.bmu fun b => { b with mnt := some (op, lo, n + 1) })]

theorem mntBegin_only {ok : Upd → Prop} (hb : ∀ f, ok (.bmu f)) (hf : ∀ f ∈ [BMU_MNT_CTL.OP, BMU_MNT_CTL.LINES, BMU_MNT_CTL.BUSY], ∀ v, ok (.fld f 0 v))
    (op lo n : Nat) : (mntBegin op lo n).Only ok := by
  simp only [mntBegin, Only.cons, Only.nil, Only.setF, Only.upd, and_true]
  exact ⟨hf _ (by simp) _, hf _ (by simp) _, hf _ (by simp) _, hb _⟩

theorem mntGo_run {s : State} {op n : Nat} (hop : op ≠ 3) (hbusy : s.get BMU_MNT_CTL.BUSY 0 = 0)
    (hok : s.dramOk (64 * s.get BMU_MNT_ADDR.ADDR 0) (64 * (n + 1)) = true) :
    (mntGo .keeper op n).run s = (mntApply op (s.get BMU_MNT_ADDR.ADDR 0) (n + 1)).run ((mntBegin op (s.get BMU_MNT_ADDR.ADDR 0) n).run s) := by
  have hkept : FieldsKept mntFields s ((setF BMU_MNT_CTL.LINES 0 n).run ((setF BMU_MNT_CTL.OP 0 op).run s)) :=
    Prog.Only.fieldsKept (p := .seq (setF BMU_MNT_CTL.OP 0 op) (setF BMU_MNT_CTL.LINES 0 n)) (by simp +decide [Upd.clearOf, Fld.clearOf, mntFields]) s
  have haddr := hkept BMU_MNT_ADDR.ADDR (by simp [mntFields]) 0
  have hidle := (hkept BMU_MNT_CTL.BUSY (by simp [mntFields]) 0).trans hbusy
  rw [mntGo, keeperOnly_keeper, Prog.run_seq, Prog.run_seq, Prog.run_ask]
  simp only [haddr, hkept.dramOk, hok, State.on, hidle, hop, bne_self_eq_false, Bool.not_true, Bool.false_eq_true, or_self, if_false]
  rfl

/-- What has begun. -/
theorem mntBegin_shows {op lo n : Nat} (hop : op < 4) (hn : n < 2 ^ 20) (s : State) :
    ((mntBegin op lo n).run s).get BMU_MNT_CTL.BUSY 0 = 1 ∧ ((mntBegin op lo n).run s).get BMU_MNT_CTL.OP 0 = op ∧
      ((mntBegin op lo n).run s).get BMU_MNT_CTL.LINES 0 = n ∧ ((mntBegin op lo n).run s).bmu.mnt = some (op, lo, n + 1) := by
  simp only [mntBegin, Prog.run_all_cons, Prog.run_all_nil, Prog.run_setF, Prog.run_upd, Upd.apply_get _ _ (Upd.onRegs_bmu _)]
  refine ⟨?_, ?_, ?_, rfl⟩
  · exact State.get_fld_self _ _ _ _ (by decide)
  · rw [State.get_fld_ne _ _ _ _ _ _ (by decide), State.get_fld_ne _ _ _ _ _ _ (by decide), State.get_fld_self _ _ _ _ (by decide)]
    exact Nat.mod_eq_of_lt hop
  · rw [State.get_fld_ne _ _ _ _ _ _ (by decide), State.get_fld_self _ _ _ _ (by decide)]
    exact Nat.mod_eq_of_lt hn

/-- The updates of an operation: an INVALIDATE alone gives memory back what DRAM holds. -/
theorem mntApply_only {ok : Upd → Prop} {op : Nat} (hb : ∀ f, ok (.bmu f)) (hused : op ≠ 0 → ∀ v, ok (.fld BMU_EVB_STAT.USED 0 v))
    (hpeak : op ≠ 0 → ∀ v, ok (.fld BMU_EVB_STAT.PEAK 0 v)) (hm : op = 1 → ∀ a b, ok (.mem a b)) (lo n : Nat) : (mntApply op lo n).Only ok := by
  have hput : op = 1 → ∀ bs a, (putBytes a bs).Only ok := fun h bs => by
    induction bs with
    | nil => exact fun _ => trivial
    | cons b l ih => exact fun a => ⟨hm h a b, ih (a + 1)⟩
  simp only [mntApply, dropDirty, Only.ask, Only.seq, Only.when, Only.each, Only.ite, Only.upd, Only.cons, Only.nil, and_true]
  refine fun s => ⟨fun _ e _ => lineOut_only hb _, fun _ => hb _, fun h0 => ⟨fun h1 => ?_, hb _, evbShow_only (hused h0) (hpeak h0)⟩⟩
  exact ⟨fun e _ => hput (by simpa using h1) _ _, fun e _ => hput (by simpa using h1) _ _⟩

theorem putBytes_keepsView {α : Type} {π : BmuState → α} (a : Nat) (bs : List Byte) : (putBytes a bs).Only (Upd.keepsView π) := by
  induction bs generalizing a with
  | nil => trivial
  | cons b l ih => exact ⟨trivial, ih _⟩

/-- The operation in progress stays. -/
theorem mntApply_mnt (op lo n : Nat) (s : State) : ((mntApply op lo n).run s).bmu.mnt = s.bmu.mnt := by
  refine Prog.Only.viewKept (π := BmuState.mnt) ?_ s
  simp only [mntApply, dropDirty, Only.ask, Only.seq, Only.when, Only.each, Only.ite, Only.upd, Only.cons, Only.nil, and_true]
  exact fun s => ⟨fun _ e _ => lineOut_keepsView mnt_ignoresChecks _, fun _ _ => rfl,
    fun _ => ⟨fun _ => ⟨fun _ _ => putBytes_keepsView _ _, fun _ _ => putBytes_keepsView _ _⟩, fun _ => rfl, fun _ => ⟨trivial, trivial⟩⟩⟩

/-- A clean leaves no dirty line in its range. -/
theorem mntApply_cleans (lo n : Nat) (s : State) : ∀ e ∈ ((mntApply 0 lo n).run s).bmu.lines, inLines lo n e.1 = true → e.2.dirty = false := by
  intro e he hin
  obtain ⟨x, -, rfl⟩ := List.mem_map.1 he
  by_cases hx : inLines lo n x.1 = true
  · rw [if_pos hx]
  · rw [if_neg hx] at hin
    exact absurd hin hx

/-- An invalidation leaves no line in its range. -/
theorem mntApply_empties {op : Nat} (hop : op ≠ 0) (lo n : Nat) (s : State) : ∀ e ∈ ((mntApply op lo n).run s).bmu.lines, inLines lo n e.1 = false := by
  intro e he
  rw [mntApply, Prog.run_ask, Prog.run_seq, if_neg hop, Prog.run_all_cons, Prog.run_all_cons, Prog.run_all_cons, Prog.run_all_nil, evbShow_bmu] at he
  simpa using (List.mem_filter.1 he).2

/-- Both together: what every operation shows. -/
theorem mntGo_shows {s : State} {op n : Nat} (hop : op < 3) (hn : n < 2 ^ 20) (hbusy : s.get BMU_MNT_CTL.BUSY 0 = 0)
    (hok : s.dramOk (64 * s.get BMU_MNT_ADDR.ADDR 0) (64 * (n + 1)) = true) :
    ((mntGo .keeper op n).run s).get BMU_MNT_CTL.BUSY 0 = 1 ∧ ((mntGo .keeper op n).run s).get BMU_MNT_CTL.OP 0 = op ∧
      ((mntGo .keeper op n).run s).get BMU_MNT_CTL.LINES 0 = n ∧ ((mntGo .keeper op n).run s).bmu.mnt = some (op, s.get BMU_MNT_ADDR.ADDR 0, n + 1) := by
  rw [mntGo_run (by omega) hbusy hok]
  obtain ⟨hb, ho, hl, hm⟩ := mntBegin_shows (op := op) (lo := s.get BMU_MNT_ADDR.ADDR 0) (by omega) hn s
  generalize (mntBegin op (s.get BMU_MNT_ADDR.ADDR 0) n).run s = u at hb ho hl hm
  have hevb : RegName.BMU_EVB_STAT ≠ .BMU_MNT_CTL := by decide
  have hget : ∀ f : Fld, f.reg = .BMU_MNT_CTL → ((mntApply op (s.get BMU_MNT_ADDR.ADDR 0) (n + 1)).run u).get f 0 = u.get f 0 := fun f hf =>
    Prog.Only.get (by
      rw [hf]
      exact mntApply_only (fun _ => trivial) (fun _ _ => hevb) (fun _ _ => hevb) (fun _ _ _ => trivial) _ _) u 0
  exact ⟨(hget _ rfl).trans hb, (hget _ rfl).trans ho, (hget _ rfl).trans hl, (mntApply_mnt _ _ _ _).trans hm⟩

/-- Within MNT_CTL and the buffer's state; an operation other than a clean shows the eviction buffer, an INVALIDATE writes memory. -/
theorem mntGo_unchanged {s : State} {op n : Nat} (hop : op = 0 ∨ op = 2) (hbusy : s.get BMU_MNT_CTL.BUSY 0 = 0)
    (hok : s.dramOk (64 * s.get BMU_MNT_ADDR.ADDR 0) (64 * (n + 1)) = true) {rs : List (RegName × Nat)} (hr : (.BMU_MNT_CTL, 0) ∈ rs)
    (he : op ≠ 0 → (.BMU_EVB_STAT, 0) ∈ rs) : Unchanged rs [.bmu] [] s ((mntGo .keeper op n).run s) := by
  rw [mntGo_run (by omega) hbusy hok]
  have hbegin : (mntBegin op (s.get BMU_MNT_ADDR.ADDR 0) n).Only (Upd.within rs [.bmu] []) :=
    mntBegin_only (by simp [Upd.within]) (by simp [Upd.within, BMU_MNT_CTL.OP, BMU_MNT_CTL.LINES, BMU_MNT_CTL.BUSY, hr]) _ _ _
  exact (hbegin.unchanged s).prog (mntApply_only (by simp [Upd.within]) (fun h _ => he h) (fun h _ => he h) (by omega) _ _)

theorem mntInvalidate_changes {s : State} {n : Nat} (hbusy : s.get BMU_MNT_CTL.BUSY 0 = 0)
    (hok : s.dramOk (64 * s.get BMU_MNT_ADDR.ADDR 0) (64 * (n + 1)) = true) :
    ChangesOnly [.BMU_MNT_CTL, .BMU_EVB_STAT] [.bmu] true s ((mntGo .keeper 1 n).run s) := by
  rw [mntGo_run (by decide) hbusy hok]
  have hbegin : (mntBegin 1 (s.get BMU_MNT_ADDR.ADDR 0) n).Only (Upd.among (· ∈ [RegName.BMU_MNT_CTL, .BMU_EVB_STAT]) (· ∈ [Part.bmu]) (true = true)) :=
    mntBegin_only (by simp [Upd.among]) (by simp [Upd.among, BMU_MNT_CTL.OP, BMU_MNT_CTL.LINES, BMU_MNT_CTL.BUSY]) _ _ _
  exact (hbegin.changesOnly s).prog (mntApply_only (by simp [Upd.among]) (by simp [Upd.among, BMU_EVB_STAT.USED]) (by simp [Upd.among, BMU_EVB_STAT.PEAK])
    (by simp [Upd.among]) _ _)

/-- Settles O21: a miss is answered and its line placed where the class allocates, in self-refresh no longer; an eviction's write frees its entry; a partial
store is in memory; an operation of maintenance is busy with its range, which holds no dirty line, or none, from then on. -/
theorem bufferCache : Obligations.BufferCache := by
  unfold Obligations.BufferCache
  refine ⟨fun s m a n hok hdram hmiss hevb hpoison hpf => ⟨_, rfl, ?_⟩, fun s m a o0 o1 pre n hok hdram hmiss hevb hserves => ⟨_, rfl, ?_⟩,
    fun s l hin => ⟨_, rfl, ?_⟩, fun s m a bs hok hdram hcc hline hpart => ⟨_, rfl, ?_⟩, fun s n lo hlo hbusy hok => ⟨_, rfl, ?_⟩,
    fun s n lo hlo hbusy hok => ⟨_, rfl, ?_⟩, fun s n lo hlo hbusy hok => ⟨_, rfl, ?_⟩, fun s o lo n hmnt hwait => ⟨_, rfl, ?_⟩⟩
  · obtain ⟨hkept, hout, hsr, hplaced⟩ := missFill_clean hok hdram hmiss hevb hpoison hpf n
    exact ⟨hkept, hout, hsr, fun ⟨hcc, hno, hmask⟩ => hplaced (allocates_of hcc hno hmask)⟩
  · obtain ⟨hsr, hout, hplaced⟩ := missFill_inService hok hdram hmiss hevb hserves o0 o1 pre n
    refine ⟨hsr, fun h => ?_, fun h => ?_, fun ⟨hcc, hno, hmask⟩ => hplaced (allocates_of hcc hno hmask)⟩
    · rwa [askedHalf, if_neg h] at hout
    · rwa [askedHalf, if_pos h] at hout
  · have hrun : (evictionDoneProg l.toNat).run s = (evbWritten l.toNat).run s := by rw [evictionDoneProg, Prog.run_ask, Prog.run_when, if_pos hin]
    rw [hrun]
    exact ⟨evbWritten_changes _ s, evbWritten_frees _ s, evbWritten_lines _ s, evbWritten_out _ s⟩
  · rw [partialMerge_run hok hdram hcc hline hpart]
    exact partialMerge_stores a.toNat bs s
  · subst hlo
    obtain ⟨hb, ho, hl, hm⟩ := mntGo_shows (op := 0) (by decide) n.isLt hbusy hok
    refine ⟨mntGo_unchanged (.inl rfl) hbusy hok (by simp) (by simp), hb, ho, hl, hm, ?_⟩
    rw [show mntCleanProg .keeper n.toNat = mntGo .keeper 0 n.toNat from rfl, mntGo_run (by decide) hbusy hok]
    exact mntApply_cleans _ _ _
  · subst hlo
    obtain ⟨hb, ho, hl, hm⟩ := mntGo_shows (op := 1) (by decide) n.isLt hbusy hok
    refine ⟨mntInvalidate_changes hbusy hok, hb, ho, hl, hm, ?_⟩
    rw [show mntInvalidateProg .keeper n.toNat = mntGo .keeper 1 n.toNat from rfl, mntGo_run (by decide) hbusy hok]
    exact mntApply_empties (by decide) _ _ _
  · subst hlo
    obtain ⟨hb, ho, hl, hm⟩ := mntGo_shows (op := 2) (by decide) n.isLt hbusy hok
    refine ⟨mntGo_unchanged (.inr rfl) hbusy hok (by simp) (by simp), hb, ho, hl, hm, ?_⟩
    rw [show mntCleanInvalidateProg .keeper n.toNat = mntGo .keeper 2 n.toNat from rfl, mntGo_run (by decide) hbusy hok]
    exact mntApply_empties (by decide) _ _ _
  · have hdone : (o == 1 || !(s.bmu.evb.any fun e => inLines lo n e.line)) = true := by
      obtain h | h := hwait
      · simp [h]
      · simp [h]
    have hrun : mntDoneProg.run s = (Upd.bmu fun b => { b with mnt := none }).apply ((setF BMU_MNT_CTL.BUSY 0 0).run s) := by
      rw [mntDoneProg, Prog.run_ask, hmnt]
      simp only [Prog.run_when, hdone, if_true, Prog.run_seq, Prog.run_upd]
    rw [hrun]
    refine ⟨((Unchanged.refl s).prog (p := setF BMU_MNT_CTL.BUSY 0 0) (by simp [Upd.within, BMU_MNT_CTL.BUSY])).app (by simp [Upd.within]), ?_, rfl⟩
    rw [Upd.apply_get _ _ (Upd.onRegs_bmu _)]
    exact State.get_fld_self _ _ _ _ (by decide)

end Sys2Proof.Machine
end
